-- ==== Sys2Proof/Word.lean ====
section
/-! DEFINITION. The word types and their plainest arithmetic: bit fields of a 32-bit register word and the exact
rounding the spec asks for everywhere (to nearest, ties to even). -/

namespace Sys2Proof

/-- A 32-bit register or fabric word. -/
abbrev Word := BitVec 32

/-- A byte of fabric memory. -/
abbrev Byte := BitVec 8

/-- A 64-bit quantity held low word first (R11): positions, velocities and accelerations in Q32.32 (R8, R9). -/
abbrev Word64 := BitVec 64

end Sys2Proof
end

