-- ==== Sys2Proof/Syntax.lean ====
section
/-! DEFINITION. The commands of the module: one constructor per row of spec/opcode_table.json, in the table's
order. The first operand `g` of every command is the grain (a value of CLK.GRAIN, R16) in which the step falls.
The other operands carry what comes from outside the state: register values and addresses written, the requester
(R35 numbering), pin levels and times measured on pins, frames received, readings of sensors. -/

namespace Sys2Proof

/-- The levels one safety channel reads in its tick (R358): the two lines of the eight pairs, SRST, the readback
of the four safety outputs (R369). -/
structure TickInputs where
  siA : BitVec 8
  siB : BitVec 8
  srst : Bool
  soRead : BitVec 4
  deriving DecidableEq, Repr

/-- What the power-on supervisor has seen (R426, R431): VLOG and VHOLD, the microseconds for which PRESENT_N has read low
and the lever switch closed without a break, and those for which both voltages have stood together. -/
structure PowerUp where
  vlogMv : Nat
  vholdMv : Nat
  seatedUs : Nat
  supplyUs : Nat
  refPresent : Bool
  slotId : BitVec 4
  deriving DecidableEq, Repr

/-- A boundary-scan instruction (R56). -/
inductive JtagInstr where
  | bypass | extest | clamp | intest | other
  deriving DecidableEq, Repr

/-- The data input of a sigma-delta channel over the window of an output (R106): the capture edge of its last bit, and the
level at the input as it changes. -/
structure SdmBits where
  last : Nat            -- fine time of the last capture edge at the connector
  first : Bool          -- the level of the data input before the first change listed
  toggles : List Nat    -- grains in which the level at the input changes
  deriving DecidableEq, Repr

/-- A memory error met by an engine access (R156). -/
inductive EccErr where
  | none | dataCorrected | progCorrected | dataUncorrectable | progUncorrectable
  deriving DecidableEq, Repr

/-- The transport of a received PTP message (R292). -/
inductive PtpVia where
  | layer2 | udp4 | other
  deriving DecidableEq, Repr

/-- The header of a received PTP message (R292): version, transport, domain, the port of the LAN it arrived on, the
clockIdentity of its sender, sequence number, and correctionField in units of 2^-16 ns. -/
structure PtpHdr where
  major : BitVec 4
  minor : BitVec 4
  via : PtpVia
  multicast : Bool
  domain : BitVec 8
  secondPort : Bool
  src : BitVec 64
  seq : BitVec 16
  correction : Int
  deriving DecidableEq, Repr

/-- A PTP Sync or Follow_Up as received (R292 to R294): of a Sync the MAC's stamp at the port, in quarters of a grain (R300);
originTimestamp or preciseOriginTimestamp in units of 2^-16 ns; the announced logSyncInterval; the cumulative rate offset of
802.1AS (R303), in units of 2^-41. -/
structure PtpMsg where
  hdr : PtpHdr
  stamp : Nat
  origin : Nat
  logInterval : Int
  twoStep : Bool
  rate : Int
  deriving DecidableEq, Repr

/-- A received Announce (R292, R293): its data set and logAnnounceInterval. -/
structure PtpAnnounceMsg where
  hdr : PtpHdr
  logInterval : Int
  priority1 : Nat
  clockClass : Nat
  clockAccuracy : Nat
  variance : Nat
  priority2 : Nat
  gmId : BitVec 64
  stepsRemoved : Nat
  deriving DecidableEq, Repr

/-- The answers of a path-delay measurement (R292). -/
inductive PtpResp where
  | delay | pdelay | pdelayFollowUp
  deriving DecidableEq, Repr

/-- A received Delay_Resp, Pdelay_Resp or Pdelay_Resp_Follow_Up (R294): whether it answers this port, the MAC's stamp of a
Pdelay_Resp in quarters of a grain, its timestamp field in units of 2^-16 ns. -/
structure PtpRespMsg where
  hdr : PtpHdr
  kind : PtpResp
  ours : Bool
  stamp : Nat
  time : Nat
  twoStep : Bool
  deriving DecidableEq, Repr

/-- A received Delay_Req or Pdelay_Req (R293), with the MAC's stamp in quarters of a grain. -/
structure PtpReqMsg where
  hdr : PtpHdr
  pdelay : Bool
  stamp : Nat
  deriving DecidableEq, Repr

/-- What a received frame is for the switch (R309 to R320). -/
inductive FrameKind where
  | ptpSync       -- forwarded with residence and link delay (R302)
  | ptpEvent      -- another event message, forwarded with residence correction (R302)
  | ptpGeneral
  | cyclic | announcement | lldp | prpSupervision | pause
  | software      -- addressed to the module, none of the others
  | foreign       -- for another module only
  deriving DecidableEq, Repr

/-- A frame at an ingress port: port 0 to 3 (A1, A2, B1, B2), octets, PCP when tagged, EtherType, kind, whether it
is addressed to the module or multicast, PRP source and sequence number when it carries a trailer, whether its FCS
is good, the MAC's stamp at the port in quarters of a grain (R300), and its content. -/
structure Frame where
  port : Nat
  len : Nat
  pcp : Option (BitVec 3)
  etype : BitVec 16
  kind : FrameKind
  forUs : Bool
  multicast : Bool
  prp : Option (BitVec 48 × BitVec 16)
  fcsOk : Bool
  stamp : Nat
  data : List (BitVec 8)
  deriving DecidableEq, Repr

/-- A received partner announcement (R326), with the PRP source and sequence number when it carries a trailer. -/
structure Announcement where
  mac : BitVec 48
  flags : BitVec 8
  node : BitVec 16
  slot : BitVec 4
  mode : BitVec 3
  annInt : Nat
  prp : Option (BitVec 48 × BitVec 16)
  deriving DecidableEq, Repr

/-- A CAN frame as it completes on the bus (R335). -/
structure CanFrame where
  word1 : Word              -- identifier, IDE, RTR
  flags : Word              -- entry word 2 without OWN and GAP
  sof : Nat                 -- grain in which its start of frame was first sampled
  data : List Word          -- entry words 4 to 19
  own : Bool                -- sent by this channel
  deriving DecidableEq, Repr

/-- The thermal supervisor's readings (R442, R447): TS0 to TS11 in 1/16 °C and the ring-oscillator count. -/
structure ThermalReading where
  temps : List Int
  roCount : Nat
  deriving DecidableEq, Repr

/-- What a Molad frame header carries (R424). -/
structure MoladHdr where
  lane : Bool
  own : Bool
  sync : Bool
  lever : Bool
  ack : Bool
  posB : Bool
  seq : BitVec 16
  stamp : Nat               -- sender's CT grain at send
  deriving DecidableEq, Repr

/-- The commands. -/
inductive Instr where
  | refclkLoss (g : Nat)
  | clkRefWrite (g : Nat) (v : Word) (refPresent : Bool)
  | clockFail (g : Nat) (lockLost : Bool) (gclkCount : Nat)
  | pllRelockTimeout (g : Nat)
  | pllRelock (g : Nat) (refPresent : Bool)
  | batchBoundary (g : Nat)
  | batchChangeApply (g : Nat)
  | ctStep (g : Nat)
  | safetyTick (g : Nat) (chB : Bool) (inp : TickInputs)
  | semRead (g : Nat) (req : Nat) (n : Fin 64)
  | semWrite (g : Nat) (req : Nat) (n : Fin 64) (v : Word)
  | commitGo (g : Nat) (page : Fin 512)
  | commitDiscard (g : Nat) (page : Fin 512)
  | softReset (g : Nat) (page : Fin 512)
  | lockWrite (g : Nat) (req : Nat) (page : Fin 512) (v : Word)
  | evtClear (g : Nat) (page : Fin 512) (v : Word)
  | registerWrite (g : Nat) (req : Nat) (addr : Nat) (bytes : Nat) (v : Word)
  | modeRequest (g : Nat) (m : BitVec 3)
  | powerOnRelease (g : Nat) (p : PowerUp)
  | bootComplete (g : Nat)
  | debugImageLoad (g : Nat)
  | secVerAdvance (g : Nat) (v : BitVec 6)
  | flashErase (g : Nat)
  | flashProgram (g : Nat)
  | flashCmdDone (g : Nat)
  | acDebugHalt (g : Nat) (core : Fin 4)
  | acDebugResume (g : Nat) (core : Fin 4)
  | safetyCoreHalt (g : Nat) (chB : Bool)
  | jtagInstruction (g : Nat) (j : JtagInstr)
  | legEnable (g : Nat) (leg : Fin 96)
  | legDisable (g : Nat) (leg : Fin 96)
  | bridgeWrap (g : Nat) (b : Fin 32)
  | bridgeReload (g : Nat) (b : Fin 32)
  | pulEdge (g : Nat) (leg : Fin 96) (rise : Bool)
  | hsOnTimeExceeded (g : Nat) (leg : Fin 96)
  | legCntClr (g : Nat) (leg : Fin 96)
  | gstPeriod (g : Nat) (leg : Fin 96) (period high : Nat)
  | gstHardFault (g : Nat) (leg : Fin 96)
  | gstStuckHigh (g : Nat) (leg : Fin 96)
  | tripAssert (g : Nat) (t : Fin 16) (level sampled : Bool)
  | tripFiltered (g : Nat) (t : Fin 16)
  | tripBlankEnd (g : Nat) (t : Fin 16)
  | tripClr (g : Nat) (mask : BitVec 16)
  | didtBlankEnd (g : Nat) (leg : Fin 96)
  | retryWaitExpiry (g : Nat) (axis : Fin 32) (cls : Fin 3)
  | retryAct (g : Nat) (axis : Fin 32) (cls : Fin 3)
  | retryTimeout (g : Nat) (axis : Fin 32) (cls : Fin 3)
  | tryCountForget (g : Nat) (axis : Fin 32) (cls : Fin 3)
  | axisClr (g : Nat) (mask : Word)
  | sdmConversion (g : Nat) (n : Fin 112) (d : SdmBits)
  | crustOutput (g : Nat) (n : Fin 112) (d : SdmBits)
  | sdmCal (g : Nat) (n : Fin 112)
  | sdmCalDone (g : Nat) (n : Fin 112) (disagree : List Nat)
  | sdmDataStuck (g : Nat) (n : Fin 112) (held : Nat)
  | dclkLost (g : Nat) (m : Fin 8) (since : Nat)
  | sdmChannelRestart (g : Nat) (n : Fin 112)
  | fbLineChange (g : Nat) (n : Fin 32) (lines : BitVec 8) (first : Nat)
  | fbGlitch (g : Nat) (n : Fin 32) (len : Nat)
  | ssiReadStart (g : Nat) (n : Fin 32) (l0 : Bool)
  | ssiFrameDone (g : Nat) (n : Fin 32) (samples : List Bool)
  | posLoad (g : Nat) (n : Fin 32)
  | fbCntClr (g : Nat) (n : Fin 32)
  | latchArm (g : Nat) (n : Fin 32) (k : Fin 2)
  | latchDisarm (g : Nat) (n : Fin 32) (k : Fin 2)
  | probeLatch (g : Nat) (n : Fin 32) (k : Fin 2) (level : Bool) (first : Nat)
  | probeLost (g : Nat) (n : Fin 32) (k : Fin 2) (len : Nat)
  | cmpArm (g : Nat) (n : Fin 32) (k : Fin 2)
  | cmpDisarm (g : Nat) (n : Fin 32) (k : Fin 2)
  | cmpFire (g : Nat) (n : Fin 32) (k : Fin 2)
  | nop (g : Nat) (e : Fin 16) (p : BitVec 5)
  | halt (g : Nat) (e : Fin 16) (p : BitVec 5)
  | wait (g : Nat) (e : Fin 16) (p : BitVec 5)
  | waitResume (g : Nat) (e : Fin 16)
  | clre (g : Nat) (e : Fin 16) (p : BitVec 5) (n : BitVec 6)
  | rot (g : Nat) (e : Fin 16) (p : BitVec 5)
  | br (g : Nat) (e : Fin 16) (p : BitVec 5) (c : BitVec 4) (t : BitVec 14)
  | call (g : Nat) (e : Fin 16) (p : BitVec 5) (c : BitVec 4) (t : BitVec 14)
  | ret (g : Nat) (e : Fin 16) (p : BitVec 5) (k : BitVec 3)
  | loop (g : Nat) (e : Fin 16) (p : BitVec 5) (n : BitVec 13) (len : BitVec 8)
  | loopr (g : Nat) (e : Fin 16) (p : BitVec 5) (r : BitVec 5) (len : BitVec 8)
  | mloop (g : Nat) (e : Fin 16) (p : BitVec 5) (r : BitVec 5) (sc : BitVec 4) (len : BitVec 8)
  | mloopi (g : Nat) (e : Fin 16) (p : BitVec 5) (n : BitVec 9) (sc : BitVec 4) (len : BitVec 8)
  | pset (g : Nat) (e : Fin 16) (p : BitVec 5) (c : BitVec 4) (pg : BitVec 2) (x : Bool) (h : BitVec 2)
  | mov (g : Nat) (e : Fin 16) (p : BitVec 5) (d src : BitVec 7)
  | lda (g : Nat) (e : Fin 16) (p : BitVec 5) (r : BitVec 5) (imm : BitVec 16)
  | adda (g : Nat) (e : Fin 16) (p : BitVec 5) (r : BitVec 5) (imm : BitVec 16)
  | ld (g : Nat) (e : Fin 16) (p : BitVec 5) (d : BitVec 5) (k am : BitVec 3) (disp : BitVec 4) (ecc : EccErr)
  | st (g : Nat) (e : Fin 16) (p : BitVec 5) (d : BitVec 5) (k am : BitVec 3) (disp : BitVec 4) (ecc : EccErr)
  | ldr (g : Nat) (e : Fin 16) (p : BitVec 5) (d : BitVec 5) (k am : BitVec 3) (disp : BitVec 4) (ecc : EccErr)
  | str (g : Nat) (e : Fin 16) (p : BitVec 5) (d : BitVec 5) (k am : BitVec 3) (disp : BitVec 4)
  | ldl (g : Nat) (e : Fin 16) (p : BitVec 5) (d : BitVec 5) (k am : BitVec 3) (disp : BitVec 4) (ecc : EccErr)
  | stl (g : Nat) (e : Fin 16) (p : BitVec 5) (d : BitVec 5) (k am : BitVec 3) (disp : BitVec 4)
  | ldi (g : Nat) (e : Fin 16) (p : BitVec 5) (d : BitVec 5) (imm : BitVec 16)
  | ldil (g : Nat) (e : Fin 16) (p : BitVec 5) (d : BitVec 5) (imm : BitVec 16)
  | ldac (g : Nat) (e : Fin 16) (p : BitVec 5) (a : BitVec 3) (imm : BitVec 18)
  | mpy (g : Nat) (e : Fin 16) (p : BitVec 5) (a : BitVec 3) (x y : BitVec 5)
  | mac (g : Nat) (e : Fin 16) (p : BitVec 5) (a : BitVec 3) (x y : BitVec 5)
  | msu (g : Nat) (e : Fin 16) (p : BitVec 5) (a : BitVec 3) (x y : BitVec 5)
  | mpyp (g : Nat) (e : Fin 16) (p : BitVec 5) (a : BitVec 3) (x y : BitVec 5) (m : BitVec 4) (k : BitVec 3) (u : Bool)
  | macp (g : Nat) (e : Fin 16) (p : BitVec 5) (a : BitVec 3) (x y : BitVec 5) (m : BitVec 4) (k : BitVec 3) (u : Bool)
  | msup (g : Nat) (e : Fin 16) (p : BitVec 5) (a : BitVec 3) (x y : BitVec 5) (m : BitVec 4) (k : BitVec 3) (u : Bool)
  | mpys (g : Nat) (e : Fin 16) (p : BitVec 5) (a : BitVec 3) (x y : BitVec 5) (m : BitVec 4) (k : BitVec 3) (u : Bool)
  | macs (g : Nat) (e : Fin 16) (p : BitVec 5) (a : BitVec 3) (x y : BitVec 5) (m : BitVec 4) (k : BitVec 3) (u : Bool)
  | msus (g : Nat) (e : Fin 16) (p : BitVec 5) (a : BitVec 3) (x y : BitVec 5) (m : BitVec 4) (k : BitVec 3) (u : Bool)
  | tap (g : Nat) (e : Fin 16) (p : BitVec 5) (a i j : BitVec 3) (m : BitVec 5) (c ui uj s z : Bool)
  | add (g : Nat) (e : Fin 16) (p : BitVec 5) (a : BitVec 3) (s : Bool) (r : BitVec 5)
  | sub (g : Nat) (e : Fin 16) (p : BitVec 5) (a : BitVec 3) (s : Bool) (r : BitVec 5)
  | addl (g : Nat) (e : Fin 16) (p : BitVec 5) (a : BitVec 3) (s : Bool) (r : BitVec 5)
  | subl (g : Nat) (e : Fin 16) (p : BitVec 5) (a : BitVec 3) (s : Bool) (r : BitVec 5)
  | cmp (g : Nat) (e : Fin 16) (p : BitVec 5) (a : BitVec 3) (s : Bool) (r : BitVec 5)
  | neg (g : Nat) (e : Fin 16) (p : BitVec 5) (a : BitVec 3)
  | abs (g : Nat) (e : Fin 16) (p : BitVec 5) (a : BitVec 3)
  | clr (g : Nat) (e : Fin 16) (p : BitVec 5) (a : BitVec 3)
  | min (g : Nat) (e : Fin 16) (p : BitVec 5) (a : BitVec 3) (s : Bool) (r : BitVec 5)
  | max (g : Nat) (e : Fin 16) (p : BitVec 5) (a : BitVec 3) (s : Bool) (r : BitVec 5)
  | sat (g : Nat) (e : Fin 16) (p : BitVec 5) (a : BitVec 3)
  | and (g : Nat) (e : Fin 16) (p : BitVec 5) (a : BitVec 3) (s : Bool) (r : BitVec 5)
  | or (g : Nat) (e : Fin 16) (p : BitVec 5) (a : BitVec 3) (s : Bool) (r : BitVec 5)
  | xor (g : Nat) (e : Fin 16) (p : BitVec 5) (a : BitVec 3) (s : Bool) (r : BitVec 5)
  | ash (g : Nat) (e : Fin 16) (p : BitVec 5) (a : BitVec 3) (s : Bool) (n : BitVec 6)
  | lsh (g : Nat) (e : Fin 16) (p : BitVec 5) (a : BitVec 3) (s : Bool) (n : BitVec 6)
  | exp (g : Nat) (e : Fin 16) (p : BitVec 5) (a : BitVec 3) (d : BitVec 5)
  | nrm (g : Nat) (e : Fin 16) (p : BitVec 5) (a : BitVec 3) (d : BitVec 5)
  | scl (g : Nat) (e : Fin 16) (p : BitVec 5) (a : BitVec 3) (x : BitVec 5) (b : BitVec 3)
  | pwr (g : Nat) (e : Fin 16) (p : BitVec 5) (a : BitVec 3) (x fall : Bool) (n : BitVec 7)
  | pcom (g : Nat) (e : Fin 16) (p : BitVec 5) (x : Bool) (n : BitVec 5)
  | fld (g : Nat) (e : Fin 16) (p : BitVec 5) (d a : BitVec 3)
  | fst (g : Nat) (e : Fin 16) (p : BitVec 5) (d a : BitVec 3)
  | illegalInstruction (g : Nat) (e : Fin 16) (w : Word)
  | breakpoint (g : Nat) (e : Fin 16)
  | hytFabricBusError (g : Nat) (e : Fin 16) (addr : Word)
  | signalArrival (g : Nat) (e : Fin 16) (i : Fin 32)
  | portWriteApply (g : Nat) (e : Fin 16)
  | portCommitApply (g : Nat) (e : Fin 16)
  | engineTimerExpiry (g : Nat) (e : Fin 16)
  | doorbell (g : Nat) (e : Fin 16) (v : BitVec 16)
  | hytEnable (g : Nat) (e : Fin 16)
  | hytDisable (g : Nat) (e : Fin 16)
  | haltReq (g : Nat) (e : Fin 16)
  | hytStep (g : Nat) (e : Fin 16)
  | hytResume (g : Nat) (e : Fin 16)
  | hytCntClr (g : Nat) (e : Fin 16)
  | hytWatchdog (g : Nat) (e : Fin 16)
  | hytPmWrite (g : Nat) (e : Fin 16) (i : BitVec 14) (v : Word)
  | hytAxesWrite (g : Nat) (e : Fin 16) (v : Word)
  | sinMapWrite (g : Nat) (e : Fin 16) (i : Fin 32) (v : Word)
  | wselWrite (g : Nat) (e : Fin 16) (j : Fin 15) (v : Word)
  | kernelAxisStart (g : Nat) (e : Fin 16) (slot : Bool)
  | kernelBatchTask (g : Nat) (e : Fin 16) (slot : Bool)
  | kernelCurrentUpdate (g : Nat) (e : Fin 16) (slot : Bool)
  | segmentRetire (g : Nat) (p : Fin 136)
  | push (g : Nat) (v : Word)
  | profileStart (g : Nat)
  | profileFlush (g : Nat)
  | profileLoad (g : Nat)
  | profileClear (g : Nat)
  | stepPulse (g : Nat) (c : Fin 32)
  | masterFeed (g : Nat) (m : BitVec 3)
  | rejoin (g : Nat) (m : BitVec 3)
  | camCheck (g : Nat) (t : Fin 16)
  | camCheckDone (g : Nat) (t : Fin 16)
  | camNextWrite (g : Nat) (u : Fin 32) (t : BitVec 4)
  | axEnable (g : Nat) (a : Fin 32)
  | axStartTimeExpiry (g : Nat) (a : Fin 32)
  | axStop (g : Nat) (a : Fin 32)
  | axQstop (g : Nat) (a : Fin 32)
  | axResume (g : Nat) (a : Fin 32)
  | axHome (g : Nat) (a : Fin 32)
  | axDisable (g : Nat) (a : Fin 32)
  | axReset (g : Nat) (a : Fin 32)
  | engFaultWrite (g : Nat) (a : Fin 32) (v : Word)
  | axLegSkipWrite (g : Nat) (a : Fin 32) (v : Word)
  | limitAccepted (g : Nat) (a : Fin 32) (neg level : Bool) (first : Nat)
  | limitRelease (g : Nat) (a : Fin 32) (neg : Bool)
  | homeLevelAccepted (g : Nat) (a : Fin 32) (level : Bool) (first : Nat)
  | ptpSync (g : Nat) (domB : Bool) (m : PtpMsg)
  | ptpFollowUp (g : Nat) (domB : Bool) (m : PtpMsg)
  | ptpDelayResp (g : Nat) (domB : Bool) (m : PtpRespMsg)
  | ptpDelayReq (g : Nat) (domB : Bool) (m : PtpReqMsg)
  | ptpAnnounce (g : Nat) (domB : Bool) (m : PtpAnnounceMsg)
  | announceTimeout (g : Nat) (domB : Bool)
  | syncLossTimeout (g : Nat) (domB : Bool)
  | gmSyncSend (g : Nat) (domB : Bool)
  | gmAnnounceSend (g : Nat) (domB : Bool)
  | domSet (g : Nat) (domB : Bool)
  | ctStepCmd (g : Nat) (src : Bool)
  | ctCapture (g : Nat)
  | frameReceive (g : Nat) (f : Frame)
  | frameEgress (g : Nat) (port : Fin 4)
  | gclEntryStart (g : Nat) (port : Fin 4)
  | swRxPop (g : Nat)
  | swRet (g : Nat) (cell : BitVec 13)
  | swAlloc (g : Nat)
  | swPost (g : Nat) (v : Word)
  | ledgerRead (g : Nat)
  | cyclicFrameSend (g : Nat)
  | cyclicFrameReceive (g : Nat) (lanB : Bool) (prp : Option (BitVec 48 × BitVec 16)) (data : List (BitVec 8))
  | rxStale (g : Nat) (k : Fin 32)
  | announcementSend (g : Nat)
  | announcementReceive (g : Nat) (lanB : Bool) (a : Announcement)
  | partnerLanAge (g : Nat) (entry : Nat) (lanB : Bool)
  | lldpSend (g : Nat)
  | lldpReceive (g : Nat) (port : Fin 4) (mac : BitVec 48) (ttl : Nat)
  | lldpTtlExpiry (g : Nat) (port : Fin 4)
  | prpSupervisionSend (g : Nat)
  | ptSelWrite (g : Nat) (e : BitVec 8)
  | linkChange (g : Nat) (port : Fin 4) (speed : BitVec 2)
  | canFrameReceive (g : Nat) (n : Fin 2) (f : CanFrame)
  | canShadowDrain (g : Nat) (n : Fin 2)
  | canRxRdWrite (g : Nat) (n : Fin 2) (v : Word)
  | canRxFramesRead (g : Nat) (n : Fin 2)
  | canTxRequest (g : Nat) (n : Fin 2) (s : Fin 16)
  | canTxTimed (g : Nat) (n : Fin 2) (s : Fin 16)
  | canTxAbort (g : Nat) (n : Fin 2) (s : Fin 16)
  | canTxTimeReached (g : Nat) (n : Fin 2) (s : Fin 16)
  | canTxLate (g : Nat) (n : Fin 2) (s : Fin 16)
  | canTxStart (g : Nat) (n : Fin 2)
  | canTxDone (g : Nat) (n : Fin 2) (sof : Nat)
  | canTxError (g : Nat) (n : Fin 2) (arbitration : Bool)
  | canBusOff (g : Nat) (n : Fin 2)
  | canRecover (g : Nat) (n : Fin 2)
  | canBusRecovered (g : Nat) (n : Fin 2)
  | canProtocolError (g : Nat) (n : Fin 2) (lec : BitVec 8) (tec rec : BitVec 8)
  | acqSample (g : Nat) (levels : List (BitVec 24))
  | acqArm (g : Nat)
  | acqStop (g : Nat)
  | acqSoftwareTrigger (g : Nat)
  | acqRemoteTrigger (g : Nat)
  | acqRearmEnd (g : Nat)
  | acqRelease (g : Nat) (n : BitVec 10)
  | acqLedgerRead (g : Nat)
  | ss1Timeout (g : Nat) (k : Fin 8)
  | slsMonitorStart (g : Nat) (k : Fin 8)
  | brakeLeadExpiry (g : Nat) (k : Fin 8)
  | soTestPulse (g : Nat) (j : Fin 4) (chB : Bool) (opened : Option Nat)
  | safetyStartupTests (g : Nat) (inputs : Bool) (failA failB : BitVec 4)
  | safConfigWrite (g : Nat) (off : BitVec 12) (v : Word)
  | soReqWrite (g : Nat) (v : BitVec 4)
  | sortikCompareWin (g : Nat) (j : Fin 16)
  | sortikGraceExpiry (g : Nat) (j : Fin 16)
  | sortikWatchdog (g : Nat) (j : Fin 16)
  | fieldDownstreamFrame (g : Nat) (grp : Bool) (taken : Bool)
  | fieldUpstreamFrame (g : Nat) (grp : Bool) (valid : Bool) (rb : BitVec 16) (volts : BitVec 8) (dieHot : Bool)
  | fieldInputAccept (g : Nat) (ch : Fin 32) (level : Bool) (first : Nat)
  | fieldGlitch (g : Nat) (ch : Fin 32) (len : Nat)
  | fieldWireBreak (g : Nat) (ch : Fin 32) (first : Nat)
  | fieldWireBreakEnd (g : Nat) (ch : Fin 32) (first : Nat)
  | fieldOverloadShutdown (g : Nat) (ch : Fin 32)
  | fieldOutputRestart (g : Nat) (ch : Fin 32)
  | ovlClr (g : Nat) (grp : Bool) (v : BitVec 16)
  | fieldOutSet (g : Nat) (grp : Bool) (v : BitVec 16)
  | fieldOutClr (g : Nat) (grp : Bool) (v : BitVec 16)
  | fieldPulseEnd (g : Nat) (ch : Fin 32)
  | fieldSupplyUv (g : Nat) (grp : Bool) (first : Nat)
  | fieldSupplyOv (g : Nat) (grp : Bool) (first : Nat)
  | fieldSupplyClear (g : Nat) (grp ovp : Bool) (first : Nat)
  | fieldLinkStale (g : Nat) (grp : Bool)
  | fieldDieReset (g : Nat) (grp : Bool)
  | pairClaim (g : Nat) (partnerDrive : Bool)
  | claimTimeout (g : Nat)
  | moladClaim (g : Nat) (h : MoladHdr)
  | driveContention (g : Nat)
  | partnerDriveFall (g : Nat)
  | mirrorApply (g : Nat)
  | moladCompare (g : Nat) (h : MoladHdr) (inst : Nat) (hash lvl : Word)
  | pairHashTimeout (g : Nat)
  | levelMismatch (g : Nat) (leg : Fin 96) (ena pin : Bool) (first : Nat)
  | pairSync (g : Nat)
  | syncEngineStart (g : Nat) (e : Fin 16)
  | mirrorOverflow (g : Nat)
  | pairHandover (g : Nat)
  | handoverAbandon (g : Nat)
  | handoverTake (g : Nat)
  | handoverDone (g : Nat)
  | pairLeave (g : Nat)
  | moladLaneLoss (g : Nat) (lane : Bool)
  | moladHelloSend (g : Nat)
  | moladHello (g : Nat) (h : MoladHdr) (slotId : BitVec 4) (mode : BitVec 3) (cfgHash safSig : Word)
  | moladState (g : Nat) (h : MoladHdr) (off : Nat) (words : List Word)
  | moladMirror (g : Nat) (h : MoladHdr) (apply : Word) (addr : Nat) (words : List Word)
  | moladHandover (g : Nat) (h : MoladHdr) (tH : Nat)
  | moladSafety (g : Nat) (h : MoladHdr) (stopping demands : BitVec 8) (soOn : BitVec 4)
  | moladFrameDiscard (g : Nat) (lane : Bool)
  | leverOpen (g : Nat)
  | presentNBreak (g : Nat)
  | powerFail (g : Nat) (samplesMv : List Nat)
  | shedComplete (g : Nat)
  | saveComplete (g : Nat)
  | saveCmd (g : Nat)
  | restoreCmd (g : Nat)
  | restoreComplete (g : Nat)
  | warmRestart (g since : Nat)
  | holdupExhausted (g : Nat)
  | holdTest (g : Nat) (vlogMv : Nat)
  | holdTestDone (g : Nat) (capUf esrMohm : Nat)
  | thermalRead (g : Nat) (t : ThermalReading)
  | throttleStep (g : Nat)
  | cooldownEnd (g : Nat)
  | roDisagree (g : Nat)
  | sensorStuck (g : Nat) (n : Fin 12)
  | fltWindowExpiry (g : Nat) (page : Fin 512)
  | logRecordWrite (g : Nat)
  | logRdWrite (g : Nat) (v : Word)
  | devClr (g : Nat) (v : BitVec 3)
  | scrubPass (g : Nat) (corrected : Nat) (uncorrectable : Option Nat)
  | leavenLockRegained (g : Nat) (refPresent : Bool)
  | pageEnable (g : Nat) (page : Fin 512) (on : Bool)
  | functionReady (g : Nat) (page : Fin 512) (cal : Bool)
  | latchedRead (g : Nat) (addr : Nat)
  | delayReqSend (g : Nat) (domB : Bool)
  | busIntegration (g : Nat) (n : Fin 2)
  | moladLeave (g : Nat) (h : MoladHdr)
  | moladSync (g : Nat) (h : MoladHdr) (phase : Nat) (bs : Nat)
  | leverClose (g : Nat)
  | vlogHigh (g : Nat) (mv : Nat)
  | holdTestAuto (g : Nat) (vlogMv vholdMv : Nat)
  deriving DecidableEq, Repr

end Sys2Proof
end

