-- ==== Sys2Proof/Config.lean ====
section
/-! DEFINITION. The free values of the model: what the spec leaves open, as constants with no body, so that no
proof can see what they are. Each is named in a log entry of notes/assumptions. -/

namespace Sys2Proof.Config

/-- The value of a byte of a flash sector after an erase (R65 names no erased value): the n-th byte erased. -/
opaque erasedByte : Nat → BitVec 8

/-- Whether the kernel's arithmetic rounds an inexact quotient up (the spec gives the kernel's formulas in exact
numbers and does not say how an intermediate value is rounded): numerator and denominator. -/
opaque kernelRoundsUp : Int → Nat → Bool

/-- sin of an angle of n / 2^24 turns, in units of 2^-23, as the kernel's table gives it (R199, R202). -/
opaque kernelSin : Nat → Int

/-- cos of an angle of n / 2^24 turns, in units of 2^-23, as the kernel's table gives it (R199, R202). -/
opaque kernelCos : Nat → Int

/-- The kernel's quotient by a DC link that reads 0 (R204 divides by VDC and names no result): the dividend. -/
opaque kernelDivZero : Int → Int

/-- The minor version in the kernel's KVER (R192). -/
opaque kernelMinor : BitVec 16

/-- The instruction of the kernel to which a hook returns (R215). -/
opaque kernelReturn : BitVec 14

/-- DETAIL of a log record that is no TRANSIENT record (R449 calls it source-defined): page, code, source, time. -/
opaque logDetail : Nat → Nat → Nat → Nat → BitVec 32

/-- CODE of the log record of a register write (R449 gives codes of events only): page and offset. -/
opaque writeCode : Nat → Nat → BitVec 16

/-- CODE of the log record of an acquisition trigger, for which R357 names no event bit. -/
opaque trigCode : BitVec 16

/-- CODE of the log record of a thermal shutdown, for which R449's page has no event bit. -/
opaque shutdownCode : BitVec 16

/-- A word the spec leaves open, by the state's counter of free values. -/
opaque freeWord : Nat → BitVec 32

end Sys2Proof.Config
end

