-- ==== Sys2Proof/Machine/Regs.lean ====
section
/-! DEFINITION. The register pages (R57, R59, R63): where every register of every page lies, which of its
bits software writes and how (R60), and its reset value. The state holds only the registers that differ from
their reset value, so this table is what a register reads as until something writes it. -/

namespace Sys2Proof.Machine

/-- One register, or one array of registers of one layout, of a page. `rw`: bits a write stores at once (RW);
`rws`: bits a write stores in the shadow (RWS); `w1c`: bits a written 1 clears; `rst`: the reset value. Bits in
none of the masks are RO, WO or reserved and ignore a plain write (R58, R60). -/
structure RegRow where
  off : Nat
  n : Nat
  stride : Nat
  rw : Nat
  rws : Nat
  w1c : Nat
  rst : Nat
  deriving DecidableEq, Repr

/-- The block types of R63. -/
inductive Block where
  | sys | clk | flt | thm | pwr | save | sem | gdp | prf | lsh | stp | ntm | nsw | can | acq | saf | fio
  | pair | hyt | fb | ax | car | sdm | leg | none
  deriving DecidableEq, Repr

/-! ### Page numbers (R63) -/
def pSYS : Nat := 0x000
def pCLK : Nat := 0x001
def pFLT : Nat := 0x002
def pTHM : Nat := 0x003
def pPWR : Nat := 0x004
def pSAVE : Nat := 0x005
def pSEM : Nat := 0x006
def pGDP : Nat := 0x008
def pPRF : Nat := 0x009
def pLSH : Nat := 0x00A
def pSTP : Nat := 0x00B
def pNTM : Nat := 0x00C
def pNSW : Nat := 0x00D
def pCAN (n : Nat) : Nat := 0x00E + n
def pACQ : Nat := 0x010
def pSAF : Nat := 0x011
def pFIO (g : Nat) : Nat := 0x012 + g
def pPAIR : Nat := 0x014
def pHYT (e : Nat) : Nat := 0x020 + e
def pFB (n : Nat) : Nat := 0x040 + n
def pAX (a : Nat) : Nat := 0x060 + a
def pCAR (c : Nat) : Nat := 0x080 + c
def pSDM (n : Nat) : Nat := 0x100 + n
def pLEG (n : Nat) : Nat := 0x180 + n

/-- The block and instance of a page (R63); `Block.none` for an unassigned page, which reads 0 throughout (R58). -/
def pageBlock (p : Nat) : Block × Nat :=
  if p = pSYS then (.sys, 0) else if p = pCLK then (.clk, 0) else if p = pFLT then (.flt, 0)
  else if p = pTHM then (.thm, 0) else if p = pPWR then (.pwr, 0) else if p = pSAVE then (.save, 0)
  else if p = pSEM then (.sem, 0) else if p = pGDP then (.gdp, 0) else if p = pPRF then (.prf, 0)
  else if p = pLSH then (.lsh, 0) else if p = pSTP then (.stp, 0) else if p = pNTM then (.ntm, 0)
  else if p = pNSW then (.nsw, 0) else if 0x00E ≤ p ∧ p ≤ 0x00F then (.can, p - 0x00E)
  else if p = pACQ then (.acq, 0) else if p = pSAF then (.saf, 0)
  else if 0x012 ≤ p ∧ p ≤ 0x013 then (.fio, p - 0x012) else if p = pPAIR then (.pair, 0)
  else if 0x020 ≤ p ∧ p ≤ 0x02F then (.hyt, p - 0x020) else if 0x040 ≤ p ∧ p ≤ 0x05F then (.fb, p - 0x040)
  else if 0x060 ≤ p ∧ p ≤ 0x07F then (.ax, p - 0x060) else if 0x080 ≤ p ∧ p ≤ 0x09F then (.car, p - 0x080)
  else if 0x100 ≤ p ∧ p ≤ 0x16F then (.sdm, p - 0x100) else if 0x180 ≤ p ∧ p ≤ 0x1DF then (.leg, p - 0x180)
  else (.none, 0)

/-- The block type number of R63, as ID.TYPE reads. -/
def blockType : Block → Nat
  | .sys => 0x0001 | .clk => 0x0002 | .flt => 0x0003 | .thm => 0x0004 | .pwr => 0x0005 | .save => 0x0006
  | .sem => 0x0007 | .gdp => 0x0010 | .prf => 0x0011 | .lsh => 0x0012 | .stp => 0x0013 | .ntm => 0x0020
  | .nsw => 0x0021 | .can => 0x0022 | .acq => 0x0030 | .saf => 0x0040 | .fio => 0x0041 | .pair => 0x0050
  | .hyt => 0x0060 | .fb => 0x0070 | .ax => 0x0080 | .car => 0x0090 | .sdm => 0x00A0 | .leg => 0x00B0
  | .none => 0

/-! ### The header of every page (R59) -/
def rID : Nat := 0x000
def rCAP : Nat := 0x004
def rREADY : Nat := 0x008
def rCTRL : Nat := 0x00C
def rSTAT : Nat := 0x010
def rEVT : Nat := 0x014
def rEVT_EN : Nat := 0x018
def rEVT_TS : Nat := 0x01C
def rFLT_CNT : Nat := 0x020
def rFLT_CFG : Nat := 0x024
def rCOMMIT : Nat := 0x028
def rLOCK : Nat := 0x02C

/-- The header registers; ID and READY have no written bits, CTRL's ENABLE and HALT_SAFE are stored. -/
def headerRows : List RegRow := [
  ⟨rID, 1, 4, 0, 0, 0, 0⟩, ⟨rCAP, 1, 4, 0, 0, 0, 0⟩, ⟨rREADY, 1, 4, 0, 0, 0, 0⟩,
  ⟨rCTRL, 1, 4, 0x5, 0, 0, 0⟩, ⟨rSTAT, 1, 4, 0, 0, 0, 0⟩,
  ⟨rEVT, 1, 4, 0, 0, 0xFFFFFFFF, 0⟩, ⟨rEVT_EN, 1, 4, 0xFFFFFFFF, 0, 0, 0⟩, ⟨rEVT_TS, 1, 4, 0, 0, 0, 0⟩,
  ⟨rFLT_CNT, 1, 4, 0, 0, 0, 0⟩, ⟨rFLT_CFG, 1, 4, 0x00FFFFFF, 0, 0, 0x000103E8⟩,
  ⟨rCOMMIT, 1, 4, 0x100, 0, 0, 0⟩, ⟨rLOCK, 1, 4, 0, 0, 0, 0⟩]

/-- SYS (R64). -/
def sysRows : List RegRow := [
  ⟨0x040, 1, 4, 0, 0, 0, 0⟩,          -- MODE
  ⟨0x044, 1, 4, 0, 0, 0, 0⟩,          -- BOOT_STAT
  ⟨0x048, 1, 4, 0, 0, 0, 0⟩,          -- SEC_VER
  ⟨0x04C, 1, 4, 0, 0, 0, 0⟩,          -- BUS_ERR_ADDR
  ⟨0x050, 1, 4, 0, 0, 0, 0⟩,          -- BUS_ERR_SRC
  ⟨0x054, 1, 4, 0, 0, 0, 0⟩,          -- LOCK_VIOL
  ⟨0x058, 1, 4, 0x01FFFFFF, 0, 0, 0⟩, -- FLASH_ADDR
  ⟨0x05C, 1, 4, 0x001FFFFF, 0, 0, 0⟩, -- FLASH_SRC
  ⟨0x060, 1, 4, 0, 0, 0, 0⟩]          -- FLASH_CMD

/-- CLK (R38). -/
def clkRows : List RegRow := [
  ⟨0x040, 1, 4, 0x3, 0, 0, 0x2⟩,          -- REF
  ⟨0x044, 1, 4, 0, 0, 0, 0⟩,              -- PLL_STAT
  ⟨0x048, 1, 4, 0, 0x7FFFF, 0, 0x3D09⟩,   -- BATCH
  ⟨0x04C, 1, 4, 0, 0x3FF, 0, 0x8⟩,        -- NCYC
  ⟨0x050, 2, 4, 0, 0, 0, 0⟩,              -- GRAIN_LO, GRAIN_HI
  ⟨0x058, 2, 4, 0, 0, 0, 0⟩,              -- BSTART_LO, BSTART_HI
  ⟨0x060, 1, 4, 0, 0, 0, 0⟩,              -- BPOS
  ⟨0x064, 1, 4, 0, 0, 0, 0⟩,              -- BCOUNT
  ⟨0x068, 1, 4, 0, 0, 0, 0x00090000⟩]     -- SLIP

/-- SEM (R39). -/
def semRows : List RegRow := [⟨0x040, 64, 4, 0, 0, 0, 0xFF⟩]

/-- LEG (R81). -/
def legRows : List RegRow := [
  ⟨0x040, 2, 4, 0, 0x1FFFFFFF, 0, 0x1FFFFFFF⟩, -- CMP_RISE, CMP_FALL
  ⟨0x048, 2, 4, 0, 0xFFFFFFFF, 0, 0x06400640⟩, -- DT_RISE, DT_FALL
  ⟨0x050, 1, 4, 0, 0xFFFF, 0, 0x0C80⟩,         -- MIN_PULSE
  ⟨0x054, 1, 4, 0, 0x0FFFFFFF, 0, 0⟩,          -- HS_MAX_ON
  ⟨0x058, 1, 4, 0, 0xFFFF, 0, 0x0C80⟩,         -- REFRESH_W
  ⟨0x05C, 1, 4, 0, 0, 0, 0⟩,                   -- DROP_CNT
  ⟨0x060, 1, 4, 0, 0, 0, 0⟩]                   -- REFRESH_CNT

/-- CAR (R82). -/
def carRows : List RegRow := [
  ⟨0x040, 1, 4, 0, 0x3FF, 0, 0x001⟩,       -- CFG
  ⟨0x044, 1, 4, 0, 0xFFFFFFFF, 0, 0⟩,      -- BRIDGES
  ⟨0x048, 1, 4, 0, 0x1FFFFFFF, 0, 0⟩,      -- SKEW
  ⟨0x04C, 1, 4, 0, 0, 0, 0x003D09⟩,        -- PERIOD
  ⟨0x050, 1, 4, 0, 0, 0, 0⟩,               -- COUNT
  ⟨0x054, 1, 4, 0, 0, 0, 0⟩]               -- WRAPS

/-- GDP (R103). -/
def gdpRows : List RegRow := [
  ⟨0x040, 1, 4, 0x7, 0, 0, 0x2⟩,              -- GST_CFG
  ⟨0x044, 2, 4, 0xFF073FFF, 0, 0, 0x3C030064⟩, -- RETRY_UV, RETRY_TRIP
  ⟨0x04C, 1, 4, 0xFF073FFF, 0, 0, 0x3C000064⟩, -- RETRY_SC
  ⟨0x050, 2, 4, 0, 0, 0, 0⟩,                  -- TRIP_CLR, AXIS_CLR
  ⟨0x058, 1, 4, 0, 0, 0, 0⟩,                  -- TRIP_STAT
  ⟨0x05C, 1, 4, 0, 0, 0xFFFF, 0⟩,             -- CLR_REF
  ⟨0x080, 16, 0x20, 0x0FFFFF07, 0, 0, 0x00640004⟩, -- TRIPt_CFG
  ⟨0x084, 16, 0x20, 0xFFFF, 0, 0, 0x000A⟩,    -- TRIPt_OFF
  ⟨0x088, 16, 0x20, 0xFFFFFFFF, 0, 0, 0⟩,     -- TRIPt_MASK0
  ⟨0x08C, 16, 0x20, 0xFFFFFFFF, 0, 0, 0⟩,     -- TRIPt_MASK1
  ⟨0x090, 16, 0x20, 0xFFFFFFFF, 0, 0, 0⟩,     -- TRIPt_MASK2
  ⟨0x094, 16, 0x20, 0, 0, 0, 0⟩,              -- TRIPt_FIRST_TS
  ⟨0x098, 16, 0x20, 0, 0, 0, 0⟩,              -- TRIPt_COUNT
  ⟨0x400, 96, 4, 0x01FFFFFF, 0, 0, 0x00640000⟩, -- LEG_P
  ⟨0x600, 96, 4, 0, 0, 0, 0x7⟩,               -- GST_STAT
  ⟨0x800, 32, 4, 0, 0, 0, 0⟩]                 -- AX_PROT

/-- SDM (R119). -/
def sdmRows : List RegRow := [
  ⟨0x040, 1, 4, 0, 0x1F3FC1FF, 0, 0x02080040⟩, -- CFG
  ⟨0x044, 1, 4, 0, 0x031F0001, 0, 0⟩,          -- ALIGN (reset per instance)
  ⟨0x048, 1, 4, 0, 0x1FFFFFFF, 0, 0⟩,          -- ALIGN_POS
  ⟨0x04C, 1, 4, 0, 0xFF, 0, 0⟩,                -- SKEW
  ⟨0x050, 1, 4, 0, 0xFFFFFF, 0, 0x400000⟩,     -- GAIN
  ⟨0x054, 1, 4, 0, 0xFFFFFF, 0, 0⟩,            -- OFFSET
  ⟨0x058, 1, 4, 0x7FFFFF, 0, 0, 0x666666⟩,     -- OVR_LIM
  ⟨0x05C, 1, 4, 0x3FF, 0, 0, 0x040⟩,           -- STUCK_LIM
  ⟨0x060, 1, 4, 0x3F3F3F3F, 0, 0, 0⟩,          -- SPD
  ⟨0x064, 1, 4, 0, 0, 0, 0⟩,                   -- EYE
  ⟨0x068, 1, 4, 0, 0, 0, 0⟩,                   -- DATA
  ⟨0x06C, 1, 4, 0, 0, 0, 0⟩,                   -- DATA_TS
  ⟨0x070, 1, 4, 0, 0, 0, 0⟩,                   -- DATA_ERR
  ⟨0x074, 1, 4, 0, 0, 0, 0⟩,                   -- CRUST
  ⟨0x078, 1, 4, 0, 0, 0, 0⟩]                   -- OVR_CNT

/-- SDM0 to SDM7 only: DCLK_CFG (R105, R119). -/
def sdmClkRows : List RegRow := [⟨0x080, 1, 4, 0, 0x000100FF, 0, 0x64⟩]

/-- FB (R148). -/
def fbRows : List RegRow := [
  ⟨0x040, 1, 4, 0, 0x00FF0F77, 0, 0x00030020⟩, -- CFG
  ⟨0x044, 1, 4, 0, 0xFFFF, 0, 0x0064⟩,         -- SPEED_CFG
  ⟨0x048, 1, 4, 0, 0xFFFEFF3F, 0, 0x03200019⟩, -- SSI_CFG
  ⟨0x04C, 1, 4, 0, 0xFF07FFFF, 0, 0x14000000⟩, -- SSI_TIME
  ⟨0x050, 1, 4, 0, 0xFFFFFFFF, 0, 0⟩,          -- SSI_MAXSTEP
  ⟨0x054, 2, 4, 0, 0, 0, 0⟩,                   -- SSI_DATA_LO, SSI_DATA_HI
  ⟨0x060, 8, 4, 0, 0, 0, 0⟩,                   -- RAW_POS, POS, B_POS, B_SPEED
  ⟨0x080, 1, 4, 0, 0, 0, 0⟩,                   -- EDGE_TS
  ⟨0x084, 1, 4, 0xFFFFFFFF, 0, 0, 0⟩,          -- POS_SET
  ⟨0x088, 1, 4, 0, 0, 0, 0⟩,                   -- POS_SET high, reserved
  ⟨0x08C, 1, 4, 0, 0, 0, 0x00000700⟩,          -- HALL
  ⟨0x090, 2, 4, 0, 0, 0, 0⟩,                   -- GLITCH_CNT, ERR_CNT
  ⟨0x0A0, 2, 0x20, 0xFF0F0310, 0, 0, 0x03000000⟩, -- LATCHk_CFG
  ⟨0x0A4, 2, 0x20, 0, 0, 0, 0⟩,                -- LATCHk_CTRL
  ⟨0x0A8, 2, 0x20, 0, 0, 0, 0⟩,                -- LATCHk_STAT
  ⟨0x0AC, 2, 0x20, 0, 0, 0, 0⟩,                -- LATCHk_TS
  ⟨0x0B0, 2, 0x20, 0, 0, 0, 0⟩,                -- LATCHk_POS low
  ⟨0x0B4, 2, 0x20, 0, 0, 0, 0⟩,                -- LATCHk_POS high
  ⟨0x0E0, 2, 0x20, 0x13, 0, 0, 0⟩,             -- CMPk_CFG
  ⟨0x0E4, 2, 0x20, 0, 0, 0, 0⟩,                -- CMPk_CTRL
  ⟨0x0E8, 2, 0x20, 0, 0, 0, 0⟩,                -- CMPk_STAT
  ⟨0x0EC, 2, 0x20, 0, 0, 0, 0⟩,                -- CMPk_TS
  ⟨0x0F0, 2, 0x20, 0xFFFFFFFF, 0, 0, 0⟩,       -- CMPk_POS low
  ⟨0x0F4, 2, 0x20, 0xFFFFFFFF, 0, 0, 0⟩]       -- CMPk_POS high

/-- HYT (R172). -/
def hytRows : List RegRow := [
  ⟨0x040, 1, 4, 0x3FFF, 0, 0, 0⟩,       -- START
  ⟨0x044, 1, 4, 0, 0, 0, 0⟩,            -- PC
  ⟨0x048, 1, 4, 0, 0, 0, 0⟩,            -- HALT_CAUSE
  ⟨0x04C, 1, 4, 0xFFFFFFFF, 0, 0, 0⟩,   -- AXES
  ⟨0x050, 1, 4, 0xFFFFFFFF, 0, 0, 0⟩,   -- WDOG
  ⟨0x054, 2, 4, 0x80003FFF, 0, 0, 0⟩,   -- BRK0, BRK1
  ⟨0x05C, 3, 4, 0, 0, 0, 0⟩,            -- LOAD_LAST, LOAD_MAX, ECC_CNT
  ⟨0x068, 1, 4, 0, 0, 0, 0⟩,            -- SIN_ARR
  ⟨0x06C, 1, 4, 0, 0, 0xFFFFFFFF, 0⟩,   -- SIN_OVR
  ⟨0x070, 1, 4, 0, 0, 0, 0⟩,            -- DOORBELL
  ⟨0x080, 32, 4, 0x070000FF, 0, 0, 0⟩,  -- SIN_MAP
  ⟨0x100, 15, 4, 0x0000071F, 0, 0, 0⟩]  -- WSEL

/-- PRF (R241). The window registers 0x080 to 0x0C0 show the profile named by SEL; their storage is per
profile, at `prfWin`, so the rows here carry masks and resets of the window. -/
def prfRows : List RegRow := [
  ⟨0x040, 1, 4, 0xFF, 0, 0, 0⟩,                  -- SEL
  ⟨0x044, 1, 4, 0, 0, 0, 0⟩,                     -- PUSH
  ⟨0x048, 1, 4, 0, 0, 0, 0⟩,                     -- PUSH_REF
  ⟨0x04C, 1, 4, 0, 0, 0, 0⟩,                     -- CMD
  ⟨0x050, 1, 4, 0, 0, 0, 0⟩,                     -- CMD_REF
  ⟨0x080, 1, 4, 0, 0x000FFF07, 0, 0⟩,            -- P_CFG
  ⟨0x084, 1, 4, 0, 0x1FFF7FFF, 0, 0⟩,            -- P_RING
  ⟨0x088, 1, 4, 0, 0xFFFFFFFF, 0, 1⟩,            -- P_MS_STEP
  ⟨0x08C, 1, 4, 0, 0xFFFFFFFF, 0, 0⟩,            -- P_MS_OFF
  ⟨0x090, 4, 4, 0xFFFFFFFF, 0, 0, 0⟩,            -- P_T0, P_INIT
  ⟨0x0A0, 9, 4, 0, 0, 0, 0⟩,                     -- P_SEG, P_SEG_END, P_POS, P_VEL, P_ACC
  ⟨0x400, 136, 4, 0, 0, 0, 0⟩,                   -- CRED
  ⟨0x800, 136, 4, 0, 0, 0x18, 0⟩]                -- PSTAT

/-- The committed, shadow and pending words of profile p's window are kept beside the PRF page, one block of
128 bytes to a profile, above the page space. `off` is the window offset 0x080 to 0x0C0. -/
def prfWin (p off : Nat) : Nat := 0x200000 + 0x80 * p + (off - 0x80)

/-- STP (R242): channel blocks at 0x100 + 0x20c. -/
def stpRows : List RegRow := [
  ⟨0x100, 32, 0x20, 0, 0xFF03, 0, 0⟩,             -- CFG
  ⟨0x104, 32, 0x20, 0, 0xFFFFFFFF, 0, 0x00320019⟩, -- TIMING
  ⟨0x108, 32, 0x20, 0, 0, 0, 0⟩, ⟨0x10C, 32, 0x20, 0, 0, 0, 0⟩, -- TARGET
  ⟨0x110, 32, 0x20, 0, 0, 0, 0⟩,                  -- ISSUED
  ⟨0x114, 32, 0x20, 0, 0, 0, 0⟩, ⟨0x118, 32, 0x20, 0, 0, 0, 0⟩, -- OWED
  ⟨0x11C, 32, 0x20, 0, 0, 0, 0⟩]                  -- STAT

/-- LSH (R263). -/
def lshRows : List RegRow := [
  ⟨0x040, 8, 4, 0x7, 0, 0, 0x1⟩,            -- M_CFG
  ⟨0x060, 8, 4, 0, 0, 0, 0⟩,                -- M_STAT
  ⟨0x080, 8, 4, 0, 0, 0, 0⟩,                -- M_CNT
  ⟨0x0A0, 16, 4, 0, 0, 0, 0⟩,               -- M_WEND
  ⟨0x0E0, 1, 4, 0, 0, 0, 0⟩,                -- MFEED
  ⟨0x0E4, 1, 4, 0, 0, 0, 0⟩,                -- MCMD
  ⟨0x0E8, 2, 4, 0xFFFFFFFF, 0, 0, 0⟩,       -- MCMD_T
  ⟨0x0F0, 1, 4, 0, 0, 0, 0⟩,                -- FEED_REF
  ⟨0x200, 32, 0x40, 0, 0xFF03FF03, 0, 0⟩,   -- G_CFG
  ⟨0x204, 32, 0x40, 0, 0xFFFFFFFF, 0, 1⟩,   -- N_T
  ⟨0x208, 32, 0x40, 0, 0xFFFFFFFF, 0, 1⟩,   -- D
  ⟨0x20C, 32, 0x40, 0, 0xFFFFFFFF, 0, 0⟩,   -- N_STEP
  ⟨0x210, 32, 0x40, 0, 0, 0, 0⟩,            -- N_CUR
  ⟨0x214, 32, 0x40, 0xFFFFFFFF, 0, 0, 0⟩,   -- PH_STEP
  ⟨0x218, 32, 0x40, 0xFFFFFFFF, 0, 0, 0⟩, ⟨0x21C, 32, 0x40, 0xFFFFFFFF, 0, 0, 0⟩, -- PH_TGT
  ⟨0x220, 32, 0x40, 0, 0, 0, 0⟩, ⟨0x224, 32, 0x40, 0, 0, 0, 0⟩, -- PH
  ⟨0x228, 32, 0x40, 0, 0xFFFFFFFF, 0, 0⟩, ⟨0x22C, 32, 0x40, 0, 0xFFFFFFFF, 0, 0⟩, -- G_INIT
  ⟨0x230, 32, 0x40, 0, 0xFFFFFFFF, 0, 0⟩, ⟨0x234, 32, 0x40, 0, 0xFFFFFFFF, 0, 0⟩, -- S_INIT
  ⟨0x238, 32, 0x40, 0x0F00, 0, 0, 0⟩,       -- CAM
  ⟨0x23C, 32, 0x40, 0, 0, 0, 0⟩,            -- REM
  ⟨0xA00, 64, 4, 0, 0, 0, 0⟩,               -- G_POS
  ⟨0xB00, 16, 0x10, 0x7FFF, 0, 0, 0⟩,       -- CAMt_BASE
  ⟨0xB04, 16, 0x10, 0x7FF, 0, 0, 0⟩,        -- CAMt_N
  ⟨0xB08, 16, 0x10, 0xFFFFFFFF, 0, 0, 0⟩,   -- CAMt_CYC
  ⟨0xB0C, 16, 0x10, 0, 0, 0, 0⟩,            -- CAMt_STAT
  ⟨0xC00, 16, 0x40, 0, 0x001F1F03, 0, 0⟩,   -- RC_CFG
  ⟨0xC04, 16, 0x40, 0, 0xFFFFFFFF, 0, 0⟩,   -- REPEAT
  ⟨0xC08, 16, 0x40, 0, 0xFFFFFFFF, 0, 0⟩,   -- ORG
  ⟨0xC0C, 16, 0x40, 0, 0xFFFFFFFF, 0, 0⟩, ⟨0xC10, 16, 0x40, 0, 0xFFFFFFFF, 0, 0⟩, -- TARGET
  ⟨0xC14, 16, 0x40, 0xFFFFFFFF, 0, 0, 0⟩,   -- WIN
  ⟨0xC18, 16, 0x40, 0xFFFFFFFF, 0, 0, 0⟩,   -- DB
  ⟨0xC1C, 16, 0x40, 0xFFFFFFFF, 0, 0, 0⟩,   -- K
  ⟨0xC20, 16, 0x40, 0xFFFFFFFF, 0, 0, 0⟩,   -- CORR_MAX
  ⟨0xC24, 16, 0x40, 0xFF, 0, 0, 0x03⟩,      -- MISS_MAX
  ⟨0xC28, 16, 0x40, 0, 0, 0, 0⟩, ⟨0xC2C, 16, 0x40, 0, 0, 0, 0⟩, -- LAST_ERR
  ⟨0xC30, 16, 0x40, 0, 0, 0, 0⟩,            -- LAST_TS
  ⟨0xC34, 16, 0x40, 0, 0, 0, 0⟩,            -- CNT
  ⟨0xC38, 16, 0x40, 0, 0, 0, 0⟩]            -- STAT

/-- AX (R288). CFG's reset is a per instance. -/
def axRows : List RegRow := [
  ⟨0x040, 1, 4, 0, 0xFF3F, 0, 0⟩,               -- CFG
  ⟨0x044, 1, 4, 0, 0, 0, 0⟩,                    -- CMD
  ⟨0x048, 1, 4, 0, 0, 0, 0⟩,                    -- CMD_REF
  ⟨0x04C, 1, 4, 0x33, 0, 0, 0x13⟩,              -- REACT
  ⟨0x050, 1, 4, 0xFFFFFFFF, 0, 0, 0x00100000⟩,  -- STOP_DEC
  ⟨0x054, 2, 4, 0xFFFFFFFF, 0, 0, 0x00400000⟩,  -- QSTOP_DEC, HOME_ABORT_DEC
  ⟨0x05C, 1, 4, 0xFFFFFF, 0, 0, 0x07A120⟩,      -- START_T
  ⟨0x060, 1, 4, 0xFFFFFFFF, 0, 0, 0x10⟩,        -- TOL
  ⟨0x064, 1, 4, 0x073F3F3F, 0, 0, 0x003F3F3F⟩,  -- LIM_SRC
  ⟨0x068, 1, 4, 0xFFFF, 0, 0, 0x03E8⟩,          -- LIM_FILT
  ⟨0x06C, 1, 4, 0xFFFFFFFF, 0, 0, 0x64⟩,        -- LIM_CLEAR
  ⟨0x070, 2, 4, 0, 0, 0, 0⟩,                    -- LIMP_POS, LIMN_POS
  ⟨0x078, 1, 4, 0, 0, 0, 0⟩,                    -- LIM_CNT
  ⟨0x07C, 1, 4, 0x17, 0, 0, 0⟩,                 -- HOME_CFG
  ⟨0x080, 1, 4, 0xFFFFFFFF, 0, 0, 0x2710⟩,      -- HOME_VFAST
  ⟨0x084, 1, 4, 0xFFFFFFFF, 0, 0, 0x03E8⟩,      -- HOME_VSLOW
  ⟨0x088, 1, 4, 0xFFFFFFFF, 0, 0, 0x00100000⟩,  -- HOME_ACC
  ⟨0x08C, 2, 4, 0xFFFFFFFF, 0, 0, 0⟩,           -- HOME_DIST, HOME_OFS
  ⟨0x094, 1, 4, 0, 0, 0, 0⟩,                    -- HOME_REF
  ⟨0x098, 2, 4, 0, 0, 0, 0⟩,                    -- HOLD_POS
  ⟨0x0A0, 1, 4, 0, 0, 0, 0⟩,                    -- ENG_FAULT
  ⟨0x0A4, 1, 4, 0, 0, 0, 0⟩,                    -- FAULT
  ⟨0x0A8, 1, 4, 0, 0, 0xF, 0⟩,                  -- WARN
  ⟨0x0AC, 1, 4, 0xFFF, 0, 0, 0⟩]                -- LEG_SKIP

/-- NTM (R308). -/
def ntmRows : List RegRow := [
  ⟨0x040, 1, 4, 0xFF07, 0, 0, 0x4006⟩,       -- CT_CFG
  ⟨0x044, 1, 4, 0, 0, 0, 0⟩,                 -- CT_CMD
  ⟨0x050, 4, 4, 0xFFFFFFFF, 0, 0, 0⟩,        -- CT_SET
  ⟨0x060, 16, 4, 0, 0, 0, 0⟩,                -- TA, TB, CT, CT_BASE
  ⟨0x0A0, 1, 4, 0, 0, 0, 0⟩,                 -- CT_INC fraction
  ⟨0x0A4, 1, 4, 0, 0, 0, 0x2⟩,               -- CT_INC integer
  ⟨0x0A8, 1, 4, 0, 0, 0, 0⟩,                 -- CT_ERR
  ⟨0x0B0, 2, 4, 0, 0, 0, 0⟩,                 -- CAP_GRAIN
  ⟨0x0B8, 12, 4, 0, 0, 0, 0⟩,                -- CAP_TA, CAP_TB, CAP_CT
  ⟨0x100, 1, 4, 0, 0xF0007BFF, 0, 0xC0000900⟩, -- DOMA_CFG
  ⟨0x180, 1, 4, 0, 0xF0007BFF, 0, 0xC0000901⟩, -- DOMB_CFG
  ⟨0x104, 2, 0x80, 0, 0xFFFFFFFF, 0, 0x80F8FE21⟩, -- DOMx_GM
  ⟨0x108, 2, 0x80, 0, 0x000F0F0F, 0, 0x00030502⟩, -- DOMx_SERVO
  ⟨0x10C, 2, 0x80, 0xFFFFFFFF, 0, 0, 0x03080064⟩, -- DOMx_LOCK
  ⟨0x110, 2, 0x80, 0xFFFF, 0, 0, 0x000A⟩,    -- DOMx_STEP
  ⟨0x114, 2, 0x80, 0, 0, 0, 0⟩, ⟨0x118, 2, 0x80, 0, 0, 0, 0⟩, ⟨0x11C, 2, 0x80, 0, 0, 0, 0⟩, -- OFFSET, MPD, RATE
  ⟨0x120, 2, 0x80, 0, 0, 0, 0⟩, ⟨0x124, 2, 0x80, 0, 0, 0, 0⟩, -- GM_ID
  ⟨0x128, 2, 0x80, 0, 0, 0, 0⟩,              -- STATUS
  ⟨0x12C, 2, 0x80, 0, 0, 0, 0⟩,              -- CNT
  ⟨0x130, 2, 0x80, 0, 0, 0, 0⟩,              -- CMD
  ⟨0x140, 4, 4, 0xFFFFFFFF, 0, 0, 0⟩, ⟨0x1C0, 4, 4, 0xFFFFFFFF, 0, 0, 0⟩, -- DOMA_SET, DOMB_SET
  ⟨0x200, 4, 0x10, 0xFFFFFFFF, 0, 0, 0x25041D92⟩, -- PORT_LAT 2.5G
  ⟨0x204, 4, 0x10, 0xFFFFFFFF, 0, 0, 0x0A5005A0⟩, -- PORT_LAT 1000BASE-T
  ⟨0x208, 4, 0x10, 0xFFFFFFFF, 0, 0, 0⟩]     -- ASYM

/-- NSW (R331). -/
def nswRows : List RegRow := [
  ⟨0x040, 1, 4, 0, 0xFFFF, 0, 0⟩,            -- NODE
  ⟨0x044, 1, 4, 0, 0xFFFF, 0, 0x88B5⟩,       -- ETYPE
  ⟨0x048, 1, 4, 0x80FFFFFF, 0, 0, 0x80050064⟩, -- ANN
  ⟨0x04C, 1, 4, 0xFFFFFFFF, 0, 0, 0⟩,        -- ANN_USER
  ⟨0x060, 4, 4, 0, 0x707, 0, 0x7⟩,           -- PORT_CFG
  ⟨0x070, 4, 4, 0, 0, 0, 0⟩,                 -- PORT_STAT
  ⟨0x080, 1, 4, 0, 0x3FFF3FFF, 0, 0x00400200⟩, -- RES
  ⟨0x084, 1, 4, 0, 0x1FFF01FF, 0, 0x08000040⟩, -- SW_N
  ⟨0x088, 1, 4, 0, 0, 0, 0x2000⟩,            -- LEDGER0
  ⟨0x08C, 1, 4, 0, 0, 0, 0⟩,                 -- LEDGER1
  ⟨0x090, 4, 4, 0, 0, 0, 0⟩,                 -- SW_RX, SW_RET, SW_ALLOC, SW_POST
  ⟨0x0A0, 1, 4, 0, 0, 0, 0⟩,                 -- SW_CNT
  ⟨0x0A4, 1, 4, 0, 0x807FFFFF, 0, 0⟩,        -- CYC_TX
  ⟨0x0A8, 1, 4, 0, 0xFFFFFFFF, 0, 0⟩, ⟨0x0AC, 1, 4, 0, 0xFFFF, 0, 0⟩, -- CYC_DEST
  ⟨0x0B0, 3, 4, 0, 0xFFFFFFFF, 0, 0⟩,        -- TX_AX
  ⟨0x0BC, 1, 4, 0x3FFFFFFF, 0, 0, 0⟩,        -- TX_USER
  ⟨0x0C0, 1, 4, 0x1FFFFF, 0, 0, 0x10000⟩,    -- RX_BASE
  ⟨0x0C4, 1, 4, 0xFF, 0, 0, 0x03⟩,           -- RX_MISS
  ⟨0x0C8, 1, 4, 0, 0, 0, 0⟩,                 -- TX_CNT
  ⟨0x0E0, 8, 4, 0xFFFF, 0, 0, 0xFFFF⟩,       -- M_SRC
  ⟨0x100, 32, 4, 0, 0x8000FFFF, 0, 0⟩,       -- RXS
  ⟨0x180, 32, 4, 0, 0, 0, 0⟩,                -- RXS_STAT
  ⟨0x200, 1, 4, 0xFF, 0, 0, 0⟩,              -- PT_SEL
  ⟨0x204, 4, 4, 0, 0, 0, 0⟩,                 -- PT_MAC, PT_INFO, PT_STAT
  ⟨0x300, 4, 0x20, 0, 0, 0, 0⟩, ⟨0x304, 4, 0x20, 0, 0, 0, 0⟩, -- PORT_CNT RX_OK, TX_OK
  ⟨0x308, 4, 0x20, 0, 0, 0, 0⟩, ⟨0x30C, 4, 0x20, 0, 0, 0, 0⟩, -- DROP, FCS_ERR/PAUSE
  ⟨0x380, 1, 4, 0x1FF, 0, 0, 0x190⟩,         -- PRP_CFG
  ⟨0x384, 2, 4, 0, 0, 0, 0⟩,                 -- PRP_CNT, RX_CNT
  ⟨0x390, 8, 4, 0, 0, 0, 0⟩,                 -- NBR
  ⟨0x400, 4, 0x80, 0, 0x1F, 0, 0⟩,           -- GCL_N
  ⟨0x404, 16, 4, 0, 0xFF7FFFFF, 0, 0xFF000000⟩, ⟨0x484, 16, 4, 0, 0xFF7FFFFF, 0, 0xFF000000⟩, -- GCL A1, A2
  ⟨0x504, 16, 4, 0, 0xFF7FFFFF, 0, 0xFF000000⟩, ⟨0x584, 16, 4, 0, 0xFF7FFFFF, 0, 0xFF000000⟩] -- GCL B1, B2

/-- CAN (R343); RX_BASE's reset is per instance. -/
def canRows : List RegRow := [
  ⟨0x040, 1, 4, 0, 0x1F, 0, 0x3⟩,             -- CFG
  ⟨0x044, 1, 4, 0, 0x7F7FFF1F, 0, 0x1F1F7E00⟩, -- NBT
  ⟨0x048, 1, 4, 0, 0x0F0F1F1F, 0, 0x07071E00⟩, -- DBT
  ⟨0x04C, 1, 4, 0, 0x80FF, 0, 0x8020⟩,        -- TDC
  ⟨0x050, 1, 4, 0, 0x1FFFFF, 0, 0x30000⟩,     -- RX_BASE
  ⟨0x054, 1, 4, 0, 0, 0, 0⟩,                  -- RX_WR
  ⟨0x058, 1, 4, 0xFFFFFFFF, 0, 0, 0⟩,         -- RX_RD
  ⟨0x05C, 2, 4, 0, 0, 0, 0⟩,                  -- RX_FRAMES, DROPS
  ⟨0x064, 1, 4, 0, 0, 0, 0⟩,                  -- ERR
  ⟨0x068, 1, 4, 0x8000FFFF, 0, 0, 0x0064⟩,    -- LATE
  ⟨0x06C, 1, 4, 0, 0, 0, 0⟩,                  -- CMD
  ⟨0x100, 20, 4, 0, 0, 0, 0⟩,                 -- SHD
  ⟨0x200, 16, 0x60, 0xFFFFFFFF, 0, 0, 0⟩,     -- TX ID
  ⟨0x204, 16, 0x60, 0xFFFFFFFF, 0, 0, 0⟩,     -- TX FLAGS
  ⟨0x208, 16, 0x60, 0xFFFFFFFF, 0, 0, 0⟩, ⟨0x20C, 16, 0x60, 0xFFFFFFFF, 0, 0, 0⟩, -- TX_T
  ⟨0x210, 16, 0x60, 0, 0, 0, 0⟩,              -- CMD
  ⟨0x214, 16, 0x60, 0, 0, 0, 0⟩,              -- TX_STAT
  ⟨0x218, 16, 0x60, 0, 0, 0, 0⟩]              -- TS

/-- The sixteen data words of every transmit slot (R343). -/
def canDataRows : List RegRow :=
  (List.range 16).map fun w => ⟨0x220 + 4 * w, 16, 0x60, 0xFFFFFFFF, 0, 0, 0⟩

/-- ACQ (R357). -/
def acqRows : List RegRow := [
  ⟨0x040, 1, 4, 0, 0x07FF1111, 0, 0x00010000⟩, -- CFG
  ⟨0x044, 1, 4, 0, 0xFFFFFFFF, 0, 0⟩,          -- CHEN
  ⟨0x048, 1, 4, 0, 0x1FFFFF, 0, 0⟩,            -- PRE
  ⟨0x04C, 1, 4, 0, 0xFFFFFF, 0, 0x400⟩,        -- POST
  ⟨0x050, 1, 4, 0, 0xFFFF, 0, 0x1000⟩,         -- LAG
  ⟨0x054, 1, 4, 0xFFFF, 0, 0, 0⟩,              -- NREC
  ⟨0x058, 2, 4, 0, 0, 0, 0⟩,                   -- CMD, CMD_REF
  ⟨0x060, 2, 4, 0xFFFFFFFF, 0, 0, 0⟩,          -- RTRIG_T
  ⟨0x068, 1, 4, 0x1FF, 0, 0, 0⟩,               -- COMB
  ⟨0x06C, 1, 4, 0, 0, 0, 0⟩,                   -- REL
  ⟨0x070, 1, 4, 0, 0, 0, 0x200⟩,               -- LEDGER
  ⟨0x074, 5, 4, 0, 0, 0, 0⟩,                   -- MISSED_CNT, LATE_CNT, DEAD_LAST, DEAD_MAX, REC_OLD
  ⟨0x100, 32, 4, 0, 0x0FFF1FFF, 0, 0⟩,         -- CH
  ⟨0x180, 32, 4, 0, 0x3FFF, 0, 0⟩,             -- CH_ADDR
  ⟨0x200, 8, 0x20, 0, 0x0F1F1F37, 0, 0x20⟩,    -- TC
  ⟨0x204, 8, 0x20, 0, 0xFFFFFF, 0, 0x400000⟩,  -- TH_HI
  ⟨0x208, 8, 0x20, 0, 0xFFFFFF, 0, 0xC00000⟩,  -- TH_LO
  ⟨0x20C, 8, 0x20, 0, 0xFFFFFF, 0, 0x1⟩,       -- WMIN
  ⟨0x210, 8, 0x20, 0, 0xFFFFFF, 0, 0x64⟩]      -- WMAX

/-- The fifteen words of each record descriptor ACQ.REC[r] (R357). -/
def acqRecRows : List RegRow := (List.range 15).map fun w => ⟨0x400 + 4 * w, 16, 0x40, 0, 0, 0, 0⟩

/-- SAF (R384). -/
def safRows : List RegRow := [
  ⟨0x040, 1, 4, 0xFFFFFFFF, 0, 0, 0⟩,         -- CFG_EXP
  ⟨0x044, 4, 4, 0, 0, 0, 0⟩,                  -- CFG_SIG, FAULT, PAIRS, RESET
  ⟨0x060, 8, 4, 0x0FFF0073, 0, 0, 0x01900042⟩, -- SI_CFG
  ⟨0x080, 4, 4, 0x00FFFF01, 0, 0, 0x000A1E01⟩, -- SO_CFG
  ⟨0x090, 1, 4, 0xF, 0, 0, 0⟩,                -- SO_REQ
  ⟨0x094, 1, 4, 0, 0, 0, 0⟩,                  -- SO_STAT
  ⟨0x100, 8, 0x40, 0x001F7F77, 0, 0, 0x00007000⟩, -- SF CFG
  ⟨0x104, 8, 0x40, 0x003F9F1F, 0, 0, 0x00040000⟩, -- SF FB
  ⟨0x108, 8, 0x40, 0x00FFFFFF, 0, 0, 0⟩,      -- SF DEM
  ⟨0x10C, 8, 0x40, 0xFFFFFFFF, 0, 0, 0⟩, ⟨0x110, 8, 0x40, 0xFFFFFFFF, 0, 0, 0⟩,
  ⟨0x114, 8, 0x40, 0xFFFFFFFF, 0, 0, 0⟩,      -- SF LEGS0 to LEGS2
  ⟨0x118, 8, 0x40, 0xFFFFFFFF, 0, 0, 0x00010000⟩, -- SF RATIO_B
  ⟨0x11C, 8, 0x40, 0xFFFFFFFF, 0, 0, 0⟩, ⟨0x120, 8, 0x40, 0xFFFFFFFF, 0, 0, 0⟩,
  ⟨0x124, 8, 0x40, 0xFFFFFFFF, 0, 0, 0⟩, ⟨0x128, 8, 0x40, 0xFFFFFFFF, 0, 0, 0⟩,
  ⟨0x12C, 8, 0x40, 0xFFFFFFFF, 0, 0, 0⟩,      -- SF SPD_TOL, LIM, V_ZERO, DEC_MON, V_TOL
  ⟨0x130, 8, 0x40, 0xFFFFFFFF, 0, 0, 0x03E8⟩, -- SF BRK_LEAD, T_STOP
  ⟨0x134, 8, 0x40, 0, 0, 0, 0⟩, ⟨0x138, 8, 0x40, 0, 0, 0, 0⟩, ⟨0x13C, 8, 0x40, 0, 0, 0, 0⟩, -- STAT, SPEED_A, SPEED_B
  ⟨0x400, 16, 0x20, 0x80000FFF, 0, 0, 0x400⟩, -- RX
  ⟨0x404, 16, 0x20, 0xFFFFFFFF, 0, 0, 0⟩,     -- RX SRC
  ⟨0x408, 16, 0x20, 0xFFFFFFFF, 0, 0, 0⟩,     -- RX KEY (WO)
  ⟨0x40C, 16, 0x20, 0xFF00FFFF, 0, 0, 0x0A000008⟩, -- RX COMPARE_WIN, WD
  ⟨0x410, 16, 0x20, 0xFF, 0, 0, 0x05⟩,        -- RX GRACE
  ⟨0x414, 16, 0x20, 0, 0, 0, 0⟩, ⟨0x418, 16, 0x20, 0, 0, 0, 0⟩, ⟨0x41C, 16, 0x20, 0, 0, 0, 0⟩, -- RX state, CNT, GRACE_LEFT
  ⟨0x600, 16, 4, 0x80000F0F, 0, 0, 0⟩,        -- RD
  ⟨0x680, 4, 0x10, 0x800000FF, 0, 0, 0⟩,      -- TX
  ⟨0x684, 4, 0x10, 0xFFFFFFFF, 0, 0, 0⟩,      -- TX SRC
  ⟨0x688, 4, 0x10, 0xFFFFFFFF, 0, 0, 0⟩,      -- TX KEY (WO)
  ⟨0x68C, 4, 0x10, 0, 0, 0, 0⟩]               -- TX SEQ

/-- FIO (R402). -/
def fioRows : List RegRow := [
  ⟨0x040, 16, 4, 0, 0xFF1F117F, 0, 0x01000026⟩, -- CH_CFG
  ⟨0x080, 1, 4, 0xFFFF, 0, 0, 0⟩,              -- OUT
  ⟨0x084, 2, 4, 0, 0, 0, 0⟩,                   -- OUT_SET, OUT_CLR
  ⟨0x08C, 7, 4, 0, 0, 0, 0⟩,                   -- IN, RB, WB, OVL, SHORT, OVL_CLR, SUP (0x08C to 0x0A4)
  ⟨0x0A8, 1, 4, 0xFF, 0, 0, 0x04⟩,             -- LINK_CFG
  ⟨0x0AC, 1, 4, 0, 0, 0, 0⟩,                   -- LINK_CNT
  ⟨0x0C0, 16, 4, 0, 0, 0, 0⟩]                  -- CH_CNT

/-- PAIR (R429). -/
def pairRows : List RegRow := [
  ⟨0x040, 1, 4, 0, 0x00FFFF03, 0, 0x00081000⟩, -- CFG
  ⟨0x044, 1, 4, 0xFFFFFFFF, 0, 0, 0x00640014⟩, -- TIMING
  ⟨0x048, 1, 4, 0, 0xFFFF, 0, 0xFFFF⟩,         -- SYNC_ENG
  ⟨0x04C, 13, 4, 0, 0, 0, 0⟩]                  -- CMD to TAKE_TS

/-- PWR (R452). -/
def pwrRows : List RegRow := [
  ⟨0x040, 3, 4, 0, 0, 0, 0⟩, ⟨0x04C, 1, 4, 0x1, 0, 0, 0⟩, ⟨0x050, 1, 4, 0, 0, 0, 0⟩, ⟨0x054, 1, 4, 0, 0, 0, 0⟩]

/-- THM (R453). -/
def thmRows : List RegRow := [
  ⟨0x040, 13, 4, 0, 0, 0, 0⟩,                  -- TS, MAX
  ⟨0x074, 1, 4, 0, 0xFFFF, 0, 0x3210⟩,         -- PE
  ⟨0x078, 1, 4, 0, 0xFFFFFFFF, 0, 0x19646464⟩, -- SCRUB
  ⟨0x07C, 1, 4, 0, 0xFFFFFFFF, 0, 0x0C0A0A0C⟩, -- MRAM_T
  ⟨0x080, 1, 4, 0, 0, 0, 0⟩]                   -- RO_COUNT

/-- SAVE (R454). -/
def saveRows : List RegRow := [
  ⟨0x040, 1, 4, 0, 0x1F, 0, 0⟩, ⟨0x044, 3, 4, 0, 0, 0, 0⟩,
  ⟨0x080, 16, 8, 0, 0xFFFFFFFF, 0, 0⟩, ⟨0x084, 16, 8, 0, 0x1FFFF, 0, 0⟩]

/-- FLT (R455). -/
def fltRows : List RegRow := [
  ⟨0x040, 1, 4, 0, 0, 0, 0⟩, ⟨0x044, 1, 4, 0xFFFFFFFF, 0, 0, 0⟩, ⟨0x048, 5, 4, 0, 0, 0, 0⟩]

/-- The block-specific rows of a page. -/
def blockRows (b : Block) (inst : Nat) : List RegRow :=
  match b with
  | .sys => sysRows | .clk => clkRows | .flt => fltRows | .thm => thmRows | .pwr => pwrRows
  | .save => saveRows | .sem => semRows | .gdp => gdpRows | .prf => prfRows | .lsh => lshRows
  | .stp => stpRows | .ntm => ntmRows | .nsw => nswRows | .can => canRows ++ canDataRows
  | .acq => acqRows ++ acqRecRows | .saf => safRows | .fio => fioRows | .pair => pairRows
  | .hyt => hytRows | .fb => fbRows | .ax => axRows | .car => carRows
  | .sdm => if inst < 8 then sdmRows ++ sdmClkRows else sdmRows
  | .leg => legRows | .none => []

/-- Whether a row holds the register at page offset `off`. -/
def RegRow.has (r : RegRow) (off : Nat) : Bool :=
  decide (r.off ≤ off) && (off - r.off) % r.stride == 0 && decide ((off - r.off) / r.stride < r.n)

/-- The row of a register, if the offset is not reserved. -/
def rowAt (p off : Nat) : Option RegRow :=
  let b := pageBlock p
  if b.1 = .none then none else (headerRows ++ blockRows b.1 b.2).find? (·.has off)

/-- The reset value of the register at page-space address `a` = page × 0x1000 + offset (R59 and the pages'
tables). CAP, BOOT_STAT and SEC_VER, for which the spec gives no number, read 0 (log entry 3). -/
def regReset (a : Nat) : BitVec 32 :=
  if 0x200000 ≤ a then (if a % 0x80 = 0x08 then 1 else 0)   -- profile windows: P_MS_STEP resets to 1
  else
    let p := a / 0x1000
    let off := a % 0x1000
    let b := pageBlock p
    match b.1, off with
    | .none, _ => 0
    | .sdm, 0x044 => if b.2 < 96 then BitVec.ofNat 32 (b.2 / 3 * 0x10000 + 1) else 0
    | .ax, 0x040 => BitVec.ofNat 32 (b.2 * 0x100 + b.2)
    | .can, 0x050 => if b.2 = 0 then 0x30000 else 0x44000
    | bl, 0x000 => BitVec.ofNat 32 (blockType bl * 0x10000 + b.2 * 0x100 + 1)
    | _, _ => match rowAt p off with
      | some r => BitVec.ofNat 32 r.rst
      | none => 0

end Sys2Proof.Machine
end

