-- ==== Sys2Proof/Machine/State.lean ====
section
/-! DEFINITION. The state of the module: every register page, the working state behind the pages, the memories of
the fabric map, the stores that outlive a reset of the die, and the queue of waiting commands; the reasons a
command may stop; and the state right after reset. -/

namespace Sys2Proof.Machine

/-- A sparse table: keys strictly rising, no entry equal to the table's default. -/
abbrev Tab (α : Type) := List (Nat × α)

/-- The memories of the fabric map (R57) and the two safety SRAMs, one byte space. -/
abbrev Mem := List Host.Cell

/-- The events a page has set in the running PCLK cycle, and the EVT_TS a clear of this cycle erased (R32). -/
structure EvtCyc where
  cycle : Nat := 0
  set : Word := 0
  oldTs : Option Word := none
  deriving DecidableEq, Repr

/-- How often a counter was incremented in a PCLK cycle (R32). -/
structure CntCyc where
  cycle : Nat := 0
  n : Nat := 0
  deriving DecidableEq, Repr

/-- The open fault window of a page (R448): FLT_CFG as taken at the opening, and the source of its first event. -/
structure FltWin where
  isOpen : Bool := false
  start : Nat := 0
  threshold : Nat := 1
  windowMs : Nat := 1
  rank : Nat := 0
  code : Nat := 0
  inst : Nat := 0
  declared : Option Nat := none   -- the grain of the last lasting declaration
  who : List (Nat × Nat) := []    -- code and instance of each event counted in the window
  deriving DecidableEq, Repr

/-- A record of the fault log (R449), before it is written. -/
structure LogRec where
  ts : Nat
  ct : Nat
  page : Nat
  rank : Nat
  flags : Nat
  code : Nat
  inst : Nat
  detail : Word
  deriving DecidableEq, Repr

/-- The first half of a LOCK sequence (R62): requester and PCLK cycle. -/
structure LockSeq where
  req : Nat
  cycle : Nat
  deriving DecidableEq, Repr

/-- The time base behind the CLK and NTM pages. CT is kept as its value at a base grain and its increment per
grain, in units of 2^-32 ns (R297). -/
structure Clk where
  ctBase : Nat := 0
  ctBaseGrain : Nat := 0
  ctInc : Nat := 0x200000000
  past : List (Nat × Nat × Nat) := []  -- the bases replaced, newest first: grain, CT, increment
  nextB : Nat := 15625          -- the next boundary instant, in CT grains (R19)
  lastB : Nat := 0              -- the instant that began the batch in progress
  batchNum : Nat := 0           -- R24
  exempt : Bool := false        -- the batch in progress is exempt from the slip rule (R24)
  fallback : Bool := false
  unlockedAt : Option Nat := none
  stepped : Bool := false
  deriving DecidableEq, Repr

/-- Modes, boot, flash and debug (chapter "Operating modes, bring-up and register pages"). -/
structure Sys where
  released : Bool := false      -- the power-on supervisor has released the die (R431)
  held : Bool := false          -- the supervisor holds the die in reset (R43, R437, R445)
  heldFor : Nat := 0            -- 0 none, 1 clock (R43), 2 hold-up exhausted (R437), 3 cooldown (R445)
  modeReq : Option (BitVec 3) := none
  modeGrain : Nat := 0          -- the grain of the last change of mode, its order under R44 and where it came from
  modeOrder : Nat := 9
  modeFrom : BitVec 3 := 0
  thermPending : Bool := false  -- a thermal shutdown held pending (R44)
  safeGrain : Nat := 0          -- entry into SAFEHALT
  entry : Word := 0             -- ENTRY of the running image
  acRun : BitVec 4 := 1         -- application cores released; AC0 runs the boot ROM
  acHalted : BitVec 4 := 0      -- application cores in debug halt
  scRun : BitVec 2 := 0         -- safety cores released
  faultLed : Bool := false
  flashOp : Option (Nat × Nat × Nat) := none   -- command, ADDR, SRC in progress
  jtag : JtagInstr := .bypass
  deriving DecidableEq, Repr

/-- The one-time-programmable store and everything kept outside the die's reset domain. -/
structure Nv where
  keyHash : List (BitVec 256) := [0, 0, 0, 0]
  revoked : BitVec 4 := 0
  secMin : BitVec 6 := 0
  logWr : Word := 0
  logRd : Word := 0
  warms : Nat := 0
  fails : Nat := 0
  deriving DecidableEq, Repr


/-- The mark of a COMMIT.GO (R33): the PCLK cycle in which it was applied, and whether it replaced a pending set of
an earlier cycle, kept until that cycle's commit point has passed. -/
structure GoMark where
  cycle : Nat := 0
  hadPrev : Bool := false
  deriving DecidableEq, Repr

/-- The pulse generator's state of one leg. Times are fine steps of CLK.GRAIN. -/
structure LegS where
  running : Bool := false       -- STAT.ENABLED: out of the safe state (R77)
  pul : Bool := false           -- the level of PUL after the last edge placed
  pulAt : Nat := 0              -- the time of that edge
  prevAt : Nat := 0             -- the time of the edge before it
  prevFrom : Nat := 0           -- the notch of ENA before the last
  prevTo : Nat := 0
  enaFrom : Nat := 0            -- the last notch of ENA: low from enaFrom up to enaTo
  enaTo : Nat := 0
  edgeWin : Nat := 0            -- the window in which that edge acted, by the bridge's window count
  startedAt : Nat := 0          -- grain in which the leg left the safe state
  onFrom : Nat := 0             -- grain from which the on-time counts (R79)
  refFall : Nat := 0            -- the last refresh: PUL low from refFall up to refRise
  refRise : Nat := 0
  dropPair : Option Nat := none -- the window whose remaining edge is dropped with its partner (R75)
  hsDue : Bool := false
  fSafety : Bool := false       -- force by the safety island (R78)
  fHalted : Bool := false       -- force by a Hytar debug halt (R53)
  edges : List Nat := []        -- grains in which recent PUL edges reached the connector (R90)
  rises : List Nat := []        -- grains in which recent ENA rises reached the connector (R94)
  enaHold : Option Nat := none   -- takeover in this grain: ENA stays low up to the end of the first notch (R418)
  pe : Nat := 0                 -- the pre-emphasis of its outputs, taken at its last wrap (R446)
  handNotch : Option Nat := none -- opening grain of the notch in which the leg changes owner (R417)
  deriving DecidableEq, Repr

/-- The window in force of one bridge (R71). -/
structure BridgeS where
  win : Nat := 0                -- windows begun
  start : Nat := 0              -- fine time of the window's start
  grain : Nat := 0              -- grain of the reload
  mid : Bool := false           -- the window starts at fine position 16P
  offset : Nat := 0             -- fine steps by which it lags its carrier unit, fixed at commit (R68)
  deriving DecidableEq, Repr

/-- How a pending set of a carrier unit is taken (R76): whether it changes CFG, BRIDGES or SKEW, the bridges yet to
reload, and the bridges whose leg sets go with it. -/
structure CarGo where
  cfg : Bool := false
  waiting : Word := 0
  group : Word := 0
  deriving DecidableEq, Repr

/-- The stretch of a carrier unit's count between two restarts (R69): its first grain and the grain of the next restart,
the configuration that ran, and the offsets of its bridges. -/
structure CarSpan where
  start : Nat := 0
  fin : Option Nat := none
  period : Nat := 0
  mul : Bool := false
  k : Nat := 0
  offs : List (Nat × Nat) := []
  deriving DecidableEq, Repr

/-- One carrier unit. -/
structure CarS where
  start : Nat := 0              -- boundary grain at which its count restarted (R69)
  counted : Nat := 0            -- carrier periods of this batch already in WRAPS
  go : CarGo := {}              -- the pending set
  goPrev : CarGo := {}          -- the pending set a GO of the present cycle replaced (R33)
  slip : Int := 0               -- grains by which its last period ran long, or short, at `start`
  past : List CarSpan := []     -- its stretches before `start`, newest first
  invalid : Bool := false       -- a change of BATCH broke its period: no leg may be enabled before a new commit (R23)
  deriving DecidableEq, Repr

/-- A trip input (R88 to R91). -/
structure TripS where
  mask : BitVec 96 := 0           -- legs its latch holds, as the mask stood at the record
  level : Bool := false           -- its level as last sampled (R26)
  since : Nat := 0                -- the grain from which it has been active, or inactive, as it is now
  pin : Bool := false             -- its level at the pin
  pinAt : Nat := 0                -- the grain of the pin's last change
  async : Option Nat := none      -- the pin grain at which the asynchronous path latched, until it is sampled (R89)
  asyncMask : BitVec 96 := 0      -- legs whose ENA that latch holds low
  held : Bool := false            -- a change is held back by blanking (R90)
  heldTs : Nat := 0               -- the pin grain of that change
  lastCycle : Option Nat := none  -- PCLK cycle of its last trip (R32)
  deriving DecidableEq, Repr

/-- One fault class of one axis (R97 to R99): the legs its force holds; 0 no retry, 1 WAIT counts, 2 waiting for the
condition; the end of the wait; the grain of the last fault; the grain of the last short circuit that faulted no
axis (R95). -/
structure ProtS where
  force : BitVec 96 := 0
  phase : Nat := 0
  due : Nat := 0
  lastFault : Option Nat := none
  bareShort : Option Nat := none
  deriving DecidableEq, Repr

/-- The run of agreeing GST periods of a leg (R85). -/
structure GstRun where
  code : Nat := 7
  n : Nat := 0
  deriving DecidableEq, Repr

/-- Protection (chapter "Gate status, trips and short-circuit protection"). Classes: 0 undervoltage, 1 trip, 2 short
circuit; class c of axis a is at key 3a + c. -/
structure Gdp where
  trips : Tab TripS := []
  prot : Tab ProtS := []
  gst : Tab GstRun := []
  lone : BitVec 96 := 0         -- legs of no carrier unit under a short-circuit force (R95)
  cut : BitVec 96 := 0          -- legs whose ENABLE a latched fault cleared in grain `cutAt` (R30, R101)
  cutAt : Nat := 0
  shortAt : Option (Nat × Nat) := none   -- the grain of the last short circuit declared, and its time-stamp (R95)
  crust : Tab (List Int) := []  -- the last crust outputs of a channel, newest first (R92)
  deriving DecidableEq, Repr

/-- A profile's record (R222): position Q32.32, velocity and acceleration in units of 2^-32, and the flags, TAG and
SEQ of word 7. -/
structure PRec where
  pos : Word64 := 0
  vel : Int := 0
  acc : Int := 0
  w7 : Word := 0
  deriving DecidableEq, Repr

/-- A segment as read (R220 to R223). Times in CT grains; velocities as exact fractions of 2^-32 counts/s; `virt` marks
the wait for T0 of an armed profile, `await` a follower's segment read before its leader's paired one. -/
structure Seg where
  off : Nat := 0
  start : Nat := 0
  fin : Nat := 0
  p0 : Word64 := 0
  v0n : Int := 0
  v0d : Nat := 1
  pEnd : Word64 := 0
  v1n : Int := 0
  v1d : Nat := 1
  linear : Bool := false
  last : Bool := false
  seq : Nat := 0
  tag : Nat := 0
  fail : Nat := 0
  virt : Bool := false
  await : Bool := false
  deriving DecidableEq, Repr

/-- The working state of one profile. -/
structure PrfS where
  held : Word64 := 0
  rel : PRec := {}                    -- the record last released
  nxt : PRec := {}                    -- the record held for the next boundary
  cur : Option Seg := none
  segs : List Seg := []               -- read and not yet current
  queue : List (Nat × Option Nat) := []  -- ring offsets pushed and not read, with the PCLK cycle of the push
  unret : List Nat := []              -- ends of segments that have been current and not retired
  retGrain : Nat := 0                 -- grain of the retirement whose credit is owed
  once : Bool := false                -- STARVED bit of the next record
  loaded : Bool := false              -- held position set by LOAD since the last evaluation (R251)
  rejoin : Option Nat := none         -- T_J of an accepted REJOIN (R248)
  broken : Bool := false              -- a follower of this leader was flushed: its group ends at the junction (R233, R265)
  deriving DecidableEq, Repr

/-- The working state of one step channel: whether it took its first TARGET, the steps planned in the batch and
their place (R237, R238). -/
structure StpS where
  started : Bool := false
  dirNeg : Bool := false              -- last direction used
  plan : Int := 0                     -- signed steps planned
  done : Nat := 0                     -- of which issued
  base : Nat := 0                     -- boundary grain B
  setup : Nat := 0                    -- D of the plan
  span : Nat := 0                     -- W of the plan
  high : Nat := 0                     -- PW of the plan
  deriving DecidableEq, Repr

/-- What an evaluation of a gear unit starts from: the words of its block and of G_POS, and its working state. -/
structure GearIn where
  regs : List Word := []
  on : Bool := false
  prev : Word64 := 0
  valid : Bool := false
  cb : Word64 := 0
  sb : Word64 := 0
  loaded : Bool := false
  nextCycle : Option Nat := none
  deriving DecidableEq, Repr

/-- The working state of one gear unit (R251, R255). -/
structure GearS where
  on : Bool := false                  -- evaluated since enabled
  prev : Word64 := 0                  -- Pm_prev
  valid : Bool := false               -- the master's VALID at the last evaluation
  cb : Word64 := 0
  sb : Word64 := 0
  nextCycle : Option Nat := none      -- PCLK cycle of the last write of CAM.NEXT
  inp : GearIn := {}                  -- what the last evaluation started from
  stale : Bool := false               -- a master's record changed since the last evaluation
  corr : Option (Nat × Word64 × Int) := none  -- PCLK cycle of the last correction, PH_TGT before it, the amount (R261)
  deriving DecidableEq, Repr

/-- The working state of one register-correction unit (R258, R259). -/
structure RcS where
  on : Bool := false
  cfg : Word × Word := (0, 0)         -- ORG and REPEAT with which the phase was set
  phase : Nat := 0
  prev : Word64 := 0
  got : Bool := false                 -- a mark was accepted in the open window
  armed : Bool := false
  marks : List Nat := []              -- time-stamps of latches resolved and not yet taken
  deriving DecidableEq, Repr

/-- A ramp of an axis record (R271, R283): deceleration or acceleration in counts/s², the velocity it moves to, and,
once begun, the instant, position and velocity it starts from. -/
structure Ramp where
  dec : Nat := 1
  vt : Int := 0
  begun : Bool := false
  x0 : Nat := 0
  p0 : Word64 := 0
  v0 : Int := 0
  deriving DecidableEq, Repr

/-- What follows the end of a ramp. -/
inductive RampEnd where
  | hold | fault | homeStop | homeRest | moving
  deriving DecidableEq, Repr

/-- The phases of homing (R283). -/
inductive HomePhase where
  | search | stop | slow | z | rest
  deriving DecidableEq, Repr

/-- A homing in progress: method, direction of search, phase, direction of travel, raw integer where the move began,
LATCH1_CFG as found (R282), and the grain in which HOME_REF was written, with what it held before (R286). -/
structure HomeS where
  method : Nat := 0
  neg : Bool := false
  phase : HomePhase := .search
  tneg : Bool := false
  start : Int := 0
  saved : Option Word := none
  refWas : Option (Nat × Word) := none
  deriving DecidableEq, Repr

/-- The working state of one axis unit. `neg` = false is LIMP, true is LIMN. -/
structure AxS where
  ramp : Option Ramp := none
  thenDo : RampEnd := .hold
  home : Option HomeS := none
  load : Bool := false                -- the homing load is due at the next boundary (R284)
  inForce : Bool := false             -- the axis record is in force (R265)
  own : PRec := {}                    -- the profile's own record for the next boundary
  raw : PRec := {}                    -- the record for the next boundary before the walls
  clamped : Bool := false             -- the record for the next boundary is walled
  hiAt : Option Nat := none           -- grain of the last change by an event ranked above a register write (R30)
  waitAt : Nat := 0                   -- grain in which PROT_WAIT last set (R275)
  wallP : Option Word64 := none       -- WP of LIMP, once it stands (R280)
  wallN : Option Word64 := none
  wallPendP : Bool := false           -- WP waits for the end of the QSTOP ramp
  wallPendN : Bool := false
  accP : Bool := false                -- accepted levels (R279)
  accN : Bool := false
  accH : Bool := false
  seenP : Bool := false               -- an inactive level accepted since the latch (R281)
  seenN : Bool := false
  perr : Bool := false                -- the profile stood in ERROR at the last evaluation
  offAt : Option Nat := none          -- grain of the last change to OFF under R270
  deriving DecidableEq, Repr

/-- The shadowed settings of a sigma-delta channel (R112). -/
structure SdmSet where
  cfg : Word := 0
  align : Word := 0
  pos : Word := 0
  skew : Word := 0
  gain : Word := 0
  offset : Word := 0
  deriving DecidableEq, Repr

/-- The working state of a sigma-delta channel. -/
structure SdmS where
  old : List (Nat × SdmSet) := []     -- settings replaced at recent commit points, newest first, each with that grain
  spdOld : List (Nat × Word) := []    -- SPD as it stood before recent changes, newest first, each with its grain (R106)
  cal : Option Nat := none            -- the grain in which a calibration in progress started (R108)
  from_ : Nat := 0                    -- fine time from which it takes capture edges (R117)
  lastEnd : Option Nat := none        -- the last capture edge of its last conversion (R111)
  crustFrom : Nat := 0                -- fine time from which the crust filter takes bits (R113)
  crustEnd : Option Nat := none       -- the last capture edge of its last output
  div : List Nat := []                -- DCLKm, m below 8: fine times at which its divider started to count, newest first
  deriving DecidableEq, Repr

/-- What moves the reported position of a port between two evaluations of its speed (R131 to R135): a counted change,
a load of REP, or a Hall jump of three sectors. -/
inductive FbEv where
  | count (d : Int) | load (rep : Int) | jump
  deriving DecidableEq, Repr

/-- A port's speed evaluation at a boundary (R133 to R135): REP, the last counted change, the result, the length of
the run of counted changes in one direction, and that direction. -/
structure FbEval where
  rep : Int := 0
  e : Option Nat := none
  v : Int := 0
  run : Nat := 0
  neg : Bool := false
  deriving DecidableEq, Repr

/-- A latch unit (R139, R140): the first grain in which it is armed, the grain of a DISARM, the grain in which it last
resolved, the grain from which a level may be accepted, the accepted level, if it has one, and, in SSI mode, the
time-stamp that waits for its frame. -/
structure LatchS where
  armed : Option Nat := none
  disarmed : Option Nat := none
  resolved : Option Nat := none
  fresh : Nat := 0
  level : Option Bool := none
  wait : Option Nat := none
  deriving DecidableEq, Repr

/-- The working state of a feedback port. Bits 3:0 of `lines` are L0 to L3, bits 7:4 those of the partner port. -/
structure FbS where
  on : Bool := false
  mode : Nat := 0
  lines : BitVec 8 := 0
  hist : List (Nat × Int × Bool) := []   -- time-stamp, raw integer from there on, whether a change; newest first
  last : FbEval := {}                    -- the evaluation before the latest boundary's
  evs : List (Nat × FbEv) := []          -- since that evaluation, newest first
  bound : Nat := 0                       -- the latest boundary
  read : Option Nat := none              -- SSI: time-stamp of the read in progress
  bad : Bool := false                    -- SSI: L0 was low at its start
  frameEnd : Nat := 0                    -- SSI: the end of the last frame, F after its start
  frame : Option (Nat × Nat) := none     -- SSI: value and read time-stamp of the last accepted frame
  ssiV : Int := 0                        -- SSI: the speed from the last two accepted frames
  latches : Tab LatchS := []
  due : Tab (Option (Nat × Nat)) := []   -- a compare that is to fire: its time-stamp and its grain
  deriving DecidableEq, Repr

/-- The pins and switches the module stands in, which no reset of the die changes: SLOT_ID, the lever switch, PRESENT_N,
the partner's DRIVE line and REFCLK (R13, R404, R426). -/
structure Pins where
  slotId : BitVec 4 := 0
  leverOpen : Bool := false
  presentHigh : Bool := false
  partnerDrive : Bool := false
  refPresent : Bool := false
  deriving DecidableEq, Repr

/-- The save engine (R436, R439, R441): the save in progress, as its cause, area, grain, CT grains and SEQ; the area a
save was cut short in; whether the save of HOLDUP or COOLDOWN has completed; a restore in progress. -/
structure SaveS where
  busy : Option (Nat × Nat × Nat × Nat × Nat) := none
  cut : Option Nat := none
  done : Bool := false
  restoring : Bool := false
  regions : List (Nat × Nat) := []
  doneAt : Nat := 0
  deriving DecidableEq, Repr

/-- The supply and thermal supervisor (R433, R443 to R447, R450): a capacitor test in progress, whether the test of
BRINGUP has run; the levels of the die and board groups, consecutive readings at shutdown, whether shutdown stands; the
grain of the last throttle step; grains from which cooldown and a ring-oscillator disagreement have stood; the
uncorrectable words found and not yet written; the errors that stand in words of the engines' memories, by fabric address,
with whether each is uncorrectable (R156); the bands left. -/
structure SupS where
  testing : Bool := false
  autoDone : Bool := false
  dieWarn : Bool := false
  dieThrottle : Bool := false
  boardWarn : Bool := false
  boardThrottle : Bool := false
  shutDie : Nat := 0
  shutBoard : Nat := 0
  shut : Bool := false
  lowRun : Nat := 0             -- samples of VLOG below 18.0 V in a row, up to the last (R434)
  lowAt : Option Nat := none    -- the grain of the last sample below 19.2 V (R437)
  -- of a sensor: 1 + the grain from which its code stands, the least and the greatest median of its group since (R442)
  codes : Tab (Nat × Int × Int) := []
  scrubAt : Nat := 0            -- the grain in which the last scrub pass ended
  scrubIv : Nat := 100          -- the interval of the pass in progress, in units of 10 ms (R446)
  stepAt : Nat := 0
  coolFrom : Option Nat := none
  roFrom : Option Nat := none
  shed : Bool := false
  eccBad : List Nat := []
  eccHyt : List (Nat × Bool) := []
  bands : List (Nat × Nat) := []   -- grains in which the band changed, each with the band it replaced, newest first
  deriving DecidableEq, Repr

/-- One filtered line of a safety channel (R363): the level taken and the run of samples at the other level. -/
structure SafLine where
  level : Bool := false
  run : Nat := 0
  deriving DecidableEq, Repr

/-- A function unit as one safety channel holds it (R370 to R375). Speeds are numerators over SPD_WIN × 65,536. -/
structure SafFn where
  state : Nat := 0
  wait : Bool := false
  dem : Bool := false
  t : Nat := 0                  -- ticks since the state was entered
  v0 : Int := 0
  spd : Int := 0                -- the speed this channel measured
  slow : Nat := 0
  disc : Nat := 0
  raws : List Int := []         -- raw positions of this channel's ticks, newest first
  since : Nat := 0              -- the grain in which the state was entered
  lead : Bool := false          -- the brake is open and the force waits for BRK_LEAD
  leadAt : Nat := 0             -- the grain in which it opened
  mon : Bool := false           -- SLS: T_STOP has passed since entry
  fbDisc : Bool := false
  viol : Bool := false
  deriving DecidableEq, Repr

/-- One safety channel. -/
structure SafCh where
  lines : Tab SafLine := []     -- 2i and 2i + 1: SIiA and SIiB; 16: SRST
  discs : Tab Nat := []         -- ticks of discrepancy of each pair
  faults : BitVec 8 := 0        -- latched pair faults as this channel holds them
  permit : BitVec 8 := 0
  pdem : BitVec 8 := 0          -- pairs that demand
  srst : Option Nat := none     -- ticks since the filtered rise
  fell : Option Nat := none     -- k of a filtered fall not yet judged
  fns : Tab SafFn := []
  closed : BitVec 4 := 0        -- its switch of each output
  ticks : Nat := 0              -- its ticks since it last judged the other's (R359)
  others : Nat := 0             -- the other's ticks meanwhile
  accDue : Bool := false        -- an accepted reset acts in its next tick (R366)
  deriving DecidableEq, Repr

/-- A receive connection (R378, R379): last accepted SEQ; the first copies that wait for a second, oldest first, as
SEQ, LAN, octets and grain; the copy last accepted; the run accepted on both paths and the run accepted since SAFE. -/
structure SafRx where
  last : Option Nat := none
  wait : List (Nat × Bool × List Byte × Nat) := []
  done : Option (Nat × List Byte) := none
  bothRun : Nat := 0
  goodRun : Nat := 0
  grace : Option Nat := none    -- grain in which the grace timer started
  accAt : Nat := 0              -- grain of the last acceptance, or of its enable
  safeAt : Nat := 0             -- the channel A tick in which it became SAFE
  deriving DecidableEq, Repr

/-- The safety island (chapter "Safety functions"). -/
structure SafS where
  a : SafCh := {}
  b : SafCh := {}
  faults : BitVec 8 := 0        -- pending fault codes
  accepted : Option Nat := none -- grain of the last accepted safety reset
  lastFault : Option Nat := none
  tested : Bool := false        -- the start-up tests passed
  crcOk : Bool := false         -- R50 passed on both channels
  rearm : Bool := false         -- an accepted reset waits for the start-up tests
  cross : Tab Nat := []         -- consecutive exchanges in which an item differs
  rx : Tab SafRx := []
  peerStop : BitVec 8 := 0      -- the partner's last SAFETY frame (R422)
  peerOn : BitVec 4 := 0
  peerAge : Option Nat := none  -- own channel A ticks since it
  tick : Nat := 0               -- channel A ticks
  txDiff : Bool := false        -- the channels' telegrams of the last cyclic frame disagreed (R377)
  -- 2j: 1 + the grain of the last test of output j's P switch, or of its turning on; 2j + 1: 1 + the grain in which its M
  -- switch is tested (R368)
  tests : Tab Nat := []
  deriving DecidableEq, Repr

/-- A write on its way to both modules (R410), or a memory copy (R415): the grain in which it is applied, the fabric
address and the words. -/
structure MirrorW where
  due : Nat := 0
  copy : Bool := false
  addr : Nat := 0
  words : List Word := []
  deriving DecidableEq, Repr

/-- The working state of the pair (chapter "Redundant pairs and live insertion"). -/
structure PairS where
  txSeq : Nat := 0
  rxSeqs : List Nat := []                -- SEQs taken, newest first
  claimDue : Bool := false               -- a claim is to be made (R405)
  claim : Option Nat := none             -- stamp of the own CLAIM while it waits
  claimAt : Nat := 0                     -- the grain in which it was sent
  driveFrom : Nat := 0                   -- the grain from which the own DRIVE line is high while the module owns (R405)
  lane0At : Nat := 0                     -- the grains of the last valid frames of lanes 0 and 1 (R419)
  lane1At : Nat := 0
  helloAt : Option Nat := none           -- the grain of the last HELLO sent (R423)
  partnerMode : BitVec 3 := 0
  partnerSig : Word := 0
  heard : Bool := false                  -- a HELLO was taken in
  leaveAck : Bool := false               -- the partner acknowledged LEAVE (R42)
  synced : Bool := false                 -- a synchronisation has completed (R415)
  matchRun : Nat := 0
  own : List (Nat × Word) := []          -- own hashes, newest first, by boundary instant
  peer : List (Nat × Word) := []         -- partner hashes not yet compared
  hand : Option (Nat × Bool × Bool) := none  -- T_H, whether this module hands over, whether acknowledged
  shadowDue : Bool := false              -- the old owner enters SHADOW at the next boundary (R417)
  captureDue : Bool := false             -- the owner captures its units at the next boundary (R415)
  captured : Option Nat := none          -- Bs
  image : Tab Word := []                 -- captured state received, by offset
  queue : List MirrorW := []
  behind : Option Nat := none            -- the boundary instant a synchronising shadow evaluates next (R415)
  copying : Option Nat := none           -- the engine whose data the owner copies
  started : Bool := false                -- SYNC with ACK was taken in for the engine in synchronisation
  lvl : Nat := 0                         -- level mismatches of the batch in progress
  lvlFrom : Tab Nat := []                -- one above the first grain of the last lasting difference counted, by signal
  cfgStale : Bool := false               -- a commit was taken since CFG_HASH was last worked out
  deriving DecidableEq, Repr

/-- One level of the hardware-loop stack (R159, R160, R179): first and last address of the body, passes still to run with
the current one, and for a modulo loop its trip count, stage count and PASS. -/
structure HLoop where
  first : Nat := 0
  last : Nat := 0
  left : Nat := 0
  modulo : Bool := false
  n : Nat := 0
  sc : Nat := 0
  pass : Nat := 0
  deriving DecidableEq, Repr

/-- An entry of the leg-port queue (R166): the grain in which it left the engine; a compare write of a leg, or a commit
of an axis. -/
structure PortEnt where
  left : Nat := 0
  commit : Bool := false
  unit : Nat := 0
  fall : Bool := false
  v : Nat := 0
  deriving DecidableEq, Repr

/-- A call of a hook that the kernel owes (R211, R215): its address, D8, and the axis block for IX4. -/
structure HookCall where
  addr : Word
  d8 : BitVec 24
  block : Option Nat := none
  deriving DecidableEq, Repr

/-- The hook words of the kernel control block as the kernel read them at the last batch boundary (R192). -/
structure HookWords where
  cur : Word := 0
  batch : Word := 0
  cyc : Word := 0
  deriving DecidableEq, Repr

/-- The registers of one Hytar engine (R149, R151), its leg-port queue, and the grain of the last port commit of each
axis (R170). -/
structure HytS where
  d : Tab (BitVec 24) := []
  acc : Tab (BitVec 56) := []
  ix : Tab (BitVec 16) := []
  ak : Tab (BitVec 16) := []
  md : Tab (BitVec 16) := []
  ln : Tab (BitVec 16) := []
  ps : BitVec 16 := 0           -- PS0 to PS15 as flags, outside modulo loops
  pg : BitVec 4 := 0
  pc : BitVec 14 := 0
  sr : Word := 0
  ecr : Word := 0
  epend : BitVec 64 := 0
  emask : BitVec 64 := 0
  tmr : Nat := 0                -- TMR as written, and the grain in which it was
  tmrAt : Nat := 0
  startAt : Nat := 0
  loops : List HLoop := []      -- innermost first
  waiting : Bool := false
  stepping : Bool := false
  port : List PortEnt := []     -- oldest first
  commitAt : Tab Nat := []
  busy : Nat := 0               -- grains it ran outside waits and halts in the batch in progress, up to `since`
  since : Option Nat := none    -- the grain since which it runs and does not wait
  epAt : Tab Nat := []          -- the grain after the one in which an EPEND bit was last set
  berr : Option Word := none    -- a fabric access whose error has not returned yet
  ovrCyc : Nat := 0
  lost : Tab Nat := []          -- overruns of each input slot the kernel has not counted yet (R192)
  hookAt : Option Nat := none   -- the grain in which the kernel called a hook that it has not seen return (R215)
  retAt : Nat := 0              -- the grain of the last RET
  hooks : HookWords := {}
  owed : List HookCall := []    -- hooks the kernel has still to call, in order
  hookB : Option Word := none   -- the batch whose batch hook is called or owed
  arrAt : Tab Nat := []         -- the grain in which the record of an input slot last arrived
  deriving DecidableEq, Repr

/-- What the standard loop kernel keeps of one axis slot beside its status words (R197 to R210). Per-unit values are in
units of 2^-47, angles in 2^-24 turns, the slip angle in 2^-47 turns, speeds and accelerations in 2^-32 counts.
`seen`: a task or start has run since the engine started; `mc`, `count`, `theta`, `speed`, `bound`: the mechanical count,
the integer count it was taken from, the angle, the speed and the grain of boundary B; the last valid record and the
batches it was held; batches since the set-point last moved (TYPE 2); integrators, id_fw, flux and slip; filter history by
level; sharing corrections by leg; the last compares of each half and the legs whose rise was written in the first; runs
of updates over I_OC by phase and with OVR by channel; updates bridged; the centre of the last update; the SPD settings
the window check passed with; whether an update ran since the last batch task; the batch whose task has run. -/
structure KernS where
  seen : Bool := false
  st : Nat := 0
  code : Nat := 0
  run : Bool := false
  bank : Nat := 0
  bankRef : Bool := false
  mode : Nat := 0
  enabled : Bool := false
  vlim : Bool := false
  ilim : Bool := false
  dcl : Bool := false
  held : Bool := false
  heldN : Nat := 0
  mc : Nat := 0
  count : Int := 0
  theta : Nat := 0
  speed : Int := 0
  bound : Nat := 0
  recP : Word64 := 0
  moved : Option Nat := none
  iqRef : Int := 0
  xv : Int := 0
  xd : Int := 0
  xq : Int := 0
  idfw : Int := 0
  psi : Int := 0
  slip : Int := 0
  hist : List (Int × Int) := []
  share : List Int := []
  mid : List (Nat × Nat × Nat) := []
  wrap : List (Nat × Nat × Nat) := []
  rose : List Nat := []
  oc : Tab Nat := []
  ovr : Tab Nat := []
  bridged : Nat := 0
  lastC : Option Nat := none
  spd : List Nat := []
  updated : Bool := false
  taskB : Option Word := none
  deriving DecidableEq, Repr, Inhabited

/-- One field group (chapter "Field inputs and outputs"): what its field die holds (accepted inputs, wire breaks,
shutdowns, glitches since its last frame, supply states, its configuration words and which it has received, the outputs
requested, its own SEQ and the last downstream SEQ), and what the controller die holds of the link. -/
structure FieldS where
  inp : BitVec 16 := 0
  wb : BitVec 16 := 0
  shut : BitVec 16 := 0
  glitch : BitVec 16 := 0
  uv : Bool := false
  ov : Bool := false
  cfg : Tab Word := []
  got : BitVec 16 := 0
  fieldReset : Bool := false
  req : BitVec 16 := 0
  outEn : Bool := false
  upSeq : Nat := 0
  dnSeen : Nat := 0
  dnAt : Nat := 0
  upDue : Bool := false
  dnSeq : Nat := 0              -- SEQ of the last downstream frame sent
  idx : Nat := 0                -- CFG_IDX of the next
  upLast : Option Nat := none   -- SEQ of the last valid upstream frame
  upAt : Nat := 0
  stale : Bool := true
  pulses : Tab (Nat × Nat) := []  -- compare pulses running: first firing and end
  deriving DecidableEq, Repr

/-- What a frame or message the module sends is. -/
inductive OutKind where
  | ptpSync | ptpAnnounce | ptpDelayReq | ptpDelayResp | cyclic | announcement | lldp | prpSupervision | posted
  | forwarded | pause | molad | can | fieldDown | fieldUp
  deriving DecidableEq, Repr

/-- A frame or message the command in progress sent: its kind, the port, lane or channel, its numbers (times, types,
flags) and its octets. -/
structure Out where
  kind : OutKind
  port : Nat := 0
  nums : List Int := []
  data : List Byte := []
  deriving DecidableEq, Repr

/-- A port's link as a domain measures it (R294, R300, R303): the sequence number and t1 of the Pdelay_Req that waits for its
answer; of a two-step answer its sequence number, what is known of twice the delay, and the MAC stamp of its arrival; twice
the last delays, newest first; t3 and the MAC stamp of the last exchange that gave t3; the neighbour's rate as an 802.1AS
scaled rate offset (2^-41). Times are in units of 2^-16 ns, MAC stamps in quarter grains. -/
structure PtpLink where
  req : Option (BitVec 16 × Int) := none
  resp : Option (BitVec 16 × Int × Nat) := none
  delays : List Int := []
  far : Option (Int × Nat) := none
  rate : Int := 0
  deriving DecidableEq, Repr

/-- A domain counter (R289 to R295): its value at a base grain in units of 2^-32 ns, its increment, and the bases and
increments before, newest first; the grain of its last SET or step; the integrator I as an exact fraction; the side on which
INC is clamped (true: at the largest); t1 and t2 of the last Sync used, and of the last one accepted; a Delay_Req that waits
for its answer, as sequence number and t3; twice the last path delays, newest first; the links of the two ports; the run of
Syncs within LOCK_THR; the master in force, the Announces heard with their grains; a two-step Sync whose Follow_Up is still
to come, with its t2; the grain and announced interval of the last Sync accepted; the grain of the last Sync sent; the
sequence numbers of Syncs, Announces and requests sent. Times of PTP messages are in units of 2^-16 ns. -/
structure DomS where
  base : Nat := 0
  baseGrain : Nat := 0
  inc : Nat := 0x200000000
  past : List (Nat × Nat × Nat) := []
  stepAt : Option Nat := none
  iNum : Int := 0
  iDen : Nat := 1
  clamp : Option Bool := none
  t1 : Option Int := none
  used : Option Int := none
  sync : Option (Int × Int) := none
  req : Option (BitVec 16 × Int) := none
  delays : List Int := []
  link1 : PtpLink := {}
  link2 : PtpLink := {}
  ok : Nat := 0
  master : Option PtpAnnounceMsg := none
  heard : List (PtpAnnounceMsg × Nat) := []
  twoStep : Option (PtpMsg × Int) := none
  lastSync : Option (Nat × Int) := none
  sentAt : Option Nat := none
  syncSeq : BitVec 16 := 0
  annSeq : BitVec 16 := 0
  reqSeq : BitVec 16 := 0
  deriving DecidableEq, Repr

/-- Network time: the two domain counters; a STEP write that waits, as SRC and PCLK cycle (R298, R305). -/
structure NtmS where
  a : DomS := {}
  b : DomS := {}
  want : Option (Bool × Nat) := none
  deriving DecidableEq, Repr

/-- A frame stored for egress: its port, class, octets, the cells it holds in the forwarding region, the software buffer
it is sent from, for a PTP event message its ingress stamp and the link delay to be added (R302), and what leaves (R314,
R318, R320). -/
structure NFrame where
  port : Nat
  cls : Nat
  len : Nat
  cells : Nat
  soft : Option Nat
  event : Option (Int × Int) := none
  body : Out
  deriving DecidableEq, Repr

/-- An entry of the partner table (R327). -/
structure NPartner where
  used : Bool := false
  mac : BitVec 48 := 0
  flags : Nat := 0
  node : Nat := 0
  slot : Nat := 0
  mode : Nat := 0
  annInt : Nat := 0
  lanA : Bool := false
  lanB : Bool := false
  deriving DecidableEq, Repr

/-- A segment of a master with SEND set, within its span (R246): master, SEQ, start S in CT grains (while the master is
IDLE, `isOpen`, its distance from the start to come), octets, copies sent, and the network cycle of its acceptance. -/
structure MSend where
  mm : Nat
  seq : Nat
  start : Nat
  isOpen : Bool
  data : List Byte
  copies : Nat
  cyc : Nat
  deriving DecidableEq, Repr

/-- The switch (chapter "Network ports, cut-through forwarding and partners"): frames stored, oldest first; frames on the
wire, each with the grain at which its line is free again; software
buffers (0 free, 1 received, 2 held, 3 posted) and the receive queue as buffer and length; the discard list as source,
SEQ and grain, oldest first; the own PRP SEQ; partners; the gate list entry in force of each port; network cycles begun,
the CT grain of the latest, whether its cyclic frame was sent, the axis records released there; master segments in their
span; the grain up to which each egress is busy; SEQ of the next cyclic frame; the network cycle in which each slot last
took a frame; the grain in which entry i was last heard on LAN A (2i) and B (2i + 1); the end of each neighbour's TTL. -/
structure NswS where
  frames : List NFrame := []
  flight : List (Nat × NFrame) := []
  bufs : Tab Nat := []
  rxq : List (Nat × Nat) := []
  prp : List (Nat × Nat × Nat) := []
  prpSeq : Nat := 0
  partners : Tab NPartner := []
  gcl : Tab Nat := []
  cyc : Nat := 0
  cycT : Nat := 0
  sent : Bool := false
  txAx : List (Nat × PRec) := []
  sends : List MSend := []
  busy : Tab Nat := []
  shape : Tab Nat := []            -- the grain before which throttle step 3 lets no frame of classes 0 to 5 start (R444)
  cycSeq : Nat := 0
  rxCyc : Tab Nat := []
  heard : Tab Nat := []
  ttl : Tab Nat := []
  annAt : Option Nat := none
  lldpAt : Option Nat := none
  prpAt : Option Nat := none
  deriving DecidableEq, Repr

/-- A CAN channel: frames dropped since the last entry; slots with a timed request, slots whose attempt began past their
window, slots whose abort waits for the end of an attempt; bus-off recovery commanded (R337 to R340). -/
structure CanS where
  gap : Nat := 0
  timed : BitVec 16 := 0
  late : BitVec 16 := 0
  abort : BitVec 16 := 0
  recover : Bool := false
  deriving DecidableEq, Repr

/-- A trigger condition's track of its channel (R348): the zone of the last sample and the last zone other than M (0 none,
1 L, 2 M, 3 H), the sample in which H was entered, samples since H, the last sample in L. -/
structure TcS where
  prev : Nat := 0
  lastZ : Nat := 0
  entered : Nat := 0
  noH : Nat := 0
  lastL : Option Nat := none
  deriving DecidableEq, Repr

/-- The acquisition unit (chapter "Trigger and acquisition"): values of each channel's source known so far, newest first,
as the grain each belongs to and the value; events of the trigger sources as kind, instance and time-stamp; the
conditions; samples since the unit was enabled; grain and CT grain of the last sample instant. Phase: 0 idle, 1 armed,
2 post samples, 3 re-arm. The record in progress: descriptor, grain of its ARM, samples taken before the trigger, post
samples, first page, pages of the pre area and post pages taken, of which closed by STREAM. Requests that wait: SOFTWARE,
REMOTE, and STOP with the grain in which it was applied. Closed pages, oldest first, as descriptor, number and the PCLK
cycle of their close; descriptors in use, oldest first; records of the series; instants of the re-arm; the dead time
that runs, as descriptor, NUM and CT of the trigger. -/
structure AcqS where
  hist : Tab (List (Nat × Nat)) := []
  evs : List (Nat × Nat × Nat) := []
  tcs : Tab TcS := []
  n : Nat := 0
  last : Option (Nat × Nat) := none
  thr : Bool := false
  phase : Nat := 0
  desc : Nat := 0
  num : Nat := 0
  armAt : Nat := 0
  taken : Nat := 0
  postN : Nat := 0
  first : Nat := 0
  pre : Nat := 0
  post : Nat := 0
  preClosed : Bool := false
  postClosed : Nat := 0
  soft : Option Nat := none
  remote : Option Nat := none
  stop : Option Nat := none
  next : Nat := 0
  closed : List (Nat × Nat × Nat) := []
  order : List Nat := []
  done : Nat := 0
  rearm : Nat := 0
  dead : Option (Nat × Nat × Nat) := none
  deriving DecidableEq, Repr

/-- The module without its memories and its queue. -/
structure Hw where
  grain : Nat := 0
  wbuf : List Host.Cell := []      -- the memory writes of the command in progress, newest first
  free : Nat := 0                  -- the model's own counter of free values
  regs : Tab Word := []
  shadow : Tab Word := []
  pend : Tab Word := []
  pendPrev : Tab Word := []        -- pending sets replaced in the PCLK cycle in progress (R33)
  goMark : Tab GoMark := []
  latch : Tab Word := []           -- words latched by a read of a low word (R11)
  evtCyc : Tab EvtCyc := []
  cntCyc : Tab CntCyc := []
  lockSeq : Tab (Option LockSeq) := []
  win : Tab FltWin := []
  logq : List LogRec := []
  logRecent : List (Nat × Nat × Nat) := []   -- time-stamp, index and flags of records just written
  logLost : Bool := false
  clk : Clk := {}
  sys : Sys := {}
  nv : Nv := {}
  legs : Tab LegS := []
  bridges : Tab BridgeS := []
  cars : Tab CarS := []
  gdp : Gdp := {}
  ax : Tab AxS := []
  prf : Tab PrfS := []
  stp : Tab StpS := []
  gears : Tab GearS := []
  rcs : Tab RcS := []
  lastSegs : Tab (List Seg) := []  -- the last segments and held positions of a master, newest first (R259)
  early : List Instr := []         -- commands still in the queue that have acted ahead of one of their cycle (R30, R329)
  sdm : Tab SdmS := []
  fbs : Tab FbS := []
  pins : Pins := {}
  save : SaveS := {}
  sup : SupS := {}
  saf : SafS := {}
  pair : PairS := {}
  semAt : Tab Nat := []            -- the grain after the claim of a semaphore (R35)
  hyts : Tab HytS := []
  kerns : Tab KernS := []          -- slot s of the kernel of engine e at 2e + s
  enAt : Tab Nat := []             -- the grain in which the first leg of an axis became enabled (R170)
  portCyc : Tab Nat := []          -- shadow registers a port write has set, with the PCLK cycle after it (R166)
  fields : Tab FieldS := []
  rst : Nat := 0                   -- 1: the command resets the die; 2: and releases it
  out : List Out := []             -- frames and messages the last command sent
  ntm : NtmS := {}
  nsw : NswS := {}
  can : Tab CanS := []
  acq : AcqS := {}
  deriving DecidableEq, Repr

/-- The machine: the module, its memories, and the commands waiting, first in, first out. -/
structure State where
  hw : Hw := {}
  mem : Mem := []
  pending : List Instr := []
  deriving DecidableEq, Repr

/-- The machine right after reset: every register at its reset value, memory with nothing listed, no command
waiting. -/
def State.reset : State := {}

/-- Why a command stops with a fault. Nothing raises one: every command of the table has an effect. -/
inductive Fault where
  deriving DecidableEq, Repr

/-- Why a command is refused by the model. -/
inductive Refusal where
  /-- Raised by an arm of `exec` whose command has no meaning yet (safe: it stops). -/
  | notModelled (mnemonic : String)
  deriving DecidableEq, Repr

end Sys2Proof.Machine
end

