-- ==== Sys2Proof/Machine/Ops.lean ====
section
/-! DEFINITION. The named operations every command is built from: sparse tables, memory bytes and words, register
words and fields, event bits, counters, the fault log and the fault windows, and the frame in which a command
runs. -/

namespace Sys2Proof.Machine

/-! ### Bit fields and exact arithmetic -/

/-- Bits hi:lo of a word, as a number. -/
def fld (w : Word) (hi lo : Nat) : Nat := (w.toNat >>> lo) % 2 ^ (hi + 1 - lo)

/-- The word with bits hi:lo replaced by a number, cut to the field. -/
def putFld (w : Word) (hi lo v : Nat) : Word :=
  let m : Word := BitVec.ofNat 32 ((2 ^ (hi + 1 - lo) - 1) <<< lo)
  (w &&& ~~~m) ||| (BitVec.ofNat 32 (v <<< lo) &&& m)

/-- Bit i of a word. -/
def bitOf (w : Word) (i : Nat) : Bool := w.getLsbD i

/-- A number read as signed in n bits. -/
def signed (n v : Nat) : Int :=
  let r := v % 2 ^ n
  if r < 2 ^ (n - 1) then (r : Int) else (r : Int) - (2 : Int) ^ n

/-- An integer cut to n bits, as two's complement. -/
def unsign (n : Nat) (v : Int) : Nat := (v % (2 : Int) ^ n).toNat

/-- num / den rounded to nearest, ties to even (the rounding R223, R271 and their like name). -/
def roundHalfEven (num : Int) (den : Nat) : Int :=
  let q := num / (den : Int)
  let r := num % (den : Int)
  if 2 * r < den then q else if 2 * r > den then q + 1 else if q % 2 = 0 then q else q + 1

/-- A value clipped to lo..hi. -/
def clip (lo hi v : Int) : Int := if v < lo then lo else if v > hi then hi else v

/-- The larger integer square root below n, by the digits of the root from bit `b` down. -/
def isqrtFrom : Nat → Nat → Nat → Nat
  | 0, r, n => if (r + 1) * (r + 1) ≤ n then r + 1 else r
  | b + 1, r, n => let r' := r + 2 ^ (b + 1); isqrtFrom b (if r' * r' ≤ n then r' else r) n

/-- floor of the square root, for n below 2^256. -/
def isqrt (n : Nat) : Nat := isqrtFrom 127 0 n

/-! ### Sparse tables -/

/-- The entry of a key, or the default. -/
def tabGet {α : Type} (d : α) (k : Nat) : Tab α → α
  | [] => d
  | (i, v) :: t => if i = k then v else tabGet d k t

/-- The table without a key. -/
def tabDel {α : Type} (k : Nat) : Tab α → Tab α
  | [] => []
  | (i, v) :: t => if i = k then tabDel k t else (i, v) :: tabDel k t

/-- The table with an entry put in its place among rising keys. -/
def tabIns {α : Type} (k : Nat) (x : α) : Tab α → Tab α
  | [] => [(k, x)]
  | (i, v) :: t =>
    if k < i then (k, x) :: (i, v) :: t
    else if k = i then (k, x) :: t
    else (i, v) :: tabIns k x t

/-- The table with a key at a value; the default's entry is not listed. -/
def tabSet {α : Type} [DecidableEq α] (d : α) (k : Nat) (x : α) (t : Tab α) : Tab α :=
  if x = d then tabDel k t else tabIns k x t

/-! ### Memory -/

/-- What a byte of memory that nothing has written reads as (log entry 1). -/
def emptyByte : Byte := 0

/-- One byte of memory. -/
def memGet (m : Mem) (a : Nat) : Byte := tabGet emptyByte a m

/-- One byte of memory written. -/
def memSet (m : Mem) (a : Nat) (b : Byte) : Mem := tabSet emptyByte a b m

/-- The bytes a command wrote, oldest last in the list, brought into memory. -/
def memApply (m : Mem) : List Host.Cell → Mem
  | [] => m
  | (a, b) :: t => memSet (memApply m t) a b

/-- Whether the keys of a table rise strictly from a bound and no entry is the default. -/
def tabOk {α : Type} [DecidableEq α] (d : α) : Nat → Tab α → Bool
  | _, [] => true
  | n, (i, v) :: t => decide (n ≤ i) && decide (v ≠ d) && tabOk d (i + 1) t

/-- Memory is in its one canonical form: addresses strictly rising, no entry equal to an unlisted byte. -/
def Memory.wf (m : Mem) : Bool := tabOk emptyByte 0 m

/-- A byte as the command in progress sees it: its own writes first. -/
def Hw.rd8 (h : Hw) (m : Mem) (a : Nat) : Byte :=
  match h.wbuf.find? (fun c => c.1 == a) with
  | some c => c.2
  | none => memGet m a

/-- A little-endian word of memory as the command in progress sees it. -/
def Hw.rd32 (h : Hw) (m : Mem) (a : Nat) : Word :=
  (h.rd8 m (a + 3)) ++ (h.rd8 m (a + 2)) ++ (h.rd8 m (a + 1)) ++ (h.rd8 m a)

/-- A 64-bit value of memory, low word first. -/
def Hw.rd64 (h : Hw) (m : Mem) (a : Nat) : Word64 := h.rd32 m (a + 4) ++ h.rd32 m a

/-- A run of bytes of memory. -/
def Hw.rdN (h : Hw) (m : Mem) (a n : Nat) : List Byte := (List.range n).map fun i => h.rd8 m (a + i)

/-- Write one byte of memory. -/
def Hw.wr8 (h : Hw) (a : Nat) (b : Byte) : Hw := { h with wbuf := (a, b) :: h.wbuf }

/-- Write a run of bytes of memory. -/
def Hw.wrN (h : Hw) (a : Nat) : List Byte → Hw
  | [] => h
  | b :: t => (h.wr8 a b).wrN (a + 1) t

/-- The four bytes of a word, little-endian. -/
def wordBytes (v : Word) : List Byte :=
  [v.extractLsb' 0 8, v.extractLsb' 8 8, v.extractLsb' 16 8, v.extractLsb' 24 8]

/-- Write a little-endian word of memory. -/
def Hw.wr32 (h : Hw) (a : Nat) (v : Word) : Hw := h.wrN a (wordBytes v)

/-- A word from four bytes, little-endian. -/
def bytesWord (l : List Byte) : Word :=
  BitVec.ofNat 32 ((l.take 4).foldr (fun b acc => b.toNat + 256 * acc) 0)

/-! ### The frame of a command -/

/-- The module at a grain, with nothing sent: time does not run backward, so a step given an earlier grain falls in the
present one. -/
def Hw.at (h : Hw) (g : Nat) : Hw := { h with grain := max h.grain g, out := [] }

/-- Whether an address lies in a memory that keeps its content through a reset of the die: MRAM and the flash. -/
def keeps (a : Nat) : Bool := a / 0x400000 == 0x140 || a / 0x2000000 == 0x30

/-- Memory after a command: a reset of the die leaves what MRAM and the flash hold; then the command's writes. -/
def Mem.after (m : Mem) (h : Hw) : Mem := memApply (if h.rst = 0 then m else m.filter fun c => keeps c.1) h.wbuf

/-- The end of a command: its memory writes leave the module; CLK.GRAIN is what the step's grain makes it, or zero at a
release from reset (R16); a written word holds no error any more (R156, R450). -/
def Hw.seal (h : Hw) (g : Nat) : Hw :=
  { h with grain := if h.rst = 2 then 0 else g, wbuf := [], rst := 0,
           sup := { h.sup with eccBad := h.sup.eccBad.filter fun a => !h.wbuf.any fun c => c.1 / 4 == a / 4,
                               eccHyt := h.sup.eccHyt.filter fun a => !h.wbuf.any fun c => c.1 / 4 == a.1 / 4 } }

/-- A command in grain g, where a condition on the module lets it act; where it does not, nothing but time moves. -/
def runIf (c : Hw → Bool) (g : Nat) (f : Mem → Hw → Hw) (s : State) : Host.Outcome State Fault Refusal :=
  let h0 := s.hw.at g
  let h1 := if c h0 then f s.mem h0 else h0
  .next { s with hw := h1.seal h0.grain, mem := s.mem.after h1 }

/-- A command of the module in grain g: while the supervisor holds the die in reset no block runs, counts or
answers (R43). -/
def run (g : Nat) (f : Mem → Hw → Hw) (s : State) : Host.Outcome State Fault Refusal :=
  runIf (fun h => !h.sys.held) g f s

/-- A command of a part that shedding stops: the links, CAN and acquisition (R435, R445). -/
def runLink (g : Nat) (f : Mem → Hw → Hw) (s : State) : Host.Outcome State Fault Refusal :=
  runIf (fun h => !h.sys.held && !h.sup.shed) g f s

/-- A step of the supervisor, which runs whether or not the die is held in reset. -/
def runSup (g : Nat) (f : Mem → Hw → Hw) (s : State) : Host.Outcome State Fault Refusal := runIf (fun _ => true) g f s

/-- A step of the sensors, the fault manager or the supply page, which COOLDOWN does not hold in reset (R445). -/
def runCool (g : Nat) (f : Mem → Hw → Hw) (s : State) : Host.Outcome State Fault Refusal :=
  runIf (fun h => !h.sys.held || h.sys.heldFor == 3) g f s

/-- The PCLK cycle of the present grain (R32, R475). -/
def Hw.cycle (h : Hw) : Nat := h.grain / 5

/-- The grain in which a register write of this cycle is applied: the last of the cycle (R475). -/
def Hw.wgrain (h : Hw) : Nat := 5 * (h.grain / 5) + 4

/-- The module in the grain in which a register write of this cycle is applied. -/
def Hw.atWrite (h : Hw) : Hw := { h with grain := h.wgrain }

/-- A value the spec leaves open, drawn afresh. -/
def Hw.freeWord (h : Hw) : Word := Config.freeWord h.free

/-- The counter of free values stepped past the one just drawn. -/
def Hw.drew (h : Hw) : Hw := { h with free := h.free + 1 }

/-- Do an action for each of a list, in order. -/
def Hw.each {α : Type} (h : Hw) (l : List α) (f : Hw → α → Hw) : Hw := l.foldl f h

/-- Do an action if a condition holds. -/
def Hw.when (h : Hw) (c : Bool) (f : Hw → Hw) : Hw := if c then f h else h

/-! ### Registers -/

/-- Page-space address of a register. -/
def ra (p off : Nat) : Nat := p * 0x1000 + off

/-- The value of a register in force. -/
def Hw.reg (h : Hw) (a : Nat) : Word := tabGet (regReset a) a h.regs

/-- Set a register in force. -/
def Hw.setReg (h : Hw) (a : Nat) (v : Word) : Hw := { h with regs := tabSet (regReset a) a v h.regs }

/-- The shadow of an RWS register (R60). -/
def Hw.shd (h : Hw) (a : Nat) : Word := tabGet (regReset a) a h.shadow

/-- Set the shadow of an RWS register. -/
def Hw.setShd (h : Hw) (a : Nat) (v : Word) : Hw := { h with shadow := tabSet (regReset a) a v h.shadow }

/-- The pending value of an RWS register (R61). -/
def Hw.pnd (h : Hw) (a : Nat) : Word := tabGet (regReset a) a h.pend

/-- Bits hi:lo of a register. -/
def Hw.f (h : Hw) (a hi lo : Nat) : Nat := fld (h.reg a) hi lo

/-- Set bits hi:lo of a register. -/
def Hw.setF (h : Hw) (a hi lo v : Nat) : Hw := h.setReg a (putFld (h.reg a) hi lo v)

/-- Bit i of a register. -/
def Hw.bit (h : Hw) (a i : Nat) : Bool := bitOf (h.reg a) i

/-- Set bit i of a register. -/
def Hw.setBit (h : Hw) (a i : Nat) (b : Bool) : Hw := h.setF a i i (if b then 1 else 0)

/-- A 64-bit register pair, low word first. -/
def Hw.reg64 (h : Hw) (a : Nat) : Word64 := h.reg (a + 4) ++ h.reg a

/-- Set a 64-bit register pair. -/
def Hw.setReg64 (h : Hw) (a : Nat) (v : Word64) : Hw :=
  (h.setReg a (v.extractLsb' 0 32)).setReg (a + 4) (v.extractLsb' 32 32)

/-- A signed 64-bit register pair. -/
def Hw.int64 (h : Hw) (a : Nat) : Int := (h.reg64 a).toInt

/-- Set a 64-bit register pair to an integer, modulo 2^64. -/
def Hw.setInt64 (h : Hw) (a : Nat) (v : Int) : Hw := h.setReg64 a (BitVec.ofInt 64 v)

/-- The own DRIVE line: high while the module owns the backplane and the die runs, from the grain after a won claim on
(R404, R405, R463). -/
def Hw.driveLine (h : Hw) : Bool :=
  h.bit (ra pPAIR rSTAT) 0 && decide (h.pair.driveFrom ≤ h.grain) && !h.sys.held

/-! ### Control time -/

/-- CT at a grain, in units of 2^-32 ns (R297): from the base in force at that grain. -/
def Hw.ctAt (h : Hw) (g : Nat) : Nat :=
  let bases := (h.clk.ctBaseGrain, h.clk.ctBase, h.clk.ctInc) :: h.clk.past
  let b := (bases.find? fun b => decide (b.1 ≤ g)).getD (bases.getLast?.getD (0, 0, 0))
  ((b.2.1 : Int) + ((g : Int) - b.1) * b.2.2).toNat

/-- CT grains: CT cut down to whole multiples of 2 ns (R36, R297). -/
def Hw.ctGrains (h : Hw) (g : Nat) : Nat := h.ctAt g / 2 ^ 33

/-- The filter time of a field input, in grains (R387). -/
def fieldFilt (filt : Nat) : Nat := [10000, 50000, 250000, 1500000, 5000000, 10000000].getD filt 0

/-! ### Counters and events -/

/-- The key of a counter field. -/
def cntKey (a lo : Nat) : Nat := a * 32 + lo

/-- Note increments of a counter in this PCLK cycle (R32). -/
def Hw.noteCnt (h : Hw) (a lo n : Nat) : Hw :=
  let c := tabGet {} (cntKey a lo) h.cntCyc
  let c' : CntCyc := if c.cycle = h.cycle then { c with n := c.n + n } else ⟨h.cycle, n⟩
  { h with cntCyc := tabSet {} (cntKey a lo) c' h.cntCyc }

/-- Add n to a counter field that saturates at all ones. -/
def Hw.bumpN (h : Hw) (a hi lo n : Nat) : Hw :=
  (h.setF a hi lo (min (h.f a hi lo + n) (2 ^ (hi + 1 - lo) - 1))).noteCnt a lo n

/-- Increment a counter field that saturates. -/
def Hw.bump (h : Hw) (a hi lo : Nat) : Hw := h.bumpN a hi lo 1

/-- Increment a 32-bit counter that wraps. -/
def Hw.bumpWrap (h : Hw) (a : Nat) : Hw := (h.setReg a (h.reg a + 1)).noteCnt a 0 1

/-- A software clear of a counter field: increments of the cycle are added after it (R32). -/
def Hw.clrCnt (h : Hw) (a hi lo : Nat) : Hw :=
  let c := tabGet {} (cntKey a lo) h.cntCyc
  h.setF a hi lo (if c.cycle = h.cycle then min c.n (2 ^ (hi + 1 - lo) - 1) else 0)

/-- The device mode (R40). -/
def Hw.mode (h : Hw) : BitVec 3 := (h.reg (ra pSYS 0x040)).extractLsb' 0 3

/-- Set event bit b of page p, for an event with grain time-stamp ts (R59, R32). -/
def Hw.evtTs (h : Hw) (p b ts : Nat) : Hw :=
  let e := h.reg (ra p rEVT)
  let c := tabGet {} p h.evtCyc
  let c := if c.cycle = h.cycle then c else { cycle := h.cycle }
  let first : Word := match c.oldTs with
    | some t => t
    | none => BitVec.ofNat 32 ts
  let h := if e = 0 then h.setReg (ra p rEVT_TS) first else h
  let h := h.setBit (ra p rEVT) b true
  { h with evtCyc := tabSet {} p { c with set := c.set ||| BitVec.ofNat 32 (2 ^ b) } h.evtCyc }

/-- Set event bit b of page p in the present grain. -/
def Hw.evt (h : Hw) (p b : Nat) : Hw := h.evtTs p b h.grain

/-- Event bits of a page that no write clears: SAF's RESET_STUCK until the button is let go (R366). -/
def Hw.evtHeld (h : Hw) (p : Nat) : Word := if p = pSAF ∧ h.bit (ra pSAF rSTAT) 1 then 0x20 else 0

/-- A software write-1-to-clear of EVT: a bit the hardware set in the cycle stays (R32). -/
def Hw.evtClear (h : Hw) (p : Nat) (v : Word) : Hw :=
  let c := tabGet {} p h.evtCyc
  let keep : Word := (if c.cycle = h.cycle then c.set else 0) ||| h.evtHeld p
  let e := h.reg (ra p rEVT)
  let e' := e &&& ~~~(v &&& ~~~keep)
  let h1 := h.setReg (ra p rEVT) e'
  if e ≠ 0 ∧ e' = 0 then
    let now := { cycle := h.cycle, set := if c.cycle = h.cycle then c.set else 0, oldTs := some (h.reg (ra p rEVT_TS)) }
    { h1 with evtCyc := tabSet {} p now h1.evtCyc }
  else h1

/-- The key under which hardware sets of a W1C register other than EVT are noted. -/
def w1cKey (a : Nat) : Nat := 0x1000000 + a

/-- Hardware sets bit b of a W1C register (R32). -/
def Hw.w1cSet (h : Hw) (a b : Nat) : Hw :=
  let c := tabGet {} (w1cKey a) h.evtCyc
  let c : EvtCyc := if c.cycle = h.cycle then c else { cycle := h.cycle }
  let h := h.setBit a b true
  { h with evtCyc := tabSet {} (w1cKey a) { c with set := c.set ||| BitVec.ofNat 32 (2 ^ b) } h.evtCyc }

/-- A software write-1-to-clear of the bits `mask` of a register (R60, R32). -/
def Hw.w1cClear (h : Hw) (a : Nat) (mask v : Word) : Hw :=
  let c := tabGet {} (w1cKey a) h.evtCyc
  let keep : Word := if c.cycle = h.cycle then c.set else 0
  h.setReg a (h.reg a &&& ~~~(v &&& mask &&& ~~~keep))

/-! ### The fault log (R449) and the fault windows (R448) -/

def fSIMUL : Nat := 1
def fTRANSIENT : Nat := 2
def fLASTING : Nat := 4
def fBLANKED : Nat := 8
def fLOST : Nat := 16

/-- MRAM address of record i of the fault log. -/
def logAddr (i : Nat) : Nat := 0x50020000 + 32 * (i % 2048)

/-- Take a record into the queue of 64: SIMUL goes to every record that shares its grain (R28). A record that
finds the queue full is dropped and counted (R449). -/
def Hw.logFull (h : Hw) (r : LogRec) : Hw :=
  let others := h.logq.any (·.ts == r.ts) || h.logRecent.any (·.1 == r.ts)
  let q := h.logq.map fun x => if x.ts = r.ts then { x with flags := x.flags ||| fSIMUL } else x
  let r := if others then { r with flags := r.flags ||| fSIMUL } else r
  let h := h.each (h.logRecent.filter (·.1 == r.ts)) fun h x =>
    h.wr8 (logAddr x.2.1 + 0x13) (BitVec.ofNat 8 (x.2.2 ||| fSIMUL))
  if h.logq.length < 64 then { h with logq := q ++ [r] }
  else ({ h with logq := q, logLost := true }.bump (ra pFLT 0x048) 15 0).evt pFLT 2

/-- Record an event: page, rank, code, source number, time-stamp, flags. -/
def Hw.log (h : Hw) (page rank code inst ts : Nat) (flags : Nat := 0) : Hw :=
  h.logFull { ts, ct := h.ctGrains ts, page, rank, flags, code, inst, detail := Config.logDetail page code inst ts }

/-- The fault window of a page. -/
def Hw.fwin (h : Hw) (p : Nat) : FltWin := tabGet {} p h.win

/-- Set the fault window of a page. -/
def Hw.setFwin (h : Hw) (p : Nat) (w : FltWin) : Hw := { h with win := tabSet {} p w h.win }

/-- The last grain of an open window: WINDOW ms after its opening (R448). -/
def FltWin.last (w : FltWin) : Nat := w.start + w.windowMs * 500000

/-- The end of a window below its threshold: a TRANSIENT record gives the count (R448 point 4). -/
def Hw.fltEnd (h : Hw) (p : Nat) : Hw :=
  let w := h.fwin p
  let n := h.f (ra p rFLT_CNT) 7 0
  let h := (h.setFwin p { w with isOpen := false }).setF (ra p rFLT_CNT) 7 0 0
  h.logFull { ts := h.grain, ct := h.ctGrains h.grain, page := p, rank := w.rank, flags := fTRANSIENT, code := w.code,
              inst := w.inst, detail := BitVec.ofNat 32 n }

/-- A counted event of page p at grain ts. Answers whether it declares the fault lasting (R448 points 1 to 3). -/
def Hw.fltEvent (h : Hw) (p rank code inst ts : Nat) : Hw × Bool :=
  let h := if (h.fwin p).isOpen && decide ((h.fwin p).last < ts) then h.fltEnd p else h
  let w := h.fwin p
  if w.declared = some ts then (h.setFwin p { w with who := w.who ++ [(code, inst)] }, false) else
  let w := if w.isOpen then w else
    { w with isOpen := true, start := ts, threshold := max 1 (h.f (ra p rFLT_CFG) 23 16),
             windowMs := max 1 (h.f (ra p rFLT_CFG) 15 0), rank, code, inst, who := [] }
  let w := { w with who := if w.who.contains (code, inst) then w.who else w.who ++ [(code, inst)] }
  let h := (h.setFwin p w).bump (ra p rFLT_CNT) 7 0
  if w.threshold ≤ h.f (ra p rFLT_CNT) 7 0 then
    let h := (h.setFwin p { w with isOpen := false, declared := some ts }).setF (ra p rFLT_CNT) 7 0 0
    (h.log p rank code inst ts fLASTING, true)
  else (h, false)

end Sys2Proof.Machine
end

