-- ==== Sys2Proof/Machine/Crc.lean ====
section
/-! DEFINITION. CRC-32C with the parameters of R50 and R362, and the octets of words. -/

namespace Sys2Proof.Machine

/-- Eight shifts of the reflected polynomial 0x1EDC6F41. -/
def crcShift : Nat → Word → Word
  | 0, c => c
  | n + 1, c => crcShift n (if c.getLsbD 0 then (c >>> 1) ^^^ 0x82F63B78 else c >>> 1)

/-- The register after one octet. -/
def crcByte (c : Word) (b : Byte) : Word := crcShift 8 (c ^^^ b.setWidth 32)

/-- The register after a run of octets. -/
def crcRun (c : Word) (l : List Byte) : Word := l.foldl crcByte c

/-- CRC-32C: seed and final XOR all ones. -/
def crc32c (l : List Byte) : Word := ~~~(crcRun (~~~0) l)

/-- Eight steps of the CRC-8 of the isolation links, polynomial 0x2F, most significant bit first (R396). -/
def crc8Shift : Nat → Byte → Byte
  | 0, c => c
  | n + 1, c => crc8Shift n (if c.getLsbD 7 then (c <<< 1) ^^^ 0x2F else c <<< 1)

/-- The CRC-8 of octets: initial value 0xFF, no reflection, final XOR 0xFF (R396). -/
def crc8 (l : List Byte) : Byte := ~~~(l.foldl (fun c b => crc8Shift 8 (c ^^^ b)) 0xFF)

/-- The octets of words, each little-endian. -/
def octets (l : List Word) : List Byte := l.flatMap wordBytes

/-- The octets of a 64-bit quantity, little-endian. -/
def octets64 (v : Word64) : List Byte := wordBytes (v.extractLsb' 0 32) ++ wordBytes (v.extractLsb' 32 32)

/-- A little-endian number from octets. -/
def leNat (l : List Byte) : Nat := l.foldr (fun b acc => b.toNat + 256 * acc) 0

end Sys2Proof.Machine
end

