-- ==== Sys2Proof/Machine/Pages.lean ====
section
/-! DEFINITION. What every register page does alike: which registers a page holds, the commit protocol of shadow,
pending and committed sets (R61, R33), DISCARD, and the return of a page to its reset values (R59). -/

namespace Sys2Proof.Machine

/-- Whether a register lies in page p; the profile windows belong to PRF. -/
def inPage (p a : Nat) : Bool := if 0x200000 ≤ a then p == pPRF else a / 0x1000 == p

/-- The table row of a register, the profile windows read through PRF's window. -/
def rowOf (a : Nat) : Option RegRow :=
  if 0x200000 ≤ a then rowAt pPRF (0x80 + (a - 0x200000) % 0x80) else rowAt (a / 0x1000) (a % 0x1000)

/-- Whether a register is written through its shadow (R60). -/
def isRws (a : Nat) : Bool := match rowOf a with | some r => r.rws != 0 | none => false

/-- The entries of a table that lie in page p. -/
def pageEntries (p : Nat) (t : Tab Word) : Tab Word := t.filter fun e => inPage p e.1

/-- A table with page p's entries replaced by another table's. -/
def copyPage (p : Nat) (src dst : Tab Word) : Tab Word :=
  (pageEntries p src).foldl (fun t e => tabSet (regReset e.1) e.1 e.2 t) (dst.filter fun e => !inPage p e.1)

/-- The bits of an RWS register that the hardware alone sets: DCLK_CFG.LOST (R115) and TDC.MEAS (R343). -/
def roBits (a : Nat) : Word :=
  match (pageBlock (a / 0x1000)).1, a % 0x1000 with
  | .sdm, 0x080 => 0x01000000
  | .can, 0x04C => 0x00FF0000
  | _, _ => 0

/-- The committed values of page p's RWS registers taken from a set; bits only the hardware sets stay. -/
def applySet (p : Nat) (src regs : Tab Word) : Tab Word :=
  let t := (pageEntries p src).foldl (fun t e => tabSet (regReset e.1) e.1 e.2 t)
    (regs.filter fun e => !(inPage p e.1 && isRws e.1))
  [0x080, 0x04C].foldl (fun t off =>
    let a := ra p off
    let m := roBits a
    if m = 0 then t
    else tabSet (regReset a) a ((tabGet (regReset a) a t &&& ~~~m) ||| (tabGet (regReset a) a regs &&& m)) t) t

/-- COMMIT.PENDING of a page. -/
def Hw.pending (h : Hw) (p : Nat) : Bool := h.bit (ra p rCOMMIT) 16

/-- An accepted GO: the whole shadow becomes the pending set and PENDING is set; a pending set of an earlier cycle is
kept for a commit point that falls in this one (R61, R33). -/
def Hw.makePending (h : Hw) (p : Nat) : Hw :=
  let old := tabGet {} p h.goMark
  let hadPrev := if old.cycle = h.cycle then old.hadPrev else h.pending p
  let h := if old.cycle = h.cycle then h else
    { h with pendPrev := if hadPrev then copyPage p h.pend h.pendPrev else h.pendPrev }
  let h := { h with pend := copyPage p h.shadow h.pend, goMark := tabSet {} p ⟨h.cycle, hadPrev⟩ h.goMark }
  (h.setBit (ra p rCOMMIT) 16 true).setBit (ra p rCOMMIT) 17 false

/-- A refused GO (R61): REFUSED is set, any pending set stays. -/
def Hw.refuseCommit (h : Hw) (p : Nat) : Hw := h.setBit (ra p rCOMMIT) 17 true

/-- Whether page p has a pending set that its commit point takes in this cycle. -/
def Hw.takes (h : Hw) (p : Nat) : Bool :=
  let mk := tabGet {} p h.goMark
  h.pending p && (decide (mk.cycle ≠ h.cycle) || mk.hadPrev)

/-- The set the commit point of this cycle takes: the one that stood before a GO of the same cycle (R33). -/
def Hw.takenSet (h : Hw) (p : Nat) : Tab Word :=
  let mk := tabGet {} p h.goMark
  if mk.cycle = h.cycle then h.pendPrev else h.pend

/-- The commit point of page p (COMMIT_APPLY): the pending set becomes the committed set. A GO of this very cycle
waits for the next commit point. -/
def Hw.takePending (h : Hw) (p : Nat) : Hw :=
  if h.takes p then
    let mk := tabGet {} p h.goMark
    let h1 := { h with regs := applySet p (h.takenSet p) h.regs, pair := { h.pair with cfgStale := true } }
    if mk.cycle = h.cycle then { h1 with goMark := tabSet {} p { mk with hadPrev := false } h1.goMark }
    else h1.setBit (ra p rCOMMIT) 16 false
  else h

/-- DISCARD (R59): the pending set is cancelled and the committed values are copied into the shadow. -/
def Hw.discard (h : Hw) (p : Nat) : Hw :=
  let h := { h with pend := h.pend.filter fun e => !inPage p e.1, goMark := tabSet {} p {} h.goMark,
                    shadow := copyPage p (h.regs.filter fun e => isRws e.1) h.shadow }
  h.setBit (ra p rCOMMIT) 16 false

/-- A page returned to its reset values, LOCK excepted (R59). -/
def Hw.pageReset (h : Hw) (p : Nat) : Hw :=
  let lock := h.reg (ra p rLOCK)
  let keep := fun (e : Nat × Word) => !inPage p e.1
  let h := { h with regs := h.regs.filter keep, shadow := h.shadow.filter keep, pend := h.pend.filter keep,
                    evtCyc := tabSet {} p {} h.evtCyc, win := tabSet {} p {} h.win,
                    goMark := tabSet {} p {} h.goMark }
  h.setReg (ra p rLOCK) lock

/-- The software read of an RWS register: the shadow, or the committed value while VIEW is set (R59). -/
def Hw.viewReg (h : Hw) (a : Nat) : Word :=
  let p := if 0x200000 ≤ a then pPRF else a / 0x1000
  if isRws a && !h.bit (ra p rCOMMIT) 8 then (h.shd a &&& ~~~(roBits a)) ||| (h.reg a &&& roBits a) else h.reg a

/-! ### Software writes -/

/-- Instance number of a page (R63): the source number of a software write in the log (R31). -/
def pageInst (p : Nat) : Nat := (pageBlock p).2

/-- LOCKED_WRITE: a write to a locked page is ignored and counted (R62). -/
def Hw.lockedWrite (h : Hw) : Hw := (h.bump (ra pSYS 0x054) 15 0).evt pSYS 3

/-- A software write to register off of page p, whose effect is f: an event of rank 10 (R29), recorded in
the last grain of its PCLK cycle and applied there (R475), and ignored where the page is locked (R62). -/
def Hw.swWrite (h : Hw) (p off : Nat) (f : Hw → Hw) : Hw :=
  let h := h.log p 10 (Config.writeCode p off).toNat (pageInst p) h.wgrain
  if h.bit (ra p rLOCK) 0 then h.atWrite.lockedWrite else f h.atWrite

end Sys2Proof.Machine
end

