-- ==== Sys2Proof/Machine/Link.lean ====
section
/-! DEFINITION. Frames and messages the module sends, the frames of the Molad link (R424, R425) and the mirrored writes
of a pair (R410). -/

namespace Sys2Proof.Machine

def pr (off : Nat) : Nat := ra pPAIR off

/-- A frame or message leaves the module. -/
def Hw.send (h : Hw) (o : Out) : Hw := { h with out := h.out ++ [o] }

/-- A number as n octets, low octet first. -/
def leBytes : Nat → Nat → List Byte
  | 0, _ => []
  | n + 1, v => BitVec.ofNat 8 v :: leBytes n (v / 256)

/-- FLAGS of a Molad frame (R424): OWN, SYNC, LEVER, ACK, POS_B. -/
def Hw.moladFlags (h : Hw) (ack : Bool) : Nat :=
  let b := fun (i n : Nat) => if h.bit (pr rSTAT) i then n else 0
  b 0 1 + b 2 2 + b 6 4 + (if ack then 8 else 0) + b 9 16

/-- A Molad frame sent on both lanes (R423, R424): type, FLAGS, SEQ, STAMP, and the payload. -/
def Hw.moladSend (h : Hw) (ty : Nat) (ack : Bool) (payload : List Byte) : Hw :=
  let seq := h.pair.txSeq
  let h := h.send { kind := .molad, nums := [ty, h.moladFlags ack, seq, h.ctGrains h.grain], data := payload }
  { h with pair := { h.pair with txSeq := (seq + 1) % 65536 } }

/-- A member of a pair whose link is up (R410). -/
def Hw.mirrorOn (h : Hw) : Bool := h.bit (pr 0x040) 0 && h.bit (pr rREADY) 2

/-- A write goes to the partner, to be applied on both modules 1,000 grains on (R410). -/
def Hw.mirrorPut (h : Hw) (addr : Nat) (words : List Word) : Hw :=
  let due := h.ctGrains h.wgrain + 1000
  let h := h.moladSend 7 false (leBytes 4 due ++ leBytes 4 addr ++ words.flatMap wordBytes)
  { h with pair := { h.pair with queue := h.pair.queue ++ [{ due, addr, words }] } }

/-- A copy of memory words sent to the partner (R415, R425). -/
def Hw.memCopy (h : Hw) (addr : Nat) (words : List Word) : Hw :=
  h.moladSend 7 false (leBytes 4 0xFFFFFFFF ++ leBytes 4 addr ++ words.flatMap wordBytes)

/-- A software write to a mirrored register (R410): on the owner it takes effect with its mirror, in SHADOW it is
ignored. -/
def Hw.swMirror (h : Hw) (p off : Nat) (v : Word) (f : Hw → Hw) : Hw :=
  h.swWrite p off fun h =>
    if h.mirrorOn && h.mode == 4 then h.evt pPAIR 10
    else if h.mirrorOn && h.bit (pr rSTAT) 0 then h.mirrorPut (0x40000000 + ra p off) [v]
    else f h

end Sys2Proof.Machine
end

