-- ==== Sys2Proof/Machine/AcqIn.lean ====
section
/-! DEFINITION. What the acquisition unit takes from other units as they work: values of its channels' sources with the
grain each belongs to (R346, R347), and the events its conditions watch (R348). -/

namespace Sys2Proof.Machine

def aq (off : Nat) : Nat := ra pACQ off
def Hw.chKind (h : Hw) (c : Nat) : Nat := h.f (aq (0x100 + 4 * c)) 27 24
def Hw.chInst (h : Hw) (c : Nat) : Nat := h.f (aq (0x100 + 4 * c)) 23 16
/-- Grain g = t + TSKEW of a channel for a sample instant in grain t. -/
def Hw.chGrain (h : Hw) (c t : Nat) : Nat := ((t : Int) + signed 8 (h.f (aq (0x100 + 4 * c)) 7 0)).toNat

/-- The channels in use with a source. -/
def Hw.chOf (h : Hw) (kind inst : Nat) : List Nat :=
  if h.bit (aq rCTRL) 0 then
    (List.range 32).filter fun c => h.bit (aq 0x044) c && h.chKind c == kind && h.chInst c == inst
  else []

/-- The fabric address of the data word a channel of kind 6 reads. -/
def Hw.chWord (h : Hw) (c : Nat) : Nat := 0x10010000 + 0x20000 * h.chInst c + 4 * h.f (aq (0x180 + 4 * c)) 13 0

/-- A value of a source becomes known that belongs to grain ts: where a sample that would have used it is already
assembled it comes too late (R347). -/
def Hw.acqLate (h : Hw) (kind inst ts : Nat) : Hw :=
  match h.acq.last with
  | none => h
  | some t => h.each (h.chOf kind inst) fun h c =>
      if ts ≤ h.chGrain c t.1 then (h.bump (aq 0x078) 15 0).evt pACQ 5 else h

/-- A value of a source, kept as far back as a sample may reach. -/
def Hw.acqNote (h : Hw) (kind inst ts v : Nat) : Hw :=
  (h.acqLate kind inst ts).each (h.chOf kind inst) fun h c =>
    let l := tabGet [] c h.acq.hist
    let near := l.takeWhile fun e => decide (h.grain < e.1 + 70000)
    let l := (ts, v) :: near ++ (l.drop near.length).take 1
    { h with acq := { h.acq with hist := tabSet [] c l h.acq.hist } }

/-- Bytes written into the data memory of an engine: words that a channel of kind 6 watches (R346). -/
def Hw.acqBytes (h : Hw) (a : Nat) (d : List Byte) : Hw :=
  if h.bit (aq rCTRL) 0 then
    h.each ((List.range 32).filter fun c => h.bit (aq 0x044) c && h.chKind c == 6) fun h c =>
      let w := h.chWord c
      if a ≤ w ∧ w + 4 ≤ a + d.length then
        let l := tabGet [] c h.acq.hist
        let near := l.takeWhile fun e => decide (h.grain < e.1 + 70000)
        let l := (h.grain, (bytesWord (d.drop (w - a))).toNat) :: near ++ (l.drop near.length).take 1
        { h with acq := { h.acq with hist := tabSet [] c l h.acq.hist } }
      else h
  else h

/-- An event of a trigger source with its time-stamp: 1, 2 CMPk and 3, 4 LATCHk of a port, 5 a trip input. -/
def Hw.acqEvent (h : Hw) (kind inst ts : Nat) : Hw :=
  if h.bit (aq rCTRL) 0 then { h with acq := { h.acq with evs := (kind, inst, ts) :: h.acq.evs } } else h

end Sys2Proof.Machine
end

