-- ==== Sys2Proof/Machine/Legs.lean ====
section
/-! DEFINITION. Legs and pulse generation (R66 to R82): ownership of bridges, carrier counts, forces and the safe
state, the start of a leg, edges with their notches, drops, stretches and late edges, and the bootstrap refresh. -/

namespace Sys2Proof.Machine

/-! ### Ownership and carriers -/

def Hw.leg (h : Hw) (n : Nat) : LegS := tabGet {} n h.legs
def Hw.setLeg (h : Hw) (n : Nat) (l : LegS) : Hw := { h with legs := tabSet {} n l h.legs }
def Hw.bridge (h : Hw) (b : Nat) : BridgeS := tabGet {} b h.bridges
def Hw.setBridge (h : Hw) (b : Nat) (x : BridgeS) : Hw := { h with bridges := tabSet {} b x h.bridges }
def Hw.car (h : Hw) (c : Nat) : CarS := tabGet {} c h.cars
def Hw.setCar (h : Hw) (c : Nat) (x : CarS) : Hw := { h with cars := tabSet {} c x h.cars }

/-- A register of a LEG page. -/
def lg (n off : Nat) : Nat := ra (pLEG n) off
/-- A register of a CAR page. -/
def cr (c off : Nat) : Nat := ra (pCAR c) off

/-- The carrier unit, and so the axis, that a bridge belongs to (R66). -/
def Hw.bridgeAxis (h : Hw) (b : Nat) : Option Nat := (List.range 32).find? fun c => h.bit (cr c 0x044) b

/-- The axis that owns a leg (R66). -/
def Hw.legAxis (h : Hw) (n : Nat) : Option Nat := h.bridgeAxis (n / 3)

/-- The bridges of a bridge mask, ascending. -/
def bridgesOf (w : Word) : List Nat := (List.range 32).filter fun b => bitOf w b

/-- The legs of a list of bridges, ascending. -/
def legsOf (bs : List Nat) : List Nat := bs.flatMap fun b => [3 * b, 3 * b + 1, 3 * b + 2]

/-- The legs an axis owns (R66). -/
def Hw.axisLegs (h : Hw) (a : Nat) : List Nat := legsOf (bridgesOf (h.reg (cr a 0x044)))

/-- The legs an axis owns, as a mask. -/
def Hw.axisMask (h : Hw) (a : Nat) : BitVec 96 := (h.axisLegs a).foldl (fun m n => m ||| BitVec.ofNat 96 (2 ^ n)) 0

/-- LEGn.CTRL.ENABLE: the leg is enabled (R77). -/
def Hw.legEnabled (h : Hw) (n : Nat) : Bool := h.bit (lg n rCTRL) 0

/-- Whether any leg is enabled (R77). -/
def Hw.anyEnabled (h : Hw) : Bool := (List.range 96).any h.legEnabled

/-- The period of a configuration under a batch: BATCH / K or BATCH × K, when it meets R21 and R67. -/
def periodOf (batch k : Nat) (mul : Bool) : Option Nat :=
  if k = 0 ∨ 64 < k then none
  else if mul then (if 500 ≤ batch * k ∧ batch * k ≤ 16666666 then some (batch * k) else none)
  else if batch % k = 0 ∧ 500 ≤ batch / k ∧ batch / k ≤ 16666666 then some (batch / k) else none

/-- BATCH in force. -/
def Hw.batch (h : Hw) : Nat := h.f (ra pCLK 0x048) 18 0
/-- NCYC in force. -/
def Hw.ncyc (h : Hw) : Nat := h.f (ra pCLK 0x04C) 9 0
/-- The period P in force of a carrier unit, 0 while invalid (R67). -/
def Hw.period (h : Hw) (c : Nat) : Nat := h.f (cr c 0x04C) 23 0
/-- CFG.MUL. -/
def Hw.carMul (h : Hw) (c : Nat) : Bool := h.bit (cr c 0x040) 7
/-- CFG.K. -/
def Hw.carK (h : Hw) (c : Nat) : Nat := h.f (cr c 0x040) 6 0
/-- CFG.RELOAD. -/
def Hw.carReload (h : Hw) (c : Nat) : Nat := h.f (cr c 0x040) 9 8

/-- PERIOD recomputed from the configuration in force and a batch (R67). -/
def Hw.recalcPeriod (h : Hw) (c : Nat) : Hw :=
  h.setF (cr c 0x04C) 23 0 ((periodOf h.batch (h.carK c) (h.carMul c)).getD 0)

/-- The count of a carrier unit at a grain: it holds at P − 1 when its period runs long (R67, R69). -/
def Hw.carCount (h : Hw) (c g : Nat) : Nat :=
  let P := h.period c
  let d := g - (h.car c).start
  if P = 0 then 0
  else if h.carMul c then min (P - 1) d
  else if h.carK c * P ≤ d then P - 1 else d % P

/-- Periods begun since the carrier unit's last boundary start, by a grain. -/
def Hw.carStarts (h : Hw) (c g : Nat) : Nat :=
  let P := h.period c
  if P = 0 ∨ h.carMul c then 1 else min (h.carK c) ((g - (h.car c).start) / P + 1)

/-- The offset that the configuration of carrier unit c gives bridge b, in fine steps (R68). -/
def Hw.offsetOf (h : Hw) (c b : Nat) : Nat :=
  let P := h.period c
  let bs := bridgesOf (h.reg (cr c 0x044))
  let i := bs.idxOf b
  if P = 0 ∨ bs.length = 0 then 0
  else (h.f (cr c 0x048) 28 0 + i * 32 * P / bs.length) % (32 * P)

/-- The offset of bridge b, as it was fixed at commit (R68). -/
def Hw.bridgeOffset (h : Hw) (b : Nat) : Nat := (h.bridge b).offset

/-- The fine position of bridge b of carrier unit c in its own count, at the end of grain g (R68). -/
def Hw.bridgePos (h : Hw) (c b g : Nat) : Nat :=
  let T := 32 * h.period c
  (32 * h.carCount c g + 31 + T - h.bridgeOffset b % T) % T

/-- The fine position in the count of carrier unit c at which bridge b's count stands at `pos`. -/
def Hw.carPos (h : Hw) (c b pos : Nat) : Nat := (pos + h.bridgeOffset b) % (32 * h.period c)

/-! ### Forces (R78) -/

def Hw.prot (h : Hw) (a c : Nat) : ProtS := tabGet {} (3 * a + c) h.gdp.prot
def Hw.setProt (h : Hw) (a c : Nat) (x : ProtS) : Hw :=
  { h with gdp := { h.gdp with prot := tabSet {} (3 * a + c) x h.gdp.prot } }
def Hw.trip (h : Hw) (t : Nat) : TripS := tabGet {} t h.gdp.trips
def Hw.setTrip (h : Hw) (t : Nat) (x : TripS) : Hw :=
  { h with gdp := { h.gdp with trips := tabSet {} t x h.gdp.trips } }

/-- The confirmed gate status of a leg. -/
def Hw.gstCode (h : Hw) (n : Nat) : Nat := h.f (ra pGDP (0x600 + 4 * n)) 2 0

/-- The status force (R87, R103): every status but OK and the hard fault, whose force is the short-circuit class's. -/
def Hw.statusForce (h : Hw) (n : Nat) : Bool := h.gstCode n != 0 && h.gstCode n != 4

/-- Whether a trip latch holds a leg. -/
def Hw.tripForce (h : Hw) (n : Nat) : Bool :=
  (List.range 16).any fun t => h.bit (ra pGDP 0x058) t && (h.trip t).mask.getLsbD n

/-- Whether a trip pin has drawn a leg's ENA low at the connector and is not yet sampled (R27, R89). -/
def Hw.asyncLow (h : Hw) (n : Nat) : Bool := h.gdp.trips.any fun e => e.2.async.isSome && e.2.asyncMask.getLsbD n

/-- Whether a class force holds a leg (R97). -/
def Hw.classForce (h : Hw) (n : Nat) : Bool := h.gdp.prot.any fun e => e.2.force.getLsbD n

/-- Force by protection on a leg. -/
def Hw.protForce (h : Hw) (n : Nat) : Bool :=
  h.statusForce n || h.tripForce n || h.classForce n || h.gdp.lone.getLsbD n

/-- Whether some application core is in debug halt (R54). -/
def Hw.acHalted (h : Hw) : Bool := h.sys.acHalted != 0

/-- A page in its HALT_SAFE state (R54). -/
def Hw.haltSafe (h : Hw) (p : Nat) : Bool := h.acHalted && h.bit (ra p rCTRL) 2

/-- Whether the device mode lets a leg run (R41). -/
def legMode (m : BitVec 3) : Bool := m == 3 || m == 4

/-- Force by the device mode or by HALT_SAFE. -/
def Hw.modeForce (h : Hw) (n : Nat) : Bool := !legMode h.mode || h.haltSafe (pLEG n)

/-- A force under R78 acts on the leg. -/
def Hw.forced (h : Hw) (n : Nat) : Bool :=
  h.protForce n || (h.leg n).fSafety || (h.leg n).fHalted || h.modeForce n

/-- The leg's outputs in the safe state: ENA low and PUL low (R77). Edges and rises still on their way to the connector
never occur, so they blank nothing (R78, R90, R94). -/
def Hw.legSafe (h : Hw) (n : Nat) : Hw :=
  let l := h.leg n
  h.setLeg n { l with running := false, pul := false, pulAt := 32 * h.grain, prevAt := 0, prevFrom := 0, prevTo := 0,
                      enaFrom := 0, enaTo := 0, refFall := 0, refRise := 0, dropPair := none, hsDue := false,
                      edges := l.edges.filter (decide <| · < h.grain), rises := l.rises.filter (decide <| · < h.grain) }

/-- A force begins on a leg (FORCE_BEGIN): the leg is safe in this grain and EVT.FORCED is set. -/
def Hw.forceBegin (h : Hw) (n : Nat) : Hw := (h.legSafe n).evt (pLEG n) 6

/-- STAT.ANY_ENABLED of the carrier unit and the enable bit, cleared for one leg: the leg is safe in this grain. -/
def Hw.legOff (h : Hw) (n : Nat) : Hw := (h.setBit (lg n rCTRL) 0 false).legSafe n

/-- Clear ENABLE of every leg of an axis. -/
def Hw.axisLegsOff (h : Hw) (a : Nat) : Hw := h.each (h.axisLegs a) Hw.legOff

/-- Whether the legs of carrier unit c may be enabled: its PERIOD is non-zero, and no change of BATCH has broken it
since its last commit (R77, R23). -/
def Hw.carValid (h : Hw) (c : Nat) : Bool := h.period c != 0 && !(h.car c).invalid

/-- Whether a set of ENABLE meets the conditions of R77. -/
def Hw.legMayEnable (h : Hw) (n : Nat) : Bool :=
  legMode h.mode && (match h.legAxis n with | some c => h.carValid c | none => false) && !h.forced n

/-- A software set of LEGn.CTRL.ENABLE: refused unless R77's conditions hold. -/
def Hw.legEnable (h : Hw) (n : Nat) : Hw :=
  if h.legMayEnable n then
    let h := match h.legAxis n with
      | some a => if (h.axisLegs a).any h.legEnabled then h else { h with enAt := tabSet 0 a h.wgrain h.enAt }
      | none => h
    h.setBit (lg n rCTRL) 0 true
  else (h.setBit (lg n rCTRL) 0 false).evt (pLEG n) 1

/-- PROT_WAIT of the axis of a leg that starts in the grain of a batch boundary clears at that boundary (R275). -/
def Hw.protWaitClear (h : Hw) (n : Nat) : Hw :=
  match h.legAxis n with
  | some a => if (h.reg64 (ra pCLK 0x058)).toNat = h.grain then h.setBit (ra (pAX a) rSTAT) 3 false else h
  | none => h

/-- An enabled leg under no force starts at its bridge's reload (LEG_START): PUL stays low and ENA rises DT_FALL.POST
later, as though PUL had just fallen (R77). The reload is at fine time t, of the bridge's window w. For MIN_PULSE an edge
of a later window is measured from the start as from an edge, one of the start's own window is not (log entry 147). -/
def Hw.legStart (h : Hw) (n t w : Nat) : Hw :=
  if h.legEnabled n && !h.forced n && !(h.leg n).running && h.legMayEnable n then
    let post := h.f (lg n 0x04C) 15 0
    let h := h.protWaitClear n
    h.setLeg n { h.leg n with running := true, pul := false, pulAt := t, prevAt := t, prevFrom := 0, prevTo := 0,
                              enaFrom := 0, enaTo := t + post, edgeWin := w, startedAt := h.grain, onFrom := h.grain,
                              refFall := 0, refRise := 0, dropPair := none, hsDue := false,
                              rises := ((t + post) / 32 + 42) :: (h.leg n).rises.take 3,
                              enaHold := none }
  else h

/-- In a handover the notch of at least 24 grains in which a leg changes owner is noted (R417). -/
def Hw.noteNotch (h : Hw) (n : Nat) : Hw :=
  let l := h.leg n
  match h.pair.hand with
  | some (tH, _, _) =>
    let N := l.enaFrom / 32
    if l.handNotch.isNone && decide (tH ≤ h.ctGrains N) && decide (h.ctGrains N < tH + h.batch)
        && decide (24 * 32 ≤ l.enaTo - l.enaFrom) then h.setLeg n { l with handNotch := some N } else h
  | none => h

/-- The CT grain in which a leg without a notch changes owner in a handover at T_H: T_H + BATCH, moved past a PUL edge of
the leg within 16 grains of it, to where none lies so near (R417). -/
def Hw.legHandAt (h : Hw) (n tH : Nat) : Nat :=
  let X := tH + h.batch
  let ct := fun e => h.ctGrains (e - 42)
  ((h.leg n).edges.reverse.map ct).foldl (fun X e => if e ≤ X + 16 ∧ X ≤ e + 16 then e + 17 else X) X

/-- Whether the new owner drives a leg in a handover at T_H: 8 grains after a notch opens, or from the grain in which a
leg without one changes owner (R417). -/
def Hw.legTaken (h : Hw) (n tH : Nat) : Bool :=
  match (h.leg n).handNotch with
  | some N => decide (N + 8 ≤ h.grain)
  | none => decide (h.legHandAt n tH ≤ h.ctGrains h.grain)

/-- Whether the old owner has released a leg in a handover at T_H: 8 grains after the new owner drives it (R417). -/
def Hw.legGiven (h : Hw) (n tH : Nat) : Bool :=
  match (h.leg n).handNotch with
  | some N => decide (N + 16 ≤ h.grain)
  | none => decide (h.legHandAt n tH + 8 ≤ h.ctGrains h.grain)

/-- Whether the module drives the outputs of R404 other than legs: DCLK, L2 and L3 (R404, R417). -/
def Hw.drives (h : Hw) : Bool :=
  h.driveLine && (match h.pair.hand with | some (tH, true, true) => decide (h.ctGrains h.grain < tH + 8) | _ => true)

/-- Whether the module drives leg n (R404, R417). -/
def Hw.drivesLeg (h : Hw) (n : Nat) : Bool :=
  h.driveLine && (match h.pair.hand with
    | some (tH, true, true) => !h.legGiven n tH
    | some (tH, false, _) => h.legTaken n tH
    | _ => true)

/-- Whether a takeover still holds the pin of ENA low: up to the end of the leg's first notch (R418). -/
def LegS.held (l : LegS) (t : Nat) : Bool :=
  match l.enaHold with
  | some g => !(decide (32 * g < l.enaTo) && decide (l.enaTo ≤ t))
  | none => false

/-! ### Levels and status -/

/-- PUL of the pulse generator at a fine time. -/
def LegS.pulLevel (l : LegS) (t : Nat) : Bool :=
  if l.refFall ≤ t && decide (t < l.refRise) then false
  else if l.pulAt ≤ t then l.pul else if l.prevAt ≤ t then !l.pul else l.pul

/-- ENA of the pulse generator at a fine time. -/
def LegS.enaLevel (l : LegS) (t : Nat) : Bool :=
  l.running && !(decide (l.enaFrom ≤ t) && decide (t < l.enaTo)) && !(decide (l.prevFrom ≤ t) && decide (t < l.prevTo))

/-- The fine time of the edges that reach the connector at the end of grain g: 42 grains earlier (R472). -/
def pinTime (g : Nat) : Nat := 32 * g + 31 - 32 * 42

/-- A warning from another page reaches an axis: its bit of AXa.WARN and EVT.WARNING (R276). -/
def Hw.warnAxis (h : Hw) (a bit : Nat) : Hw := (h.setBit (ra (pAX a) 0x0A8) bit true).evt (pAX a) 3

/-- A counted event of a LEG page (R81): a lasting declaration warns the owning axis (R276). -/
def Hw.legFlt (h : Hw) (n code : Nat) : Hw :=
  let r := h.fltEvent (pLEG n) 10 code n h.grain
  if r.2 then (match r.1.legAxis n with | some a => r.1.warnAxis a 0 | none => r.1) else r.1

/-! ### Edges (R70 to R75) -/

/-- Where a compare stands in the window in force: before it, at a relative fine position, or beyond it (R71, R72). -/
inductive EdgePlace where
  | before | inside (rel : Nat) | beyond
  deriving DecidableEq, Repr

/-- The place of a compare position in the window of a reload mode with period P. -/
def edgePlace (P reload : Nat) (mid : Bool) (pos : Nat) : EdgePlace :=
  if 32 * P ≤ pos then .beyond
  else if reload = 0 then .inside pos
  else if reload = 1 then .inside ((pos + 32 * P - 16 * P) % (32 * P))
  else if mid then (if pos < 16 * P then .before else .inside (pos - 16 * P))
  else (if pos < 16 * P then .inside pos else .beyond)

/-- The relative position at which a compare acts: one before the window acts at its start (R72 rule 4). -/
def EdgePlace.rel? : EdgePlace → Option Nat
  | .before => some 0
  | .inside r => some r
  | .beyond => none

/-- The edge of a leg as placed: notch from `fall` to `rise`, PUL at `at`. -/
structure PlacedEdge where
  fall : Nat
  at_ : Nat
  rise : Nat
  late : Bool
  stretched : Bool
  deriving DecidableEq, Repr

/-- Place an edge (R73 to R75): t its instant, rel its place after the window start in bridge count, ws the instant of
that start, minAt the earliest instant MIN_PULSE allows, moved whether rules 4, 6 or 7 moved it. An edge placed less than
PRE after the window start opens its notch at that start, which R74's "at once" is taken to name (log entry 148). -/
def placeEdge (t rel ws minAt pre post : Nat) (moved : Bool) : PlacedEdge :=
  let stretched := decide (t < minAt)
  let t1 := max t minAt
  let opening := if moved then t else ws
  if if stretched then opening + pre ≤ t1 else ¬ moved ∧ pre ≤ rel then
    ⟨t1 - pre, t1, t1 + post, false, stretched⟩
  else
    let at_ := max t1 (opening + pre)
    ⟨opening, at_, at_ + post, true, stretched⟩

/-- Deliver a placed edge: PUL takes its level, the notch merges with one it meets, and the edge and the rise of ENA
are noted as they reach the connector, 42 grains later (R73, R90). HS_DUE stays as it is: R79 clears it at the refresh
(log entry 150). -/
def LegS.deliver (l : LegS) (e : PlacedEdge) (level : Bool) (win : Nat) : LegS :=
  let merge := decide (e.fall ≤ l.enaTo)
  let l := if merge then { l with rises := l.rises.drop 1 } else l
  let prevFrom := if merge then l.prevFrom else l.enaFrom
  let prevTo := if merge then l.prevTo else l.enaTo
  let from_ := if merge then min l.enaFrom e.fall else e.fall
  let to_ := if merge then max l.enaTo e.rise else e.rise
  { l with pul := level, pulAt := e.at_, prevAt := l.pulAt, prevFrom, prevTo, enaFrom := from_, enaTo := to_,
           edgeWin := win,
           onFrom := if level then l.onFrom else e.at_ / 32,
           edges := (e.at_ / 32 + 42) :: l.edges.take 7,
           rises := (to_ / 32 + 42) :: l.rises.take 3 }

/-- The dead-time register of an edge: DT_RISE for a rise, DT_FALL for a fall. -/
def dtOff (rise : Bool) : Nat := if rise then 0x048 else 0x04C

/-- A drop of two edges (R75): counted once, PUL and ENA stay. -/
def Hw.dropPulse (h : Hw) (n win : Nat) : Hw :=
  let h := h.setLeg n { h.leg n with dropPair := some win }
  ((h.bump (lg n 0x05C) 15 0).evt (pLEG n) 2).legFlt n 2

/-- Whether the partner of an edge lies in the same window and forms with it a pulse shorter than MIN_PULSE, or, both
acting at the window start, decides the level alone (R72 rules 4 and 5, R75): drop, supersede or act. -/
inductive PairFate where
  | drop | superseded | act
  deriving DecidableEq, Repr

def pairFate (mine other : EdgePlace) (minePos otherPos minPulse : Nat) : PairFate :=
  match mine, other with
  | .before, .before =>
    if minePos = otherPos then .drop else if minePos < otherPos then .superseded else .act
  | .inside _, .before => .act
  | .before, .inside 0 => .superseded
  | m, o =>
    match m.rel?, o.rel? with
    | some r, some q =>
      if r = q then .drop else if r < q ∧ q - r < minPulse then .drop else .act
    | _, _ => .act

/-- The opening of a notch lies in bridge count: where the last period of carrier unit c ran long or short at the boundary
between them, it lies that much further from its edge, or nearer, but not past the boundary (R69, R73). -/
def Hw.countFall (h : Hw) (c : Nat) (e : PlacedEdge) : PlacedEdge :=
  let x := h.car c
  if e.late || e.stretched || decide (32 * x.start ≤ e.fall) || decide (e.at_ < 32 * x.start) then e
  else { e with fall := min (32 * x.start) ((e.fall : Int) - 32 * x.slip).toNat }

/-! ### Bootstrap refresh (R79) -/

/-- The on-time of a leg in grains at a grain: counted while PUL is high on a leg out of the safe state. -/
def Hw.onTime (h : Hw) (n g : Nat) : Nat := if (h.leg n).running && (h.leg n).pul then g - (h.leg n).onFrom else 0

/-- The grain in which the notch of a refresh at the wrap of fine time W would open (R79). -/
def Hw.refreshOpens (h : Hw) (n W : Nat) : Nat := W / 32 - (h.f (lg n 0x04C) 31 16 + 31) / 32

/-- Whether an on-time exceeds HS_MAX_ON, which 0 turns off (R79). -/
def Hw.onTooLong (h : Hw) (n on : Nat) : Bool := h.f (lg n 0x054) 27 0 != 0 && decide (h.f (lg n 0x054) 27 0 < on)

/-- Whether a refresh of leg n is due at the wrap of fine time W (R79). -/
def Hw.refreshDue (h : Hw) (n W : Nat) : Bool :=
  (h.leg n).running && !h.forced n && h.onTooLong n (h.onTime n (h.refreshOpens n W))

/-- REFRESH: at the bridge's wrap W a leg whose on-time, taken where the notch would open, exceeds HS_MAX_ON gets a low
time of REFRESH_W. -/
def Hw.refresh (h : Hw) (n wrap : Nat) : Hw :=
  let l := h.leg n
  let preF := h.f (lg n 0x04C) 31 16
  if h.refreshDue n wrap then
    let w := h.f (lg n 0x058) 15 0
    let fall : PlacedEdge := ⟨wrap - preF, wrap, wrap + h.f (lg n 0x04C) 15 0, false, false⟩
    let back : PlacedEdge := ⟨wrap + w - h.f (lg n 0x048) 31 16, wrap + w, wrap + w + h.f (lg n 0x048) 15 0, false, false⟩
    let fall := match h.bridgeAxis (n / 3) with
      | some c => h.countFall c fall
      | none => fall
    let l := ((l.deliver fall false l.edgeWin).deliver back true l.edgeWin)
    let h := (h.setLeg n { l with refFall := wrap, refRise := wrap + w, hsDue := false, onFrom := wrap / 32 }).noteNotch n
    (h.evt (pLEG n) 5).bump (lg n 0x060) 31 0
  else h

/-! ### A compare reached, and the compares still ahead (R70 to R75) -/

/-- The earliest instant MIN_PULSE allows the first edge of the window in force: MIN_PULSE after an edge of an earlier
window, a refresh excepted (R75, R79). -/
def Hw.minAt (h : Hw) (n : Nat) : Nat :=
  let l := h.leg n
  if l.edgeWin < (h.bridge (n / 3)).win ∧ ¬ (l.refRise ≠ 0 ∧ l.pulAt = l.refRise) then l.pulAt + h.f (lg n 0x050) 15 0
  else 0

/-- PRE and POST of an edge (R73). -/
def Hw.preOf (h : Hw) (n : Nat) (rise : Bool) : Nat := h.f (lg n (dtOff rise)) 31 16
def Hw.postOf (h : Hw) (n : Nat) (rise : Bool) : Nat := h.f (lg n (dtOff rise)) 15 0

/-- A compare of leg n. -/
def Hw.cmpPos (h : Hw) (n : Nat) (rise : Bool) : Nat := h.f (lg n (if rise then 0x040 else 0x044)) 28 0

/-- The place of a compare of leg n in the window in force. -/
def Hw.cmpPlace (h : Hw) (c n : Nat) (rise : Bool) : EdgePlace :=
  edgePlace (h.period c) (h.carReload c) (h.bridge (n / 3)).mid (h.cmpPos n rise)

/-- PUL_EDGE: the bridge count has reached a compare of leg n (R70 to R75). -/
def Hw.pulEdge (h : Hw) (n : Nat) (rise : Bool) : Hw :=
  let l := h.leg n
  let b := h.bridge (n / 3)
  match h.legAxis n with
  | none => h
  | some c =>
    let pos := h.cmpPos n rise
    let place := h.cmpPlace c n rise
    let fine := h.carPos c (n / 3) pos
    let before := place == .before
    let onCount := h.carCount c h.grain == fine / 32 && !before
    let t := if before then b.start else if onCount then 32 * h.grain + fine % 32 else 32 * h.grain
    match place.rel? with
    | none => h                                    -- a position at or beyond 32P never fires (R70)
    | some rel =>
      if !l.running || h.forced n || h.period c == 0 then h -- no edge is delivered or counted (R78)
      else if l.dropPair = some b.win then
        h.setLeg n { l with dropPair := none }     -- the second edge of a dropped pair
      else if decide (l.refFall ≤ t) && decide (t < l.refRise) then h -- meets the low time of a refresh (R79)
      else if l.pul = rise then h                  -- PUL already at its level (R72 rule 2)
      else if !rise && pos == 0 && h.refreshDue n t then h.refresh n t -- joins the refresh fall at the wrap (R79)
      else match pairFate place (h.cmpPlace c n (!rise)) pos (h.cmpPos n (!rise)) (h.f (lg n 0x050) 15 0) with
        | .superseded => h
        | .drop => h.dropPulse n b.win
        | .act =>
          let e := h.countFall c
            (placeEdge t rel b.start (h.minAt n) (h.preOf n rise) (h.postOf n rise) (before || !onCount))
          let h := (h.setLeg n (l.deliver e rise b.win)).noteNotch n
          let h := h.when e.late fun h => (h.evt (pLEG n) 4).legFlt n 4
          h.when e.stretched fun h => ((h.bump (lg n 0x05C) 31 16).evt (pLEG n) 3).legFlt n 3

/-- The compares of leg n still ahead in the window in force, in order of position: place after the window start, and
level. -/
def Hw.cmpAhead (h : Hw) (c n : Nat) : List (Nat × Bool) :=
  let T := 32 * h.period c
  let now := (h.bridgePos c (n / 3) h.grain + T - if (h.bridge (n / 3)).mid then T / 2 else 0) % T
  let one := fun rise => match (h.cmpPlace c n rise).rel? with
    | some r => if now < r then [(r, rise)] else []
    | none => []
  match one true, one false with
  | [x], [y] => if x.1 ≤ y.1 then [x, y] else [y, x]
  | l, k => l ++ k

/-- The edges those compares will make, as they are placed if the count runs on: ENA falls PRE ahead of each (R73), so
their notches may be open already. -/
def Hw.coming (h : Hw) (n : Nat) : List (PlacedEdge × Bool) :=
  match h.legAxis n with
  | none => []
  | some c =>
    let l := h.leg n
    let b := h.bridge (n / 3)
    let T := 32 * h.period c
    let now := (h.bridgePos c (n / 3) h.grain + T - if b.mid then T / 2 else 0) % T
    let one := fun (x : Nat × Bool) (minAt : Nat) =>
      (placeEdge (32 * h.grain + 31 + (x.1 - now)) x.1 b.start minAt (h.preOf n x.2) (h.postOf n x.2) false, x.2)
    if !l.running || h.forced n || T == 0 || l.dropPair == some b.win then []
    else match h.cmpAhead c n with
      | [x] => if l.pul = x.2 then [] else [one x (h.minAt n)]
      | [x, y] =>
        if x.1 = y.1 then []
        else if l.pul = x.2 then [one y (h.minAt n)]
        else if y.1 - x.1 < h.f (lg n 0x050) 15 0 then [] else [one x (h.minAt n), one y 0]
      | _ => []

/-- The notch of a refresh that the bridge's coming wrap will bring if PUL is high then for too long (R79). -/
def Hw.comingRefresh (h : Hw) (n : Nat) : List (PlacedEdge × Bool) :=
  match h.legAxis n with
  | none => []
  | some c =>
    let es := h.coming n
    let l := h.leg n
    let T := 32 * h.period c
    let W := 32 * h.grain + 31 + (T - h.bridgePos c (n / 3) h.grain)
    let high := match es.getLast? with | some e => e.2 | none => l.pul
    let from_ := match es.find? (fun e => !e.2) with | some e => e.1.at_ / 32 | none => l.onFrom
    if l.running && !h.forced n && T != 0 && high && h.onTooLong n (h.refreshOpens n W - from_)
    then [(⟨W - h.preOf n false, W, W + h.postOf n false, false, false⟩, false)] else []

/-- ENA of the pulse generator at a fine time: low in the notches of the edges that have acted and in those that edges
still ahead have opened (R73). -/
def Hw.enaAt (h : Hw) (n t : Nat) : Bool :=
  (h.leg n).enaLevel t && !((h.coming n ++ h.comingRefresh n).any fun e => decide (e.1.fall ≤ t) && decide (t < e.1.rise))

/-- LEGn.STAT (R81): PUL and ENA as driven at the connector. A trip pin that has drawn ENA low on its asynchronous path
counts before it is sampled (R27, R89). -/
def Hw.legStat (h : Hw) (n : Nat) : Word :=
  let l := h.leg n
  let t := pinTime h.grain
  let on := l.running && decide (32 * l.startedAt ≤ t)
  let b := fun (i : Nat) (x : Bool) => if x then BitVec.ofNat 32 (2 ^ i) else (0 : Word)
  b 0 l.running ||| b 1 (h.forced n) ||| b 2 (on && l.pulLevel t) |||
  b 3 (on && h.enaAt n t && !l.held t && !h.asyncLow n) |||
  b 4 (h.protForce n) ||| b 5 l.fSafety ||| b 6 l.fHalted ||| b 7 (h.modeForce n) ||| b 8 l.hsDue

/-- The fine time at which bridge b's count passes a fine position in the present grain. -/
def Hw.bridgeFine (h : Hw) (b pos : Nat) : Nat :=
  match h.bridgeAxis b with
  | some c =>
    let P := h.period c
    32 * h.grain + (if P = 0 then 0 else h.carPos c b pos % 32)
  | none => 32 * h.grain

/-- HS_ON_TIME_EXCEEDED: STAT.HS_DUE is set from the grain in which the on-time first exceeds HS_MAX_ON (R79). -/
def Hw.hsExceeded (h : Hw) (n : Nat) : Hw :=
  if h.onTooLong n (h.onTime n h.grain) then h.setLeg n { h.leg n with hsDue := true } else h

/-! ### Reload and carrier starts -/

/-- Whether a GO of a page was applied in the present PCLK cycle (R33). -/
def Hw.goNow (h : Hw) (p : Nat) : Bool := decide ((tabGet {} p h.goMark).cycle = h.cycle) && h.pending p

/-- How the set that carrier unit c may take in this cycle is taken: the one that stood before a GO of the same cycle
(R33, R76). -/
def Hw.carDue (h : Hw) (c : Nat) : CarGo := if h.goNow (pCAR c) then (h.car c).goPrev else (h.car c).go

/-- Set what is left to do of that set. -/
def Hw.setCarDue (h : Hw) (c : Nat) (x : CarGo) : Hw :=
  h.setCar c (if h.goNow (pCAR c) then { h.car c with goPrev := x } else { h.car c with go := x })

/-- The CAR page takes its pending set: a set that meets R21 makes the unit valid again (R23). -/
def Hw.carTake (h : Hw) (c : Nat) : Hw :=
  let took := h.takes (pCAR c)
  let h := (h.takePending (pCAR c)).recalcPeriod c
  h.when (took && h.period c != 0) fun h => h.setCar c { h.car c with invalid := false }

/-- The legs of bridge b take their pending sets (R76). A set that goes with a pending configuration waits for the
configuration's boundary. -/
def Hw.bridgeTake (h : Hw) (b : Nat) : Hw :=
  match h.bridgeAxis b with
  | none => h
  | some c =>
    let due := h.carDue c
    if due.cfg && bitOf due.group b then h
    else
      let h := h.each [3 * b, 3 * b + 1, 3 * b + 2] fun h n => h.takePending (pLEG n)
      if bitOf due.waiting b then
        let wait := due.waiting &&& ~~~(BitVec.ofNat 32 (2 ^ b))
        let h := h.when (wait == 0) fun h => h.carTake c
        h.setCarDue c { due with waiting := wait }
      else h

/-- BRIDGE_RELOAD: bridge b reaches a reload point and a new window starts (R71); mid tells the point at 16P. -/
def Hw.bridgeReload (h : Hw) (b : Nat) : Hw :=
  match h.bridgeAxis b with
  | none => h
  | some c =>
    let x := h.bridge b
    let P := h.period c
    let now := h.bridgePos c b h.grain
    let mid := match h.carReload c with | 0 => false | 1 => true | _ => decide (16 * P ≤ now)
    let t := h.bridgeFine b (if mid then 16 * h.period c else 0)
    let h := h.bridgeTake b
    let h := h.setBridge b { win := x.win + 1, start := t, grain := h.grain, mid, offset := x.offset }
    h.each [3 * b, 3 * b + 1, 3 * b + 2] fun h n =>
      let l := h.leg n
      -- a leg whose bridge reloads before its first notch since a takeover starts anew (R418)
      (h.when (l.held t) fun h => h.setLeg n { l with running := false }).legStart n t (x.win + 1)

/-- THM.PE of the band in force (R446). -/
def Hw.bandPe (h : Hw) : Nat :=
  fld (h.reg (ra pTHM 0x074)) (4 * h.f (ra pTHM rSTAT) 5 4 + 3) (4 * h.f (ra pTHM rSTAT) 5 4)

/-- BRIDGE_WRAP: bridge b's count passes 0: refreshes that are due are inserted, and its legs take the band's
pre-emphasis (R68, R79, R446). -/
def Hw.bridgeWrap (h : Hw) (b : Nat) : Hw :=
  match h.bridgeAxis b with
  | none => h
  | some _ =>
    let t := h.bridgeFine b 0
    h.each [3 * b, 3 * b + 1, 3 * b + 2] fun h n =>
      let h := h.refresh n t
      h.setLeg n { h.leg n with pe := h.bandPe }

/-- The whole carrier unit takes a pending configuration with its legs' sets at a boundary (CAR_CONFIG_APPLY): its bridges
take their offsets (R68), and a leg whose bridge it drops is safe (R66). A leg of its bridges that was enabled after the
GO does not hold it back (log entry 149). -/
def Hw.carApply (h : Hw) (c : Nat) : Hw :=
  let grp := (h.carDue c).group
  let old := h.axisLegs c
  let h := (h.setCarDue c {}).carTake c
  let h := h.each (legsOf (bridgesOf grp)) fun h n => h.takePending (pLEG n)
  let h := h.each (bridgesOf (h.reg (cr c 0x044))) fun h b => h.setBridge b { h.bridge b with offset := h.offsetOf c b }
  let h := h.each (old.filter fun n => (h.legAxis n).isNone && (h.leg n).running) Hw.legSafe
  h.setCar c { h.car c with start := h.grain, slip := 0, counted := 1 }

/-- A notch open over the boundary at which the unit's period ran long or short closes at its place in bridge count: that
much later or earlier, but not before the boundary. E is the fine time at which the count would have wrapped (R69, R73). -/
def LegS.slipNotch (l : LegS) (E B : Nat) (slip : Int) : LegS :=
  if l.running && decide (l.pulAt < B) && decide (min E B < l.enaTo) then
    let to_ := if E ≤ l.enaTo then ((l.enaTo : Int) + 32 * slip).toNat else max l.pulAt B
    { l with enaTo := to_, rises := (to_ / 32 + 42) :: l.rises.drop 1 }
  else l

/-- The period of carrier unit c that ends at this boundary: how much longer or shorter it ran (R69). -/
def Hw.carSlip (h : Hw) (c : Nat) : Hw :=
  let n := h.period c * (if h.carMul c then 1 else h.carK c)
  let E := (h.car c).start + n
  let slip : Int := if n = 0 then 0 else (h.grain : Int) - E
  let h := h.setCar c { h.car c with slip }
  if slip = 0 then h
  else h.each (h.axisLegs c) fun h k => h.setLeg k ((h.leg k).slipNotch (32 * E) (32 * h.grain) slip)

/-- A period of the unit starts at this boundary: the periods begun since its last one, and this one, join WRAPS (R82). -/
def Hw.carCounted (h : Hw) (c : Nat) : Hw :=
  let more := h.carStarts c h.grain - (h.car c).counted
  h.when (h.bit (cr c rCTRL) 0) fun h => h.setReg (cr c 0x054) (h.reg (cr c 0x054) + BitVec.ofNat 32 (more + 1))

/-- The stretch of unit c's count in progress. -/
def Hw.carSpan (h : Hw) (c : Nat) : CarSpan :=
  { start := (h.car c).start, period := h.period c, mul := h.carMul c, k := h.carK c,
    offs := (bridgesOf (h.reg (cr c 0x044))).map fun b => (b, h.bridgeOffset b) }

/-- The instants, up to `now` in fine steps, at which bridge b's count reached a position in a stretch: a position that
a short period skips is taken at the restart (R68, R69). -/
def CarSpan.times (sp : CarSpan) (b now : Nat) (pos : Nat → List Nat) : List Nat :=
  match sp.offs.lookup b with
  | none => []
  | some off =>
    let T := 32 * sp.period
    let last := match sp.fin with | some g => 32 * g | none => now
    ((pos sp.period).filter (decide <| · < T)).flatMap fun p =>
      (List.range (if sp.mul then 1 else sp.k)).filterMap fun j =>
        let s := 32 * (sp.start + j * sp.period)
        let t := s + (p + off) % T
        if last < s ∨ (sp.fin.isNone ∧ now < t) then none else some (min t last)

/-- The recent instants at which bridge b's count reached a position. -/
def Hw.bridgeTimes (h : Hw) (b : Nat) (pos : Nat → List Nat) : List Nat :=
  (List.range 32).flatMap fun c =>
    (h.carSpan c :: (h.car c).past).flatMap fun sp => sp.times b (32 * h.grain + 31) pos

/-- The unit's count restarts at 0 (R69). One restart a boundary. -/
def Hw.carRestart (h : Hw) (c : Nat) : Hw :=
  if (h.car c).start = h.grain ∧ h.grain ≠ 0 then h
  else
    let past := { h.carSpan c with fin := some h.grain } :: (h.car c).past.take 15
    let h := (h.carCounted c).carSlip c
    h.setCar c { h.car c with start := h.grain, counted := 1, past }

/-- A carrier unit at a batch boundary whose batch number is k (R21, R69, R76). -/
def Hw.carBoundary (h : Hw) (c k : Nat) : Hw :=
  let new := tabGet (regReset (cr c 0x040)) (cr c 0x040) (h.takenSet (pCAR c))
  if (h.carDue c).cfg && h.takes (pCAR c) && (!bitOf new 7 || k % fld new 6 0 == 0) then (h.carRestart c).carApply c
  else if !h.carMul c || (h.carK c != 0 && k % h.carK c == 0) then h.carRestart c
  else h

/-- CARc.WRAPS as it reads now (R82). -/
def Hw.carWraps (h : Hw) (c : Nat) : Word :=
  if h.bit (cr c rCTRL) 0 then
    h.reg (cr c 0x054) + BitVec.ofNat 32 (h.carStarts c h.grain - (h.car c).counted)
  else h.reg (cr c 0x054)

/-- CTRL.ENABLE of a CAR page: setting it clears WRAPS, clearing it holds WRAPS (R82). -/
def Hw.carEnable (h : Hw) (c : Nat) (on : Bool) : Hw :=
  if on then
    ((h.setReg (cr c 0x054) 0).setCar c { h.car c with counted := h.carStarts c h.grain }).setBit (cr c rCTRL) 0 true
  else (h.setReg (cr c 0x054) (h.carWraps c)).setBit (cr c rCTRL) 0 false

/-- A commit check of a LEG page (R73, R79, R80), on a set of its registers. -/
def legSetOk (n : Nat) (get : Nat → Word) : Bool :=
  let w := fun off => get (lg n off)
  let ok := fun off => decide (32 ≤ fld (w off) 31 16 + fld (w off) 15 0)
  ok 0x048 && ok 0x04C &&
    (fld (w 0x054) 27 0 == 0 ||
      (decide (fld (w 0x050) 15 0 ≤ fld (w 0x058) 15 0) &&
       decide (fld (w 0x04C) 15 0 + fld (w 0x048) 31 16 ≤ fld (w 0x058) 15 0)))

/-- A commit check of a CAR page (R80): K, RELOAD, P, SKEW, the number of bridges and their other holders, and no
enabled leg when the configuration changes. -/
def Hw.carSetOk (h : Hw) (c : Nat) : Bool :=
  let cfg := h.shd (cr c 0x040)
  let brs := h.shd (cr c 0x044)
  let skew := fld (h.shd (cr c 0x048)) 28 0
  let changes := cfg != h.reg (cr c 0x040) || brs != h.reg (cr c 0x044) || h.shd (cr c 0x048) != h.reg (cr c 0x048)
  let others := (List.range 32).any fun d => d != c &&
    ((h.reg (cr d 0x044) &&& brs) != 0 || (h.pending (pCAR d) && (h.pnd (cr d 0x044) &&& brs) != 0))
  let busy := (legsOf (bridgesOf (brs ||| h.reg (cr c 0x044)))).any h.legEnabled
  match periodOf h.batch (fld cfg 6 0) (bitOf cfg 7) with
  | none => false
  | some P => fld cfg 9 8 != 3 && decide (skew < 32 * P) && decide ((bridgesOf brs).length ≤ 4) && !others
      && !(changes && busy)

/-- COMMIT.GO of a CAR page: a group commit of the carrier unit and the legs of its committed bridges, refused as a
whole (CAR_GROUP_COMMIT, R76). -/
def Hw.carGo (h : Hw) (c : Nat) : Hw :=
  let legs := h.axisLegs c
  let badLegs := legs.filter fun n => !legSetOk n h.shd
  let carOk := h.carSetOk c
  if carOk && badLegs.isEmpty then
    let changes := h.shd (cr c 0x040) != h.reg (cr c 0x040) || h.shd (cr c 0x044) != h.reg (cr c 0x044) ||
      h.shd (cr c 0x048) != h.reg (cr c 0x048)
    let grp := h.reg (cr c 0x044)
    let old := if h.goNow (pCAR c) then (h.car c).goPrev else if h.pending (pCAR c) then (h.car c).go else {}
    let h := (h.makePending (pCAR c)).each legs fun h n => h.makePending (pLEG n)
    -- a set without bridges to reload and without a change is taken at the next boundary with the period
    let whole := changes || grp == 0 || !h.carValid c
    h.setCar c { h.car c with go := ⟨whole, if whole then 0 else grp, grp⟩, goPrev := old }
  else
    let h := (h.refuseCommit (pCAR c)).evt (pCAR c) 0
    let h := h.each legs fun h n => h.refuseCommit (pLEG n)
    h.each badLegs fun h n => h.evt (pLEG n) 0

/-- COMMIT.GO of a LEG page (R76, R80). -/
def Hw.legGo (h : Hw) (n : Nat) : Hw :=
  if legSetOk n h.shd then h.makePending (pLEG n) else (h.refuseCommit (pLEG n)).evt (pLEG n) 0

/-- LEG_CNT_CLR (R81, R32). -/
def Hw.legCntClr (h : Hw) (n : Nat) : Hw :=
  ((h.clrCnt (lg n 0x05C) 15 0).clrCnt (lg n 0x05C) 31 16).clrCnt (lg n 0x060) 31 0

/-! ### The commands of the family -/

/-- LEG_ENABLE: a software set of LEGn.CTRL.ENABLE (R77, R41). -/
def execLegEnable (g : Nat) (leg : Fin 96) (s : State) :=
  run g (fun _ h => h.swWrite (pLEG leg) rCTRL fun h => h.legEnable leg) s

/-- LEG_DISABLE: a software clear of LEGn.CTRL.ENABLE drives the leg safe in the grain of the write (R77). -/
def execLegDisable (g : Nat) (leg : Fin 96) (s : State) :=
  run g (fun _ h => h.swWrite (pLEG leg) rCTRL fun h => h.legOff leg) s

/-- BRIDGE_WRAP. -/
def execBridgeWrap (g : Nat) (b : Fin 32) (s : State) := run g (fun _ h => h.bridgeWrap b) s

/-- BRIDGE_RELOAD. -/
def execBridgeReload (g : Nat) (b : Fin 32) (s : State) := run g (fun _ h => h.bridgeReload b) s

/-- PUL_EDGE. -/
def execPulEdge (g : Nat) (leg : Fin 96) (rise : Bool) (s : State) := run g (fun _ h => h.pulEdge leg rise) s

/-- HS_ON_TIME_EXCEEDED. -/
def execHsOnTimeExceeded (g : Nat) (leg : Fin 96) (s : State) := run g (fun _ h => h.hsExceeded leg) s

/-- LEG_CNT_CLR: CTRL.CNT_CLR clears DROP_CNT and REFRESH_CNT (R81, R32). -/
def execLegCntClr (g : Nat) (leg : Fin 96) (s : State) :=
  run g (fun _ h => h.swWrite (pLEG leg) rCTRL fun h => h.legCntClr leg) s

end Sys2Proof.Machine
end

