-- ==== Sys2Proof/Machine/Prf.lean ====
section
/-! DEFINITION. Recipes and interpolation (R218 to R236): segments, their reading and checks, the Hermite curve,
queues and credits, the commands of a profile, interpolated groups and microstep shaping. -/

namespace Sys2Proof.Machine

/-! ### Registers of the PRF page -/

def prCred (p : Nat) : Nat := ra pPRF (0x400 + 4 * p)
def prStat (p : Nat) : Nat := ra pPRF (0x800 + 4 * p)
def Hw.prof (h : Hw) (p : Nat) : PrfS := tabGet {} p h.prf
def Hw.setProf (h : Hw) (p : Nat) (x : PrfS) : Hw := { h with prf := tabSet {} p x h.prf }
def Hw.pfCfg (h : Hw) (p : Nat) : Word := h.reg (prfWin p 0x080)
def Hw.pfEn (h : Hw) (p : Nat) : Bool := bitOf (h.pfCfg p) 0
def Hw.pfSrc (h : Hw) (p : Nat) : Nat := fld (h.pfCfg p) 2 1
def Hw.pfLeader (h : Hw) (p : Nat) : Nat := fld (h.pfCfg p) 15 8
def Hw.pfBase (h : Hw) (p : Nat) : Nat := h.f (prfWin p 0x084) 14 0
def Hw.pfCap (h : Hw) (p : Nat) : Nat := h.f (prfWin p 0x084) 28 16
def Hw.credits (h : Hw) (p : Nat) : Nat := h.f (prCred p) 12 0
def Hw.queued (h : Hw) (p : Nat) : Nat := h.f (prCred p) 28 16
def Hw.setLedger (h : Hw) (p credits queued retiring : Nat) : Hw :=
  ((h.setF (prCred p) 12 0 credits).setF (prCred p) 28 16 queued).setF (prCred p) 15 15 retiring

/-- Whether an enabled gear unit drives profile p (R250). -/
def Hw.gearDrives (h : Hw) (p : Nat) : Bool :=
  (List.range 32).any fun g => h.bit (ra pLSH (0x200 + 0x40 * g)) 0 && h.f (ra pLSH (0x200 + 0x40 * g)) 31 24 == p

/-- PSTAT.STATE (R229); a geared profile is in RUN while its unit is enabled (R250). -/
def Hw.pfState (h : Hw) (p : Nat) : Nat :=
  if !h.pfEn p then 0
  else if h.pfSrc p = 2 then (if h.gearDrives p then 3 else 1)
  else h.f (prStat p) 2 0

/-- LSH.M_WEND of a master. -/
def mWend (mm : Nat) : Nat := ra pLSH (0x0A0 + 8 * mm)

/-- PSTAT.STATE set: M_WEND of a master is 0 while it is IDLE (R245). -/
def Hw.setPfState (h : Hw) (p st : Nat) : Hw :=
  (h.setF (prStat p) 2 0 st).when (decide (128 ≤ p) && st == 1) fun h => h.setReg64 (mWend (p - 128)) 0

/-- The held position of a profile; a geared one holds its last delivered position (R250). -/
def Hw.pfHeld (h : Hw) (p : Nat) : Word64 := if h.pfSrc p = 2 then (h.prof p).rel.pos else (h.prof p).held

/-- The enabled followers of a leader that run with it (R232). -/
def Hw.followers (h : Hw) (p : Nat) : List Nat :=
  (List.range 136).filter fun f =>
    h.pfEn f && h.pfSrc f == 1 && h.pfLeader f == p && (h.pfState f == 2 || h.pfState f == 3)

/-! ### Arithmetic of positions -/

/-- The difference of two positions, modulo 2^64 and read as signed (R8). -/
def sdiff (a b : Word64) : Int := (a - b).toInt

/-- A position moved by an integer number of 2^-32 counts (R8). -/
def padd (a : Word64) (d : Int) : Word64 := a + BitVec.ofInt 64 d

/-- A position moved by an exact fraction of 2^-32 counts, the result rounded once, ties to even (R223). -/
def padRound (a : Word64) (num : Int) (den : Nat) : Word64 := BitVec.ofInt 64 (roundHalfEven (a.toInt * den + num) den)

/-- A velocity or acceleration saturated to signed 64 bits (R9). -/
def sat64 (v : Int) : Int := clip (-(2 : Int) ^ 63) ((2 : Int) ^ 63 - 1) v

/-- The Hermite curve of R223 and R255 in a segment of `D` steps at step n: the start position, the exact start and
end slopes times the length (A / Q and B / Q) and Δ. Answers position change, first and second derivative per step,
as numerators over Q × D^3. -/
def hermite (delta A B : Int) (Q D : Nat) (n : Int) : Int × Int × Int :=
  let k2 := 3 * delta * Q - (2 * A + B)
  let k3 := -2 * delta * Q + A + B
  (A * n * D * D + k2 * n * n * D + k3 * n * n * n,
   A * D * D + 2 * k2 * n * D + 3 * k3 * n * n,
   2 * k2 * D + 6 * k3 * n)

/-- Grains in one second. -/
def grainsPerSec : Nat := 500000000

/-- Position, velocity and acceleration of a segment at instant X, each rounded once (R223). -/
def segEval (s : Seg) (X : Nat) : PRec :=
  let D := s.fin - s.start
  let n : Int := (X : Int) - s.start
  let delta := sdiff s.pEnd s.p0
  if s.linear then
    { pos := padRound s.p0 (delta * n) D,
      vel := sat64 (roundHalfEven (delta * grainsPerSec) D), acc := 0 }
  else
    let Q := s.v0d * s.v1d * grainsPerSec
    let A := s.v0n * s.v1d * D
    let B := s.v1n * s.v0d * D
    let r := hermite delta A B Q D n
    { pos := padRound s.p0 r.1 (Q * D ^ 3),
      vel := sat64 (roundHalfEven (r.2.1 * grainsPerSec) (Q * D ^ 3)),
      acc := sat64 (roundHalfEven (r.2.2 * grainsPerSec * grainsPerSec) (Q * D ^ 3)) }

/-- Word 7 of a record: VALID, STARVED, ERROR, IDLE, and the TAG and SEQ of a segment (R222). -/
def recW7 (valid starved err idle : Bool) (s : Option Seg) : Word :=
  let b := fun (i : Nat) (x : Bool) => if x then 2 ^ i else 0
  let ts := match s with | some s => if s.virt then 0 else s.tag * 256 + s.seq * 65536 | none => 0
  BitVec.ofNat 32 (b 0 valid + b 1 starved + b 2 err + b 3 idle + ts)

/-- VALID of a record. -/
def PRec.valid (r : PRec) : Bool := bitOf r.w7 0

/-! ### Reading segments (R220, R221, R226) -/

/-- The fabric address of slot i of recipe and cam memory (R220). -/
def slotAddr (i : Nat) : Nat := 0x28000000 + 32 * i

/-- Read and check the segment at ring offset `off` of leader or lone profile q behind the segment `pred` (R221). -/
def Hw.loadSeg (h : Hw) (m : Mem) (q off : Nat) (pred : Seg) : Seg :=
  let a := slotAddr (h.pfBase q + off)
  let dur := (h.rd32 m a).toNat
  let pEnd := h.rd64 m (a + 4)
  let sf := h.rd32 m (a + 20)
  let seq := fld sf 15 0
  let delta := sdiff pEnd pred.pEnd
  let linear := bitOf sf 16
  let fail :=
    if !pred.virt && seq != (pred.seq + 1) % 65536 then 1
    else if dur < h.batch then 2
    else if fld sf 23 18 ≠ 0 ∨ h.rd64 m (a + 24) ≠ 0 then 3
    else if 2 ^ 63 ≤ delta.natAbs then 4 else 0
  { off, start := pred.fin, fin := pred.fin + dur, p0 := pred.pEnd, v0n := pred.v1n, v0d := pred.v1d, pEnd,
    v1n := if linear then delta * grainsPerSec else (h.rd64 m (a + 12)).toInt, v1d := if linear then dur else 1,
    linear, last := bitOf sf 17, seq, tag := fld sf 31 24, fail }

/-- Read the segment at ring offset `off` of follower f behind `pred`: only P_END, SEQ and TAG, and whether its zeros
are zero (R221, R232). Its checks wait for the leader's paired segment. -/
def Hw.loadFollow (h : Hw) (m : Mem) (f off : Nat) (pred : Seg) : Seg :=
  let a := slotAddr (h.pfBase f + off)
  let sf := h.rd32 m (a + 20)
  { off, p0 := pred.pEnd, pEnd := h.rd64 m (a + 4), seq := fld sf 15 0, tag := fld sf 31 24,
    fail := if fld sf 23 18 ≠ 0 ∨ h.rd64 m (a + 24) ≠ 0 then 3 else 0, await := true }

/-- A follower's segment paired with its leader's, whose times and shape govern, and checked (R221, R227, R232, R233). -/
def pairSeg (l s : Seg) : Seg :=
  let delta := sdiff s.pEnd s.p0
  { s with start := l.start, fin := l.fin, linear := l.linear, last := l.last, await := false,
           fail := if s.seq ≠ l.seq then 1 else if s.fail ≠ 0 then 3 else if 2 ^ 63 ≤ delta.natAbs then 4
             else if (sdiff l.pEnd l.p0).natAbs < delta.natAbs then 5 else 0 }

/-- The read segments of a leader and of a follower paired one by one, none behind a failed one. -/
def pairSegs : List Seg → List Seg → List Seg
  | l :: ls, s :: ss =>
    let s := if s.await then pairSeg l s else s
    if s.fail ≠ 0 then s :: ss else s :: pairSegs ls ss
  | _, ss => ss

/-- MASTER_COAST: where a master that coasts from the end of a segment stands at an instant (R247). -/
def Seg.coastPos (c : Seg) (X : Nat) : Word64 :=
  padd c.pEnd (roundHalfEven (c.v1n * ((X : Int) - c.fin)) (c.v1d * grainsPerSec))

/-- The last segment known of a profile: read, or current. -/
def PrfS.tail (x : PrfS) : Option Seg := match x.segs.getLast? with | some s => some s | none => x.cur

/-- Read the queued segments of a leader or lone profile, in ring order, none behind a LAST or a failed one, none of
this very cycle (R226, R228, R230). `n` bounds the number read. -/
def Hw.readLead (m : Mem) (p : Nat) : Nat → Hw → Hw
  | 0, h => h
  | n + 1, h =>
    let x := h.prof p
    match x.queue, x.tail with
    | (off, cyc) :: q, some pred =>
      if pred.last || pred.fail != 0 || cyc == some h.cycle then h
      else
        let start := match x.rejoin with | some tj => if x.segs.isEmpty then tj else pred.fin | none => pred.fin
        let pred' : Seg := match x.rejoin with
          | some tj =>
            if x.segs.isEmpty then
              { pred with fin := start, pEnd := pred.coastPos tj }
            else pred
          | none => pred
        let s := h.loadSeg m p off pred'
        let h := h.setProf p { x with queue := q, segs := x.segs ++ [s] }
        let h := if s.fail ≠ 0 then h.setF (prStat p) 11 8 s.fail else h
        Hw.readLead m p n h
    | _, _ => h

/-- Read the queued segments of a follower, in ring order, none behind a failed one, none of this very cycle (R226,
R232). `n` bounds the number read. -/
def Hw.readFollow (m : Mem) (f : Nat) : Nat → Hw → Hw
  | 0, h => h
  | n + 1, h =>
    let x := h.prof f
    match x.queue, x.tail with
    | (off, cyc) :: q, some pred =>
      if pred.fail != 0 || cyc == some h.cycle then h
      else Hw.readFollow m f n (h.setProf f { x with queue := q, segs := x.segs ++ [h.loadFollow m f off pred] })
    | _, _ => h

/-- What follower f has read paired with what its leader p has read; a failed check sets the error code (R221, R232). -/
def Hw.pairUp (h : Hw) (p f : Nat) : Hw :=
  let old := (h.prof f).segs
  let segs := pairSegs (h.prof p).segs old
  let h := h.setProf f { h.prof f with segs }
  match (old.zip segs).find? fun s => s.1.await && !s.2.await && s.2.fail != 0 with
  | some s => h.setF (prStat f) 11 8 s.2.fail
  | none => h

/-- SEGMENT_READ at a boundary for leader p and its group. -/
def Hw.readGroup (h : Hw) (m : Mem) (p : Nat) : Hw :=
  if h.pfState p = 2 ∨ h.pfState p = 3 then
    let h := Hw.readLead m p (h.prof p).queue.length h
    h.each (h.followers p) fun h f => (Hw.readFollow m f (h.prof f).queue.length h).pairUp p f
  else h

/-! ### Flush and group end -/

def mStat (mm : Nat) : Nat := ra pLSH (0x060 + 4 * mm)

/-- What a FLUSH or disable of a master clears: COASTING, M_WEND, NEXT_SEQ (R249). -/
def Hw.masterFlush (h : Hw) (mm : Nat) : Hw :=
  let h := { h with nsw := { h.nsw with sends := h.nsw.sends.filter (·.mm != mm) } }
  (((h.setBit (mStat mm) 0 false).setBit (mStat mm) 1 false).setF (mStat mm) 31 16 0).setReg64 (mWend mm) 0

/-- A follower that leaves its group breaks it at the next junction (R233, R265). -/
def Hw.leaveGroup (h : Hw) (f : Nat) : Hw :=
  let p := h.pfLeader f
  if h.pfSrc f = 1 ∧ (h.pfState f = 2 ∨ h.pfState f = 3) then h.setProf p { h.prof p with broken := true } else h

/-- The queue of a profile given back: QUEUED moves to CREDITS, the read position moves to W_IDX (R229). -/
def Hw.flushQueue (h : Hw) (p : Nat) : Hw :=
  let h := h.leaveGroup p
  let h := (h.setF (prCred p) 12 0 (h.credits p + h.queued p)).setF (prCred p) 28 16 0
  h.setProf p { h.prof p with queue := [], segs := [], cur := none, unret := [], rejoin := none, broken := false }

/-- FLUSH of one profile, its group aside (R229, R249). -/
def Hw.flushOne (h : Hw) (p : Nat) : Hw :=
  let h := (h.flushQueue p).setPfState p 1
  if 128 ≤ p then h.masterFlush (p - 128) else h

/-- GROUP_END: a leader leaves RUN other than at a junction; each follower holds at its last released record, is
flushed and goes to IDLE, starved (R233). -/
def Hw.groupEnd (h : Hw) (p : Nat) : Hw :=
  h.each (h.followers p) fun h f =>
    let h := h.setProf f { h.prof f with held := (h.prof f).rel.pos, once := true }
    ((h.flushOne f).w1cSet (prStat f) 3).evt pPRF 3

/-- The flush that brings an axis record into force (R265): in any state, the held position becomes that of the last
record released. -/
def Hw.axisFlush (h : Hw) (p : Nat) : Hw :=
  if h.pfEn p ∧ h.pfSrc p < 2 then
    let h := if h.pfState p = 2 ∨ h.pfState p = 3 then h.groupEnd p else h
    let h := h.setProf p { h.prof p with held := (h.prof p).rel.pos }
    h.flushOne p
  else h

/-- A piece of a master's path noted, newest first (R259). -/
def Hw.notePath (h : Hw) (p : Nat) (s : Seg) : Hw :=
  if 128 ≤ p then { h with lastSegs := tabSet [] p ((s :: tabGet [] p h.lastSegs).take 6) h.lastSegs } else h

/-- A master stands at a position from the present instant on (R259). -/
def Hw.noteHeld (h : Hw) (p : Nat) (x : Word64) : Hw :=
  let t := h.ctGrains h.grain
  h.notePath p { start := t, fin := t, p0 := x, pEnd := x, virt := true }

/-- Set a profile's held position as LOAD would (R229, R265). -/
def Hw.loadHeld (h : Hw) (p : Nat) (x : Word64) : Hw :=
  (h.setProf p { h.prof p with held := x, loaded := true }).noteHeld p x

/-- Segments read but never current stay queued and are read anew after the next START (R230); a REJOIN is over
(R248). -/
def Hw.requeue (h : Hw) (p : Nat) : Hw :=
  let x := h.prof p
  h.setProf p { x with queue := x.segs.map (fun s => (s.off, none)) ++ x.queue, segs := [], rejoin := none, broken := false }

/-! ### Commands (R226, R229) -/

/-- The grain of the batch boundary that falls in the present PCLK cycle and is still to come. -/
def Hw.boundaryGrain (h : Hw) : Option Nat :=
  ((List.range 5).map (5 * (h.grain / 5) + ·)).find? fun g => decide (h.clk.nextB ≤ h.ctGrains g)

/-- Whether a batch boundary falls in the PCLK cycle of the present grain. -/
def Hw.boundaryInCycle (h : Hw) : Bool := h.boundaryGrain.isSome

/-- CREDIT_RETURN at a boundary in grain b: a retirement of an earlier grain gives its credit back (R228). -/
def Hw.creditReturn (h : Hw) (p b : Nat) : Hw :=
  if h.bit (prCred p) 15 && decide ((h.prof p).retGrain < b) then
    (h.setF (prCred p) 12 0 (h.credits p + 1)).setBit (prCred p) 15 false
  else h

/-- The credit a boundary of the present PCLK cycle returns, taken by a push of that cycle (R228). -/
def Hw.creditInCycle (h : Hw) (p : Nat) : Hw :=
  match h.boundaryGrain with | some b => h.creditReturn p b | none => h

/-- A refused push (R226). -/
def Hw.pushRefuse (h : Hw) (p reason : Nat) : Hw :=
  ((h.setF (ra pPRF 0x048) 23 16 p).setF (ra pPRF 0x048) 1 0 reason).evt pPRF 1

/-- Move n segments of profile p from CREDITS to QUEUED (R226). -/
def Hw.pushN (h : Hw) (p n : Nat) : Hw :=
  let w := h.f (prStat p) 27 16
  let cap := h.pfCap p
  let h := (h.setF (prCred p) 12 0 (h.credits p - n)).setF (prCred p) 28 16 (h.queued p + n)
  let h := h.setF (prStat p) 27 16 ((w + n) % cap)
  let x := h.prof p
  h.setProf p { x with queue := x.queue ++ (List.range n).map fun i => ((w + i) % cap, some h.cycle) }

/-- A write to PRF.PUSH (R226, R228). -/
def Hw.push (h : Hw) (p n : Nat) : Hw :=
  if 135 < p then h.pushRefuse p 2
  else if 128 ≤ p then h.pushRefuse p 3
  else if !h.pfEn p || h.pfSrc p == 2 then h.pushRefuse p 2
  else
    let h := h.creditInCycle p
    if n = 0 ∨ h.credits p < n then h.pushRefuse p 1 else h.pushN p n

/-- A refused command (R229). -/
def Hw.cmdRefuse (h : Hw) (reason : Nat) : Hw := (h.setF (ra pPRF 0x050) 2 0 reason).evt pPRF 2

/-- The profile named by PRF.SEL. -/
def Hw.pfSel (h : Hw) : Nat := h.f (ra pPRF 0x040) 7 0

/-- The next boundary instant, counted from the last grain of the cycle (R229, R475). -/
def Hw.nextInstantFrom (h : Hw) : Nat :=
  if h.boundaryInCycle then h.clk.nextB + h.batch else h.clk.nextB

/-- The wait of an armed profile for T0, holding at a position. -/
def virtSeg (t0 : Nat) (held : Word64) : Seg := { start := t0, fin := t0, p0 := held, pEnd := held, virt := true }

/-- A follower takes the timing of its leader, ARMED for t0 (R229). -/
def Hw.armFollow (h : Hw) (f t0 : Nat) : Hw :=
  let h := h.requeue f
  (h.setPfState f 2).setProf f { h.prof f with cur := some (virtSeg t0 (h.prof f).held) }

/-- A follower that comes to IDLE while its leader stands ARMED is armed with it (R229). -/
def Hw.joinArmed (h : Hw) (f : Nat) : Hw :=
  let p := h.pfLeader f
  match (h.prof p).cur with
  | some c => if h.pfEn f ∧ h.pfSrc f = 1 ∧ h.pfState f = 1 ∧ h.pfState p = 2 then h.armFollow f c.start else h
  | none => h

/-- START accepted: ARMED, followers with their leader (R229); a master's M_WEND counts its queue (R245). -/
def Hw.startProf (h : Hw) (m : Mem) (p t0 : Nat) : Hw :=
  let h := h.requeue p
  let h := (h.setPfState p 2).setProf p { h.prof p with cur := some (virtSeg t0 (h.prof p).held) }
  let fs := (List.range 136).filter fun f =>
    h.pfEn f && h.pfSrc f == 1 && h.pfLeader f == p && h.pfState f == 1
  let h := h.each fs fun h f => h.armFollow f t0
  if 128 ≤ p then
    let sum := (h.prof p).queue.foldl (fun t e => t + (h.rd32 m (slotAddr (h.pfBase p + e.1))).toNat) t0
    let sends := h.nsw.sends.map fun x =>
      if x.mm = p - 128 ∧ x.isOpen then { x with start := x.start + t0, isOpen := false } else x
    { h with nsw := { h.nsw with sends } }.setReg64 (mWend (p - 128)) (BitVec.ofNat 64 sum)
  else h

/-- PRF.CMD START on the profile of SEL (R229). -/
def Hw.cmdStart (h : Hw) (m : Mem) : Hw :=
  let p := h.pfSel
  let t0 := (h.reg64 (prfWin p 0x090)).toNat
  if h.pfState p ≠ 1 then h.cmdRefuse 1
  else if h.pfSrc p ≠ 0 then h.cmdRefuse 5
  else if h.queued p = 0 then h.cmdRefuse 3
  else if !h.bit (ra pCLK rREADY) 2 then h.cmdRefuse 4
  else if t0 < h.nextInstantFrom then h.cmdRefuse 2
  else h.startProf m p t0

/-- PRF.CMD FLUSH (R229). -/
def Hw.cmdFlush (h : Hw) : Hw :=
  let p := h.pfSel
  let st := h.pfState p
  if st = 1 ∨ st = 2 ∨ st = 4 then
    let h := if st = 2 then h.groupEnd p else h
    h.flushOne p
  else h.cmdRefuse 1

/-- PRF.CMD LOAD (R229). -/
def Hw.cmdLoad (h : Hw) : Hw :=
  let p := h.pfSel
  if h.pfState p = 1 ∨ h.pfState p = 4 then h.loadHeld p (h.reg64 (prfWin p 0x098)) else h.cmdRefuse 1

/-- PRF.CMD CLEAR (R229). -/
def Hw.cmdClear (h : Hw) : Hw :=
  let p := h.pfSel
  if h.pfState p = 4 then (((h.requeue p).setPfState p 1).setF (prStat p) 11 8 0).joinArmed p else h.cmdRefuse 1

/-- SEGMENT_RETIRE: CT has reached the end of a segment of profile p (R228). -/
def Hw.retire (h : Hw) (p : Nat) : Hw :=
  let x := h.prof p
  match x.unret with
  | e :: rest =>
    if e ≤ h.ctGrains h.grain then
      -- the credit of a retirement before this boundary grain is returned at the boundary (R228)
      let h := h.creditReturn p h.grain
      let h := (h.setF (prCred p) 28 16 (h.queued p - 1)).setBit (prCred p) 15 true
      h.setProf p { x with unret := rest, retGrain := h.grain }
    else h
  | [] => h

/-! ### Evaluation (R222, R229, R230, R233, R247) -/

/-- The record of a profile that does not run: held position, v = 0, a = 0. -/
def Hw.holdRec (h : Hw) (p : Nat) : PRec :=
  let x := h.prof p
  { pos := x.held, w7 := recW7 (h.pfEn p) x.once (h.pfState p == 4) (h.pfEn p && h.pfState p == 1) x.cur }

/-- A counted event of PRF: a lasting declaration warns the axis of each profile counted in its window (R231, R276). -/
def Hw.prfFlt (h : Hw) (p code : Nat) : Hw :=
  let h := (h.fltEvent pPRF 10 code p h.grain).1
  let w := h.fwin pPRF
  if w.declared = some h.grain then
    h.each ((List.range 32).filter fun a => w.who.any fun e => h.f (ra (pAX a) 0x040) 15 8 == e.2) fun h a => h.warnAxis a 2
  else h

/-- Hold at a segment's end: the held position of a profile becomes P_END. -/
def Hw.holdAtEnd (h : Hw) (p : Nat) : Hw :=
  match (h.prof p).cur with
  | some c => h.setProf p { h.prof p with held := c.pEnd }
  | none => h

/-- The end of a recipe at a LAST segment, for every member (R230). -/
def Hw.endLast (h : Hw) (members : List Nat) : Hw :=
  h.each members fun h q => ((((h.holdAtEnd q).setPfState q 1).w1cSet (prStat q) 4).evt pPRF 5).requeue q

/-- The end of a group at a failed segment: a member that failed takes its own code, the others 6 (R230, R233). -/
def Hw.endError (h : Hw) (members : List Nat) : Hw :=
  h.each members fun h q =>
    let code := match (h.prof q).segs with | s :: _ => if s.fail ≠ 0 then s.fail else 6 | [] => 6
    let h := h.setProf q { h.prof q with rejoin := none, broken := false }
    ((((h.holdAtEnd q).setPfState q 4).setF (prStat q) 11 8 code).evt pPRF 4).prfFlt q 4

/-- PROFILE_STARVED: no next segment (R230). -/
def Hw.endStarved (h : Hw) (members : List Nat) (moving : Bool) : Hw :=
  h.each members fun h q =>
    let h := ((((h.holdAtEnd q).setPfState q 1).w1cSet (prStat q) 3).evt pPRF 3).requeue q
    let h := h.setProf q { h.prof q with once := true }
    h.when moving fun h => h.prfFlt q 3

/-- Move every member to its next segment. -/
def Hw.advance (h : Hw) (members : List Nat) : Hw :=
  h.each members fun h q =>
    let x := h.prof q
    match x.segs with
    | s :: rest =>
      let h := h.notePath q s
      (h.setPfState q 3).setProf q { x with cur := some s, segs := rest, unret := x.unret ++ [s.fin] }
    | [] => h

/-- The record of a coasting master at X (R247). -/
def coastRec (c : Seg) (X : Nat) : PRec :=
  { pos := c.coastPos X,
    vel := sat64 (roundHalfEven c.v1n c.v1d), acc := 0, w7 := recW7 true true false false (some c) }

/-- Whether a master coasts instead of starving (R247). -/
def Hw.coastOn (h : Hw) (p : Nat) : Bool := decide (128 ≤ p) && h.bit (ra pLSH (0x040 + 4 * (p - 128))) 0

/-- A leader or lone profile brought to instant X, with its group: at most n junctions are passed. Answers the module
and the leader's record. -/
def Hw.evalLead (p X : Nat) : Nat → Hw → Hw × PRec
  | 0, h => (h, h.holdRec p)
  | n + 1, h =>
    let st := h.pfState p
    match (h.prof p).cur with
    | none => (h, h.holdRec p)
    | some c =>
      if st ≠ 2 ∧ st ≠ 3 then (h, h.holdRec p)
      else
        let members := p :: h.followers p
        let h := if st = 2 ∧ c.fin ≤ X then h.each members fun h q => h.setPfState q 3 else h
        if X < c.fin ∨ (X = c.fin ∧ !c.virt) then
          (h, if c.virt then h.holdRec p else { segEval c X with w7 := recW7 true false false false (some c) })
        else
          let heads := members.map fun q => (h.prof q).segs.head?
          let missing := (h.prof p).broken || heads.any fun s => match s with | some s => s.await | none => true
          let failed := heads.any fun s => match s with | some s => s.fail != 0 | none => false
          let coasting := decide (128 ≤ p) && h.bit (mStat (p - 128)) 0
          if c.last then
            let h := h.endLast members
            (h, h.holdRec p)
          else if failed && !(h.prof p).segs.isEmpty then
            let h := h.endError members
            (h, h.holdRec p)
          else if missing then
            if h.coastOn p && !c.virt then
              let h := if coasting then h else ((h.setBit (mStat (p - 128)) 0 true).evt pLSH 3)
              let x := h.prof p
              let h := h.setProf p { x with rejoin := match x.rejoin with
                | some tj => if tj < X then none else some tj
                | none => none }
              (h, coastRec c X)
            else
              let h := h.endStarved members (c.v1n != 0)
              (h, h.holdRec p)
          else
            match (h.prof p).segs.head? with
            | some s =>
              if X ≤ s.start && decide (c.fin < s.start) then (h, coastRec c X)   -- coasting up to T_J (R248)
              else
                let h := h.advance members
                let h := if coasting then h.setBit (mStat (p - 128)) 0 false else h
                let h := h.setProf p { h.prof p with rejoin := none }
                Hw.evalLead p X n h
            | none => (h, h.holdRec p)

/-- A follower's record from its leader's (R233). -/
def followRec (lead fol : Seg) (r : PRec) : PRec :=
  let dL := sdiff lead.pEnd lead.p0
  let dF := sdiff fol.pEnd fol.p0
  let q := fun (x : Int) => if dL < 0 then roundHalfEven (-(dF * x)) dL.natAbs else roundHalfEven (dF * x) dL.natAbs
  let w7 := recW7 true false false false (some fol)
  if dL = 0 then { pos := fol.p0, w7 }
  else { pos := padd fol.p0 (q (sdiff r.pos lead.p0)), vel := sat64 (q r.vel), acc := sat64 (q r.acc), w7 }

/-- The record of a follower for the instant its leader's record stands for (R233). -/
def Hw.evalFollow (h : Hw) (f : Nat) (lead : PRec) : PRec :=
  match (h.prof f).cur, (h.prof (h.pfLeader f)).cur with
  | some c, some l => if h.pfState f = 3 ∧ !c.virt ∧ !l.virt then followRec l c lead else h.holdRec f
  | _, _ => h.holdRec f

/-! ### Microstep shaping (R234, R235) -/

/-- Entry i of microstep table t; e[256] is 1.0. -/
def Hw.msEntry (h : Hw) (m : Mem) (t i : Nat) : Nat :=
  if i = 256 then 2 ^ 24 else fld (h.rd32 m (0x280FE000 + 0x400 * t + 4 * i)) 23 0

/-- W(u) × 2^24 × den for u = num / den in [0, 1). -/
def Hw.msW (h : Hw) (m : Mem) (t : Nat) (num den : Nat) : Int :=
  let i := 256 * num / den
  let e0 := h.msEntry m t i
  (e0 : Int) * den + ((256 * num : Int) - i * den) * ((h.msEntry m t (i + 1) : Int) - e0)

/-- The delivered position of profile p: reshaped within each full step while MS_EN is set. -/
def Hw.msShape (h : Hw) (m : Mem) (p : Nat) (pos : Word64) : Word64 :=
  if bitOf (h.pfCfg p) 19 then
    let t := fld (h.pfCfg p) 18 16
    let S : Int := ((max 1 (h.reg (prfWin p 0x088)).toNat : Nat) : Int) * 2 ^ 32
    let off : Word64 := BitVec.ofInt 64 ((h.reg (prfWin p 0x08C)).toInt * 2 ^ 32)
    let d := sdiff pos off
    let q := d / S
    let num := (d - q * S).toNat
    let den := S.toNat
    -- w × 2^24 × den; W(1 − u) at u = 0 is W(1) = 1
    let one : Int := 2 ^ 24 * den
    let w : Int := if q % 2 = 0 then h.msW m t num den
      else one - (if num = 0 then one else h.msW m t (den - num) den)
    padd off (q * S + roundHalfEven (w * S) (2 ^ 24 * den))
  else pos

/-! ### Commit of the PRF page (R224, R225, R232, R236, R243, R256) -/

/-- Whether two slot ranges meet. -/
def overlaps (a n b k : Nat) : Bool := decide (a < b + k) && decide (b < a + n) && n != 0 && k != 0

/-- A cam table in use (R256). -/
def Hw.camInUse (h : Hw) (t : Nat) : Bool :=
  (List.range 32).any fun g =>
    let cam := h.reg (ra pLSH (0x238 + 0x40 * g))
    h.bit (ra pLSH (0x200 + 0x40 * g)) 0 && (fld cam 3 0 == t || (bitOf cam 16 && fld cam 11 8 == t))

/-- The check of a PRF GO against the shadow. -/
def Hw.prfSetOk (h : Hw) : Bool :=
  let cfg := fun p => h.shd (prfWin p 0x080)
  let ring := fun p => h.shd (prfWin p 0x084)
  let en := fun p => bitOf (cfg p) 0
  let src := fun p => fld (cfg p) 2 1
  let base := fun p => fld (ring p) 14 0
  let cap := fun p => fld (ring p) 28 16
  let owns := fun p => en p && src p != 2
  let all := List.range 136
  let msUsed := (List.range 8).filter fun t => all.any fun p => en p && bitOf (cfg p) 19 && fld (cfg p) 18 16 == t
  let camUsed := (List.range 16).filter fun t => h.bit (ra pLSH (0xB0C + 0x10 * t)) 0 && h.camInUse t
  all.all fun p =>
    src p != 3 && !(decide (128 ≤ p) && src p != 0) && decide (cap p ≤ 4096)
    && (src p == 2 || decide (base p + cap p ≤ 32768))
    && !(en p && src p != 2 && cap p == 0)
    && ((cfg p == h.pfCfg p && ring p == h.reg (prfWin p 0x084)) || decide (h.pfState p ≤ 1))
    && !(en p && src p == 1 &&
          !(decide (fld (cfg p) 15 8 < 136) && en (fld (cfg p) 15 8) && src (fld (cfg p) 15 8) == 0))
    && !(owns p && (all.any fun q => p != q && owns q && overlaps (base p) (cap p) (base q) (cap q)))
    && !(owns p && msUsed.any fun t => overlaps (base p) (cap p) (32512 + 32 * t) 32)
    && !(owns p && camUsed.any fun t =>
          overlaps (base p) (cap p) (h.f (ra pLSH (0xB00 + 0x10 * t)) 14 0) (h.f (ra pLSH (0xB04 + 0x10 * t)) 10 0))

/-- The ledger started afresh, or emptied at a disable (R225). -/
def Hw.freshLedger (h : Hw) (p : Nat) : Hw :=
  let h := h.setLedger p (if h.pfEn p then h.pfCap p else 0) 0 0
  let h := h.setF (prStat p) 27 16 0
  h.setProf p { h.prof p with queue := [], segs := [], cur := none, unret := [], rejoin := none, broken := false }

/-- The effects of a PRF commit on profile p, whose EN and P_RING were `en0` and `ring0` (R225, R229, R233, R249). -/
def Hw.prfApplied (h : Hw) (p : Nat) (en0 : Bool) (ring0 : Word) : Hw :=
  let en := h.pfEn p
  let h := if en0 && !en then h.leaveGroup p else h
  let h := if en ≠ en0 ∨ (en ∧ h.reg (prfWin p 0x084) ≠ ring0) then h.freshLedger p else h
  let h := if en && !en0 then
      (((h.setPfState p 1).setF (prStat p) 11 8 0).setProf p { h.prof p with held := h.reg64 (prfWin p 0x098) }).noteHeld p
        (h.reg64 (prfWin p 0x098)) |>.joinArmed p
    else if en0 && !en then h.setPfState p 0 else h
  if 128 ≤ p ∧ en ≠ en0 then h.masterFlush (p - 128) else h

/-- The commit point of PRF. A leader that the set disables ends its group first. -/
def Hw.prfTake (h : Hw) : Hw :=
  if h.takes pPRF then
    let before := (List.range 136).map fun p => (p, h.pfEn p, h.reg (prfWin p 0x084))
    let ending := (List.range 136).filter fun p =>
      h.pfEn p && !bitOf (tabGet (regReset (prfWin p 0x080)) (prfWin p 0x080) (h.takenSet pPRF)) 0
    let h := h.each ending fun h p => h.groupEnd p
    let h := h.takePending pPRF
    h.each before fun h b => h.prfApplied b.1 b.2.1 b.2.2
  else h

/-! ### The commands of the family -/

/-- SEGMENT_RETIRE. -/
def execSegmentRetire (g : Nat) (p : Fin 136) (s : State) := run g (fun _ h => h.retire p) s

/-- PUSH. -/
def execPush (g : Nat) (v : Word) (s : State) :=
  run g (fun _ h => h.swMirror pPRF 0x044 v fun h => h.push (fld v 23 16) (fld v 12 0)) s

/-- PROFILE_START. -/
def execProfileStart (g : Nat) (s : State) := run g (fun m h => h.swMirror pPRF 0x04C 1 fun h => h.cmdStart m) s

/-- PROFILE_FLUSH. -/
def execProfileFlush (g : Nat) (s : State) := run g (fun _ h => h.swMirror pPRF 0x04C 2 fun h => h.cmdFlush) s

/-- PROFILE_LOAD. -/
def execProfileLoad (g : Nat) (s : State) := run g (fun _ h => h.swMirror pPRF 0x04C 3 fun h => h.cmdLoad) s

/-- PROFILE_CLEAR. -/
def execProfileClear (g : Nat) (s : State) := run g (fun _ h => h.swMirror pPRF 0x04C 4 fun h => h.cmdClear) s

end Sys2Proof.Machine
end

