-- ==== Sys2Proof/Machine/Lsh.lean ====
section
/-! DEFINITION. Line shaft, gearing, cams and register correction (R243 to R263), and the step channels (R237 to R239). -/

namespace Sys2Proof.Machine

/-! ### Master feed and REJOIN (R244, R248) -/

def ls (off : Nat) : Nat := ra pLSH off
def gr (g off : Nat) : Nat := ls (0x200 + 0x40 * g + off)
def rc (r off : Nat) : Nat := ls (0xC00 + 0x40 * r + off)
def Hw.gear (h : Hw) (g : Nat) : GearS := tabGet {} g h.gears
def Hw.setGear (h : Hw) (g : Nat) (x : GearS) : Hw := { h with gears := tabSet {} g x h.gears }
def Hw.rcu (h : Hw) (r : Nat) : RcS := tabGet {} r h.rcs
def Hw.setRcu (h : Hw) (r : Nat) (x : RcS) : Hw := { h with rcs := tabSet {} r x h.rcs }

/-- Whether gear unit g is concerned by a counted event of LSH: it takes the master of a gap or a late refusal, or the
register-correction unit of a mark miss corrects it (R263). -/
def Hw.gearConcerned (h : Hw) (g code inst : Nat) : Bool :=
  h.bit (gr g 0) 0 &&
    (if code = 6 then g == h.f (rc inst 0) 12 8 else h.f (gr g 0) 17 16 == 0 && h.f (gr g 0) 15 8 == inst)

/-- A counted event of LSH: a lasting declaration warns the axis of every geared profile its window concerns (R263,
R276). -/
def Hw.lshFlt (h : Hw) (code inst : Nat) : Hw :=
  let h := (h.fltEvent pLSH 10 code inst h.grain).1
  let w := h.fwin pLSH
  if w.declared = some h.grain then
    let gs := (List.range 32).filter fun g => w.who.any fun e => h.gearConcerned g e.1 e.2
    h.each ((List.range 32).filter fun a => gs.any fun g => h.f (ra (pAX a) 0x040) 15 8 == h.f (gr g 0) 31 24)
      fun h a => h.warnAxis a 3
  else h

/-- A refused feed (R244). -/
def Hw.feedRefuse (h : Hw) (mm seq reason : Nat) : Hw :=
  (((h.setF (ls 0x0F0) 26 24 mm).setF (ls 0x0F0) 23 8 seq).setF (ls 0x0F0) 2 0 reason).evt pLSH 1

/-- A segment accepted for a master with SEND set begins its span (R246). -/
def Hw.noteSend (h : Hw) (m : Mem) (mm seq slot start : Nat) (idle : Bool) : Hw :=
  if h.bit (ls (0x040 + 4 * mm)) 2 then
    let p := 128 + mm
    let s0 := if idle then (h.prof p).queue.foldl (fun t e => t + (h.rd32 m (slotAddr (h.pfBase p + e.1))).toNat) 0 else start
    let x : MSend := ⟨mm, seq, s0, idle, h.rdN m (slotAddr slot) 32, 0, h.nsw.cyc⟩
    { h with nsw := { h.nsw with sends := h.nsw.sends ++ [x] } }
  else h

/-- A feed of a segment with number `seq` and duration `dur` to master mm, offered by firmware or by the network; the
answer tells whether it is accepted (R244). `write` puts the segment's bytes into the slot where the network offers
it. -/
def Hw.feed (h : Hw) (m : Mem) (mm seq dur : Nat) (net : Bool) (write : Hw → Nat → Hw) : Hw × Bool :=
  let p := 128 + mm
  let st := h.pfState p
  let seqSet := h.bit (mStat mm) 1
  let next := h.f (mStat mm) 31 16
  let back := (next + 65536 - seq) % 65536
  let start := (h.reg64 (mWend mm)).toNat
  if !net && h.bit (ls (0x040 + 4 * mm)) 1 then (h.feedRefuse mm seq 4, false)
  else if st ≠ 1 ∧ st ≠ 2 ∧ st ≠ 3 then (h.feedRefuse mm seq 2, false)
  else if seqSet && decide (1 ≤ back) && decide (back ≤ 32768) then (h.bump (ls (0x080 + 4 * mm)) 31 16, false)
  else if seqSet && seq != next then
    (((h.bump (ls (0x080 + 4 * mm)) 15 8).evt pLSH 2).feedRefuse mm seq 1 |>.lshFlt 2 mm, false)
  else if (st = 2 ∨ st = 3) ∧ start < h.ctGrains h.wgrain + 2 * h.batch then
    ((h.bump (ls (0x080 + 4 * mm)) 7 0).feedRefuse mm seq 3 |>.lshFlt 1 mm, false)
  else
    let h := h.creditInCycle p
    if h.credits p = 0 then (h.feedRefuse mm seq 5, false)
    else
      let slot := h.pfBase p + h.f (prStat p) 27 16
      let h := (write h slot).noteSend m mm seq slot start (st == 1)
      let h := h.pushN p 1
      let h := (h.setBit (mStat mm) 1 true).setF (mStat mm) 31 16 ((seq + 1) % 65536)
      let h := if st = 1 then h else h.setReg64 (mWend mm) (BitVec.ofNat 64 (start + dur))
      (h, true)

/-- MASTER_FEED: a write of LSH.MFEED feeds the slot at W_IDX (R244). -/
def Hw.masterFeed (h : Hw) (m : Mem) (mm : Nat) : Hw :=
  let a := slotAddr (h.pfBase (128 + mm) + h.f (prStat (128 + mm)) 27 16)
  (h.feed m mm (fld (h.rd32 m (a + 20)) 15 0) (h.rd32 m a).toNat false (fun h _ => h)).1

/-- A refused REJOIN (R248). -/
def Hw.rejoinRefuse (h : Hw) (reason : Nat) : Hw := (h.setF (ls 0x0E4) 17 16 reason).evt pLSH 8

/-- REJOIN of a coasting master at MCMD_T (R248). -/
def Hw.rejoin (h : Hw) (mm : Nat) : Hw :=
  let tj := (h.reg64 (ls 0x0E8)).toNat
  if !h.bit (mStat mm) 0 then h.rejoinRefuse 1
  else if tj % h.batch ≠ 0 then h.rejoinRefuse 2
  else if tj < h.ctGrains h.wgrain + 2 * h.batch then h.rejoinRefuse 3
  else
    let h := h.setReg64 (mWend mm) (BitVec.ofNat 64 tj)
    h.setProf (128 + mm) { h.prof (128 + mm) with rejoin := some tj }

/-! ### Cams (R255, R256) -/

def cm (t off : Nat) : Nat := ls (0xB00 + 0x10 * t + off)

/-- X, Y and M of point i of cam table t. -/
def Hw.camX (h : Hw) (m : Mem) (t i : Nat) : Int := (h.rd64 m (slotAddr (h.f (cm t 0) 14 0 + i))).toInt
def Hw.camY (h : Hw) (m : Mem) (t i : Nat) : Int := (h.rd64 m (slotAddr (h.f (cm t 0) 14 0 + i) + 8)).toInt
def Hw.camM (h : Hw) (m : Mem) (t i : Nat) : Int := (h.rd64 m (slotAddr (h.f (cm t 0) 14 0 + i) + 16)).toInt

/-- The check of cam table t: 0 when valid, else the first failing rule in the order of CAMt_STAT.ERR (R256, R263). -/
def Hw.camCheck (h : Hw) (m : Mem) (t : Nat) : Nat :=
  let n := h.f (cm t 4) 10 0
  let base := h.f (cm t 0) 14 0
  let cyc : Int := (h.reg (cm t 8)).toNat * 2 ^ 32
  let rings := (List.range 136).filter fun p => h.pfEn p && h.pfSrc p != 2
  let ms := (List.range 136).filter fun p => h.pfEn p && bitOf (h.pfCfg p) 19
  if n < 2 ∨ 1024 < n ∨ 32768 < base + n then 1
  else if h.camX m t 0 ≠ 0 then 2
  else if (List.range (n - 1)).any fun i => decide (h.camX m t (i + 1) ≤ h.camX m t i) then 3
  else if h.camX m t (n - 1) ≠ cyc then 4
  else if h.camM m t (n - 1) ≠ h.camM m t 0 then 5
  else if (List.range n).any fun i => h.rd64 m (slotAddr (base + i) + 24) != 0 then 6
  else if rings.any (fun p => overlaps base n (h.pfBase p) (h.pfCap p)) ||
      ms.any (fun p => overlaps base n (32512 + 32 * fld (h.pfCfg p) 18 16) 32) then 7
  else 0

/-- CAM_CHECK: a write of CHECK starts the check of a table (R256). -/
def Hw.camStart (h : Hw) (t : Nat) : Hw := h.setBit (cm t 12) 1 true

/-- CAM_CHECK_DONE (R256). -/
def Hw.camDone (h : Hw) (m : Mem) (t : Nat) : Hw :=
  if h.bit (cm t 12) 1 then
    let e := h.camCheck m t
    let h := ((h.setBit (cm t 12) 1 false).setBit (cm t 12) 0 (e == 0)).setF (cm t 12) 11 8 e
    h.when (e != 0) fun h => h.evt pLSH 5
  else h

/-- CAM_NEXT_WRITE: a write of GEARu.CAM.NEXT (R256). -/
def Hw.camNext (h : Hw) (u t : Nat) : Hw :=
  if h.bit (cm t 12) 0 then
    let h := h.setF (gr u 0x38) 11 8 t
    let h := h.setBit (gr u 0x38) 16 (t != h.f (gr u 0x38) 3 0)
    h.setGear u { h.gear u with nextCycle := some h.cycle }
  else h.evt pLSH 0

/-- The cam bases brought to G: at most n whole cycles are passed forward or back, a pending swap taken at the first
forward wrap (R255, R256). -/
def Hw.camWrap (m : Mem) (u : Nat) (G : Word64) : Nat → Hw → Hw
  | 0, h => h
  | n + 1, h =>
    let x := h.gear u
    let t := h.f (gr u 0x38) 3 0
    let k := h.f (cm t 4) 10 0
    let cyc : Int := (h.reg (cm t 8)).toNat * 2 ^ 32
    let rise := h.camY m t (k - 1) - h.camY m t 0
    let d := sdiff G x.cb
    if cyc ≤ d then
      let h := h.setGear u { x with cb := padd x.cb cyc, sb := padd x.sb rise }
      let h := if h.bit (gr u 0x38) 16 && x.nextCycle != some h.cycle then
          (((h.setF (gr u 0x38) 3 0 (h.f (gr u 0x38) 11 8)).setBit (gr u 0x38) 16 false).evt pLSH 4) else h
      Hw.camWrap m u G n h
    else if d < 0 then Hw.camWrap m u G n (h.setGear u { x with cb := padd x.cb (-cyc), sb := padd x.sb (-rise) })
    else h

/-- The index of the cam interval that holds x. -/
def Hw.camFind (h : Hw) (m : Mem) (t : Nat) (x : Int) (n : Nat) : Nat :=
  ((List.range (n - 1)).filter fun i => decide (h.camX m t i ≤ x)).length - 1

/-! ### Gear units (R250 to R254) -/

/-- A number moved towards a target by at most a step, or at once where the step is 0. -/
def moveTo (cur tgt step : Int) : Int :=
  if step = 0 then tgt else if tgt - cur > step then cur + step else if cur - tgt > step then cur - step else tgt

/-- The words of gear unit u, its block and then G_POS, as an evaluation finds them. -/
def Hw.gearWords (h : Hw) (u : Nat) : List Word :=
  ((List.range 16).map fun i => h.reg (gr u (4 * i))) ++ [h.reg (ls (0xA00 + 8 * u)), h.reg (ls (0xA04 + 8 * u))]

/-- What an evaluation of unit u starts from. -/
def Hw.gearInput (h : Hw) (u : Nat) (loaded : Bool) : GearIn :=
  let x := h.gear u
  ⟨h.gearWords u, x.on, x.prev, x.valid, x.cb, x.sb, loaded, x.nextCycle⟩

/-- Unit u as an earlier evaluation found it. -/
def Hw.gearBack (h : Hw) (u : Nat) (i : GearIn) : Hw :=
  let h := h.each i.regs.zipIdx fun h w =>
    if w.2 < 16 then h.setReg (gr u (4 * w.2)) w.1 else h.setReg (ls (0xA00 + 8 * u + 4 * (w.2 - 16))) w.1
  h.setGear u { h.gear u with on := i.on, prev := i.prev, valid := i.valid, cb := i.cb, sb := i.sb, nextCycle := i.nextCycle }

/-- The evaluation of unit u computed, its master's record and whether the master was loaded since being given; answers
the module and the geared record (R251, R255). -/
def Hw.gearCompute (h : Hw) (m : Mem) (u : Nat) (mr : PRec) (loaded : Bool) : Hw × PRec :=
  let x := h.gear u
  let D := (h.reg (gr u 0x08)).toNat
  let first := !x.on
  -- at enable (R253)
  let h := if first then
      let n0 : Word := if h.reg (gr u 0x0C) ≠ 0 then 0 else h.reg (gr u 0x04)
      let h := (h.setReg64 (ls (0xA00 + 8 * u)) (h.reg64 (gr u 0x28))).setReg (gr u 0x3C) 0
      let h := (h.setReg64 (gr u 0x20) 0).setReg (gr u 0x10) n0
      let h := if h.bit (gr u 0) 1 then
          (h.setF (gr u 0x38) 3 0 (h.f (gr u 0x38) 11 8)).setBit (gr u 0x38) 16 false else h
      h.setGear u { x with cb := h.reg64 (gr u 0x28), sb := h.reg64 (gr u 0x30) }
    else h
  let x := h.gear u
  let dm := if first || !mr.valid || !x.valid || loaded then 0 else sdiff mr.pos x.prev
  let nCur := moveTo (h.reg (gr u 0x10)).toInt (h.reg (gr u 0x04)).toInt (h.reg (gr u 0x0C)).toNat
  let acc := (h.reg (gr u 0x3C)).toNat + dm * nCur
  let q := acc / (D : Int)
  let G := padd (h.reg64 (ls (0xA00 + 8 * u))) q
  let ph := h.int64 (gr u 0x20)
  let step : Int := (h.reg (gr u 0x14)).toNat * 2 ^ 16
  let want := sdiff (h.reg64 (gr u 0x18)) (h.reg64 (gr u 0x20))
  let dph := if step = 0 then want else clip (-step) step want
  let h := (h.setReg (gr u 0x10) (BitVec.ofInt 32 nCur)).setReg (gr u 0x3C) (BitVec.ofInt 32 (acc - q * D))
  let h := (h.setReg64 (ls (0xA00 + 8 * u)) G).setInt64 (gr u 0x20) (ph + dph)
  let h := h.setGear u { h.gear u with on := true, prev := mr.pos, valid := mr.valid }
  let dphv := dph * grainsPerSec
  let w7 := recW7 mr.valid false false false none
  if h.bit (gr u 0) 1 then
    let h := Hw.camWrap m u G ((sdiff G (h.gear u).cb).natAbs / 2 ^ 32 + 2) h
    let t := h.f (gr u 0x38) 3 0
    let n := h.f (cm t 4) 10 0
    let x := h.gear u
    let off := sdiff G x.cb
    let i := h.camFind m t off n
    let H := (h.camX m t (i + 1) - h.camX m t i).toNat
    let y0 := h.camY m t i
    -- Hermite in the interval: slopes times h, in units of 2^-64 counts
    let c := hermite (h.camY m t (i + 1) - y0) (h.camM m t i * H) (h.camM m t (i + 1) * H) (2 ^ 32) H (off - h.camX m t i)
    let den := 2 ^ 32 * H ^ 3
    let pos := padRound (padd x.sb (y0 - h.camY m t 0 + ph + dph)) c.1 den
    -- Y' = c.2.1 / den and Y'' = c.2.2 / (den × 2^-32) per count; vg = vm N / D, ag = am N / D
    let vel := sat64 (roundHalfEven (c.2.1 * (mr.vel * nCur) * h.batch + dphv * den * D) (den * D * h.batch))
    let acc2 := c.2.2 * (mr.vel * nCur) * (mr.vel * nCur) + c.2.1 * (mr.acc * nCur) * D
    (h, { pos, vel, acc := sat64 (roundHalfEven acc2 (den * D * D)), w7 })
  else
    let pos := padd G (ph + dph)
    let vel := sat64 (roundHalfEven (mr.vel * nCur * h.batch + dphv * D) (D * h.batch))
    (h, { pos, vel, acc := sat64 (roundHalfEven (mr.acc * nCur) D), w7 })

/-- GEAR_EVAL of an enabled unit. -/
def Hw.gearEval (h : Hw) (m : Mem) (u : Nat) (mr : PRec) (loaded : Bool) : Hw × PRec :=
  let i := h.gearInput u loaded
  let r := h.gearCompute m u mr loaded
  (r.1.setGear u { r.1.gear u with inp := i, stale := false }, r.2)

/-- The last evaluation of unit u done again on another record of its master: PH_TGT, PH_STEP and CAM.NEXT as written
since stand, a cycle wrap takes its swap or gives it back (R265). -/
def Hw.gearAgain (h : Hw) (m : Mem) (u : Nat) (mr : PRec) : Hw × PRec :=
  let x := h.gear u
  let k := (h.gearBack u x.inp).gearCompute m u mr x.inp.loaded
  let h1 := k.1
  let keep := fun (o : Nat) (h1 : Hw) => h1.setReg (gr u o) (h.reg (gr u o))
  let h1 := keep 0x14 (keep 0x18 (keep 0x1C h1))
  let h1 := if x.nextCycle = x.inp.nextCycle then h1
    else (h1.setF (gr u 0x38) 11 8 (h.f (gr u 0x38) 11 8)).setBit (gr u 0x38) 16 (h.bit (gr u 0x38) 16)
  (h1.setGear u { h1.gear u with inp := x.inp, stale := false, nextCycle := x.nextCycle }, k.2)

/-- A write of PH_TGT: where a correction was added in this PCLK cycle the write goes first and the correction is added
to the written value (R261). -/
def Hw.phTgtWrite (h : Hw) (u : Nat) (hi : Bool) (v : Word) : Hw :=
  let a := gr u 0x18
  let put := fun (w : Word64) => if hi then v ++ w.extractLsb' 0 32 else w.extractLsb' 32 32 ++ v
  match (h.gear u).corr with
  | some (c, pre, d) =>
    if c = h.cycle then
      (h.setReg64 a (padd (put pre) d)).setGear u { h.gear u with corr := some (c, put pre, d) }
    else h.setReg64 a (put (h.reg64 a))
  | none => h.setReg64 a (put (h.reg64 a))

/-- A correction added to PH_TGT at a boundary (R260, R261). -/
def Hw.phCorrect (h : Hw) (u : Nat) (d : Int) : Hw :=
  let a := gr u 0x18
  let old := h.reg64 a
  let corr := match (h.gear u).corr with
    | some (c, pre, d0) => if c = h.cycle then (c, pre, d0 + d) else (h.cycle, old, d)
    | none => (h.cycle, old, d)
  (h.setReg64 a (padd old d)).setGear u { h.gear u with corr := some corr }

/-- The record of a geared profile without an enabled unit: its last delivered position (R250). -/
def Hw.gearIdle (h : Hw) (p : Nat) : PRec :=
  { pos := (h.prof p).rel.pos, w7 := recW7 false false false true none }

/-! ### Commit of the LSH page (R262) -/

/-- The check of an LSH GO against the shadow. -/
def Hw.lshSetOk (h : Hw) : Bool :=
  let gc := fun g => h.shd (gr g 0)
  let en := fun g => bitOf (gc g) 0
  let prof := fun g => fld (gc g) 31 24
  let kind := fun g => fld (gc g) 17 16
  let midx := fun g => fld (gc g) 15 8
  let gearOk := fun g =>
    !en g ||
      (decide (prof g ≤ 127) && h.pfEn (prof g) && h.pfSrc (prof g) == 2
       && !((List.range 32).any fun k => k != g && en k && prof k == prof g)
       && decide (kind g < 2)
       && (kind g != 0 || decide (midx g ≤ 7))
       && (kind g != 1 || (decide (midx g ≤ 127) && midx g != prof g &&
            (h.pfSrc (midx g) != 2 || (List.range g).any fun k => en k && prof k == midx g)))
       && decide (1 ≤ (h.shd (gr g 8)).toNat) && decide ((h.shd (gr g 8)).toNat < 2 ^ 31)
       && !(bitOf (gc g) 1 && !h.bit (cm (h.f (gr g 0x38) 11 8) 12) 0)
       && !(h.bit (gr g 0) 0 &&
            ([0x08, 0x28, 0x2C, 0x30, 0x34].any (fun o => h.shd (gr g o) != h.reg (gr g o)) ||
             (gc g ^^^ h.reg (gr g 0)) &&& 0xFF03FF02 != 0)))
  let rcf := fun r => h.shd (rc r 0)
  let ren := fun r => bitOf (rcf r) 0
  let rcOk := fun r =>
    !ren r ||
      (let ge := fld (rcf r) 12 8
       let rep := (h.shd (rc r 0x04)).toNat
       en ge && kind ge == 0 && rep != 0 && decide ((h.shd (rc r 0x10)).toNat < rep)
       && decide (2 * (h.reg (rc r 0x14)).toNat < rep)
       && !((List.range 16).any fun k => k != r && ren k && fld (rcf k) 20 16 == fld (rcf r) 20 16
              && bitOf (rcf k) 1 == bitOf (rcf r) 1))
  (List.range 32).all gearOk && (List.range 16).all rcOk

/-- The commit point of LSH: a unit that leaves EN starts afresh at its next enable. -/
def Hw.lshTake (h : Hw) : Hw :=
  if h.takes pLSH then
    let h := h.takePending pLSH
    let h := h.each (List.range 32) fun h g =>
      if h.bit (gr g 0) 0 then h else h.setGear g { h.gear g with on := false }
    h.each (List.range 16) fun h r =>
      if h.bit (rc r 0) 0 then h else (h.setRcu r {}).setBit (rc r 0x38) 0 false
  else h

/-! ### Step channels (R237 to R239) -/

def sp (c off : Nat) : Nat := ra pSTP (0x100 + 0x20 * c + off)
def Hw.step (h : Hw) (c : Nat) : StpS := tabGet {} c h.stp
def Hw.setStep (h : Hw) (c : Nat) (x : StpS) : Hw := { h with stp := tabSet {} c x h.stp }

/-- SLIP_MAX for a batch: ⌈BATCH / 2,000⌉ + 1 (R20). -/
def slipMax (batch : Nat) : Nat := (batch + 1999) / 2000 + 1

/-- Least interval between steps (R238). -/
def minInt (pw : Nat) : Nat := max 50 (2 * pw)

/-- The check of an STP GO (R239). -/
def Hw.stpSetOk (h : Hw) : Bool :=
  (List.range 32).all fun c =>
    let cfg := h.shd (sp c 0)
    let pw := fld (h.shd (sp c 4)) 15 0
    let ds := fld (h.shd (sp c 4)) 31 16
    decide (fld cfg 15 8 ≤ 135) && decide (5 ≤ pw) && decide (pw ≤ 25000)
      && decide (minInt pw + ds + pw + slipMax h.batch ≤ h.batch)

/-- OWED = TARGET − ISSUED, kept beside them (R237). -/
def Hw.setOwed (h : Hw) (c : Nat) : Hw :=
  h.setReg64 (sp c 0x14) (h.reg64 (sp c 0x08) - (h.reg (sp c 0x10) ++ (0 : Word)))

/-- STEP_PLAN at a boundary, with the profile's record released there (R237, R238). -/
def Hw.stepPlan (h : Hw) (c : Nat) (r : PRec) : Hw :=
  let x := h.step c
  if !h.bit (sp c 0) 0 then (h.setF (sp c 0x1C) 31 16 0).setStep c {}
  else if !r.valid then (h.setF (sp c 0x1C) 31 16 0).setStep c { x with plan := 0, done := 0, base := h.grain }
  else
    let h := h.setReg64 (sp c 0x08) r.pos
    if !x.started then
      let iss := roundHalfEven r.pos.toInt (2 ^ 32)
      ((h.setReg (sp c 0x10) (BitVec.ofInt 32 iss)).setOwed c |>.setF (sp c 0x1C) 31 16 0).setStep c
        { x with started := true, plan := 0, done := 0, base := h.grain }
    else
      let h := h.setOwed c
      let n := roundHalfEven (h.int64 (sp c 0x14)) (2 ^ 32)
      let pw := h.f (sp c 4) 15 0
      let W := h.batch - slipMax h.batch - pw
      let turn := n ≠ 0 ∧ decide (n < 0) ≠ x.dirNeg
      let D := if turn then h.f (sp c 4) 31 16 else 0
      let nMax : Int := ((W - D) / minInt pw : Nat)
      let tooMany := decide (nMax < (n.natAbs : Int))
      let plan := if tooMany then (if n < 0 then -nMax else nMax) else n
      let h := h.when tooMany fun h => (h.bump (sp c 0x1C) 15 0).evt pSTP 1
      let h := h.setF (sp c 0x1C) 31 16 (unsign 16 plan)
      h.setStep c { x with plan, done := 0, base := h.grain, dirNeg := if n = 0 then x.dirNeg else decide (n < 0),
                           setup := D, span := W, high := pw }

/-- The grain in which step i of a plan rises on L2, i from 1 (R238). -/
def StpS.riseAt (x : StpS) (i : Nat) : Nat :=
  x.base + x.setup + (2 * i - 1) * (x.span - x.setup) / (2 * x.plan.natAbs)

/-- L2 of a STEP port in the present grain: high for PW grains from the rise of each planned step (R238). -/
def Hw.stepLevel (h : Hw) (c : Nat) : Bool :=
  let x := h.step c
  (List.range x.plan.natAbs).any fun i => decide (x.riseAt (i + 1) ≤ h.grain) && decide (h.grain < x.riseAt (i + 1) + x.high)

/-- L3 of a STEP port: high for positive steps, low where DIR_INV is set (R238). -/
def Hw.stepDir (h : Hw) (c : Nat) : Bool := (h.step c).dirNeg == h.bit (sp c 0) 1

/-- The next planned step of channel c rises, once its grain has come: ISSUED changes by one in its direction (R238).
Answers the direction and that grain. -/
def Hw.stepIssue (h : Hw) (c : Nat) : Hw × Option (Bool × Nat) :=
  let x := h.step c
  if x.done < x.plan.natAbs ∧ x.riseAt (x.done + 1) ≤ h.grain then
    let neg := decide (x.plan < 0)
    let h := h.setReg (sp c 0x10) (if neg then h.reg (sp c 0x10) - 1 else h.reg (sp c 0x10) + 1)
    ((h.setOwed c).setStep c { x with done := x.done + 1 }, some (neg, x.riseAt (x.done + 1)))
  else (h, none)

/-! ### The commands of the family -/

/-- MASTER_FEED. -/
def actMasterFeed (g : Nat) (m : BitVec 3) (s : State) :=
  run g (fun mem h => h.swMirror pLSH 0x0E0 (m.zeroExtend 32) fun h => h.masterFeed mem m.toNat) s

/-- REJOIN. -/
def actRejoin (g : Nat) (m : BitVec 3) (s : State) :=
  run g (fun _ h => h.swMirror pLSH 0x0E4 (m.zeroExtend 32 ||| 0x100) fun h => h.rejoin m.toNat) s

/-- CAM_CHECK. -/
def execCamCheck (g : Nat) (t : Fin 16) (s : State) :=
  run g (fun _ h => h.swWrite pLSH (0xB0C + 0x10 * t) fun h => h.camStart t) s

/-- CAM_CHECK_DONE. -/
def execCamCheckDone (g : Nat) (t : Fin 16) (s : State) := run g (fun m h => h.camDone m t) s

/-- CAM_NEXT_WRITE. -/
def execCamNextWrite (g : Nat) (u : Fin 32) (t : BitVec 4) (s : State) :=
  run g (fun _ h => h.swWrite pLSH (0x238 + 0x40 * u) fun h => h.camNext u t.toNat) s

end Sys2Proof.Machine
end

