-- ==== Sys2Proof/Machine/AxCore.lean ====
section
/-! DEFINITION. The axis unit (R264 to R277, R280): states, the axis record and its ramps, OFF and FAULT, faults and
their reactions, protection waits, and the walls of latched limits. -/

namespace Sys2Proof.Machine

def axr (a off : Nat) : Nat := ra (pAX a) off
def Hw.axis (h : Hw) (a : Nat) : AxS := tabGet {} a h.ax
def Hw.setAxis (h : Hw) (a : Nat) (x : AxS) : Hw := { h with ax := tabSet {} a x h.ax }

/-! ### States (R264) -/
def sOFF : Nat := 0
def sSTARTING : Nat := 1
def sRUNNING : Nat := 2
def sHOMING : Nat := 3
def sSTOPPING : Nat := 4
def sHOLDING : Nat := 5
def sFAULT : Nat := 6

/-- AXa.STAT.STATE. -/
def Hw.axState (h : Hw) (a : Nat) : Nat := h.f (axr a rSTAT) 2 0

/-- AXa.CFG.PROFILE and FB in force. -/
def Hw.axProf (h : Hw) (a : Nat) : Nat := h.f (axr a 0x040) 15 8
def Hw.axFb (h : Hw) (a : Nat) : Nat := h.f (axr a 0x040) 5 0

/-- Change the state. -/
def Hw.setAxState (h : Hw) (a st : Nat) : Hw := h.setF (axr a rSTAT) 2 0 st

/-- The axis was changed by an event ranked above a register write in the present grain (R30). -/
def Hw.axHigh (h : Hw) (a : Nat) : Hw := h.setAxis a { h.axis a with hiAt := some h.grain }

/-- A command of rank 10 whose effect meets a higher-ranked event of its grain acts in the next (R30). -/
def Hw.axLater (h : Hw) (a : Nat) (f : Hw → Hw) : Hw :=
  if (h.axis a).hiAt = some h.grain then { f { h with grain := h.grain + 1 } with grain := h.grain } else f h

/-- The legs that ENABLE sets: those LEG_SKIP does not name (R269). -/
def Hw.axUsedLegs (h : Hw) (a : Nat) : List Nat :=
  ((h.axisLegs a).zipIdx.filter fun l => !bitOf (h.reg (axr a 0x0AC)) l.2).map (·.1)

/-- The axis that runs on a profile, if any: the lowest axis whose CFG names it. -/
def Hw.axisOfProf (h : Hw) (p : Nat) : Option Nat := (List.range 32).find? fun a => h.axProf a == p

/-- RAW_POS of a port: Q32.32. -/
def Hw.fbRaw (h : Hw) (n : Nat) : Word64 := h.reg64 (ra (pFB n) 0x060)
/-- B_POS of a port. -/
def Hw.fbBPos (h : Hw) (n : Nat) : Word64 := h.reg64 (ra (pFB n) 0x070)

/-- The integer part of a position. -/
def intPart (x : Word64) : Int := (x.extractLsb' 32 32).toInt

/-- The last record released for the axis's profile. -/
def Hw.axRel (h : Hw) (a : Nat) : PRec := (h.prof (h.axProf a)).rel

/-- The raw integer position of an axis: port FB's, or the last released position's (R280). -/
def Hw.axRaw (h : Hw) (a : Nat) : Int :=
  if h.axFb a = 0x3F then intPart (h.axRel a).pos else intPart (h.fbRaw (h.axFb a))

/-! ### Ramps (R271, R283) -/

/-- A ramp's record at instant X, and whether it has reached its velocity. -/
def rampEval (r : Ramp) (X : Nat) : PRec × Bool :=
  let n : Int := (X : Int) - r.x0
  let A : Int := (r.dec : Int) * 2 ^ 32
  let dv := r.vt - r.v0
  let s : Int := if dv < 0 then -1 else 1
  let w7 := recW7 true false false false none
  if A * n < (dv.natAbs : Int) * grainsPerSec then
    ({ pos := padRound r.p0 (2 * r.v0 * n * grainsPerSec + s * A * n * n) (2 * grainsPerSec * grainsPerSec),
       vel := sat64 (roundHalfEven (r.v0 * grainsPerSec + s * A * n) grainsPerSec),
       acc := sat64 (s * A), w7 }, false)
  else
    ({ pos := padRound r.p0 ((r.v0 - r.vt) * dv.natAbs * grainsPerSec + 2 * A * r.vt * n) (2 * A.toNat * grainsPerSec),
       vel := sat64 r.vt, acc := 0, w7 }, true)

/-- The walls of latched limits applied to a record; answers whether it was clamped (R280). -/
def Hw.wallRec (h : Hw) (a : Nat) (r : PRec) : PRec × Bool :=
  let x := h.axis a
  let clamp := fun (w : Option Word64) (pend : Bool) (lat : Bool) (neg : Bool) (r : PRec × Bool) =>
    match w with
    | some wp =>
      let d := if neg then sdiff wp r.1.pos else sdiff r.1.pos wp
      if lat && !pend && decide (0 < d) then ({ pos := wp, vel := 0, acc := 0, w7 := r.1.w7 }, true) else r
    | none => r
  clamp x.wallN x.wallPendN (h.bit (axr a rSTAT) 5) true
    (clamp x.wallP x.wallPendP (h.bit (axr a rSTAT) 4) false (r, false))

/-! ### The record for the next boundary (R222, R264, R265, R271, R280) -/

/-- Whether an axis unit's legs are enabled: any state but OFF and FAULT (R264). -/
def Hw.axLive (h : Hw) (a : Nat) : Bool := h.axState a != sOFF && h.axState a != sFAULT

/-- The profile a gear unit takes as its master (R250). -/
def Hw.gearMaster (h : Hw) (u : Nat) : Nat :=
  if h.f (gr u 0) 17 16 = 0 then 128 + h.f (gr u 0) 15 8 else h.f (gr u 0) 15 8

/-- The record held for the next boundary; a gear unit that took another as its master's must look again. -/
def Hw.setNxt (h : Hw) (p : Nat) (r : PRec) : Hw :=
  let h := h.setProf p { h.prof p with nxt := r }
  h.each ((List.range 32).filter fun u => h.bit (gr u 0) 0 && h.gearMaster u == p) fun h u =>
    h.setGear u { h.gear u with stale := true }

/-- The record of axis a's profile for the next boundary, before the walls of its limits (R280). -/
def Hw.axPut (h : Hw) (a : Nat) (raw : PRec) : Hw :=
  let p := h.axProf a
  if h.axisOfProf p = some a then
    let w := if h.axLive a then h.wallRec a raw else (raw, false)
    (h.setAxis a { h.axis a with raw, clamped := w.2 }).setNxt p w.1
  else h

/-- The own record of profile p for the next boundary: released unless an axis record is in force (R265). -/
def Hw.ownRec (h : Hw) (p : Nat) (r : PRec) : Hw :=
  match h.axisOfProf p with
  | some a =>
    let h := h.setAxis a { h.axis a with own := r }
    if (h.axis a).inForce then h else h.axPut a r
  | none => h.setNxt p r

/-- The followers of a leader whose record has changed (R233). -/
def Hw.followAgain (h : Hw) (p : Nat) : Hw :=
  h.each (h.followers p) fun h f => h.ownRec f (h.evalFollow f (h.prof p).nxt)

/-- The walls of axis a have changed: they stand at the record of the next boundary too (R280). -/
def Hw.axRewall (h : Hw) (a : Nat) : Hw := (h.axPut a (h.axis a).raw).followAgain (h.axProf a)

/-- The axis record comes into force: the profile is flushed and holds (R265). -/
def Hw.axTakeOver (h : Hw) (a : Nat) : Hw :=
  let p := h.axProf a
  let h := h.axisFlush p
  h.setAxis a { h.axis a with inForce := true, own := if h.pfSrc p < 2 then h.holdRec p else (h.axis a).own }

/-- The record of axis a for instant X, its last released one having instant T: the profile's own in OFF, FAULT and
RUNNING, else a ramp or a hold at HOLD_POS (R264, R271). -/
def Hw.axPick (h : Hw) (a T X : Nat) : Hw :=
  if !h.axLive a || h.axState a == sRUNNING then
    (h.setAxis a { h.axis a with inForce := false }).axPut a (h.axis a).own
  else
    let last := h.axRel a
    let h := if (h.axis a).inForce then h else h.axTakeOver a
    match (h.axis a).ramp with
    | some rp =>
      let rp := if rp.begun then rp else { rp with begun := true, x0 := T, p0 := last.pos, v0 := last.vel }
      (h.setAxis a { h.axis a with ramp := some rp }).axPut a (rampEval rp X).1
    | none => h.axPut a { pos := h.reg64 (axr a 0x098), w7 := recW7 true false false false none }

/-- Whether a cause of the present grain lies at least 2,000 grains before the next boundary (R271). -/
def Hw.inTime (h : Hw) : Bool := decide (h.ctGrains (h.grain + 1999) < h.clk.nextB)

/-- Axis a has changed: the record of the next boundary follows, where it goes back to the profile's own at once, else
where the cause is in time (R268, R271). The followers and the group of its profile follow with it (R233). -/
def Hw.axShape (h : Hw) (a : Nat) : Hw :=
  if h.pair.behind.isNone && (!h.axLive a || h.axState a == sRUNNING || h.inTime) then
    let p := h.axProf a
    let fs := h.followers p
    let h := h.axPick a h.clk.lastB h.clk.nextB
    let h := h.each (fs.filter fun f => h.pfState f == 1) fun h f =>
      let h := h.ownRec f (h.holdRec f)
      h.setProf f { h.prof f with once := false }
    h.followAgain p
  else h

/-- Start a ramp of an axis. -/
def Hw.axRamp (h : Hw) (a dec : Nat) (vt : Int) (e : RampEnd) : Hw :=
  (h.setAxis a { h.axis a with ramp := some { dec := max 1 dec, vt }, thenDo := e }).axShape a

/-! ### OFF and FAULT (R268) -/

/-- A wall that waited for the end of a ramp stands where it ended (R280). -/
def Hw.wallAt (h : Hw) (a : Nat) (p : Word64) : Hw :=
  let x := h.axis a
  h.setAxis a { x with wallP := if x.wallPendP then some p else x.wallP,
                       wallN := if x.wallPendN then some p else x.wallN,
                       wallPendP := false, wallPendN := false }

/-- The end of homing: LATCH1 is disarmed and its SRC and EDGE written back (R282). -/
def Hw.homeEnd (h : Hw) (a : Nat) : Hw :=
  match (h.axis a).home with
  | none => h
  | some hm =>
    let h := match hm.saved with
      | some c =>
        let r := ra (pFB (h.axFb a)) 0x0C0
        let h := (h.setF r 19 16 (fld c 19 16)).setF r 9 8 (fld c 9 8)
        let y := tabGet ({} : FbS) (h.axFb a) h.fbs
        let l := tabGet ({} : LatchS) 1 y.latches
        let l := { l with armed := none, wait := none }
        let l := if fld c 19 16 = 1 then l else { l with fresh := h.grain + 1, level := none }
        ({ h with fbs := tabSet ({} : FbS) (h.axFb a) { y with latches := tabSet ({} : LatchS) 1 l y.latches } h.fbs }).setBit
          (ra (pFB (h.axFb a)) 0x0C8) 0 false
      | none => h
    h.setAxis a { h.axis a with home := none }

/-- Homing is aborted (R285): a reference found in this very grain is not taken, and HOME_REF keeps what it held (R286). -/
def Hw.homeDrop (h : Hw) (a : Nat) : Hw :=
  let h := match (h.axis a).home with
    | some hm => (match hm.refWas with
      | some (g, v) => if g = h.grain then h.setReg (axr a 0x094) v else h
      | none => h)
    | none => h
  (h.homeEnd a).setAxis a { (h.homeEnd a).axis a with load := false }

/-- DISABLE, or any change to OFF: ENABLE of every leg cleared; FAULT while CODE is not 0 (R268). HOLD_POS keeps its
value. -/
def Hw.axOff (h : Hw) (a : Nat) : Hw :=
  let h := ((h.axisLegsOff a).homeDrop a).wallAt a (h.axRel a).pos
  let h := h.setAxis a { h.axis a with ramp := none, thenDo := .hold, load := false, inForce := false }
  let h := h.setBit (axr a rSTAT) 3 false
  (h.setAxState a (if h.f (axr a 0x0A4) 7 0 = 0 then sOFF else sFAULT)).axShape a

/-- The axis goes to OFF in the present grain by an event ranked above a register write (R30, R270). -/
def Hw.axOffNow (h : Hw) (a : Nat) : Hw :=
  let h := h.axOff a
  (h.setAxis a { h.axis a with offAt := some h.grain }).axHigh a

/-- The axis sent to OFF by a mode, where it is in neither OFF nor FAULT (R270): of two in one grain each sets its
event. -/
def Hw.axModeOff (h : Hw) (a : Nat) : Hw :=
  let h := if h.axLive a then h.axOffNow a else h
  if (h.axis a).offAt = some h.grain then h.evt (pAX a) 9 else h

/-- The axis sent to OFF by a safety force on one of its legs, in whatever state (R268, R270). -/
def Hw.axSafeOff (h : Hw) (a : Nat) : Hw :=
  let live := h.axLive a
  let h := (h.axOff a).axHigh a
  let h := if live then h.setAxis a { h.axis a with offAt := some h.grain } else h
  h.evt (pAX a) 10

/-! ### Causes of ramps and the end of a ramp (R271, R272) -/

/-- A stop cause at deceleration dec: in STOPPING only a larger DEC replaces the ramp (R272). -/
def Hw.axStop (h : Hw) (a dec : Nat) (e : RampEnd) : Hw :=
  if h.axState a = sSTOPPING then
    let x := h.axis a
    let h := if e = .fault then h.setAxis a { x with thenDo := .fault } else h
    match x.ramp with
    | some r => if dec ≤ r.dec then h else h.axRamp a dec 0 (h.axis a).thenDo
    | none => h.axRamp a dec 0 e
  else ((h.homeDrop a).setAxState a sSTOPPING).axRamp a dec 0 e

def Hw.axStopDec (h : Hw) (a : Nat) : Nat := (h.reg (axr a 0x050)).toNat
def Hw.axQstopDec (h : Hw) (a : Nat) : Nat := (h.reg (axr a 0x054)).toNat
def Hw.axAbortDec (h : Hw) (a : Nat) : Nat := (h.reg (axr a 0x058)).toNat

/-! ### Faults and reactions (R273, R274) -/

/-- AX_FAULT: a fault with a code, a reaction and the rank of its source reaches the axis. The most severe reaction
stands, the first code stays. -/
def Hw.axFault (h : Hw) (a code react rank : Nat) : Hw :=
  if react = 0 then (h.log (pAX a) rank 3 a h.grain).evt (pAX a) 3
  else
    let h := h.log (pAX a) rank 2 a h.grain
    let had := h.f (axr a 0x0A4) 7 0
    let h := if had = 0 then h.setF (axr a 0x0A4) 7 0 code else h
    let r := if had = 0 then react else max react (h.f (axr a 0x0A4) 9 8)
    let h := (h.setF (axr a 0x0A4) 9 8 r).evt (pAX a) 2
    let st := h.axState a
    let h := if rank < 10 then h.axHigh a else h
    if r = 3 ∨ st = sOFF ∨ st = sFAULT then h.axOff a
    else h.axStop a (h.axQstopDec a) (if r = 2 then .fault else .hold)

/-- A protection fault whose retry is pending: HOLDING with PROT_WAIT, no code; HOLD_POS takes B_POS, or the last
released position without feedback (R275). -/
def Hw.axProtWait (h : Hw) (a : Nat) : Hw :=
  let st := h.axState a
  if st = sOFF ∨ st = sFAULT then h
  else
    let h := (h.homeDrop a).wallAt a (h.axRel a).pos
    let h := h.setAxis a { h.axis a with ramp := none, thenDo := .hold, waitAt := h.grain }
    let h := h.setReg64 (axr a 0x098) (if h.axFb a = 0x3F then (h.axRel a).pos else h.fbBPos (h.axFb a))
    (((h.setBit (axr a rSTAT) 3 true).setAxState a sHOLDING).axHigh a).axShape a

/-- A protection fault of class c latched: OFF reaction with the class's code (R273, R275). Classes: 0 undervoltage,
1 trip, 2 short circuit. -/
def Hw.axProtLatched (h : Hw) (a c : Nat) : Hw :=
  (h.setBit (axr a rSTAT) 3 false).axFault a (3 - c) 3 (match c with | 0 => 4 | 1 => 5 | _ => 3)

/-- A QSTOP as a safety function or a limit issues it (R272). -/
def Hw.axQstopNow (h : Hw) (a : Nat) : Hw :=
  let st := h.axState a
  let h := h.axHigh a
  if st = sRUNNING ∨ st = sSTOPPING then h.axStop a (h.axQstopDec a) .hold
  else if st = sHOMING then (h.evt (pAX a) 8).axStop a (h.axQstopDec a) .hold
  else if st = sSTARTING then (h.setAxState a sHOLDING).axShape a
  else h

/-- Change to RUNNING: the axis record goes out of force and the profile stands where the axis stands (R265). -/
def Hw.axToRun (h : Hw) (a : Nat) : Hw :=
  let h := h.setAxis a { h.axis a with ramp := none, inForce := false }
  let p := h.axProf a
  let h := if h.pfEn p ∧ h.pfSrc p ≠ 2 then h.loadHeld p (h.reg64 (axr a 0x098)) else h
  let h := if h.pfSrc p < 2 ∧ h.pfState p ≤ 1 then h.setAxis a { h.axis a with own := h.holdRec p } else h
  ((h.setBit (axr a rSTAT) 3 false).setAxState a sRUNNING).axShape a

/-- Whether the profile of the axis stands IDLE, or its gear unit is disabled (R267, R282). -/
def Hw.axIdle (h : Hw) (a : Nat) : Bool :=
  let p := h.axProf a
  if h.pfSrc p = 2 then !h.gearDrives p else h.pfState p == 1

end Sys2Proof.Machine
end

