-- ==== Sys2Proof/Machine/Gate.lean ====
section
/-! DEFINITION. Gate status, trips and short-circuit protection (R83 to R102): the GST code, trip latches and
blanking, the di/dt detector, retries, latching, and the clears. -/

namespace Sys2Proof.Machine

def gp (off : Nat) : Nat := ra pGDP off
def axProt (a : Nat) : Nat := gp (0x800 + 4 * a)
def gstStat (n : Nat) : Nat := gp (0x600 + 4 * n)
def tripReg (t off : Nat) : Nat := gp (0x080 + 0x20 * t + off)
/-- The retry register of a class: 0 undervoltage, 1 trip, 2 short circuit (R97). -/
def retryReg (c : Nat) : Nat := gp (0x044 + 4 * c)

def grainsPerMs : Nat := 500000

/-! ### Class faults, retries, latching (R96 to R99) -/

def Hw.tries (h : Hw) (a c : Nat) : Nat := h.f (axProt a) (4 * c + 2) (4 * c)
def Hw.latched (h : Hw) (a c : Nat) : Bool := h.bit (axProt a) (24 + c)
def Hw.anyLatched (h : Hw) (a : Nat) : Bool := h.f (axProt a) 26 24 != 0

/-- The end of a retry in a class: nothing pending. -/
def Hw.retryStop (h : Hw) (a c : Nat) : Hw :=
  (h.setProt a c { h.prot a c with phase := 0 }).setBit (axProt a) (16 + c) false

/-- The legs that are enabled, as a mask. -/
def Hw.enabledMask (h : Hw) : BitVec 96 :=
  (List.range 96).foldl (fun m n => if h.legEnabled n then m ||| BitVec.ofNat 96 (2 ^ n) else m) 0

/-- Whether a leg was enabled when the present grain's protection events came: a fault that latched in this grain takes
nothing from those ranked below it (R30, R101). -/
def Hw.legWasOn (h : Hw) (n : Nat) : Bool :=
  h.legEnabled n || (decide (h.gdp.cutAt = h.grain) && h.gdp.cut.getLsbD n)

/-- FAULT_LATCH: ENABLE of every leg of the axis cleared, EVT.LATCHED and the latched bit set (R98), and the axis
faulted with the class's code (R273). -/
def Hw.faultLatch (h : Hw) (a c : Nat) : Hw :=
  let on := h.axisMask a &&& h.enabledMask
  let h := { h with gdp := { h.gdp with cut := (if h.gdp.cutAt = h.grain then h.gdp.cut else 0) ||| on, cutAt := h.grain } }
  let h := ((h.retryStop a c).axisLegsOff a).setBit (axProt a) (24 + c) true
  (h.evt pGDP 7).axProtLatched a c

/-- WAIT counts from this grain (R97 point 1). -/
def Hw.retryWait (h : Hw) (a c : Nat) : Hw :=
  (h.setProt a c { h.prot a c with phase := 1, due := h.grain + h.f (retryReg c) 13 0 * grainsPerMs }).setBit
    (axProt a) (16 + c) true

/-- Force the legs of a mask: each leg not already under protection begins a force (R78, R96). -/
def Hw.forceMask (h : Hw) (before : Hw) (mask : BitVec 96) : Hw :=
  h.each ((List.range 96).filter fun n => mask.getLsbD n && !before.protForce n) fun h n => h.forceBegin n

/-- PROTECTION_FAULT: a fault of class c on axis a, whose class force holds the legs of `mask` (R96 to R98). A new
fault of a class already latched latches again: ENABLE of every leg of the axis is cleared. -/
def Hw.protFault (h : Hw) (a c : Nat) (mask : BitVec 96) : Hw :=
  let x := h.prot a c
  let h := h.setProt a c { x with force := x.force ||| mask, lastFault := some h.grain }
  if h.latched a c then h.faultLatch a c
  else if x.phase ≠ 0 then (h.retryWait a c).axProtWait a
  else if h.f (retryReg c) 18 16 ≤ h.tries a c then h.faultLatch a c
  else (h.retryWait a c).axProtWait a

/-- Whether an axis has an enabled leg. -/
def Hw.axisEnabled (h : Hw) (a : Nat) : Bool := (h.axisLegs a).any h.legEnabled

/-- Whether an axis had an enabled leg when the present grain's protection events came. -/
def Hw.axisWasOn (h : Hw) (a : Nat) : Bool := (h.axisLegs a).any h.legWasOn

/-! ### Short circuit (R92, R95) -/

/-- A short circuit declared on a leg: every leg of the axis is forced; an axis with an enabled leg is faulted, one
without is forced until AXIS_CLR, and no retry runs; a leg of no carrier unit is forced alone (R95). Shorts declared in
one grain carry one time-stamp, that of the first (R95, log entry 152). -/
def Hw.short (h : Hw) (n ts : Nat) : Hw :=
  let ts := match h.gdp.shortAt with | some (g, t) => if g = h.grain then t else ts | none => ts
  let h := { h with gdp := { h.gdp with shortAt := some (h.grain, ts) } }
  let h := (h.evtTs pGDP 1 ts).log pGDP 3 1 n ts
  match h.legAxis n with
  | none =>
    let m : BitVec 96 := BitVec.ofNat 96 (2 ^ n)
    ({ h with gdp := { h.gdp with lone := h.gdp.lone ||| m } }).forceMask h m
  | some a =>
    let m := h.axisMask a
    let h' := h.setProt a 2 { h.prot a 2 with force := (h.prot a 2).force ||| m }
    let h' := h'.forceMask h m
    if h.axisWasOn a then h'.protFault a 2 m
    else (h'.retryStop a 2).setProt a 2 { (h'.retryStop a 2).prot a 2 with bareShort := some h.grain }

/-- The di/dt detector of leg n at a crust output c (R92, R94): the difference over the span S, blanked after a rise of
ENA, not evaluated for the first S outputs. -/
def Hw.didt (h : Hw) (n : Nat) (c : Int) (S : Nat) : Hw :=
  let past := tabGet [] n h.gdp.crust
  let h1 := { h with gdp := { h.gdp with crust := tabSet [] n ((c :: past).take 64) h.gdp.crust } }
  if 96 ≤ n then h1
  else
    let lim := h.f (gp (0x400 + 4 * n)) 15 0
    let dbl := h.f (gp (0x400 + 4 * n)) 24 16
    let blanked := (h.leg n).rises.any fun r => decide (r ≤ h.grain) && decide (h.grain < r + dbl)
    match past[S - 1]? with
    | some old =>
      if lim ≠ 0 ∧ !blanked ∧ lim ≤ (c - old).natAbs then h1.short n h.grain else h1
    | none => h1

/-! ### Gate status (R84 to R87) -/

/-- The status a period decodes to, `none` for a code error (R84). -/
def gstDecode (P H : Nat) : Option Nat :=
  if P < 2000 ∨ 3000 < P then none
  else if P ≤ 10 * H ∧ 10 * H < 3 * P then some 0
  else if 3 * P ≤ 10 * H ∧ 10 * H < 5 * P then some 1
  else if 5 * P ≤ 10 * H ∧ 10 * H < 7 * P then some 2
  else if 7 * P ≤ 10 * H ∧ 10 * H < 9 * P then some 3
  else none

/-- A status that forces the leg: the leg is safe, and an enabled leg faults its axis in the undervoltage class
(R87). -/
def Hw.statusFault (h : Hw) (n code : Nat) : Hw :=
  let was := h.protForce n
  let en := h.legWasOn n
  let h := h.setF (gstStat n) 2 0 code
  let h := if was then h.legSafe n else h.forceBegin n
  match h.legAxis n with
  | some a => if en then h.protFault a 0 (BitVec.ofNat 96 (2 ^ n)) else h
  | none => h

/-- GST_LOST declared on a leg (R85, R86). -/
def Hw.gstLost (h : Hw) (n ts : Nat) : Hw := ((h.evtTs pGDP 3 ts).log pGDP 4 3 n ts).statusFault n 5

/-- GST_PERIOD: a rising edge sampled in this grain ends a period (R84, R85). Time-stamps are the grain less the
synchroniser delay of 3 (R26). -/
def Hw.gstPeriod (h : Hw) (n P H : Nat) : Hw :=
  let ts := h.grain - 3
  let h := (h.setF (gstStat n) 31 20 (min P 0xFFF)).setF (gstStat n) 19 8 (min H 0xFFF)
  let run := tabGet {} n h.gdp.gst
  let setRun := fun (h : Hw) (r : GstRun) => { h with gdp := { h.gdp with gst := tabSet {} n r h.gdp.gst } }
  match gstDecode P H with
  | none =>
    let h := (setRun h {}).evtTs pGDP 4 ts
    let r := h.fltEvent pGDP 4 4 n ts
    if r.2 then r.1.gstLost n ts else r.1
  | some d =>
    let k := if run.code = d then run.n + 1 else 1
    let h := setRun h ⟨d, min k 4⟩
    if max 1 (h.f (gp 0x040) 2 0) ≤ k ∧ h.gstCode n ≠ d then
      if d = 0 then h.setF (gstStat n) 2 0 0
      else ((h.evtTs pGDP 2 ts).log pGDP 4 2 n ts).statusFault n d
    else h

/-- GST_HARD_FAULT: the low time has reached 6,001 grains (R86, R87). -/
def Hw.gstHard (h : Hw) (n : Nat) : Hw := (h.setF (gstStat n) 2 0 4).short n (h.grain - 3)

/-! ### Trips (R88 to R91) -/

/-- The 96-bit mask of a trip input. -/
def Hw.tripMask (h : Hw) (t : Nat) : BitVec 96 :=
  h.reg (tripReg t 0x10) ++ h.reg (tripReg t 0x0C) ++ h.reg (tripReg t 0x08)

/-- The blankings of trip t: from the grain in which a PUL edge of a guarded leg reaches the connector, up to and not
with BLANK grains later (R90). -/
def Hw.blankings (h : Hw) (t : Nat) : List (Nat × Nat) :=
  let b := h.f (tripReg t 0) 27 16
  ((List.range 96).filter (h.tripMask t).getLsbD).flatMap fun n => (h.leg n).edges.map fun e => (e, e + b)

/-- Whether trip t is blanked in a grain. -/
def Hw.tripBlanked (h : Hw) (t g : Nat) : Bool := (h.blankings t).any fun x => decide (x.1 ≤ g) && decide (g < x.2)

/-- A level of trip t is the active one (R88). -/
def Hw.tripActive (h : Hw) (t : Nat) (level : Bool) : Bool := level != h.bit (tripReg t 0) 1

/-- TRIP_STAT.INPUT: the sampled inputs that are active (R103). -/
def Hw.tripInputs (h : Hw) : Nat :=
  ((List.range 16).filter fun t => h.tripActive t (h.trip t).level).foldl (fun n t => n + 2 ^ t) 0

/-- Whether trip t has been inactive for its OFF_FILT, in grains of 2 ns (R91, R97). -/
def Hw.tripQuiet (h : Hw) (t : Nat) : Bool :=
  !h.tripActive t (h.trip t).level && decide ((h.trip t).since + 500 * h.f (tripReg t 4) 15 0 ≤ h.grain)

/-- Whether trip t can trip now: in use, and not latched. -/
def Hw.tripArmed (h : Hw) (t : Nat) : Bool := h.bit (tripReg t 0) 0 && !h.bit (gp 0x058) t

/-- A trip is recorded and latched (R89, R91, R96), its pin having changed at grain `pin`: its masked legs are forced,
and each axis that had an enabled leg is faulted in the trip class. The latch holds the legs of the mask as it stands
now: a mask written later adds none (log entry 151). -/
def Hw.tripRecord (h : Hw) (t pin ts flags : Nat) : Hw :=
  let mask := h.tripMask t
  let old := h
  let h := (h.setReg (tripReg t 0x14) (BitVec.ofNat 32 pin)).setBit (gp 0x058) t true
  let h := h.setTrip t { h.trip t with mask, held := false, async := none, asyncMask := 0, lastCycle := some h.cycle }
  let h := (h.bump (tripReg t 0x18) 15 0).evtTs pGDP 0 ts
  let h := (h.log pGDP 5 0 t ts flags).acqEvent 5 t ts
  let hit := (List.range 32).filter fun a => (old.axisMask a &&& mask) != 0 && old.axisWasOn a
  let h := h.forceMask old mask
  h.each hit fun h a => h.protFault a 1 (h.axisMask a &&& mask)

/-- The pin of trip t comes to a level: on the asynchronous path an active level outside blanking latches and draws ENA
of the masked legs low without waiting for a grain (R27, R89). -/
def Hw.tripPin (h : Hw) (t : Nat) (level : Bool) : Hw :=
  let x := { h.trip t with pin := level, pinAt := h.grain }
  if h.tripArmed t && h.bit (tripReg t 0) 2 && h.tripActive t level && x.async.isNone && !h.tripBlanked t h.grain then
    h.setTrip t { x with async := some h.grain, asyncMask := h.tripMask t }
  else h.setTrip t x

/-- The trip inputs as an acquisition channel takes them, for grain ts (R346). -/
def Hw.tripNote (h : Hw) (ts : Nat) : Hw := h.acqNote 7 0 ts h.tripInputs

/-- The sample of trip t as this grain takes it in; the pin had it 3 grains before (R26). -/
def Hw.tripLevel (h : Hw) (t : Nat) (level : Bool) : Hw :=
  let x := h.trip t
  (h.setTrip t { x with level, since := if level = x.level then x.since else h.grain,
                        pin := if h.grain < x.pinAt + 3 then x.pin else level,
                        pinAt := if h.grain < x.pinAt + 3 ∨ level = x.pin then x.pinAt else h.grain - 3 }).tripNote (h.grain - 3)

/-- A change of trip t is held back by blanking (R90): FIRST_TS is kept for it. -/
def Hw.tripHold (h : Hw) (t pin : Nat) : Hw :=
  (h.setReg (tripReg t 0x14) (BitVec.ofNat 32 pin)).setTrip t { h.trip t with held := true, heldTs := pin }

/-- Trip t is sampled active (R88 to R90). On the asynchronous path it trips outside blanking, and in the first grain
after it where the pin is active still; a change inside blanking is held back. -/
def Hw.tripSampled (h : Hw) (t : Nat) (rose : Bool) : Hw :=
  let ts := h.grain - 3
  let x := h.trip t
  if h.bit (tripReg t 0) 2 then
    if h.tripBlanked t ts then
      match [ts + 1, ts + 2, ts + 3].find? fun g => !h.tripBlanked t g with
      | some g => if h.tripActive t x.pin || decide (g < x.pinAt) then h.tripRecord t ts g fBLANKED else h.tripHold t ts
      | none => if x.held then h else h.tripHold t ts
    else h.tripRecord t ts ts 0
  else if rose && h.tripBlanked t h.grain then h.tripHold t ts else h

/-- TRIP_ASSERT: input t comes to a level, at its pin or, 3 grains later, as it is sampled. A latch that the pin has set
on the asynchronous path is recorded when it is sampled, whatever the level then (R89). A change held back that ends
inside blanking is counted (R101). -/
def Hw.tripAssert (h : Hw) (t : Nat) (level sampled : Bool) : Hw :=
  if !sampled then h.tripPin t level
  else
    let rose := level != (h.trip t).level
    let h := h.tripLevel t level
    let x := h.trip t
    match x.async with
    | some p => if h.tripArmed t then h.tripRecord t p p 0 else h.setTrip t { x with async := none, asyncMask := 0 }
    | none =>
      if h.tripActive t level then (if h.tripArmed t then h.tripSampled t rose else h)
      else if x.held then
        let inside := h.tripBlanked t (if h.bit (tripReg t 0) 2 then h.grain - 3 else h.grain)
        (h.setTrip t { x with held := false }).when (inside && h.tripArmed t) fun h => h.bump (tripReg t 0x18) 31 16
      else h

/-- The first grain of the run of active samples of trip t outside blanking that the present grain continues (R88, R90). -/
def Hw.tripRun (h : Hw) (t : Nat) : Nat :=
  (h.blankings t).foldl (fun n x => if x.1 < x.2 ∧ x.2 ≤ h.grain then max n x.2 else n) (h.trip t).since

/-- TRIP_FILTERED: without ASYNC, the input has been sampled active in ON_FILT + 1 consecutive grains outside blanking
(R88). A run that begins after blanking carries its first grain and BLANKED (R90). -/
def Hw.tripFiltered (h : Hw) (t : Nat) : Hw :=
  let x := h.trip t
  let first := h.tripRun t
  if !h.tripArmed t || h.bit (tripReg t 0) 2 || !h.tripActive t x.level || h.tripBlanked t h.grain
      || decide (h.grain < first + h.f (tripReg t 0) 15 8) then h
  else if first = x.since then h.tripRecord t (first - 3) (first - 3) 0
  else h.tripRecord t (x.since - 3) first fBLANKED

/-- TRIP_BLANK_END: the first grain after blanking of input t: with ASYNC an input still active at its pin trips there,
on both paths (R90, R101); without it, its run of samples begins. -/
def Hw.tripBlankEnd (h : Hw) (t : Nat) : Hw :=
  let x := h.trip t
  if !h.bit (tripReg t 0) 2 then h.tripFiltered t
  else if h.tripArmed t && h.tripActive t x.pin && h.tripBlanked t (h.grain - 1) && !h.tripBlanked t h.grain then
    h.tripRecord t (if x.held then x.heldTs else x.pinAt) h.grain fBLANKED
  else h

/-- Clear a trip latch: its force ends (R91). -/
def Hw.unlatch (h : Hw) (t : Nat) : Hw := (h.setBit (gp 0x058) t false).setTrip t { h.trip t with mask := 0 }

/-- TRIP_CLR: a latch whose input has been inactive for its OFF_FILT clears; a clear of any other, or in the cycle of a
new trip, is refused (R91, R101). -/
def Hw.tripClr (h : Hw) (mask : BitVec 16) : Hw :=
  h.each ((List.range 16).filter fun t => mask.getLsbD t && h.bit (gp 0x058) t) fun h t =>
    if h.tripQuiet t ∧ (h.trip t).lastCycle ≠ some h.cycle then h.unlatch t
    else (h.w1cSet (gp 0x05C) t).evt pGDP 5

/-- A write of TRIPt_CFG acts from the grain after it (R88): with another POL the input's activity begins anew there. -/
def Hw.tripCfg (h : Hw) (t : Nat) (write : Hw → Hw) : Hw :=
  (write h).when (h.bit (tripReg t 0) 1 != (write h).bit (tripReg t 0) 1) fun k =>
    (k.setTrip t { k.trip t with since := k.grain + 1 }).tripNote (k.grain + 1)

/-! ### Retries (R97) -/

/-- The condition of a retry (R97 point 2). -/
def Hw.retryCond (h : Hw) (a c : Nat) : Bool :=
  if c = 0 then (List.range 96).all fun n => !(h.prot a 0).force.getLsbD n || h.gstCode n == 0
  else if c = 1 then
    (List.range 16).all fun t =>
      !(h.bit (gp 0x058) t && ((h.trip t).mask &&& h.axisMask a) != 0) || h.tripQuiet t
  else (h.axisLegs a).all fun n => h.gstCode n == 0

/-- Whether another axis lets a latch clear: it has no enabled leg, or a trip fault of its own is pending (R97). -/
def Hw.latchFree (h : Hw) (a : Nat) : Bool := (h.prot a 1).phase != 0 || !h.axisEnabled a

/-- The retry acts (R97 point 3). -/
def Hw.retryAct (h : Hw) (a c : Nat) : Hw :=
  let h := (h.retryStop a c).setF (axProt a) (4 * c + 2) (4 * c) (min 7 (h.tries a c + 1))
  let h := (h.setProt a c { h.prot a c with force := 0 }).evt pGDP 6
  if c = 1 then
    h.each ((List.range 16).filter fun t =>
        h.bit (gp 0x058) t && ((h.trip t).mask &&& h.axisMask a) != 0) fun h t =>
      let others := (List.range 32).filter fun b => b != a && ((h.trip t).mask &&& h.axisMask b) != 0
      if others.all h.latchFree then h.unlatch t else h
  else h

/-- RETRY_WAIT_EXPIRY: WAIT has ended; the retry acts, or waits for its condition at most one further WAIT. -/
def Hw.retryExpiry (h : Hw) (a c : Nat) : Hw :=
  let x := h.prot a c
  if x.phase = 1 ∧ x.due ≤ h.grain then
    if h.retryCond a c then h.retryAct a c
    else h.setProt a c { x with phase := 2, due := h.grain + h.f (retryReg c) 13 0 * grainsPerMs }
  else h

/-- RETRY_ACT: the condition comes to hold during the further wait. -/
def Hw.retryLate (h : Hw) (a c : Nat) : Hw :=
  if (h.prot a c).phase = 2 ∧ h.retryCond a c then h.retryAct a c else h

/-- RETRY_TIMEOUT: the further wait has ended: the fault latches unless its condition holds now. -/
def Hw.retryTimeout (h : Hw) (a c : Nat) : Hw :=
  let x := h.prot a c
  if x.phase = 2 ∧ x.due ≤ h.grain then
    if h.retryCond a c then h.retryAct a c else h.faultLatch a c
  else h

/-- TRY_COUNT_FORGET: FORGET has passed since the last fault of the class (R99). -/
def Hw.tryForget (h : Hw) (a c : Nat) : Hw :=
  match (h.prot a c).lastFault with
  | some g => if g + h.f (retryReg c) 31 24 * grainsPerSec ≤ h.grain
      then h.setF (axProt a) (4 * c + 2) (4 * c) 0 else h
  | none => h.setF (axProt a) (4 * c + 2) (4 * c) 0

/-- AXIS_CLR of one axis (R100, R101). It ends the force of a short circuit on a leg that belonged to no carrier unit and
has come to the axis (log entry 153). -/
def Hw.axisClrOne (h : Hw) (a : Nat) : Hw :=
  let fresh := [0, 1, 2].any fun c => (h.prot a c).lastFault == some h.grain || (h.prot a c).bareShort == some h.grain
  let cause := (h.axisLegs a).any fun n => h.gstCode n != 0 || h.tripForce n
  if fresh || cause then h.evt pGDP 5
  else
    let h := h.each [0, 1, 2] fun h c =>
      ((h.retryStop a c).setBit (axProt a) (24 + c) false).setProt a c { (h.retryStop a c).prot a c with force := 0 }
    let h := { h with gdp := { h.gdp with lone := h.gdp.lone &&& ~~~(h.axisMask a) } }
    let h := h.axisLegsOff a
    let st := h.axState a
    if st = sOFF ∨ st = sFAULT then h else h.axOff a

/-- AXIS_CLR (R100). -/
def Hw.axisClr (h : Hw) (mask : Word) : Hw :=
  h.each ((List.range 32).filter fun a => bitOf mask a) fun h a => h.axisClrOne a

/-- GDP_SOFT_RESET (R102): accepted while no leg is enabled. The pins of the trip inputs stand as they do. Every leg
comes under its status force, which begins on those that no protection held (R78). -/
def Hw.gdpReset (h : Hw) : Hw :=
  let free := (List.range 96).filter fun n => !h.protForce n
  let trips := (List.range 16).foldl (fun l t =>
    let x := h.trip t
    let since := if h.bit (tripReg t 0) 1 then h.grain else x.since
    tabSet ({} : TripS) t { level := x.level, pin := x.pin, pinAt := x.pinAt, since } l) []
  ({ h.pageReset pGDP with gdp := { crust := h.gdp.crust, trips } }).each free Hw.forceBegin

/-- GDP.STAT (R102). -/
def Hw.gdpStat (h : Hw) : Word :=
  let force := (List.range 96).any h.protForce
  let lat := (List.range 32).any h.anyLatched
  let retry := (List.range 32).any fun a => h.f (axProt a) 18 16 != 0
  BitVec.ofNat 32 ((if force then 1 else 0) + (if lat then 2 else 0) + (if retry then 4 else 0))

/-- GDP.READY.GST_SYNC (R102). -/
def Hw.gstSync (h : Hw) : Bool :=
  let bs := (List.range 32).filter fun b => (h.bridgeAxis b).isSome
  !bs.isEmpty && (legsOf bs).all fun n => h.gstCode n != 7

/-! ### The commands of the family -/

/-- GST_PERIOD. -/
def execGstPeriod (g : Nat) (leg : Fin 96) (period high : Nat) (s : State) :=
  run g (fun _ h => h.gstPeriod leg period high) s
/-- GST_HARD_FAULT. -/
def execGstHardFault (g : Nat) (leg : Fin 96) (s : State) := run g (fun _ h => h.gstHard leg) s
/-- GST_STUCK_HIGH: GST held high for more than 6,000 grains is GST_LOST (R86). -/
def execGstStuckHigh (g : Nat) (leg : Fin 96) (s : State) := run g (fun _ h => h.gstLost leg (h.grain - 3)) s
/-- TRIP_ASSERT. -/
def execTripAssert (g : Nat) (t : Fin 16) (level sampled : Bool) (s : State) :=
  run g (fun _ h => h.tripAssert t level sampled) s
/-- TRIP_FILTERED. -/
def execTripFiltered (g : Nat) (t : Fin 16) (s : State) := run g (fun _ h => h.tripFiltered t) s
/-- TRIP_BLANK_END. -/
def execTripBlankEnd (g : Nat) (t : Fin 16) (s : State) := run g (fun _ h => h.tripBlankEnd t) s
/-- TRIP_CLR. -/
def execTripClr (g : Nat) (mask : BitVec 16) (s : State) :=
  run g (fun _ h => h.swWrite pGDP 0x050 fun h => h.tripClr mask) s
/-- DIDT_BLANK_END: the di/dt blank of a leg ends; ENA rises whose blank has passed are no longer kept (R94). -/
def execDidtBlankEnd (g : Nat) (leg : Fin 96) (s : State) :=
  run g (fun _ h =>
    let dbl := h.f (gp (0x400 + 4 * leg)) 24 16
    h.setLeg leg { h.leg leg with rises := (h.leg leg).rises.filter fun r => decide (h.grain < r + dbl) }) s
/-- RETRY_WAIT_EXPIRY. -/
def execRetryWaitExpiry (g : Nat) (axis : Fin 32) (cls : Fin 3) (s : State) :=
  run g (fun _ h => h.retryExpiry axis cls) s
/-- RETRY_ACT. -/
def execRetryAct (g : Nat) (axis : Fin 32) (cls : Fin 3) (s : State) := run g (fun _ h => h.retryLate axis cls) s
/-- RETRY_TIMEOUT. -/
def execRetryTimeout (g : Nat) (axis : Fin 32) (cls : Fin 3) (s : State) := run g (fun _ h => h.retryTimeout axis cls) s
/-- TRY_COUNT_FORGET. -/
def execTryCountForget (g : Nat) (axis : Fin 32) (cls : Fin 3) (s : State) := run g (fun _ h => h.tryForget axis cls) s
/-- AXIS_CLR. -/
def execAxisClr (g : Nat) (mask : Word) (s : State) :=
  run g (fun _ h => h.swWrite pGDP 0x054 fun h => h.axisClr mask) s

end Sys2Proof.Machine
end

