-- ==== Sys2Proof/Machine/Sdm.lean ====
section
/-! DEFINITION. Sigma-delta sensing (R104 to R118): the filters, the conversions, calibration, and the loss of a
channel or of its clock. -/

namespace Sys2Proof.Machine

def sd (n off : Nat) : Nat := ra (pSDM n) off
def Hw.sdmS (h : Hw) (n : Nat) : SdmS := tabGet {} n h.sdm
def Hw.setSdm (h : Hw) (n : Nat) (x : SdmS) : Hw := { h with sdm := tabSet {} n x h.sdm }

/-- The temperature band in force: 0 A to 3 D (R446). -/
def Hw.band (h : Hw) : Nat := h.f (ra pTHM rSTAT) 5 4

/-- The clock a channel is captured against (R104). -/
def Hw.sdmClk (h : Hw) (n : Nat) : Nat := h.f (sd n 0x040) 15 14 + if n < 56 then 0 else 4

/-- The divider N of DCLKm in force (R105). -/
def Hw.dclkN (h : Hw) (m : Nat) : Nat := h.f (sd m 0x080) 7 0

/-- Whether an enabled channel is captured against DCLKm (R105). -/
def Hw.dclkUsed (h : Hw) (m : Nat) : Bool := (List.range 112).any fun n => h.bit (sd n rCTRL) 0 && h.sdmClk n == m

/-- Whether a channel is lost (R115). -/
def Hw.sdmLost (h : Hw) (n : Nat) : Bool := h.bit (sd n rSTAT) 1 || h.bit (sd n rSTAT) 2

/-- A lasting sensor fault of a channel reaches the axis that owns leg n (R114, R273); channels 96 to 111 belong to
none. -/
def Hw.sdmFault (h : Hw) (n : Nat) : Hw :=
  if n < 96 then
    match h.legAxis n with
    | some a => h.axFault a 5 (h.f (axr a 0x04C) 1 0) 10
    | none => h
  else h

/-- Whether the bridge named by ALIGN has a valid carrier (R111). -/
def Hw.sdmCarrier (h : Hw) (n : Nat) : Bool :=
  match h.bridgeAxis (h.f (sd n 0x044) 20 16) with
  | some c => h.period c != 0
  | none => false

/-! ### The filters (R109, R113) -/

def triangle (k : Nat) : Nat := k * (k + 1) / 2

/-- Weight i of the sinc3 filter of ratio M, i below 3M − 2; the weights sum to M³. -/
def sinc3 (M i : Nat) : Nat :=
  triangle (i + 1) + 3 * triangle (i + 1 - 2 * M) - 3 * triangle (i + 1 - M)

/-- Weight i of the sinc2 filter of ratio M, i below 2M − 1; the weights sum to M². -/
def sinc2 (M i : Nat) : Nat := if i < M then i + 1 else 2 * M - 1 - i

/-- The weighted sum of a run of bits, oldest first. -/
def weighted (w : Nat → Nat) (bits : List Bool) : Nat :=
  ((bits.zipIdx).map fun b => if b.1 then w b.2 else 0).sum

/-- A result limited to n bits, and whether the limit acted. -/
def satBits (n : Nat) (v : Int) : Int × Bool :=
  let r := clip (-(2 : Int) ^ (n - 1)) ((2 : Int) ^ (n - 1) - 1) v
  (r, r != v)

/-- A crumb conversion's y and SAT (R109): GAIN and OFFSET as register words. -/
def crumb (M sigma : Nat) (gain offset : Word) : Int × Bool :=
  let W : Int := (M ^ 3 : Nat)
  let g := signed 24 (fld gain 23 0)
  let o := signed 24 (fld offset 23 0)
  satBits 24 (roundHalfEven (g * ((2 * (sigma : Int) - W) * 2 ^ 23 + o * W)) (M ^ 3 * 2 ^ 22))

/-! ### Capture (R105, R106) -/

/-- The instant from which DCLKm's divider counts at fine time t (R408). -/
def Hw.divStart (h : Hw) (m t : Nat) : Nat := ((h.sdmS m).div.find? fun s => decide (s ≤ t)).getD 0

/-- A DCLK period in fine steps: N / 4 grains. -/
def Hw.dclkFine (h : Hw) (m : Nat) : Nat := 8 * h.dclkN m

/-- Whether a capture edge may lie at fine time t: anywhere while the partner drives DCLKm, at the divider's rising edges
while the module does (R105). -/
def Hw.edgeAt (h : Hw) (m t : Nat) : Bool :=
  !h.drives || (t - h.divStart m t) % h.dclkFine m == 0

/-- The capture edge before the one at t. -/
def Hw.edgeBefore (h : Hw) (m t : Nat) : Nat :=
  let s := h.divStart m t
  if h.drives && s == t then let r := h.divStart m (t - 1); r + (t - 1 - r) / h.dclkFine m * h.dclkFine m
  else t - h.dclkFine m

/-- The capture edge n before the one at t. -/
def Hw.edgeBack (h : Hw) (m : Nat) : Nat → Nat → Nat
  | 0, t => t
  | n + 1, t => h.edgeBack m n (h.edgeBefore m t)

/-- n capture edges up to the one at t, oldest first. -/
def Hw.edgesTo (h : Hw) (m : Nat) : Nat → Nat → List Nat → List Nat
  | 0, _, l => l
  | n + 1, t, l => h.edgesTo m n (h.edgeBefore m t) (t :: l)

/-- A value at fine time t, given what it is now and what it was before each recent change, newest first: a change acts
after the grain it falls in. -/
def valueAt {α : Type} (t : Nat) : α → List (Nat × α) → α
  | now, [] => now
  | now, (g, was) :: l => if t ≤ 32 * g then valueAt t was l else now

/-- SPD at a capture edge: the field of the band then in force; a change acts from the next edge (R106). -/
def Hw.spdAt (h : Hw) (n t : Nat) : Nat :=
  let b := valueAt t h.band h.sup.bands
  fld (valueAt t (h.reg (sd n 0x060)) (h.sdmS n).spdOld) (8 * b + 5) (8 * b)

/-- The grain in which the bit of a capture edge is taken: at the first GCLK edge at least SPD grains after it (R106). -/
def Hw.takenAt (h : Hw) (n t : Nat) : Nat := (t + 31) / 32 + h.spdAt n t

/-- The level of a data input in a grain. -/
def bitsLevel (d : SdmBits) (g : Nat) : Bool := d.first != ((d.toggles.countP (decide <| · ≤ g)) % 2 == 1)

/-- The L bits up to the last capture edge, oldest first, as they are taken (R106). -/
def Hw.sdmTaken (h : Hw) (n L : Nat) (d : SdmBits) : List Bool :=
  (h.edgesTo (h.sdmClk n) L d.last []).map fun e => bitsLevel d (h.takenAt n e)

/-! ### Placing conversions (R110 to R112) -/

/-- The settings of a channel in force. -/
def Hw.sdmNow (h : Hw) (n : Nat) : SdmSet :=
  ⟨h.reg (sd n 0x040), h.reg (sd n 0x044), h.reg (sd n 0x048), h.reg (sd n 0x04C), h.reg (sd n 0x050), h.reg (sd n 0x054)⟩

/-- A list of settings, newest first, each with the grains from and before which it is in force (R112). -/
def settingSpans (s : SdmSet) (hi : Option Nat) : List (Nat × SdmSet) → List (Nat × Option Nat × SdmSet)
  | [] => [(0, hi, s)]
  | (g, o) :: t => (g, hi, s) :: settingSpans o (some g) t

/-- The target positions of a bridge's period P under settings s (R111). -/
def SdmSet.points (s : SdmSet) (P : Nat) : List Nat :=
  match fld s.align 25 24 with
  | 0 => [16 * P]
  | 1 => [0]
  | 2 => [0, 16 * P]
  | _ => [fld s.pos 28 0]

/-- Whether settings s place conversions on a carrier: CARRIER is set and the bridge has a valid one (R111). -/
def Hw.setAligned (h : Hw) (s : SdmSet) : Bool :=
  bitOf s.align 0 && (match h.bridgeAxis (fld s.align 20 16) with | some c => h.period c != 0 | none => false)

/-- A conversion as placed: its settings, its centre in fine steps, its target, whether targets merged in it. -/
structure SdmPlace where
  set : SdmSet
  centre : Int
  target : Option Nat
  merged : Bool
  deriving DecidableEq, Repr

/-- The centre of a window of L bits that ends with the bit of edge `last`: the midpoint of the instants of its first and
last bits, each its capture edge plus SKEW (R110). -/
def Hw.sdmCentre (h : Hw) (n L : Nat) (skew : Word) (last : Nat) : Int :=
  ((h.edgeBack (h.sdmClk n) (L - 1) last + last : Nat) : Int) / 2 + 32 * signed 8 (fld skew 7 0)

/-- Whether the free conversions of a channel reach their end with the bit of edge `last`: the first when L bits have been
taken, one every M bits after (R111, R117). -/
def Hw.freeEnd (h : Hw) (n M last : Nat) : Bool :=
  let m := h.sdmClk n
  match (h.sdmS n).lastEnd with
  | some e => h.edgeBack m M last == e
  | none => decide (h.edgeBack m (3 * M - 2) last < (h.sdmS n).from_)

/-- The conversion that ends with the bit of edge `last`: under the settings in force at its target, whose nearest window
it is, the earlier on a tie; or, in free mode, at its end (R111, R112). Of targets that choose one window DATA_ERR is
taken from the first (log entry 156). -/
def Hw.sdmPlace (h : Hw) (n last : Nat) : Option SdmPlace :=
  let x := h.sdmS n
  let half : Int := h.dclkFine (h.sdmClk n) / 2
  (settingSpans (h.sdmNow n) none x.old).findSome? fun (lo, hi, s) =>
    let M := fld s.cfg 8 0
    let C := h.sdmCentre n (3 * M - 2) s.skew last
    let inForce := fun g => decide (lo ≤ g) && (match hi with | some u => decide (g < u) | none => true)
    if h.setAligned s then
      let ts := (h.bridgeTimes (fld s.align 20 16) s.points).filter fun T =>
        inForce (T / 32) && decide (-half ≤ C - T) && decide (C - T < half)
      match ts.min? with
      | some T => some ⟨s, C, some T, decide (1 < ts.length)⟩
      | none => none
    else if inForce (last / 32) && h.freeEnd n M last then some ⟨s, C, none, false⟩ else none

/-- Whether the bit of edge `last`, just taken, can end a conversion now: an edge of its clock, after the last
conversion's, whose bit was taken within the 12 grains before (R106, R110). -/
def Hw.sdmDue (h : Hw) (n last : Nat) : Bool :=
  h.edgeAt (h.sdmClk n) last && decide (h.takenAt n last ≤ h.grain) && decide (h.grain ≤ h.takenAt n last + 12) &&
    (match (h.sdmS n).lastEnd with | some e => decide (e < last) | none => true)

/-- A conversion of a lost channel (R115): VALID is 0, the last valid y stays. -/
def Hw.sdmVoid (h : Hw) (n seq : Nat) (p : SdmPlace) : Hw :=
  let h := h.setReg (sd n 0x068) (BitVec.ofNat 32 (h.f (sd n 0x068) 31 8 * 256 + seq * 16))
  let h := h.setReg (sd n 0x06C) (BitVec.ofNat 32 (match p.target with | some T => T / 32 | none => p.centre.toNat / 32))
  (h.setReg (sd n 0x070) 0).setBit (sd n rSTAT) 0 false

/-- A conversion of bits (R109, R110, R114). -/
def Hw.sdmValue (h : Hw) (n seq : Nat) (p : SdmPlace) (bits : List Bool) : Hw :=
  let M := fld p.set.cfg 8 0
  let C := p.centre.toNat
  let sigma := weighted (sinc3 M) bits
  let y := crumb M sigma p.set.gain p.set.offset
  let ovr := decide (h.f (sd n 0x058) 22 0 * M ^ 3 ≤ (2 * (sigma : Int) - (M ^ 3 : Nat)).natAbs * 2 ^ 23)
  let word := unsign 24 y.1 * 256 + seq * 16 + (if y.2 then 4 else 0) + (if ovr then 2 else 0) + 1
  let h := (h.setReg (sd n 0x068) (BitVec.ofNat 32 word)).setReg (sd n 0x06C) (BitVec.ofNat 32 (C / 32))
  let h := h.setReg (sd n 0x070) (match p.target with
    | some T => BitVec.ofNat 32 (unsign 16 (p.centre - T))
    | none => 0)
  let h := (h.setBit (sd n rSTAT) 0 true).setBit (sd n rREADY) 2 true
  let h := h.acqNote 1 n ((C + 31) / 32) (unsign 24 y.1)
  if ovr then
    let h := (h.evt (pSDM n) 1).bump (sd n 0x078) 15 0
    let r := h.fltEvent (pSDM n) 10 1 n h.grain
    if r.2 then r.1.sdmFault n else r.1
  else h

/-- SDM_CONVERSION: a conversion is ready (R109 to R111, R114, R115): the one that ends with the bit of capture edge
`d.last`, if one does. -/
def Hw.sdmConv (h : Hw) (n : Nat) (d : SdmBits) : Hw :=
  if !h.bit (sd n rCTRL) 0 || !h.sdmDue n d.last then h
  else
    match h.sdmPlace n d.last with
    | none => h
    | some p =>
      let L := 3 * fld p.set.cfg 8 0 - 2
      let seq := (h.f (sd n 0x068) 7 4 + 1) % 16
      let done := fun (h : Hw) => (h.setSdm n { h.sdmS n with lastEnd := some d.last }).when p.merged (·.evt (pSDM n) 5)
      if h.sdmLost n then (if h.bit (sd n rSTAT) 1 && p.target.isNone then h else (done h).sdmVoid n seq p)
      else if h.edgeBack (h.sdmClk n) (L - 1) d.last < (h.sdmS n).from_ then h
      else (done h).sdmValue n seq p (h.sdmTaken n L d)

/-- Whether a crust output is made with the bit of edge `last`: the first after 2Mc - 1 bits, one every Mc bits after
(R113, R117). -/
def Hw.crustDue (h : Hw) (n Mc last : Nat) : Bool :=
  let m := h.sdmClk n
  let x := h.sdmS n
  h.edgeAt m last && decide (h.takenAt n last ≤ h.grain) &&
    (match x.crustEnd with
     | some e => h.edgeBack m Mc last == e
     | none => decide (x.crustFrom ≤ h.edgeBack m (2 * Mc - 2) last) && decide (h.edgeBack m (2 * Mc - 1) last < x.crustFrom))

/-- CRUST_OUTPUT: a crust output of an evaluated channel, which the di/dt detector takes (R113, R92). -/
def Hw.sdmCrust (h : Hw) (n : Nat) (d : SdmBits) : Hw :=
  let Mc := h.f (sd n 0x040) 21 16
  if !h.bit (sd n rCTRL) 0 || h.sdmLost n || !h.crustDue n Mc d.last then h
  else
    let W : Int := (Mc ^ 2 : Nat)
    let bits := h.sdmTaken n (2 * Mc - 1) d
    let c := (satBits 16 (roundHalfEven ((2 * (weighted (sinc2 Mc) bits : Int) - W) * 2 ^ 15) (Mc ^ 2))).1
    let h := h.setSdm n { h.sdmS n with crustEnd := some d.last }
    let h := (h.setReg (sd n 0x074) (BitVec.ofNat 32 (unsign 16 c))).setBit (sd n rREADY) 2 true
    let C := (h.sdmCentre n (2 * Mc - 1) (h.reg (sd n 0x04C)) d.last).toNat
    h.acqNote 2 n ((C + 31) / 32) (unsign 16 c * 256) |>.didt n c (h.f (sd n 0x040) 28 24)

/-- The crust filter restarts: the detector skips its first S outputs (R113). -/
def Hw.crustRestart (h : Hw) (n : Nat) : Hw :=
  let h := h.setSdm n { h.sdmS n with crustFrom := 32 * h.grain, crustEnd := none }
  { h with gdp := { h.gdp with crust := tabSet [] n [] h.gdp.crust } }

/-- Whether bits arrive at a channel as far as the module knows: it is enabled, its clock is driven, by the module or,
where the module does not own the backplane, by its partner, and not lost (R105, R115). -/
def Hw.sdmArrive (h : Hw) (n : Nat) : Bool :=
  let c := sd (h.sdmClk n) 0x080
  h.bit (sd n rCTRL) 0 && (h.bit c 16 || !h.drives) && !h.bit c 24

/-- A channel starts, at its enable, at the start of its clock or after a loss (R115, R117). -/
def Hw.sdmStart (h : Hw) (n : Nat) : Hw :=
  let h := ((h.setF (sd n rSTAT) 0 0 0).setBit (sd n rSTAT) 2 false).setBit (sd n 0x068) 0 false
  let h := h.setSdm n { h.sdmS n with from_ := 32 * h.grain + 1, lastEnd := none }
  ((h.setBit (sd n rSTAT) 1 (h.bit (sd (h.sdmClk n) 0x080) 24)).setBit (sd n rREADY) 2 (h.sdmArrive n)).crustRestart n

/-- CTRL.ENABLE of a channel (R116, R117). -/
def Hw.sdmEnable (h : Hw) (n : Nat) (on : Bool) : Hw :=
  if on = h.bit (sd n rCTRL) 0 then h
  else if on then (h.setBit (sd n rCTRL) 0 true).sdmStart n
  else ((h.setBit (sd n rCTRL) 0 false).setBit (sd n rREADY) 2 false).crustRestart n

/-- SDM_CAL: a calibration of the sample point starts (R108). -/
def Hw.sdmCal (h : Hw) (n : Nat) : Hw :=
  (h.setBit (sd n rSTAT) 5 true).setSdm n { h.sdmS n with cal := some h.grain }

/-- The length of the run of true from the head of a list. -/
def runLen : List Bool → Nat
  | true :: t => runLen t + 1
  | _ => 0

/-- The longest cyclic run of true in a list: its first place and its length; of equal runs the first. -/
def longestRun (l : List Bool) : Nat × Nat :=
  (List.range l.length).foldl (fun best i =>
    let n := runLen (l.drop i ++ l.take i)
    if best.2 < n then (i, n) else best) (0, 0)

/-- SPD changes: what it was is kept for the capture edges before (R106). -/
def Hw.spdChange (h : Hw) (n : Nat) (write : Hw → Hw) : Hw :=
  let was := h.reg (sd n 0x060)
  let k := write h
  k.setSdm n { k.sdmS n with spdOld := (h.grain, was) :: (k.sdmS n).spdOld.take 7 }

/-- SDM_CAL_DONE: the sweep is complete; `disagree` counts the disagreements at each sample point (R108). A sweep in which
the band changed leaves EYE as it was (log entry 158). -/
def Hw.sdmCalDone (h : Hw) (n : Nat) (disagree : List Nat) : Hw :=
  match (h.sdmS n).cal with
  | none => h
  | some start =>
    let band := h.band
    let moved := h.sup.bands.any fun e => decide (start ≤ e.1)
    let Q := h.dclkN (h.sdmClk n) / 4
    let ok := (List.range Q).map fun i => disagree[i]? == some 0
    let eye := longestRun ok
    let h := (h.setBit (sd n rSTAT) 5 false).setSdm n { h.sdmS n with cal := none }
    if eye.2 = 0 ∨ moved then h.evt (pSDM n) 4
    else
      let h := (h.setF (sd n 0x064) 5 0 eye.1).setF (sd n 0x064) 21 16 eye.2
      (h.spdChange n fun h => h.setF (sd n 0x060) (8 * band + 5) (8 * band) ((eye.1 + (eye.2 - 1) / 2) % Q)).setBit
        (sd n rREADY) 1 true

/-- SDM_DATA_STUCK: the data has held one value for `held` bits, which STUCK_LIM calls lost (R115). -/
def Hw.sdmStuck (h : Hw) (n held : Nat) : Hw :=
  if h.bit (sd n rCTRL) 0 && !h.sdmLost n && decide (h.f (sd n 0x05C) 9 0 ≤ held) then
    (((h.setBit (sd n rSTAT) 2 true).setBit (sd n rREADY) 2 false).evt (pSDM n) 2).sdmFault n
  else h

/-- DCLK_LOST: no rising edge of DCLKm at the pin since fine time `since`, four expected periods or more (R115). -/
def Hw.dclkLost (h : Hw) (m since : Nat) : Hw :=
  if 32 * h.grain + 31 < since + 4 * h.dclkFine m ∨ h.bit (sd m 0x080) 24 then h
  else
  (h.setBit (sd m 0x080) 24 true).each ((List.range 112).filter fun n => h.sdmClk n == m) fun h n =>
    let h := ((h.setBit (sd n rSTAT) 1 true).setBit (sd n rREADY) 2 false).evt (pSDM n) 3
    if h.bit (sd n rCTRL) 0 then h.sdmFault n else h

/-- SDM_CHANNEL_RESTART: the data moves again, or edges return (R115). -/
def Hw.sdmRestart (h : Hw) (n : Nat) : Hw :=
  let h := h.when (h.bit (sd n rSTAT) 1) fun h => h.setBit (sd (h.sdmClk n) 0x080) 24 false
  h.sdmStart n

/-- SDMn.STAT (R118). -/
def Hw.sdmStat (h : Hw) (n : Nat) : Word :=
  let w := putFld (h.reg (sd n rSTAT)) 3 3 (if h.bit (sd n rREADY) 2 then 0 else 1)
  putFld w 4 4 (if h.bit (sd n rCTRL) 0 && h.bit (sd n 0x044) 0 && !h.sdmCarrier n then 1 else 0)

/-- The check of an SDM GO (R105, R117); in a pair N must divide 4 × BATCH (R408). -/
def Hw.sdmSetOk (h : Hw) (n : Nat) : Bool :=
  let c := h.shd (sd n 0x040)
  let ok := fun lo hi v => decide (lo ≤ v) && decide (v ≤ hi)
  let clk := h.shd (sd n 0x080)
  let N := fld clk 7 0
  let changes := N != h.dclkN n || (h.bit (sd n 0x080) 16 && !bitOf clk 16)
  ok 32 256 (fld c 8 0) && ok 8 32 (fld c 21 16) && ok 2 16 (fld c 28 24) &&
    (!decide (n < 8) ||
      (ok 40 200 N && !(changes && h.dclkUsed n) && (!h.bit (ra pPAIR 0x040) 0 || 4 * h.batch % N == 0)))

/-- In a pair every DCLK divider restarts its count at each batch boundary (R408). -/
def Hw.dclkBoundary (h : Hw) : Hw :=
  h.when (h.bit (ra pPAIR 0x040) 0) fun h => h.each ((List.range 8).filter fun m => h.bit (sd m 0x080) 16) fun h m =>
    h.setSdm m { h.sdmS m with div := (32 * h.grain) :: (h.sdmS m).div.take 15 }

/-- The commit point of an SDM page (R112, R113): the settings replaced are kept for conversions placed before it. A
change of CLK_SEL restarts an enabled channel (log entry 157). DCLKm's first edge after a change of N or EN lies at the
commit point (log entry 155). -/
def Hw.sdmTake (h : Hw) (n : Nat) : Hw :=
  if h.takes (pSDM n) then
    let cfg := h.reg (sd n 0x040)
    let x := h.sdmS n
    let h := h.setSdm n { x with old := (h.grain, h.sdmNow n) :: x.old.take 15 }
    let clk := h.sdmClk n
    let div := h.reg (sd n 0x080) &&& 0x000100FF
    let h := h.takePending (pSDM n)
    let h := h.when (decide (n < 8) && div != h.reg (sd n 0x080) &&& 0x000100FF) fun h =>
      (h.setSdm n { h.sdmS n with div := [32 * h.grain] }).each
        ((List.range 112).filter fun k => h.bit (sd k rCTRL) 0 && h.sdmClk k == n) Hw.sdmStart
    if h.bit (sd n rCTRL) 0 && h.sdmClk n != clk then h.sdmStart n
    else h.when (fld cfg 28 16 != h.f (sd n 0x040) 28 16) fun h => h.crustRestart n
  else h

/-- SOFT_RESET of an SDM page: ignored for SDM0 to SDM7 while an enabled channel is captured against its clock
(R105). -/
def Hw.sdmReset (h : Hw) (n : Nat) : Hw := ((h.pageReset (pSDM n)).setSdm n {}).crustRestart n

/-! ### The commands of the family -/

/-- SDM_CONVERSION. -/
def execSdmConversion (g : Nat) (n : Fin 112) (d : SdmBits) (s : State) := run g (fun _ h => h.sdmConv n d) s
/-- CRUST_OUTPUT. -/
def execCrustOutput (g : Nat) (n : Fin 112) (d : SdmBits) (s : State) := run g (fun _ h => h.sdmCrust n d) s
/-- SDM_CAL: a write of CTRL.CAL. -/
def execSdmCal (g : Nat) (n : Fin 112) (s : State) :=
  run g (fun _ h => h.swWrite (pSDM n) rCTRL fun h => h.sdmCal n) s
/-- SDM_CAL_DONE. -/
def execSdmCalDone (g : Nat) (n : Fin 112) (disagree : List Nat) (s : State) :=
  run g (fun _ h => h.sdmCalDone n disagree) s
/-- SDM_DATA_STUCK. -/
def execSdmDataStuck (g : Nat) (n : Fin 112) (held : Nat) (s : State) := run g (fun _ h => h.sdmStuck n held) s
/-- DCLK_LOST. -/
def execDclkLost (g : Nat) (m : Fin 8) (since : Nat) (s : State) := run g (fun _ h => h.dclkLost m since) s
/-- SDM_CHANNEL_RESTART. -/
def execSdmChannelRestart (g : Nat) (n : Fin 112) (s : State) := run g (fun _ h => h.sdmRestart n) s

end Sys2Proof.Machine
end

