-- ==== Sys2Proof/Machine/Fb.lean ====
section
/-! DEFINITION. Feedback ports (R120 to R147): decoding, raw and reported position, speed, probe latches and position
compares. -/

namespace Sys2Proof.Machine

def fbr (n off : Nat) : Nat := ra (pFB n) off
def Hw.fb (h : Hw) (n : Nat) : FbS := tabGet {} n h.fbs
def Hw.setFb (h : Hw) (n : Nat) (x : FbS) : Hw := { h with fbs := tabSet {} n x h.fbs }
def FbS.latch (x : FbS) (k : Nat) : LatchS := tabGet {} k x.latches
def Hw.setLatch (h : Hw) (n k : Nat) (l : LatchS) : Hw :=
  h.setFb n { h.fb n with latches := tabSet {} k l (h.fb n).latches }
def Hw.setDue (h : Hw) (n k : Nat) (d : Option (Nat × Nat)) : Hw :=
  h.setFb n { h.fb n with due := tabSet none k d (h.fb n).due }

/-! ### Modes (R120) -/
def mOFF : Nat := 0
def mINC : Nat := 1
def mHALL : Nat := 2
def mSSI : Nat := 3
def mSTEP : Nat := 4
def mPAIRED : Nat := 5

/-- CFG.MODE in force. -/
def Hw.fbMode (h : Hw) (n : Nat) : Nat := h.f (fbr n 0x040) 2 0
/-- The raw integer count. -/
def Hw.fbInt (h : Hw) (n : Nat) : Int := intPart (h.fbRaw n)
/-- The reported integer count. -/
def Hw.fbRep (h : Hw) (n : Nat) : Int := intPart (h.reg64 (fbr n 0x068))
/-- A position register of whole counts. -/
def Hw.setCount (h : Hw) (a : Nat) (v : Int) : Hw := h.setReg64 a (BitVec.ofInt 32 v ++ (0 : Word))
/-- A difference of counts, signed (R8). -/
def countDiff (x y : Int) : Int := signed 32 (unsign 32 (x - y))

/-- Whether the port drives L2 or L3 (R120, R123, R54). -/
def Hw.fbDrives (h : Hw) (n : Nat) : Bool :=
  (h.fb n).on && ((h.fb n).mode == mSSI || (h.fb n).mode == mSTEP) && h.drives && !h.haltSafe (pFB n)

/-- A lasting sensor fault of a port reaches every axis that takes feedback from it (R145, R273). -/
def Hw.fbFault (h : Hw) (n : Nat) : Hw :=
  h.each ((List.range 32).filter fun a => h.axFb a == n) fun h a => h.axFault a 6 (h.f (axr a 0x04C) 1 0) 10

/-- A counted event of a port (R145): its EVT bit, its counter, and the fault window. -/
def Hw.fbErr (h : Hw) (n bit off hi lo ts : Nat) : Hw :=
  let h := (h.evtTs (pFB n) bit ts).bump (fbr n off) hi lo
  let r := h.fltEvent (pFB n) 10 bit n ts
  if r.2 then r.1.fbFault n else r.1

/-! ### Speed (R133 to R137) -/

/-- One event of a port folded into its evaluation: Σ d of the counted changes, and the evaluation. -/
def evalEv (acc : Int × FbEval) (e : Nat × FbEv) : Int × FbEval :=
  let x := acc.2
  match e.2 with
  | .count d =>
    let neg := decide (d < 0)
    (acc.1 + d, { x with rep := x.rep + d, e := some e.1, neg,
                         run := if x.run > 0 ∧ x.neg = neg then x.run + 1 else 1 })
  | .load r => (acc.1, { x with rep := r })
  | .jump => (acc.1, { x with run := 0, v := 0 })

/-- Whether an event belongs to the evaluation at boundary B: a change stamped before B, a load up to B. -/
def evIn (B : Nat) (e : Nat × FbEv) : Bool := match e.2 with | .load _ => decide (e.1 ≤ B) | _ => decide (e.1 < B)

/-- The evaluation at boundary B from the one before it and the events since, oldest first (R133 to R135). With no
change used before, E1 is the first counted change, and n the change of REP after it. -/
def speedEval (last : FbEval) (evs : List (Nat × FbEv)) (B timeoutMs : Nat) : FbEval :=
  let l := evs.filter (evIn B)
  let r := l.foldl evalEv (0, last)
  let firstE := (l.filterMap fun e => match e.2 with | .count d => some (e.1, d) | _ => none).head?
  match firstE, r.2.e with
  | some e0, some e2 =>
    let from_ : Nat × Int := match last.e with | some e1 => (e1, r.1) | none => (e0.1, r.1 - e0.2)
    let v := if r.2.run < 2 ∨ e2 ≤ from_.1 then 0
      else sat64 (roundHalfEven (from_.2 * grainsPerSec * 2 ^ 32) (e2 - from_.1))
    { r.2 with v }
  | _, some e2 =>
    let age := B - e2
    if timeoutMs * grainsPerMs ≤ age then { r.2 with v := 0, run := 0 }
    else if r.2.run < 2 ∨ age = 0 then { r.2 with v := if r.2.run < 2 then 0 else r.2.v }
    else
      let capN : Int := grainsPerSec * 2 ^ 32
      let v := r.2.v
      let v := if (v.natAbs : Int) * age ≤ capN then v
        else if v < 0 then -(roundHalfEven capN age) else roundHalfEven capN age
      { r.2 with v }
  | _, none => { r.2 with v := 0 }

/-- The snapshot of a port for the latest boundary (R137): in SSI mode the last frame's REP and speed (R136). -/
def Hw.fbSnap (h : Hw) (n : Nat) : Hw :=
  let x := h.fb n
  if x.mode = mSSI then (h.setCount (fbr n 0x070) (h.fbRep n)).setInt64 (fbr n 0x078) x.ssiV
  else
    let r := speedEval x.last x.evs.reverse x.bound (max 1 (h.f (fbr n 0x044) 15 0))
    (h.setCount (fbr n 0x070) r.rep).setInt64 (fbr n 0x078) r.v

/-- The history of a port kept for time-stamps up to 66 ms back (R279 reaches 65.5 ms): the last entry before that, and
the last change at or before that entry. -/
def pruneHist (g : Nat) : List (Nat × Int × Bool) → List (Nat × Int × Bool)
  | [] => []
  | e :: t =>
    if g < e.1 + 33000000 then e :: pruneHist g t
    else e :: (if e.2.2 then [] else (t.find? (·.2.2)).toList)

/-- FB_SPEED_EVAL and FB_SNAPSHOT at a boundary B (R133, R137): the evaluation of the boundary before is final now, for
every change stamped before it has been accepted. -/
def Hw.fbBoundary (h : Hw) (n : Nat) : Hw :=
  let x := h.fb n
  if !x.on then h
  else
    let last := speedEval x.last x.evs.reverse x.bound (max 1 (h.f (fbr n 0x044) 15 0))
    let h := h.setFb n { x with last, evs := x.evs.filter (fun e => !evIn x.bound e), bound := h.grain,
                                hist := pruneHist h.grain x.hist }
    let h := h.fbSnap n
    h.acqNote 4 n h.grain (h.reg64 (fbr n 0x078)).toNat

/-! ### Position (R131, R132) -/

/-- An event of the port's evaluation; one stamped before the latest boundary still enters its snapshot. -/
def Hw.fbEv (h : Hw) (n ts : Nat) (e : FbEv) : Hw :=
  let x := h.fb n
  let h := h.setFb n { x with evs := (ts, e) :: x.evs }
  if evIn x.bound (ts, e) ∧ x.mode ≠ mSSI then h.fbSnap n else h

/-- The target of a compare: the integer part of CMPk_POS. -/
def Hw.cmpTarget (h : Hw) (n k : Nat) : Int := (h.reg (fbr n (0x0F4 + 0x20 * k))).toInt

/-- CMPk_CFG.DIR; 3 is stored as 2. -/
def Hw.cmpDir (h : Hw) (n k : Nat) : Nat := min 2 (h.f (fbr n (0x0E0 + 0x20 * k)) 1 0)

/-- Whether a move of RAW fires an armed compare (R143). -/
def cmpHit (dir : Nat) (d0 d1 : Int) : Bool :=
  match dir with
  | 0 => decide (0 < d0) && decide (d1 ≤ 0)
  | 1 => decide (d0 < 0) && decide (0 ≤ d1)
  | _ => d1 == 0 || (decide (0 < d0) && decide (d1 < 0)) || (decide (d0 < 0) && decide (0 < d1))

/-- The compares that a move of RAW from `old` to `new` reaches become due, with the change's time-stamp. -/
def Hw.cmpMove (h : Hw) (n : Nat) (old new : Int) (ts : Nat) : Hw :=
  h.each [0, 1] fun h k =>
    if h.bit (fbr n (0x0E8 + 0x20 * k)) 0 && (tabGet none k (h.fb n).due).isNone
        && cmpHit (h.cmpDir n k) (countDiff (h.cmpTarget n k) old) (countDiff (h.cmpTarget n k) new) then
      h.setDue n k (some (ts, h.grain))
    else h

/-- A change of d counts with time-stamp ts enters the history, newest first: it counts in every grain from ts on, after
whatever else was stamped before it (R132, R140). -/
def histAdd (ts : Nat) (d : Int) (now : Int) : List (Nat × Int × Bool) → List (Nat × Int × Bool)
  | [] => [(ts, now, true)]
  | e :: t =>
    if ts < e.1 then (e.1, signed 32 (unsign 32 (e.2.1 + d)), e.2.2) :: histAdd ts d now t
    else (ts, signed 32 (unsign 32 (e.2.1 + d)), true) :: e :: t

/-- REP follows RAW (R131): a counted change has the time-stamp ts. -/
def Hw.repFollow (h : Hw) (n ts : Nat) : Hw :=
  let hyst := h.bit (fbr n 0x040) 5 && (h.fb n).mode != mSTEP
  let new := h.fbInt n
  let rep := h.fbRep n
  let d := countDiff new rep
  let rep' := if !hyst ∨ 0 < d then new else if d < -1 then new + 1 else rep
  let dr := countDiff rep' rep
  if dr = 0 then h
  else
    let h := (h.setCount (fbr n 0x068) rep').setBit (fbr n rSTAT) 1 (decide (dr < 0))
    (h.setReg (fbr n 0x080) (BitVec.ofNat 32 ts)).fbEv n ts (.count dr)

/-- RAW takes a new value by a change stamped ts, and REP follows it (R131). -/
def Hw.fbTo (h : Hw) (n : Nat) (new : Int) (ts : Nat) : Hw :=
  let old := h.fbInt n
  let h := h.setCount (fbr n 0x060) new
  let x := h.fb n
  let h := h.setFb n { x with hist := histAdd ts (countDiff new old) (h.fbInt n) x.hist }
  ((h.repFollow n ts).acqLate 3 n ts).cmpMove n old new ts

/-- RAW moves by d counts. -/
def Hw.fbMove (h : Hw) (n : Nat) (d : Int) (ts : Nat) : Hw := h.fbTo n (h.fbInt n + d) ts

/-- POS_LOAD: RAW and REP take a value at grain ts; both compares are disarmed (R132). A compare that is to fire in
this grain fires first (R144). -/
def Hw.posLoad (h : Hw) (n : Nat) (v : Int) (ts : Nat) : Hw :=
  let h := (h.setCount (fbr n 0x060) v).setCount (fbr n 0x068) v
  let x := h.fb n
  let h := h.setFb n { x with hist := (ts, h.fbInt n, false) :: x.hist }
  let h := h.fbEv n ts (.load (h.fbRep n))
  let h := h.each [0, 1] fun h k =>
    let h := h.setBit (fbr n (0x0E8 + 0x20 * k)) 0 false
    match tabGet none k (h.fb n).due with
    | some d => if d.2 ≤ ts then h else h.setDue n k none
    | none => h
  h.evt (pFB n) 13

/-! ### Decoding (R125, R126, R130) -/

/-- The sector of a Hall code (R126). -/
def hallSector : Nat → Option Nat
  | 1 => some 0 | 3 => some 1 | 2 => some 2 | 6 => some 3 | 4 => some 4 | 5 => some 5 | _ => none

/-- A change of the Hall code accepted with time-stamp ts; `moves` in HALL mode, where it also moves the position. -/
def Hw.hallChange (h : Hw) (n code ts : Nat) (moves : Bool) : Hw :=
  let h := h.setF (fbr n 0x08C) 2 0 code
  match hallSector code with
  | none => h.fbErr n 3 0x094 7 0 ts
  | some s' =>
    let s := h.f (fbr n 0x08C) 10 8
    let h := h.setF (fbr n 0x08C) 10 8 s'
    if s = 7 then h.when moves fun h => h.setBit (fbr n rREADY) 2 true
    else
      let d := (s' + 6 - s) % 6
      let h := h.when (decide (2 ≤ d) && decide (d ≤ 4)) fun h => h.fbErr n 4 0x094 15 8 ts
      if !moves ∨ d = 0 then h
      else if d = 3 then h.fbEv n ts .jump
      else
        let k : Int := if d ≤ 2 then d else (d : Int) - 6
        h.fbMove n (if h.bit (fbr n 0x040) 4 then -k else k) ts

/-- The Hall code of accepted lines: a change is judged (R126); before the first valid code, a valid code that already
stands counts as one accepted (R130), and one that is not valid is only shown. -/
def Hw.hallLines (h : Hw) (n code : Nat) (changed : Bool) (ts : Nat) (moves : Bool) : Hw :=
  if changed || (h.f (fbr n 0x08C) 10 8 == 7 && (hallSector code).isSome) then h.hallChange n code ts moves
  else h.setF (fbr n 0x08C) 2 0 code

/-- The count of one accepted change of A or B (R125): levels after it. -/
def quadCount (aChanged a b : Bool) : Int := if aChanged then (if a = b then -1 else 1) else (if a = b then 1 else -1)

/-- FILT of a port (R124). -/
def Hw.fbFilt (h : Hw) (n : Nat) : Nat := h.f (fbr n 0x040) 23 16

/-- Whether a step seen on L2 is negative: DIR, on L3, is high for positive steps, or low if DIR_INV is set (R123, R238). -/
def Hw.dirNeg (h : Hw) (n : Nat) (dir : Bool) : Bool := dir == h.bit (sp n 0) 1

/-- FB_LINE_CHANGE: the lines have been sampled at `lines` since grain `first`, FILT + 1 grains or more, and take these
levels (R124). A port that does not run takes the levels as its decoder's state only. -/
def Hw.fbLines (h : Hw) (n : Nat) (lines : BitVec 8) (first : Nat) : Hw :=
  if h.grain < first + h.fbFilt n then h
  else
  let x := h.fb n
  let ts := first - 3
  let chg := lines ^^^ x.lines
  let h := h.setFb n { x with lines }
  let inv : Int := if h.bit (fbr n 0x040) 4 then -1 else 1
  let b := fun i => lines.getLsbD i
  let c := fun i => chg.getLsbD i
  let code := fun lo => (if b lo then 1 else 0) + (if b (lo + 1) then 2 else 0) + (if b (lo + 2) then 4 else 0)
  if !x.on then h
  else if x.mode = mINC ∨ x.mode = mPAIRED then
    let h := if c 0 ∧ c 1 then h.fbErr n 2 0x090 31 16 ts
      else if c 0 ∨ c 1 then h.fbMove n (inv * quadCount (c 0) (b 0) (b 1)) ts
      else h
    if x.mode = mPAIRED then h.hallLines n (code 4) (c 4 || c 5 || c 6) ts false else h
  else if x.mode = mHALL then
    h.hallLines n (code 0) (c 0 || c 1 || c 2) ts true
  else if x.mode = mSTEP then
    if !h.fbDrives n && c 2 && b 2 then h.fbMove n (if h.dirNeg n (b 3) then -1 else 1) ts else h
  else h

/-- FB_GLITCH: a level that lasted `len` grains, fewer than FILT + 1 (R124). -/
def Hw.fbGlitch (h : Hw) (n len : Nat) : Hw :=
  if (h.fb n).on && decide (0 < len) && decide (len ≤ h.fbFilt n) then h.fbErr n 1 0x090 15 0 (h.grain - 3) else h

/-- A port starts or stops as its ENABLE and committed MODE say (R130): a stop holds the registers, an enable starts
afresh. -/
def Hw.fbReconf (h : Hw) (n : Nat) : Hw :=
  let x := h.fb n
  let mode := h.fbMode n
  let on := h.bit (fbr n rCTRL) 0 && mode != mOFF
  if on = x.on ∧ (!on ∨ mode = x.mode) then h
  else if !on then
    let stop := fun k => { x.latch k with wait := none }
    let latches := tabSet {} 1 (stop 1) (tabSet {} 0 (stop 0) x.latches)
    ((h.setFb n { x with on := false, mode := mOFF, read := none, latches }).setBit (fbr n rREADY) 2 false).setBit
      (fbr n rSTAT) 3 false
  else
    let fresh := fun k => { x.latch k with fresh := h.grain, level := none, wait := none }
    let zero := mode ≠ mSSI
    let h := h.when zero fun h => (h.setCount (fbr n 0x060) 0).setCount (fbr n 0x068) 0
    let h := h.setFb n { on := true, mode, lines := x.lines, hist := [(h.grain, h.fbInt n, false)],
                         last := { rep := h.fbRep n }, bound := x.bound, due := x.due,
                         latches := tabSet {} 1 (fresh 1) (tabSet {} 0 (fresh 0) x.latches) }
    let h := ((h.setBit (fbr n rSTAT) 1 false).setBit (fbr n rSTAT) 3 false).setF (fbr n 0x08C) 10 0 0x700
    h.setBit (fbr n rREADY) 2 (mode == mINC || mode == mPAIRED || mode == mSTEP)

/-! ### SSI (R127, R128, R136) -/

/-- An SSI clock period in grains (R127). -/
def Hw.ssiPeriod (h : Hw) (n : Nat) : Nat := 4 * h.f (fbr n 0x048) 31 21
/-- The bits a frame samples: BITS, TRAIL and the stop check (R127). -/
def Hw.ssiSamples (h : Hw) (n : Nat) : Nat := h.f (fbr n 0x048) 5 0 + h.f (fbr n 0x048) 20 18 + 1
/-- The frame length F (R127). -/
def Hw.ssiLength (h : Hw) (n : Nat) : Nat := (h.ssiSamples n + 1) * h.ssiPeriod n

/-- The grain in which the frame of a read at r is complete: F has passed, and the stop check, SDLY after the last falling
edge, has been taken in (R26, R127, log entry 160). -/
def Hw.ssiDoneAt (h : Hw) (n r : Nat) : Nat :=
  r + max (h.ssiLength n) (h.ssiSamples n * h.ssiPeriod n + h.f (fbr n 0x048) 15 8 + 3)

/-- The grain at which the module starts a read in this batch: START after the batch boundary (R127). -/
def Hw.ssiStartAt (h : Hw) (n : Nat) : Nat := (h.reg64 (ra pCLK 0x058)).toNat + h.f (fbr n 0x04C) 18 0

/-- SSI_READ_START: L2 falls in this grain, which is the read's time-stamp; `l0` is the level of L0 (R127). Where the
partner drives the clock its fall at the pin starts the read (R123). A read waits for the end of MONO. -/
def Hw.ssiStart (h : Hw) (n : Nat) (l0 : Bool) : Hw :=
  let x := h.fb n
  let due := if h.drives then h.fbDrives n && h.grain == h.ssiStartAt n else true
  if !x.on ∨ x.mode ≠ mSSI ∨ !due ∨ x.read.isSome
      ∨ (x.frameEnd ≠ 0 ∧ h.grain < x.frameEnd + 500 * h.f (fbr n 0x04C) 31 24) then h
  else (h.setFb n { x with read := some h.grain, bad := !l0 }).setBit (fbr n rSTAT) 3 true

/-- The level of L2 in SSI mode: the clock idles high, falls at the read's start and a period apart from there; it is
high in the second half of each period (R127, log entry 159). -/
def Hw.ssiClock (h : Hw) (n : Nat) : Bool :=
  match (h.fb n).read with
  | none => true
  | some r =>
    let d := h.grain - r
    decide (h.ssiLength n ≤ d) || decide (h.ssiPeriod n ≤ 2 * (d % h.ssiPeriod n))

/-- Gray code to binary, of w bits. -/
def grayDecode (w v : Nat) : Nat := (List.range w).foldl (fun acc i => acc ^^^ (v >>> i)) 0

/-- The position of a grain by the history of changes: raw integer, and the time-stamp of the last change (R140). -/
def FbS.posAt (x : FbS) (T : Nat) (now : Int) : Int × Nat :=
  let older := x.hist.dropWhile fun e => decide (T < e.1)
  let p := match older.head? with
    | some e => e.2.1
    | none => (x.hist.getLast?.map (·.2.1)).getD now
  let e := match older.find? fun e => e.2.2 with
    | some e => e.1
    | none => match older.getLast? with | some e => e.1 | none => T
  (p, e)

/-- A latch unit resolves with time-stamp T (R140, R141). -/
def Hw.latchResolve (h : Hw) (n k T : Nat) : Hw :=
  let x := h.fb n
  let base := 0x0A0 + 0x20 * k
  let pe := x.posAt T (h.fbInt n)
  let v := h.int64 (fbr n 0x078)
  let frac := roundHalfEven (v * ((T : Int) - pe.2) * 2) 1000000000
  let lim : Int := 2 ^ 32 - 1
  let interp := h.bit (fbr n base) 4
  let fr := if !interp then 0 else if x.mode = mSSI then frac else clip (-lim) lim frac
  let clamped := interp && x.mode != mSSI && fr != frac
  let h := (h.setReg (fbr n (base + 0x0C)) (BitVec.ofNat 32 T)).setInt64 (fbr n (base + 0x10)) (pe.1 * 2 ^ 32 + fr)
  let h := h.setF (fbr n (base + 8)) 2 0 (2 + if clamped then 4 else 0)
  let h := h.setLatch n k { x.latch k with armed := none, disarmed := none, wait := none, resolved := some h.grain }
  (h.evtTs (pFB n) (6 + k) T).log (pFB n) 7 (6 + k) n T

/-- A number from its bits, the first the most significant. -/
def bitsMsb (l : List Bool) : Nat := l.foldl (fun n b => 2 * n + (if b then 1 else 0)) 0

/-- SSI_FRAME_DONE: the frame of the read in progress is complete; `samples` are the levels of L0 taken after falling edges
1 on (R127, R128, R136). Answers the latch units whose wait for this frame ends. -/
def Hw.ssiDone (h : Hw) (n : Nat) (samples : List Bool) : Hw × List Nat :=
  let x := h.fb n
  match x.read with
  | none => (h, [])
  | some r =>
    if !x.on || x.mode != mSSI || samples.length != h.ssiSamples n || decide (h.grain < h.ssiDoneAt n r) then (h, [])
    else
    let bits := h.f (fbr n 0x048) 5 0
    let v := bitsMsb (samples.take bits)
    let v := if h.bit (fbr n 0x048) 17 then grayDecode bits v else v
    let trail := (samples.drop bits).dropLast
    let stopLow := samples.getLast? == some false
    let delta := match x.frame with | some f => signed bits (unsign bits ((v : Int) - f.1)) | none => 0
    let maxStep := (h.reg (fbr n 0x050)).toNat
    let h := (h.setFb n { x with read := none, frameEnd := r + h.ssiLength n }).setBit (fbr n rSTAT) 3 false
    let waits := [0, 1].filter fun k => (x.latch k).wait.isSome
    let h := if x.bad || !stopLow || (maxStep != 0 && decide (maxStep < delta.natAbs)) then
        h.fbErr n 5 0x094 23 16 h.grain
      else
        let h := (h.setReg (fbr n 0x054) (BitVec.ofNat 32 v)).setReg (fbr n 0x058)
          (BitVec.ofNat 32 (bitsMsb trail * 2 ^ (7 - trail.length) * 256 + v / 2 ^ 32))
        let speed := match x.frame with
          | some f => sat64 (roundHalfEven (delta * grainsPerSec * 2 ^ 32) (r - f.2))
          | none => 0
        let h := h.setFb n { h.fb n with frame := some (v, r), ssiV := speed }
        (h.fbTo n (if x.frame.isNone then (v : Int) else h.fbInt n + delta) r).setBit (fbr n rREADY) 2 true
    (h.each waits fun h k =>
      match ((h.fb n).latch k).wait with | some T => h.latchResolve n k T | none => h, waits)

/-! ### Probe latches (R138 to R141) -/

/-- Whether a latch source is available in the mode in force (R138). -/
def latchSrcOk (mode src : Nat) : Bool :=
  mode != mOFF && (src == 0 || (src == 1 && (mode == mINC || mode == mPAIRED)) || (src == 2 && mode == mPAIRED)
    || (decide (8 ≤ src) && decide (src ≤ 15)))

/-- Whether an arm of a latch unit in grain g is accepted (R139). -/
def Hw.latchArmOk (h : Hw) (n k g : Nat) : Bool :=
  latchSrcOk (h.fbMode n) (h.f (fbr n (0x0A0 + 0x20 * k)) 19 16) && ((h.fb n).latch k).resolved != some g

/-- LATCH_ARM in grain g (R139). -/
def Hw.latchArm (h : Hw) (n k g : Nat) : Hw :=
  let base := 0x0A0 + 0x20 * k
  if h.latchArmOk n k g then
    let l := (h.fb n).latch k
    let h := (h.setBit (fbr n (base + 8)) 1 false).setBit (fbr n (base + 8)) 0 true
    h.setLatch n k { l with armed := if l.disarmed.isNone && l.armed.isSome then l.armed else some (g + 1),
                            disarmed := none }
  else h.evt (pFB n) 9

/-- LATCH_DISARM in grain g: an edge accepted up to this grain still latches (R139). -/
def Hw.latchDisarm (h : Hw) (n k g : Nat) : Hw :=
  let l := (h.fb n).latch k
  let h := h.setBit (fbr n (0x0A8 + 0x20 * k)) 0 false
  if l.armed.isSome ∧ l.disarmed.isNone then h.setLatch n k { l with disarmed := some g } else h

/-- A latch unit's source changes: it has no accepted level until its filter accepts one of the new source (R139). -/
def Hw.latchSource (h : Hw) (n k : Nat) : Hw :=
  h.setLatch n k { (h.fb n).latch k with fresh := h.grain + 1, level := none }

/-- A write of LATCHk_CFG acts from the grain after it (R146). -/
def Hw.latchCfg (h : Hw) (n k : Nat) (write : Hw → Hw) : Hw :=
  let src := fun (h : Hw) => h.f (fbr n (0x0A0 + 0x20 * k)) 19 16
  (write h).when (src h != src (write h)) fun h => h.latchSource n k

/-- PFILT of a latch unit. -/
def Hw.latchFilt (h : Hw) (n k : Nat) : Nat := h.f (fbr n (0x0A0 + 0x20 * k)) 31 24

/-- Whether a latch unit samples its source: the port runs, and the source is there in its mode (R130, R138). -/
def Hw.latchLive (h : Hw) (n k : Nat) : Bool :=
  (h.fb n).on && latchSrcOk (h.fb n).mode (h.f (fbr n (0x0A0 + 0x20 * k)) 19 16)

/-- Whether an edge accepted in a grain latches: it is the edge selected, accepted after arming and not after a DISARM
(R139). -/
def Hw.latchTakes (h : Hw) (n k : Nat) (rising : Bool) (accepted : Nat) : Bool :=
  let l := (h.fb n).latch k
  let edge := h.f (fbr n (0x0A0 + 0x20 * k)) 9 8
  (edge == 2 || edge == (if rising then 0 else 1))
    && (match l.armed with | some a => decide (a ≤ accepted) | none => false)
    && (match l.disarmed with | some d => decide (accepted ≤ d) | none => true) && l.wait.isNone

/-- PROBE_LATCH: the source has stood at a level for PFILT + 1 grains, `first` the first of them, and the level is
accepted (R124, R138): the first level after a change of source or an enable is no edge; an edge that the unit takes
resolves with time-stamp first less 3 once every change stamped then or before is accepted too, FILT grains after
(R139, R140). In SSI mode it waits for a frame that was being read then. Answers whether the unit resolved. -/
def Hw.probeLatch (h : Hw) (n k : Nat) (level : Bool) (first : Nat) : Hw × Bool :=
  let l := (h.fb n).latch k
  let accepted := first + h.latchFilt n k
  let ts := first - 3
  if !h.latchLive n k || decide (h.grain < max accepted (first + h.fbFilt n)) || decide (accepted < l.fresh)
      || l.level == some level then (h, false)
  else
    let edge := l.level.isSome && h.latchTakes n k level accepted
    let h := h.setLatch n k { l with level := some level }
    if !edge then (h, false)
    else
      let x := h.fb n
      let waits := match x.read with | some r => x.mode == mSSI && decide (r ≤ ts) | none => false
      if waits then (h.setLatch n k { x.latch k with wait := some ts }, false)
      else (h.latchResolve n k ts, true)

/-- PROBE_LOST: a pulse of `len` grains on the latch's source, shorter than its filter (R138). -/
def Hw.probeLost (h : Hw) (n k len : Nat) : Hw :=
  if h.latchLive n k && decide (0 < len) && decide (len ≤ h.latchFilt n k) then
    (h.bump (fbr n (0x0A8 + 0x20 * k)) 31 16).evtTs (pFB n) 8 (h.grain - 3)
  else h

/-! ### Position compares (R142, R143) -/

/-- CMP_ARM in grain g (R142). -/
def Hw.cmpArm (h : Hw) (n k g : Nat) : Hw :=
  let st := fbr n (0x0E8 + 0x20 * k)
  let d := countDiff (h.cmpTarget n k) (h.fbInt n)
  let dir := h.cmpDir n k
  let h := (h.setF st 2 0 0).setDue n k none
  if d = 0 then (h.setBit st 0 true).setDue n k (some (g + 1, g + 1))
  else if dir = 2 ∨ (dir = 0 ∧ 0 < d) ∨ (dir = 1 ∧ d < 0) then h.setBit st 0 true
  else
    let h := (h.setBit st 2 true).evt (pFB n) 12
    if h.bit (fbr n (0x0E0 + 0x20 * k)) 4 then h.setDue n k (some (g + 1, g + 1)) else h

/-- CMP_DISARM in grain g: a compare that fires in this grain fires (R144). -/
def Hw.cmpDisarm (h : Hw) (n k g : Nat) : Hw :=
  let h := h.setBit (fbr n (0x0E8 + 0x20 * k)) 0 false
  match tabGet none k (h.fb n).due with
  | some d => if d.2 ≤ g then h else h.setDue n k none
  | none => h

/-- CMP_FIRE: a compare whose target is reached fires (R143), with the time-stamp of the change that reached it, or of
the grain after its arm. Answers whether it fired. -/
def Hw.cmpFire (h : Hw) (n k : Nat) : Hw × Bool :=
  match tabGet none k (h.fb n).due with
  | none => (h, false)
  | some d =>
    if h.grain < d.2 then (h, false)
    else
      let st := fbr n (0x0E8 + 0x20 * k)
      let h := (h.setDue n k none).setF st 1 0 2
      let h := h.setReg (fbr n (0x0EC + 0x20 * k)) (BitVec.ofNat 32 d.1)
      ((h.evtTs (pFB n) (10 + k) d.1).log (pFB n) 8 (10 + k) n d.1, true)

/-! ### Commits, clears and readouts -/

/-- The frame length F of an SSI configuration (R127). -/
def ssiFrame (cfg : Word) : Nat := (fld cfg 5 0 + fld cfg 20 18 + 2) * 4 * fld cfg 31 21

/-- Whether a port holds or is about to hold a mode. -/
def Hw.fbHasMode (h : Hw) (n : Nat) (p : Nat → Bool) : Bool :=
  p (h.fbMode n) || (h.pending (pFB n) && p (fld (h.pnd (fbr n 0x040)) 2 0))

/-- The check of an FB GO (R146). -/
def Hw.fbSetOk (h : Hw) (n : Nat) : Bool :=
  let cfg := h.shd (fbr n 0x040)
  let mode := fld cfg 2 0
  let ssi := h.shd (fbr n 0x048)
  let tm := h.shd (fbr n 0x04C)
  let bits := fld ssi 5 0
  let div := fld ssi 31 21
  let mono := fld tm 31 24
  let legs := (List.range 32).any fun a => h.axFb a == n && (h.axisLegs a).any h.legEnabled
  decide (mode < 6)
    && !(mode == mPAIRED && (n % 2 == 1 || h.fbHasMode (n + 1) (· != mOFF)))
    && !(mode != mOFF && n % 2 == 1 && h.fbHasMode (n - 1) (· == mPAIRED))
    && !(bitOf cfg 6 && mode != mHALL && mode != mPAIRED)
    && decide (8 ≤ bits) && decide (bits ≤ 40) && decide (13 ≤ div) && decide (div ≤ 1250) && mono != 0
    && decide (fld tm 18 0 + ssiFrame ssi + fld ssi 15 8 + 500 * mono ≤ h.batch)
    && !(mode != h.fbMode n && legs)

/-- The commit point of an FB page (R130, R146). -/
def Hw.fbTake (h : Hw) (n : Nat) : Hw :=
  if h.takes (pFB n) then
    let h := (h.takePending (pFB n)).fbReconf n
    -- REP follows RAW in every grain (R131): where HYST has gone it moves here (log entry 161)
    h.when (h.fb n).on fun h => h.repFollow n h.grain
  else h

/-- FBn.STAT (R147). -/
def Hw.fbStat (h : Hw) (n : Nat) : Word :=
  let w := putFld (h.reg (fbr n rSTAT)) 0 0 (if h.reg64 (fbr n 0x078) = 0 then 0 else 1)
  let code := h.f (fbr n 0x08C) 2 0
  let hall := (h.fb n).mode == mHALL || (h.fb n).mode == mPAIRED
  let w := putFld w 2 2 (if hall && (code == 0 || code == 7) then 1 else 0)
  putFld w 4 4 (if h.fbDrives n then 1 else 0)

/-- FB_CNT_CLR (R147, R32). -/
def Hw.fbCntClr (h : Hw) (n : Nat) : Hw :=
  let h := (h.clrCnt (fbr n 0x090) 31 16).clrCnt (fbr n 0x090) 15 0
  let h := ((h.clrCnt (fbr n 0x094) 23 16).clrCnt (fbr n 0x094) 15 8).clrCnt (fbr n 0x094) 7 0
  (h.clrCnt (fbr n 0x0A8) 31 16).clrCnt (fbr n 0x0C8) 31 16

/-- SOFT_RESET of an FB page: its registers and its working state, the levels of its lines excepted. -/
def Hw.fbReset (h : Hw) (n : Nat) : Hw :=
  (h.pageReset (pFB n)).setFb n { lines := (h.fb n).lines, bound := (h.fb n).bound }

/-! ### Commands of the family that touch no other unit -/

/-- FB_LINE_CHANGE. -/
def execFbLineChange (g : Nat) (n : Fin 32) (lines : BitVec 8) (first : Nat) (s : State) :=
  run g (fun _ h => h.fbLines n lines first) s
/-- FB_GLITCH. -/
def execFbGlitch (g : Nat) (n : Fin 32) (len : Nat) (s : State) := run g (fun _ h => h.fbGlitch n len) s
/-- SSI_READ_START. -/
def execSsiReadStart (g : Nat) (n : Fin 32) (l0 : Bool) (s : State) := run g (fun _ h => h.ssiStart n l0) s
/-- POS_LOAD: a write of CTRL.POS_LOAD (R132). -/
def execPosLoad (g : Nat) (n : Fin 32) (s : State) :=
  run g (fun _ h => h.swMirror (pFB n) rCTRL (putFld (h.reg (ra (pFB n) rCTRL)) 4 4 1) fun h =>
    h.posLoad n (h.reg (fbr n 0x084)).toInt h.wgrain) s
/-- FB_CNT_CLR: a write of CTRL.CNT_CLR. -/
def execFbCntClr (g : Nat) (n : Fin 32) (s : State) :=
  run g (fun _ h => h.swWrite (pFB n) rCTRL fun h => h.fbCntClr n) s
/-- LATCH_ARM. -/
def execLatchArm (g : Nat) (n : Fin 32) (k : Fin 2) (s : State) :=
  run g (fun _ h => h.swWrite (pFB n) (0x0A4 + 0x20 * k) fun h => h.latchArm n k h.wgrain) s
/-- LATCH_DISARM. -/
def execLatchDisarm (g : Nat) (n : Fin 32) (k : Fin 2) (s : State) :=
  run g (fun _ h => h.swWrite (pFB n) (0x0A4 + 0x20 * k) fun h => h.latchDisarm n k h.wgrain) s
/-- PROBE_LOST. -/
def execProbeLost (g : Nat) (n : Fin 32) (k : Fin 2) (len : Nat) (s : State) := run g (fun _ h => h.probeLost n k len) s
/-- CMP_ARM. -/
def execCmpArm (g : Nat) (n : Fin 32) (k : Fin 2) (s : State) :=
  run g (fun _ h => h.swWrite (pFB n) (0x0E4 + 0x20 * k) fun h => h.cmpArm n k h.wgrain) s
/-- CMP_DISARM. -/
def execCmpDisarm (g : Nat) (n : Fin 32) (k : Fin 2) (s : State) :=
  run g (fun _ h => h.swWrite (pFB n) (0x0E4 + 0x20 * k) fun h => h.cmpDisarm n k h.wgrain) s
/-- STEP_PULSE: a planned step of channel c rises (R238); a port in STEP mode that drives its lines counts it (R129). -/
def execStepPulse (g : Nat) (c : Fin 32) (s : State) :=
  run g (fun _ h =>
    let r := h.stepIssue c
    match r.2 with
    | some x => if (r.1.fb c).on && (r.1.fb c).mode == mSTEP && r.1.fbDrives c then
        r.1.fbMove c (if x.1 then -1 else 1) x.2 else r.1
    | none => r.1) s

end Sys2Proof.Machine
end

