-- ==== Sys2Proof/Machine/Sel.lean ====
section
/-! DEFINITION. The pending events of the Hytar engines as other units set them (R163, R167). -/

namespace Sys2Proof.Machine

def hy (e off : Nat) : Nat := ra (pHYT e) off
def Hw.hyt (h : Hw) (e : Nat) : HytS := tabGet {} e h.hyts
def Hw.setHyt (h : Hw) (e : Nat) (x : HytS) : Hw := { h with hyts := tabSet {} e x h.hyts }

/-- Bit b of EPEND of engine e is set. A waiting engine goes on by WAIT_RESUME. -/
def Hw.epSet (h : Hw) (e b : Nat) : Hw :=
  let x := h.hyt e
  h.setHyt e { x with epend := x.epend ||| BitVec.ofNat 64 (2 ^ b), epAt := tabSet 0 b (h.grain + 1) x.epAt }

/-- A selected event (R167): every WSEL entry that names it sets its EPEND bit. Kinds 1, 2: CMPk of port inst fires;
3, 4: LATCHk resolves; 5: batch boundary; 6: network-cycle boundary. -/
def Hw.selEvent (h : Hw) (kind inst : Nat) : Hw :=
  h.each (List.range 16) fun h e => h.each (List.range 15) fun h j =>
    let a := hy e (0x100 + 4 * j)
    if h.f a 10 8 = kind ∧ (5 ≤ kind ∨ h.f a 4 0 = inst) then h.epSet e (32 + j) else h

end Sys2Proof.Machine
end

