-- ==== Sys2Proof/Machine/Home.lean ====
section
/-! DEFINITION. The commands of the axis unit, limits and homing (R266 to R286), and what a resolved probe latch does
to a homing axis and to register correction. -/

namespace Sys2Proof.Machine

/-! ### Commands (R266 to R269) -/

/-- The engine that owns an axis (R165). -/
def Hw.axEngine (h : Hw) (a : Nat) : Option Nat := (List.range 16).find? fun e => h.bit (ra (pHYT e) 0x04C) a

/-- Whether the owning engine of an axis is halted. -/
def Hw.axEngineHalted (h : Hw) (a : Nat) : Bool :=
  match h.axEngine a with | some e => !h.bit (ra (pHYT e) rSTAT) 0 | none => false

/-- A refused command (R266). -/
def Hw.axRefuse (h : Hw) (a reason : Nat) : Hw := (h.setF (axr a 0x048) 3 0 reason).evt (pAX a) 1

/-- Why ENABLE is refused before any leg is set (R267), 0 where it is not. -/
def Hw.axEnableReason (h : Hw) (a : Nat) : Nat :=
  if h.axState a ≠ sOFF then 1
  else if !legMode h.mode then 2
  else if h.f (axr a 0x0A4) 7 0 ≠ 0 then 3
  else if !h.axIdle a then 4
  else if h.axFb a ≠ 0x3F ∧ (h.reg (axr a 0x060)).toNat * 2 ^ 32 < (sdiff (h.pfHeld (h.axProf a)) (h.fbBPos (h.axFb a))).natAbs
  then 5 else 0

/-- AX_ENABLE (R267): every leg is set in one cycle, or none. -/
def Hw.axEnable (h : Hw) (a : Nat) : Hw :=
  let r := h.axEnableReason a
  let legs := h.axUsedLegs a
  if r ≠ 0 then h.axRefuse a r
  else if legs.all h.legMayEnable then
    let h := (h.each legs Hw.legEnable).setReg64 (axr a 0x098) (h.pfHeld (h.axProf a))
    (h.setAxState a sSTARTING).axShape a
  else (h.each legs fun h n => (h.legEnable n).legOff n).axRefuse a 6

/-- AX_START_TIME_EXPIRY: START_T grains after the last enabled leg read ENABLED (R267). -/
def Hw.axStarted (h : Hw) (a : Nat) : Hw :=
  let legs := h.axUsedLegs a
  let last := (legs.map fun n => (h.leg n).startedAt).foldl max 0
  if h.axState a = sSTARTING ∧ legs.all (fun n => (h.leg n).running)
      ∧ last + h.f (axr a 0x05C) 23 0 ≤ h.grain then h.axToRun a else h

/-- AX_STOP and AX_QSTOP at a deceleration; QSTOP also from STOPPING (R266, R285). -/
def Hw.axStopCmd (h : Hw) (a dec : Nat) (q : Bool) : Hw :=
  let st := h.axState a
  if st = sSTARTING then (h.setAxState a sHOLDING).axShape a
  else if st = sRUNNING ∨ st = sHOMING ∨ (q ∧ st = sSTOPPING) then
    (h.when (st == sHOMING) fun h => h.evt (pAX a) 8).axStop a dec .hold
  else h.axRefuse a 1

/-- AX_RESUME (R266). -/
def Hw.axResume (h : Hw) (a : Nat) : Hw :=
  if h.axState a ≠ sHOLDING then h.axRefuse a 1
  else if h.f (axr a 0x0A4) 7 0 ≠ 0 then h.axRefuse a 3
  else if h.pfSrc (h.axProf a) = 2 ∧ h.gearDrives (h.axProf a) then h.axRefuse a 4
  else h.axToRun a

/-- AX_DISABLE (R266, R268). -/
def Hw.axDisable (h : Hw) (a : Nat) : Hw := if h.axState a = sFAULT then h.axRefuse a 1 else h.axOff a

/-- AX_RESET (R277). -/
def Hw.axReset (h : Hw) (a : Nat) : Hw :=
  if h.axState a ≠ sFAULT then h.axRefuse a 1
  else if h.anyLatched a || h.axEngineHalted a then h.axRefuse a 7
  else (h.setF (axr a 0x0A4) 9 0 0).setAxState a sOFF

/-- A write of AXa.ENG_FAULT (R273): a code from 0x10 to 0x7F declares a fault with reaction OFF. -/
def Hw.engFault (h : Hw) (a : Nat) (v : Word) : Hw :=
  let c := fld v 7 0
  if 0x10 ≤ c ∧ c ≤ 0x7F then (h.setF (axr a 0x0A0) 7 0 c).axFault a c 3 10 else h

/-- A write of AXa.LEG_SKIP (R269). -/
def Hw.legSkip (h : Hw) (a : Nat) (v : Word) : Hw :=
  if h.axState a = sOFF ∨ h.axState a = sFAULT then h.setF (axr a 0x0AC) 11 0 (fld v 11 0) else h.evt (pAX a) 0

/-! ### Homing (R282 to R285) -/

/-- The source of LIMP (0), LIMN (1) or HOME (2). -/
def Hw.limSrc (h : Hw) (a i : Nat) : Nat := h.f (axr a 0x064) (8 * i + 5) (8 * i)

/-- Whether a limit or home source is one that R278 lists: a field input, a probe line, or none. -/
def Hw.limSrcOk (h : Hw) (a i : Nat) : Bool :=
  let s := h.limSrc a i
  s == 0x3F || (decide (0x20 ≤ s) && decide (s ≤ 0x27)) ||
    (decide (s < 0x20) && !h.bit (ra (pFIO (s / 16)) (0x040 + 4 * (s % 16))) 0)

/-- LIM_SRC and HOME_CFG meet R278 and R283 (R288). -/
def Hw.homeCfgOk (h : Hw) (a : Nat) : Bool := [0, 1, 2].all (h.limSrcOk a) && decide (h.f (axr a 0x07C) 2 0 ≤ 4)

/-- Whether the resources of the configured method are there (R282). -/
def Hw.homeResources (h : Hw) (a : Nat) : Bool :=
  let m := h.f (axr a 0x07C) 2 0
  let fb := h.axFb a
  let z := fb != 0x3F && (h.fb fb).on && ((h.fb fb).mode == mINC || (h.fb fb).mode == mPAIRED)
    && !((List.range 16).any fun r => h.bit (rc r 0) 0 && h.f (rc r 0) 20 16 == fb && h.bit (rc r 0) 1)
  h.homeCfgOk a && (match m with
    | 0 => true
    | 1 => h.limSrc a 2 != 0x3F
    | 2 => h.limSrc a 2 != 0x3F && z
    | 3 => h.limSrc a (if h.bit (axr a 0x07C) 4 then 1 else 0) != 0x3F
    | _ => z)

def Hw.homeAcc (h : Hw) (a : Nat) : Nat := (h.reg (axr a 0x088)).toNat
def Hw.homeFast (h : Hw) (a : Nat) : Int := (h.reg (axr a 0x080)).toNat * 2 ^ 32
def Hw.homeSlow (h : Hw) (a : Nat) : Int := (h.reg (axr a 0x084)).toNat * 2 ^ 32

/-- Begin a move of homing (R283): the phase, and a ramp at HOME_ACC to a speed in a direction. -/
def Hw.homeMove (h : Hw) (a : Nat) (hm : HomeS) (ph : HomePhase) (neg : Bool) (v : Int) : Hw :=
  let h := h.setAxis a { h.axis a with home := some { hm with phase := ph, tneg := neg, start := h.axRaw a } }
  h.axRamp a (h.homeAcc a) (if neg then -v else v) .moving

/-- LATCH1 of the axis's port taken for Z: SRC := 1, EDGE := 0, armed (R282). -/
def Hw.homeLatch (h : Hw) (a : Nat) : Hw :=
  match (h.axis a).home with
  | none => h
  | some hm =>
    let n := h.axFb a
    let r := fbr n 0x0C0
    let hm := if hm.saved.isNone then { hm with saved := some (h.reg r) } else hm
    let h := h.setAxis a { h.axis a with home := some hm }
    let h := if h.f r 19 16 = 1 then h else h.latchSource n 1
    ((h.setF r 19 16 1).setF r 9 8 0).latchArm n 1 h.grain

/-- A homing distance or limit abort (R283, R285). -/
def Hw.homeAbort (h : Hw) (a evt : Nat) : Hw := (h.evt (pAX a) evt).axStop a (h.axAbortDec a) .hold

/-- The reference is found at a raw position: the axis ramps to rest (R284). -/
def Hw.homeRef (h : Hw) (a : Nat) (r : Int) : Hw :=
  match (h.axis a).home with
  | none => h
  | some hm =>
    let was := some (h.grain, h.reg (axr a 0x094))
    let h := (h.setReg (axr a 0x094) (BitVec.ofInt 32 r)).setAxis a { h.axis a with
      home := some { hm with phase := .rest, refWas := was } }
    h.axRamp a (h.homeAcc a) 0 .homeRest

/-- AX_HOME (R282, R283). -/
def Hw.axHome (h : Hw) (a : Nat) : Hw :=
  let m := h.f (axr a 0x07C) 2 0
  let neg := h.bit (axr a 0x07C) 4
  let st := h.axState a
  if !(st = sHOLDING ∨ (st = sOFF ∧ m = 0)) then h.axRefuse a 1
  else if h.f (axr a 0x0A4) 7 0 ≠ 0 then h.axRefuse a 3
  else if !h.axIdle a then h.axRefuse a 4
  else if !h.homeResources a then h.axRefuse a 8
  else
    let hm : HomeS := { method := m, neg }
    let h := if st = sOFF then h.setReg64 (axr a 0x098) (h.pfHeld (h.axProf a)) else h
    let h := (h.setAxState a sHOMING).setAxis a { (h.setAxState a sHOMING).axis a with home := some hm }
    let onSwitch := if m = 3 then h.bit (axr a rSTAT) (if neg then 5 else 4) else (h.axis a).accH
    match m with
    | 0 =>
      let h := h.setReg (axr a 0x094) (BitVec.ofInt 32 (h.axRaw a))
      (h.setAxis a { h.axis a with ramp := none, load := true, home := some { hm with phase := .rest } }).axShape a
    | 4 => (h.homeMove a hm .z neg (h.homeSlow a)).homeLatch a
    | _ => if onSwitch then h.homeMove a hm .slow (!neg) (h.homeSlow a)
      else h.homeMove a hm .search neg (h.homeFast a)

/-- What HOMING_LOAD moves with the port: the limit positions and walls (R284). -/
def Hw.limShift (h : Hw) (a : Nat) (sh : Int) : Hw :=
  let h := (h.setReg (axr a 0x070) (h.reg (axr a 0x070) + BitVec.ofInt 32 sh)).setReg (axr a 0x074)
    (h.reg (axr a 0x074) + BitVec.ofInt 32 sh)
  let x := h.axis a
  h.setAxis a { x with wallP := x.wallP.map (padd · (sh * 2 ^ 32)), wallN := x.wallN.map (padd · (sh * 2 ^ 32)) }

/-- HOMING_LOAD (R284) at a boundary, before the snapshot: the port takes HOME_OFS + (RAW − RREF), and HOLD_POS, the
limit positions and walls and the record released at this boundary move by the same amount; without feedback only
HOLD_POS, the held position and that record move. -/
def Hw.homeLoad (h : Hw) (a : Nat) : Hw :=
  let raw := h.axRaw a
  let v := (h.reg (axr a 0x090)).toInt + raw - (h.reg (axr a 0x094)).toInt
  let sh := v - raw
  let by64 : Int := sh * 2 ^ 32
  let p := h.axProf a
  let h := if h.axFb a = 0x3F then h.loadHeld p (padd (h.pfHeld p) by64)
    else (h.posLoad (h.axFb a) v h.grain).limShift a sh
  let h := h.setReg64 (axr a 0x098) (padd (h.reg64 (axr a 0x098)) by64)
  let q := h.prof p
  let h := h.setProf p { q with rel := { q.rel with pos := padd q.rel.pos by64 } }
  let h := h.homeEnd a
  let h := h.setAxis a { h.axis a with load := false }
  ((h.setBit (axr a rREADY) 2 true).evt (pAX a) 6).setAxState a sHOLDING

/-! ### Limits (R279 to R281, R285) -/

/-- The raw integer position of an axis at a time-stamp (R280). -/
def Hw.axRawAt (h : Hw) (a ts : Nat) : Int :=
  if h.axFb a = 0x3F then h.axRaw a else ((h.fb (h.axFb a)).posAt ts (h.fbInt (h.axFb a))).1

/-- A chatter event (R281). -/
def Hw.limChatter (h : Hw) (a ts : Nat) : Hw :=
  let h := h.bump (axr a 0x078) 31 16
  let r := h.fltEvent (pAX a) 6 5 a ts
  if r.2 then ((r.1.setBit (axr a rSTAT) 7 true).evt (pAX a) 5).evt (pAX a) 3 else r.1

/-- Whether a latched limit releases now (R281): its input accepted inactive and the axis LIM_CLEAR counts back. -/
def Hw.limReleases (h : Hw) (a : Nat) (neg : Bool) : Bool :=
  let x := h.axis a
  let d := if neg then countDiff (h.axRaw a) (h.reg (axr a 0x074)).toInt
    else countDiff (h.reg (axr a 0x070)).toInt (h.axRaw a)
  h.bit (axr a rSTAT) (if neg then 5 else 4) && !(if neg then x.accN else x.accP)
    && decide (((h.reg (axr a 0x06C)).toNat : Int) ≤ d)

/-- LIMIT_RELEASE (R281). -/
def Hw.limRelease (h : Hw) (a : Nat) (neg : Bool) : Hw :=
  if h.limReleases a neg then
    let x := h.axis a
    let x := if neg then { x with wallN := none, wallPendN := false, seenN := false }
      else { x with wallP := none, wallPendP := false, seenP := false }
    (((h.setBit (axr a rSTAT) (if neg then 5 else 4) false).setBit (axr a rSTAT) 7 false).setAxis a x).axRewall a
  else h

/-- Set the wall of a limit. -/
def AxS.setWall (x : AxS) (neg : Bool) (w : Word64) (pend : Bool) : AxS :=
  if neg then { x with wallN := some w, wallPendN := pend } else { x with wallP := some w, wallPendP := pend }

/-- A limit latches (R280, R285). -/
def Hw.limLatch (h : Hw) (a : Nat) (neg : Bool) (ts : Nat) : Hw :=
  let sgn : Int := if neg then -1 else 1
  let last := h.axRel a
  let st := h.axState a
  let h := h.setReg (axr a (if neg then 0x074 else 0x070)) (BitVec.ofInt 32 (h.axRawAt a ts))
  let h := (((h.setBit (axr a rSTAT) (if neg then 5 else 4) true).bump (axr a 0x078) 15 0).evtTs (pAX a) 4 ts).axHigh a
  let x := h.axis a
  let x := if neg then { x with seenN := false } else { x with seenP := false }
  let travels := match x.home with | some hm => st == sHOMING && x.ramp.isSome && hm.tneg == neg | none => false
  if travels then
    let h := h.setAxis a (x.setWall neg last.pos true)
    match x.home with
    | some hm =>
      if hm.method = 3 ∧ hm.phase = .search ∧ hm.neg = neg then
        (h.setAxis a { h.axis a with home := some { hm with phase := .stop } }).axRamp a (h.homeAcc a) 0 .homeStop
      else h.homeAbort a 7
    | none => h
  else if (st = sRUNNING ∨ st = sSTOPPING) ∧ 0 < sgn * last.vel then
    (h.setAxis a (x.setWall neg last.pos true)).axStop a (h.axQstopDec a) .hold
  else (h.setAxis a (x.setWall neg last.pos false)).axRewall a

/-- A limit level that did not stand for LIM_FILT: the last accepted value holds, and a latched limit counts one chatter
event (R279). -/
def Hw.limShort (h : Hw) (a : Nat) (neg : Bool) (ts : Nat) : Hw :=
  if h.bit (axr a rSTAT) (if neg then 5 else 4) then h.limChatter a ts else h

/-- A limit source is accepted at a level, active or not (R279 to R281, R283). -/
def Hw.limAccepted (h : Hw) (a : Nat) (neg active : Bool) (ts : Nat) : Hw :=
  let h := h.log (pAX a) 6 4 a ts
  let x := h.axis a
  let h := h.setAxis a (if neg then { x with accN := active } else { x with accP := active })
  let latched := h.bit (axr a rSTAT) (if neg then 5 else 4)
  let x := h.axis a
  if active then
    if latched then
      let seen := if neg then x.seenN else x.seenP
      let h := if seen then h.limChatter a ts else h
      h.setAxis a (if neg then { h.axis a with seenN := false } else { h.axis a with seenP := false })
    else h.limLatch a neg ts
  else
    let h := match x.home with
      | some hm => if h.axState a = sHOMING ∧ hm.method = 3 ∧ hm.phase = .slow ∧ hm.neg = neg then
          h.homeRef a (h.axRawAt a ts) else h
      | none => h
    if latched then
      let x := h.axis a
      (h.setAxis a (if neg then { x with seenN := true } else { x with seenP := true })).limRelease a neg
    else h

/-- A source's level is active as its polarity bit says (R278). -/
def Hw.limActive (h : Hw) (a i : Nat) (level : Bool) : Bool := level != h.bit (axr a 0x064) (24 + i)

/-- Source i of axis a is a field input whose link is stale (R398). -/
def Hw.limStale (h : Hw) (a i : Nat) : Bool :=
  let s := h.limSrc a i
  decide (s < 0x20) && (tabGet ({} : FieldS) (s / 16) h.fields).stale

/-- Whether source i of axis a can show a level: it is one that R278 lists, and where it is a field input, its accepted
level is that one, or, while its link is stale, the active one (R398). -/
def Hw.limShows (h : Hw) (a i : Nat) (level : Bool) : Bool :=
  let s := h.limSrc a i
  s != 0x3F && h.limSrcOk a i && (decide (0x20 ≤ s) ||
    if h.limStale a i then h.limActive a i level else h.bit (ra (pFIO (s / 16)) 0x08C) (s % 16) == level)

/-- Whether a run of a level that began in grain `first` has stood for LIM_FILT microseconds (R279). -/
def Hw.limStood (h : Hw) (a first : Nat) : Bool := decide (first + 500 * h.f (axr a 0x068) 15 0 ≤ h.grain)

/-- The time-stamp of a run of a level: its first sample, less the synchroniser of a probe line, or less what the frame
of a field input brings; a lost link is no frame's event (R279, R388, R398). -/
def Hw.limStamp (h : Hw) (a i first : Nat) : Nat :=
  let s := h.limSrc a i
  if 0x20 ≤ s then first - 3
  else if h.limStale a i then first
  else first - 450 - fieldFilt (h.f (ra (pFIO (s / 16)) (0x040 + 4 * (s % 16))) 3 1)

/-- LIMIT_ACCEPTED: a run of a level of a limit source that began in grain `first` is accepted once it has stood, where
it changes the accepted level; a run that ends sooner is too short. -/
def Hw.limRun (h : Hw) (a : Nat) (neg level : Bool) (first : Nat) : Hw :=
  let i := if neg then 1 else 0
  let active := h.limActive a i level
  let acc := if neg then (h.axis a).accN else (h.axis a).accP
  if !h.limShows a i level || active == acc then h
  else if h.limStood a first then h.limAccepted a neg active (h.limStamp a i first)
  else h.limShort a neg (h.limStamp a i first)

/-- The home switch is accepted at a level (R279, R283). -/
def Hw.homeLevel (h : Hw) (a : Nat) (active : Bool) (ts : Nat) : Hw :=
  let h := h.log (pAX a) 6 4 a ts
  let h := (h.setAxis a { h.axis a with accH := active }).setBit (axr a rSTAT) 8 active
  match (h.axis a).home with
  | none => h
  | some hm =>
    if h.axState a ≠ sHOMING ∨ ¬ (hm.method = 1 ∨ hm.method = 2) then h
    else if active ∧ hm.phase = .search then
      (h.setAxis a { h.axis a with home := some { hm with phase := .stop } }).axRamp a (h.homeAcc a) 0 .homeStop
    else if !active ∧ hm.phase = .slow then
      if hm.method = 1 then h.homeRef a (h.axRawAt a ts)
      else (h.setAxis a { h.axis a with home := some { hm with phase := .z, start := h.axRaw a } }).homeLatch a
    else h

/-- HOME_LEVEL_ACCEPTED: a run of a level of the home switch that began in grain `first` and has stood. -/
def Hw.homeRun (h : Hw) (a : Nat) (level : Bool) (first : Nat) : Hw :=
  let active := h.limActive a 2 level
  if h.limShows a 2 level && active != (h.axis a).accH && h.limStood a first then h.homeLevel a active (h.limStamp a 2 first)
  else h

/-! ### What a resolved latch does (R257, R259, R283) -/

/-- LATCHk of port n has resolved: register correction takes the mark at the next boundary, and an axis homing on Z
has its reference. -/
def Hw.latchHook (h : Hw) (n k : Nat) : Hw :=
  let ts := (h.fb n).latch k
  if ts.resolved ≠ some h.grain then h
  else
    let h := h.selEvent (3 + k) n
    let T := h.grain - (h.grain - (h.reg (fbr n (0x0AC + 0x20 * k))).toNat) % 2 ^ 32
    let h := h.acqEvent (3 + k) n T
    let h := h.each ((List.range 16).filter fun r =>
        h.bit (rc r 0) 0 && h.f (rc r 0) 20 16 == n && h.f (rc r 0) 1 1 == k) fun h r =>
      h.setRcu r { h.rcu r with marks := (h.rcu r).marks ++ [T] }
    if k = 1 then
      h.each ((List.range 32).filter fun a => h.axFb a == n) fun h a =>
        match (h.axis a).home with
        | some hm => if h.axState a = sHOMING ∧ hm.phase = .z then
            h.homeRef a (intPart (h.reg64 (fbr n 0x0D0))) else h
        | none => h
    else h

/-! ### The commands of the family -/

/-- PROBE_LATCH. -/
def execProbeLatch (g : Nat) (n : Fin 32) (k : Fin 2) (level : Bool) (first : Nat) (s : State) :=
  run g (fun _ h => let r := h.probeLatch n k level first; if r.2 then r.1.latchHook n k else r.1) s
/-- SSI_FRAME_DONE. -/
def execSsiFrameDone (g : Nat) (n : Fin 32) (samples : List Bool) (s : State) :=
  run g (fun _ h => let r := h.ssiDone n samples; r.1.each r.2 fun h k => h.latchHook n k) s
/-- AX_ENABLE. -/
def execAxEnable (g : Nat) (a : Fin 32) (s : State) :=
  run g (fun _ h => h.swMirror (pAX a) 0x044 1 fun h => h.axLater a fun h => h.axEnable a) s
/-- AX_START_TIME_EXPIRY. -/
def execAxStartTimeExpiry (g : Nat) (a : Fin 32) (s : State) := run g (fun _ h => h.axStarted a) s
/-- AX_STOP. -/
def execAxStop (g : Nat) (a : Fin 32) (s : State) :=
  run g (fun _ h => h.swMirror (pAX a) 0x044 2 fun h => h.axStopCmd a (h.axStopDec a) false) s
/-- AX_QSTOP. -/
def execAxQstop (g : Nat) (a : Fin 32) (s : State) :=
  run g (fun _ h => h.swMirror (pAX a) 0x044 3 fun h => h.axStopCmd a (h.axQstopDec a) true) s
/-- AX_RESUME. -/
def execAxResume (g : Nat) (a : Fin 32) (s : State) :=
  run g (fun _ h => h.swMirror (pAX a) 0x044 4 fun h => h.axLater a fun h => h.axResume a) s
/-- AX_HOME. -/
def execAxHome (g : Nat) (a : Fin 32) (s : State) :=
  run g (fun _ h => h.swMirror (pAX a) 0x044 5 fun h => h.axLater a fun h => h.axHome a) s
/-- AX_DISABLE. -/
def execAxDisable (g : Nat) (a : Fin 32) (s : State) :=
  run g (fun _ h => h.swMirror (pAX a) 0x044 6 fun h => h.axDisable a) s
/-- AX_RESET. -/
def execAxReset (g : Nat) (a : Fin 32) (s : State) :=
  run g (fun _ h => h.swMirror (pAX a) 0x044 7 fun h => h.axLater a fun h => h.axReset a) s
/-- ENG_FAULT_WRITE. -/
def execEngFaultWrite (g : Nat) (a : Fin 32) (v : Word) (s : State) :=
  run g (fun _ h => h.swWrite (pAX a) 0x0A0 fun h => h.engFault a v) s
/-- AX_LEG_SKIP_WRITE. -/
def execAxLegSkipWrite (g : Nat) (a : Fin 32) (v : Word) (s : State) :=
  run g (fun _ h => h.swWrite (pAX a) 0x0AC fun h => h.legSkip a v) s
/-- LIMIT_ACCEPTED: a run of a limit's level ends in an acceptance, or falls short of LIM_FILT. -/
def execLimitAccepted (g : Nat) (a : Fin 32) (neg level : Bool) (first : Nat) (s : State) :=
  run g (fun _ h => h.limRun a neg level first) s
/-- LIMIT_RELEASE. -/
def execLimitRelease (g : Nat) (a : Fin 32) (neg : Bool) (s : State) := run g (fun _ h => h.limRelease a neg) s
/-- HOME_LEVEL_ACCEPTED. -/
def execHomeLevelAccepted (g : Nat) (a : Fin 32) (level : Bool) (first : Nat) (s : State) :=
  run g (fun _ h => h.homeRun a level first) s

end Sys2Proof.Machine
end

