-- ==== Sys2Proof/Machine/Rc.lean ====
section
/-! DEFINITION. Register correction at a batch boundary (R257 to R260). -/

namespace Sys2Proof.Machine

/-- A value of Q32.32 read as signed within ±rep/2 (R258). -/
def withinHalf (v rep : Int) : Int :=
  let r := v % rep
  if 2 * r < rep then r else r - rep

/-- The position of a master at a CT instant, from the segment, the coast or the held position that covers it: past the
end of a segment it coasts where it coasts now or a REJOIN took it on from there, else it holds P_END (R230, R259). -/
def Hw.masterAt (h : Hw) (p t : Nat) : Word64 :=
  let path := tabGet [] p h.lastSegs
  let newer := (path.takeWhile fun s => !decide (s.start ≤ t)).getLast?
  match path.find? fun s => decide (s.start ≤ t) with
  | some s =>
    let coasts := match newer with | some n => !n.virt && decide (s.fin < n.start) | none => h.bit (mStat (p - 128)) 0
    if s.virt then s.pEnd else if t ≤ s.fin then (segEval s t).pos else if coasts then s.coastPos t else s.pEnd
  | none => (h.prof p).rel.pos

/-- RC_CFG.PORT, LATCH and GEAR of a unit. -/
def Hw.rcPort (h : Hw) (r : Nat) : Nat := h.f (rc r 0) 20 16
def Hw.rcLatch (h : Hw) (r : Nat) : Nat := h.f (rc r 0) 1 1
def Hw.rcGear (h : Hw) (r : Nat) : Nat := h.f (rc r 0) 12 8

/-- One mark of time-stamp T taken at this boundary (R259, R260). -/
def Hw.rcMark (h : Hw) (r mp phase : Nat) (T : Nat) : Hw :=
  let rep : Int := (h.reg (rc r 0x04)).toNat * 2 ^ 32
  let pB := (h.prof mp).rel.pos
  let pT := h.masterAt mp (h.ctGrains T)
  let e := withinHalf (((phase : Int) + sdiff pT pB) % rep - (h.reg64 (rc r 0x0C)).toNat) rep
  let win : Int := (h.reg (rc r 0x14)).toNat * 2 ^ 32
  if win < e.natAbs then (h.bump (rc r 0x34) 7 0).evt pLSH 7
  else
    let h := ((h.setInt64 (rc r 0x28) e).setReg (rc r 0x30) (BitVec.ofNat 32 T)).bump (rc r 0x34) 31 16
    let h := (h.setF (rc r 0x38) 15 8 0).setBit (rc r 0x38) 1 false
    let h := h.setRcu r { h.rcu r with got := true }
    if (h.reg (rc r 0x18)).toNat * 2 ^ 32 < e.natAbs then
      let lim : Int := (h.reg (rc r 0x20)).toNat * 2 ^ 32
      let d := clip (-lim) lim (roundHalfEven ((h.reg (rc r 0x1C)).toInt * e) 65536)
      h.phCorrect (h.rcGear r) d
    else h

/-- Arm the latch of a unit (R257, R258); a refused arm is tried again at the next boundary. -/
def Hw.rcArm (h : Hw) (r : Nat) : Hw :=
  if h.latchArmOk (h.rcPort r) (h.rcLatch r) h.grain then
    (h.latchArm (h.rcPort r) (h.rcLatch r) h.grain).setRcu r { h.rcu r with armed := true }
  else h.latchArm (h.rcPort r) (h.rcLatch r) h.grain

/-- A missed window (R258). -/
def Hw.rcMiss (h : Hw) (r : Nat) : Hw :=
  let h := (h.bump (rc r 0x34) 15 8).bump (rc r 0x38) 15 8
  let h := if max 1 (h.f (rc r 0x24) 7 0) ≤ h.f (rc r 0x38) 15 8 then (h.setBit (rc r 0x38) 1 true).evt pLSH 6 else h
  h.lshFlt 6 r

/-- A register-correction unit at a boundary, its master's record being released (R258 to R260). -/
def Hw.rcBoundary (h : Hw) (r : Nat) : Hw :=
  if !h.bit (rc r 0) 0 || h.reg (rc r 0x04) == 0 then h
  else
    let x := h.rcu r
    let mp := 128 + h.f (gr (h.rcGear r) 0) 15 8
    let cfg := (h.reg (rc r 0x08), h.reg (rc r 0x04))
    let rep : Int := (h.reg (rc r 0x04)).toNat * 2 ^ 32
    let pB := (h.prof mp).rel.pos
    let org : Word64 := h.reg (rc r 0x08) ++ (0 : Word)
    let phase : Nat := if !x.on || x.cfg != cfg then (sdiff pB org % rep).toNat
      else (((x.phase : Int) + sdiff pB x.prev) % rep).toNat
    let marks := x.marks
    let h := h.setRcu r { x with on := true, cfg, phase, prev := pB, marks := [] }
    let h := h.each marks fun h T => h.rcMark r mp phase T
    -- a latch that resolved is disarmed until the next boundary at which the window is open
    let rejected := !marks.isEmpty && !(h.rcu r).got
    let h := if marks.isEmpty then h else h.setRcu r { h.rcu r with armed := false }
    let eB := withinHalf ((phase : Int) - (h.reg64 (rc r 0x0C)).toNat) rep
    let open_ := decide ((eB.natAbs : Int) ≤ (h.reg (rc r 0x14)).toNat * 2 ^ 32)
    let was := h.bit (rc r 0x38) 0
    let y := h.rcu r
    let h := h.setBit (rc r 0x38) 0 open_
    if open_ then
      if !was then (h.setRcu r { y with got := false, armed := false }).rcArm r
      else if !y.got && !y.armed && !rejected then h.rcArm r
      else h
    else if was then
      let h := h.when y.armed fun h => h.latchDisarm (h.rcPort r) (h.rcLatch r) h.grain
      let h := h.setRcu r { h.rcu r with armed := false, got := false }
      if y.got then h else h.rcMiss r
    else h

/-- LSH.STAT: ANY_COAST and ANY_MARK_LOST (R263). -/
def Hw.lshStat (h : Hw) : Word :=
  let coast := (List.range 8).any fun m => h.bit (mStat m) 0
  let lost := (List.range 16).any fun r => h.bit (rc r 0x38) 1
  BitVec.ofNat 32 ((if coast then 1 else 0) + (if lost then 2 else 0))

end Sys2Proof.Machine
end

