-- ==== Sys2Proof/Machine/Modes.lean ====
section
/-! DEFINITION. The device modes (R40 to R45), resets and releases of the die (R42, R43, R431, R441), software
requests, debug halts of application cores, boundary scan, the security version and the flash commands. -/

namespace Sys2Proof.Machine

def sy (off : Nat) : Nat := ra pSYS off
def mBRINGUP : BitVec 3 := 0
def mCONFIG : BitVec 3 := 1
def mSTANDBY : BitVec 3 := 2
def mRUN : BitVec 3 := 3
def mSHADOW : BitVec 3 := 4
def mSAFEHALT : BitVec 3 := 5
def mHOLDUP : BitVec 3 := 6
def mCOOLDOWN : BitVec 3 := 7

/-- The place of a cause in the order of R44. -/
def oHOLDUP : Nat := 0
def oCOOLDOWN : Nat := 1
def oSAFEHALT : Nat := 2
def oSHADOW : Nat := 3
def oTAKEOVER : Nat := 4
def oSOFTWARE : Nat := 5

/-- PAIR.CFG.EN in force. -/
def Hw.paired (h : Hw) : Bool := h.bit (ra pPAIR 0x040) 0

/-- OWNERSHIP_RELEASE (R406): the own DRIVE line falls, and with it every output of R404. -/
def Hw.ownRelease (h : Hw) : Hw :=
  let h := { h with pair := { h.pair with claim := none, claimDue := false, hand := none } }
  (h.setBit (ra pPAIR rSTAT) 0 false).setBit (ra pPAIR rSTAT) 8 false

/-- Every switch of every safety output open (R40). -/
def Hw.soOpen (h : Hw) : Hw :=
  { h with saf := { h.saf with a := { h.saf.a with closed := 0 }, b := { h.saf.b with closed := 0 } } }.setF
    (ra pSAF 0x094) 3 0 0

/-- A refused request (R45). -/
def Hw.modeRefuse (h : Hw) (reason : Nat) : Hw := (h.setF (sy 0x040) 27 24 reason).evt pSYS 1

/-- What is noted of a change of mode: its grain, the place of its cause in the order of R44 and the mode before; an
acknowledgement of LEAVE counts in the SHADOW in which it came (R42). -/
def Hw.modeNote (h : Hw) (m old : BitVec 3) (order : Nat) : Hw :=
  { h with sys := { h.sys with modeGrain := h.grain, modeOrder := order, modeFrom := old },
           pair := { h.pair with leaveAck := h.pair.leaveAck && m != mSHADOW && old != mSHADOW } }

/-- What entering SAFEHALT, HOLDUP or COOLDOWN does (R40, R270, R406). -/
def Hw.modeShut (h : Hw) (m : BitVec 3) : Hw :=
  let h := h.each (List.range 32) Hw.axModeOff
  let h := (h.when h.paired Hw.ownRelease).soOpen
  if m = mSAFEHALT then { h with sys := { h.sys with safeGrain := h.grain } } else h

/-- The change of mode itself: CUR, PREV, MODE_CHANGE, and what leaving and entering a mode does (R41, R78, R270,
R406); an acknowledgement of LEAVE counts in the SHADOW in which it came (R42). -/
def Hw.modeCore (h : Hw) (m old : BitVec 3) (order : Nat) : Hw :=
  let h1 := ((h.setF (sy 0x040) 2 0 m.toNat).setF (sy 0x040) 10 8 old.toNat).evt pSYS 0
  let h1 := (h1.modeNote m old order).when (legMode old && !legMode m) fun h => h.each (List.range 96) Hw.forceBegin
  if 5 ≤ m.toNat then h1.modeShut m else h1

/-- A cause of a change of mode (R44): of several in one grain the first of the order stands, and a software request
that another displaces is refused. -/
def Hw.setMode (h : Hw) (m : BitVec 3) (order : Nat) : Hw :=
  let s := h.sys
  let same := s.modeGrain == h.grain
  if same && decide (s.modeOrder ≤ order) then (if order = oSOFTWARE then h.modeRefuse 4 else h)
  else
    let h := h.when (same && s.modeOrder == oSOFTWARE) (·.modeRefuse 4)
    let h := if same && s.modeOrder == oCOOLDOWN then { h with sys := { h.sys with thermPending := true } } else h
    h.modeCore m (if same then s.modeFrom else h.mode) order

/-- A cause of SAFEHALT (R42, R44): in HOLDUP and COOLDOWN it acts no further; `fromBoot`: whether it also acts in
BRINGUP. -/
def Hw.toSafehalt (h : Hw) (fromBoot : Bool) : Hw :=
  let m := h.mode
  if 1 ≤ m.toNat ∧ m.toNat ≤ 4 ∨ (m = mBRINGUP ∧ fromBoot) then h.setMode mSAFEHALT oSAFEHALT else h

/-- The mode that the causes of the present grain meet (R44): the one before any of them. -/
def Hw.modeBefore (h : Hw) : BitVec 3 := if h.sys.modeGrain = h.grain then h.sys.modeFrom else h.mode

/-- A claim lost (R36, R405, R407, R417): STANDBY or RUN becomes SHADOW. The cause is logged even where another of its
grain sets the mode (R44). -/
def Hw.toShadow (h : Hw) : Hw :=
  if h.modeBefore = mSTANDBY ∨ h.modeBefore = mRUN then (h.log pSYS 10 0 0 h.grain).setMode mSHADOW oSHADOW else h

/-- Takeover (R417, R418): SHADOW becomes RUN. -/
def Hw.toRunTakeover (h : Hw) : Hw :=
  if h.modeBefore = mSHADOW then (h.log pSYS 10 0 0 h.grain).setMode mRUN oTAKEOVER else h

/-- Whether a batch length and a network cycle meet R17 and R18. -/
def batchOk (b n : Nat) : Bool :=
  decide (2500 ≤ b) && decide (b ≤ 500000) && 500000000 % b == 0 && decide (1 ≤ n) && decide (n ≤ 1000)
    && 500000000 % (b * n) == 0 && decide (b * n ≤ 5000000)

/-- SAF.READY (R361). -/
def Hw.safReady (h : Hw) : Bool := h.bit (ra pSAF rREADY) 0

/-- Faults that only a reset of the die clears (R360): codes 1, 5 and 6. -/
def Hw.safDieOnly (h : Hw) : Bool := h.saf.faults.getLsbD 1 || h.saf.faults.getLsbD 5 || h.saf.faults.getLsbD 6

/-- Why a request for mode m is refused (R42, R45), 0 where it is not. -/
def Hw.modeReason (h : Hw) (m : BitVec 3) : Nat :=
  let c := h.mode
  let cond : Bool → Nat := fun b => if b then 0 else 2
  if c = mBRINGUP ∧ m = mCONFIG then cond (h.bit (sy rREADY) 2)
  else if c = mCONFIG ∧ m = mSTANDBY then cond (h.safReady && batchOk h.batch h.ncyc)
  else if c = mSTANDBY ∧ m = mCONFIG then 0
  else if c = mSTANDBY ∧ m = mRUN then cond (h.safReady && h.f (ra pFLT 0x04C) 2 0 == 0)
  else if c = mRUN ∧ m = mSTANDBY then cond (!h.anyEnabled)
  else if c = mSHADOW ∧ m = mSTANDBY then cond (!h.paired || h.pair.leaveAck)
  else if m = mSAFEHALT ∧ 1 ≤ c.toNat ∧ c.toNat ≤ 4 then 0
  else if c = mSAFEHALT ∧ (m = mSTANDBY ∨ m = mCONFIG) then
    if h.safDieOnly then 5
    else match h.saf.accepted with
      | none => 3
      | some t =>
        let after : Bool := match h.saf.lastFault with | some f => decide (f < t) | none => true
        if decide (h.sys.safeGrain < t) && after then 0 else 3
  else 1

/-- The software request at a batch boundary (R42, R45). A module of a pair that comes to STANDBY from CONFIG and finds
its partner active enters SHADOW (R42, R427). -/
def Hw.modeBoundary (h : Hw) : Hw :=
  match h.sys.modeReq with
  | none => h
  | some m =>
    let h := { h with sys := { h.sys with modeReq := none } }
    if h.sys.modeGrain = h.grain ∧ h.sys.modeOrder < oSOFTWARE then h.modeRefuse 4
    else if m = h.mode then h
    else if h.modeReason m ≠ 0 then h.modeRefuse (h.modeReason m)
    else
      let old := h.mode
      let h := h.setMode m oSOFTWARE
      if old = mCONFIG ∧ m = mSTANDBY ∧ h.paired ∧ h.pins.partnerDrive then
        (h.log pSYS 10 0 0 h.grain).modeCore mSHADOW mSTANDBY oSHADOW
      else h

/-- MODE_REQUEST: SYS.MODE.REQ takes the mode; a request for RUN claims the backplane in a pair (R405). -/
def Hw.modeRequest (h : Hw) (m : BitVec 3) : Hw :=
  let h := h.setF (sy 0x040) 18 16 m.toNat
  let h := { h with sys := { h.sys with modeReq := some m } }
  if m = mRUN ∧ h.paired ∧ h.mode ≠ mSHADOW then { h with pair := { h.pair with claimDue := true } } else h

/-! ### Resets and releases of the die -/

def saveArea (k : Nat) : Nat := 0x50000000 + 0x10000 * k
def sv (off : Nat) : Nat := ra pSAVE off

/-- Whether a save area holds a valid save (R440, R441): MAGIC and the CRC of header and data. -/
def Hw.saveValid (h : Hw) (m : Mem) (k : Nat) : Bool :=
  let a := saveArea k
  let len := (h.rd32 m (a + 0x08)).toNat
  h.rd32 m a == 0x58534156 && decide (len ≤ 65344) &&
    crc32c (h.rdN m a 0x24 ++ h.rdN m (a + 0x28) 0x98 ++ h.rdN m (a + 0xC0) len) == h.rd32 m (a + 0x24)

/-- The newest valid save area (R441). -/
def Hw.newestSave (h : Hw) (m : Mem) : Option Nat :=
  let s := fun k => h.rd32 m (saveArea k + 4)
  match h.saveValid m 0, h.saveValid m 1 with
  | true, true => some (if 0 < (s 1 - s 0).toInt then 1 else 0)
  | true, false => some 0
  | false, true => some 1
  | false, false => none

/-- SAVE_AREA_CHECK (R441). -/
def Hw.saveCheck (h : Hw) (m : Mem) : Hw :=
  match h.newestSave m with
  | none => h
  | some k =>
    let h := (h.setBit (sv rREADY) 2 true).setF (sv rSTAT) 2 2 k
    (h.setF (sv 0x048) 31 28 ((h.rd32 m (saveArea k + 0x0C)).toNat % 16)).setReg (sv 0x04C) (h.rd32 m (saveArea k + 4))

/-- The status bits that show pins and stores no reset of the die changes. -/
def Hw.showPins (h : Hw) : Hw :=
  let p := h.pins
  let h := (h.setBit (ra pPAIR rSTAT) 9 (p.slotId.getLsbD 0)).setBit (ra pPAIR rSTAT) 1 p.partnerDrive
  let h := (h.setBit (ra pPAIR rSTAT) 6 p.leverOpen).setBit (ra pCLK 0x044) 2 p.refPresent
  h.setF (sy 0x048) 5 0 h.nv.secMin.toNat

/-- A reset of the die: every block at its reset values. Kept: what stands outside the die's reset domain. `hold`: why
the supervisor goes on holding it, 0 where it releases it. -/
def Hw.dieReset (h : Hw) (hold : Nat) : Hw :=
  let fbs := (List.range 32).foldl (fun t n => tabSet {} n { lines := (tabGet ({} : FbS) n h.fbs).lines } t) []
  let x : Hw := { nv := h.nv, pins := h.pins, free := h.free, grain := h.grain, wbuf := h.wbuf, early := h.early, fbs,
                  rst := if hold = 0 then 2 else 1,
                  sys := { released := true, held := hold != 0, heldFor := hold } }
  { x with gdp := { trips := (List.range 16).foldl (fun l t =>
      let y := h.trip t
      tabSet ({} : TripS) t { level := y.level, pin := y.pin } l) [] } }

/-- A reset of the die and its release into BRINGUP: CLK.GRAIN is zero there (R16), the save areas are checked. -/
def Hw.dieRelease (h : Hw) (m : Mem) : Hw := ({ h.dieReset 0 with grain := 0 }.showPins).saveCheck m

/-- POWER_ON_RELEASE (R426, R431, R437). -/
def Hw.powerOn (h : Hw) (m : Mem) (p : PowerUp) : Hw :=
  if 50000 ≤ p.seatedUs ∧ 20000 ≤ p.supplyUs ∧ 19200 ≤ p.vlogMv ∧ 18500 ≤ p.vholdMv
      ∧ (!h.sys.released ∨ (h.sys.held ∧ h.sys.heldFor = 2)) then
    let h := { h with pins := { h.pins with slotId := p.slotId, leverOpen := false, presentHigh := false,
                                             refPresent := p.refPresent } }
    let h := h.dieRelease m
    (h.setReg (ra pPWR 0x040) (BitVec.ofNat 32 (p.vlogMv % 0x10000))).setReg (ra pPWR 0x044)
      (BitVec.ofNat 32 (p.vholdMv % 0x10000))
  else h

/-! ### Debug halts, boundary scan, security version, flash -/

/-- AC_DEBUG_HALT and AC_DEBUG_RESUME (R54). -/
def Hw.acHalt (h : Hw) (core : Nat) (on : Bool) : Hw :=
  let b : BitVec 4 := BitVec.ofNat 4 (2 ^ core)
  let w := h.sys.acHalted
  let h1 := { h with sys := { h.sys with acHalted := if on then w ||| b else w &&& ~~~b } }
  if on ∧ w = 0 then h1.each ((List.range 96).filter fun n => h1.haltSafe (pLEG n)) Hw.forceBegin else h1

/-- JTAG_INSTRUCTION (R56). -/
def Hw.jtag (h : Hw) (j : JtagInstr) : Hw :=
  let drives := j == .extest || j == .clamp || j == .intest
  if drives && !(h.mode == mBRINGUP || h.mode == mCONFIG) then { h with sys := { h.sys with jtag := .bypass } }.evt pSYS 5
  else { h with sys := { h.sys with jtag := j } }

/-- SEC_VER_ADVANCE (R51): a lower value, or one above the running image's, is refused. -/
def Hw.secAdvance (h : Hw) (v : BitVec 6) : Hw :=
  if h.bit (sy rREADY) 2 ∧ h.nv.secMin.toNat ≤ v.toNat ∧ v.toNat ≤ h.f (sy 0x044) 13 8 then
    { h with nv := { h.nv with secMin := v } }.setF (sy 0x048) 5 0 v.toNat
  else h

/-- A flash command: 1 erase, 2 program (R65). -/
def Hw.flashCmd (h : Hw) (cmd : Nat) : Hw :=
  let a := h.f (sy 0x058) 24 0
  let bad := (!h.bit (sy 0x044) 1 && a / 0x1000000 == h.f (sy 0x044) 0 0)
    || a % (if cmd = 1 then 0x10000 else 0x100) != 0 || h.bit (sy 0x060) 31
  if bad then h.evt pSYS 7
  else { h with sys := { h.sys with flashOp := some (cmd, a, h.f (sy 0x05C) 20 0) } }.setBit (sy 0x060) 31 true

/-- FLASH_CMD_DONE: the sector is erased, or the 256 bytes are programmed; bytes past the end of application SRAM are 0
(the model's choice, log entry 146). -/
def Hw.flashDone (h : Hw) (m : Mem) : Hw :=
  match h.sys.flashOp with
  | none => h
  | some (cmd, a, src) =>
    let data := if cmd = 1 then (List.range 0x10000).map fun i => Config.erasedByte (h.free + i)
      else (List.range 0x100).map fun i => if src + i < 0x200000 then h.rd8 m (src + i) else 0
    let h := { h with sys := { h.sys with flashOp := none }, free := if cmd = 1 then h.free + 0x10000 else h.free }
    (h.wrN (0x60000000 + a) data).setBit (sy 0x060) 31 false

/-- MODE_REQUEST. -/
def execModeRequest (g : Nat) (m : BitVec 3) (s : State) :=
  run g (fun _ h => h.swWrite pSYS 0x040 fun h => h.modeRequest m) s
/-- POWER_ON_RELEASE. -/
def execPowerOnRelease (g : Nat) (p : PowerUp) (s : State) := runSup g (fun m h => h.powerOn m p) s
/-- SEC_VER_ADVANCE. -/
def execSecVerAdvance (g : Nat) (v : BitVec 6) (s : State) :=
  run g (fun _ h => h.swWrite pSYS 0x048 fun h => h.secAdvance v) s
/-- FLASH_ERASE. -/
def execFlashErase (g : Nat) (s : State) := run g (fun _ h => h.swWrite pSYS 0x060 fun h => h.flashCmd 1) s
/-- FLASH_PROGRAM. -/
def execFlashProgram (g : Nat) (s : State) := run g (fun _ h => h.swWrite pSYS 0x060 fun h => h.flashCmd 2) s
/-- FLASH_CMD_DONE. -/
def execFlashCmdDone (g : Nat) (s : State) := run g (fun m h => h.flashDone m) s
/-- AC_DEBUG_HALT. -/
def execAcDebugHalt (g : Nat) (core : Fin 4) (s : State) := run g (fun _ h => h.acHalt core true) s
/-- AC_DEBUG_RESUME. -/
def execAcDebugResume (g : Nat) (core : Fin 4) (s : State) := run g (fun _ h => h.acHalt core false) s
/-- JTAG_INSTRUCTION. -/
def execJtagInstruction (g : Nat) (j : JtagInstr) (s : State) := run g (fun _ h => h.jtag j) s

end Sys2Proof.Machine
end

