-- ==== Sys2Proof/Machine/Clock.lean ====
section
/-! DEFINITION. The reference, the clock failure, the change of batch length (R13, R14, R23, R43) and the hardware
semaphores (R35, R39). -/

namespace Sys2Proof.Machine

def ck (off : Nat) : Nat := ra pCLK off

/-- Nanoseconds of a second, in units of CT. -/
def ctSecond : Nat := 1000000000 * 2 ^ 32

/-- A clock failure (R14, R42): recorded at rank 1, every ENA low, SAFEHALT; `lost`: the Leaven PLL is unlocked. -/
def Hw.clockFail (h : Hw) (lost : Bool) : Hw :=
  let h := (h.evt pCLK 1).log pCLK 1 1 0 h.grain
  let h := if lost then { h with clk := { h.clk with unlockedAt := some h.grain } }.setBit (ck 0x044) 0 false else h
  let h := h.when h.paired Hw.ownRelease
  h.toSafehalt true

/-- REFCLK_LOSS (R13). -/
def Hw.refLoss (h : Hw) : Hw :=
  let h := { h with pins := { h.pins with refPresent := false } }.setBit (ck 0x044) 2 false
  if h.bit (ck 0x040) 0 && !h.clk.fallback && h.clk.unlockedAt.isNone then
    if h.bit (ck 0x040) 1 then
      ({ h with clk := { h.clk with fallback := true } }.setBit (ck 0x044) 1 false).evt pCLK 0
    else h.clockFail true
  else h

/-- A write of CLK.REF (R13): FALLBACK_EN in any mode, REF_SRC only in BRINGUP and CONFIG, where it ends a fallback. -/
def Hw.refWrite (h : Hw) (v : Word) : Hw :=
  let h := h.setF (ck 0x040) 1 1 (fld v 1 1)
  if h.mode = mBRINGUP ∨ h.mode = mCONFIG then
    let h := { h with clk := { h.clk with fallback := false } }
    (h.setF (ck 0x040) 0 0 (fld v 0 0)).setF (ck 0x044) 1 1 (fld v 0 0)
  else h

/-- CLOCK_FAIL (R14): loss of lock, or a count of GCLK more than 5 % from 5,000 in 10 µs. A loss already declared is no
new one. -/
def Hw.clockCheck (h : Hw) (lockLost : Bool) (n : Nat) : Hw :=
  if lockLost && h.clk.unlockedAt.isNone then h.clockFail true
  else if n < 4750 ∨ 5250 < n then h.clockFail false else h

/-- LEAVEN_LOCK_REGAINED (R13, R43). -/
def Hw.lockRegained (h : Hw) (ref : Bool) : Hw :=
  let h := { h with pins := { h.pins with refPresent := ref } }.setBit (ck 0x044) 2 ref
  if h.clk.unlockedAt.isSome && (ref || h.clk.fallback || !h.bit (ck 0x040) 0) then
    { h with clk := { h.clk with unlockedAt := none } }.setBit (ck 0x044) 0 true
  else h

/-- PLL_RELOCK_TIMEOUT (R43): lock lost for 10 ms, and SAFEHALT: the die is reset and held. -/
def Hw.relockTimeout (h : Hw) : Hw :=
  match h.clk.unlockedAt with
  | some u => if u + 5000000 ≤ h.grain ∧ h.mode = mSAFEHALT then h.dieReset 1 else h
  | none => h

/-- PLL_RELOCK (R43): lock to the on-module oscillator, release into BRINGUP. -/
def Hw.relock (h : Hw) (m : Mem) (ref : Bool) : Hw :=
  if h.sys.held ∧ h.sys.heldFor = 1 ∧ h.mode ≠ mHOLDUP then
    ({ h with pins := { h.pins with refPresent := ref } }.dieRelease m).setBit (ck 0x044) 0 true
  else h

/-- CLK.STAT (R38): a change of BATCH or NCYC waits while a leg is enabled. -/
def Hw.clkStat (h : Hw) : Word := (h.setBit (ck rSTAT) 1 (h.pending pCLK && h.anyEnabled)).reg (ck rSTAT)

/-- Whether the present grain is the first at or after a CT instant whose nanoseconds field is zero (R23): CT has passed
into a new second, or, where CT was stepped in this grain, stands at such an instant. -/
def Hw.wholeSecond (h : Hw) : Bool :=
  let c := h.ctAt h.grain
  let p := h.ctAt (h.grain - 1)
  if p ≤ c ∧ c < p + 2 ^ 34 then c / ctSecond != p / ctSecond else decide (c % ctSecond < 2 ^ 32)

/-- The next boundary instant and the number of the batch in progress, after a change of BATCH at a whole second whose
boundary may already have fallen. -/
def Hw.batchApply (h : Hw) : Hw :=
  let sec := (h.ctAt h.grain / ctSecond) * 500000000
  if h.wholeSecond && h.takes pCLK && !h.anyEnabled then
    let fallen := decide (h.ctGrains h.grain < h.clk.nextB)
    -- the change falls on a boundary, at which every divided carrier ends its period of the old BATCH
    let h := (h.each ((List.range 32).filter fun c => !h.carMul c) Hw.carRestart).takePending pCLK
    let b := h.batch
    let h := h.setF (ck 0x068) 31 16 ((b + 1999) / 2000 + 1)
    let h := if fallen then
        { h with clk := { h.clk with nextB := sec + b, batchNum := sec / b } }.setReg (ck 0x060) 0 else h
    h.each (List.range 32) fun h c =>
      let h := h.recalcPeriod c
      if (periodOf b (h.carK c) (h.carMul c)).isNone then (h.setCar c { h.car c with invalid := true }).evt (pCAR c) 1 else h
  else h

/-! ### Semaphores (R35) -/

def sm (n : Nat) : Nat := ra pSEM (0x040 + 4 * n)

/-- Requesters that reach the semaphores. -/
def semReq (r : Nat) : Bool := decide (r < 0x14) || r == 0x1F

/-- SEM_READ: a free semaphore is claimed; of readers in one FCLK cycle the lowest ID wins. -/
def Hw.semRead (h : Hw) (r n : Nat) : Hw :=
  let o := h.f (sm n) 7 0
  if semReq r && (o == 0xFF || (tabGet 0 n h.semAt == h.grain + 1 && decide (r < o))) then
    { h with semAt := tabSet 0 n (h.grain + 1) h.semAt }.setF (sm n) 7 0 r
  else h

/-- SEM_WRITE: the holder frees; any other write sets FOREIGN_RELEASE. -/
def Hw.semWrite (h : Hw) (r n : Nat) : Hw :=
  if semReq r && h.f (sm n) 7 0 == r then { h with semAt := tabSet 0 n 0 h.semAt }.setF (sm n) 7 0 0xFF else h.evt pSEM 0

/-- What a requester reads from a semaphore (R39). -/
def Hw.semView (h : Hw) (r n : Nat) : Word := putFld (h.reg (sm n)) 31 31 (if h.f (sm n) 7 0 = r then 0 else 1)

/-- REFCLK_LOSS. -/
def execRefclkLoss (g : Nat) (s : State) := run g (fun _ h => h.refLoss) s
/-- CLK_REF_WRITE. -/
def execClkRefWrite (g : Nat) (v : Word) (refPresent : Bool) (s : State) :=
  run g (fun _ h => ({ h with pins := { h.pins with refPresent } }.setBit (ck 0x044) 2 refPresent).swWrite pCLK 0x040
    fun h => h.refWrite v) s
/-- CLOCK_FAIL. -/
def execClockFail (g : Nat) (lockLost : Bool) (gclkCount : Nat) (s : State) :=
  run g (fun _ h => h.clockCheck lockLost gclkCount) s
/-- PLL_RELOCK_TIMEOUT. -/
def execPllRelockTimeout (g : Nat) (s : State) := run g (fun _ h => h.relockTimeout) s
/-- PLL_RELOCK. -/
def execPllRelock (g : Nat) (refPresent : Bool) (s : State) := runSup g (fun m h => h.relock m refPresent) s
/-- LEAVEN_LOCK_REGAINED. -/
def execLeavenLockRegained (g : Nat) (refPresent : Bool) (s : State) := run g (fun _ h => h.lockRegained refPresent) s
/-- SEM_READ. -/
def execSemRead (g : Nat) (req : Nat) (n : Fin 64) (s : State) := run g (fun _ h => h.semRead req n) s
/-- SEM_WRITE. -/
def execSemWrite (g : Nat) (req : Nat) (n : Fin 64) (_v : Word) (s : State) :=
  run g (fun _ h => h.swWrite pSEM (0x040 + 4 * n) fun h => h.semWrite req n) s

end Sys2Proof.Machine
end

