-- ==== Sys2Proof/Machine/Sup.lean ====
section
/-! DEFINITION. Supplies, hold-up, the save engine, temperature and the fault manager (R430 to R455). -/

namespace Sys2Proof.Machine

def pw (off : Nat) : Nat := ra pPWR off
def th (off : Nat) : Nat := ra pTHM off
def fl (off : Nat) : Nat := ra pFLT off

/-- Set the millivolts a supply register shows. -/
def Hw.setMv (h : Hw) (off mv : Nat) : Hw := h.setReg (pw off) (BitVec.ofNat 32 (mv % 0x10000))

/-- A sample of VLOG: what the register shows, whether it is too high, the run of samples below the power-fail
threshold, the last sample below 19.2 V (R434, R437, R452). -/
def Hw.vlogSample (h : Hw) (mv : Nat) : Hw :=
  let was := h.bit (pw rSTAT) 2
  let hi := decide (30500 < mv)
  let h := ((h.setMv 0x040 mv).setBit (pw rSTAT) 2 hi).when (hi && !was) (·.evt pPWR 3)
  { h with sup := { h.sup with lowRun := if mv < 18000 then h.sup.lowRun + 1 else 0,
                               lowAt := if mv < 19200 then some h.grain else h.sup.lowAt } }

/-! ### The fault log in MRAM (R449) -/

/-- The 32 octets of record i. -/
def LogRec.bytes (r : LogRec) (flags i : Nat) : List Byte :=
  octets64 (BitVec.ofNat 64 r.ts) ++ octets64 (BitVec.ofNat 64 r.ct) ++
  octets [BitVec.ofNat 32 (r.page % 0x10000 + 0x10000 * (r.rank % 0x100) + 0x1000000 * flags),
          BitVec.ofNat 32 (r.code % 0x10000 + 0x10000 * (r.inst % 0x10000)), r.detail, BitVec.ofNat 32 i]

/-- Write one record: LOG_WR counts it; the oldest unreleased record of 2,048 is overwritten. -/
def Hw.logPut (h : Hw) (r : LogRec) : Hw :=
  let i := h.nv.logWr
  let flags := if h.logLost then r.flags ||| fLOST else r.flags
  let h := h.wrN (logAddr i.toNat) (r.bytes flags i.toNat)
  let full := (h.nv.logWr - h.nv.logRd).toNat == 2048
  let h := if full then { h.bump (fl 0x048) 31 16 with nv := { h.nv with logRd := h.nv.logRd + 1 } } else h
  { h with nv := { h.nv with logWr := i + 1 }, logLost := false,
           logRecent := ((r.ts, i.toNat, flags) :: h.logRecent).take 128 }

/-- The place in the queue of the record that goes next: of those that share the time-stamp of the oldest, the highest
rank, then the lowest source number (R31). -/
def logFirst : LogRec → Nat → List LogRec → Nat → Nat
  | _, at_, [], _ => at_
  | b, at_, r :: t, i =>
    if r.ts = b.ts ∧ (r.rank < b.rank ∨ (r.rank = b.rank ∧ r.inst < b.inst)) then logFirst r i t (i + 1)
    else logFirst b at_ t (i + 1)

/-- LOG_RECORD_WRITE. -/
def Hw.logWrite (h : Hw) : Hw :=
  match h.logq with
  | [] => h
  | r :: t =>
    let i := logFirst r 0 t 1
    match h.logq[i]? with
    | none => h
    | some x => { h with logq := h.logq.eraseIdx i }.logPut x

/-- Every queued record reaches MRAM. -/
def Hw.logFlush (h : Hw) : Hw := h.each h.logq fun h _ => h.logWrite

/-- FLT.LOG_WR and FLT.LOG_RD as they read: their values are kept in MRAM. -/
def Hw.logRegs (h : Hw) : Word × Word := (h.nv.logWr, h.nv.logRd)

/-- PWR.CNT as it reads. -/
def Hw.pwrCnt (h : Hw) : Word := BitVec.ofNat 32 (h.nv.warms * 0x10000 + h.nv.fails)

/-- LOG_RD_WRITE: a value outside the old LOG_RD to LOG_WR is refused. -/
def Hw.logRd (h : Hw) (v : Word) : Hw :=
  if (v - h.nv.logRd).toNat ≤ (h.nv.logWr - h.nv.logRd).toNat then { h with nv := { h.nv with logRd := v } }
  else h.evt pFLT 0

/-! ### Device faults (R450) -/

/-- A cause latches bit b of FLT.DEV. -/
def Hw.devSet (h : Hw) (b : Nat) : Hw := h.w1cSet (fl 0x04C) b

/-- THM.TS[s] is valid. -/
def Hw.tsValid (h : Hw) (s : Nat) : Bool := h.f (th (0x040 + 4 * s)) 19 16 == 0
def dieSensors : List Nat := List.range 8
def boardSensors : List Nat := [8, 9, 10, 11]
def Hw.nValid (h : Hw) (l : List Nat) : Nat := (l.filter h.tsValid).length

/-- Whether the cause of a device fault remains: an uncorrectable word not yet written, a weak capacitor, no valid board
sensor. -/
def Hw.devCause (h : Hw) : Nat → Bool
  | 0 => !h.sup.eccBad.isEmpty
  | 1 => h.bit (pw rSTAT) 0
  | _ => h.nValid boardSensors == 0

/-- DEV_CLR. -/
def Hw.devClr (h : Hw) (v : BitVec 3) : Hw :=
  h.each [0, 1, 2] fun h b =>
    if !v.getLsbD b then h
    else if h.devCause b then h.evt pFLT 1
    else h.w1cClear (fl 0x04C) (BitVec.ofNat 32 (2 ^ b)) (BitVec.ofNat 32 (2 ^ b))

/-- THM.SCRUB's interval for the band in force, in units of 10 ms (R446). -/
def Hw.scrubUnits (h : Hw) : Nat := fld (h.reg (th 0x078)) (8 * h.band + 7) (8 * h.band)

/-- The length of the write pulse of the next MRAM write, in nanoseconds: THM.MRAM_T's of the band in force (R446). -/
def Hw.mramPulse (h : Hw) : Nat := fld (h.reg (th 0x07C)) (8 * h.band + 7) (8 * h.band)

/-- The interval of the scrub pass in progress has run out (R446). -/
def Hw.scrubDue (h : Hw) : Bool := decide (h.sup.scrubAt + 5000000 * h.sup.scrubIv ≤ h.grain)

/-- A scrub pass ends, and the next takes the interval of the band in force (R446). Corrected words are counted; an
uncorrectable one in application SRAM or in recipe and cam memory latches ECC_UNCORR. -/
def Hw.scrub (h : Hw) (n : Nat) (bad : Option Nat) : Hw :=
  let h := { h with sup := { h.sup with scrubAt := h.grain, scrubIv := h.scrubUnits } }
  let h := h.bumpN (fl 0x058) 15 0 n
  match bad with
  | none => h
  | some a =>
    if a < 0x200000 ∨ (0x28000000 ≤ a ∧ a < 0x28100000) then
      let h := if h.bit (fl 0x04C) 0 then h else h.setReg (fl 0x054) (BitVec.ofNat 32 a)
      ({ h with sup := { h.sup with eccBad := a :: h.sup.eccBad } }.devSet 0).evt pFLT 3
    else h

/-- FLT_WINDOW_EXPIRY, after the last grain of the window, whose events still count (R448 points 2 and 4). -/
def Hw.fltExpiry (h : Hw) (p : Nat) : Hw :=
  if (h.fwin p).isOpen && decide ((h.fwin p).last < h.grain) then h.fltEnd p else h

/-! ### The save engine (R436, R439 to R441) -/

/-- The regions of SAVE.CFG: address and length. -/
def Hw.saveRegions (h : Hw) : List (Nat × Nat) :=
  (List.range (h.f (sv 0x040) 4 0)).map fun k => ((h.reg (sv (0x080 + 8 * k))).toNat, h.f (sv (0x084 + 8 * k)) 16 0)

/-- SAVE_START: the region data go to the area that does not hold the newest valid save, or to the area a save was cut
short in. -/
def Hw.saveStart (h : Hw) (m : Mem) (cause : Nat) : Hw :=
  let newest := h.newestSave m
  let k := match h.save.cut with
    | some k => k
    | none => match newest with | some k => 1 - k | none => 0
  let seq := match newest with | some k => (h.rd32 m (saveArea k + 4)).toNat + 1 | none => 1
  let data := h.saveRegions.flatMap fun r => h.rdN m r.1 r.2
  let h := h.wrN (saveArea k + 0xC0) data
  { h with save := { h.save with busy := some (cause, k, h.grain, h.ctGrains h.grain, seq), cut := none,
                                 regions := h.saveRegions } }.setBit
    (sv rSTAT) 0 true

/-- The header of a save but for its CRC: octets 0x00 to 0x23 and 0x28 to 0xBF. -/
def saveHeader (cause grain ct seq : Nat) (rs : List (Nat × Nat)) : List Byte × List Byte :=
  let len := (rs.map (·.2)).foldl (· + ·) 0
  let regs := (List.range 16).flatMap fun k => let r := rs.getD k (0, 0)
    [BitVec.ofNat 32 r.1, BitVec.ofNat 32 r.2]
  (octets [0x58534156, BitVec.ofNat 32 seq, BitVec.ofNat 32 len, BitVec.ofNat 32 cause] ++ octets64 (BitVec.ofNat 64 grain)
     ++ octets64 (BitVec.ofNat 64 ct) ++ octets [BitVec.ofNat 32 rs.length],
   List.replicate 24 0 ++ octets regs)

/-- The thermal hold (R445): every block in reset but the supervisor, the sensors, MRAM and the PWR, THM and FLT pages;
the mode stays COOLDOWN. -/
def Hw.coolHold (h : Hw) : Hw :=
  let keep := fun p => (pageEntries p h.regs).foldl (fun t e => tabSet (regReset e.1) e.1 e.2 t)
  let r := h.dieReset 3
  { r with regs := keep pFLT (keep pTHM (keep pPWR [])), sup := h.sup, logq := h.logq, logLost := h.logLost,
           logRecent := h.logRecent, evtCyc := h.evtCyc, cntCyc := h.cntCyc, win := h.win,
           save := { done := true, doneAt := h.save.doneAt } }.setF (sy 0x040) 2 0 mCOOLDOWN.toNat

/-- SAVE_COMPLETE: the header with the CRC of its data is written; in COOLDOWN the thermal hold follows. -/
def Hw.saveDone (h : Hw) (m : Mem) : Hw :=
  match h.save.busy with
  | none => h
  | some (cause, k, g0, ct, seq) =>
    let rs := h.save.regions
    let len := (rs.map (·.2)).foldl (· + ·) 0
    let (h1, h2) := saveHeader cause g0 ct seq rs
    let crc := crc32c (h1 ++ h2 ++ h.rdN m (saveArea k + 0xC0) len)
    let h := h.wrN (saveArea k) (h1 ++ wordBytes crc ++ h2)
    let h := { h with save := { h.save with busy := none, done := cause != 3 || h.save.done, doneAt := h.grain } }
    let h := ((h.setBit (sv rSTAT) 0 false).setF (sv rSTAT) 2 2 k).setBit (sv rREADY) 2 true
    let h := (h.setReg (sv 0x048) (BitVec.ofNat 32 (cause * 0x10000000 + (h.grain - g0) / 500 % 0x10000))).setReg
      (sv 0x04C) (BitVec.ofNat 32 seq)
    let h := h.evt pSAVE 0
    if h.mode = mCOOLDOWN then h.coolHold else h

/-- SAVE_CMD: refused while a save runs, or in HOLDUP. -/
def Hw.saveCmd (h : Hw) (m : Mem) : Hw :=
  if h.save.busy.isSome ∨ h.mode = mHOLDUP then h.evt pSAVE 3 else h.saveStart m 3

/-- RESTORE_CMD: refused outside BRINGUP and CONFIG and without a valid save; else each region goes back to its
address. -/
def Hw.restoreCmd (h : Hw) (m : Mem) : Hw :=
  if h.mode = mBRINGUP ∨ h.mode = mCONFIG then
    match h.newestSave m with
    | none => h.evt pSAVE 3
    | some k =>
      let a := saveArea k
      let n := min 16 (h.rd32 m (a + 0x20)).toNat
      let rs := (List.range n).map fun i => ((h.rd32 m (a + 0x40 + 8 * i)).toNat, (h.rd32 m (a + 0x44 + 8 * i)).toNat)
      let put : Hw × Nat → Nat × Nat → Hw × Nat := fun x r =>
        let d := h.rdN m (a + 0xC0 + x.2) r.2
        ((x.1.wrN r.1 d).acqBytes r.1 d, x.2 + r.2)
      let h1 := (rs.foldl put (h, 0)).1
      { h1 with save := { h1.save with restoring := true } }
  else h.evt pSAVE 3

/-- RESTORE_COMPLETE. -/
def Hw.restoreDone (h : Hw) : Hw :=
  if h.save.restoring then { h with save := { h.save with restoring := false } }.evt pSAVE 1 else h

/-- The rules of a commit of SAVE.CFG (R439). -/
def Hw.saveSetOk (h : Hw) : Bool :=
  let n := fld (h.shd (sv 0x040)) 4 0
  let rs := (List.range n).map fun k => ((h.shd (sv (0x080 + 8 * k))).toNat, fld (h.shd (sv (0x084 + 8 * k))) 16 0)
  let inside := fun (r : Nat × Nat) =>
    decide (r.1 + r.2 ≤ 0x200000) ||
    (decide (0x10000000 ≤ r.1) && decide (r.1 < 0x10200000) && decide (0x10000 ≤ r.1 % 0x20000)
      && decide (r.1 % 0x20000 + r.2 ≤ 0x20000)) ||
    (decide (0x28000000 ≤ r.1) && decide (r.1 + r.2 ≤ 0x28100000))
  decide (n ≤ 16) && rs.all (fun r => inside r && r.1 % 4 == 0 && r.2 % 4 == 0)
    && decide ((rs.map (·.2)).foldl (· + ·) 0 ≤ 65344)

/-! ### Power-fail and hold-up (R434 to R437) -/

/-- What ends with the declaration of a power-fail or a thermal shutdown: a software save ends without its header. -/
def Hw.cutSave (h : Hw) : Hw :=
  match h.save.busy with
  | some (3, k, _, _, _) => { h with save := { h.save with busy := none, cut := some k } }.setBit (sv rSTAT) 0 false
  | _ => h

/-- POWER_FAIL: the samples that arrive; the fourth in a row below 18.0 V, counted on from those before, declares it
(R434, R435). -/
def Hw.powerFail (h : Hw) (samples : List Nat) : Hw :=
  let r := samples.foldl (fun (x : Hw × Bool) v => let h := x.1.vlogSample v; (h, x.2 || decide (4 ≤ h.sup.lowRun)))
    (h, false)
  let h := r.1
  if r.2 ∧ h.mode ≠ mHOLDUP then
    let h := (h.evt pPWR 0).log pPWR 1 0 0 h.grain
    let h := { h with nv := { h.nv with fails := min 0xFFFF (h.nv.fails + 1) } }
    h.cutSave.setMode mHOLDUP oHOLDUP
  else h

/-- Engines, cores and outside links stop with shedding; a PHY that stops has no link (R435). -/
def Hw.stopAll (h : Hw) : Hw :=
  let h := h.each (List.range 16) fun h e => h.setBit (ra (pHYT e) rSTAT) 0 false
  let h := h.each (List.range 4) fun h p => h.when (h.reg (ra pNSW (0x070 + 4 * p)) != 0) fun h =>
    (h.setReg (ra pNSW (0x070 + 4 * p)) 0).evt pNSW 8
  let h := (h.setBit (ra pNSW rREADY) 2 false).setBit (ra pNSW rREADY) 3 false
  { h with sys := { h.sys with acRun := 0, scRun := 0 }, sup := { h.sup with shed := true } }

/-- SHED_COMPLETE: queued records reach MRAM, then the save begins unless one already counts as this one (R436). -/
def Hw.shedDone (h : Hw) (m : Mem) : Hw :=
  if (h.mode = mHOLDUP ∨ h.mode = mCOOLDOWN) ∧ !h.sys.held ∧ !h.sup.shed then
    let h := (h.stopAll.evt pPWR 1).logFlush
    if h.save.busy.isSome ∨ h.save.done then h else h.saveStart m (if h.mode = mHOLDUP then 1 else 2)
  else h

/-- WARM_RESTART (R437): BRINGUP, or COOLDOWN after a thermal shutdown recorded in HOLDUP. VLOG has stood at or above
19.2 V from grain `since` on, and 20 ms have passed since then and since the save's completion. -/
def Hw.warmRestart (h : Hw) (m : Mem) (since : Nat) : Hw :=
  let unbroken : Bool := match h.sup.lowAt with | some t => decide (t < since) | none => true
  if h.mode = mHOLDUP ∧ h.save.busy.isNone ∧ (h.save.done ∨ h.sys.held) ∧ unbroken
      ∧ max since h.save.doneAt + 10000000 ≤ h.grain then
    let therm := h.sys.thermPending
    let h := { h with nv := { h.nv with warms := min 0xFFFF (h.nv.warms + 1) } }
    let h := (h.dieRelease m).setBit (sv rSTAT) 1 true
    if therm then
      { h with sys := { h.sys with held := true, heldFor := 3 },
               save := { done := true, doneAt := h.grain } }.setF (sy 0x040) 2 0 7
    else h
  else h

/-- HOLDUP_EXHAUSTED (R437): the die is held until the start-up conditions of R431. -/
def Hw.exhausted (h : Hw) : Hw := if h.mode = mHOLDUP then h.dieReset 2 else h

/-- The measurement of the capacitor begins: the charger stops (R433). -/
def Hw.testStart (h : Hw) : Hw := { h with sup := { h.sup with testing := true } }.setBit (pw rSTAT) 1 false

/-- HOLD_TEST, at a VLOG of so many millivolts: refused in RUN, SHADOW and HOLDUP, and while VLOG lies below 19.2 V. -/
def Hw.holdTest (h : Hw) (mv : Nat) : Hw :=
  if h.mode = mRUN ∨ h.mode = mSHADOW ∨ h.mode = mHOLDUP ∨ mv < 19200 then h.evt pPWR 4 else h.testStart

/-- HOLD_TEST_AUTO: once in BRINGUP, when VHOLD first reaches VLOG − 0.5 V. -/
def Hw.holdAuto (h : Hw) (vlog vhold : Nat) : Hw :=
  let h := (h.vlogSample vlog).setMv 0x044 vhold
  if h.mode = mBRINGUP ∧ !h.sup.autoDone ∧ vlog ≤ vhold + 500 then
    { h with sup := { h.sup with autoDone := true } }.testStart
  else h

/-- HOLD_TEST_DONE (R433). -/
def Hw.testDone (h : Hw) (cap esr : Nat) : Hw :=
  if h.sup.testing then
    let weak := decide (cap < 3760) || decide (100 < esr)
    let h := { h with sup := { h.sup with testing := false } }
    let h := h.setReg (pw 0x048) (BitVec.ofNat 32 (esr % 0x10000 * 0x10000 + cap % 0x10000))
    let h := ((h.setBit (pw rSTAT) 1 true).setBit (pw rREADY) 2 (!weak)).setBit (pw rSTAT) 0 weak
    if weak then (h.evt pPWR 2).when (h.bit (pw 0x04C) 0) (·.devSet 1) else h
  else h

/-! ### Temperature (R442 to R447) -/

/-- Sixteenths of a degree. -/
def deg (t : Int) : Int := 16 * t

/-- The median of readings: of an even number the mean of the middle two, rounded down. -/
def median (l : List Int) : Option Int :=
  let s := l.mergeSort (fun a b => decide (a ≤ b))
  let n := s.length
  if n = 0 then none
  else if n % 2 = 1 then s[n / 2]?
  else match s[n / 2 - 1]?, s[n / 2]? with
    | some a, some b => some ((a + b) / 2)
    | _, _ => none

/-- A sensor becomes invalid with a status (R442). -/
def Hw.tsInvalid (h : Hw) (s status : Nat) : Hw :=
  if h.tsValid s then (h.setF (th (0x040 + 4 * s)) 19 16 status).evt pTHM 2 else h

/-- The readings over which a group's median is taken: sensors in range and not stuck. -/
def Hw.medianOf (h : Hw) (temp : Nat → Int) (l : List Nat) : Option Int :=
  median ((l.filter fun s => h.tsValid s || h.f (th (0x040 + 4 * s)) 19 16 == 3).map temp)

/-- How long a sensor's code stands, and how far the median of its group has ranged meanwhile, after a reading; `was` is
the code before it (R442). -/
def Hw.tsCode (h : Hw) (temp was : Nat → Int) (l : List Nat) : Hw :=
  match h.medianOf temp l with
  | none => h
  | some md => h.each l fun h s =>
    let x := tabGet (0, 0, 0) s h.sup.codes
    let x := if x.1 = 0 ∨ temp s ≠ was s then (h.grain + 1, md, md) else (x.1, min x.2.1 md, max x.2.2 md)
    { h with sup := { h.sup with codes := tabSet (0, 0, 0) s x h.sup.codes } }

/-- SENSOR_STUCK: the code has not changed for 60 s, while the group median moved by 2 °C or more (R442). -/
def Hw.tsStuck (h : Hw) (s : Nat) : Hw :=
  let x := tabGet (0, 0, 0) s h.sup.codes
  if x.1 ≠ 0 ∧ x.1 + 30000000000 ≤ h.grain + 1 ∧ deg 2 ≤ x.2.2 - x.2.1 then h.tsInvalid s 2 else h

/-- The checks of a group's sensors (R442). -/
def Hw.tsGroup (h : Hw) (temp : Nat → Int) (l : List Nat) : Hw :=
  let h := h.each l fun h s => if temp s < deg (-55) ∨ deg 175 < temp s then h.tsInvalid s 1 else h
  match h.medianOf temp l with
  | none => h
  | some md => h.each l fun h s => if deg 20 < (temp s - md).natAbs then h.tsInvalid s 3 else h

/-- The maximum over a group's valid sensors (R443). -/
def Hw.tsMax (h : Hw) (temp : Nat → Int) (l : List Nat) : Option Int :=
  (l.filter h.tsValid).foldl (fun o s => match o with | none => some (temp s) | some x => some (max x (temp s))) none

/-- A level with hysteresis. -/
def level (was : Bool) (t : Option Int) (rise clear : Int) : Bool :=
  match t with
  | none => was
  | some t => if deg rise ≤ t then true else if t < deg clear then false else was

/-- The band after a reading (R446). -/
def bandOf (b : Nat) (t : Int) : Nat :=
  let up := if deg 100 ≤ t then 3 else if deg 70 ≤ t then 2 else if 0 ≤ t then 1 else 0
  let stay := if deg 97 ≤ t then 3 else if deg 67 ≤ t then 2 else if deg (-3) ≤ t then 1 else 0
  max up (min b stay)

/-- THERMAL_SHUTDOWN (R445, R44, R451). -/
def Hw.thermShut (h : Hw) : Hw :=
  let h := { h with sup := { h.sup with shut := true } }.log pTHM 1 Config.shutdownCode.toNat 0 h.grain
  if h.mode = mCOOLDOWN then h
  else if h.mode = mHOLDUP then { h with sys := { h.sys with thermPending := true } }
  else h.cutSave.setMode mCOOLDOWN oCOOLDOWN

/-- THERMAL_READ: every 1 ms. -/
def Hw.thermRead (h : Hw) (t : ThermalReading) : Hw :=
  let temp := fun s => t.temps.getD s 0
  let was := fun s => signed 16 (h.f (th (0x040 + 4 * s)) 15 0)
  let h := h.each (List.range 12) fun h s => h.setF (th (0x040 + 4 * s)) 15 0 (unsign 16 (temp s))
  let h := (h.tsGroup temp dieSensors).tsGroup temp boardSensors
  let h := (h.tsCode temp was dieSensors).tsCode temp was boardSensors
  let die := h.tsMax temp dieSensors
  let board := h.tsMax temp boardSensors
  -- the maximum of a group with no valid sensor is open
  let lost := die.isNone || board.isNone
  let fr := h.freeWord
  let h := h.when lost Hw.drew
  let val := fun (o : Option Int) (hi lo : Nat) => match o with | some v => unsign 16 v | none => fld fr hi lo
  let h := (h.setF (th 0x070) 15 0 (val die 15 0)).setF (th 0x070) 31 16 (val board 31 16)
  let nd := h.nValid dieSensors
  let nb := h.nValid boardSensors
  let low := decide (nd < 3)
  let u := h.sup
  let cd : Nat := match die with | some v => if deg 130 ≤ v then u.shutDie + 1 else 0 | none => u.shutDie
  let cb : Nat := match board with | some v => if deg 105 ≤ v then u.shutBoard + 1 else 0 | none => u.shutBoard
  let below := fun (o : Option Int) (l : Int) => match o with | some v => decide (v < deg l) | none => true
  let cool := decide (1 ≤ nd) && below die 100 && below board 80
  let med := h.medianOf temp dieSensors
  let ro := match med with
    | some md => decide (2 * deg 20 < ((t.roCount : Int) - 20480 - 2 * md).natAbs)
    | none => false
  let u := { u with dieWarn := level u.dieWarn die 105 100, dieThrottle := level u.dieThrottle die 115 110,
                    boardWarn := level u.boardWarn board 85 80, boardThrottle := level u.boardThrottle board 95 90,
                    shutDie := cd, shutBoard := cb,
                    coolFrom := if cool then some (u.coolFrom.getD h.grain) else none,
                    roFrom := if ro then some (u.roFrom.getD h.grain) else none }
  let h := { h with sup := u }.setReg (th 0x080) (BitVec.ofNat 32 t.roCount)
  let warn := u.dieWarn || u.boardWarn || low || decide (nb < 2)
  let thr := u.dieThrottle || u.boardThrottle || low || decide (nb = 0)
  let h := h.when (warn && !h.bit (th rSTAT) 0) (·.evt pTHM 0)
  let h := ((h.setBit (th rSTAT) 0 warn).when low (·.setBit (th rSTAT) 2 true)).when (decide (nb = 0)) (·.devSet 2)
  let h := if thr && !h.bit (th rSTAT) 1 then
      { h with sup := { h.sup with stepAt := h.grain } }.setF (th rSTAT) 7 6 1 |>.evt pTHM 1
    else if thr then h else h.setF (th rSTAT) 7 6 0
  let h := h.setBit (th rSTAT) 1 thr
  let h := match die with
    | none => h
    | some v =>
      let b := bandOf h.band v
      if b = h.band then h
      else ({ h with sup := { h.sup with bands := (h.grain, h.band) :: h.sup.bands.take 7 } }.setF (th rSTAT) 5 4 b).evt pTHM 3
  if (decide (2 ≤ cd) || decide (2 ≤ cb) || decide (nd = 0)) && !u.shut then h.thermShut else h

/-- THROTTLE_STEP (R444): 1 s after the step before. -/
def Hw.throttleStep (h : Hw) : Hw :=
  let n := h.f (th rSTAT) 7 6
  if h.bit (th rSTAT) 1 ∧ 1 ≤ n ∧ n < 3 ∧ h.sup.stepAt + 500000000 ≤ h.grain then
    { h with sup := { h.sup with stepAt := h.grain } }.setF (th rSTAT) 7 6 (n + 1)
  else h

/-- Whether a condition that stands from a grain on has stood for so many grains. -/
def stood (since : Option Nat) (n g : Nat) : Bool := match since with | some t => decide (t + n ≤ g) | none => false

/-- COOLDOWN_END (R445): both maxima have stood below their clear values for 10 s. -/
def Hw.cooldownEnd (h : Hw) (m : Mem) : Hw :=
  if h.mode = mCOOLDOWN ∧ h.save.done ∧ stood h.sup.coolFrom (10 * 500000000) h.grain ∧ 1 ≤ h.nValid dieSensors then
    h.dieRelease m
  else h

/-- RO_DISAGREE: the disagreement has stood for 10 s (R447). -/
def Hw.roDisagree (h : Hw) : Hw :=
  if stood h.sup.roFrom (10 * 500000000) h.grain then (h.setBit (th rSTAT) 3 true).evt pTHM 4 else h

/-- The rules of a commit of THM (R453). -/
def Hw.thmSetOk (h : Hw) : Bool :=
  let w := h.shd (th 0x078)
  decide (4 * fld w 31 24 ≤ fld w 15 8) && [fld w 7 0, fld w 15 8, fld w 23 16, fld w 31 24].all (· != 0)

/-- POWER_FAIL. -/
def execPowerFail (g : Nat) (samplesMv : List Nat) (s : State) := runSup g (fun _ h => h.powerFail samplesMv) s
/-- SHED_COMPLETE. -/
def execShedComplete (g : Nat) (s : State) := run g (fun m h => h.shedDone m) s
/-- SAVE_COMPLETE. -/
def execSaveComplete (g : Nat) (s : State) := run g (fun m h => h.saveDone m) s
/-- SAVE_CMD. -/
def execSaveCmd (g : Nat) (s : State) := run g (fun m h => h.swWrite pSAVE 0x044 fun h => h.saveCmd m) s
/-- RESTORE_CMD. -/
def execRestoreCmd (g : Nat) (s : State) := run g (fun m h => h.swWrite pSAVE 0x044 fun h => h.restoreCmd m) s
/-- RESTORE_COMPLETE. -/
def execRestoreComplete (g : Nat) (s : State) := run g (fun _ h => h.restoreDone) s
/-- WARM_RESTART. -/
def execWarmRestart (g since : Nat) (s : State) := runSup g (fun m h => h.warmRestart m since) s
/-- HOLDUP_EXHAUSTED. -/
def execHoldupExhausted (g : Nat) (s : State) := runSup g (fun _ h => h.exhausted) s
/-- HOLD_TEST. -/
def execHoldTest (g : Nat) (vlogMv : Nat) (s : State) :=
  run g (fun _ h => (h.vlogSample vlogMv).swWrite pPWR 0x050 fun h => h.holdTest vlogMv) s
/-- HOLD_TEST_DONE. -/
def execHoldTestDone (g : Nat) (capUf esrMohm : Nat) (s : State) := run g (fun _ h => h.testDone capUf esrMohm) s
/-- HOLD_TEST_AUTO. -/
def execHoldTestAuto (g : Nat) (vlogMv vholdMv : Nat) (s : State) := run g (fun _ h => h.holdAuto vlogMv vholdMv) s
/-- VLOG_HIGH. -/
def execVlogHigh (g : Nat) (mv : Nat) (s : State) := runCool g (fun _ h => h.vlogSample mv) s
/-- THERMAL_READ. -/
def actThermalRead (g : Nat) (t : ThermalReading) (s : State) := runCool g (fun _ h => h.thermRead t) s
/-- THROTTLE_STEP. -/
def actThrottleStep (g : Nat) (s : State) := runCool g (fun _ h => h.throttleStep) s
/-- COOLDOWN_END. -/
def execCooldownEnd (g : Nat) (s : State) := runSup g (fun m h => h.cooldownEnd m) s
/-- RO_DISAGREE. -/
def execRoDisagree (g : Nat) (s : State) := runCool g (fun _ h => h.roDisagree) s
/-- SENSOR_STUCK. -/
def execSensorStuck (g : Nat) (n : Fin 12) (s : State) := runCool g (fun _ h => h.tsStuck n) s
/-- FLT_WINDOW_EXPIRY. -/
def execFltWindowExpiry (g : Nat) (page : Fin 512) (s : State) := runCool g (fun _ h => h.fltExpiry page) s
/-- LOG_RECORD_WRITE. -/
def actLogRecordWrite (g : Nat) (s : State) := runCool g (fun _ h => h.logWrite) s
/-- LOG_RD_WRITE. -/
def actLogRdWrite (g : Nat) (v : Word) (s : State) := run g (fun _ h => h.swWrite pFLT 0x044 fun h => h.logRd v) s
/-- DEV_CLR. -/
def execDevClr (g : Nat) (v : BitVec 3) (s : State) := run g (fun _ h => h.swWrite pFLT 0x050 fun h => h.devClr v) s

end Sys2Proof.Machine
end

