-- ==== Sys2Proof/Machine/Saf.lean ====
section
/-! DEFINITION. The safety island (R358 to R384): its two channels, pairs, safety reset, outputs, functions and Sortik
telegrams. -/

namespace Sys2Proof.Machine

def sf (off : Nat) : Nat := ra pSAF off
def fnReg (k off : Nat) : Nat := sf (0x100 + 0x40 * k + off)
def rxReg (j off : Nat) : Nat := sf (0x400 + 0x20 * j + off)

/-! ### Configuration and its signature (R362) -/

/-- Offsets of the configuration registers in ascending order. -/
def safCfgOffs : List Nat :=
  (List.range 8).map (0x060 + 4 * ·) ++ (List.range 4).map (0x080 + 4 * ·) ++
  (List.range 8).flatMap (fun k => (List.range 13).map (0x100 + 0x40 * k + 4 * ·)) ++
  (List.range 16).flatMap (fun j => (List.range 5).map (0x400 + 0x20 * j + 4 * ·)) ++
  (List.range 16).map (0x600 + 4 * ·) ++
  (List.range 4).flatMap (fun j => (List.range 3).map (0x680 + 0x10 * j + 4 * ·))

/-- SAF.CFG_SIG: the signature now. -/
def Hw.safSig (h : Hw) : Word := crc32c (octets (safCfgOffs.map fun o => h.reg (sf o)))

/-- SAF.READY sets when R361's conditions hold. -/
def Hw.safReadyCheck (h : Hw) : Hw :=
  let wd := (List.range 16).all fun j =>
    !h.bit (rxReg j 0) 31 || decide (2 * h.batch * h.ncyc ≤ h.f (rxReg j 0x0C) 15 0 * grainsPerMs)
  if h.saf.crcOk && h.saf.tested && h.saf.faults == 0 && wd && h.safSig == h.reg (sf 0x040) then
    h.setBit (sf rREADY) 0 true else h

/-! ### Functions, forces and outputs -/

def Hw.safCh (h : Hw) (chB : Bool) : SafCh := if chB then h.saf.b else h.saf.a
def Hw.setSafCh (h : Hw) (chB : Bool) (c : SafCh) : Hw :=
  { h with saf := if chB then { h.saf with b := c } else { h.saf with a := c } }
def Hw.safFn (h : Hw) (chB : Bool) (k : Nat) : SafFn := tabGet {} k (h.safCh chB).fns
def Hw.setSafFn (h : Hw) (chB : Bool) (k : Nat) (f : SafFn) : Hw :=
  h.setSafCh chB { h.safCh chB with fns := tabSet {} k f (h.safCh chB).fns }

/-- The order of states by what they restrict. -/
def fnRank : Nat → Nat | 0 => 0 | 1 => 1 | 4 => 2 | 2 => 3 | _ => 4

/-- The state of SFk that both channels together hold: the more restrictive. -/
def Hw.fnState (h : Hw) (k : Nat) : Nat :=
  let a := (h.safFn false k).state
  let b := (h.safFn true k).state
  if fnRank a ≤ fnRank b then b else a

def Hw.fnKind (h : Hw) (k : Nat) : Nat := h.f (fnReg k 0) 2 0
def Hw.fnForced (h : Hw) (k : Nat) : Bool := h.fnState k == 3

/-- The legs the island forces (R360, R371): all of them while a safety fault is pending. -/
def Hw.safMask (h : Hw) : BitVec 96 :=
  if h.saf.faults != 0 then BitVec.allOnes 96
  else (List.range 8).foldl (fun m k =>
    if h.fnForced k then m ||| (h.reg (fnReg k 0x14) ++ h.reg (fnReg k 0x10) ++ h.reg (fnReg k 0x0C)) else m) 0

/-- The hardwired force lines follow the island: legs newly forced take the safe state, and their axes go to OFF
(R78, R270). -/
def Hw.safForces (h : Hw) : Hw :=
  let m := h.safMask
  h.each (List.range 96) fun h n =>
    let l := h.leg n
    if m.getLsbD n = l.fSafety then h
    else
      let h := h.setLeg n { l with fSafety := m.getLsbD n }
      if m.getLsbD n then
        let h := h.forceBegin n
        match h.legAxis n with | some a => h.axSafeOff a | none => h
      else h

/-- STAT.WAIT_RESET of a function as a channel holds it: FORCED, the demand over, and only a reset ends it (R370, R374). -/
def Hw.fnWaits (h : Hw) (chB : Bool) (k : Nat) : Bool :=
  let f := h.safFn chB k
  f.state == 3 && !f.dem && (f.wait || f.fbDisc || !h.bit (fnReg k 0) 4)

/-- The status words of SFk follow its state; entering FORCED, STOPPING or LIMITED is recorded at rank 2 (R370), and a
stop begins with a QSTOP to the axis (R372). -/
def Hw.fnShow (h : Hw) (k : Nat) : Hw :=
  let a := h.safFn false k
  let b := h.safFn true k
  let st := h.fnState k
  let was := h.f (fnReg k 0x34) 2 0
  let b2n : Bool → Nat := fun b => if b then 1 else 0
  let h := h.setReg (fnReg k 0x34)
    (BitVec.ofNat 32 (st + 16 * b2n (a.fbDisc || b.fbDisc) + 32 * b2n (a.viol || b.viol) +
      64 * b2n (h.fnWaits false k || h.fnWaits true k)))
  let h := if st ≠ was ∧ 2 ≤ st then (h.log pSAF 2 2 k h.grain).evt pSAF 2 else h
  if st = 2 ∧ was ≠ 2 then h.axQstopNow (h.f (fnReg k 0) 20 16) else h

/-- STAT.ANY_DEMAND and every function's words. -/
def Hw.fnsShow (h : Hw) : Hw :=
  let h := (h.each (List.range 8) Hw.fnShow).safForces
  h.setBit (sf rSTAT) 2 ((List.range 8).any fun k => 2 ≤ h.fnState k)

/-- SO_STAT.ON: both switches closed. From an output's turning on its test pulses are reckoned; a test due while it is off
is skipped (R368). -/
def Hw.soShow (h : Hw) : Hw :=
  let on := h.saf.a.closed &&& h.saf.b.closed
  let tests := (List.range 4).foldl (fun t j =>
    if !on.getLsbD j then tabSet 0 (2 * j) 0 (tabSet 0 (2 * j + 1) 0 t)
    else if h.bit (sf 0x094) j then t else tabSet 0 (2 * j) (h.grain + 1) t) h.saf.tests
  { h with saf := { h.saf with tests } }.setF (sf 0x094) 3 0 on.toNat

/-- Whether a channel closes its switch of output j (R367, R375). -/
def Hw.soPermit (h : Hw) (chB : Bool) (j : Nat) : Bool :=
  1 ≤ h.mode.toNat && decide (h.mode.toNat ≤ 4) && h.saf.faults == 0 && h.bit (sf 0x090) j &&
  (List.range 8).all fun k =>
    let f := h.safFn chB k
    let sbc := h.f (fnReg k 0) 14 12 == j
    !(f.state == 3 && (h.bit (fnReg k 0) (8 + j) || sbc)) && !(f.lead && sbc)

/-- A channel drives its own switches. -/
def Hw.soDrive (h : Hw) (chB : Bool) : Hw :=
  let m : BitVec 4 := (List.range 4).foldl (fun m j => if h.soPermit chB j then m ||| BitVec.ofNat 4 (2 ^ j) else m) 0
  (h.setSafCh chB { h.safCh chB with closed := m }).soShow

/-! ### Safety faults (R360) -/

/-- SAFETY_FAULT: recorded at rank 2; outputs open, every force line asserted, SAFEHALT. `chan`: bit 0 channel A, bit 1
channel B. -/
def Hw.safFault (h : Hw) (code chan : Nat) : Hw :=
  let none_ := h.saf.faults == 0
  let h := (h.evt pSAF 1).log pSAF 2 code 0 h.grain
  let h := if none_ then (h.setF (sf 0x048) 7 0 code).setF (sf 0x048) 9 8 chan
    else if h.f (sf 0x048) 7 0 = code ∧ code ≠ 1 ∧ code ≠ 5 ∧ code ≠ 6 then
      h.setF (sf 0x048) 9 8 (h.f (sf 0x048) 9 8 ||| chan)
    else h
  let h := { h with saf := { h.saf with faults := h.saf.faults ||| BitVec.ofNat 8 (2 ^ code), lastFault := some h.grain,
                                        rearm := false } }
  let h := (h.setBit (sf rSTAT) 0 true).setBit (sf rREADY) 0 false
  (h.soOpen.safForces).toSafehalt false

/-! ### Connections (R378, R379) -/

def Hw.safRx (h : Hw) (j : Nat) : SafRx := tabGet { } j h.saf.rx
def Hw.setSafRx (h : Hw) (j : Nat) (x : SafRx) : Hw := { h with saf := { h.saf with rx := tabSet {} j x h.saf.rx } }
def Hw.rxState (h : Hw) (j : Nat) : Nat := h.f (rxReg j 0x14) 2 0
def Hw.rxEn (h : Hw) (j : Nat) : Bool := h.bit (rxReg j 0) 31

/-- STAT.ANY_SINGLE. -/
def Hw.rxShow (h : Hw) : Hw := h.setBit (sf rSTAT) 3 ((List.range 16).any fun j => h.rxEn j && h.rxState j == 2)

/-- A connection becomes SAFE with a cause; of two causes in one tick the lower stands (R381). -/
def Hw.rxSafe (h : Hw) (j cause : Nat) : Hw :=
  let x := h.safRx j
  if h.rxState j = 3 then
    let h := h.setSafRx j { x with wait := [], goodRun := 0, bothRun := 0 }
    if x.safeAt = h.saf.tick ∧ cause < h.f (rxReg j 0x14) 11 8 then h.setF (rxReg j 0x14) 11 8 cause else h
  else
    let h := h.setSafRx j { x with wait := [], goodRun := 0, bothRun := 0, grace := none, safeAt := h.saf.tick }
    let h := ((h.setF (rxReg j 0x14) 2 0 3).setF (rxReg j 0x14) 11 8 cause).setF (rxReg j 0x14) 31 16 0
    ((h.evt pSAF 6).fltEvent pSAF 2 6 j h.grain).1.rxShow

/-- SB of a telegram. -/
def telSb (d : List Byte) : Nat := leNat ((d.drop 8).take 2)
def telSeq (d : List Byte) : Nat := leNat ((d.drop 2).take 2)

/-- A telegram is accepted, on both paths or on one (R379). -/
def Hw.rxAccept (h : Hw) (j : Nat) (d : List Byte) (both : Bool) (lanB : Bool) : Hw :=
  let x := h.safRx j
  let later := x.wait.foldl (fun m w => m &&& telSb w.2.2.1) 0xFFFF
  let run := if both then x.bothRun + 1 else 0
  let x := { x with last := some (telSeq d), done := some (telSeq d, d), accAt := h.grain, goodRun := x.goodRun + 1,
                    bothRun := run, grace := if 16 ≤ run then none else x.grace }
  let h := (h.setSafRx j x).setF (rxReg j 0x14) 5 4 (if both then 3 else if lanB then 2 else 1)
  if h.rxState j = 3 then h
  else
    let h := h.setF (rxReg j 0x14) 31 16 (telSb d &&& later)
    if both then (h.when (16 ≤ run) fun h => h.setF (rxReg j 0x14) 2 0 1).rxShow
    else if h.f (rxReg j 0x10) 7 0 = 0 then h.rxSafe j 7
    else
      let h := (h.bump (rxReg j 0x18) 7 0).evt pSAF 7
      ((h.setF (rxReg j 0x14) 2 0 2).setSafRx j { x with grace := some (x.grace.getD h.grain) }).rxShow

/-- The checks of a copy in R378's order: the cause of the first failure. -/
def Hw.rxCheck (h : Hw) (j : Nat) (d : List Byte) : Option Nat :=
  let src := BitVec.ofNat 32 (leNat ((d.drop 4).take 4))
  let crc := BitVec.ofNat 32 (leNat ((d.drop 16).take 4))
  let stamp := leNat ((d.drop 12).take 4)
  let age := ((h.ctGrains h.grain : Int) - stamp) % (2 : Int) ^ 32
  let jump := match (h.safRx j).last with
    | none => true
    | some l =>
      let n := ((telSeq d : Int) - l) % 65536
      decide (n ≤ (h.f (rxReg j 0) 11 8 : Int))
  if d.length ≠ 20 ∨ d.getD 0 0 ≠ 1 ∨ d.getD 10 0 ≠ 0 ∨ d.getD 11 0 ≠ 0 then some 1
  else if src ≠ h.reg (rxReg j 4) then some 2
  else if crc32c (wordBytes (h.reg (rxReg j 8)) ++ d.take 16) ≠ crc then some 3
  else if (h.f (rxReg j 0x0C) 15 0 * grainsPerMs : Int) < age then some 4
  else if !jump then some 5 else none

/-- COMPARE_WIN of a connection, in grains. -/
def Hw.rxWin (h : Hw) (j : Nat) : Nat := 50000 * h.f (rxReg j 0x0C) 31 24

/-- First copies whose window has ended, by grain `now`, without a second: each is accepted single-path, the oldest
first (R379). -/
def Hw.rxSingles (h : Hw) (j now : Nat) : Hw :=
  h.each ((h.safRx j).wait.filter fun w => decide (w.2.2.2 + h.rxWin j ≤ now)) fun h w =>
    let x := h.safRx j
    if x.wait.contains w then
      (h.setSafRx j { x with wait := x.wait.filter (· != w) }).rxAccept j w.2.2.1 false w.2.1
    else h

/-- SORTIK_TELEGRAM_RECEIVE: a copy for a connection number (R378, R379). -/
def Hw.sortikCopy (h : Hw) (lanB : Bool) (conn : Nat) (d : List Byte) : Hw :=
  match (List.range 16).find? fun j => h.rxEn j && h.f (rxReg j 0) 7 0 == conn with
  | none => h
  | some j =>
    -- a copy in the last grain of the window is within it
    let h := h.rxSingles j (h.grain - 1)
    match h.rxCheck j d with
    | some c => (h.when (c == 3) (·.bump (rxReg j 0x18) 23 16)).rxSafe j c
    | none =>
      let x := h.safRx j
      let mism := fun (h : Hw) => (h.bump (rxReg j 0x18) 31 24).rxSafe j 6
      match x.wait.find? fun w => w.1 == telSeq d with
      | some w =>
        if w.2.2.1 = d then (h.setSafRx j { x with wait := x.wait.filter (·.1 != w.1) }).rxAccept j d true lanB else mism h
      | none =>
        match x.done with
        | some (s, d') =>
          if s = telSeq d then (if d' = d then h else mism h)
          else
            (h.setSafRx j { x with wait := x.wait ++ [(telSeq d, lanB, d, h.grain)] }).setF (rxReg j 0x14) 31 16
              (h.f (rxReg j 0x14) 31 16 &&& telSb d)
        | none =>
          (h.setSafRx j { x with wait := x.wait ++ [(telSeq d, lanB, d, h.grain)] }).setF (rxReg j 0x14) 31 16
            (h.f (rxReg j 0x14) 31 16 &&& telSb d)

/-- SORTIK_COMPARE_WIN: copies for which no second has come by COMPARE_WIN are accepted single-path. -/
def Hw.rxCompareWin (h : Hw) (j : Nat) : Hw := if h.rxEn j then h.rxSingles j h.grain else h

/-- SORTIK_GRACE_EXPIRY: the grace timer has reached GRACE seconds. -/
def Hw.rxGrace (h : Hw) (j : Nat) : Hw :=
  if h.rxEn j ∧ stood (h.safRx j).grace (h.f (rxReg j 0x10) 7 0 * 500000000) h.grain then h.rxSafe j 7 else h

/-- SORTIK_WATCHDOG: no telegram accepted for WD ms. -/
def Hw.rxWatchdog (h : Hw) (j : Nat) : Hw :=
  if h.rxEn j ∧ h.rxState j ≠ 3 ∧ (h.safRx j).accAt + h.f (rxReg j 0x0C) 15 0 * grainsPerMs ≤ h.grain then
    (h.bump (rxReg j 0x18) 15 8).rxSafe j 8
  else h

/-- RX[j].GRACE_LEFT, ms. -/
def Hw.rxGraceLeft (h : Hw) (j : Nat) : Nat :=
  match (h.safRx j).grace with
  | some t => (t + h.f (rxReg j 0x10) 7 0 * 500000000 - h.grain) / grainsPerMs
  | none => 0

/-- SB as a channel builds it: the pairs that permit and the functions in PERMIT or LIMITED, 0 in SAFEHALT (R377). -/
def Hw.telSafeBits (h : Hw) (chB : Bool) : Nat :=
  let ok := fun k => let st := (h.safFn chB k).state; st == 1 || st == 4
  if h.mode = mSAFEHALT then 0
  else (h.safCh chB).permit.toNat + 256 * (List.range 8).foldl (fun n k => if ok k then n + 2 ^ k else n) 0

/-- Both channels build the same telegrams (R377). -/
def Hw.telAgree (h : Hw) : Bool := h.telSafeBits false == h.telSafeBits true

/-- The telegram of TX[j] for a frame of cycle time cycT (R376, R377). -/
def Hw.sortikTelegram (h : Hw) (j seq : Nat) (cycT : Nat) : List Byte :=
  let halt := h.mode == mSAFEHALT
  let sb := h.telSafeBits false
  let body := octets [BitVec.ofNat 32 (1 + (if halt then 256 else 0) + 0x10000 * (seq % 0x10000)),
    h.reg (sf (0x684 + 0x10 * j)), BitVec.ofNat 32 sb, BitVec.ofNat 32 cycT]
  body ++ wordBytes (crc32c (wordBytes (h.reg (sf (0x688 + 0x10 * j))) ++ body))

/-- SORTIK_TELEGRAM_SEND: SEQ of every enabled TX rises by one in each cyclic frame; telegrams on which the channels
disagree are not sent, and count as a CROSS difference. -/
def Hw.sortikSend (h : Hw) : Hw :=
  let any := (List.range 4).any fun j => h.bit (sf (0x680 + 0x10 * j)) 31
  { h with saf := { h.saf with txDiff := any && !h.telAgree } }.each (List.range 4) fun h j =>
    if h.bit (sf (0x680 + 0x10 * j)) 31 then
      h.setF (sf (0x68C + 0x10 * j)) 15 0 ((h.f (sf (0x68C + 0x10 * j)) 15 0 + 1) % 0x10000)
    else h

/-! ### Demands -/

/-- Whether remote line m demands (R370, R380). -/
def Hw.rdDemand (h : Hw) (m : Nat) : Bool :=
  let j := h.f (sf (0x600 + 4 * m)) 3 0
  !h.bit (sf (0x600 + 4 * m)) 31 || !h.rxEn j || h.rxState j == 3 ||
    !h.bit (rxReg j 0x14) (16 + h.f (sf (0x600 + 4 * m)) 11 8)

/-- Whether the partner's last SAFETY frame is still heeded (R422). -/
def Hw.peerFresh (h : Hw) : Bool :=
  h.bit (ra pPAIR 0x040) 1 && (match h.saf.peerAge with | some n => decide (n ≤ 2) | none => false)

/-- Whether a function is demanded as a channel sees it (R370, R422). -/
def Hw.fnDemand (h : Hw) (chB : Bool) (k : Nat) : Bool :=
  (List.range 8).any (fun i => h.bit (fnReg k 8) i && (h.safCh chB).pdem.getLsbD i) ||
  (List.range 16).any (fun m => h.bit (fnReg k 8) (8 + m) && h.rdDemand m) ||
  (h.peerFresh && h.saf.peerStop.getLsbD k)

/-! ### The tick of one channel (R358) -/

/-- A line after a sample (R363). -/
def SafLine.sample (l : SafLine) (filt : Nat) (s : Bool) : SafLine :=
  if s = l.level then { l with run := 0 } else if filt ≤ l.run then ⟨s, 0⟩ else { l with run := l.run + 1 }

def SafCh.line (c : SafCh) (i : Nat) : Bool := (tabGet {} i c.lines).level

/-- The safe value of line A or B of a pair stands (R363). -/
def Hw.lineSafe (h : Hw) (c : SafCh) (i : Nat) (b : Bool) : Bool :=
  let anti := h.bit (sf (0x060 + 4 * i)) 1
  if b then c.line (2 * i + 1) == anti else !c.line (2 * i)

/-- The samples of a tick through the filters; SRST's rise and fall (R366). -/
def Hw.safSample (h : Hw) (chB : Bool) (inp : TickInputs) : Hw :=
  let c := h.safCh chB
  let put := fun (t : Tab SafLine) (i filt : Nat) (s : Bool) => tabSet {} i ((tabGet {} i t).sample filt s) t
  let ls := (List.range 8).foldl (fun t i =>
    let f := h.f (sf (0x060 + 4 * i)) 6 4
    put (put t (2 * i) f (inp.siA.getLsbD i)) (2 * i + 1) f (inp.siB.getLsbD i)) c.lines
  let was := c.line 16
  let ls := put ls 16 4 inp.srst
  let c : SafCh := { c with lines := ls }
  let now : Bool := c.line 16
  if now && !was then h.setSafCh chB { c with srst := some 0, fell := none }
  else
    let k : Nat := c.srst.getD 0 + 1
    if now then
      let h := h.setSafCh chB { c with srst := some k }
      if k = 12001 then (h.setBit (sf rSTAT) 1 true).evt pSAF 5 else h
    else if was then
      let h := (h.setSafCh chB { c with srst := none, fell := some k }).setBit (sf rSTAT) 1 false
      if chB then h else h.setF (sf 0x050) 13 0 (min k 16383)
    else h.setSafCh chB c

/-- Faults that an accepted safety reset lets the start-up tests clear (R360): codes 2, 3, 4 and 7. -/
def safClearable : BitVec 8 := 0x9C

/-- An accepted safety reset (R366): what it clears besides the functions, which the tick clears. -/
def Hw.safAccept (h : Hw) : Hw :=
  let h := (h.evt pSAF 4).setF (sf 0x050) 31 24 ((h.f (sf 0x050) 31 24 + 1) % 256)
  let clr := fun (h : Hw) (c : SafCh) => (List.range 8).foldl (fun m i =>
    if c.faults.getLsbD i && !(h.lineSafe c i false && h.lineSafe c i true) then m ||| BitVec.ofNat 8 (2 ^ i) else m) 0
  let a := { h.saf.a with faults := clr h h.saf.a, fell := none }
  let b := { h.saf.b with faults := clr h h.saf.b, fell := none }
  let h := { h with saf := { h.saf with a, b, accepted := some h.grain,
                                        rearm := h.mode == mSAFEHALT || h.saf.faults != 0 } }
  (h.each (List.range 16) fun h j =>
    if h.rxState j = 3 ∧ 16 ≤ (h.safRx j).goodRun then
      (h.setF (rxReg j 0x14) 2 0 1).setF (rxReg j 0x14) 31 16
        ((h.safRx j).wait.foldl (fun sb w => sb &&& telSb w.2.2.1)
          (match (h.safRx j).done with | some d => telSb d.2 | none => 0))
    else h).rxShow

/-- Whether both channels have measured a press of valid length. -/
def Hw.srstJudge (h : Hw) : Hw × Bool :=
  match h.saf.a.fell, h.saf.b.fell with
  | some ka, some kb =>
    let ok := fun k => decide (400 ≤ k) && decide (k ≤ 12000)
    if ok ka && ok kb then (h.safAccept, true)
    else ({ h with saf := { h.saf with a := { h.saf.a with fell := none }, b := { h.saf.b with fell := none } } }, false)
  | _, _ => (h, false)

/-- PAIR_DEMAND and DISCREPANCY of the pairs (R364, R365). A pair not in use permits nothing. -/
def Hw.safPairs (h : Hw) (chB : Bool) : Hw :=
  let h := h.each (List.range 8) fun h i =>
    let c := h.safCh chB
    let n := tabGet 0 i c.discs
    let disc := h.bit (sf (0x060 + 4 * i)) 0 && h.lineSafe c i false != h.lineSafe c i true
    let n := if disc then n + 1 else 0
    let h := h.setSafCh chB { c with discs := tabSet 0 i n c.discs }
    if n = max 1 (h.f (sf (0x060 + 4 * i)) 27 16) + 1 then
      let c := h.safCh chB
      let h := h.setSafCh chB { c with faults := c.faults ||| BitVec.ofNat 8 (2 ^ i) }
      if h.bit (sf 0x04C) (8 + i) then h
      else (((h.setBit (sf 0x04C) (8 + i) true).evt pSAF 3).log pSAF 2 3 i h.grain).fltEvent pSAF 2 3 i h.grain |>.1
    else h
  let c := h.safCh chB
  let dem := fun i => !h.bit (sf (0x060 + 4 * i)) 0 || h.lineSafe c i false || h.lineSafe c i true || c.faults.getLsbD i
  let m : BitVec 8 := (List.range 8).foldl (fun m i => if dem i then m ||| BitVec.ofNat 8 (2 ^ i) else m) 0
  h.setSafCh chB { c with pdem := m, permit := ~~~m }

/-- The scale of a function's speeds: SPD_WIN × 65,536. -/
def Hw.fnScale (h : Hw) (k : Nat) : Nat := max 1 (h.f (fnReg k 4) 21 16) * 65536

/-- A port holds a position (POS_VALID, R130). -/
def Hw.posValid (h : Hw) (n : Nat) : Bool := h.bit (ra (pFB n) rREADY) 2

/-- The port a channel reads for a function (R374). -/
def Hw.fnPort (h : Hw) (chB : Bool) (k : Nat) : Nat :=
  if chB && h.bit (fnReg k 4) 15 then h.f (fnReg k 4) 12 8 else h.f (fnReg k 4) 4 0

/-- The channel's speed of a function at this tick (R374). -/
def Hw.fnSpeed (h : Hw) (chB : Bool) (k : Nat) : Hw :=
  let f := h.safFn chB k
  let w := max 1 (h.f (fnReg k 4) 21 16)
  let raws := (intPart (h.fbRaw (h.fnPort chB k)) :: f.raws).take 65
  let d := signed 32 (unsign 32 (raws.headD 0 - raws.getD w (raws.getLast?.getD 0)))
  let n := d * 4000 * (if chB then ((h.reg (fnReg k 0x18)).toNat : Int) else 65536)
  let h := h.setSafFn chB k { f with raws, spd := n }
  h.setReg (fnReg k (if chB then 0x3C else 0x38)) (BitVec.ofInt 32 (roundHalfEven n (h.fnScale k)))

/-- A function enters a state in grain g. -/
def SafFn.enter (f : SafFn) (st : Nat) (v0 : Int) (g : Nat) : SafFn :=
  { f with state := st, t := 0, v0, slow := 0, lead := false, mon := false, wait := false, since := g }

/-- T_STOP has passed since the state was entered (R372, R373). -/
def Hw.fnTimeUp (h : Hw) (k : Nat) (f : SafFn) : Bool :=
  decide (f.since + h.f (fnReg k 0x30) 15 0 * grainsPerMs ≤ h.grain)

/-- BRK_LEAD has passed since the brake opened (R375). -/
def Hw.fnLeadUp (h : Hw) (k : Nat) (f : SafFn) : Bool :=
  f.lead && decide (f.leadAt + h.f (fnReg k 0x30) 31 16 * grainsPerMs ≤ h.grain)

/-- One function in one channel's tick (R370 to R375); `acc`: an accepted safety reset acts in this tick. -/
def Hw.fnTick (h : Hw) (chB : Bool) (k : Nat) (acc : Bool) : Hw :=
  let kind := h.fnKind k
  let h := h.fnSpeed chB k
  let f := h.safFn chB k
  let sc : Int := h.fnScale k
  let va := (h.safFn false k).spd
  let vb := (h.safFn true k).spd
  let mon : Int := max (va.natAbs : Int) vb.natAbs
  let limit := fun off => ((h.reg (fnReg k off)).toNat : Int) * sc
  let disc := if limit 0x1C < (va - vb).natAbs then f.disc + 1 else 0
  let speedFn := kind == 2 || kind == 3
  let bad := speedFn && (decide (8 ≤ disc) || !h.posValid (h.fnPort chB k))
  let fb := (f.fbDisc && !acc) || bad
  let dem := h.fnDemand chB k
  let was := f.dem
  let f := { f with disc, fbDisc := fb, dem, t := f.t + 1 }
  let speedEvt := fun (h : Hw) => h.evt pSAF 9
  if kind = 0 then h.setSafFn chB k { f with state := 0, wait := false, lead := false }
  else if f.state = 3 then
    if !dem && !fb && (acc || (h.bit (fnReg k 0) 4 && !f.wait)) then
      h.setSafFn chB k { f.enter 1 0 h.grain with viol := false }
    else h.setSafFn chB k f
  else if fb then h.setSafFn chB k (f.enter 3 0 h.grain)
  else if f.state = 2 then
    let env := max (f.v0 * 4000 - (h.reg (fnReg k 0x28)).toNat * f.t * sc) 0 + limit 0x2C * 4000
    if h.bit (fnReg k 0) 6 ∧ env < mon * 4000 ∧ !f.lead then (speedEvt h).setSafFn chB k { f.enter 3 0 h.grain with viol := true }
    else if h.fnLeadUp k f || (!f.lead && h.fnTimeUp k f) then h.setSafFn chB k (f.enter 3 0 h.grain)
    else
      let slow := if mon ≤ limit 0x24 then f.slow + 1 else 0
      if f.lead then h.setSafFn chB k f
      else if 4 ≤ slow then
        if h.f (fnReg k 0) 14 12 ≠ 7 ∧ h.f (fnReg k 0x30) 31 16 ≠ 0 then
          h.setSafFn chB k { f with lead := true, leadAt := h.grain, slow }
        else h.setSafFn chB k (f.enter 3 0 h.grain)
      else h.setSafFn chB k { f with slow }
  else if f.state = 4 then
    let f := { f with mon := f.mon || h.fnTimeUp k f }
    if f.mon ∧ limit 0x20 < mon then
      let f := { f with viol := true }
      (speedEvt h).setSafFn chB k (if h.bit (fnReg k 0) 5 then f.enter 2 mon h.grain else f.enter 3 0 h.grain)
    else if !dem && !was then h.setSafFn chB k (f.enter 1 0 h.grain)
    else h.setSafFn chB k f
  else if dem then
    h.setSafFn chB k (if kind = 2 then f.enter 2 mon h.grain else if kind = 3 then f.enter 4 0 h.grain else f.enter 3 0 h.grain)
  else h.setSafFn chB k f

/-- The readback of the outputs against the switches as they stood (R369, R422). -/
def Hw.soReadback (h : Hw) (rd : BitVec 4) (chan : Nat) : Hw :=
  h.each (List.range 4) fun h j =>
    let a := h.saf.a.closed.getLsbD j
    let b := h.saf.b.closed.getLsbD j
    let hi := rd.getLsbD j
    let ovl := a && b && !hi
    let short := !a && !b && hi && !(h.peerFresh && h.saf.peerOn.getLsbD j)
    let wasO := h.bit (sf 0x094) (8 + j)
    let h := h.setBit (sf 0x094) (8 + j) ovl
    let h := if ovl && !wasO then ((h.evt pSAF 8).fltEvent pSAF 2 8 j h.grain).1 else h
    if short && !h.bit (sf 0x094) (12 + j) then ((h.setBit (sf 0x094) (12 + j) true).evt pSAF 8).safFault 4 chan else h

/-- SAFETY_EXCHANGE (R359): demands, latched pair faults and latched feedback faults are adopted; any other difference
present in three consecutive exchanges is a fault. Connections are judged once for both channels. -/
def Hw.safExchange (h : Hw) : Hw :=
  let fs := h.saf.a.faults ||| h.saf.b.faults
  let h := { h with saf := { h.saf with a := { h.saf.a with faults := fs }, b := { h.saf.b with faults := fs } } }
  let h := h.each (List.range 8) fun h k =>
    let x := h.safFn false k
    let y := h.safFn true k
    let takes := fun (p q : SafFn) => decide (2 ≤ p.state) && q.state == 1 && p.dem
    let adopt := fun (p q : SafFn) => { q.enter p.state p.v0 p.since with t := p.t, dem := true }
    let disc := x.fbDisc || y.fbDisc
    let h := (h.setSafFn false k { x with fbDisc := disc }).setSafFn true k { y with fbDisc := disc }
    let x := h.safFn false k
    let y := h.safFn true k
    if takes x y then h.setSafFn true k (adopt x y)
    else if takes y x then h.setSafFn false k (adopt y x) else h
  let a := h.saf.a
  let b := h.saf.b
  let differs := fun i =>
    if i < 16 then a.line i != b.line i
    else if i < 24 then a.permit.getLsbD (i - 16) != b.permit.getLsbD (i - 16)
    else if i < 32 then (h.safFn false (i - 24)).state != (h.safFn true (i - 24)).state
    else h.saf.txDiff
  let cr := (List.range 33).foldl (fun t i => tabSet 0 i (if differs i then tabGet 0 i t + 1 else 0) t) h.saf.cross
  let h := { h with saf := { h.saf with cross := cr } }
  if (List.range 33).any fun i => tabGet 0 i cr == 3 then h.safFault 2 3 else h

/-- The PAIRS register. -/
def Hw.pairsShow (h : Hw) : Hw :=
  let a := h.saf.a
  let bits := fun (o : Nat) => (List.range 8).foldl (fun n i => if a.line (2 * i + o) then n + 2 ^ i else n) 0
  h.setReg (sf 0x04C) (BitVec.ofNat 32 (bits 1 * 0x1000000 + bits 0 * 0x10000
    + (h.saf.a.faults ||| h.saf.b.faults).toNat * 0x100 + (h.saf.a.permit &&& h.saf.b.permit).toNat))

/-- The SAFETY frame of a channel A tick (R422, R425). -/
def Hw.safetySend (h : Hw) : Hw :=
  let stop := (List.range 8).foldl (fun n k => if h.fnState k == 2 || h.fnState k == 3 then n + 2 ^ k else n) 0
  h.moladSend 9 false (leBytes 1 stop ++ leBytes 1 (h.f (sf 0x094) 3 0) ++ leBytes 1 (h.saf.a.pdem ||| h.saf.b.pdem).toNat
    ++ leBytes 1 0 ++ leBytes 4 h.saf.tick)

/-- A tick of one channel as both count it: over 1,000 of its own it judges how many the other had (R359). -/
def Hw.safCount (h : Hw) (chB : Bool) : Hw :=
  let c := h.safCh chB
  let d := h.safCh (!chB)
  let h := h.setSafCh (!chB) { d with others := d.others + 1 }
  if c.ticks + 1 < 1000 then h.setSafCh chB { c with ticks := c.ticks + 1 }
  else
    let h := h.setSafCh chB { c with ticks := 0, others := 0 }
    if c.others < 990 ∨ 1010 < c.others then h.safFault 3 (if chB then 2 else 1) else h

/-- Whether an accepted reset acts in this tick of a channel: at once in the tick that accepts it, and in the other
channel's next (R366). -/
def Hw.safAccTick (h : Hw) (chB : Bool) : Hw × Bool :=
  let r := h.srstJudge
  let due := (r.1.safCh chB).accDue
  let h := r.1.setSafCh chB { r.1.safCh chB with accDue := false }
  (if r.2 then h.setSafCh (!chB) { h.safCh (!chB) with accDue := true } else h, r.2 || due)

/-- SAFETY_TICK. -/
def Hw.safTick (h : Hw) (chB : Bool) (inp : TickInputs) : Hw :=
  let chan := if chB then 2 else 1
  let h := ((h.safCount chB).soReadback inp.soRead chan).safSample chB inp
  let r := h.safAccTick chB
  let h := r.1.safPairs chB
  let h := h.each (List.range 8) fun h k => h.fnTick chB k r.2
  let h := if chB then h else
    let h := { h with saf := { h.saf with tick := h.saf.tick + 1, peerAge := h.saf.peerAge.map (· + 1) } }
    h.safExchange
  let h := ((h.pairsShow.fnsShow).soDrive chB).safReadyCheck
  h.when (!chB && h.bit (ra pPAIR 0x040) 1) Hw.safetySend

/-! ### Commands of the island -/

/-- A change of one function's state in both channels. -/
def Hw.fnBoth (h : Hw) (k : Nat) (c : SafFn → Bool) (f : SafFn → SafFn) : Hw :=
  let one := fun (h : Hw) (b : Bool) => if c (h.safFn b k) then h.setSafFn b k (f (h.safFn b k)) else h
  let h := (one (one h false) true).fnsShow
  (h.when ((h.safFn false k).state == 3) (·.soDrive false)).when ((h.safFn true k).state == 3) (·.soDrive true)

/-- SS1_TIMEOUT: T_STOP has passed (R372). -/
def Hw.ss1Timeout (h : Hw) (k : Nat) : Hw :=
  h.fnBoth k (fun f => f.state == 2 && !f.lead && h.fnTimeUp k f) fun f => f.enter 3 0 h.grain

/-- SLS_MONITOR_START: T_STOP has passed since entry (R373). -/
def Hw.slsStart (h : Hw) (k : Nat) : Hw :=
  h.fnBoth k (fun f => f.state == 4 && h.fnTimeUp k f) fun f => { f with mon := true }

/-- BRAKE_LEAD_EXPIRY: BRK_LEAD has passed since the brake opened (R375). -/
def Hw.brakeLead (h : Hw) (k : Nat) : Hw :=
  h.fnBoth k (fun f => f.state == 2 && h.fnLeadUp k f) fun f => f.enter 3 0 h.grain

/-- A switch of output j fails its test (R360, R368). -/
def Hw.soFail (h : Hw) (j chan : Nat) : Hw := (h.setBit (sf 0x094) (16 + j) true).safFault 4 chan

/-- SO_TEST_PULSE: the test of the P switch, every TP_PER, or of the M switch, TP_PER / 2 later, where it is due and the
output on. A switch that does not show open within TP_W fails; `opened`: the grains it took (R368). -/
def Hw.soTest (h : Hw) (j : Nat) (chB : Bool) (opened : Option Nat) : Hw :=
  let cfg := sf (0x080 + 4 * j)
  let per := h.f cfg 23 16 * 500000000
  let t := tabGet 0 (2 * j + if chB then 1 else 0) h.saf.tests
  let due := t != 0 && decide (t + (if chB then 0 else per) ≤ h.grain + 1)
  if h.bit cfg 0 && h.bit (sf 0x094) j && due then
    let tests := if chB then tabSet 0 (2 * j + 1) 0 h.saf.tests
      else tabSet 0 (2 * j) (h.grain + 1) (tabSet 0 (2 * j + 1) (h.grain + per / 2 + 1) h.saf.tests)
    let h := { h with saf := { h.saf with tests } }
    if (match opened with | some n => decide (n ≤ 5000 * h.f cfg 15 8) | none => false) then h
    else h.soFail j (if chB then 2 else 1)
  else h

/-- SAFETY_STARTUP_TESTS (R360, R361): whether every input stage reads right, and the switches of each channel that
failed. -/
def Hw.safTests (h : Hw) (inputs : Bool) (failA failB : BitVec 4) : Hw :=
  let pass := inputs && failA == 0 && failB == 0
  let h := { h with saf := { h.saf with tested := pass } }
  if !pass then
    let fails := fun (h : Hw) (f : BitVec 4) chan => h.each ((List.range 4).filter f.getLsbD) fun h j => h.soFail j chan
    fails (fails h failA 1) failB 2
  else
    let left := if h.saf.rearm then h.saf.faults &&& ~~~safClearable else h.saf.faults
    let cleared := left != h.saf.faults
    let h := { h with saf := { h.saf with faults := left, rearm := false } }
    let h := h.setBit (sf rSTAT) 0 (left != 0)
    let h := if cleared ∧ left = 0 then h.setF (sf 0x094) 19 12 0 else h
    h.safForces.safReadyCheck

/-- A configuration word as stored: 0 as 1 in T_DISC and SEQ_JUMP, GRACE at most 60 (R384). -/
def safNorm (off : Nat) (v : Word) : Word :=
  if 0x060 ≤ off ∧ off < 0x080 then (if fld v 27 16 = 0 then putFld v 27 16 1 else v)
  else if 0x400 ≤ off ∧ off < 0x600 ∧ off % 0x20 = 0 then (if fld v 11 8 = 0 then putFld v 11 8 1 else v)
  else if 0x400 ≤ off ∧ off < 0x600 ∧ off % 0x20 = 0x10 then putFld v 7 0 (min 60 (fld v 7 0))
  else v

/-- SAF_CONFIG_WRITE (R362): CFG_EXP in any mode; a configuration register is accepted only in BRINGUP and CONFIG; it
clears READY, and a function it changes starts in FORCED and waits for reset (R370). -/
def Hw.safConfig (h : Hw) (off : Nat) (v : Word) : Hw :=
  if off = 0x040 then (h.setReg (sf 0x040) v).safReadyCheck
  else if !safCfgOffs.contains off then h
  else if h.mode ≠ mBRINGUP ∧ h.mode ≠ mCONFIG then h.evt pSAF 0
  else
    let mask := match rowAt pSAF off with | some r => BitVec.ofNat 32 r.rw | none => 0
    let h := (h.setReg (sf off) (safNorm off (v &&& mask))).setBit (sf rREADY) 0 false
    if 0x100 ≤ off ∧ off < 0x300 then
      let k := (off - 0x100) / 0x40
      let st : SafFn → SafFn := fun f =>
        if h.fnKind k = 0 then { f.enter 0 0 h.grain with fbDisc := false, viol := false }
        else { f.enter 3 0 h.grain with wait := true }
      ((h.setSafFn false k (st (h.safFn false k))).setSafFn true k (st (h.safFn true k))).fnsShow
    else if 0x400 ≤ off ∧ off < 0x600 ∧ off % 0x20 = 0 then
      let j := (off - 0x400) / 0x20
      let h := h.setSafRx j { accAt := h.grain }
      ((h.setF (rxReg j 0x14) 2 0 (if h.rxEn j then 1 else 0)).setF (rxReg j 0x14) 31 16 0).rxShow
    else h

/-- SAFETY_TICK. -/
def execSafetyTick (g : Nat) (chB : Bool) (inp : TickInputs) (s : State) := runLink g (fun _ h => h.safTick chB inp) s
/-- SS1_TIMEOUT. -/
def execSs1Timeout (g : Nat) (k : Fin 8) (s : State) := runLink g (fun _ h => h.ss1Timeout k) s
/-- SLS_MONITOR_START. -/
def execSlsMonitorStart (g : Nat) (k : Fin 8) (s : State) := runLink g (fun _ h => h.slsStart k) s
/-- BRAKE_LEAD_EXPIRY. -/
def execBrakeLeadExpiry (g : Nat) (k : Fin 8) (s : State) := runLink g (fun _ h => h.brakeLead k) s
/-- SO_TEST_PULSE. -/
def execSoTestPulse (g : Nat) (j : Fin 4) (chB : Bool) (opened : Option Nat) (s : State) :=
  runLink g (fun _ h => h.soTest j chB opened) s
/-- SAFETY_STARTUP_TESTS. -/
def execSafetyStartupTests (g : Nat) (inputs : Bool) (failA failB : BitVec 4) (s : State) :=
  runLink g (fun _ h => h.safTests inputs failA failB) s
/-- SAF_CONFIG_WRITE. -/
def execSafConfigWrite (g : Nat) (off : BitVec 12) (v : Word) (s : State) :=
  run g (fun _ h => h.swWrite pSAF off.toNat fun h => h.safConfig off.toNat v) s
/-- SO_REQ_WRITE (R367): in any mode. -/
def execSoReqWrite (g : Nat) (v : BitVec 4) (s : State) :=
  run g (fun _ h => h.swWrite pSAF 0x090 fun h => h.setReg (sf 0x090) (v.setWidth 32)) s
/-- SORTIK_COMPARE_WIN. -/
def execSortikCompareWin (g : Nat) (j : Fin 16) (s : State) := runLink g (fun _ h => h.rxCompareWin j) s
/-- SORTIK_GRACE_EXPIRY. -/
def execSortikGraceExpiry (g : Nat) (j : Fin 16) (s : State) := runLink g (fun _ h => h.rxGrace j) s
/-- SORTIK_WATCHDOG. -/
def execSortikWatchdog (g : Nat) (j : Fin 16) (s : State) := runLink g (fun _ h => h.rxWatchdog j) s
/-- SAFETY_CORE_HALT (R55): CHAN names the halted core's channel. -/
def execSafetyCoreHalt (g : Nat) (chB : Bool) (s : State) := run g (fun _ h => h.safFault 5 (if chB then 2 else 1)) s
/-- SCRUB_PASS (R446, R450), when it is due; an uncorrectable word of safety SRAM is the fault RAM (R360). -/
def execScrubPass (g : Nat) (corrected : Nat) (uncorrectable : Option Nat) (s : State) :=
  run g (fun _ h =>
    if !h.scrubDue then h
    else
      let h := h.scrub corrected uncorrectable
      match uncorrectable with
      | some a => if a / 0x100000 = 0x1000 then h.safFault 6 1 else if a / 0x100000 = 0x1001 then h.safFault 6 2 else h
      | none => h) s

end Sys2Proof.Machine
end

