-- ==== Sys2Proof/Machine/Fio.lean ====
section
/-! DEFINITION. Field inputs and outputs (R385 to R402): what the field dies hold, the frames of the isolation links,
and what the controller die makes of them; the firing of a position compare, which starts field pulses (R391). -/

namespace Sys2Proof.Machine

def fo (g off : Nat) : Nat := ra (pFIO g) off
def chCfg (g i : Nat) : Nat := fo g (0x040 + 4 * i)
def chCnt (g i : Nat) : Nat := fo g (0x0C0 + 4 * i)
def Hw.field (h : Hw) (g : Nat) : FieldS := tabGet {} g h.fields
def Hw.setField (h : Hw) (g : Nat) (x : FieldS) : Hw := { h with fields := tabSet {} g x h.fields }
def bit16 (i : Nat) : BitVec 16 := BitVec.ofNat 16 (2 ^ i)

/-- The set of channels with a property. -/
def chans (p : Nat → Bool) : BitVec 16 := (List.range 16).foldl (fun m i => if p i then m ||| bit16 i else m) 0

/-- Whether the controller die enables a group's outputs (R395, R41). -/
def Hw.outEnable (h : Hw) (g : Nat) : Bool :=
  (h.mode == mSTANDBY || h.mode == mRUN || h.mode == mSHADOW) && !h.haltSafe (pFIO g) && !(h.field g).stale

/-- The driven level the controller die requests of a channel (R390, R391, R421). -/
def Hw.outReq (h : Hw) (g i : Nat) : Bool :=
  let pulse := match tabGet (0, 0) i (h.field g).pulses with
    | (a, b) => decide (a + 8 ≤ h.grain) && decide (h.grain < b + 8)
  h.bit (chCfg g i) 0 && (h.bit (fo g 0x080) i || pulse) && !h.bit (fo g 0x098) (16 + i)
    && !(h.mode == mSHADOW && !h.bit (chCfg g i) 6)

/-- The configuration word of a channel as a downstream frame carries it (R396). -/
def Hw.cfgWord (h : Hw) (g i : Nat) : Word :=
  let w := h.reg (chCfg g i)
  BitVec.ofNat 32 (fld w 0 0 + 2 * fld w 3 1 + 16 * fld w 4 4 + 32 * fld w 5 5)

/-- The configuration word of a channel as the field die holds it; the reset configuration is an input with FILT 3 and
DEMAG set (R399, R402). -/
def FieldS.word (x : FieldS) (i : Nat) : Word := tabGet 0x26 i x.cfg

/-- A channel of the field die is an output. -/
def FieldS.isOut (x : FieldS) (i : Nat) : Bool := bitOf (x.word i) 0

/-- A condition that a channel has shown without a break since grain `first` has stood for its filter time (R387). -/
def FieldS.filtered (x : FieldS) (i first g : Nat) : Bool := decide (first + fieldFilt (fld (x.word i) 3 1) ≤ g)

/-- The level the field die drives (R390, R394). -/
def FieldS.drives (x : FieldS) (i : Nat) : Bool :=
  x.isOut i && x.req.getLsbD i && x.outEn && !x.shut.getLsbD i && !x.uv && !x.ov

/-- A frame of an isolation link: its octets with their CRC-8 (R396). -/
def linkFrame (d : List Byte) : List Byte := d ++ [crc8 d]

/-- The downstream frame of a group that carries channel i's configuration (R396). -/
def Hw.downFrame (h : Hw) (g seq i : Nat) : List Byte :=
  linkFrame (leBytes 1 (16 * seq + (h.field g).upLast.getD 0) ++ leBytes 2 (chans (h.outReq g)).toNat ++ leBytes 1 i ++
    leBytes 2 (h.cfgWord g i).toNat ++ leBytes 1 (if h.outEnable g then 1 else 0))

/-- FIELD_DOWNSTREAM_FRAME (R396): SEQ and CFG_IDX step on; a frame the die takes in gives it the outputs and one
channel's configuration, and calls its reply. -/
def Hw.fieldDown (h : Hw) (g : Nat) (taken : Bool) : Hw :=
  if h.sup.shed ∨ h.grain % 500 ≠ (if g = 0 then 0 else 250) then h
  else
    let x := h.field g
    let seq := (x.dnSeq + 1) % 16
    let i := x.idx
    let x := { x with dnSeq := seq, idx := (i + 1) % 16 }
    let x := if taken then
        { x with cfg := tabIns i (h.cfgWord g i) x.cfg, got := x.got ||| bit16 i, req := chans (h.outReq g),
                 outEn := h.outEnable g, dnSeen := seq, dnAt := h.grain, upDue := true,
                 fieldReset := x.fieldReset && !x.upDue, upSeq := (x.upSeq + 1) % 16 }
      else x
    (h.send { kind := .fieldDown, port := g, data := h.downFrame g seq i }).setField g x

/-- A group's link becomes stale (R398). -/
def Hw.fieldStale (h : Hw) (g : Nat) : Hw :=
  let x := h.field g
  if x.stale then h
  else
    let h := (h.setField g { x with stale := true }).evt (pFIO g) 1
    ((h.fltEvent (pFIO g) 10 1 g h.grain).1).setBit (fo g rREADY) 2 false

/-- An overload shutdown shown by a frame (R392): the event that reaches the threshold latches the channel off. -/
def Hw.fieldOvl (h : Hw) (g i : Nat) : Hw :=
  let h := (h.evt (pFIO g) 4).bump (chCnt g i) 31 24
  let r := h.fltEvent (pFIO g) 10 4 (16 * g + i) h.grain
  if r.2 then (r.1.setBit (fo g 0x098) (16 + i) true).evt (pFIO g) 7 else r.1

/-- The accepted levels a field die reports: 0 for outputs; a channel whose wire break is new in this frame holds the
level before it (R389, R396, R400). -/
def Hw.fieldIn (h : Hw) (g : Nat) : BitVec 16 :=
  let x := h.field g
  chans fun i => !x.isOut i &&
    (if x.wb.getLsbD i && !h.bit (fo g 0x094) i then h.bit (fo g 0x08C) i else x.inp.getLsbD i)

/-- The SUP octet of an upstream frame (R396). -/
def FieldS.supFlags (x : FieldS) (dieHot : Bool) : Nat :=
  let b2n : Bool → Nat := fun b => if b then 1 else 0
  b2n x.uv + 2 * b2n x.ov + 4 * b2n dieHot + 8 * b2n (x.got == BitVec.allOnes 16) + 16 * b2n x.fieldReset

/-- The upstream frame of a group (R396). -/
def Hw.upFrame (h : Hw) (g : Nat) (rb : BitVec 16) (volts : BitVec 8) (dieHot : Bool) : List Byte :=
  let x := h.field g
  linkFrame (leBytes 1 (16 * x.upSeq + x.dnSeen) ++ leBytes 2 (h.fieldIn g).toNat ++ leBytes 2 rb.toNat ++
    leBytes 2 x.wb.toNat ++ leBytes 2 x.shut.toNat ++ leBytes 1 (x.supFlags dieHot) ++ leBytes 2 x.glitch.toNat ++ [volts])

/-- A valid upstream frame (R388, R389, R392, R393, R397, R398, R399). -/
def Hw.fieldUp (h : Hw) (g : Nat) (rb : BitVec 16) (volts : BitVec 8) (dieHot : Bool) : Hw :=
  let x := h.field g
  let skipped := match x.upLast with | some l => (x.upSeq + 31 - l) % 16 | none => 0
  let late := (x.dnSeq + 16 - x.dnSeen) % 16
  let h := h.bumpN (fo g 0x0AC) 15 0 (skipped + (if late < 2 then 0 else late - 1))
  let cfgOk := x.got == BitVec.allOnes 16
  let bad := !cfgOk || x.uv
  let rst := x.fieldReset
  let h := if rst && !h.bit (fo g 0x0A4) 4 then h.evt (pFIO g) 8 else h
  let supply := h.bit (fo g rSTAT) 1 != x.uv || h.bit (fo g rSTAT) 3 != x.ov
  let h := h.when supply (·.evt (pFIO g) 6)
  let h := (h.setBit (fo g rSTAT) 1 x.uv).setBit (fo g rSTAT) 3 x.ov
  let flags := x.supFlags dieHot
  let hold := x.stale && bad
  let lv := h.fieldIn g
  let h := h.setField g { x with inp := chans fun i => if x.wb.getLsbD i then lv.getLsbD i else x.inp.getLsbD i,
                                 upLast := some x.upSeq, upAt := h.grain, upDue := false, glitch := 0,
                                 fieldReset := false }
  let h := if hold then h else
    let ch := List.range 16
    let h := h.setReg (fo g 0x0A4) (BitVec.ofNat 32 (volts.toNat * 0x10000 + flags))
    let h := h.setReg (fo g 0x08C) (lv.setWidth 32)
    let h := h.acqNote 9 g h.grain (h.f (fo g 0x08C) 15 0)
    let h := h.setReg (fo g 0x090) (rb.setWidth 32)
    let h := h.each (ch.filter fun i => x.glitch.getLsbD i) fun h i => h.bump (chCnt g i) 7 0
    let h := h.each (ch.filter fun i => x.wb.getLsbD i && !h.bit (fo g 0x094) i) fun h i =>
      (((h.evt (pFIO g) 3).bump (chCnt g i) 15 8).fltEvent (pFIO g) 10 3 (16 * g + i) h.grain).1
    let h := h.setReg (fo g 0x094) (x.wb.setWidth 32)
    let was := h.reg (fo g 0x098)
    let h := h.setF (fo g 0x098) 15 0 x.shut.toNat
    let h := h.each (ch.filter fun i => x.shut.getLsbD i && !bitOf was i) fun h i => h.fieldOvl g i
    let short := chans fun i => x.isOut i && rb.getLsbD i && !x.drives i && !h.bit (chCfg g i) 6
    let h := h.each (ch.filter fun i => short.getLsbD i && !h.bit (fo g 0x09C) i) fun h i =>
      (h.evt (pFIO g) 5).bump (chCnt g i) 23 16
    h.setReg (fo g 0x09C) (short.setWidth 32)
  if bad then h.fieldStale g
  else (h.setField g { h.field g with stale := false }).setBit (fo g rREADY) 2 true

/-- FIELD_UPSTREAM_FRAME: the reply to a downstream frame arrives, valid or not. -/
def Hw.fieldUpstream (h : Hw) (g : Nat) (valid : Bool) (rb : BitVec 16) (volts : BitVec 8) (dieHot : Bool) : Hw :=
  let x := h.field g
  if !x.upDue ∨ h.sup.shed then h
  else
  let h := h.send { kind := .fieldUp, port := g, data := h.upFrame g rb volts dieHot }
  if valid then h.fieldUp g rb volts dieHot
  else
    let h := (h.setField g { x with upDue := false, glitch := 0, fieldReset := false }).bump (fo g 0x0AC) 31 16
    ((h.evt (pFIO g) 2).fltEvent (pFIO g) 10 2 g h.grain).1

/-- FIELD_LINK_STALE (R398): no valid upstream frame for STALE_N frame periods. -/
def Hw.fieldTimeout (h : Hw) (g : Nat) : Hw :=
  if (h.field g).upAt + 500 * max 1 (h.f (fo g 0x0A8) 7 0) ≤ h.grain then h.fieldStale g else h

/-- FIELD_DIE_RESET (R399): 16 µs without a valid downstream frame. -/
def Hw.fieldReset (h : Hw) (g : Nat) : Hw :=
  let x := h.field g
  if x.dnAt + 8000 ≤ h.grain then
    h.setField g { x with cfg := [], got := 0, fieldReset := true, req := 0, outEn := false, wb := 0, shut := 0,
                          upDue := false }
  else h

/-- FIOg.STAT (R401). -/
def Hw.fioStat (h : Hw) (g : Nat) : Word :=
  ((h.setBit (fo g rSTAT) 0 (h.field g).stale).setBit (fo g rSTAT) 2 (!h.outEnable g)).reg (fo g rSTAT)

/-- A change of what the field die of a channel holds. -/
def Hw.fieldCh (h : Hw) (ch : Nat) (f : FieldS → Nat → FieldS) : Hw :=
  h.setField (ch / 16) (f (h.field (ch / 16)) (ch % 16))

def setBit16 (w : BitVec 16) (i : Nat) (b : Bool) : BitVec 16 := if b then w ||| bit16 i else w &&& ~~~(bit16 i)

/-- A level of an input, sampled without a break since grain `first`, is accepted by the field die once it has stood for
the filter time; a wire break holds the level (R387, R389). -/
def FieldS.accept (x : FieldS) (i : Nat) (l : Bool) (first g : Nat) : FieldS :=
  if x.isOut i || x.wb.getLsbD i || !x.filtered i first g then x else { x with inp := setBit16 x.inp i l }

/-- A level of an input that lasted `len` grains, less than the filter time, is a glitch (R387). -/
def FieldS.glitched (x : FieldS) (i len : Nat) : FieldS :=
  if x.isOut i || x.filtered i 0 len then x else { x with glitch := setBit16 x.glitch i true }

/-- A wire break of an input with detection enabled: the current has lain below, or again at or above, the threshold
since grain `first` (R389). -/
def FieldS.wireBreak (x : FieldS) (i : Nat) (b : Bool) (first g : Nat) : FieldS :=
  if !x.filtered i first g || (b && !(bitOf (x.word i) 4 && !x.isOut i)) then x else { x with wb := setBit16 x.wb i b }

/-- Undervoltage or overvoltage of a group's supply sets after 100 µs and clears after 10 ms, counted from grain `first`
(R394). -/
def FieldS.supply (x : FieldS) (ovp on : Bool) (first g : Nat) : FieldS :=
  if g < first + (if on then 50000 else 5000000) then x
  else if ovp then { x with ov := on } else { x with uv := on }

/-- A thermal shutdown of a driven output (R392). -/
def FieldS.overload (x : FieldS) (i : Nat) : FieldS :=
  if x.drives i then { x with shut := setBit16 x.shut i true } else x

/-- A reset of a FIO page: the link starts anew; counts of the write's cycle are added after the clear (R32, R402). -/
def Hw.fioReset (h : Hw) (g : Nat) : Hw :=
  let x := h.field g
  let k := (h.clrCnt (fo g 0x0AC) 31 16).clrCnt (fo g 0x0AC) 15 0
  let k := k.each (List.range 16) fun k i =>
    (((k.clrCnt (chCnt g i) 31 24).clrCnt (chCnt g i) 23 16).clrCnt (chCnt g i) 15 8).clrCnt (chCnt g i) 7 0
  let h := (h.pageReset (pFIO g)).setField g { x with dnSeq := 0, idx := 0, upLast := none, stale := true, pulses := [] }
  h.each (fo g 0x0AC :: (List.range 16).map (chCnt g)) fun h a => h.setReg a (k.reg a)

/-- The check of a FIO GO (R402). -/
def Hw.fioSetOk (h : Hw) (g : Nat) : Bool :=
  (List.range 16).all fun i =>
    let w := h.shd (chCfg g i)
    decide (fld w 3 1 ≤ 5) && !(fld w 0 0 != h.f (chCfg g i) 0 0 && h.bit (fo g 0x080) i)

/-- OVL_CLR: a channel still shut down stays latched (R392). -/
def Hw.ovlClr (h : Hw) (g : Nat) (v : BitVec 16) : Hw :=
  h.each ((List.range 16).filter fun i => v.getLsbD i && !h.bit (fo g 0x098) i && !(h.field g).shut.getLsbD i) fun h i =>
    h.setBit (fo g 0x098) (16 + i) false

/-- A compare that fires starts the pulse of every channel that names it (R391). -/
def Hw.pulseStart (h : Hw) (n k : Nat) : Hw :=
  h.each (List.range 2) fun h g => h.each (List.range 16) fun h i =>
    let w := h.reg (chCfg g i)
    if bitOf w 8 && fld w 20 16 == n && fld w 12 12 == k then
      let x := h.field g
      let p := tabGet (0, 0) i x.pulses
      let start := if p.2 + 8 ≤ h.grain then h.grain else p.1
      h.setField g { x with pulses := tabSet (0, 0) i (start, h.grain + max 1 (fld w 31 24) * grainsPerMs) x.pulses }
    else h

/-- FIELD_PULSE_END (R391). -/
def Hw.pulseEnd (h : Hw) (ch : Nat) : Hw :=
  h.fieldCh ch fun x i => if (tabGet (0, 0) i x.pulses).2 + 8 ≤ h.grain then { x with pulses := tabSet (0, 0) i (0, 0) x.pulses } else x

/-- CMP_FIRE (R143): the compare's event, the field pulses it starts and the engines that wait for it. -/
def Hw.compareFire (h : Hw) (n k : Nat) : Hw :=
  let r := h.cmpFire n k
  if r.2 then
    let h := r.1
    let ts := h.grain - (h.grain - (h.reg (fbr n (0x0EC + 0x20 * k))).toNat) % 2 ^ 32
    ((h.pulseStart n k).selEvent (1 + k) n).acqEvent (1 + k) n ts
  else r.1

def grpN (b : Bool) : Nat := if b then 1 else 0

/-- CMP_FIRE. -/
def execCmpFire (g : Nat) (n : Fin 32) (k : Fin 2) (s : State) := run g (fun _ h => h.compareFire n k) s
/-- FIELD_DOWNSTREAM_FRAME. -/
def execFieldDownstreamFrame (g : Nat) (grp taken : Bool) (s : State) :=
  run g (fun _ h => h.fieldDown (grpN grp) taken) s
/-- FIELD_UPSTREAM_FRAME. -/
def actFieldUpstreamFrame (g : Nat) (grp valid : Bool) (rb : BitVec 16) (volts : BitVec 8) (dieHot : Bool) (s : State) :=
  run g (fun _ h => h.fieldUpstream (grpN grp) valid rb volts dieHot) s
/-- FIELD_INPUT_ACCEPT. -/
def execFieldInputAccept (g : Nat) (ch : Fin 32) (lvl : Bool) (first : Nat) (s : State) :=
  run g (fun _ h => h.fieldCh ch fun x i => x.accept i lvl first h.grain) s
/-- FIELD_GLITCH. -/
def execFieldGlitch (g : Nat) (ch : Fin 32) (len : Nat) (s : State) :=
  run g (fun _ h => h.fieldCh ch fun x i => x.glitched i len) s
/-- FIELD_WIRE_BREAK. -/
def execFieldWireBreak (g : Nat) (ch : Fin 32) (first : Nat) (s : State) :=
  run g (fun _ h => h.fieldCh ch fun x i => x.wireBreak i true first h.grain) s
/-- FIELD_WIRE_BREAK_END. -/
def execFieldWireBreakEnd (g : Nat) (ch : Fin 32) (first : Nat) (s : State) :=
  run g (fun _ h => h.fieldCh ch fun x i => x.wireBreak i false first h.grain) s
/-- FIELD_OVERLOAD_SHUTDOWN. -/
def execFieldOverloadShutdown (g : Nat) (ch : Fin 32) (s : State) := run g (fun _ h => h.fieldCh ch FieldS.overload) s
/-- FIELD_OUTPUT_RESTART: the output has cooled and switches on again by itself. -/
def execFieldOutputRestart (g : Nat) (ch : Fin 32) (s : State) :=
  run g (fun _ h => h.fieldCh ch fun x i => { x with shut := setBit16 x.shut i false }) s
/-- OVL_CLR. -/
def actOvlClr (g : Nat) (grp : Bool) (v : BitVec 16) (s : State) :=
  run g (fun _ h => h.swWrite (pFIO (grpN grp)) 0x0A0 fun h => h.ovlClr (grpN grp) v) s
/-- FIELD_OUT_SET. -/
def execFieldOutSet (g : Nat) (grp : Bool) (v : BitVec 16) (s : State) :=
  run g (fun _ h => h.swWrite (pFIO (grpN grp)) 0x084 fun h =>
    h.setReg (fo (grpN grp) 0x080) (h.reg (fo (grpN grp) 0x080) ||| v.setWidth 32)) s
/-- FIELD_OUT_CLR. -/
def execFieldOutClr (g : Nat) (grp : Bool) (v : BitVec 16) (s : State) :=
  run g (fun _ h => h.swWrite (pFIO (grpN grp)) 0x088 fun h =>
    h.setReg (fo (grpN grp) 0x080) (h.reg (fo (grpN grp) 0x080) &&& ~~~(v.setWidth 32))) s
/-- FIELD_PULSE_END. -/
def execFieldPulseEnd (g : Nat) (ch : Fin 32) (s : State) := run g (fun _ h => h.pulseEnd ch) s
/-- FIELD_SUPPLY_UV. -/
def execFieldSupplyUv (g : Nat) (grp : Bool) (first : Nat) (s : State) :=
  run g (fun _ h => h.setField (grpN grp) ((h.field (grpN grp)).supply false true first h.grain)) s
/-- FIELD_SUPPLY_OV. -/
def execFieldSupplyOv (g : Nat) (grp : Bool) (first : Nat) (s : State) :=
  run g (fun _ h => h.setField (grpN grp) ((h.field (grpN grp)).supply true true first h.grain)) s
/-- FIELD_SUPPLY_CLEAR. -/
def execFieldSupplyClear (g : Nat) (grp ovp : Bool) (first : Nat) (s : State) :=
  run g (fun _ h => h.setField (grpN grp) ((h.field (grpN grp)).supply ovp false first h.grain)) s
/-- FIELD_LINK_STALE. -/
def execFieldLinkStale (g : Nat) (grp : Bool) (s : State) := run g (fun _ h => h.fieldTimeout (grpN grp)) s
/-- FIELD_DIE_RESET. -/
def execFieldDieReset (g : Nat) (grp : Bool) (s : State) := run g (fun _ h => h.fieldReset (grpN grp)) s

end Sys2Proof.Machine
end

