-- ==== Sys2Proof/Machine/Acq.lean ====
section
/-! DEFINITION. Trigger and acquisition (R344 to R357): sample instants, the signal catalogue, trigger conditions,
records and the page ledger. -/

namespace Sys2Proof.Machine

def rcd (r off : Nat) : Nat := aq (0x400 + 0x40 * r + off)
def tcr (k off : Nat) : Nat := aq (0x200 + 0x20 * k + off)

def Hw.setAcq (h : Hw) (x : AcqS) : Hw := { h with acq := x }

/-! ### Periods and sizes (R344, R345, R350) -/

/-- The thermal supervisor throttles (R444). -/
def Hw.throttled (h : Hw) : Bool := h.bit (ra pTHM rSTAT) 1

/-- SPER as configured. -/
def Hw.sper0 (h : Hw) : Nat :=
  let r := max 1 (h.f (aq 0x040) 26 16)
  if h.bit (aq 0x040) 12 then h.batch * r else h.batch / r

/-- SPER in force. -/
def Hw.sper (h : Hw) : Nat := max 1 (if h.acq.thr then 2 * h.sper0 else h.sper0)

/-- The enabled channels, and the bytes of a sample. -/
def Hw.acqChans (h : Hw) : List Nat := (List.range 32).filter fun c => h.bit (aq 0x044) c
def Hw.acqS (h : Hw) : Nat := 3 * h.acqChans.length
/-- Pages of the pre area. -/
def Hw.prePg (h : Hw) : Nat := (h.f (aq 0x048) 20 0 * h.acqS + 4095) / 4096
def Hw.acqPost (h : Hw) : Nat := max 1 (h.f (aq 0x04C) 23 0)

/-! ### The page ledger (R354) -/

def AcqS.closedN (x : AcqS) : Nat := x.closed.foldl (fun t e => t + e.2.1) 0
def AcqS.openN (x : AcqS) : Nat := (if x.preClosed then 0 else x.pre) + x.post - x.postClosed
def AcqS.freeN (x : AcqS) : Nat := 512 - x.openN - x.closedN

/-- LEDGER, STAT and REC_OLD follow the unit. -/
def Hw.acqShow (h : Hw) : Hw :=
  let x := h.acq
  let h := h.setReg (aq 0x070) (BitVec.ofNat 32 (x.closedN * 2 ^ 20 + x.openN * 2 ^ 10 + x.freeN))
  let h := h.setF (aq rSTAT) 2 0 (if x.phase = 1 then 1 else if x.phase = 2 then 2 else if x.phase = 3 then 4 else 0)
  (h.setBit (aq rSTAT) 3 x.thr).setF (aq 0x084) 3 0 (x.order.headD 0)

/-- A descriptor is free. -/
def Hw.recFree (h : Hw) (r : Nat) : Bool := !h.bit (rcd r 0) 31 && !h.bit (rcd r 0) 30

/-- The descriptor the next record takes: the one after the last. -/
def Hw.nextRec (h : Hw) : Option Nat :=
  ((List.range 16).map fun i => (h.acq.desc + 1 + i) % 16).find? h.recFree

/-- Pages of the record in progress close. -/
def Hw.closePages (h : Hw) (n : Nat) : Hw :=
  if n = 0 then h else h.setAcq { h.acq with closed := h.acq.closed ++ [(h.acq.desc, n, h.cycle)] }

/-- A refused command. -/
def Hw.acqRefuse (h : Hw) (reason : Nat) : Hw := (h.setF (aq 0x05C) 2 0 reason).evt pACQ 4

/-! ### Records (R350 to R353) -/

/-- A record begins: its descriptor and its pre area. -/
def Hw.recStart (h : Hw) (r : Nat) : Hw :=
  let x := h.acq
  let pg := h.prePg
  let h := h.each (List.range 15) fun h w => h.setReg (rcd r (4 * w)) 0
  let num := (x.num + 1) % 256
  let h := h.setReg (rcd r 0) (BitVec.ofNat 32 (2 ^ 30 + num * 65536 + (if x.thr then 16 else 0)))
  let h := h.setReg (rcd r 4) (BitVec.ofNat 32 (pg * 65536 + x.next))
  let h := (h.setReg (rcd r 0x30) (BitVec.ofNat 32 h.sper)).setReg (rcd r 0x38) (h.reg (aq 0x044))
  h.setAcq { x with phase := 1, desc := r, num, taken := 0, postN := 0, first := x.next, pre := pg, post := 0,
                    preClosed := false, postClosed := 0, soft := none, remote := none, rearm := 0,
                    next := (x.next + pg) % 512, order := x.order ++ [r] }

/-- ACQ_ARM (R351). -/
def Hw.acqArm (h : Hw) : Hw :=
  if !(h.bit (aq rCTRL) 0 && h.bit (aq rREADY) 0) || h.acq.phase != 0 then h.acqRefuse 1
  else
    match h.nextRec with
    | none => h.acqRefuse 3
    | some r =>
      if h.acq.freeN < h.prePg + 1 then h.acqRefuse 2
      else
        let h := h.recStart r
        (h.setAcq { h.acq with armAt := h.wgrain, done := 0, stop := none }).acqShow

/-- Pre samples held: no more than PRE. -/
def Hw.preHeld (h : Hw) : Nat := min h.acq.taken (h.f (aq 0x048) 20 0)

/-- The byte offset in the pre area of the oldest of n pre samples. -/
def Hw.startOfs (h : Hw) (n : Nat) : Nat := ((h.acq.taken - n) * h.acqS) % max 1 (h.acq.pre * 4096)

/-- The address of byte o of the record, from its first page. -/
def Hw.recAddr (h : Hw) (o : Nat) : Nat := 0x20000000 + 4096 * ((h.acq.first + o / 4096) % 512) + o % 4096

/-- Bytes written into the record from offset o, in an area that wraps after `size` bytes. -/
def Hw.recWrite (h : Hw) (base o size : Nat) (d : List Byte) : Hw :=
  h.each d.zipIdx fun h b => h.wr8 (h.recAddr (base + (o + b.2) % size)) b.1

/-- The record closes (R351, R352, R354): its pages close, its descriptor is complete, and the series goes on or ends.
`now`: no sample of this instant belongs to it. -/
def Hw.recClose (h : Hw) (flag : Nat) (now : Bool) : Hw :=
  let x := h.acq
  let n := h.preHeld
  let h := if x.phase = 1 then
      (h.setReg (rcd x.desc 0x10) (BitVec.ofNat 32 n)).setReg (rcd x.desc 0x0C) (BitVec.ofNat 32 (h.startOfs n)) else h
  let pages := x.pre + x.post
  let h := h.closePages x.openN
  let h := (h.setReg (rcd x.desc 8) (BitVec.ofNat 32 pages)).setReg (rcd x.desc 0x14) (BitVec.ofNat 32 x.postN)
  let held := h.acq.closed.any (·.1 == x.desc)
  let h := ((h.setBit (rcd x.desc 0) 30 false).setBit (rcd x.desc 0) 31 held).setF (rcd x.desc 0) 4 0
    (h.f (rcd x.desc 0) 4 0 ||| flag)
  let h := h.evt pACQ 1
  let y := h.acq
  let done := y.done + 1
  let nrec := h.f (aq 0x054) 15 0
  let again := h.bit (aq 0x040) 0 && y.stop.isNone && (nrec == 0 || decide (done < nrec))
  h.setAcq { y with phase := if again then 3 else 0, done, pre := 0, post := 0, preClosed := false, postClosed := 0,
                    soft := none, remote := none, stop := none, rearm := if now then 1 else 0,
                    order := if held then y.order else y.order.filter (· != x.desc) }

/-- ACQ_STOP: a record in progress closes at the next instant; arming ends at once. -/
def Hw.acqStop (h : Hw) : Hw :=
  if h.acq.phase = 3 then (h.setAcq { h.acq with phase := 0 }).acqShow
  else if h.acq.phase = 0 then h
  else h.setAcq { h.acq with stop := some h.wgrain }

/-- The dead time of a record ends at a sample at which a trigger could be accepted (R353). -/
def Hw.deadEnd (h : Hw) (ct : Nat) : Hw :=
  match h.acq.dead with
  | none => h
  | some (r, num, t0) =>
    let d : Word := BitVec.ofNat 32 (ct - t0)
    let h := h.setAcq { h.acq with dead := none }
    let h := if h.f (rcd r 0) 23 16 = num then h.setReg (rcd r 0x34) d else h
    (h.setReg (aq 0x07C) d).setReg (aq 0x080) (if h.reg (aq 0x080) < d then d else h.reg (aq 0x080))

/-- A trigger that would have acted in a dead time (R353). -/
def Hw.missed (h : Hw) (ts : Nat) : Hw :=
  match h.acq.dead with
  | none => h
  | some (r, num, _) =>
    let h := (h.bump (aq 0x074) 15 0).evt pACQ 2
    if h.f (rcd r 0) 23 16 = num then
      let h := if h.f (rcd r 0x28) 15 0 = 0 then h.setReg (rcd r 0x2C) (BitVec.ofNat 32 ts) else h
      h.bump (rcd r 0x28) 15 0
    else h

/-! ### The signal catalogue (R346) -/

/-- Bits 55 + SH to 32 + SH of a 64-bit position. -/
def posBits (v : Word64) (sh : Nat) : Nat := v.toNat / 2 ^ (32 + sh) % 2 ^ 24

/-- The value of channel c for a sample in grain t; `lv`: the levels at the pins in grain t + TSKEW, of which kind 7 takes
the probe inputs and kind 8 the outputs of its legs. A channel whose source has given nothing yet holds an open value. -/
def Hw.chValue (h : Hw) (m : Mem) (c t : Nat) (lv : BitVec 24) : Nat :=
  let g := h.chGrain c t
  let sh := h.f (aq (0x100 + 4 * c)) 12 8
  let known := (tabGet [] c h.acq.hist).find? fun e => decide (e.1 ≤ g)
  let n := h.chInst c
  match h.chKind c with
  | 3 =>
    let x := h.fb n
    posBits (BitVec.ofInt 64 ((x.posAt g (h.fbInt n)).1 * 2 ^ 32)) sh
  | 6 =>
    -- a word nothing has written since the channel came into use holds what memory holds
    (match known, (tabGet [] c h.acq.hist).isEmpty with
     | some e, _ => e.2
     | none, true => (h.rd32 m (h.chWord c)).toNat
     | none, false => h.freeWord.toNat) % 2 ^ 24
  | 7 =>
    (match known with | some e => e.2 | none => h.freeWord.toNat) % 2 ^ 16 + lv.toNat / 2 ^ 16 * 2 ^ 16
  | 8 => lv.toNat
  | k =>
    match known with
    | none => h.freeWord.toNat % 2 ^ 24
    | some (_, v) =>
      if k = 4 then unsign 24 (clip (-(2 : Int) ^ 23) ((2 : Int) ^ 23 - 1) ((BitVec.ofNat 64 v).toInt / 2 ^ (32 + sh)))
      else if k = 5 then posBits (BitVec.ofNat 64 v) sh
      else v % 2 ^ 24

/-! ### Trigger conditions (R348, R349) -/

/-- The zone of a sample: 1 L, 2 M, 3 H, with H and L exchanged by POL. -/
def Hw.tcZone (h : Hw) (k : Nat) (v : Nat) : Nat :=
  let x := signed 24 v
  let z := if signed 24 (h.f (tcr k 4) 23 0) ≤ x then 3 else if x ≤ signed 24 (h.f (tcr k 8) 23 0) then 1 else 2
  if h.bit (tcr k 0) 4 ∧ z ≠ 2 then 4 - z else z

/-- The width test of a condition. -/
def Hw.tcWidth (h : Hw) (k w : Nat) : Bool :=
  (decide (h.f (tcr k 0xC) 23 0 ≤ w) && decide (w ≤ h.f (tcr k 0x10) 23 0)) == h.bit (tcr k 0) 5

/-- The event of an EVENT condition in the interval of a sample in grain t: its time-stamp. -/
def Hw.tcEvent (h : Hw) (k t : Nat) : Option Nat :=
  (h.acq.evs.reverse.find? fun e => e.1 == h.f (tcr k 0) 27 24 && e.2.1 == h.f (tcr k 0) 20 16 &&
    decide (t < e.2.2 + h.sper) && decide (e.2.2 ≤ t)).map (·.2.2)

/-- A sample of the watched channel passes through condition k: its track after it, and whether it is true. -/
def Hw.tcStep (h : Hw) (k n z : Nat) : TcS × Bool :=
  let x := tabGet {} k h.acq.tcs
  let noH := if z = 3 then 0 else x.noH + 1
  let y : TcS :=
    { prev := z, lastZ := if z = 2 then x.lastZ else z, entered := if z = 3 ∧ x.lastZ ≠ 3 then n else x.entered, noH,
      lastL := if z = 1 then some n else x.lastL }
  let t := match h.f (tcr k 0) 2 0 with
    | 1 => z == 3 && x.lastZ == 1
    | 2 => z == 1 && x.lastZ == 3 && h.tcWidth k (n - x.entered)
    | 3 => z == 1 && x.prev == 2 && x.lastZ == 1
    | 4 => noH != 0 && noH == h.f (tcr k 0x10) 23 0
    | 5 => z == 3 && x.prev != 3 && (match x.lastL with | some l => h.tcWidth k (n - l) | none => false)
    | _ => false
  (y, t)

/-- All conditions for a sample in grain t with its values by channel: the module, and the mask of true ones. -/
def Hw.tcAll (h : Hw) (t : Nat) (vals : List (Nat × Nat)) : Hw × Nat :=
  (List.range 8).foldl (fun (a : Hw × Nat) k =>
    let h := a.1
    let ch := h.f (tcr k 0) 12 8
    if h.f (tcr k 0) 2 0 = 6 then (h, a.2 + (if (h.tcEvent k t).isSome then 2 ^ k else 0))
    else
      match vals.find? (·.1 == ch) with
      | none => a
      | some v =>
        let r := h.tcStep k h.acq.n (h.tcZone k v.2)
        (h.setAcq { h.acq with tcs := tabSet {} k r.1 h.acq.tcs }, a.2 + (if r.2 then 2 ^ k else 0))) (h, 0)

/-- Whether the conditions of a mask trigger (R349). -/
def Hw.combOk (h : Hw) (mask : Nat) : Bool :=
  let m := h.f (aq 0x068) 7 0
  if h.bit (aq 0x068) 8 then (mask &&& m) == m else (mask &&& m) != 0

/-! ### A sample (R347 to R354) -/

/-- The grain in which CT reaches a CT grain, by the bases kept. -/
def Hw.grainOfCt (h : Hw) (T : Nat) : Nat :=
  let bases := (h.clk.ctBaseGrain, h.clk.ctBase, h.clk.ctInc) :: h.clk.past
  let b := (bases.find? fun b => decide (b.2.1 ≤ T * 2 ^ 33)).getD (bases.getLast?.getD (0, 0, 1))
  (((b.1 : Int) - (((b.2.1 : Int) - (T * 2 ^ 33 : Nat)) / (max 1 b.2.2 : Nat)))).toNat

/-- A STOP has been applied before the present grain. -/
def Hw.stopDue (h : Hw) : Bool := match h.acq.stop with | some w => decide (w < h.grain) | none => false

/-- The instant whose sample is assembled in this grain: the grain of the sample and its CT grain (R344, R347). -/
def Hw.acqInstant (h : Hw) : Option (Nat × Nat) :=
  let lag := h.f (aq 0x050) 15 0
  if h.grain < lag + 1 then none
  else
    let t := h.grain - lag
    let T := h.ctGrains t / h.sper * h.sper
    if h.ctGrains (t - 1) < T then some (t, T) else none

/-- A post sample: its pages are taken as it needs them; with none free the record closes before it (R354). -/
def Hw.postSample (h : Hw) (d : List Byte) : Hw :=
  let x := h.acq
  let k := x.postN * d.length
  let need := (k + d.length + 4095) / 4096
  if x.freeN + x.post < need then
    let h := (h.recClose 2 true).evt pACQ 3
    (h.fltEvent pACQ 10 3 x.desc h.grain).1
  else
    let h := h.setAcq { x with post := max x.post need, postN := x.postN + 1, next := (x.next + (need - x.post)) % 512 }
    let h := h.recWrite (x.pre * 4096) k (512 * 4096) d
    let full := if h.bit (aq 0x040) 8 then (k + d.length) / 4096 - x.postClosed else 0
    let h := (h.closePages full)
    let h := h.setAcq { h.acq with postClosed := h.acq.postClosed + full }
    if h.acqPost ≤ h.acq.postN then h.recClose 0 false else h

/-- The trigger of the record (R349): `back`: samples already taken that become post samples (R355). -/
def Hw.trigger (h : Hw) (m : Mem) (T mask back ts : Nat) : Hw :=
  let x := h.acq
  let held := h.preHeld
  let S := h.acqS
  let size := max 1 (x.pre * 4096)
  let n := held - back
  let prim := (List.range 10).find? fun i => mask.testBit i
  let short := if n < h.f (aq 0x048) 20 0 then 1 else 0
  let old := (List.range back).map fun i => (List.range S).map fun b =>
    h.rd8 m (h.recAddr (((x.taken - back + i) * S + b) % size))
  let r := x.desc
  let h := ((h.setReg (rcd r 0x10) (BitVec.ofNat 32 n)).setReg (rcd r 0x0C) (BitVec.ofNat 32 (h.startOfs held))).setF
    (rcd r 0) 0 0 short
  let h := (h.setReg64 (rcd r 0x18) (BitVec.ofNat 64 T)).setReg (rcd r 0x20) (BitVec.ofNat 32 ts)
  let h := h.setReg (rcd r 0x24) (BitVec.ofNat 32 (prim.getD 0 * 65536 + mask))
  let h := h.log pACQ 9 Config.trigCode.toNat r ts
  let stream := h.bit (aq 0x040) 8
  let h := h.when stream (·.closePages x.pre)
  let h := h.setAcq { h.acq with phase := 2, dead := some (r, x.num, T), preClosed := stream, soft := none, remote := none }
  h.each old fun h d => if h.acq.phase = 2 then h.postSample d else h

/-- A re-arm that is over: four instants have passed, and a descriptor and pages are free (R352). -/
def Hw.acqRearmed (h : Hw) : Hw :=
  if h.acq.phase = 3 ∧ 4 ≤ h.acq.rearm ∧ h.prePg + 1 ≤ h.acq.freeN then
    match h.nextRec with
    | some r => h.recStart r
    | none => h
  else h

/-- ACQ_SAMPLE. The sample of the instant after a re-arm is the first of the new record (R352, R356); a STOP acts on the
instants after the grain in which it is applied (R356). -/
def Hw.acqSample (h : Hw) (m : Mem) (levels : List (BitVec 24)) : Hw :=
  if !(h.bit (aq rCTRL) 0 && h.bit (aq rREADY) 0) then h
  else
    let rate := h.throttled != h.acq.thr
    let h := h.setAcq { h.acq with thr := h.throttled }
    match h.acqInstant with
    | none => h.setAcq { h.acq with thr := if rate then !h.acq.thr else h.acq.thr }
    | some (t, T) =>
      let h := h.acqRearmed
      let vals := h.acqChans.map fun c => (c, h.chValue m c t (levels.getD c 0))
      let h := h.drew
      let r := h.tcAll t vals
      let h := r.1
      let h := h.setAcq { h.acq with n := h.acq.n + 1, last := some (t, T),
                                     evs := h.acq.evs.filter fun e => decide (t < e.2.2) }
      -- a record in progress that a STOP or a change of rate ends
      let h := if h.acq.phase = 1 ∨ h.acq.phase = 2 then
          if h.stopDue then h.recClose 4 true else if rate then h.recClose 8 true else h
        else if h.acq.phase = 3 then h.setAcq { h.acq with rearm := h.acq.rearm + 1 } else h
      let soft := match h.acq.soft with | some w => decide (w < h.grain) | none => false
      let rem := match h.acq.remote with | some R => decide (R ≤ T) | none => false
      let mask := r.2 + (if rem then 256 else 0) + (if soft then 512 else 0)
      let trig := h.combOk r.2 || rem || soft
      let h := h.when soft fun h => h.setAcq { h.acq with soft := none }
      let ev := ((List.range 10).find? fun i => mask.testBit i).bind fun k =>
        if k < 8 ∧ h.f (tcr k 0) 2 0 = 6 then r.1.tcEvent k t else none
      let ts := ev.getD t
      let d : List Byte := vals.flatMap fun v => leBytes 3 v.2
      let waits := h.acq.remote.isSome && !rem
      let h :=
        if h.acq.phase = 1 ∧ h.acq.armAt < h.grain then
          let early := h.bit (aq 0x040) 4 && decide (h.acq.taken < h.f (aq 0x048) 20 0)
          if trig && !early then
            let h := h.deadEnd T
            let h := h.trigger m T mask 0 ts
            let h := h.when waits fun h => h.missed t
            h.postSample d
          else
            let h := if early then
                if trig then (h.bump (aq 0x074) 31 16).missed ts else h
              else h.deadEnd T
            let h := if h.acq.pre = 0 then h else h.recWrite 0 (h.acq.taken * d.length) (h.acq.pre * 4096) d
            h.setAcq { h.acq with taken := h.acq.taken + 1 }
        else
          let h := h.when trig fun h => h.missed ts
          if h.acq.phase = 2 then h.postSample d else h
      h.acqShow

/-- ACQ_REARM_END. -/
def Hw.acqRearm (h : Hw) : Hw := h.acqRearmed.acqShow

/-- ACQ_SOFTWARE_TRIGGER. -/
def Hw.acqSoft (h : Hw) : Hw := h.setAcq { h.acq with soft := some h.wgrain }

/-- ACQ_REMOTE_TRIGGER (R355). -/
def Hw.acqRemote (h : Hw) (m : Mem) : Hw :=
  let R := (h.reg64 (aq 0x060)).toNat
  let x := h.acq
  let early := h.bit (aq 0x040) 4 && decide (x.taken < h.f (aq 0x048) 20 0)
  if x.phase ≠ 1 ∨ early then h.acqRefuse 1
  else
    match x.last with
    | none => h.setAcq { x with remote := some R }
    | some (_, T) =>
      if T < R then h.setAcq { x with remote := some R }
      else
        let P := h.sper
        let back := (T - (R + P - 1) / P * P) / P + 1
        if h.preHeld < back then h.acqRefuse 4
        else
          let T0 := T - (back - 1) * P
          ((h.deadEnd T0).trigger m T0 256 back (h.grainOfCt T0)).acqShow

/-- ACQ_RELEASE: pages closed in an earlier cycle are released, the oldest first (R354, R356). -/
def Hw.acqRelease (h : Hw) (n : Nat) : Hw :=
  let may := (h.acq.closed.filter fun e => e.2.2 != h.cycle).foldl (fun t e => t + e.2.1) 0
  if may < n then h.acqRefuse 5
  else
    let drop := h.acq.closed.foldl (fun (a : Nat × List (Nat × Nat × Nat)) e =>
      let k := min a.1 e.2.1
      (a.1 - k, if k = e.2.1 then a.2 else a.2 ++ [(e.1, e.2.1 - k, e.2.2)])) (n, [])
    let h := h.setAcq { h.acq with closed := drop.2 }
    let gone := (List.range 16).filter fun r =>
      h.bit (rcd r 0) 31 && !h.bit (rcd r 0) 30 && !drop.2.any (fun e => e.1 == r)
    let h := h.each gone fun h r => h.setBit (rcd r 0) 31 false
    (h.setAcq { h.acq with order := h.acq.order.filter fun r => !gone.contains r }).acqShow

/-- The check of an ACQ GO (R344, R346, R348, R356). -/
def Hw.acqSetOk (h : Hw) : Bool :=
  let s := fun off hi lo => fld (h.shd (aq off)) hi lo
  let r := s 0x040 26 16
  let mul := s 0x040 12 12 == 1
  let sper := if mul then h.batch * r else h.batch / max 1 r
  let ch := (List.range 32).filter fun c => bitOf (h.shd (aq 0x044)) c
  let top := fun k => match k with
    | 1 => 111 | 2 => 111 | 3 => 31 | 4 => 31 | 5 => 135 | 6 => 15 | 8 => 7 | 9 => 1 | _ => 0
  let chOk := fun c => decide (s (0x100 + 4 * c) 27 24 ≤ 9) &&
    decide (s (0x100 + 4 * c) 23 16 ≤ top (s (0x100 + 4 * c) 27 24) || s (0x100 + 4 * c) 27 24 == 0)
  h.acq.phase == 0 && decide (1 ≤ r) && decide (r ≤ 1024) && (mul || h.batch % max 1 r == 0) && decide (50 ≤ sper) &&
    decide (8 * ch.length ≤ sper) && decide (sper ≤ 500000000) && (List.range 32).all chOk &&
    (ch.all fun c => s (0x100 + 4 * c) 27 24 != 0) && decide (1 ≤ s 0x04C 23 0) &&
    (List.range 8).all fun k => s (0x200 + 0x20 * k) 2 0 != 7 &&
      decide (signed 24 (s (0x208 + 0x20 * k) 23 0) < signed 24 (s (0x204 + 0x20 * k) 23 0))

/-- What the source of a channel has given up to now: its last value with the grain it belongs to (R346). -/
def Hw.chSeed (h : Hw) (c : Nat) : List (Nat × Nat) :=
  let n := h.chInst c
  match h.chKind c with
  | 1 =>
    if h.bit (sd n rSTAT) 0 then
      [(h.grain - (h.grain + 2 ^ 32 - (h.reg (sd n 0x06C)).toNat) % 2 ^ 32, h.f (sd n 0x068) 31 8)]
    else []
  | 2 =>
    match (h.sdmS n).crustEnd with
    | some e =>
      let Mc := h.f (sd n 0x040) 21 16
      [(((h.sdmCentre n (2 * Mc - 1) (h.reg (sd n 0x04C)) e).toNat + 31) / 32, h.f (sd n 0x074) 15 0 * 256)]
    | none => []
  | 4 => [((h.fb n).bound, (h.reg64 (fbr n 0x078)).toNat)]
  | 5 => [((h.reg64 (ra pCLK 0x058)).toNat, (h.prof n).rel.pos.toNat)]
  | 7 => [((List.range 16).foldl (fun t k => max t ((h.trip k).since - 3)) 0, h.tripInputs)]
  | 9 => [((h.field n).upAt, h.f (fo n 0x08C) 15 0)]
  | _ => []

/-- The channels take up their sources: each starts with what its source has given last. -/
def Hw.acqSeed (h : Hw) : Hw :=
  h.setAcq { h.acq with hist := h.acqChans.foldl (fun t c => tabSet [] c (h.chSeed c) t) [] }

/-- The commit point of ACQ. -/
def Hw.acqTake (h : Hw) : Hw := if h.takes pACQ then (h.takePending pACQ).acqSeed else h

/-- ACQ.CTRL.ENABLE: zones are tracked anew from the first sample (R348). -/
def Hw.acqEnable (h : Hw) (on : Bool) : Hw :=
  let k := h.setBit (aq rCTRL) 0 on
  if on && !h.bit (aq rCTRL) 0 then ({ k with acq := { k.acq with tcs := [], n := 0, evs := [] } }).acqSeed else k

/-- ACQ_SAMPLE. -/
def execAcqSample (g : Nat) (levels : List (BitVec 24)) (s : State) := runLink g (fun m h => h.acqSample m levels) s
/-- ACQ_ARM. -/
def actAcqArm (g : Nat) (s : State) := run g (fun _ h => h.swWrite pACQ 0x058 fun h => h.acqArm) s
/-- ACQ_STOP. -/
def execAcqStop (g : Nat) (s : State) := run g (fun _ h => h.swWrite pACQ 0x058 fun h => h.acqStop) s
/-- ACQ_SOFTWARE_TRIGGER. -/
def execAcqSoftwareTrigger (g : Nat) (s : State) := run g (fun _ h => h.swWrite pACQ 0x058 fun h => h.acqSoft) s
/-- ACQ_REMOTE_TRIGGER. -/
def execAcqRemoteTrigger (g : Nat) (s : State) := run g (fun m h => h.swWrite pACQ 0x058 fun h => h.acqRemote m) s
/-- ACQ_REARM_END. -/
def execAcqRearmEnd (g : Nat) (s : State) := runLink g (fun _ h => h.acqRearm) s
/-- ACQ_RELEASE. -/
def actAcqRelease (g : Nat) (n : BitVec 10) (s : State) :=
  run g (fun _ h => h.swWrite pACQ 0x06C fun h => h.acqRelease n.toNat) s
/-- ACQ_LEDGER_READ: LEDGER gives all counts of one cycle. -/
def execAcqLedgerRead (g : Nat) (s : State) := run g (fun _ h => h.acqShow) s

end Sys2Proof.Machine
end

