-- ==== Sys2Proof/Machine/Ntm.lean ====
section
/-! DEFINITION. Network time (R289 to R305): the domain counters and their servo, lock and master choice, PTP messages
sent, control time at a boundary (source, slew, time fault) and its one step (R24, R298). -/

namespace Sys2Proof.Machine

def nt (off : Nat) : Nat := ra pNTM off
/-- A register of a domain block. -/
def dmr (b : Bool) (off : Nat) : Nat := nt ((if b then 0x180 else 0x100) + off)

def Hw.dom (h : Hw) (b : Bool) : DomS := if b then h.ntm.b else h.ntm.a
def Hw.setDom (h : Hw) (b : Bool) (d : DomS) : Hw :=
  { h with ntm := if b then { h.ntm with b := d } else { h.ntm with a := d } }
/-- The number of a domain, as bit places count it. -/
def dn (b : Bool) : Nat := if b then 1 else 0

def Hw.domRole (h : Hw) (b : Bool) : Nat := h.f (dmr b 0) 9 8
def Hw.domP2p (h : Hw) (b : Bool) : Bool := h.bit (dmr b 0) 11
def Hw.domAs (h : Hw) (b : Bool) : Bool := h.bit (dmr b 0) 14
def Hw.domLocked (h : Hw) (b : Bool) : Bool := h.bit (nt rREADY) (2 + dn b)

/-! ### Counters (R289, R290) -/

/-- The nominal increment, and its bounds ±500 ppm. -/
def incNom : Nat := 0x200000000
def incMin : Nat := 0x1FFBE76C9
def incMax : Nat := 0x200418937

/-- A computed increment clamped: the increment, and the side of a clamp. -/
def clampInc (v : Int) : Nat × Option Bool :=
  if v < (incMin : Int) then (incMin, some false) else if (incMax : Int) < v then (incMax, some true) else (v.toNat, none)

/-- The value of a domain counter at a grain, in units of 2^-32 ns. -/
def DomS.at (d : DomS) (g : Nat) : Nat := d.base + (g - d.baseGrain) * d.inc

/-- The counter goes on from value v at grain g. -/
def DomS.goOn (d : DomS) (g v inc : Nat) : DomS :=
  { d with base := v, baseGrain := g, inc, past := (d.baseGrain, d.base, d.inc) :: d.past.take 7 }

/-- A new increment from the grain after g. -/
def DomS.setInc (d : DomS) (g inc : Nat) : DomS := d.goOn g (d.at g) inc

/-- A SET or step: the counter takes value v at grain g, and what was stamped or measured before is not used (R305). -/
def DomS.stepTo (d : DomS) (g v : Nat) : DomS :=
  { d.goOn g v d.inc with stepAt := some g, sync := none, req := none,
                          link1 := { d.link1 with req := none, resp := none }, link2 := { d.link2 with req := none, resp := none } }

/-- The value of the counter at a stamp of the MAC, in quarters of a grain, in units of 2^-32 ns (R300). -/
def DomS.stampAt (d : DomS) (q : Nat) : Int :=
  let segs := (d.baseGrain, d.base, d.inc) :: d.past
  let s := (segs.find? fun x => decide (4 * x.1 ≤ q)).getD (segs.getLast?.getD (0, 0, 0))
  (s.2.1 : Int) + ((q : Int) - 4 * s.1) * s.2.2 / 4

/-- Whether an increment stands at a limit (R290). -/
def atLimit (inc : Nat) : Bool := inc == incMin || inc == incMax

/-- A time value as its four words: FRAC, NS, SEC_LO, SEC_HI (R308). -/
def timeWords (v : Nat) : List Word :=
  let ns := v / 2 ^ 32
  let sec := ns / 1000000000
  [BitVec.ofNat 32 v, BitVec.ofNat 32 (ns % 1000000000), BitVec.ofNat 32 sec, BitVec.ofNat 32 (sec / 2 ^ 32 % 65536)]

/-- A time value held in four registers. A value whose NS field lies outside the format of R10 carries into the seconds
(DESIGN CHOICE, log entry 163). -/
def Hw.timeOf (h : Hw) (a : Nat) : Nat :=
  (h.reg a).toNat + ((h.reg (a + 4)).toNat + 1000000000 * ((h.reg (a + 8)).toNat + 2 ^ 32 * h.f (a + 12) 15 0)) * 2 ^ 32

/-- A time value put into four registers. -/
def Hw.putTime (h : Hw) (a v : Nat) : Hw :=
  h.each (timeWords v).zipIdx fun h w => h.setReg (a + 4 * w.2) w.1

/-- A value in units of 2^-k ns as a signed register of ns × 2^8, saturating. -/
def ns8 (k : Nat) (v : Int) : Word := BitVec.ofInt 32 (clip (-(2 : Int) ^ 31) ((2 : Int) ^ 31 - 1) (v / 2 ^ (k - 8)))

/-! ### Lock, master and state (R293, R295) -/

/-- A change of lock state (R295). -/
def Hw.domLock (h : Hw) (b on : Bool) : Hw :=
  let h := if on then h else h.setDom b { h.dom b with ok := 0 }
  if h.domLocked b = on then h else (h.setBit (nt rREADY) (2 + dn b) on).evt pNTM (4 + dn b)

/-- DOMx_STATUS (R308). -/
def Hw.domStatus (h : Hw) (b : Bool) : Word :=
  let d := h.dom b
  let st := match h.domRole b with
    | 0 => 0
    | 1 => if d.master.isNone then 1 else if h.domLocked b then 3 else 2
    | _ => 4
  let port := match d.master with | some m => if m.hdr.secondPort then 16 else 0 | none => 0
  BitVec.ofNat 32 (st + port + (if atLimit d.inc then 256 else 0))

/-- DOMx_RATE. -/
def Hw.domRate (h : Hw) (b : Bool) : Word := BitVec.ofInt 32 ((h.dom b).inc - incNom)

/-- The default data set comparison: whether Announce x is better than y (R293). -/
def annBetter (x y : PtpAnnounceMsg) : Bool :=
  let key := fun (m : PtpAnnounceMsg) =>
    [m.priority1, m.clockClass, m.clockAccuracy, m.variance, m.priority2, m.gmId.toNat]
  let tail := fun (m : PtpAnnounceMsg) => [m.stepsRemoved, m.hdr.src.toNat, if m.hdr.secondPort then 1 else 0]
  if x.gmId = y.gmId then decide (tail x < tail y) else decide (key x < key y)

/-- The master in force changes: the lock is lost and the next Sync is the first. -/
def Hw.domMaster (h : Hw) (b : Bool) (m : Option PtpAnnounceMsg) : Hw :=
  let d := h.dom b
  let h := h.setDom b { d with master := m, t1 := none, used := none, sync := none, req := none, twoStep := none }
  let id : Word64 := match m with | some x => x.hdr.src | none => 0
  (h.setReg64 (dmr b 0x20) id).domLock b false

/-- The transports a domain is set to: layer 2, UDP over IPv4, or both (R292, R308). -/
def Hw.domVias (h : Hw) (b : Bool) : List PtpVia :=
  match h.f (dmr b 0) 13 12 with | 0 => [.layer2] | 1 => [.udp4] | _ => [.layer2, .udp4]

/-- Whether a message is acted on: its version, transport and domain are supported and set (R291, R292). -/
def Hw.ptpActs (h : Hw) (b : Bool) (m : PtpHdr) : Bool :=
  m.major == 2 && decide (m.minor ≤ 1) && m.multicast && (h.domVias b).contains m.via && m.domain.toNat == h.f (dmr b 0) 7 0

/-- Grains in 2^log seconds. -/
def logGrains (log : Int) : Nat := if log < 0 then 500000000 / 2 ^ log.natAbs else 500000000 * 2 ^ log.natAbs

/-- The receipt timeout of an Announce heard in a grain: 3 intervals (R292). -/
def annUntil (x : PtpAnnounceMsg × Nat) : Nat := x.2 + 3 * logGrains x.1.logInterval

/-- Announces of one sender on one port. -/
def annSame (x y : PtpAnnounceMsg) : Bool := x.hdr.src == y.hdr.src && x.hdr.secondPort == y.hdr.secondPort

/-- The best of the Announces heard becomes the master (R293). -/
def Hw.domChoose (h : Hw) (b : Bool) : Hw :=
  let best := (h.dom b).heard.foldl (fun (r : Option PtpAnnounceMsg) x =>
    match r with | none => some x.1 | some y => some (if annBetter x.1 y then x.1 else y)) none
  match best, (h.dom b).master with
  | none, none => h
  | some x, some y => if annSame x y then h.setDom b { h.dom b with master := some x } else h.domMaster b (some x)
  | r, _ => h.domMaster b r

/-- PTP_ANNOUNCE (R293). -/
def Hw.ptpAnnounce (h : Hw) (b : Bool) (m : PtpAnnounceMsg) : Hw :=
  if !h.ptpActs b m.hdr then h
  else
    match h.domRole b with
    | 1 =>
      let heard := (h.dom b).heard.filter fun x => !annSame x.1 m && decide (h.grain < annUntil x)
      (h.setDom b { h.dom b with heard := heard ++ [(m, h.grain)] }).domChoose b
    | 2 => h.bump (dmr b 0x2C) 23 16
    | _ => h

/-- ANNOUNCE_TIMEOUT (R295): 3 intervals have passed since the master's last Announce. -/
def Hw.annTimeout (h : Hw) (b : Bool) : Hw :=
  let d := h.dom b
  let lost := d.master.any fun m => d.heard.any fun x => annSame x.1 m && decide (annUntil x ≤ h.grain)
  if h.domRole b = 1 ∧ lost then
    (h.setDom b { d with heard := d.heard.filter fun x => decide (h.grain < annUntil x) }).domChoose b
  else h

/-- SYNC_LOSS_TIMEOUT (R295): LOSS_N announced intervals have passed since the last Sync accepted. -/
def Hw.syncLoss (h : Hw) (b : Bool) : Hw :=
  let due : Bool := match (h.dom b).lastSync with
    | some s => decide (s.1 + max 1 (h.f (dmr b 0x0C) 31 24) * logGrains s.2 ≤ h.grain)
    | none => true
  if h.domRole b = 1 ∧ due then h.domLock b false else h

/-! ### Stamps (R300) -/

/-- The ports of a domain's LAN. -/
def domPorts (b : Bool) : List Nat := if b then [2, 3] else [0, 1]
def domPort (b second : Bool) : Nat := 2 * dn b + (if second then 1 else 0)

/-- The latency register of a port for its link speed (R300). -/
def Hw.latReg (h : Hw) (p : Nat) : Nat :=
  nt (0x200 + 0x10 * p + (if h.f (ra pNSW (0x070 + 4 * p)) 2 1 == 2 then 0 else 4))

/-- Transmit and receive latency of a port, in units of 2^-32 ns. -/
def Hw.txLat (h : Hw) (p : Nat) : Nat := h.f (h.latReg p) 15 0 * 2 ^ 29
def Hw.rxLat (h : Hw) (p : Nat) : Nat := h.f (h.latReg p) 31 16 * 2 ^ 29

/-- delayAsymmetry of a port, in units of 2^-16 ns. -/
def Hw.asym (h : Hw) (p : Nat) : Int := (h.reg (nt (0x208 + 0x10 * p))).toInt * 2 ^ 13

/-- The ingress time-stamp of a message the MAC stamped at q quarters of a grain, in units of 2^-16 ns. -/
def Hw.ingress (h : Hw) (b : Bool) (p q : Nat) : Int := ((h.dom b).stampAt q - h.rxLat p) / 2 ^ 16

/-- The egress time-stamp of a message that leaves in this grain, in units of 2^-32 ns. -/
def Hw.egressAt (h : Hw) (b : Bool) (p : Nat) : Nat := (h.dom b).at h.grain + h.txLat p

/-- The same in units of 2^-16 ns. -/
def Hw.egressT (h : Hw) (b : Bool) (p : Nat) : Int := ((h.egressAt b p / 2 ^ 16 : Nat) : Int)

/-- A transmit stamp as origin time (seconds and integer nanoseconds, in ns) and the rest in units of 2^-16 ns. -/
def Hw.txStamp (h : Hw) (b : Bool) (p : Nat) : Int × Int :=
  let t := h.egressAt b p
  (((t / 2 ^ 32 : Nat) : Int), ((t % 2 ^ 32 / 2 ^ 16 : Nat) : Int))

/-! ### Path delay and servo (R294) -/

def DomS.link (d : DomS) (second : Bool) : PtpLink := if second then d.link2 else d.link1
def DomS.setLink (d : DomS) (second : Bool) (l : PtpLink) : DomS :=
  if second then { d with link2 := l } else { d with link1 := l }

/-- The mean of the last 2^DAVG measurements, each kept as twice the delay; 0 before the first. -/
def Hw.delayMean (h : Hw) (b : Bool) (l : List Int) : Int :=
  let l := l.take (2 ^ h.f (dmr b 0x08) 19 16)
  roundHalfEven (l.foldl (· + ·) 0) (2 * max 1 l.length)

/-- The delay of a port's link with its asymmetry (R300, R302). -/
def Hw.linkDelay (h : Hw) (b second : Bool) : Int :=
  h.delayMean b ((h.dom b).link second).delays + h.asym (domPort b second)

/-- The port on which the master is heard. -/
def DomS.port (d : DomS) : Bool := d.master.any fun m => m.hdr.secondPort

/-- d, the mean path delay by the chosen mechanism. -/
def Hw.domDelay (h : Hw) (b : Bool) : Int :=
  let d := h.dom b
  h.delayMean b (if h.domP2p b then (d.link d.port).delays else d.delays)

/-- DOMx_MPD shows d. -/
def Hw.showDelay (h : Hw) (b : Bool) : Hw := h.setReg (dmr b 0x18) (ns8 16 (h.domDelay b))

/-- The rate offset of a neighbour from two exchanges (R303): t3 of each against the module's own clock. -/
def rateOf (p n : Int × Nat) : Int :=
  let own : Int := (n.2 : Int) - p.2
  if own ≤ 0 then 0 else roundHalfEven ((n.1 - p.1 - own * 2 ^ 15) * 2 ^ 26) own.toNat

/-- A link measurement is complete: twice the delay, and t3 where the answer gave it. -/
def PtpLink.measured (l : PtpLink) (delay : Int) (far : Option (Int × Nat)) : PtpLink :=
  let rate := match l.far, far with | some p, some n => rateOf p n | _, _ => l.rate
  { l with req := none, resp := none, delays := delay :: l.delays.take 15, rate,
           far := match far with | some n => some n | none => l.far }

/-- An answer by the peer mechanism. -/
def Hw.pdelayResp (h : Hw) (b : Bool) (m : PtpRespMsg) : Hw :=
  let second := m.hdr.secondPort
  let l := (h.dom b).link second
  let put := fun (l : PtpLink) => (h.setDom b ((h.dom b).setLink second l)).showDelay b
  if m.kind = .pdelay then
    match l.req with
    | some (seq, t1) =>
      if seq = m.hdr.seq then
        let part := h.ingress b (domPort b second) m.stamp - t1 + m.time - m.hdr.correction
        if m.twoStep then put { l with req := none, resp := some (seq, part, m.stamp) } else put (l.measured part none)
      else h
    | none => h
  else
    match l.resp with
    | some (seq, part, q) =>
      if seq = m.hdr.seq then
        put (l.measured (part - m.time - m.hdr.correction) (some ((m.time : Int) + m.hdr.correction, q)))
      else h
    | none => h

/-- A Delay_Resp of the master completes an end-to-end measurement with the last Sync. -/
def Hw.delayResp (h : Hw) (b : Bool) (m : PtpRespMsg) : Hw :=
  let d := h.dom b
  match d.req, d.sync with
  | some (seq, t3), some (t1, t2) =>
    if seq = m.hdr.seq ∧ (d.master.any fun x => x.hdr.src == m.hdr.src) then
      (h.setDom b { d with req := none, delays := (t2 - t3 + (m.time - m.hdr.correction - t1)) :: d.delays.take 15 }).showDelay b
    else h
  | _, _ => h

/-- PTP_DELAY_RESP: a measurement by the chosen mechanism. -/
def Hw.ptpDelay (h : Hw) (b : Bool) (m : PtpRespMsg) : Hw :=
  if !h.ptpActs b m.hdr || !m.ours then h
  else if h.domP2p b then (if h.domRole b ≠ 0 ∧ m.kind ≠ .delay then h.pdelayResp b m else h)
  else if h.domRole b = 1 ∧ m.kind = .delay then h.delayResp b m
  else h

/-- Nanoseconds of a second in units of 2^-16 ns. -/
def sec16 : Int := 1000000000 * 65536

/-- The announced interval 2^log s, in units of 2^-16 ns. -/
def annInterval (log : Int) : Int := if log < 0 then sec16 / 2 ^ log.natAbs else sec16 * 2 ^ log.natAbs

/-- Whether asCapable holds of a port: the 802.1AS profile asks for a neighbour delay below 800 ns (R303). -/
def Hw.asCapable (h : Hw) (b second : Bool) : Bool :=
  let l := ((h.dom b).link second).delays
  !h.domAs b || (!l.isEmpty && decide (h.delayMean b l < 800 * 65536))

/-- The lock rule for an accepted Sync of offset o, in units of 2^-16 ns (R295). -/
def Hw.lockRule (h : Hw) (b : Bool) (o : Int) : Hw :=
  let thr : Int := (h.f (dmr b 0x0C) 15 0 : Nat)
  let a : Int := o.natAbs
  if 4 * thr * 65536 < a then h.domLock b false
  else if a ≤ thr * 65536 then
    let n := (h.dom b).ok + 1
    let h := h.setDom b { h.dom b with ok := n }
    if max 1 (h.f (dmr b 0x0C) 23 16) ≤ n then h.domLock b true else h
  else h.setDom b { h.dom b with ok := 0 }

/-- The new integrator and increment for offset o and interval s (R294): I as an exact fraction. -/
def Hw.servoInc (h : Hw) (b : Bool) (o : Int) (s : Nat) : DomS :=
  let x := h.dom b
  let ki := h.f (dmr b 0x08) 11 8
  let kp := h.f (dmr b 0x08) 3 0
  let held := match x.clamp with | some true => decide (o < 0) | some false => decide (0 < o) | none => false
  let iN : Int := if held then x.iNum else x.iNum * (s * 2 ^ ki : Nat) + o * x.iDen
  let iD := if held then x.iDen else x.iDen * (s * 2 ^ ki)
  let g := max 1 (Nat.gcd iN.natAbs iD)
  let iN : Int := iN / (g : Int)
  let iD := iD / g
  let pD := s * 2 ^ kp
  let r := clampInc (roundHalfEven ((incNom : Int) * ((iD : Int) * pD - iN * pD - o * iD)) (iD * pD))
  { x.setInc h.grain r.1 with iNum := iN, iDen := iD, clamp := r.2 }

/-- The servo for a Sync accepted with t1, t2 and the announced interval (R294); the asymmetry of the port it came by is
part of its path. -/
def Hw.servo (h : Hw) (b : Bool) (t1 t2 log : Int) (q : Nat) : Hw :=
  let h := (h.setDom b { h.dom b with lastSync := some (q / 4, log), sync := some (t1, t2) }).showDelay b
  let x := h.dom b
  let o := t2 - t1 - h.domDelay b - h.asym (domPort b x.port)
  let s := match x.t1 with | some p => t1 - p | none => annInterval log
  if s ≤ 0 then h
  else
    let h := h.setReg (dmr b 0x14) (ns8 16 o)
    let thr : Int := (h.f (dmr b 0x10) 15 0 : Nat)
    let h :=
      if thr ≠ 0 ∧ thr * 1000 * 65536 < (o.natAbs : Int) then
        let v := ((x.at h.grain : Int) - o * 65536).toNat
        ((h.setDom b (x.stepTo h.grain v)).evt pNTM (7 + dn b)).bump (dmr b 0x2C) 31 24
      else h.setDom b { h.servoInc b o s.toNat with t1 := some t1, used := some t2 }
    h.lockRule b o

/-! ### Messages sent and taken (R292, R293, R300 to R303) -/

/-- A message the module originates leaves a port that is enabled and has link, on every transport of its domain: version
2.1, the transport (0 layer 2; 1 UDP/IPv4, with its checksum of 0), the domain, the sequence number, then the fields given. -/
def Hw.ptpSend (h : Hw) (b : Bool) (kind : OutKind) (p : Nat) (seq : BitVec 16) (fields : List Int) : Hw :=
  if h.bit (ra pNSW (0x060 + 4 * p)) 0 && h.bit (ra pNSW (0x070 + 4 * p)) 0 then
    h.each (h.domVias b) fun h v =>
      let via : List Int := if v = .udp4 then [1, 0] else [0]
      (h.bumpWrap (ra pNSW (0x304 + 0x20 * p))).send
        { kind, port := p, nums := [2, 1] ++ via ++ [(h.f (dmr b 0) 7 0 : Int), (seq.toNat : Int)] ++ fields }
  else h

/-- What an 802.1AS relay sends on for a Sync taken in (R303): a one-step Sync on the other port, with the correction grown
by the link delay and the residence, and the rate ratio grown by the neighbour's. -/
def Hw.asRelay (h : Hw) (b : Bool) (m : PtpMsg) (t2 origin corr : Int) : Hw :=
  let second := m.hdr.secondPort
  let p := domPort b !second
  if h.domAs b && h.asCapable b !second then
    let stay := h.egressT b p - t2
    h.ptpSend b .ptpSync p m.hdr.seq
      [m.logInterval, origin, corr + h.linkDelay b second + stay, m.rate + ((h.dom b).link second).rate]
  else h

/-- Whether a Sync stamped at q quarters of a grain was stamped before a SET or step of its counter (R305). -/
def DomS.beforeStep (d : DomS) (q : Nat) : Bool := d.stepAt.any fun g => decide (q < 4 * g)

/-- Whether a Sync is taken by the servo (R291 to R293, R305). -/
def Hw.syncTaken (h : Hw) (b : Bool) (m : PtpMsg) : Bool :=
  h.domRole b == 1 && h.ptpActs b m.hdr && h.asCapable b m.hdr.secondPort && !(h.dom b).beforeStep m.stamp &&
    decide (m.logInterval ≤ 0) &&
    (h.dom b).master.any fun x => x.hdr.src == m.hdr.src && x.hdr.secondPort == m.hdr.secondPort

/-- Whether a Sync of a stream faster than 2^-7 s is an extra one (R292). -/
def Hw.syncExtra (h : Hw) (b : Bool) (m : PtpMsg) (t2 : Int) : Bool :=
  decide (m.logInterval < -7) &&
    (match (h.dom b).used with | some u => decide (t2 < u + 5859375 * 65536) | none => false)

/-- PTP_SYNC: a one-step Sync goes to the servo, a two-step one waits for its Follow_Up. -/
def Hw.ptpSync (h : Hw) (b : Bool) (m : PtpMsg) : Hw :=
  let t2 := h.ingress b (domPort b m.hdr.secondPort) m.stamp
  if !h.syncTaken b m then h
  else if h.syncExtra b m t2 then h.bump (dmr b 0x2C) 15 8
  else if m.twoStep then h.setDom b { h.dom b with twoStep := some (m, t2) }
  else (h.servo b (m.origin + m.hdr.correction) t2 m.logInterval m.stamp).asRelay b m t2 m.origin m.hdr.correction

/-- PTP_FOLLOW_UP: it completes the Sync of its sequence number, unless the counter was set or stepped since (R305). -/
def Hw.ptpFollow (h : Hw) (b : Bool) (m : PtpMsg) : Hw :=
  match (h.dom b).twoStep with
  | none => h
  | some (y, t2) =>
    if h.ptpActs b m.hdr ∧ y.hdr.src = m.hdr.src ∧ y.hdr.seq = m.hdr.seq ∧ y.hdr.secondPort = m.hdr.secondPort then
      let h := h.setDom b { h.dom b with twoStep := none }
      if h.syncTaken b y then
        let c := y.hdr.correction + m.hdr.correction
        (h.servo b (m.origin + c) t2 y.logInterval y.stamp).asRelay b { y with rate := m.rate } t2 m.origin c
      else h
    else h

/-- GM_SYNC_SEND: one Sync on each port, LOG_SYNC after the last (R293, R301). -/
def Hw.gmSync (h : Hw) (b : Bool) : Hw :=
  let log := signed 4 (h.f (dmr b 0) 31 28)
  let due : Bool := match (h.dom b).sentAt with | some t => decide (t + logGrains log ≤ h.grain) | none => true
  if h.domRole b = 2 ∧ due then
    let seq := (h.dom b).syncSeq
    let h := h.setDom b { h.dom b with sentAt := some h.grain, syncSeq := seq + 1 }
    h.each (domPorts b) fun h p => let t := h.txStamp b p; h.ptpSend b .ptpSync p seq [log, t.1, t.2]
  else h

/-- GM_ANNOUNCE_SEND: priority1, priority2, clockClass and clockAccuracy of DOMx_GM. -/
def Hw.gmAnnounce (h : Hw) (b : Bool) : Hw :=
  if h.domRole b = 2 then
    let w := dmr b 0x04
    let seq := (h.dom b).annSeq
    let h := h.setDom b { h.dom b with annSeq := seq + 1 }
    h.each (domPorts b) fun h p => h.ptpSend b .ptpAnnounce p seq [h.f w 31 24, h.f w 23 16, h.f w 15 8, h.f w 7 0]
  else h

/-- PTP_DELAY_REQ: a GM counter answers on the port asked. A Delay_Req gets its receipt time; a Pdelay_Req, in one step, a
requestReceiptTimestamp of zero and the turnaround in correctionField (R293, R301). -/
def Hw.ptpDelayReq (h : Hw) (b : Bool) (m : PtpReqMsg) : Hw :=
  let p := domPort b m.hdr.secondPort
  let t := h.ingress b p m.stamp
  if h.domRole b = 2 ∧ h.ptpActs b m.hdr then
    h.ptpSend b .ptpDelayResp p m.hdr.seq
      (if m.pdelay then [1, 0, m.hdr.correction + (h.egressT b p - t)] else [0, t, m.hdr.correction])
  else h

/-- DELAY_REQ_SEND: by the peer mechanism a Pdelay_Req on each port, else a SLAVE counter's Delay_Req to its master; the
egress time-stamp is kept for the answer. -/
def Hw.delayReqSend (h : Hw) (b : Bool) : Hw :=
  let seq := (h.dom b).reqSeq
  if h.domP2p b ∧ h.domRole b ≠ 0 then
    (h.setDom b { h.dom b with reqSeq := seq + 1 }).each [false, true] fun h second =>
      let p := domPort b second
      let l := (h.dom b).link second
      let h := h.setDom b ((h.dom b).setLink second { l with req := some (seq, h.egressT b p), resp := none })
      h.ptpSend b .ptpDelayReq p seq [1, h.egressT b p]
  else if h.domRole b = 1 ∧ (h.dom b).master.isSome then
    let p := domPort b (h.dom b).port
    let h := h.setDom b { h.dom b with reqSeq := seq + 1, req := some (seq, h.egressT b p) }
    h.ptpSend b .ptpDelayReq p seq [0, h.egressT b p]
  else h

/-! ### Commands of the NTM page -/

/-- DOM_SET (R294, R295). -/
def Hw.domSet (h : Hw) (b : Bool) : Hw :=
  if h.domRole b = 2 then
    (h.setDom b ((h.dom b).stepTo h.wgrain (h.timeOf (dmr b 0x40)))).domLock b true
  else h.evt pNTM 1

/-- Whether the source in force is LOCKED. -/
def Hw.srcLocked (h : Hw) : Bool := h.domLocked (h.bit (nt rSTAT) 0)

/-- CT_STEP_CMD (R298). -/
def Hw.stepCmd (h : Hw) (src : Bool) : Hw :=
  if h.clk.stepped || (!src && !h.srcLocked) then h.evt pNTM 1
  else { h with ntm := { h.ntm with want := some (src, h.cycle) } }

/-- CT_CAPTURE (R304): the grain is the one in which the write is applied. -/
def Hw.ctCapture (h : Hw) : Hw :=
  let g := h.wgrain
  let h := h.setReg64 (nt 0x0B0) (BitVec.ofNat 64 g)
  (((h.putTime (nt 0x0B8) (h.ntm.a.at g)).putTime (nt 0x0C8) (h.ntm.b.at g)).putTime (nt 0x0D8) (h.ctAt g)).evt pNTM 10

/-- The check of an NTM GO (R291, R303, R308). -/
def Hw.ntmSetOk (h : Hw) : Bool :=
  let c := fun b => h.shd (dmr b 0)
  let one := fun (w : Word) =>
    decide (fld w 7 0 ≤ 127) && fld w 9 8 != 3 && fld w 13 12 != 3 && (fld w 31 28 == 0 || decide (9 ≤ fld w 31 28)) &&
      (!bitOf w 14 || (bitOf w 11 && fld w 13 12 == 0))
  one (c false) && one (c true) && !(fld (c false) 7 0 == fld (c true) 7 0 && bitOf (c false) 14 == bitOf (c true) 14)

/-- The commit point of NTM: a change of ROLE clears the lock (R295); a GM counter runs at nominal (R291). -/
def Hw.ntmTake (h : Hw) : Hw :=
  if h.takes pNTM then
    let old := [h.domRole false, h.domRole true]
    let h := h.takePending pNTM
    h.each [false, true] fun h b =>
      if h.domRole b = old.getD (dn b) 0 then h
      else
        let h := (h.domMaster b none).setReg (dmr b 0x14) 0
        let d := h.dom b
        let d : DomS := { base := d.base, baseGrain := d.baseGrain, inc := d.inc, past := d.past, stepAt := d.stepAt }
        h.setDom b (if h.domRole b = 2 then d.setInc h.grain incNom else d)
  else h

/-! ### Control time at a boundary (R296 to R299) -/

/-- CT_SOURCE_SELECT (R296). -/
def Hw.ctSource (h : Hw) : Hw :=
  let la := h.domLocked false
  let lb := h.domLocked true
  let hold := !la && !lb
  let had := h.bit (nt rSTAT) 1
  let h := h.setBit (nt rSTAT) 1 hold
  if hold then h.when (!had) fun h => h.evt pNTM 9
  else
    let sel := h.bit (nt 0x040) 0
    let src := if !h.bit (nt 0x040) 1 then sel else if h.domLocked sel then sel else !sel
    if src = h.bit (nt rSTAT) 0 then h else (h.setBit (nt rSTAT) 0 src).evt pNTM 6

/-- The source in force as a counter. -/
def Hw.ctSrc (h : Hw) : DomS := h.dom (h.bit (nt rSTAT) 0)

/-- TIME_FAULT (R299): e in units of 2^-32 ns. -/
def Hw.timeFault (h : Hw) (e : Int) : Hw :=
  let a := e.natAbs
  if 1000 * 2 ^ 32 < a then
    if h.bit (nt rSTAT) 2 then h
    else (((h.setBit (nt rSTAT) 2 true).evt pNTM 3).fltEvent pNTM 10 3 0 h.grain).1
  else if a ≤ 500 * 2 ^ 32 then h.setBit (nt rSTAT) 2 false else h

/-- STAT.CT_CLAMPED: INC_CT stands at the limit of R290. -/
def Hw.ctClamped (h : Hw) : Hw := h.setBit (nt rSTAT) 4 (atLimit h.clk.ctInc)

/-- CT_SLEW (R297): the error at boundary grain B and the increment of the batch that begins there. -/
def Hw.ctSlew (h : Hw) : Hw :=
  let B := h.grain
  let e : Int := (h.ctSrc.at B : Int) - h.ctAt B
  let h := h.setReg (nt 0x0A8) (ns8 32 e)
  if !h.clk.stepped then h.ctClamped
  else
    let inc := if h.bit (nt rSTAT) 1 then h.clk.ctInc
      else (clampInc ((h.ctSrc.inc : Int) + roundHalfEven e (max 1 (h.f (nt 0x040) 15 8) * h.batch))).1
    ({ h with clk := { h.clk with ctInc := inc } }.ctClamped).timeFault e

/-- The CT step that is due at this boundary, as the value CT takes and its increment (R298); a write of this very cycle
gives way to the automatic step (R305). -/
def Hw.ctStepDue (h : Hw) : Hw × Option (Nat × Nat) :=
  if h.clk.stepped then (h, none)
  else
    let auto := h.bit (nt 0x040) 2 && h.srcLocked
    let h := match h.ntm.want with
      | some w => if auto && w.2 == h.cycle then { h with ntm := { h.ntm with want := none } }.evt pNTM 1 else h
      | none => h
    match h.ntm.want with
    | some (true, _) => (h, some (h.timeOf (nt 0x050), incNom))
    | some (false, _) => (h, some (h.ctSrc.at h.grain, h.ctSrc.inc))
    | none => (h, if auto then some (h.ctSrc.at h.grain, h.ctSrc.inc) else none)

/-- The CT step (R24, R298): CT takes the value exactly; the next boundary is the first instant of the stepped CT that CT
reaches no sooner than 2,500 grains after this grain. -/
def Hw.ctStep (h : Hw) (v inc : Nat) : Hw :=
  let B := h.grain
  let c := h.clk
  let h := { h with clk := { c with ctBase := v, ctBaseGrain := B, ctInc := inc, stepped := true, exempt := true,
                                    past := (c.ctBaseGrain, c.ctBase, c.ctInc) :: c.past.take 7 },
                    ntm := { h.ntm with want := none } }
  let next := (h.ctGrains (B + 2499) / h.batch + 1) * h.batch
  let h := { h with clk := { h.clk with nextB := next, batchNum := next / h.batch - 1 } }
  let h := h.setReg (ra pCLK 0x060) (BitVec.ofNat 32 ((next / h.batch - 1) % max 1 h.ncyc))
  let h := (h.setBit (nt rREADY) 4 true).evt pNTM 2
  (((h.setBit (ra pCLK rREADY) 2 true).setBit (nt rSTAT) 3 false).setBit (ra pCLK rSTAT) 0 false).ctClamped

/-- PTP_SYNC. -/
def execPtpSync (g : Nat) (domB : Bool) (m : PtpMsg) (s : State) := runLink g (fun _ h => h.ptpSync domB m) s
/-- PTP_FOLLOW_UP. -/
def execPtpFollowUp (g : Nat) (domB : Bool) (m : PtpMsg) (s : State) := runLink g (fun _ h => h.ptpFollow domB m) s
/-- PTP_DELAY_RESP. -/
def execPtpDelayResp (g : Nat) (domB : Bool) (m : PtpRespMsg) (s : State) := runLink g (fun _ h => h.ptpDelay domB m) s
/-- PTP_DELAY_REQ. -/
def execPtpDelayReq (g : Nat) (domB : Bool) (m : PtpReqMsg) (s : State) := runLink g (fun _ h => h.ptpDelayReq domB m) s
/-- PTP_ANNOUNCE. -/
def execPtpAnnounce (g : Nat) (domB : Bool) (m : PtpAnnounceMsg) (s : State) :=
  runLink g (fun _ h => h.ptpAnnounce domB m) s
/-- ANNOUNCE_TIMEOUT. -/
def execAnnounceTimeout (g : Nat) (domB : Bool) (s : State) := run g (fun _ h => h.annTimeout domB) s
/-- SYNC_LOSS_TIMEOUT. -/
def execSyncLossTimeout (g : Nat) (domB : Bool) (s : State) := run g (fun _ h => h.syncLoss domB) s
/-- GM_SYNC_SEND. -/
def execGmSyncSend (g : Nat) (domB : Bool) (s : State) := runLink g (fun _ h => h.gmSync domB) s
/-- GM_ANNOUNCE_SEND. -/
def execGmAnnounceSend (g : Nat) (domB : Bool) (s : State) := runLink g (fun _ h => h.gmAnnounce domB) s
/-- DELAY_REQ_SEND. -/
def execDelayReqSend (g : Nat) (domB : Bool) (s : State) := runLink g (fun _ h => h.delayReqSend domB) s
/-- DOM_SET. -/
def execDomSet (g : Nat) (domB : Bool) (s : State) :=
  run g (fun _ h => h.swWrite pNTM (if domB then 0x1B0 else 0x130) fun h => h.domSet domB) s
/-- CT_STEP_CMD. -/
def execCtStepCmd (g : Nat) (src : Bool) (s : State) := run g (fun _ h => h.swWrite pNTM 0x044 fun h => h.stepCmd src) s
/-- CT_CAPTURE. -/
def execCtCapture (g : Nat) (s : State) := run g (fun _ h => h.swWrite pNTM 0x044 Hw.ctCapture) s

end Sys2Proof.Machine
end

