-- ==== Sys2Proof/Machine/Nsw.lean ====
section
/-! DEFINITION. The switch (R309 to R331): gates, frames forwarded and stored, the cell ledger, software buffers, the
cyclic frame, receive slots, partners and neighbours. -/

namespace Sys2Proof.Machine

def nw (off : Nat) : Nat := ra pNSW off
def pcnt (p off : Nat) : Nat := nw (0x300 + 0x20 * p + off)

/-- A fabric access that ends with a bus error (R58): the address and the requester are latched while no bus error
stands. -/
def Hw.busErr (h : Hw) (addr src : Nat) : Hw :=
  let h := if h.bit (sy rEVT) 2 then h else
    (h.setReg (sy 0x04C) (BitVec.ofNat 32 addr)).setReg (sy 0x050) (BitVec.ofNat 32 src)
  h.evt pSYS 2

/-- The network's access to n bytes of application SRAM: the first address past its end is a bus error (R58). -/
def Hw.netErr (h : Hw) (addr n : Nat) : Hw :=
  if n ≠ 0 ∧ 0x200000 < addr + n then h.busErr (max addr 0x200000) 0x22 else h

/-- A block written into application SRAM by the network. -/
def Hw.netWrite (h : Hw) (addr : Nat) (d : List Byte) : Hw :=
  (h.wrN addr (d.take (0x200000 - addr))).netErr addr d.length

/-! ### Ports, classes and gates (R309, R313, R314) -/

/-- The other port of a LAN. -/
def otherPort (p : Nat) : Nat := if p % 2 = 0 then p + 1 else p - 1

def Hw.portSpeed (h : Hw) (p : Nat) : Nat := h.f (nw (0x070 + 4 * p)) 2 1

/-- A port is enabled and has link. -/
def Hw.portUp (h : Hw) (p : Nat) : Bool := h.bit (nw (0x060 + 4 * p)) 0 && h.bit (nw (0x070 + 4 * p)) 0

/-- The time of n octets at a port's speed, in grains, rounded up. -/
def Hw.octTime (h : Hw) (p n : Nat) : Nat := if h.portSpeed p = 2 then (16 * n + 9) / 10 else 4 * n

/-- The octets of preamble and gap around a frame, as the 1,542 of R315 allow for 1,522. -/
def frameGap : Nat := 20

def Hw.frameClass (h : Hw) (f : Frame) : Nat :=
  match f.pcp with
  | some c => c.toNat
  | none =>
    if f.etype = 0x88F7 then 7 else if f.etype.toNat = h.f (nw 0x044) 15 0 then 6
    else h.f (nw (0x060 + 4 * f.port)) 10 8

def Hw.gclN (h : Hw) (p : Nat) : Nat := h.f (nw (0x400 + 0x80 * p)) 4 0
def Hw.gclDur (h : Hw) (p i : Nat) : Nat := h.f (nw (0x404 + 0x80 * p + 4 * i)) 22 0
def Hw.gclMask (h : Hw) (p i : Nat) : Nat := h.f (nw (0x404 + 0x80 * p + 4 * i)) 31 24
/-- The durations of the first n entries. -/
def Hw.gclSum (h : Hw) (p n : Nat) : Nat := (List.range n).foldl (fun t i => t + h.gclDur p i) 0
/-- A list of the right sum is in force. -/
def Hw.gclOn (h : Hw) (p : Nat) : Bool := h.gclN p != 0 && h.gclSum p (h.gclN p) == h.batch * h.ncyc
/-- STAT.GCL_OPEN. -/
def Hw.gclOpen (h : Hw) : Bool := (List.range 4).all fun p => !h.gclOn p

def Hw.gateOpen (h : Hw) (p c : Nat) : Bool :=
  c == 7 || !h.gclOn p || (h.gclMask p (tabGet 0 p h.nsw.gcl)).testBit c

/-- CT grains since the network-cycle boundary. -/
def Hw.cycPos (h : Hw) : Nat := h.ctGrains h.grain - h.nsw.cycT

/-- Grains for which an open gate stays open: to the end of its entry and through the entries after it that hold it
open. -/
def Hw.openLeft (h : Hw) (p c : Nat) : Nat :=
  if c = 7 ∨ h.gclOn p = false then 2 ^ 40
  else if !h.gateOpen p c then 0
  else
    let i := tabGet 0 p h.nsw.gcl
    let n := h.gclN p
    let rest := ((List.range n).drop (i + 1) ++ List.range n).takeWhile fun j => (h.gclMask p j).testBit c
    (h.gclSum p (i + 1) - h.cycPos) + rest.foldl (fun t j => t + h.gclDur p j) 0

/-- GCL_ENTRY_START: the entry in force follows CT. -/
def Hw.gclStart (h : Hw) (p : Nat) : Hw :=
  if h.gclOn p then
    let n := h.gclN p
    let i := min (n - 1) ((List.range n).filter fun j => decide (h.gclSum p (j + 1) ≤ h.cycPos)).length
    if tabGet 0 p h.nsw.gcl < i then { h with nsw := { h.nsw with gcl := tabSet 0 p i h.nsw.gcl } } else h
  else h

/-- A committed list that a change of BATCH or NCYC leaves with the wrong sum (R314). -/
def Hw.gclCheck (h : Hw) : Hw :=
  if (List.range 4).any fun p => h.gclN p != 0 && !h.gclOn p then h.evt pNSW 1 else h

/-! ### Cells (R317 to R319) -/

def cellsOf (len : Nat) : Nat := (len + 127) / 128

/-- The cells of the frames of some kind in a list. -/
def frameCells (l : List NFrame) (q : NFrame → Bool) : Nat := ((l.filter q).map (·.cells)).foldl (· + ·) 0

/-- The frames on the wire in the present grain (R317). -/
def Hw.inFlight (h : Hw) : List NFrame := (h.nsw.flight.filter fun x => decide (h.grain < x.1)).map (·.2)

/-- Cells of the forwarding region that frames of some kind hold, stored or on the wire. -/
def Hw.cellsUsed (h : Hw) (q : NFrame → Bool) : Nat := frameCells (h.nsw.frames ++ h.inFlight) q

/-- Whether a frame of class c and so many cells, for egress e when it is forwarded, finds its cells. -/
def Hw.cellsOk (h : Hw) (c n : Nat) (e : Option Nat) : Bool :=
  let region := 8192 - 12 * h.f (nw 0x084) 8 0
  let ptp := h.f (nw 0x080) 29 16
  let cyc := h.f (nw 0x080) 13 0
  let fits := fun used limit => decide (used + n ≤ limit)
  fits (h.cellsUsed fun _ => true) region &&
    (if c = 7 then fits (h.cellsUsed (·.cls == 7)) ptp
     else if c = 6 then fits (h.cellsUsed (·.cls == 6)) cyc
     else fits (h.cellsUsed (decide <| ·.cls ≤ 5)) (region - ptp - cyc) &&
       (match e with
        | some p => fits (frameCells h.nsw.frames fun x => decide (x.cls ≤ 5) && x.port == p) (h.f (nw 0x084) 28 16)
        | none => true))

/-- A copy of software buffer c waits for egress. -/
def Hw.bufWaits (h : Hw) (c : Nat) : Bool := h.nsw.frames.any (·.soft == some c)

/-- What a software buffer is: 0 free, 1 received, 2 held, 3 posted. A posted buffer is free once its last copy has been
sent (R320). -/
def Hw.bufState (h : Hw) (c : Nat) : Nat :=
  let st := tabGet 0 c h.nsw.bufs
  if st = 3 ∧ !(h.bufWaits c || h.inFlight.any (·.soft == some c)) then 0 else st
def Hw.setBuf (h : Hw) (c st : Nat) : Hw := { h with nsw := { h.nsw with bufs := tabSet 0 c st h.nsw.bufs } }

/-- LEDGER0 and LEDGER1 (R317): a posted buffer is QUEUED while a copy of it waits, then IN_FLIGHT (log entry 97). -/
def Hw.ledger (h : Hw) : Word × Word :=
  let soft := fun (p : Nat → Bool) => 12 * (h.nsw.bufs.filter fun b => p b.1).length
  let held := soft fun c => h.bufState c == 2
  let queued := frameCells h.nsw.frames (fun _ => true) +
    soft fun c => h.bufState c == 1 || (h.bufState c == 3 && h.bufWaits c)
  let flight := frameCells h.inFlight (fun _ => true) + soft fun c => h.bufState c == 3 && !h.bufWaits c
  (BitVec.ofNat 32 (queued * 65536 + (8192 - queued - held - flight)), BitVec.ofNat 32 (held * 65536 + flight))

/-- LEDGER_READ: the pair is latched from one cycle. -/
def Hw.ledgerRead (h : Hw) : Hw :=
  let l := h.ledger
  let h := (h.setReg (nw 0x088) l.1).setReg (nw 0x08C) l.2
  { h with latch := tabIns (nw 0x08C) l.2 h.latch }

/-! ### Egress -/

/-- What leaves of a PTP event message: its residence in the LAN's counter, and the link delay to be added, in units of
2^-16 ns (R302). -/
def Hw.withResidence (h : Hw) (p : Nat) (event : Option (Int × Int)) (o : Out) : Out :=
  match event with
  | some (t, link) => { o with nums := [h.egressT (decide (2 ≤ p)) p - t, link] ++ o.nums }
  | none => o

/-- The throttle steps in force (R444, R453). -/
def Hw.steps (h : Hw) : Nat := h.f (ra pTHM rSTAT) 7 6

/-- The line of a port is taken by a frame of class c; throttle step 3 keeps classes 0 to 5 to half of it (R444). -/
def Hw.occupy (h : Hw) (p c len : Nat) : Hw :=
  let t := h.octTime p (len + frameGap)
  { h with nsw := { h.nsw with busy := tabSet 0 p (h.grain + t) h.nsw.busy,
                               shape := if c ≤ 5 ∧ h.steps = 3 then tabSet 0 p (h.grain + 2 * t) h.nsw.shape else h.nsw.shape } }

/-- Throttle step 3 holds no frame of class c back at port p (R444). -/
def Hw.shaped (h : Hw) (p c : Nat) : Bool :=
  decide (5 < c) || h.steps != 3 || decide (tabGet 0 p h.nsw.shape ≤ h.grain)

/-- The cells of a frame that has begun egress are in flight until its line is free again (R317). -/
def Hw.fly (h : Hw) (x : NFrame) : Hw :=
  let still := h.nsw.flight.filter fun y => decide (h.grain < y.1)
  { h with nsw := { h.nsw with flight := (tabGet 0 x.port h.nsw.busy, x) :: still } }

/-- A frame of class c begins egress. -/
def Hw.egress (h : Hw) (p c len : Nat) (o : Out) : Hw :=
  let h := h.occupy p c len
  (h.bumpWrap (pcnt p 4)).send { o with port := p }

def Hw.portIdle (h : Hw) (p : Nat) : Bool := decide (tabGet 0 p h.nsw.busy ≤ h.grain)

/-- Whether a frame of a class may start: its last octet, with the gap, leaves before its gate closes. -/
def Hw.mayStart (h : Hw) (p c len : Nat) : Bool :=
  h.gateOpen p c && h.shaped p c && decide (h.octTime p (len + frameGap) ≤ h.openLeft p c)

/-- A frame stored for egress. -/
def Hw.storeFrame (h : Hw) (x : NFrame) : Hw := { h with nsw := { h.nsw with frames := h.nsw.frames ++ [x] } }

/-- A frame the module originates leaves at once where its gate and port allow, else it waits. -/
def Hw.emit (h : Hw) (ports : List Nat) (c len : Nat) (o : Out) : Hw :=
  h.each (ports.filter fun p => h.portUp p) fun h p =>
    if h.portIdle p && h.mayStart p c len then h.egress p c len o
    else h.storeFrame ⟨p, c, len, 0, none, none, { o with port := p }⟩

/-- FRAME_EGRESS: of the stored frames that may start, the highest class, and in a class the first (R314). -/
def Hw.frameEgress (h : Hw) (p : Nat) : Hw :=
  if !(h.portUp p && h.portIdle p) then h
  else
    let ready := h.nsw.frames.zipIdx.filter fun x => x.1.port == p && h.mayStart p x.1.cls x.1.len
    let best := ready.foldl (fun (b : Option (NFrame × Nat)) x =>
      match b with | some y => if y.1.cls < x.1.cls then some x else some y | none => some x) none
    match best with
    | none => h
    | some x =>
      ({ h with nsw := { h.nsw with frames := h.nsw.frames.eraseIdx x.2 } }.egress p x.1.cls x.1.len
        (h.withResidence p x.1.event x.1.body)).fly x.1

/-! ### Reception (R302, R311, R315, R320) -/

/-- Duplicate discard (R311): whether a frame is the second copy, and the discard table after it. -/
def Hw.prpSeen (h : Hw) (src seq : Nat) : Hw × Bool :=
  let win := max 1 (min 400 (h.f (nw 0x380) 8 0)) * 500000
  let l := h.nsw.prp.filter fun x => decide (h.grain ≤ x.2.2 + win)
  if l.any fun x => x.1 == src && x.2.1 == seq then
    let h := { h with nsw := { h.nsw with prp := l } }
    ((h.setF (nw 0x384) 15 0 ((h.f (nw 0x384) 15 0 + 1) % 65536)).noteCnt (nw 0x384) 0 1, true)
  else
    let full := decide (1024 ≤ l.length)
    let h := { h with nsw := { h.nsw with prp := (if full then l.drop 1 else l) ++ [(src, seq, h.grain)] } }
    (h.when full (·.bump (nw 0x384) 31 16), false)

/-- The first cells of the software buffers. -/
def Hw.bufCells (h : Hw) : List Nat := (List.range (h.f (nw 0x084) 8 0)).map fun k => 8192 - 12 * (k + 1)

/-- A free software buffer, if there is one; which of several is open. -/
def Hw.freeBuf (h : Hw) : Hw × Option Nat :=
  let l := h.bufCells.filter fun c => h.bufState c == 0
  if l.isEmpty then (h, none) else (h.drew, l[h.freeWord.toNat % l.length]?)

def cellAddr (c : Nat) : Nat := 0x24000000 + 128 * c

/-- A frame for software is copied into a buffer and queued, or dropped (R320). -/
def Hw.softRx (h : Hw) (f : Frame) : Hw :=
  match if h.nsw.rxq.length < 64 then h.freeBuf else (h, none) with
  | (h, none) => h.bump (nw 0x0A0) 15 0
  | (h, some c) =>
    let h := (h.wrN (cellAddr c) (f.data.take 1536)).setBuf c 1
    { h with nsw := { h.nsw with rxq := h.nsw.rxq ++ [(c, min f.len 2047)] } }

/-- The discard table for a frame that is delivered, where it carries a trailer. -/
def Hw.prpCopy (h : Hw) (prp : Option (BitVec 48 × BitVec 16)) : Hw × Bool :=
  match prp with | some s => h.prpSeen s.1.toNat s.2.toNat | none => (h, false)

/-- Delivery of a frame within the module: cyclic frames and announcements are delivered by rows of their own. -/
def Hw.deliver (h : Hw) (f : Frame) : Hw :=
  if !(f.forUs || f.multicast) || f.kind != .software then h
  else
    let r := h.prpCopy f.prp
    if r.2 then r.1 else r.1.softRx f

/-- Whether a frame is forwarded to the other port of its LAN (R303, R309, R320, R328). -/
def Hw.forwards (h : Hw) (f : Frame) : Bool :=
  let ptp := f.kind == .ptpSync || f.kind == .ptpEvent || f.kind == .ptpGeneral
  f.kind != .lldp && !(f.forUs && !f.multicast) && !(ptp && h.domAs (decide (2 ≤ f.port))) && h.portUp (otherPort f.port)

/-- Of a PTP event message: its ingress stamp, and with MECH = P2P the link delay of the ingress port for a Sync (R302). -/
def Hw.frameEvent (h : Hw) (f : Frame) : Option (Int × Int) :=
  let b := decide (2 ≤ f.port)
  if f.kind = .ptpSync ∨ f.kind = .ptpEvent then
    some (h.ingress b f.port f.stamp, if f.kind = .ptpSync ∧ h.domP2p b then h.linkDelay b (f.port % 2 == 1) else 0)
  else none

/-- FRAME_RECEIVE. -/
def Hw.frameRx (h : Hw) (f : Frame) : Hw :=
  let p := f.port % 4
  let e := otherPort p
  let c := h.frameClass f
  let n := cellsOf f.len
  let b := decide (2 ≤ p)
  if !h.portUp p then h
  else if f.kind = .pause then (h.bumpWrap (pcnt p 0)).bump (pcnt p 0xC) 15 0
  else
    let fwd := h.forwards f
    let event := h.frameEvent f
    let body : Out := { kind := .forwarded, port := e, data := f.data }
    if !h.cellsOk c n (if fwd then some e else none) then h.bump (pcnt p 8) 31 0
    else
      let cut := fwd && h.portSpeed p == h.portSpeed e && h.portIdle e && h.shaped e c && decide (h.octTime e 1542 ≤ h.openLeft e c)
      let stored : NFrame := ⟨e, c, f.len, n, none, event, body⟩
      if !f.fcsOk then
        let h := h.bump (pcnt p 0xC) 31 16
        if cut then
          let h := h.when event.isSome fun h => h.bump (dmr b 0x2C) 7 0
          (((h.occupy e c f.len).fly stored).send (h.withResidence e event { body with nums := [-1] }))
        else h
      else
        let h := h.bumpWrap (pcnt p 0)
        let h := if cut then (h.egress e c f.len (h.withResidence e event body)).fly stored
          else if fwd then h.storeFrame stored else h
        h.deliver f

/-! ### Software frames (R320) -/

/-- What a read that gives a buffer returns. -/
def bufWord (c len : Nat) : Word := BitVec.ofNat 32 (2 ^ 31 + len * 65536 + c)

/-- SW_RX_POP. -/
def Hw.swRxPop (h : Hw) : Hw :=
  match h.nsw.rxq with
  | [] => h.setReg (nw 0x090) 0
  | (c, len) :: t => ({ h with nsw := { h.nsw with rxq := t } }.setBuf c 2).setReg (nw 0x090) (bufWord c len)

/-- SW_ALLOC. -/
def Hw.swAlloc (h : Hw) : Hw :=
  match h.freeBuf with
  | (h, none) => h.setReg (nw 0x098) 0
  | (h, some c) => (h.setBuf c 2).setReg (nw 0x098) (bufWord c 0)

/-- SW_RET. -/
def Hw.swRet (h : Hw) (c : Nat) : Hw := if h.bufState c = 2 then h.setBuf c 0 else h

/-- The PRP sequence number of the next frame the module originates (R311). -/
def Hw.prpNext (h : Hw) : Hw × Nat :=
  ({ h with nsw := { h.nsw with prpSeq := (h.nsw.prpSeq + 1) % 65536 } }, h.nsw.prpSeq)

/-- SW_POST: a held buffer waits for egress on every port with link; with none it is free again. -/
def Hw.swPost (h : Hw) (m : Mem) (v : Word) : Hw :=
  let c := fld v 12 0
  let len := fld v 26 16
  if h.bufState c = 2 ∧ 60 ≤ len ∧ len ≤ 1522 then
    let q := h.prpNext
    let h := q.1
    let ports := (List.range 4).filter fun p => h.portUp p
    let data := h.rdN m (cellAddr c) len
    (h.setBuf c (if ports.isEmpty then 0 else 3)).each ports fun h p =>
      h.storeFrame ⟨p, fld v 30 28, len, 0, some c, none, { kind := .posted, port := p, nums := [q.2], data }⟩
  else h

/-! ### The cyclic frame (R321 to R323) -/

def dwordBytes (v : Nat) : List Byte := leBytes 8 v

/-- The payload of an AXIS record. -/
def axisRec (X : Nat) (r : PRec) : List Byte :=
  dwordBytes X ++ dwordBytes r.pos.toNat ++ dwordBytes (unsign 64 r.vel) ++ dwordBytes (unsign 64 r.acc) ++ wordBytes r.w7

/-- A record with its header. -/
def recBytes (ty idx : Nat) (d : List Byte) : List Byte := leBytes 1 ty ++ leBytes 1 idx ++ leBytes 2 d.length ++ d

/-- The start of a master's segment, reckoned from P_T0 while the master is IDLE. -/
def Hw.sendStart (h : Hw) (x : MSend) : Nat :=
  if x.isOpen then (h.reg64 (prfWin (128 + x.mm) 0x090)).toNat + x.start else x.start

/-- The last cycle of a segment's span has begun before an instant (R246). -/
def Hw.spanOver (h : Hw) (x : MSend) (cycT : Nat) : Bool := !x.isOpen && decide (x.start < cycT + 2 * h.batch)

/-- A segment is placed by starts, then master, then SEQ. -/
def Hw.sendBefore (h : Hw) (x y : MSend) : Bool :=
  decide ([h.sendStart x, x.mm, x.seq] ≤ [h.sendStart y, y.mm, y.seq])

/-- A segment put in its place. -/
def Hw.sendIns (h : Hw) (x : MSend) : List MSend → List MSend
  | [] => [x]
  | y :: t => if h.sendBefore x y then x :: y :: t else y :: h.sendIns x t

/-- The segments due in this cycle, in order. -/
def Hw.sendsDue (h : Hw) : List MSend :=
  (h.nsw.sends.filter fun x =>
    h.bit (ls (0x040 + 4 * x.mm)) 2 && decide (x.cyc < h.nsw.cyc) && !h.spanOver x h.nsw.cycT).foldr h.sendIns []

/-- A network-cycle boundary: segments whose span has ended leave it (R322), the lists restart (R314), the records for the
cyclic frame stand (R321). In SHADOW no MASTER record is asked for (R409). -/
def Hw.nswCycle (h : Hw) (cycT : Nat) : Hw :=
  let done := h.nsw.sends.filter fun x => h.spanOver x cycT
  let h := h.each (done.filter fun x => h.bit (ls (0x040 + 4 * x.mm)) 2 && h.mode != mSHADOW) fun h x =>
    let h := if x.copies < 2 then (h.bump (nw 0x0C8) 15 8).evt pNSW 9 else h
    if x.copies = 0 then (h.bump (nw 0x0C8) 7 0).evt pNSW 10 else h
  let ax := (List.range 96).filter fun j => h.bit (nw (0x0B0 + 4 * (j / 32))) (j % 32)
  { h with nsw := { h.nsw with sends := h.nsw.sends.filter (fun x => !h.spanOver x cycT), gcl := [], cyc := h.nsw.cyc + 1,
                               cycT, sent := false, txAx := ax.map fun j => (32 + j, (h.prof (32 + j)).rel) } }

/-- Bytes the network reads of application SRAM; past its end nothing is read, and the octets sent are zeros. -/
def Hw.netRead (h : Hw) (m : Mem) (addr n : Nat) : List Byte :=
  let l := min n (0x200000 - addr)
  h.rdN m addr l ++ List.replicate (n - l) 0

/-- CYCLIC_FRAME_SEND. -/
def Hw.cyclicSend (h : Hw) (m : Mem) : Hw :=
  if !(h.bit (nw 0x0A4) 31 && !h.nsw.sent && decide (h.f (nw 0x0A4) 22 0 ≤ h.cycPos)) then h
  else
    let shadow := h.mode == mSHADOW
    let h := h.sortikSend
    let axes := h.nsw.txAx.map fun x => recBytes 1 x.1 (axisRec h.nsw.cycT x.2)
    let sor := ((List.range 4).filter fun j => h.bit (sf (0x680 + 0x10 * j)) 31 && h.telAgree).map fun j =>
      recBytes 3 (h.f (sf (0x680 + 0x10 * j)) 7 0) (h.sortikTelegram j (h.f (sf (0x68C + 0x10 * j)) 15 0) h.nsw.cycT)
    let ulen := min 256 (h.f (nw 0x0BC) 29 21)
    let uofs := h.f (nw 0x0BC) 20 0
    let user := if ulen = 0 then [] else [recBytes 4 0 (h.netRead m uofs ulen)]
    let h := h.netErr uofs ulen
    let rest := axes ++ sor ++ user
    let room := (1480 - 16 - (rest.map List.length).foldl (· + ·) 0) / 36
    let due := if shadow then [] else h.sendsDue
    let now := due.take room
    let h := h.bumpN (nw 0x0C8) 31 16 (due.length - now.length)
    let sends := h.nsw.sends.map fun x => if now.contains x then { x with copies := x.copies + 1 } else x
    let recs := now.map (fun x => recBytes 2 x.mm x.data) ++ rest
    let flag := fun (b : Bool) n => if b then n else 0
    let flags := flag shadow 1 + flag (h.bit (nt rSTAT) 1) 2 + flag (h.bit (nt rSTAT) 2) 4 + flag h.clk.stepped 8
    let q := h.prpNext
    let h := q.1
    let data := leBytes 1 1 ++ leBytes 1 flags ++ leBytes 2 (h.f (nw 0x040) 15 0) ++ dwordBytes h.nsw.cycT ++
      leBytes 2 h.nsw.cycSeq ++ leBytes 1 recs.length ++ [0] ++ recs.flatten
    let h := { h with nsw := { h.nsw with sends, sent := true, cycSeq := (h.nsw.cycSeq + 1) % 65536 } }
    let dest := h.reg64 (nw 0x0A8)
    h.emit (List.range 4) 6 (max 64 (data.length + 24))
      { kind := .cyclic, nums := [dest.toNat % 2 ^ 48, h.f (nw 0x044) 15 0, q.2], data }

/-! ### Receive slots (R323 to R325) -/

/-- The records of a cyclic frame: type, index and payload of those that are good, and how many were skipped. -/
def cycRecords : Nat → List Byte → List (Nat × Nat × List Byte) × Nat
  | 0, _ => ([], 0)
  | n + 1, d =>
    let ty := (d.getD 0 0).toNat
    let len := leNat ((d.drop 2).take 2)
    if d.length < 4 ∨ d.length < 4 + len then ([], 1)
    else
      let r := cycRecords n (d.drop (4 + len))
      let ok := (ty == 1 && len == 36) || (ty == 2 && len == 32) || (ty == 3 && len == 20) ||
        (ty == 4 && decide (1 ≤ len) && decide (len ≤ 256))
      if ok then ((ty, (d.getD 1 0).toNat, (d.drop 4).take len) :: r.1, r.2) else (r.1, r.2 + 1)

def Hw.partner (h : Hw) (i : Nat) : NPartner := tabGet {} i h.nsw.partners
def Hw.setPartner (h : Hw) (i : Nat) (x : NPartner) : Hw :=
  { h with nsw := { h.nsw with partners := tabSet {} i x h.nsw.partners } }

/-- A partner entry announces the own node or that of another entry (R327). -/
def Hw.conflicts (h : Hw) (i : Nat) : Bool :=
  let x := h.partner i
  x.used && (x.node == h.f (nw 0x040) 15 0 || h.nsw.partners.any fun y => y.1 != i && y.2.used && y.2.node == x.node)

/-- A node that stands in conflict. -/
def Hw.nodeConflict (h : Hw) (node : Nat) : Bool :=
  h.nsw.partners.any fun y => y.2.used && y.2.node == node && h.conflicts y.1

/-- A MASTER record from the network (R325): a feed, mirrored where the module owns in a pair and ignored in SHADOW
(R410). -/
def Hw.netMaster (h : Hw) (m : Mem) (node mm : Nat) (d : List Byte) : Hw :=
  if 7 < mm ∨ h.f (nw (0x0E0 + 4 * mm)) 15 0 = 0xFFFF ∨ node ≠ h.f (nw (0x0E0 + 4 * mm)) 15 0 then h.bump (nw 0x388) 31 16
  else if h.nodeConflict node ∨ h.bit (ls (0x040 + 4 * mm)) 1 = false then h
  else if h.mirrorOn && h.mode == mSHADOW then h
  else
    let r := h.feed m mm (leNat ((d.drop 20).take 2)) (leNat (d.take 4)) true fun h i => h.wrN (slotAddr i) d
    if r.2 && h.mirrorOn && h.bit (pr rSTAT) 0 then
      h.mirrorPut (0x40000000 + ls 0x0E0) (BitVec.ofNat 32 mm :: (List.range 8).map fun i => bytesWord (d.drop (4 * i)))
    else r.1

/-- A frame written into the buffers of the slots that take its node (R324). -/
def Hw.slotTake (h : Hw) (node : Nat) (data : List Byte) : Hw :=
  h.each ((List.range 32).filter fun k => h.bit (nw (0x100 + 4 * k)) 31 && h.f (nw (0x100 + 4 * k)) 15 0 == node) fun h k =>
    let a := nw (0x180 + 4 * k)
    let buf := if h.bit a 30 then 0 else 1
    let h := h.netWrite (h.f (nw 0x0C0) 20 0 + 3072 * k + 1536 * buf) (data.take 1536)
    let h := h.setReg a (BitVec.ofNat 32 (buf * 2 ^ 30 + leNat ((data.drop 12).take 2)))
    { h with nsw := { h.nsw with rxCyc := tabSet 0 k h.nsw.cyc h.nsw.rxCyc } }

/-- CYCLIC_FRAME_RECEIVE: a second copy, which the discard table finds, delivers only its Sortik records (R311, R312). -/
def Hw.cyclicRx (h : Hw) (m : Mem) (lanB : Bool) (prp : Option (BitVec 48 × BitVec 16)) (data : List Byte) : Hw :=
  if data.getD 0 0 ≠ 1 ∨ data.length < 16 then h
  else
    let c := h.prpCopy prp
    let h := c.1
    let copies := c.2
    let node := leNat ((data.drop 2).take 2)
    let r := cycRecords (data.getD 14 0).toNat (data.drop 16)
    let h := if copies then h else
      let h := if h.nodeConflict node then h else h.slotTake node data
      let h := h.bumpN (nw 0x388) 15 0 r.2
      h.each (r.1.filter (·.1 == 2)) fun h x => h.netMaster m node x.2.1 x.2.2
    h.each (r.1.filter (·.1 == 3)) fun h x => h.sortikCopy lanB x.2.1 x.2.2

/-- RX_STALE (R324). -/
def Hw.rxStale (h : Hw) (k : Nat) : Hw :=
  let miss := max 1 (h.f (nw 0x0C4) 7 0)
  if h.bit (nw (0x100 + 4 * k)) 31 && !h.bit (nw (0x180 + 4 * k)) 31 && decide (tabGet 0 k h.nsw.rxCyc + miss < h.nsw.cyc) then
    (((h.setBit (nw (0x180 + 4 * k)) 31 true).evt pNSW 2).fltEvent pNSW 10 2 k h.grain).1
  else h

/-! ### Partners (R326, R327) -/

/-- A periodic send is due: its interval has passed since the last. -/
def Hw.sendDue (h : Hw) (last : Option Nat) (interval : Nat) : Bool :=
  match last with | some t => decide (t + interval ≤ h.grain) | none => true

/-- ANNOUNCEMENT_SEND: every ANN.INT milliseconds. -/
def Hw.annSend (h : Hw) : Hw :=
  if !h.bit (nw 0x048) 31 || !h.sendDue h.nsw.annAt (h.f (nw 0x048) 15 0 * 500000) then h
  else
    let h := { h with nsw := { h.nsw with annAt := some h.grain } }
    let flag := fun (b : Bool) n => if b then n else 0
    let flags := flag (h.mode == mSHADOW) 1 + flag h.paired 2 + flag h.clk.stepped 4
    let msend := (List.range 8).foldl (fun n mm => n + flag (h.bit (ls (0x040 + 4 * mm)) 2) (2 ^ mm)) 0
    let q := h.prpNext
    let h := q.1
    let data := leBytes 1 0x11 ++ leBytes 1 flags ++ leBytes 2 (h.f (nw 0x040) 15 0) ++ leBytes 1 h.pins.slotId.toNat ++
      leBytes 1 h.mode.toNat ++ leBytes 2 (h.f (nw 0x048) 15 0) ++ leBytes 4 (h.batch * h.ncyc) ++
      leBytes 4 (h.f (nw 0x0A4) 22 0) ++ wordBytes (h.reg (nw 0x04C)) ++ leBytes 4 msend ++
      wordBytes (h.reg (nw 0x0B0)) ++ wordBytes (h.reg (nw 0x0B4)) ++ wordBytes (h.reg (nw 0x0B8))
    h.emit (List.range 4) 5 64 { kind := .announcement, nums := [0x0BA1E5000001, h.f (nw 0x044) 15 0, q.2], data }

/-- PT_STAT.COUNT follows the table. -/
def Hw.ptCount (h : Hw) : Hw := h.setF (nw 0x210) 8 0 (h.nsw.partners.filter (·.2.used)).length

/-- The fields an announcement refreshes (R327). -/
def NPartner.refresh (x : NPartner) (a : Announcement) (lanB : Bool) : NPartner :=
  { x with used := true, mac := a.mac, flags := a.flags.toNat % 8, node := a.node.toNat, slot := a.slot.toNat,
           mode := a.mode.toNat, annInt := a.annInt, lanA := x.lanA || !lanB, lanB := x.lanB || lanB }

/-- ANNOUNCEMENT_RECEIVE: a second copy refreshes the bit of the LAN it came by (R311, R327). -/
def Hw.annRx (h : Hw) (lanB : Bool) (a : Announcement) : Hw :=
  let h := (h.prpCopy a.prp).1
  let known := (List.range 256).find? fun i => (h.partner i).used && (h.partner i).mac == a.mac
  let put := fun (h : Hw) (i : Nat) =>
    let h := { h with nsw := { h.nsw with heard := tabSet 0 (2 * i + dn lanB) h.grain h.nsw.heard } }.setPartner i
      ((h.partner i).refresh a lanB)
    let h := h.ptCount
    if h.conflicts i then h.evt pNSW 7 else h
  match known with
  | some i => put h i
  | none =>
    match (List.range 256).find? fun i => !(h.partner i).used with
    | some i => (put h i).evt pNSW 3
    | none => (h.bump (nw 0x210) 23 16).evt pNSW 6

/-- PARTNER_LAN_AGE: AGE_N of the partner's own intervals without an announcement on a LAN. -/
def Hw.lanAge (h : Hw) (i : Nat) (lanB : Bool) : Hw :=
  let x := h.partner i
  let heard := if lanB then x.lanB else x.lanA
  let due := tabGet 0 (2 * i + dn lanB) h.nsw.heard + max 1 (h.f (nw 0x048) 23 16) * x.annInt * 500000
  if x.used && heard && decide (due ≤ h.grain) then
    let x := if lanB then { x with lanB := false } else { x with lanA := false }
    let h := (h.setPartner i x).evt pNSW 5
    if x.lanA || x.lanB then h else ((h.setPartner i {}).ptCount).evt pNSW 4
  else h

/-- PT_SEL_WRITE: the entry is latched into the readout. -/
def Hw.ptSel (h : Hw) (i : Nat) : Hw :=
  let x := h.partner i
  let b := fun (c : Bool) n => if c then 2 ^ n else 0
  let info := b x.used 31 + b (h.conflicts i) 30 + b x.lanB 29 + b x.lanA 28 + x.mode * 2 ^ 24 + x.slot * 2 ^ 20 +
    x.flags * 2 ^ 16 + x.node
  ((h.setF (nw 0x200) 7 0 i).setReg64 (nw 0x204) (BitVec.ofNat 64 x.mac.toNat)).setReg (nw 0x20C) (BitVec.ofNat 32 info)

/-! ### Neighbours, supervision, links (R309, R311, R328) -/

/-- LLDP_SEND: port name and a TTL of 4 s, every second. -/
def Hw.lldpSend (h : Hw) : Hw :=
  if h.sendDue h.nsw.lldpAt 500000000 then
    { h with nsw := { h.nsw with lldpAt := some h.grain } }.each (List.range 4) fun h p =>
      h.emit [p] 4 64 { kind := .lldp, nums := [p, 4] }
  else h

/-- LLDP_RECEIVE: a TTL of 0 takes the neighbour away at once. -/
def Hw.lldpRx (h : Hw) (p : Nat) (mac ttl : Nat) : Hw :=
  let h := { h with nsw := { h.nsw with ttl := tabSet 0 p (if ttl = 0 then 0 else h.grain + ttl * 500000000) h.nsw.ttl } }
  h.setReg64 (nw (0x390 + 8 * p)) (if ttl = 0 then 0 else BitVec.ofNat 64 (2 ^ 63 + mac))

/-- LLDP_TTL_EXPIRY. -/
def Hw.lldpExpire (h : Hw) (p : Nat) : Hw :=
  let t := tabGet 0 p h.nsw.ttl
  if t ≠ 0 ∧ t ≤ h.grain then
    { h with nsw := { h.nsw with ttl := tabSet 0 p 0 h.nsw.ttl } }.setReg64 (nw (0x390 + 8 * p)) 0
  else h

/-- PRP_SUPERVISION_SEND: every 2 s. -/
def Hw.prpSupervise (h : Hw) : Hw :=
  if h.sendDue h.nsw.prpAt 1000000000 then
    let q := { h with nsw := { h.nsw with prpAt := some h.grain } }.prpNext
    q.1.emit (List.range 4) 4 64 { kind := .prpSupervision, nums := [q.2] }
  else h

/-- LINK_CHANGE: speed 0 none, 1 1000BASE-T, 2 2.5GBASE-T; a speed the port does not allow gives no link (R309). -/
def Hw.linkChange (h : Hw) (p speed : Nat) : Hw :=
  let cfg := nw (0x060 + 4 * p)
  let ok := h.bit cfg 0 && ((speed == 1 && h.bit cfg 2) || (speed == 2 && h.bit cfg 1))
  let v : Word := BitVec.ofNat 32 (if ok then 2 * speed + 1 else 0)
  if h.reg (nw (0x070 + 4 * p)) = v then h
  else
    let h := h.setReg (nw (0x070 + 4 * p)) v
    let up := fun q => h.bit (nw (0x070 + 4 * q)) 0
    ((h.setBit (nw rREADY) 2 (up 0 || up 1)).setBit (nw rREADY) 3 (up 2 || up 3)).evt pNSW 8

/-! ### Commit (R314, R318, R321) -/

/-- The check of an NSW GO. -/
def Hw.nswSetOk (h : Hw) : Bool :=
  let s := fun off hi lo => fld (h.shd (nw off)) hi lo
  let region := 8192 - 12 * s 0x084 8 0
  let len := h.batch * h.ncyc
  let n := fun p => s (0x400 + 0x80 * p) 4 0
  let dur := fun p i => s (0x404 + 0x80 * p + 4 * i) 22 0
  let sum := fun p k => (List.range k).foldl (fun t i => t + dur p i) 0
  let ofs := s 0x0A4 22 0
  let open6 := fun p => n p == 0 || (List.range (n p)).any fun i =>
    decide (sum p i ≤ ofs) && decide (ofs < sum p (i + 1)) && (s (0x404 + 0x80 * p + 4 * i) 31 24).testBit 6
  let axes := ((List.range 96).filter fun j => bitOf (h.shd (nw (0x0B0 + 4 * (j / 32)))) (j % 32)).length
  let tx := ((List.range 4).filter fun j => h.bit (sf (0x680 + 0x10 * j)) 31).length
  let ulen := h.f (nw 0x0BC) 29 21
  decide (s 0x084 8 0 ≤ 256) && decide (s 0x080 29 16 + s 0x080 13 0 ≤ region) &&
    ((List.range 4).all fun p => n p == 0 || (decide (n p ≤ 16) && sum p (n p) == len)) &&
    (!bitOf (h.shd (nw 0x0A4)) 31 || ((List.range 4).all open6 && decide (ofs < len))) &&
    decide (16 + 40 * axes + 24 * tx + (if ulen = 0 then 0 else ulen + 4) + 4 * 36 ≤ 1480)

/-- The commit point of NSW, a network-cycle boundary: a slot newly enabled waits from here. -/
def Hw.nswTake (h : Hw) : Hw :=
  if h.takes pNSW then
    let had := (List.range 32).filter fun k => h.bit (nw (0x100 + 4 * k)) 31
    let h := h.takePending pNSW
    h.each ((List.range 32).filter fun k => h.bit (nw (0x100 + 4 * k)) 31 && !had.contains k) fun h k =>
      { h with nsw := { h.nsw with rxCyc := tabSet 0 k h.nsw.cyc h.nsw.rxCyc } }
  else h

/-- FRAME_RECEIVE. -/
def actFrameReceive (g : Nat) (f : Frame) (s : State) := runLink g (fun _ h => h.frameRx f) s
/-- FRAME_EGRESS. -/
def actFrameEgress (g : Nat) (port : Fin 4) (s : State) := runLink g (fun _ h => h.frameEgress port) s
/-- GCL_ENTRY_START. -/
def execGclEntryStart (g : Nat) (port : Fin 4) (s : State) := runLink g (fun _ h => h.gclStart port) s
/-- SW_RX_POP. -/
def execSwRxPop (g : Nat) (s : State) := run g (fun _ h => h.swRxPop) s
/-- SW_RET. -/
def actSwRet (g : Nat) (cell : BitVec 13) (s : State) :=
  run g (fun _ h => h.swWrite pNSW 0x094 fun h => h.swRet cell.toNat) s
/-- SW_ALLOC. -/
def actSwAlloc (g : Nat) (s : State) := run g (fun _ h => h.swAlloc) s
/-- SW_POST. -/
def actSwPost (g : Nat) (v : Word) (s : State) := run g (fun m h => h.swWrite pNSW 0x09C fun h => h.swPost m v) s
/-- LEDGER_READ. -/
def actLedgerRead (g : Nat) (s : State) := run g (fun _ h => h.ledgerRead) s
/-- CYCLIC_FRAME_SEND. -/
def execCyclicFrameSend (g : Nat) (s : State) := runLink g (fun m h => h.cyclicSend m) s
/-- CYCLIC_FRAME_RECEIVE. -/
def actCyclicFrameReceive (g : Nat) (lanB : Bool) (prp : Option (BitVec 48 × BitVec 16)) (data : List (BitVec 8))
    (s : State) := runLink g (fun m h => h.cyclicRx m lanB prp data) s
/-- RX_STALE. -/
def execRxStale (g : Nat) (k : Fin 32) (s : State) := runLink g (fun _ h => h.rxStale k) s
/-- ANNOUNCEMENT_SEND. -/
def execAnnouncementSend (g : Nat) (s : State) := runLink g (fun _ h => h.annSend) s
/-- ANNOUNCEMENT_RECEIVE. -/
def actAnnouncementReceive (g : Nat) (lanB : Bool) (a : Announcement) (s : State) :=
  runLink g (fun _ h => h.annRx lanB a) s
/-- PARTNER_LAN_AGE. -/
def execPartnerLanAge (g : Nat) (entry : Nat) (lanB : Bool) (s : State) := runLink g (fun _ h => h.lanAge entry lanB) s
/-- LLDP_SEND. -/
def execLldpSend (g : Nat) (s : State) := runLink g (fun _ h => h.lldpSend) s
/-- LLDP_RECEIVE. -/
def execLldpReceive (g : Nat) (port : Fin 4) (mac : BitVec 48) (ttl : Nat) (s : State) :=
  runLink g (fun _ h => h.lldpRx port mac.toNat ttl) s
/-- LLDP_TTL_EXPIRY. -/
def execLldpTtlExpiry (g : Nat) (port : Fin 4) (s : State) := runLink g (fun _ h => h.lldpExpire port) s
/-- PRP_SUPERVISION_SEND. -/
def execPrpSupervisionSend (g : Nat) (s : State) := runLink g (fun _ h => h.prpSupervise) s
/-- PT_SEL_WRITE. -/
def execPtSelWrite (g : Nat) (e : BitVec 8) (s : State) :=
  run g (fun _ h => h.swWrite pNSW 0x200 fun h => h.ptSel e.toNat) s
/-- LINK_CHANGE. -/
def execLinkChange (g : Nat) (port : Fin 4) (speed : BitVec 2) (s : State) :=
  runLink g (fun _ h => h.linkChange port speed.toNat) s

end Sys2Proof.Machine
end

