-- ==== Sys2Proof/Machine/Can.lean ====
section
/-! DEFINITION. The CAN FD channels (R332 to R343): the receive ring and its shadow slot, the transmit slots, errors,
bus-off and integration. -/

namespace Sys2Proof.Machine

def cn (n off : Nat) : Nat := ra (pCAN n) off
/-- A register of transmit slot s. -/
def txr (n s off : Nat) : Nat := cn n (0x200 + 0x60 * s + off)
def Hw.canS (h : Hw) (n : Nat) : CanS := tabGet {} n h.can
def Hw.setCan (h : Hw) (n : Nat) (x : CanS) : Hw := { h with can := tabSet {} n x h.can }

def Hw.canShdFull (h : Hw) (n : Nat) : Bool := h.bit (cn n rSTAT) 0
def Hw.canBusOff (h : Hw) (n : Nat) : Bool := h.bit (cn n rSTAT) 1
/-- The channel is enabled, integrated and not bus-off. -/
def Hw.canLive (h : Hw) (n : Nat) : Bool := h.bit (cn n rCTRL) 0 && h.bit (cn n rREADY) 2 && !h.canBusOff n
/-- Listen-only, by configuration or because the module does not own the backplane (R334). -/
def Hw.canListen (h : Hw) (n : Nat) : Bool := h.bit (cn n 0x040) 4 || !h.bit (pr rSTAT) 0
/-- STAT with LISTEN_FORCED (R334, R342). -/
def Hw.canStat (h : Hw) (n : Nat) : Word := putFld (h.reg (cn n rSTAT)) 3 3 (if h.bit (pr rSTAT) 0 then 0 else 1)

/-! ### Error counters (R332) -/

/-- The error state the counters give: passive above 127. -/
def Hw.canCount (h : Hw) (n tec rec : Nat) : Hw :=
  let h := (h.setF (cn n 0x064) 15 8 rec).setF (cn n 0x064) 7 0 tec
  if h.canBusOff n then h
  else
    let p := decide (127 < tec) || decide (127 < rec)
    let was := h.bit (cn n rSTAT) 2
    let h := (h.setF (cn n 0x064) 17 16 (if p then 1 else 0)).setBit (cn n rSTAT) 2 p
    h.when (p && !was) fun h => h.evt (pCAN n) 6

/-- REC after a frame received without error; from above 127 the standard names a range. -/
def Hw.canRecDown (h : Hw) (n : Nat) : Hw :=
  let rx := h.f (cn n 0x064) 15 8
  let tec := h.f (cn n 0x064) 7 0
  if 127 < rx then h.drew.canCount n tec (119 + h.freeWord.toNat % 9) else h.canCount n tec (rx - 1)

/-! ### The receive ring (R335 to R337) -/

/-- The ring has an entry to write. -/
def Hw.canSpace (h : Hw) (n : Nat) : Bool := decide ((h.reg (cn n 0x054) - h.reg (cn n 0x058)).toNat < 1024)

/-- An entry enters the ring at RX_WR. -/
def Hw.canEntry (h : Hw) (n : Nat) (ws : List Word) : Hw :=
  let i := h.reg (cn n 0x054)
  let a := h.f (cn n 0x050) 20 0 + 80 * (i.toNat % 1024)
  let h := h.wrN (a + 4) ((ws.drop 1).flatMap wordBytes)
  ((h.wr32 a i).setReg (cn n 0x054) (i + 1)).evt (pCAN n) 1

/-- CAN_SHADOW_DRAIN: the shadow frame enters the ring where space is released. -/
def Hw.canDrain (h : Hw) (n : Nat) : Hw :=
  if h.canShdFull n && h.canSpace n then
    (h.canEntry n ((List.range 20).map fun w => h.reg (cn n (0x100 + 4 * w)))).setBit (cn n rSTAT) 0 false
  else h

/-- The octets a DLC gives. -/
def dlcOctets (fdf : Bool) (dlc : Nat) : Nat :=
  if dlc ≤ 8 then dlc else if fdf then [12, 16, 20, 24, 32, 48, 64].getD (dlc - 9) 64 else 8

/-- The data words of n octets; octets beyond them are zero. -/
def canData (n : Nat) (ws : List Word) : List Word :=
  (List.range 16).map fun w => ws.getD w 0 &&& BitVec.ofNat 32 (2 ^ (8 * (n - 4 * w)) - 1)

/-- Word 1 of an entry: a standard identifier has 11 bits. -/
def canId (v : Word) : Word := if bitOf v 29 then v &&& 0x7FFFFFFF else v &&& 0x600007FF

/-- Word 2 of an entry but for OWN and GAP: LEN is what DLC and FDF give. -/
def canFlags (v : Word) : Word := putFld (v &&& 0x7F00) 6 0 (dlcOctets (bitOf v 12) (fld v 11 8))

/-- The time-stamp of a start-of-frame edge first sampled in a grain (R26, R335). -/
def sofStamp (g : Nat) : Word := BitVec.ofNat 32 (g + 2 ^ 32 - 3)

/-- The twenty words of an entry (R335). A remote frame carries no data. -/
def canWords (i : Word) (gap : Nat) (f : CanFrame) : List Word :=
  let fl := canFlags f.flags
  let flags := putFld (putFld fl 15 15 (if f.own then 1 else 0)) 31 24 (min gap 255)
  [i, canId f.word1, flags, sofStamp f.sof] ++ canData (if bitOf f.word1 30 then 0 else fld fl 6 0) f.data

/-- CAN_FRAME_RECEIVE. -/
def Hw.canRx (h : Hw) (n : Nat) (f : CanFrame) : Hw :=
  if !h.canLive n || (bitOf f.flags 12 && !h.bit (cn n 0x040) 0) then h
  else
    let h := if f.own then h else h.canRecDown n
    if f.own && !h.bit (cn n 0x040) 3 then h
    else
      let h := h.canDrain n
      let x := h.canS n
      let ws := canWords (h.reg (cn n 0x054)) x.gap f
      if h.canShdFull n then
        let h := (h.setReg (cn n 0x060) (h.reg (cn n 0x060) + 1)).setCan n { x with gap := x.gap + 1 }
        ((h.evt (pCAN n) 3).fltEvent (pCAN n) 10 3 n h.grain).1
      else if h.canSpace n then (h.canEntry n ws).setCan n { x with gap := 0 }
      else
        let h := h.each ws.zipIdx fun h w => h.setReg (cn n (0x100 + 4 * w.2)) w.1
        ((h.setCan n { x with gap := 0 }).setBit (cn n rSTAT) 0 true).evt (pCAN n) 2

/-- CAN_RX_RD_WRITE. -/
def Hw.canRd (h : Hw) (n : Nat) (v : Word) : Hw :=
  let rd := h.reg (cn n 0x058)
  if v - rd ≤ h.reg (cn n 0x054) - rd then h.setReg (cn n 0x058) v else h.evt (pCAN n) 8

/-- RX_FRAMES (R337). -/
def Hw.canFrames (h : Hw) (n : Nat) : Word :=
  h.reg (cn n 0x054) + (if h.canShdFull n then 1 else 0) + h.reg (cn n 0x060)

/-- CAN_RX_FRAMES_READ latches RX_WR, DROPS and STAT. -/
def Hw.canFramesRead (h : Hw) (n : Nat) : Hw :=
  let h := h.setReg (cn n 0x05C) (h.canFrames n)
  let put := fun a (v : Word) t => tabIns a v t
  { h with latch := put (cn n 0x054) (h.reg (cn n 0x054)) (put (cn n 0x060) (h.reg (cn n 0x060))
                      (put (cn n rSTAT) (h.canStat n) h.latch)) }

/-! ### Transmit slots (R338 to R340) -/

def Hw.txState (h : Hw) (n s : Nat) : Nat := h.f (txr n s 0x14) 10 8
def Hw.setTxState (h : Hw) (n s st : Nat) : Hw := h.setF (txr n s 0x14) 10 8 st
/-- A slot is WAIT, READY or ACTIVE. -/
def Hw.txBusy (h : Hw) (n s : Nat) : Bool := let st := h.txState n s; decide (1 ≤ st) && decide (st ≤ 3)
/-- A set of slots with slot s put in or taken out. -/
def slotSet (m : BitVec 16) (s : Nat) (on : Bool) : BitVec 16 :=
  if on then m ||| BitVec.ofNat 16 (2 ^ s) else m &&& ~~~(BitVec.ofNat 16 (2 ^ s))

/-- A length some DLC gives. -/
def dlcLen (len : Nat) : Bool := decide (len ≤ 8) || [12, 16, 20, 24, 32, 48, 64].contains len

/-- Why a request is refused (R338). -/
def Hw.txBad (h : Hw) (n s : Nat) : Bool :=
  let fl := h.reg (txr n s 4)
  let len := fld fl 6 0
  let fdf := bitOf fl 12
  h.txBusy n s || !dlcLen len || (decide (8 < len) && !fdf) || (bitOf fl 13 && !fdf) ||
    (h.bit (txr n s 0) 30 && fdf) || (fdf && !h.bit (cn n 0x040) 0)

/-- CAN_TX_REQUEST and CAN_TX_TIMED. -/
def Hw.txRequest (h : Hw) (n s : Nat) (timed : Bool) : Hw :=
  if h.txBad n s then h.evt (pCAN n) 9
  else
    let x := h.canS n
    let h := h.setCan n { x with timed := slotSet x.timed s timed, late := slotSet x.late s false,
                                 abort := slotSet x.abort s false }
    (h.setTxState n s (if timed then 1 else 2)).setBit (txr n s 0x14) 11 false

/-- CAN_TX_ABORT. -/
def Hw.txAbort (h : Hw) (n s : Nat) : Hw :=
  let st := h.txState n s
  if st = 1 ∨ st = 2 then h.setTxState n s 6
  else if st = 3 then h.setCan n { h.canS n with abort := slotSet (h.canS n).abort s true }
  else h

/-- TX_T of a slot, in CT grains. -/
def Hw.txT (h : Hw) (n s : Nat) : Nat := (h.reg64 (txr n s 8)).toNat
/-- CT has reached the end of a timed slot's window (R339). -/
def Hw.txWindowOver (h : Hw) (n s : Nat) : Bool :=
  (h.canS n).timed.getLsbD s && decide (h.txT n s + max 1 (h.f (cn n 0x068) 15 0) * 500 ≤ h.ctGrains h.grain)

/-- CAN_TX_TIME_REACHED. -/
def Hw.txReached (h : Hw) (n s : Nat) : Hw :=
  if h.txState n s = 1 ∧ h.txT n s ≤ h.ctGrains h.grain then h.setTxState n s 2 else h

/-- CAN_TX_LATE: with SEND the slot keeps trying; an attempt in progress finishes. -/
def Hw.txLate (h : Hw) (n s : Nat) : Hw :=
  let st := h.txState n s
  if h.txWindowOver n s && (st == 1 || st == 2) then
    if h.bit (cn n 0x068) 31 then h.setTxState n s 2 else (h.setTxState n s 5).evt (pCAN n) 5
  else h

/-- An identifier as it arbitrates: base, then standard before extended, then the extension, then the slot. -/
def Hw.txKey (h : Hw) (n s : Nat) : List Nat :=
  let id := h.reg (txr n s 0)
  if bitOf id 29 then [fld id 28 18, 1, fld id 17 0, s] else [fld id 10 0, 0, 0, s]

/-- The READY slot that goes first (R37). -/
def Hw.txPick (h : Hw) (n : Nat) : Option Nat :=
  ((List.range 16).filter fun s => h.txState n s == 2).foldl (fun b s =>
    match b with | some t => if h.txKey n s < h.txKey n t then some s else some t | none => some s) none

/-- CAN_TX_START. -/
def Hw.txStart (h : Hw) (n : Nat) : Hw :=
  if !h.canLive n || h.canListen n || (List.range 16).any (fun s => h.txState n s == 3) then h
  else
    match h.txPick n with
    | none => h
    | some s =>
      let x := h.canS n
      let past := h.txWindowOver n s &&
        decide (h.txT n s + max 1 (h.f (cn n 0x068) 15 0) * 500 < h.ctGrains h.grain)
      let h := (h.setCan n { x with late := slotSet x.late s past }).setTxState n s 3
      let data := (List.range 16).flatMap fun w => wordBytes (h.reg (txr n s (0x20 + 4 * w)))
      h.send { kind := .can, port := n, nums := [(h.reg (txr n s 0)).toNat, (h.reg (txr n s 4)).toNat % 0x8000],
               data := if h.bit (txr n s 0) 30 then [] else data.take (h.f (txr n s 4) 6 0) }

/-- The slot on the bus. -/
def Hw.txActive (h : Hw) (n : Nat) : Option Nat := (List.range 16).find? fun s => h.txState n s == 3

/-- The delay measured while a bit-rate-switched frame was sent with compensation on: the spec gives no value (R343). -/
def Hw.tdcMeasure (h : Hw) (n s : Nat) : Hw :=
  if h.bit (cn n 0x04C) 15 && h.bit (txr n s 4) 13 then h.drew.setF (cn n 0x04C) 23 16 h.freeWord.toNat else h

/-- CAN_TX_DONE. -/
def Hw.txDone (h : Hw) (n sof : Nat) : Hw :=
  match h.txActive n with
  | none => h
  | some s =>
    let h := ((h.setTxState n s 4).setReg (txr n s 0x18) (sofStamp sof)).evt (pCAN n) 4
    let h := h.tdcMeasure n s
    let h := h.canCount n (h.f (cn n 0x064) 7 0 - 1) (h.f (cn n 0x064) 15 8)
    if (h.canS n).late.getLsbD s then (h.setBit (txr n s 0x14) 11 true).evt (pCAN n) 5 else h

/-- An attempt that failed (R338 to R340). -/
def Hw.txFail (h : Hw) (n : Nat) : Hw :=
  match h.txActive n with
  | none => h
  | some s =>
    if (h.canS n).abort.getLsbD s then h.setTxState n s 6
    else if h.txWindowOver n s && !h.bit (cn n 0x068) 31 then (h.setTxState n s 5).evt (pCAN n) 5
    else h.setTxState n s (if h.bit (cn n 0x040) 2 then 7 else 2)

/-! ### Bus state (R338, R342) -/

/-- CAN_BUS_OFF. -/
def Hw.canOff (h : Hw) (n : Nat) : Hw :=
  if !h.bit (cn n rCTRL) 0 || h.canBusOff n then h
  else
    let h := (h.txFail n).setCan n { (h.txFail n).canS n with recover := false }
    let h := ((h.setBit (cn n rSTAT) 1 true).setBit (cn n rSTAT) 2 false).setF (cn n 0x064) 17 16 2
    (h.setBit (cn n rREADY) 2 false).evt (pCAN n) 7

/-- CAN_RECOVER: a write of 1 to CMD.RECOVER. -/
def Hw.canRecover (h : Hw) (n : Nat) : Hw := if h.canBusOff n then h.setCan n { h.canS n with recover := true } else h

/-- CAN_BUS_RECOVERED: the channel has rejoined the bus, with the error counters 0 as the standard gives. -/
def Hw.canRecovered (h : Hw) (n : Nat) : Hw :=
  if h.canBusOff n && (h.bit (cn n 0x040) 1 || (h.canS n).recover) then
    (((h.setCan n { h.canS n with recover := false }).setBit (cn n rSTAT) 1 false).setBit (cn n rREADY) 2 true).canCount n 0 0
  else h

/-- BUS_INTEGRATION. -/
def Hw.canIntegrate (h : Hw) (n : Nat) : Hw :=
  if h.bit (cn n rCTRL) 0 && !h.canBusOff n then h.setBit (cn n rREADY) 2 true else h

/-- CAN_PROTOCOL_ERROR. -/
def Hw.canError (h : Hw) (n lec tec rec : Nat) : Hw :=
  if !h.bit (cn n rCTRL) 0 then h
  else
    let h := ((h.setF (cn n 0x064) 31 24 lec).canCount n tec rec).evt (pCAN n) 10
    (h.fltEvent (pCAN n) 10 10 n h.grain).1

/-- The enable of a channel: word 0 of every entry is set to all ones (R335); a disable leaves the bus, and an
attempt it cuts short ends as after an error. -/
def Hw.canEnable (h : Hw) (n : Nat) (on : Bool) : Hw :=
  if on then
    h.each (List.range 1024) fun h i => h.wr32 (h.f (cn n 0x050) 20 0 + 80 * i) 0xFFFFFFFF
  else (h.txFail n).setBit (cn n rREADY) 2 false

/-- The check of a CAN GO (R333, R343). -/
def Hw.canSetOk (h : Hw) (n : Nat) : Bool :=
  let nb := h.shd (cn n 0x044)
  let db := h.shd (cn n 0x048)
  let nd := (fld nb 4 0 + 1) * (3 + fld nb 15 8 + fld nb 22 16)
  let dd := (fld db 4 0 + 1) * (3 + fld db 12 8 + fld db 19 16)
  let base := fld (h.shd (cn n 0x050)) 20 0
  let ring := fun (b : Nat) => decide (base + 81920 ≤ b) || decide (b + 81920 ≤ base)
  !h.bit (cn n rCTRL) 0 && decide (80 ≤ nd) && decide (10 ≤ dd) && decide (dd ≤ nd) &&
    decide (fld nb 30 24 ≤ fld nb 22 16) && decide (fld db 27 24 ≤ fld db 19 16) &&
    base % 16 == 0 && decide (base + 81920 ≤ 0x200000) && ring (h.f (cn (1 - n) 0x050) 20 0) &&
    (!h.pending (pCAN (1 - n)) || ring (fld (h.pnd (cn (1 - n) 0x050)) 20 0))

/-- CAN_FRAME_RECEIVE. -/
def actCanFrameReceive (g : Nat) (n : Fin 2) (f : CanFrame) (s : State) := runLink g (fun _ h => h.canRx n f) s
/-- CAN_SHADOW_DRAIN. -/
def execCanShadowDrain (g : Nat) (n : Fin 2) (s : State) := runLink g (fun _ h => h.canDrain n) s
/-- CAN_RX_RD_WRITE. -/
def actCanRxRdWrite (g : Nat) (n : Fin 2) (v : Word) (s : State) :=
  run g (fun _ h => h.swWrite (pCAN n) 0x058 fun h => h.canRd n v) s
/-- CAN_RX_FRAMES_READ. -/
def execCanRxFramesRead (g : Nat) (n : Fin 2) (s : State) := run g (fun _ h => h.canFramesRead n) s
/-- CAN_TX_REQUEST. -/
def execCanTxRequest (g : Nat) (n : Fin 2) (k : Fin 16) (s : State) :=
  run g (fun _ h => h.swWrite (pCAN n) (0x210 + 0x60 * k) fun h => h.txRequest n k false) s
/-- CAN_TX_TIMED. -/
def execCanTxTimed (g : Nat) (n : Fin 2) (k : Fin 16) (s : State) :=
  run g (fun _ h => h.swWrite (pCAN n) (0x210 + 0x60 * k) fun h => h.txRequest n k true) s
/-- CAN_TX_ABORT. -/
def actCanTxAbort (g : Nat) (n : Fin 2) (k : Fin 16) (s : State) :=
  run g (fun _ h => h.swWrite (pCAN n) (0x210 + 0x60 * k) fun h => h.txAbort n k) s
/-- CAN_TX_TIME_REACHED. -/
def execCanTxTimeReached (g : Nat) (n : Fin 2) (k : Fin 16) (s : State) := runLink g (fun _ h => h.txReached n k) s
/-- CAN_TX_LATE. -/
def actCanTxLate (g : Nat) (n : Fin 2) (k : Fin 16) (s : State) := runLink g (fun _ h => h.txLate n k) s
/-- CAN_TX_START. -/
def actCanTxStart (g : Nat) (n : Fin 2) (s : State) := runLink g (fun _ h => h.txStart n) s
/-- CAN_TX_DONE. -/
def actCanTxDone (g : Nat) (n : Fin 2) (sof : Nat) (s : State) := runLink g (fun _ h => h.txDone n sof) s
/-- CAN_TX_ERROR: a lost arbitration or an error end an attempt alike. -/
def execCanTxError (g : Nat) (n : Fin 2) (_arbitration : Bool) (s : State) := runLink g (fun _ h => h.txFail n) s
/-- CAN_BUS_OFF. -/
def execCanBusOff (g : Nat) (n : Fin 2) (s : State) := runLink g (fun _ h => h.canOff n) s
/-- CAN_RECOVER. -/
def execCanRecover (g : Nat) (n : Fin 2) (s : State) :=
  run g (fun _ h => h.swWrite (pCAN n) 0x06C fun h => h.canRecover n) s
/-- CAN_BUS_RECOVERED. -/
def execCanBusRecovered (g : Nat) (n : Fin 2) (s : State) := runLink g (fun _ h => h.canRecovered n) s
/-- CAN_PROTOCOL_ERROR. -/
def execCanProtocolError (g : Nat) (n : Fin 2) (lec : BitVec 8) (tec rec : BitVec 8) (s : State) :=
  runLink g (fun _ h => h.canError n lec.toNat tec.toNat rec.toNat) s
/-- BUS_INTEGRATION. -/
def execBusIntegration (g : Nat) (n : Fin 2) (s : State) := runLink g (fun _ h => h.canIntegrate n) s

end Sys2Proof.Machine
end

