-- ==== Sys2Proof/Machine/Cfg.lean ====
section
/-! DEFINITION. PAIR.CFG_HASH (R414): a CRC-32C over the committed RWS registers of nine kinds of page, and the maps and
program memory of the engines that synchronisation names. It is worked out for the last accepted commit, before
anything it covers changes without a commit and before anything reads it. -/

namespace Sys2Proof.Machine

/-- The RWS registers of a page, ascending; the windows of the profiles after PRF's own. -/
def rwsRegs (p : Nat) : List Nat :=
  let own := ((List.range 1024).map fun i => ra p (4 * i)).filter isRws
  if p = pPRF then
    (own.filter fun a => !(decide (ra p 0x080 ≤ a) && decide (a < ra p 0x100))) ++
      (List.range 136).flatMap fun q => [0x080, 0x084, 0x088, 0x08C].map (prfWin q)
  else own

/-- The pages of R414, in its order. -/
def cfgPages : List Nat :=
  [pCLK] ++ (List.range 32).map pCAR ++ (List.range 96).map pLEG ++ (List.range 112).map pSDM ++
    (List.range 32).map pFB ++ [pPRF, pLSH, pSTP] ++ (List.range 32).map pAX

/-- The engines named in SYNC_ENG, ascending. -/
def Hw.syncEngines (h : Hw) : List Nat := (List.range 16).filter fun e => h.bit (ra pPAIR 0x048) e

/-- CFG_HASH of the values as they stand. -/
def Hw.cfgHash (h : Hw) (m : Mem) : Word :=
  let c := crcRun (~~~0) (octets ((cfgPages.flatMap rwsRegs).map h.reg))
  let maps := h.syncEngines.flatMap fun e =>
    ([0x04C] ++ (List.range 32).map (fun i => 0x080 + 4 * i) ++ (List.range 15).map fun j => 0x100 + 4 * j).map fun o => h.reg (hy e o)
  let c := crcRun c (octets maps)
  ~~~(h.syncEngines.foldl (fun c e => crcRun c (h.rdN m (0x10000000 + 0x20000 * e) 65536)) c)

/-- CFG_HASH brought up to the last accepted commit. -/
def Hw.cfgSettle (h : Hw) (m : Mem) : Hw :=
  if h.pair.cfgStale then
    { h with pair := { h.pair with cfgStale := false } }.setReg (ra pPAIR 0x064) (h.cfgHash m)
  else h

end Sys2Proof.Machine
end

