-- ==== Sys2Proof/Machine/Flags.lean ====
section
/-! DEFINITION. The flags of a Hytar engine (R151, R154, R176): the flag sets of the instruction tables, the conditions
of branches, calls and PSET, and the rounding and saturation that set them (R153, R154). -/

namespace Sys2Proof.Machine

/-- Flag places in SR (R151). -/
def fN : Nat := 0
def fZ : Nat := 1
def fV : Nat := 2
def fE : Nat := 3
def fC : Nat := 4
def fSAT : Nat := 8
def fLV : Nat := 9

/-- A flag set to a value. -/
def putFlag (sr : Word) (i : Nat) (b : Bool) : Word := putFld sr i i (if b then 1 else 0)

/-- N and Z from a result (set Q). -/
def flagsQ (sr : Word) (r : BitVec 56) : Word := putFlag (putFlag sr fN r.msb) fZ (r == 0)

/-- E: bits 55:47 are not all equal (R154). -/
def outsideQ47 (r : BitVec 56) : Bool := r.extractLsb' 47 9 != 0 && r.extractLsb' 47 9 != 0x1FF

/-- N, Z and E from a result. -/
def flagsQE (sr : Word) (r : BitVec 56) : Word := putFlag (flagsQ sr r) fE (outsideQ47 r)

/-- Set F: N, Z, E from the result, V on saturation and cleared otherwise, LV set with V. -/
def flagsF (sr : Word) (r : BitVec 56) (sat : Bool) : Word :=
  let sr := putFlag (flagsQE sr r) fV sat
  if sat then putFlag sr fLV true else sr

/-- Set L: N, Z, E from the result, C as given. -/
def flagsL (sr : Word) (r : BitVec 56) (c : Bool) : Word := putFlag (flagsQE sr r) fC c

/-- Set S: SAT is set when a stored value saturated. -/
def flagsS (sr : Word) (sat : Bool) : Word := if sat then putFlag sr fSAT true else sr

/-- The conditions of R176. -/
def hcond (sr : Word) (c : Nat) : Bool :=
  let n := bitOf sr fN
  let z := bitOf sr fZ
  match c with
  | 0 => true
  | 1 => z
  | 2 => !z
  | 3 => n
  | 4 => !n
  | 5 => !n && !z
  | 6 => n || z
  | 7 => bitOf sr fV
  | 8 => !bitOf sr fV
  | 9 => bitOf sr fE
  | 10 => !bitOf sr fE
  | 11 => bitOf sr fC
  | 12 => !bitOf sr fC
  | 13 => bitOf sr fSAT
  | 14 => bitOf sr fLV
  | _ => false

/-- A quotient q with r discarded, of which `half` is one half, rounded by ECR.RND (R153, R185). -/
def roundBy (rnd : Nat) (q : Int) (r half : Nat) : Int :=
  match rnd with
  | 0 => if half < r ∨ (r = half ∧ q % 2 = 1) then q + 1 else q
  | 1 => if half ≤ r then q + 1 else q
  | _ => q

/-- An accumulator as a data value, and whether it saturated (R153). -/
def roundAcc (rnd : Nat) (v : BitVec 56) : BitVec 24 × Bool :=
  let q := roundBy rnd (v.toInt / 2 ^ 24) (v.toNat % 2 ^ 24) (2 ^ 23)
  if 0x7FFFFF < q then (0x7FFFFF, true)
  else if q < -0x800000 then (0x800000, true)
  else (BitVec.ofInt 24 q, false)

/-- A fractional result in the 56-bit range, and whether it saturated (R154). -/
def satAcc (v : Int) : BitVec 56 × Bool :=
  if 2 ^ 55 ≤ v then (0x7FFFFFFFFFFFFF, true)
  else if v < -(2 : Int) ^ 55 then (0x80000000000000, true)
  else (BitVec.ofInt 56 v, false)

/-- The exponent of an accumulator (R184). -/
def expRun : Nat → BitVec 56 → Nat
  | 0, _ => 0
  | n + 1, v => if v.getLsbD n == v.msb then expRun n v + 1 else 0

def accExp (v : BitVec 56) : Int := (expRun 55 v : Int) - 8

end Sys2Proof.Machine
end

