-- ==== Sys2Proof/Machine/Operands.lean ====
section
/-! DEFINITION. The registers and operand forms of a Hytar engine: the register file and its rotating window (R149,
R150), predicates (R160, R161, R174), control registers (R151), the operands of MOV and their conversions (R181), and
the addresses and updates of data accesses (R158, R175). -/

namespace Sys2Proof.Machine

/-! ### Registers (R149) -/
def HytS.dr (x : HytS) (n : Nat) : BitVec 24 := tabGet 0 n x.d
def HytS.setD (x : HytS) (n : Nat) (v : BitVec 24) : HytS := { x with d := tabSet 0 n v x.d }
def HytS.ac (x : HytS) (n : Nat) : BitVec 56 := tabGet 0 n x.acc
def HytS.setAc (x : HytS) (n : Nat) (v : BitVec 56) : HytS := { x with acc := tabSet 0 n v x.acc }
def HytS.ixr (x : HytS) (k : Nat) : Nat := (tabGet (0 : BitVec 16) k x.ix).toNat
def HytS.anchor (x : HytS) (k : Nat) : Nat := (tabGet (0 : BitVec 16) k x.ak).toNat
def HytS.mdr (x : HytS) (k : Nat) : BitVec 16 := tabGet 0 k x.md
def HytS.lnr (x : HytS) (k : Nat) : Nat := (tabGet (0 : BitVec 16) k x.ln).toNat

/-- An update of IXk by an access: the anchor stays (R158). -/
def HytS.stepIx (x : HytS) (k a : Nat) : HytS := { x with ix := tabSet 0 k (BitVec.ofNat 16 (a % 16384)) x.ix }

/-- An explicit write of IXk sets its anchor; bits 15:14 read 0 (R149, R158). -/
def HytS.setIx (x : HytS) (k : Nat) (v : BitVec 16) : HytS :=
  let a := BitVec.ofNat 16 (v.toNat % 16384)
  { x with ix := tabSet 0 k a x.ix, ak := tabSet 0 k a x.ak }

/-- Address register r of formats AI, LR and MR: IX0 to IX7, MD0 to MD7, LN0 to LN7 (R173). -/
def HytS.areg (x : HytS) (r : Nat) : BitVec 16 :=
  if r < 8 then tabGet 0 r x.ix else if r < 16 then tabGet 0 (r - 8) x.md else tabGet 0 (r - 16) x.ln

def HytS.setAreg (x : HytS) (r : Nat) (v : BitVec 16) : HytS :=
  if r < 8 then x.setIx r v
  else if r < 16 then { x with md := tabSet 0 (r - 8) v x.md }
  else { x with ln := tabSet 0 (r - 16) v x.ln }

/-- A data value placed in an accumulator (R152). -/
def placed (v : BitVec 24) : BitVec 56 := (v.signExtend 32) ++ (0 : BitVec 24)

/-- ECR.RND. -/
def HytS.rnd (x : HytS) : Nat := fld x.ecr 1 0

/-- The size W of the rotating window (R150, R151). -/
def HytS.window (x : HytS) : Nat := let r := fld x.ecr 7 4; if r = 0 then 16 else r + 1

/-- A rotation of the window (R150). -/
def HytS.rotate (x : HytS) : HytS :=
  let w := x.window
  (List.range w).foldl (fun y i => y.setD (16 + (i + 1) % w) (x.dr (16 + i))) x

/-! ### Loops and predicates (R160, R174) -/

/-- The innermost modulo loop. -/
def HytS.modLoop (x : HytS) : Option HLoop := x.loops.find? (·.modulo)

/-- PASS (R151). -/
def HytS.pass (x : HytS) : Nat := match x.modLoop with | some l => l.pass | none => 0

/-- Stage predicate PSk. -/
def HytS.stage (x : HytS) (k : Nat) : Bool :=
  match x.modLoop with
  | some l => decide (k < l.sc) && decide (k ≤ l.pass) && decide (l.pass - k < l.n)
  | none => x.ps.getLsbD k

/-- Whether P names a predicate (R174). -/
def predLegal (p : Nat) : Bool := decide (p ≤ 4) || decide (16 ≤ p)

/-- The predicate P. -/
def HytS.pred (x : HytS) (p : Nat) : Bool :=
  if p = 0 then true else if p ≤ 4 then x.pg.getLsbD (p - 1) else x.stage (p - 16)

/-! ### Control registers (R151) -/

/-- TMR: counting down one per HCLK cycle, two in a grain. -/
def HytS.tmrNow (x : HytS) (g : Nat) : Nat := x.tmr - 2 * (g - x.tmrAt)

/-- PSV. -/
def HytS.psv (x : HytS) : Word :=
  BitVec.ofNat 32 ((List.range 16).foldl (fun a k => a + if x.stage k then 2 ^ k else 0) (x.pg.toNat * 65536))

/-- A control register as read. -/
def HytS.creg (x : HytS) (e g n : Nat) : Word :=
  match n with
  | 0 => x.sr
  | 1 => x.ecr
  | 2 => BitVec.ofNat 32 (x.pass % 65536)
  | 3 => x.psv
  | 4 => BitVec.ofNat 32 (match x.loops with | l :: _ => l.left - 1 | [] => 0)
  | 5 => BitVec.ofNat 32 x.loops.length
  | 6 => x.epend.extractLsb' 0 32
  | 7 => x.epend.extractLsb' 32 32
  | 8 => x.emask.extractLsb' 0 32
  | 9 => x.emask.extractLsb' 32 32
  | 10 => BitVec.ofNat 32 (x.tmrNow g)
  | 11 => BitVec.ofNat 32 (2 * (g - x.startAt))
  | 12 => BitVec.ofNat 32 g
  | _ => BitVec.ofNat 32 e

/-- EPEND with the bits of a mask cleared in grain g: a bit that was set in that grain stays (R151). -/
def HytS.epClear (x : HytS) (g : Nat) (m : BitVec 64) : HytS :=
  let fresh := (List.range 64).foldl (fun w b => if tabGet 0 b x.epAt = g + 1 then w ||| BitVec.ofNat 64 (2 ^ b) else w) 0
  { x with epend := x.epend &&& (~~~m ||| fresh) }

/-- A move into a control register: read-only ones ignore it, EPEND clears what is written as 1 (R151, R181). -/
def HytS.setCreg (x : HytS) (g n : Nat) (v : Word) : HytS :=
  match n with
  | 0 => { x with sr := v &&& 0x31F }
  | 1 => { x with ecr := (v &&& 0xF0) ||| (if fld v 1 0 = 3 then 0 else v &&& 3) }
  | 3 => { x with ps := if x.modLoop.isSome then x.ps else v.extractLsb' 0 16, pg := v.extractLsb' 16 4 }
  | 6 => x.epClear g (v.setWidth 64)
  | 7 => x.epClear g (v ++ (0 : Word))
  | 8 => { x with emask := x.emask.extractLsb' 32 32 ++ v }
  | 9 => { x with emask := v ++ x.emask.extractLsb' 0 32 }
  | 10 => { x with tmr := v.toNat, tmrAt := g }
  | _ => x

/-! ### The operands of MOV (R181) -/

/-- A value by the kind of register it is read from. -/
inductive Opnd where
  | data (v : BitVec 24) | acc (v : BitVec 56) | addr (v : BitVec 16) | modif (v : BitVec 16) | ctl (v : Word)
  deriving DecidableEq, Repr

/-- Whether a MOV number names a register. -/
def movLegal (n : Nat) : Bool := decide (n < 78)

/-- The source of a MOV. -/
def HytS.opnd (x : HytS) (e g n : Nat) : Opnd :=
  if n < 32 then .data (x.dr n)
  else if n < 40 then .acc (x.ac (n - 32))
  else if 48 ≤ n ∧ n < 56 then .modif (x.mdr (n - 48))
  else if n < 64 then .addr (x.areg (n - 40))
  else .ctl (x.creg e g (n - 64))

/-- Converted to a data register, and whether it saturated. -/
def Opnd.toData (rnd : Nat) : Opnd → BitVec 24 × Bool
  | .data v => (v, false)
  | .acc v => roundAcc rnd v
  | .addr v => (v.setWidth 24, false)
  | .modif v => (v.signExtend 24, false)
  | .ctl v => (v.extractLsb' 0 24, false)

/-- Converted to an accumulator. -/
def Opnd.toAcc : Opnd → BitVec 56
  | .data v => placed v
  | .acc v => v
  | .addr v => v.setWidth 56
  | .modif v => v.signExtend 56
  | .ctl v => v.setWidth 56

/-- Converted to an address register. -/
def Opnd.toAddr : Opnd → BitVec 16
  | .data v => v.extractLsb' 0 16
  | .acc v => v.extractLsb' 0 16
  | .addr v => v
  | .modif v => v
  | .ctl v => v.extractLsb' 0 16

/-- Converted to a control register. -/
def Opnd.toCtl : Opnd → Word
  | .data v => v.signExtend 32
  | .acc v => v.extractLsb' 0 32
  | .addr v => v.setWidth 32
  | .modif v => v.setWidth 32
  | .ctl v => v

/-- MOV d, s. -/
def HytS.mov (x : HytS) (e g d s : Nat) : HytS :=
  let v := x.opnd e g s
  if d < 32 then
    let r := v.toData x.rnd
    { x.setD d r.1 with sr := flagsS x.sr r.2 }
  else if d < 40 then x.setAc (d - 32) v.toAcc
  else if d < 64 then x.setAreg (d - 40) v.toAddr
  else x.setCreg g (d - 64) v.toCtl

/-- The source S of format A2 (R183): `frac` for a value placed under R152, else a signed integer. -/
def HytS.srcA2 (x : HytS) (frac s : Bool) (r : Nat) : BitVec 56 :=
  if s then (if frac then placed (x.dr r) else (x.dr r).signExtend 56) else x.ac (r % 8)

/-! ### Addresses (R158, R175) -/

/-- The order of fourteen bits reversed. -/
def rev14 (a : Nat) : Nat := (List.range 14).foldl (fun acc i => acc + (if a.testBit i then 2 ^ (13 - i) else 0)) 0

/-- An address moved by a step s under LNk and the anchor AKk. -/
def HytS.agu (x : HytS) (k a : Nat) (s : Int) : Nat :=
  let ln := x.lnr k
  if 1 ≤ ln ∧ ln ≤ 16384 then
    (x.anchor k + (((((a : Int) - x.anchor k) % 16384 + s) % (ln : Int)).toNat)) % 16384
  else if ln = 0xFFFF then rev14 ((rev14 a + rev14 (unsign 14 s)) % 16384)
  else (((a : Int) + s) % 16384).toNat

/-- The effective address of a MEM access. -/
def HytS.memAddr (x : HytS) (k am : Nat) (disp : BitVec 4) : Nat :=
  match am with
  | 4 => x.agu k (x.ixr k) (x.mdr k).toInt
  | 5 => x.agu k (x.ixr k) disp.toInt
  | _ => x.ixr k

/-- The update of IXk by a MEM access of w words. -/
def HytS.memUpdate (x : HytS) (k am w : Nat) : HytS :=
  match am with
  | 1 => x.stepIx k (x.agu k (x.ixr k) w)
  | 2 => x.stepIx k (x.agu k (x.ixr k) (-(w : Int)))
  | 3 => x.stepIx k (x.agu k (x.ixr k) (x.mdr k).toInt)
  | _ => x

/-- The update of a parallel access or a tap operand: by 1 or by MDk (R182). -/
def HytS.parUpdate (x : HytS) (k : Nat) (byMd : Bool) : HytS :=
  x.stepIx k (x.agu k (x.ixr k) (if byMd then (x.mdr k).toInt else 1))

end Sys2Proof.Machine
end

