-- ==== Sys2Proof/Machine/Hyt.lean ====
section
/-! DEFINITION. The Hytar engines: halts and starts (R53, R169), how an instruction issues, predicates and the ends of
loop passes (R159 to R161, R179), and what each instruction does to registers, data memory, flags and the leg-port
queue (R178 to R187). -/

namespace Sys2Proof.Machine

/-! ### Running, halting and counting -/

/-- STAT.RUNNING. -/
def Hw.hytRuns (h : Hw) (e : Nat) : Bool := h.bit (hy e rSTAT) 0

/-- The axes an engine owns (R165). -/
def Hw.hytAxes (h : Hw) (e : Nat) : List Nat := bridgesOf (h.reg (hy e 0x04C))

/-- The owned axes that have an enabled leg. -/
def Hw.hytEnabled (h : Hw) (e : Nat) : List Nat := (h.hytAxes e).filter fun a => (h.axisLegs a).any h.legEnabled

/-- A counted event of a HYT page (R171): a lasting declaration warns each owned axis. -/
def Hw.hytFlt (h : Hw) (e code : Nat) : Hw :=
  let r := h.fltEvent (pHYT e) 10 code e h.grain
  if r.2 then r.1.each (r.1.hytAxes e) fun h a => h.warnAxis a 1 else r.1

/-- The load figure of an engine up to the present grain (R172): whole grains, two HCLK cycles each. -/
def HytS.clock (x : HytS) (g : Nat) (on : Bool) : HytS :=
  let busy := match x.since with | some s => x.busy + (g - s) | none => x.busy
  { x with busy, since := if on then some g else none }

/-- A corrected error of data (or program) memory (R156). -/
def Hw.hytEcc (h : Hw) (e : Nat) (dataMem : Bool) : Hw :=
  let h := if dataMem then h.bump (hy e 0x064) 31 16 else h.bump (hy e 0x064) 15 0
  (h.evt (pHYT e) 4).hytFlt e 4

/-- A force by a debug halt on the legs of the axes begins or ends (R53, R78). -/
def Hw.haltForce (h : Hw) (axes : List Nat) (on : Bool) : Hw :=
  h.each (axes.flatMap h.axisLegs) fun h n =>
    let h := h.setLeg n { h.leg n with fHalted := on }
    h.when on fun h => h.forceBegin n

/-- ENGINE_HALTED (R53, R169): the cause and the PC are recorded; the legs of its enabled owned axes go safe and those
axes are faulted with HALTED. -/
def Hw.hytHalt (h : Hw) (e cause : Nat) : Hw :=
  let pc := (h.hyt e).pc.toNat
  let h := h.setHyt e ((h.hyt e).clock h.grain false)
  let h := ((h.setBit (hy e rSTAT) 0 false).setBit (hy e rSTAT) 1 true).evt (pHYT e) 1
  let h := ((h.setF (hy e 0x048) 3 0 cause).setF (hy e 0x048) 29 16 pc).setF (hy e 0x044) 13 0 pc
  let axes := h.hytEnabled e
  (h.haltForce axes true).each axes fun h a => h.axFault a 4 3 10

/-- An engine goes on running. -/
def Hw.hytGo (h : Hw) (e : Nat) : Hw :=
  let h := h.setHyt e { (h.hyt e).clock h.grain !(h.hyt e).waiting with stepping := false }
  ((h.setBit (hy e rSTAT) 0 true).setBit (hy e rSTAT) 1 false).haltForce (h.hytAxes e) false

/-- HYT_ENABLE (R169): the engine starts at START with every register at 0, pending arrivals kept. -/
def Hw.hytStart (h : Hw) (e : Nat) : Hw :=
  let x := h.hyt e
  let g := h.wgrain
  let h := h.setHyt e { pc := (h.reg (hy e 0x040)).extractLsb' 0 14, epend := x.epend &&& 0xFFFFFFFF, startAt := g,
                        tmrAt := g, port := x.port, commitAt := x.commitAt, busy := x.busy, since := x.since, epAt := x.epAt,
                        ovrCyc := x.ovrCyc }
  { h with kerns := tabDel (2 * e) (tabDel (2 * e + 1) h.kerns) }.hytGo e

def Hw.hytEnable (h : Hw) (e : Nat) : Hw :=
  if h.bit (hy e rCTRL) 0 then h else (h.setBit (hy e rCTRL) 0 true).hytStart e

/-- HYT_DISABLE. -/
def Hw.hytDisable (h : Hw) (e : Nat) : Hw :=
  let h1 := h.setBit (hy e rCTRL) 0 false
  if h.hytRuns e then h1.hytHalt e 1 else h1

/-- Whether an engine stands in a halt that RESUME and STEP leave (R169). -/
def Hw.hytDebug (h : Hw) (e : Nat) : Bool :=
  let c := h.f (hy e 0x048) 3 0
  !h.hytRuns e && h.bit (hy e rCTRL) 0 && decide (2 ≤ c) && decide (c ≤ 4)

/-- HYTn.STAT (R171). -/
def Hw.hytStat (h : Hw) (e : Nat) : Word :=
  let w := putFld (h.reg (hy e rSTAT)) 2 2 (if (h.hyt e).waiting then 1 else 0)
  putFld w 3 3 (if (h.hytEnabled e).isEmpty then 0 else 1)

/-! ### How an instruction issues -/

/-- What an instruction does to the program counter: the next in line; a jump, `br` for a taken BR, which ends the loops
it leaves (R179); a stop with a cause, `done` where the instruction completes first; a stall, in which nothing happens. -/
inductive Flow where
  | next | jump (t : Nat) (br : Bool) | stop (cause : Nat) (done : Bool) | stall
  deriving DecidableEq, Repr

/-- PS0 to PS15 read 0 where the last modulo loop has ended (R160). -/
def HytS.loopsEnd (x : HytS) (rest : List HLoop) (modulo : Bool) : HytS :=
  { x with loops := rest, ps := if modulo && !(rest.any (·.modulo)) then 0 else x.ps }

/-- The PC after an instruction that does not jump: the end of a pass at the innermost end address (R159, R160, R179). -/
def HytS.advance (x : HytS) : HytS :=
  match x.loops with
  | l :: t =>
    if x.pc.toNat = l.last then
      let x := if l.modulo then x.rotate else x
      if l.left ≤ 1 then { x.loopsEnd t l.modulo with pc := x.pc + 1 }
      else { x with loops := { l with left := l.left - 1, pass := l.pass + 1 } :: t, pc := BitVec.ofNat 14 l.first }
    else { x with pc := x.pc + 1 }
  | [] => { x with pc := x.pc + 1 }

/-- The loops a taken branch to t leaves (R179 rule 6). -/
def leaveLoops (t : Nat) : List HLoop → HytS → HytS
  | [], x => x
  | l :: r, x => if l.first ≤ t ∧ t ≤ l.last then x else leaveLoops t r (x.loopsEnd r l.modulo)

/-- The PC after a jump. -/
def HytS.jump (x : HytS) (t : Nat) (br : Bool) : HytS :=
  { (if br then leaveLoops t x.loops x else x) with pc := BitVec.ofNat 14 t }

/-- An engine's registers replaced by a function of themselves. -/
def Hw.upHyt (h : Hw) (e : Nat) (f : HytS → HytS) : Hw := h.setHyt e (f (h.hyt e))

/-- A step ends with its instruction (R169). -/
def Hw.stepEnd (h : Hw) (e : Nat) : Hw :=
  let x := h.hyt e
  if x.stepping && h.hytRuns e && !x.waiting then (h.setHyt e { x with stepping := false }).hytHalt e 4 else h

/-! ### Memories and their errors (R156) -/

/-- The fabric address of data word w of engine e (R156). -/
def dmAddr (e w : Nat) : Nat := 0x10010000 + 0x20000 * e + 4 * (w % 16384)

/-- The fabric address of instruction i of engine e. -/
def pmAddr (e i : Nat) : Nat := 0x10000000 + 0x20000 * e + 4 * (i % 16384)

/-- The error the word at an address holds: none, correctable, or not. -/
def Hw.eccAt (h : Hw) (a : Nat) : Option Bool := (h.sup.eccHyt.find? (·.1 == a)).map (·.2)

/-- An error strikes the word at an address. -/
def Hw.eccHit (h : Hw) (a : Nat) (bad : Bool) : Hw :=
  { h with sup := { h.sup with eccHyt := (a, bad) :: h.sup.eccHyt } }

/-- An access of engine e's memory reads the word at an address: a single-bit error is corrected and counted; the answer
tells whether an error is uncorrectable. -/
def Hw.eccRead (h : Hw) (e : Nat) (dataMem : Bool) (a : Nat) : Hw × Bool :=
  match h.eccAt a with
  | none => (h, false)
  | some true => (h, true)
  | some false =>
    (({ h with sup := { h.sup with eccHyt := h.sup.eccHyt.filter fun x => x.1 != a } }).hytEcc e dataMem, false)

/-- A load of data words: as one word, for each in turn. -/
def Hw.eccLoad (h : Hw) (e : Nat) : List Nat → Hw × Bool
  | [] => (h, false)
  | w :: t =>
    let r := h.eccRead e true (dmAddr e w)
    if r.2 then r else r.1.eccLoad e t

/-- The errors an access of the engine meets, given with it: in the instruction at the PC, or in a data word. -/
def Hw.eccStrike (h : Hw) (e : Nat) (ws : List Nat) : EccErr → Hw
  | .none => h
  | .progCorrected => h.eccHit (pmAddr e (h.hyt e).pc.toNat) false
  | .progUncorrectable => h.eccHit (pmAddr e (h.hyt e).pc.toNat) true
  | .dataCorrected => h.each (ws.take 1) fun h w => h.eccHit (dmAddr e w) false
  | .dataUncorrectable => h.each (ws.take 1) fun h w => h.eccHit (dmAddr e w) true

/-- Engine e issues an instruction (R161, R173): only a running engine that does not wait issues; an illegal instruction
stops it even predicated off. `rd` are the data words it loads: an uncorrectable error in its fetch or in one of them
stops the engine (R156). -/
def Hw.issue (h : Hw) (e p : Nat) (legal : Bool) (rd : List Nat) (f : Hw → Hw × Flow) : Hw :=
  if !h.hytRuns e || (h.hyt e).waiting then h
  else
    let k := h.eccRead e false (pmAddr e (h.hyt e).pc.toNat)
    let h := k.1
    if k.2 then h.hytHalt e 6
    else if !(predLegal p && legal) then h.hytHalt e 5
    else if !(h.hyt e).pred p then (h.upHyt e HytS.advance).stepEnd e
    else
      let k := h.eccLoad e rd
      if k.2 then k.1.hytHalt e 6 else
      let r := f k.1
      match r.2 with
      | .next => (r.1.upHyt e HytS.advance).stepEnd e
      | .jump t br => (r.1.upHyt e fun x => x.jump t br).stepEnd e
      | .stop cause done => (if done then r.1.upHyt e HytS.advance else r.1).hytHalt e cause
      | .stall => h

/-! ### Data memory -/

def Hw.dmRd (h : Hw) (m : Mem) (e w : Nat) : Word := h.rd32 m (dmAddr e w)
/-- A write of a data word; while a pair's owner copies the engine, it is mirrored (R415). -/
def Hw.dmWr (h : Hw) (e w : Nat) (v : Word) : Hw :=
  let h := (h.wr32 (dmAddr e w) v).acqBytes (dmAddr e w) (wordBytes v)
  if h.pair.copying = some e then h.memCopy (dmAddr e w) [v] else h

/-- Bits 23:0 of a data word. -/
def Hw.dmData (h : Hw) (m : Mem) (e w : Nat) : BitVec 24 := (h.dmRd m e w).extractLsb' 0 24

/-! ### The operations -/

/-- The operations of the instruction set (R178 to R186), with their operand fields. -/
inductive HOp where
  | nop | halt | wait | clre (n : Nat) | rot
  | br (c t : Nat) | call (c t : Nat) | ret (k : Nat)
  | loop (n len : Nat) | loopr (r len : Nat) | mloop (r sc len : Nat) | mloopi (n sc len : Nat)
  | pset (c g : Nat) (x : Bool) (h : Nat)
  | mov (d s : Nat) | lda (r : Nat) (i : BitVec 16) | adda (r : Nat) (i : BitVec 16)
  | ld (d k am : Nat) (disp : BitVec 4) | st (d k am : Nat) (disp : BitVec 4)
  | ldr (d k am : Nat) (disp : BitVec 4) | str (d k am : Nat) (disp : BitVec 4)
  | ldl (d k am : Nat) (disp : BitVec 4) | stl (d k am : Nat) (disp : BitVec 4)
  | ldi (d : Nat) (i : BitVec 16) | ldil (d : Nat) (i : BitVec 16) | ldac (a : Nat) (i : BitVec 18)
  | mpy (a x y : Nat) | mac (a x y : Nat) | msu (a x y : Nat)
  | mpyp (a x y m k : Nat) (u : Bool) | macp (a x y m k : Nat) (u : Bool) | msup (a x y m k : Nat) (u : Bool)
  | mpys (a x y m k : Nat) (u : Bool) | macs (a x y m k : Nat) (u : Bool) | msus (a x y m k : Nat) (u : Bool)
  | tap (a i j m : Nat) (c ui uj s z : Bool)
  | add (a : Nat) (s : Bool) (r : Nat) | sub (a : Nat) (s : Bool) (r : Nat) | addl (a : Nat) (s : Bool) (r : Nat)
  | subl (a : Nat) (s : Bool) (r : Nat) | cmp (a : Nat) (s : Bool) (r : Nat)
  | neg (a : Nat) | abs (a : Nat) | clr (a : Nat) | min (a : Nat) (s : Bool) (r : Nat) | max (a : Nat) (s : Bool) (r : Nat)
  | sat (a : Nat) | and (a : Nat) (s : Bool) (r : Nat) | or (a : Nat) (s : Bool) (r : Nat) | xor (a : Nat) (s : Bool) (r : Nat)
  | ash (a : Nat) (s : Bool) (n : BitVec 6) | lsh (a : Nat) (s : Bool) (n : BitVec 6)
  | exp (a d : Nat) | nrm (a d : Nat) | scl (a x b : Nat)
  | pwr (a : Nat) (x fall : Bool) (n : Nat) | pcom (x : Bool) (n : Nat)
  | fld (d a : Nat) | fst (d a : Nat)
  deriving DecidableEq, Repr

/-- Whether a loop body of len + 1 instructions after the PC is legal (R179 rules 1 and 2). -/
def HytS.bodyOk (x : HytS) (len : Nat) : Bool :=
  let pc := x.pc.toNat
  let last := pc + len + 1
  decide (last ≤ 16383) && x.loops.all fun l => !(decide (l.first ≤ pc) && decide (pc ≤ l.last)) || decide (last < l.last)

/-- Whether the operand fields of a MEM access are legal (R173, R175). -/
def memLegal (am : Nat) (disp : BitVec 4) : Bool := decide (am < 6) && (am == 5 || disp == 0)

/-- Whether an operation is legal where the engine stands (R173). -/
def HOp.legal (x : HytS) : HOp → Bool
  | .loop _ len => x.bodyOk len
  | .loopr r len => decide (r < 24) && x.bodyOk len
  | .mloop r _ len => decide (r < 24) && x.bodyOk len
  | .mloopi _ _ len => x.bodyOk len
  | .mov d s => movLegal d && movLegal s
  | .lda r _ => decide (r < 24)
  | .adda r _ => decide (r < 24)
  | .ld _ _ am disp => memLegal am disp
  | .st _ _ am disp => memLegal am disp
  | .ldr d _ am disp => decide (d < 8) && memLegal am disp
  | .str d _ am disp => decide (d < 8) && memLegal am disp
  | .ldl d _ am disp => decide (d < 8) && memLegal am disp
  | .stl d _ am disp => decide (d < 8) && memLegal am disp
  | .ldil _ i => i.toNat / 256 == 0
  | .add _ s r => s || decide (r < 8)
  | .sub _ s r => s || decide (r < 8)
  | .addl _ s r => s || decide (r < 8)
  | .subl _ s r => s || decide (r < 8)
  | .cmp _ s r => s || decide (r < 8)
  | .min _ s r => s || decide (r < 8)
  | .max _ s r => s || decide (r < 8)
  | .and _ s r => s || decide (r < 8)
  | .or _ s r => s || decide (r < 8)
  | .xor _ s r => s || decide (r < 8)
  | .ash _ s n => !s || !n.getLsbD 0
  | .lsh _ s n => !s || !n.getLsbD 0
  | .pwr _ x _ n => !x || n % 16 == 0
  | .pcom x n => !x || n % 4 == 0
  | _ => true

/-- A loop of `left` passes starts (R159, R160); none where its count is 0; a fifth level stops the engine. -/
def Hw.hLoop (h : Hw) (e len left : Nat) (modulo : Bool) (n sc : Nat) : Hw × Flow :=
  let x := h.hyt e
  let pc := x.pc.toNat
  if left = 0 then (h, .jump (pc + len + 2) false)
  else if 4 ≤ x.loops.length then (h, .stop 7 false)
  else (h.setHyt e { x with loops := { first := pc + 1, last := pc + len + 1, left, modulo, n, sc } :: x.loops }, .next)

/-- A modulo loop of trip count n (R160): N + SC − 1 passes. -/
def Hw.hMloop (h : Hw) (e len n sc : Nat) : Hw × Flow := h.hLoop e len (if n = 0 then 0 else n + sc - 1) true n sc

/-- The result of an F instruction in an accumulator. -/
def HytS.putF (x : HytS) (a : Nat) (v : Int) : HytS :=
  let r := satAcc v
  { x.setAc a r.1 with sr := flagsF x.sr r.1 r.2 }

/-- The product of two data values, as Q1.47 (R152). -/
def product (a b : BitVec 24) : Int := 2 * (a.toInt * b.toInt)

/-- MPY, MAC and MSU (kinds 0, 1, 2) (R182). -/
def HytS.mulAcc (x : HytS) (kind a xr yr : Nat) : HytS :=
  let p := product (x.dr xr) (x.dr yr)
  x.putF a (match kind with | 0 => p | 1 => (x.ac a).toInt + p | _ => (x.ac a).toInt - p)

/-- A multiply with a parallel load into D(16+m) (R182, R187). -/
def Hw.mulLoad (h : Hw) (m : Mem) (e kind a xr yr mr k : Nat) (u : Bool) : Hw :=
  let v := h.dmData m e ((h.hyt e).ixr k)
  h.upHyt e fun x => ((x.mulAcc kind a xr yr).setD (16 + mr) v).parUpdate k u

/-- A multiply with a parallel store of D(16+m). -/
def Hw.mulStore (h : Hw) (e kind a xr yr mr k : Nat) (u : Bool) : Hw :=
  let x := h.hyt e
  (h.dmWr e (x.ixr k) ((x.dr (16 + mr)).signExtend 32)).setHyt e ((x.mulAcc kind a xr yr).parUpdate k u)

/-- TAP (R182). -/
def Hw.tap (h : Hw) (m : Mem) (e a i j mr : Nat) (c ui uj s z : Bool) : Hw :=
  let x := h.hyt e
  let wi := h.dmData m e (x.ixr i)
  let wj := h.dmData m e (x.ixr j)
  let p := product wi wj
  let p := if s then -p else p
  let y := x.putF a (if z then p else (x.ac a).toInt + p)
  let y := if c then y.setD mr wi else y
  let y := y.parUpdate i ui
  h.setHyt e (if i = j then y else y.parUpdate j uj)

/-- A logical operation (flags Q, E) (R183). -/
def HytS.logic (x : HytS) (a : Nat) (v : BitVec 56) : HytS := { x.setAc a v with sr := flagsQE x.sr v }

/-- The shift count of ASH and LSH (R183). -/
def HytS.shiftN (x : HytS) (s : Bool) (n : BitVec 6) : Int :=
  if s then clip (-56) 56 (x.dr (n.toNat / 2)).toInt else n.toInt

/-- ASH. -/
def HytS.ash (x : HytS) (a : Nat) (n : Int) : HytS :=
  let v := (x.ac a).toInt
  x.putF a (if 0 ≤ n then v * 2 ^ n.toNat else v / 2 ^ (-n).toNat)

/-- LSH: C takes the last bit shifted out. -/
def HytS.lsh (x : HytS) (a : Nat) (n : Int) : HytS :=
  let v := x.ac a
  let k := n.natAbs
  let r := if 0 ≤ n then v <<< k else v >>> k
  let c := if n = 0 then false else if 0 < n then v.getLsbD (56 - k) else v.getLsbD (k - 1)
  { x.setAc a r with sr := flagsL x.sr r c }

/-- NRM (R184). -/
def HytS.nrm (x : HytS) (a d : Nat) : HytS :=
  let v := x.ac a
  let e := accExp v
  let r := if 0 ≤ e then v <<< e.toNat else BitVec.ofInt 56 (v.toInt / 2 ^ (-e).toNat)
  { (x.setAc a r).setD d (BitVec.ofInt 24 e) with sr := flagsQE x.sr r }

/-- SCL (R185). -/
def HytS.scl (x : HytS) (a xr b : Nat) : HytS :=
  let p := (x.dr xr).toInt * ((x.ac b).toNat % 2 ^ 32)
  let r := BitVec.ofInt 56 (roundBy x.rnd (p / 2 ^ 23) (p % 2 ^ 23).toNat (2 ^ 22))
  { x.setAc a r with sr := flagsQ x.sr r }

/-- An entry for the leg-port queue: dropped where its unit is not owned, a stall where the queue is full (R166). -/
def Hw.portPut (h : Hw) (e : Nat) (owned : Bool) (en : PortEnt) : Hw × Flow :=
  let x := h.hyt e
  if !owned then (h.evt (pHYT e) 2, .next)
  else if 8 ≤ x.port.length then (h, .stall)
  else (h.setHyt e { x with port := x.port ++ [{ en with left := h.grain }] }, .next)

/-- Whether engine e owns an axis, and a leg (R165, R166). -/
def Hw.ownsAxis (h : Hw) (e a : Nat) : Bool := h.bit (hy e 0x04C) a
def Hw.ownsLeg (h : Hw) (e n : Nat) : Bool :=
  decide (n < 96) && (match h.legAxis n with | some a => h.ownsAxis e a | none => false)

/-- What an operation does (R178 to R186). The fabric accesses, which reach every page, have their meaning in
`Hw.fldOp` and `Hw.fstOp`. -/
def HOp.effect (m : Mem) (e : Nat) (h : Hw) (op : HOp) : Hw × Flow :=
  let x := h.hyt e
  let reg := fun (f : HytS → HytS) => ((h.upHyt e f, .next) : Hw × Flow)
  match op with
  | .nop => (h, .next)
  | .halt => (h, .stop 10 true)
  | .wait => reg fun x => let w := x.epend &&& x.emask == 0; { x.clock h.grain !w with waiting := w }
  | .clre n => reg fun x => x.epClear h.grain (BitVec.ofNat 64 (2 ^ n))
  | .rot => reg HytS.rotate
  | .br c t => (h, if hcond x.sr c then .jump t true else .next)
  | .call c t =>
    if hcond x.sr c then (h.setHyt e (x.setIx 7 ((x.pc + 1).setWidth 16)), .jump t false) else (h, .next)
  | .ret k => (h.setHyt e { x with retAt := h.grain }, .jump (x.ixr k) false)
  | .loop n len => h.hLoop e len n false 0 0
  | .loopr r len => h.hLoop e len (x.areg r).toNat false 0 0
  | .mloop r sc len => h.hMloop e len (x.areg r).toNat sc
  | .mloopi n sc len => h.hMloop e len n sc
  | .pset c g b k => reg fun x =>
      let v := hcond x.sr c
      let put := fun (pg : BitVec 4) (i : Nat) (b : Bool) =>
        if b then pg ||| BitVec.ofNat 4 (2 ^ i) else pg &&& ~~~(BitVec.ofNat 4 (2 ^ i))
      let pg := put x.pg g v
      { x with pg := if b then put pg k (!v) else pg }
  | .mov d s => reg fun x => x.mov e h.grain d s
  | .lda r i => reg fun x => x.setAreg r i
  | .adda r i => reg fun x =>
      let v := x.areg r
      { x.setAreg r (v + i) with sr := putFlag x.sr fC (decide (65536 ≤ v.toNat + i.toNat)) }
  | .ld d k am disp => reg fun x => (x.setD d (h.dmData m e (x.memAddr k am disp))).memUpdate k am 1
  | .st d k am disp => ((h.dmWr e (x.memAddr k am disp) ((x.dr d).signExtend 32)).upHyt e (·.memUpdate k am 1), .next)
  | .ldr d k am disp => reg fun x => (x.setAc d (placed (h.dmData m e (x.memAddr k am disp)))).memUpdate k am 1
  | .str d k am disp =>
    let r := roundAcc x.rnd (x.ac d)
    ((h.dmWr e (x.memAddr k am disp) (r.1.signExtend 32)).upHyt e fun x =>
      ({ x with sr := flagsS x.sr r.2 }).memUpdate k am 1, .next)
  | .ldl d k am disp => reg fun x =>
      let w := x.memAddr k am disp
      (x.setAc d (h.dmData m e (x.agu k w 1) ++ h.dmRd m e w)).memUpdate k am 2
  | .stl d k am disp =>
    let w := x.memAddr k am disp
    let v := x.ac d
    (((h.dmWr e w (v.extractLsb' 0 32)).dmWr e (x.agu k w 1) ((v.extractLsb' 32 24).signExtend 32)).upHyt e
      (·.memUpdate k am 2), .next)
  | .ldi d i => reg fun x => x.setD d (i ++ (0 : BitVec 8))
  | .ldil d i => reg fun x => x.setD d ((x.dr d).extractLsb' 8 16 ++ i.extractLsb' 0 8)
  | .ldac a i => reg fun x => x.setAc a (i.signExtend 56)
  | .mpy a xr yr => reg fun x => x.mulAcc 0 a xr yr
  | .mac a xr yr => reg fun x => x.mulAcc 1 a xr yr
  | .msu a xr yr => reg fun x => x.mulAcc 2 a xr yr
  | .mpyp a xr yr mr k u => (h.mulLoad m e 0 a xr yr mr k u, .next)
  | .macp a xr yr mr k u => (h.mulLoad m e 1 a xr yr mr k u, .next)
  | .msup a xr yr mr k u => (h.mulLoad m e 2 a xr yr mr k u, .next)
  | .mpys a xr yr mr k u => (h.mulStore e 0 a xr yr mr k u, .next)
  | .macs a xr yr mr k u => (h.mulStore e 1 a xr yr mr k u, .next)
  | .msus a xr yr mr k u => (h.mulStore e 2 a xr yr mr k u, .next)
  | .tap a i j mr c ui uj s z => (h.tap m e a i j mr c ui uj s z, .next)
  | .add a s r => reg fun x => x.putF a ((x.ac a).toInt + (x.srcA2 true s r).toInt)
  | .sub a s r => reg fun x => x.putF a ((x.ac a).toInt - (x.srcA2 true s r).toInt)
  | .addl a s r => reg fun x =>
      let v := x.srcA2 false s r
      { x.setAc a (x.ac a + v) with sr := flagsL x.sr (x.ac a + v) (decide (2 ^ 56 ≤ (x.ac a).toNat + v.toNat)) }
  | .subl a s r => reg fun x =>
      let v := x.srcA2 false s r
      { x.setAc a (x.ac a - v) with sr := flagsL x.sr (x.ac a - v) (decide ((x.ac a).toNat < v.toNat)) }
  | .cmp a s r => reg fun x =>
      let d := (x.ac a).toInt - (x.srcA2 true s r).toInt
      { x with sr := putFlag (putFlag x.sr fN (decide (d < 0))) fZ (decide (d = 0)) }
  | .neg a => reg fun x => x.putF a (-(x.ac a).toInt)
  | .abs a => reg fun x => x.putF a ((x.ac a).toInt.natAbs : Int)
  | .clr a => reg fun x => x.setAc a 0
  | .min a s r => reg fun x =>
      let v := x.srcA2 true s r
      if v.toInt < (x.ac a).toInt then x.setAc a v else x
  | .max a s r => reg fun x =>
      let v := x.srcA2 true s r
      if (x.ac a).toInt < v.toInt then x.setAc a v else x
  | .sat a => reg fun x =>
      let v := x.ac a
      if outsideQ47 v then
        let r : BitVec 56 := if v.msb then 0xFF800000000000 else 0x007FFFFFFFFFFF
        { x.setAc a r with sr := putFlag (flagsQE x.sr r) fSAT true }
      else { x with sr := flagsQE x.sr v }
  | .and a s r => reg fun x => x.logic a (x.ac a &&& x.srcA2 false s r)
  | .or a s r => reg fun x => x.logic a (x.ac a ||| x.srcA2 false s r)
  | .xor a s r => reg fun x => x.logic a (x.ac a ^^^ x.srcA2 false s r)
  | .ash a s n => reg fun x => x.ash a (x.shiftN s n)
  | .lsh a s n => reg fun x => x.lsh a (x.shiftN s n)
  | .exp a d => reg fun x => { x.setD d (BitVec.ofInt 24 (accExp (x.ac a))) with sr := flagsQ x.sr (x.ac a) }
  | .nrm a d => reg fun x => x.nrm a d
  | .scl a xr b => reg fun x => x.scl a xr b
  | .pwr a b fall n =>
    let leg := if b then x.ixr (n / 16) % 128 else n
    h.portPut e (h.ownsLeg e leg) { commit := false, unit := leg, fall, v := (x.ac a).toNat % 2 ^ 29 }
  | .pcom b n =>
    let c := if b then x.ixr (n / 4) % 32 else n
    h.portPut e (h.ownsAxis e c) { commit := true, unit := c }
  | .fld _ _ => (h, .next)
  | .fst _ _ => (h, .next)

/-- The data words an operation loads. -/
def HOp.loads (x : HytS) : HOp → List Nat
  | .ld _ k am disp => [x.memAddr k am disp]
  | .ldr _ k am disp => [x.memAddr k am disp]
  | .ldl _ k am disp => [x.memAddr k am disp, x.agu k (x.memAddr k am disp) 1]
  | .mpyp _ _ _ _ k _ => [x.ixr k]
  | .macp _ _ _ _ k _ => [x.ixr k]
  | .msup _ _ _ _ k _ => [x.ixr k]
  | .tap _ i j _ _ _ _ _ _ => [x.ixr i, x.ixr j]
  | _ => []

/-- The data word an operation reaches first: the one it loads, or the one a ST writes. -/
def HOp.reach (x : HytS) (op : HOp) : List Nat :=
  match op with
  | .st _ k am disp => [x.memAddr k am disp]
  | op => op.loads x

/-- Engine e issues an operation; `ecc` is an error that strikes the instruction or the data word as it does. -/
def Hw.hop (h : Hw) (m : Mem) (e p : Nat) (op : HOp) (ecc : EccErr := .none) : Hw :=
  (h.eccStrike e (op.reach (h.hyt e)) ecc).issue e p (op.legal (h.hyt e)) (op.loads (h.hyt e)) fun h => op.effect m e h

/-! ### Event waits, timer, port queue, watchdog -/

/-- WAIT_RESUME (R167): a waiting engine whose enabled pending bit is set goes on; a step ends with it. -/
def Hw.waitResume (h : Hw) (e : Nat) : Hw :=
  let x := h.hyt e
  if h.hytRuns e && x.waiting && (x.epend &&& x.emask != 0) then
    let h := h.setHyt e { x.clock h.grain true with waiting := false, stepping := false }
    if x.stepping then h.hytHalt e 4 else h
  else h

/-- ENGINE_TIMER_EXPIRY (R151): TMR reaches 0, sets EPEND bit 47 once and stays at 0. -/
def Hw.timerExpiry (h : Hw) (e : Nat) : Hw :=
  let x := h.hyt e
  if x.tmr ≠ 0 ∧ x.tmrNow h.grain = 0 then (h.setHyt e { x with tmr := 0 }).epSet e 47 else h

/-- Whether the front entry of a leg-port queue is due: the PCLK cycle that holds the third grain after it left (R166). -/
def Hw.portDue (h : Hw) (en : PortEnt) : Bool := decide ((en.left + 3) / 5 ≤ h.cycle)

/-- PORT_WRITE_APPLY: the oldest entry, a compare write, lands in the shadow and stands against a fabric write of its
cycle (R166). -/
def Hw.portWrite (h : Hw) (e : Nat) : Hw :=
  let x := h.hyt e
  match x.port with
  | en :: t =>
    if en.commit || !h.portDue en then h
    else
      let a := lg en.unit (if en.fall then 0x044 else 0x040)
      ({ h.setHyt e { x with port := t } with portCyc := tabSet 0 a (h.cycle + 1) h.portCyc }).setShd a
        (BitVec.ofNat 32 en.v)
  | [] => h

/-- PORT_COMMIT_APPLY: the oldest entry, a commit, is the group commit of its carrier unit (R166, R76). -/
def Hw.portCommit (h : Hw) (e : Nat) : Hw :=
  let x := h.hyt e
  match x.port with
  | en :: t =>
    if !en.commit || !h.portDue en then h
    else (h.setHyt e { x with port := t, commitAt := tabSet 0 en.unit h.grain x.commitAt }).carGo en.unit
  | [] => h

/-- HYT_WATCHDOG (R170): an owned axis with an enabled leg has had no port commit for WDOG grains, counted from its
first leg's enable. -/
def Hw.hytWatchdog (h : Hw) (e : Nat) : Hw :=
  let w := (h.reg (hy e 0x050)).toNat
  let late := (h.hytEnabled e).any fun a =>
    decide (Nat.max (tabGet 0 a (h.hyt e).commitAt) (tabGet 0 a h.enAt) + w < h.grain)
  if w ≠ 0 ∧ h.hytRuns e ∧ late then h.hytHalt e 9 else h

/-! ### Register writes of the HYT pages -/

/-- HYT_RESUME (R169). -/
def Hw.hytResume (h : Hw) (e : Nat) : Hw := if h.hytDebug e then h.hytGo e else h

/-- HALT_REQ (R169, R171). -/
def Hw.haltReq (h : Hw) (e : Nat) : Hw := if h.hytRuns e then h.hytHalt e 2 else h

/-- BREAKPOINT: the PC of a running engine stands at an enabled breakpoint (R169). -/
def Hw.breakpoint (h : Hw) (e : Nat) : Hw :=
  let hit := [0x054, 0x058].any fun o => h.bit (hy e o) 31 && h.f (hy e o) 13 0 == (h.hyt e).pc.toNat
  if h.hytRuns e && !(h.hyt e).waiting && hit then h.hytHalt e 3 else h

/-- HYT_CNT_CLR (R171, R32). -/
def Hw.hytCntClr (h : Hw) (e : Nat) : Hw :=
  let h := ((h.setReg (hy e 0x060) 0).clrCnt (hy e 0x064) 31 16).clrCnt (hy e 0x064) 15 0
  h.w1cClear (hy e 0x06C) 0xFFFFFFFF 0xFFFFFFFF

/-- A write of HYTn.AXES (R165). -/
def Hw.hytAxesWrite (h : Hw) (e : Nat) (v : Word) : Hw :=
  let old := h.reg (hy e 0x04C)
  let busy := (bridgesOf (old ||| v)).any fun a => (h.axisLegs a).any h.legEnabled
  let others := (List.range 16).any fun o => o != e && (h.reg (hy o 0x04C) &&& v &&& ~~~old) != 0
  if h.hytRuns e || busy || others then h.evt (pHYT e) 0 else h.setReg (hy e 0x04C) v

/-- Whether a source of an input slot is in range (R163). -/
def sinOk (v : Word) : Bool :=
  let i := fld v 7 0
  match fld v 26 24 with
  | 0 => true
  | 1 => decide (i < 112)
  | 2 => decide (i < 32)
  | 3 => decide (i < 136)
  | 4 => true
  | _ => false

/-- A write of SIN_MAP[i]. -/
def Hw.sinMapWrite (h : Hw) (e i : Nat) (v : Word) : Hw :=
  if sinOk v then h.setReg (hy e (0x080 + 4 * i)) (v &&& 0x070000FF) else h.evt (pHYT e) 0

/-- A write of WSEL[j] (R167). -/
def Hw.wselWrite (h : Hw) (e j : Nat) (v : Word) : Hw :=
  if fld v 10 8 ≤ 6 then h.setReg (hy e (0x100 + 4 * j)) (v &&& 0x71F) else h.evt (pHYT e) 0

/-- DOORBELL (R167). -/
def Hw.doorbell (h : Hw) (e : Nat) (v : BitVec 16) : Hw :=
  h.each ((List.range 16).filter v.getLsbD) fun h d => h.epSet e (48 + d)

/-- HYTn.DOORBELL and SIN_ARR as they read. -/
def Hw.bellView (h : Hw) (e : Nat) : Word := ((h.hyt e).epend >>> 48).setWidth 32
def Hw.sinArr (h : Hw) (e : Nat) : Word := (h.hyt e).epend.setWidth 32

/-- A write of program memory by the fabric: ignored and flagged while the engine runs (R52). -/
def Hw.pmWrite (h : Hw) (e i : Nat) (v : Word) : Hw :=
  if h.hytRuns e then h.evt (pHYT e) 3 else h.wr32 (pmAddr e i) v

/-! ### The signal port (R163, R164) -/

/-- The record of a source. A profile's delivered record carries its reshaped position (R235). -/
def Hw.sinRecord (h : Hw) (m : Mem) (kind inst : Nat) : List Word :=
  let lo := fun (v : Word64) => v.extractLsb' 0 32
  let hi := fun (v : Word64) => v.extractLsb' 32 32
  let two := fun (v : Word64) => [lo v, hi v]
  match kind with
  | 1 =>
    let d := h.reg (ra (pSDM inst) 0x068)
    [BitVec.sshiftRight d 8, h.reg (ra (pSDM inst) 0x06C),
     ((h.reg (ra (pSDM inst) 0x070)).extractLsb' 0 16).signExtend 32, d &&& 0xF7,
     ((h.reg (ra (pSDM inst) 0x074)).extractLsb' 0 16).signExtend 32, 0, 0, 0]
  | 2 =>
    let v := h.reg64 (ra (pFB inst) 0x078)
    let st := (if h.bit (ra (pFB inst) rREADY) 2 then 1 else 0) + (if h.bit (ra (pFB inst) rSTAT) 1 then 2 else 0)
      + (if v = 0 then 0 else 4)
    two (h.fbBPos inst) ++ two v ++
      [h.reg (ra pCLK 0x058), h.reg (ra (pFB inst) 0x080), BitVec.ofNat 32 st, h.reg (ra pCLK 0x064)]
  | 3 =>
    let r := (h.prof inst).rel
    two (h.msShape m inst r.pos) ++ two (BitVec.ofInt 64 r.vel) ++ two (BitVec.ofInt 64 r.acc) ++ [h.reg (ra pCLK 0x064) - 1, r.w7]
  | 4 =>
    [h.reg (ra pCLK 0x058), h.reg (ra pCLK 0x05C), h.reg (ra pCLK 0x064), h.reg (ra pCLK 0x060),
     ((h.reg (ra pCLK 0x068)).extractLsb' 0 16).signExtend 32, 0, 0, 0]
  | _ => []

/-- SIGNAL_ARRIVAL: the record of slot i's source is written, its EPEND bit set; a bit still set is an overrun. -/
def Hw.signalArrival (h : Hw) (m : Mem) (e i : Nat) : Hw :=
  let a := hy e (0x080 + 4 * i)
  let kind := h.f a 26 24
  if kind = 0 then h
  else
    let x := h.hyt e
    let h := h.each ((h.sinRecord m kind (h.f a 7 0)).zipIdx) fun h w => h.dmWr e (0x3F00 + 8 * i + w.2) w.1
    let h := h.upHyt e fun x => { x with arrAt := tabSet 0 i h.grain x.arrAt }
    let h := if x.epend.getLsbD i then
        let h := h.upHyt e fun x => { x with lost := tabSet 0 i (tabGet 0 i x.lost + 1) x.lost }
        ((h.w1cSet (hy e 0x06C) i).evt (pHYT e) 5).hytFlt e 5
      else h
    h.epSet e i

end Sys2Proof.Machine
end

