-- ==== Sys2Proof/Machine/HytCmd.lean ====
section
/-! DEFINITION. The rows of the Hytar instruction set (R178 to R186), one meaning each, and the commands of the engines
that reach no other unit: waits, timers, the leg-port queue, the signal port, halts and the writes of the HYT pages. -/

namespace Sys2Proof.Machine

/-! ### Instructions -/

/-- NOP. -/
def execNop (g : Nat) (e : Fin 16) (p : BitVec 5) (s : State) :=
  run g (fun mem h => h.hop mem e p.toNat (.nop)) s
/-- HALT. -/
def execHalt (g : Nat) (e : Fin 16) (p : BitVec 5) (s : State) :=
  run g (fun mem h => h.hop mem e p.toNat (.halt)) s
/-- WAIT. -/
def execWait (g : Nat) (e : Fin 16) (p : BitVec 5) (s : State) :=
  run g (fun mem h => h.hop mem e p.toNat (.wait)) s
/-- CLRE. -/
def execClre (g : Nat) (e : Fin 16) (p : BitVec 5) (n : BitVec 6) (s : State) :=
  run g (fun mem h => h.hop mem e p.toNat (.clre n.toNat)) s
/-- ROT. -/
def execRot (g : Nat) (e : Fin 16) (p : BitVec 5) (s : State) :=
  run g (fun mem h => h.hop mem e p.toNat (.rot)) s
/-- BR. -/
def execBr (g : Nat) (e : Fin 16) (p : BitVec 5) (c : BitVec 4) (t : BitVec 14) (s : State) :=
  run g (fun mem h => h.hop mem e p.toNat (.br c.toNat t.toNat)) s
/-- CALL. -/
def execCall (g : Nat) (e : Fin 16) (p : BitVec 5) (c : BitVec 4) (t : BitVec 14) (s : State) :=
  run g (fun mem h => h.hop mem e p.toNat (.call c.toNat t.toNat)) s
/-- RET. -/
def execRet (g : Nat) (e : Fin 16) (p : BitVec 5) (k : BitVec 3) (s : State) :=
  run g (fun mem h => h.hop mem e p.toNat (.ret k.toNat)) s
/-- LOOP. -/
def execLoop (g : Nat) (e : Fin 16) (p : BitVec 5) (n : BitVec 13) (len : BitVec 8) (s : State) :=
  run g (fun mem h => h.hop mem e p.toNat (.loop n.toNat len.toNat)) s
/-- LOOPR. -/
def execLoopr (g : Nat) (e : Fin 16) (p : BitVec 5) (r : BitVec 5) (len : BitVec 8) (s : State) :=
  run g (fun mem h => h.hop mem e p.toNat (.loopr r.toNat len.toNat)) s
/-- MLOOP. -/
def execMloop (g : Nat) (e : Fin 16) (p : BitVec 5) (r : BitVec 5) (sc : BitVec 4) (len : BitVec 8) (s : State) :=
  run g (fun mem h => h.hop mem e p.toNat (.mloop r.toNat (sc.toNat + 1) len.toNat)) s
/-- MLOOPI. -/
def execMloopi (g : Nat) (e : Fin 16) (p : BitVec 5) (n : BitVec 9) (sc : BitVec 4) (len : BitVec 8) (s : State) :=
  run g (fun mem h => h.hop mem e p.toNat (.mloopi n.toNat (sc.toNat + 1) len.toNat)) s
/-- PSET. -/
def execPset (g : Nat) (e : Fin 16) (p : BitVec 5) (c : BitVec 4) (pg : BitVec 2) (x : Bool) (k : BitVec 2) (s : State) :=
  run g (fun mem h => h.hop mem e p.toNat (.pset c.toNat pg.toNat x k.toNat)) s
/-- MOV. -/
def execMov (g : Nat) (e : Fin 16) (p : BitVec 5) (d src : BitVec 7) (s : State) :=
  run g (fun mem h => h.hop mem e p.toNat (.mov d.toNat src.toNat)) s
/-- LDA. -/
def execLda (g : Nat) (e : Fin 16) (p : BitVec 5) (r : BitVec 5) (imm : BitVec 16) (s : State) :=
  run g (fun mem h => h.hop mem e p.toNat (.lda r.toNat imm)) s
/-- ADDA. -/
def execAdda (g : Nat) (e : Fin 16) (p : BitVec 5) (r : BitVec 5) (imm : BitVec 16) (s : State) :=
  run g (fun mem h => h.hop mem e p.toNat (.adda r.toNat imm)) s
/-- LD. -/
def execLd (g : Nat) (e : Fin 16) (p : BitVec 5) (d : BitVec 5) (k am : BitVec 3) (disp : BitVec 4) (ecc : EccErr) (s : State) :=
  run g (fun mem h => h.hop mem e p.toNat (.ld d.toNat k.toNat am.toNat disp) ecc) s
/-- ST. -/
def execSt (g : Nat) (e : Fin 16) (p : BitVec 5) (d : BitVec 5) (k am : BitVec 3) (disp : BitVec 4) (ecc : EccErr) (s : State) :=
  run g (fun mem h => h.hop mem e p.toNat (.st d.toNat k.toNat am.toNat disp) ecc) s
/-- LDR. -/
def execLdr (g : Nat) (e : Fin 16) (p : BitVec 5) (d : BitVec 5) (k am : BitVec 3) (disp : BitVec 4) (ecc : EccErr) (s : State) :=
  run g (fun mem h => h.hop mem e p.toNat (.ldr d.toNat k.toNat am.toNat disp) ecc) s
/-- STR. -/
def execStr (g : Nat) (e : Fin 16) (p : BitVec 5) (d : BitVec 5) (k am : BitVec 3) (disp : BitVec 4) (s : State) :=
  run g (fun mem h => h.hop mem e p.toNat (.str d.toNat k.toNat am.toNat disp)) s
/-- LDL. -/
def execLdl (g : Nat) (e : Fin 16) (p : BitVec 5) (d : BitVec 5) (k am : BitVec 3) (disp : BitVec 4) (ecc : EccErr) (s : State) :=
  run g (fun mem h => h.hop mem e p.toNat (.ldl d.toNat k.toNat am.toNat disp) ecc) s
/-- STL. -/
def execStl (g : Nat) (e : Fin 16) (p : BitVec 5) (d : BitVec 5) (k am : BitVec 3) (disp : BitVec 4) (s : State) :=
  run g (fun mem h => h.hop mem e p.toNat (.stl d.toNat k.toNat am.toNat disp)) s
/-- LDI. -/
def execLdi (g : Nat) (e : Fin 16) (p : BitVec 5) (d : BitVec 5) (imm : BitVec 16) (s : State) :=
  run g (fun mem h => h.hop mem e p.toNat (.ldi d.toNat imm)) s
/-- LDIL. -/
def execLdil (g : Nat) (e : Fin 16) (p : BitVec 5) (d : BitVec 5) (imm : BitVec 16) (s : State) :=
  run g (fun mem h => h.hop mem e p.toNat (.ldil d.toNat imm)) s
/-- LDAC. -/
def execLdac (g : Nat) (e : Fin 16) (p : BitVec 5) (a : BitVec 3) (imm : BitVec 18) (s : State) :=
  run g (fun mem h => h.hop mem e p.toNat (.ldac a.toNat imm)) s
/-- MPY. -/
def execMpy (g : Nat) (e : Fin 16) (p : BitVec 5) (a : BitVec 3) (x y : BitVec 5) (s : State) :=
  run g (fun mem h => h.hop mem e p.toNat (.mpy a.toNat x.toNat y.toNat)) s
/-- MAC. -/
def execMac (g : Nat) (e : Fin 16) (p : BitVec 5) (a : BitVec 3) (x y : BitVec 5) (s : State) :=
  run g (fun mem h => h.hop mem e p.toNat (.mac a.toNat x.toNat y.toNat)) s
/-- MSU. -/
def execMsu (g : Nat) (e : Fin 16) (p : BitVec 5) (a : BitVec 3) (x y : BitVec 5) (s : State) :=
  run g (fun mem h => h.hop mem e p.toNat (.msu a.toNat x.toNat y.toNat)) s
/-- MPYP. -/
def execMpyp (g : Nat) (e : Fin 16) (p : BitVec 5) (a : BitVec 3) (x y : BitVec 5) (m : BitVec 4) (k : BitVec 3) (u : Bool) (s : State) :=
  run g (fun mem h => h.hop mem e p.toNat (.mpyp a.toNat x.toNat y.toNat m.toNat k.toNat u)) s
/-- MACP. -/
def execMacp (g : Nat) (e : Fin 16) (p : BitVec 5) (a : BitVec 3) (x y : BitVec 5) (m : BitVec 4) (k : BitVec 3) (u : Bool) (s : State) :=
  run g (fun mem h => h.hop mem e p.toNat (.macp a.toNat x.toNat y.toNat m.toNat k.toNat u)) s
/-- MSUP. -/
def execMsup (g : Nat) (e : Fin 16) (p : BitVec 5) (a : BitVec 3) (x y : BitVec 5) (m : BitVec 4) (k : BitVec 3) (u : Bool) (s : State) :=
  run g (fun mem h => h.hop mem e p.toNat (.msup a.toNat x.toNat y.toNat m.toNat k.toNat u)) s
/-- MPYS. -/
def execMpys (g : Nat) (e : Fin 16) (p : BitVec 5) (a : BitVec 3) (x y : BitVec 5) (m : BitVec 4) (k : BitVec 3) (u : Bool) (s : State) :=
  run g (fun mem h => h.hop mem e p.toNat (.mpys a.toNat x.toNat y.toNat m.toNat k.toNat u)) s
/-- MACS. -/
def execMacs (g : Nat) (e : Fin 16) (p : BitVec 5) (a : BitVec 3) (x y : BitVec 5) (m : BitVec 4) (k : BitVec 3) (u : Bool) (s : State) :=
  run g (fun mem h => h.hop mem e p.toNat (.macs a.toNat x.toNat y.toNat m.toNat k.toNat u)) s
/-- MSUS. -/
def execMsus (g : Nat) (e : Fin 16) (p : BitVec 5) (a : BitVec 3) (x y : BitVec 5) (m : BitVec 4) (k : BitVec 3) (u : Bool) (s : State) :=
  run g (fun mem h => h.hop mem e p.toNat (.msus a.toNat x.toNat y.toNat m.toNat k.toNat u)) s
/-- TAP. -/
def execTap (g : Nat) (e : Fin 16) (p : BitVec 5) (a i j : BitVec 3) (m : BitVec 5) (c ui uj s_ z : Bool) (s : State) :=
  run g (fun mem h => h.hop mem e p.toNat (.tap a.toNat i.toNat j.toNat m.toNat c ui uj s_ z)) s
/-- ADD. -/
def execAdd (g : Nat) (e : Fin 16) (p : BitVec 5) (a : BitVec 3) (s_ : Bool) (r : BitVec 5) (s : State) :=
  run g (fun mem h => h.hop mem e p.toNat (.add a.toNat s_ r.toNat)) s
/-- SUB. -/
def execSub (g : Nat) (e : Fin 16) (p : BitVec 5) (a : BitVec 3) (s_ : Bool) (r : BitVec 5) (s : State) :=
  run g (fun mem h => h.hop mem e p.toNat (.sub a.toNat s_ r.toNat)) s
/-- ADDL. -/
def execAddl (g : Nat) (e : Fin 16) (p : BitVec 5) (a : BitVec 3) (s_ : Bool) (r : BitVec 5) (s : State) :=
  run g (fun mem h => h.hop mem e p.toNat (.addl a.toNat s_ r.toNat)) s
/-- SUBL. -/
def execSubl (g : Nat) (e : Fin 16) (p : BitVec 5) (a : BitVec 3) (s_ : Bool) (r : BitVec 5) (s : State) :=
  run g (fun mem h => h.hop mem e p.toNat (.subl a.toNat s_ r.toNat)) s
/-- CMP. -/
def execCmp (g : Nat) (e : Fin 16) (p : BitVec 5) (a : BitVec 3) (s_ : Bool) (r : BitVec 5) (s : State) :=
  run g (fun mem h => h.hop mem e p.toNat (.cmp a.toNat s_ r.toNat)) s
/-- NEG. -/
def execNeg (g : Nat) (e : Fin 16) (p : BitVec 5) (a : BitVec 3) (s : State) :=
  run g (fun mem h => h.hop mem e p.toNat (.neg a.toNat)) s
/-- ABS. -/
def execAbs (g : Nat) (e : Fin 16) (p : BitVec 5) (a : BitVec 3) (s : State) :=
  run g (fun mem h => h.hop mem e p.toNat (.abs a.toNat)) s
/-- CLR. -/
def execClr (g : Nat) (e : Fin 16) (p : BitVec 5) (a : BitVec 3) (s : State) :=
  run g (fun mem h => h.hop mem e p.toNat (.clr a.toNat)) s
/-- MIN. -/
def execMin (g : Nat) (e : Fin 16) (p : BitVec 5) (a : BitVec 3) (s_ : Bool) (r : BitVec 5) (s : State) :=
  run g (fun mem h => h.hop mem e p.toNat (.min a.toNat s_ r.toNat)) s
/-- MAX. -/
def execMax (g : Nat) (e : Fin 16) (p : BitVec 5) (a : BitVec 3) (s_ : Bool) (r : BitVec 5) (s : State) :=
  run g (fun mem h => h.hop mem e p.toNat (.max a.toNat s_ r.toNat)) s
/-- SAT. -/
def execSat (g : Nat) (e : Fin 16) (p : BitVec 5) (a : BitVec 3) (s : State) :=
  run g (fun mem h => h.hop mem e p.toNat (.sat a.toNat)) s
/-- AND. -/
def execAnd (g : Nat) (e : Fin 16) (p : BitVec 5) (a : BitVec 3) (s_ : Bool) (r : BitVec 5) (s : State) :=
  run g (fun mem h => h.hop mem e p.toNat (.and a.toNat s_ r.toNat)) s
/-- OR. -/
def execOr (g : Nat) (e : Fin 16) (p : BitVec 5) (a : BitVec 3) (s_ : Bool) (r : BitVec 5) (s : State) :=
  run g (fun mem h => h.hop mem e p.toNat (.or a.toNat s_ r.toNat)) s
/-- XOR. -/
def execXor (g : Nat) (e : Fin 16) (p : BitVec 5) (a : BitVec 3) (s_ : Bool) (r : BitVec 5) (s : State) :=
  run g (fun mem h => h.hop mem e p.toNat (.xor a.toNat s_ r.toNat)) s
/-- ASH. -/
def execAsh (g : Nat) (e : Fin 16) (p : BitVec 5) (a : BitVec 3) (s_ : Bool) (n : BitVec 6) (s : State) :=
  run g (fun mem h => h.hop mem e p.toNat (.ash a.toNat s_ n)) s
/-- LSH. -/
def execLsh (g : Nat) (e : Fin 16) (p : BitVec 5) (a : BitVec 3) (s_ : Bool) (n : BitVec 6) (s : State) :=
  run g (fun mem h => h.hop mem e p.toNat (.lsh a.toNat s_ n)) s
/-- EXP. -/
def execExp (g : Nat) (e : Fin 16) (p : BitVec 5) (a : BitVec 3) (d : BitVec 5) (s : State) :=
  run g (fun mem h => h.hop mem e p.toNat (.exp a.toNat d.toNat)) s
/-- NRM. -/
def execNrm (g : Nat) (e : Fin 16) (p : BitVec 5) (a : BitVec 3) (d : BitVec 5) (s : State) :=
  run g (fun mem h => h.hop mem e p.toNat (.nrm a.toNat d.toNat)) s
/-- SCL. -/
def execScl (g : Nat) (e : Fin 16) (p : BitVec 5) (a : BitVec 3) (x : BitVec 5) (b : BitVec 3) (s : State) :=
  run g (fun mem h => h.hop mem e p.toNat (.scl a.toNat x.toNat b.toNat)) s
/-- PWR. -/
def execPwr (g : Nat) (e : Fin 16) (p : BitVec 5) (a : BitVec 3) (x fall : Bool) (n : BitVec 7) (s : State) :=
  run g (fun mem h => h.hop mem e p.toNat (.pwr a.toNat x fall n.toNat)) s
/-- PCOM. -/
def execPcom (g : Nat) (e : Fin 16) (p : BitVec 5) (x : Bool) (n : BitVec 5) (s : State) :=
  run g (fun mem h => h.hop mem e p.toNat (.pcom x n.toNat)) s
/-! ### Commands of the engines -/

/-- WAIT_RESUME. -/
def execWaitResume (g : Nat) (e : Fin 16) (s : State) :=
  run g (fun _ h => h.waitResume e) s
/-- BREAKPOINT. -/
def execBreakpoint (g : Nat) (e : Fin 16) (s : State) :=
  run g (fun _ h => h.breakpoint e) s
/-- SIGNAL_ARRIVAL. -/
def execSignalArrival (g : Nat) (e : Fin 16) (i : Fin 32) (s : State) :=
  run g (fun m h => h.signalArrival m e i) s
/-- PORT_WRITE_APPLY. -/
def execPortWriteApply (g : Nat) (e : Fin 16) (s : State) :=
  run g (fun _ h => h.portWrite e) s
/-- PORT_COMMIT_APPLY. -/
def execPortCommitApply (g : Nat) (e : Fin 16) (s : State) :=
  run g (fun _ h => h.portCommit e) s
/-- ENGINE_TIMER_EXPIRY. -/
def execEngineTimerExpiry (g : Nat) (e : Fin 16) (s : State) :=
  run g (fun _ h => h.timerExpiry e) s
/-- DOORBELL. -/
def execDoorbell (g : Nat) (e : Fin 16) (v : BitVec 16) (s : State) :=
  run g (fun _ h => h.swWrite (pHYT e) 0x070 fun h => h.doorbell e v) s
/-- HYT_ENABLE. -/
def execHytEnable (g : Nat) (e : Fin 16) (s : State) :=
  run g (fun _ h => h.swWrite (pHYT e) rCTRL fun h => h.hytEnable e) s
/-- HYT_DISABLE. -/
def execHytDisable (g : Nat) (e : Fin 16) (s : State) :=
  run g (fun _ h => h.swWrite (pHYT e) rCTRL fun h => h.hytDisable e) s
/-- HALT_REQ. -/
def execHaltReq (g : Nat) (e : Fin 16) (s : State) :=
  run g (fun _ h => h.swWrite (pHYT e) rCTRL fun h => h.haltReq e) s
/-- HYT_RESUME. -/
def execHytResume (g : Nat) (e : Fin 16) (s : State) :=
  run g (fun _ h => h.swWrite (pHYT e) rCTRL fun h => h.hytResume e) s
/-- HYT_CNT_CLR. -/
def execHytCntClr (g : Nat) (e : Fin 16) (s : State) :=
  run g (fun _ h => h.swWrite (pHYT e) rCTRL fun h => h.hytCntClr e) s
/-- HYT_WATCHDOG. -/
def execHytWatchdog (g : Nat) (e : Fin 16) (s : State) :=
  run g (fun _ h => h.hytWatchdog e) s
/-- HYT_PM_WRITE. -/
def execHytPmWrite (g : Nat) (e : Fin 16) (i : BitVec 14) (v : Word) (s : State) :=
  run g (fun m h => (h.cfgSettle m).pmWrite e i.toNat v) s
/-- HYT_AXES_WRITE. -/
def execHytAxesWrite (g : Nat) (e : Fin 16) (v : Word) (s : State) :=
  run g (fun m h => (h.cfgSettle m).swWrite (pHYT e) 0x04C fun h => h.hytAxesWrite e v) s
/-- SIN_MAP_WRITE. -/
def execSinMapWrite (g : Nat) (e : Fin 16) (i : Fin 32) (v : Word) (s : State) :=
  run g (fun m h => (h.cfgSettle m).swWrite (pHYT e) (0x080 + 4 * i) fun h => h.sinMapWrite e i v) s
/-- WSEL_WRITE. -/
def execWselWrite (g : Nat) (e : Fin 16) (j : Fin 15) (v : Word) (s : State) :=
  run g (fun m h => (h.cfgSettle m).swWrite (pHYT e) (0x100 + 4 * j) fun h => h.wselWrite e j v) s

end Sys2Proof.Machine
end

