-- ==== Sys2Proof/Machine/Commit.lean ====
section
/-! DEFINITION. The page header at work (R59 to R62): COMMIT, SOFT_RESET, LOCK, EVT and ENABLE of every page. -/

namespace Sys2Proof.Machine

/-! ### GO (R61) -/

/-- The check of an AX GO (R288). -/
def Hw.axSetOk (h : Hw) (a : Nat) : Bool :=
  let c := h.shd (axr a 0x040)
  (h.axState a == sOFF || h.axState a == sFAULT) && decide (fld c 15 8 ≤ 135) &&
    (decide (fld c 5 0 < 32) || fld c 5 0 == 0x3F) && h.homeCfgOk a

/-- The check of a CLK GO (R22, R23). -/
def Hw.clkSetOk (h : Hw) : Bool :=
  batchOk (fld (h.shd (ck 0x048)) 18 0) (fld (h.shd (ck 0x04C)) 9 0) && !h.anyEnabled

/-- The check of a PAIR GO (R403). -/
def Hw.pairSetOk (h : Hw) : Bool := h.mode == mBRINGUP || h.mode == mCONFIG

/-- Whether page p's shadow passes the rules of its chapter. CAR and LEG pages have their own GO. -/
def Hw.setOk (h : Hw) (p : Nat) : Bool :=
  match pageBlock p with
  | (.clk, _) => h.clkSetOk
  | (.thm, _) => h.thmSetOk
  | (.save, _) => h.saveSetOk
  | (.prf, _) => h.prfSetOk
  | (.lsh, _) => h.lshSetOk
  | (.stp, _) => h.stpSetOk
  | (.ntm, _) => h.ntmSetOk
  | (.nsw, _) => h.nswSetOk
  | (.can, n) => h.canSetOk n
  | (.acq, _) => h.acqSetOk
  | (.fio, g) => h.fioSetOk g
  | (.pair, _) => h.pairSetOk
  | (.fb, n) => h.fbSetOk n
  | (.ax, a) => h.axSetOk a
  | (.sdm, n) => h.sdmSetOk n
  | (.sys, _) | (.flt, _) | (.pwr, _) | (.sem, _) | (.gdp, _) | (.saf, _) | (.hyt, _) | (.car, _) | (.leg, _)
  | (.none, _) => true

/-- The EVT bit of CFG_REFUSED of a page. -/
def refusedBit (p : Nat) : Nat :=
  match (pageBlock p).1 with
  | .clk | .save => 2
  | .thm => 5
  | _ => 0

/-- COMMIT.GO (R61): the check, then the pending set or a refusal. -/
def Hw.go (h : Hw) (p : Nat) : Hw :=
  match pageBlock p with
  | (.leg, n) => h.legGo n
  | (.car, c) => h.carGo c
  | (.none, _) => h
  | _ => if h.setOk p then h.makePending p else (h.refuseCommit p).evt p (refusedBit p)

/-- Whether a page's COMMIT is mirrored in a pair (R410). -/
def commitMirrored (p : Nat) : Bool :=
  match (pageBlock p).1 with
  | .prf | .lsh | .stp | .ax => true
  | _ => false

/-- A write of COMMIT: VIEW, then GO, then DISCARD. -/
def Hw.commitWrite (h : Hw) (p : Nat) (v : Word) : Hw :=
  let h := h.setBit (ra p rCOMMIT) 8 (bitOf v 8)
  let h := h.when (bitOf v 0) fun h => h.go p
  h.when (bitOf v 1) fun h =>
    let h := h.discard p
    match pageBlock p with
    | (.car, c) => h.setCar c { h.car c with go := {}, goPrev := {} }
    | _ => h

/-- A software write of COMMIT with VIEW as it stands. -/
def Hw.commitBits (h : Hw) (p bits : Nat) : Hw :=
  let v : Word := (h.reg (ra p rCOMMIT) &&& 0x100) ||| BitVec.ofNat 32 bits
  if commitMirrored p then h.swMirror p rCOMMIT v fun h => h.commitWrite p v
  else h.swWrite p rCOMMIT fun h => h.commitWrite p v

/-! ### SOFT_RESET (R59, R61, R46) -/

/-- Whether a SOFT_RESET of a page is ignored: THM and SAF always, and a block that drives an enabled leg (R61, R102,
R105, R362, R453). -/
def Hw.resetRefused (h : Hw) (p : Nat) : Bool :=
  match pageBlock p with
  | (.thm, _) | (.saf, _) => true
  | (.gdp, _) => h.anyEnabled
  | (.leg, n) => h.legEnabled n
  | (.car, c) => (h.axisLegs c).any h.legEnabled
  | (.ax, a) => (h.axisLegs a).any h.legEnabled
  | (.hyt, e) => !(h.hytEnabled e).isEmpty
  | (.sdm, n) => decide (n < 8) && h.dclkUsed n
  | (.pair, _) => h.bit (pr rSTAT) 0 && h.anyEnabled
  | _ => false

/-- A reset of SYS: MODE.CUR and PREV, BOOT_STAT, SEC_VER and READY.BOOT_DONE stand for what is so (log entry 145). -/
def Hw.sysReset (h : Hw) : Hw :=
  let keep := [(0x040, h.reg (sy 0x040) &&& 0x707), (0x044, h.reg (sy 0x044)), (0x048, h.reg (sy 0x048)),
               (rREADY, h.reg (sy rREADY) &&& 0xFC)]
  (h.pageReset pSYS).each keep fun h e => h.setReg (sy e.1) e.2

/-- A reset of CLK (R476): what the rule names as left unchanged stays, and so do the counter FLT_CNT, the time-stamp
EVT_TS and READY.CT_ALIGNED (log entry 145); every other header register but LOCK returns to its reset value (R59). -/
def Hw.clkReset (h : Hw) : Hw :=
  let h := h.each [0x048, 0x04C] fun h o => h.setShd (ck o) (regReset (ck o))
  let h := h.each [rCTRL, rEVT, rEVT_EN, rFLT_CFG, rCOMMIT] fun h o => h.setReg (ck o) (regReset (ck o))
  let h := h.setReg (ck rREADY) (h.reg (ck rREADY) &&& 0xFC)
  { h with pend := h.pend.filter fun e => !inPage pCLK e.1, goMark := tabSet {} pCLK {} h.goMark }

/-- A reset of NTM: the domain counters start at 0 at the nominal rate; CT goes on, and CT_STEPPED with it. -/
def Hw.ntmReset (h : Hw) : Hw :=
  let stepped := h.bit (nt rREADY) 4
  let d : DomS := { baseGrain := h.grain }
  ({ h.pageReset pNTM with ntm := { a := d, b := d } }).setBit (nt rREADY) 4 stepped

/-- A reset of the PAIR page: what its STAT and the block's bits of READY show of pins and link stands (log entry
145). -/
def Hw.pairReset (h : Hw) : Hw :=
  let st := h.reg (pr rSTAT) &&& 0x2F3
  let rd := h.reg (pr rREADY) &&& 0xFC
  let q := h.pair
  let h := (h.pageReset pPAIR).setReg (pr rSTAT) st |>.setReg (pr rREADY) rd
  { h with pair := { txSeq := q.txSeq, rxSeqs := q.rxSeqs, partnerMode := q.partnerMode, partnerSig := q.partnerSig,
                     heard := q.heard, lane0At := q.lane0At, lane1At := q.lane1At, helloAt := q.helloAt,
                     driveFrom := q.driveFrom } }

/-- The function behind a page returns to its start, the page to its reset values (R59). -/
def Hw.blockReset (h : Hw) (m : Mem) (p : Nat) : Hw :=
  match pageBlock p with
  | (.sys, _) => h.sysReset
  | (.clk, _) => h.clkReset
  | (.sem, _) => { h.pageReset pSEM with semAt := [] }
  | (.gdp, _) => h.gdpReset
  | (.prf, _) => { h.pageReset pPRF with prf := [], lastSegs := [] }
  | (.lsh, _) => { h.pageReset pLSH with gears := [], rcs := [], nsw := { h.nsw with sends := [] } }
  | (.stp, _) => { h.pageReset pSTP with stp := [] }
  | (.ntm, _) => h.ntmReset
  | (.nsw, _) => { h.pageReset pNSW with nsw := { cyc := h.nsw.cyc, cycT := h.nsw.cycT } }
  | (.can, n) => { h.pageReset p with can := tabSet {} n {} h.can }
  | (.acq, _) => { h.pageReset pACQ with acq := {} }
  | (.fio, g) => h.fioReset g
  | (.pair, _) => h.pairReset
  | (.save, _) =>
    -- a software save ends without its header; the areas are checked as at a release (R441)
    let h := (h.cutSave).pageReset pSAVE
    let h := { h with save := { h.save with restoring := false } }
    (h.setBit (sv rSTAT) 0 h.save.busy.isSome).saveCheck m
  | (.pwr, _) =>
    let h := h.pageReset pPWR
    { h with sup := { h.sup with testing := false, autoDone := false } }
  | (.hyt, e) => (h.pageReset p).setHyt e {}
  | (.fb, n) => h.fbReset n
  | (.ax, a) => ((h.homeEnd a).pageReset p).setAxis a {}
  | (.car, c) => ((h.pageReset p).recalcPeriod c).setCar c { start := (h.car c).start }
  | (.sdm, n) => h.sdmReset n
  | (.leg, n) =>
    let l := h.leg n
    (h.pageReset p).setLeg n { fSafety := l.fSafety, fHalted := l.fHalted }
  | (.flt, _) => h.pageReset p
  | (.thm, _) | (.saf, _) | (.none, _) => h

/-- A write of CTRL.SOFT_RESET. -/
def Hw.softReset (h : Hw) (m : Mem) (p : Nat) : Hw := if h.resetRefused p then h.evt pSYS 6 else h.blockReset m p

/-! ### LOCK (R62) -/

/-- A write of LOCK from requester r: the two words in turn within 256 PCLK cycles toggle it. -/
def Hw.lockWrite (h : Hw) (r p : Nat) (v : Word) : Hw :=
  match (pageBlock p).1 with
  | .none => h
  | _ =>
    let half := match tabGet none p h.lockSeq with
      | some q => q.req == r && decide (h.cycle ≤ q.cycle + 256)
      | none => false
    let clear : Hw := { h with lockSeq := tabSet none p none h.lockSeq }
    if half && v == 0xA5A5 then clear.setBit (ra p rLOCK) 0 (!h.bit (ra p rLOCK) 0)
    else if v = 0x5A5A then { h with lockSeq := tabSet none p (some ⟨r, h.cycle⟩) h.lockSeq }
    else clear

/-- A software write of LOCK or EVT, which a lock does not stop. -/
def Hw.swOpen (h : Hw) (p off : Nat) (f : Hw → Hw) : Hw :=
  f (h.log p 10 (Config.writeCode p off).toNat (pageInst p) h.wgrain).atWrite

/-! ### ENABLE (R59) -/

/-- A write of CTRL.ENABLE of a page. -/
def Hw.enable (h : Hw) (p : Nat) (on : Bool) : Hw :=
  let plain := h.setBit (ra p rCTRL) 0 on
  match pageBlock p with
  | (.leg, n) => if on then h.legEnable n else h.legOff n
  | (.car, c) => h.carEnable c on
  | (.sdm, n) => h.sdmEnable n on
  | (.fb, n) => plain.fbReconf n
  | (.can, n) => if h.bit (ra p rCTRL) 0 = on then h else plain.canEnable n on
  | (.hyt, e) => if on then h.hytEnable e else h.hytDisable e
  | (.acq, _) => h.acqEnable on
  | (.none, _) => h
  | _ => plain

/-- FUNCTION_READY: the start-up of a function is complete, or its calibration (R46); a leg sets both at once (R81). -/
def Hw.functionReady (h : Hw) (p : Nat) (cal : Bool) : Hw :=
  match (pageBlock p).1 with
  | .none => h
  | .leg => (h.setBit (ra p rREADY) 0 true).setBit (ra p rREADY) 1 true
  | _ => h.setBit (ra p rREADY) (if cal then 1 else 0) true

/-! ### The commands of the family -/

/-- COMMIT_GO. -/
def execCommitGo (g : Nat) (page : Fin 512) (s : State) := run g (fun _ h => h.commitBits page 1) s
/-- COMMIT_DISCARD. -/
def execCommitDiscard (g : Nat) (page : Fin 512) (s : State) := run g (fun _ h => h.commitBits page 2) s
/-- SOFT_RESET. -/
def execSoftReset (g : Nat) (page : Fin 512) (s : State) :=
  run g (fun m h => h.swWrite page rCTRL fun h => h.softReset m page) s
/-- LOCK_WRITE. -/
def execLockWrite (g : Nat) (req : Nat) (page : Fin 512) (v : Word) (s : State) :=
  run g (fun _ h => h.swOpen page rLOCK fun h => h.lockWrite req page v) s
/-- EVT_CLEAR. -/
def execEvtClear (g : Nat) (page : Fin 512) (v : Word) (s : State) :=
  run g (fun _ h => h.swOpen page rEVT fun h => h.evtClear page v) s
/-- PAGE_ENABLE. -/
def execPageEnable (g : Nat) (page : Fin 512) (on : Bool) (s : State) :=
  run g (fun _ h => h.swWrite page rCTRL fun h => h.enable page on) s
/-- FUNCTION_READY. -/
def execFunctionReady (g : Nat) (page : Fin 512) (cal : Bool) (s : State) :=
  run g (fun _ h => h.functionReady page cal) s

end Sys2Proof.Machine
end

