-- ==== Sys2Proof/Machine/Units.lean ====
section
/-! DEFINITION. The profile, line-shaft and axis units at a batch boundary: the release of the records held for it, what
each axis does with its record, and the evaluation of the records of the next boundary (R222, R250, R264, R265, R271). -/

namespace Sys2Proof.Machine

/-! ### Release (R222, R271) -/

/-- The profile of the axis enters ERROR (R273). -/
def Hw.profError (h : Hw) (a : Nat) : Hw :=
  let now := h.pfState (h.axProf a) == 4
  let was := (h.axis a).perr
  let h := h.setAxis a { h.axis a with perr := now }
  if now && !was then h.axFault a 7 (h.f (axr a 0x04C) 5 4) 10 else h

/-- The own record of profile p for instant X, and what its axis makes of it (R264, R265); T is the instant before. -/
def Hw.profRec (h : Hw) (p : Nat) (own : PRec) (T X : Nat) : Hw :=
  match h.axisOfProf p with
  | some a =>
    let h := h.profError a
    (h.setAxis a { h.axis a with own }).axPick a T X
  | none => h.setNxt p own

/-- Every profile's record for this boundary becomes the one released. A gear unit whose master's record has changed
since it was evaluated looks again first, in ascending order (R250, R265). -/
def Hw.unitsShift (h : Hw) (m : Mem) : Hw :=
  let h := h.each (List.range 32) fun h u =>
    if h.bit (gr u 0) 0 && (h.gear u).stale && (h.gear u).on then
      let r := h.gearAgain m u (h.prof (h.gearMaster u)).nxt
      r.1.ownRec (h.f (gr u 0) 31 24) r.2
    else h
  h.each (List.range 136) fun h p => h.setProf p { h.prof p with rel := (h.prof p).nxt }

/-- Profile p has released its record at a boundary in grain B. -/
def Hw.profRelease (h : Hw) (p B : Nat) : Hw := h.acqNote 5 p B (h.prof p).rel.pos.toNat

/-! ### The axis at a boundary (R271, R273, R275, R280, R283) -/

/-- The end of a ramp: the record released has v = 0. -/
def Hw.axRampEnd (h : Hw) (a : Nat) : Hw :=
  let x := h.axis a
  let r := h.axRel a
  match x.ramp with
  | some rp =>
    if !rp.begun || r.vel != 0 || rp.vt != 0 then h
    else
      let stop := ((h.setReg64 (axr a 0x098) r.pos).wallAt a r.pos)
      let stop := stop.setAxis a { stop.axis a with ramp := none, thenDo := .hold }
      match x.thenDo with
      | .hold => stop.setAxState a sHOLDING
      | .fault => stop.axOff a
      | .homeRest => stop.setAxis a { stop.axis a with load := true }
      | .homeStop => match x.home with
        | some hm => stop.homeMove a hm .slow (!hm.neg) (h.homeSlow a)
        | none => stop
      | .moving => h
  | none => h

/-- A search or slow move has covered HOME_DIST (R283). -/
def Hw.homeDist (h : Hw) (a : Nat) : Hw :=
  let d := (h.reg (axr a 0x08C)).toNat
  match (h.axis a).home with
  | some hm =>
    let moving := hm.phase == .search || hm.phase == .slow || hm.phase == .z
    if h.axState a == sHOMING && moving && d != 0 && decide (d ≤ (countDiff (h.axRaw a) hm.start).natAbs) then
      h.homeAbort a 8
    else h
  | none => h

/-- PROT_WAIT at a boundary (R275). -/
def Hw.protWaitAt (h : Hw) (a : Nat) : Hw :=
  if h.bit (axr a rSTAT) 3 then
    if (h.axUsedLegs a).any fun n => (h.leg n).running && decide ((h.axis a).waitAt < (h.leg n).startedAt) then
      h.setBit (axr a rSTAT) 3 false
    else if h.axFb a = 0x3F then h
    else h.setReg64 (axr a 0x098) (h.fbBPos (h.axFb a))
  else h

/-! ### Evaluation (R222, R232, R250) -/

/-- A leader or lone profile evaluated for X, its segments being read first. -/
def Hw.unitLead (h : Hw) (m : Mem) (p T X : Nat) : Hw :=
  let h := h.readGroup m p
  let e := Hw.evalLead p X ((h.prof p).segs.length + 2) h
  e.1.profRec p e.2 T X

/-- A follower. -/
def Hw.unitFollow (h : Hw) (f T X : Nat) : Hw :=
  h.profRec f (h.evalFollow f (h.prof (h.pfLeader f)).nxt) T X

/-- An enabled gear unit. -/
def Hw.unitGear (h : Hw) (m : Mem) (u T X : Nat) : Hw :=
  if h.bit (gr u 0) 0 then
    let mp := h.gearMaster u
    let e := h.gearEval m u (h.prof mp).nxt (h.prof mp).loaded
    e.1.profRec (h.f (gr u 0) 31 24) e.2 T X
  else h

/-- PROFILE_EVAL: every profile for the boundary after T, in the order of R250. -/
def Hw.unitsEval (h : Hw) (m : Mem) (T X : Nat) : Hw :=
  let all := List.range 136
  let h := h.each all fun h p => h.creditReturn p h.grain
  let h := h.each (all.filter fun p => h.pfSrc p == 0) fun h p => h.unitLead m p T X
  let h := h.each (all.filter fun p => h.pfSrc p == 1) fun h p => h.unitFollow p T X
  let h := h.each (all.filter fun p => 2 ≤ h.pfSrc p && !h.gearDrives p) fun h p =>
    h.profRec p (h.gearIdle p) T X
  let h := h.each (List.range 32) fun h u => h.unitGear m u T X
  let h := h.each (List.range 32) Hw.profError
  h.each all fun h p =>
    let x := h.prof p
    if x.once || x.loaded then h.setProf p { x with once := false, loaded := false } else h

/-- The records released at a boundary in grain B, and what each axis makes of its own (R287). -/
def Hw.unitsRelease (h : Hw) (B : Nat) : Hw :=
  let h := h.each (List.range 136) fun h p => h.profRelease p B
  h.each (List.range 32) fun h a =>
    (((h.setBit (axr a rSTAT) 6 (h.axis a).clamped).axRampEnd a).homeDist a).protWaitAt a

/-- Register correction takes its marks, then the step channels plan the batch (R238, R258). -/
def Hw.unitsPlan (h : Hw) : Hw :=
  let h := h.each (List.range 16) fun h r => h.rcBoundary r
  h.each (List.range 32) fun h c => h.stepPlan c (h.prof (h.f (sp c 0) 15 8)).rel

end Sys2Proof.Machine
end

