-- ==== Sys2Proof/Machine/Pair.lean ====
section
/-! DEFINITION. The redundant pair (R403 to R428): claims and ownership, handover and takeover, comparison of batches,
synchronisation of a shadow, the Molad link, and the switches of live insertion. The writes a pair mirrors are applied
in Machine/Bus.lean. -/

namespace Sys2Proof.Machine

/-! ### Status and refusals -/

/-- Change the pair's working state. -/
def Hw.upPair (h : Hw) (f : PairS → PairS) : Hw := { h with pair := f h.pair }
def Hw.pStat (h : Hw) (i : Nat) : Bool := h.bit (pr rSTAT) i
def Hw.setPStat (h : Hw) (i : Nat) (b : Bool) : Hw := h.setBit (pr rSTAT) i b
def Hw.linkUp (h : Hw) : Bool := h.bit (pr rREADY) 2
/-- SYNC_STAT.PHASE. -/
def Hw.syncPhase (h : Hw) : Nat := h.f (pr 0x078) 9 8
/-- SYNC_STAT.ENG. -/
def Hw.syncEng (h : Hw) : Nat := h.f (pr 0x078) 19 16

/-- A refused PAIR.CMD (R429). -/
def Hw.pairRefuse (h : Hw) (reason : Nat) : Hw := (h.setF (pr 0x050) 2 0 reason).evt pPAIR 10

/-- The partner's DRIVE line as sampled (R404). -/
def Hw.setPartnerDrive (h : Hw) (b : Bool) : Hw :=
  { h with pins := { h.pins with partnerDrive := b } }.setPStat 1 b

/-- The end of SYNC and of the run of matches (R413). -/
def Hw.syncLost (h : Hw) : Hw := (h.setPStat 2 false).upPair fun q => { q with matchRun := 0 }

/-- A counted event of PAIR: a lasting declaration clears SYNC (R413, R428). -/
def Hw.pairFlt (h : Hw) (code inst : Nat) : Hw :=
  let r := h.fltEvent pPAIR 10 code inst h.grain
  if r.2 then r.1.syncLost else r.1

/-- A lost claim (R405): a member of a pair enters SHADOW. -/
def Hw.claimLost (h : Hw) : Hw := if h.paired then h.toShadow else h.evt pPAIR 12

/-- The own DRIVE line rises: the module owns the backplane (R404). -/
def Hw.own (h : Hw) : Hw := (h.setPStat 0 true).upPair fun q => { q with claim := none, driveFrom := h.grain }

/-- A claim is won: the DRIVE line rises in the next grain (R405). -/
def Hw.claimWon (h : Hw) : Hw := (h.setPStat 0 true).upPair fun q => { q with claim := none, driveFrom := h.grain + 1 }

/-! ### Claims (R36, R405, R407) -/

/-- PAIR_CLAIM. -/
def Hw.pairClaim (h : Hw) (partner : Bool) : Hw :=
  let h := h.setPartnerDrive partner
  if h.pair.claimDue then
    let h := h.upPair fun q => { q with claimDue := false }
    if partner then h.claimLost
    else (h.moladSend 2 false []).upPair fun q => { q with claim := some (h.ctGrains h.grain), claimAt := h.grain }
  else h

/-- CLAIM_TIMEOUT: CLAIM_T microseconds have passed without a CLAIM of the partner. -/
def Hw.claimTimeout (h : Hw) : Hw :=
  if h.pair.claim.isSome && decide (h.pair.claimAt + 500 * h.f (pr 0x044) 31 16 ≤ h.grain) then h.claimWon else h

/-- DRIVE_CONTENTION: outside a handover position B releases (R407); the event bears the stamp of the pin (R26). -/
def Hw.contention (h : Hw) : Hw :=
  let h := h.setPartnerDrive true
  if h.pStat 0 && !h.pStat 8 && h.pStat 9 then ((h.ownRelease).evtTs pPAIR 13 (h.grain - 3)).toShadow else h

/-! ### Frames taken in (R423, R424) -/

/-- The partner's DRIVE line as the OWN flag of a frame shows it. To a module that owns, outside a handover, no flag shows
a line that has not been sampled high (log entry 164). -/
def Hw.flagDrive (h : Hw) (own : Bool) : Bool := own && (h.pins.partnerDrive || !h.pStat 0 || h.pStat 8)

/-- A valid frame taken in on a lane: the lane is valid, the partner's flags stand. Answers whether this is the first copy
of its SEQ. -/
def Hw.moladTake (h : Hw) (f : MoladHdr) : Hw × Bool :=
  let h := h.setPStat (if f.lane then 5 else 4) true |>.setBit (pr rREADY) 2 true
  let h := h.upPair fun q => if f.lane then { q with lane1At := h.grain } else { q with lane0At := h.grain }
  let first := !h.pair.rxSeqs.contains f.seq.toNat
  if first then
    ((h.setPartnerDrive (h.flagDrive f.own) |>.setPStat 7 f.lever).upPair fun q =>
      { q with rxSeqs := f.seq.toNat :: q.rxSeqs.take 255 }, true)
  else (h, false)

/-- What a frame does where it is the first copy of its SEQ. -/
def Hw.onFrame (h : Hw) (f : MoladHdr) (act : Hw → Hw) : Hw :=
  let r := h.moladTake f
  if r.2 then act r.1 else r.1

/-- MOLAD_CLAIM: the earlier of two claims wins, of equal ones the module with even SLOT_ID (R36). -/
def Hw.moladClaim (h : Hw) (f : MoladHdr) : Hw :=
  match h.pair.claim with
  | some t =>
    let wins := decide (t < f.stamp) || (t == f.stamp && !h.pStat 9)
    if wins then h.claimWon else (h.upPair fun q => { q with claim := none }).claimLost
  | none => h

/-- The grain of the last valid frame of a lane. -/
def PairS.laneAt (q : PairS) (lane : Bool) : Nat := if lane then q.lane1At else q.lane0At

/-- MOLAD_LANE_LOSS: a lane is lost that has taken in no valid frame for LOSS_T microseconds; with both lanes lost the
link is down (R419). -/
def Hw.laneLoss (h : Hw) (lane : Bool) : Hw :=
  if h.grain < h.pair.laneAt lane + 500 * h.f (pr 0x044) 15 0 then h
  else
  let h := h.setPStat (if lane then 5 else 4) false
  if !h.pStat 4 && !h.pStat 5 && h.linkUp then ((h.setBit (pr rREADY) 2 false).evt pPAIR 6).syncLost else h

/-- A HELLO is due: the first, and one 2 µs after each (R423). -/
def Hw.helloDue (h : Hw) : Bool := match h.pair.helloAt with | some t => decide (t + 1000 ≤ h.grain) | none => true

/-- MOLAD_HELLO_SEND (R425). -/
def Hw.helloSend (h : Hw) (m : Mem) : Hw :=
  if !h.helloDue then h
  else
  let h := (h.cfgSettle m).upPair fun q => { q with helloAt := some h.grain }
  h.moladSend 1 false (leBytes 1 h.pins.slotId.toNat ++ leBytes 1 h.mode.toNat ++ leBytes 2 0 ++
    wordBytes (h.reg (pr 0x064)) ++ wordBytes h.safSig ++ leBytes 4 0)

/-- MOLAD_HELLO (R414). -/
def Hw.hello (h : Hw) (m : Mem) (mode : BitVec 3) (hash sig : Word) : Hw :=
  let h := (h.cfgSettle m).setReg (pr 0x068) hash
  let h := h.upPair fun q => { q with partnerMode := mode, partnerSig := sig, heard := true }
  h.when (hash != h.reg (pr 0x064)) fun h => h.evt pPAIR 11

/-! ### Comparison (R411 to R413) -/

/-- The hash of the batch that ends at this boundary (R411). -/
def Hw.batchHash (h : Hw) : Word :=
  let t := 32 * h.grain + 31
  let levels := (List.range 96).foldl (fun n i =>
    let l := h.leg i
    n + ((if l.running && l.pulLevel t then 1 else 0) + (if h.enaAt i t then 2 else 0)) * 4 ^ i) 0
  let cmps := (List.range 96).flatMap fun i => [h.reg (lg i 0x040), h.reg (lg i 0x044)]
  let c := crcRun (~~~0) (leBytes 24 levels ++ octets cmps)
  let c := (List.range 136).foldl (fun c p => crcRun c (octets64 (h.prof p).rel.pos)) c
  ~~~(crcRun c ((List.range 32).map fun a => BitVec.ofNat 8 (h.axState a)))

/-- The own and the partner's hash of one boundary instant meet. -/
def Hw.compare (h : Hw) (own peer : Word) : Hw :=
  if own = peer then
    let n := h.pair.matchRun + 1
    let h := h.upPair fun q => { q with matchRun := n }
    h.when (h.pair.synced && decide (max 1 (h.f (pr 0x040) 15 8) ≤ n)) fun h => h.setPStat 2 true
  else (((h.bump (pr 0x06C) 15 0).evt pPAIR 4).pairFlt 4 0).syncLost

/-- The hashes of a boundary instant that both stand are compared, and both go. -/
def Hw.compareAt (h : Hw) (inst : Nat) : Hw :=
  match h.pair.own.find? (·.1 == inst), h.pair.peer.find? (·.1 == inst) with
  | some o, some p =>
    (h.upPair fun q => { q with own := q.own.filter (·.1 != inst), peer := q.peer.filter (·.1 != inst) }).compare o.2 p.2
  | _, _ => h

/-- COMPARE_SEND at the boundary of instant X. -/
def Hw.compareSend (h : Hw) (X : Nat) : Hw :=
  if h.paired then
    let c := h.batchHash
    let h := (h.setReg (pr 0x05C) c).moladSend 3 false (leBytes 8 X ++ wordBytes c ++ leBytes 4 h.pair.lvl)
    (h.upPair fun q => { q with lvl := 0, own := ((X, c) :: q.own).take 4 }).compareAt X
  else h

/-- From grain `late` after the last boundary on, hashes of the boundaries before it are no longer waited for; the run of
matches ends (R411). -/
def Hw.hashExpire (h : Hw) (late : Nat) : Hw :=
  let last := h.clk.nextB - h.batch
  let old := h.pair.own.filter fun e => decide (e.1 < last)
  if !old.isEmpty && decide (last + late ≤ h.ctGrains h.grain) then
    h.upPair fun q => { q with matchRun := 0, own := q.own.filter fun e => !decide (e.1 < last) }
  else h

/-- PAIR_HASH_TIMEOUT: 2,000 grains after the next boundary. -/
def Hw.hashTimeout (h : Hw) : Hw := h.hashExpire 2000

/-- MOLAD_COMPARE: a partner's hash; one that is taken in later than 2,000 grains after the next boundary, and one for a
boundary no longer waited for, counts neither way. -/
def Hw.moladCompare (h : Hw) (inst : Nat) (hash : Word) : Hw :=
  let h := (h.hashExpire 2001).setReg (pr 0x060) hash
  if h.clk.nextB ≤ inst + h.batch ∨ h.pair.own.any (·.1 == inst) then
    (h.upPair fun q => { q with peer := ((inst, hash) :: q.peer).take 4 }).compareAt inst
  else h

/-- The key of PUL or ENA of a leg. -/
def lvlKey (leg : Nat) (ena : Bool) : Nat := 2 * leg + (if ena then 1 else 0)

/-- LEVEL_MISMATCH (R412): the level at a pin has differed from the computed one since grain `first`, for more than LVL_TOL
grains; a lasting difference counts once. -/
def Hw.levelMismatch (h : Hw) (leg : Nat) (ena pin : Bool) (first : Nat) : Hw :=
  if bitOf (h.legStat leg) (if ena then 3 else 2) = pin ∨ h.grain < first + h.f (pr 0x040) 23 16
      ∨ first < tabGet 0 (lvlKey leg ena) h.pair.lvlFrom then h
  else
  let h := (h.bump (pr 0x06C) 31 16).setReg (pr 0x070) (BitVec.ofNat 32 ((if ena then 256 else 0) + leg))
  ((h.upPair fun q => { q with lvl := q.lvl + 1, lvlFrom := tabSet 0 (lvlKey leg ena) (h.grain + 1) q.lvlFrom }).evt
    pPAIR 5).pairFlt 5 leg

/-! ### Handover and takeover (R417, R418, R420, R427) -/

/-- T_H: the first boundary instant at least 2 × BATCH after grain g. -/
def Hw.handInstant (h : Hw) (g : Nat) : Nat :=
  let want := h.ctGrains g + 2 * h.batch
  h.clk.nextB + (want - h.clk.nextB + h.batch - 1) / h.batch * h.batch

/-- A handover starts on the owner. -/
def Hw.handStart (h : Hw) (g : Nat) : Hw :=
  let tH := h.handInstant g
  let h := (h.setPStat 8 true).upPair fun q => { q with hand := some (tH, true, false) }
  let h := h.each (List.range 96) fun h n => h.setLeg n { h.leg n with handNotch := none }
  h.moladSend 4 false (leBytes 8 tH)

/-- PAIR_HANDOVER. -/
def Hw.handCmd (h : Hw) : Hw :=
  if !h.pStat 0 || h.pair.hand.isSome then h.pairRefuse 1
  else if !h.linkUp then h.pairRefuse 4
  else if h.pair.partnerMode != mSHADOW then h.pairRefuse 1
  else if !h.pStat 2 || h.pStat 7 then h.pairRefuse 3
  else h.handStart h.wgrain

/-- MOLAD_HANDOVER: the partner in SHADOW takes T_H and answers; the owner takes the answer. -/
def Hw.moladHandover (h : Hw) (ack : Bool) (tH : Nat) : Hw :=
  if ack then
    match h.pair.hand with
    | some (t, true, _) =>
      if t = tH ∧ h.ctGrains h.grain + h.batch ≤ t then h.upPair fun q => { q with hand := some (t, true, true) } else h
    | _ => h
  else if h.mode = mSHADOW then
    let h := (h.setPStat 8 true).upPair fun q => { q with hand := some (tH, false, true) }
    let h := h.each (List.range 96) fun h n => h.setLeg n { h.leg n with handNotch := none }
    h.moladSend 4 true (leBytes 8 tH)
  else h

/-- HANDOVER_ABANDON: no ACK by T_H − BATCH. -/
def Hw.handAbandon (h : Hw) : Hw :=
  match h.pair.hand with
  | some (t, true, false) =>
    if t ≤ h.ctGrains h.grain + h.batch then
      ((h.setPStat 8 false).upPair fun q => { q with hand := none }).evt pPAIR 10
    else h
  | _ => h

/-- HANDOVER_TAKE: at T_H the partner enters RUN and raises its DRIVE line. -/
def Hw.handTake (h : Hw) : Hw :=
  match h.pair.hand with
  | some (t, false, _) => if t ≤ h.ctGrains h.grain ∧ h.mode = mSHADOW then h.toRunTakeover.own else h
  | _ => h

/-- Whether the last output has changed owner: DCLK, L2 and L3 at T_H + 8, and every leg. -/
def Hw.handOver (h : Hw) (t : Nat) : Bool :=
  decide (t + 8 ≤ h.ctGrains h.grain) && (List.range 96).all fun n => h.legGiven n t

/-- HANDOVER_DONE: the old owner releases ownership, and enters SHADOW at the next boundary. -/
def Hw.handDone (h : Hw) : Hw :=
  match h.pair.hand with
  | some (t, giving, acked) =>
    if acked && h.handOver t then
      let h := (h.setReg64 (pr 0x054) (BitVec.ofNat 64 t)).evt pPAIR 8
      let h := h.each (List.range 96) fun h n => h.setLeg n { h.leg n with handNotch := none }
      let h := (h.setPStat 8 false).upPair fun q => { q with hand := none }
      if giving then h.ownRelease.upPair fun q => { q with shadowDue := true } else h
    else h
  | none => h

/-- PARTNER_DRIVE_FALL: hot or cold takeover. A loss during a handover is hot (R420): the taking module takes every leg,
and the giving one takes back the legs it has given. -/
def Hw.partnerFall (h : Hw) : Hw :=
  let was := h.pStat 1
  let h := h.setPartnerDrive false
  let hand : Option Bool := match h.pair.hand with
    | some (_, true, _) => if was then some true else none
    | some (_, false, _) => some false
    | none => none
  if h.mode = mSHADOW ∨ hand.isSome then
    let hot := h.pStat 2 || hand.isSome
    let h := (h.toRunTakeover.own.evtTs pPAIR 1 (h.grain - 3)).setReg (pr 0x07C) (BitVec.ofNat 32 h.grain)
    let h := h.each (List.range 96) fun h n =>
      let changed := (h.leg n).handNotch.isSome
      if hand = some (!changed) then h
      else h.setLeg n { h.leg n with enaHold := some h.grain }
    let h := (h.setPStat 8 false).upPair fun q => { q with hand := none }
    if hot then h.evt pPAIR 2
    else (h.each (List.range 32) fun h a =>
      if h.axState a = sOFF ∨ h.axState a = sFAULT then h else h.axOff a).evt pPAIR 3
  else h

/-- LEVER_OPEN (R427); the event bears the stamp of the pin (R26). -/
def Hw.leverOpen (h : Hw) : Hw :=
  let h := ({ h with pins := { h.pins with leverOpen := true } }.setPStat 6 true).evtTs pPAIR 9 (h.grain - 3)
  if h.pStat 0 && h.pair.partnerMode == mSHADOW && h.pStat 2 && !h.pStat 7 && h.linkUp && h.pair.hand.isNone then
    h.handStart h.grain
  else h

/-- LEVER_CLOSE. -/
def Hw.leverClose (h : Hw) : Hw := { h with pins := { h.pins with leverOpen := false } }.setPStat 6 false

/-- PRESENT_N_BREAK (R406): a member of a pair releases ownership. -/
def Hw.presentBreak (h : Hw) : Hw :=
  let h := { h with pins := { h.pins with presentHigh := true } }
  h.when h.paired Hw.ownRelease

/-! ### Leaving SHADOW (R42, R425) -/

/-- PAIR_LEAVE. -/
def Hw.leave (h : Hw) : Hw :=
  if h.mode ≠ mSHADOW then h.pairRefuse 1 else if !h.linkUp then h.pairRefuse 4 else h.moladSend 5 false []

/-- MOLAD_LEAVE. -/
def Hw.moladLeave (h : Hw) (ack : Bool) : Hw :=
  if ack then (if h.mode = mSHADOW then h.upPair fun q => { q with leaveAck := true } else h)
  else if h.pStat 0 then h.moladSend 5 true [] else h

/-! ### Synchronisation (R415) -/

/-- What the owner captures: the registers and working state of the profile, line-shaft, step and axis units, AX_PROT,
and each port's raw and reported position and speed history. -/
structure UnitsS where
  regs : Tab Word := []
  prf : Tab PrfS := []
  lastSegs : Tab (List Seg) := []
  gears : Tab GearS := []
  rcs : Tab RcS := []
  stp : Tab StpS := []
  ax : Tab AxS := []
  prot : Tab ProtS := []
  ports : List (Word64 × Word64 × FbEval × List (Nat × FbEv)) := []
  deriving DecidableEq, Repr, Inhabited

end Sys2Proof.Machine

namespace Sys2Proof.Config

/-- The words of a captured state: R425 gives STATE frames an offset and leaves their layout open. -/
opaque encodeUnits : Machine.UnitsS → List Word

/-- The state a shadow loads from the words received for boundary Bs, its times as the shadow counts them. -/
opaque decodeUnits : Machine.Tab Word → Nat → Machine.UnitsS

end Sys2Proof.Config

namespace Sys2Proof.Machine

/-- Whether a register belongs to the captured units. -/
def unitReg (a : Nat) : Bool :=
  inPage pPRF a || inPage pLSH a || inPage pSTP a || (List.range 32).any (fun n => inPage (pAX n) a) ||
    (decide (ra pGDP 0x800 ≤ a) && decide (a < ra pGDP 0x880))

/-- The state captured in a boundary grain. -/
def Hw.capture (h : Hw) : UnitsS :=
  { regs := h.regs.filter fun e => unitReg e.1, prf := h.prf, lastSegs := h.lastSegs, gears := h.gears, rcs := h.rcs,
    stp := h.stp, ax := h.ax, prot := h.gdp.prot,
    ports := (List.range 32).map fun n =>
      (h.fbRaw n, h.reg64 (fbr n 0x068), (h.fb n).last, (h.fb n).evs) }

/-- STATE frames of the words from an offset on, 256 to a frame. -/
def Hw.sendState : Nat → List Word → Nat → Hw → Hw
  | 0, _, _, h => h
  | n + 1, ws, off, h =>
    if ws.isEmpty then h
    else Hw.sendState n (ws.drop 256) (off + 1024) (h.moladSend 8 false (leBytes 4 off ++ (ws.take 256).flatMap wordBytes))

/-- MIRROR frames that copy n words of memory from an address on. -/
def Hw.sendCopy (h : Hw) (m : Mem) (addr n : Nat) : Hw :=
  h.each (List.range ((n + 255) / 256)) fun h i =>
    h.memCopy (addr + 1024 * i) ((List.range (min 256 (n - 256 * i))).map fun j => h.rd32 m (addr + 1024 * i + 4 * j))

/-- A SYNC frame. -/
def Hw.sendSync (h : Hw) (ack : Bool) (phase bs : Nat) : Hw := h.moladSend 6 ack (leBytes 1 phase ++ leBytes 7 bs)

/-- SYNC_UNITS_CAPTURE: the owner captures its units at the boundary of instant X, sends them and the recipe and cam
memory, and marks completion. -/
def Hw.captureUnits (h : Hw) (m : Mem) (X : Nat) : Hw :=
  if h.pair.captureDue && h.pStat 0 then
    let ws := Config.encodeUnits h.capture
    let h := h.upPair fun q => { q with captureDue := false, captured := some X }
    let h := Hw.sendState (ws.length / 256 + 1) ws 0 h
    (h.sendCopy m 0x28000000 262144).sendSync true 1 X
  else h

/-- The owner starts the copy of an engine's data words. -/
def Hw.copyEngine (h : Hw) (m : Mem) (e : Nat) : Hw :=
  let h := (h.setF (pr 0x078) 9 8 2).setF (pr 0x078) 19 16 e
  (h.upPair fun q => { q with copying := some e }).sendCopy m (dmAddr e 0) 0x3F00

/-- The engine after e in SYNC_ENG, or the first. -/
def Hw.nextEngine (h : Hw) (after : Option Nat) : Option Nat :=
  h.syncEngines.find? fun e => match after with | some k => decide (k < e) | none => true

/-- The owner sends SYNC with ACK at the first boundary after a copy; after the last engine the synchronisation is
complete. -/
def Hw.copyDone (h : Hw) (X : Nat) : Hw :=
  match h.pair.copying with
  | some e =>
    let h := (h.sendSync true 2 X).upPair fun q => { q with copying := none }
    if (h.nextEngine (some e)).isNone then
      (h.setReg (pr 0x078) 0).upPair fun q => { q with synced := true, matchRun := 0 }
    else h
  | none => h

/-- The shadow's synchronisation is complete. -/
def Hw.syncDone (h : Hw) : Hw :=
  let h := ((h.setPStat 3 false).setF (pr 0x078) 9 8 0).evt pPAIR 7
  h.upPair fun q => { q with synced := true, matchRun := 0, started := false }

/-- The shadow goes on to an engine: it stops the engine and asks for its data; after the last it is done. The stop of a
synchronisation is no halt of R53: the axes run on. -/
def Hw.engineNext (h : Hw) (after : Option Nat) : Hw :=
  match h.nextEngine after with
  | some e =>
    let h := ((h.setF (pr 0x078) 9 8 2).setF (pr 0x078) 19 16 e).setBit (hy e rSTAT) 0 false
    (h.upPair fun q => { q with started := false }).sendSync false 2 0
  | none => h.syncDone

/-- PAIR_SYNC. -/
def Hw.syncCmd (h : Hw) (m : Mem) : Hw :=
  let h := h.cfgSettle m
  if h.mode ≠ mSHADOW ∨ h.pair.hand.isSome then h.pairRefuse 1
  else if !h.linkUp then h.pairRefuse 4
  else if !h.pStat 1 then h.pairRefuse 1
  else if h.reg (pr 0x064) ≠ h.reg (pr 0x068) ∨ h.safSig ≠ h.pair.partnerSig then h.pairRefuse 2
  else
    let h := (h.syncLost.setPStat 3 true).setReg (pr 0x078) 0x100
    (h.upPair fun q => { q with synced := false, image := [], behind := none, started := false }).sendSync false 1 0

/-- The shadow loads the units as they stood at Bs; each port's raw position becomes an offset on its own count. -/
def Hw.loadUnits (h : Hw) (bs : Nat) : Hw :=
  let u : UnitsS := Config.decodeUnits h.pair.image bs
  let B := h.grain - (h.ctGrains h.grain - bs)
  let keep := h.regs.filter fun e => !unitReg e.1
  let regs := (u.regs.filter fun e => unitReg e.1).foldl (fun (t : Tab Word) e => tabSet (regReset e.1) e.1 e.2 t) keep
  let h := { h with regs, prf := u.prf, lastSegs := u.lastSegs, gears := u.gears, rcs := u.rcs, stp := u.stp, ax := u.ax,
                    gdp := { h.gdp with prot := u.prot } }
  let h := h.each u.ports.zipIdx fun h e =>
    let n := e.2
    let (raw, rep, last, evs) := e.1
    let x := h.fb n
    let moved : Word64 := BitVec.ofInt 32 (h.fbInt n - (x.posAt B (h.fbInt n)).1) ++ (0 : Word)
    let d := intPart (raw + moved) - h.fbInt n
    let h := (h.setReg64 (fbr n 0x060) (raw + moved)).setReg64 (fbr n 0x068) (rep + moved)
    h.setFb n { x with last, evs, hist := x.hist.map fun (t : Nat × Int × Bool) => (t.1, t.2.1 + d, t.2.2) }
  h.upPair fun q => { q with image := [], behind := some (bs + h.batch),
                             queue := q.queue.filter fun w => w.copy || decide (bs < w.due) }

/-- MOLAD_SYNC: a request taken in by the owner, or its ACK taken in by the shadow. -/
def Hw.moladSync (h : Hw) (m : Mem) (ack : Bool) (phase bs : Nat) : Hw :=
  if ack then
    if h.pStat 3 && phase == 1 && h.syncPhase == 1 then h.loadUnits bs
    else if h.pStat 3 && phase == 2 && h.syncPhase == 2 then h.upPair fun q => { q with started := true }
    else h
  else if h.pStat 0 then
    if phase = 1 then
      (h.syncLost.setReg (pr 0x078) 0x100).upPair fun q =>
        { q with captureDue := true, synced := false, captured := none, copying := none }
    else
      let e := match h.pair.copying with
        | some e => some e
        | none => h.nextEngine (if h.syncPhase = 2 then some h.syncEng else none)
      match e with
      | some e => h.copyEngine m e
      | none => h
  else h

/-- MOLAD_STATE: words of the captured state. -/
def Hw.moladState (h : Hw) (off : Nat) (ws : List Word) : Hw :=
  if h.pStat 3 then
    h.upPair fun q => { q with image := ws.zipIdx.foldl (fun t e => tabIns (off + 4 * e.2) e.1 t) q.image }
  else h

/-- MOLAD_MIRROR: a write to be applied at a CT grain given by its low 32 bits, or a copy of memory. -/
def Hw.moladMirror (h : Hw) (apply : Word) (addr : Nat) (words : List Word) : Hw :=
  let copy := apply = 0xFFFFFFFF
  let now := h.ctGrains h.grain
  let due := ((now : Int) + signed 32 (unsign 32 ((apply.toNat : Int) - now))).toNat
  h.upPair fun q => { q with queue := q.queue ++ [{ due := if copy then now else due, copy, addr, words }] }

/-- SYNC_ENGINE_START: the shadow starts the engine with the data copied (R415, R416). -/
def Hw.engineStart (h : Hw) (e : Nat) : Hw :=
  if h.pStat 3 && h.syncPhase == 2 && h.syncEng == e && h.pair.started then (h.hytStart e).engineNext (some e) else h

/-- At a boundary the engine that waits for its start discards the arrivals before it (R415). -/
def Hw.dropArrivals (h : Hw) : Hw :=
  if h.pStat 3 && h.syncPhase == 2 then
    let x := h.hyt h.syncEng
    h.setHyt h.syncEng { x with epend := x.epend &&& 0xFFFFFFFF00000000 }
  else h

/-- MIRROR_OVERFLOW: the phase restarts, or the synchronisation fails after four retries. -/
def Hw.mirrorOverflow (h : Hw) : Hw :=
  if h.pStat 3 then
    let n := h.f (pr 0x078) 7 0 + 1
    let h := (h.setF (pr 0x078) 7 0 n).upPair fun q => { q with queue := q.queue.filter (!·.copy), image := [], started := false }
    if 4 ≤ n then ((h.setPStat 3 false).setF (pr 0x078) 9 8 0).setF (pr 0x050) 2 0 5
    else
      let h := if h.syncPhase = 1 then h.upPair fun q => { q with behind := none } else h
      h.sendSync false h.syncPhase 0
  else h

/-- MOLAD_SAFETY (R422). -/
def Hw.moladSafety (h : Hw) (stopping : BitVec 8) (soOn : BitVec 4) : Hw :=
  if h.bit (pr 0x040) 1 then { h with saf := { h.saf with peerStop := stopping, peerOn := soOn, peerAge := some 0 } } else h

/-! ### At a boundary -/

/-- The old owner of a completed handover enters SHADOW. -/
def Hw.shadowBoundary (h : Hw) : Hw :=
  if h.pair.shadowDue then (h.upPair fun q => { q with shadowDue := false }).toShadow else h

/-- The commit point of PAIR (R429). -/
def Hw.pairTake (h : Hw) : Hw := h.takePending pPAIR

/-! ### The commands of the family -/

/-- A write of PAIR.CMD. -/
def Hw.pairCmd (h : Hw) (m : Mem) (op : Nat) : Hw :=
  match op with
  | 1 => h.syncCmd m
  | 2 => h.handCmd
  | 3 => h.leave
  | _ => h

/-- PAIR_CLAIM. -/
def execPairClaim (g : Nat) (partnerDrive : Bool) (s : State) := run g (fun _ h => h.pairClaim partnerDrive) s
/-- CLAIM_TIMEOUT. -/
def execClaimTimeout (g : Nat) (s : State) := run g (fun _ h => h.claimTimeout) s
/-- MOLAD_CLAIM. -/
def execMoladClaim (g : Nat) (f : MoladHdr) (s : State) := run g (fun _ h => h.onFrame f fun h => h.moladClaim f) s
/-- DRIVE_CONTENTION. -/
def execDriveContention (g : Nat) (s : State) := run g (fun _ h => h.contention) s
/-- PARTNER_DRIVE_FALL. -/
def execPartnerDriveFall (g : Nat) (s : State) := run g (fun _ h => h.partnerFall) s
/-- MOLAD_COMPARE. -/
def execMoladCompare (g : Nat) (f : MoladHdr) (inst : Nat) (hash _lvl : Word) (s : State) :=
  run g (fun _ h => h.onFrame f fun h => h.moladCompare inst hash) s
/-- PAIR_HASH_TIMEOUT. -/
def execPairHashTimeout (g : Nat) (s : State) := run g (fun _ h => h.hashTimeout) s
/-- LEVEL_MISMATCH. -/
def execLevelMismatch (g : Nat) (leg : Fin 96) (ena pin : Bool) (first : Nat) (s : State) :=
  run g (fun _ h => h.levelMismatch leg ena pin first) s
/-- PAIR_SYNC. -/
def execPairSync (g : Nat) (s : State) := run g (fun m h => h.swWrite pPAIR 0x04C fun h => h.pairCmd m 1) s
/-- SYNC_ENGINE_START. -/
def execSyncEngineStart (g : Nat) (e : Fin 16) (s : State) := run g (fun _ h => h.engineStart e) s
/-- MIRROR_OVERFLOW. -/
def execMirrorOverflow (g : Nat) (s : State) := run g (fun _ h => h.mirrorOverflow) s
/-- PAIR_HANDOVER. -/
def execPairHandover (g : Nat) (s : State) := run g (fun m h => h.swWrite pPAIR 0x04C fun h => h.pairCmd m 2) s
/-- HANDOVER_ABANDON. -/
def execHandoverAbandon (g : Nat) (s : State) := run g (fun _ h => h.handAbandon) s
/-- HANDOVER_TAKE. -/
def execHandoverTake (g : Nat) (s : State) := run g (fun _ h => h.handTake) s
/-- HANDOVER_DONE. -/
def execHandoverDone (g : Nat) (s : State) := run g (fun _ h => h.handDone) s
/-- PAIR_LEAVE. -/
def execPairLeave (g : Nat) (s : State) := run g (fun m h => h.swWrite pPAIR 0x04C fun h => h.pairCmd m 3) s
/-- MOLAD_LANE_LOSS. -/
def execMoladLaneLoss (g : Nat) (lane : Bool) (s : State) := run g (fun _ h => h.laneLoss lane) s
/-- MOLAD_HELLO_SEND. -/
def execMoladHelloSend (g : Nat) (s : State) := run g (fun m h => h.helloSend m) s
/-- MOLAD_HELLO. -/
def execMoladHello (g : Nat) (f : MoladHdr) (_slotId : BitVec 4) (mode : BitVec 3) (cfgHash safSig : Word) (s : State) :=
  run g (fun m h => h.onFrame f fun h => h.hello m mode cfgHash safSig) s
/-- MOLAD_STATE. -/
def execMoladState (g : Nat) (f : MoladHdr) (off : Nat) (words : List Word) (s : State) :=
  run g (fun _ h => h.onFrame f fun h => h.moladState off words) s
/-- MOLAD_MIRROR. -/
def execMoladMirror (g : Nat) (f : MoladHdr) (apply : Word) (addr : Nat) (words : List Word) (s : State) :=
  run g (fun _ h => h.onFrame f fun h => h.moladMirror apply addr words) s
/-- MOLAD_HANDOVER. -/
def execMoladHandover (g : Nat) (f : MoladHdr) (tH : Nat) (s : State) :=
  run g (fun _ h => h.onFrame f fun h => h.moladHandover f.ack tH) s
/-- MOLAD_SAFETY. -/
def execMoladSafety (g : Nat) (f : MoladHdr) (stopping _demands : BitVec 8) (soOn : BitVec 4) (s : State) :=
  run g (fun _ h => h.onFrame f fun h => h.moladSafety stopping soOn) s
/-- MOLAD_FRAME_DISCARD (R424). -/
def execMoladFrameDiscard (g : Nat) (lane : Bool) (s : State) :=
  run g (fun _ h => if lane then h.bump (pr 0x074) 31 16 else h.bump (pr 0x074) 15 0) s
/-- LEVER_OPEN. -/
def execLeverOpen (g : Nat) (s : State) := run g (fun _ h => h.leverOpen) s
/-- LEVER_CLOSE. -/
def execLeverClose (g : Nat) (s : State) := run g (fun _ h => h.leverClose) s
/-- PRESENT_N_BREAK. -/
def execPresentNBreak (g : Nat) (s : State) := run g (fun _ h => h.presentBreak) s
/-- MOLAD_LEAVE. -/
def execMoladLeave (g : Nat) (f : MoladHdr) (s : State) := run g (fun _ h => h.onFrame f fun h => h.moladLeave f.ack) s
/-- MOLAD_SYNC. -/
def execMoladSync (g : Nat) (f : MoladHdr) (phase bs : Nat) (s : State) :=
  run g (fun m h => h.onFrame f fun h => h.moladSync m f.ack phase bs) s

end Sys2Proof.Machine
end

