-- ==== Sys2Proof/Machine/Bus.lean ====
section
/-! DEFINITION. Writes that reach the module over the fabric (R57, R58, R60): what a write to each register does, values
stored otherwise than written, the memories, bus errors, and the mirrored writes of a pair as they come due (R410). -/

namespace Sys2Proof.Machine

/-! ### Values as stored -/

/-- A field in which a written 0 is stored as 1. -/
def zeroAsOne (hi lo : Nat) (v : Word) : Word := if fld v hi lo = 0 then putFld v hi lo 1 else v

/-- A field with a largest value. -/
def atMost (hi lo n : Nat) (v : Word) : Word := putFld v hi lo (min n (fld v hi lo))

/-- A retry register (R97): `tries` is the largest MAX_TRIES of the class. -/
def retryNorm (tries : Nat) (v : Word) : Word :=
  zeroAsOne 31 24 (atMost 18 16 tries (atMost 13 0 10000 (zeroAsOne 13 0 v)))

/-- The value a page stores for a written one. -/
def Hw.storedAs (h : Hw) (p off : Nat) (v : Word) : Word :=
  if off = rFLT_CFG then zeroAsOne 23 16 (zeroAsOne 15 0 v)
  else match pageBlock p with
  | (.gdp, _) =>
    if off = 0x040 then atMost 2 0 4 (zeroAsOne 2 0 v)
    else if off = 0x044 ∨ off = 0x048 then retryNorm 7 v
    else if off = 0x04C then retryNorm 2 v
    else if 0x080 ≤ off ∧ off < 0x280 ∧ off % 0x20 = 4 then zeroAsOne 15 0 v
    else if 0x400 ≤ off ∧ off < 0x580 then atMost 24 16 500 v
    else v
  | (.sdm, n) =>
    if off = 0x060 then
      let top := h.dclkN (h.sdmClk n) / 4 - 1
      atMost 29 24 top (atMost 21 16 top (atMost 13 8 top (atMost 5 0 top v)))
    else if off = 0x05C then (if fld v 9 0 < 16 then putFld v 9 0 16 else v)
    else v
  | (.fb, _) =>
    if off = 0x044 then zeroAsOne 15 0 v
    else if off = 0x0E0 ∨ off = 0x100 then (if fld v 1 0 = 3 then putFld v 1 0 2 else v)
    else v
  | (.prf, _) => if off = 0x088 then (if v = 0 then 1 else v) else v
  | (.lsh, _) => if 0xC00 ≤ off ∧ off % 0x40 = 0x24 then zeroAsOne 7 0 v else v
  | (.ax, _) => if off = 0x050 ∨ off = 0x054 ∨ off = 0x058 ∨ off = 0x088 then (if v = 0 then 1 else v) else v
  | (.ntm, _) =>
    if off = 0x040 then zeroAsOne 15 8 v
    else if off = 0x108 ∨ off = 0x188 then atMost 19 16 4 v
    else if off = 0x10C ∨ off = 0x18C then zeroAsOne 31 24 (zeroAsOne 23 16 v)
    else if off = 0x05C ∨ off = 0x14C ∨ off = 0x1CC then v &&& 0xFFFF
    else v
  | (.nsw, _) => if off = 0x048 then zeroAsOne 23 16 v else if off = 0x0C4 then zeroAsOne 7 0 v else v
  | (.can, _) => if off = 0x068 then zeroAsOne 15 0 v else v
  | (.fio, _) =>
    if 0x040 ≤ off ∧ off < 0x080 then zeroAsOne 31 24 v else if off = 0x0A8 then zeroAsOne 7 0 v else v
  | (.pair, _) => if off = 0x040 then zeroAsOne 15 8 v else v
  | _ => v

/-- A write that only stores, under the access codes of R60. -/
def Hw.store (h : Hw) (a : Nat) (row : RegRow) (v : Word) : Hw :=
  let w := fun n => BitVec.ofNat 32 n
  let put := fun (old : Word) n => (old &&& ~~~(w n)) ||| (v &&& w n)
  let h := if row.rw = 0 then h else h.setReg a (put (h.reg a) row.rw)
  let h := if row.rws = 0 then h else h.setShd a (put (h.shd a) row.rws)
  if row.w1c = 0 then h else h.w1cClear a (w row.w1c) v

/-- A register with no behaviour of its own. A compare that a port write set in this cycle keeps it (R166). -/
def Hw.plainWrite (h : Hw) (p off a : Nat) (v : Word) : Hw :=
  match rowAt p off with
  | some row => if tabGet 0 a h.portCyc = h.cycle + 1 then h else h.store a row (h.storedAs p off v)
  | none => h

/-! ### CTRL -/

/-- The block's own bits of CTRL above bit 2; POS_LOAD stands apart. STEP lets the engine run for its
next instruction. -/
def Hw.ctrlBits (h : Hw) (p : Nat) (v : Word) : Hw :=
  match pageBlock p with
  | (.leg, n) => h.when (bitOf v 3) fun h => h.legCntClr n
  | (.sdm, n) => h.when (bitOf v 3) fun h => h.sdmCal n
  | (.fb, n) => h.when (bitOf v 3) fun h => h.fbCntClr n
  | (.hyt, e) =>
    let h := h.when (bitOf v 3) fun h => h.haltReq e
    let h := h.when (bitOf v 4 && h.hytDebug e) fun h => (h.hytGo e).upHyt e fun x => { x with stepping := true }
    (h.when (bitOf v 5) fun h => h.hytResume e).when (bitOf v 6) fun h => h.hytCntClr e
  | _ => h

/-- HALT_SAFE of a page (R54). -/
def Hw.haltSafeWrite (h : Hw) (p : Nat) (on : Bool) : Hw :=
  if h.bit (ra p rCTRL) 2 = on then h
  else
    let h := h.setBit (ra p rCTRL) 2 on
    match pageBlock p with
    | (.leg, n) => h.when (h.haltSafe p) fun h => h.forceBegin n
    | _ => h

/-- A write of CTRL: an accepted SOFT_RESET leaves the page at its reset values, whatever else was written. -/
def Hw.ctrlWrite (h : Hw) (m : Mem) (p : Nat) (v : Word) : Hw :=
  if bitOf v 1 && !h.resetRefused p then h.blockReset m p
  else
    let h := h.when (bitOf v 1) fun h => h.evt pSYS 6
    let h := h.haltSafeWrite p (bitOf v 2)
    let h := h.when (h.bit (ra p rCTRL) 0 != bitOf v 0) fun h => h.enable p (bitOf v 0)
    h.ctrlBits p v

/-! ### Registers that act -/

/-- A write of PRF.CMD and AXa.CMD. -/
def Hw.prfCmd (h : Hw) (m : Mem) (op : Nat) : Hw :=
  match op with
  | 1 => h.cmdStart m
  | 2 => h.cmdFlush
  | 3 => h.cmdLoad
  | 4 => h.cmdClear
  | _ => h

def Hw.axCmd (h : Hw) (a op : Nat) : Hw :=
  match op with
  | 1 => h.axLater a fun h => h.axEnable a
  | 2 => h.axStopCmd a (h.axStopDec a) false
  | 3 => h.axStopCmd a (h.axQstopDec a) true
  | 4 => h.axLater a fun h => h.axResume a
  | 5 => h.axLater a fun h => h.axHome a
  | 6 => h.axDisable a
  | 7 => h.axLater a fun h => h.axReset a
  | _ => h

/-- A write of a table register of LSH: BASE, N and CYC of a cam table in use stay, else the table is no longer valid
(R256). -/
def Hw.camWrite (h : Hw) (off : Nat) (v : Word) : Hw :=
  let t := (off - 0xB00) / 0x10
  if off % 0x10 = 0xC then h.when (bitOf v 31) fun h => h.camStart t
  else if h.camInUse t then h
  else (h.plainWrite pLSH off (ra pLSH off) v).setBit (cm t 12) 0 false

/-- A transmit slot of a CAN page: while it is WAIT, READY or ACTIVE only its CMD is written (R338). -/
def Hw.canSlotWrite (h : Hw) (n off : Nat) (v : Word) : Hw :=
  let s := (off - 0x200) / 0x60
  if (off - 0x200) % 0x60 = 0x10 then
    match fld v 1 0 with
    | 1 => h.txRequest n s false
    | 2 => h.txRequest n s true
    | 3 => h.txAbort n s
    | _ => h
  else if h.txBusy n s then h
  else h.plainWrite (pCAN n) off (cn n off) v

/-- A register of the latch or compare units of a port, CTRL (R139, R142). -/
def Hw.armWrite (h : Hw) (n off : Nat) (v : Word) : Hw :=
  let k := if off = 0x0A4 ∨ off = 0x0E4 then 0 else 1
  if off < 0x0E0 then
    (h.when (bitOf v 0) fun h => h.latchArm n k h.wgrain).when (bitOf v 1) fun h => h.latchDisarm n k h.wgrain
  else (h.when (bitOf v 0) fun h => h.cmpArm n k h.wgrain).when (bitOf v 1) fun h => h.cmpDisarm n k h.wgrain

/-- NTM's commands: CT_CMD and DOMx_CMD. -/
def Hw.ntmCmd (h : Hw) (off : Nat) (v : Word) : Hw :=
  if off = 0x044 then (h.when (bitOf v 0) fun h => h.stepCmd (bitOf v 1)).when (bitOf v 4) Hw.ctCapture
  else h.when (bitOf v 0) fun h => h.domSet (off == 0x1B0)

def Hw.acqCmd (h : Hw) (m : Mem) (op : Nat) : Hw :=
  match op with
  | 1 => h.acqArm
  | 2 => h.acqStop
  | 3 => h.acqSoft
  | 4 => h.acqRemote m
  | _ => h

/-- What a write of v to a register of page p by requester r does, but for LOCK and EVT. -/
def Hw.regEffect (h : Hw) (m : Mem) (r p off : Nat) (v : Word) : Hw :=
  let plain := h.plainWrite p off (ra p off) v
  if off = rCTRL then h.ctrlWrite m p v
  else if off = rCOMMIT then h.commitWrite p v
  else match pageBlock p with
  | (.sys, _) =>
    if off = 0x040 then h.modeRequest (v.extractLsb' 16 3)
    else if off = 0x048 then h.secAdvance (v.extractLsb' 8 6)
    else if off = 0x060 then (if fld v 1 0 = 1 ∨ fld v 1 0 = 2 then h.flashCmd (fld v 1 0) else h)
    else plain
  | (.clk, _) => if off = 0x040 then h.refWrite v else plain
  | (.sem, _) => if 0x040 ≤ off ∧ off < 0x140 ∧ off % 4 = 0 then h.semWrite r ((off - 0x040) / 4) else plain
  | (.gdp, _) =>
    if off = 0x050 then h.tripClr (v.setWidth 16)
    else if off = 0x054 then h.axisClr v
    else if 0x080 ≤ off ∧ off < 0x280 ∧ off % 0x20 = 0 then
      h.tripCfg ((off - 0x080) / 0x20) fun h => h.plainWrite p off (ra p off) v
    else plain
  | (.prf, _) =>
    if off = 0x040 then (if fld v 7 0 ≤ 135 then plain else h)
    else if off = 0x044 then h.push (fld v 23 16) (fld v 12 0)
    else if off = 0x04C then h.prfCmd m (fld v 2 0)
    else if 0x080 ≤ off ∧ off < 0x0C4 then h.plainWrite p off (prfWin (h.f (ra pPRF 0x040) 7 0) off) v
    else plain
  | (.lsh, _) =>
    if off = 0x0E0 then h.masterFeed m (fld v 2 0)
    else if off = 0x0E4 then (if fld v 9 8 = 1 then h.rejoin (fld v 2 0) else h)
    else if 0x200 ≤ off ∧ off < 0xA00 ∧ off % 0x40 = 0x38 then h.camNext ((off - 0x200) / 0x40) (fld v 11 8)
    else if 0xB00 ≤ off ∧ off < 0xC00 then h.camWrite off v
    else if 0x200 ≤ off ∧ off < 0xA00 ∧ (off % 0x40 = 0x18 ∨ off % 0x40 = 0x1C) then
      h.phTgtWrite ((off - 0x200) / 0x40) (off % 0x40 == 0x1C) v
    else plain
  | (.ax, a) =>
    if off = 0x044 then h.axCmd a (fld v 2 0)
    else if off = 0x0A0 then h.engFault a v
    else if off = 0x0AC then h.legSkip a v
    else plain
  | (.fb, n) =>
    if [0x0A4, 0x0C4, 0x0E4, 0x104].contains off then h.armWrite n off v
    else if off = 0x0A0 ∨ off = 0x0C0 then h.latchCfg n ((off - 0x0A0) / 0x20) fun h => h.plainWrite p off (ra p off) v
    else plain
  | (.sdm, n) => if off = 0x060 then h.spdChange n fun h => h.plainWrite p off (ra p off) v else plain
  | (.ntm, _) => if off = 0x044 ∨ off = 0x130 ∨ off = 0x1B0 then h.ntmCmd off v else plain
  | (.nsw, _) =>
    if off = 0x094 then h.swRet (fld v 12 0)
    else if off = 0x09C then h.swPost m v
    else if off = 0x200 then h.ptSel (fld v 7 0)
    else plain
  | (.can, n) =>
    if off = 0x058 then h.canRd n v
    else if off = 0x06C then h.when (bitOf v 0) fun h => h.canRecover n
    else if 0x200 ≤ off ∧ off < 0x800 then h.canSlotWrite n off v
    else plain
  | (.acq, _) =>
    if off = 0x058 then h.acqCmd m (fld v 2 0) else if off = 0x06C then h.acqRelease (fld v 9 0) else plain
  | (.saf, _) =>
    if off = 0x090 then h.setReg (sf 0x090) (v &&& 0xF)
    else if off = 0x040 ∨ safCfgOffs.contains off then h.safConfig off v
    else plain
  | (.fio, g) =>
    let out := fo g 0x080
    if off = 0x084 then h.setReg out (h.reg out ||| (v &&& 0xFFFF))
    else if off = 0x088 then h.setReg out (h.reg out &&& ~~~(v &&& 0xFFFF))
    else if off = 0x0A0 then h.ovlClr g (v.setWidth 16)
    else plain
  | (.pair, _) => if off = 0x04C then h.pairCmd m (fld v 1 0) else plain
  | (.save, _) =>
    if off = 0x044 then (h.when (bitOf v 0) fun h => h.saveCmd m).when (bitOf v 1) fun h => h.restoreCmd m else plain
  | (.pwr, _) =>
    if off = 0x050 then h.when (bitOf v 0) fun h => h.holdTest (h.f (pw 0x040) 15 0) else plain
  | (.flt, _) => if off = 0x044 then h.logRd v else if off = 0x050 then h.devClr (v.setWidth 3) else plain
  | (.hyt, e) =>
    let h1 := h.cfgSettle m
    if off = 0x04C then h1.hytAxesWrite e v
    else if 0x080 ≤ off ∧ off < 0x100 ∧ off % 4 = 0 then h1.sinMapWrite e ((off - 0x080) / 4) v
    else if 0x100 ≤ off ∧ off < 0x13C ∧ off % 4 = 0 then h1.wselWrite e ((off - 0x100) / 4) v
    else if off = 0x070 then h.doorbell e (v.setWidth 16)
    else plain
  | (.thm, _) | (.stp, _) | (.car, _) | (.leg, _) => plain
  | (.none, _) => h

/-! ### Software writes over the fabric -/

/-- Whether a write is one of those a pair mirrors (R410). POS_LOAD stands apart. -/
def mirrored (p off : Nat) : Bool :=
  match (pageBlock p).1 with
  | .prf => off == rCOMMIT || off == 0x044 || off == 0x04C
  | .lsh => off == rCOMMIT || off == 0x0E0 || off == 0x0E4
  | .stp => off == rCOMMIT
  | .ax => off == rCOMMIT || off == 0x044
  | _ => false

/-- POS_LOAD in a write of an FB page's CTRL (R132, R410). -/
def Hw.posLoadBit (h : Hw) (n : Nat) : Hw :=
  if h.mirrorOn && h.mode == mSHADOW then h.evt pPAIR 10
  else if h.mirrorOn && h.bit (pr rSTAT) 0 then
    h.mirrorPut (0x40000000 + fbr n rCTRL) [putFld (h.reg (fbr n rCTRL)) 4 4 1]
  else h.posLoad n (h.reg (fbr n 0x084)).toInt h.wgrain

/-- A software write of v to the register at offset off of page p, by requester r. -/
def Hw.regWrite (h : Hw) (m : Mem) (r p off : Nat) (v : Word) : Hw :=
  if off = rLOCK then h.swOpen p off fun h => h.lockWrite r p v
  else if off = rEVT then h.swOpen p off fun h => h.evtClear p v
  else if mirrored p off then h.swMirror p off v fun h => h.regEffect m r p off v
  else h.swWrite p off fun h =>
    let h := h.regEffect m r p off v
    match pageBlock p with
    | (.fb, n) => h.when (off == rCTRL && bitOf v 4) fun h => h.posLoadBit n
    | _ => h

/-! ### Memories (R57) -/

/-- Whether a slot of the recipe memory belongs to a valid cam table, which no fabric write reaches (R256). -/
def Hw.camHolds (h : Hw) (slot : Nat) : Bool :=
  (List.range 16).any fun t =>
    h.bit (cm t 12) 0 && decide (h.f (cm t 0) 14 0 ≤ slot) && decide (slot < h.f (cm t 0) 14 0 + h.f (cm t 4) 10 0)

/-- The aligned words a write of n bytes at an address touches, as memory then holds them. -/
def Hw.touched (h : Hw) (m : Mem) (addr n : Nat) : List (Nat × Word) :=
  ((List.range ((addr + n + 3) / 4 - addr / 4)).map fun i => 4 * (addr / 4 + i)).map fun a => (a, h.rd32 m a)

/-- Whether an owner's writes to recipe memory reach the partner (R415). -/
def Hw.recipeMirrored (h : Hw) : Bool := h.mirrorOn && h.bit (pr rSTAT) 0 && (h.pair.captured.isSome || h.pair.synced)

/-- A fabric write of n bytes to a memory, the answer telling whether it ends without a bus error. -/
def Hw.memWrite (h : Hw) (m : Mem) (addr n : Nat) (d : List Byte) : Hw × Bool :=
  let within := fun base size => decide (base ≤ addr) && decide (addr + n ≤ base + size)
  let copies := fun (h : Hw) => h.each (h.touched m addr n) fun h w => h.memCopy w.1 [w.2]
  if within 0x00000000 0x200000 || within 0x20000000 0x200000 || within 0x24000000 0x100000
      || within 0x50030000 0x3D0000 then (h.wrN addr d, true)
  else if within 0x10000000 0x200000 then
    let e := (addr - 0x10000000) / 0x20000
    if (addr - 0x10000000) % 0x20000 < 0x10000 then
      (if h.hytRuns e then h.evt (pHYT e) 3 else (h.cfgSettle m).wrN addr d, true)
    else
      let h := h.wrN addr d
      let h := h.each (h.touched m addr n) fun h w => h.acqBytes w.1 (wordBytes w.2)
      (if h.pair.copying = some e then copies h else h, true)
  else if within 0x28000000 0x100000 then
    let first := (addr - 0x28000000) / 32
    let last := (addr + n - 1 - 0x28000000) / 32
    if h.camHolds first || h.camHolds last then (h, false)
    else
      let h := h.wrN addr d
      (if h.recipeMirrored then copies h else h, true)
  else (h, false)

/-- A write over the fabric of one, two or four bytes by requester r (R57, R58); the answer tells whether it ends without
a bus error. -/
def Hw.busWrite (h : Hw) (m : Mem) (r addr bytes : Nat) (v : Word) : Hw × Bool :=
  if bytes ≠ 1 ∧ bytes ≠ 2 ∧ bytes ≠ 4 then (h, true)
  else if 0x40000000 ≤ addr ∧ addr < 0x40200000 then
    if bytes = 4 ∧ addr % 4 = 0 then
      (h.regWrite m r ((addr - 0x40000000) / 0x1000) (addr % 0x1000) v, true)
    else (h.busErr addr r, false)
  else
    let x := h.memWrite m addr bytes ((wordBytes v).take bytes)
    if x.2 then x else (x.1.busErr addr r, false)

/-! ### Mirrored writes (R410, R415) -/

/-- A write that has come due on both modules: a memory copy, POS_LOAD, a feed the network brought, or a register. -/
def Hw.mirrorDo (h : Hw) (m : Mem) (w : MirrorW) : Hw :=
  if w.copy then
    let d := w.words.flatMap wordBytes
    (h.wrN w.addr d).acqBytes w.addr d
  else
    let p := (w.addr - 0x40000000) / 0x1000
    let off := w.addr % 0x1000
    match pageBlock p, w.words with
    | (.fb, n), _ => h.posLoad n (h.reg (fbr n 0x084)).toInt h.grain
    | _, [] => h
    | _, [v] => h.regEffect m 0x10 p off v
    | _, mm :: seg =>
      let d := seg.flatMap wordBytes
      (h.feed m mm.toNat (leNat ((d.drop 20).take 2)) (leNat (d.take 4)) true fun h i => h.wrN (slotAddr i) d).1

/-- MIRROR_APPLY: the oldest of the queue, where it is due; a module that still catches up with its partner applies
mirrored writes with the batch they belong to (R415). -/
def Hw.mirrorApply (h : Hw) (m : Mem) : Hw :=
  match h.pair.queue with
  | [] => h
  | w :: t =>
    if w.copy || (h.pair.behind.isNone && decide (w.due ≤ h.ctGrains h.grain)) then
      { h with pair := { h.pair with queue := t } }.mirrorDo m w
    else h

/-- REGISTER_WRITE: a write over the fabric. -/
def actRegisterWrite (g : Nat) (req addr bytes : Nat) (v : Word) (s : State) :=
  run g (fun m h => (h.busWrite m req addr bytes v).1) s
/-- MIRROR_APPLY. -/
def execMirrorApply (g : Nat) (s : State) := run g (fun m h => h.mirrorApply m) s

end Sys2Proof.Machine
end

