-- ==== Sys2Proof/Machine/Read.lean ====
section
/-! DEFINITION. Reads over the fabric (R11, R57, R58, R60): what each register reads as, the words a read of a low word
latches, reads that act, and reads of the memories. -/

namespace Sys2Proof.Machine

/-! ### What a register reads as -/

/-- A field of a register as it reads. -/
def Hw.withBit (h : Hw) (a i : Nat) (b : Bool) : Word := putFld (h.reg a) i i (if b then 1 else 0)

/-- Word i of a time value. -/
def timeWord (v i : Nat) : Word := ((timeWords v).drop i).headD 0

/-- The window of PRF at offset off, for the profile SEL names (R241). With no current segment P_SEG and P_SEG_END read
0. -/
def Hw.prfView (h : Hw) (off : Nat) : Word :=
  let q := h.f (ra pPRF 0x040) 7 0
  let x := { h.prof q with cur := (h.prof q).cur.filter fun c => !c.virt }
  let half := fun (v : Word64) (hi : Bool) => if hi then v.extractLsb' 32 32 else v.extractLsb' 0 32
  match off with
  | 0x0A0 => match x.cur with | some s => BitVec.ofNat 32 (s.seq * 65536 + s.off) | none => 0
  | 0x0A4 => match x.cur with | some s => BitVec.ofNat 32 s.fin | none => 0
  | 0x0A8 => match x.cur with | some s => BitVec.ofNat 32 (s.fin / 2 ^ 32) | none => 0
  | 0x0AC => half x.rel.pos false
  | 0x0B0 => half x.rel.pos true
  | 0x0B4 => half (BitVec.ofInt 64 x.rel.vel) false
  | 0x0B8 => half (BitVec.ofInt 64 x.rel.vel) true
  | 0x0BC => half (BitVec.ofInt 64 x.rel.acc) false
  | 0x0C0 => half (BitVec.ofInt 64 x.rel.acc) true
  | _ => h.viewReg (prfWin q off)

/-- NTM's time values, and the rate and status of the domains (R308). -/
def Hw.ntmView (h : Hw) (off : Nat) : Word :=
  let i := off % 0x10 / 4
  if 0x060 ≤ off ∧ off < 0x070 then timeWord (h.ntm.a.at h.grain) i
  else if 0x070 ≤ off ∧ off < 0x080 then timeWord (h.ntm.b.at h.grain) i
  else if 0x080 ≤ off ∧ off < 0x090 then timeWord (h.ctAt h.grain) i
  else if 0x090 ≤ off ∧ off < 0x0A0 then timeWord (h.ctAt (h.reg64 (ra pCLK 0x058)).toNat) i
  else if off = 0x0A0 then BitVec.ofNat 32 h.clk.ctInc
  else if off = 0x0A4 then BitVec.ofNat 32 (h.clk.ctInc / 2 ^ 32)
  else if off = 0x11C ∨ off = 0x19C then h.domRate (off == 0x19C)
  else if off = 0x128 ∨ off = 0x1A8 then h.domStatus (off == 0x1A8)
  else h.viewReg (nt off)

/-- PRF.STAT (R240): some profile runs, some profile is in ERROR. -/
def Hw.prfStat (h : Hw) : Word :=
  let any := fun st => (List.range 136).any fun p => h.pfState p == st
  BitVec.ofNat 32 ((if any 3 then 1 else 0) + if any 4 then 2 else 0)

/-- STP.STAT (R242): some channel is enabled (log entry 40). -/
def Hw.stpStat (h : Hw) : Word := if (List.range 32).any fun c => h.bit (sp c 0) 0 then 1 else 0

/-- CARc.STAT (R82): a valid period, an enabled leg. -/
def Hw.carStat (h : Hw) (c : Nat) : Word :=
  BitVec.ofNat 32 ((if h.period c = 0 then 0 else 1) + if (h.axisLegs c).any h.legEnabled then 2 else 0)

/-- The value of a register as software reads it. -/
def Hw.regView (h : Hw) (m : Mem) (r p off : Nat) : Word :=
  let plain := h.viewReg (ra p off)
  match pageBlock p with
  | (.clk, _) =>
    if off = rSTAT then h.clkStat
    else if off = 0x050 then BitVec.ofNat 32 h.grain
    else if off = 0x054 then BitVec.ofNat 32 (h.grain / 2 ^ 32)
    else plain
  | (.flt, _) => if off = 0x040 then h.logRegs.1 else if off = 0x044 then h.logRegs.2 else plain
  | (.pwr, _) => if off = 0x054 then h.pwrCnt else plain
  | (.sem, _) => if 0x040 ≤ off ∧ off < 0x140 ∧ off % 4 = 0 then h.semView r ((off - 0x040) / 4) else plain
  | (.gdp, _) =>
    if off = rSTAT then h.gdpStat
    else if off = rREADY then h.withBit (gp rREADY) 2 h.gstSync
    else if off = 0x058 then putFld plain 31 16 h.tripInputs
    else plain
  | (.prf, _) =>
    if off = rSTAT then h.prfStat
    else if 0x080 ≤ off ∧ off < 0x0C4 then h.prfView off
    else if 0x800 ≤ off ∧ off < 0xA20 then putFld plain 2 0 (h.pfState ((off - 0x800) / 4))
    else plain
  | (.lsh, _) =>
    if off = rSTAT then h.lshStat
    else if 0xB00 ≤ off ∧ off < 0xC00 ∧ off % 0x10 = 0xC then
      h.withBit (ls off) 2 (h.camInUse ((off - 0xB00) / 0x10))
    else plain
  | (.ntm, _) => h.ntmView off
  | (.nsw, _) => if off = rSTAT then h.withBit (nw rSTAT) 0 h.gclOpen else plain
  | (.can, n) =>
    if off = rSTAT then h.canStat n else if off = 0x05C then h.canFrames n else plain
  | (.saf, _) =>
    if off = 0x044 then h.safSig
    else if 0x400 ≤ off ∧ off < 0x600 ∧ off % 0x20 = 0x1C then BitVec.ofNat 32 (h.rxGraceLeft ((off - 0x400) / 0x20))
    else if 0x400 ≤ off ∧ off < 0x600 ∧ off % 0x20 = 8 then 0
    else if 0x680 ≤ off ∧ off < 0x6C0 ∧ off % 0x10 = 8 then 0
    else plain
  | (.fio, g) => if off = rSTAT then h.fioStat g else plain
  | (.pair, _) => if off = 0x064 then (h.cfgSettle m).reg (pr 0x064) else plain
  | (.hyt, e) =>
    if off = rSTAT then h.hytStat e
    else if off = 0x068 then h.sinArr e
    else if off = 0x070 then h.bellView e
    else plain
  | (.fb, n) => if off = rSTAT then h.fbStat n else plain
  | (.car, c) =>
    if off = rSTAT then h.carStat c
    else if off = 0x050 then BitVec.ofNat 32 (h.carCount c h.grain)
    else if off = 0x054 then h.carWraps c
    else plain
  | (.sdm, n) => if off = rSTAT then h.sdmStat n else plain
  | (.leg, n) =>
    if off = rSTAT then h.legStat n
    else if off = rREADY then h.withBit (lg n rREADY) 2 (h.legAxis n).isSome
    else plain
  | (.stp, _) => if off = rSTAT then h.stpStat else plain
  | (.sys, _) | (.thm, _) | (.save, _) | (.acq, _) | (.ax, _) => plain
  | (.none, _) => 0

/-! ### Multi-word quantities (R11) -/

/-- The offsets a read of a register latches: the high word of a pair, the other words of a time value, what goes with
SDMn.DATA, LEDGER0 and RX_FRAMES. -/
def latches (b : Block) (off : Nat) : List Nat :=
  let pair := fun (l : List Nat) => if l.contains off then [off + 4] else []
  let every := fun (base n stride : Nat) =>
    if base ≤ off ∧ (off - base) % stride = 0 ∧ (off - base) / stride < n then [off + 4] else []
  match b with
  | .clk => pair [0x050, 0x058]
  | .fb => pair [0x054, 0x060, 0x068, 0x070, 0x078, 0x0B0, 0x0D0, 0x0F0, 0x110]
  | .sdm => if off = 0x068 then [0x06C, 0x070] else []
  | .prf => pair [0x090, 0x098, 0x0A4, 0x0AC, 0x0B4, 0x0BC]
  | .stp => every 0x108 32 0x20 ++ every 0x114 32 0x20
  | .lsh =>
    pair [0x0E8] ++ every 0x0A0 8 8 ++ every 0x218 32 0x40 ++ every 0x220 32 0x40 ++ every 0x228 32 0x40 ++
      every 0x230 32 0x40 ++ every 0xA00 32 8 ++ every 0xC0C 16 0x40 ++ every 0xC28 16 0x40
  | .ax => pair [0x098]
  | .ntm =>
    pair [0x0A0, 0x0B0, 0x120, 0x1A0] ++
      (if [0x050, 0x060, 0x070, 0x080, 0x090, 0x0B8, 0x0C8, 0x0D8, 0x140, 0x1C0].contains off then
        [off + 4, off + 8, off + 12] else [])
  | .nsw => pair [0x088, 0x0A8, 0x204] ++ every 0x390 4 8
  | .can => (if off = 0x05C then [0x054, 0x060, rSTAT] else []) ++ every 0x208 16 0x60
  | .acq => pair [0x060] ++ every 0x418 16 0x40
  | .pair => pair [0x054]
  | _ => []

/-- The words a read of a register latches, taken in the same cycle. -/
def Hw.latchWords (h : Hw) (m : Mem) (r p off : Nat) : Hw :=
  h.each (latches (pageBlock p).1 off) fun h o => { h with latch := tabIns (ra p o) (h.regView m r p o) h.latch }

/-- A read of a register by requester r. -/
def Hw.regRead (h : Hw) (m : Mem) (r p off : Nat) : Hw × Word :=
  let b := pageBlock p
  if b.1 = .sem ∧ 0x040 ≤ off ∧ off < 0x140 ∧ off % 4 = 0 then
    let h := h.semRead r ((off - 0x040) / 4)
    (h, h.regView m r p off)
  else if b.1 = .nsw ∧ off = 0x090 then let h := h.swRxPop; (h, h.reg (nw 0x090))
  else if b.1 = .nsw ∧ off = 0x098 then let h := h.swAlloc; (h, h.reg (nw 0x098))
  else if b.1 = .nsw ∧ off = 0x088 then let h := h.ledgerRead; (h, h.reg (nw 0x088))
  else if b.1 = .pair ∧ off = 0x064 then let h := h.cfgSettle m; (h, h.reg (pr 0x064))
  else if latches b.1 off ≠ [] then
    let v := h.regView m r p off
    (h.latchWords m r p off, v)
  else
    match h.latch.find? (fun e => e.1 == ra p off) with
    | some e =>
      -- of CANn.STAT only SHD_FULL is latched (R337)
      ({ h with latch := tabDel e.1 h.latch },
       if b.1 = .can ∧ off = rSTAT then putFld (h.regView m r p off) 0 0 (fld e.2 0 0) else e.2)
    | none => (h, h.regView m r p off)

/-- Whether n bytes at an address lie in a region that can be read. -/
def readable (addr n : Nat) : Bool :=
  let within := fun base size => decide (base ≤ addr) && decide (addr + n ≤ base + size)
  within 0x00000000 0x200000 || within 0x10000000 0x200000 || within 0x20000000 0x200000 || within 0x24000000 0x100000
    || within 0x28000000 0x100000 || within 0x50000000 0x400000 || within 0x60000000 0x2000000 || within 0x70000000 0x10000

/-- A fabric read in the window of an engine's memories: a single-bit error is corrected and counted, an uncorrectable
one ends the read with a bus error (R156). -/
def Hw.hytBusRead (h : Hw) (m : Mem) (r addr : Nat) : Hw × Option Word :=
  let e := (addr - 0x10000000) / 0x20000
  let k := h.eccRead e ((addr - 0x10000000) % 0x20000 ≥ 0x10000) (4 * (addr / 4))
  if k.2 then (k.1.busErr addr r, none) else (k.1, some (k.1.rd32 m addr))

/-- A read of a word over the fabric by requester r; none where it ends with a bus error (R58). -/
def Hw.busRead (h : Hw) (m : Mem) (r addr : Nat) : Hw × Option Word :=
  if 0x40000000 ≤ addr ∧ addr < 0x40200000 then
    if addr % 4 = 0 then
      let x := h.regRead m r ((addr - 0x40000000) / 0x1000) (addr % 0x1000)
      (x.1, some x.2)
    else (h.busErr addr r, none)
  else if readable addr 4 then
    if 0x10000000 ≤ addr ∧ addr < 0x10200000 then h.hytBusRead m r addr else (h, some (h.rd32 m addr))
  else (h.busErr addr r, none)

/-- LATCHED_READ: a read, at its fabric address, of a register that latches others. -/
def Hw.latchedRead (h : Hw) (m : Mem) (addr : Nat) : Hw :=
  let p := (addr - 0x40000000) / 0x1000
  if 0x40000000 ≤ addr ∧ addr < 0x40200000 ∧ addr % 4 = 0 then h.latchWords m 0x10 p (addr % 0x1000) else h

/-- LATCHED_READ. -/
def execLatchedRead (g : Nat) (addr : Nat) (s : State) := run g (fun m h => h.latchedRead m addr) s

end Sys2Proof.Machine
end

