-- ==== Sys2Proof/Machine/Fab.lean ====
section
/-! DEFINITION. The instructions that reach the fabric (R168, R186), the decoder of instruction words (R173, R174), single
steps (R169) and illegal words. -/

namespace Sys2Proof.Machine

/-! ### Decoding (R173) -/

/-- The operation and predicate field of an instruction word; none where OP is not assigned or a zero field is not
zero. -/
def decodeHyt (w : Word) : Option (Nat × HOp) :=
  let f := fun hi lo => fld w hi lo
  let b := fun i => bitOf w i
  let p := f 31 27
  let a := f 20 18
  let if0 := fun (hi lo : Nat) (op : HOp) => if f hi lo = 0 then some (p, op) else none
  let ok := fun (op : HOp) => some (p, op)
  let disp := w.extractLsb' 6 4
  let mem := fun (c : Nat → Nat → Nat → BitVec 4 → HOp) => if0 5 0 (c (f 20 16) (f 15 13) (f 12 10) disp)
  let m3 := fun (c : Nat → Nat → Nat → HOp) => if0 7 0 (c a (f 17 13) (f 12 8))
  let mp := fun (c : Nat → Nat → Nat → Nat → Nat → Bool → HOp) => ok (c a (f 17 13) (f 12 8) (f 7 4) (f 3 1) (b 0))
  let a1 := fun (c : Nat → HOp) => if0 17 0 (c a)
  let a2 := fun (c : Nat → Bool → Nat → HOp) => if0 11 0 (c a (b 17) (f 16 12))
  let sh := fun (c : Nat → Bool → BitVec 6 → HOp) => if0 10 0 (c a (b 17) (w.extractLsb' 11 6))
  match f 26 21 with
  | 0x00 => if0 20 0 .nop
  | 0x01 => if0 20 0 .halt
  | 0x02 => if0 20 0 .wait
  | 0x03 => if0 20 6 (.clre (f 5 0))
  | 0x04 => if0 20 0 .rot
  | 0x05 => if0 16 14 (.br (f 20 17) (f 13 0))
  | 0x06 => if0 16 14 (.call (f 20 17) (f 13 0))
  | 0x07 => if0 20 3 (.ret (f 2 0))
  | 0x08 => ok (.loop (f 20 8) (f 7 0))
  | 0x09 => if0 15 8 (.loopr (f 20 16) (f 7 0))
  | 0x0A => if0 15 12 (.mloop (f 20 16) (f 11 8 + 1) (f 7 0))
  | 0x0B => ok (.mloopi (f 20 12) (f 11 8 + 1) (f 7 0))
  | 0x0C => if0 11 0 (.pset (f 20 17) (f 16 15) (b 14) (f 13 12))
  | 0x0D => if0 6 0 (.mov (f 20 14) (f 13 7))
  | 0x0E => ok (.lda (f 20 16) (w.extractLsb' 0 16))
  | 0x0F => ok (.adda (f 20 16) (w.extractLsb' 0 16))
  | 0x10 => mem .ld
  | 0x11 => mem .st
  | 0x12 => mem .ldr
  | 0x13 => mem .str
  | 0x14 => mem .ldl
  | 0x15 => mem .stl
  | 0x16 => ok (.ldi (f 20 16) (w.extractLsb' 0 16))
  | 0x17 => ok (.ldil (f 20 16) (w.extractLsb' 0 16))
  | 0x18 => m3 .mpy
  | 0x19 => m3 .mac
  | 0x1A => m3 .msu
  | 0x1B => mp .mpyp
  | 0x1C => mp .macp
  | 0x1D => mp .msup
  | 0x1E => mp .mpys
  | 0x1F => mp .macs
  | 0x20 => mp .msus
  | 0x21 => if0 1 0 (.tap a (f 17 15) (f 14 12) (f 11 7) (b 6) (b 5) (b 4) (b 3) (b 2))
  | 0x22 => a2 .add
  | 0x23 => a2 .sub
  | 0x24 => a2 .addl
  | 0x25 => a2 .subl
  | 0x26 => a2 .cmp
  | 0x27 => a1 .neg
  | 0x28 => a1 .abs
  | 0x29 => a1 .clr
  | 0x2A => a2 .min
  | 0x2B => a2 .max
  | 0x2C => a1 .sat
  | 0x2D => a2 .and
  | 0x2E => a2 .or
  | 0x2F => a2 .xor
  | 0x30 => sh .ash
  | 0x31 => sh .lsh
  | 0x32 => if0 12 0 (.exp a (f 17 13))
  | 0x33 => if0 12 0 (.nrm a (f 17 13))
  | 0x34 => if0 9 0 (.scl a (f 17 13) (f 12 10))
  | 0x35 => ok (.ldac a (w.extractLsb' 0 18))
  | 0x36 => if0 8 0 (.pwr a (b 17) (b 16) (f 15 9))
  | 0x37 => if f 20 18 = 0 ∧ f 16 16 = 0 then if0 10 0 (.pcom (b 17) (f 15 11)) else none
  | 0x38 => if0 14 0 (.fld a (f 17 15))
  | 0x39 => if0 14 0 (.fst a (f 17 15))
  | _ => none

/-! ### Fabric loads and stores (R168, R186) -/

/-- FLD: a load waits for earlier stores, an error among them included; a bus error of its own stops the engine. -/
def Hw.fldOp (h : Hw) (m : Mem) (e d a : Nat) : Hw × Flow :=
  let x := h.hyt e
  if x.berr.isSome then (h, .stall)
  else
    match h.busRead m e ((x.ac a).toNat % 2 ^ 32) with
    | (h, some v) => (h.upHyt e fun x => x.setAc d (v.setWidth 56), .next)
    | (h, none) => (h, .stop 8 false)

/-- FST: a posted store; its bus error returns later. -/
def Hw.fstOp (h : Hw) (m : Mem) (e d a : Nat) : Hw × Flow :=
  let x := h.hyt e
  let addr := (x.ac a).toNat % 2 ^ 32
  let r := h.busWrite m e addr 4 ((x.ac d).setWidth 32)
  (if r.2 then r.1 else r.1.upHyt e fun x => { x with berr := some (x.berr.getD (BitVec.ofNat 32 addr)) }, .next)

/-- What any operation does. -/
def HOp.run (m : Mem) (e : Nat) (h : Hw) (op : HOp) : Hw × Flow :=
  match op with
  | .fld d a => h.fldOp m e d a
  | .fst d a => h.fstOp m e d a
  | op => op.effect m e h

/-- Engine e issues any operation. -/
def Hw.hopAny (h : Hw) (m : Mem) (e p : Nat) (op : HOp) : Hw :=
  h.issue e p (op.legal (h.hyt e)) (op.loads (h.hyt e)) fun h => op.run m e h

/-- HYT_FABRIC_BUS_ERROR: the error of a posted store returns. -/
def Hw.fabricError (h : Hw) (e : Nat) (addr : Word) : Hw :=
  if (h.hyt e).berr = some addr then
    let h := h.upHyt e fun x => { x with berr := none }
    if h.hytRuns e then h.hytHalt e 8 else h
  else h

/-! ### Illegal words and single steps (R169, R173) -/

/-- Whether a word is an instruction where the engine stands. -/
def Hw.wordLegal (h : Hw) (e : Nat) (w : Word) : Bool :=
  match decodeHyt w with
  | some (p, op) => predLegal p && op.legal (h.hyt e)
  | none => false

/-- ILLEGAL_INSTRUCTION. -/
def Hw.illegalWord (h : Hw) (e : Nat) (w : Word) : Hw :=
  if h.hytRuns e && !(h.hyt e).waiting && !h.wordLegal e w then h.hytHalt e 5 else h

/-- HYT_STEP: the engine runs the instruction at its PC and halts. -/
def Hw.hytStep (h : Hw) (m : Mem) (e : Nat) : Hw :=
  if h.hytDebug e then
    let h := (h.hytGo e).upHyt e fun x => { x with stepping := true }
    match decodeHyt (h.rd32 m (pmAddr e (h.hyt e).pc.toNat)) with
    | some (p, op) => if (h.hyt e).waiting then h else h.hopAny m e p op
    | none => h.hytHalt e 5
  else h

/-- FLD. -/
def execFld (g : Nat) (e : Fin 16) (p : BitVec 5) (d a : BitVec 3) (s : State) :=
  run g (fun m h => h.hopAny m e p.toNat (.fld d.toNat a.toNat)) s
/-- FST. -/
def execFst (g : Nat) (e : Fin 16) (p : BitVec 5) (d a : BitVec 3) (s : State) :=
  run g (fun m h => h.hopAny m e p.toNat (.fst d.toNat a.toNat)) s
/-- ILLEGAL_INSTRUCTION. -/
def execIllegalInstruction (g : Nat) (e : Fin 16) (w : Word) (s : State) := run g (fun _ h => h.illegalWord e w) s
/-- HYT_FABRIC_BUS_ERROR. -/
def execHytFabricBusError (g : Nat) (e : Fin 16) (addr : Word) (s : State) := run g (fun _ h => h.fabricError e addr) s
/-- HYT_STEP: a write of CTRL.STEP. -/
def execHytStep (g : Nat) (e : Fin 16) (s : State) :=
  run g (fun m h => h.swWrite (pHYT e) rCTRL fun h => h.hytStep m e) s

end Sys2Proof.Machine
end

