-- ==== Sys2Proof/Machine/Kern.lean ====
section
/-! DEFINITION. The standard loop kernel (R188 to R216): its words in data memory, the checks of a bank (R194 to R198), the
position and velocity loops (R199 to R201), the current update of each axis type (R202 to R208), its checks and faults
(R209), and the calls of hooks (R215). The kernel's private words are held as `KernS`. -/

namespace Sys2Proof.Config

/-- The private state the kernel resumes from in an engine whose data memory was copied from a pair's owner (R416), by its
private words 0x0340 to 0x04FF of the slot: their layout is the kernel's own. -/
opaque kernelPrivate : List Word → Machine.KernS

end Sys2Proof.Config

namespace Sys2Proof.Machine

/-! ### Numbers -/

/-- 1 in per-unit values. -/
def kOne : Int := 2 ^ 47

/-- A quotient as the kernel forms it: it may round either way (log of free values). -/
def kq (num : Int) (den : Nat) : Int :=
  if den = 0 then Config.kernelDivZero num
  else num / den + (if num % (den : Int) ≠ 0 ∧ Config.kernelRoundsUp num den then 1 else 0)

/-- A quotient by a signed number. -/
def kdiv (num den : Int) : Int := if den < 0 then kq (-num) den.natAbs else kq num den.natAbs

/-- A product of per-unit values. -/
def kmul (a b : Int) : Int := kq (a * b) (2 ^ 47)

/-- A square root. -/
def kroot (n : Nat) : Int :=
  let r := isqrt n
  (r : Int) + (if r * r ≠ n ∧ Config.kernelRoundsUp n 0 then 1 else 0)

/-- A value limited to ±m. -/
def ksat (m v : Int) : Int := clip (-m) m v

/-- Q1.23, UQ and G words (R195) as per-unit values. -/
def kQ (w : Word) : Int := signed 24 (fld w 23 0) * 2 ^ 24
def kUQ (w : Word) : Int := (fld w 23 0 : Int) * 2 ^ 23
def kG (w : Word) : Int := signed 24 (fld w 23 0) * 2 ^ (24 + fld w 28 24)

/-- A per-unit value as a Q1.23 word. -/
def kWord (v : Int) : Word := BitVec.ofInt 32 (clip (-(2 : Int) ^ 23) ((2 : Int) ^ 23 - 1) (kq v (2 ^ 24)))

def kSin (t : Nat) : Int := Config.kernelSin t * 2 ^ 24
def kCos (t : Nat) : Int := Config.kernelCos t * 2 ^ 24

/-! ### Words and banks -/

/-- An axis slot of an engine, with the bank in view. -/
structure KAx where
  e : Nat
  s : Nat
  bank : Nat
  deriving DecidableEq, Repr

/-- The first word of the axis block and of the bank (R188, R193). -/
def KAx.block (x : KAx) : Nat := 0x0100 + 0x0400 * x.s
def KAx.base (x : KAx) : Nat := 0x0140 + 0x0400 * x.s + 0x0100 * x.bank

def Hw.kern (h : Hw) (x : KAx) : KernS := tabGet {} (2 * x.e + x.s) h.kerns
def Hw.setKern (h : Hw) (x : KAx) (k : KernS) : Hw := { h with kerns := tabSet {} (2 * x.e + x.s) k h.kerns }

/-- Field `off` of the bank. -/
def Hw.kb (h : Hw) (m : Mem) (x : KAx) (off : Nat) : Word := h.dmRd m x.e (x.base + off)
def Hw.kbN (h : Hw) (m : Mem) (x : KAx) (off : Nat) : Nat := (h.kb m x off).toNat

def Hw.kType (h : Hw) (m : Mem) (x : KAx) : Nat := h.kbN m x 0x00
def Hw.kAxis (h : Hw) (m : Mem) (x : KAx) : Nat := h.kbN m x 0x01 % 32
def Hw.kDouble (h : Hw) (m : Mem) (x : KAx) : Bool := h.kbN m x 0x05 == 1
def Hw.kBridges (h : Hw) (m : Mem) (x : KAx) : List Nat := bridgesOf (h.reg (cr (h.kAxis m x) 0x044))
def Hw.kLegs (h : Hw) (m : Mem) (x : KAx) : List Nat := legsOf (h.kBridges m x)
def Hw.kPeriod (h : Hw) (m : Mem) (x : KAx) : Nat := h.period (h.kAxis m x)

/-- TYPE 2 without feedback: the set-point takes the place of the feedback (R199, R207). -/
def Hw.kOpen (h : Hw) (m : Mem) (x : KAx) : Bool := h.kType m x == 2 && h.kbN m x 0x03 == 0xFF

/-- The places, in ascending leg number, of the legs that carry a measured current (R191). -/
def Hw.kMeasured (h : Hw) (m : Mem) (x : KAx) : List Nat :=
  match h.kType m x with
  | 2 => [0, 3]
  | 3 => [0]
  | _ => List.range (3 * (h.kBridges m x).length)

/-- The data word of word w of input slot i. -/
def slotWord (i w : Nat) : Nat := 0x3F00 + 8 * i + w

/-- AXSTAT (R193). -/
def KernS.axstat (k : KernS) : Word :=
  let b := fun (c : Bool) i => if c then 2 ^ i else 0
  BitVec.ofNat 32 (k.st + k.bank * 16 + b k.vlim 5 + b k.ilim 6 + b k.dcl 7 + b k.enabled 8 + b k.held 9 + b k.bankRef 10
    + k.code * 65536)

/-- The slot's state as its AXSTAT shows it. -/
def Hw.kShow (h : Hw) (x : KAx) : Hw := h.dmWr x.e (x.block + 1) (h.kern x).axstat

/-! ### The checks of a bank (R194, R196, R198, R212 to R214) -/

/-- A bank whose fields keep their formats and ranges (code 1); `mode`: AXCTL.MODE. -/
def Hw.kRanges (h : Hw) (m : Mem) (x : KAx) (mode : Nat) : Bool :=
  let w := h.kb m x
  let n := h.kbN m x
  let isQ := fun o => w o == ((w o).extractLsb' 0 24).signExtend 32
  let isU := fun o => fld (w o) 31 24 == 0
  let isG := fun o => fld (w o) 31 28 == 0
  let ge := fun lo hi o => decide (lo ≤ n o) && decide (n o ≤ hi)
  let pos := fun o => isQ o && decide (0 < kQ (w o))
  let ty := n 0x00
  decide (ty ≤ 3) && decide (n 0x01 ≤ 31) && decide (n 0x02 ≤ 111)
    && (decide (n 0x03 ≤ 31) || (n 0x03 == 0xFF && decide (2 ≤ ty)))
    && (decide (n 0x04 ≤ 135) || (n 0x04 == 0xFF && decide (mode ≤ 1)))
    && decide (n 0x05 ≤ 1) && decide (n 0x06 < (h.kBridges m x).length)
    && ge 1 200 0x08 && ge 1 (2 ^ 31) 0x09 && ge 1 (2 ^ 31) 0x0B && decide (n 0x0E ≤ 65535) && decide (n 0x0F ≤ 65535)
    && [0x10, 0x11, 0x13, 0x14, 0x15, 0x1C, 0x21, 0x22].all isG
    && [0x12, 0x16, 0x1A, 0x1B, 0x1F, 0x20, 0x24, 0x3C].all isU
    && [0x18, 0x19, 0x40, 0x41, 0x42].all isQ && (List.range 20).all (fun i => isQ (0x27 + i))
    && [0x17, 0x1E, 0x23, 0x3E].all pos && decide (kQ (w 0x19) ≤ 0) && decide (0 ≤ kQ (w 0x40))
    && decide (8 * kUQ (w 0x20) ≤ kOne)
    && ge 1 10000000 0x1D && decide (1 ≤ n 0x25) && decide (n 0x26 ≤ 4) && decide (n 0x3D < 2 ^ 23) && ge 1 255 0x3F
    && decide (n 0x43 ≤ 15) && (List.range 187).all (fun i => w (0x45 + i) == 0)

/-- The other slot of an engine, with its bank in force. -/
def Hw.kOther (h : Hw) (x : KAx) : KAx :=
  let o : KAx := { x with s := 1 - x.s }
  { o with bank := (h.kern o).bank }

def Hw.kRunning (h : Hw) (x : KAx) : Bool := (h.kern x).st == 2

/-- The channels of an axis: by input place, the measured legs' and CH_VDC's. -/
def Hw.kChannels (h : Hw) (m : Mem) (x : KAx) : List Nat :=
  ((h.kMeasured m x).map fun j => (h.kLegs m x).getD j 0) ++ [h.kbN m x 0x02 % 128]

/-- Bridges, period, reload, alignment and skipped legs suited to TYPE and UPDATE (code 3). -/
def Hw.kSuited (h : Hw) (m : Mem) (x : KAx) : Bool :=
  let a := h.kAxis m x
  let g := (h.kBridges m x).length
  let ty := h.kType m x
  let dbl := h.kDouble m x
  let point := if dbl then 2 else 0
  let aligned := fun (n : Nat) (ok : Nat → Bool) =>
    h.bit (sd n 0x044) 0 && h.f (sd n 0x044) 25 24 == point && ok (h.f (sd n 0x044) 20 16)
  let mapped := fun i => h.f (hy x.e (0x080 + 4 * i)) 26 24 == 1
  let count := match ty with | 2 => g == 2 | 3 => g == 1 | _ => decide (1 ≤ g) && decide (g ≤ 4)
  let legs := (h.kMeasured m x).all fun j =>
    !mapped (16 * x.s + j) || aligned (h.f (hy x.e (0x080 + 4 * (16 * x.s + j))) 7 0)
      (fun b => b == (h.kBridges m x).getD (j / 3) 32)
  let vdc := aligned (h.kbN m x 0x02) fun b => (h.kBridges m x).contains b
  let skip := match ty with | 2 => h.bit (axr a 0x0AC) 2 && h.bit (axr a 0x0AC) 5 | 3 => h.bit (axr a 0x0AC) 2 | _ => true
  count && h.period a != 0 && h.carReload a == (if dbl then 2 else 0) && (!dbl || (g == 1 && ty != 2)) && legs && vdc && skip

/-- Input slots mapped as R189 gives them (code 4). -/
def Hw.kMapped (h : Hw) (m : Mem) (x : KAx) : Bool :=
  let kind := fun i => h.f (hy x.e (0x080 + 4 * i)) 26 24
  let inst := fun i => h.f (hy x.e (0x080 + 4 * i)) 7 0
  let legs := h.kLegs m x
  let opt := fun i k off => if h.kbN m x off = 0xFF then kind i == 0 else kind i == k && inst i == h.kbN m x off
  let s := 16 * x.s
  (List.range 12).all (fun j =>
      if (h.kMeasured m x).contains j then kind (s + j) == 1 && inst (s + j) == legs.getD j 0 else kind (s + j) == 0)
    && kind (s + 12) == 1 && inst (s + 12) == h.kbN m x 0x02 && opt (s + 13) 2 0x03 && opt (s + 14) 3 0x04 && kind 15 == 4

/-- Critical and deferred cycles of an update (R212). -/
def Hw.kCost (h : Hw) (m : Mem) (x : KAx) : Nat × Nat :=
  let g := (h.kBridges m x).length
  match h.kType m x with
  | 0 => (650 + 130 * (g - 1), 300 + 50 * (g - 1))
  | 1 => (770 + 130 * (g - 1), 430 + 50 * (g - 1))
  | 2 => (420, 160)
  | _ => (260, 110)

/-- The slots of an engine that run an axis, slot x taken with the bank in view. -/
def Hw.kActive (h : Hw) (x : KAx) : List KAx := if h.kRunning (h.kOther x) then [x, h.kOther x] else [x]

/-- LAT (R213) in nanoseconds, for the axes given. -/
def Hw.kLat (h : Hw) (m : Mem) (xs : List KAx) : Nat :=
  let hook := match xs with | x :: _ => (h.hyt x.e).hooks.cyc.toNat | [] => 0
  24 + max 150 hook + ((xs.map fun x => (h.kCost m x).1).foldl (· + ·) 0)

/-- SPD of a channel in the band in force. -/
def Hw.kSpd (h : Hw) (n : Nat) : Nat := h.f (sd n 0x060) (8 * h.band + 5) (8 * h.band)

/-- The commit window check (R214, code 5), in quarters of a nanosecond. -/
def Hw.kWindow (h : Hw) (m : Mem) (x : KAx) : Bool :=
  let lat := h.kLat m (h.kActive x)
  (h.kChannels m x).all fun n =>
    let L := 3 * h.f (sd n 0x040) 8 0 - 2
    let N := h.dclkN (h.sdmClk n)
    decide ((L * N : Int) + 4 * (-2 * signed 8 (h.f (sd n 0x04C) 7 0) + 2 * (h.kSpd n + 1) + 24 + lat + 16)
      ≤ 4 * h.kPeriod m x)

/-- The predicted load in cycles per second, as a fraction (R212). -/
def Hw.kLoad (h : Hw) (m : Mem) (e : Nat) (xs : List KAx) : Nat × Nat :=
  let sum := fun (f : KAx → Nat) => (xs.map f).foldl (· + ·) 0
  let P := fun y => max 1 (h.kPeriod m y)
  let den := (xs.map P).foldl (· * ·) (max 1 h.batch)
  let k := (h.hyt e).hooks
  let hook := fun (a : Word) => if a = 0 then 0 else k.cyc.toNat
  let upd := sum fun y =>
    let c := h.kCost m y
    let rate := if h.kDouble m y then 1000000000 else 500000000
    rate * (c.1 + c.2 + hook k.cur) * (den / P y)
  let task := sum fun y => 1400 + (if h.kbN m y 0x26 = 0 then 0 else 14 + 10 * h.kbN m y 0x26)
  (upd + 500000000 * (500 + task + hook k.batch) * (den / max 1 h.batch), den)

/-- The first failing check of R194, 0 where none fails. -/
def Hw.kCheck (h : Hw) (m : Mem) (x : KAx) (mode : Nat) : Nat :=
  let a := h.kAxis m x
  let load := h.kLoad m x.e (h.kActive x)
  if !h.kRanges m x mode then 1
  else if !h.ownsAxis x.e a || (h.kRunning (h.kOther x) && h.kAxis m (h.kOther x) == a) then 2
  else if !h.kSuited m x then 3
  else if !h.kMapped m x then 4
  else if !h.kWindow m x then 5
  else if 900 * 1000000 * load.2 < load.1 then 6
  else if h.reg (hy x.e 0x050) = 0 then 7
  else 0

/-! ### Starting, stopping and housekeeping -/

/-- The control block after a row of the kernel (R192): KVER, KSTAT, LOAD_PRED and LAT_BOUND. -/
def Hw.kHouse (h : Hw) (m : Mem) (e : Nat) (late : Bool) : Hw :=
  let xs := ([0, 1].map fun s => ({ e, s, bank := (h.kern ⟨e, s, 0⟩).bank } : KAx)).filter h.kRunning
  let load := h.kLoad m e xs
  let heavy := decide (900 * 1000000 * load.2 < load.1)
  let late := late || bitOf (h.dmRd m e 0x0001) 2
  let stat := 1 + (if heavy then 2 else 0) + (if late then 4 else 0)
  let h := (h.dmWr e 0x0000 ((2 : BitVec 16) ++ Config.kernelMinor)).dmWr e 0x0001 (BitVec.ofNat 32 stat)
  let pred := (load.1 + 1000000 * load.2 - 1) / (1000000 * load.2)
  (h.dmWr e 0x0002 (BitVec.ofNat 32 pred)).dmWr e 0x0003 (BitVec.ofNat 32 (if xs.isEmpty then 0 else h.kLat m xs))

/-- Whether a hook the kernel called has returned. -/
def Hw.kFree (h : Hw) (e : Nat) : Bool :=
  match (h.hyt e).hookAt with
  | some _ => (h.hyt e).pc == Config.kernelReturn
  | none => true

/-- A hook ran, or runs, longer than HOOK_CYC (R215). -/
def Hw.kHookOver (h : Hw) (e : Nat) : Bool :=
  match (h.hyt e).hookAt with
  | some t =>
    let till := if h.kFree e then (h.hyt e).retAt else h.grain
    decide ((h.hyt e).hooks.cyc.toNat < 2 * (till - t))
  | none => false

/-- What the registers hold when a hook is called, but for what R215 gives: the spec does not say. -/
def HytS.afterKernel (x : HytS) (n : Nat) : HytS :=
  let w := fun i => Config.freeWord (n + i)
  let x := (List.range 32).foldl (fun (x : HytS) i => x.setD i ((w i).setWidth 24)) x
  let x := (List.range 8).foldl (fun (x : HytS) i => x.setAc i ((w (32 + 2 * i)).setWidth 24 ++ w (33 + 2 * i))) x
  let x := (List.range 7).foldl (fun (x : HytS) i => x.setIx i ((w (48 + i)).setWidth 16)) x
  let x := (List.range 8).foldl (fun (x : HytS) i => { x with md := tabSet 0 i ((w (56 + i)).setWidth 16) x.md }) x
  let x := (List.range 8).foldl (fun (x : HytS) i =>
    { x with ln := tabSet 0 i (if 4 ≤ i ∧ i ≤ 6 then 0 else (w (64 + i)).setWidth 16) x.ln }) x
  { x with sr := w 72 &&& 0x31F, pg := (w 73).setWidth 4, ps := 0, loops := [] }

/-- A hook is called (R215): the slot number, or 0xFF, in D8, after an update the axis
block in IX4, the return in IX7. -/
def Hw.kCall (h : Hw) (e : Nat) (c : HookCall) : Hw :=
  let n := h.free
  let h := h.upHyt e fun x =>
    let y := (x.afterKernel n).setD 8 c.d8
    let y := match c.block with | some b => y.setIx 4 (BitVec.ofNat 16 b) | none => y
    let y := y.setIx 7 (Config.kernelReturn.setWidth 16)
    { y with pc := c.addr.setWidth 14, waiting := false, hookAt := some h.grain }
  { h with free := n + 74 }

/-- A hook is to be called, where the kernel found one at the last batch boundary (R192). -/
def Hw.kOwe (h : Hw) (e : Nat) (c : HookCall) : Hw :=
  if c.addr = 0 then h else h.upHyt e fun x => { x with owed := x.owed ++ [c] }

/-- The bank in force of each slot of an engine. -/
def Hw.kSlots (h : Hw) (e : Nat) : List KAx :=
  [0, 1].map fun s => { e, s, bank := (h.kern ⟨e, s, 0⟩).bank }

/-- The input slot of the trigger bridge's conversion (R196, R202). -/
def Hw.kTrigger (h : Hw) (m : Mem) (x : KAx) : Nat := 16 * x.s + 3 * h.kbN m x 0x06

/-- A current update is due: the conversion of a running axis's trigger bridge is pending. -/
def Hw.kDue (h : Hw) (m : Mem) (x : KAx) : Bool :=
  h.kRunning x && (h.hyt x.e).epend.getLsbD (h.kTrigger m x)

/-- The hooks that are owed come after every current update that is due (R211): the first of them is called. -/
def Hw.kServe (h : Hw) (m : Mem) (e : Nat) : Hw :=
  if (h.kSlots e).any (h.kDue m) then h
  else
    match (h.hyt e).owed with
    | c :: r => (h.upHyt e fun x => { x with owed := r }).kCall e c
    | [] => h

/-- A step of the kernel: it waits for a hook to return, and notes one that runs too long; what it serves comes before the
hooks that are owed. -/
def Hw.kRow (h : Hw) (m : Mem) (e : Nat) (f : Hw → Hw) : Hw :=
  if !h.hytRuns e then h
  else
    let late := h.kHookOver e
    if h.kFree e then ((f (h.upHyt e fun x => { x with hookAt := none })).kServe m e).kHouse m e late
    else if late then h.dmWr e 0x0001 (h.dmRd m e 0x0001 ||| 4) else h

/-- Work that comes after the current updates and the hooks of an earlier one (R211): it waits for them. -/
def Hw.kAfter (h : Hw) (m : Mem) (e : Nat) (f : Hw → Hw) : Hw :=
  if (h.kSlots e).any (h.kDue m) || !(h.hyt e).owed.isEmpty then h else f h

/-- The hook words are read at a batch boundary (R192). -/
def Hw.kHooks (h : Hw) (m : Mem) (e : Nat) : Hw :=
  h.when (h.hytRuns e) fun h => h.upHyt e fun x =>
    { x with hooks := { cur := h.dmRd m e 0x0004, batch := h.dmRd m e 0x0005, cyc := h.dmRd m e 0x0006 } }

/-- Clear pending bits. -/
def Hw.kTake (h : Hw) (e : Nat) (l : List Nat) : Hw :=
  h.upHyt e fun x => { x with epend := l.foldl (fun w i => w &&& ~~~(BitVec.ofNat 64 (2 ^ i))) x.epend }

/-- A kernel fault (R209): every leg of the axis is written off, the code reaches AXSTAT and the axis unit. -/
def Hw.kFault (h : Hw) (m : Mem) (x : KAx) (code : Nat) : Hw :=
  let off := (h.kb m x 0x44) &&& ~~~(1 : Word)
  let a := h.kAxis m x
  let h := h.each (h.kLegs m x) fun h n => h.regWrite m x.e (pLEG n) rCTRL off
  let h := (h.setKern x { h.kern x with st := 4, code }).kShow x
  h.regWrite m x.e (pAX a) 0x0A0 (BitVec.ofNat 32 code)

/-- A port write or commit of the kernel, which waits for room in the queue (R166). -/
def Hw.kPort (h : Hw) (e : Nat) (owned : Bool) (en : PortEnt) : Hw :=
  if owned then h.upHyt e fun x => { x with port := x.port ++ [{ en with left := h.grain }] } else h.evt (pHYT e) 2

def Hw.kCommit (h : Hw) (m : Mem) (x : KAx) : Hw :=
  let a := h.kAxis m x
  h.kPort x.e (h.ownsAxis x.e a) { commit := true, unit := a }

/-- Compares written, and one commit for the axis (R204). -/
def Hw.kWrite (h : Hw) (m : Mem) (x : KAx) (cs : List (Nat × Nat × Nat)) : Hw :=
  (h.each cs fun h c =>
    (h.kPort x.e (h.ownsLeg x.e c.1) { unit := c.1, v := c.2.1 }).kPort x.e (h.ownsLeg x.e c.1)
      { unit := c.1, fall := true, v := c.2.2 }).kCommit m x

/-- The integer count and the speed the mechanical count follows: the snapshot, the set-point, or none (R199). -/
def Hw.kCount (h : Hw) (m : Mem) (x : KAx) (p : Word64) (v : Int) : Int × Int :=
  let s13 := slotWord (16 * x.s + 13)
  if h.kOpen m x then (intPart p, v)
  else if h.kbN m x 0x03 = 0xFF then (0, 0)
  else ((h.dmRd m x.e (s13 1)).toInt, (h.dmRd m x.e (s13 3) ++ h.dmRd m x.e (s13 2)).toInt)

/-- KERNEL_AXIS_START: RUN went from 0 to 1. A slot found RUNNING when the engine starts resumes (R416). -/
def Hw.kResume (h : Hw) (m : Mem) (x : KAx) : Hw :=
  let k := h.kern x
  let ctl := h.dmRd m x.e x.block
  let stat := h.dmRd m x.e (x.block + 1)
  if k.seen then h
  else if bitOf ctl 0 && fld stat 2 0 == 2 then
    let words := (List.range 448).map fun i => h.dmRd m x.e (x.block + 0x240 + i)
    let k := Config.kernelPrivate words
    h.setKern x { k with seen := true, st := 2, run := true, bank := fld stat 4 4 }
  else h.setKern x { seen := true }

/-- The electrical angle at boundary B (R199): frac(POLE_PAIRS × m / CPR), exact and rounded to 24 bits, ties to even. -/
def Hw.kTheta (h : Hw) (m : Mem) (x : KAx) (mc : Nat) : Nat :=
  (roundHalfEven ((h.kbN m x 0x08 * mc : Nat) * 2 ^ 24 : Int) (max 1 (h.kbN m x 0x09)) % 2 ^ 24).toNat

/-- The grain of boundary B, from the time record. -/
def Hw.kBound (h : Hw) (m : Mem) (e : Nat) : Nat := (h.dmRd m e (slotWord 15 0)).toNat

def Hw.kStart (h : Hw) (m : Mem) (e s : Nat) : Hw :=
  let ctl := h.dmRd m e (0x0100 + 0x0400 * s)
  let x : KAx := { e, s, bank := fld ctl 4 4 }
  let h := h.kResume m x
  let k := h.kern x
  if !bitOf ctl 0 || k.run then h
  else
    let mode := min 2 (fld ctl 2 1)
    let code := h.kCheck m x mode
    if code ≠ 0 then (h.setKern x { k with run := true, st := 3, code }).kShow x
    else
      let s14 := slotWord (16 * s + 14)
      let c := h.kCount m x (h.dmRd m e (s14 1) ++ h.dmRd m e (s14 0)) 0
      let cpr := max 1 (h.kbN m x 0x09)
      let mc := ((c.1 - (h.kb m x 0x0A).toInt) % cpr).toNat
      let k : KernS :=
        { seen := true, st := 2, run := true, bank := x.bank, mode, count := c.1, mc, theta := h.kTheta m x mc, speed := c.2,
          bound := h.kBound m e, psi := kQ (h.kb m x 0x18), spd := (h.kChannels m x).map h.kSpd, taskB := k.taskB }
      ((h.setKern x k).kShow x).dmWr e (x.block + 0x0C) 0

/-! ### The batch task (R197, R199 to R201) -/

/-- The restart fields (R196). -/
def restartFields : List Nat := [0x00, 0x01, 0x02, 0x03, 0x04, 0x05, 0x06, 0x08, 0x09, 0x0A]

/-- A bank change asked for by AXCTL (R197). -/
def Hw.kBankChange (h : Hw) (m : Mem) (x : KAx) (want mode : Nat) : Hw :=
  let k := h.kern x
  let y : KAx := { x with bank := want }
  if want = k.bank then h
  else if restartFields.any (fun o => h.kb m x o != h.kb m y o) || h.kCheck m y mode != 0 then
    h.setKern x { k with bankRef := true, code := 0x18 }
  else h.setKern x { k with bank := want, bankRef := false, code := 0, spd := (h.kChannels m y).map h.kSpd }

/-- A value in units of 2^-47 / 2^d put into a data word: rounded half to even and saturated (R153, ECR.RND 0). -/
def kPut (v : Int) (d : Nat) : Int :=
  clip (-(2 : Int) ^ 23) ((2 : Int) ^ 23 - 1) (roundHalfEven v (2 ^ (24 + d))) * 2 ^ 24

/-- One filter section: its input and output levels and the halved coefficients from word o (R201); its output is a data
word. -/
def Hw.kSection (h : Hw) (m : Mem) (x : KAx) (o : Nat) (v : Int) (i y : Int × Int) : Int :=
  let c := fun k => kQ (h.kb m x (o + k))
  kPut (2 * (c 2 * v + c 0 * i.1 + c 1 * i.2 + c 3 * y.1 + c 4 * y.2)) 47

/-- The filter cascade: the output and the new history, level by level. -/
def Hw.kFilter (h : Hw) (m : Mem) (x : KAx) (hist : List (Int × Int)) : Nat → Nat → Int → Int × List (Int × Int)
  | 0, j, v => (v, [(v, (hist.getD j (0, 0)).1)])
  | n + 1, j, v =>
    let lv := hist.getD j (0, 0)
    let out := h.kSection m x (0x27 + 5 * j) v lv (hist.getD (j + 1) (0, 0))
    let r := h.kFilter m x hist n (j + 1) out
    (r.1, (v, lv.1) :: r.2)

/-- The set-point of the batch (R200): position, velocity, acceleration, and whether it is a held one. -/
structure KSet where
  p : Word64 := 0
  v : Int := 0
  a : Int := 0
  held : Bool := false
  deriving DecidableEq, Repr

/-- The grains from the batch boundary the time record gives to the arrival of the set-point record (R200). -/
def Hw.kLate (h : Hw) (m : Mem) (x : KAx) : Nat :=
  unsign 32 (((tabGet 0 (16 * x.s + 14) (h.hyt x.e).arrAt : Nat) : Int) - h.kBound m x.e)

/-- Whether the set-point record of slot 16s + 14 is the one for this batch, and came within BATCH / 4 grains. -/
def Hw.kRecord (h : Hw) (m : Mem) (x : KAx) : Bool :=
  h.dmRd m x.e (slotWord (16 * x.s + 14) 6) == h.dmRd m x.e (slotWord 15 2) - 1 && decide (4 * h.kLate m x ≤ h.batch)

/-- The batch task still waits for its set-point record: it has not come, and BATCH / 4 grains have not passed. -/
def Hw.kWaits (h : Hw) (m : Mem) (x : KAx) : Bool :=
  h.kRunning x && h.kbN m x 0x04 != 0xFF && !h.kRecord m x &&
    decide (4 * unsign 32 ((h.grain : Int) - h.kBound m x.e) ≤ h.batch)

/-- The set-point record of slot 16s + 14, the last valid one in place of one that is missing or not valid. -/
def Hw.kSetPoint (h : Hw) (m : Mem) (x : KAx) : KSet :=
  let r := fun w => h.dmRd m x.e (slotWord (16 * x.s + 14) w)
  if h.kbN m x 0x04 = 0xFF then {}
  else if bitOf (r 7) 0 && h.kRecord m x then
    { p := r 1 ++ r 0, v := (r 3 ++ r 2).toInt, a := (r 5 ++ r 4).toInt }
  else { p := (h.kern x).recP, held := true }

/-- The position and velocity loops (R200, R201), the position error's words and the fault found, 0 for none. -/
def Hw.kLoops (h : Hw) (m : Mem) (x : KAx) (sp : KSet) (bpos : Word64) : Hw × Nat :=
  let k := h.kern x
  let spd := max 1 (h.kbN m x 0x0B)
  let iqMax := kQ (h.kb m x 0x23)
  let free := k.mode = 0 || h.kOpen m x
  let ep : Int := if k.mode = 2 && k.enabled then signed 56 (sp.p - bpos).toNat else 0
  let fe := h.kbN m x 0x3D
  let code := if k.mode = 2 && !h.kOpen m x && decide (fe ≠ 0) && decide (fe * 2 ^ 32 < ep.natAbs) then 0x15 else 0
  let h := if k.mode = 2 && !h.kOpen m x then
      (h.dmWr x.e (x.block + 8) (BitVec.ofInt 32 ep)).dmWr x.e (x.block + 9) ((BitVec.ofInt 24 (ep / 2 ^ 32)).signExtend 32)
    else h
  if free then
    if h.kOpen m x then (h, code)
    else
      let iq := kQ (h.dmRd m x.e (x.block + 0x0D))
      (h.setKern x { k with iqRef := ksat iqMax iq, ilim := decide (iqMax < iq.natAbs) }, code)
  else
    let wMeas := ksat kOne (kq (k.speed * 2 ^ 15) spd)
    let vRef : Int :=
      if k.mode = 2 then (h.kbN m x 0x3B : Int) * ep * 2 ^ 8 + (h.kbN m x 0x3C : Int) * sp.v else sp.v * 2 ^ 24
    let wRef := if k.enabled then ksat kOne (kq (vRef * 2 ^ 47) (spd * 2 ^ 56)) else 0
    let ev := wRef - wMeas
    let u := kmul (kG (h.kb m x 0x21)) ev + k.xv
    let n := h.kbN m x 0x26
    let f := h.kFilter m x k.hist n 0 (if n = 0 then u else kPut u 0)
    let raw := f.1 + kq ((h.kbN m x 0x24 : Int) * sp.a * 2 ^ 47) (h.kbN m x 0x25 * 2 ^ 56)
    let iq := ksat iqMax raw
    let clamped := iq != raw
    let out := clamped && decide (0 < ev * (raw - iq))
    let xv := if out then k.xv else ksat iqMax (k.xv + kmul (kG (h.kb m x 0x22)) ev)
    (h.setKern x { k with iqRef := iq, ilim := clamped, xv, hist := f.2 }, code)

/-- Everything held at 0 while ENABLED is clear (R210), and what I_RESET clears (R201). -/
def KernS.zeroLoops (k : KernS) : KernS := { k with xv := 0, hist := [], xd := 0, xq := 0 }
def KernS.rest (k : KernS) (idRef : Int) : KernS := { k.zeroLoops with idfw := 0, share := [], psi := idRef }

/-- The batch task of a running axis, after AXCTL was read. -/
def Hw.kBatchRun (h : Hw) (m : Mem) (x : KAx) (reset : Bool) : Hw :=
  let a := h.kAxis m x
  let sp := h.kSetPoint m x
  let k := h.kern x
  let c := h.kCount m x sp.p sp.v
  let cpr := max 1 (h.kbN m x 0x09)
  let delta := signed 32 (unsign 32 (c.1 - k.count))
  let mc := ((k.mc + delta) % cpr).toNat
  let theta := h.kTheta m x mc
  let en := (h.axisLegs a).any h.legEnabled
  let heldN := if sp.held then k.heldN + 1 else 0
  let k := { k with mc, count := c.1, theta, speed := c.2, bound := h.kBound m x.e, enabled := en,
                    held := sp.held, heldN, recP := sp.p,
                    moved := if sp.v ≠ 0 then some 0 else k.moved.map (· + 1) }
  let k := if reset then k.zeroLoops else k
  let k := if en then k else k.rest (kQ (h.kb m x 0x18))
  let h := h.setKern x k
  let s13 := slotWord (16 * x.s + 13)
  let fb := h.kbN m x 0x03 ≠ 0xFF
  let r := h.kLoops m x sp (h.dmRd m x.e (s13 1) ++ h.dmRd m x.e (s13 0))
  let h := r.1
  let k := h.kern x
  let h := h.setKern x (if en then k else k.rest (kQ (h.kb m x 0x18)))
  let w := ksat kOne (kq (k.speed * 2 ^ 15) (max 1 (h.kbN m x 0x0B)))
  let h := (h.dmWr x.e (x.block + 6) (kWord k.iqRef)).dmWr x.e (x.block + 7) (kWord w)
  let spd := (h.kChannels m x).map h.kSpd
  let lost := fb && !bitOf (h.dmRd m x.e (s13 6)) 0
  let codes := (if r.2 = 0 then [] else [r.2]) ++ (if lost then [0x16] else []) ++
    (if k.mode = 2 ∧ 4 < heldN then [0x17] else []) ++ (if spd ≠ k.spd ∧ !h.kWindow m x then [0x19] else [])
  let h := h.setKern x { h.kern x with spd, updated := false }
  match codes with
  | c :: _ => h.kFault m x c
  | [] => (if k.updated then h else h.kCommit m x).kShow x

/-- The number of the batch in progress. -/
def Hw.kBatchNo (h : Hw) : Word := h.reg (ck 0x064)

/-- A slot's batch task: AXCTL is read once (R197). A cleared RUN ends a running axis; a refused or faulted one keeps its
state until RUN is set again (R198). -/
def Hw.kTask (h : Hw) (m : Mem) (x : KAx) : Hw :=
  let ctl := h.dmRd m x.e x.block
  let k := { h.kern x with taskB := some h.kBatchNo }
  if !bitOf ctl 0 then
    (h.setKern x (if k.st = 2 then { seen := true, bank := k.bank, taskB := k.taskB } else { k with run := false })).kShow x
  else if k.st = 2 then
    let mode := min 2 (fld ctl 2 1)
    let h := (h.setKern x k).kBankChange m x (fld ctl 4 4) mode
    let x : KAx := { x with bank := (h.kern x).bank }
    let h := h.setKern x { h.kern x with mode }
    let h := h.kBatchRun m x (bitOf ctl 5)
    if bitOf ctl 5 then h.dmWr x.e x.block (ctl &&& ~~~(0x20 : Word)) else h
  else h.setKern x k

/-- The batch hook is owed once in a batch, when the tasks of every running axis have run (R215). -/
def Hw.kBatchHook (h : Hw) (e : Nat) : Hw :=
  let now := some h.kBatchNo
  if (h.hyt e).hookB = now || (h.kSlots e).any (fun x => h.kRunning x && (h.kern x).taskB != now) then h
  else (h.upHyt e fun x => { x with hookB := now }).kOwe e { addr := (h.hyt e).hooks.batch, d8 := 0xFF }

/-- KERNEL_BATCH_TASK: a slot's task runs once in a batch. -/
def Hw.kBatch (h : Hw) (m : Mem) (e s : Nat) : Hw :=
  let h := h.kResume m { e, s, bank := 0 }
  let x : KAx := { e, s, bank := (h.kern ⟨e, s, 0⟩).bank }
  if (h.kern x).taskB = some h.kBatchNo || h.kWaits m x then h
  else
    let h := (h.kTask m x).kTake e [16 * s + 13, 16 * s + 14, 15]
    (h.dmWr e 0x0007 (h.dmRd m e 0x0007 + 1)).kBatchHook e

/-! ### The current update (R202 to R209) -/

/-- The caps of the duties (R204): hmin, hmax and dmax. -/
def Hw.kCaps (h : Hw) (m : Mem) (x : KAx) : Int × Int × Int :=
  let p16 : Int := 16 * h.kPeriod m x
  let dr := h.kb m x 0x0C
  let df := h.kb m x 0x0D
  let minp := h.kbN m x 0x0E
  let gmin := max minp (h.kbN m x 0x0F + fld df 15 0 + fld dr 31 16)
  let hmax := min (p16 - fld dr 31 16) (p16 - ((gmin + 1) / 2 : Nat))
  let hmin := max ((minp + 1) / 2) (if h.kDouble m x then fld df 31 16 else 0)
  (hmin, hmax, kq (hmax * kOne) p16.toNat)

/-- The latest conversion in input place j: y, OVR, VALID. -/
def Hw.kConv (h : Hw) (m : Mem) (x : KAx) (j : Nat) : Int × Bool × Bool :=
  let w := fun i => h.dmRd m x.e (slotWord (16 * x.s + j) i)
  (kQ (w 0), bitOf (w 3) 1, bitOf (w 3) 0)

/-- Phase currents (R202 step 1, R207, R208). -/
def Hw.kPhases (h : Hw) (m : Mem) (x : KAx) (y : Nat → Int) : List Int :=
  let g := (h.kBridges m x).length
  match h.kType m x with
  | 2 => [y 0, y 3]
  | 3 => [y 0]
  | _ => [0, 1, 2].map fun ph => kq (((List.range g).map fun j => y (3 * j + ph)).foldl (· + ·) 0) g

/-- A run of updates in which a condition holds, counted by key. -/
def kRuns (t : Tab Nat) (l : List (Nat × Bool)) : Tab Nat :=
  l.foldl (fun t e => tabSet 0 e.1 (if e.2 then tabGet 0 e.1 t + 1 else 0) t) t

/-- The faults an update finds (R209), lowest first, and the runs it leaves. -/
def Hw.kFaults (h : Hw) (m : Mem) (x : KAx) (y : Nat → Int) (ph : List Int) (allValid : Bool) : List Nat × KernS :=
  let k := h.kern x
  let g := (h.kBridges m x).length
  let n := h.kbN m x 0x3F
  let vdc := h.kConv m x 12
  let oc := if allValid then kRuns k.oc (ph.zipIdx.map fun p => (p.2, decide (kQ (h.kb m x 0x3E) < p.1.natAbs))) else k.oc
  let ovr := kRuns k.ovr (((h.kMeasured m x) ++ [12]).map fun j => (j, (h.kConv m x j).2.1))
  let gnd := allValid && bitOf (h.kb m x 0x07) 3 && decide (h.kType m x ≤ 1) && (List.range g).any fun j =>
    decide (kQ (h.kb m x 0x40) < (y (3 * j) + y (3 * j + 1) + y (3 * j + 2)).natAbs)
  let bridged := if allValid && vdc.2.2 then 0 else k.bridged + 1
  let c := fun (b : Bool) (code : Nat) => if b then [code] else []
  (c (oc.any (fun e => decide (n ≤ e.2)) || ovr.any (fun e => decide (n ≤ e.2))) 0x10 ++ c gnd 0x11 ++
    c (vdc.2.2 && decide (vdc.1 < kQ (h.kb m x 0x41))) 0x12 ++ c (vdc.2.2 && decide (kQ (h.kb m x 0x42) < vdc.1)) 0x13 ++
    c (decide (h.kbN m x 0x43 < bridged)) 0x14,
   { k with oc, ovr, bridged })

/-- The electrical angle n quarter grains after boundary B (R199). -/
def Hw.kAngle (h : Hw) (m : Mem) (x : KAx) (n : Int) : Nat :=
  let k := h.kern x
  let turns := kq ((h.kbN m x 0x08 : Int) * k.speed * n * 2 ^ 25) (4 * (max 1 (h.kbN m x 0x09)) * 2 ^ 32 * 1000000000)
  ((k.theta + turns + kq k.slip (2 ^ 23)) % 2 ^ 24).toNat

/-- What an update works with: quarter grains from boundary B to the centre C, and on to the middle of the window in
which the commit acts; speed, link voltage, grains since the last update. -/
structure KUpd where
  n : Int
  adv : Int
  w : Int
  vdc : Int
  dt : Nat
  deriving DecidableEq, Repr

/-- The angle for the currents and the angle for the voltage. -/
def Hw.kTi (h : Hw) (m : Mem) (x : KAx) (u : KUpd) : Nat := h.kAngle m x u.n
def Hw.kTv (h : Hw) (m : Mem) (x : KAx) (u : KUpd) : Nat := h.kAngle m x (u.n + u.adv)

/-- Rotation by an angle: into the rotating frame, and back. -/
def park (t : Nat) (a b : Int) : Int × Int := (kmul a (kCos t) + kmul b (kSin t), kmul b (kCos t) - kmul a (kSin t))
def unpark (t : Nat) (d q : Int) : Int × Int := (kmul d (kCos t) - kmul q (kSin t), kmul d (kSin t) + kmul q (kCos t))

/-- A value times the square root of a fraction. -/
def kscale (v : Int) (num den : Nat) : Int := (if v < 0 then -1 else 1) * kroot (num * v.natAbs ^ 2 / den)

/-- The controllers of the d and q currents with decoupling (R202 step 4). -/
def Hw.kControl (h : Hw) (m : Mem) (x : KAx) (u : KUpd) (i ref : Int × Int) (psi : Int) : Int × Int :=
  let k := h.kern x
  let dec := bitOf (h.kb m x 0x07) 2
  let kp := kG (h.kb m x 0x10)
  let cd := if dec then kmul (kmul (kG (h.kb m x 0x14)) u.w) i.2 else 0
  let cq := if dec then kmul (kmul (kG (h.kb m x 0x13)) u.w) i.1 else 0
  (kmul kp (ref.1 - i.1) + k.xd - cd, kmul kp (ref.2 - i.2) + k.xq + cq + kmul psi u.w)

/-- The integrators after the limit (R202 step 5): measured, reference, asked and limited pairs. -/
def Hw.kIntegrate (h : Hw) (m : Mem) (x : KAx) (i ref v v' : Int × Int) : Hw :=
  let k := h.kern x
  let ki := kG (h.kb m x 0x11)
  let kaw := kUQ (h.kb m x 0x12)
  h.setKern x { k with xd := k.xd + kmul ki (ref.1 - i.1) + kmul kaw (v'.1 - v.1),
                       xq := k.xq + kmul ki (ref.2 - i.2) + kmul kaw (v'.2 - v.2), vlim := v' != v }

/-- The status words of an update (R193). -/
def Hw.kMeasure (h : Hw) (x : KAx) (u : KUpd) (ti : Nat) (i v : Int × Int) (iqRef : Int) : Hw :=
  let b := x.block
  [(2, kWord i.1), (3, kWord i.2), (4, kWord v.1), (5, kWord v.2), (6, kWord iqRef), (10, kWord u.vdc),
   (11, BitVec.ofNat 32 ti)].foldl (fun h e => h.dmWr x.e (b + e.1) e.2) h

/-- The flux and slip model of TYPE 1 (R206). -/
def Hw.kFlux (h : Hw) (m : Mem) (x : KAx) (u : KUpd) (i : Int × Int) : Hw :=
  let k := h.kern x
  let psi := max (kdiv (kQ (h.kb m x 0x18)) 16) (k.psi + kq ((i.1 - k.psi) * u.dt) (500 * max 1 (h.kbN m x 0x1D)))
  let slip := kdiv (kmul (kG (h.kb m x 0x1C)) i.2 * kOne) psi
  let turns := kq (slip * h.kbN m x 0x08 * h.kbN m x 0x0B * u.dt) (max 1 (h.kbN m x 0x09) * 500000000)
  h.setKern x { k with psi, slip := (k.slip + turns) % kOne }

/-- The d reference of a three-phase axis (R202 step 3, R206). -/
def Hw.kIdRef (h : Hw) (m : Mem) (x : KAx) (w : Int) : Int :=
  let idr := kQ (h.kb m x 0x18)
  if h.kType m x = 1 then
    let wfw := kQ (h.kb m x 0x1E)
    if wfw < w.natAbs then kmul idr (kq (wfw * kOne) w.natAbs) else idr
  else idr + (h.kern x).idfw

/-- Field weakening (R203): the voltage asked for and the limit. -/
def Hw.kWeaken (h : Hw) (m : Mem) (x : KAx) (v : Int × Int) (V : Int) : Hw :=
  if h.kType m x = 0 && bitOf (h.kb m x 0x07) 1 then
    let mag := kroot (v.1.natAbs ^ 2 + v.2.natAbs ^ 2)
    let k := h.kern x
    h.setKern x { k with idfw := clip (kQ (h.kb m x 0x19)) 0
                           (k.idfw - kmul (kUQ (h.kb m x 0x1A)) (mag - kmul (kUQ (h.kb m x 0x1B)) V)) }
  else h

/-- The update of a three-phase axis (R202, R203, R206): its phase voltages. The currents are turned at the slip angle
before the update, the voltage at the one after it. -/
def Hw.kThree (h : Hw) (m : Mem) (x : KAx) (u : KUpd) (ph : List Int) (dmax : Int) : Hw × List Int :=
  let p := fun j => ph.getD j 0
  let ti := h.kTi m x u
  let i := park ti (kq (2 * p 0 - p 1 - p 2) 3) (kscale (p 1 - p 2) 1 3)
  let h := if h.kType m x = 1 then h.kFlux m x u i else h
  let ref := (h.kIdRef m x u.w, (h.kern x).iqRef)
  let v := h.kControl m x u i ref (if h.kType m x = 1 then 0 else kG (h.kb m x 0x15))
  let V := kmul (min (kUQ (h.kb m x 0x16)) (kscale dmax 1 3)) u.vdc
  let vd := ksat V v.1
  let v' := (vd, ksat (kroot (V ^ 2 - vd ^ 2).toNat) v.2)
  let h := ((h.kIntegrate m x i ref v v').kWeaken m x v V).kMeasure x u ti i v' ref.2
  let w := unpark (h.kTv m x u) v'.1 v'.2
  let s := kscale w.2 3 1
  (h, [w.1, kq (s - w.1) 2, kq (-w.1 - s) 2])

/-- The update of a two-phase axis (R207): the voltages of phases A and B. -/
def Hw.kTwo (h : Hw) (m : Mem) (x : KAx) (u : KUpd) (ph : List Int) (dmax : Int) : Hw × List Int :=
  let ab := (ph.getD 0 0, ph.getD 1 0)
  let ti := h.kTi m x u
  let k := h.kern x
  let lim := kmul (kmul (kUQ (h.kb m x 0x16)) dmax) u.vdc
  let cut := fun (v : Int × Int) => (ksat lim v.1, ksat lim v.2)
  if h.kOpen m x then
    let run := match k.moved with | some n => decide (n ≤ h.kbN m x 0x1D) | none => false
    let is := kQ (h.kb m x (if run then 0x18 else 0x19))
    let ref := (kmul is (kCos ti), kmul is (kSin ti))
    let kp := kG (h.kb m x 0x10)
    let v := (kmul kp (ref.1 - ab.1) + k.xd, kmul kp (ref.2 - ab.2) + k.xq)
    let v' := cut v
    let h := h.kIntegrate m x ab ref v v'
    ((h.kMeasure x u ti (park ti ab.1 ab.2) (park ti v'.1 v'.2) k.iqRef), [v'.1, v'.2])
  else
    let i := park ti ab.1 ab.2
    let ref := ((0 : Int), k.iqRef)
    let v := h.kControl m x u i ref (kG (h.kb m x 0x15))
    let tv := h.kTv m x u
    let out := unpark tv v.1 v.2
    let out' := cut out
    let v' := if out' = out then v else park tv out'.1 out'.2
    let h := h.kIntegrate m x i ref v v'
    (h.kMeasure x u ti i v' k.iqRef, [out'.1, out'.2])

/-- The update of a DC motor (R208): the armature voltage. -/
def Hw.kOneWinding (h : Hw) (m : Mem) (x : KAx) (u : KUpd) (ph : List Int) (dmax : Int) : Hw × List Int :=
  let k := h.kern x
  let i := ph.getD 0 0
  let w := ksat kOne (kq (k.speed * 2 ^ 15) (max 1 (h.kbN m x 0x0B)))
  let v := kmul (kG (h.kb m x 0x10)) (k.iqRef - i) + k.xq + kmul (kG (h.kb m x 0x15)) w
  let v' := ksat (kmul (kmul (kUQ (h.kb m x 0x16)) dmax) u.vdc) v
  let h := h.kIntegrate m x (0, i) (0, k.iqRef) (0, v) (0, v')
  (h.kMeasure x u 0 (0, i) (0, v') k.iqRef, [v'])

/-- The dead-time correction of a leg from its own current (R204). -/
def Hw.kDeadTime (h : Hw) (m : Mem) (x : KAx) (i : Int) : Int :=
  if bitOf (h.kb m x 0x07) 0 then
    let s := ksat kOne (kdiv (i * kOne) (kQ (h.kb m x 0x17)))
    let dr := h.kb m x 0x0C
    let df := h.kb m x 0x0D
    let n : Int := if 0 ≤ s then (fld dr 15 0 + fld df 31 16 : Nat) else (fld dr 31 16 + fld df 15 0 : Nat)
    kq (s * n) (32 * h.kPeriod m x)
  else 0

/-- The sharing corrections (R205), by leg. -/
def Hw.kShare (h : Hw) (m : Mem) (x : KAx) (y : Nat → Int) (ph : List Int) : List Int :=
  let g := (h.kBridges m x).length
  let k := h.kern x
  if g ≤ 1 || !k.enabled then []
  else
    let s := (List.range (3 * g)).map fun j =>
      ksat (kUQ (h.kb m x 0x20)) (k.share.getD j 0 - kmul (kUQ (h.kb m x 0x1F)) (y j - ph.getD (j % 3) 0))
    (List.range (3 * g)).map fun j =>
      s.getD j 0 - kq (((List.range g).map fun b => s.getD (3 * b + j % 3) 0).foldl (· + ·) 0) g

/-- The duties of the legs in use, by place (R204, R207, R208). -/
def Hw.kDuties (h : Hw) (m : Mem) (x : KAx) (y : Nat → Int) (v : List Int) (vdc dmax : Int) : List (Nat × Int) :=
  let half := kq dmax 2
  let pair := fun (j : Nat) (v : Int) => let d := kdiv (v * kOne) (2 * vdc); [(j, half + d), (j + 1, half - d)]
  match h.kType m x with
  | 2 => pair 0 (v.getD 0 0) ++ pair 3 (v.getD 1 0)
  | 3 => pair 0 (v.getD 0 0)
  | _ =>
    let vs := [0, 1, 2].map fun j => v.getD j 0
    let hi := vs.foldl max (vs.getD 0 0)
    let lo := vs.foldl min (vs.getD 0 0)
    let v0 := kq (-(hi + lo)) 2
    (List.range (3 * (h.kBridges m x).length)).map fun j =>
      (j, half + kdiv ((vs.getD (j % 3) 0 + v0) * kOne) vdc + h.kDeadTime m x (y j) + (h.kern x).share.getD j 0)

/-- A duty in fine steps: clamped to 0 to hmax, and away from 0 to hmin; the answer tells whether it was clamped. -/
def kSteps (p16 hmin hmax d : Int) : Int × Bool :=
  let r := roundHalfEven (d * p16) (2 ^ 47)
  let c := clip 0 hmax r
  (if c < hmin then (if hmin < 2 * c then hmin else 0) else c, c != r)

/-- The two compares of a leg (R204): `rose`: its rise was written in the first half. -/
def kCompares (p16 hmin s : Int) (dbl mid rose : Bool) : Nat × Nat :=
  let off := 0x1FFFFFFF
  if !dbl then (if s = 0 then (off, off) else ((p16 - s).toNat, (p16 + s).toNat))
  else if mid then (if s = 0 then off else (p16 - s).toNat, off)
  else (off, if rose then (p16 + max s hmin).toNat else off)

/-- The control law and the new edges of an update whose inputs are sound. -/
def Hw.kEdges (h : Hw) (m : Mem) (x : KAx) (u : KUpd) (y : Nat → Int) (ph : List Int) (mid : Bool) : Hw :=
  let caps := h.kCaps m x
  let p16 : Int := 16 * h.kPeriod m x
  let h := h.setKern x { h.kern x with share := h.kShare m x y ph }
  let r := match h.kType m x with
    | 2 => h.kTwo m x u ph caps.2.2
    | 3 => h.kOneWinding m x u ph caps.2.2
    | _ => h.kThree m x u ph caps.2.2
  let h := r.1
  let st := (h.kDuties m x y r.2 u.vdc caps.2.2).map fun d => (d.1, kSteps p16 caps.1 caps.2.1 d.2)
  let k := h.kern x
  let dbl := h.kDouble m x
  let rose := if dbl && mid then (st.filter fun e => decide (0 < e.2.1)).map (·.1) else k.rose
  let legs := h.kLegs m x
  let cs := legs.zipIdx.map fun n =>
    match st.find? fun e => e.1 == n.2 with
    | some e => let c := kCompares p16 caps.1 e.2.1 dbl mid (k.rose.contains n.2); (n.1, c.1, c.2)
    | none => (n.1, 0x1FFFFFFF, 0x1FFFFFFF)
  let k := { k with rose, dcl := st.any fun e => e.2.2 }
  let k := if mid then { k with mid := cs } else { k with wrap := cs }
  (h.setKern x (if k.enabled then k else k.rest (kQ (h.kb m x 0x18)))).kWrite m x cs

/-- Whether a conversion in grain g belongs to the MID of its bridge, the nearer of the two target points. -/
def Hw.kIsMid (h : Hw) (m : Mem) (x : KAx) (g : Nat) : Bool :=
  let c := h.kAxis m x
  let P := h.period c
  let b := (h.kBridges m x).getD (h.kbN m x 0x06) 0
  let pos := (32 * h.carCount c g + 32 * P - h.bridgeOffset b % (32 * P)) % (32 * P)
  decide (8 * P ≤ pos) && decide (pos < 24 * P)

/-- KERNEL_CURRENT_UPDATE (R202 to R209): the conversion of the trigger bridge is pending; slot 1 comes after slot 0
(R211). -/
def Hw.kUpdate (h : Hw) (m : Mem) (e s : Nat) : Hw :=
  let x : KAx := { e, s, bank := (h.kern ⟨e, s, 0⟩).bank }
  let k := h.kern x
  let slot := h.kTrigger m x
  if !h.kDue m x || (s = 1 && (h.kSlots e).any fun y => y.s == 0 && h.kDue m y) then h
  else
    let lost := tabGet 0 slot (h.hyt e).lost
    let miss := min (2 ^ 32 - 1) ((h.dmRd m e 0x0008).toNat + lost)
    let h := (h.upHyt e fun y => { y with lost := tabSet 0 slot 0 y.lost }).dmWr e 0x0008 (BitVec.ofNat 32 miss)
    let js := h.kMeasured m x
    let h := h.kTake e ((js ++ [12]).map (16 * s + ·))
    let y := fun j => (h.kConv m x j).1
    let ok := js.all fun j => (h.kConv m x j).2.2
    let vdc := h.kConv m x 12
    let ph := h.kPhases m x y
    let f := h.kFaults m x y ph ok
    let ts := (h.dmRd m e (slotWord slot 1)).toNat
    -- the whole time-stamp of the centre, from its low 32 bits
    let c := h.grain - (h.grain + 2 ^ 32 - ts) % 2 ^ 32
    let dbl := h.kDouble m x
    let mid := !dbl || h.kIsMid m x c
    let n : Int := signed 32 (ts + 2 ^ 32 - k.bound % 2 ^ 32)
    let P := h.kPeriod m x
    let u : KUpd := { n := 4 * n, adv := if dbl then 3 * P else 4 * P,
                      w := kq (k.speed * 2 ^ 15) (max 1 (h.kbN m x 0x0B)), vdc := vdc.1,
                      dt := match k.lastC with | some l => c - l | none => 0 }
    let h := (h.setKern x { f.2 with lastC := some c, updated := true }).dmWr e (x.block + 0x0C)
      (h.dmRd m e (x.block + 0x0C) + 1)
    let h := match f.1 with
      | code :: _ => h.kFault m x code
      | [] =>
        if ok && vdc.2.2 then (h.kEdges m x u y ph mid).kShow x
        else h.kWrite m x (if mid then (h.kern x).mid else (h.kern x).wrap)
    h.kOwe e { addr := (h.hyt e).hooks.cur, d8 := BitVec.ofNat 24 s, block := some x.block }

/-- The slot an operand names. -/
def slotN (slot : Bool) : Nat := if slot then 1 else 0

/-- KERNEL_AXIS_START. -/
def execKernelAxisStart (g : Nat) (e : Fin 16) (slot : Bool) (s : State) :=
  run g (fun m h => h.kRow m e fun h => h.kAfter m e fun h => h.kStart m e (slotN slot)) s
/-- KERNEL_BATCH_TASK. -/
def execKernelBatchTask (g : Nat) (e : Fin 16) (slot : Bool) (s : State) :=
  run g (fun m h => h.kRow m e fun h => h.kAfter m e fun h => h.kBatch m e (slotN slot)) s
/-- KERNEL_CURRENT_UPDATE. -/
def execKernelCurrentUpdate (g : Nat) (e : Fin 16) (slot : Bool) (s : State) :=
  run g (fun m h => h.kRow m e fun h => h.kUpdate m e (slotN slot)) s

end Sys2Proof.Machine
end

