-- ==== Sys2Proof/Machine/Sig.lean ====
section
/-! DEFINITION. What the boot ROM verifies an image with (R47, R48): SHA-256, and ECDSA on the curve P-256. The constants
are those of the two standards the spec names (log entry 144). -/

namespace Sys2Proof.Machine

/-! ### SHA-256, on 32-bit words held as numbers -/

/-- Go on with a number worked out first. -/
def now {α : Type} (x : Nat) (k : Nat → α) : α :=
  match x with
  | 0 => k 0
  | n + 1 => k (n + 1)

def w32 (x : Nat) : Nat := x % 0x100000000
def rotr (n x : Nat) : Nat := (x >>> n) ||| w32 (x <<< (32 - n))
def shaS0 (x : Nat) : Nat := rotr 7 x ^^^ rotr 18 x ^^^ (x >>> 3)
def shaS1 (x : Nat) : Nat := rotr 17 x ^^^ rotr 19 x ^^^ (x >>> 10)
def shaB0 (x : Nat) : Nat := rotr 2 x ^^^ rotr 13 x ^^^ rotr 22 x
def shaB1 (x : Nat) : Nat := rotr 6 x ^^^ rotr 11 x ^^^ rotr 25 x
def shaCh (x y z : Nat) : Nat := (x &&& y) ^^^ ((0xFFFFFFFF ^^^ x) &&& z)
def shaMaj (x y z : Nat) : Nat := (x &&& y) ^^^ (x &&& z) ^^^ (y &&& z)

/-- The round constants. -/
def shaK : List Nat :=
  [0x428a2f98, 0x71374491, 0xb5c0fbcf, 0xe9b5dba5, 0x3956c25b, 0x59f111f1, 0x923f82a4, 0xab1c5ed5,
   0xd807aa98, 0x12835b01, 0x243185be, 0x550c7dc3, 0x72be5d74, 0x80deb1fe, 0x9bdc06a7, 0xc19bf174,
   0xe49b69c1, 0xefbe4786, 0x0fc19dc6, 0x240ca1cc, 0x2de92c6f, 0x4a7484aa, 0x5cb0a9dc, 0x76f988da,
   0x983e5152, 0xa831c66d, 0xb00327c8, 0xbf597fc7, 0xc6e00bf3, 0xd5a79147, 0x06ca6351, 0x14292967] ++
  [0x27b70a85, 0x2e1b2138, 0x4d2c6dfc, 0x53380d13, 0x650a7354, 0x766a0abb, 0x81c2c92e, 0x92722c85,
   0xa2bfe8a1, 0xa81a664b, 0xc24b8b70, 0xc76c51a3, 0xd192e819, 0xd6990624, 0xf40e3585, 0x106aa070,
   0x19a4c116, 0x1e376c08, 0x2748774c, 0x34b0bcb5, 0x391c0cb3, 0x4ed8aa4a, 0x5b9cca4f, 0x682e6ff3,
   0x748f82ee, 0x78a5636f, 0x84c87814, 0x8cc70208, 0x90befffa, 0xa4506ceb, 0xbef9a3f7, 0xc67178f2]

/-- The working variables of a block. -/
structure Sha where
  a : Nat
  b : Nat
  c : Nat
  d : Nat
  e : Nat
  f : Nat
  g : Nat
  h : Nat
  deriving DecidableEq, Repr

def shaInit : Sha :=
  ⟨0x6a09e667, 0xbb67ae85, 0x3c6ef372, 0xa54ff53a, 0x510e527f, 0x9b05688c, 0x1f83d9ab, 0x5be0cd19⟩

/-- The rounds of a block: the constants still to come, and the last sixteen words of the schedule, oldest first. -/
def shaRounds : List Nat → List Nat → Sha → Sha
  | [], _, s => s
  | k :: ks, w, s =>
    let wt := w.headD 0
    now (w32 (s.h + shaB1 s.e + shaCh s.e s.f s.g + k + wt)) fun t1 =>
    now (w32 (t1 + shaB0 s.a + shaMaj s.a s.b s.c)) fun a =>
    now (w32 (s.d + t1)) fun e =>
    now (w32 (shaS1 (w.getD 14 0) + w.getD 9 0 + shaS0 (w.getD 1 0) + wt)) fun next =>
    shaRounds ks (w.tail ++ [next]) ⟨a, s.a, s.b, s.c, e, s.e, s.f, s.g⟩

def shaBlock (w : List Nat) (s : Sha) : Sha :=
  let r := shaRounds shaK w s
  ⟨w32 (s.a + r.a), w32 (s.b + r.b), w32 (s.c + r.c), w32 (s.d + r.d), w32 (s.e + r.e), w32 (s.f + r.f),
   w32 (s.g + r.g), w32 (s.h + r.h)⟩

/-- A big-endian number from bytes. -/
def beNat (l : List Byte) : Nat := l.foldl (fun n b => n * 256 + b.toNat) 0

/-- Big-endian words of a run of bytes, n of them. -/
def beWords : Nat → List Byte → List Nat
  | 0, _ => []
  | n + 1, l => beNat (l.take 4) :: beWords n (l.drop 4)

/-- Blocks of 64 bytes taken in turn, n of them. -/
def shaBlocks : Nat → List Byte → Sha → Sha
  | 0, _, s => s
  | n + 1, l, s => shaBlocks n (l.drop 64) (shaBlock (beWords 16 (l.take 64)) s)

/-- A message with its padding: a 1 bit, zeros, and its length in bits. -/
def shaPad (l : List Byte) : List Byte :=
  let n := l.length
  l ++ (0x80 : Byte) :: List.replicate ((119 - n % 64) % 64) 0 ++
    (List.range 8).map fun i => BitVec.ofNat 8 ((8 * n) >>> (56 - 8 * i))

/-- The SHA-256 digest, as a number. -/
def sha256 (l : List Byte) : Nat :=
  let p := shaPad l
  let s := shaBlocks (p.length / 64) p shaInit
  [s.b, s.c, s.d, s.e, s.f, s.g, s.h].foldl (fun n x => n * 0x100000000 + x) s.a

/-! ### ECDSA on P-256 -/

def ecP : Nat := 0xffffffff00000001000000000000000000000000ffffffffffffffffffffffff
def ecN : Nat := 0xffffffff00000000ffffffffffffffffbce6faada7179e84f3b9cac2fc632551
def ecB : Nat := 0x5ac635d8aa3a93e7b3ebbd55769886bc651d06b0cc53b0f63bce3c3e27d2604b
def ecGx : Nat := 0x6b17d1f2e12c4247f8bce6e563a440f277037d812deb33a0f4a13945d898c296
def ecGy : Nat := 0x4fe342e2fe1a7f9b8ee7eb4a7c0f9e162bce33576b315ececbb6406837bf51f5

/-- b to the power e modulo m, by the bits of e from bit n − 1 down. -/
def powMod (m b e : Nat) : Nat → Nat → Nat
  | 0, acc => acc
  | n + 1, acc =>
    now (acc * acc % m) fun sq => now (if e.testBit n then sq * b % m else sq) fun r => powMod m b e n r

/-- The inverse modulo a prime below 2^256. -/
def invMod (m b : Nat) : Nat := powMod m b (m - 2) 256 1

/-- A point in Jacobian coordinates: x / z², y / z³; z = 0 is the point at infinity. -/
structure EcPt where
  x : Nat
  y : Nat
  z : Nat
  deriving DecidableEq, Repr

def ecInf : EcPt := ⟨1, 1, 0⟩
/-- x − y modulo p. -/
def ecSub (x y : Nat) : Nat := (x + ecP - y) % ecP

/-- A point doubled. -/
def ecDbl (p : EcPt) : EcPt :=
  now (p.y * p.y % ecP) fun yy =>
  now (4 * p.x * yy % ecP) fun s =>
  now (p.z * p.z % ecP) fun zz =>
  now (3 * ecSub p.x zz * (p.x + zz) % ecP) fun m =>
  now (ecSub (m * m % ecP) (2 * s % ecP)) fun x =>
  now (ecSub (m * ecSub s x % ecP) (8 * yy * yy % ecP)) fun y =>
  now (2 * p.y * p.z % ecP) fun z => ⟨x, y, z⟩

/-- Two points added. -/
def ecAdd (p q : EcPt) : EcPt :=
  if p.z = 0 then q else if q.z = 0 then p else
  now (p.z * p.z % ecP) fun zz1 =>
  now (q.z * q.z % ecP) fun zz2 =>
  now (p.x * zz2 % ecP) fun u1 =>
  now (q.x * zz1 % ecP) fun u2 =>
  now (p.y * zz2 * q.z % ecP) fun s1 =>
  now (q.y * zz1 * p.z % ecP) fun s2 =>
  if u1 = u2 then (if s1 = s2 then ecDbl p else ecInf) else
  now (ecSub u2 u1) fun h =>
  now (ecSub s2 s1) fun r =>
  now (h * h % ecP) fun hh =>
  now (h * hh % ecP) fun hhh =>
  now (u1 * hh % ecP) fun v =>
  now (ecSub (ecSub (r * r % ecP) hhh) (2 * v % ecP)) fun x =>
  now (ecSub (r * ecSub v x % ecP) (s1 * hhh % ecP)) fun y =>
  now (h * p.z * q.z % ecP) fun z => ⟨x, y, z⟩

/-- u1 · G + u2 · Q by the bits of both from bit n − 1 down; `gq` is G + Q. -/
def ecMul2 (u1 u2 : Nat) (g q gq : EcPt) : Nat → EcPt → EcPt
  | 0, acc => acc
  | n + 1, acc =>
    let d := ecDbl acc
    ecMul2 u1 u2 g q gq n
      (match u1.testBit n, u2.testBit n with
       | false, false => d
       | true, false => ecAdd d g
       | false, true => ecAdd d q
       | true, true => ecAdd d gq)

/-- Whether (r, s) is a signature over a digest by the public key (x, y). -/
def ecdsaOk (digest x y r s : Nat) : Bool :=
  let onCurve := decide (x < ecP) && decide (y < ecP) && (x * x * x + ecB + (ecP - 3) * x) % ecP == y * y % ecP
  let inRange := decide (1 ≤ r) && decide (r < ecN) && decide (1 ≤ s) && decide (s < ecN)
  if onCurve && inRange then
    now (invMod ecN s) fun w =>
    now (digest * w % ecN) fun u1 =>
    now (r * w % ecN) fun u2 =>
    let g : EcPt := ⟨ecGx, ecGy, 1⟩
    let q : EcPt := ⟨x, y, 1⟩
    let t := ecMul2 u1 u2 g q (ecAdd g q) 256 ecInf
    t.z != 0 && (now (invMod ecP t.z) fun zi => t.x * zi * zi % ecP % ecN == r)
  else false

end Sys2Proof.Machine
end

