-- ==== Sys2Proof/Machine/Boot.lean ====
section
/-! DEFINITION. The boot ROM: the checks of an image, the copy of its sections, the choice of slot and the start of the
firmware (R47 to R50, R405). -/

namespace Sys2Proof.Machine

/-- A field of the header of the image at address b, or of its section entry i. -/
def Hw.hdr (h : Hw) (m : Mem) (b off : Nat) : Nat := (h.rd32 m (b + off)).toNat
def secOff (i : Nat) : Nat := 0x0A0 + 16 * i

/-- Base and size of a section's target: application SRAM, program or data memory of an engine, the SRAM of a safety
core, recipe and cam memory. -/
def targetOf (target engine : Nat) : Option (Nat × Nat) :=
  if target = 1 then (if engine < 16 then some (0x10000000 + 0x20000 * engine, 0x10000) else none)
  else if target = 2 then (if engine < 16 then some (0x10010000 + 0x20000 * engine, 0x10000) else none)
  else if engine ≠ 0 then none
  else if target = 0 then some (0, 0x200000)
  else if target = 3 then some (0x100000000, 0x20000)
  else if target = 4 then some (0x100100000, 0x20000)
  else if target = 5 then some (0x28000000, 0x100000)
  else none

/-- Section i of the image at b: target number, address it goes to, room from there to the end of its target, length,
offset of its contents. -/
def Hw.section_ (h : Hw) (m : Mem) (b i : Nat) : Option (Nat × Nat × Nat × Nat × Nat) :=
  let w := h.hdr m b (secOff i)
  let off := h.hdr m b (secOff i + 4)
  (targetOf (w % 256) (w / 256 % 256)).map fun t =>
    (w % 256, t.1 + off, t.2 - off, h.hdr m b (secOff i + 8), h.hdr m b (secOff i + 12))

/-- The sections of an image. -/
def Hw.sections (h : Hw) (m : Mem) (b : Nat) : List (Nat × Nat × Nat × Nat × Nat) :=
  (List.range (h.hdr m b 0x010)).filterMap fun i => h.section_ m b i

/-- Whether the header keeps to R47: its fixed words, the ranges of its fields, the unused entries. -/
def Hw.headerOk (h : Hw) (m : Mem) (b : Nat) : Bool :=
  let n := h.hdr m b 0x010
  h.hdr m b 0 == 0x58494D47 && h.hdr m b 4 == 1 && decide (h.hdr m b 8 < 64)
    && decide (1 ≤ n) && decide (n ≤ 16) && decide (h.hdr m b 0x014 < 0x200000)
    && h.hdr m b 0x018 == 0 && h.hdr m b 0x01C == 0
    && (List.range n).all (fun i => h.hdr m b (secOff i) / 65536 == 0 && (h.section_ m b i).isSome
         && h.hdr m b (secOff i + 8) % 4 == 0)
    && (List.range 64).all fun k => decide (k < 4 * n) || h.hdr m b (0x0A0 + 4 * k) == 0

/-- The SHA-256 of PUBKEY (R48 step 2). -/
def Hw.pubHash (h : Hw) (m : Mem) (b : Nat) : BitVec 256 := BitVec.ofNat 256 (sha256 (h.rdN m (b + 0x020) 64))

/-- Why the image at b, in a slot of `size` bytes, is rejected before its copy (R48 step 2), 0 where it is not. -/
def Hw.headerReject (h : Hw) (m : Mem) (b size : Nat) : Nat :=
  let k := h.hdr m b 0x00C
  if !h.headerOk m b then 1
  else if 4 ≤ k || h.nv.revoked.getLsbD k || h.nv.keyHash.getD k 0 != h.pubHash m b then 2
  else if h.hdr m b 8 < h.nv.secMin.toNat then 3
  else if (h.sections m b).all fun x => decide (x.2.2.2.1 ≤ x.2.2.1) && decide (x.2.2.2.2 + x.2.2.2.1 ≤ size) then 0
  else 5

/-- The sections copied to their targets (R48 step 3), with their contents as read, or their targets cleared (R49). -/
def Hw.copySections (h : Hw) (m : Mem) (b : Nat) : Hw × List Byte :=
  (h.sections m b).foldl (fun a x =>
    let d := a.1.rdN m (b + x.2.2.2.2) x.2.2.2.1
    (a.1.wrN x.2.1 d, a.2 ++ d)) (h, [])
def Hw.clearSections (h : Hw) (secs : List (Nat × Nat × Nat × Nat × Nat)) : Hw :=
  h.each secs fun h x => h.wrN x.2.1 (List.replicate x.2.2.2.1 0)

/-- Whether SIG is the signature over the header, taken with SIG zero, and the contents of the sections (R47). -/
def Hw.sigOk (h : Hw) (m : Mem) (b : Nat) (contents : List Byte) : Bool :=
  let header := h.rdN m b 0x060 ++ List.replicate 64 0 ++ h.rdN m (b + 0x0A0) 256
  let num := fun off => beNat (h.rdN m (b + off) 32)
  ecdsaOk (sha256 (header ++ contents)) (num 0x020) (num 0x040) (num 0x060) (num 0x080)

/-- One image tried: checked, copied and verified. Answers the module and the reason of the rejection, 0 for none. -/
def Hw.tryImage (h : Hw) (m : Mem) (b size : Nat) : Hw × Nat :=
  let r := h.headerReject m b size
  if r ≠ 0 then (h, r)
  else
    let x := h.copySections m b
    if h.sigOk m b x.2 then (x.1, 0) else (x.1.clearSections (h.sections m b), 4)

/-- The check of a safety core over its SRAM (R50): each section's last four bytes are the CRC of the rest. -/
def Hw.sramOk (h : Hw) (m : Mem) (secs : List (Nat × Nat × Nat × Nat × Nat)) : Bool :=
  secs.all fun x =>
    decide (4 ≤ x.2.2.2.1) && crc32c (h.rdN m x.2.1 (x.2.2.2.1 - 4)) == h.rd32 m (x.2.1 + x.2.2.2.1 - 4)

/-- The start of an image that passed (R48 steps 4 and 5, R405): safety cores released and their SRAM checked,
BOOT_DONE, AC0 at ENTRY; a module that is not a member of a pair makes its claim. `slot` and `debug` as BOOT_STAT shows
them. -/
def Hw.startImage (h : Hw) (m : Mem) (slot debug : Nat) (secs : List (Nat × Nat × Nat × Nat × Nat))
    (entry : Word) (sec : Nat) : Hw :=
  let ofA := secs.filter (·.1 == 3)
  let ofB := secs.filter (·.1 == 4)
  let okA := h.sramOk m ofA
  let okB := h.sramOk m ofB
  let h := { h with sys := { h.sys with entry, scRun := 3 } }
  let h := h.setReg (sy 0x044) (BitVec.ofNat 32 (slot + 2 * debug + 256 * sec))
  let h := h.setBit (sy rREADY) 2 true
  let h := { h with saf := { h.saf with crcOk := okA && okB && !ofA.isEmpty && !ofB.isEmpty } }
  let h := if okA && okB then h.safReadyCheck
    else h.safFault 1 ((if okA then 0 else 1) + if okB then 0 else 2)
  if h.paired then h else h.upPair fun q => { q with claimDue := true }

/-- BOOT_COMPLETE: slot A, else slot B; where both are rejected the module stays in BRINGUP with its FAULT LED steady. -/
def Hw.boot (h : Hw) (m : Mem) : Hw :=
  if h.mode ≠ mBRINGUP ∨ h.bit (sy rREADY) 2 ∨ h.sys.faultLed then h
  else
    let h := h.setBit (ck 0x044) 0 true
    let start := fun (h0 h : Hw) (b slot : Nat) =>
      h.startImage m slot 0 (h0.sections m b) (BitVec.ofNat 32 (h0.hdr m b 0x014)) (h0.hdr m b 8)
    let a := h.tryImage m 0x60000000 0x1000000
    if a.2 = 0 then start h a.1 0x60000000 0
    else
      let b := a.1.tryImage m 0x61000000 0x1000000
      if b.2 = 0 then start h (b.1.evt pSYS 4) 0x61000000 1
      else { b.1 with sys := { b.1.sys with faultLed := true } }.setF (sy 0x044) 7 4 6

/-- DEBUG_IMAGE_LOAD (R49): after both slots are rejected, an image in application SRAM is checked and started. -/
def Hw.debugImage (h : Hw) (m : Mem) : Hw :=
  if h.mode = mBRINGUP ∧ !h.bit (sy rREADY) 2 ∧ h.sys.faultLed then
    let b := 0x00100000
    let a := h.tryImage m b 0x100000
    if a.2 = 0 then
      a.1.startImage m 0 1 (h.sections m b) (BitVec.ofNat 32 (h.hdr m b 0x014)) (h.hdr m b 8)
    else a.1.setF (sy 0x044) 7 4 a.2
  else h

/-- BOOT_COMPLETE. -/
def execBootComplete (g : Nat) (s : State) := run g (fun m h => h.boot m) s
/-- DEBUG_IMAGE_LOAD. -/
def execDebugImageLoad (g : Nat) (s : State) := run g (fun m h => h.debugImage m) s

end Sys2Proof.Machine
end

