-- ==== Sys2Proof/Machine/Batch.lean ====
section
/-! DEFINITION. The batch boundary: everything that is paced by batches, in the order of one boundary grain (R19 to R24,
R61), the change of batch length and the step of control time. -/

namespace Sys2Proof.Machine

/-- The commit point of a page whose pending set is taken at batch boundaries (R61). CLK, LEG, CAR and NSW have commit
points of their own. -/
def Hw.batchTake (h : Hw) (p : Nat) : Hw :=
  match pageBlock p with
  | (.clk, _) => h
  | (.leg, _) => h
  | (.car, _) => h
  | (.nsw, _) => h
  | (.fb, n) => h.fbTake n
  | (.sdm, n) => h.sdmTake n
  | (.prf, _) => h.prfTake
  | (.lsh, _) => h.lshTake
  | (.ntm, _) => h.ntmTake
  | (.acq, _) => h.acqTake
  | (.pair, _) => h.pairTake
  | _ => h.takePending p

/-- The commits of a boundary. -/
def Hw.batchCommits (h : Hw) : Hw := h.each ((List.range 512).filter h.takes) Hw.batchTake

/-- One batch that a synchronising shadow evaluates late (R415): the mirrored writes due by its instant T, then the units
at T. -/
def Hw.catchUp (h : Hw) (m : Mem) (X T : Nat) : Hw :=
  let due := h.pair.queue.filter fun w => decide (w.due ≤ T)
  let h := h.upPair fun q => { q with queue := q.queue.filter fun w => !decide (w.due ≤ T) }
  let h := h.each due fun h w => h.mirrorDo m w
  let h := (((h.unitsShift m).unitsRelease (h.grain - (X - T))).unitsPlan).unitsEval m T (T + h.batch)
  h.upPair fun q => { q with behind := some (T + h.batch) }

/-- The units at the boundary of instant X: live, or, in a shadow that catches up, up to four batches of those it owes;
at the present batch it goes on to the engines. -/
def Hw.batchUnits (h : Hw) (m : Mem) (X next : Nat) : Hw :=
  match h.pair.behind with
  | none => (h.unitsPlan).unitsEval m (next - h.batch) next
  | some _ =>
    let h := h.each (List.range 4) fun h _ =>
      match h.pair.behind with
      | some T => if T ≤ X then h.catchUp m X T else h
      | none => h
    if (h.pair.behind.getD 0) ≤ X then h
    else (h.upPair fun q => { q with behind := none }).engineNext none

/-- The load figure of engine e at a batch boundary (R172): the HCLK cycles it spent outside waits and halts in the batch
just ended, and the highest since CNT_CLR. -/
def Hw.loadShow (h : Hw) (e : Nat) : Hw :=
  let x := (h.hyt e).clock h.grain (h.hyt e).since.isSome
  let v := BitVec.ofNat 32 (2 * x.busy)
  let h := (h.setHyt e { x with busy := 0 }).setReg (hy e 0x05C) v
  h.when (decide ((h.reg (hy e 0x060)).toNat < v.toNat)) fun h => h.setReg (hy e 0x060) v

/-- The slip of the batch that ends at grain B at instant X (R20, R24). -/
def Hw.slip (h : Hw) (X : Nat) (exempt : Bool) : Hw :=
  let n : Int := (h.grain : Int) - (h.reg64 (ck 0x058)).toNat - ((X : Int) - h.clk.lastB)
  let s : Int := if exempt then 0 else n
  let h := h.setF (ck 0x068) 15 0 (unsign 16 s)
  if h.f (ck 0x068) 31 16 < s.natAbs then (h.evt pCLK 3).log pCLK 10 3 0 h.grain else h

/-- Whether the step that is due at this boundary waits for the legs (R24, R298): the bits change at a boundary alone
(DESIGN CHOICE, log entry 165). -/
def Hw.stepWait (h : Hw) (w : Bool) : Hw := (h.setBit (nt rSTAT) 3 w).setBit (ck rSTAT) 0 w

/-- CT goes on from boundary B: its base moves there, its increment follows the source (R297). -/
def Hw.moveBase (h : Hw) (X : Nat) : Hw :=
  let c := h.clk
  let h := { h with clk := { c with ctBase := h.ctAt h.grain, ctBaseGrain := h.grain, nextB := X + h.batch, lastB := X,
                                    past := (c.ctBaseGrain, c.ctBase, c.ctInc) :: c.past.take 7, exempt := false,
                                    batchNum := X / h.batch } }
  (h.setReg (ck 0x060) (BitVec.ofNat 32 ((X / h.batch) % max 1 h.ncyc))).ctSlew

/-- BATCH_CHANGE_APPLY: a change that a boundary of this grain has already made is over. -/
def Hw.batchChange (h : Hw) : Hw :=
  let due := h.takes pCLK
  let h := h.batchApply
  if due && !h.takes pCLK then h.gclCheck else h

/-- The time base at boundary X in grain B: a change of batch length, the slip, the CT source, then the CT step or the
slew. Answers whether CT stepped. -/
def Hw.timeBoundary (h : Hw) (X : Nat) : Hw × Bool :=
  let B := h.grain
  let d := (h.ctSource).ctStepDue
  let h := d.1
  let legs := h.anyEnabled
  let steps := d.2.isSome && !legs
  let h := h.slip X (h.clk.exempt || steps)
  let h := if steps then h else h.batchChange
  let h := (h.setReg64 (ck 0x058) (BitVec.ofNat 64 B)).setReg (ck 0x064) (h.reg (ck 0x064) + 1)
  match d.2 with
  | some (v, inc) =>
    if legs then ((h.stepWait true).moveBase X, false)
    else
      let h := h.ctStep v inc
      ({ h with clk := { h.clk with lastB := h.clk.nextB - h.batch } }, true)
  | none => ((h.stepWait false).moveBase X, false)

/-- A batch boundary, at the instant CT has reached. -/
def Hw.batchBoundary (h : Hw) (m : Mem) : Hw :=
  let X := h.clk.nextB
  let B := h.grain
  let h := h.when h.pair.behind.isNone fun h => h.unitsShift m
  let t := h.timeBoundary X
  let h := t.1
  let cyc := X % (h.batch * max 1 h.ncyc) == 0
  let h := h.each ((List.range 32).filter fun a => (h.axis a).load) Hw.homeLoad
  let h := h.each (List.range 32) Hw.fbBoundary
  let h := h.when h.pair.behind.isNone fun h => h.unitsRelease B
  let h := h.batchCommits.dclkBoundary
  let h := h.batchUnits m X h.clk.nextB
  let h := h.each (List.range 32) fun h c => h.carBoundary c (if t.2 then 0 else h.clk.batchNum)
  let h := (h.modeBoundary).shadowBoundary
  let h := h.compareSend X
  let h := (h.captureUnits m X).copyDone X
  let h := h.dropArrivals
  let h := h.selEvent 5 0
  let h := if cyc then ((h.selEvent 6 0).nswTake).nswCycle X else h
  h.each (List.range 16) fun h e => (h.loadShow e).kHooks m e

/-- BATCH_BOUNDARY. -/
def Hw.boundaryCmd (h : Hw) (m : Mem) : Hw := if h.clk.nextB ≤ h.ctGrains h.grain then h.batchBoundary m else h

/-- CT_STEP: the boundary at which the step that is due is applied. -/
def Hw.ctStepCmd (h : Hw) (m : Mem) : Hw :=
  if h.clk.nextB ≤ h.ctGrains h.grain && (h.ctSource).ctStepDue.2.isSome then h.batchBoundary m else h

/-- BATCH_BOUNDARY. -/
def execBatchBoundary (g : Nat) (s : State) := run g (fun m h => h.boundaryCmd m) s
/-- BATCH_CHANGE_APPLY. -/
def execBatchChangeApply (g : Nat) (s : State) := run g (fun _ h => h.batchChange) s
/-- CT_STEP. -/
def execCtStep (g : Nat) (s : State) := run g (fun m h => h.ctStepCmd m) s

end Sys2Proof.Machine
end

