-- ==== Sys2Proof/Machine/Order.lean ====
section
/-! DEFINITION. Commands of one PCLK cycle that the spec puts in an order of its own (R244, R261, R329, R341, R356, R400,
R451): before a command acts, those that stand in the queue behind it and go first act. -/

namespace Sys2Proof.Machine

/-- A register write as the fabric or a command of its own gives it: grain, page, offset and value. -/
def writeOf : Instr → Option (Nat × Nat × Nat × Word)
  | .registerWrite g _ a n v =>
    if n = 4 ∧ 0x40000000 ≤ a ∧ a < 0x40200000 ∧ a % 4 = 0 then some (g, (a - 0x40000000) / 0x1000, a % 0x1000, v) else none
  | .masterFeed g m => some (g, pLSH, 0x0E0, m.setWidth 32)
  | .rejoin g m => some (g, pLSH, 0x0E4, m.setWidth 32 ||| 0x100)
  | .swRet g c => some (g, pNSW, 0x094, c.setWidth 32)
  | .swPost g v => some (g, pNSW, 0x09C, v)
  | .acqArm g => some (g, pACQ, 0x058, 1)
  | .acqRelease g n => some (g, pACQ, 0x06C, n.setWidth 32)
  | .canRxRdWrite g n v => some (g, pCAN n, 0x058, v)
  | .canTxAbort g n k => some (g, pCAN n, 0x210 + 0x60 * k, 3)
  | .ovlClr g b v => some (g, pFIO (grpN b), 0x0A0, v.setWidth 32)
  | .logRdWrite g v => some (g, pFLT, 0x044, v)
  | _ => none

/-- Whether a command writes the register at an offset of a page with a value that meets a test. -/
def writes (i : Instr) (p off : Nat) (ok : Word → Bool) : Bool :=
  match writeOf i with
  | some (_, q, o, v) => q == p && o == off && ok v
  | none => false

/-- The grain of a command that may act ahead of another. -/
def earlyGrain (i : Instr) : Option Nat :=
  match i with
  | .frameReceive g _ | .cyclicFrameReceive g _ _ _ | .announcementReceive g _ _ | .canTxDone g _ _ | .canTxStart g _
  | .fieldUpstreamFrame g _ _ _ _ _ | .logRecordWrite g | .thermalRead g _ | .ledgerRead g => some g
  | _ => (writeOf i).map (·.1)

/-- What a register write lets go first: a feed the REJOINs, a hand-off of cells a reading of the ledger, an ARM the
releases, an ABORT the end of a frame, LOG_RD the records written, OVL_CLR the frame that reports a shutdown. -/
def beforeWrite (p off : Nat) (v : Word) (i : Instr) : Bool :=
  match i with
  | .ledgerRead _ => p == pNSW && (off == 0x094 || off == 0x09C)
  | .canTxDone _ n _ =>
    p == pCAN n && decide (0x200 ≤ off) && decide (off < 0x800) && (off - 0x200) % 0x60 == 0x10 && fld v 1 0 == 3
  | .logRecordWrite _ => p == pFLT && off == 0x044
  | .fieldUpstreamFrame _ b _ _ _ _ => p == pFIO (grpN b) && off == 0x0A0
  | _ =>
    (p == pLSH && off == 0x0E0 && writes i pLSH 0x0E4 fun w => fld w 9 8 == 1) ||
      (p == pACQ && off == 0x058 && fld v 2 0 == 1 && writes i pACQ 0x06C fun _ => true)

/-- A release of a software buffer. -/
def isSwRet (i : Instr) : Bool := writes i pNSW 0x094 fun _ => true

def isLedgerRead : Instr → Bool
  | .ledgerRead _ => true
  | _ => false

/-- What a received frame lets go first: a reading of the ledger, releases, the frames of lower ports. -/
def beforeFrame (port : Nat) : Instr → Option Nat
  | .frameReceive _ f => if f.port < port then some (2 + f.port) else none
  | i => if isSwRet i then some 1 else if isLedgerRead i then some 0 else none

/-- What a cyclic frame lets go first: REJOINs, and a copy of LAN A before one of LAN B. -/
def beforeCyclic (lanB : Bool) : Instr → Option Nat
  | .cyclicFrameReceive _ b _ _ => if lanB && !b then some 2 else none
  | i => if writes i pLSH 0x0E4 fun w => fld w 9 8 == 1 then some 1 else none

/-- What an announcement lets go first: those of lower MAC addresses. -/
def beforeAnnouncement (mac : BitVec 48) : Instr → Option Nat
  | .announcementReceive _ _ a => if a.mac.toNat < mac.toNat then some a.mac.toNat else none
  | _ => none

/-- Commands that a test picks, in their order. -/
def pick (ok : Instr → Bool) (i : Instr) : Option Nat := if ok i then some 0 else none

/-- The commands of a PCLK cycle in the queue that a command lets go first and that have not acted yet, lowest number
first. -/
def ahead (g : Nat) (before : Instr → Option Nat) (s : State) : List Instr :=
  let cyc := max s.hw.grain g / 5
  let js := (s.pending.diff s.hw.early).filter fun i =>
    (before i).isSome && (match earlyGrain i with | some g => g / 5 == cyc | none => false)
  js.insertionSort fun x y => (before x).getD 0 ≤ (before y).getD 0

/-- A command that acts ahead of its turn. -/
def actEarly (i : Instr) (s : State) : Host.Outcome State Fault Refusal :=
  match i with
  | .rejoin g m => actRejoin g m s
  | .registerWrite g r a n v => actRegisterWrite g r a n v s
  | .swRet g c => actSwRet g c s
  | .acqRelease g n => actAcqRelease g n s
  | .canRxRdWrite g n v => actCanRxRdWrite g n v s
  | .canTxDone g n sof => actCanTxDone g n sof s
  | .canTxStart g n => actCanTxStart g n s
  | .frameReceive g f => actFrameReceive g f s
  | .cyclicFrameReceive g b p d => actCyclicFrameReceive g b p d s
  | .announcementReceive g b a => actAnnouncementReceive g b a s
  | .fieldUpstreamFrame g b v rb vo hot => actFieldUpstreamFrame g b v rb vo hot s
  | .logRecordWrite g => actLogRecordWrite g s
  | .thermalRead g t => actThermalRead g t s
  | .ledgerRead g => actLedgerRead g s
  | _ => .next s

/-- Commands act ahead, noted so that they do not act again in their turn; then one in its turn. What each sends leaves
the module with the last. -/
def actAll (f : State → Host.Outcome State Fault Refusal) : List Instr → State → Host.Outcome State Fault Refusal
  | [], s => f s
  | i :: is, s =>
    match actEarly i s with
    | .next t =>
      match actAll f is { t with hw := { t.hw with early := i :: t.hw.early } } with
      | .next u => .next { u with hw := { u.hw with out := t.hw.out ++ u.hw.out } }
      | o => o
    | o => o

/-- A command of grain g in its turn, which `mine` knows in the list of those that have acted: after those that go first;
where it has acted already it does nothing more. While the die is held nothing acts ahead. -/
def inTurn (g : Nat) (mine : Instr → Bool) (before : Instr → Option Nat) (f : State → Host.Outcome State Fault Refusal)
    (s : State) : Host.Outcome State Fault Refusal :=
  if s.hw.sys.held then f s
  else if s.hw.early.any mine then runSup g (fun _ h => { h with early := h.early.eraseP mine }) s
  else actAll f (ahead g before s) s

/-- A register write in its turn. -/
def writeTurn (g : Nat) (mine : Instr → Bool) (p off : Nat) (v : Word) (f : State → Host.Outcome State Fault Refusal)
    (s : State) : Host.Outcome State Fault Refusal := inTurn g mine (pick (beforeWrite p off v)) f s

/-- No command goes before. -/
def first (_ : Instr) : Option Nat := none

/-- MASTER_FEED. -/
def execMasterFeed (g : Nat) (m : BitVec 3) (s : State) :=
  writeTurn g (fun _ => false) pLSH 0x0E0 (m.setWidth 32) (actMasterFeed g m) s
/-- REJOIN. -/
def execRejoin (g : Nat) (m : BitVec 3) (s : State) := inTurn g (· == .rejoin g m) first (actRejoin g m) s
/-- REGISTER_WRITE. -/
def execRegisterWrite (g : Nat) (req addr bytes : Nat) (v : Word) (s : State) :=
  let i := Instr.registerWrite g req addr bytes v
  let w := (writeOf i).getD (g, 0, 0, 0)
  writeTurn g (· == i) w.2.1 w.2.2.1 w.2.2.2 (actRegisterWrite g req addr bytes v) s
/-- FRAME_RECEIVE. -/
def execFrameReceive (g : Nat) (f : Frame) (s : State) :=
  inTurn g (· == .frameReceive g f) (beforeFrame f.port) (actFrameReceive g f) s
/-- FRAME_EGRESS. -/
def execFrameEgress (g : Nat) (port : Fin 4) (s : State) :=
  inTurn g (fun _ => false) (pick isLedgerRead) (actFrameEgress g port) s
/-- SW_RET. -/
def execSwRet (g : Nat) (cell : BitVec 13) (s : State) :=
  writeTurn g (· == .swRet g cell) pNSW 0x094 (cell.setWidth 32) (actSwRet g cell) s
/-- SW_ALLOC. -/
def execSwAlloc (g : Nat) (s : State) := inTurn g (fun _ => false) (pick isLedgerRead) (actSwAlloc g) s
/-- SW_POST. -/
def execSwPost (g : Nat) (v : Word) (s : State) := writeTurn g (fun _ => false) pNSW 0x09C v (actSwPost g v) s
/-- LEDGER_READ. -/
def execLedgerRead (g : Nat) (s : State) := inTurn g (· == .ledgerRead g) first (actLedgerRead g) s
/-- CYCLIC_FRAME_RECEIVE. -/
def execCyclicFrameReceive (g : Nat) (lanB : Bool) (prp : Option (BitVec 48 × BitVec 16)) (data : List (BitVec 8))
    (s : State) :=
  inTurn g (· == .cyclicFrameReceive g lanB prp data) (beforeCyclic lanB) (actCyclicFrameReceive g lanB prp data) s
/-- ANNOUNCEMENT_RECEIVE. -/
def execAnnouncementReceive (g : Nat) (lanB : Bool) (a : Announcement) (s : State) :=
  inTurn g (· == .announcementReceive g lanB a) (beforeAnnouncement a.mac) (actAnnouncementReceive g lanB a) s
/-- CAN_FRAME_RECEIVE. -/
def execCanFrameReceive (g : Nat) (n : Fin 2) (f : CanFrame) (s : State) :=
  inTurn g (fun _ => false) (pick fun i => writes i (pCAN n) 0x058 fun _ => true) (actCanFrameReceive g n f) s
/-- CAN_RX_RD_WRITE. -/
def execCanRxRdWrite (g : Nat) (n : Fin 2) (v : Word) (s : State) :=
  inTurn g (· == .canRxRdWrite g n v) first (actCanRxRdWrite g n v) s
/-- CAN_TX_ABORT. -/
def execCanTxAbort (g : Nat) (n : Fin 2) (k : Fin 16) (s : State) :=
  writeTurn g (fun _ => false) (pCAN n) (0x210 + 0x60 * k) 3 (actCanTxAbort g n k) s

/-- A start of transmission on channel n in grain g. -/
def isTxStart (g : Nat) (n : Fin 2) : Instr → Bool
  | .canTxStart g' n' => g' == g && n' == n
  | _ => false

/-- CAN_TX_LATE. -/
def execCanTxLate (g : Nat) (n : Fin 2) (k : Fin 16) (s : State) :=
  inTurn g (fun _ => false) (pick (isTxStart g n)) (actCanTxLate g n k) s
/-- CAN_TX_START. -/
def execCanTxStart (g : Nat) (n : Fin 2) (s : State) := inTurn g (isTxStart g n) first (actCanTxStart g n) s
/-- CAN_TX_DONE. -/
def execCanTxDone (g : Nat) (n : Fin 2) (sof : Nat) (s : State) :=
  inTurn g (· == .canTxDone g n sof) first (actCanTxDone g n sof) s
/-- ACQ_ARM. -/
def execAcqArm (g : Nat) (s : State) := writeTurn g (fun _ => false) pACQ 0x058 1 (actAcqArm g) s
/-- ACQ_RELEASE. -/
def execAcqRelease (g : Nat) (n : BitVec 10) (s : State) :=
  inTurn g (· == .acqRelease g n) first (actAcqRelease g n) s

/-- The upstream frame of grain g with its content. -/
def isUpstream (g : Nat) (grp valid : Bool) (rb : BitVec 16) (volts : BitVec 8) (dieHot : Bool) : Instr → Bool
  | .fieldUpstreamFrame a b c d e f => a == g && b == grp && c == valid && d == rb && e == volts && f == dieHot
  | _ => false

/-- FIELD_UPSTREAM_FRAME. -/
def execFieldUpstreamFrame (g : Nat) (grp valid : Bool) (rb : BitVec 16) (volts : BitVec 8) (dieHot : Bool) (s : State) :=
  inTurn g (isUpstream g grp valid rb volts dieHot) first (actFieldUpstreamFrame g grp valid rb volts dieHot) s
/-- OVL_CLR. -/
def execOvlClr (g : Nat) (grp : Bool) (v : BitVec 16) (s : State) :=
  writeTurn g (fun _ => false) (pFIO (grpN grp)) 0x0A0 (v.setWidth 32) (actOvlClr g grp v) s

/-- The thermal reading t of grain g. -/
def isThermal (g : Nat) (t : ThermalReading) : Instr → Bool
  | .thermalRead g' t' => g' == g && t' == t
  | _ => false

/-- THERMAL_READ. -/
def execThermalRead (g : Nat) (t : ThermalReading) (s : State) :=
  inTurn g (isThermal g t) first (actThermalRead g t) s

/-- A thermal reading of grain g. -/
def isThermalAt (g : Nat) : Instr → Bool
  | .thermalRead g' _ => g' == g
  | _ => false

/-- THROTTLE_STEP. -/
def execThrottleStep (g : Nat) (s : State) :=
  inTurn g (fun _ => false) (pick (isThermalAt g)) (actThrottleStep g) s

/-- The writing of a record in grain g. -/
def isLogWrite (g : Nat) : Instr → Bool
  | .logRecordWrite g' => g' == g
  | _ => false

/-- LOG_RECORD_WRITE. -/
def execLogRecordWrite (g : Nat) (s : State) := inTurn g (isLogWrite g) first (actLogRecordWrite g) s
/-- LOG_RD_WRITE. -/
def execLogRdWrite (g : Nat) (v : Word) (s : State) := writeTurn g (fun _ => false) pFLT 0x044 v (actLogRdWrite g v) s

end Sys2Proof.Machine
end

