-- ==== Sys2Proof/Machine/Dispatch.lean ====
section
/-! DEFINITION. One arm per command of the opcode table: the meaning of each. -/

namespace Sys2Proof.Machine

def exec (i : Instr) (s : State) : Host.Outcome State Fault Refusal :=
  match i with
  | .refclkLoss g => Sys2Proof.Machine.execRefclkLoss g s
  | .clkRefWrite g v refPresent => Sys2Proof.Machine.execClkRefWrite g v refPresent s
  | .clockFail g lockLost gclkCount => Sys2Proof.Machine.execClockFail g lockLost gclkCount s
  | .pllRelockTimeout g => Sys2Proof.Machine.execPllRelockTimeout g s
  | .pllRelock g refPresent => Sys2Proof.Machine.execPllRelock g refPresent s
  | .batchBoundary g => Sys2Proof.Machine.execBatchBoundary g s
  | .batchChangeApply g => Sys2Proof.Machine.execBatchChangeApply g s
  | .ctStep g => Sys2Proof.Machine.execCtStep g s
  | .safetyTick g chB inp => Sys2Proof.Machine.execSafetyTick g chB inp s
  | .semRead g req n => Sys2Proof.Machine.execSemRead g req n s
  | .semWrite g req n v => Sys2Proof.Machine.execSemWrite g req n v s
  | .commitGo g page => Sys2Proof.Machine.execCommitGo g page s
  | .commitDiscard g page => Sys2Proof.Machine.execCommitDiscard g page s
  | .softReset g page => Sys2Proof.Machine.execSoftReset g page s
  | .lockWrite g req page v => Sys2Proof.Machine.execLockWrite g req page v s
  | .evtClear g page v => Sys2Proof.Machine.execEvtClear g page v s
  | .registerWrite g req addr bytes v => Sys2Proof.Machine.execRegisterWrite g req addr bytes v s
  | .modeRequest g m => Sys2Proof.Machine.execModeRequest g m s
  | .powerOnRelease g p => Sys2Proof.Machine.execPowerOnRelease g p s
  | .bootComplete g => Sys2Proof.Machine.execBootComplete g s
  | .debugImageLoad g => Sys2Proof.Machine.execDebugImageLoad g s
  | .secVerAdvance g v => Sys2Proof.Machine.execSecVerAdvance g v s
  | .flashErase g => Sys2Proof.Machine.execFlashErase g s
  | .flashProgram g => Sys2Proof.Machine.execFlashProgram g s
  | .flashCmdDone g => Sys2Proof.Machine.execFlashCmdDone g s
  | .acDebugHalt g core => Sys2Proof.Machine.execAcDebugHalt g core s
  | .acDebugResume g core => Sys2Proof.Machine.execAcDebugResume g core s
  | .safetyCoreHalt g chB => Sys2Proof.Machine.execSafetyCoreHalt g chB s
  | .jtagInstruction g j => Sys2Proof.Machine.execJtagInstruction g j s
  | .legEnable g leg => Sys2Proof.Machine.execLegEnable g leg s
  | .legDisable g leg => Sys2Proof.Machine.execLegDisable g leg s
  | .bridgeWrap g b => Sys2Proof.Machine.execBridgeWrap g b s
  | .bridgeReload g b => Sys2Proof.Machine.execBridgeReload g b s
  | .pulEdge g leg rise => Sys2Proof.Machine.execPulEdge g leg rise s
  | .hsOnTimeExceeded g leg => Sys2Proof.Machine.execHsOnTimeExceeded g leg s
  | .legCntClr g leg => Sys2Proof.Machine.execLegCntClr g leg s
  | .gstPeriod g leg period high => Sys2Proof.Machine.execGstPeriod g leg period high s
  | .gstHardFault g leg => Sys2Proof.Machine.execGstHardFault g leg s
  | .gstStuckHigh g leg => Sys2Proof.Machine.execGstStuckHigh g leg s
  | .tripAssert g t level sampled => Sys2Proof.Machine.execTripAssert g t level sampled s
  | .tripFiltered g t => Sys2Proof.Machine.execTripFiltered g t s
  | .tripBlankEnd g t => Sys2Proof.Machine.execTripBlankEnd g t s
  | .tripClr g mask => Sys2Proof.Machine.execTripClr g mask s
  | .didtBlankEnd g leg => Sys2Proof.Machine.execDidtBlankEnd g leg s
  | .retryWaitExpiry g axis cls => Sys2Proof.Machine.execRetryWaitExpiry g axis cls s
  | .retryAct g axis cls => Sys2Proof.Machine.execRetryAct g axis cls s
  | .retryTimeout g axis cls => Sys2Proof.Machine.execRetryTimeout g axis cls s
  | .tryCountForget g axis cls => Sys2Proof.Machine.execTryCountForget g axis cls s
  | .axisClr g mask => Sys2Proof.Machine.execAxisClr g mask s
  | .sdmConversion g n d => Sys2Proof.Machine.execSdmConversion g n d s
  | .crustOutput g n d => Sys2Proof.Machine.execCrustOutput g n d s
  | .sdmCal g n => Sys2Proof.Machine.execSdmCal g n s
  | .sdmCalDone g n disagree => Sys2Proof.Machine.execSdmCalDone g n disagree s
  | .sdmDataStuck g n held => Sys2Proof.Machine.execSdmDataStuck g n held s
  | .dclkLost g m since => Sys2Proof.Machine.execDclkLost g m since s
  | .sdmChannelRestart g n => Sys2Proof.Machine.execSdmChannelRestart g n s
  | .fbLineChange g n lines first => Sys2Proof.Machine.execFbLineChange g n lines first s
  | .fbGlitch g n len => Sys2Proof.Machine.execFbGlitch g n len s
  | .ssiReadStart g n l0 => Sys2Proof.Machine.execSsiReadStart g n l0 s
  | .ssiFrameDone g n samples => Sys2Proof.Machine.execSsiFrameDone g n samples s
  | .posLoad g n => Sys2Proof.Machine.execPosLoad g n s
  | .fbCntClr g n => Sys2Proof.Machine.execFbCntClr g n s
  | .latchArm g n k => Sys2Proof.Machine.execLatchArm g n k s
  | .latchDisarm g n k => Sys2Proof.Machine.execLatchDisarm g n k s
  | .probeLatch g n k level first => Sys2Proof.Machine.execProbeLatch g n k level first s
  | .probeLost g n k len => Sys2Proof.Machine.execProbeLost g n k len s
  | .cmpArm g n k => Sys2Proof.Machine.execCmpArm g n k s
  | .cmpDisarm g n k => Sys2Proof.Machine.execCmpDisarm g n k s
  | .cmpFire g n k => Sys2Proof.Machine.execCmpFire g n k s
  | .nop g e p => Sys2Proof.Machine.execNop g e p s
  | .halt g e p => Sys2Proof.Machine.execHalt g e p s
  | .wait g e p => Sys2Proof.Machine.execWait g e p s
  | .waitResume g e => Sys2Proof.Machine.execWaitResume g e s
  | .clre g e p n => Sys2Proof.Machine.execClre g e p n s
  | .rot g e p => Sys2Proof.Machine.execRot g e p s
  | .br g e p c t => Sys2Proof.Machine.execBr g e p c t s
  | .call g e p c t => Sys2Proof.Machine.execCall g e p c t s
  | .ret g e p k => Sys2Proof.Machine.execRet g e p k s
  | .loop g e p n len => Sys2Proof.Machine.execLoop g e p n len s
  | .loopr g e p r len => Sys2Proof.Machine.execLoopr g e p r len s
  | .mloop g e p r sc len => Sys2Proof.Machine.execMloop g e p r sc len s
  | .mloopi g e p n sc len => Sys2Proof.Machine.execMloopi g e p n sc len s
  | .pset g e p c pg x h => Sys2Proof.Machine.execPset g e p c pg x h s
  | .mov g e p d src => Sys2Proof.Machine.execMov g e p d src s
  | .lda g e p r imm => Sys2Proof.Machine.execLda g e p r imm s
  | .adda g e p r imm => Sys2Proof.Machine.execAdda g e p r imm s
  | .ld g e p d k am disp ecc => Sys2Proof.Machine.execLd g e p d k am disp ecc s
  | .st g e p d k am disp ecc => Sys2Proof.Machine.execSt g e p d k am disp ecc s
  | .ldr g e p d k am disp ecc => Sys2Proof.Machine.execLdr g e p d k am disp ecc s
  | .str g e p d k am disp => Sys2Proof.Machine.execStr g e p d k am disp s
  | .ldl g e p d k am disp ecc => Sys2Proof.Machine.execLdl g e p d k am disp ecc s
  | .stl g e p d k am disp => Sys2Proof.Machine.execStl g e p d k am disp s
  | .ldi g e p d imm => Sys2Proof.Machine.execLdi g e p d imm s
  | .ldil g e p d imm => Sys2Proof.Machine.execLdil g e p d imm s
  | .ldac g e p a imm => Sys2Proof.Machine.execLdac g e p a imm s
  | .mpy g e p a x y => Sys2Proof.Machine.execMpy g e p a x y s
  | .mac g e p a x y => Sys2Proof.Machine.execMac g e p a x y s
  | .msu g e p a x y => Sys2Proof.Machine.execMsu g e p a x y s
  | .mpyp g e p a x y m k u => Sys2Proof.Machine.execMpyp g e p a x y m k u s
  | .macp g e p a x y m k u => Sys2Proof.Machine.execMacp g e p a x y m k u s
  | .msup g e p a x y m k u => Sys2Proof.Machine.execMsup g e p a x y m k u s
  | .mpys g e p a x y m k u => Sys2Proof.Machine.execMpys g e p a x y m k u s
  | .macs g e p a x y m k u => Sys2Proof.Machine.execMacs g e p a x y m k u s
  | .msus g e p a x y m k u => Sys2Proof.Machine.execMsus g e p a x y m k u s
  | .tap g e p a i_ j m c ui uj s_ z => Sys2Proof.Machine.execTap g e p a i_ j m c ui uj s_ z s
  | .add g e p a s_ r => Sys2Proof.Machine.execAdd g e p a s_ r s
  | .sub g e p a s_ r => Sys2Proof.Machine.execSub g e p a s_ r s
  | .addl g e p a s_ r => Sys2Proof.Machine.execAddl g e p a s_ r s
  | .subl g e p a s_ r => Sys2Proof.Machine.execSubl g e p a s_ r s
  | .cmp g e p a s_ r => Sys2Proof.Machine.execCmp g e p a s_ r s
  | .neg g e p a => Sys2Proof.Machine.execNeg g e p a s
  | .abs g e p a => Sys2Proof.Machine.execAbs g e p a s
  | .clr g e p a => Sys2Proof.Machine.execClr g e p a s
  | .min g e p a s_ r => Sys2Proof.Machine.execMin g e p a s_ r s
  | .max g e p a s_ r => Sys2Proof.Machine.execMax g e p a s_ r s
  | .sat g e p a => Sys2Proof.Machine.execSat g e p a s
  | .and g e p a s_ r => Sys2Proof.Machine.execAnd g e p a s_ r s
  | .or g e p a s_ r => Sys2Proof.Machine.execOr g e p a s_ r s
  | .xor g e p a s_ r => Sys2Proof.Machine.execXor g e p a s_ r s
  | .ash g e p a s_ n => Sys2Proof.Machine.execAsh g e p a s_ n s
  | .lsh g e p a s_ n => Sys2Proof.Machine.execLsh g e p a s_ n s
  | .exp g e p a d => Sys2Proof.Machine.execExp g e p a d s
  | .nrm g e p a d => Sys2Proof.Machine.execNrm g e p a d s
  | .scl g e p a x b => Sys2Proof.Machine.execScl g e p a x b s
  | .pwr g e p a x fall n => Sys2Proof.Machine.execPwr g e p a x fall n s
  | .pcom g e p x n => Sys2Proof.Machine.execPcom g e p x n s
  | .fld g e p d a => Sys2Proof.Machine.execFld g e p d a s
  | .fst g e p d a => Sys2Proof.Machine.execFst g e p d a s
  | .illegalInstruction g e w => Sys2Proof.Machine.execIllegalInstruction g e w s
  | .breakpoint g e => Sys2Proof.Machine.execBreakpoint g e s
  | .hytFabricBusError g e addr => Sys2Proof.Machine.execHytFabricBusError g e addr s
  | .signalArrival g e i_ => Sys2Proof.Machine.execSignalArrival g e i_ s
  | .portWriteApply g e => Sys2Proof.Machine.execPortWriteApply g e s
  | .portCommitApply g e => Sys2Proof.Machine.execPortCommitApply g e s
  | .engineTimerExpiry g e => Sys2Proof.Machine.execEngineTimerExpiry g e s
  | .doorbell g e v => Sys2Proof.Machine.execDoorbell g e v s
  | .hytEnable g e => Sys2Proof.Machine.execHytEnable g e s
  | .hytDisable g e => Sys2Proof.Machine.execHytDisable g e s
  | .haltReq g e => Sys2Proof.Machine.execHaltReq g e s
  | .hytStep g e => Sys2Proof.Machine.execHytStep g e s
  | .hytResume g e => Sys2Proof.Machine.execHytResume g e s
  | .hytCntClr g e => Sys2Proof.Machine.execHytCntClr g e s
  | .hytWatchdog g e => Sys2Proof.Machine.execHytWatchdog g e s
  | .hytPmWrite g e i_ v => Sys2Proof.Machine.execHytPmWrite g e i_ v s
  | .hytAxesWrite g e v => Sys2Proof.Machine.execHytAxesWrite g e v s
  | .sinMapWrite g e i_ v => Sys2Proof.Machine.execSinMapWrite g e i_ v s
  | .wselWrite g e j v => Sys2Proof.Machine.execWselWrite g e j v s
  | .kernelAxisStart g e slot => Sys2Proof.Machine.execKernelAxisStart g e slot s
  | .kernelBatchTask g e slot => Sys2Proof.Machine.execKernelBatchTask g e slot s
  | .kernelCurrentUpdate g e slot => Sys2Proof.Machine.execKernelCurrentUpdate g e slot s
  | .segmentRetire g p => Sys2Proof.Machine.execSegmentRetire g p s
  | .push g v => Sys2Proof.Machine.execPush g v s
  | .profileStart g => Sys2Proof.Machine.execProfileStart g s
  | .profileFlush g => Sys2Proof.Machine.execProfileFlush g s
  | .profileLoad g => Sys2Proof.Machine.execProfileLoad g s
  | .profileClear g => Sys2Proof.Machine.execProfileClear g s
  | .stepPulse g c => Sys2Proof.Machine.execStepPulse g c s
  | .masterFeed g m => Sys2Proof.Machine.execMasterFeed g m s
  | .rejoin g m => Sys2Proof.Machine.execRejoin g m s
  | .camCheck g t => Sys2Proof.Machine.execCamCheck g t s
  | .camCheckDone g t => Sys2Proof.Machine.execCamCheckDone g t s
  | .camNextWrite g u t => Sys2Proof.Machine.execCamNextWrite g u t s
  | .axEnable g a => Sys2Proof.Machine.execAxEnable g a s
  | .axStartTimeExpiry g a => Sys2Proof.Machine.execAxStartTimeExpiry g a s
  | .axStop g a => Sys2Proof.Machine.execAxStop g a s
  | .axQstop g a => Sys2Proof.Machine.execAxQstop g a s
  | .axResume g a => Sys2Proof.Machine.execAxResume g a s
  | .axHome g a => Sys2Proof.Machine.execAxHome g a s
  | .axDisable g a => Sys2Proof.Machine.execAxDisable g a s
  | .axReset g a => Sys2Proof.Machine.execAxReset g a s
  | .engFaultWrite g a v => Sys2Proof.Machine.execEngFaultWrite g a v s
  | .axLegSkipWrite g a v => Sys2Proof.Machine.execAxLegSkipWrite g a v s
  | .limitAccepted g a neg level first => Sys2Proof.Machine.execLimitAccepted g a neg level first s
  | .limitRelease g a neg => Sys2Proof.Machine.execLimitRelease g a neg s
  | .homeLevelAccepted g a level first => Sys2Proof.Machine.execHomeLevelAccepted g a level first s
  | .ptpSync g domB m => Sys2Proof.Machine.execPtpSync g domB m s
  | .ptpFollowUp g domB m => Sys2Proof.Machine.execPtpFollowUp g domB m s
  | .ptpDelayResp g domB m => Sys2Proof.Machine.execPtpDelayResp g domB m s
  | .ptpDelayReq g domB m => Sys2Proof.Machine.execPtpDelayReq g domB m s
  | .ptpAnnounce g domB m => Sys2Proof.Machine.execPtpAnnounce g domB m s
  | .announceTimeout g domB => Sys2Proof.Machine.execAnnounceTimeout g domB s
  | .syncLossTimeout g domB => Sys2Proof.Machine.execSyncLossTimeout g domB s
  | .gmSyncSend g domB => Sys2Proof.Machine.execGmSyncSend g domB s
  | .gmAnnounceSend g domB => Sys2Proof.Machine.execGmAnnounceSend g domB s
  | .domSet g domB => Sys2Proof.Machine.execDomSet g domB s
  | .ctStepCmd g src => Sys2Proof.Machine.execCtStepCmd g src s
  | .ctCapture g => Sys2Proof.Machine.execCtCapture g s
  | .frameReceive g f => Sys2Proof.Machine.execFrameReceive g f s
  | .frameEgress g port => Sys2Proof.Machine.execFrameEgress g port s
  | .gclEntryStart g port => Sys2Proof.Machine.execGclEntryStart g port s
  | .swRxPop g => Sys2Proof.Machine.execSwRxPop g s
  | .swRet g cell => Sys2Proof.Machine.execSwRet g cell s
  | .swAlloc g => Sys2Proof.Machine.execSwAlloc g s
  | .swPost g v => Sys2Proof.Machine.execSwPost g v s
  | .ledgerRead g => Sys2Proof.Machine.execLedgerRead g s
  | .cyclicFrameSend g => Sys2Proof.Machine.execCyclicFrameSend g s
  | .cyclicFrameReceive g lanB prp data => Sys2Proof.Machine.execCyclicFrameReceive g lanB prp data s
  | .rxStale g k => Sys2Proof.Machine.execRxStale g k s
  | .announcementSend g => Sys2Proof.Machine.execAnnouncementSend g s
  | .announcementReceive g lanB a => Sys2Proof.Machine.execAnnouncementReceive g lanB a s
  | .partnerLanAge g entry lanB => Sys2Proof.Machine.execPartnerLanAge g entry lanB s
  | .lldpSend g => Sys2Proof.Machine.execLldpSend g s
  | .lldpReceive g port mac ttl => Sys2Proof.Machine.execLldpReceive g port mac ttl s
  | .lldpTtlExpiry g port => Sys2Proof.Machine.execLldpTtlExpiry g port s
  | .prpSupervisionSend g => Sys2Proof.Machine.execPrpSupervisionSend g s
  | .ptSelWrite g e => Sys2Proof.Machine.execPtSelWrite g e s
  | .linkChange g port speed => Sys2Proof.Machine.execLinkChange g port speed s
  | .canFrameReceive g n f => Sys2Proof.Machine.execCanFrameReceive g n f s
  | .canShadowDrain g n => Sys2Proof.Machine.execCanShadowDrain g n s
  | .canRxRdWrite g n v => Sys2Proof.Machine.execCanRxRdWrite g n v s
  | .canRxFramesRead g n => Sys2Proof.Machine.execCanRxFramesRead g n s
  | .canTxRequest g n s_ => Sys2Proof.Machine.execCanTxRequest g n s_ s
  | .canTxTimed g n s_ => Sys2Proof.Machine.execCanTxTimed g n s_ s
  | .canTxAbort g n s_ => Sys2Proof.Machine.execCanTxAbort g n s_ s
  | .canTxTimeReached g n s_ => Sys2Proof.Machine.execCanTxTimeReached g n s_ s
  | .canTxLate g n s_ => Sys2Proof.Machine.execCanTxLate g n s_ s
  | .canTxStart g n => Sys2Proof.Machine.execCanTxStart g n s
  | .canTxDone g n sof => Sys2Proof.Machine.execCanTxDone g n sof s
  | .canTxError g n arbitration => Sys2Proof.Machine.execCanTxError g n arbitration s
  | .canBusOff g n => Sys2Proof.Machine.execCanBusOff g n s
  | .canRecover g n => Sys2Proof.Machine.execCanRecover g n s
  | .canBusRecovered g n => Sys2Proof.Machine.execCanBusRecovered g n s
  | .canProtocolError g n lec tec rec => Sys2Proof.Machine.execCanProtocolError g n lec tec rec s
  | .acqSample g levels => Sys2Proof.Machine.execAcqSample g levels s
  | .acqArm g => Sys2Proof.Machine.execAcqArm g s
  | .acqStop g => Sys2Proof.Machine.execAcqStop g s
  | .acqSoftwareTrigger g => Sys2Proof.Machine.execAcqSoftwareTrigger g s
  | .acqRemoteTrigger g => Sys2Proof.Machine.execAcqRemoteTrigger g s
  | .acqRearmEnd g => Sys2Proof.Machine.execAcqRearmEnd g s
  | .acqRelease g n => Sys2Proof.Machine.execAcqRelease g n s
  | .acqLedgerRead g => Sys2Proof.Machine.execAcqLedgerRead g s
  | .ss1Timeout g k => Sys2Proof.Machine.execSs1Timeout g k s
  | .slsMonitorStart g k => Sys2Proof.Machine.execSlsMonitorStart g k s
  | .brakeLeadExpiry g k => Sys2Proof.Machine.execBrakeLeadExpiry g k s
  | .soTestPulse g j chB opened => Sys2Proof.Machine.execSoTestPulse g j chB opened s
  | .safetyStartupTests g inputs failA failB => Sys2Proof.Machine.execSafetyStartupTests g inputs failA failB s
  | .safConfigWrite g off v => Sys2Proof.Machine.execSafConfigWrite g off v s
  | .soReqWrite g v => Sys2Proof.Machine.execSoReqWrite g v s
  | .sortikCompareWin g j => Sys2Proof.Machine.execSortikCompareWin g j s
  | .sortikGraceExpiry g j => Sys2Proof.Machine.execSortikGraceExpiry g j s
  | .sortikWatchdog g j => Sys2Proof.Machine.execSortikWatchdog g j s
  | .fieldDownstreamFrame g grp taken => Sys2Proof.Machine.execFieldDownstreamFrame g grp taken s
  | .fieldUpstreamFrame g grp valid rb volts dieHot => Sys2Proof.Machine.execFieldUpstreamFrame g grp valid rb volts dieHot s
  | .fieldInputAccept g ch level first => Sys2Proof.Machine.execFieldInputAccept g ch level first s
  | .fieldGlitch g ch len => Sys2Proof.Machine.execFieldGlitch g ch len s
  | .fieldWireBreak g ch first => Sys2Proof.Machine.execFieldWireBreak g ch first s
  | .fieldWireBreakEnd g ch first => Sys2Proof.Machine.execFieldWireBreakEnd g ch first s
  | .fieldOverloadShutdown g ch => Sys2Proof.Machine.execFieldOverloadShutdown g ch s
  | .fieldOutputRestart g ch => Sys2Proof.Machine.execFieldOutputRestart g ch s
  | .ovlClr g grp v => Sys2Proof.Machine.execOvlClr g grp v s
  | .fieldOutSet g grp v => Sys2Proof.Machine.execFieldOutSet g grp v s
  | .fieldOutClr g grp v => Sys2Proof.Machine.execFieldOutClr g grp v s
  | .fieldPulseEnd g ch => Sys2Proof.Machine.execFieldPulseEnd g ch s
  | .fieldSupplyUv g grp first => Sys2Proof.Machine.execFieldSupplyUv g grp first s
  | .fieldSupplyOv g grp first => Sys2Proof.Machine.execFieldSupplyOv g grp first s
  | .fieldSupplyClear g grp ovp first => Sys2Proof.Machine.execFieldSupplyClear g grp ovp first s
  | .fieldLinkStale g grp => Sys2Proof.Machine.execFieldLinkStale g grp s
  | .fieldDieReset g grp => Sys2Proof.Machine.execFieldDieReset g grp s
  | .pairClaim g partnerDrive => Sys2Proof.Machine.execPairClaim g partnerDrive s
  | .claimTimeout g => Sys2Proof.Machine.execClaimTimeout g s
  | .moladClaim g h => Sys2Proof.Machine.execMoladClaim g h s
  | .driveContention g => Sys2Proof.Machine.execDriveContention g s
  | .partnerDriveFall g => Sys2Proof.Machine.execPartnerDriveFall g s
  | .mirrorApply g => Sys2Proof.Machine.execMirrorApply g s
  | .moladCompare g h inst hash lvl => Sys2Proof.Machine.execMoladCompare g h inst hash lvl s
  | .pairHashTimeout g => Sys2Proof.Machine.execPairHashTimeout g s
  | .levelMismatch g leg ena pin first => Sys2Proof.Machine.execLevelMismatch g leg ena pin first s
  | .pairSync g => Sys2Proof.Machine.execPairSync g s
  | .syncEngineStart g e => Sys2Proof.Machine.execSyncEngineStart g e s
  | .mirrorOverflow g => Sys2Proof.Machine.execMirrorOverflow g s
  | .pairHandover g => Sys2Proof.Machine.execPairHandover g s
  | .handoverAbandon g => Sys2Proof.Machine.execHandoverAbandon g s
  | .handoverTake g => Sys2Proof.Machine.execHandoverTake g s
  | .handoverDone g => Sys2Proof.Machine.execHandoverDone g s
  | .pairLeave g => Sys2Proof.Machine.execPairLeave g s
  | .moladLaneLoss g lane => Sys2Proof.Machine.execMoladLaneLoss g lane s
  | .moladHelloSend g => Sys2Proof.Machine.execMoladHelloSend g s
  | .moladHello g h slotId mode cfgHash safSig => Sys2Proof.Machine.execMoladHello g h slotId mode cfgHash safSig s
  | .moladState g h off words => Sys2Proof.Machine.execMoladState g h off words s
  | .moladMirror g h apply addr words => Sys2Proof.Machine.execMoladMirror g h apply addr words s
  | .moladHandover g h tH => Sys2Proof.Machine.execMoladHandover g h tH s
  | .moladSafety g h stopping demands soOn => Sys2Proof.Machine.execMoladSafety g h stopping demands soOn s
  | .moladFrameDiscard g lane => Sys2Proof.Machine.execMoladFrameDiscard g lane s
  | .leverOpen g => Sys2Proof.Machine.execLeverOpen g s
  | .presentNBreak g => Sys2Proof.Machine.execPresentNBreak g s
  | .powerFail g samplesMv => Sys2Proof.Machine.execPowerFail g samplesMv s
  | .shedComplete g => Sys2Proof.Machine.execShedComplete g s
  | .saveComplete g => Sys2Proof.Machine.execSaveComplete g s
  | .saveCmd g => Sys2Proof.Machine.execSaveCmd g s
  | .restoreCmd g => Sys2Proof.Machine.execRestoreCmd g s
  | .restoreComplete g => Sys2Proof.Machine.execRestoreComplete g s
  | .warmRestart g since => Sys2Proof.Machine.execWarmRestart g since s
  | .holdupExhausted g => Sys2Proof.Machine.execHoldupExhausted g s
  | .holdTest g vlogMv => Sys2Proof.Machine.execHoldTest g vlogMv s
  | .holdTestDone g capUf esrMohm => Sys2Proof.Machine.execHoldTestDone g capUf esrMohm s
  | .thermalRead g t => Sys2Proof.Machine.execThermalRead g t s
  | .throttleStep g => Sys2Proof.Machine.execThrottleStep g s
  | .cooldownEnd g => Sys2Proof.Machine.execCooldownEnd g s
  | .roDisagree g => Sys2Proof.Machine.execRoDisagree g s
  | .sensorStuck g n => Sys2Proof.Machine.execSensorStuck g n s
  | .fltWindowExpiry g page => Sys2Proof.Machine.execFltWindowExpiry g page s
  | .logRecordWrite g => Sys2Proof.Machine.execLogRecordWrite g s
  | .logRdWrite g v => Sys2Proof.Machine.execLogRdWrite g v s
  | .devClr g v => Sys2Proof.Machine.execDevClr g v s
  | .scrubPass g corrected uncorrectable => Sys2Proof.Machine.execScrubPass g corrected uncorrectable s
  | .leavenLockRegained g refPresent => Sys2Proof.Machine.execLeavenLockRegained g refPresent s
  | .pageEnable g page on => Sys2Proof.Machine.execPageEnable g page on s
  | .functionReady g page cal => Sys2Proof.Machine.execFunctionReady g page cal s
  | .latchedRead g addr => Sys2Proof.Machine.execLatchedRead g addr s
  | .delayReqSend g domB => Sys2Proof.Machine.execDelayReqSend g domB s
  | .busIntegration g n => Sys2Proof.Machine.execBusIntegration g n s
  | .moladLeave g h => Sys2Proof.Machine.execMoladLeave g h s
  | .moladSync g h phase bs => Sys2Proof.Machine.execMoladSync g h phase bs s
  | .leverClose g => Sys2Proof.Machine.execLeverClose g s
  | .vlogHigh g mv => Sys2Proof.Machine.execVlogHigh g mv s
  | .holdTestAuto g vlogMv vholdMv => Sys2Proof.Machine.execHoldTestAuto g vlogMv vholdMv s

end Sys2Proof.Machine
end

