-- ==== Sys2Proof/Safety.lean ====
section
/-! DEFINITION. The words the statements are made of: a die that runs, a page software may write, a command that answers a
next state, a memory in order, and a module whose legs are all safe. -/

namespace Sys2Proof

open Machine

/-- The die runs: the supervisor does not hold it in reset (R43, R437, R445). -/
abbrev Live (s : State) : Prop := s.hw.sys.held = false

/-- No load is shed: the links, CAN, acquisition and the safety wires run (R435, R445). -/
abbrev Unshed (s : State) : Prop := s.hw.sup.shed = false

/-- No command that waits in the queue may go before one of grain g (R30), and none has acted ahead of its turn. -/
abbrev Alone (s : State) (g : Nat) : Prop :=
  s.hw.early = [] ∧ ∀ i ∈ s.pending, (earlyGrain i).map (· / 5) ≠ some (max s.hw.grain g / 5)

/-- Software may write page p: its LOCK is clear (R62). -/
abbrev Unlocked (s : State) (p : Nat) : Prop := s.hw.bit (ra p rLOCK) 0 = false

/-- The command answers a next state, of which P holds. -/
def Gives (c : Instr) (s : State) (P : State → Prop) : Prop := ∃ t, exec c s = .next t ∧ P t

/-- The rows of the supervisor, the sensors, the fault manager and the supply page: the only ones that act on a die held
in reset (R43, R437, R445). -/
def ofSupervisor : Instr → Bool
  | .pllRelock .. | .powerOnRelease .. | .powerFail .. | .warmRestart .. | .holdupExhausted .. | .cooldownEnd .. => true
  | .vlogHigh .. | .thermalRead .. | .throttleStep .. | .roDisagree .. | .sensorStuck .. | .fltWindowExpiry .. => true
  | .logRecordWrite .. => true
  | _ => false

/-- The memory of a machine is in its canonical form. -/
abbrev MemoryOk (s : State) : Prop := Memory.wf s.mem = true

/-- No command has left a write to be brought into memory, or a reset of the die to be done. -/
abbrev Settled (s : State) : Prop := s.hw.wbuf = [] ∧ s.hw.rst = 0

/-- Engine e issues an instruction with predicate P, and the predicate is true: it runs, does not wait and is not being
stepped, P names a predicate, and no word of the engine memories holds an error (R156, R161, R169, R174). -/
abbrev Issues (s : State) (e : Fin 16) (p : BitVec 5) : Prop :=
  Live s ∧ Settled s ∧ s.hw.hytRuns e = true ∧ (s.hw.hyt e).waiting = false ∧ (s.hw.hyt e).stepping = false ∧
    predLegal p.toNat = true ∧ (s.hw.hyt e).pred p.toNat = true ∧ s.hw.sup.eccHyt = []

/-- Nothing but the registers of engine e differs between s and the state t of grain g, and those are x: every register of
the pages, all memory, every other engine (k among them) and all other working state are as they were. -/
abbrev Only (s t : State) (g : Nat) (e k : Fin 16) (x : HytS) : Prop :=
  t.hw.hyt e = x ∧ (k = e ∨ t.hw.hyt k = s.hw.hyt k) ∧ t = { s with hw := { s.hw.at g with hyts := t.hw.hyts } }

/-- Engine registers after a fractional result v goes to accumulator a: saturated, with the flags it gives (R153, R154). -/
abbrev fracResult (x : HytS) (a : Nat) (v : Int) : HytS :=
  { x.setAc a (satAcc v).1 with sr := flagsF x.sr (satAcc v).1 (satAcc v).2 }

/-- Engine registers after an integer result v with carry c goes to accumulator a (R153). -/
abbrev intResult (x : HytS) (a : Nat) (v : BitVec 56) (c : Bool) : HytS := { x.setAc a v with sr := flagsL x.sr v c }

/-- Engine registers after a logical result v goes to accumulator a (R153). -/
abbrev logicResult (x : HytS) (a : Nat) (v : BitVec 56) : HytS := { x.setAc a v with sr := flagsQE x.sr v }

/-- The fractional source of an accumulator instruction: accumulator r, or data register r in the place of a fraction. -/
abbrev fracSource (x : HytS) (sf : Bool) (r : BitVec 5) : BitVec 56 :=
  if sf then placed (x.dr r.toNat) else x.ac r.toNat

/-- The integer source: accumulator r, or data register r sign-extended. -/
abbrev intSource (x : HytS) (sf : Bool) (r : BitVec 5) : BitVec 56 :=
  if sf then (x.dr r.toNat).signExtend 56 else x.ac r.toNat

/-- The address of the ring entry k after RX_WR of a CAN channel (R335). -/
def ringEntry (s : State) (n k : Nat) : Nat :=
  s.hw.f (cn n 0x050) 20 0 + 80 * ((s.hw.reg (cn n 0x054) + BitVec.ofNat 32 k).toNat % 1024)

/-- Whether a command of the frame statement may store to an address: the two ring entries a CAN frame may fill, acquisition
memory for a sample and a trigger. -/
def stores (c : Instr) (s : State) (a : Nat) : Bool :=
  let entry := fun n k => decide (ringEntry s n k ≤ a) && decide (a < ringEntry s n k + 80)
  match c with
  | .canFrameReceive _ n _ => entry n 0 || entry n 1
  | .canShadowDrain _ n => entry n 0
  | .acqSample .. | .acqRemoteTrigger .. => decide (0x20000000 ≤ a) && decide (a < 0x20200000)
  | _ => false

/-- The pages whose registers a command of the frame statement may change: its own, the fault manager's, which counts a
dropped record (R449), and for a software write the system page, which notes a write to a locked page (R62). A cyclic frame
steps SEQ of the telegrams it carries (R377), and its data may end with a bus error (R58). -/
def pagesOf : Instr → Option (List Nat)
  | .canFrameReceive _ n _ | .canShadowDrain _ n | .canRxFramesRead _ n => some [pCAN n, pFLT]
  | .canTxTimeReached _ n _ | .canTxLate _ n _ | .canTxStart _ n => some [pCAN n, pFLT]
  | .canTxDone _ n _ | .canTxError _ n _ | .canBusOff _ n => some [pCAN n, pFLT]
  | .canBusRecovered _ n | .canProtocolError _ n _ _ _ | .busIntegration _ n => some [pCAN n, pFLT]
  | .canRxRdWrite _ n _ | .canTxRequest _ n _ | .canTxTimed _ n _ => some [pCAN n, pSYS, pFLT]
  | .canTxAbort _ n _ | .canRecover _ n => some [pCAN n, pSYS, pFLT]
  | .fieldDownstreamFrame _ n _ | .fieldUpstreamFrame _ n _ _ _ _ | .fieldSupplyUv _ n _ => some [pFIO (grpN n), pFLT]
  | .fieldSupplyOv _ n _ | .fieldSupplyClear _ n _ _ | .fieldLinkStale _ n => some [pFIO (grpN n), pFLT]
  | .fieldDieReset _ n => some [pFIO (grpN n), pFLT]
  | .fieldInputAccept _ n _ _ | .fieldGlitch _ n _ | .fieldWireBreak _ n _ => some [pFIO (n / 16), pFLT]
  | .fieldWireBreakEnd _ n _ | .fieldOverloadShutdown _ n | .fieldOutputRestart _ n => some [pFIO (n / 16), pFLT]
  | .fieldPulseEnd _ n => some [pFIO (n / 16), pFLT]
  | .ovlClr _ n _ | .fieldOutSet _ n _ | .fieldOutClr _ n _ => some [pFIO (grpN n), pSYS, pFLT]
  | .acqSample _ _ | .acqRearmEnd _ | .acqLedgerRead _ => some [pACQ, pFLT]
  | .acqArm _ | .acqStop _ | .acqSoftwareTrigger _ => some [pACQ, pSYS, pFLT]
  | .acqRemoteTrigger _ | .acqRelease _ _ => some [pACQ, pSYS, pFLT]
  | .frameEgress _ _ | .gclEntryStart _ _ | .swRxPop _ => some [pNSW, pFLT]
  | .swAlloc _ | .ledgerRead _ | .rxStale _ _ => some [pNSW, pFLT]
  | .announcementSend _ | .announcementReceive _ _ _ | .partnerLanAge _ _ _ => some [pNSW, pFLT]
  | .lldpSend _ | .lldpReceive _ _ _ _ | .lldpTtlExpiry _ _ => some [pNSW, pFLT]
  | .prpSupervisionSend _ | .linkChange _ _ _ => some [pNSW, pFLT]
  | .cyclicFrameSend _ => some [pNSW, pSAF, pSYS, pFLT]
  | .swRet _ _ | .swPost _ _ | .ptSelWrite _ _ => some [pNSW, pSYS, pFLT]
  | .moladHello _ _ _ _ _ _ | .moladState _ _ _ _ | .moladMirror _ _ _ _ _ => some [pPAIR, pFLT]
  | .moladCompare _ _ _ _ _ | .moladHelloSend _ | .pairHashTimeout _ => some [pPAIR, pFLT]
  | .levelMismatch _ _ _ _ _ | .moladFrameDiscard _ _ | .moladLaneLoss _ _ => some [pPAIR, pFLT]
  | .leverClose _ | .mirrorOverflow _ | .moladSafety _ _ _ _ _ => some [pPAIR, pFLT]
  | .pairSync _ | .pairLeave _ => some [pPAIR, pSYS, pFLT]
  | .sortikCompareWin _ _ | .sortikGraceExpiry _ _ | .sortikWatchdog _ _ => some [pSAF, pFLT]
  | .soReqWrite _ _ => some [pSAF, pSYS, pFLT]
  | .throttleStep _ | .roDisagree _ | .sensorStuck _ _ => some [pTHM, pFLT]
  | .vlogHigh _ _ | .holdTestDone _ _ _ | .holdTestAuto _ _ _ => some [pPWR, pFLT]
  | .holdTest _ _ => some [pPWR, pSYS, pFLT]
  | .restoreComplete _ => some [pSAVE, pFLT]
  | .logRecordWrite _ => some [pFLT]
  | .logRdWrite _ _ | .devClr _ _ => some [pFLT, pSYS]
  | .fltWindowExpiry _ n => some [n.val, pFLT]
  | .evtClear _ n _ | .lockWrite _ _ n _ => some [n.val, pSYS, pFLT]
  | .secVerAdvance _ _ | .flashErase _ | .flashProgram _ => some [pSYS, pFLT]
  | .ctStepCmd _ _ | .ctCapture _ | .domSet _ _ => some [pNTM, pSYS, pFLT]
  | .camCheck _ _ | .camNextWrite _ _ _ => some [pLSH, pSYS, pFLT]
  | .axLegSkipWrite _ n _ => some [pAX n, pSYS, pFLT]
  | .legCntClr _ n => some [pLEG n, pSYS, pFLT]
  | .cmpDisarm _ n _ | .latchDisarm _ n _ | .fbCntClr _ n => some [pFB n, pSYS, pFLT]
  | .sdmCal _ n => some [pSDM n, pSYS, pFLT]
  | .semRead _ _ _ => some [pSEM, pFLT]
  | .semWrite _ _ _ _ => some [pSEM, pSYS, pFLT]
  | _ => none

/-- No leg of the module is out of the safe state. -/
abbrev AllLegsSafe (s : State) : Prop := ∀ n : Fin 96, (s.hw.leg n).running = false

end Sys2Proof
end

