-- ==== Sys2Proof/WellFormed.lean ====
section
/-! DEFINITION. Which commands are well formed: operands within the ranges the rules give what they stand for. The
constructors' types already bound numbers of pages, legs, axes, ports, engines and fields; the checks here are the rest. -/

namespace Sys2Proof

/-- A requester number of R35: an engine, an application core, or the debug module. -/
def wfReq (req : Nat) : Bool := decide (req ≤ 0x13) || req == 0x1F

/-- A fabric address of R57: 32 bits. -/
def wfAddr (a : Nat) : Bool := decide (a < 0x100000000)

/-- The sizes of a fabric access (R57, R58). -/
def wfBytes (n : Nat) : Bool := n == 1 || n == 2 || n == 4

/-- A PTP header: a correctionField of 64 bits. -/
def PtpHdr.wf (m : PtpHdr) : Bool := decide (-(2 : Int) ^ 63 ≤ m.correction ∧ m.correction < (2 : Int) ^ 63)

/-- A Sync or Follow_Up of R292: log intervals of a signed octet, origin times of the format of R10 in units of 2^-16 ns, an
802.1AS rate offset of 32 bits. -/
def PtpMsg.wf (m : PtpMsg) : Bool :=
  m.hdr.wf && decide (-128 ≤ m.logInterval ∧ m.logInterval < 128) && decide (m.origin < 2 ^ 96)
    && decide (-(2 : Int) ^ 31 ≤ m.rate ∧ m.rate < (2 : Int) ^ 31)

/-- The data set of an Announce (R292): octets and 16-bit fields. -/
def PtpAnnounceMsg.wf (m : PtpAnnounceMsg) : Bool :=
  m.hdr.wf && decide (-128 ≤ m.logInterval ∧ m.logInterval < 128)
    && decide (m.priority1 < 256 ∧ m.clockClass < 256 ∧ m.clockAccuracy < 256 ∧ m.priority2 < 256)
    && decide (m.variance < 65536 ∧ m.stepsRemoved < 65536)

/-- A path-delay answer: a time of the format of R10. -/
def PtpRespMsg.wf (m : PtpRespMsg) : Bool := m.hdr.wf && decide (m.time < 2 ^ 96)

/-- A frame at an ingress port (R309): four ports, at most 1,536 octets. -/
def Frame.wf (f : Frame) : Bool :=
  decide (f.port < 4) && decide (f.len ≤ 1536) && decide (f.data.length ≤ f.len)

/-- The readings of TS0 to TS11 (R442), signed 16-bit numbers of 1/16 °C. -/
def ThermalReading.wf (t : ThermalReading) : Bool :=
  t.temps.length == 12 && t.temps.all fun v => decide (-32768 ≤ v ∧ v < 32768)

/-- A data input of a sigma-delta channel (R106): its changes in the order of time. -/
def SdmBits.wf (b : SdmBits) : Bool := (b.toggles.zip (b.toggles.drop 1)).all fun e => decide (e.1 < e.2)

/-- A command whose operands lie within the ranges of the rules. -/
def Instr.wf (c : Instr) : Bool :=
  match c with
  | .refclkLoss _ => true
  | .clkRefWrite _ _ _ => true
  | .clockFail _ _ gclkCount => decide (gclkCount < 65536)
  | .pllRelockTimeout _ => true
  | .pllRelock _ _ => true
  | .batchBoundary _ => true
  | .batchChangeApply _ => true
  | .ctStep _ => true
  | .safetyTick _ _ _ => true
  | .semRead _ req _ => wfReq req
  | .semWrite _ req _ _ => wfReq req
  | .commitGo _ _ => true
  | .commitDiscard _ _ => true
  | .softReset _ _ => true
  | .lockWrite _ req _ _ => wfReq req
  | .evtClear _ _ _ => true
  | .registerWrite _ req addr bytes _ => wfReq req && wfAddr addr && wfBytes bytes
  | .modeRequest _ _ => true
  | .powerOnRelease _ p => decide (p.vlogMv < 65536 ∧ p.vholdMv < 65536)
  | .bootComplete _ => true
  | .debugImageLoad _ => true
  | .secVerAdvance _ _ => true
  | .flashErase _ => true
  | .flashProgram _ => true
  | .flashCmdDone _ => true
  | .acDebugHalt _ _ => true
  | .acDebugResume _ _ => true
  | .safetyCoreHalt _ _ => true
  | .jtagInstruction _ _ => true
  | .legEnable _ _ => true
  | .legDisable _ _ => true
  | .bridgeWrap _ _ => true
  | .bridgeReload _ _ => true
  | .pulEdge _ _ _ => true
  | .hsOnTimeExceeded _ _ => true
  | .legCntClr _ _ => true
  | .gstPeriod _ _ period high => decide (high ≤ period)
  | .gstHardFault _ _ => true
  | .gstStuckHigh _ _ => true
  | .tripAssert _ _ _ _ => true
  | .tripFiltered _ _ => true
  | .tripBlankEnd _ _ => true
  | .tripClr _ _ => true
  | .didtBlankEnd _ _ => true
  | .retryWaitExpiry _ _ _ => true
  | .retryAct _ _ _ => true
  | .retryTimeout _ _ _ => true
  | .tryCountForget _ _ _ => true
  | .axisClr _ _ => true
  | .sdmConversion _ _ c => c.wf
  | .crustOutput _ _ c => c.wf
  | .sdmCal _ _ => true
  | .sdmCalDone _ _ disagree => decide (0 < disagree.length ∧ disagree.length ≤ 256)
  | .sdmDataStuck _ _ _ => true
  | .dclkLost g _ since => decide (since ≤ g)
  | .sdmChannelRestart _ _ => true
  | .fbLineChange g _ _ first => decide (first ≤ g)
  | .fbGlitch _ _ _ => true
  | .ssiReadStart _ _ _ => true
  | .ssiFrameDone _ _ _ => true
  | .posLoad _ _ => true
  | .fbCntClr _ _ => true
  | .latchArm _ _ _ => true
  | .latchDisarm _ _ _ => true
  | .probeLatch g _ _ _ first => decide (first ≤ g)
  | .probeLost _ _ _ _ => true
  | .cmpArm _ _ _ => true
  | .cmpDisarm _ _ _ => true
  | .cmpFire _ _ _ => true
  | .nop _ _ _ => true
  | .halt _ _ _ => true
  | .wait _ _ _ => true
  | .waitResume _ _ => true
  | .clre _ _ _ _ => true
  | .rot _ _ _ => true
  | .br _ _ _ _ _ => true
  | .call _ _ _ _ _ => true
  | .ret _ _ _ _ => true
  | .loop _ _ _ _ _ => true
  | .loopr _ _ _ _ _ => true
  | .mloop _ _ _ _ _ _ => true
  | .mloopi _ _ _ _ _ _ => true
  | .pset _ _ _ _ _ _ _ => true
  | .mov _ _ _ _ _ => true
  | .lda _ _ _ _ _ => true
  | .adda _ _ _ _ _ => true
  | .ld _ _ _ _ _ _ _ _ => true
  | .st _ _ _ _ _ _ _ _ => true
  | .ldr _ _ _ _ _ _ _ _ => true
  | .str _ _ _ _ _ _ _ => true
  | .ldl _ _ _ _ _ _ _ _ => true
  | .stl _ _ _ _ _ _ _ => true
  | .ldi _ _ _ _ _ => true
  | .ldil _ _ _ _ _ => true
  | .ldac _ _ _ _ _ => true
  | .mpy _ _ _ _ _ _ => true
  | .mac _ _ _ _ _ _ => true
  | .msu _ _ _ _ _ _ => true
  | .mpyp _ _ _ _ _ _ _ _ _ => true
  | .macp _ _ _ _ _ _ _ _ _ => true
  | .msup _ _ _ _ _ _ _ _ _ => true
  | .mpys _ _ _ _ _ _ _ _ _ => true
  | .macs _ _ _ _ _ _ _ _ _ => true
  | .msus _ _ _ _ _ _ _ _ _ => true
  | .tap _ _ _ _ _ _ _ _ _ _ _ _ => true
  | .add _ _ _ _ _ _ => true
  | .sub _ _ _ _ _ _ => true
  | .addl _ _ _ _ _ _ => true
  | .subl _ _ _ _ _ _ => true
  | .cmp _ _ _ _ _ _ => true
  | .neg _ _ _ _ => true
  | .abs _ _ _ _ => true
  | .clr _ _ _ _ => true
  | .min _ _ _ _ _ _ => true
  | .max _ _ _ _ _ _ => true
  | .sat _ _ _ _ => true
  | .and _ _ _ _ _ _ => true
  | .or _ _ _ _ _ _ => true
  | .xor _ _ _ _ _ _ => true
  | .ash _ _ _ _ _ _ => true
  | .lsh _ _ _ _ _ _ => true
  | .exp _ _ _ _ _ => true
  | .nrm _ _ _ _ _ => true
  | .scl _ _ _ _ _ _ => true
  | .pwr _ _ _ _ _ _ _ => true
  | .pcom _ _ _ _ _ => true
  | .fld _ _ _ _ _ => true
  | .fst _ _ _ _ _ => true
  | .illegalInstruction _ _ _ => true
  | .breakpoint _ _ => true
  | .hytFabricBusError _ _ _ => true
  | .signalArrival _ _ _ => true
  | .portWriteApply _ _ => true
  | .portCommitApply _ _ => true
  | .engineTimerExpiry _ _ => true
  | .doorbell _ _ _ => true
  | .hytEnable _ _ => true
  | .hytDisable _ _ => true
  | .haltReq _ _ => true
  | .hytStep _ _ => true
  | .hytResume _ _ => true
  | .hytCntClr _ _ => true
  | .hytWatchdog _ _ => true
  | .hytPmWrite _ _ _ _ => true
  | .hytAxesWrite _ _ _ => true
  | .sinMapWrite _ _ _ _ => true
  | .wselWrite _ _ _ _ => true
  | .kernelAxisStart _ _ _ => true
  | .kernelBatchTask _ _ _ => true
  | .kernelCurrentUpdate _ _ _ => true
  | .segmentRetire _ _ => true
  | .push _ _ => true
  | .profileStart _ => true
  | .profileFlush _ => true
  | .profileLoad _ => true
  | .profileClear _ => true
  | .stepPulse _ _ => true
  | .masterFeed _ _ => true
  | .rejoin _ _ => true
  | .camCheck _ _ => true
  | .camCheckDone _ _ => true
  | .camNextWrite _ _ _ => true
  | .axEnable _ _ => true
  | .axStartTimeExpiry _ _ => true
  | .axStop _ _ => true
  | .axQstop _ _ => true
  | .axResume _ _ => true
  | .axHome _ _ => true
  | .axDisable _ _ => true
  | .axReset _ _ => true
  | .engFaultWrite _ _ _ => true
  | .axLegSkipWrite _ _ _ => true
  | .limitAccepted g _ _ _ first => decide (first ≤ g)
  | .limitRelease _ _ _ => true
  | .homeLevelAccepted g _ _ first => decide (first ≤ g)
  | .ptpSync _ _ m => m.wf
  | .ptpFollowUp _ _ m => m.wf
  | .ptpDelayResp _ _ m => m.wf
  | .ptpDelayReq _ _ m => m.hdr.wf
  | .ptpAnnounce _ _ m => m.wf
  | .announceTimeout _ _ => true
  | .syncLossTimeout _ _ => true
  | .gmSyncSend _ _ => true
  | .gmAnnounceSend _ _ => true
  | .domSet _ _ => true
  | .ctStepCmd _ _ => true
  | .ctCapture _ => true
  | .frameReceive _ f => f.wf
  | .frameEgress _ _ => true
  | .gclEntryStart _ _ => true
  | .swRxPop _ => true
  | .swRet _ _ => true
  | .swAlloc _ => true
  | .swPost _ _ => true
  | .ledgerRead _ => true
  | .cyclicFrameSend _ => true
  | .cyclicFrameReceive _ _ _ data => decide (data.length ≤ 1500)
  | .rxStale _ _ => true
  | .announcementSend _ => true
  | .announcementReceive _ _ a => decide (a.annInt < 65536)
  | .partnerLanAge _ entry _ => decide (entry < 256)
  | .lldpSend _ => true
  | .lldpReceive _ _ _ ttl => decide (ttl < 65536)
  | .lldpTtlExpiry _ _ => true
  | .prpSupervisionSend _ => true
  | .ptSelWrite _ _ => true
  | .linkChange _ _ _ => true
  | .canFrameReceive g _ f => decide (f.data.length ≤ 16) && decide (f.sof ≤ g)
  | .canShadowDrain _ _ => true
  | .canRxRdWrite _ _ _ => true
  | .canRxFramesRead _ _ => true
  | .canTxRequest _ _ _ => true
  | .canTxTimed _ _ _ => true
  | .canTxAbort _ _ _ => true
  | .canTxTimeReached _ _ _ => true
  | .canTxLate _ _ _ => true
  | .canTxStart _ _ => true
  | .canTxDone g _ sof => decide (sof ≤ g)
  | .canTxError _ _ _ => true
  | .canBusOff _ _ => true
  | .canRecover _ _ => true
  | .canBusRecovered _ _ => true
  | .canProtocolError _ _ _ _ _ => true
  | .acqSample _ levels => levels.length == 32
  | .acqArm _ => true
  | .acqStop _ => true
  | .acqSoftwareTrigger _ => true
  | .acqRemoteTrigger _ => true
  | .acqRearmEnd _ => true
  | .acqRelease _ _ => true
  | .acqLedgerRead _ => true
  | .ss1Timeout _ _ => true
  | .slsMonitorStart _ _ => true
  | .brakeLeadExpiry _ _ => true
  | .soTestPulse _ _ _ _ => true
  | .safetyStartupTests _ _ _ _ => true
  | .safConfigWrite _ _ _ => true
  | .soReqWrite _ _ => true
  | .sortikCompareWin _ _ => true
  | .sortikGraceExpiry _ _ => true
  | .sortikWatchdog _ _ => true
  | .fieldDownstreamFrame _ _ _ => true
  | .fieldUpstreamFrame _ _ _ _ _ _ => true
  | .fieldInputAccept g _ _ first => decide (first ≤ g)
  | .fieldGlitch _ _ _ => true
  | .fieldWireBreak g _ first => decide (first ≤ g)
  | .fieldWireBreakEnd g _ first => decide (first ≤ g)
  | .fieldOverloadShutdown _ _ => true
  | .fieldOutputRestart _ _ => true
  | .ovlClr _ _ _ => true
  | .fieldOutSet _ _ _ => true
  | .fieldOutClr _ _ _ => true
  | .fieldPulseEnd _ _ => true
  | .fieldSupplyUv g _ first => decide (first ≤ g)
  | .fieldSupplyOv g _ first => decide (first ≤ g)
  | .fieldSupplyClear g _ _ first => decide (first ≤ g)
  | .fieldLinkStale _ _ => true
  | .fieldDieReset _ _ => true
  | .pairClaim _ _ => true
  | .claimTimeout _ => true
  | .moladClaim _ _ => true
  | .driveContention _ => true
  | .partnerDriveFall _ => true
  | .mirrorApply _ => true
  | .moladCompare _ _ _ _ _ => true
  | .pairHashTimeout _ => true
  | .levelMismatch g _ _ _ first => decide (first ≤ g)
  | .pairSync _ => true
  | .syncEngineStart _ _ => true
  | .mirrorOverflow _ => true
  | .pairHandover _ => true
  | .handoverAbandon _ => true
  | .handoverTake _ => true
  | .handoverDone _ => true
  | .pairLeave _ => true
  | .moladLaneLoss _ _ => true
  | .moladHelloSend _ => true
  | .moladHello _ _ _ _ _ _ => true
  | .moladState _ _ _ words => decide (words.length ≤ 256)
  | .moladMirror _ _ _ addr words => wfAddr addr && decide (words.length ≤ 256)
  | .moladHandover _ _ _ => true
  | .moladSafety _ _ _ _ _ => true
  | .moladFrameDiscard _ _ => true
  | .leverOpen _ => true
  | .presentNBreak _ => true
  | .powerFail _ samplesMv => samplesMv.all fun v => decide (v < 65536)
  | .shedComplete _ => true
  | .saveComplete _ => true
  | .saveCmd _ => true
  | .restoreCmd _ => true
  | .restoreComplete _ => true
  | .warmRestart _ _ => true
  | .holdupExhausted _ => true
  | .holdTest _ vlogMv => decide (vlogMv < 65536)
  | .holdTestDone _ capUf esrMohm => decide (capUf < 65536 ∧ esrMohm < 65536)
  | .thermalRead _ t => t.wf
  | .throttleStep _ => true
  | .cooldownEnd _ => true
  | .roDisagree _ => true
  | .sensorStuck _ _ => true
  | .fltWindowExpiry _ _ => true
  | .logRecordWrite _ => true
  | .logRdWrite _ _ => true
  | .devClr _ _ => true
  | .scrubPass _ _ uncorrectable => uncorrectable.all wfAddr
  | .leavenLockRegained _ _ => true
  | .pageEnable _ _ _ => true
  | .functionReady _ _ _ => true
  | .latchedRead _ addr => wfAddr addr && addr % 4 == 0
  | .delayReqSend _ _ => true
  | .busIntegration _ _ => true
  | .moladLeave _ _ => true
  | .moladSync _ _ phase _ => decide (phase < 256)
  | .leverClose _ => true
  | .vlogHigh _ mv => decide (mv < 65536)
  | .holdTestAuto _ vlogMv vholdMv => decide (vlogMv < 65536 ∧ vholdMv < 65536)

end Sys2Proof
end

