-- ==== Sys2Proof/Certificates/Slice0/Obligations.lean ====
section
/-! DEFINITION. The statements for the provers, each from the numbered rules of spec/ it names. -/

namespace Sys2Proof

open Machine

end Sys2Proof

open Sys2Proof Sys2Proof.Machine

/-- For every command c and state s, a step of s with c in front of its queue is exec of c on s with the rest of the
queue. On an empty queue the block idles (the second clause is the model's choice, log entry 2). -/
def Obligations.StepRunsFrontCommand : Prop :=
  (∀ (c : Instr) (rest : List Instr) (s : State), step { s with pending := c :: rest } = exec c { s with pending := rest }) ∧
  (∀ s : State, s.pending = [] → step s = .next s)

/-- Right after reset the memory has its canonical form, no write or die reset is outstanding, CLK.GRAIN is 0 (R16),
the mode is BRINGUP (R42), BATCH is 15,625 (R17) and NCYC 8 (R18), every page has FLT_CFG 0x0001_03E8 (R59), no leg is
enabled or out of the safe state, every semaphore is free, and no command waits. -/
def Obligations.ResetState : Prop :=
  MemoryOk State.reset ∧ Settled State.reset ∧ State.reset.hw.grain = 0 ∧ State.reset.hw.mode = mBRINGUP ∧
  State.reset.hw.batch = 15625 ∧ State.reset.hw.ncyc = 8 ∧ State.reset.pending = [] ∧
  (∀ p : Fin 512, (pageBlock p).1 ≠ .none → State.reset.hw.reg (ra p rFLT_CFG) = 0x000103E8) ∧
  (∀ n : Fin 96, State.reset.hw.legEnabled n = false) ∧ AllLegsSafe State.reset ∧
  (∀ n : Fin 64, State.reset.hw.f (sm n) 7 0 = 0xFF)

/-- From every state whose memory has its canonical form (addresses rising, no entry equal to an unlisted byte),
whatever command stands in front, a step that answers a next state leaves a memory in that form; and after any command
no memory write and no reset of the die is left outstanding. The canonical form is the model's (log entry 1). -/
def Obligations.EveryStepKeepsInvariant : Prop :=
  (∀ s t : State, MemoryOk s → step s = .next t → MemoryOk t) ∧
  (∀ s t : State, Settled s → step s = .next t → Settled t)

/-- Every command on every state answers a next state and leaves the queue as it was; unless the command reset and
released the die, the grain afterwards is the later of the command's grain and the grain before. -/
def Obligations.EveryCommandAnswers : Prop :=
  (∀ (c : Instr) (s : State), ∃ t, exec c s = .next t ∧ t.pending = s.pending ∧ Settled t) ∧
  (∀ (c : Instr) (s : State), ∃ t, exec c s = .next t ∧ (t.hw.grain = 0 ∨ s.hw.grain ≤ t.hw.grain))

/-- While the supervisor holds the die in reset no block of the die runs, counts or answers on the fabric (R43): every
command but the rows of the supervisor, the sensors, the fault manager and the supply page leaves every register, all
working state, all memory and the queue as they were; only the grain reached moves. -/
def Obligations.HeldDieIdles : Prop :=
  ∀ (c : Instr) (s : State), s.hw.sys.held = true → Settled s → ofSupervisor c = false →
    ∃ g, exec c s = .next { s with hw := s.hw.at g }

/-- REFCLK_LOSS with REFCLK selected and FALLBACK_EN set sets REF_FALLBACK and takes the on-module oscillator without
losing lock; with FALLBACK_EN clear it is a clock failure. A write of REF_SRC acts in BRINGUP and CONFIG, where it
ends a fallback, and is ignored in every other mode, where a fallback goes on; FALLBACK_EN is written in any mode.
Loss of lock, or a GCLK count more than 5 % away from 5,000, sets CLOCK_FAIL and enters SAFEHALT from BRINGUP to
SHADOW, and leaves the mode of HOLDUP and COOLDOWN. Regained lock ends the loss. With lock lost for 10 ms (5,000,000
grains) and the module in SAFEHALT the die is reset and held: every register takes its reset value; MRAM and flash
keep what they hold. PLL_RELOCK then releases it into BRINGUP with CLK.GRAIN at 0. Throughout, the die is not held in
reset. -/
def Obligations.ReferenceAndClockFailure : Prop :=
  ∀ (s : State) (g : Nat), Live s →
    (s.hw.bit (ck 0x040) 0 = true → s.hw.bit (ck 0x040) 1 = true → s.hw.clk.fallback = false →
      s.hw.clk.unlockedAt = none → Gives (.refclkLoss g) s fun t => t.hw.clk.fallback = true
      ∧ t.hw.bit (ck 0x044) 1 = false ∧ t.hw.bit (ck rEVT) 0 = true ∧ t.hw.mode = s.hw.mode
      ∧ t.hw.clk.unlockedAt = none) ∧
    (s.hw.bit (ck 0x040) 0 = true → s.hw.bit (ck 0x040) 1 = false → s.hw.clk.fallback = false →
      s.hw.clk.unlockedAt = none → s.hw.mode.toNat ≤ 4 → s.hw.sys.modeGrain < max s.hw.grain g →
      Gives (.refclkLoss g) s fun t => t.hw.bit (ck rEVT) 1 = true ∧ t.hw.mode = mSAFEHALT
      ∧ t.hw.clk.unlockedAt = some (max s.hw.grain g)) ∧
    (∀ (v : Word) (r : Bool), Unlocked s pCLK → s.hw.mode = mBRINGUP ∨ s.hw.mode = mCONFIG →
      Gives (.clkRefWrite g v r) s fun t => t.hw.bit (ck 0x040) 0 = v.getLsbD 0
      ∧ t.hw.bit (ck 0x040) 1 = v.getLsbD 1 ∧ t.hw.clk.fallback = false ∧ t.hw.bit (ck 0x044) 1 = v.getLsbD 0) ∧
    (∀ (v : Word) (r : Bool), Unlocked s pCLK → s.hw.mode ≠ mBRINGUP → s.hw.mode ≠ mCONFIG →
      Gives (.clkRefWrite g v r) s fun t => t.hw.bit (ck 0x040) 0 = s.hw.bit (ck 0x040) 0
      ∧ t.hw.bit (ck 0x040) 1 = v.getLsbD 1 ∧ t.hw.clk.fallback = s.hw.clk.fallback) ∧
    (∀ (l : Bool) (n : Nat), (l = true ∧ s.hw.clk.unlockedAt = none) ∨ n < 4750 ∨ 5250 < n →
      s.hw.mode.toNat ≤ 4 → s.hw.sys.modeGrain < max s.hw.grain g → Gives (.clockFail g l n) s fun t =>
      t.hw.bit (ck rEVT) 1 = true ∧ t.hw.mode = mSAFEHALT) ∧
    (∀ (l : Bool) (n : Nat), (l = true ∧ s.hw.clk.unlockedAt = none) ∨ n < 4750 ∨ 5250 < n →
      6 ≤ s.hw.mode.toNat → Gives (.clockFail g l n) s fun t => t.hw.bit (ck rEVT) 1 = true
      ∧ t.hw.mode = s.hw.mode) ∧
    (∀ (r : Bool), s.hw.clk.unlockedAt.isSome = true → r = true ∨ s.hw.clk.fallback = true
      ∨ s.hw.bit (ck 0x040) 0 = false → Gives (.leavenLockRegained g r) s fun t => t.hw.clk.unlockedAt = none
      ∧ t.hw.bit (ck 0x044) 0 = true ∧ t.hw.bit (ck 0x044) 2 = r) ∧
    (∀ (u a b : Nat), s.hw.clk.unlockedAt = some u → u + 5000000 ≤ max s.hw.grain g → s.hw.mode = mSAFEHALT →
      s.hw.wbuf = [] → Gives (.pllRelockTimeout g) s fun t => t.hw.sys.held = true ∧ t.hw.mode = mBRINGUP
      ∧ t.hw.clk = {} ∧ (a = ra pGDP 0x058 ∨ t.hw.reg a = regReset a) ∧ t.hw.legs = []
      ∧ memGet t.mem b = (if keeps b then memGet s.mem b else 0))

/-- PLL_RELOCK on a die held for a clock failure releases it into BRINGUP with CLK.GRAIN at 0 (R16), the Leaven PLL
locked, and REF_SRC at its reset value, the on-module oscillator. -/
def Obligations.RelockRelease : Prop :=
  ∀ (s : State) (g : Nat),
    ∀ (r : Bool), s.hw.sys.heldFor = 1 → s.hw.sys.held = true → s.hw.mode ≠ mHOLDUP →
      Gives (.pllRelock g r) s fun t => t.hw.sys.held = false ∧ t.hw.mode = mBRINGUP ∧ t.hw.grain = 0
      ∧ t.hw.bit (ck 0x044) 0 = true ∧ t.hw.bit (ck 0x040) 0 = false

/-- A read of a free semaphore claims it for the reader. A read of a held one leaves its holder, except that of
several readers of one FCLK cycle the lowest ID wins. A write of any value by the holder frees it; a write by any
other requester leaves it and sets SEM.EVT.FOREIGN_RELEASE. No other semaphore changes; a reader without an ID (the
safety island) changes nothing; a halt of the holder leaves every semaphore; SOFT_RESET of the SEM page frees all 64.
Throughout, the die is not held in reset. -/
def Obligations.SemaphoreReadAndWrite : Prop :=
  ∀ (s : State) (g r : Nat) (n m : Fin 64), Live s →
    (semReq r = true → s.hw.f (sm n) 7 0 = 0xFF → Gives (.semRead g r n) s fun t => t.hw.f (sm n) 7 0 = r
      ∧ (m = n ∨ t.hw.f (sm m) 7 0 = s.hw.f (sm m) 7 0)) ∧
    (semReq r = true → s.hw.f (sm n) 7 0 ≠ 0xFF → tabGet 0 n.val s.hw.semAt ≠ max s.hw.grain g + 1
      ∨ s.hw.f (sm n) 7 0 ≤ r → Gives (.semRead g r n) s fun t => t.hw.f (sm n) 7 0 = s.hw.f (sm n) 7 0
      ∧ t.hw.semView r n = putFld (s.hw.reg (sm n)) 31 31 (if s.hw.f (sm n) 7 0 = r then 0 else 1)) ∧
    (semReq r = true → s.hw.f (sm n) 7 0 ≠ 0xFF → tabGet 0 n.val s.hw.semAt = max s.hw.grain g + 1 →
      r < s.hw.f (sm n) 7 0 → Gives (.semRead g r n) s fun t => t.hw.f (sm n) 7 0 = r) ∧
    (∀ (v : Word), semReq r = true → Unlocked s pSEM → s.hw.f (sm n) 7 0 = r →
      Gives (.semWrite g r n v) s fun t => t.hw.f (sm n) 7 0 = 0xFF ∧ (m = n
      ∨ t.hw.f (sm m) 7 0 = s.hw.f (sm m) 7 0)) ∧
    (∀ (v : Word), semReq r = true → Unlocked s pSEM → s.hw.f (sm n) 7 0 ≠ r →
      Gives (.semWrite g r n v) s fun t => t.hw.f (sm m) 7 0 = s.hw.f (sm m) 7 0
      ∧ t.hw.bit (ra pSEM rEVT) 0 = true) ∧
    (semReq r = false → Gives (.semRead g r n) s fun t => t.hw.regs = s.hw.regs) ∧
    (∀ (e : Fin 16), Gives (.haltReq g e) s fun t => t.hw.reg (sm m) = s.hw.reg (sm m)) ∧
    (∀ (e : Fin 16), Gives (.hytDisable g e) s fun t => t.hw.reg (sm m) = s.hw.reg (sm m)) ∧
    (∀ (k : Fin 4), Gives (.acDebugHalt g k) s fun t => t.hw.reg (sm m) = s.hw.reg (sm m)) ∧
    (Unlocked s pSEM → Gives (.softReset g 6) s fun t => t.hw.f (sm m) 7 0 = 0xFF)

/-- At a boundary that CT has reached, once CT has been stepped, with no change of BATCH or NCYC waiting and no
synchronisation to catch up, the batch begins at the instant that was next, the next instant is one BATCH later, and
the batch's number is that instant divided by BATCH (R19, R24). Throughout, the die is not held in reset. -/
def Obligations.BatchBoundaryTimeBase : Prop :=
  ∀ (s : State) (g : Nat), Live s →
    s.hw.clk.nextB ≤ s.hw.ctGrains (max s.hw.grain g) → s.hw.clk.stepped = true → s.hw.pending pCLK = false →
      s.hw.pair.behind = none → Gives (.batchBoundary g) s fun t => t.hw.clk.lastB = s.hw.clk.nextB
      ∧ t.hw.clk.nextB = s.hw.clk.nextB + s.hw.batch ∧ t.hw.clk.batchNum = s.hw.clk.nextB / s.hw.batch
      ∧ t.hw.clk.stepped = true

/-- Where a step by CT_SET waits, CT has not been stepped, no counter is locked and no leg is enabled, CT_STEP at a
boundary CT has reached sets CT to CT_SET from that grain on at the nominal rate, CT_STEPPED and CT_ALIGNED are set,
nothing waits any more, and the next boundary is the first whole multiple of BATCH that CT reaches no sooner than
2,500 grains after that grain (R24, R298). Throughout, the die is not held in reset. -/
def Obligations.ControlTimeStep : Prop :=
  ∀ (s : State) (g : Nat), Live s →
    s.hw.clk.nextB ≤ s.hw.ctGrains (max s.hw.grain g) → s.hw.clk.stepped = false →
      (s.hw.ntm.want.map (·.1)) = some true → s.hw.anyEnabled = false → s.hw.domLocked false = false →
      s.hw.domLocked true = false → s.hw.pair.behind = none → Gives (.ctStep g) s fun t =>
      t.hw.clk.stepped = true ∧ t.hw.clk.ctBase = s.hw.timeOf (nt 0x050)
      ∧ t.hw.clk.ctBaseGrain = max s.hw.grain g ∧ t.hw.clk.ctInc = 0x200000000 ∧ t.hw.bit (nt rREADY) 4 = true
      ∧ t.hw.bit (ck rREADY) 2 = true ∧ t.hw.clk.nextB % s.hw.batch = 0
      ∧ t.hw.ctGrains (max s.hw.grain g + 2499) < t.hw.clk.nextB
      ∧ t.hw.clk.nextB ≤ t.hw.ctGrains (max s.hw.grain g + 2499) + s.hw.batch ∧ t.hw.ntm.want = none

/-- At the first grain of a whole second of CT, with the change waiting and no leg enabled, BATCH and NCYC take their
pending values, COMMIT.PENDING clears and SLIP_MAX becomes ⌈BATCH / 2,000⌉ + 1; while a leg is enabled no register
changes and the change goes on waiting (R20, R23). Throughout, the die is not held in reset. -/
def Obligations.BatchChange : Prop :=
  ∀ (s : State) (g : Nat), Live s →
    (s.hw.pending pCLK = true → (tabGet {} pCLK s.hw.goMark).cycle ≠ max s.hw.grain g / 5 →
      (s.hw.pend.map (·.1)).Nodup → s.hw.anyEnabled = false → (s.hw.at g).wholeSecond = true →
      Gives (.batchChangeApply g) s fun t => t.hw.pending pCLK = false
      ∧ t.hw.reg (ck 0x048) = s.hw.pnd (ck 0x048) ∧ t.hw.reg (ck 0x04C) = s.hw.pnd (ck 0x04C)
      ∧ t.hw.f (ck 0x068) 31 16 = ((t.hw.batch + 1999) / 2000 + 1) % 65536) ∧
    (∀ (a : Nat), s.hw.pending pCLK = true → s.hw.anyEnabled = true → Gives (.batchChangeApply g) s fun t =>
      t.hw.pending pCLK = true ∧ t.hw.reg a = s.hw.reg a)

/-- COMMIT_GO on a page with the common rules (not LEG or CAR), not locked and not mirrored to a partner: where the
shadow passes the chapter's check, the whole shadow set becomes the pending set, PENDING is set and REFUSED cleared,
and no committed value changes; where it does not, REFUSED and the chapter's CFG_REFUSED are set and any pending set
stays. COMMIT_DISCARD clears PENDING, empties the pending set and copies the committed values into the shadow.
Throughout, the die is not held in reset. -/
def Obligations.CommitOfAPage : Prop :=
  ∀ (s : State) (g : Nat) (page : Fin 512) (a : Nat), Live s → Unlocked s page → page.val ≠ pFLT →
      (pageBlock page).1 ≠ .none → commitMirrored page = false ∨ s.hw.mirrorOn = false →
    ((pageBlock page).1 ≠ .leg → (pageBlock page).1 ≠ .car → s.hw.setOk page = true →
      (s.hw.shadow.map (·.1)).Nodup → inPage page a = true → Gives (.commitGo g page) s fun t =>
      t.hw.pending page = true ∧ t.hw.bit (ra page rCOMMIT) 17 = false ∧ t.hw.pnd a = s.hw.shd a
      ∧ (isRws a = true → t.hw.reg a = s.hw.reg a)) ∧
    ((pageBlock page).1 ≠ .leg → (pageBlock page).1 ≠ .car → s.hw.setOk page = false →
      Gives (.commitGo g page) s fun t => t.hw.bit (ra page rCOMMIT) 17 = true
      ∧ t.hw.bit (ra page rEVT) (refusedBit page) = true ∧ t.hw.pend = s.hw.pend
      ∧ t.hw.pending page = s.hw.pending page) ∧
    ((s.hw.shadow.map (·.1)).Nodup → (s.hw.regs.map (·.1)).Nodup → inPage page a = true → isRws a = true →
      Gives (.commitDiscard g page) s fun t => t.hw.pending page = false ∧ t.hw.pnd a = regReset a
      ∧ t.hw.shd a = s.hw.reg a)

/-- SOFT_RESET of an unlocked SEM, PRF, LSH, STP, NSW, CAN, ACQ, HYT, PWR or FIO page that no enabled leg keeps from
it (the engine of an enabled axis leg does) returns every register of the page but LOCK (and, on FIO, but the
counters, to which increments of the cycle are added) to its reset value and empties its pending set. THM and SAF, and
an unlocked page that an enabled leg keeps, refuse: SOFT_RESET_REFUSED is set in SYS.EVT and the registers of the
page, where it is not SYS, stay. Throughout, the die is not held in reset. -/
def Obligations.SoftResetOfAPage : Prop :=
  ∀ (s : State) (g : Nat) (page : Fin 512) (off : Nat), Live s → Unlocked s page → page.val ≠ pFLT →
      off < 0x1000 →
    (s.hw.resetRefused page = false →
      (pageBlock page).1 ∈ [.sem, .prf, .lsh, .stp, .nsw, .can, .acq, .hyt, .fio, .pwr] → off ≠ rLOCK →
      (pageBlock page).1 ≠ .fio ∨ off < 0x0AC → Gives (.softReset g page) s fun t =>
      t.hw.reg (ra page off) = regReset (ra page off) ∧ t.hw.pnd (ra page off) = regReset (ra page off)) ∧
    (s.hw.resetRefused page = true → page.val ≠ pSYS → Gives (.softReset g page) s fun t =>
      t.hw.bit (sy rEVT) 6 = true ∧ t.hw.reg (ra page off) = s.hw.reg (ra page off))

/-- LOCK toggles when it receives 0x0000_5A5A and then 0x0000_A5A5 as two consecutive writes from one requester within
256 PCLK cycles; any other write to LOCK, or a gap longer than that, restarts the sequence and leaves LOCK. While a
page is locked, a bus write to any register except EVT and LOCK leaves every register of the page (but for the
counters and events of SYS, and of FLT where the record of the write is dropped), increments SYS.LOCK_VIOL
(saturating) and sets SYS.EVT.LOCKED_WRITE. Throughout, the die is not held in reset; no command that waits goes first
where commands of one cycle have an order. -/
def Obligations.LockAndLockedWrites : Prop :=
  ∀ (s : State) (g r : Nat) (page : Fin 512) (v : Word), Live s → (pageBlock page).1 ≠ .none →
    (Gives (.lockWrite g r page 0x5A5A) s fun t =>
      tabGet none page.val t.hw.lockSeq = some ⟨r, max s.hw.grain g / 5⟩
      ∧ t.hw.bit (ra page rLOCK) 0 = s.hw.bit (ra page rLOCK) 0) ∧
    (∀ (c : Nat), tabGet none page.val s.hw.lockSeq = some ⟨r, c⟩ → max s.hw.grain g / 5 ≤ c + 256 →
      Gives (.lockWrite g r page 0xA5A5) s fun t => t.hw.bit (ra page rLOCK) 0 = !s.hw.bit (ra page rLOCK) 0
      ∧ tabGet none page.val t.hw.lockSeq = none) ∧
    (v ≠ 0x5A5A → v ≠ 0xA5A5 ∨ tabGet none page.val s.hw.lockSeq = none
      ∨ (tabGet none page.val s.hw.lockSeq).any (fun q =>
      q.req != r || decide (q.cycle + 256 < max s.hw.grain g / 5)) = true →
      Gives (.lockWrite g r page v) s fun t => t.hw.bit (ra page rLOCK) 0 = s.hw.bit (ra page rLOCK) 0
      ∧ tabGet none page.val t.hw.lockSeq = none) ∧
    (∀ (off b : Nat), Alone s g → s.hw.bit (ra page rLOCK) 0 = true → off % 4 = 0 → off < 0x1000 → off ≠ rEVT →
      off ≠ rLOCK → ra page b ∉ [sy 0x054, sy rEVT, sy rEVT_TS, fl 0x048, fl rEVT, fl rEVT_TS] →
      Gives (.registerWrite g r (0x40000000 + ra page off) 4 v) s fun t =>
      t.hw.reg (ra page b) = s.hw.reg (ra page b)
      ∧ t.hw.f (sy 0x054) 15 0 = min (s.hw.f (sy 0x054) 15 0 + 1) 0xFFFF ∧ t.hw.bit (sy rEVT) 3 = true)

/-- EVT_CLEAR clears the bits written 1, leaves the others, and a bit that the hardware set in the same PCLK cycle
stays set (R32); it acts on a locked page too. Throughout, the die is not held in reset. -/
def Obligations.EventClear : Prop :=
  ∀ (s : State) (g : Nat) (page : Fin 512) (v : Word) (i : Fin 32), Live s → page.val ≠ pFLT →
    ((tabGet {} page.val s.hw.evtCyc).cycle ≠ max s.hw.grain g / 5 → Gives (.evtClear g page v) s fun t =>
      t.hw.bit (ra page rEVT) i = (s.hw.bit (ra page rEVT) i && !v.getLsbD i)) ∧
    ((tabGet {} page.val s.hw.evtCyc).cycle = max s.hw.grain g / 5 → Gives (.evtClear g page v) s fun t =>
      t.hw.bit (ra page rEVT) i = (s.hw.bit (ra page rEVT) i && !(v.getLsbD i
          && !(tabGet {} page.val s.hw.evtCyc).set.getLsbD i)))

/-- A write of CTRL.ENABLE to an unlocked page without a rule of its own for it (not LEG, CAR, SDM, FB, CAN, HYT, ACQ,
FLT) stores the bit and leaves every other register of the page; FUNCTION_READY sets READY bit 0, or CAL_DONE bit 1
for a calibration, of an assigned page other than LEG, and both of a LEG page. Throughout, the die is not held in
reset. -/
def Obligations.EnableAndReady : Prop :=
  ∀ (s : State) (g : Nat) (page : Fin 512), Live s → (pageBlock page).1 ≠ .none →
    (∀ (on : Bool) (off : Nat), Unlocked s page →
      (pageBlock page).1 ∉ [.leg, .car, .sdm, .fb, .can, .hyt, .acq, .flt] → off < 0x1000 → off ≠ rCTRL →
      Gives (.pageEnable g page on) s fun t => t.hw.bit (ra page rCTRL) 0 = on
      ∧ t.hw.reg (ra page off) = s.hw.reg (ra page off)) ∧
    (∀ (cal : Bool), Gives (.functionReady g page cal) s fun t =>
      t.hw.bit (ra page rREADY) (if cal then 1 else 0) = true ∧ ((pageBlock page).1 = .leg →
      t.hw.bit (ra page rREADY) 0 = true ∧ t.hw.bit (ra page rREADY) 1 = true))

/-- A 32-bit write to EVT_EN of an assigned unlocked page stores the word. A 32-bit write to an unlocked CAR, LEG, STP
or THM page above the header, at a register without write-1-to-clear bits, stores its writable bits under their masks,
RW bits in the register and RWS bits in the shadow only, and leaves the register as it is elsewhere. A write to
CLK.BATCH changes the shadow and not the committed value. A write of one, two or four bytes to application SRAM stores
those bytes, little-endian, and changes no other byte below the fault log. A write of one or two bytes, or unaligned,
in the page space changes no register of the page space but those of SYS; like a write outside every region it leaves
those bytes of memory, sets BUS_ERR and latches its address and requester unless an earlier error stands. Reading
CLK.GRAIN_LO latches GRAIN_HI. Throughout, the die is not held in reset; no command that waits goes first where
commands of one cycle have an order. -/
def Obligations.FabricAccess : Prop :=
  ∀ (s : State) (g r : Nat) (v : Word), Live s →
    (∀ (page : Fin 512), Alone s g → Unlocked s page → (pageBlock page).1 ≠ .none →
      tabGet 0 (ra page rEVT_EN) s.hw.portCyc = 0 →
      Gives (.registerWrite g r (0x40000000 + ra page rEVT_EN) 4 v) s fun t => t.hw.reg (ra page rEVT_EN) = v) ∧
    (∀ (page : Fin 512) (off : Nat) (row : RegRow), Alone s g → Unlocked s page →
      (pageBlock page).1 ∈ [.car, .leg, .stp, .thm] → 0x040 ≤ off → off < 0x1000 → off % 4 = 0 →
      rowAt page off = some row → row.w1c = 0 → tabGet 0 (ra page off) s.hw.portCyc = 0 →
      Gives (.registerWrite g r (0x40000000 + ra page off) 4 v) s fun t => t.hw.reg (ra page off)
          = ((s.hw.reg (ra page off) &&& ~~~(BitVec.ofNat 32 row.rw)) ||| (v &&& BitVec.ofNat 32 row.rw))
      ∧ t.hw.shd (ra page off)
          = ((s.hw.shd (ra page off) &&& ~~~(BitVec.ofNat 32 row.rws)) ||| (v &&& BitVec.ofNat 32 row.rws))) ∧
    (∀ (addr n b : Nat), Alone s g → n = 1 ∨ n = 2 ∨ (n = 4 ∧ addr % 4 ≠ 0) → 0x40000000 ≤ addr →
      addr < 0x40200000 → 0x1000 ≤ b → s.hw.wbuf = [] → s.hw.rst = 0 →
      Gives (.registerWrite g r addr n v) s fun t => t.hw.reg b = s.hw.reg b ∧ t.mem = s.mem
      ∧ t.hw.bit (sy rEVT) 2 = true
      ∧ t.hw.reg (sy 0x04C) = (if s.hw.bit (sy rEVT) 2 then s.hw.reg (sy 0x04C) else BitVec.ofNat 32 addr)
      ∧ t.hw.reg (sy 0x050) = (if s.hw.bit (sy rEVT) 2 then s.hw.reg (sy 0x050) else BitVec.ofNat 32 r)) ∧
    (Alone s g → Unlocked s pCLK → tabGet 0 (ck 0x048) s.hw.portCyc = 0 →
      Gives (.registerWrite g r 0x40001048 4 v) s fun t =>
      t.hw.shd (ck 0x048) = (s.hw.shd (ck 0x048) &&& 0xFFF80000) ||| (v &&& 0x7FFFF)
      ∧ t.hw.reg (ck 0x048) = s.hw.reg (ck 0x048)) ∧
    (∀ (addr n b : Nat), Alone s g → n = 1 ∨ n = 2 ∨ n = 4 → addr + n ≤ 0x200000 → s.hw.wbuf = [] →
      s.hw.rst = 0 → MemoryOk s → b < 0x50020000 → Gives (.registerWrite g r addr n v) s fun t =>
      memGet t.mem b = if addr ≤ b ∧ b < addr + n then v.extractLsb' (8 * (b - addr)) 8 else memGet s.mem b) ∧
    (∀ (addr n b : Nat), Alone s g → n = 1 ∨ n = 2 ∨ n = 4 → 0x80000000 ≤ addr → s.hw.wbuf = [] →
      s.hw.rst = 0 → b < 0x50020000 → Gives (.registerWrite g r addr n v) s fun t =>
      t.hw.bit (sy rEVT) 2 = true ∧ memGet t.mem b = memGet s.mem b
      ∧ t.hw.reg (sy 0x04C) = (if s.hw.bit (sy rEVT) 2 then s.hw.reg (sy 0x04C) else BitVec.ofNat 32 addr)
      ∧ t.hw.reg (sy 0x050) = (if s.hw.bit (sy rEVT) 2 then s.hw.reg (sy 0x050) else BitVec.ofNat 32 r)) ∧
    (Gives (.latchedRead g 0x40001050) s fun t => (t.hw.latch.find? fun e =>
      e.1 == ck 0x054) = some (ck 0x054, BitVec.ofNat 32 (max s.hw.grain g / 2 ^ 32)))

/-- The operation a batch boundary runs on a waiting request (R42, R45), with no mode cause in the boundary's grain:
BRINGUP goes to CONFIG only with BOOT_DONE; CONFIG to STANDBY only with SAF.READY and CLK values that meet R17 and R18
(the module no member of a pair); STANDBY to CONFIG always; STANDBY to RUN only with SAF.READY and no device-level
fault; RUN to STANDBY only with no leg enabled; the mode after is the one requested. Refused, the mode stays,
MODE_REFUSED is set and REFUSE holds 2. A transition not listed is refused with 1; a request for the current mode
changes nothing. -/
def Obligations.ModeRequestsAtBoundary : Prop :=
  ∀ (h : Hw) (m : BitVec 3), h.sys.modeReq = some m → h.sys.modeGrain ≠ h.grain → h.paired = false →
    (∀ ok : Bool, ok = (if h.mode = mBRINGUP then h.bit (sy rREADY) 2
        else if h.mode = mCONFIG then h.bit (ra pSAF rREADY) 0 && batchOk h.batch h.ncyc
        else if h.mode = mSTANDBY then m == mCONFIG || (h.bit (ra pSAF rREADY) 0 && h.f (ra pFLT 0x04C) 2 0 == 0)
        else !h.anyEnabled) →
      (h.mode, m) ∈ [(mBRINGUP, mCONFIG), (mCONFIG, mSTANDBY), (mSTANDBY, mCONFIG), (mSTANDBY, mRUN), (mRUN, mSTANDBY)] →
      (ok = true → h.modeBoundary.mode = m ∧ h.modeBoundary.f (sy 0x040) 10 8 = h.mode.toNat) ∧
      (ok = false → h.modeBoundary.mode = h.mode ∧ h.modeBoundary.bit (sy rEVT) 1 = true ∧
        h.modeBoundary.f (sy 0x040) 27 24 = 2)) ∧
    (m ∈ [mBRINGUP, mSHADOW, mHOLDUP, mCOOLDOWN] → m ≠ h.mode →
      h.modeBoundary.mode = h.mode ∧ h.modeBoundary.f (sy 0x040) 27 24 = 1) ∧
    (m = h.mode → h.modeBoundary.mode = h.mode ∧ h.modeBoundary.bit (sy rEVT) 1 = h.bit (sy rEVT) 1)

/-- A write of SYS.MODE.REQ to the unlocked SYS page stores the request and leaves the mode. POWER_ON_RELEASE on a
module not yet released, with PRESENT_N low and the lever closed for 50 ms without a break, and VLOG at or above 19.2
V together with the hold-up node at or above 18.5 V for 20 ms, releases the die into BRINGUP with CLK.GRAIN 0, BATCH
15,625, every leg at its reset state and the slot pins latched; PWR shows both voltages in mV. -/
def Obligations.ModeRequestAndRelease : Prop :=
  ∀ (s : State) (g : Nat),
    (∀ (m : BitVec 3), Live s → Unlocked s pSYS → Gives (.modeRequest g m) s fun t => t.hw.sys.modeReq = some m
      ∧ t.hw.mode = s.hw.mode ∧ t.hw.f (sy 0x040) 18 16 = m.toNat) ∧
    (∀ (p : PowerUp), s.hw.sys.released = false → 50000 ≤ p.seatedUs → 20000 ≤ p.supplyUs → 19200 ≤ p.vlogMv →
      18500 ≤ p.vholdMv → p.vlogMv < 65536 → p.vholdMv < 65536 → Gives (.powerOnRelease g p) s fun t =>
      t.hw.grain = 0 ∧ t.hw.mode = mBRINGUP ∧ t.hw.sys.held = false ∧ t.hw.sys.released = true
      ∧ t.hw.pins.slotId = p.slotId ∧ t.hw.f (ra pPWR 0x040) 15 0 = p.vlogMv
      ∧ t.hw.f (ra pPWR 0x044) 15 0 = p.vholdMv ∧ t.hw.legs = [] ∧ t.hw.batch = 15625)

/-- BOOT_COMPLETE in BRINGUP with BOOT_DONE clear and the FAULT LED not yet lit: where slot A passes the header, key,
version and section checks and its SIG verifies over the header and the sections as copied, BOOT_DONE sets, AC0 starts
at ENTRY, and BOOT_STAT shows slot A, no debug image, RESULT 0 and the image's SEC_VER; where slot A is rejected by
its header and slot B passes, slot B starts and EVT.BOOT_FALLBACK sets; where both are rejected, BOOT_DONE stays
clear, RESULT is 6 and the FAULT LED is steady. Then DEBUG_IMAGE_LOAD of an image in application SRAM that passes
starts it with DEBUG 1, SLOT 0 and RESULT 0, and of one with a bad header leaves BOOT_DONE clear with RESULT 1; before
both slots are rejected it does nothing. Throughout, the die is not held in reset. -/
def Obligations.BootAndDebugImage : Prop :=
  ∀ (s : State) (g : Nat), Live s → s.hw.mode = mBRINGUP → s.hw.bit (sy rREADY) 2 = false →
    (s.hw.sys.faultLed = false → s.hw.headerReject s.mem 0x60000000 0x1000000 = 0 →
      s.hw.sigOk s.mem 0x60000000 (s.hw.copySections s.mem 0x60000000).2 = true →
      Gives (.bootComplete g) s fun t => t.hw.bit (sy rREADY) 2 = true ∧ t.hw.bit (sy 0x044) 0 = false
      ∧ t.hw.bit (sy 0x044) 1 = false ∧ t.hw.f (sy 0x044) 7 4 = 0
      ∧ t.hw.f (sy 0x044) 13 8 = s.hw.hdr s.mem 0x60000000 8
      ∧ t.hw.sys.entry = BitVec.ofNat 32 (s.hw.hdr s.mem 0x60000000 0x014) ∧ t.hw.sys.scRun = 3) ∧
    (s.hw.sys.faultLed = false → s.hw.headerReject s.mem 0x60000000 0x1000000 ≠ 0 →
      s.hw.headerReject s.mem 0x61000000 0x1000000 = 0 →
      s.hw.sigOk s.mem 0x61000000 (s.hw.copySections s.mem 0x61000000).2 = true →
      Gives (.bootComplete g) s fun t => t.hw.bit (sy rREADY) 2 = true ∧ t.hw.bit (sy 0x044) 0 = true
      ∧ t.hw.bit (sy 0x044) 1 = false ∧ t.hw.f (sy 0x044) 7 4 = 0
      ∧ t.hw.f (sy 0x044) 13 8 = s.hw.hdr s.mem 0x61000000 8
      ∧ t.hw.sys.entry = BitVec.ofNat 32 (s.hw.hdr s.mem 0x61000000 0x014) ∧ t.hw.bit (sy rEVT) 4 = true) ∧
    (s.hw.sys.faultLed = false → s.hw.headerReject s.mem 0x60000000 0x1000000 ≠ 0 →
      s.hw.headerReject s.mem 0x61000000 0x1000000 ≠ 0 → Gives (.bootComplete g) s fun t =>
      t.hw.bit (sy rREADY) 2 = false ∧ t.hw.sys.faultLed = true ∧ t.hw.f (sy 0x044) 7 4 = 6
      ∧ t.hw.mode = mBRINGUP) ∧
    (s.hw.sys.faultLed = true → s.hw.headerReject s.mem 0x00100000 0x100000 = 0 →
      s.hw.sigOk s.mem 0x00100000 (s.hw.copySections s.mem 0x00100000).2 = true →
      Gives (.debugImageLoad g) s fun t => t.hw.bit (sy rREADY) 2 = true ∧ t.hw.bit (sy 0x044) 0 = false
      ∧ t.hw.bit (sy 0x044) 1 = true ∧ t.hw.f (sy 0x044) 7 4 = 0
      ∧ t.hw.sys.entry = BitVec.ofNat 32 (s.hw.hdr s.mem 0x00100000 0x014)) ∧
    (s.hw.sys.faultLed = true → s.hw.headerOk s.mem 0x00100000 = false → Gives (.debugImageLoad g) s fun t =>
      t.hw.bit (sy rREADY) 2 = false ∧ t.hw.f (sy 0x044) 7 4 = 1) ∧
    (∀ (a : Nat), s.hw.sys.faultLed = false → s.hw.wbuf = [] → Gives (.debugImageLoad g) s fun t =>
      t.hw.reg a = s.hw.reg a ∧ t.mem = s.mem ∧ t.hw.sys = s.hw.sys)

/-- SEC_VER_ADVANCE with BOOT_DONE set takes the written version as stored minimum where it is neither below the
stored one nor above the running image's, and otherwise leaves the minimum. FLASH_ERASE at an address aligned to 64
KiB and FLASH_PROGRAM at one aligned to 256 bytes, outside the running slot (or with a debug image running) and with
no command in progress, set BUSY; else FLASH_REFUSED is set and BUSY stays. At the end of a program command the bytes
of the source stand in flash at the address (those within application SRAM) and BUSY clears; at the end of an erase
BUSY clears (the erased value is free, log entry 11). Throughout, the die is not held in reset. -/
def Obligations.SecurityVersionAndFlash : Prop :=
  ∀ (s : State) (g : Nat), Live s →
    (∀ (v : BitVec 6), Unlocked s pSYS → s.hw.bit (sy rREADY) 2 = true → Gives (.secVerAdvance g v) s fun t =>
      t.hw.nv.secMin = (if s.hw.nv.secMin.toNat ≤ v.toNat
      ∧ v.toNat ≤ s.hw.f (sy 0x044) 13 8 then v else s.hw.nv.secMin)) ∧
    (Unlocked s pSYS → s.hw.bit (sy 0x060) 31 = false → s.hw.f (sy 0x058) 24 0 % 0x10000 = 0 →
      s.hw.bit (sy 0x044) 1 = true ∨ s.hw.f (sy 0x058) 24 0 / 0x1000000 ≠ s.hw.f (sy 0x044) 0 0 →
      Gives (.flashErase g) s fun t => t.hw.bit (sy 0x060) 31 = true
      ∧ t.hw.sys.flashOp = some (1, s.hw.f (sy 0x058) 24 0, s.hw.f (sy 0x05C) 20 0)) ∧
    (Unlocked s pSYS → s.hw.bit (sy 0x060) 31 = false → s.hw.f (sy 0x058) 24 0 % 0x100 = 0 →
      s.hw.bit (sy 0x044) 1 = true ∨ s.hw.f (sy 0x058) 24 0 / 0x1000000 ≠ s.hw.f (sy 0x044) 0 0 →
      Gives (.flashProgram g) s fun t => t.hw.bit (sy 0x060) 31 = true
      ∧ t.hw.sys.flashOp = some (2, s.hw.f (sy 0x058) 24 0, s.hw.f (sy 0x05C) 20 0)) ∧
    (Unlocked s pSYS → s.hw.bit (sy 0x060) 31 = true ∨ s.hw.f (sy 0x058) 24 0 % 0x10000 ≠ 0
      ∨ (s.hw.bit (sy 0x044) 1 = false ∧ s.hw.f (sy 0x058) 24 0 / 0x1000000 = s.hw.f (sy 0x044) 0 0) →
      Gives (.flashErase g) s fun t => t.hw.bit (sy rEVT) 7 = true
      ∧ t.hw.bit (sy 0x060) 31 = s.hw.bit (sy 0x060) 31 ∧ t.hw.sys.flashOp = s.hw.sys.flashOp) ∧
    (Unlocked s pSYS → s.hw.bit (sy 0x060) 31 = true ∨ s.hw.f (sy 0x058) 24 0 % 0x100 ≠ 0
      ∨ (s.hw.bit (sy 0x044) 1 = false ∧ s.hw.f (sy 0x058) 24 0 / 0x1000000 = s.hw.f (sy 0x044) 0 0) →
      Gives (.flashProgram g) s fun t => t.hw.bit (sy rEVT) 7 = true
      ∧ t.hw.bit (sy 0x060) 31 = s.hw.bit (sy 0x060) 31 ∧ t.hw.sys.flashOp = s.hw.sys.flashOp) ∧
    (∀ (a src i : Nat), s.hw.sys.flashOp = some (2, a, src) → s.hw.wbuf = [] → s.hw.rst = 0 →
      Gives (.flashCmdDone g) s fun t => t.hw.bit (sy 0x060) 31 = false ∧ t.hw.sys.flashOp = none
      ∧ (i < 0x100 → src + i < 0x200000 → memGet t.mem (0x60000000 + a + i) = memGet s.mem (src + i))) ∧
    (∀ (a src : Nat), s.hw.sys.flashOp = some (1, a, src) → s.hw.wbuf = [] → s.hw.rst = 0 →
      Gives (.flashCmdDone g) s fun t => t.hw.bit (sy 0x060) 31 = false ∧ t.hw.sys.flashOp = none)

/-- EXTEST, CLAMP and INTEST take effect in BRINGUP and CONFIG; in any other mode the TAP substitutes BYPASS and sets
SYS.EVT.JTAG_REFUSED. Every other instruction takes effect in every mode. No register but SYS.EVT and EVT_TS changes.
Throughout, the die is not held in reset. -/
def Obligations.BoundaryScan : Prop :=
  ∀ (s : State) (g : Nat) (j : JtagInstr) (a : Nat), Live s →
    (j = .bypass ∨ j = .other ∨ s.hw.mode = mBRINGUP ∨ s.hw.mode = mCONFIG →
      Gives (.jtagInstruction g j) s fun t => t.hw.sys.jtag = j ∧ t.hw.reg a = s.hw.reg a) ∧
    (j = .extest ∨ j = .clamp ∨ j = .intest → s.hw.mode ≠ mBRINGUP → s.hw.mode ≠ mCONFIG →
      Gives (.jtagInstruction g j) s fun t => t.hw.sys.jtag = .bypass ∧ t.hw.bit (sy rEVT) 5 = true
      ∧ (a = sy rEVT ∨ a = sy rEVT_TS ∨ t.hw.reg a = s.hw.reg a))

/-- Halting an application core marks it halted and, where no core was halted before, forces to the safe state the
legs whose page has HALT_SAFE set and no other leg; resuming the last one ends the halt. Halting a safety core is a
safety fault that enters SAFEHALT from CONFIG, STANDBY, RUN and SHADOW. Throughout, the die is not held in reset. -/
def Obligations.CoreHalts : Prop :=
  ∀ (s : State) (g : Nat), Live s →
    (∀ (c : Fin 4) (n : Fin 96), s.hw.sys.acHalted = 0 → Gives (.acDebugHalt g c) s fun t =>
      t.hw.sys.acHalted = BitVec.ofNat 4 (2 ^ c.val) ∧ (s.hw.bit (lg n rCTRL) 2 = true →
      t.hw.bit (lg n rEVT) 6 = true ∧ (t.hw.leg n).running = false) ∧ (s.hw.bit (lg n rCTRL) 2 = false →
      t.hw.leg n = s.hw.leg n)) ∧
    (∀ (c : Fin 4), Gives (.acDebugResume g c) s fun t =>
      t.hw.sys.acHalted = s.hw.sys.acHalted &&& ~~~BitVec.ofNat 4 (2 ^ c.val) ∧ t.hw.mode = s.hw.mode) ∧
    (∀ (b : Bool), 1 ≤ s.hw.mode.toNat → s.hw.mode.toNat ≤ 4 → s.hw.sys.modeGrain < max s.hw.grain g →
      Gives (.safetyCoreHalt g b) s fun t => t.hw.mode = mSAFEHALT ∧ t.hw.bit (sf rEVT) 1 = true
      ∧ t.hw.bit (sf rSTAT) 0 = true ∧ t.hw.bit (sf rREADY) 0 = false)

/-- A software set of ENABLE of an unlocked LEG page holds only in RUN or SHADOW, on a leg whose bridge an axis owns,
with a carrier period that is valid and that no change of BATCH has broken since its last commit, and under no force;
otherwise ENABLE reads 0 and ENABLE_REFUSED is set. A clear drives the leg to the safe state, PUL low, in the grain in
which the write is applied, the last of its cycle (R475). A write of CNT_CLR clears DROP_CNT and REFRESH_CNT where
none of their counts was stepped in its cycle (R32). No other leg changes. Throughout, the die is not held in reset.
-/
def Obligations.LegEnableAndDisable : Prop :=
  ∀ (s : State) (g : Nat) (n k : Fin 96), Live s → Unlocked s (pLEG n) →
    (s.hw.mode = mRUN ∨ s.hw.mode = mSHADOW → (s.hw.legAxis n).any s.hw.carValid = true →
      s.hw.forced n = false → Gives (.legEnable g n) s fun t => t.hw.legEnabled n = true ∧ (k = n
      ∨ t.hw.legEnabled k = s.hw.legEnabled k) ∧ t.hw.leg k = s.hw.leg k) ∧
    ((s.hw.mode ≠ mRUN ∧ s.hw.mode ≠ mSHADOW) ∨ s.hw.legAxis n = none ∨ (s.hw.legAxis n).any (fun c =>
      !s.hw.carValid c) = true ∨ s.hw.forced n = true → Gives (.legEnable g n) s fun t =>
      t.hw.legEnabled n = false ∧ t.hw.bit (lg n rEVT) 1 = true ∧ t.hw.leg k = s.hw.leg k) ∧
    (Gives (.legDisable g n) s fun t => t.hw.legEnabled n = false ∧ (t.hw.leg n).running = false
      ∧ (t.hw.leg n).pul = false ∧ (t.hw.leg n).pulAt = 32 * (5 * (max s.hw.grain g / 5) + 4) ∧ (k = n
      ∨ (t.hw.legEnabled k = s.hw.legEnabled k ∧ t.hw.leg k = s.hw.leg k))) ∧
    ((tabGet {} (cntKey (lg n 0x05C) 0) s.hw.cntCyc).cycle ≠ max s.hw.grain g / 5 →
      (tabGet {} (cntKey (lg n 0x05C) 16) s.hw.cntCyc).cycle ≠ max s.hw.grain g / 5 →
      (tabGet {} (cntKey (lg n 0x060) 0) s.hw.cntCyc).cycle ≠ max s.hw.grain g / 5 →
      Gives (.legCntClr g n) s fun t => t.hw.reg (lg n 0x05C) = 0 ∧ t.hw.f (lg n 0x060) 31 0 = 0
      ∧ t.hw.leg k = s.hw.leg k)

/-- At a reload of a bridge that an axis owns a new window begins; the pending set of each of its legs, if its commit
point takes it, no GO of the same cycle made it and no carrier configuration of the bridge's group waits, becomes the
committed set; an enabled leg in the safe state that meets R77, its carrier unit taking no set in that reload, leaves
it with PUL low. At a wrap, a leg out of the safe state whose PUL is high, under no force, and whose on-time taken
where the notch would open exceeds HS_MAX_ON (not 0) gets a low time of REFRESH_W from the wrap: REFRESH is set and
REFRESH_CNT counts. HS_ON_TIME_EXCEEDED on a leg whose on-time exceeds HS_MAX_ON (not 0) sets HS_DUE. Throughout, the
die is not held in reset. -/
def Obligations.BridgeReloadAndWrap : Prop :=
  ∀ (s : State) (g : Nat) (b : Fin 32) (n : Fin 96), Live s → n.val / 3 = b.val →
    (∀ (c off : Nat), s.hw.legAxis n = some c → ((s.hw.at g).carDue c).cfg = false →
      s.hw.takes (pLEG n) = true → (tabGet {} (pLEG n) s.hw.goMark).cycle ≠ max s.hw.grain g / 5 →
      s.hw.pending (pLEG n) = true → (s.hw.pend.map (·.1)).Nodup →
      off ∈ [0x040, 0x044, 0x048, 0x04C, 0x050, 0x054, 0x058] → Gives (.bridgeReload g b) s fun t =>
      (t.hw.bridge b).win = (s.hw.bridge b).win + 1 ∧ t.hw.pending (pLEG n) = false
      ∧ t.hw.reg (lg n off) = s.hw.pnd (lg n off)) ∧
    (∀ (c : Nat), s.hw.legAxis n = some c → bitOf ((s.hw.at g).carDue c).waiting b = false →
      s.hw.legEnabled n = true → s.hw.legMayEnable n = true → (s.hw.leg n).running = false →
      Gives (.bridgeReload g b) s fun t => (t.hw.leg n).running = true ∧ (t.hw.leg n).pul = false
      ∧ (t.hw.bridge b).win = (s.hw.bridge b).win + 1) ∧
    ((s.hw.legAxis n).isSome = true → (s.hw.leg n).running = true → (s.hw.leg n).pul = true →
      s.hw.forced n = false → s.hw.f (lg n 0x054) 27 0 ≠ 0 → s.hw.f (lg n 0x054) 27 0
          < s.hw.onTime n ((s.hw.at g).bridgeFine b 0 / 32 - (s.hw.f (lg n 0x04C) 31 16 + 31) / 32) →
      Gives (.bridgeWrap g b) s fun t => t.hw.bit (lg n rEVT) 5 = true
      ∧ t.hw.f (lg n 0x060) 31 0 = min (s.hw.f (lg n 0x060) 31 0 + 1) 0xFFFFFFFF
      ∧ (t.hw.leg n).refFall = (s.hw.at g).bridgeFine b 0
      ∧ (t.hw.leg n).refRise = (s.hw.at g).bridgeFine b 0 + s.hw.f (lg n 0x058) 15 0) ∧
    (s.hw.f (lg n 0x054) 27 0 ≠ 0 → s.hw.f (lg n 0x054) 27 0 < s.hw.onTime n (max s.hw.grain g) →
      Gives (.hsOnTimeExceeded g n) s fun t => (t.hw.leg n).hsDue = true)

/-- When the bridge count reaches a compare of a leg out of the safe state, under no force, outside a refresh (and not
a fall at position 0 that a refresh may join), with PUL not yet at the edge's level: where the compare lies in the
window and its partner lies beyond it, earlier in it, or MIN_PULSE or more later, PUL takes the level; where the
partner stands at the same place or less than MIN_PULSE later, both are dropped: PUL stays, DROP_CNT.DROPPED counts
one and PULSE_DROPPED is set. Of two compares before the window the one of the later position decides the level. A
compare at or beyond 32P never fires, and an edge at PUL's own level changes nothing. Throughout, the die is not held
in reset. -/
def Obligations.PulEdges : Prop :=
  ∀ (s : State) (g : Nat) (n : Fin 96) (rise : Bool) (c r q : Nat), Live s → s.hw.legAxis n = some c →
      (s.hw.leg n).running = true → s.hw.forced n = false → s.hw.period c ≠ 0 →
    ((s.hw.leg n).dropPair ≠ some (s.hw.bridge (n.val / 3)).win → (s.hw.leg n).pul ≠ rise →
      (s.hw.leg n).refRise ≤ min (s.hw.bridge (n.val / 3)).start (32 * max s.hw.grain g) → rise = true
      ∨ s.hw.cmpPos n rise ≠ 0 ∨ s.hw.f (lg n 0x054) 27 0 = 0 → s.hw.cmpPlace c n rise = .inside r →
      s.hw.cmpPlace c n (!rise) = .beyond ∨ (s.hw.cmpPlace c n (!rise) = .inside q ∧ (q < r ∨ (r < q
      ∧ r + s.hw.f (lg n 0x050) 15 0 ≤ q))) → Gives (.pulEdge g n rise) s fun t => (t.hw.leg n).pul = rise
      ∧ (t.hw.leg n).edgeWin = (s.hw.bridge (n.val / 3)).win ∧ (t.hw.leg n).running = true) ∧
    ((s.hw.leg n).dropPair ≠ some (s.hw.bridge (n.val / 3)).win → (s.hw.leg n).pul ≠ rise →
      (s.hw.leg n).refRise ≤ min (s.hw.bridge (n.val / 3)).start (32 * max s.hw.grain g) → rise = true
      ∨ s.hw.cmpPos n rise ≠ 0 ∨ s.hw.f (lg n 0x054) 27 0 = 0 → s.hw.cmpPlace c n rise = .inside r →
      s.hw.cmpPlace c n (!rise) = .inside q → r = q ∨ (r < q ∧ q < r + s.hw.f (lg n 0x050) 15 0) →
      Gives (.pulEdge g n rise) s fun t => (t.hw.leg n).pul = (s.hw.leg n).pul
      ∧ t.hw.f (lg n 0x05C) 15 0 = min (s.hw.f (lg n 0x05C) 15 0 + 1) 0xFFFF ∧ t.hw.bit (lg n rEVT) 2 = true) ∧
    ((s.hw.leg n).dropPair ≠ some (s.hw.bridge (n.val / 3)).win → (s.hw.leg n).pul ≠ rise →
      (s.hw.leg n).refRise ≤ min (s.hw.bridge (n.val / 3)).start (32 * max s.hw.grain g) → rise = true
      ∨ s.hw.cmpPos n rise ≠ 0 ∨ s.hw.f (lg n 0x054) 27 0 = 0 → s.hw.cmpPlace c n rise = .before →
      s.hw.cmpPlace c n (!rise) = .before → s.hw.cmpPos n (!rise) < s.hw.cmpPos n rise →
      Gives (.pulEdge g n rise) s fun t => (t.hw.leg n).pul = rise) ∧
    ((s.hw.leg n).dropPair ≠ some (s.hw.bridge (n.val / 3)).win →
      (s.hw.leg n).refRise ≤ min (s.hw.bridge (n.val / 3)).start (32 * max s.hw.grain g) → rise = true
      ∨ s.hw.cmpPos n rise ≠ 0 ∨ s.hw.f (lg n 0x054) 27 0 = 0 → s.hw.cmpPlace c n rise = .before →
      s.hw.cmpPlace c n (!rise) = .before → s.hw.cmpPos n rise < s.hw.cmpPos n (!rise) →
      Gives (.pulEdge g n rise) s fun t => t.hw.leg n = s.hw.leg n) ∧
    (∀ (a : Nat), 32 * s.hw.period c ≤ s.hw.cmpPos n rise → Gives (.pulEdge g n rise) s fun t =>
      t.hw.leg n = s.hw.leg n ∧ t.hw.reg a = s.hw.reg a) ∧
    (∀ (a : Nat), (s.hw.leg n).dropPair ≠ some (s.hw.bridge (n.val / 3)).win → (s.hw.leg n).pul = rise →
      Gives (.pulEdge g n rise) s fun t => t.hw.leg n = s.hw.leg n ∧ t.hw.reg a = s.hw.reg a)

/-- GST_PERIOD records the period and the high time measured. A decoded status that differs from the code in force and
has come in CONFIRM (at least 1) consecutive periods becomes CODE; a status other than OK sets EVT bit 2 and forces
the leg into the safe state. A period outside 2,000 to 3,000 grains is a code error: the run of agreeing periods
starts again and EVT.CODE_ERR is set. GST_HARD_FAULT (a low of 6,001 grains) gives CODE 4 and a short circuit:
EVT.SHORT is set, the short-circuit force holds the leg (of its axis, or the leg alone where no axis owns it), and the
leg is safe if no protection held it before. GST_STUCK_HIGH (a high of more than 6,000 grains) is GST_LOST: CODE 5,
EVT.GST_LOST, the leg safe. At the end of a di/dt blank only the rises of ENA whose DBLANK lasts on are kept.
Throughout, the die is not held in reset. -/
def Obligations.GateStatusOfALeg : Prop :=
  ∀ (s : State) (g : Nat) (n : Fin 96), Live s →
    (∀ (p hi : Nat), gstDecode p hi = some 0 → s.hw.gstCode n ≠ 0 → max 1 (s.hw.f (gp 0x040) 2 0)
          ≤ (if (tabGet {} n.val s.hw.gdp.gst).code = 0 then (tabGet {} n.val s.hw.gdp.gst).n + 1 else 1) →
      Gives (.gstPeriod g n p hi) s fun t => t.hw.gstCode n = 0 ∧ t.hw.f (gstStat n) 31 20 = p
      ∧ t.hw.f (gstStat n) 19 8 = hi ∧ t.hw.leg n = s.hw.leg n) ∧
    (∀ (p hi d : Nat), gstDecode p hi = some d → d ≠ 0 → s.hw.gstCode n ≠ d → max 1 (s.hw.f (gp 0x040) 2 0)
          ≤ (if (tabGet {} n.val s.hw.gdp.gst).code = d then (tabGet {} n.val s.hw.gdp.gst).n + 1 else 1) →
      Gives (.gstPeriod g n p hi) s fun t => t.hw.gstCode n = d ∧ t.hw.bit (gp rEVT) 2 = true
      ∧ (t.hw.leg n).running = false ∧ (t.hw.leg n).pul = false ∧ t.hw.statusForce n = true) ∧
    (∀ (p hi : Nat), gstDecode p hi = none → p < 0x1000 → hi < 0x1000 → Gives (.gstPeriod g n p hi) s fun t =>
      t.hw.f (gstStat n) 31 20 = p ∧ t.hw.f (gstStat n) 19 8 = hi ∧ t.hw.bit (gp rEVT) 4 = true
      ∧ tabGet {} n.val t.hw.gdp.gst = ({} : GstRun)) ∧
    (s.hw.legAxis n = none → Gives (.gstHardFault g n) s fun t => t.hw.gstCode n = 4
      ∧ t.hw.bit (gp rEVT) 1 = true ∧ t.hw.gdp.lone.getLsbD n = true ∧ (s.hw.protForce n = true
      ∨ (t.hw.leg n).running = false)) ∧
    (∀ (a : Nat), s.hw.legAxis n = some a → Gives (.gstHardFault g n) s fun t => t.hw.gstCode n = 4
      ∧ t.hw.bit (gp rEVT) 1 = true ∧ (t.hw.prot a 2).force.getLsbD n = true ∧ (s.hw.protForce n = true
      ∨ (t.hw.leg n).running = false)) ∧
    (Gives (.gstStuckHigh g n) s fun t => t.hw.gstCode n = 5 ∧ t.hw.bit (gp rEVT) 3 = true
      ∧ (t.hw.leg n).running = false ∧ (t.hw.leg n).pul = false) ∧
    (∀ (x : Nat), Gives (.didtBlankEnd g n) s fun t =>
      (∀ r ∈ (t.hw.leg n).rises, max s.hw.grain g < r + s.hw.f (gp (0x400 + 4 * n)) 24 16)
      ∧ (t.hw.leg n).running = (s.hw.leg n).running ∧ t.hw.reg x = s.hw.reg x)

/-- At the pin of an enabled, unlatched ASYNC input an active level outside blanking draws ENA of the legs of its mask
low in that grain; the trip is recorded when it is sampled: the latch bit is set and holds the legs of the mask,
FIRST_TS is the pin's grain, COUNT counts and EVT.TRIP is set. An input without ASYNC whose active run outside
blanking has lasted ON_FILT + 1 grains latches, FIRST_TS the grain of the first, 3 earlier at the pin. A change that
comes inside blanking is held instead; one that ends inside blanking is dropped and counted in COUNT.BLANKED; an ASYNC
input still active in the first grain after blanking latches there. TRIP_CLR clears the latch of an input inactive for
its OFF_FILT; of one not, or that latched in this cycle, CLR_REF and EVT.CLR_REFUSED are set and the latch stays. A
locked page is another statement's (LockAndLockedWrites). Throughout, the die is not held in reset. -/
def Obligations.TripInputs : Prop :=
  ∀ (s : State) (g : Nat) (i : Fin 16) (n : Fin 96), Live s →
    (∀ (lv : Bool) (x : Nat), s.hw.bit (tripReg i 0) 0 = true → s.hw.bit (gp 0x058) i = false →
      s.hw.bit (tripReg i 0) 2 = true → s.hw.tripActive i lv = true → (s.hw.trip i).async = none →
      s.hw.tripBlanked i (max s.hw.grain g) = false → Gives (.tripAssert g i lv false) s fun t =>
      (t.hw.trip i).async = some (max s.hw.grain g) ∧ ((s.hw.tripMask i).getLsbD n = true →
      t.hw.asyncLow n = true) ∧ t.hw.reg x = s.hw.reg x) ∧
    (∀ (lv : Bool) (p : Nat) (k : Fin 32), s.hw.bit (tripReg i 0) 0 = true → s.hw.bit (gp 0x058) i = false →
      (s.hw.trip i).async = some p → Gives (.tripAssert g i lv true) s fun t => t.hw.bit (gp 0x058) i = true
      ∧ t.hw.bit (gp rEVT) 0 = true ∧ (t.hw.trip i).mask = s.hw.tripMask i
      ∧ ((s.hw.tripMask i).getLsbD n = true → t.hw.tripForce n = true)
      ∧ t.hw.f (tripReg i 0x18) 15 0 = min (s.hw.f (tripReg i 0x18) 15 0 + 1) 0xFFFF
      ∧ t.hw.reg (tripReg i 0x14) = BitVec.ofNat 32 p ∧ (s.hw.axisWasOn k = false →
      t.hw.prot k 1 = s.hw.prot k 1)) ∧
    (∀ (lv : Bool), s.hw.bit (tripReg i 0) 0 = true → s.hw.bit (gp 0x058) i = false →
      s.hw.bit (tripReg i 0) 2 = true → s.hw.tripActive i lv = true → (s.hw.trip i).async = none →
      s.hw.tripBlanked i (max s.hw.grain g - 3) = false → Gives (.tripAssert g i lv true) s fun t =>
      t.hw.bit (gp 0x058) i = true ∧ t.hw.bit (gp rEVT) 0 = true ∧ (t.hw.trip i).mask = s.hw.tripMask i
      ∧ ((s.hw.tripMask i).getLsbD n = true → t.hw.tripForce n = true)
      ∧ t.hw.f (tripReg i 0x18) 15 0 = min (s.hw.f (tripReg i 0x18) 15 0 + 1) 0xFFFF
      ∧ t.hw.reg (tripReg i 0x14) = BitVec.ofNat 32 (max s.hw.grain g - 3)) ∧
    (∀ (lv : Bool), s.hw.bit (tripReg i 0) 0 = true → s.hw.bit (gp 0x058) i = false →
      s.hw.bit (tripReg i 0) 2 = false → s.hw.tripActive i lv = true → (s.hw.trip i).level ≠ lv →
      (s.hw.trip i).async = none → s.hw.tripBlanked i (max s.hw.grain g) = true →
      Gives (.tripAssert g i lv true) s fun t => t.hw.bit (gp 0x058) i = false ∧ (t.hw.trip i).held = true
      ∧ (t.hw.trip i).heldTs = max s.hw.grain g - 3 ∧ t.hw.leg n = s.hw.leg n) ∧
    (∀ (lv : Bool), s.hw.bit (tripReg i 0) 0 = true → s.hw.bit (gp 0x058) i = false →
      s.hw.bit (tripReg i 0) 2 = false → s.hw.tripActive i lv = false → (s.hw.trip i).async = none →
      (s.hw.trip i).held = true → s.hw.tripBlanked i (max s.hw.grain g) = true →
      Gives (.tripAssert g i lv true) s fun t => t.hw.bit (gp 0x058) i = false ∧ (t.hw.trip i).held = false
      ∧ t.hw.f (tripReg i 0x18) 31 16 = min (s.hw.f (tripReg i 0x18) 31 16 + 1) 0xFFFF
      ∧ t.hw.leg n = s.hw.leg n) ∧
    (s.hw.bit (tripReg i 0) 0 = true → s.hw.bit (gp 0x058) i = false → s.hw.bit (tripReg i 0) 2 = false →
      s.hw.tripActive i (s.hw.trip i).level = true → s.hw.tripBlanked i (max s.hw.grain g) = false →
      (s.hw.at g).tripRun i + s.hw.f (tripReg i 0) 15 8 ≤ max s.hw.grain g →
      Gives (.tripFiltered g i) s fun t => t.hw.bit (gp 0x058) i = true ∧ t.hw.bit (gp rEVT) 0 = true
      ∧ (t.hw.trip i).mask = s.hw.tripMask i ∧ ((s.hw.tripMask i).getLsbD n = true → t.hw.tripForce n = true)
      ∧ t.hw.f (tripReg i 0x18) 15 0 = min (s.hw.f (tripReg i 0x18) 15 0 + 1) 0xFFFF
      ∧ t.hw.reg (tripReg i 0x14) = BitVec.ofNat 32 ((s.hw.trip i).since - 3) ∧ (t.hw.trip i).held = false) ∧
    (∀ (x : Nat), max s.hw.grain g < (s.hw.trip i).since + s.hw.f (tripReg i 0) 15 8 →
      Gives (.tripFiltered g i) s fun t => t.hw.trip i = s.hw.trip i ∧ t.hw.reg x = s.hw.reg x) ∧
    (s.hw.bit (tripReg i 0) 0 = true → s.hw.bit (gp 0x058) i = false → s.hw.bit (tripReg i 0) 2 = true →
      s.hw.tripActive i (s.hw.trip i).pin = true → s.hw.tripBlanked i (max s.hw.grain g - 1) = true →
      s.hw.tripBlanked i (max s.hw.grain g) = false → Gives (.tripBlankEnd g i) s fun t =>
      t.hw.bit (gp 0x058) i = true ∧ t.hw.bit (gp rEVT) 0 = true ∧ (t.hw.trip i).mask = s.hw.tripMask i
      ∧ ((s.hw.tripMask i).getLsbD n = true → t.hw.tripForce n = true)
      ∧ t.hw.f (tripReg i 0x18) 15 0 = min (s.hw.f (tripReg i 0x18) 15 0 + 1) 0xFFFF
      ∧ t.hw.reg (tripReg i 0x14) = BitVec.ofNat 32 (if (s.hw.trip i).held then (s.hw.trip i).heldTs
          else (s.hw.trip i).pinAt) ∧ (t.hw.trip i).held = false) ∧
    (∀ (m : BitVec 16), Unlocked s pGDP → m.getLsbD i = true → s.hw.bit (gp 0x058) i = true →
      s.hw.tripActive i (s.hw.trip i).level = false →
      (s.hw.trip i).since + 500 * s.hw.f (tripReg i 4) 15 0 ≤ (5 * (max s.hw.grain g / 5) + 4) →
      (s.hw.trip i).lastCycle ≠ some (max s.hw.grain g / 5) → Gives (.tripClr g m) s fun t =>
      t.hw.bit (gp 0x058) i = false ∧ (t.hw.trip i).mask = 0) ∧
    (∀ (m : BitVec 16), Unlocked s pGDP → m.getLsbD i = true → s.hw.bit (gp 0x058) i = true →
      s.hw.tripActive i (s.hw.trip i).level = true
      ∨ (5 * (max s.hw.grain g / 5) + 4) < (s.hw.trip i).since + 500 * s.hw.f (tripReg i 4) 15 0
      ∨ (s.hw.trip i).lastCycle = some (max s.hw.grain g / 5) → Gives (.tripClr g m) s fun t =>
      t.hw.bit (gp 0x058) i = true ∧ t.hw.bit (gp 0x05C) i = true ∧ t.hw.bit (gp rEVT) 5 = true
      ∧ t.hw.trip i = s.hw.trip i)

/-- At the end of WAIT the retry acts if its condition holds: the force of the class ends, the pending bit clears,
TRIES counts to at most 7 and EVT.RETRY is set; else it waits at most one further WAIT for the condition, and acts
when it comes. At the end of that wait without it the fault latches: the latched bit and EVT.LATCHED are set, the
pending bit clears and no leg of the axis stays enabled. FORGET after the last fault, and with none, TRIES returns to
0; earlier it stays. AXIS_CLR of an axis with no cause left and no fault or short in the write's grain clears its
latched and pending bits, its class forces and ENABLE of its legs; with a cause left it sets EVT.CLR_REFUSED and
leaves latches and forces. Throughout, the die is not held in reset. -/
def Obligations.ProtectionRetries : Prop :=
  ∀ (s : State) (g : Nat) (a : Fin 32) (c : Fin 3), Live s →
    ((s.hw.prot a c).phase = 1 → (s.hw.prot a c).due ≤ max s.hw.grain g → (s.hw.at g).retryCond a c = true →
      Gives (.retryWaitExpiry g a c) s fun t => t.hw.tries a c = min 7 (s.hw.tries a c + 1)
      ∧ (t.hw.prot a c).force = 0 ∧ (t.hw.prot a c).phase = 0 ∧ t.hw.bit (axProt a) (16 + c) = false
      ∧ t.hw.bit (gp rEVT) 6 = true) ∧
    (∀ (x : Nat), (s.hw.prot a c).phase = 1 → (s.hw.prot a c).due ≤ max s.hw.grain g →
      (s.hw.at g).retryCond a c = false → Gives (.retryWaitExpiry g a c) s fun t => (t.hw.prot a c).phase = 2
      ∧ (t.hw.prot a c).due = max s.hw.grain g + s.hw.f (retryReg c) 13 0 * 500000
      ∧ (t.hw.prot a c).force = (s.hw.prot a c).force ∧ t.hw.reg x = s.hw.reg x) ∧
    ((s.hw.prot a c).phase = 2 → (s.hw.at g).retryCond a c = true → Gives (.retryAct g a c) s fun t =>
      t.hw.tries a c = min 7 (s.hw.tries a c + 1) ∧ (t.hw.prot a c).force = 0 ∧ (t.hw.prot a c).phase = 0
      ∧ t.hw.bit (axProt a) (16 + c) = false ∧ t.hw.bit (gp rEVT) 6 = true) ∧
    (∀ (n : Nat), (s.hw.prot a c).phase = 2 → (s.hw.prot a c).due ≤ max s.hw.grain g →
      (s.hw.at g).retryCond a c = false → Gives (.retryTimeout g a c) s fun t => t.hw.latched a c = true
      ∧ (t.hw.prot a c).phase = 0 ∧ t.hw.bit (axProt a) (16 + c) = false ∧ t.hw.bit (gp rEVT) 7 = true
      ∧ (n ∈ s.hw.axisLegs a → t.hw.legEnabled n = false)) ∧
    (∀ (x : Nat), (s.hw.prot a c).lastFault.all (fun f =>
      decide (f + s.hw.f (retryReg c) 31 24 * 500000000 ≤ max s.hw.grain g)) = true →
      Gives (.tryCountForget g a c) s fun t => t.hw.tries a c = 0 ∧ t.hw.latched a c = s.hw.latched a c
      ∧ (x = axProt a ∨ t.hw.reg x = s.hw.reg x)) ∧
    (∀ (x f : Nat), (s.hw.prot a c).lastFault = some f →
      max s.hw.grain g < f + s.hw.f (retryReg c) 31 24 * 500000000 → Gives (.tryCountForget g a c) s fun t =>
      t.hw.tries a c = s.hw.tries a c ∧ t.hw.reg x = s.hw.reg x) ∧
    (∀ (m : Word) (n : Nat), Unlocked s pGDP → bitOf m a = true → ((s.hw.axisLegs a).any fun n =>
      s.hw.gstCode n != 0 || s.hw.tripForce n) = false →
      ∀ k : Fin 3, (s.hw.prot a k).lastFault ≠ some (5 * (max s.hw.grain g / 5) + 4)
      ∧ (s.hw.prot a k).bareShort ≠ some (5 * (max s.hw.grain g / 5) + 4) → Gives (.axisClr g m) s fun t =>
      t.hw.latched a c = false ∧ t.hw.bit (axProt a) (16 + c) = false ∧ (t.hw.prot a c).force = 0
      ∧ (t.hw.prot a c).phase = 0 ∧ (n ∈ s.hw.axisLegs a → t.hw.legEnabled n = false)) ∧
    (∀ (m : Word), Unlocked s pGDP → bitOf m a = true → ((s.hw.axisLegs a).any fun n =>
      s.hw.gstCode n != 0 || s.hw.tripForce n) = true → Gives (.axisClr g m) s fun t =>
      t.hw.bit (gp rEVT) 5 = true ∧ t.hw.latched a c = s.hw.latched a c ∧ t.hw.prot a c = s.hw.prot a c)

/-- A conversion of an enabled channel that is not lost, whose bits were all captured since the channel started, puts
the sinc3 result of those bits, scaled by GAIN and OFFSET of its settings, into CRUMB with the sequence number counted
modulo 16, SAT, OVR (the magnitude without offset at or above OVR_LIM) and VALID; the grain of its centre into
CRUMB_TS; and its distance from its target, 0 in free mode, into the error register. On a stuck channel the conversion
is void: the value stays, VALID is 0. A crust output puts the sinc2 result of its bits into CRUST. CAL sets CAL_BUSY
from the grain of the write; at its end, if the band stood, the first longest run of points without disagreement gives
EYE and the sample point of the band, and CAL_DONE sets; where the band moved or no point is good, EVT.CAL_FAIL is set
and SPD stays. Data held for STUCK_LIM bits, or a clock without a rising edge for four periods, set the loss bit and
its event and end RUNNING. A restart clears STUCK and VALID, and after a lost clock the clock's loss bit. Which bits a
conversion takes and which target it has is read as log entries 155 to 157 say. Throughout, the die is not held in
reset. -/
def Obligations.SigmaDeltaConversions : Prop :=
  ∀ (s : State) (g : Nat) (n : Fin 112), Live s →
    (∀ (d : SdmBits) (p : SdmPlace), s.hw.bit (sd n rCTRL) 0 = true → (s.hw.at g).sdmDue n d.last = true →
      (s.hw.at g).sdmPlace n d.last = some p → s.hw.sdmLost n = false →
      (s.hw.sdmS n).from_ ≤ (s.hw.at g).edgeBack (s.hw.sdmClk n) (3 * fld p.set.cfg 8 0 - 2 - 1) d.last →
      Gives (.sdmConversion g n d) s fun t =>
      let h := s.hw.at g;
      let M := fld p.set.cfg 8 0;
      let bits := h.sdmTaken n (3 * M - 2) d;
      let v : Int := 2 * (weighted (sinc3 M) bits : Int) - (M ^ 3 : Nat);
      let y := crumb M (weighted (sinc3 M) bits) p.set.gain p.set.offset;
      t.hw.reg (sd n 0x068) = BitVec.ofNat 32 (unsign 24 y.1 * 256 + (s.hw.f (sd n 0x068) 7 4 + 1) % 16 * 16
          + (if y.2 then 4 else 0) + (if s.hw.f (sd n 0x058) 22 0 * M ^ 3 ≤ v.natAbs * 2 ^ 23 then 2 else 0)
          + 1) ∧ t.hw.reg (sd n 0x06C) = BitVec.ofNat 32 (p.centre.toNat / 32)
      ∧ t.hw.reg (sd n 0x070) = (match p.target with
        | some T => BitVec.ofNat 32 (unsign 16 (p.centre - T))
        | none => 0) ∧ t.hw.bit (sd n rSTAT) 0 = true) ∧
    (∀ (d : SdmBits) (p : SdmPlace), s.hw.bit (sd n rCTRL) 0 = true → (s.hw.at g).sdmDue n d.last = true →
      (s.hw.at g).sdmPlace n d.last = some p → s.hw.bit (sd n rSTAT) 2 = true →
      s.hw.bit (sd n rSTAT) 1 = false → Gives (.sdmConversion g n d) s fun t => t.hw.reg (sd n 0x068)
          = BitVec.ofNat 32 (s.hw.f (sd n 0x068) 31 8 * 256 + (s.hw.f (sd n 0x068) 7 4 + 1) % 16 * 16)
      ∧ t.hw.reg (sd n 0x070) = 0 ∧ t.hw.bit (sd n rSTAT) 0 = false) ∧
    (∀ (d : SdmBits), s.hw.bit (sd n rCTRL) 0 = true → s.hw.sdmLost n = false →
      (s.hw.at g).crustDue n (s.hw.f (sd n 0x040) 21 16) d.last = true → Gives (.crustOutput g n d) s fun t =>
      let m := s.hw.f (sd n 0x040) 21 16;
      let bits := (s.hw.at g).sdmTaken n (2 * m - 1) d;
      t.hw.reg (sd n 0x074)
          = BitVec.ofNat 32 (unsign 16 (satBits 16 (roundHalfEven ((2 * (weighted (sinc2 m) bits : Int) - (m ^ 2 : Nat)) * 2 ^ 15) (m ^ 2))).1)
      ∧ t.hw.bit (sd n rREADY) 2 = true) ∧
    (Unlocked s (pSDM n) → Gives (.sdmCal g n) s fun t => t.hw.bit (sd n rSTAT) 5 = true
      ∧ (t.hw.sdmS n).cal = some (5 * (max s.hw.grain g / 5) + 4)) ∧
    (∀ (dis : List Nat) (c : Nat), (s.hw.sdmS n).cal = some c → (s.hw.sup.bands.any fun e =>
      decide (c ≤ e.1)) = false → 0 < (longestRun ((List.range (s.hw.dclkN (s.hw.sdmClk n) / 4)).map fun i =>
      dis[i]? == some 0)).2 → Gives (.sdmCalDone g n dis) s fun t =>
      let eye := longestRun ((List.range (s.hw.dclkN (s.hw.sdmClk n) / 4)).map fun i => dis[i]? == some 0);
      t.hw.bit (sd n rSTAT) 5 = false ∧ (t.hw.sdmS n).cal = none ∧ t.hw.f (sd n 0x064) 5 0 = eye.1
      ∧ t.hw.f (sd n 0x064) 21 16 = eye.2 ∧ t.hw.f (sd n 0x060) (8 * s.hw.band + 5) (8 * s.hw.band) = (eye.1
          + (eye.2 - 1) / 2) % (s.hw.dclkN (s.hw.sdmClk n) / 4) ∧ t.hw.bit (sd n rREADY) 1 = true) ∧
    (∀ (dis : List Nat) (c : Nat), (s.hw.sdmS n).cal = some c → (s.hw.sup.bands.any fun e =>
      decide (c ≤ e.1)) = true ∨ (longestRun ((List.range (s.hw.dclkN (s.hw.sdmClk n) / 4)).map fun i =>
      dis[i]? == some 0)).2 = 0 → Gives (.sdmCalDone g n dis) s fun t => t.hw.bit (sd n rSTAT) 5 = false
      ∧ (t.hw.sdmS n).cal = none ∧ t.hw.bit (ra (pSDM n) rEVT) 4 = true
      ∧ t.hw.reg (sd n 0x060) = s.hw.reg (sd n 0x060)) ∧
    (∀ (k : Nat), s.hw.bit (sd n rCTRL) 0 = true → s.hw.sdmLost n = false → s.hw.f (sd n 0x05C) 9 0 ≤ k →
      Gives (.sdmDataStuck g n k) s fun t => t.hw.bit (sd n rSTAT) 2 = true ∧ t.hw.bit (sd n rREADY) 2 = false
      ∧ t.hw.bit (ra (pSDM n) rEVT) 2 = true) ∧
    (∀ (m : Fin 8) (since : Nat), s.hw.sdmClk n = m.val → s.hw.bit (sd m 0x080) 24 = false →
      since + 4 * (8 * s.hw.dclkN m) ≤ 32 * max s.hw.grain g + 31 → Gives (.dclkLost g m since) s fun t =>
      t.hw.bit (sd m 0x080) 24 = true ∧ t.hw.bit (sd n rSTAT) 1 = true ∧ t.hw.bit (sd n rREADY) 2 = false
      ∧ t.hw.bit (ra (pSDM n) rEVT) 3 = true) ∧
    (s.hw.bit (sd n rSTAT) 1 = false → Gives (.sdmChannelRestart g n) s fun t =>
      t.hw.bit (sd n rSTAT) 2 = false ∧ t.hw.bit (sd n rSTAT) 0 = false ∧ t.hw.bit (sd n 0x068) 0 = false
      ∧ tabGet [] n.val t.hw.gdp.crust = []) ∧
    (s.hw.bit (sd n rSTAT) 1 = true → Gives (.sdmChannelRestart g n) s fun t =>
      t.hw.bit (sd (s.hw.sdmClk n) 0x080) 24 = false ∧ t.hw.bit (sd n rSTAT) 1 = false
      ∧ t.hw.bit (sd n rSTAT) 2 = false ∧ t.hw.bit (sd n 0x068) 0 = false)

/-- A level of the lines acts once it has been sampled for FILT + 1 grains. An accepted change of A alone, or of B
alone, in INC mode moves RAW by one count, in the direction the levels give and CFG.INV turns; both in one grain are
an error that moves nothing and counts. A level of FILT grains or fewer counts as a glitch and moves nothing. An SSI
read begins START after the batch boundary where the module drives the clock, no read is in progress and no earlier
frame's MONO runs, and sets SSI_BUSY. A complete frame with L0 high at its start and low at the stop check gives its
BITS bits, decoded from Gray code if CFG says so: the first frame puts them into RAW, a later one moves RAW by the
signed difference from the frame before, unless that exceeds MAX_STEP (not 0); such a frame, and a bad one, move
nothing and count. POS_LOAD on an unmirrored port puts the loaded count into RAW and REP, disarms both compares and
sets EVT bit 13. CNT_CLR clears the counters. A planned step that rises moves ISSUED by one in its direction.
Throughout, the die is not held in reset. -/
def Obligations.FeedbackPositions : Prop :=
  ∀ (s : State) (g : Nat) (n : Fin 32), Live s →
    (∀ (l : BitVec 8) (first : Nat), (s.hw.fb n).on = true → first + s.hw.fbFilt n ≤ max s.hw.grain g →
      (s.hw.fb n).mode = mINC → (l ^^^ (s.hw.fb n).lines).getLsbD 0 ≠ (l ^^^ (s.hw.fb n).lines).getLsbD 1 →
      Gives (.fbLineChange g n l first) s fun t => t.hw.reg64 (fbr n 0x060) = BitVec.ofInt 32 (s.hw.fbInt n
          + (if s.hw.bit (fbr n 0x040) 4 then -1 else 1)
          * quadCount ((l ^^^ (s.hw.fb n).lines).getLsbD 0) (l.getLsbD 0) (l.getLsbD 1)) ++ (0 : Word)
      ∧ (t.hw.fb n).lines = l) ∧
    (∀ (l : BitVec 8) (first : Nat), (s.hw.fb n).on = true → first + s.hw.fbFilt n ≤ max s.hw.grain g →
      (s.hw.fb n).mode = mINC → (l ^^^ (s.hw.fb n).lines).getLsbD 0 = true →
      (l ^^^ (s.hw.fb n).lines).getLsbD 1 = true → Gives (.fbLineChange g n l first) s fun t =>
      t.hw.reg64 (fbr n 0x060) = s.hw.reg64 (fbr n 0x060) ∧ (t.hw.fb n).lines = l
      ∧ t.hw.f (fbr n 0x090) 31 16 = min (s.hw.f (fbr n 0x090) 31 16 + 1) 0xFFFF
      ∧ t.hw.bit (ra (pFB n) rEVT) 2 = true) ∧
    (∀ (l : BitVec 8) (first x : Nat), max s.hw.grain g < first + s.hw.fbFilt n →
      Gives (.fbLineChange g n l first) s fun t => t.hw.fb n = s.hw.fb n ∧ t.hw.reg x = s.hw.reg x) ∧
    (∀ (k : Nat), (s.hw.fb n).on = true → 0 < k → k ≤ s.hw.fbFilt n → Gives (.fbGlitch g n k) s fun t =>
      t.hw.f (fbr n 0x090) 15 0 = min (s.hw.f (fbr n 0x090) 15 0 + 1) 0xFFFF
      ∧ t.hw.bit (ra (pFB n) rEVT) 1 = true ∧ t.hw.reg64 (fbr n 0x060) = s.hw.reg64 (fbr n 0x060)
      ∧ (t.hw.fb n).hist = (s.hw.fb n).hist ∧ (t.hw.fb n).lines = (s.hw.fb n).lines) ∧
    (∀ (l0 : Bool), (s.hw.fb n).on = true → (s.hw.fb n).mode = mSSI → (s.hw.fb n).read = none →
      (s.hw.at g).fbDrives n = true →
      max s.hw.grain g = (s.hw.reg64 (ra pCLK 0x058)).toNat + s.hw.f (fbr n 0x04C) 18 0 →
      (s.hw.fb n).frameEnd = 0 ∨ (s.hw.fb n).frameEnd + 500 * s.hw.f (fbr n 0x04C) 31 24 ≤ max s.hw.grain g →
      Gives (.ssiReadStart g n l0) s fun t => (t.hw.fb n).read = some (max s.hw.grain g)
      ∧ (t.hw.fb n).bad = !l0 ∧ t.hw.bit (fbr n rSTAT) 3 = true
      ∧ t.hw.reg64 (fbr n 0x060) = s.hw.reg64 (fbr n 0x060)) ∧
    (∀ (l : List Bool) (r : Nat), (s.hw.fb n).on = true → (s.hw.fb n).mode = mSSI → (s.hw.fb n).read = some r →
      l.length = s.hw.ssiSamples n → s.hw.ssiDoneAt n r ≤ max s.hw.grain g →
      ((s.hw.fb n).latch 0).wait = none → ((s.hw.fb n).latch 1).wait = none → (s.hw.fb n).bad = true
      ∨ l.getLast? ≠ some false → Gives (.ssiFrameDone g n l) s fun t =>
      t.hw.reg64 (fbr n 0x060) = s.hw.reg64 (fbr n 0x060) ∧ (t.hw.fb n).read = none
      ∧ t.hw.bit (fbr n rSTAT) 3 = false
      ∧ t.hw.f (fbr n 0x094) 23 16 = min (s.hw.f (fbr n 0x094) 23 16 + 1) 0xFF
      ∧ t.hw.bit (ra (pFB n) rEVT) 5 = true) ∧
    (∀ (l : List Bool) (r : Nat), (s.hw.fb n).on = true → (s.hw.fb n).mode = mSSI → (s.hw.fb n).read = some r →
      l.length = s.hw.ssiSamples n → s.hw.ssiDoneAt n r ≤ max s.hw.grain g →
      ((s.hw.fb n).latch 0).wait = none → ((s.hw.fb n).latch 1).wait = none → (s.hw.fb n).bad = false →
      l.getLast? = some false → (s.hw.fb n).frame = none → Gives (.ssiFrameDone g n l) s fun t =>
      let b := s.hw.f (fbr n 0x048) 5 0;
      let w := bitsMsb (l.take b);
      let v := (if s.hw.bit (fbr n 0x048) 17 then grayDecode b w else w);
      t.hw.reg64 (fbr n 0x060) = BitVec.ofNat 32 v ++ (0 : Word) ∧ t.hw.reg (fbr n 0x054) = BitVec.ofNat 32 v
      ∧ (t.hw.fb n).read = none ∧ (t.hw.fb n).frame = some (v, r) ∧ t.hw.bit (fbr n rREADY) 2 = true) ∧
    (∀ (l : List Bool) (r v0 r0 : Nat), (s.hw.fb n).on = true → (s.hw.fb n).mode = mSSI →
      (s.hw.fb n).read = some r → l.length = s.hw.ssiSamples n → s.hw.ssiDoneAt n r ≤ max s.hw.grain g →
      ((s.hw.fb n).latch 0).wait = none → ((s.hw.fb n).latch 1).wait = none → (s.hw.fb n).bad = false →
      l.getLast? = some false → (s.hw.fb n).frame = some (v0, r0) → Gives (.ssiFrameDone g n l) s fun t =>
      let b := s.hw.f (fbr n 0x048) 5 0;
      let w := bitsMsb (l.take b);
      let v := (if s.hw.bit (fbr n 0x048) 17 then grayDecode b w else w);
      let dv := signed b (unsign b ((v : Int) - v0));
      let big := s.hw.reg (fbr n 0x050) ≠ 0 ∧ (s.hw.reg (fbr n 0x050)).toNat < dv.natAbs;
      t.hw.reg64 (fbr n 0x060) = (if big then s.hw.reg64 (fbr n 0x060) else BitVec.ofInt 32 (s.hw.fbInt n
          + dv) ++ (0 : Word)) ∧ (t.hw.fb n).read = none
      ∧ (t.hw.fb n).frame = (if big then some (v0, r0) else some (v, r)) ∧ (big →
      t.hw.f (fbr n 0x094) 23 16 = min (s.hw.f (fbr n 0x094) 23 16 + 1) 0xFF)) ∧
    (Unlocked s (pFB n) → s.hw.mirrorOn = false → Gives (.posLoad g n) s fun t =>
      t.hw.reg64 (fbr n 0x060) = s.hw.reg (fbr n 0x084) ++ (0 : Word)
      ∧ t.hw.reg64 (fbr n 0x068) = s.hw.reg (fbr n 0x084) ++ (0 : Word) ∧ t.hw.bit (fbr n 0x0E8) 0 = false
      ∧ t.hw.bit (fbr n 0x108) 0 = false ∧ t.hw.bit (ra (pFB n) rEVT) 13 = true) ∧
    (Unlocked s (pFB n) → ∀ e ∈ s.hw.cntCyc, e.2.cycle ≠ max s.hw.grain g / 5 →
      Gives (.fbCntClr g n) s fun t => t.hw.reg (fbr n 0x090) = 0 ∧ t.hw.f (fbr n 0x094) 23 0 = 0
      ∧ t.hw.f (fbr n 0x0A8) 31 16 = 0 ∧ t.hw.f (fbr n 0x0C8) 31 16 = 0 ∧ t.hw.fb n = s.hw.fb n) ∧
    ((s.hw.step n).done < (s.hw.step n).plan.natAbs →
      (s.hw.step n).riseAt ((s.hw.step n).done + 1) ≤ max s.hw.grain g → Gives (.stepPulse g n) s fun t =>
      t.hw.reg (sp n 0x10) = (if (s.hw.step n).plan < 0 then s.hw.reg (sp n 0x10) - 1
          else s.hw.reg (sp n 0x10) + 1) ∧ (t.hw.step n).done = (s.hw.step n).done + 1
      ∧ ((s.hw.fb n).on = false → t.hw.fb n = s.hw.fb n)) ∧
    ((s.hw.step n).done < (s.hw.step n).plan.natAbs →
      (s.hw.step n).riseAt ((s.hw.step n).done + 1) ≤ max s.hw.grain g → (s.hw.fb n).on = true →
      (s.hw.fb n).mode = mSTEP → (s.hw.at g).fbDrives n = true → Gives (.stepPulse g n) s fun t =>
      t.hw.reg64 (fbr n 0x060) = BitVec.ofInt 32 (s.hw.fbInt n + (if (s.hw.step n).plan < 0 then -1 else 1))
          ++ (0 : Word))

/-- LATCH_ARM of a source the mode offers clears LATCHED and sets ARMED, from the grain after the write; a source it
does not offer sets EVT.ARM_REFUSED. LATCH_DISARM clears ARMED; an edge accepted up to its grain still latches. A
level of the source that has stood for PFILT + 1 grains and differs from the last one accepted is an edge; one that an
armed latch takes with CFG.INTERP clear and no SSI read in progress writes its time-stamp, first less 3, and the count
of that grain, leaves LATCHED alone set, ends the arm and sets the unit's event. A pulse of PFILT grains or fewer
counts as lost. CMP_ARM sets ARMED where the target lies ahead in the direction, is due at once where it is reached,
and else sets MISSED; CMP_DISARM clears ARMED; a due compare fires: FIRED, its time-stamp and its event. Throughout,
the die is not held in reset. -/
def Obligations.ProbesAndCompares : Prop :=
  ∀ (s : State) (g : Nat) (n : Fin 32) (k : Fin 2), Live s →
    (Unlocked s (pFB n) → s.hw.latchArmOk n k (max s.hw.grain g / 5 * 5 + 4) = true →
      ((s.hw.fb n).latch k).armed = none → Gives (.latchArm g n k) s fun t =>
      t.hw.bit (fbr n (0x0A8 + 0x20 * k)) 0 = true ∧ t.hw.bit (fbr n (0x0A8 + 0x20 * k)) 1 = false
      ∧ ((t.hw.fb n).latch k).armed = some (max s.hw.grain g / 5 * 5 + 5)) ∧
    (Unlocked s (pFB n) → latchSrcOk (s.hw.fbMode n) (s.hw.f (fbr n (0x0A0 + 0x20 * k)) 19 16) = false →
      Gives (.latchArm g n k) s fun t => t.hw.bit (ra (pFB n) rEVT) 9 = true ∧ t.hw.fb n = s.hw.fb n
      ∧ t.hw.reg (fbr n (0x0A8 + 0x20 * k)) = s.hw.reg (fbr n (0x0A8 + 0x20 * k))) ∧
    (∀ (x : Nat), Unlocked s (pFB n) → ((s.hw.fb n).latch k).armed = some x →
      ((s.hw.fb n).latch k).disarmed = none → Gives (.latchDisarm g n k) s fun t =>
      t.hw.bit (fbr n (0x0A8 + 0x20 * k)) 0 = false ∧ ((t.hw.fb n).latch k).armed = some x
      ∧ ((t.hw.fb n).latch k).disarmed = some (max s.hw.grain g / 5 * 5 + 4)) ∧
    (∀ (lv : Bool) (first : Nat), s.hw.latchLive n k = true →
      max (first + s.hw.latchFilt n k) (first + s.hw.fbFilt n) ≤ max s.hw.grain g →
      ((s.hw.fb n).latch k).fresh ≤ first + s.hw.latchFilt n k → ((s.hw.fb n).latch k).level = some (!lv) →
      s.hw.latchTakes n k lv (first + s.hw.latchFilt n k) = true → (s.hw.fb n).read = none →
      s.hw.bit (fbr n (0x0A0 + 0x20 * k)) 4 = false → Gives (.probeLatch g n k lv first) s fun t =>
      t.hw.reg (fbr n (0x0AC + 0x20 * k)) = BitVec.ofNat 32 (first - 3) ∧ t.hw.int64 (fbr n (0x0B0 + 0x20
          * k)) = (BitVec.ofInt 64 (((s.hw.fb n).posAt (first - 3) (s.hw.fbInt n)).1 * 2 ^ 32)).toInt
      ∧ t.hw.f (fbr n (0x0A8 + 0x20 * k)) 2 0 = 2 ∧ ((t.hw.fb n).latch k).armed = none
      ∧ t.hw.bit (ra (pFB n) rEVT) (6 + k) = true) ∧
    (∀ (len : Nat), s.hw.latchLive n k = true → 0 < len → len ≤ s.hw.latchFilt n k →
      Gives (.probeLost g n k len) s fun t =>
      t.hw.f (fbr n (0x0A8 + 0x20 * k)) 31 16 = min (s.hw.f (fbr n (0x0A8 + 0x20 * k)) 31 16 + 1) 0xFFFF
      ∧ t.hw.bit (ra (pFB n) rEVT) 8 = true ∧ t.hw.fb n = s.hw.fb n) ∧
    (Unlocked s (pFB n) → countDiff (s.hw.cmpTarget n k) (s.hw.fbInt n) = 0 → Gives (.cmpArm g n k) s fun t =>
      t.hw.f (fbr n (0x0E8 + 0x20 * k)) 2 0 = 1
      ∧ tabGet none k.val (t.hw.fb n).due = some (max s.hw.grain g / 5 * 5 + 5, max s.hw.grain g / 5 * 5 + 5)) ∧
    (Unlocked s (pFB n) → 0 < countDiff (s.hw.cmpTarget n k) (s.hw.fbInt n) → s.hw.cmpDir n k ≠ 1 →
      Gives (.cmpArm g n k) s fun t => t.hw.f (fbr n (0x0E8 + 0x20 * k)) 2 0 = 1
      ∧ tabGet none k.val (t.hw.fb n).due = none) ∧
    (Unlocked s (pFB n) → countDiff (s.hw.cmpTarget n k) (s.hw.fbInt n) < 0 → s.hw.cmpDir n k = 0 →
      s.hw.bit (fbr n (0x0E0 + 0x20 * k)) 4 = false → Gives (.cmpArm g n k) s fun t =>
      t.hw.f (fbr n (0x0E8 + 0x20 * k)) 2 0 = 4 ∧ tabGet none k.val (t.hw.fb n).due = none
      ∧ t.hw.bit (ra (pFB n) rEVT) 12 = true) ∧
    (Unlocked s (pFB n) → tabGet none k.val (s.hw.fb n).due = none → Gives (.cmpDisarm g n k) s fun t =>
      t.hw.bit (fbr n (0x0E8 + 0x20 * k)) 0 = false ∧ t.hw.fb n = s.hw.fb n) ∧
    (∀ (ts d : Nat), tabGet none k.val (s.hw.fb n).due = some (ts, d) → d ≤ max s.hw.grain g →
      Gives (.cmpFire g n k) s fun t => t.hw.f (fbr n (0x0E8 + 0x20 * k)) 1 0 = 2
      ∧ t.hw.reg (fbr n (0x0EC + 0x20 * k)) = BitVec.ofNat 32 ts ∧ tabGet none k.val (t.hw.fb n).due = none
      ∧ t.hw.bit (ra (pFB n) rEVT) (10 + k) = true)

/-- A running engine whose predicate is true runs ADD, SUB, NEG and ABS exactly and saturates to 56 bits, with N, Z, E
of the result, V on saturation and LV set with it; ADDL and SUBL wrap, with N, Z, E and the carry or borrow in C; CMP
sets N and Z from the exact difference and writes no register; CLR clears without flags; MIN and MAX take the smaller
or larger without flags; SAT limits to the Q1.47 range, with SAT set when it acts. The source is a data register as a
fraction (in ADDL and SUBL as an integer) or an accumulator. Only the accumulator, SR and the PC change. -/
def Obligations.HytarAccumulatorArithmetic : Prop :=
  ∀ (s : State) (g : Nat) (e k : Fin 16) (p : BitVec 5) (a : BitVec 3), Issues s e p →
    let eng := s.hw.hyt e
    (∀ (sf : Bool) (r : BitVec 5), (sf || decide (r.toNat < 8)) = true → Gives (.add g e p a sf r) s fun t =>
      Only s t g e k (fracResult eng a.toNat ((eng.ac a.toNat).toInt + ((fracSource eng sf r)).toInt)).advance) ∧
    (∀ (sf : Bool) (r : BitVec 5), (sf || decide (r.toNat < 8)) = true → Gives (.sub g e p a sf r) s fun t =>
      Only s t g e k (fracResult eng a.toNat ((eng.ac a.toNat).toInt - ((fracSource eng sf r)).toInt)).advance) ∧
    (Gives (.neg g e p a) s fun t => Only s t g e k (fracResult eng a.toNat (-(eng.ac a.toNat).toInt)).advance) ∧
    (Gives (.abs g e p a) s fun t =>
      Only s t g e k (fracResult eng a.toNat (((eng.ac a.toNat).toInt.natAbs : Int))).advance) ∧
    (∀ (sf : Bool) (r : BitVec 5), (sf || decide (r.toNat < 8)) = true → Gives (.addl g e p a sf r) s fun t =>
      Only s t g e k (intResult eng a.toNat (eng.ac a.toNat + (intSource eng sf r)) (decide (2 ^ 56
          ≤ (eng.ac a.toNat).toNat + ((intSource eng sf r)).toNat))).advance) ∧
    (∀ (sf : Bool) (r : BitVec 5), (sf || decide (r.toNat < 8)) = true → Gives (.subl g e p a sf r) s fun t =>
      Only s t g e k (intResult eng a.toNat (eng.ac a.toNat
          - (intSource eng sf r)) (decide ((eng.ac a.toNat).toNat < ((intSource eng sf r)).toNat))).advance) ∧
    (∀ (sf : Bool) (r : BitVec 5), (sf || decide (r.toNat < 8)) = true → Gives (.cmp g e p a sf r) s fun t =>
      Only s t g e k ({ eng with
            sr := putFlag (putFlag eng.sr fN (decide ((eng.ac a.toNat).toInt < ((fracSource eng sf r)).toInt))) fZ (decide (eng.ac a.toNat = (fracSource eng sf r))) }).advance) ∧
    (Gives (.clr g e p a) s fun t => Only s t g e k (eng.setAc a.toNat 0).advance) ∧
    (∀ (sf : Bool) (r : BitVec 5), (sf || decide (r.toNat < 8)) = true → Gives (.min g e p a sf r) s fun t =>
      Only s t g e k (if ((fracSource eng sf r)).toInt < (eng.ac a.toNat).toInt
          then eng.setAc a.toNat (fracSource eng sf r) else eng).advance) ∧
    (∀ (sf : Bool) (r : BitVec 5), (sf || decide (r.toNat < 8)) = true → Gives (.max g e p a sf r) s fun t =>
      Only s t g e k (if (eng.ac a.toNat).toInt < ((fracSource eng sf r)).toInt
          then eng.setAc a.toNat (fracSource eng sf r) else eng).advance) ∧
    ((2 : Int) ^ 47 ≤ (eng.ac a.toNat).toInt → Gives (.sat g e p a) s fun t =>
      Only s t g e k ({ eng.setAc a.toNat 0x007FFFFFFFFFFF with sr := putFlag (flagsQE eng.sr 0x007FFFFFFFFFFF) fSAT true }).advance) ∧
    ((eng.ac a.toNat).toInt < -(2 : Int) ^ 47 → Gives (.sat g e p a) s fun t =>
      Only s t g e k ({ eng.setAc a.toNat 0xFF800000000000 with sr := putFlag (flagsQE eng.sr 0xFF800000000000) fSAT true }).advance) ∧
    ((eng.ac a.toNat).toInt < (2 : Int) ^ 47 → -(2 : Int) ^ 47 ≤ (eng.ac a.toNat).toInt →
      Gives (.sat g e p a) s fun t =>
      Only s t g e k ({ eng with sr := flagsQE eng.sr (eng.ac a.toNat) }).advance)

/-- MPY puts the product of two data registers as Q1.47 into the accumulator, MAC adds it and MSU subtracts it, exact
and then saturated, with the flags of set F. The P forms load D(16+m) from the word at IXi as it was, the S forms
store D(16+m), sign extended, to that word; both then move IXi by 1 or by MDi. TAP multiplies the two words at IXi and
IXj, negates the product if asked, adds it to the accumulator or replaces it, may keep the first word in a data
register, and moves both index registers (one register once). The stores write the four bytes of the word and no other
byte. -/
def Obligations.HytarMultiplies : Prop :=
  ∀ (s : State) (g : Nat) (e k : Fin 16) (p : BitVec 5) (a : BitVec 3), Issues s e p →
    let eng := s.hw.hyt e
    (∀ (x y : BitVec 5), Gives (.mpy g e p a x y) s fun t =>
      Only s t g e k (fracResult eng a.toNat ((2 * ((eng.dr x.toNat).toInt * (eng.dr y.toNat).toInt)))).advance) ∧
    (∀ (x y : BitVec 5), Gives (.mac g e p a x y) s fun t =>
      Only s t g e k (fracResult eng a.toNat ((eng.ac a.toNat).toInt + (2
          * ((eng.dr x.toNat).toInt * (eng.dr y.toNat).toInt)))).advance) ∧
    (∀ (x y : BitVec 5), Gives (.msu g e p a x y) s fun t =>
      Only s t g e k (fracResult eng a.toNat ((eng.ac a.toNat).toInt - (2
          * ((eng.dr x.toNat).toInt * (eng.dr y.toNat).toInt)))).advance) ∧
    (∀ (x y : BitVec 5) (m : BitVec 4) (i : BitVec 3) (u : Bool), Gives (.mpyp g e p a x y m i u) s fun t =>
      Only s t g e k ((((fracResult eng a.toNat ((2 * ((eng.dr x.toNat).toInt * (eng.dr y.toNat).toInt)))).setD (16 + m.toNat) (s.hw.dmData s.mem e (eng.ixr i.toNat))).stepIx i.toNat (eng.agu i.toNat (eng.ixr i.toNat) (if u then (eng.mdr i.toNat).toInt else 1))).advance)) ∧
    (∀ (x y : BitVec 5) (m : BitVec 4) (i : BitVec 3) (u : Bool), Gives (.macp g e p a x y m i u) s fun t =>
      Only s t g e k ((((fracResult eng a.toNat ((eng.ac a.toNat).toInt + (2 * ((eng.dr x.toNat).toInt * (eng.dr y.toNat).toInt)))).setD (16 + m.toNat) (s.hw.dmData s.mem e (eng.ixr i.toNat))).stepIx i.toNat (eng.agu i.toNat (eng.ixr i.toNat) (if u then (eng.mdr i.toNat).toInt else 1))).advance)) ∧
    (∀ (x y : BitVec 5) (m : BitVec 4) (i : BitVec 3) (u : Bool), Gives (.msup g e p a x y m i u) s fun t =>
      Only s t g e k ((((fracResult eng a.toNat ((eng.ac a.toNat).toInt - (2 * ((eng.dr x.toNat).toInt * (eng.dr y.toNat).toInt)))).setD (16 + m.toNat) (s.hw.dmData s.mem e (eng.ixr i.toNat))).stepIx i.toNat (eng.agu i.toNat (eng.ixr i.toNat) (if u then (eng.mdr i.toNat).toInt else 1))).advance)) ∧
    (∀ (x y : BitVec 5) (m : BitVec 4) (i : BitVec 3) (u : Bool) (b : Nat), s.hw.pair.copying ≠ some e.val →
      Gives (.mpys g e p a x y m i u) s fun t => t.hw.hyt e
          = (((fracResult eng a.toNat ((2 * ((eng.dr x.toNat).toInt * (eng.dr y.toNat).toInt)))).stepIx i.toNat (eng.agu i.toNat (eng.ixr i.toNat) (if u then (eng.mdr i.toNat).toInt else 1))).advance)
      ∧ t.hw.regs = s.hw.regs
      ∧ t.hw.rd32 t.mem (dmAddr e (eng.ixr i.toNat)) = (eng.dr (16 + m.toNat)).signExtend 32
      ∧ (b / 4 = dmAddr e (eng.ixr i.toNat) / 4 ∨ memGet t.mem b = memGet s.mem b)) ∧
    (∀ (x y : BitVec 5) (m : BitVec 4) (i : BitVec 3) (u : Bool) (b : Nat), s.hw.pair.copying ≠ some e.val →
      Gives (.macs g e p a x y m i u) s fun t => t.hw.hyt e
          = (((fracResult eng a.toNat ((eng.ac a.toNat).toInt + (2 * ((eng.dr x.toNat).toInt * (eng.dr y.toNat).toInt)))).stepIx i.toNat (eng.agu i.toNat (eng.ixr i.toNat) (if u then (eng.mdr i.toNat).toInt else 1))).advance)
      ∧ t.hw.regs = s.hw.regs
      ∧ t.hw.rd32 t.mem (dmAddr e (eng.ixr i.toNat)) = (eng.dr (16 + m.toNat)).signExtend 32
      ∧ (b / 4 = dmAddr e (eng.ixr i.toNat) / 4 ∨ memGet t.mem b = memGet s.mem b)) ∧
    (∀ (x y : BitVec 5) (m : BitVec 4) (i : BitVec 3) (u : Bool) (b : Nat), s.hw.pair.copying ≠ some e.val →
      Gives (.msus g e p a x y m i u) s fun t => t.hw.hyt e
          = (((fracResult eng a.toNat ((eng.ac a.toNat).toInt - (2 * ((eng.dr x.toNat).toInt * (eng.dr y.toNat).toInt)))).stepIx i.toNat (eng.agu i.toNat (eng.ixr i.toNat) (if u then (eng.mdr i.toNat).toInt else 1))).advance)
      ∧ t.hw.regs = s.hw.regs
      ∧ t.hw.rd32 t.mem (dmAddr e (eng.ixr i.toNat)) = (eng.dr (16 + m.toNat)).signExtend 32
      ∧ (b / 4 = dmAddr e (eng.ixr i.toNat) / 4 ∨ memGet t.mem b = memGet s.mem b)) ∧
    (∀ (i j : BitVec 3) (m : BitVec 5) (c ui uj sg z : Bool), Gives (.tap g e p a i j m c ui uj sg z) s fun t =>
      let wi := s.hw.dmData s.mem e (eng.ixr i.toNat);
      let wj := s.hw.dmData s.mem e (eng.ixr j.toNat);
      let pr := 2 * (wi.toInt * wj.toInt);
      let sum := (if z then 0 else (eng.ac a.toNat).toInt) + (if sg then -pr else pr);
      let x1 := fracResult eng a.toNat sum;
      let x2 := ((if c then x1.setD m.toNat wi else x1) : HytS).parUpdate i.toNat ui;
      Only s t g e k ((if i = j then x2 else x2.parUpdate j.toNat uj) : HytS).advance)

/-- AND, OR and XOR combine all 56 bits and set N, Z and E. ASH by a signed immediate, or by a data register limited
to -56 to 56, multiplies by a power of two and saturates, or shifts arithmetically to the right. LSH shifts zeros in,
and C takes the last bit shifted out, 0 for a shift by 0. EXP puts the exponent of an accumulator into a data
register; NRM shifts by it as well; SCL multiplies a data register by bits 31:0 of an accumulator and rounds 23 bits
off. LDI, LDIL and LDAC load immediates without flags. -/
def Obligations.HytarLogicAndShifts : Prop :=
  ∀ (s : State) (g : Nat) (e k : Fin 16) (p : BitVec 5) (a : BitVec 3), Issues s e p →
    let eng := s.hw.hyt e
    (∀ (sf : Bool) (r : BitVec 5), (sf || decide (r.toNat < 8)) = true → Gives (.and g e p a sf r) s fun t =>
      Only s t g e k (logicResult eng a.toNat (eng.ac a.toNat &&& (intSource eng sf r))).advance) ∧
    (∀ (sf : Bool) (r : BitVec 5), (sf || decide (r.toNat < 8)) = true → Gives (.or g e p a sf r) s fun t =>
      Only s t g e k (logicResult eng a.toNat (eng.ac a.toNat ||| (intSource eng sf r))).advance) ∧
    (∀ (sf : Bool) (r : BitVec 5), (sf || decide (r.toNat < 8)) = true → Gives (.xor g e p a sf r) s fun t =>
      Only s t g e k (logicResult eng a.toNat (eng.ac a.toNat ^^^ (intSource eng sf r))).advance) ∧
    (∀ (n : BitVec 6), Gives (.ash g e p a false n) s fun t => Only s t g e k (fracResult eng a.toNat (if 0
          ≤ n.toInt then (eng.ac a.toNat).toInt * 2 ^ n.toInt.natAbs
          else (eng.ac a.toNat).toInt / 2 ^ n.toInt.natAbs)).advance) ∧
    (∀ (n : BitVec 6), n.getLsbD 0 = false → (eng.dr (n.toNat / 2)).toInt < 0 →
      Gives (.ash g e p a true n) s fun t =>
      Only s t g e k (fracResult eng a.toNat ((eng.ac a.toNat).toInt / 2 ^ (min 56 (eng.dr (n.toNat / 2)).toInt.natAbs))).advance) ∧
    (∀ (n : BitVec 6), n.getLsbD 0 = false → 0 ≤ (eng.dr (n.toNat / 2)).toInt →
      Gives (.ash g e p a true n) s fun t => Only s t g e k (fracResult eng a.toNat ((eng.ac a.toNat).toInt
          * 2 ^ (min 56 (eng.dr (n.toNat / 2)).toInt.natAbs))).advance) ∧
    (∀ (n : BitVec 6), 0 < n.toInt → Gives (.lsh g e p a false n) s fun t =>
      Only s t g e k (intResult eng a.toNat (eng.ac a.toNat <<< n.toNat) ((eng.ac a.toNat).getLsbD (56
          - n.toNat))).advance) ∧
    (∀ (n : BitVec 6), n.toInt < 0 → Gives (.lsh g e p a false n) s fun t =>
      Only s t g e k (intResult eng a.toNat (eng.ac a.toNat >>> n.toInt.natAbs) ((eng.ac a.toNat).getLsbD (n.toInt.natAbs
          - 1))).advance) ∧
    (Gives (.lsh g e p a false 0) s fun t =>
      Only s t g e k (intResult eng a.toNat (eng.ac a.toNat) false).advance) ∧
    (∀ (n : BitVec 6), n.getLsbD 0 = false → (eng.dr (n.toNat / 2)).toInt < 0 →
      Gives (.lsh g e p a true n) s fun t =>
      Only s t g e k (intResult eng a.toNat (eng.ac a.toNat >>> (min 56 (eng.dr (n.toNat / 2)).toInt.natAbs)) ((eng.ac a.toNat).getLsbD (min 56 (eng.dr (n.toNat / 2)).toInt.natAbs
          - 1))).advance) ∧
    (∀ (n : BitVec 6), n.getLsbD 0 = false → 0 < (eng.dr (n.toNat / 2)).toInt →
      Gives (.lsh g e p a true n) s fun t =>
      Only s t g e k (intResult eng a.toNat (eng.ac a.toNat <<< (min 56 (eng.dr (n.toNat / 2)).toInt.natAbs)) ((eng.ac a.toNat).getLsbD (56
          - min 56 (eng.dr (n.toNat / 2)).toInt.natAbs))).advance) ∧
    (∀ (n : BitVec 6), n.getLsbD 0 = false → eng.dr (n.toNat / 2) = 0 → Gives (.lsh g e p a true n) s fun t =>
      Only s t g e k (intResult eng a.toNat (eng.ac a.toNat) false).advance) ∧
    (∀ (d : BitVec 5), Gives (.exp g e p a d) s fun t =>
      Only s t g e k ({ eng.setD d.toNat (BitVec.ofInt 24 (accExp (eng.ac a.toNat))) with sr := flagsQ eng.sr (eng.ac a.toNat) }).advance) ∧
    (∀ (d : BitVec 5), 0 ≤ accExp (eng.ac a.toNat) → Gives (.nrm g e p a d) s fun t =>
      Only s t g e k ({ (eng.setAc a.toNat (eng.ac a.toNat <<< (accExp (eng.ac a.toNat)).toNat)).setD d.toNat (BitVec.ofInt 24 (accExp (eng.ac a.toNat))) with
            sr := flagsQE eng.sr (eng.ac a.toNat <<< (accExp (eng.ac a.toNat)).toNat) }).advance) ∧
    (∀ (d : BitVec 5), accExp (eng.ac a.toNat) < 0 → Gives (.nrm g e p a d) s fun t =>
      Only s t g e k ({ (eng.setAc a.toNat (BitVec.ofInt 56 ((eng.ac a.toNat).toInt / 2 ^ (accExp (eng.ac a.toNat)).natAbs))).setD d.toNat (BitVec.ofInt 24 (accExp (eng.ac a.toNat))) with
            sr := flagsQE eng.sr (BitVec.ofInt 56 ((eng.ac a.toNat).toInt / 2 ^ (accExp (eng.ac a.toNat)).natAbs)) }).advance) ∧
    (∀ (x : BitVec 5) (b : BitVec 3), Gives (.scl g e p a x b) s fun t =>
      Only s t g e k ({ eng.setAc a.toNat (BitVec.ofInt 56 (roundBy eng.rnd ((eng.dr x.toNat).toInt * ((eng.ac b.toNat).toNat % 2 ^ 32) / 2 ^ 23) ((eng.dr x.toNat).toInt * ((eng.ac b.toNat).toNat % 2 ^ 32) % 2 ^ 23).toNat (2 ^ 22))) with
            sr := flagsQ eng.sr (BitVec.ofInt 56 (roundBy eng.rnd ((eng.dr x.toNat).toInt * ((eng.ac b.toNat).toNat % 2 ^ 32) / 2 ^ 23) ((eng.dr x.toNat).toInt * ((eng.ac b.toNat).toNat % 2 ^ 32) % 2 ^ 23).toNat (2 ^ 22))) }).advance) ∧
    (∀ (d : BitVec 5) (i : BitVec 16), Gives (.ldi g e p d i) s fun t =>
      Only s t g e k (eng.setD d.toNat (i ++ (0 : BitVec 8))).advance) ∧
    (∀ (d : BitVec 5) (i : BitVec 16), i.toNat < 256 → Gives (.ldil g e p d i) s fun t =>
      Only s t g e k (eng.setD d.toNat ((eng.dr d.toNat).extractLsb' 8 16 ++ i.extractLsb' 0 8)).advance) ∧
    (∀ (i : BitVec 18), Gives (.ldac g e p a i) s fun t =>
      Only s t g e k (eng.setAc a.toNat (i.signExtend 56)).advance)

/-- MOV between any two registers of the number list moves the value as the operand forms of R181 read and write it;
among them it copies between data registers, rounds and saturates an accumulator into a data register (SAT when it
does), places a data value in an accumulator, and gives a data value's low 16 bits to an address register and its sign
extension to a control register. LDA and ADDA write an address register, ADDA with the carry in C. LD and LDR load
bits 23:0 of the word at the effective address, LDL two words; ST, STR and STL store, STR rounded and saturated. The
address is the register's, or with MD or the displacement added, and the register is moved after by 1 (by 2 for the
long forms), -1 or MD as AM says. A store writes its words alone. A word that a single-bit error strikes as LD reads
it is corrected and counted in the data half of the ECC counters, with EVT bit 4; an uncorrectable one stops the
engine with cause 6, the PC at the load. -/
def Obligations.HytarMoves : Prop :=
  ∀ (s : State) (g : Nat) (e k : Fin 16) (p : BitVec 5), Issues s e p →
    let eng := s.hw.hyt e
    (∀ (d c : BitVec 7), d.toNat < 32 → c.toNat < 32 → Gives (.mov g e p d c) s fun t =>
      Only s t g e k ({ eng.setD d.toNat (eng.dr c.toNat) with sr := eng.sr }).advance) ∧
    (∀ (d c : BitVec 7), d.toNat < 32 → 32 ≤ c.toNat → c.toNat < 40 → Gives (.mov g e p d c) s fun t =>
      Only s t g e k ({ eng.setD d.toNat (roundAcc eng.rnd (eng.ac (c.toNat - 32))).1 with
            sr := if (roundAcc eng.rnd (eng.ac (c.toNat - 32))).2 then putFlag eng.sr fSAT true else eng.sr }).advance) ∧
    (∀ (d c : BitVec 7), 32 ≤ d.toNat → d.toNat < 40 → c.toNat < 32 → Gives (.mov g e p d c) s fun t =>
      Only s t g e k (eng.setAc (d.toNat - 32) ((eng.dr c.toNat).signExtend 32 ++ (0 : BitVec 24))).advance) ∧
    (∀ (d c : BitVec 7), 40 ≤ d.toNat → d.toNat < 64 → c.toNat < 32 → Gives (.mov g e p d c) s fun t =>
      Only s t g e k (eng.setAreg (d.toNat - 40) ((eng.dr c.toNat).extractLsb' 0 16)).advance) ∧
    (∀ (d c : BitVec 7), 64 ≤ d.toNat → d.toNat < 78 → c.toNat < 32 → Gives (.mov g e p d c) s fun t =>
      Only s t g e k (eng.setCreg (max s.hw.grain g) (d.toNat - 64) ((eng.dr c.toNat).signExtend 32)).advance) ∧
    (∀ (d c : BitVec 7), d.toNat < 78 → c.toNat < 78 → Gives (.mov g e p d c) s fun t =>
      Only s t g e k (eng.mov e (max s.hw.grain g) d.toNat c.toNat).advance) ∧
    (∀ (r : BitVec 5) (i : BitVec 16), r.toNat < 24 → Gives (.lda g e p r i) s fun t =>
      Only s t g e k (eng.setAreg r.toNat i).advance) ∧
    (∀ (r : BitVec 5) (i : BitVec 16), r.toNat < 24 → Gives (.adda g e p r i) s fun t =>
      Only s t g e k ({ eng.setAreg r.toNat (eng.areg r.toNat + i) with
            sr := putFlag eng.sr fC (decide (65536 ≤ (eng.areg r.toNat).toNat + i.toNat)) }).advance) ∧
    (∀ (d : BitVec 5) (i am : BitVec 3) (dp : BitVec 4), memLegal am.toNat dp = true →
      Gives (.ld g e p d i am dp .none) s fun t =>
      Only s t g e k ((eng.setD d.toNat (s.hw.dmData s.mem e (eng.memAddr i.toNat am.toNat dp))).memUpdate i.toNat am.toNat 1).advance) ∧
    (∀ (d : BitVec 5) (i am : BitVec 3) (dp : BitVec 4), memLegal am.toNat dp = true →
      Gives (.ld g e p d i am dp .dataCorrected) s fun t =>
      (t.hw.hyt e).dr d.toNat = (s.hw.dmData s.mem e (eng.memAddr i.toNat am.toNat dp))
      ∧ t.hw.f (hy e 0x064) 31 16 = min (s.hw.f (hy e 0x064) 31 16 + 1) 0xFFFF ∧ t.hw.bit (hy e rEVT) 4 = true
      ∧ (t.hw.hyt e).pc
          = ((eng.setD d.toNat (s.hw.dmData s.mem e (eng.memAddr i.toNat am.toNat dp))).memUpdate i.toNat am.toNat 1).advance.pc) ∧
    (∀ (d : BitVec 5) (i am : BitVec 3) (dp : BitVec 4), memLegal am.toNat dp = true →
      Gives (.ld g e p d i am dp .dataUncorrectable) s fun t => t.hw.hytRuns e = false
      ∧ t.hw.f (hy e 0x048) 3 0 = 6 ∧ (t.hw.hyt e).pc = eng.pc ∧ (t.hw.hyt e).d = eng.d) ∧
    (∀ (d : BitVec 5) (i am : BitVec 3) (dp : BitVec 4), memLegal am.toNat dp = true → d.toNat < 8 →
      Gives (.ldr g e p d i am dp .none) s fun t =>
      Only s t g e k ((eng.setAc d.toNat (placed (s.hw.dmData s.mem e (eng.memAddr i.toNat am.toNat dp)))).memUpdate i.toNat am.toNat 1).advance) ∧
    (∀ (d : BitVec 5) (i am : BitVec 3) (dp : BitVec 4), memLegal am.toNat dp = true → d.toNat < 8 →
      Gives (.ldl g e p d i am dp .none) s fun t =>
      Only s t g e k ((eng.setAc d.toNat (s.hw.dmData s.mem e (eng.agu i.toNat (eng.memAddr i.toNat am.toNat dp) 1)
          ++ s.hw.dmRd s.mem e (eng.memAddr i.toNat am.toNat dp))).memUpdate i.toNat am.toNat 2).advance) ∧
    (∀ (d : BitVec 5) (i am : BitVec 3) (dp : BitVec 4) (b : Nat), memLegal am.toNat dp = true →
      s.hw.pair.copying ≠ some e.val → Gives (.st g e p d i am dp .none) s fun t =>
      t.hw.hyt e = (eng.memUpdate i.toNat am.toNat 1).advance
      ∧ t.hw.rd32 t.mem (dmAddr e (eng.memAddr i.toNat am.toNat dp)) = (eng.dr d.toNat).signExtend 32
      ∧ t.hw.regs = s.hw.regs ∧ (k = e ∨ t.hw.hyt k = s.hw.hyt k)
      ∧ (b / 4 = dmAddr e (eng.memAddr i.toNat am.toNat dp) / 4 ∨ memGet t.mem b = memGet s.mem b)) ∧
    (∀ (d : BitVec 5) (i am : BitVec 3) (dp : BitVec 4) (b : Nat), memLegal am.toNat dp = true →
      s.hw.pair.copying ≠ some e.val → d.toNat < 8 → Gives (.str g e p d i am dp) s fun t => t.hw.hyt e
          = (({ eng with
            sr := if (roundAcc eng.rnd (eng.ac d.toNat)).2 then putFlag eng.sr fSAT true else eng.sr }
          : HytS).memUpdate i.toNat am.toNat 1).advance
      ∧ t.hw.rd32 t.mem (dmAddr e (eng.memAddr i.toNat am.toNat dp))
          = (roundAcc eng.rnd (eng.ac d.toNat)).1.signExtend 32 ∧ t.hw.regs = s.hw.regs ∧ (k = e
      ∨ t.hw.hyt k = s.hw.hyt k) ∧ (b / 4 = dmAddr e (eng.memAddr i.toNat am.toNat dp) / 4
      ∨ memGet t.mem b = memGet s.mem b)) ∧
    (∀ (d : BitVec 5) (i am : BitVec 3) (dp : BitVec 4) (b : Nat), memLegal am.toNat dp = true →
      s.hw.pair.copying ≠ some e.val → d.toNat < 8 →
      dmAddr e (eng.agu i.toNat (eng.memAddr i.toNat am.toNat dp) 1) ≠ dmAddr e (eng.memAddr i.toNat am.toNat dp) →
      Gives (.stl g e p d i am dp) s fun t => t.hw.hyt e = (eng.memUpdate i.toNat am.toNat 2).advance
      ∧ t.hw.rd32 t.mem (dmAddr e (eng.memAddr i.toNat am.toNat dp)) = (eng.ac d.toNat).extractLsb' 0 32
      ∧ t.hw.rd32 t.mem (dmAddr e (eng.agu i.toNat (eng.memAddr i.toNat am.toNat dp) 1))
          = ((eng.ac d.toNat).extractLsb' 32 24).signExtend 32 ∧ t.hw.regs = s.hw.regs
      ∧ (b / 4 = dmAddr e (eng.memAddr i.toNat am.toNat dp) / 4
      ∨ b / 4 = dmAddr e (eng.agu i.toNat (eng.memAddr i.toNat am.toNat dp) 1) / 4
      ∨ memGet t.mem b = memGet s.mem b))

/-- NOP only advances. HALT completes and stops the engine with cause 10. WAIT waits exactly while no enabled event is
pending; CLRE clears one pending event; one set in the same grain stays. ROT turns the window by one: register i goes
to i + 1 and the last to the first. BR whose condition holds goes to its target and ends the loops that the target
leaves, else to the next instruction; CALL also saves the next address in IX7 and ends no loop; RET goes to the
address in IXk. A loop instruction with a count opens a level with that many passes (a modulo loop with N + SC - 1)
or, with count 0, skips the body; a fifth level stops the engine with cause 7. PSET writes the condition to a
predicate and, if asked, its opposite to another. -/
def Obligations.HytarControl : Prop :=
  ∀ (s : State) (g : Nat) (e k : Fin 16) (p : BitVec 5), Issues s e p →
    let eng := s.hw.hyt e
    (Gives (.nop g e p) s fun t => Only s t g e k eng.advance) ∧
    (Gives (.halt g e p) s fun t => t.hw.hyt e = eng.advance.clock (max s.hw.grain g) false
      ∧ t.hw.hytRuns e = false ∧ t.hw.bit (hy e rSTAT) 1 = true ∧ t.hw.f (hy e 0x048) 3 0 = 10
      ∧ t.hw.f (hy e 0x048) 29 16 = eng.advance.pc.toNat ∧ t.hw.bit (hy e rEVT) 1 = true ∧ t.mem = s.mem) ∧
    (Gives (.wait g e p) s fun t =>
      Only s t g e k ({ eng.clock (max s.hw.grain g) (decide (eng.epend &&& eng.emask ≠ 0)) with waiting := decide (eng.epend &&& eng.emask = 0) } : HytS).advance) ∧
    (∀ (n : BitVec 6), ∀ x ∈ eng.epAt, x.2 ≠ max s.hw.grain g + 1 → Gives (.clre g e p n) s fun t =>
      Only s t g e k ({ eng with epend := eng.epend &&& ~~~(BitVec.ofNat 64 (2 ^ n.toNat)) } : HytS).advance) ∧
    (∀ (n : BitVec 6), tabGet 0 n.toNat eng.epAt = max s.hw.grain g + 1 → Gives (.clre g e p n) s fun t =>
      (t.hw.hyt e).epend.getLsbD n.toNat = eng.epend.getLsbD n.toNat ∧ (t.hw.hyt e).pc = eng.advance.pc) ∧
    (∀ (i : Fin 16), i.val < eng.window → Gives (.rot g e p) s fun t =>
      (t.hw.hyt e).dr (16 + (i.val + 1) % eng.window) = eng.dr (16 + i.val)
      ∧ Only s t g e k ({ eng with d := (t.hw.hyt e).d } : HytS).advance) ∧
    (∀ (c : BitVec 4) (tgt : BitVec 14), hcond eng.sr c.toNat = false → Gives (.br g e p c tgt) s fun t =>
      Only s t g e k eng.advance) ∧
    (∀ (c : BitVec 4) (tgt : BitVec 14), hcond eng.sr c.toNat = true → eng.loops.all (fun l =>
      decide (l.first ≤ tgt.toNat ∧ tgt.toNat ≤ l.last)) = true → Gives (.br g e p c tgt) s fun t =>
      Only s t g e k { eng with pc := tgt }) ∧
    (∀ (c : BitVec 4) (tgt : BitVec 14) (l : HLoop), hcond eng.sr c.toNat = true → eng.loops = [l] →
      l.modulo = false → tgt.toNat < l.first ∨ l.last < tgt.toNat → Gives (.br g e p c tgt) s fun t =>
      Only s t g e k { eng with pc := tgt, loops := [] }) ∧
    (∀ (c : BitVec 4) (tgt : BitVec 14), hcond eng.sr c.toNat = true → Gives (.call g e p c tgt) s fun t =>
      Only s t g e k { eng.setIx 7 ((eng.pc + 1).setWidth 16) with pc := tgt }) ∧
    (∀ (c : BitVec 4) (tgt : BitVec 14), hcond eng.sr c.toNat = false → Gives (.call g e p c tgt) s fun t =>
      Only s t g e k eng.advance) ∧
    (∀ (i : BitVec 3), Gives (.ret g e p i) s fun t =>
      Only s t g e k { eng with pc := BitVec.ofNat 14 (eng.ixr i.toNat), retAt := max s.hw.grain g }) ∧
    (∀ (n : BitVec 13) (len : BitVec 8), n ≠ 0 → eng.loops.length < 4 → eng.bodyOk len.toNat = true →
      Gives (.loop g e p n len) s fun t => Only s t g e k { eng with
            pc := eng.pc + 1,
            loops := { first := eng.pc.toNat + 1, last := eng.pc.toNat + len.toNat + 1, left := n.toNat, modulo := false, n := 0, sc := 0 } :: eng.loops }) ∧
    (∀ (len : BitVec 8), eng.bodyOk len.toNat = true → Gives (.loop g e p 0 len) s fun t =>
      Only s t g e k { eng with pc := eng.pc + BitVec.ofNat 14 (len.toNat + 2) }) ∧
    (∀ (r : BitVec 5) (len : BitVec 8), r.toNat < 24 → eng.areg r.toNat ≠ 0 → 4 ≤ eng.loops.length →
      eng.bodyOk len.toNat = true → Gives (.loopr g e p r len) s fun t => t.hw.hytRuns e = false
      ∧ t.hw.f (hy e 0x048) 3 0 = 7 ∧ t.hw.hyt e = eng.clock (max s.hw.grain g) false
      ∧ t.hw.bit (hy e rEVT) 1 = true) ∧
    (∀ (r : BitVec 5) (len : BitVec 8), r.toNat < 24 → eng.areg r.toNat ≠ 0 → eng.loops.length < 4 →
      eng.bodyOk len.toNat = true → Gives (.loopr g e p r len) s fun t => Only s t g e k { eng with
            pc := eng.pc + 1,
            loops := { first := eng.pc.toNat + 1, last := eng.pc.toNat + len.toNat + 1, left := (eng.areg r.toNat).toNat, modulo := false, n := 0, sc := 0 } :: eng.loops }) ∧
    (∀ (r : BitVec 5) (sc : BitVec 4) (len : BitVec 8), r.toNat < 24 → eng.areg r.toNat ≠ 0 →
      eng.loops.length < 4 → eng.bodyOk len.toNat = true → Gives (.mloop g e p r sc len) s fun t =>
      Only s t g e k { eng with
            pc := eng.pc + 1,
            loops := { first := eng.pc.toNat + 1, last := eng.pc.toNat + len.toNat + 1, left := (eng.areg r.toNat).toNat + sc.toNat, modulo := true, n := (eng.areg r.toNat).toNat, sc := sc.toNat + 1 } :: eng.loops }) ∧
    (∀ (n : BitVec 9) (sc : BitVec 4) (len : BitVec 8), n ≠ 0 → eng.loops.length < 4 →
      eng.bodyOk len.toNat = true → Gives (.mloopi g e p n sc len) s fun t => Only s t g e k { eng with
            pc := eng.pc + 1,
            loops := { first := eng.pc.toNat + 1, last := eng.pc.toNat + len.toNat + 1, left := n.toNat + sc.toNat, modulo := true, n := n.toNat, sc := sc.toNat + 1 } :: eng.loops }) ∧
    (∀ (c : BitVec 4) (pg q : BitVec 2) (two : Bool) (i : Fin 4), two = false ∨ q ≠ pg →
      Gives (.pset g e p c pg two q) s fun t => ((t.hw.hyt e).pg.getLsbD i = if two ∧ i = q.toNat
          then !(hcond eng.sr c.toNat) else if i = pg.toNat then hcond eng.sr c.toNat else eng.pg.getLsbD i)
      ∧ Only s t g e k ({ eng with pg := (t.hw.hyt e).pg } : HytS).advance)

/-- A legal instruction whose predicate is false (here TAP, ST, BR, PWR and FST, one of each kind of effect) has no
effect but the advance of the PC. A word that is no instruction, or whose P names no predicate, stops the engine with
cause 5, the PC at it. PWR and PCOM put an entry at the end of the leg-port queue for an owned leg or carrier unit;
for one not owned they set EVT.PORT_REFUSED and put nothing; on a full queue of eight they stall. FLD loads a word of
application SRAM into an accumulator, FST stores one and no other byte. FLD of an address outside the fabric's regions
stops the engine with cause 8, FST to one goes on with the error outstanding, and FLD waits while one is. Throughout,
the die is not held in reset; no earlier command left a memory write or a reset to be done. -/
def Obligations.HytarPredicatesPortsFabric : Prop :=
  ∀ (s : State) (g : Nat) (e k : Fin 16) (p : BitVec 5), Live s → Settled s → s.hw.hytRuns e = true →
      (s.hw.hyt e).waiting = false → (s.hw.hyt e).stepping = false → s.hw.sup.eccHyt = [] →
    let eng := s.hw.hyt e
    (∀ (a i j : BitVec 3) (m : BitVec 5) (c ui uj sg z : Bool), predLegal p.toNat = true →
      eng.pred p.toNat = false → Gives (.tap g e p a i j m c ui uj sg z) s fun t => Only s t g e k eng.advance) ∧
    (∀ (d : BitVec 5) (i am : BitVec 3) (dp : BitVec 4), predLegal p.toNat = true → eng.pred p.toNat = false →
      memLegal am.toNat dp = true → Gives (.st g e p d i am dp .none) s fun t => Only s t g e k eng.advance) ∧
    (∀ (c : BitVec 4) (tgt : BitVec 14), predLegal p.toNat = true → eng.pred p.toNat = false →
      Gives (.br g e p c tgt) s fun t => Only s t g e k eng.advance) ∧
    (∀ (a : BitVec 3) (x fall : Bool) (n : BitVec 7), predLegal p.toNat = true → eng.pred p.toNat = false →
      x = false ∨ n.toNat % 16 = 0 → Gives (.pwr g e p a x fall n) s fun t => Only s t g e k eng.advance) ∧
    (∀ (d a : BitVec 3), predLegal p.toNat = true → eng.pred p.toNat = false →
      Gives (.fst g e p d a) s fun t => Only s t g e k eng.advance) ∧
    (predLegal p.toNat = false → Gives (.nop g e p) s fun t => t.hw.hytRuns e = false
      ∧ t.hw.f (hy e 0x048) 3 0 = 5 ∧ t.hw.f (hy e 0x048) 29 16 = eng.pc.toNat
      ∧ t.hw.hyt e = eng.clock (max s.hw.grain g) false) ∧
    (∀ (w : Word), s.hw.wordLegal e w = false → Gives (.illegalInstruction g e w) s fun t =>
      t.hw.hytRuns e = false ∧ t.hw.bit (hy e rSTAT) 1 = true ∧ t.hw.f (hy e 0x048) 3 0 = 5
      ∧ t.hw.f (hy e 0x048) 29 16 = eng.pc.toNat ∧ t.hw.bit (hy e rEVT) 1 = true
      ∧ t.hw.hyt e = eng.clock (max s.hw.grain g) false) ∧
    (∀ (a : BitVec 3) (fall : Bool) (n : BitVec 7), Issues s e p → s.hw.ownsLeg e n.toNat = true →
      eng.port.length < 8 → Gives (.pwr g e p a false fall n) s fun t => Only s t g e k ({ eng with
            port := eng.port ++ [{ commit := false, unit := n.toNat, fall, v := (eng.ac a.toNat).toNat % 2 ^ 29, left := max s.hw.grain g }] }
          : HytS).advance) ∧
    (∀ (a : BitVec 3) (fall : Bool) (n : BitVec 7), Issues s e p → s.hw.ownsLeg e n.toNat = false →
      Gives (.pwr g e p a false fall n) s fun t => t.hw.hyt e = eng.advance ∧ t.hw.bit (hy e rEVT) 2 = true
      ∧ t.mem = s.mem) ∧
    (∀ (a : BitVec 3) (fall : Bool) (n : BitVec 7), Issues s e p → s.hw.ownsLeg e n.toNat = true →
      8 ≤ eng.port.length → Gives (.pwr g e p a false fall n) s fun t => Only s t g e k eng) ∧
    (∀ (n : BitVec 5), Issues s e p → s.hw.ownsAxis e n.toNat = true → eng.port.length < 8 →
      Gives (.pcom g e p false n) s fun t => Only s t g e k ({ eng with
            port := eng.port ++ [{ commit := true, unit := n.toNat, left := max s.hw.grain g }] }
          : HytS).advance) ∧
    (∀ (d a : BitVec 3), Issues s e p → eng.berr = none → (eng.ac a.toNat).toNat % 2 ^ 32 + 4 ≤ 0x200000 →
      Gives (.fld g e p d a) s fun t =>
      Only s t g e k (eng.setAc d.toNat ((s.hw.rd32 s.mem ((eng.ac a.toNat).toNat % 2 ^ 32)).setWidth 56)).advance) ∧
    (∀ (d a : BitVec 3) (b : Nat), Issues s e p → (eng.ac a.toNat).toNat % 2 ^ 32 + 4 ≤ 0x200000 →
      Gives (.fst g e p d a) s fun t => t.hw.hyt e = eng.advance
      ∧ t.hw.rd32 t.mem ((eng.ac a.toNat).toNat % 2 ^ 32) = (eng.ac d.toNat).setWidth 32
      ∧ t.hw.regs = s.hw.regs ∧ (((eng.ac a.toNat).toNat % 2 ^ 32 ≤ b
      ∧ b < (eng.ac a.toNat).toNat % 2 ^ 32 + 4) ∨ memGet t.mem b = memGet s.mem b)) ∧
    (∀ (d a : BitVec 3), Issues s e p → eng.berr.isSome = true → Gives (.fld g e p d a) s fun t =>
      Only s t g e k eng) ∧
    (∀ (d a : BitVec 3), Issues s e p → eng.berr = none → 0x80000000 ≤ (eng.ac a.toNat).toNat % 2 ^ 32 →
      Gives (.fld g e p d a) s fun t => t.hw.hytRuns e = false ∧ t.hw.f (hy e 0x048) 3 0 = 8
      ∧ (t.hw.hyt e).pc = eng.pc ∧ t.hw.bit (sy rEVT) 2 = true) ∧
    (∀ (d a : BitVec 3) (b : Nat), Issues s e p → eng.berr = none →
      0x80000000 ≤ (eng.ac a.toNat).toNat % 2 ^ 32 → Gives (.fst g e p d a) s fun t =>
      t.hw.hyt e = ({ eng with berr := some (BitVec.ofNat 32 (eng.ac a.toNat).toNat) } : HytS).advance
      ∧ t.hw.bit (sy rEVT) 2 = true ∧ (b < 0x50020000 → memGet t.mem b = memGet s.mem b))

/-- ENABLE starts a disabled engine at START with every register 0 and its pending arrivals kept. Clearing ENABLE
stops a running engine with cause 1, HALT_REQ with 2, a breakpoint at the PC with 3, a posted store's bus error with 8
and the watchdog of an owned enabled axis with 9: RUNNING clears, HALTED sets, the cause and the PC are recorded and
EVT.HALTED is set. RESUME of an engine halted by request, breakpoint or step goes on from its PC. STEP of such an
engine, outside a wait, at a NOP runs that instruction and halts with cause 4. A waiting engine goes on when an
enabled event is pending, and only then. CNT_CLR clears the counters where none was stepped in its cycle. Throughout,
the die is not held in reset. -/
def Obligations.EngineHaltsAndStarts : Prop :=
  ∀ (s : State) (g : Nat) (e k : Fin 16), Live s →
    let eng := s.hw.hyt e
    (Unlocked s (pHYT e) → s.hw.bit (hy e rCTRL) 0 = false → Gives (.hytEnable g e) s fun t =>
      t.hw.bit (hy e rCTRL) 0 = true ∧ t.hw.hytRuns e = true ∧ t.hw.bit (hy e rSTAT) 1 = false
      ∧ (t.hw.hyt e).pc = (s.hw.reg (hy e 0x040)).extractLsb' 0 14 ∧ (t.hw.hyt e).sr = 0 ∧ (t.hw.hyt e).d = []
      ∧ (t.hw.hyt e).acc = [] ∧ (t.hw.hyt e).loops = [] ∧ (t.hw.hyt e).epend = eng.epend &&& 0xFFFFFFFF
      ∧ (k = e ∨ t.hw.hyt k = s.hw.hyt k)) ∧
    (Unlocked s (pHYT e) → s.hw.bit (hy e rCTRL) 0 = true → Gives (.hytEnable g e) s fun t => t.hw.hyt e = eng
      ∧ t.hw.reg (hy e rSTAT) = s.hw.reg (hy e rSTAT) ∧ t.hw.reg (hy e rCTRL) = s.hw.reg (hy e rCTRL)) ∧
    (Unlocked s (pHYT e) → s.hw.hytRuns e = true → Gives (.hytDisable g e) s fun t =>
      t.hw.bit (hy e rCTRL) 0 = false ∧ t.hw.hytRuns e = false ∧ t.hw.bit (hy e rSTAT) 1 = true
      ∧ t.hw.f (hy e 0x048) 3 0 = 1 ∧ t.hw.f (hy e 0x048) 29 16 = eng.pc.toNat
      ∧ t.hw.f (hy e 0x044) 13 0 = eng.pc.toNat ∧ t.hw.bit (hy e rEVT) 1 = true) ∧
    (Unlocked s (pHYT e) → s.hw.hytRuns e = true → Gives (.haltReq g e) s fun t => t.hw.hytRuns e = false
      ∧ t.hw.bit (hy e rSTAT) 1 = true ∧ t.hw.f (hy e 0x048) 3 0 = 2
      ∧ t.hw.f (hy e 0x048) 29 16 = eng.pc.toNat ∧ t.hw.f (hy e 0x044) 13 0 = eng.pc.toNat
      ∧ t.hw.bit (hy e rEVT) 1 = true) ∧
    (s.hw.hytRuns e = true → eng.waiting = false → s.hw.bit (hy e 0x054) 31 = true →
      s.hw.f (hy e 0x054) 13 0 = eng.pc.toNat → Gives (.breakpoint g e) s fun t => t.hw.hytRuns e = false
      ∧ t.hw.bit (hy e rSTAT) 1 = true ∧ t.hw.f (hy e 0x048) 3 0 = 3
      ∧ t.hw.f (hy e 0x048) 29 16 = eng.pc.toNat ∧ t.hw.f (hy e 0x044) 13 0 = eng.pc.toNat
      ∧ t.hw.bit (hy e rEVT) 1 = true ∧ t.hw.hyt e = eng.clock (max s.hw.grain g) false) ∧
    (∀ (addr : Word), eng.berr = some addr → s.hw.hytRuns e = true →
      Gives (.hytFabricBusError g e addr) s fun t => t.hw.hytRuns e = false ∧ t.hw.bit (hy e rSTAT) 1 = true
      ∧ t.hw.f (hy e 0x048) 3 0 = 8 ∧ t.hw.f (hy e 0x048) 29 16 = eng.pc.toNat
      ∧ t.hw.f (hy e 0x044) 13 0 = eng.pc.toNat ∧ t.hw.bit (hy e rEVT) 1 = true ∧ (t.hw.hyt e).berr = none) ∧
    (∀ (a : Fin 32), s.hw.hytRuns e = true → s.hw.reg (hy e 0x050) ≠ 0 → a.val ∈ s.hw.hytEnabled e →
      Nat.max (tabGet 0 a.val eng.commitAt) (tabGet 0 a.val s.hw.enAt) + (s.hw.reg (hy e 0x050)).toNat
          < max s.hw.grain g → Gives (.hytWatchdog g e) s fun t => t.hw.hytRuns e = false
      ∧ t.hw.bit (hy e rSTAT) 1 = true ∧ t.hw.f (hy e 0x048) 3 0 = 9
      ∧ t.hw.f (hy e 0x048) 29 16 = eng.pc.toNat ∧ t.hw.f (hy e 0x044) 13 0 = eng.pc.toNat
      ∧ t.hw.bit (hy e rEVT) 1 = true) ∧
    (Unlocked s (pHYT e) → s.hw.hytDebug e = true → Gives (.hytResume g e) s fun t => t.hw.hytRuns e = true
      ∧ t.hw.bit (hy e rSTAT) 1 = false
      ∧ t.hw.hyt e = { eng.clock (5 * (max s.hw.grain g / 5) + 4) !eng.waiting with stepping := false }) ∧
    (Unlocked s (pHYT e) → s.hw.hytDebug e = false → Gives (.hytResume g e) s fun t =>
      t.hw.hytRuns e = s.hw.hytRuns e ∧ t.hw.hyt e = eng) ∧
    (Unlocked s (pHYT e) → Settled s → s.hw.hytDebug e = true → eng.waiting = false →
      s.hw.rd32 s.mem (pmAddr e eng.pc.toNat) = 0 → s.hw.sup.eccHyt = [] → Gives (.hytStep g e) s fun t =>
      t.hw.hytRuns e = false ∧ t.hw.f (hy e 0x048) 3 0 = 4 ∧ (t.hw.hyt e).pc = eng.advance.pc
      ∧ (t.hw.hyt e).loops = eng.advance.loops ∧ (t.hw.hyt e).d = eng.advance.d ∧ (t.hw.hyt e).acc = eng.acc
      ∧ (t.hw.hyt e).sr = eng.sr) ∧
    (s.hw.hytRuns e = true → eng.waiting = true → eng.stepping = false → eng.epend &&& eng.emask ≠ 0 →
      Gives (.waitResume g e) s fun t =>
      t.hw.hyt e = { eng.clock (max s.hw.grain g) true with waiting := false, stepping := false }
      ∧ t.hw.regs = s.hw.regs) ∧
    (eng.epend &&& eng.emask = 0 → Gives (.waitResume g e) s fun t => t.hw.hyt e = eng ∧ t.hw.regs = s.hw.regs) ∧
    (Unlocked s (pHYT e) → ∀ x ∈ s.hw.cntCyc, x.2.cycle ≠ max s.hw.grain g / 5 →
      ∀ x ∈ s.hw.evtCyc, x.2.cycle ≠ max s.hw.grain g / 5 → Gives (.hytCntClr g e) s fun t =>
      t.hw.reg (hy e 0x060) = 0 ∧ t.hw.reg (hy e 0x064) = 0 ∧ t.hw.reg (hy e 0x06C) = 0 ∧ t.hw.hyt e = eng)

/-- An arrival of a slot whose map names a source writes the source's record, of eight words, to data memory and sets
the slot's EPEND bit; one whose bit is still set is an overrun that is flagged; a slot mapped to none does nothing. A
running timer that reaches 0 sets EPEND bit 47 once. A doorbell sets EPEND bits 63:48. The front entry of the leg-port
queue lands when due: a compare write in the leg's shadow, a commit as the group commit of its carrier unit (pending
where the unit's set and those of its legs pass their checks), its grain noted for the watchdog. Program memory takes
a write only while the engine is stopped, else EVT.PM_WRITE_IGNORED. AXES, SIN_MAP and WSEL take what their rules
allow, else EVT.CFG_REFUSED. Throughout, the die is not held in reset. -/
def Obligations.EngineInputsAndWrites : Prop :=
  ∀ (s : State) (g : Nat) (e : Fin 16), Live s →
    let eng := s.hw.hyt e
    (∀ (i : Fin 32), s.hw.f (hy e (0x080 + 4 * i)) 26 24 = 0 → Gives (.signalArrival g e i) s fun t =>
      t.hw.hyt e = eng ∧ t.hw.regs = s.hw.regs ∧ (s.hw.rst = 0 → s.hw.wbuf = [] → t.mem = s.mem)) ∧
    (∀ (i : Fin 32) (j : Fin 8), Settled s → 1 ≤ s.hw.f (hy e (0x080 + 4 * i)) 26 24 →
      s.hw.f (hy e (0x080 + 4 * i)) 26 24 ≤ 4 → s.hw.pair.copying ≠ some e.val → eng.epend.getLsbD i = false →
      Gives (.signalArrival g e i) s fun t =>
      let w := s.hw.sinRecord s.mem (s.hw.f (hy e (0x080 + 4 * i)) 26 24) (s.hw.f (hy e (0x080 + 4 * i)) 7 0);
      w.length = 8 ∧ (t.hw.hyt e).epend = eng.epend ||| BitVec.ofNat 64 (2 ^ i.val)
      ∧ t.hw.rd32 t.mem (dmAddr e (0x3F00 + 8 * i + j)) = w.getD j 0 ∧ t.hw.regs = s.hw.regs) ∧
    (∀ (i : Fin 32), s.hw.f (hy e (0x080 + 4 * i)) 26 24 ≠ 0 → eng.epend.getLsbD i = true →
      Gives (.signalArrival g e i) s fun t => (t.hw.hyt e).epend.getLsbD i = true
      ∧ t.hw.bit (hy e 0x06C) i = true ∧ t.hw.bit (hy e rEVT) 5 = true) ∧
    (eng.tmr ≠ 0 → eng.tmr ≤ 2 * (max s.hw.grain g - eng.tmrAt) → Gives (.engineTimerExpiry g e) s fun t =>
      (t.hw.hyt e).tmr = 0 ∧ (t.hw.hyt e).epend = eng.epend ||| BitVec.ofNat 64 (2 ^ 47)
      ∧ t.hw.regs = s.hw.regs) ∧
    (eng.tmr = 0 ∨ 2 * (max s.hw.grain g - eng.tmrAt) < eng.tmr → Gives (.engineTimerExpiry g e) s fun t =>
      t.hw.hyt e = eng ∧ t.hw.regs = s.hw.regs) ∧
    (∀ (v : BitVec 16), Unlocked s (pHYT e) → Gives (.doorbell g e v) s fun t =>
      (t.hw.hyt e).epend = eng.epend ||| (v.setWidth 64 <<< 48) ∧ (t.hw.hyt e).pc = eng.pc) ∧
    (∀ (en : PortEnt) (rest : List PortEnt), eng.port = en :: rest → en.commit = false →
      (en.left + 3) / 5 ≤ max s.hw.grain g / 5 → Gives (.portWriteApply g e) s fun t =>
      (t.hw.hyt e).port = rest
      ∧ t.hw.shd (lg en.unit (if en.fall then 0x044 else 0x040)) = BitVec.ofNat 32 en.v
      ∧ t.hw.regs = s.hw.regs) ∧
    (∀ (en : PortEnt) (rest : List PortEnt), eng.port = en :: rest → en.commit = true →
      (en.left + 3) / 5 ≤ max s.hw.grain g / 5 → Gives (.portCommitApply g e) s fun t =>
      (t.hw.hyt e).port = rest ∧ tabGet 0 en.unit (t.hw.hyt e).commitAt = max s.hw.grain g
      ∧ ((s.hw.carSetOk en.unit && (s.hw.axisLegs en.unit).all fun n => legSetOk n s.hw.shd) = true →
      t.hw.pending (pCAR en.unit) = true)) ∧
    (∀ (i : BitVec 14) (v : Word) (b : Nat), Settled s → s.hw.hytRuns e = false →
      Gives (.hytPmWrite g e i v) s fun t => t.hw.rd32 t.mem (pmAddr e i.toNat) = v
      ∧ (b / 4 = pmAddr e i.toNat / 4 ∨ memGet t.mem b = memGet s.mem b)) ∧
    (∀ (i : BitVec 14) (v : Word), Settled s → s.hw.hytRuns e = true → Gives (.hytPmWrite g e i v) s fun t =>
      t.mem = s.mem ∧ t.hw.bit (hy e rEVT) 3 = true) ∧
    (∀ (v : Word), Unlocked s (pHYT e) → s.hw.hytRuns e = false →
      (bridgesOf (s.hw.reg (hy e 0x04C) ||| v)).any (fun a => (s.hw.axisLegs a).any s.hw.legEnabled) = false →
      (List.range 16).any (fun o =>
      o != e.val && (s.hw.reg (hy o 0x04C) &&& v &&& ~~~(s.hw.reg (hy e 0x04C))) != 0) = false →
      Gives (.hytAxesWrite g e v) s fun t => t.hw.reg (hy e 0x04C) = v) ∧
    (∀ (v : Word), Unlocked s (pHYT e) → s.hw.hytRuns e = true → Gives (.hytAxesWrite g e v) s fun t =>
      t.hw.reg (hy e 0x04C) = s.hw.reg (hy e 0x04C) ∧ t.hw.bit (hy e rEVT) 0 = true) ∧
    (∀ (i : Fin 32) (v : Word), Unlocked s (pHYT e) → sinOk v = true → Gives (.sinMapWrite g e i v) s fun t =>
      t.hw.reg (hy e (0x080 + 4 * i)) = v &&& 0x070000FF) ∧
    (∀ (i : Fin 32) (v : Word), Unlocked s (pHYT e) → sinOk v = false → Gives (.sinMapWrite g e i v) s fun t =>
      t.hw.reg (hy e (0x080 + 4 * i)) = s.hw.reg (hy e (0x080 + 4 * i)) ∧ t.hw.bit (hy e rEVT) 0 = true) ∧
    (∀ (j : Fin 15) (v : Word), Unlocked s (pHYT e) → fld v 10 8 ≤ 6 → Gives (.wselWrite g e j v) s fun t =>
      t.hw.reg (hy e (0x100 + 4 * j)) = v &&& 0x71F) ∧
    (∀ (j : Fin 15) (v : Word), Unlocked s (pHYT e) → 6 < fld v 10 8 → Gives (.wselWrite g e j v) s fun t =>
      t.hw.reg (hy e (0x100 + 4 * j)) = s.hw.reg (hy e (0x100 + 4 * j)) ∧ t.hw.bit (hy e rEVT) 0 = true)

/-- On a running engine in no hook, where no current update is due and no hook owed: an axis start of a slot whose RUN
is set and was not, whose bank passes every check of R194, puts the slot in RUNNING with the bank and the mode asked
for and 0 updates; a bank that fails puts it in state 3 with the first failing check's code; both write the kernel's
version. The batch task, once in a batch and not while it waits for its set-point record, clears the pending bits of
its inputs and counts the batch; with RUN clear it ends a running slot and lets a refused or faulted one keep its
state; with RUN set it takes the mode. A current update of a running slot whose trigger conversion is pending, slot 1
after slot 0, counts the update and the conversions missed; of a slot that does not run it does nothing. Throughout,
the die is not held in reset; no earlier command left a memory write or a reset to be done. -/
def Obligations.KernelSteps : Prop :=
  ∀ (s : State) (g : Nat) (e : Fin 16) (slot : Bool), Live s → Settled s → s.hw.hytRuns e = true →
      (s.hw.hyt e).hookAt = none →
    let eng := s.hw.hyt e
    ((s.hw.kSlots e).any (s.hw.kDue s.mem) = false → eng.owed = [] →
      bitOf (s.hw.dmRd s.mem e (0x0100 + 0x0400 * slotN slot)) 0 = true → ((((s.hw.at g).upHyt e fun x =>
      { x with hookAt := none }).kResume s.mem ({ e := e.val, s := slotN slot, bank := fld (s.hw.dmRd s.mem e (0x0100 + 0x0400 * slotN slot)) 4 4 } : KAx)).kern ({ e := e.val, s := slotN slot, bank := fld (s.hw.dmRd s.mem e (0x0100 + 0x0400 * slotN slot)) 4 4 } : KAx)).run
          = false → (((s.hw.at g).upHyt e fun x =>
      { x with hookAt := none }).kResume s.mem ({ e := e.val, s := slotN slot, bank := fld (s.hw.dmRd s.mem e (0x0100 + 0x0400 * slotN slot)) 4 4 } : KAx)).kCheck s.mem ({ e := e.val, s := slotN slot, bank := fld (s.hw.dmRd s.mem e (0x0100 + 0x0400 * slotN slot)) 4 4 } : KAx) (min 2 (fld (s.hw.dmRd s.mem e (0x0100
          + 0x0400 * slotN slot)) 2 1)) = 0 → Gives (.kernelAxisStart g e slot) s fun t =>
      (t.hw.kern ⟨e, slotN slot, 0⟩).st = 2 ∧ (t.hw.kern ⟨e, slotN slot, 0⟩).run = true
      ∧ (t.hw.kern ⟨e, slotN slot, 0⟩).code = 0
      ∧ (t.hw.kern ⟨e, slotN slot, 0⟩).bank = fld (s.hw.dmRd s.mem e (0x0100 + 0x0400 * slotN slot)) 4 4
      ∧ (t.hw.kern ⟨e, slotN slot, 0⟩).mode = min 2 (fld (s.hw.dmRd s.mem e (0x0100 + 0x0400
          * slotN slot)) 2 1) ∧ t.hw.dmRd t.mem e (0x0100 + 0x0400 * slotN slot + 0x0C) = 0
      ∧ t.hw.dmRd t.mem e 0 = (2 : BitVec 16) ++ Config.kernelMinor) ∧
    (∀ (c : Nat), (s.hw.kSlots e).any (s.hw.kDue s.mem) = false → eng.owed = [] →
      bitOf (s.hw.dmRd s.mem e (0x0100 + 0x0400 * slotN slot)) 0 = true → ((((s.hw.at g).upHyt e fun x =>
      { x with hookAt := none }).kResume s.mem ({ e := e.val, s := slotN slot, bank := fld (s.hw.dmRd s.mem e (0x0100 + 0x0400 * slotN slot)) 4 4 } : KAx)).kern ({ e := e.val, s := slotN slot, bank := fld (s.hw.dmRd s.mem e (0x0100 + 0x0400 * slotN slot)) 4 4 } : KAx)).run
          = false → (((s.hw.at g).upHyt e fun x =>
      { x with hookAt := none }).kResume s.mem ({ e := e.val, s := slotN slot, bank := fld (s.hw.dmRd s.mem e (0x0100 + 0x0400 * slotN slot)) 4 4 } : KAx)).kCheck s.mem ({ e := e.val, s := slotN slot, bank := fld (s.hw.dmRd s.mem e (0x0100 + 0x0400 * slotN slot)) 4 4 } : KAx) (min 2 (fld (s.hw.dmRd s.mem e (0x0100
          + 0x0400 * slotN slot)) 2 1)) = c → c ≠ 0 → Gives (.kernelAxisStart g e slot) s fun t =>
      (t.hw.kern ⟨e, slotN slot, 0⟩).st = 3 ∧ (t.hw.kern ⟨e, slotN slot, 0⟩).run = true
      ∧ (t.hw.kern ⟨e, slotN slot, 0⟩).code = c ∧ t.hw.dmRd t.mem e 0 = (2 : BitVec 16) ++ Config.kernelMinor) ∧
    ((s.hw.kSlots e).any (s.hw.kDue s.mem) = false → eng.owed = [] → ((((s.hw.at g).upHyt e fun x =>
      { x with hookAt := none }).kResume s.mem ⟨e, slotN slot, 0⟩).kern ⟨e, slotN slot, 0⟩).taskB ≠ some (s.hw.reg (ck 0x064)) →
      (((s.hw.at g).upHyt e fun x =>
      { x with hookAt := none }).kResume s.mem ⟨e, slotN slot, 0⟩).kWaits s.mem ⟨e, slotN slot, ((((s.hw.at g).upHyt e fun x => { x with hookAt := none }).kResume s.mem ⟨e, slotN slot, 0⟩).kern ⟨e, slotN slot, 0⟩).bank⟩
          = false → bitOf (s.hw.dmRd s.mem e (0x0100 + 0x0400 * slotN slot)) 0 = false →
      Gives (.kernelBatchTask g e slot) s fun t =>
      let k := ((((s.hw.at g).upHyt e fun x =>
      { x with hookAt := none }).kResume s.mem ⟨e, slotN slot, 0⟩).kern ⟨e, slotN slot, 0⟩);
      (t.hw.kern ⟨e, slotN slot, 0⟩) = (if k.st = 2
          then { seen := true, bank := k.bank, taskB := some (s.hw.reg (ck 0x064)) }
          else { k with run := false, taskB := some (s.hw.reg (ck 0x064)) })
      ∧ t.hw.dmRd t.mem e 7 = s.hw.dmRd s.mem e 7 + 1 ∧ (t.hw.hyt e).epend.getLsbD 15 = false
      ∧ (t.hw.hyt e).epend.getLsbD (16 * slotN slot + 13) = false
      ∧ (t.hw.hyt e).epend.getLsbD (16 * slotN slot + 14) = false) ∧
    ((s.hw.kSlots e).any (s.hw.kDue s.mem) = false → eng.owed = [] → ((((s.hw.at g).upHyt e fun x =>
      { x with hookAt := none }).kResume s.mem ⟨e, slotN slot, 0⟩).kern ⟨e, slotN slot, 0⟩).taskB ≠ some (s.hw.reg (ck 0x064)) →
      (((s.hw.at g).upHyt e fun x =>
      { x with hookAt := none }).kResume s.mem ⟨e, slotN slot, 0⟩).kWaits s.mem ⟨e, slotN slot, ((((s.hw.at g).upHyt e fun x => { x with hookAt := none }).kResume s.mem ⟨e, slotN slot, 0⟩).kern ⟨e, slotN slot, 0⟩).bank⟩
          = false → bitOf (s.hw.dmRd s.mem e (0x0100 + 0x0400 * slotN slot)) 0 = true →
      ((((s.hw.at g).upHyt e fun x =>
      { x with hookAt := none }).kResume s.mem ⟨e, slotN slot, 0⟩).kern ⟨e, slotN slot, 0⟩).st = 2 →
      Gives (.kernelBatchTask g e slot) s fun t =>
      (t.hw.kern ⟨e, slotN slot, 0⟩).run = ((((s.hw.at g).upHyt e fun x =>
      { x with hookAt := none }).kResume s.mem ⟨e, slotN slot, 0⟩).kern ⟨e, slotN slot, 0⟩).run
      ∧ (t.hw.kern ⟨e, slotN slot, 0⟩).taskB = some (s.hw.reg (ck 0x064))
      ∧ (t.hw.kern ⟨e, slotN slot, 0⟩).mode = min 2 (fld (s.hw.dmRd s.mem e (0x0100 + 0x0400
          * slotN slot)) 2 1) ∧ t.hw.dmRd t.mem e 7 = s.hw.dmRd s.mem e 7 + 1
      ∧ (t.hw.hyt e).epend.getLsbD 15 = false) ∧
    (∀ (b : Nat), (s.hw.kern ⟨e, slotN slot, 0⟩).st = 2 →
      s.hw.kbN s.mem ⟨e, slotN slot, (s.hw.kern ⟨e, slotN slot, 0⟩).bank⟩ 0x06 = b →
      eng.epend.getLsbD (16 * slotN slot + 3 * b) = true → slot = true → (s.hw.kSlots e).any (fun y =>
      y.s == 0 && s.hw.kDue s.mem y) = false → Gives (.kernelCurrentUpdate g e slot) s fun t =>
      (t.hw.kern ⟨e, slotN slot, 0⟩).updated = true ∧ t.hw.dmRd t.mem e (0x0100 + 0x0400 * slotN slot + 0x0C)
          = s.hw.dmRd s.mem e (0x0100 + 0x0400 * slotN slot + 0x0C) + 1 ∧ t.hw.dmRd t.mem e 8
          = BitVec.ofNat 32 (min (2 ^ 32 - 1) ((s.hw.dmRd s.mem e 8).toNat + tabGet 0 (16 * slotN slot + 3
          * b) eng.lost))) ∧
    ((s.hw.kern ⟨e, slotN slot, 0⟩).st ≠ 2 → Gives (.kernelCurrentUpdate g e slot) s fun t =>
      (t.hw.kern ⟨e, slotN slot, 0⟩) = (s.hw.kern ⟨e, slotN slot, 0⟩) ∧ t.hw.regs = s.hw.regs)

/-- In a PCLK cycle without a batch boundary, with mirroring off: a push of n segments to an enabled recipe profile
with the credits for them moves n from CREDITS to QUEUED, moves W_IDX on by n in the ring, and puts the n ring places
from W_IDX behind the queue; one of no segment or more than the credits is refused with reason 1; one to a master with
3; one to a profile above 135, off or geared with 2. START of an idle recipe profile with a queue, CT ready and T0 no
earlier than the next boundary arms it at its held position, with its idle followers; else it is refused: 1 not IDLE,
5 not a recipe leader, 3 no queue, 4 CT not ready, 2 T0 too early. FLUSH of an idle or failed profile gives its queue
back and leaves it IDLE; of a running one it is refused with 1. LOAD of an idle or failed profile sets the held
position, else it is refused with 1. CLEAR takes a profile that no armed leader waits for from ERROR to IDLE without
its code, its segments queued again; else it is refused with 1. Where CT has reached the end of the segment that waits
longest, it retires: QUEUED goes down by one and a credit is owed; before that nothing changes. Throughout, the die is
not held in reset. -/
def Obligations.ProfileCommands : Prop :=
  ∀ (s : State) (g : Nat), Live s →
    (∀ (v : Word), Unlocked s pPRF → s.hw.mirrorOn = false → fld v 23 16 < 128 →
      s.hw.pfEn (fld v 23 16) = true → s.hw.pfSrc (fld v 23 16) ≠ 2 → (s.hw.at g).boundaryInCycle = false →
      fld v 12 0 ≠ 0 → fld v 12 0 ≤ s.hw.credits (fld v 23 16) →
      s.hw.queued (fld v 23 16) + fld v 12 0 < 8192 → Gives (.push g v) s fun t =>
      t.hw.credits (fld v 23 16) = s.hw.credits (fld v 23 16) - fld v 12 0
      ∧ t.hw.queued (fld v 23 16) = s.hw.queued (fld v 23 16) + fld v 12 0
      ∧ t.hw.f (prStat (fld v 23 16)) 27 16 = (s.hw.f (prStat (fld v 23 16)) 27 16
          + fld v 12 0) % s.hw.pfCap (fld v 23 16) % 4096 ∧ (t.hw.prof (fld v 23 16)).queue.map (·.1)
          = (s.hw.prof (fld v 23 16)).queue.map (·.1) ++ (List.range (fld v 12 0)).map (fun i =>
      (s.hw.f (prStat (fld v 23 16)) 27 16 + i) % s.hw.pfCap (fld v 23 16))
      ∧ (t.hw.prof (fld v 23 16)).cur = (s.hw.prof (fld v 23 16)).cur) ∧
    (∀ (v : Word), Unlocked s pPRF → s.hw.mirrorOn = false → fld v 23 16 < 128 →
      s.hw.pfEn (fld v 23 16) = true → s.hw.pfSrc (fld v 23 16) ≠ 2 → (s.hw.at g).boundaryInCycle = false →
      fld v 12 0 = 0 ∨ s.hw.credits (fld v 23 16) < fld v 12 0 → Gives (.push g v) s fun t =>
      t.hw.f (ra pPRF 0x048) 1 0 = 1 ∧ t.hw.f (ra pPRF 0x048) 23 16 = (fld v 23 16)
      ∧ t.hw.bit (ra pPRF rEVT) 1 = true ∧ t.hw.prof (fld v 23 16) = s.hw.prof (fld v 23 16)
      ∧ t.hw.reg (prCred (fld v 23 16)) = s.hw.reg (prCred (fld v 23 16))) ∧
    (∀ (v : Word), Unlocked s pPRF → s.hw.mirrorOn = false → 128 ≤ fld v 23 16 → fld v 23 16 ≤ 135 →
      Gives (.push g v) s fun t => t.hw.f (ra pPRF 0x048) 1 0 = 3
      ∧ t.hw.f (ra pPRF 0x048) 23 16 = (fld v 23 16) ∧ t.hw.bit (ra pPRF rEVT) 1 = true
      ∧ t.hw.prof (fld v 23 16) = s.hw.prof (fld v 23 16)) ∧
    (∀ (v : Word), Unlocked s pPRF → s.hw.mirrorOn = false → 135 < (fld v 23 16) ∨ ((fld v 23 16) < 128
      ∧ (s.hw.pfEn (fld v 23 16) = false ∨ s.hw.pfSrc (fld v 23 16) = 2)) → Gives (.push g v) s fun t =>
      t.hw.f (ra pPRF 0x048) 1 0 = 2 ∧ t.hw.f (ra pPRF 0x048) 23 16 = (fld v 23 16)
      ∧ t.hw.bit (ra pPRF rEVT) 1 = true ∧ t.hw.prof (fld v 23 16) = s.hw.prof (fld v 23 16)) ∧
    (∀ (f : Fin 136), Unlocked s pPRF → s.hw.mirrorOn = false → s.hw.pfState s.hw.pfSel = 1 →
      s.hw.pfSrc s.hw.pfSel = 0 → s.hw.queued s.hw.pfSel ≠ 0 → (s.hw.prof s.hw.pfSel).segs = [] →
      s.hw.bit (ck rREADY) 2 = true →
      (s.hw.at g).nextInstantFrom ≤ (s.hw.reg64 (prfWin s.hw.pfSel 0x090)).toNat →
      Gives (.profileStart g) s fun t => t.hw.pfState s.hw.pfSel = 2 ∧ (t.hw.prof s.hw.pfSel).cur
          = some (virtSeg (s.hw.reg64 (prfWin s.hw.pfSel 0x090)).toNat (s.hw.prof s.hw.pfSel).held)
      ∧ (t.hw.prof s.hw.pfSel).queue = (s.hw.prof s.hw.pfSel).queue
      ∧ t.hw.reg (prCred s.hw.pfSel) = s.hw.reg (prCred s.hw.pfSel) ∧ ((s.hw.pfEn f = true ∧ s.hw.pfSrc f = 1
      ∧ s.hw.pfLeader f = s.hw.pfSel ∧ s.hw.pfState f = 1) → t.hw.pfState f = 2
      ∧ (t.hw.prof f).cur = some (virtSeg (s.hw.reg64 (prfWin s.hw.pfSel 0x090)).toNat (s.hw.prof f).held))) ∧
    (∀ (why : Nat), Unlocked s pPRF → s.hw.mirrorOn = false → why = (if s.hw.pfState s.hw.pfSel ≠ 1 then 1 else
          if s.hw.pfSrc s.hw.pfSel ≠ 0 then 5 else if s.hw.queued s.hw.pfSel = 0 then 3 else
          if s.hw.bit (ck rREADY) 2 = false then 4 else if (s.hw.reg64 (prfWin s.hw.pfSel 0x090)).toNat
          < (s.hw.at g).nextInstantFrom then 2 else 0) → why ≠ 0 → Gives (.profileStart g) s fun t =>
      t.hw.f (ra pPRF 0x050) 2 0 = why ∧ t.hw.bit (ra pPRF rEVT) 2 = true
      ∧ t.hw.pfState s.hw.pfSel = s.hw.pfState s.hw.pfSel ∧ t.hw.prof s.hw.pfSel = s.hw.prof s.hw.pfSel) ∧
    (Unlocked s pPRF → s.hw.mirrorOn = false → s.hw.pfState s.hw.pfSel = 1 ∨ s.hw.pfState s.hw.pfSel = 4 →
      s.hw.pfSrc s.hw.pfSel ≠ 2 → s.hw.credits s.hw.pfSel + s.hw.queued s.hw.pfSel < 8192 → s.hw.pfSel < 136 →
      Gives (.profileFlush g) s fun t => t.hw.pfState s.hw.pfSel = 1 ∧ t.hw.queued s.hw.pfSel = 0
      ∧ t.hw.credits s.hw.pfSel = s.hw.credits s.hw.pfSel + s.hw.queued s.hw.pfSel
      ∧ (t.hw.prof s.hw.pfSel).queue = [] ∧ (t.hw.prof s.hw.pfSel).segs = []
      ∧ (t.hw.prof s.hw.pfSel).held = (s.hw.prof s.hw.pfSel).held) ∧
    (Unlocked s pPRF → s.hw.mirrorOn = false → s.hw.pfState s.hw.pfSel ≠ 1 → s.hw.pfState s.hw.pfSel ≠ 2 →
      s.hw.pfState s.hw.pfSel ≠ 4 → Gives (.profileFlush g) s fun t => t.hw.f (ra pPRF 0x050) 2 0 = 1
      ∧ t.hw.bit (ra pPRF rEVT) 2 = true ∧ t.hw.prof s.hw.pfSel = s.hw.prof s.hw.pfSel
      ∧ t.hw.reg (prCred s.hw.pfSel) = s.hw.reg (prCred s.hw.pfSel)) ∧
    (Unlocked s pPRF → s.hw.mirrorOn = false → s.hw.pfState s.hw.pfSel = 1 ∨ s.hw.pfState s.hw.pfSel = 4 →
      Gives (.profileLoad g) s fun t => (t.hw.prof s.hw.pfSel).held = s.hw.reg64 (prfWin s.hw.pfSel 0x098)
      ∧ (t.hw.prof s.hw.pfSel).queue = (s.hw.prof s.hw.pfSel).queue
      ∧ t.hw.pfState s.hw.pfSel = s.hw.pfState s.hw.pfSel) ∧
    (Unlocked s pPRF → s.hw.mirrorOn = false → s.hw.pfState s.hw.pfSel ≠ 1 → s.hw.pfState s.hw.pfSel ≠ 4 →
      Gives (.profileLoad g) s fun t => t.hw.f (ra pPRF 0x050) 2 0 = 1 ∧ t.hw.bit (ra pPRF rEVT) 2 = true
      ∧ t.hw.prof s.hw.pfSel = s.hw.prof s.hw.pfSel) ∧
    (Unlocked s pPRF → s.hw.mirrorOn = false → s.hw.pfState s.hw.pfSel = 4 → s.hw.pfSrc s.hw.pfSel = 0
      ∨ s.hw.pfState (s.hw.pfLeader s.hw.pfSel) ≠ 2 → s.hw.pfSel < 136 → Gives (.profileClear g) s fun t =>
      t.hw.pfState s.hw.pfSel = 1 ∧ t.hw.f (prStat s.hw.pfSel) 11 8 = 0 ∧ (t.hw.prof s.hw.pfSel).segs = []
      ∧ (t.hw.prof s.hw.pfSel).queue.map (·.1) = (s.hw.prof s.hw.pfSel).segs.map (·.off)
          ++ (s.hw.prof s.hw.pfSel).queue.map (·.1)
      ∧ (t.hw.prof s.hw.pfSel).held = (s.hw.prof s.hw.pfSel).held) ∧
    (Unlocked s pPRF → s.hw.mirrorOn = false → s.hw.pfState s.hw.pfSel ≠ 4 → Gives (.profileClear g) s fun t =>
      t.hw.f (ra pPRF 0x050) 2 0 = 1 ∧ t.hw.bit (ra pPRF rEVT) 2 = true
      ∧ t.hw.prof s.hw.pfSel = s.hw.prof s.hw.pfSel) ∧
    (∀ (p : Fin 136) (fin : Nat) (rest : List Nat), (s.hw.prof p).unret = fin :: rest →
      fin ≤ (s.hw.at g).ctGrains (max s.hw.grain g) → s.hw.bit (prCred p) 15 = false →
      Gives (.segmentRetire g p) s fun t => t.hw.queued p = s.hw.queued p - 1 ∧ t.hw.bit (prCred p) 15 = true
      ∧ (t.hw.prof p).unret = rest ∧ (t.hw.prof p).retGrain = max s.hw.grain g
      ∧ t.hw.credits p = s.hw.credits p) ∧
    (∀ (p : Fin 136), (s.hw.prof p).unret = [] ∨ (s.hw.prof p).unret.head?.any (fun e =>
      decide ((s.hw.at g).ctGrains (max s.hw.grain g) < e)) = true → Gives (.segmentRetire g p) s fun t =>
      t.hw.prof p = s.hw.prof p ∧ t.hw.reg (prCred p) = s.hw.reg (prCred p))

/-- A feed of an idle master whose number has not been set, with a credit, from firmware on a local master, takes the
segment at W_IDX: one credit moves to the queue and NEXT_SEQ becomes its number plus 1; one to a master that takes
network feeds is refused with reason 4, and one at a number before NEXT_SEQ only counts as a duplicate. REJOIN of a
master that does not coast, or at an instant off the batch grid, is refused with reason 1 or 2; at a grid instant two
batches on it is taken. CHECK sets BUSY; its end clears BUSY and sets VALID or the first failing rule's ERR. A REJOIN
of the same cycle that waits behind a feed acts before it, and when its turn comes does nothing more. CAM.NEXT takes a
valid table and waits for the wrap unless it is the current one. Throughout, the die is not held in reset; no command
that waits goes first where commands of one cycle have an order. -/
def Obligations.LineShaftCommands : Prop :=
  ∀ (s : State) (g : Nat) (m : BitVec 3), Live s →
    (Alone s g → Unlocked s pLSH → s.hw.mirrorOn = false → s.hw.pfState (128 + m.toNat) = 1 →
      s.hw.bit (ls (0x040 + 4 * m.toNat)) 1 = false → s.hw.bit (mStat m.toNat) 1 = false →
      (s.hw.at g).boundaryInCycle = false → s.hw.credits (128 + m.toNat) ≠ 0 →
      s.hw.queued (128 + m.toNat) < 8191 → s.hw.wbuf = [] → Gives (.masterFeed g m) s fun t =>
      t.hw.credits (128 + m.toNat) = s.hw.credits (128 + m.toNat) - 1
      ∧ t.hw.queued (128 + m.toNat) = s.hw.queued (128 + m.toNat) + 1 ∧ t.hw.bit (mStat m.toNat) 1 = true
      ∧ t.hw.f (mStat m.toNat) 31 16
          = ((fld (s.hw.rd32 s.mem ((slotAddr (s.hw.pfBase (128 + m.toNat) + s.hw.f (prStat (128 + m.toNat)) 27 16)) + 20)) 15 0)
          + 1) % 65536) ∧
    (Alone s g → Unlocked s pLSH → s.hw.mirrorOn = false → s.hw.bit (ls (0x040 + 4 * m.toNat)) 1 = true →
      s.hw.wbuf = [] → Gives (.masterFeed g m) s fun t => t.hw.f (ls 0x0F0) 2 0 = 4
      ∧ t.hw.f (ls 0x0F0) 26 24 = m.toNat ∧ t.hw.f (ls 0x0F0) 23 8
          = (fld (s.hw.rd32 s.mem ((slotAddr (s.hw.pfBase (128 + m.toNat) + s.hw.f (prStat (128 + m.toNat)) 27 16))
          + 20)) 15 0) ∧ t.hw.bit (ls rEVT) 1 = true ∧ t.hw.prof (128 + m.toNat) = s.hw.prof (128 + m.toNat)
      ∧ t.hw.reg (prCred (128 + m.toNat)) = s.hw.reg (prCred (128 + m.toNat))) ∧
    (Alone s g → Unlocked s pLSH → s.hw.mirrorOn = false → s.hw.pfState (128 + m.toNat) = 1 →
      s.hw.bit (ls (0x040 + 4 * m.toNat)) 1 = false → s.hw.bit (mStat m.toNat) 1 = true → s.hw.wbuf = [] →
      (fld (s.hw.rd32 s.mem ((slotAddr (s.hw.pfBase (128 + m.toNat) + s.hw.f (prStat (128 + m.toNat)) 27 16))
          + 20)) 15 0) + 1 = s.hw.f (mStat m.toNat) 31 16 → Gives (.masterFeed g m) s fun t =>
      t.hw.f (ls (0x080 + 4 * m.toNat)) 31 16 = min (s.hw.f (ls (0x080 + 4 * m.toNat)) 31 16 + 1) 0xFFFF
      ∧ t.hw.prof (128 + m.toNat) = s.hw.prof (128 + m.toNat)
      ∧ t.hw.reg (mStat m.toNat) = s.hw.reg (mStat m.toNat)) ∧
    (Alone s g → Unlocked s pLSH → s.hw.mirrorOn = false → s.hw.bit (mStat m.toNat) 0 = false →
      Gives (.rejoin g m) s fun t => t.hw.f (ls 0x0E4) 17 16 = 1 ∧ t.hw.bit (ls rEVT) 8 = true
      ∧ t.hw.prof (128 + m.toNat) = s.hw.prof (128 + m.toNat)) ∧
    (Alone s g → Unlocked s pLSH → s.hw.mirrorOn = false → s.hw.bit (mStat m.toNat) 0 = true →
      (s.hw.reg64 (ls 0x0E8)).toNat % s.hw.batch ≠ 0 → Gives (.rejoin g m) s fun t =>
      t.hw.f (ls 0x0E4) 17 16 = 2 ∧ t.hw.bit (ls rEVT) 8 = true
      ∧ t.hw.prof (128 + m.toNat) = s.hw.prof (128 + m.toNat)) ∧
    (Alone s g → Unlocked s pLSH → s.hw.mirrorOn = false → s.hw.bit (mStat m.toNat) 0 = true →
      (s.hw.reg64 (ls 0x0E8)).toNat % s.hw.batch = 0 →
      (s.hw.at g).ctGrains (max s.hw.grain g / 5 * 5 + 4) + 2 * s.hw.batch ≤ (s.hw.reg64 (ls 0x0E8)).toNat →
      Gives (.rejoin g m) s fun t => (t.hw.prof (128 + m.toNat)).rejoin = some (s.hw.reg64 (ls 0x0E8)).toNat
      ∧ t.hw.reg64 (mWend m.toNat) = s.hw.reg64 (ls 0x0E8)
      ∧ (t.hw.prof (128 + m.toNat)).cur = (s.hw.prof (128 + m.toNat)).cur) ∧
    (s.hw.early = [.rejoin g m] → Gives (.rejoin g m) s fun t => t.hw.early = [] ∧ t.hw.regs = s.hw.regs
      ∧ t.hw.prf = s.hw.prf ∧ t.mem = s.mem) ∧
    (∀ (r : Nat) (n : BitVec 3), Unlocked s pLSH → s.hw.mirrorOn = false → s.hw.early = [] →
      s.pending = [.rejoin r n] → max s.hw.grain r / 5 = max s.hw.grain g / 5 → r / 5 = max s.hw.grain g / 5 →
      s.hw.bit (mStat n.toNat) 0 = false → Gives (.masterFeed g m) s fun t => t.hw.early = [.rejoin r n]
      ∧ t.hw.f (ls 0x0E4) 17 16 = 1 ∧ t.hw.bit (ls rEVT) 8 = true) ∧
    (∀ (i : Fin 16), Unlocked s pLSH → Gives (.camCheck g i) s fun t => t.hw.bit (cm i 12) 1 = true
      ∧ t.hw.bit (cm i 12) 0 = s.hw.bit (cm i 12) 0) ∧
    (∀ (i : Fin 16), s.hw.bit (cm i 12) 1 = true → (s.hw.at g).camCheck s.mem i = 0 →
      Gives (.camCheckDone g i) s fun t => t.hw.bit (cm i 12) 1 = false ∧ t.hw.bit (cm i 12) 0 = true
      ∧ t.hw.f (cm i 12) 11 8 = 0) ∧
    (∀ (i : Fin 16) (err : Nat), s.hw.bit (cm i 12) 1 = true → (s.hw.at g).camCheck s.mem i = err → err ≠ 0 →
      Gives (.camCheckDone g i) s fun t => t.hw.bit (cm i 12) 1 = false ∧ t.hw.bit (cm i 12) 0 = false
      ∧ t.hw.f (cm i 12) 11 8 = err ∧ t.hw.bit (ls rEVT) 5 = true) ∧
    (∀ (u : Fin 32) (i : BitVec 4), Unlocked s pLSH → s.hw.bit (cm i.toNat 12) 0 = true →
      Gives (.camNextWrite g u i) s fun t => t.hw.f (gr u 0x38) 11 8 = i.toNat
      ∧ t.hw.bit (gr u 0x38) 16 = decide (i.toNat ≠ s.hw.f (gr u 0x38) 3 0)
      ∧ t.hw.f (gr u 0x38) 3 0 = s.hw.f (gr u 0x38) 3 0) ∧
    (∀ (u : Fin 32) (i : BitVec 4), Unlocked s pLSH → s.hw.bit (cm i.toNat 12) 0 = false →
      Gives (.camNextWrite g u i) s fun t => t.hw.reg (gr u 0x38) = s.hw.reg (gr u 0x38)
      ∧ t.hw.bit (ls rEVT) 0 = true)

/-- ENABLE in OFF with every condition met sets ENABLE of the used legs, HOLD_POS and STARTING; outside OFF it is
refused with reason 1. START_T after the last leg started, STARTING becomes RUNNING. STOP and QSTOP in RUNNING start a
ramp to rest at STOP_DEC or QSTOP_DEC in STOPPING; in STARTING they give HOLDING; in OFF they are refused. RESUME in
HOLDING with no code gives RUNNING, refused elsewhere. DISABLE gives OFF (FAULT with a code) with no leg enabled.
RESET ends FAULT where no latched fault or halted engine remains. An engine fault code from 0x10 to 0x7F faults the
axis with reaction OFF; other codes do nothing. LEG_SKIP is taken in OFF and FAULT. Throughout, the die is not held in
reset. -/
def Obligations.AxisCommands : Prop :=
  ∀ (s : State) (g : Nat) (a : Fin 32) (n : Fin 96), Live s →
    (Unlocked s (pAX a) → s.hw.mirrorOn = false → s.hw.axEnableReason a = 0 →
      (s.hw.axUsedLegs a).all s.hw.legMayEnable = true → Gives (.axEnable g a) s fun t =>
      t.hw.axState a = sSTARTING ∧ t.hw.reg64 (axr a 0x098) = s.hw.pfHeld (s.hw.axProf a)
      ∧ (n.val ∈ s.hw.axUsedLegs a → t.hw.legEnabled n = true)) ∧
    (Unlocked s (pAX a) → s.hw.mirrorOn = false → s.hw.axState a ≠ sOFF → Gives (.axEnable g a) s fun t =>
      t.hw.f (axr a 0x048) 3 0 = 1 ∧ t.hw.bit (axr a rEVT) 1 = true ∧ t.hw.axState a = s.hw.axState a
      ∧ t.hw.axis a = s.hw.axis a ∧ t.hw.leg n = s.hw.leg n) ∧
    (s.hw.axState a = sSTARTING → (s.hw.axUsedLegs a).all (fun k => (s.hw.leg k).running) = true →
      ((s.hw.axUsedLegs a).map fun k =>
      (s.hw.leg k).startedAt).foldl max 0 + s.hw.f (axr a 0x05C) 23 0 ≤ max s.hw.grain g →
      Gives (.axStartTimeExpiry g a) s fun t => t.hw.axState a = sRUNNING ∧ t.hw.bit (axr a rSTAT) 3 = false
      ∧ (t.hw.axis a).ramp = none ∧ t.hw.leg n = s.hw.leg n) ∧
    (Unlocked s (pAX a) → s.hw.mirrorOn = false → s.hw.axState a = sRUNNING → Gives (.axStop g a) s fun t =>
      t.hw.axState a = sSTOPPING ∧ (t.hw.axis a).ramp.map (fun r =>
      (r.dec, r.vt)) = some (max 1 (s.hw.reg (axr a 0x050)).toNat, 0) ∧ (t.hw.axis a).thenDo = .hold
      ∧ t.hw.leg n = s.hw.leg n) ∧
    (Unlocked s (pAX a) → s.hw.mirrorOn = false → s.hw.axState a = sRUNNING → Gives (.axQstop g a) s fun t =>
      t.hw.axState a = sSTOPPING ∧ (t.hw.axis a).ramp.map (fun r =>
      (r.dec, r.vt)) = some (max 1 (s.hw.reg (axr a 0x054)).toNat, 0) ∧ (t.hw.axis a).thenDo = .hold
      ∧ t.hw.leg n = s.hw.leg n) ∧
    (Unlocked s (pAX a) → s.hw.mirrorOn = false → s.hw.axState a = sSTARTING → Gives (.axStop g a) s fun t =>
      t.hw.axState a = sHOLDING ∧ t.hw.leg n = s.hw.leg n) ∧
    (Unlocked s (pAX a) → s.hw.mirrorOn = false → s.hw.axState a = sOFF → Gives (.axStop g a) s fun t =>
      t.hw.f (axr a 0x048) 3 0 = 1 ∧ t.hw.bit (axr a rEVT) 1 = true ∧ t.hw.axState a = s.hw.axState a
      ∧ t.hw.axis a = s.hw.axis a ∧ t.hw.leg n = s.hw.leg n) ∧
    (Unlocked s (pAX a) → s.hw.mirrorOn = false → s.hw.axState a = sHOLDING → s.hw.f (axr a 0x0A4) 7 0 = 0 →
      s.hw.pfSrc (s.hw.axProf a) ≠ 2 → Gives (.axResume g a) s fun t => t.hw.axState a = sRUNNING
      ∧ (t.hw.axis a).ramp = none ∧ t.hw.bit (axr a rSTAT) 3 = false ∧ t.hw.leg n = s.hw.leg n) ∧
    (Unlocked s (pAX a) → s.hw.mirrorOn = false → s.hw.axState a ≠ sHOLDING → Gives (.axResume g a) s fun t =>
      t.hw.f (axr a 0x048) 3 0 = 1 ∧ t.hw.bit (axr a rEVT) 1 = true ∧ t.hw.axState a = s.hw.axState a
      ∧ t.hw.axis a = s.hw.axis a ∧ t.hw.leg n = s.hw.leg n) ∧
    (Unlocked s (pAX a) → s.hw.mirrorOn = false → s.hw.axState a ≠ sFAULT → Gives (.axDisable g a) s fun t =>
      t.hw.axState a = (if s.hw.f (axr a 0x0A4) 7 0 = 0 then sOFF else sFAULT) ∧ (n.val ∈ s.hw.axisLegs a →
      t.hw.legEnabled n = false ∧ (t.hw.leg n).running = false) ∧ t.hw.bit (axr a rSTAT) 3 = false) ∧
    (Unlocked s (pAX a) → s.hw.mirrorOn = false → s.hw.axState a = sFAULT → s.hw.anyLatched a = false →
      s.hw.axEngineHalted a = false → Gives (.axReset g a) s fun t => t.hw.axState a = sOFF
      ∧ t.hw.f (axr a 0x0A4) 9 0 = 0 ∧ t.hw.leg n = s.hw.leg n) ∧
    (Unlocked s (pAX a) → s.hw.mirrorOn = false → s.hw.axState a = sFAULT → s.hw.anyLatched a = true →
      Gives (.axReset g a) s fun t => t.hw.f (axr a 0x048) 3 0 = 7 ∧ t.hw.bit (axr a rEVT) 1 = true
      ∧ t.hw.axState a = s.hw.axState a ∧ t.hw.axis a = s.hw.axis a ∧ t.hw.leg n = s.hw.leg n) ∧
    (∀ (v : Word), Unlocked s (pAX a) → 0x10 ≤ fld v 7 0 → fld v 7 0 ≤ 0x7F → s.hw.f (axr a 0x0A4) 7 0 = 0 →
      Gives (.engFaultWrite g a v) s fun t => t.hw.axState a = sFAULT ∧ t.hw.f (axr a 0x0A4) 7 0 = fld v 7 0
      ∧ t.hw.f (axr a 0x0A4) 9 8 = 3 ∧ t.hw.f (axr a 0x0A0) 7 0 = fld v 7 0 ∧ t.hw.bit (axr a rEVT) 2 = true
      ∧ (n.val ∈ s.hw.axisLegs a → t.hw.legEnabled n = false)) ∧
    (∀ (v : Word), Unlocked s (pAX a) → fld v 7 0 < 0x10 ∨ 0x7F < fld v 7 0 →
      Gives (.engFaultWrite g a v) s fun t => t.hw.axState a = s.hw.axState a
      ∧ t.hw.reg (axr a 0x0A4) = s.hw.reg (axr a 0x0A4) ∧ t.hw.leg n = s.hw.leg n) ∧
    (∀ (v : Word), Unlocked s (pAX a) → s.hw.axState a = sOFF ∨ s.hw.axState a = sFAULT →
      Gives (.axLegSkipWrite g a v) s fun t => t.hw.f (axr a 0x0AC) 11 0 = fld v 11 0
      ∧ t.hw.axState a = s.hw.axState a) ∧
    (∀ (v : Word), Unlocked s (pAX a) → s.hw.axState a ≠ sOFF → s.hw.axState a ≠ sFAULT →
      Gives (.axLegSkipWrite g a v) s fun t => t.hw.reg (axr a 0x0AC) = s.hw.reg (axr a 0x0AC)
      ∧ t.hw.bit (axr a rEVT) 0 = true)

/-- A run of a limit source's active level that has stood for LIM_FILT, on an axis in HOLDING whose limit was inactive
and not latched, latches it: the STAT bit, its position (the count at the run's time-stamp), the counter and
EVT.LIMIT; a wall stands at the last released position. An inactive level that has stood makes an unlatched limit
inactive and changes no state. A level that differs from the accepted one and has not stood counts as chatter while
latched, else it changes nothing, as does a level that is the accepted one or that the source cannot show. A latched
limit whose input is inactive and that lies LIM_CLEAR counts back releases with its wall; before that nothing changes.
A home level that has stood is shown in STAT. HOME by method 0 from HOLDING takes the present count as reference and
loads at the next boundary; in a state that does not allow it, it is refused with reason 1. Throughout, the die is not
held in reset. -/
def Obligations.LimitsAndHoming : Prop :=
  ∀ (s : State) (g : Nat) (a : Fin 32) (n : Fin 96), Live s →
    (∀ (neg level : Bool) (first : Nat), s.hw.limShows a (if neg then 1 else 0) level = true →
      first + 500 * s.hw.f (axr a 0x068) 15 0 ≤ max s.hw.grain g →
      s.hw.limActive a (if neg then 1 else 0) level = true →
      (if neg then (s.hw.axis a).accN else (s.hw.axis a).accP) = false →
      s.hw.bit (axr a rSTAT) (if neg then 5 else 4) = false → s.hw.axState a = sHOLDING →
      Gives (.limitAccepted g a neg level first) s fun t =>
      t.hw.bit (axr a rSTAT) (if neg then 5 else 4) = true ∧ t.hw.reg (axr a (if neg then 0x074 else 0x070))
          = BitVec.ofInt 32 (s.hw.axRawAt a (s.hw.limStamp a (if neg then 1 else 0) first))
      ∧ t.hw.f (axr a 0x078) 15 0 = min (s.hw.f (axr a 0x078) 15 0 + 1) 0xFFFF
      ∧ t.hw.bit (axr a rEVT) 4 = true
      ∧ (if neg then (t.hw.axis a).wallN else (t.hw.axis a).wallP) = some (s.hw.axRel a).pos
      ∧ t.hw.axState a = sHOLDING) ∧
    (∀ (neg level : Bool) (first : Nat), s.hw.limShows a (if neg then 1 else 0) level = true →
      first + 500 * s.hw.f (axr a 0x068) 15 0 ≤ max s.hw.grain g →
      s.hw.limActive a (if neg then 1 else 0) level = false →
      (if neg then (s.hw.axis a).accN else (s.hw.axis a).accP) = true →
      s.hw.bit (axr a rSTAT) (if neg then 5 else 4) = false → s.hw.axState a ≠ sHOMING →
      Gives (.limitAccepted g a neg level first) s fun t => t.hw.reg (axr a rSTAT) = s.hw.reg (axr a rSTAT)
      ∧ (if neg then (t.hw.axis a).accN else (t.hw.axis a).accP) = false ∧ t.hw.leg n = s.hw.leg n) ∧
    (∀ (neg level : Bool) (first : Nat), s.hw.limShows a (if neg then 1 else 0) level = true →
      max s.hw.grain g < first + 500 * s.hw.f (axr a 0x068) 15 0 → s.hw.limActive a (if neg then 1
          else 0) level ≠ (if neg then (s.hw.axis a).accN else (s.hw.axis a).accP) →
      s.hw.bit (axr a rSTAT) (if neg then 5 else 4) = true →
      Gives (.limitAccepted g a neg level first) s fun t =>
      t.hw.f (axr a 0x078) 31 16 = min (s.hw.f (axr a 0x078) 31 16 + 1) 0xFFFF
      ∧ t.hw.bit (axr a rSTAT) (if neg then 5 else 4) = true ∧ t.hw.axis a = s.hw.axis a) ∧
    (∀ (neg level : Bool) (first : Nat), s.hw.limShows a (if neg then 1 else 0) level = true →
      max s.hw.grain g < first + 500 * s.hw.f (axr a 0x068) 15 0 →
      s.hw.bit (axr a rSTAT) (if neg then 5 else 4) = false →
      Gives (.limitAccepted g a neg level first) s fun t => t.hw.axis a = s.hw.axis a ∧ t.hw.regs = s.hw.regs) ∧
    (∀ (neg level : Bool) (first : Nat), s.hw.limShows a (if neg then 1 else 0) level = false
      ∨ s.hw.limActive a (if neg then 1 else 0) level = (if neg then (s.hw.axis a).accN
          else (s.hw.axis a).accP) → Gives (.limitAccepted g a neg level first) s fun t =>
      t.hw.axis a = s.hw.axis a ∧ t.hw.regs = s.hw.regs) ∧
    (∀ (neg : Bool), s.hw.limReleases a neg = true → Gives (.limitRelease g a neg) s fun t =>
      t.hw.bit (axr a rSTAT) (if neg then 5 else 4) = false
      ∧ (if neg then (t.hw.axis a).wallN else (t.hw.axis a).wallP) = none ∧ t.hw.axState a = s.hw.axState a
      ∧ t.hw.leg n = s.hw.leg n) ∧
    (∀ (neg : Bool), s.hw.limReleases a neg = false → Gives (.limitRelease g a neg) s fun t =>
      t.hw.regs = s.hw.regs ∧ t.hw.axis a = s.hw.axis a) ∧
    (∀ (level : Bool) (first : Nat), s.hw.limShows a 2 level = true →
      first + 500 * s.hw.f (axr a 0x068) 15 0 ≤ max s.hw.grain g →
      s.hw.limActive a 2 level ≠ (s.hw.axis a).accH → s.hw.axState a ≠ sHOMING →
      Gives (.homeLevelAccepted g a level first) s fun t =>
      t.hw.bit (axr a rSTAT) 8 = s.hw.limActive a 2 level ∧ (t.hw.axis a).accH = s.hw.limActive a 2 level
      ∧ t.hw.axState a = s.hw.axState a ∧ t.hw.leg n = s.hw.leg n) ∧
    (∀ (level : Bool) (first : Nat), s.hw.limShows a 2 level = false
      ∨ max s.hw.grain g < first + 500 * s.hw.f (axr a 0x068) 15 0
      ∨ s.hw.limActive a 2 level = (s.hw.axis a).accH → Gives (.homeLevelAccepted g a level first) s fun t =>
      t.hw.regs = s.hw.regs ∧ t.hw.axis a = s.hw.axis a) ∧
    (Unlocked s (pAX a) → s.hw.mirrorOn = false → s.hw.axState a = sHOLDING → s.hw.f (axr a 0x0A4) 7 0 = 0 →
      s.hw.axIdle a = true → s.hw.f (axr a 0x07C) 2 0 = 0 → s.hw.homeCfgOk a = true →
      Gives (.axHome g a) s fun t => t.hw.axState a = sHOMING ∧ (t.hw.axis a).load = true
      ∧ t.hw.reg (axr a 0x094) = BitVec.ofInt 32 (s.hw.axRaw a)
      ∧ t.hw.reg64 (axr a 0x098) = s.hw.reg64 (axr a 0x098) ∧ t.hw.leg n = s.hw.leg n) ∧
    (Unlocked s (pAX a) → s.hw.mirrorOn = false → s.hw.axState a ≠ sHOLDING → s.hw.axState a ≠ sOFF →
      Gives (.axHome g a) s fun t => t.hw.f (axr a 0x048) 3 0 = 1 ∧ t.hw.bit (axr a rEVT) 1 = true
      ∧ t.hw.axState a = s.hw.axState a ∧ t.hw.axis a = s.hw.axis a ∧ t.hw.leg n = s.hw.leg n)

/-- Conditions that recur: the message acts on the domain, its version, transport and domain number being those set,
and on a SLAVE counter a Sync is taken from the master in force where it is capable and the Sync is not stamped before
a step. A one-step Sync so taken that is no extra one, with a positive interval since the last and an offset not
beyond the threshold, records the offset (ingress stamp less origin, correction, mean delay and asymmetry), keeps the
counter continuous at this grain and gives it the increment of the servo, within 500 ppm; one beyond the threshold
steps the counter by the offset, keeps the increment and counts. An extra Sync only counts. A two-step Sync waits, and
its Follow_Up of the same master, number and port serves as it; another changes nothing. The answer to the last
request by the chosen mechanism is a measurement of twice the delay, recorded as the newest of 16, with the mean
shown, a two-step peer answer only at its follow-up; an answer by the other mechanism is ignored. The first Announce
of a SLAVE domain gives the master, a better one from another replaces it, a worse one is only heard. When 3 intervals
of the last Announce of the only master heard have passed, an Announce timeout takes it; before that it does nothing.
When LOSS_N intervals since the last Sync have passed, a Sync-loss timeout takes the lock; before that it does
nothing. In all of it the domain's count goes on. Throughout, the die is not held in reset; no load is shed where a
link, an acquisition or a safety wire acts. -/
def Obligations.NetworkTimeServo : Prop :=
  ∀ (s : State) (g : Nat) (b : Bool), Live s →
    (∀ (m : PtpMsg), Unshed s → s.hw.syncTaken b m = true →
      s.hw.syncExtra b m (s.hw.ingress b (domPort b m.hdr.secondPort) m.stamp) = false → m.twoStep = false →
      0 < ((s.hw.dom b).t1.elim (annInterval m.logInterval) fun p =>
      ((m.origin : Int) + m.hdr.correction) - p) → s.hw.f (dmr b 0x10) 15 0 = 0
      ∨ (((s.hw.ingress b (domPort b m.hdr.secondPort) m.stamp) - ((m.origin : Int) + m.hdr.correction)
          - s.hw.domDelay b - s.hw.asym (domPort b (s.hw.dom b).port)).natAbs : Int)
          ≤ (s.hw.f (dmr b 0x10) 15 0 : Int) * 1000 * 65536 → Gives (.ptpSync g b m) s fun t =>
      (t.hw.dom b).t1 = some ((m.origin : Int) + m.hdr.correction)
      ∧ (t.hw.dom b).used = some (s.hw.ingress b (domPort b m.hdr.secondPort) m.stamp)
      ∧ (t.hw.dom b).base = (s.hw.dom b).at (max s.hw.grain g) ∧ (t.hw.dom b).baseGrain = (max s.hw.grain g)
      ∧ (t.hw.dom b).inc = ((s.hw.at g).servoInc b ((s.hw.ingress b (domPort b m.hdr.secondPort) m.stamp)
          - ((m.origin : Int) + m.hdr.correction) - s.hw.domDelay b
          - s.hw.asym (domPort b (s.hw.dom b).port)) ((s.hw.dom b).t1.elim (annInterval m.logInterval) fun p =>
      ((m.origin : Int) + m.hdr.correction) - p).toNat).inc ∧ incMin ≤ (t.hw.dom b).inc
      ∧ (t.hw.dom b).inc ≤ incMax ∧ t.hw.reg (dmr b 0x14)
          = ns8 16 ((s.hw.ingress b (domPort b m.hdr.secondPort) m.stamp) - ((m.origin : Int)
          + m.hdr.correction) - s.hw.domDelay b - s.hw.asym (domPort b (s.hw.dom b).port))) ∧
    (∀ (m : PtpMsg), Unshed s → s.hw.syncTaken b m = true →
      s.hw.syncExtra b m (s.hw.ingress b (domPort b m.hdr.secondPort) m.stamp) = false → m.twoStep = false →
      0 < ((s.hw.dom b).t1.elim (annInterval m.logInterval) fun p =>
      ((m.origin : Int) + m.hdr.correction) - p) → s.hw.f (dmr b 0x10) 15 0 ≠ 0 →
      (s.hw.f (dmr b 0x10) 15 0 : Int) * 1000 * 65536
          < (((s.hw.ingress b (domPort b m.hdr.secondPort) m.stamp) - ((m.origin : Int) + m.hdr.correction)
          - s.hw.domDelay b - s.hw.asym (domPort b (s.hw.dom b).port)).natAbs : Int) →
      Gives (.ptpSync g b m) s fun t => (t.hw.dom b).baseGrain = (max s.hw.grain g) ∧ (t.hw.dom b).base
          = (((s.hw.dom b).at (max s.hw.grain g) : Int)
          - ((s.hw.ingress b (domPort b m.hdr.secondPort) m.stamp) - ((m.origin : Int) + m.hdr.correction)
          - s.hw.domDelay b - s.hw.asym (domPort b (s.hw.dom b).port)) * 65536).toNat
      ∧ (t.hw.dom b).stepAt = some (max s.hw.grain g) ∧ (t.hw.dom b).inc = (s.hw.dom b).inc
      ∧ t.hw.reg (dmr b 0x14) = ns8 16 ((s.hw.ingress b (domPort b m.hdr.secondPort) m.stamp)
          - ((m.origin : Int) + m.hdr.correction) - s.hw.domDelay b - s.hw.asym (domPort b (s.hw.dom b).port))
      ∧ t.hw.bit (nt rEVT) (7 + dn b) = true
      ∧ t.hw.f (dmr b 0x2C) 31 24 = min (s.hw.f (dmr b 0x2C) 31 24 + 1) 255) ∧
    (∀ (m : PtpMsg), Unshed s → s.hw.syncTaken b m = true →
      s.hw.syncExtra b m (s.hw.ingress b (domPort b m.hdr.secondPort) m.stamp) = true →
      Gives (.ptpSync g b m) s fun t => (t.hw.dom b) = (s.hw.dom b)
      ∧ t.hw.f (dmr b 0x2C) 15 8 = min (s.hw.f (dmr b 0x2C) 15 8 + 1) 255 ∧ t.hw.out = []) ∧
    (∀ (m : PtpMsg), Unshed s → s.hw.syncTaken b m = true →
      s.hw.syncExtra b m (s.hw.ingress b (domPort b m.hdr.secondPort) m.stamp) = false → m.twoStep = true →
      Gives (.ptpSync g b m) s fun t => (t.hw.dom b) = { (s.hw.dom b) with
            twoStep := some (m, (s.hw.ingress b (domPort b m.hdr.secondPort) m.stamp)) }
      ∧ t.hw.regs = s.hw.regs) ∧
    (∀ (m : PtpMsg), Unshed s → s.hw.syncTaken b m = false → Gives (.ptpSync g b m) s fun t =>
      (t.hw.dom b) = (s.hw.dom b) ∧ t.hw.regs = s.hw.regs) ∧
    (∀ (m y : PtpMsg) (q : Int), Unshed s → (s.hw.dom b).twoStep = some (y, q) → s.hw.ptpActs b m.hdr = true →
      y.hdr.src = m.hdr.src → y.hdr.seq = m.hdr.seq → y.hdr.secondPort = m.hdr.secondPort →
      s.hw.syncTaken b y = true → 0 < ((s.hw.dom b).t1.elim (annInterval y.logInterval) fun p =>
      ((m.origin : Int) + (y.hdr.correction + m.hdr.correction)) - p) → s.hw.f (dmr b 0x10) 15 0 = 0 ∨ ((q
          - ((m.origin : Int) + (y.hdr.correction + m.hdr.correction)) - s.hw.domDelay b
          - s.hw.asym (domPort b (s.hw.dom b).port)).natAbs : Int) ≤ (s.hw.f (dmr b 0x10) 15 0 : Int) * 1000
          * 65536 → Gives (.ptpFollowUp g b m) s fun t => (t.hw.dom b).twoStep = none
      ∧ (t.hw.dom b).t1 = some ((m.origin : Int) + (y.hdr.correction + m.hdr.correction))
      ∧ (t.hw.dom b).used = some q ∧ (t.hw.dom b).base = (s.hw.dom b).at (max s.hw.grain g)
      ∧ (t.hw.dom b).baseGrain = (max s.hw.grain g) ∧ (t.hw.dom b).inc = ((s.hw.at g).servoInc b (q
          - ((m.origin : Int) + (y.hdr.correction + m.hdr.correction)) - s.hw.domDelay b
          - s.hw.asym (domPort b (s.hw.dom b).port)) ((s.hw.dom b).t1.elim (annInterval y.logInterval) fun p =>
      ((m.origin : Int) + (y.hdr.correction + m.hdr.correction)) - p).toNat).inc ∧ t.hw.reg (dmr b 0x14)
          = ns8 16 (q - ((m.origin : Int) + (y.hdr.correction + m.hdr.correction)) - s.hw.domDelay b
          - s.hw.asym (domPort b (s.hw.dom b).port))) ∧
    (∀ (m y : PtpMsg) (q : Int), Unshed s → (s.hw.dom b).twoStep = some (y, q) → s.hw.ptpActs b m.hdr = true →
      y.hdr.src = m.hdr.src → y.hdr.seq = m.hdr.seq → y.hdr.secondPort = m.hdr.secondPort →
      s.hw.syncTaken b y = false → Gives (.ptpFollowUp g b m) s fun t =>
      (t.hw.dom b) = { (s.hw.dom b) with twoStep := none } ∧ t.hw.regs = s.hw.regs) ∧
    (∀ (m : PtpMsg), Unshed s → (s.hw.dom b).twoStep.all (fun y => y.1.hdr.seq != m.hdr.seq
          || y.1.hdr.src != m.hdr.src || y.1.hdr.secondPort != m.hdr.secondPort || !s.hw.ptpActs b m.hdr)
          = true → Gives (.ptpFollowUp g b m) s fun t => (t.hw.dom b) = (s.hw.dom b) ∧ t.hw.regs = s.hw.regs) ∧
    (∀ (m : PtpRespMsg) (t1 t2 t3 : Int), Unshed s → s.hw.ptpActs b m.hdr = true → m.ours = true →
      s.hw.domRole b = 1 → s.hw.domP2p b = false → m.kind = .delay → (s.hw.dom b).req = some (m.hdr.seq, t3) →
      (s.hw.dom b).sync = some (t1, t2) → (s.hw.dom b).master.any (fun x => x.hdr.src == m.hdr.src) = true →
      Gives (.ptpDelayResp g b m) s fun t =>
      (t.hw.dom b).delays = (t2 - t3 + (m.time - m.hdr.correction - t1)) :: (s.hw.dom b).delays.take 15
      ∧ (t.hw.dom b).req = none ∧ t.hw.reg (dmr b 0x18) = ns8 16 (t.hw.domDelay b)
      ∧ (t.hw.dom b).inc = (s.hw.dom b).inc) ∧
    (∀ (m : PtpRespMsg) (t1 : Int), Unshed s → s.hw.ptpActs b m.hdr = true → m.ours = true →
      s.hw.domRole b ≠ 0 → s.hw.domP2p b = true → m.kind = .pdelay → m.twoStep = false →
      ((s.hw.dom b).link m.hdr.secondPort).req = some (m.hdr.seq, t1) → Gives (.ptpDelayResp g b m) s fun t =>
      ((t.hw.dom b).link m.hdr.secondPort).delays = ((s.hw.ingress b (domPort b m.hdr.secondPort) m.stamp)
          - t1 + m.time - m.hdr.correction) :: ((s.hw.dom b).link m.hdr.secondPort).delays.take 15
      ∧ ((t.hw.dom b).link m.hdr.secondPort).req = none ∧ t.hw.reg (dmr b 0x18) = ns8 16 (t.hw.domDelay b)
      ∧ (t.hw.dom b).inc = (s.hw.dom b).inc) ∧
    (∀ (m : PtpRespMsg) (t1 : Int), Unshed s → s.hw.ptpActs b m.hdr = true → m.ours = true →
      s.hw.domRole b ≠ 0 → s.hw.domP2p b = true → m.kind = .pdelay → m.twoStep = true →
      ((s.hw.dom b).link m.hdr.secondPort).req = some (m.hdr.seq, t1) → Gives (.ptpDelayResp g b m) s fun t =>
      ((t.hw.dom b).link m.hdr.secondPort) = { ((s.hw.dom b).link m.hdr.secondPort) with
            req := none,
            resp := some (m.hdr.seq, (s.hw.ingress b (domPort b m.hdr.secondPort) m.stamp) - t1 + m.time - m.hdr.correction, m.stamp) }) ∧
    (∀ (m : PtpRespMsg) (part : Int) (q : Nat), Unshed s → s.hw.ptpActs b m.hdr = true → m.ours = true →
      s.hw.domRole b ≠ 0 → s.hw.domP2p b = true → m.kind = .pdelayFollowUp →
      ((s.hw.dom b).link m.hdr.secondPort).resp = some (m.hdr.seq, part, q) →
      Gives (.ptpDelayResp g b m) s fun t => ((t.hw.dom b).link m.hdr.secondPort).delays = (part - m.time
          - m.hdr.correction) :: ((s.hw.dom b).link m.hdr.secondPort).delays.take 15
      ∧ ((t.hw.dom b).link m.hdr.secondPort).resp = none ∧ t.hw.reg (dmr b 0x18) = ns8 16 (t.hw.domDelay b)
      ∧ (t.hw.dom b).inc = (s.hw.dom b).inc) ∧
    (∀ (m : PtpRespMsg), Unshed s → s.hw.domP2p b = decide (m.kind = .delay) →
      Gives (.ptpDelayResp g b m) s fun t => (t.hw.dom b) = (s.hw.dom b) ∧ t.hw.regs = s.hw.regs) ∧
    (∀ (m : PtpAnnounceMsg) (i : Nat), Unshed s → s.hw.ptpActs b m.hdr = true → s.hw.domRole b = 1 →
      (s.hw.dom b).master = none → (s.hw.dom b).heard = [] → Gives (.ptpAnnounce g b m) s fun t =>
      (t.hw.dom b).master = some m ∧ t.hw.reg64 (dmr b 0x20) = m.hdr.src
      ∧ (t.hw.dom b).heard = [(m, (max s.hw.grain g))] ∧ (t.hw.dom b).t1 = none ∧ t.hw.domLocked b = false
      ∧ (t.hw.dom b).at i = (s.hw.dom b).at i) ∧
    (∀ (m x : PtpAnnounceMsg) (k : Nat) (i : Nat), Unshed s → s.hw.ptpActs b m.hdr = true →
      s.hw.domRole b = 1 → (s.hw.dom b).master = some x → (s.hw.dom b).heard = [(x, k)] →
      (max s.hw.grain g) < annUntil (x, k) → annSame x m = false → annBetter m x = true →
      Gives (.ptpAnnounce g b m) s fun t => (t.hw.dom b).master = some m ∧ t.hw.reg64 (dmr b 0x20) = m.hdr.src
      ∧ (t.hw.dom b).heard = [(x, k), (m, (max s.hw.grain g))] ∧ t.hw.domLocked b = false
      ∧ (t.hw.dom b).at i = (s.hw.dom b).at i) ∧
    (∀ (m x : PtpAnnounceMsg) (k : Nat), Unshed s → s.hw.ptpActs b m.hdr = true → s.hw.domRole b = 1 →
      (s.hw.dom b).master = some x → (s.hw.dom b).heard = [(x, k)] → (max s.hw.grain g) < annUntil (x, k) →
      annSame x m = false → annBetter m x = false → Gives (.ptpAnnounce g b m) s fun t =>
      (t.hw.dom b) = { (s.hw.dom b) with heard := [(x, k), (m, (max s.hw.grain g))] } ∧ t.hw.regs = s.hw.regs) ∧
    (∀ (x : PtpAnnounceMsg) (k : Nat) (i : Nat), s.hw.domRole b = 1 → (s.hw.dom b).master = some x →
      (s.hw.dom b).heard = [(x, k)] → annUntil (x, k) ≤ (max s.hw.grain g) →
      Gives (.announceTimeout g b) s fun t => (t.hw.dom b).master = none ∧ (t.hw.dom b).heard = []
      ∧ t.hw.reg64 (dmr b 0x20) = 0 ∧ t.hw.domLocked b = false ∧ (t.hw.dom b).at i = (s.hw.dom b).at i) ∧
    (∀ (x : PtpAnnounceMsg) (k : Nat), (s.hw.dom b).master = some x → (s.hw.dom b).heard = [(x, k)] →
      (max s.hw.grain g) < annUntil (x, k) → Gives (.announceTimeout g b) s fun t =>
      (t.hw.dom b) = (s.hw.dom b) ∧ t.hw.regs = s.hw.regs) ∧
    (∀ (k : Nat) (log : Int) (i : Nat), s.hw.domRole b = 1 → (s.hw.dom b).lastSync = some (k, log) →
      k + max 1 (s.hw.f (dmr b 0x0C) 31 24) * logGrains log ≤ (max s.hw.grain g) →
      Gives (.syncLossTimeout g b) s fun t => t.hw.domLocked b = false ∧ (t.hw.dom b).ok = 0
      ∧ (t.hw.dom b).master = (s.hw.dom b).master ∧ (t.hw.dom b).at i = (s.hw.dom b).at i
      ∧ (s.hw.domLocked b = true → t.hw.bit (nt rEVT) (4 + dn b) = true)) ∧
    (∀ (k : Nat) (log : Int), (s.hw.dom b).lastSync = some (k, log) →
      (max s.hw.grain g) < k + max 1 (s.hw.f (dmr b 0x0C) 31 24) * logGrains log →
      Gives (.syncLossTimeout g b) s fun t => (t.hw.dom b) = (s.hw.dom b) ∧ t.hw.regs = s.hw.regs)

/-- A message leaves each port named that is enabled and has link, once for every transport set, with version 2.1, the
domain and the sequence number; each counts in that port's sent frames. A grandmaster domain sends on both ports of
its LAN a Sync, LOG_SYNC after the last, with its egress time, and an Announce with the words of DOMx_GM; before
LOG_SYNC has passed no Sync leaves. It answers, on the port asked, a Delay_Req with the ingress time and a Pdelay_Req
with the turnaround, latencies included. A domain with a role and the peer mechanism sends Pdelay_Req on both ports of
its LAN, a SLAVE without it a Delay_Req where it has a master; the egress time is kept for the answer. Without the
role nothing is sent. SET on a grandmaster puts the counter at the time written, in the grain the write is applied,
and locks it; elsewhere it sets EVT.STEP_REFUSED. A CT step command after a step, or for a source that is not locked,
is refused; else it waits for the boundary. CAPTURE holds the grain, both domain counters and CT of the grain in which
the write is applied. Throughout, the die is not held in reset; no load is shed where a link, an acquisition or a
safety wire acts. -/
def Obligations.NetworkTimeMessages : Prop :=
  ∀ (s : State) (g : Nat) (b : Bool), Live s →
    (∀ (p : Nat) (v : PtpVia), Unshed s → s.hw.domRole b = 2 → (s.hw.dom b).sentAt.all (fun k =>
      decide (k + logGrains (signed 4 (s.hw.f (dmr b 0) 31 28)) ≤ (max s.hw.grain g))) = true →
      p ∈ domPorts b → v ∈ s.hw.domVias b → s.hw.bit (ra pNSW (0x060 + 4 * p)) 0 = true →
      s.hw.bit (ra pNSW (0x070 + 4 * p)) 0 = true → Gives (.gmSyncSend g b) s fun t =>
      ({ kind := .ptpSync, port := p, nums := ((if v = PtpVia.udp4 then [2, 1, 1, 0] else [2, 1, 0]) ++ [((s.hw.f (dmr b 0) 7 0 : Nat) : Int), ((s.hw.dom b).syncSeq.toNat : Int)] ++ ([(signed 4 (s.hw.f (dmr b 0) 31 28)), (((((s.hw.dom b).at (max s.hw.grain g) + s.hw.txLat p) / 2 ^ 32 : Nat)) : Int), (((((s.hw.dom b).at (max s.hw.grain g) + s.hw.txLat p) % 2 ^ 32 / 2 ^ 16 : Nat)) : Int)] : List Int)) } : Out) ∈ t.hw.out
      ∧ t.hw.reg (ra pNSW (0x304 + 0x20 * p)) = s.hw.reg (ra pNSW (0x304 + 0x20 * p))
          + BitVec.ofNat 32 (s.hw.domVias b).length ∧ (t.hw.dom b) = { (s.hw.dom b) with
            sentAt := some (max s.hw.grain g), syncSeq := (s.hw.dom b).syncSeq + 1 }) ∧
    (Unshed s → s.hw.domRole b ≠ 2 ∨ (s.hw.dom b).sentAt.all (fun k =>
      decide (k + logGrains (signed 4 (s.hw.f (dmr b 0) 31 28)) ≤ (max s.hw.grain g))) = false →
      Gives (.gmSyncSend g b) s fun t => t.hw.out = [] ∧ t.hw.regs = s.hw.regs ∧ (t.hw.dom b) = (s.hw.dom b)) ∧
    (∀ (p : Nat) (v : PtpVia), Unshed s → s.hw.domRole b = 2 → p ∈ domPorts b → v ∈ s.hw.domVias b →
      s.hw.bit (ra pNSW (0x060 + 4 * p)) 0 = true → s.hw.bit (ra pNSW (0x070 + 4 * p)) 0 = true →
      Gives (.gmAnnounceSend g b) s fun t =>
      ({ kind := .ptpAnnounce, port := p, nums := ((if v = PtpVia.udp4 then [2, 1, 1, 0] else [2, 1, 0]) ++ [((s.hw.f (dmr b 0) 7 0 : Nat) : Int), ((s.hw.dom b).annSeq.toNat : Int)] ++ ([((s.hw.f (dmr b 0x04) 31 24 : Nat) : Int), ((s.hw.f (dmr b 0x04) 23 16 : Nat) : Int), ((s.hw.f (dmr b 0x04) 15 8 : Nat) : Int), ((s.hw.f (dmr b 0x04) 7 0 : Nat) : Int)] : List Int)) } : Out) ∈ t.hw.out
      ∧ t.hw.reg (ra pNSW (0x304 + 0x20 * p)) = s.hw.reg (ra pNSW (0x304 + 0x20 * p))
          + BitVec.ofNat 32 (s.hw.domVias b).length
      ∧ (t.hw.dom b) = { (s.hw.dom b) with annSeq := (s.hw.dom b).annSeq + 1 }) ∧
    (Unshed s → s.hw.domRole b ≠ 2 → Gives (.gmAnnounceSend g b) s fun t => t.hw.out = []
      ∧ t.hw.regs = s.hw.regs ∧ (t.hw.dom b) = (s.hw.dom b)) ∧
    (∀ (m : PtpReqMsg) (p : Nat) (v : PtpVia), Unshed s → s.hw.domRole b = 2 → s.hw.ptpActs b m.hdr = true →
      m.pdelay = false → p = domPort b m.hdr.secondPort → v ∈ s.hw.domVias b →
      s.hw.bit (ra pNSW (0x060 + 4 * p)) 0 = true → s.hw.bit (ra pNSW (0x070 + 4 * p)) 0 = true →
      Gives (.ptpDelayReq g b m) s fun t =>
      ({ kind := .ptpDelayResp, port := p, nums := ((if v = PtpVia.udp4 then [2, 1, 1, 0] else [2, 1, 0]) ++ [((s.hw.f (dmr b 0) 7 0 : Nat) : Int), (m.hdr.seq.toNat : Int)] ++ ([(0 : Int), s.hw.ingress b p m.stamp, m.hdr.correction] : List Int)) } : Out) ∈ t.hw.out
      ∧ t.hw.reg (ra pNSW (0x304 + 0x20 * p)) = s.hw.reg (ra pNSW (0x304 + 0x20 * p))
          + BitVec.ofNat 32 (s.hw.domVias b).length ∧ (t.hw.dom b) = (s.hw.dom b)) ∧
    (∀ (m : PtpReqMsg) (p : Nat) (v : PtpVia), Unshed s → s.hw.domRole b = 2 → s.hw.ptpActs b m.hdr = true →
      m.pdelay = true → p = domPort b m.hdr.secondPort → v ∈ s.hw.domVias b →
      s.hw.bit (ra pNSW (0x060 + 4 * p)) 0 = true → s.hw.bit (ra pNSW (0x070 + 4 * p)) 0 = true →
      Gives (.ptpDelayReq g b m) s fun t =>
      ({ kind := .ptpDelayResp, port := p, nums := ((if v = PtpVia.udp4 then [2, 1, 1, 0] else [2, 1, 0]) ++ [((s.hw.f (dmr b 0) 7 0 : Nat) : Int), (m.hdr.seq.toNat : Int)] ++ ([(1 : Int), 0, m.hdr.correction + ((((((s.hw.dom b).at (max s.hw.grain g) + s.hw.txLat p) / 2 ^ 16 : Nat)) : Int) - s.hw.ingress b p m.stamp)] : List Int)) } : Out) ∈ t.hw.out
      ∧ t.hw.reg (ra pNSW (0x304 + 0x20 * p)) = s.hw.reg (ra pNSW (0x304 + 0x20 * p))
          + BitVec.ofNat 32 (s.hw.domVias b).length ∧ (t.hw.dom b) = (s.hw.dom b)) ∧
    (∀ (m : PtpReqMsg), Unshed s → s.hw.domRole b ≠ 2 ∨ s.hw.ptpActs b m.hdr = false →
      Gives (.ptpDelayReq g b m) s fun t => t.hw.out = [] ∧ t.hw.regs = s.hw.regs
      ∧ (t.hw.dom b) = (s.hw.dom b)) ∧
    (∀ (p : Nat) (v : PtpVia) (x : Bool), Unshed s → s.hw.domRole b ≠ 0 → s.hw.domP2p b = true →
      p = domPort b x → v ∈ s.hw.domVias b → s.hw.bit (ra pNSW (0x060 + 4 * p)) 0 = true →
      s.hw.bit (ra pNSW (0x070 + 4 * p)) 0 = true → Gives (.delayReqSend g b) s fun t =>
      ({ kind := .ptpDelayReq, port := p, nums := ((if v = PtpVia.udp4 then [2, 1, 1, 0] else [2, 1, 0]) ++ [((s.hw.f (dmr b 0) 7 0 : Nat) : Int), ((s.hw.dom b).reqSeq.toNat : Int)] ++ ([(1 : Int), (((((s.hw.dom b).at (max s.hw.grain g) + s.hw.txLat p) / 2 ^ 16 : Nat)) : Int)] : List Int)) } : Out) ∈ t.hw.out
      ∧ t.hw.reg (ra pNSW (0x304 + 0x20 * p)) = s.hw.reg (ra pNSW (0x304 + 0x20 * p))
          + BitVec.ofNat 32 (s.hw.domVias b).length ∧ ((t.hw.dom b).link x).req
          = some ((s.hw.dom b).reqSeq, (((((s.hw.dom b).at (max s.hw.grain g) + s.hw.txLat p) / 2 ^ 16 : Nat)) : Int))
      ∧ (t.hw.dom b).reqSeq = (s.hw.dom b).reqSeq + 1) ∧
    (∀ (p : Nat) (v : PtpVia), Unshed s → s.hw.domRole b = 1 → s.hw.domP2p b = false →
      (s.hw.dom b).master.isSome = true → p = domPort b (s.hw.dom b).port → v ∈ s.hw.domVias b →
      s.hw.bit (ra pNSW (0x060 + 4 * p)) 0 = true → s.hw.bit (ra pNSW (0x070 + 4 * p)) 0 = true →
      Gives (.delayReqSend g b) s fun t =>
      ({ kind := .ptpDelayReq, port := p, nums := ((if v = PtpVia.udp4 then [2, 1, 1, 0] else [2, 1, 0]) ++ [((s.hw.f (dmr b 0) 7 0 : Nat) : Int), ((s.hw.dom b).reqSeq.toNat : Int)] ++ ([(0 : Int), (((((s.hw.dom b).at (max s.hw.grain g) + s.hw.txLat p) / 2 ^ 16 : Nat)) : Int)] : List Int)) } : Out) ∈ t.hw.out
      ∧ t.hw.reg (ra pNSW (0x304 + 0x20 * p)) = s.hw.reg (ra pNSW (0x304 + 0x20 * p))
          + BitVec.ofNat 32 (s.hw.domVias b).length ∧ (t.hw.dom b) = { (s.hw.dom b) with
            reqSeq := (s.hw.dom b).reqSeq + 1,
            req := some ((s.hw.dom b).reqSeq, (((((s.hw.dom b).at (max s.hw.grain g) + s.hw.txLat p) / 2 ^ 16 : Nat)) : Int)) }) ∧
    (Unshed s → s.hw.domRole b = 0 ∨ (s.hw.domP2p b = false ∧ (s.hw.domRole b = 2
      ∨ (s.hw.dom b).master = none)) → Gives (.delayReqSend g b) s fun t => t.hw.out = []
      ∧ t.hw.regs = s.hw.regs ∧ (t.hw.dom b) = (s.hw.dom b)) ∧
    (Unlocked s pNTM → s.hw.domRole b = 2 → Gives (.domSet g b) s fun t =>
      (t.hw.dom b).base = s.hw.timeOf (dmr b 0x40) ∧ (t.hw.dom b).baseGrain = (max s.hw.grain g / 5 * 5 + 4)
      ∧ (t.hw.dom b).stepAt = some (max s.hw.grain g / 5 * 5 + 4) ∧ t.hw.domLocked b = true
      ∧ (t.hw.dom b).inc = (s.hw.dom b).inc) ∧
    (Unlocked s pNTM → s.hw.domRole b ≠ 2 → Gives (.domSet g b) s fun t => t.hw.bit (nt rEVT) 1 = true
      ∧ (t.hw.dom b) = (s.hw.dom b)) ∧
    (∀ (src : Bool), Unlocked s pNTM → s.hw.clk.stepped = true ∨ (src = false ∧ s.hw.srcLocked = false) →
      Gives (.ctStepCmd g src) s fun t => t.hw.bit (nt rEVT) 1 = true ∧ t.hw.ntm.want = s.hw.ntm.want
      ∧ t.hw.clk = s.hw.clk) ∧
    (∀ (src : Bool), Unlocked s pNTM → s.hw.clk.stepped = false → src = true ∨ s.hw.srcLocked = true →
      Gives (.ctStepCmd g src) s fun t => t.hw.ntm.want = some (src, max s.hw.grain g / 5)
      ∧ t.hw.clk = s.hw.clk) ∧
    (Unlocked s pNTM → Gives (.ctCapture g) s fun t =>
      t.hw.reg64 (nt 0x0B0) = BitVec.ofNat 64 (max s.hw.grain g / 5 * 5 + 4)
      ∧ t.hw.reg (nt 0x0B8) = BitVec.ofNat 32 (s.hw.ntm.a.at (max s.hw.grain g / 5 * 5 + 4))
      ∧ t.hw.reg (nt 0x0C8) = BitVec.ofNat 32 (s.hw.ntm.b.at (max s.hw.grain g / 5 * 5 + 4))
      ∧ t.hw.reg (nt 0x0D8) = BitVec.ofNat 32 (s.hw.ctAt (max s.hw.grain g / 5 * 5 + 4))
      ∧ t.hw.bit (nt rEVT) 10 = true)

/-- A frame on a port that is off or without link changes nothing. A pause frame counts and drops. A good frame for
the module alone counts; one to forward that cannot cut through waits at the other port of its LAN with its cells, a
Sync with its ingress stamp and the link delay that the peer mechanism adds; one without cells is dropped and counted.
A port that is idle sends a stored frame its gate admits, whose cells are then in flight until the line is free, a
Sync with its residence. RX_POP takes the oldest received buffer into software's hands, or reads 0; ALLOC takes a free
buffer or reads 0; RET frees a held buffer; POST of a held buffer with a legal length queues it on each port with
link, or frees it. The ledger is latched in one read. A link change shows the speed the port allows and sets EVT.LINK.
Throughout, the die is not held in reset; no load is shed where a link, an acquisition or a safety wire acts; no
command that waits goes first where commands of one cycle have an order. -/
def Obligations.SwitchFrames : Prop :=
  ∀ (s : State) (g : Nat), Live s →
    (∀ (f : Frame), Unshed s → Alone s g → f.port < 4 → s.hw.portUp f.port = false →
      Gives (.frameReceive g f) s fun t => t.hw.regs = s.hw.regs ∧ t.hw.nsw = s.hw.nsw) ∧
    (∀ (f : Frame), Unshed s → Alone s g → f.port < 4 → s.hw.portUp f.port = true → f.kind = .pause →
      Gives (.frameReceive g f) s fun t => t.hw.reg (pcnt f.port 0) = s.hw.reg (pcnt f.port 0) + 1
      ∧ t.hw.f (pcnt f.port 0xC) 15 0 = min (s.hw.f (pcnt f.port 0xC) 15 0 + 1) 0xFFFF ∧ t.hw.nsw = s.hw.nsw
      ∧ t.hw.out = []) ∧
    (∀ (f : Frame), Unshed s → Alone s g → f.port < 4 → s.hw.portUp f.port = true → f.kind = .lldp →
      f.forUs = true → f.prp = none → f.fcsOk = true →
      (s.hw.at g).cellsOk (s.hw.frameClass f) (cellsOf f.len) none = true →
      Gives (.frameReceive g f) s fun t => t.hw.reg (pcnt f.port 0) = s.hw.reg (pcnt f.port 0) + 1
      ∧ t.hw.nsw = s.hw.nsw ∧ t.hw.out = []) ∧
    (∀ (f : Frame), Unshed s → Alone s g → f.port < 4 → s.hw.portUp f.port = true → f.kind = .foreign →
      f.forUs = false → f.multicast = false → f.fcsOk = true → s.hw.portUp (otherPort f.port) = true →
      s.hw.portSpeed f.port ≠ s.hw.portSpeed (otherPort f.port) →
      (s.hw.at g).cellsOk (s.hw.frameClass f) (cellsOf f.len) (some (otherPort f.port)) = true →
      Gives (.frameReceive g f) s fun t => t.hw.reg (pcnt f.port 0) = s.hw.reg (pcnt f.port 0) + 1
      ∧ t.hw.nsw.frames = s.hw.nsw.frames
          ++ [⟨otherPort f.port, s.hw.frameClass f, f.len, cellsOf f.len, none, none, { kind := .forwarded, port := otherPort f.port, data := f.data }⟩]
      ∧ t.hw.out = []) ∧
    (∀ (f : Frame), Unshed s → Alone s g → f.port < 4 → s.hw.portUp f.port = true → f.kind = .ptpSync →
      f.forUs = false → f.fcsOk = true → s.hw.domAs (decide (2 ≤ f.port)) = false →
      s.hw.portUp (otherPort f.port) = true → s.hw.portSpeed f.port ≠ s.hw.portSpeed (otherPort f.port) →
      (s.hw.at g).cellsOk (s.hw.frameClass f) (cellsOf f.len) (some (otherPort f.port)) = true →
      Gives (.frameReceive g f) s fun t => t.hw.nsw.frames = s.hw.nsw.frames
          ++ [⟨otherPort f.port, s.hw.frameClass f, f.len, cellsOf f.len, none, some (s.hw.ingress (decide (2 ≤ f.port)) f.port f.stamp, if s.hw.domP2p (decide (2 ≤ f.port)) then s.hw.linkDelay (decide (2 ≤ f.port)) (f.port % 2 == 1) else 0), { kind := .forwarded, port := otherPort f.port, data := f.data }⟩]
      ∧ t.hw.out = []) ∧
    (∀ (f : Frame), Unshed s → Alone s g → f.port < 4 → s.hw.portUp f.port = true → f.kind ≠ .pause →
      (s.hw.at g).cellsOk (s.hw.frameClass f) (cellsOf f.len) none = false →
      Gives (.frameReceive g f) s fun t =>
      t.hw.f (pcnt f.port 8) 31 0 = min (s.hw.f (pcnt f.port 8) 31 0 + 1) 0xFFFFFFFF ∧ t.hw.nsw = s.hw.nsw
      ∧ t.hw.out = []) ∧
    (∀ (p : Fin 4) (x : NFrame), Unshed s → Alone s g → s.hw.portUp p = true → s.hw.nsw.frames = [x] →
      x.port = p.val → tabGet 0 p.val s.hw.nsw.busy ≤ max s.hw.grain g →
      (s.hw.at g).mayStart p x.cls x.len = true → x.soft = none → x.event = none →
      Gives (.frameEgress g p) s fun t => t.hw.nsw.frames = [] ∧ t.hw.out = [{ x.body with port := p.val }]
      ∧ t.hw.reg (pcnt p 4) = s.hw.reg (pcnt p 4) + 1
      ∧ tabGet 0 p.val t.hw.nsw.busy = max s.hw.grain g + s.hw.octTime p (x.len + frameGap)
      ∧ t.hw.nsw.flight.head? = some (max s.hw.grain g + s.hw.octTime p (x.len + frameGap), x)) ∧
    (∀ (p : Fin 4) (x : NFrame) (q link : Int), Unshed s → Alone s g → s.hw.portUp p = true →
      s.hw.nsw.frames = [x] → x.port = p.val → tabGet 0 p.val s.hw.nsw.busy ≤ max s.hw.grain g →
      (s.hw.at g).mayStart p x.cls x.len = true → x.soft = none → x.event = some (q, link) →
      Gives (.frameEgress g p) s fun t => t.hw.nsw.frames = [] ∧ t.hw.out
          = [{ x.body with port := p.val, nums := [((((s.hw.dom (decide (2 ≤ p.val))).at (max s.hw.grain g) + s.hw.txLat p.val) / 2 ^ 16 : Nat) : Int) - q, link] ++ x.body.nums }]) ∧
    (∀ (p : Fin 4), Unshed s → Alone s g → s.hw.portUp p = false
      ∨ max s.hw.grain g < tabGet 0 p.val s.hw.nsw.busy → Gives (.frameEgress g p) s fun t =>
      t.hw.regs = s.hw.regs ∧ t.hw.nsw = s.hw.nsw ∧ t.hw.out = []) ∧
    (∀ (p : Fin 4), Unshed s → s.hw.gclOn p = true → (List.range (s.hw.gclN p)).all (fun j =>
      decide (j + 1 < s.hw.gclN p → s.hw.gclSum p (j + 1) ≤ (s.hw.at g).cycPos)) = true →
      tabGet 0 p.val s.hw.nsw.gcl < s.hw.gclN p - 1 → Gives (.gclEntryStart g p) s fun t =>
      tabGet 0 p.val t.hw.nsw.gcl = s.hw.gclN p - 1 ∧ t.hw.regs = s.hw.regs) ∧
    (∀ (p : Fin 4), Unshed s → s.hw.gclOn p = false → Gives (.gclEntryStart g p) s fun t => t.hw.nsw = s.hw.nsw
      ∧ t.hw.regs = s.hw.regs) ∧
    (∀ (c len : Nat) (rest : List (Nat × Nat)), s.hw.nsw.rxq = (c, len) :: rest → Gives (.swRxPop g) s fun t =>
      t.hw.reg (nw 0x090) = bufWord c len ∧ t.hw.nsw.rxq = rest ∧ t.hw.bufState c = 2) ∧
    (s.hw.nsw.rxq = [] → Gives (.swRxPop g) s fun t => t.hw.reg (nw 0x090) = 0 ∧ t.hw.nsw = s.hw.nsw) ∧
    (∀ (c : BitVec 13), Alone s g → Unlocked s pNSW → s.hw.bufState c.toNat = 2 → Gives (.swRet g c) s fun t =>
      t.hw.bufState c.toNat = 0 ∧ t.hw.nsw.frames = s.hw.nsw.frames) ∧
    (∀ (c : BitVec 13), Alone s g → Unlocked s pNSW → s.hw.bufState c.toNat ≠ 2 → Gives (.swRet g c) s fun t =>
      t.hw.nsw = s.hw.nsw) ∧
    (Alone s g → s.hw.f (nw 0x084) 8 0 = 1 → (s.hw.at g).bufState 8180 = 0 → Gives (.swAlloc g) s fun t =>
      t.hw.reg (nw 0x098) = bufWord 8180 0 ∧ t.hw.bufState 8180 = 2) ∧
    (Alone s g → s.hw.f (nw 0x084) 8 0 = 1 → (s.hw.at g).bufState 8180 ≠ 0 → Gives (.swAlloc g) s fun t =>
      t.hw.reg (nw 0x098) = 0 ∧ t.hw.nsw = s.hw.nsw) ∧
    (∀ (v : Word), Alone s g → Unlocked s pNSW → s.hw.bufState (fld v 12 0) = 2 → 60 ≤ fld v 26 16 →
      fld v 26 16 ≤ 1522 → ∀ p : Fin 4, s.hw.portUp p = false → Gives (.swPost g v) s fun t =>
      t.hw.bufState (fld v 12 0) = 0 ∧ t.hw.nsw.frames = s.hw.nsw.frames
      ∧ t.hw.nsw.prpSeq = (s.hw.nsw.prpSeq + 1) % 65536) ∧
    (∀ (v : Word) (p : Fin 4), Alone s g → Unlocked s pNSW → s.hw.bufState (fld v 12 0) = 2 →
      60 ≤ fld v 26 16 → fld v 26 16 ≤ 1522 → s.hw.portUp p = true → Gives (.swPost g v) s fun t =>
      t.hw.bufState (fld v 12 0) = 3 ∧ (t.hw.nsw.frames.any fun x =>
      x.port == p.val && x.soft == some (fld v 12 0) && x.len == fld v 26 16 && x.cls == fld v 30 28) = true) ∧
    (Alone s g → Gives (.ledgerRead g) s fun t => t.hw.reg (nw 0x088) = (s.hw.at g).ledger.1
      ∧ t.hw.reg (nw 0x08C) = (s.hw.at g).ledger.2 ∧ t.hw.nsw = s.hw.nsw) ∧
    (∀ (p : Fin 4) (sp : BitVec 2), Unshed s → s.hw.bit (nw (0x060 + 4 * p)) 0 = true → (sp = 1
      ∧ s.hw.bit (nw (0x060 + 4 * p)) 2 = true) ∨ (sp = 2 ∧ s.hw.bit (nw (0x060 + 4 * p)) 1 = true) →
      s.hw.reg (nw (0x070 + 4 * p)) ≠ BitVec.ofNat 32 (2 * sp.toNat + 1) →
      Gives (.linkChange g p sp) s fun t => t.hw.reg (nw (0x070 + 4 * p)) = BitVec.ofNat 32 (2 * sp.toNat + 1)
      ∧ t.hw.bit (nw rREADY) (if p.val < 2 then 2 else 3) = true ∧ t.hw.bit (nw rEVT) 8 = true
      ∧ t.hw.nsw = s.hw.nsw)

/-- The cyclic frame leaves once in a network cycle, at its offset, and not before; a received one whose version is
wrong changes nothing, and one from an enabled slot's node fills the buffer that is not the newest and shows it; the
second copy of a frame within the discard window is counted and leaves every slot as it is. A slot that missed more
than its limit of cycles goes stale with its event. An announcement of an unknown partner takes the lowest free entry
with EVT.PARTNER_NEW, of a known one refreshes it. An entry that ages on its only LAN leaves the table. An LLDP frame
sets or, with TTL 0, clears the neighbour; the end of its TTL clears it. Selecting a partner entry puts its address
into the readout. Announcements leave no sooner than their interval after the last, LLDP frames every second, PRP
supervision every 2 s; frames the module originates with a trailer take the next PRP number. Throughout, the die is
not held in reset; no load is shed where a link, an acquisition or a safety wire acts; no command that waits goes
first where commands of one cycle have an order. -/
def Obligations.CyclicFramesAndPartners : Prop :=
  ∀ (s : State) (g : Nat), Live s →
    (Unshed s → s.hw.bit (nw 0x0A4) 31 = false ∨ s.hw.nsw.sent = true
      ∨ (s.hw.at g).cycPos < s.hw.f (nw 0x0A4) 22 0 → Gives (.cyclicFrameSend g) s fun t =>
      t.hw.regs = s.hw.regs ∧ t.hw.nsw = s.hw.nsw ∧ t.hw.out = []) ∧
    (Unshed s → s.hw.bit (nw 0x0A4) 31 = true → s.hw.nsw.sent = false →
      s.hw.f (nw 0x0A4) 22 0 ≤ (s.hw.at g).cycPos → ∀ p : Fin 4, s.hw.portUp p = false →
      Gives (.cyclicFrameSend g) s fun t => t.hw.nsw.sent = true
      ∧ t.hw.nsw.cycSeq = (s.hw.nsw.cycSeq + 1) % 65536 ∧ t.hw.nsw.prpSeq = (s.hw.nsw.prpSeq + 1) % 65536
      ∧ t.hw.out = [] ∧ t.hw.nsw.frames = s.hw.nsw.frames) ∧
    (∀ (lanB : Bool) (prp : Option (BitVec 48 × BitVec 16)) (data : List Byte), Unshed s → Alone s g →
      data.getD 0 0 ≠ 1 ∨ data.length < 16 → Gives (.cyclicFrameReceive g lanB prp data) s fun t =>
      t.hw.regs = s.hw.regs ∧ t.hw.nsw = s.hw.nsw) ∧
    (∀ (lanB : Bool) (data : List Byte) (k : Fin 32), Unshed s → Alone s g → 16 ≤ data.length →
      data.getD 0 0 = 1 → data.getD 14 0 = 0 → s.hw.bit (nw (0x100 + 4 * k)) 31 = true →
      s.hw.f (nw (0x100 + 4 * k)) 15 0 = leNat ((data.drop 2).take 2) →
      s.hw.nodeConflict (leNat ((data.drop 2).take 2)) = false →
      Gives (.cyclicFrameReceive g lanB none data) s fun t => t.hw.bit (nw (0x180 + 4 * k)) 31 = false
      ∧ t.hw.bit (nw (0x180 + 4 * k)) 30 = !(s.hw.bit (nw (0x180 + 4 * k)) 30)
      ∧ t.hw.f (nw (0x180 + 4 * k)) 15 0 = leNat ((data.drop 12).take 2)
      ∧ tabGet 0 k.val t.hw.nsw.rxCyc = s.hw.nsw.cyc) ∧
    (∀ (lanB : Bool) (src : BitVec 48) (q : BitVec 16) (data : List Byte) (k : Nat) (j : Fin 32), Unshed s →
      Alone s g → 16 ≤ data.length → data.getD 0 0 = 1 → data.getD 14 0 = 0 →
      s.hw.nsw.prp = [(src.toNat, q.toNat, k)] →
      max s.hw.grain g ≤ k + max 1 (min 400 (s.hw.f (nw 0x380) 8 0)) * 500000 →
      Gives (.cyclicFrameReceive g lanB (some (src, q)) data) s fun t =>
      t.hw.f (nw 0x384) 15 0 = (s.hw.f (nw 0x384) 15 0 + 1) % 65536 ∧ t.hw.nsw = s.hw.nsw
      ∧ t.hw.wbuf = s.hw.wbuf ∧ t.hw.reg (nw (0x180 + 4 * j)) = s.hw.reg (nw (0x180 + 4 * j))) ∧
    (∀ (lanB : Bool) (src : BitVec 48) (q : BitVec 16) (data : List Byte), Unshed s → Alone s g →
      16 ≤ data.length → data.getD 0 0 = 1 → data.getD 14 0 = 0 → s.hw.nsw.prp = [] →
      Gives (.cyclicFrameReceive g lanB (some (src, q)) data) s fun t =>
      t.hw.nsw.prp = [(src.toNat, q.toNat, max s.hw.grain g)] ∧ t.hw.reg (nw 0x384) = s.hw.reg (nw 0x384)) ∧
    (∀ (k : Fin 32), Unshed s → s.hw.bit (nw (0x100 + 4 * k)) 31 = true →
      s.hw.bit (nw (0x180 + 4 * k)) 31 = false →
      tabGet 0 k.val s.hw.nsw.rxCyc + max 1 (s.hw.f (nw 0x0C4) 7 0) < s.hw.nsw.cyc →
      Gives (.rxStale g k) s fun t => t.hw.bit (nw (0x180 + 4 * k)) 31 = true ∧ t.hw.bit (nw rEVT) 2 = true
      ∧ t.hw.nsw = s.hw.nsw) ∧
    (∀ (k : Fin 32), Unshed s → s.hw.bit (nw (0x100 + 4 * k)) 31 = false
      ∨ s.hw.nsw.cyc ≤ tabGet 0 k.val s.hw.nsw.rxCyc + max 1 (s.hw.f (nw 0x0C4) 7 0) →
      Gives (.rxStale g k) s fun t => t.hw.regs = s.hw.regs ∧ t.hw.nsw = s.hw.nsw) ∧
    (Unshed s → s.hw.bit (nw 0x048) 31 = true → s.hw.nsw.annAt.all (fun k =>
      decide (k + s.hw.f (nw 0x048) 15 0 * 500000 ≤ max s.hw.grain g)) = true →
      ∀ p : Fin 4, s.hw.portUp p = false → Gives (.announcementSend g) s fun t =>
      t.hw.nsw = { s.hw.nsw with annAt := some (max s.hw.grain g), prpSeq := (s.hw.nsw.prpSeq + 1) % 65536 }
      ∧ t.hw.out = [] ∧ t.hw.regs = s.hw.regs) ∧
    (Unshed s → s.hw.bit (nw 0x048) 31 = false ∨ s.hw.nsw.annAt.all (fun k =>
      decide (k + s.hw.f (nw 0x048) 15 0 * 500000 ≤ max s.hw.grain g)) = false →
      Gives (.announcementSend g) s fun t => t.hw.nsw = s.hw.nsw ∧ t.hw.out = [] ∧ t.hw.regs = s.hw.regs) ∧
    (∀ (lanB : Bool) (a : Announcement), Unshed s → Alone s g → s.hw.nsw.partners = [] →
      a.node.toNat ≠ s.hw.f (nw 0x040) 15 0 → Gives (.announcementReceive g lanB a) s fun t =>
      (t.hw.partner 0).used = true ∧ (t.hw.partner 0).mac = a.mac ∧ (t.hw.partner 0).node = a.node.toNat
      ∧ (t.hw.partner 0).lanA = !lanB ∧ (t.hw.partner 0).lanB = lanB ∧ t.hw.f (nw 0x210) 8 0 = 1
      ∧ t.hw.bit (nw rEVT) 3 = true ∧ tabGet 0 (dn lanB) t.hw.nsw.heard = max s.hw.grain g) ∧
    (∀ (lanB : Bool) (a : Announcement) (k : Nat), Unshed s → Alone s g → (s.hw.partner 0).used = true →
      (s.hw.partner 0).mac = a.mac → Gives (.announcementReceive g lanB a) s fun t =>
      t.hw.partner 0 = (s.hw.partner 0).refresh a lanB ∧ (k = 0 ∨ t.hw.partner k = s.hw.partner k)
      ∧ tabGet 0 (dn lanB) t.hw.nsw.heard = max s.hw.grain g) ∧
    (∀ (i k : Nat) (lanB : Bool), Unshed s → (s.hw.partner i).used = true → (s.hw.partner i).lanA = !lanB →
      (s.hw.partner i).lanB = lanB → tabGet 0 (2 * i + dn lanB) s.hw.nsw.heard
          + max 1 (s.hw.f (nw 0x048) 23 16) * (s.hw.partner i).annInt * 500000 ≤ max s.hw.grain g →
      Gives (.partnerLanAge g i lanB) s fun t => t.hw.partner i = {} ∧ t.hw.bit (nw rEVT) 4 = true
      ∧ t.hw.bit (nw rEVT) 5 = true ∧ (k = i ∨ t.hw.partner k = s.hw.partner k)) ∧
    (Unshed s → s.hw.nsw.lldpAt.all (fun k => decide (k + 500000000 ≤ max s.hw.grain g)) = false
      ∨ ∀ p : Fin 4, s.hw.portUp p = false → Gives (.lldpSend g) s fun t => t.hw.regs = s.hw.regs
      ∧ t.hw.nsw.frames = s.hw.nsw.frames ∧ t.hw.out = []) ∧
    (∀ (p : Fin 4), Unshed s → s.hw.nsw.lldpAt.all (fun k =>
      decide (k + 500000000 ≤ max s.hw.grain g)) = true → s.hw.portUp p = true →
      tabGet 0 p.val s.hw.nsw.busy ≤ max s.hw.grain g → s.hw.gclOn p = false → Gives (.lldpSend g) s fun t =>
      ({ kind := .lldp, port := p.val, nums := [(p.val : Int), 4] } : Out) ∈ t.hw.out
      ∧ t.hw.reg (pcnt p 4) = s.hw.reg (pcnt p 4) + 1 ∧ t.hw.nsw.lldpAt = some (max s.hw.grain g)) ∧
    (∀ (p : Fin 4) (mac : BitVec 48) (ttl : Nat), Unshed s → ttl ≠ 0 →
      Gives (.lldpReceive g p mac ttl) s fun t =>
      t.hw.reg64 (nw (0x390 + 8 * p)) = BitVec.ofNat 64 (2 ^ 63 + mac.toNat)
      ∧ tabGet 0 p.val t.hw.nsw.ttl = max s.hw.grain g + ttl * 500000000) ∧
    (∀ (p : Fin 4) (mac : BitVec 48), Unshed s → Gives (.lldpReceive g p mac 0) s fun t =>
      t.hw.reg64 (nw (0x390 + 8 * p)) = 0 ∧ tabGet 0 p.val t.hw.nsw.ttl = 0) ∧
    (∀ (p : Fin 4), Unshed s → tabGet 0 p.val s.hw.nsw.ttl ≠ 0 →
      tabGet 0 p.val s.hw.nsw.ttl ≤ max s.hw.grain g → Gives (.lldpTtlExpiry g p) s fun t =>
      t.hw.reg64 (nw (0x390 + 8 * p)) = 0 ∧ tabGet 0 p.val t.hw.nsw.ttl = 0) ∧
    (Unshed s → s.hw.nsw.prpAt.all (fun k => decide (k + 1000000000 ≤ max s.hw.grain g)) = true →
      ∀ p : Fin 4, s.hw.portUp p = false → Gives (.prpSupervisionSend g) s fun t =>
      t.hw.nsw = { s.hw.nsw with prpAt := some (max s.hw.grain g), prpSeq := (s.hw.nsw.prpSeq + 1) % 65536 }
      ∧ t.hw.out = [] ∧ t.hw.regs = s.hw.regs) ∧
    (Unshed s → s.hw.nsw.prpAt.all (fun k => decide (k + 1000000000 ≤ max s.hw.grain g)) = false →
      Gives (.prpSupervisionSend g) s fun t => t.hw.nsw = s.hw.nsw ∧ t.hw.out = [] ∧ t.hw.regs = s.hw.regs) ∧
    (∀ (p : Fin 4), Unshed s → s.hw.nsw.prpAt.all (fun k =>
      decide (k + 1000000000 ≤ max s.hw.grain g)) = true → s.hw.portUp p = true →
      tabGet 0 p.val s.hw.nsw.busy ≤ max s.hw.grain g → s.hw.gclOn p = false →
      Gives (.prpSupervisionSend g) s fun t =>
      ({ kind := .prpSupervision, port := p.val, nums := [(s.hw.nsw.prpSeq : Int)] } : Out) ∈ t.hw.out
      ∧ t.hw.nsw.prpSeq = (s.hw.nsw.prpSeq + 1) % 65536) ∧
    (∀ (i : BitVec 8), Unlocked s pNSW → (s.hw.partner i.toNat).node < 65536 →
      (s.hw.partner i.toNat).flags < 8 → (s.hw.partner i.toNat).slot < 16 → (s.hw.partner i.toNat).mode < 8 →
      Gives (.ptSelWrite g i) s fun t => t.hw.f (nw 0x200) 7 0 = i.toNat
      ∧ t.hw.reg64 (nw 0x204) = BitVec.ofNat 64 (s.hw.partner i.toNat).mac.toNat
      ∧ t.hw.bit (nw 0x20C) 31 = (s.hw.partner i.toNat).used ∧ t.hw.nsw = s.hw.nsw)

/-- A frame of another node on a live channel with no shadow frame and a free ring entry enters the ring at RX_WR: its
number, its identifier (11 bits where standard), the length its DLC gives, the gap, the start-of-frame time (three
grains before the grain of the edge's first sample) and its data up to that length, none for a remote frame, with
RX_WR stepped and EVT.RX. With the ring full it goes to the shadow slot and sets SHADOW_FULL; with both full it is
dropped, DROPS counts and the gap grows. A channel that is not live takes nothing. The shadow frame drains into the
ring as soon as it has space, else nothing changes. A legal RX_RD is taken, another is refused. RX_FRAMES counts
frames written, in the slot and dropped, and its read latches RX_WR and DROPS. A protocol error of an enabled channel
writes its code and counters. Bus-off clears integration; recovery by command or AUTO_RECOVER clears the counters;
integration makes the channel READY. Throughout, the die is not held in reset; no earlier command left a memory write
or a reset to be done; no load is shed where a link, an acquisition or a safety wire acts; no command that waits goes
first where commands of one cycle have an order. -/
def Obligations.CanReceptionAndErrors : Prop :=
  ∀ (s : State) (g : Nat) (n : Fin 2), Live s → Settled s →
    (∀ (f : CanFrame) (w : Nat), Unshed s → Alone s g → s.hw.canLive n = true → bitOf f.flags 12 = false
      ∨ s.hw.bit (cn n 0x040) 0 = true → f.own = false → s.hw.canShdFull n = false → s.hw.canSpace n = true →
      w < 16 → Gives (.canFrameReceive g n f) s fun t => t.hw.reg (cn n 0x054) = s.hw.reg (cn n 0x054) + 1
      ∧ t.hw.rd32 t.mem (s.hw.f (cn n 0x050) 20 0 + 80 * ((s.hw.reg (cn n 0x054)).toNat % 1024))
          = s.hw.reg (cn n 0x054) ∧ t.hw.rd32 t.mem ((s.hw.f (cn n 0x050) 20 0 + 80
          * ((s.hw.reg (cn n 0x054)).toNat % 1024)) + 4) = (if bitOf f.word1 29 then f.word1 &&& 0x7FFFFFFF
          else f.word1 &&& 0x600007FF) ∧ fld (t.hw.rd32 t.mem ((s.hw.f (cn n 0x050) 20 0 + 80
          * ((s.hw.reg (cn n 0x054)).toNat % 1024)) + 8)) 6 0
          = dlcOctets (bitOf f.flags 12) (fld f.flags 11 8) ∧ fld (t.hw.rd32 t.mem ((s.hw.f (cn n 0x050) 20 0
          + 80 * ((s.hw.reg (cn n 0x054)).toNat % 1024)) + 8)) 31 24 = min (s.hw.canS n).gap 255
      ∧ t.hw.rd32 t.mem ((s.hw.f (cn n 0x050) 20 0 + 80 * ((s.hw.reg (cn n 0x054)).toNat % 1024)) + 12)
          = BitVec.ofNat 32 (f.sof + 2 ^ 32 - 3) ∧ t.hw.rd32 t.mem ((s.hw.f (cn n 0x050) 20 0 + 80
          * ((s.hw.reg (cn n 0x054)).toNat % 1024)) + 16 + 4 * w) = (if bitOf f.word1 30 then 0
          else f.data.getD w 0 &&& BitVec.ofNat 32 (2 ^ (8
          * (dlcOctets (bitOf f.flags 12) (fld f.flags 11 8) - 4 * w)) - 1)) ∧ t.hw.bit (cn n rEVT) 1 = true
      ∧ (t.hw.canS n).gap = 0) ∧
    (∀ (f : CanFrame) (w : Nat), Unshed s → Alone s g → s.hw.canLive n = true → bitOf f.flags 12 = false
      ∨ s.hw.bit (cn n 0x040) 0 = true → f.own = false → s.hw.canShdFull n = false → s.hw.canSpace n = false →
      w < 16 → Gives (.canFrameReceive g n f) s fun t => t.hw.reg (cn n 0x054) = s.hw.reg (cn n 0x054)
      ∧ t.hw.reg (cn n 0x100) = s.hw.reg (cn n 0x054)
      ∧ t.hw.reg (cn n 0x104) = (if bitOf f.word1 29 then f.word1 &&& 0x7FFFFFFF else f.word1 &&& 0x600007FF)
      ∧ t.hw.reg (cn n 0x10C) = BitVec.ofNat 32 (f.sof + 2 ^ 32 - 3) ∧ t.hw.reg (cn n (0x110 + 4 * w))
          = (if bitOf f.word1 30 then 0 else f.data.getD w 0 &&& BitVec.ofNat 32 (2 ^ (8
          * (dlcOctets (bitOf f.flags 12) (fld f.flags 11 8) - 4 * w)) - 1)) ∧ t.hw.canShdFull n = true
      ∧ t.hw.bit (cn n rEVT) 2 = true ∧ t.mem = s.mem) ∧
    (∀ (f : CanFrame), Unshed s → Alone s g → s.hw.canLive n = true → bitOf f.flags 12 = false
      ∨ s.hw.bit (cn n 0x040) 0 = true → f.own = false → s.hw.canShdFull n = true → s.hw.canSpace n = false →
      Gives (.canFrameReceive g n f) s fun t => t.hw.reg (cn n 0x060) = s.hw.reg (cn n 0x060) + 1
      ∧ (t.hw.canS n).gap = (s.hw.canS n).gap + 1 ∧ t.hw.bit (cn n rEVT) 3 = true
      ∧ t.hw.reg (cn n 0x054) = s.hw.reg (cn n 0x054) ∧ t.hw.reg (cn n 0x104) = s.hw.reg (cn n 0x104)
      ∧ t.hw.canShdFull n = true ∧ t.mem = s.mem) ∧
    (∀ (f : CanFrame), Unshed s → Alone s g → s.hw.canLive n = false →
      Gives (.canFrameReceive g n f) s fun t => t.hw.regs = s.hw.regs ∧ t.hw.can = s.hw.can ∧ t.mem = s.mem
      ∧ t.hw.out = []) ∧
    (∀ (w : Nat), Unshed s → s.hw.canShdFull n = true → s.hw.canSpace n = true → 1 ≤ w → w < 20 →
      Gives (.canShadowDrain g n) s fun t => t.hw.reg (cn n 0x054) = s.hw.reg (cn n 0x054) + 1
      ∧ t.hw.canShdFull n = false ∧ t.hw.rd32 t.mem (s.hw.f (cn n 0x050) 20 0 + 80
          * ((s.hw.reg (cn n 0x054)).toNat % 1024)) = s.hw.reg (cn n 0x054)
      ∧ t.hw.rd32 t.mem ((s.hw.f (cn n 0x050) 20 0 + 80 * ((s.hw.reg (cn n 0x054)).toNat % 1024)) + 4 * w)
          = s.hw.reg (cn n (0x100 + 4 * w)) ∧ t.hw.bit (cn n rEVT) 1 = true) ∧
    (Unshed s → s.hw.canShdFull n = false ∨ s.hw.canSpace n = false → Gives (.canShadowDrain g n) s fun t =>
      t.hw.regs = s.hw.regs ∧ t.hw.can = s.hw.can ∧ t.mem = s.mem ∧ t.hw.out = []) ∧
    (∀ (v : Word), Alone s g → Unlocked s (pCAN n) →
      v - s.hw.reg (cn n 0x058) ≤ s.hw.reg (cn n 0x054) - s.hw.reg (cn n 0x058) →
      Gives (.canRxRdWrite g n v) s fun t => t.hw.reg (cn n 0x058) = v
      ∧ t.hw.reg (cn n 0x054) = s.hw.reg (cn n 0x054)) ∧
    (∀ (v : Word), Alone s g → Unlocked s (pCAN n) →
      s.hw.reg (cn n 0x054) - s.hw.reg (cn n 0x058) < v - s.hw.reg (cn n 0x058) →
      Gives (.canRxRdWrite g n v) s fun t => t.hw.reg (cn n 0x058) = s.hw.reg (cn n 0x058)
      ∧ t.hw.bit (cn n rEVT) 8 = true) ∧
    (Gives (.canRxFramesRead g n) s fun t => t.hw.reg (cn n 0x05C) = s.hw.reg (cn n 0x054)
          + (if s.hw.canShdFull n then 1 else 0) + s.hw.reg (cn n 0x060)
      ∧ tabGet 0 (cn n 0x054) t.hw.latch = s.hw.reg (cn n 0x054)
      ∧ tabGet 0 (cn n 0x060) t.hw.latch = s.hw.reg (cn n 0x060)) ∧
    (∀ (lec tec rec : BitVec 8), Unshed s → s.hw.bit (cn n rCTRL) 0 = true → s.hw.canBusOff n = false →
      Gives (.canProtocolError g n lec tec rec) s fun t => t.hw.f (cn n 0x064) 31 24 = lec.toNat
      ∧ t.hw.f (cn n 0x064) 15 8 = rec.toNat ∧ t.hw.f (cn n 0x064) 7 0 = tec.toNat
      ∧ t.hw.f (cn n 0x064) 17 16 = (if 127 < tec.toNat ∨ 127 < rec.toNat then 1 else 0)
      ∧ t.hw.bit (cn n rEVT) 10 = true) ∧
    (∀ (lec tec rec : BitVec 8), Unshed s → s.hw.bit (cn n rCTRL) 0 = false →
      Gives (.canProtocolError g n lec tec rec) s fun t => t.hw.regs = s.hw.regs ∧ t.hw.can = s.hw.can
      ∧ t.mem = s.mem ∧ t.hw.out = []) ∧
    (Unshed s → s.hw.bit (cn n rCTRL) 0 = true → s.hw.canBusOff n = false → Gives (.canBusOff g n) s fun t =>
      t.hw.canBusOff n = true ∧ t.hw.bit (cn n rREADY) 2 = false ∧ t.hw.f (cn n 0x064) 17 16 = 2
      ∧ t.hw.bit (cn n rEVT) 7 = true ∧ t.hw.canLive n = false) ∧
    (Unlocked s (pCAN n) → s.hw.canBusOff n = true → Gives (.canRecover g n) s fun t =>
      (t.hw.canS n).recover = true ∧ t.hw.canBusOff n = true) ∧
    (Unshed s → s.hw.canBusOff n = true → s.hw.bit (cn n 0x040) 1 = true ∨ (s.hw.canS n).recover = true →
      Gives (.canBusRecovered g n) s fun t => t.hw.canBusOff n = false ∧ t.hw.f (cn n 0x064) 17 0 = 0
      ∧ (t.hw.canS n).recover = false) ∧
    (Unshed s → s.hw.canBusOff n = false ∨ (s.hw.bit (cn n 0x040) 1 = false ∧ (s.hw.canS n).recover = false) →
      Gives (.canBusRecovered g n) s fun t => t.hw.regs = s.hw.regs ∧ t.hw.can = s.hw.can ∧ t.mem = s.mem
      ∧ t.hw.out = []) ∧
    (Unshed s → s.hw.bit (cn n rCTRL) 0 = true → s.hw.canBusOff n = false →
      Gives (.busIntegration g n) s fun t => t.hw.canLive n = true ∧ t.hw.can = s.hw.can) ∧
    (Unshed s → s.hw.bit (cn n rCTRL) 0 = false ∨ s.hw.canBusOff n = true →
      Gives (.busIntegration g n) s fun t => t.hw.regs = s.hw.regs ∧ t.hw.can = s.hw.can ∧ t.mem = s.mem
      ∧ t.hw.out = [])

/-- A request of a slot that is not busy with legal words is READY, or WAIT where timed; else it is refused with EVT
9. ABORT ends WAIT and READY at once, and is remembered by an ACTIVE slot. A WAIT slot whose time has come is READY.
At the end of its window a timed slot not yet started becomes LATE, or with SEND goes on trying. With a live channel
that may send and no slot ACTIVE, the READY slot that arbitrates first becomes ACTIVE and its frame leaves, a remote
frame without data; else nothing changes. A frame sent makes its slot DONE with its time-stamp. A failed attempt makes
the slot ABORTED where that was asked, else READY again, or FAILED in single-shot mode; a timed one past its window is
LATE. Throughout, the die is not held in reset; no earlier command left a memory write or a reset to be done; no load
is shed where a link, an acquisition or a safety wire acts; no command that waits goes first where commands of one
cycle have an order. -/
def Obligations.CanTransmitSlots : Prop :=
  ∀ (s : State) (g : Nat) (n : Fin 2) (k : Fin 16), Live s → Settled s →
    (∀ (j : Fin 16), Unlocked s (pCAN n) → s.hw.txBad n k = false → Gives (.canTxRequest g n k) s fun t =>
      t.hw.txState n k = 2 ∧ (t.hw.canS n).timed.getLsbD k = false ∧ t.hw.bit (txr n k 0x14) 11 = false
      ∧ (j = k ∨ t.hw.txState n j = s.hw.txState n j)) ∧
    (∀ (j : Fin 16), Unlocked s (pCAN n) → s.hw.txBad n k = false → Gives (.canTxTimed g n k) s fun t =>
      t.hw.txState n k = 1 ∧ (t.hw.canS n).timed.getLsbD k = true ∧ (j = k
      ∨ t.hw.txState n j = s.hw.txState n j)) ∧
    (Unlocked s (pCAN n) → s.hw.txBad n k = true → Gives (.canTxRequest g n k) s fun t =>
      t.hw.txState n k = s.hw.txState n k ∧ t.hw.can = s.hw.can ∧ t.hw.bit (cn n rEVT) 9 = true) ∧
    (Alone s g → Unlocked s (pCAN n) → s.hw.txState n k = 1 ∨ s.hw.txState n k = 2 →
      Gives (.canTxAbort g n k) s fun t => t.hw.txState n k = 6 ∧ t.hw.can = s.hw.can) ∧
    (Alone s g → Unlocked s (pCAN n) → s.hw.txState n k = 3 → Gives (.canTxAbort g n k) s fun t =>
      t.hw.txState n k = 3 ∧ (t.hw.canS n).abort.getLsbD k = true) ∧
    (Unshed s → s.hw.txState n k = 1 → s.hw.txT n k ≤ (s.hw.at g).ctGrains (s.hw.at g).grain →
      Gives (.canTxTimeReached g n k) s fun t => t.hw.txState n k = 2 ∧ t.hw.can = s.hw.can) ∧
    (Unshed s → s.hw.txState n k ≠ 1 ∨ (s.hw.at g).ctGrains (s.hw.at g).grain < s.hw.txT n k →
      Gives (.canTxTimeReached g n k) s fun t => t.hw.regs = s.hw.regs ∧ t.hw.can = s.hw.can ∧ t.mem = s.mem
      ∧ t.hw.out = []) ∧
    (Unshed s → Alone s g → (s.hw.at g).txWindowOver n k = true → s.hw.txState n k = 1 ∨ s.hw.txState n k = 2 →
      s.hw.bit (cn n 0x068) 31 = false → Gives (.canTxLate g n k) s fun t => t.hw.txState n k = 5
      ∧ t.hw.bit (cn n rEVT) 5 = true) ∧
    (Unshed s → Alone s g → (s.hw.at g).txWindowOver n k = true → s.hw.txState n k = 1 ∨ s.hw.txState n k = 2 →
      s.hw.bit (cn n 0x068) 31 = true → Gives (.canTxLate g n k) s fun t => t.hw.txState n k = 2
      ∧ t.hw.can = s.hw.can) ∧
    (Unshed s → Alone s g → (s.hw.at g).txWindowOver n k = false → Gives (.canTxLate g n k) s fun t =>
      t.hw.regs = s.hw.regs ∧ t.hw.can = s.hw.can ∧ t.mem = s.mem ∧ t.hw.out = []) ∧
    (Unshed s → Alone s g → s.hw.canLive n = true → s.hw.canListen n = false → s.hw.txActive n = none →
      s.hw.txPick n = some k.val → Gives (.canTxStart g n) s fun t => t.hw.txState n k = 3
      ∧ t.hw.txActive n = some k.val ∧ t.hw.out
          = [{ kind := .can, port := n.val, nums := [((s.hw.reg (txr n k 0)).toNat : Int), (((s.hw.reg (txr n k 4)).toNat % 0x8000 : Nat) : Int)], data := if s.hw.bit (txr n k 0) 30 then [] else ((List.range 16).flatMap fun w => wordBytes (s.hw.reg (txr n k (0x20 + 4 * w)))).take (s.hw.f (txr n k 4) 6 0) }]) ∧
    (Unshed s → Alone s g → s.hw.canLive n = false ∨ s.hw.canListen n = true ∨ s.hw.txPick n = none →
      Gives (.canTxStart g n) s fun t => t.hw.regs = s.hw.regs ∧ t.hw.can = s.hw.can ∧ t.mem = s.mem
      ∧ t.hw.out = []) ∧
    (∀ (sof : Nat), Unshed s → Alone s g → s.hw.txActive n = some k.val → s.hw.canBusOff n = false →
      Gives (.canTxDone g n sof) s fun t => t.hw.txState n k = 4
      ∧ t.hw.reg (txr n k 0x18) = BitVec.ofNat 32 (sof + 2 ^ 32 - 3) ∧ t.hw.bit (cn n rEVT) 4 = true
      ∧ t.hw.bit (txr n k 0x14) 11 = (s.hw.bit (txr n k 0x14) 11 || (s.hw.canS n).late.getLsbD k)
      ∧ t.hw.f (cn n 0x064) 7 0 = s.hw.f (cn n 0x064) 7 0 - 1) ∧
    (∀ (sof : Nat), Unshed s → Alone s g → s.hw.txActive n = none → Gives (.canTxDone g n sof) s fun t =>
      t.hw.regs = s.hw.regs ∧ t.hw.can = s.hw.can ∧ t.mem = s.mem ∧ t.hw.out = []) ∧
    (∀ (arb : Bool), Unshed s → s.hw.txActive n = some k.val → (s.hw.canS n).abort.getLsbD k = true →
      Gives (.canTxError g n arb) s fun t => t.hw.txState n k = 6 ∧ t.hw.can = s.hw.can) ∧
    (∀ (arb : Bool), Unshed s → s.hw.txActive n = some k.val → (s.hw.canS n).abort.getLsbD k = false →
      (s.hw.at g).txWindowOver n k = false → Gives (.canTxError g n arb) s fun t =>
      t.hw.txState n k = (if s.hw.bit (cn n 0x040) 2 then 7 else 2) ∧ t.hw.can = s.hw.can) ∧
    (∀ (arb : Bool), Unshed s → s.hw.txActive n = some k.val → (s.hw.canS n).abort.getLsbD k = false →
      (s.hw.at g).txWindowOver n k = true → s.hw.bit (cn n 0x068) 31 = false →
      Gives (.canTxError g n arb) s fun t => t.hw.txState n k = 5 ∧ t.hw.bit (cn n rEVT) 5 = true)

/-- ARM of an enabled idle unit with a free descriptor and the pages of its pre area and one more opens a record: the
next number, STAT.ARMED and the ledger follow; it is refused with reason 1 while a series runs, 2 without pages, 3
without a descriptor. STOP ends re-arming at once and marks a record in progress. A software trigger waits for the
next sample. A remote trigger is refused with reason 1 where nothing is armed, waits for a later instant, is refused
with reason 4 where the record does not hold enough samples, and else triggers at the instant it names. A sample
counts up its record; one with a software trigger waiting triggers it. A re-arm after four instants opens the next
record. RELEASE frees pages closed in earlier cycles, the oldest first, and is refused with reason 5 beyond them.
LEDGER gives all three counts of one cycle. Throughout, the die is not held in reset; no earlier command left a memory
write or a reset to be done; no load is shed where a link, an acquisition or a safety wire acts; no command that waits
goes first where commands of one cycle have an order. -/
def Obligations.AcquisitionRecords : Prop :=
  ∀ (s : State) (g : Nat), Live s → Settled s →
    (∀ (r : Nat), Alone s g → Unlocked s pACQ → s.hw.bit (aq rCTRL) 0 = true → s.hw.bit (aq rREADY) 0 = true →
      s.hw.acq.phase = 0 → s.hw.nextRec = some r → s.hw.prePg + 1 ≤ s.hw.acq.freeN →
      Gives (.acqArm g) s fun t => t.hw.acq.phase = 1 ∧ t.hw.acq.desc = r
      ∧ t.hw.acq.num = (s.hw.acq.num + 1) % 256 ∧ t.hw.acq.taken = 0 ∧ t.hw.bit (rcd r 0) 30 = true
      ∧ t.hw.bit (rcd r 0) 31 = false ∧ t.hw.f (rcd r 0) 23 16 = (s.hw.acq.num + 1) % 256
      ∧ t.hw.reg (rcd r 0x38) = s.hw.reg (aq 0x044) ∧ t.hw.acq.pre = s.hw.prePg
      ∧ t.hw.acq.closed = s.hw.acq.closed ∧ t.hw.f (aq rSTAT) 2 0 = 1) ∧
    (Alone s g → Unlocked s pACQ → s.hw.acq.phase ≠ 0 ∨ s.hw.bit (aq rCTRL) 0 = false
      ∨ s.hw.bit (aq rREADY) 0 = false → Gives (.acqArm g) s fun t => t.hw.f (aq 0x05C) 2 0 = 1
      ∧ t.hw.bit (aq rEVT) 4 = true ∧ t.hw.acq = s.hw.acq) ∧
    (Alone s g → Unlocked s pACQ → s.hw.bit (aq rCTRL) 0 = true → s.hw.bit (aq rREADY) 0 = true →
      s.hw.acq.phase = 0 → s.hw.nextRec = none → Gives (.acqArm g) s fun t => t.hw.f (aq 0x05C) 2 0 = 3
      ∧ t.hw.bit (aq rEVT) 4 = true ∧ t.hw.acq = s.hw.acq) ∧
    (∀ (r : Nat), Alone s g → Unlocked s pACQ → s.hw.bit (aq rCTRL) 0 = true → s.hw.bit (aq rREADY) 0 = true →
      s.hw.acq.phase = 0 → s.hw.nextRec = some r → s.hw.acq.freeN < s.hw.prePg + 1 →
      Gives (.acqArm g) s fun t => t.hw.f (aq 0x05C) 2 0 = 2 ∧ t.hw.bit (aq rEVT) 4 = true
      ∧ t.hw.acq = s.hw.acq) ∧
    (Unlocked s pACQ → s.hw.acq.phase = 3 → Gives (.acqStop g) s fun t =>
      t.hw.acq = { s.hw.acq with phase := 0 } ∧ t.hw.f (aq rSTAT) 2 0 = 0) ∧
    (Unlocked s pACQ → s.hw.acq.phase = 1 ∨ s.hw.acq.phase = 2 → Gives (.acqStop g) s fun t =>
      t.hw.acq = { s.hw.acq with stop := some (max s.hw.grain g / 5 * 5 + 4) }) ∧
    (Unlocked s pACQ → s.hw.acq.phase = 0 → Gives (.acqStop g) s fun t => t.hw.acq = s.hw.acq) ∧
    (Unlocked s pACQ → Gives (.acqSoftwareTrigger g) s fun t =>
      t.hw.acq = { s.hw.acq with soft := some (max s.hw.grain g / 5 * 5 + 4) }) ∧
    (Unlocked s pACQ → s.hw.acq.phase ≠ 1 → Gives (.acqRemoteTrigger g) s fun t => t.hw.f (aq 0x05C) 2 0 = 1
      ∧ t.hw.bit (aq rEVT) 4 = true ∧ t.hw.acq = s.hw.acq) ∧
    (∀ (ti T : Nat), Unlocked s pACQ → s.hw.acq.phase = 1 → s.hw.bit (aq 0x040) 4 = false →
      s.hw.acq.last = some (ti, T) → T < (s.hw.reg64 (aq 0x060)).toNat →
      Gives (.acqRemoteTrigger g) s fun t =>
      t.hw.acq = { s.hw.acq with remote := some (s.hw.reg64 (aq 0x060)).toNat }) ∧
    (∀ (ti T back : Nat), Unlocked s pACQ → s.hw.acq.phase = 1 → s.hw.bit (aq 0x040) 4 = false →
      s.hw.acq.last = some (ti, T) → (s.hw.reg64 (aq 0x060)).toNat ≤ T →
      back = (T - ((s.hw.reg64 (aq 0x060)).toNat + s.hw.sper - 1) / s.hw.sper * s.hw.sper) / s.hw.sper + 1 →
      s.hw.preHeld < back → Gives (.acqRemoteTrigger g) s fun t => t.hw.f (aq 0x05C) 2 0 = 4
      ∧ t.hw.bit (aq rEVT) 4 = true ∧ t.hw.acq = s.hw.acq) ∧
    (∀ (ti T back : Nat), Unlocked s pACQ → s.hw.acq.phase = 1 → s.hw.bit (aq 0x040) 4 = false →
      s.hw.acq.last = some (ti, T) → s.hw.acq.desc < 16 → (s.hw.reg64 (aq 0x060)).toNat ≤ T →
      back = (T - ((s.hw.reg64 (aq 0x060)).toNat + s.hw.sper - 1) / s.hw.sper * s.hw.sper) / s.hw.sper + 1 →
      back ≤ s.hw.preHeld → Gives (.acqRemoteTrigger g) s fun t =>
      t.hw.reg64 (rcd s.hw.acq.desc 0x18) = BitVec.ofNat 64 (T - (back - 1) * s.hw.sper)
      ∧ t.hw.reg (rcd s.hw.acq.desc 0x24) = 0x80100
      ∧ t.hw.f (rcd s.hw.acq.desc 0x10) 31 0 = (s.hw.preHeld - back) % 2 ^ 32 ∧ t.hw.acq.phase ≠ 1) ∧
    (∀ (ti T : Nat) (lv : List (BitVec 24)), Unshed s → s.hw.bit (aq rCTRL) 0 = true →
      s.hw.bit (aq rREADY) 0 = true → (s.hw.at g).acqInstant = some (ti, T) → s.hw.throttled = s.hw.acq.thr →
      (s.hw.at g).stopDue = false → s.hw.acq.phase = 1 → s.hw.acq.armAt < (s.hw.at g).grain →
      s.hw.acq.soft = none → s.hw.acq.remote = none → s.hw.f (aq 0x068) 8 0 = 0 →
      Gives (.acqSample g lv) s fun t => t.hw.acq.taken = s.hw.acq.taken + 1 ∧ t.hw.acq.last = some (ti, T)
      ∧ t.hw.acq.n = s.hw.acq.n + 1 ∧ t.hw.acq.phase = 1 ∧ t.hw.acq.pre = s.hw.acq.pre
      ∧ t.hw.acq.closed = s.hw.acq.closed) ∧
    (∀ (ti T w : Nat) (lv : List (BitVec 24)), Unshed s → s.hw.bit (aq rCTRL) 0 = true →
      s.hw.bit (aq rREADY) 0 = true → (s.hw.at g).acqInstant = some (ti, T) → s.hw.throttled = s.hw.acq.thr →
      (s.hw.at g).stopDue = false → s.hw.acq.phase = 1 → s.hw.acq.desc < 16 →
      s.hw.acq.armAt < (s.hw.at g).grain → s.hw.acq.soft = some w → w < (s.hw.at g).grain →
      s.hw.acq.remote = none → s.hw.bit (aq 0x040) 4 = false → Gives (.acqSample g lv) s fun t =>
      t.hw.bit (rcd s.hw.acq.desc 0x24) 9 = true ∧ t.hw.reg64 (rcd s.hw.acq.desc 0x18) = BitVec.ofNat 64 T
      ∧ t.hw.acq.soft = none ∧ t.hw.acq.n = s.hw.acq.n + 1 ∧ t.hw.acq.phase ≠ 1) ∧
    (∀ (lv : List (BitVec 24)), Unshed s → s.hw.bit (aq rCTRL) 0 = false ∨ s.hw.bit (aq rREADY) 0 = false →
      Gives (.acqSample g lv) s fun t => t.hw.acq = s.hw.acq ∧ t.hw.regs = s.hw.regs ∧ t.mem = s.mem) ∧
    (∀ (r : Nat), Unshed s → s.hw.acq.phase = 3 → 4 ≤ s.hw.acq.rearm → s.hw.prePg + 1 ≤ s.hw.acq.freeN →
      s.hw.nextRec = some r → Gives (.acqRearmEnd g) s fun t => t.hw.acq.phase = 1 ∧ t.hw.acq.desc = r
      ∧ t.hw.acq.done = s.hw.acq.done ∧ t.hw.bit (rcd r 0) 30 = true
      ∧ t.hw.f (rcd r 0) 23 16 = (s.hw.acq.num + 1) % 256) ∧
    (∀ (k : Fin 16), Unshed s → s.hw.acq.phase ≠ 3 ∨ s.hw.acq.rearm < 4 ∨ s.hw.acq.freeN < s.hw.prePg + 1
      ∨ s.hw.nextRec = none → Gives (.acqRearmEnd g) s fun t => t.hw.acq = s.hw.acq
      ∧ t.hw.reg (rcd k 0) = s.hw.reg (rcd k 0) ∧ t.hw.bit (aq rEVT) 4 = s.hw.bit (aq rEVT) 4) ∧
    (∀ (n : BitVec 10), Alone s g → Unlocked s pACQ → n.toNat ≤ ((s.hw.acq.closed.filter fun e =>
      e.2.2 != (s.hw.at g).cycle).foldl (fun t e => t + e.2.1) 0) → Gives (.acqRelease g n) s fun t =>
      t.hw.acq.closedN + n.toNat = s.hw.acq.closedN ∧ t.hw.acq.phase = s.hw.acq.phase
      ∧ t.hw.acq.openN = s.hw.acq.openN) ∧
    (∀ (n : BitVec 10), Alone s g → Unlocked s pACQ → ((s.hw.acq.closed.filter fun e =>
      e.2.2 != (s.hw.at g).cycle).foldl (fun t e => t + e.2.1) 0) < n.toNat →
      Gives (.acqRelease g n) s fun t => t.hw.f (aq 0x05C) 2 0 = 5 ∧ t.hw.bit (aq rEVT) 4 = true
      ∧ t.hw.acq = s.hw.acq) ∧
    (Gives (.acqLedgerRead g) s fun t => t.hw.reg (aq 0x070) = BitVec.ofNat 32 (s.hw.acq.closedN * 2 ^ 20
          + s.hw.acq.openN * 2 ^ 10 + s.hw.acq.freeN) ∧ t.hw.acq = s.hw.acq)

/-- T_STOP passed since entry into STOPPING, and BRK_LEAD passed with the brake open, make a function FORCED: its
STAT, ANY_DEMAND and the force lines of the legs it names follow; before that time and in no other state do they
change the island. T_STOP in LIMITED starts the monitor. A test pulse of a tested output that is on, in its turn (P
every TP_PER, M half of it later), that shows the switch open within TP_W changes only the times of the next; one that
does not is fault 4: every switch opens, every leg is forced, READY clears and a module in STANDBY to SHADOW goes to
SAFEHALT. Start-up tests that find an input stage wrong are noted, and a switch that fails them is fault 4; passed
ones after an accepted reset clear faults 2, 3, 4 and 7. A configuration word is accepted only in BRINGUP and CONFIG,
clears READY, and a function written starts FORCED and waits; SO_REQ and CFG_EXP are written in any mode. Throughout,
the die is not held in reset; no load is shed where a link, an acquisition or a safety wire acts. -/
def Obligations.SafetyFunctionsAndOutputs : Prop :=
  ∀ (s : State) (g : Nat) (k : Fin 8) (n : Fin 96), Live s →
    (Unshed s → ∀ c : Bool, (s.hw.safFn c k).state = 2 ∧ (s.hw.safFn c k).lead = false
      ∧ (s.hw.safFn c k).since + s.hw.f (fnReg k 0x30) 15 0 * 500000 ≤ max s.hw.grain g →
      (s.hw.reg (fnReg k 0x14) ++ s.hw.reg (fnReg k 0x10) ++ s.hw.reg (fnReg k 0x0C)).getLsbD n = true →
      Gives (.ss1Timeout g k) s fun t => (∀ c : Bool, (t.hw.safFn c k).state = 3) ∧ t.hw.fnForced k = true
      ∧ t.hw.f (fnReg k 0x34) 2 0 = 3 ∧ t.hw.bit (sf rSTAT) 2 = true ∧ (t.hw.leg n).fSafety = true) ∧
    (Unshed s → ∀ c : Bool, ((s.hw.safFn c k).state ≠ 2 ∨ (s.hw.safFn c k).lead = true
      ∨ max s.hw.grain g < (s.hw.safFn c k).since + s.hw.f (fnReg k 0x30) 15 0 * 500000)
      ∧ (s.hw.safFn c k).state ≠ 3 → Gives (.ss1Timeout g k) s fun t => t.hw.saf = s.hw.saf) ∧
    (Unshed s → ∀ c : Bool, (s.hw.safFn c k).state = 4
      ∧ (s.hw.safFn c k).since + s.hw.f (fnReg k 0x30) 15 0 * 500000 ≤ max s.hw.grain g →
      Gives (.slsMonitorStart g k) s fun t =>
      ∀ c : Bool, (t.hw.safFn c k) = { s.hw.safFn c k with mon := true }) ∧
    (Unshed s → ∀ c : Bool, ((s.hw.safFn c k).state ≠ 4
      ∨ max s.hw.grain g < (s.hw.safFn c k).since + s.hw.f (fnReg k 0x30) 15 0 * 500000)
      ∧ (s.hw.safFn c k).state ≠ 3 → Gives (.slsMonitorStart g k) s fun t => t.hw.saf = s.hw.saf) ∧
    (Unshed s → ∀ c : Bool, (s.hw.safFn c k).state = 2 ∧ (s.hw.safFn c k).lead = true
      ∧ (s.hw.safFn c k).leadAt + s.hw.f (fnReg k 0x30) 31 16 * 500000 ≤ max s.hw.grain g →
      (s.hw.reg (fnReg k 0x14) ++ s.hw.reg (fnReg k 0x10) ++ s.hw.reg (fnReg k 0x0C)).getLsbD n = true →
      Gives (.brakeLeadExpiry g k) s fun t => (∀ c : Bool, (t.hw.safFn c k).state = 3)
      ∧ t.hw.fnForced k = true ∧ t.hw.f (fnReg k 0x34) 2 0 = 3 ∧ t.hw.bit (sf rSTAT) 2 = true
      ∧ (t.hw.leg n).fSafety = true) ∧
    (Unshed s → ∀ c : Bool, ((s.hw.safFn c k).state ≠ 2 ∨ (s.hw.safFn c k).lead = false
      ∨ max s.hw.grain g < (s.hw.safFn c k).leadAt + s.hw.f (fnReg k 0x30) 31 16 * 500000)
      ∧ (s.hw.safFn c k).state ≠ 3 → Gives (.brakeLeadExpiry g k) s fun t => t.hw.saf = s.hw.saf) ∧
    (∀ (j : Fin 4) (c : Bool) (opened : Option Nat), Unshed s → s.hw.bit (sf (0x080 + 4 * j)) 0 = false
      ∨ s.hw.bit (sf 0x094) j = false ∨ tabGet 0 (2 * j.val + if c then 1 else 0) s.hw.saf.tests = 0
      ∨ max s.hw.grain g + 1 < tabGet 0 (2 * j.val + if c then 1 else 0) s.hw.saf.tests + (if c then 0
          else s.hw.f (sf (0x080 + 4 * j)) 23 16 * 500000000) → Gives (.soTestPulse g j c opened) s fun t =>
      t.hw.regs = s.hw.regs ∧ t.hw.saf = s.hw.saf ∧ t.mem = s.mem ∧ t.hw.out = []) ∧
    (∀ (j : Fin 4) (c : Bool) (d : Nat), Unshed s → s.hw.bit (sf (0x080 + 4 * j)) 0 = true →
      s.hw.bit (sf 0x094) j = true → tabGet 0 (2 * j.val + if c then 1 else 0) s.hw.saf.tests ≠ 0 →
      tabGet 0 (2 * j.val + if c then 1 else 0) s.hw.saf.tests + (if c then 0 else s.hw.f (sf (0x080 + 4
          * j)) 23 16 * 500000000) ≤ max s.hw.grain g + 1 → d ≤ 5000 * s.hw.f (sf (0x080 + 4 * j)) 15 8 →
      Gives (.soTestPulse g j c (some d)) s fun t => t.hw.regs = s.hw.regs
      ∧ t.hw.saf = { s.hw.saf with tests := t.hw.saf.tests } ∧ tabGet 0 (2 * j.val + 1) t.hw.saf.tests = (if c
          then 0 else max s.hw.grain g + s.hw.f (sf (0x080 + 4 * j)) 23 16 * 500000000 / 2 + 1) ∧ (c = false →
      tabGet 0 (2 * j.val) t.hw.saf.tests = max s.hw.grain g + 1) ∧ t.hw.legs = s.hw.legs) ∧
    (∀ (j : Fin 4) (c : Bool) (opened : Option Nat), Unshed s → s.hw.bit (sf (0x080 + 4 * j)) 0 = true →
      s.hw.bit (sf 0x094) j = true → tabGet 0 (2 * j.val + if c then 1 else 0) s.hw.saf.tests ≠ 0 →
      tabGet 0 (2 * j.val + if c then 1 else 0) s.hw.saf.tests + (if c then 0 else s.hw.f (sf (0x080 + 4
          * j)) 23 16 * 500000000) ≤ max s.hw.grain g + 1 → opened.all (fun d =>
      decide (5000 * s.hw.f (sf (0x080 + 4 * j)) 15 8 < d)) = true → s.hw.sys.modeGrain < max s.hw.grain g →
      1 ≤ s.hw.mode.toNat → s.hw.mode.toNat ≤ 4 → Gives (.soTestPulse g j c opened) s fun t =>
      t.hw.saf.faults.getLsbD 4 = true ∧ t.hw.bit (sf 0x094) (16 + j) = true ∧ t.hw.f (sf 0x094) 3 0 = 0
      ∧ t.hw.saf.a.closed = 0 ∧ t.hw.saf.b.closed = 0 ∧ (t.hw.leg n).fSafety = true
      ∧ t.hw.bit (sf rREADY) 0 = false ∧ t.hw.bit (sf rEVT) 1 = true ∧ t.hw.mode = mSAFEHALT) ∧
    (Unshed s → Gives (.safetyStartupTests g false 0 0) s fun t => t.hw.saf = { s.hw.saf with tested := false }
      ∧ t.hw.regs = s.hw.regs) ∧
    (∀ (inputs : Bool) (fa fb : BitVec 4) (j : Fin 4), Unshed s → fa.getLsbD j = true ∨ fb.getLsbD j = true →
      Gives (.safetyStartupTests g inputs fa fb) s fun t => t.hw.saf.tested = false
      ∧ t.hw.saf.faults.getLsbD 4 = true ∧ t.hw.bit (sf 0x094) (16 + j) = true ∧ t.hw.saf.a.closed = 0
      ∧ t.hw.saf.b.closed = 0 ∧ (t.hw.leg n).fSafety = true ∧ t.hw.bit (sf rREADY) 0 = false) ∧
    (Unshed s → s.hw.saf.rearm = true → Gives (.safetyStartupTests g true 0 0) s fun t =>
      t.hw.saf.tested = true ∧ t.hw.saf.rearm = false ∧ t.hw.saf.faults = s.hw.saf.faults &&& 0x63
      ∧ t.hw.bit (sf rSTAT) 0 = decide (s.hw.saf.faults &&& 0x63 ≠ 0)) ∧
    (Unshed s → s.hw.saf.rearm = false → Gives (.safetyStartupTests g true 0 0) s fun t =>
      t.hw.saf.tested = true ∧ t.hw.saf.faults = s.hw.saf.faults) ∧
    (∀ (off : BitVec 12) (v : Word), Unlocked s pSAF → safCfgOffs.contains off.toNat = true →
      s.hw.mode ≠ mBRINGUP → s.hw.mode ≠ mCONFIG → Gives (.safConfigWrite g off v) s fun t =>
      t.hw.reg (sf off.toNat) = s.hw.reg (sf off.toNat) ∧ t.hw.saf = s.hw.saf ∧ t.hw.bit (sf rEVT) 0 = true
      ∧ t.hw.bit (sf rREADY) 0 = s.hw.bit (sf rREADY) 0) ∧
    (∀ (v : Word), Unlocked s pSAF → s.hw.mode = mBRINGUP ∨ s.hw.mode = mCONFIG →
      Gives (.safConfigWrite g (0x060 + 4 * (BitVec.ofNat 12 k)) v) s fun t => t.hw.reg (sf (0x060 + 4 * k))
          = (if fld v 27 16 = 0 then (v &&& 0x0FFF0073) ||| 0x10000 else v &&& 0x0FFF0073)
      ∧ t.hw.bit (sf rREADY) 0 = false ∧ t.hw.saf = s.hw.saf) ∧
    (∀ (v : Word), Unlocked s pSAF → s.hw.mode = mBRINGUP ∨ s.hw.mode = mCONFIG → fld v 2 0 ≠ 0 →
      Gives (.safConfigWrite g (0x100 + 0x40 * (BitVec.ofNat 12 k)) v) s fun t =>
      t.hw.reg (fnReg k 0) = v &&& 0x001F7F77 ∧ (∀ c : Bool, (t.hw.safFn c k).state = 3
      ∧ (t.hw.safFn c k).wait = true) ∧ t.hw.f (fnReg k 0x34) 2 0 = 3 ∧ t.hw.bit (sf rREADY) 0 = false) ∧
    (∀ (v : Word), Unlocked s pSAF → Gives (.safConfigWrite g 0x040 v) s fun t => t.hw.reg (sf 0x040) = v
      ∧ t.hw.saf = s.hw.saf) ∧
    (∀ (v : BitVec 4), Unlocked s pSAF → Gives (.soReqWrite g v) s fun t => t.hw.reg (sf 0x090) = v.setWidth 32
      ∧ t.hw.saf = s.hw.saf)

/-- A tick of a channel passes each line's sample through its filter: both lines of a pair. A tick of channel A is
counted and PAIRS shows what both channels permit. A channel that over 1,000 of its ticks saw the other tick fewer
than 990 or more than 1,010 times raises fault 3; before, both are counted. A function without a kind is off after a
tick. A demand on an STO function makes it FORCED in that channel at once, and after a tick of channel A the module
holds it FORCED. With one copy of a telegram alone when its COMPARE_WIN has passed the connection is SINGLE and its
GRACE runs, or with GRACE 0 it is SAFE with cause 7; with no window passed nothing changes. GRACE passed gives SAFE
with cause 7 and no safety bits; a watchdog that has run out SAFE with cause 8, counted; one that has not changes
nothing. Throughout, the die is not held in reset; no load is shed where a link, an acquisition or a safety wire acts.
-/
def Obligations.SafetyTicksAndConnections : Prop :=
  ∀ (s : State) (g : Nat), Live s →
    (∀ (c : Bool) (inp : TickInputs) (i : Fin 8), Unshed s → Gives (.safetyTick g c inp) s fun t =>
      (c = false → tabGet {} (2 * i) t.hw.saf.a.lines = (tabGet {} (2
          * i) s.hw.saf.a.lines).sample (s.hw.f (sf (0x060 + 4 * i)) 6 4) (inp.siA.getLsbD i)
      ∧ t.hw.saf.tick = s.hw.saf.tick + 1) ∧ (c = true → tabGet {} (2 * i + 1) t.hw.saf.b.lines
          = (tabGet {} (2 * i + 1) s.hw.saf.b.lines).sample (s.hw.f (sf (0x060 + 4
          * i)) 6 4) (inp.siB.getLsbD i) ∧ t.hw.saf.tick = s.hw.saf.tick)
      ∧ t.hw.f (sf 0x04C) 7 0 = (t.hw.saf.a.permit &&& t.hw.saf.b.permit).toNat) ∧
    (∀ (c : Bool) (inp : TickInputs), Unshed s → (s.hw.safCh c).ticks = 999 → (s.hw.safCh c).others < 990
      ∨ 1010 < (s.hw.safCh c).others → Gives (.safetyTick g c inp) s fun t => t.hw.saf.faults.getLsbD 3 = true
      ∧ t.hw.bit (sf rSTAT) 0 = true ∧ t.hw.bit (sf rREADY) 0 = false ∧ t.hw.saf.a.closed = 0
      ∧ t.hw.saf.b.closed = 0 ∧ (t.hw.safCh c).ticks = 0) ∧
    (∀ (c : Bool) (inp : TickInputs), Unshed s → (s.hw.safCh c).ticks < 999 →
      Gives (.safetyTick g c inp) s fun t => (t.hw.safCh c).ticks = (s.hw.safCh c).ticks + 1
      ∧ (t.hw.safCh (!c)).others = (s.hw.safCh (!c)).others + 1) ∧
    (∀ (c : Bool) (inp : TickInputs) (k : Fin 8), Unshed s → s.hw.fnKind k = 0 →
      Gives (.safetyTick g c inp) s fun t => (t.hw.safFn c k).state = 0 ∧ (t.hw.safFn c k).wait = false
      ∧ (t.hw.safFn c k).lead = false) ∧
    (∀ (c : Bool) (inp : TickInputs) (k i : Fin 8), Unshed s → s.hw.fnKind k = 1 → (s.hw.safFn c k).state = 1 →
      s.hw.bit (fnReg k 8) i = true → s.hw.bit (sf (0x060 + 4 * i)) 0 = false →
      Gives (.safetyTick g c inp) s fun t => (t.hw.safFn c k).state = 3 ∧ t.hw.fnForced k = true
      ∧ t.hw.f (fnReg k 0x34) 2 0 = 3) ∧
    (∀ (j : Fin 16) (w : Nat × Bool × List Byte × Nat) (rest : List (Nat × Bool × List Byte × Nat)), Unshed s →
      s.hw.rxEn j = true → (s.hw.safRx j).wait = w :: rest →
      w.2.2.2 + 50000 * s.hw.f (rxReg j 0x0C) 31 24 ≤ max s.hw.grain g →
      ∀ x ∈ rest, max s.hw.grain g < x.2.2.2 + 50000 * s.hw.f (rxReg j 0x0C) 31 24 → s.hw.rxState j = 1
      ∨ s.hw.rxState j = 2 → s.hw.f (rxReg j 0x10) 7 0 ≠ 0 → Gives (.sortikCompareWin g j) s fun t =>
      t.hw.rxState j = 2 ∧ (t.hw.safRx j).wait = rest ∧ (t.hw.safRx j).last = some (telSeq w.2.2.1)
      ∧ (t.hw.safRx j).accAt = max s.hw.grain g
      ∧ (t.hw.safRx j).grace = some ((s.hw.safRx j).grace.getD (max s.hw.grain g))
      ∧ t.hw.f (rxReg j 0x14) 5 4 = (if w.2.1 then 2 else 1)
      ∧ t.hw.f (rxReg j 0x18) 7 0 = min (s.hw.f (rxReg j 0x18) 7 0 + 1) 255 ∧ t.hw.bit (sf rEVT) 7 = true
      ∧ t.hw.bit (sf rSTAT) 3 = true) ∧
    (∀ (j : Fin 16) (w : Nat × Bool × List Byte × Nat) (rest : List (Nat × Bool × List Byte × Nat)), Unshed s →
      s.hw.rxEn j = true → (s.hw.safRx j).wait = w :: rest →
      w.2.2.2 + 50000 * s.hw.f (rxReg j 0x0C) 31 24 ≤ max s.hw.grain g →
      ∀ x ∈ rest, max s.hw.grain g < x.2.2.2 + 50000 * s.hw.f (rxReg j 0x0C) 31 24 → s.hw.rxState j = 1
      ∨ s.hw.rxState j = 2 → s.hw.f (rxReg j 0x10) 7 0 = 0 → Gives (.sortikCompareWin g j) s fun t =>
      t.hw.rxState j = 3 ∧ t.hw.f (rxReg j 0x14) 11 8 = 7 ∧ t.hw.f (rxReg j 0x14) 31 16 = 0
      ∧ (t.hw.safRx j).wait = [] ∧ t.hw.bit (sf rEVT) 6 = true) ∧
    (∀ (j : Fin 16), Unshed s → s.hw.rxEn j = false
      ∨ ∀ x ∈ (s.hw.safRx j).wait, max s.hw.grain g < x.2.2.2 + 50000 * s.hw.f (rxReg j 0x0C) 31 24 →
      Gives (.sortikCompareWin g j) s fun t => t.hw.regs = s.hw.regs ∧ t.hw.saf = s.hw.saf ∧ t.mem = s.mem
      ∧ t.hw.out = []) ∧
    (∀ (j : Fin 16) (q : Nat), Unshed s → s.hw.rxEn j = true → (s.hw.safRx j).grace = some q →
      q + s.hw.f (rxReg j 0x10) 7 0 * 500000000 ≤ max s.hw.grain g → s.hw.rxState j ≠ 3 →
      Gives (.sortikGraceExpiry g j) s fun t => t.hw.rxState j = 3 ∧ t.hw.f (rxReg j 0x14) 11 8 = 7
      ∧ t.hw.f (rxReg j 0x14) 31 16 = 0 ∧ (t.hw.safRx j).grace = none ∧ (t.hw.safRx j).wait = []
      ∧ t.hw.bit (sf rEVT) 6 = true) ∧
    (∀ (j : Fin 16), Unshed s → s.hw.rxEn j = false ∨ (s.hw.safRx j).grace.all (fun q =>
      decide (max s.hw.grain g < q + s.hw.f (rxReg j 0x10) 7 0 * 500000000)) = true →
      Gives (.sortikGraceExpiry g j) s fun t => t.hw.regs = s.hw.regs ∧ t.hw.saf = s.hw.saf ∧ t.mem = s.mem
      ∧ t.hw.out = []) ∧
    (∀ (j : Fin 16), Unshed s → s.hw.rxEn j = true → s.hw.rxState j ≠ 3 →
      (s.hw.safRx j).accAt + s.hw.f (rxReg j 0x0C) 15 0 * 500000 ≤ max s.hw.grain g →
      Gives (.sortikWatchdog g j) s fun t => t.hw.rxState j = 3 ∧ t.hw.f (rxReg j 0x14) 11 8 = 8
      ∧ t.hw.f (rxReg j 0x14) 31 16 = 0
      ∧ t.hw.f (rxReg j 0x18) 15 8 = min (s.hw.f (rxReg j 0x18) 15 8 + 1) 255 ∧ t.hw.bit (sf rEVT) 6 = true) ∧
    (∀ (j : Fin 16), Unshed s → s.hw.rxEn j = false ∨ s.hw.rxState j = 3
      ∨ max s.hw.grain g < (s.hw.safRx j).accAt + s.hw.f (rxReg j 0x0C) 15 0 * 500000 →
      Gives (.sortikWatchdog g j) s fun t => t.hw.regs = s.hw.regs ∧ t.hw.saf = s.hw.saf ∧ t.mem = s.mem
      ∧ t.hw.out = [])

/-- In its phase of the 1 µs period a downstream frame steps SEQ and CFG_IDX; it is sent; taken in, it gives the field
die the requested outputs and one channel's configuration and calls a reply; out of phase or in shedding it does
nothing. A reply that is not valid counts and sets EVT.CRC; a valid one of a configured die with its supply makes the
link good and shows inputs, readbacks, wire breaks and shutdowns; no reply is taken that is not due. A level that has
stood for the filter time is accepted for an input without wire break; a shorter one is a glitch. Where detection is
on, a wire break of an input that has stood for the filter time stands, and its end after the same time. Shutdowns of
driven outputs and restarts stand in the field die; a supply fault after 100 µs, until its end has stood for 10 ms.
Each before its time changes nothing. OVL_CLR clears a latch whose channel is no longer shut down. OUT_SET and OUT_CLR
set and clear outputs. A compare pulse ends at its time. A link without a valid frame for STALE_N periods is stale; a
field die without one for 16 µs resets. Throughout, the die is not held in reset; no command that waits goes first
where commands of one cycle have an order. -/
def Obligations.FieldChannels : Prop :=
  ∀ (s : State) (g : Nat) (p : Bool) (ch : Fin 32), Live s →
    (s.hw.sup.shed = false → max s.hw.grain g % 500 = (if p then 250 else 0) → (s.hw.field (grpN p)).idx < 16 →
      Gives (.fieldDownstreamFrame g p true) s fun t =>
      (t.hw.field (grpN p)).dnSeq = ((s.hw.field (grpN p)).dnSeq + 1) % 16
      ∧ (t.hw.field (grpN p)).idx = ((s.hw.field (grpN p)).idx + 1) % 16 ∧ (t.hw.field (grpN p)).upDue = true
      ∧ (t.hw.field (grpN p)).outEn = (s.hw.at g).outEnable (grpN p)
      ∧ (t.hw.field (grpN p)).req = chans ((s.hw.at g).outReq (grpN p))
      ∧ tabGet 0 (s.hw.field (grpN p)).idx (t.hw.field (grpN p)).cfg
          = s.hw.cfgWord (grpN p) (s.hw.field (grpN p)).idx
      ∧ (t.hw.field (grpN p)).inp = (s.hw.field (grpN p)).inp
      ∧ (t.hw.field (grpN p)).upSeq = ((s.hw.field (grpN p)).upSeq + 1) % 16 ∧ t.hw.out
          = [{ kind := .fieldDown, port := (grpN p), data := (s.hw.at g).downFrame (grpN p) (((s.hw.field (grpN p)).dnSeq + 1) % 16) (s.hw.field (grpN p)).idx }]
      ∧ t.hw.regs = s.hw.regs) ∧
    (s.hw.sup.shed = false → max s.hw.grain g % 500 = (if p then 250 else 0) →
      Gives (.fieldDownstreamFrame g p false) s fun t => (t.hw.field (grpN p)) = { (s.hw.field (grpN p)) with
            dnSeq := ((s.hw.field (grpN p)).dnSeq + 1) % 16, idx := ((s.hw.field (grpN p)).idx + 1) % 16 }
      ∧ t.hw.regs = s.hw.regs) ∧
    (∀ (taken : Bool), s.hw.sup.shed = true ∨ max s.hw.grain g % 500 ≠ (if p then 250 else 0) →
      Gives (.fieldDownstreamFrame g p taken) s fun t => t.hw.regs = s.hw.regs ∧ t.hw.fields = s.hw.fields
      ∧ t.hw.out = []) ∧
    (∀ (rb : BitVec 16) (volts : BitVec 8) (hot : Bool), Alone s g → (s.hw.field (grpN p)).upDue = true →
      s.hw.sup.shed = false → Gives (.fieldUpstreamFrame g p false rb volts hot) s fun t =>
      t.hw.f (fo (grpN p) 0x0AC) 31 16 = min (s.hw.f (fo (grpN p) 0x0AC) 31 16 + 1) 0xFFFF
      ∧ t.hw.bit (fo (grpN p) rEVT) 2 = true
      ∧ (t.hw.field (grpN p)) = { (s.hw.field (grpN p)) with upDue := false, glitch := 0, fieldReset := false }
      ∧ t.hw.reg (fo (grpN p) 0x08C) = s.hw.reg (fo (grpN p) 0x08C)) ∧
    (∀ (rb : BitVec 16) (volts : BitVec 8) (hot : Bool), Alone s g → (s.hw.field (grpN p)).upDue = true →
      s.hw.sup.shed = false → (s.hw.field (grpN p)).got = 0xFFFF → (s.hw.field (grpN p)).uv = false →
      Gives (.fieldUpstreamFrame g p true rb volts hot) s fun t =>
      t.hw.reg (fo (grpN p) 0x08C) = (s.hw.fieldIn (grpN p)).setWidth 32
      ∧ t.hw.reg (fo (grpN p) 0x090) = rb.setWidth 32
      ∧ t.hw.reg (fo (grpN p) 0x094) = (s.hw.field (grpN p)).wb.setWidth 32
      ∧ t.hw.f (fo (grpN p) 0x098) 15 0 = (s.hw.field (grpN p)).shut.toNat
      ∧ t.hw.f (fo (grpN p) 0x0A4) 23 16 = volts.toNat ∧ (t.hw.field (grpN p)).stale = false
      ∧ (t.hw.field (grpN p)).upLast = some (s.hw.field (grpN p)).upSeq
      ∧ (t.hw.field (grpN p)).upAt = max s.hw.grain g ∧ (t.hw.field (grpN p)).upDue = false
      ∧ (t.hw.field (grpN p)).fieldReset = false ∧ t.hw.bit (fo (grpN p) rREADY) 2 = true) ∧
    (∀ (rb : BitVec 16) (volts : BitVec 8) (hot : Bool), Alone s g → (s.hw.field (grpN p)).upDue = true →
      s.hw.sup.shed = false → (s.hw.field (grpN p)).stale = true → (s.hw.field (grpN p)).uv = true →
      Gives (.fieldUpstreamFrame g p true rb volts hot) s fun t =>
      t.hw.reg (fo (grpN p) 0x08C) = s.hw.reg (fo (grpN p) 0x08C)
      ∧ t.hw.reg (fo (grpN p) 0x090) = s.hw.reg (fo (grpN p) 0x090) ∧ (t.hw.field (grpN p)).stale = true
      ∧ t.hw.bit (fo (grpN p) rSTAT) 1 = true) ∧
    (∀ (valid : Bool) (rb : BitVec 16) (volts : BitVec 8) (hot : Bool), Alone s g →
      (s.hw.field (grpN p)).upDue = false ∨ s.hw.sup.shed = true →
      Gives (.fieldUpstreamFrame g p valid rb volts hot) s fun t => t.hw.regs = s.hw.regs
      ∧ t.hw.fields = s.hw.fields ∧ t.hw.out = []) ∧
    (∀ (lvl : Bool) (i first : Nat), (s.hw.field (ch.val / 16)).isOut (ch.val % 16) = false →
      (s.hw.field (ch.val / 16)).wb.getLsbD (ch.val % 16) = false →
      first + fieldFilt (fld ((s.hw.field (ch.val / 16)).word (ch.val % 16)) 3 1) ≤ max s.hw.grain g →
      Gives (.fieldInputAccept g ch lvl first) s fun t =>
      (t.hw.field (ch.val / 16)).inp.getLsbD (ch.val % 16) = lvl ∧ (i = (ch.val % 16)
      ∨ (t.hw.field (ch.val / 16)).inp.getLsbD i = (s.hw.field (ch.val / 16)).inp.getLsbD i)
      ∧ t.hw.regs = s.hw.regs) ∧
    (∀ (lvl : Bool) (first : Nat), (s.hw.field (ch.val / 16)).isOut (ch.val % 16) = true
      ∨ (s.hw.field (ch.val / 16)).wb.getLsbD (ch.val % 16) = true
      ∨ max s.hw.grain g < first + fieldFilt (fld ((s.hw.field (ch.val / 16)).word (ch.val % 16)) 3 1) →
      Gives (.fieldInputAccept g ch lvl first) s fun t =>
      (t.hw.field (ch.val / 16)) = (s.hw.field (ch.val / 16)) ∧ t.hw.regs = s.hw.regs) ∧
    (∀ (k len : Nat), (s.hw.field (ch.val / 16)).isOut (ch.val % 16) = false →
      len < fieldFilt (fld ((s.hw.field (ch.val / 16)).word (ch.val % 16)) 3 1) →
      Gives (.fieldGlitch g ch len) s fun t => (t.hw.field (ch.val / 16))
          = { (s.hw.field (ch.val / 16)) with glitch := (s.hw.field (ch.val / 16)).glitch ||| bit16 (ch.val % 16) }
      ∧ (k = ch.val / 16 ∨ t.hw.field k = s.hw.field k) ∧ t.hw.regs = s.hw.regs) ∧
    (∀ (len : Nat), (s.hw.field (ch.val / 16)).isOut (ch.val % 16) = true
      ∨ fieldFilt (fld ((s.hw.field (ch.val / 16)).word (ch.val % 16)) 3 1) ≤ len →
      Gives (.fieldGlitch g ch len) s fun t => (t.hw.field (ch.val / 16)) = (s.hw.field (ch.val / 16))
      ∧ t.hw.regs = s.hw.regs) ∧
    (∀ (k first : Nat), bitOf ((s.hw.field (ch.val / 16)).word (ch.val % 16)) 4 = true →
      (s.hw.field (ch.val / 16)).isOut (ch.val % 16) = false →
      first + fieldFilt (fld ((s.hw.field (ch.val / 16)).word (ch.val % 16)) 3 1) ≤ max s.hw.grain g →
      Gives (.fieldWireBreak g ch first) s fun t => (t.hw.field (ch.val / 16))
          = { (s.hw.field (ch.val / 16)) with wb := (s.hw.field (ch.val / 16)).wb ||| bit16 (ch.val % 16) }
      ∧ (k = ch.val / 16 ∨ t.hw.field k = s.hw.field k) ∧ t.hw.regs = s.hw.regs) ∧
    (∀ (first : Nat), bitOf ((s.hw.field (ch.val / 16)).word (ch.val % 16)) 4 = false
      ∨ (s.hw.field (ch.val / 16)).isOut (ch.val % 16) = true
      ∨ max s.hw.grain g < first + fieldFilt (fld ((s.hw.field (ch.val / 16)).word (ch.val % 16)) 3 1) →
      Gives (.fieldWireBreak g ch first) s fun t => (t.hw.field (ch.val / 16)) = (s.hw.field (ch.val / 16))
      ∧ t.hw.regs = s.hw.regs) ∧
    (∀ (k first : Nat), first + fieldFilt (fld ((s.hw.field (ch.val / 16)).word (ch.val % 16)) 3 1)
          ≤ max s.hw.grain g → Gives (.fieldWireBreakEnd g ch first) s fun t => (t.hw.field (ch.val / 16))
          = { (s.hw.field (ch.val / 16)) with wb := (s.hw.field (ch.val / 16)).wb &&& ~~~(bit16 (ch.val % 16)) }
      ∧ (k = ch.val / 16 ∨ t.hw.field k = s.hw.field k) ∧ t.hw.regs = s.hw.regs) ∧
    (∀ (first : Nat), max s.hw.grain g < first
          + fieldFilt (fld ((s.hw.field (ch.val / 16)).word (ch.val % 16)) 3 1) →
      Gives (.fieldWireBreakEnd g ch first) s fun t => (t.hw.field (ch.val / 16)) = (s.hw.field (ch.val / 16))
      ∧ t.hw.regs = s.hw.regs) ∧
    (∀ (k : Nat), (s.hw.field (ch.val / 16)).drives (ch.val % 16) = true →
      Gives (.fieldOverloadShutdown g ch) s fun t => (t.hw.field (ch.val / 16))
          = { (s.hw.field (ch.val / 16)) with shut := (s.hw.field (ch.val / 16)).shut ||| bit16 (ch.val % 16) }
      ∧ (k = ch.val / 16 ∨ t.hw.field k = s.hw.field k) ∧ t.hw.regs = s.hw.regs
      ∧ (t.hw.field (ch.val / 16)).drives (ch.val % 16) = false) ∧
    ((s.hw.field (ch.val / 16)).drives (ch.val % 16) = false → Gives (.fieldOverloadShutdown g ch) s fun t =>
      (t.hw.field (ch.val / 16)) = (s.hw.field (ch.val / 16)) ∧ t.hw.regs = s.hw.regs) ∧
    (∀ (k : Nat), Gives (.fieldOutputRestart g ch) s fun t => (t.hw.field (ch.val / 16))
          = { (s.hw.field (ch.val / 16)) with shut := (s.hw.field (ch.val / 16)).shut &&& ~~~(bit16 (ch.val % 16)) }
      ∧ (k = ch.val / 16 ∨ t.hw.field k = s.hw.field k) ∧ t.hw.regs = s.hw.regs) ∧
    (∀ (v : BitVec 16) (i : Nat), Alone s g → Unlocked s (pFIO (grpN p)) → v.getLsbD i = true →
      s.hw.bit (fo (grpN p) 0x098) i = false → (s.hw.field (grpN p)).shut.getLsbD i = false → i < 16 →
      Gives (.ovlClr g p v) s fun t => t.hw.bit (fo (grpN p) 0x098) (16 + i) = false
      ∧ (t.hw.field (grpN p)) = (s.hw.field (grpN p))) ∧
    (∀ (v : BitVec 16) (i : Nat), Alone s g → Unlocked s (pFIO (grpN p)) →
      s.hw.bit (fo (grpN p) 0x098) i = true ∨ (s.hw.field (grpN p)).shut.getLsbD i = true → i < 16 →
      Gives (.ovlClr g p v) s fun t =>
      t.hw.bit (fo (grpN p) 0x098) (16 + i) = s.hw.bit (fo (grpN p) 0x098) (16 + i)
      ∧ (t.hw.field (grpN p)) = (s.hw.field (grpN p))) ∧
    (∀ (v : BitVec 16), Unlocked s (pFIO (grpN p)) → Gives (.fieldOutSet g p v) s fun t =>
      t.hw.reg (fo (grpN p) 0x080) = s.hw.reg (fo (grpN p) 0x080) ||| v.setWidth 32
      ∧ t.hw.fields = s.hw.fields) ∧
    (∀ (v : BitVec 16), Unlocked s (pFIO (grpN p)) → Gives (.fieldOutClr g p v) s fun t =>
      t.hw.reg (fo (grpN p) 0x080) = s.hw.reg (fo (grpN p) 0x080) &&& ~~~(v.setWidth 32)
      ∧ t.hw.fields = s.hw.fields) ∧
    ((tabGet (0, 0) (ch.val % 16) (s.hw.field (ch.val / 16)).pulses).2 + 8 ≤ max s.hw.grain g →
      Gives (.fieldPulseEnd g ch) s fun t =>
      tabGet (0, 0) (ch.val % 16) (t.hw.field (ch.val / 16)).pulses = (0, 0)
      ∧ (s.hw.at g).outReq (ch.val / 16) (ch.val % 16) = t.hw.outReq (ch.val / 16) (ch.val % 16)) ∧
    (max s.hw.grain g < (tabGet (0, 0) (ch.val % 16) (s.hw.field (ch.val / 16)).pulses).2 + 8 →
      Gives (.fieldPulseEnd g ch) s fun t => (t.hw.field (ch.val / 16)) = (s.hw.field (ch.val / 16))
      ∧ t.hw.regs = s.hw.regs) ∧
    (∀ (i first : Nat), first + 50000 ≤ max s.hw.grain g → Gives (.fieldSupplyUv g p first) s fun t =>
      (t.hw.field (grpN p)) = { (s.hw.field (grpN p)) with uv := true }
      ∧ (t.hw.field (grpN p)).drives i = false ∧ t.hw.regs = s.hw.regs) ∧
    (∀ (first : Nat), max s.hw.grain g < first + 50000 → Gives (.fieldSupplyUv g p first) s fun t =>
      (t.hw.field (grpN p)) = (s.hw.field (grpN p)) ∧ t.hw.regs = s.hw.regs) ∧
    (∀ (i first : Nat), first + 50000 ≤ max s.hw.grain g → Gives (.fieldSupplyOv g p first) s fun t =>
      (t.hw.field (grpN p)) = { (s.hw.field (grpN p)) with ov := true }
      ∧ (t.hw.field (grpN p)).drives i = false ∧ t.hw.regs = s.hw.regs) ∧
    (∀ (first : Nat), max s.hw.grain g < first + 50000 → Gives (.fieldSupplyOv g p first) s fun t =>
      (t.hw.field (grpN p)) = (s.hw.field (grpN p)) ∧ t.hw.regs = s.hw.regs) ∧
    (∀ (ovp : Bool) (first : Nat), first + 5000000 ≤ max s.hw.grain g →
      Gives (.fieldSupplyClear g p ovp first) s fun t => (t.hw.field (grpN p)) = (if ovp
          then { (s.hw.field (grpN p)) with ov := false } else { (s.hw.field (grpN p)) with uv := false })
      ∧ t.hw.regs = s.hw.regs) ∧
    (∀ (ovp : Bool) (first : Nat), max s.hw.grain g < first + 5000000 →
      Gives (.fieldSupplyClear g p ovp first) s fun t => (t.hw.field (grpN p)) = (s.hw.field (grpN p))
      ∧ t.hw.regs = s.hw.regs) ∧
    ((s.hw.field (grpN p)).upAt + 500 * max 1 (s.hw.f (fo (grpN p) 0x0A8) 7 0) ≤ max s.hw.grain g →
      (s.hw.field (grpN p)).stale = false → Gives (.fieldLinkStale g p) s fun t =>
      (t.hw.field (grpN p)) = { (s.hw.field (grpN p)) with stale := true }
      ∧ t.hw.bit (fo (grpN p) rEVT) 1 = true ∧ t.hw.bit (fo (grpN p) rREADY) 2 = false
      ∧ t.hw.outEnable (grpN p) = false) ∧
    ((s.hw.field (grpN p)).stale = true
      ∨ max s.hw.grain g < (s.hw.field (grpN p)).upAt + 500 * max 1 (s.hw.f (fo (grpN p) 0x0A8) 7 0) →
      Gives (.fieldLinkStale g p) s fun t => t.hw.regs = s.hw.regs ∧ t.hw.fields = s.hw.fields ∧ t.hw.out = []) ∧
    (∀ (i : Nat), (s.hw.field (grpN p)).dnAt + 8000 ≤ max s.hw.grain g → Gives (.fieldDieReset g p) s fun t =>
      (t.hw.field (grpN p)) = { (s.hw.field (grpN p)) with
            cfg := [], got := 0, fieldReset := true, req := 0, outEn := false, wb := 0, shut := 0,
            upDue := false } ∧ (t.hw.field (grpN p)).drives i = false ∧ t.hw.regs = s.hw.regs) ∧
    (max s.hw.grain g < (s.hw.field (grpN p)).dnAt + 8000 → Gives (.fieldDieReset g p) s fun t =>
      t.hw.regs = s.hw.regs ∧ t.hw.fields = s.hw.fields ∧ t.hw.out = [])

/-- A claim due while the partner's DRIVE line is low sends CLAIM and waits; with the line high a member of a pair in
STANDBY or RUN goes to SHADOW. Without a CLAIM of the partner in CLAIM_T its time-out raises the own DRIVE line from
the next grain, and before it nothing happens; of two claims the earlier wins, of equal ones the module in the even
position. A module in the odd position that sees both lines high outside a handover releases and goes to SHADOW.
PAIR_HANDOVER starts on an owner in SYNC with its partner in SHADOW, else it is refused with its reason; an answer
counts no later than a batch before T_H, and without one it is abandoned; the partner takes over at T_H, and at its
end the old owner releases. When the partner's DRIVE line falls a module in SHADOW goes to RUN: hot in SYNC, else cold
with its axes off; falling during a handover, the owner takes back the legs it has given. LEAVE is refused outside
SHADOW or without link. An opened lever starts a handover where one is possible. A broken PRESENT_N releases
ownership. In SHADOW a mirrored write is ignored; on the owner it is sent and queued. Throughout, the die is not held
in reset. -/
def Obligations.PairOwnership : Prop :=
  ∀ (s : State) (g : Nat), Live s →
    (s.hw.pair.claimDue = true → Gives (.pairClaim g false) s fun t =>
      t.hw.pair.claim = some ((s.hw.at g).ctGrains (s.hw.at g).grain) ∧ t.hw.pair.claimDue = false
      ∧ t.hw.out.map (fun o =>
      (o.kind, o.nums.getD 0 0, o.nums.getD 1 0 / 8 % 2, o.data)) = [(OutKind.molad, 2, 0, [])]
      ∧ t.hw.pStat 0 = s.hw.pStat 0 ∧ t.hw.mode = s.hw.mode) ∧
    (s.hw.pair.claimDue = true → s.hw.sys.modeGrain < max s.hw.grain g → s.hw.mode = mSTANDBY
      ∨ s.hw.mode = mRUN → s.hw.paired = true → Gives (.pairClaim g true) s fun t => t.hw.mode = mSHADOW
      ∧ t.hw.pStat 1 = true ∧ t.hw.pair.claimDue = false ∧ t.hw.out = []) ∧
    (∀ (drive : Bool), s.hw.pair.claimDue = false → Gives (.pairClaim g drive) s fun t => t.hw.pStat 1 = drive
      ∧ t.hw.pair = s.hw.pair ∧ t.hw.mode = s.hw.mode ∧ t.hw.out = []) ∧
    (s.hw.pair.claim ≠ none → s.hw.pair.claimAt + 500 * s.hw.f (pr 0x044) 31 16 ≤ max s.hw.grain g →
      Gives (.claimTimeout g) s fun t => t.hw.pStat 0 = true
      ∧ t.hw.pair = { s.hw.pair with claim := none, driveFrom := max s.hw.grain g + 1 }) ∧
    (s.hw.pair.claim = none ∨ max s.hw.grain g < s.hw.pair.claimAt + 500 * s.hw.f (pr 0x044) 31 16 →
      Gives (.claimTimeout g) s fun t => t.hw.regs = s.hw.regs ∧ t.hw.pair = s.hw.pair ∧ t.mem = s.mem
      ∧ t.hw.out = []) ∧
    (∀ (f : MoladHdr) (c : Nat), s.hw.pair.rxSeqs.contains f.seq.toNat = false → s.hw.pair.claim = some c →
      c < f.stamp ∨ (c = f.stamp ∧ s.hw.pStat 9 = false) → Gives (.moladClaim g f) s fun t =>
      t.hw.pStat 0 = true ∧ t.hw.pair.claim = none ∧ t.hw.mode = s.hw.mode) ∧
    (∀ (f : MoladHdr) (c : Nat), s.hw.pair.rxSeqs.contains f.seq.toNat = false → s.hw.pair.claim = some c →
      f.stamp < c ∨ (c = f.stamp ∧ s.hw.pStat 9 = true) → s.hw.sys.modeGrain < max s.hw.grain g →
      s.hw.mode = mSTANDBY ∨ s.hw.mode = mRUN → s.hw.paired = true → Gives (.moladClaim g f) s fun t =>
      t.hw.pStat 0 = s.hw.pStat 0 ∧ t.hw.pair.claim = none ∧ t.hw.mode = mSHADOW) ∧
    (s.hw.pStat 0 = true → s.hw.pStat 8 = false → s.hw.pStat 9 = true → s.hw.sys.modeGrain < max s.hw.grain g →
      s.hw.mode = mSTANDBY ∨ s.hw.mode = mRUN → Gives (.driveContention g) s fun t => t.hw.pStat 0 = false
      ∧ t.hw.mode = mSHADOW ∧ t.hw.bit (pr rEVT) 13 = true) ∧
    (s.hw.pStat 0 = false ∨ s.hw.pStat 8 = true ∨ s.hw.pStat 9 = false → Gives (.driveContention g) s fun t =>
      t.hw.pStat 0 = s.hw.pStat 0 ∧ t.hw.pStat 1 = true ∧ t.hw.mode = s.hw.mode ∧ t.hw.pair = s.hw.pair) ∧
    (∀ (a : Fin 32) (n : Fin 96), s.hw.mode = mSHADOW → s.hw.pStat 2 = true → s.hw.pair.hand = none →
      s.hw.sys.modeGrain < max s.hw.grain g → Gives (.partnerDriveFall g) s fun t => t.hw.mode = mRUN
      ∧ t.hw.pStat 0 = true ∧ t.hw.pStat 1 = false ∧ t.hw.bit (pr rEVT) 1 = true ∧ t.hw.bit (pr rEVT) 2 = true
      ∧ t.hw.reg (pr 0x07C) = BitVec.ofNat 32 (max s.hw.grain g) ∧ t.hw.axState a = s.hw.axState a
      ∧ (t.hw.leg n).enaHold = some (max s.hw.grain g)) ∧
    (∀ (a : Fin 32), s.hw.mode = mSHADOW → s.hw.pStat 2 = false → s.hw.pair.hand = none →
      s.hw.sys.modeGrain < max s.hw.grain g → Gives (.partnerDriveFall g) s fun t => t.hw.mode = mRUN
      ∧ t.hw.pStat 0 = true ∧ t.hw.bit (pr rEVT) 3 = true ∧ (t.hw.axState a = sOFF ∨ t.hw.axState a = sFAULT)) ∧
    (∀ (c : Nat) (n : Fin 96), s.hw.mode = mRUN → s.hw.pStat 0 = true → s.hw.pStat 1 = true →
      s.hw.pair.hand = some (c, true, true) → Gives (.partnerDriveFall g) s fun t => t.hw.mode = mRUN
      ∧ t.hw.pStat 0 = true ∧ t.hw.pStat 8 = false ∧ t.hw.pair.hand = none ∧ t.hw.bit (pr rEVT) 1 = true
      ∧ t.hw.bit (pr rEVT) 2 = true ∧ (t.hw.leg n).enaHold = (if (s.hw.leg n).handNotch.isSome
          then some (max s.hw.grain g) else (s.hw.leg n).enaHold)) ∧
    (s.hw.mode ≠ mSHADOW → s.hw.pair.hand = none → Gives (.partnerDriveFall g) s fun t => t.hw.mode = s.hw.mode
      ∧ t.hw.pStat 0 = s.hw.pStat 0 ∧ t.hw.pStat 1 = false ∧ t.hw.pair = s.hw.pair) ∧
    (Unlocked s pPAIR → s.hw.pStat 0 = true → s.hw.pair.hand = none → s.hw.linkUp = true →
      s.hw.pair.partnerMode = mSHADOW → s.hw.pStat 2 = true → s.hw.pStat 7 = false →
      Gives (.pairHandover g) s fun t => t.hw.pStat 8 = true ∧ t.hw.pStat 0 = true
      ∧ t.hw.pair.hand = some ((s.hw.at g).handInstant (s.hw.at g).wgrain, true, false)
      ∧ t.hw.out.map (fun o => (o.kind, o.nums.getD 0 0, o.nums.getD 1 0 / 8 % 2, o.data))
          = [(OutKind.molad, 4, 0, leBytes 8 ((s.hw.at g).handInstant (s.hw.at g).wgrain))]) ∧
    (Unlocked s pPAIR → s.hw.pStat 0 = false ∨ s.hw.pair.hand ≠ none → Gives (.pairHandover g) s fun t =>
      t.hw.f (pr 0x050) 2 0 = 1 ∧ t.hw.bit (pr rEVT) 10 = true ∧ t.hw.pair = s.hw.pair ∧ t.hw.out = []) ∧
    (Unlocked s pPAIR → s.hw.pStat 0 = true → s.hw.pair.hand = none → s.hw.linkUp = false →
      Gives (.pairHandover g) s fun t => t.hw.f (pr 0x050) 2 0 = 4 ∧ t.hw.bit (pr rEVT) 10 = true
      ∧ t.hw.pair = s.hw.pair ∧ t.hw.out = []) ∧
    (Unlocked s pPAIR → s.hw.pStat 0 = true → s.hw.pair.hand = none → s.hw.linkUp = true →
      s.hw.pair.partnerMode = mSHADOW → s.hw.pStat 2 = false ∨ s.hw.pStat 7 = true →
      Gives (.pairHandover g) s fun t => t.hw.f (pr 0x050) 2 0 = 3 ∧ t.hw.bit (pr rEVT) 10 = true
      ∧ t.hw.pair = s.hw.pair ∧ t.hw.out = []) ∧
    (∀ (tH : Nat), s.hw.pair.hand = some (tH, true, false) →
      tH ≤ (s.hw.at g).ctGrains (s.hw.at g).grain + s.hw.batch → Gives (.handoverAbandon g) s fun t =>
      t.hw.pStat 8 = false ∧ t.hw.pair = { s.hw.pair with hand := none } ∧ t.hw.bit (pr rEVT) 10 = true) ∧
    (∀ (tH : Nat), s.hw.pair.hand = none ∨ s.hw.pair.hand = some (tH, true, true)
      ∨ s.hw.pair.hand = some (tH, false, true) ∨ (s.hw.pair.hand = some (tH, true, false)
      ∧ (s.hw.at g).ctGrains (s.hw.at g).grain + s.hw.batch < tH) → Gives (.handoverAbandon g) s fun t =>
      t.hw.regs = s.hw.regs ∧ t.hw.pair = s.hw.pair ∧ t.mem = s.mem ∧ t.hw.out = []) ∧
    (∀ (tH : Nat) (acked : Bool), s.hw.pair.hand = some (tH, false, acked) →
      tH ≤ (s.hw.at g).ctGrains (s.hw.at g).grain → s.hw.mode = mSHADOW →
      s.hw.sys.modeGrain < max s.hw.grain g → Gives (.handoverTake g) s fun t => t.hw.mode = mRUN
      ∧ t.hw.pStat 0 = true ∧ t.hw.pair.hand = s.hw.pair.hand) ∧
    (∀ (tH : Nat) (acked : Bool), s.hw.pair.hand = none ∨ s.hw.pair.hand = some (tH, true, acked)
      ∨ (s.hw.pair.hand = some (tH, false, acked) ∧ (s.hw.at g).ctGrains (s.hw.at g).grain < tH) →
      Gives (.handoverTake g) s fun t => t.hw.regs = s.hw.regs ∧ t.hw.pair = s.hw.pair ∧ t.mem = s.mem
      ∧ t.hw.out = []) ∧
    (∀ (tH : Nat), s.hw.pair.hand = some (tH, true, true) → (s.hw.at g).handOver tH = true →
      Gives (.handoverDone g) s fun t => t.hw.pStat 8 = false ∧ t.hw.pStat 0 = false ∧ t.hw.pair.hand = none
      ∧ t.hw.pair.shadowDue = true ∧ t.hw.reg64 (pr 0x054) = BitVec.ofNat 64 tH ∧ t.hw.bit (pr rEVT) 8 = true) ∧
    (∀ (tH : Nat), s.hw.pair.hand = some (tH, false, true) → (s.hw.at g).handOver tH = true →
      Gives (.handoverDone g) s fun t => t.hw.pStat 8 = false ∧ t.hw.pStat 0 = s.hw.pStat 0
      ∧ t.hw.pair.hand = none ∧ t.hw.pair.shadowDue = s.hw.pair.shadowDue ∧ t.hw.bit (pr rEVT) 8 = true) ∧
    (∀ (tH : Nat) (acked : Bool), s.hw.pair.hand = none ∨ (s.hw.pair.hand = some (tH, acked, acked)
      ∧ (s.hw.at g).handOver tH = false) ∨ s.hw.pair.hand = some (tH, acked, false) →
      Gives (.handoverDone g) s fun t => t.hw.regs = s.hw.regs ∧ t.hw.pair = s.hw.pair ∧ t.mem = s.mem
      ∧ t.hw.out = []) ∧
    (Unlocked s pPAIR → s.hw.mode = mSHADOW → s.hw.linkUp = true → Gives (.pairLeave g) s fun t =>
      t.hw.out.map (fun o =>
      (o.kind, o.nums.getD 0 0, o.nums.getD 1 0 / 8 % 2, o.data)) = [(OutKind.molad, 5, 0, [])]
      ∧ t.hw.mode = mSHADOW ∧ t.hw.pair.leaveAck = s.hw.pair.leaveAck) ∧
    (Unlocked s pPAIR → s.hw.mode ≠ mSHADOW → Gives (.pairLeave g) s fun t => t.hw.f (pr 0x050) 2 0 = 1
      ∧ t.hw.bit (pr rEVT) 10 = true ∧ t.hw.pair = s.hw.pair ∧ t.hw.out = []) ∧
    (Unlocked s pPAIR → s.hw.mode = mSHADOW → s.hw.linkUp = false → Gives (.pairLeave g) s fun t =>
      t.hw.f (pr 0x050) 2 0 = 4 ∧ t.hw.bit (pr rEVT) 10 = true ∧ t.hw.pair = s.hw.pair ∧ t.hw.out = []) ∧
    (∀ (f : MoladHdr), s.hw.pair.rxSeqs.contains f.seq.toNat = false → f.ack = true → s.hw.mode = mSHADOW →
      Gives (.moladLeave g f) s fun t => t.hw.pair.leaveAck = true ∧ t.hw.out = [] ∧ t.hw.mode = mSHADOW) ∧
    (∀ (f : MoladHdr), s.hw.pair.rxSeqs.contains f.seq.toNat = false → f.ack = false → s.hw.pStat 0 = true →
      Gives (.moladLeave g f) s fun t => t.hw.out.map (fun o =>
      (o.kind, o.nums.getD 0 0, o.nums.getD 1 0 / 8 % 2, o.data)) = [(OutKind.molad, 5, 1, [])]
      ∧ t.hw.pStat 0 = true) ∧
    (∀ (f : MoladHdr) (tH : Nat) (n : Fin 96), s.hw.pair.rxSeqs.contains f.seq.toNat = false → f.ack = false →
      s.hw.mode = mSHADOW → Gives (.moladHandover g f tH) s fun t => t.hw.pair.hand = some (tH, false, true)
      ∧ t.hw.pStat 8 = true ∧ t.hw.out.map (fun o =>
      (o.kind, o.nums.getD 0 0, o.nums.getD 1 0 / 8 % 2, o.data)) = [(OutKind.molad, 4, 1, leBytes 8 tH)]
      ∧ (t.hw.leg n).handNotch = none) ∧
    (∀ (f : MoladHdr) (tH : Nat) (acked : Bool), s.hw.pair.rxSeqs.contains f.seq.toNat = false → f.ack = true →
      s.hw.pair.hand = some (tH, true, acked) → (s.hw.at g).ctGrains (s.hw.at g).grain + s.hw.batch ≤ tH →
      Gives (.moladHandover g f tH) s fun t => t.hw.pair.hand = some (tH, true, true) ∧ t.hw.out = []) ∧
    (∀ (f : MoladHdr) (tH : Nat) (acked : Bool), s.hw.pair.rxSeqs.contains f.seq.toNat = false → f.ack = true →
      s.hw.pair.hand = some (tH, true, acked) → tH < (s.hw.at g).ctGrains (s.hw.at g).grain + s.hw.batch →
      Gives (.moladHandover g f tH) s fun t => t.hw.pair.hand = s.hw.pair.hand ∧ t.hw.out = []) ∧
    (s.hw.paired = true → Gives (.presentNBreak g) s fun t => t.hw.pStat 0 = false ∧ t.hw.pair.hand = none
      ∧ t.hw.pair.claim = none ∧ t.hw.pins.presentHigh = true) ∧
    (s.hw.paired = false → Gives (.presentNBreak g) s fun t => t.hw.regs = s.hw.regs ∧ t.hw.pair = s.hw.pair
      ∧ t.hw.pins.presentHigh = true) ∧
    (s.hw.pStat 0 = true → s.hw.pair.partnerMode = mSHADOW → s.hw.pStat 2 = true → s.hw.pStat 7 = false →
      s.hw.linkUp = true → s.hw.pair.hand = none → Gives (.leverOpen g) s fun t => t.hw.pStat 6 = true
      ∧ t.hw.bit (pr rEVT) 9 = true ∧ t.hw.pStat 8 = true
      ∧ t.hw.pair.hand = some ((s.hw.at g).handInstant (s.hw.at g).grain, true, false)) ∧
    (s.hw.pStat 0 = false ∨ s.hw.pair.hand ≠ none ∨ s.hw.linkUp = false → Gives (.leverOpen g) s fun t =>
      t.hw.pStat 6 = true ∧ t.hw.pins.leverOpen = true ∧ t.hw.bit (pr rEVT) 9 = true ∧ t.hw.pair = s.hw.pair
      ∧ t.hw.out = []) ∧
    (Gives (.leverClose g) s fun t => t.hw.pStat 6 = false ∧ t.hw.pins.leverOpen = false
      ∧ t.hw.pair = s.hw.pair ∧ t.hw.pStat 0 = s.hw.pStat 0) ∧
    (∀ (a : Fin 32), Unlocked s (pAX a) → s.hw.mirrorOn = true → s.hw.mode = mSHADOW →
      Gives (.axStop g a) s fun t => t.hw.bit (pr rEVT) 10 = true ∧ t.hw.axState a = s.hw.axState a
      ∧ t.hw.axis a = s.hw.axis a ∧ t.hw.pair = s.hw.pair ∧ t.hw.out = []) ∧
    (∀ (a : Fin 32), Unlocked s (pAX a) → s.hw.mirrorOn = true → s.hw.mode ≠ mSHADOW → s.hw.pStat 0 = true →
      Gives (.axStop g a) s fun t => t.hw.pair.queue = s.hw.pair.queue
          ++ [{ due := (s.hw.at g).ctGrains (s.hw.at g).wgrain + 1000, addr := 0x40000000 + axr a 0x044, words := [2] }]
      ∧ t.hw.axState a = s.hw.axState a ∧ t.hw.axis a = s.hw.axis a)

/-- A mirrored copy of memory, or a register write that is due, is applied and leaves the queue; one not due stays.
The first copy of a frame validates its lane and brings the partner's flags; a second copy does nothing more. HELLO
brings mode, hash and signature, and is sent no sooner than 2 µs after the last. Hashes of one instant that agree
count a match, others a mismatch that ends SYNC. A hash waited for too long ends the run. A level that has differed
from the computed one for more than LVL_TOL grains counts once with its leg; a shorter difference does nothing. SYNC
is refused with its reason, else phase 1 is asked for; the owner notes the capture, the shadow the words; an engine
starts once its copy is acknowledged; an overflow restarts the phase, and fails after four. A lane with no valid frame
for LOSS_T is lost: one of two leaves the link up, the last one takes it down; before that time nothing happens. A
frame discarded counts on its lane. Throughout, the die is not held in reset; no earlier command left a memory write
or a reset to be done. -/
def Obligations.PairLinkAndSynchronisation : Prop :=
  ∀ (s : State) (g : Nat), Live s → Settled s →
    (∀ (d addr : Nat) (v : Word) (rest : List MirrorW), s.hw.pair.queue = ⟨d, true, addr, [v]⟩ :: rest →
      Gives (.mirrorApply g) s fun t => t.hw.pair.queue = rest ∧ t.hw.rd32 t.mem addr = v
      ∧ t.hw.regs = s.hw.regs) ∧
    (∀ (d : Nat) (a : Fin 32) (rest : List MirrorW), s.hw.pair.queue
          = ⟨d, false, 0x40000000 + ra (pAX a) 0x044, [2]⟩ :: rest → s.hw.pair.behind = none →
      d ≤ (s.hw.at g).ctGrains (s.hw.at g).grain → s.hw.axState a = sSTARTING →
      Gives (.mirrorApply g) s fun t => t.hw.pair.queue = rest ∧ t.hw.axState a = sHOLDING) ∧
    (∀ (d addr : Nat) (ws : List Word) (rest : List MirrorW), s.hw.pair.queue = []
      ∨ (s.hw.pair.queue = ⟨d, false, addr, ws⟩ :: rest ∧ (s.hw.at g).ctGrains (s.hw.at g).grain < d) →
      Gives (.mirrorApply g) s fun t => t.hw.regs = s.hw.regs ∧ t.hw.pair = s.hw.pair ∧ t.mem = s.mem
      ∧ t.hw.out = []) ∧
    (∀ (f : MoladHdr) (slot : BitVec 4) (md : BitVec 3) (hash sig : Word), s.hw.pair.rxSeqs.contains f.seq.toNat
          = false → Gives (.moladHello g f slot md hash sig) s fun t =>
      t.hw.pStat (if f.lane then 5 else 4) = true ∧ t.hw.linkUp = true
      ∧ t.hw.pStat 1 = (f.own && (s.hw.pins.partnerDrive || !s.hw.pStat 0 || s.hw.pStat 8))
      ∧ t.hw.pStat 7 = f.lever ∧ t.hw.reg (pr 0x068) = hash ∧ t.hw.pair.partnerMode = md
      ∧ t.hw.pair.partnerSig = sig ∧ t.hw.pair.heard = true) ∧
    (∀ (f : MoladHdr) (slot : BitVec 4) (md : BitVec 3) (hash sig : Word), s.hw.pair.rxSeqs.contains f.seq.toNat
          = true → Gives (.moladHello g f slot md hash sig) s fun t =>
      t.hw.pStat (if f.lane then 5 else 4) = true ∧ t.hw.linkUp = true
      ∧ t.hw.pair = { s.hw.pair with lane0At := t.hw.pair.lane0At, lane1At := t.hw.pair.lane1At }
      ∧ t.hw.pair.laneAt f.lane = max s.hw.grain g ∧ t.hw.reg (pr 0x068) = s.hw.reg (pr 0x068)) ∧
    (s.hw.pair.helloAt.any (fun k => decide (max s.hw.grain g < k + 1000)) = true →
      Gives (.moladHelloSend g) s fun t => t.hw.regs = s.hw.regs ∧ t.hw.pair = s.hw.pair ∧ t.mem = s.mem
      ∧ t.hw.out = []) ∧
    (s.hw.pair.cfgStale = false → s.hw.pair.helloAt.all (fun k =>
      decide (k + 1000 ≤ max s.hw.grain g)) = true → Gives (.moladHelloSend g) s fun t =>
      t.hw.out.map (fun o => (o.kind, o.nums.getD 0 0, o.nums.getD 1 0 / 8 % 2, o.data))
          = [(OutKind.molad, 1, 0, leBytes 1 s.hw.pins.slotId.toNat ++ leBytes 1 s.hw.mode.toNat ++ leBytes 2 0 ++ wordBytes (s.hw.reg (pr 0x064)) ++ wordBytes s.hw.safSig ++ leBytes 4 0)]
      ∧ t.hw.pair.txSeq = (s.hw.pair.txSeq + 1) % 65536 ∧ t.hw.pair.helloAt = some (max s.hw.grain g)) ∧
    (∀ (f : MoladHdr) (inst : Nat) (hash lvl : Word), s.hw.pair.rxSeqs.contains f.seq.toNat = false →
      s.hw.pair.own = [(inst, hash)] → s.hw.pair.peer = [] →
      Gives (.moladCompare g f inst hash lvl) s fun t => t.hw.pair.matchRun = s.hw.pair.matchRun + 1
      ∧ t.hw.pair.own = [] ∧ t.hw.pair.peer = [] ∧ t.hw.reg (pr 0x060) = hash ∧ t.hw.pStat 2 = (s.hw.pStat 2
          || (s.hw.pair.synced && decide (max 1 (s.hw.f (pr 0x040) 15 8) ≤ s.hw.pair.matchRun + 1)))) ∧
    (∀ (f : MoladHdr) (inst : Nat) (c hash lvl : Word), s.hw.pair.rxSeqs.contains f.seq.toNat = false →
      s.hw.pair.own = [(inst, c)] → c ≠ hash → s.hw.pair.peer = [] →
      Gives (.moladCompare g f inst hash lvl) s fun t => t.hw.pair.matchRun = 0 ∧ t.hw.pStat 2 = false
      ∧ t.hw.pair.own = [] ∧ t.hw.f (pr 0x06C) 15 0 = min (s.hw.f (pr 0x06C) 15 0 + 1) 0xFFFF
      ∧ t.hw.bit (pr rEVT) 4 = true) ∧
    (∀ (inst : Nat) (c : Word), s.hw.pair.own = [(inst, c)] → inst < s.hw.clk.nextB - s.hw.batch →
      s.hw.clk.nextB - s.hw.batch + 2000 ≤ (s.hw.at g).ctGrains (s.hw.at g).grain →
      Gives (.pairHashTimeout g) s fun t => t.hw.pair = { s.hw.pair with matchRun := 0, own := [] }
      ∧ t.hw.regs = s.hw.regs) ∧
    (s.hw.pair.own = [] ∨ (s.hw.at g).ctGrains (s.hw.at g).grain < s.hw.clk.nextB - s.hw.batch + 2000 →
      Gives (.pairHashTimeout g) s fun t => t.hw.regs = s.hw.regs ∧ t.hw.pair = s.hw.pair ∧ t.mem = s.mem
      ∧ t.hw.out = []) ∧
    (∀ (n : Fin 96) (ena pin : Bool) (first : Nat), bitOf ((s.hw.at g).legStat n) (if ena then 3
          else 2) ≠ pin → first + s.hw.f (pr 0x040) 23 16 ≤ max s.hw.grain g →
      tabGet 0 (2 * n.val + if ena then 1 else 0) s.hw.pair.lvlFrom ≤ first →
      Gives (.levelMismatch g n ena pin first) s fun t =>
      t.hw.f (pr 0x06C) 31 16 = min (s.hw.f (pr 0x06C) 31 16 + 1) 0xFFFF
      ∧ t.hw.reg (pr 0x070) = BitVec.ofNat 32 ((if ena then 256 else 0) + n)
      ∧ t.hw.pair.lvl = s.hw.pair.lvl + 1
      ∧ tabGet 0 (2 * n.val + if ena then 1 else 0) t.hw.pair.lvlFrom = max s.hw.grain g + 1
      ∧ t.hw.bit (pr rEVT) 5 = true ∧ t.hw.leg n = s.hw.leg n) ∧
    (∀ (n : Fin 96) (ena pin : Bool) (first : Nat), bitOf ((s.hw.at g).legStat n) (if ena then 3 else 2) = pin
      ∨ max s.hw.grain g < first + s.hw.f (pr 0x040) 23 16
      ∨ first < tabGet 0 (2 * n.val + if ena then 1 else 0) s.hw.pair.lvlFrom →
      Gives (.levelMismatch g n ena pin first) s fun t => t.hw.regs = s.hw.regs ∧ t.hw.pair = s.hw.pair
      ∧ t.mem = s.mem ∧ t.hw.out = []) ∧
    (Unlocked s pPAIR → s.hw.mode = mSHADOW → s.hw.pair.hand = none → s.hw.linkUp = true →
      s.hw.pStat 1 = true → s.hw.pair.cfgStale = false → s.hw.reg (pr 0x064) = s.hw.reg (pr 0x068) →
      s.hw.safSig = s.hw.pair.partnerSig → Gives (.pairSync g) s fun t => t.hw.pStat 3 = true
      ∧ t.hw.pStat 2 = false ∧ t.hw.syncPhase = 1 ∧ t.hw.pair.synced = false ∧ t.hw.pair.matchRun = 0
      ∧ t.hw.out.map (fun o => (o.kind, o.nums.getD 0 0, o.nums.getD 1 0 / 8 % 2, o.data))
          = [(OutKind.molad, 6, 0, leBytes 1 1 ++ leBytes 7 0)]) ∧
    (Unlocked s pPAIR → s.hw.pair.cfgStale = false → s.hw.mode ≠ mSHADOW ∨ s.hw.pair.hand ≠ none
      ∨ (s.hw.linkUp = true ∧ s.hw.pStat 1 = false) → Gives (.pairSync g) s fun t => t.hw.f (pr 0x050) 2 0 = 1
      ∧ t.hw.bit (pr rEVT) 10 = true ∧ t.hw.pair = s.hw.pair ∧ t.hw.out = []) ∧
    (Unlocked s pPAIR → s.hw.pair.cfgStale = false → s.hw.mode = mSHADOW → s.hw.pair.hand = none →
      s.hw.linkUp = false → Gives (.pairSync g) s fun t => t.hw.f (pr 0x050) 2 0 = 4
      ∧ t.hw.bit (pr rEVT) 10 = true ∧ t.hw.pair = s.hw.pair ∧ t.hw.out = []) ∧
    (Unlocked s pPAIR → s.hw.pair.cfgStale = false → s.hw.mode = mSHADOW → s.hw.pair.hand = none →
      s.hw.linkUp = true → s.hw.pStat 1 = true → s.hw.reg (pr 0x064) ≠ s.hw.reg (pr 0x068) →
      Gives (.pairSync g) s fun t => t.hw.f (pr 0x050) 2 0 = 2 ∧ t.hw.bit (pr rEVT) 10 = true
      ∧ t.hw.pair = s.hw.pair ∧ t.hw.out = []) ∧
    (∀ (f : MoladHdr) (bs : Nat), s.hw.pair.rxSeqs.contains f.seq.toNat = false → f.ack = false →
      s.hw.pStat 0 = true → Gives (.moladSync g f 1 bs) s fun t => t.hw.pair.captureDue = true
      ∧ t.hw.pair.synced = false ∧ t.hw.pStat 2 = false ∧ t.hw.syncPhase = 1
      ∧ t.hw.pStat (if f.lane then 5 else 4) = true ∧ t.hw.linkUp = true
      ∧ t.hw.pStat 1 = (f.own && (s.hw.pins.partnerDrive || !s.hw.pStat 0 || s.hw.pStat 8))
      ∧ t.hw.pStat 7 = f.lever) ∧
    (∀ (f : MoladHdr) (bs : Nat), s.hw.pair.rxSeqs.contains f.seq.toNat = false → f.ack = true →
      s.hw.pStat 3 = true → s.hw.syncPhase = 2 → Gives (.moladSync g f 2 bs) s fun t =>
      t.hw.pair.started = true ∧ t.hw.syncPhase = 2 ∧ t.hw.out = []) ∧
    (∀ (f : MoladHdr) (off : Nat) (w : Word), s.hw.pair.rxSeqs.contains f.seq.toNat = false →
      s.hw.pStat 3 = true → Gives (.moladState g f off [w]) s fun t => tabGet 0 off t.hw.pair.image = w
      ∧ t.hw.pStat (if f.lane then 5 else 4) = true ∧ t.hw.linkUp = true
      ∧ t.hw.pStat 1 = (f.own && (s.hw.pins.partnerDrive || !s.hw.pStat 0 || s.hw.pStat 8))
      ∧ t.hw.pStat 7 = f.lever) ∧
    (∀ (f : MoladHdr) (off : Nat) (ws : List Word), s.hw.pair.rxSeqs.contains f.seq.toNat = false →
      s.hw.pStat 3 = false → Gives (.moladState g f off ws) s fun t => t.hw.pair.image = s.hw.pair.image
      ∧ t.hw.pStat (if f.lane then 5 else 4) = true ∧ t.hw.linkUp = true
      ∧ t.hw.pStat 1 = (f.own && (s.hw.pins.partnerDrive || !s.hw.pStat 0 || s.hw.pStat 8))
      ∧ t.hw.pStat 7 = f.lever) ∧
    (∀ (f : MoladHdr) (addr : Nat) (ws : List Word), s.hw.pair.rxSeqs.contains f.seq.toNat = false →
      Gives (.moladMirror g f 0xFFFFFFFF addr ws) s fun t =>
      t.hw.pair.queue = s.hw.pair.queue ++ [⟨(s.hw.at g).ctGrains (s.hw.at g).grain, true, addr, ws⟩]
      ∧ t.hw.pStat (if f.lane then 5 else 4) = true ∧ t.hw.linkUp = true
      ∧ t.hw.pStat 1 = (f.own && (s.hw.pins.partnerDrive || !s.hw.pStat 0 || s.hw.pStat 8))
      ∧ t.hw.pStat 7 = f.lever) ∧
    (∀ (f : MoladHdr) (d addr : Nat) (ws : List Word), s.hw.pair.rxSeqs.contains f.seq.toNat = false →
      (s.hw.at g).ctGrains (s.hw.at g).grain ≤ d → d < (s.hw.at g).ctGrains (s.hw.at g).grain + 2 ^ 31 →
      d % 2 ^ 32 ≠ 0xFFFFFFFF → Gives (.moladMirror g f (BitVec.ofNat 32 d) addr ws) s fun t =>
      t.hw.pair.queue = s.hw.pair.queue ++ [⟨d, false, addr, ws⟩]
      ∧ t.hw.pStat (if f.lane then 5 else 4) = true ∧ t.hw.linkUp = true
      ∧ t.hw.pStat 1 = (f.own && (s.hw.pins.partnerDrive || !s.hw.pStat 0 || s.hw.pStat 8))
      ∧ t.hw.pStat 7 = f.lever) ∧
    (∀ (f : MoladHdr) (stopping dem : BitVec 8) (so : BitVec 4), s.hw.pair.rxSeqs.contains f.seq.toNat
          = false → s.hw.bit (pr 0x040) 1 = true → Gives (.moladSafety g f stopping dem so) s fun t =>
      t.hw.saf = { s.hw.saf with peerStop := stopping, peerOn := so, peerAge := some 0 }
      ∧ t.hw.pStat (if f.lane then 5 else 4) = true ∧ t.hw.linkUp = true
      ∧ t.hw.pStat 1 = (f.own && (s.hw.pins.partnerDrive || !s.hw.pStat 0 || s.hw.pStat 8))
      ∧ t.hw.pStat 7 = f.lever) ∧
    (∀ (f : MoladHdr) (stopping dem : BitVec 8) (so : BitVec 4), s.hw.pair.rxSeqs.contains f.seq.toNat
          = false → s.hw.bit (pr 0x040) 1 = false → Gives (.moladSafety g f stopping dem so) s fun t =>
      t.hw.saf = s.hw.saf ∧ t.hw.pStat (if f.lane then 5 else 4) = true ∧ t.hw.linkUp = true
      ∧ t.hw.pStat 1 = (f.own && (s.hw.pins.partnerDrive || !s.hw.pStat 0 || s.hw.pStat 8))
      ∧ t.hw.pStat 7 = f.lever) ∧
    (∀ (lane : Bool), Gives (.moladFrameDiscard g lane) s fun t => t.hw.f (pr 0x074) 31 16 = (if lane
          then min (s.hw.f (pr 0x074) 31 16 + 1) 0xFFFF else s.hw.f (pr 0x074) 31 16) ∧ t.hw.f (pr 0x074) 15 0
          = (if lane then s.hw.f (pr 0x074) 15 0 else min (s.hw.f (pr 0x074) 15 0 + 1) 0xFFFF)
      ∧ t.hw.pair = s.hw.pair) ∧
    (∀ (lane : Bool), s.hw.pair.laneAt lane + 500 * s.hw.f (pr 0x044) 15 0 ≤ max s.hw.grain g →
      s.hw.pStat (if lane then 4 else 5) = true → Gives (.moladLaneLoss g lane) s fun t =>
      t.hw.pStat (if lane then 5 else 4) = false ∧ t.hw.linkUp = s.hw.linkUp ∧ t.hw.pStat 2 = s.hw.pStat 2
      ∧ t.hw.pair = s.hw.pair) ∧
    (∀ (lane : Bool), s.hw.pair.laneAt lane + 500 * s.hw.f (pr 0x044) 15 0 ≤ max s.hw.grain g →
      s.hw.pStat (if lane then 4 else 5) = false → s.hw.linkUp = true →
      Gives (.moladLaneLoss g lane) s fun t => t.hw.pStat (if lane then 5 else 4) = false
      ∧ t.hw.linkUp = false ∧ t.hw.pStat 2 = false ∧ t.hw.bit (pr rEVT) 6 = true
      ∧ t.hw.pair = { s.hw.pair with matchRun := 0 }) ∧
    (∀ (lane : Bool), max s.hw.grain g < s.hw.pair.laneAt lane + 500 * s.hw.f (pr 0x044) 15 0 →
      Gives (.moladLaneLoss g lane) s fun t => t.hw.regs = s.hw.regs ∧ t.hw.pair = s.hw.pair ∧ t.mem = s.mem
      ∧ t.hw.out = []) ∧
    (∀ (e : Fin 16), s.hw.pStat 3 = true → s.hw.syncPhase = 2 → s.hw.syncEng = e.val →
      s.hw.pair.started = true → s.hw.f (pr 0x048) 15 0 = 2 ^ e.val → Gives (.syncEngineStart g e) s fun t =>
      t.hw.pStat 3 = false ∧ t.hw.syncPhase = 0 ∧ t.hw.pair.synced = true ∧ t.hw.pair.matchRun = 0
      ∧ t.hw.bit (pr rEVT) 7 = true ∧ t.hw.out = []) ∧
    (∀ (e : Fin 16), s.hw.pStat 3 = false ∨ s.hw.syncPhase ≠ 2 ∨ s.hw.syncEng ≠ e.val
      ∨ s.hw.pair.started = false → Gives (.syncEngineStart g e) s fun t => t.hw.regs = s.hw.regs
      ∧ t.hw.pair = s.hw.pair ∧ t.mem = s.mem ∧ t.hw.out = []) ∧
    (s.hw.pStat 3 = true → 3 ≤ s.hw.f (pr 0x078) 7 0 → s.hw.f (pr 0x078) 7 0 < 255 →
      Gives (.mirrorOverflow g) s fun t => t.hw.pStat 3 = false ∧ t.hw.syncPhase = 0
      ∧ t.hw.f (pr 0x050) 2 0 = 5 ∧ t.hw.pair.queue = [] ∧ t.hw.out = []) ∧
    (s.hw.pStat 3 = true → s.hw.f (pr 0x078) 7 0 < 3 → Gives (.mirrorOverflow g) s fun t => t.hw.pStat 3 = true
      ∧ t.hw.f (pr 0x078) 7 0 = s.hw.f (pr 0x078) 7 0 + 1 ∧ t.hw.syncPhase = s.hw.syncPhase
      ∧ t.hw.pair.queue = [] ∧ t.hw.out.map (fun o =>
      (o.kind, o.nums.getD 0 0, o.nums.getD 1 0 / 8 % 2, o.data))
          = [(OutKind.molad, 6, 0, leBytes 1 s.hw.syncPhase ++ leBytes 7 0)]) ∧
    (s.hw.pStat 3 = false → Gives (.mirrorOverflow g) s fun t => t.hw.regs = s.hw.regs ∧ t.hw.pair = s.hw.pair
      ∧ t.mem = s.mem ∧ t.hw.out = [])

/-- Four samples of VLOG in a row below 18 V outside HOLDUP declare a power-fail, those before it counted on: it is
counted, the mode is HOLDUP, and legs that ran are safe; fewer do nothing. After shedding, engines and cores have
stopped and a save has begun. SAVE_CMD begins a software save, and is refused while one runs or in HOLDUP. A save that
ends outside COOLDOWN has its header in MRAM, its number and area in the registers and SAVE_VALID. RESTORE_CMD is
refused outside BRINGUP and CONFIG or without a valid save, else every word of a region goes back. A warm restart,
once VLOG has stood at 19.2 V or above for 20 ms and 20 ms have passed since the save, leaves HOLDUP into BRINGUP,
counted, or into COOLDOWN where a thermal shutdown waits. Exhausted hold-up holds the die. The capacitor test is
refused in RUN, SHADOW and HOLDUP or below 19.2 V; its result sets HOLD_WEAK from its two limits. VLOG above 30.5 V
sets VLOG_HIGH. Throughout, no earlier command left a memory write or a reset to be done. -/
def Obligations.SuppliesHoldUpAndSaves : Prop :=
  ∀ (s : State) (g : Nat), Settled s →
    (∀ (vs : List Nat) (n : Fin 96), (vs.drop (vs.length - 4)).length = 4 →
      (vs.drop (vs.length - 4)).all (fun v => decide (v < 18000)) = true → s.hw.mode ≠ mHOLDUP →
      s.hw.sys.modeGrain < max s.hw.grain g → Gives (.powerFail g vs) s fun t => t.hw.mode = mHOLDUP
      ∧ t.hw.nv.fails = min 0xFFFF (s.hw.nv.fails + 1) ∧ t.hw.bit (pw rEVT) 0 = true
      ∧ (legMode s.hw.mode = true → (t.hw.leg n).running = false)) ∧
    (∀ (v : Nat), v < 18000 → 3 ≤ s.hw.sup.lowRun → s.hw.mode ≠ mHOLDUP →
      s.hw.sys.modeGrain < max s.hw.grain g → Gives (.powerFail g [v]) s fun t => t.hw.mode = mHOLDUP
      ∧ t.hw.nv.fails = min 0xFFFF (s.hw.nv.fails + 1) ∧ t.hw.bit (pw rEVT) 0 = true) ∧
    (∀ (v : Nat), 18000 ≤ v ∨ s.hw.sup.lowRun < 3 → Gives (.powerFail g [v]) s fun t => t.hw.mode = s.hw.mode
      ∧ t.hw.nv = s.hw.nv ∧ t.hw.save = s.hw.save ∧ t.hw.legs = s.hw.legs
      ∧ t.hw.sup.lowRun = (if v < 18000 then s.hw.sup.lowRun + 1 else 0)
      ∧ t.hw.f (pw 0x040) 15 0 = v % 0x10000) ∧
    (∀ (e : Fin 16), Live s → s.hw.mode = mHOLDUP → s.hw.sup.shed = false → s.hw.save.busy = none →
      s.hw.save.done = false → Gives (.shedComplete g) s fun t => t.hw.sup.shed = true ∧ t.hw.sys.acRun = 0
      ∧ t.hw.sys.scRun = 0 ∧ t.hw.hytRuns e = false ∧ t.hw.bit (pw rEVT) 1 = true
      ∧ t.hw.save.busy.map (·.1) = some 1 ∧ t.hw.bit (sv rSTAT) 0 = true ∧ t.hw.mode = mHOLDUP) ∧
    (Live s → (s.hw.mode ≠ mHOLDUP ∧ s.hw.mode ≠ mCOOLDOWN) ∨ s.hw.sup.shed = true →
      Gives (.shedComplete g) s fun t => t.hw.regs = s.hw.regs ∧ t.hw.save = s.hw.save ∧ t.hw.nv = s.hw.nv
      ∧ t.mem = s.mem) ∧
    (Live s → Unlocked s pSAVE → s.hw.save.busy = none → s.hw.mode ≠ mHOLDUP → Gives (.saveCmd g) s fun t =>
      t.hw.save.busy.map (·.1) = some 3 ∧ t.hw.save.cut = none ∧ t.hw.bit (sv rSTAT) 0 = true
      ∧ t.hw.mode = s.hw.mode) ∧
    (Live s → Unlocked s pSAVE → s.hw.save.busy ≠ none ∨ s.hw.mode = mHOLDUP → Gives (.saveCmd g) s fun t =>
      t.hw.save = s.hw.save ∧ t.hw.bit (sv rEVT) 3 = true ∧ t.hw.bit (sv rSTAT) 0 = s.hw.bit (sv rSTAT) 0) ∧
    (∀ (cause g0 ct seq : Nat) (k : BitVec 1), Live s → s.hw.save.busy = some (cause, k.toNat, g0, ct, seq) →
      s.hw.mode ≠ mCOOLDOWN → Gives (.saveComplete g) s fun t => t.hw.save.busy = none
      ∧ t.hw.save.done = (cause != 3 || s.hw.save.done) ∧ t.hw.bit (sv rSTAT) 0 = false
      ∧ t.hw.bit (sv rSTAT) 2 = (k == 1) ∧ t.hw.bit (sv rREADY) 2 = true
      ∧ t.hw.reg (sv 0x04C) = BitVec.ofNat 32 seq ∧ t.hw.bit (sv rEVT) 0 = true
      ∧ t.hw.rd32 t.mem (saveArea k.toNat) = 0x58534156
      ∧ t.hw.rd32 t.mem (saveArea k.toNat + 4) = BitVec.ofNat 32 seq) ∧
    (Live s → s.hw.save.busy = none → Gives (.saveComplete g) s fun t => t.hw.regs = s.hw.regs
      ∧ t.hw.save = s.hw.save ∧ t.hw.nv = s.hw.nv ∧ t.mem = s.mem) ∧
    (Live s → Unlocked s pSAVE → (s.hw.mode ≠ mBRINGUP ∧ s.hw.mode ≠ mCONFIG) ∨ s.hw.newestSave s.mem = none →
      Gives (.restoreCmd g) s fun t => t.hw.bit (sv rEVT) 3 = true ∧ t.hw.save = s.hw.save) ∧
    (∀ (k a i : Nat), Live s → Unlocked s pSAVE → s.hw.mode = mBRINGUP ∨ s.hw.mode = mCONFIG →
      s.hw.newestSave s.mem = some k → (s.hw.rd32 s.mem (saveArea k + 0x20)) = 1 →
      (s.hw.rd32 s.mem (saveArea k + 0x40)).toNat = a → i < (s.hw.rd32 s.mem (saveArea k + 0x44)).toNat →
      Gives (.restoreCmd g) s fun t => t.hw.rd8 t.mem (a + i) = s.hw.rd8 s.mem (saveArea k + 0xC0 + i)
      ∧ t.hw.save.restoring = true) ∧
    (Live s → s.hw.save.restoring = true → Gives (.restoreComplete g) s fun t =>
      t.hw.save = { s.hw.save with restoring := false } ∧ t.hw.bit (sv rEVT) 1 = true) ∧
    (Live s → s.hw.save.restoring = false → Gives (.restoreComplete g) s fun t => t.hw.regs = s.hw.regs
      ∧ t.hw.save = s.hw.save ∧ t.hw.nv = s.hw.nv ∧ t.mem = s.mem) ∧
    (∀ (n : Fin 96) (since : Nat), s.hw.mode = mHOLDUP → s.hw.save.busy = none → s.hw.save.done = true
      ∨ s.hw.sys.held = true → s.hw.sup.lowAt.all (fun k => decide (k < since)) = true →
      max since s.hw.save.doneAt + 10000000 ≤ max s.hw.grain g → s.hw.sys.thermPending = false →
      Gives (.warmRestart g since) s fun t => t.hw.mode = mBRINGUP ∧ t.hw.sys.held = false
      ∧ t.hw.nv.warms = min 0xFFFF (s.hw.nv.warms + 1) ∧ t.hw.bit (sv rSTAT) 1 = true ∧ t.hw.grain = 0
      ∧ (t.hw.leg n).running = false) ∧
    (∀ (since : Nat), s.hw.mode = mHOLDUP → s.hw.save.busy = none → s.hw.save.done = true
      ∨ s.hw.sys.held = true → s.hw.sup.lowAt.all (fun k => decide (k < since)) = true →
      max since s.hw.save.doneAt + 10000000 ≤ max s.hw.grain g → s.hw.sys.thermPending = true →
      Gives (.warmRestart g since) s fun t => t.hw.mode = mCOOLDOWN ∧ t.hw.sys.held = true
      ∧ t.hw.sys.heldFor = 3 ∧ t.hw.nv.warms = min 0xFFFF (s.hw.nv.warms + 1) ∧ t.hw.bit (sv rSTAT) 1 = true) ∧
    (∀ (since : Nat), s.hw.mode ≠ mHOLDUP ∨ s.hw.save.busy ≠ none ∨ (s.hw.save.done = false
      ∧ s.hw.sys.held = false) ∨ s.hw.sup.lowAt.any (fun k => decide (since ≤ k)) = true
      ∨ max s.hw.grain g < max since s.hw.save.doneAt + 10000000 → Gives (.warmRestart g since) s fun t =>
      t.hw.regs = s.hw.regs ∧ t.hw.save = s.hw.save ∧ t.hw.nv = s.hw.nv ∧ t.mem = s.mem) ∧
    (s.hw.mode = mHOLDUP → Gives (.holdupExhausted g) s fun t => t.hw.sys.held = true ∧ t.hw.sys.heldFor = 2
      ∧ t.hw.nv = s.hw.nv ∧ t.hw.mode = mBRINGUP) ∧
    (s.hw.mode ≠ mHOLDUP → Gives (.holdupExhausted g) s fun t => t.hw.regs = s.hw.regs ∧ t.hw.save = s.hw.save
      ∧ t.hw.nv = s.hw.nv ∧ t.mem = s.mem) ∧
    (∀ (mv : Nat), Live s → Unlocked s pPWR → s.hw.mode = mRUN ∨ s.hw.mode = mSHADOW ∨ s.hw.mode = mHOLDUP
      ∨ mv < 19200 → Gives (.holdTest g mv) s fun t => t.hw.bit (pw rEVT) 4 = true
      ∧ t.hw.sup = { s.hw.sup with lowRun := t.hw.sup.lowRun, lowAt := t.hw.sup.lowAt }
      ∧ t.hw.f (pw 0x040) 15 0 = mv % 0x10000) ∧
    (∀ (mv : Nat), Live s → Unlocked s pPWR → s.hw.mode ≠ mRUN → s.hw.mode ≠ mSHADOW → s.hw.mode ≠ mHOLDUP →
      19200 ≤ mv → Gives (.holdTest g mv) s fun t => t.hw.sup.testing = true ∧ t.hw.bit (pw rSTAT) 1 = false
      ∧ t.hw.bit (pw rEVT) 4 = s.hw.bit (pw rEVT) 4) ∧
    (∀ (cap esr : Nat), Live s → s.hw.sup.testing = true → Gives (.holdTestDone g cap esr) s fun t =>
      t.hw.sup.testing = false ∧ t.hw.bit (pw rSTAT) 1 = true ∧ t.hw.bit (pw rSTAT) 0 = decide (cap < 3760
      ∨ 100 < esr) ∧ t.hw.bit (pw rREADY) 2 = decide (3760 ≤ cap ∧ esr ≤ 100)
      ∧ t.hw.f (pw 0x048) 15 0 = cap % 0x10000 ∧ t.hw.f (pw 0x048) 31 16 = esr % 0x10000) ∧
    (∀ (cap esr : Nat), Live s → s.hw.sup.testing = false → Gives (.holdTestDone g cap esr) s fun t =>
      t.hw.regs = s.hw.regs ∧ t.hw.save = s.hw.save ∧ t.hw.nv = s.hw.nv ∧ t.mem = s.mem) ∧
    (∀ (vlog vhold : Nat), Live s → s.hw.mode = mBRINGUP → s.hw.sup.autoDone = false → vlog ≤ vhold + 500 →
      Gives (.holdTestAuto g vlog vhold) s fun t => t.hw.sup = { s.hw.sup with
            autoDone := true, testing := true, lowRun := t.hw.sup.lowRun, lowAt := t.hw.sup.lowAt }
      ∧ t.hw.bit (pw rSTAT) 1 = false ∧ t.hw.f (pw 0x044) 15 0 = vhold % 0x10000) ∧
    (∀ (vlog vhold : Nat), Live s → s.hw.mode ≠ mBRINGUP ∨ s.hw.sup.autoDone = true ∨ vhold + 500 < vlog →
      Gives (.holdTestAuto g vlog vhold) s fun t =>
      t.hw.sup = { s.hw.sup with lowRun := t.hw.sup.lowRun, lowAt := t.hw.sup.lowAt }
      ∧ t.hw.bit (pw rSTAT) 1 = s.hw.bit (pw rSTAT) 1 ∧ t.hw.f (pw 0x040) 15 0 = vlog % 0x10000) ∧
    (∀ (mv : Nat), Live s → Gives (.vlogHigh g mv) s fun t => t.hw.bit (pw rSTAT) 2 = decide (30500 < mv)
      ∧ t.hw.f (pw 0x040) 15 0 = mv % 0x10000 ∧ (s.hw.bit (pw rSTAT) 2 = false → 30500 < mv →
      t.hw.bit (pw rEVT) 3 = true) ∧ t.hw.mode = s.hw.mode)

/-- A reading stands in TS; with all sensors valid and all at 25 degrees no group warns or throttles; a die at 116
throttles in step 1 and warns; a second reading in a row at 131 is a thermal shutdown into COOLDOWN, with legs that
ran safe. A sensor out of range is invalid with its status, and so is one whose code has not changed for 60 s while
the median of its group moved by 2 degrees or more. A throttle step follows 1 s after the step before, up to 3.
COOLDOWN ends into BRINGUP when saved and cool for 10 s. A ring oscillator that disagrees for 10 s sets its flag. A
fault window whose last grain has passed closes with its counter at 0. The record queued goes to MRAM at LOG_WR, which
steps. LOG_RD moves only up to LOG_WR. A device fault clears only once its cause has gone. A scrub pass ends when its
interval has run out, not before, and the next takes the interval of the band; it counts corrected words, latches
ECC_UNCORR with the address of an uncorrectable one, and in safety SRAM raises fault 6. Throughout, no earlier command
left a memory write or a reset to be done; no command that waits goes first where commands of one cycle have an order.
-/
def Obligations.TemperatureAndFaultLog : Prop :=
  ∀ (s : State) (g : Nat) (n : Fin 12), Settled s →
    (∀ (r : ThermalReading), Alone s g → Live s → ∀ i : Fin 12, s.hw.tsValid i = true →
      r.temps = List.replicate 12 400 → Gives (.thermalRead g r) s fun t =>
      t.hw.f (th (0x040 + 4 * n)) 15 0 = 400 ∧ t.hw.tsValid n = true ∧ t.hw.bit (th rSTAT) 0 = false
      ∧ t.hw.bit (th rSTAT) 1 = false ∧ t.hw.f (th rSTAT) 7 6 = 0 ∧ t.hw.reg (th 0x070) = 0x01900190
      ∧ t.hw.reg (th 0x080) = BitVec.ofNat 32 r.roCount ∧ t.hw.mode = s.hw.mode) ∧
    (∀ (r : ThermalReading), Alone s g → Live s → ∀ i : Fin 12, s.hw.tsValid i = true →
      r.temps = List.replicate 8 1856 ++ List.replicate 4 400 → s.hw.bit (th rSTAT) 1 = false →
      Gives (.thermalRead g r) s fun t => t.hw.bit (th rSTAT) 0 = true ∧ t.hw.bit (th rSTAT) 1 = true
      ∧ t.hw.f (th rSTAT) 7 6 = 1 ∧ t.hw.bit (th rEVT) 1 = true ∧ t.hw.sup.stepAt = max s.hw.grain g
      ∧ t.hw.mode = s.hw.mode) ∧
    (∀ (r : ThermalReading) (k : Fin 96), Alone s g → Live s → ∀ i : Fin 12, s.hw.tsValid i = true →
      r.temps = List.replicate 12 2096 → 1 ≤ s.hw.sup.shutDie → s.hw.sup.shut = false →
      s.hw.sys.modeGrain < max s.hw.grain g → s.hw.mode ≠ mHOLDUP → s.hw.mode ≠ mCOOLDOWN →
      Gives (.thermalRead g r) s fun t => t.hw.sup.shut = true ∧ t.hw.mode = mCOOLDOWN
      ∧ (legMode s.hw.mode = true → (t.hw.leg k).running = false)) ∧
    (∀ (r : ThermalReading), Alone s g → Live s → s.hw.tsValid n = true → r.temps.getD n 0 < -880
      ∨ 2800 < r.temps.getD n 0 → Gives (.thermalRead g r) s fun t => t.hw.f (th (0x040 + 4 * n)) 19 16 = 1
      ∧ t.hw.tsValid n = false ∧ t.hw.bit (th rEVT) 2 = true) ∧
    (∀ (k : Nat) (lo hi : Int), Live s → s.hw.tsValid n = true →
      (tabGet (0, 0, 0) n.val s.hw.sup.codes) = (k + 1, lo, hi) → k + 30000000000 ≤ max s.hw.grain g →
      lo + 32 ≤ hi → Gives (.sensorStuck g n) s fun t => t.hw.f (th (0x040 + 4 * n)) 19 16 = 2
      ∧ t.hw.bit (th rEVT) 2 = true ∧ t.hw.f (th (0x040 + 4 * n)) 15 0 = s.hw.f (th (0x040 + 4 * n)) 15 0) ∧
    (Live s → s.hw.tsValid n = false ∨ (tabGet (0, 0, 0) n.val s.hw.sup.codes).1 = 0
      ∨ max s.hw.grain g + 1 < (tabGet (0, 0, 0) n.val s.hw.sup.codes).1 + 30000000000
      ∨ (tabGet (0, 0, 0) n.val s.hw.sup.codes).2.2 < (tabGet (0, 0, 0) n.val s.hw.sup.codes).2.1 + 32 →
      Gives (.sensorStuck g n) s fun t => t.hw.regs = s.hw.regs ∧ t.hw.save = s.hw.save ∧ t.hw.nv = s.hw.nv
      ∧ t.mem = s.mem) ∧
    (Alone s g → Live s → s.hw.bit (th rSTAT) 1 = true → 1 ≤ s.hw.f (th rSTAT) 7 6 →
      s.hw.f (th rSTAT) 7 6 < 3 → s.hw.sup.stepAt + 500000000 ≤ max s.hw.grain g →
      Gives (.throttleStep g) s fun t => t.hw.f (th rSTAT) 7 6 = s.hw.f (th rSTAT) 7 6 + 1
      ∧ t.hw.sup.stepAt = max s.hw.grain g ∧ t.hw.bit (th rSTAT) 1 = true) ∧
    (Alone s g → Live s → s.hw.bit (th rSTAT) 1 = false ∨ s.hw.f (th rSTAT) 7 6 = 3
      ∨ max s.hw.grain g < s.hw.sup.stepAt + 500000000 → Gives (.throttleStep g) s fun t =>
      t.hw.regs = s.hw.regs ∧ t.hw.save = s.hw.save ∧ t.hw.nv = s.hw.nv ∧ t.mem = s.mem ∧ t.hw.sup = s.hw.sup) ∧
    (∀ (k : Fin 96) (c : Nat), s.hw.mode = mCOOLDOWN → s.hw.save.done = true → s.hw.sup.coolFrom = some c →
      c + 5000000000 ≤ max s.hw.grain g → 1 ≤ s.hw.nValid dieSensors → Gives (.cooldownEnd g) s fun t =>
      t.hw.mode = mBRINGUP ∧ t.hw.sys.held = false ∧ t.hw.grain = 0 ∧ (t.hw.leg k).running = false) ∧
    (s.hw.mode ≠ mCOOLDOWN ∨ s.hw.save.done = false ∨ s.hw.sup.coolFrom.all (fun c =>
      decide (max s.hw.grain g < c + 5000000000)) = true → Gives (.cooldownEnd g) s fun t =>
      t.hw.regs = s.hw.regs ∧ t.hw.save = s.hw.save ∧ t.hw.nv = s.hw.nv ∧ t.mem = s.mem) ∧
    (∀ (c : Nat), Live s → s.hw.sup.roFrom = some c → c + 5000000000 ≤ max s.hw.grain g →
      Gives (.roDisagree g) s fun t => t.hw.bit (th rSTAT) 3 = true ∧ t.hw.bit (th rEVT) 4 = true
      ∧ t.hw.sup = s.hw.sup) ∧
    (Live s → s.hw.sup.roFrom.all (fun c => decide (max s.hw.grain g < c + 5000000000)) = true →
      Gives (.roDisagree g) s fun t => t.hw.regs = s.hw.regs ∧ t.hw.save = s.hw.save ∧ t.hw.nv = s.hw.nv
      ∧ t.mem = s.mem) ∧
    (∀ (p : Fin 512), Live s → (s.hw.fwin p).isOpen = true → (s.hw.fwin p).last < max s.hw.grain g →
      Gives (.fltWindowExpiry g p) s fun t => (t.hw.fwin p).isOpen = false ∧ t.hw.f (ra p rFLT_CNT) 7 0 = 0
      ∧ (s.hw.logq.length < 64 → t.hw.logq.length = s.hw.logq.length + 1)) ∧
    (∀ (p : Fin 512), Live s → (s.hw.fwin p).isOpen = false ∨ max s.hw.grain g ≤ (s.hw.fwin p).last →
      Gives (.fltWindowExpiry g p) s fun t => t.hw.regs = s.hw.regs ∧ t.hw.save = s.hw.save
      ∧ t.hw.nv = s.hw.nv ∧ t.mem = s.mem ∧ t.hw.win = s.hw.win ∧ t.hw.logq = s.hw.logq) ∧
    (∀ (r : LogRec), Alone s g → Live s → s.hw.logq = [r] → s.hw.logLost = false →
      Gives (.logRecordWrite g) s fun t => t.hw.logq = [] ∧ t.hw.nv.logWr = s.hw.nv.logWr + 1
      ∧ t.hw.rd32 t.mem (logAddr s.hw.nv.logWr.toNat) = BitVec.ofNat 32 r.ts
      ∧ t.hw.rd32 t.mem (logAddr s.hw.nv.logWr.toNat + 0x14) = BitVec.ofNat 32 (r.code % 0x10000 + 0x10000
          * (r.inst % 0x10000)) ∧ t.hw.rd32 t.mem (logAddr s.hw.nv.logWr.toNat + 0x1C) = s.hw.nv.logWr) ∧
    (Alone s g → Live s → s.hw.logq = [] → Gives (.logRecordWrite g) s fun t => t.hw.regs = s.hw.regs
      ∧ t.hw.save = s.hw.save ∧ t.hw.nv = s.hw.nv ∧ t.mem = s.mem) ∧
    (∀ (v : Word), Alone s g → Live s → Unlocked s pFLT → v - s.hw.nv.logRd ≤ s.hw.nv.logWr - s.hw.nv.logRd →
      Gives (.logRdWrite g v) s fun t => t.hw.nv = { s.hw.nv with logRd := v }) ∧
    (∀ (v : Word), Alone s g → Live s → Unlocked s pFLT → s.hw.nv.logWr - s.hw.nv.logRd < v - s.hw.nv.logRd →
      Gives (.logRdWrite g v) s fun t => t.hw.nv = s.hw.nv ∧ t.hw.bit (fl rEVT) 0 = true) ∧
    (∀ (v : BitVec 3) (b : Nat), Live s → Unlocked s pFLT → v.getLsbD b = true → s.hw.devCause b = false →
      b < 3 → (tabGet {} (w1cKey (fl 0x04C)) s.hw.evtCyc).cycle ≠ max s.hw.grain g / 5 →
      Gives (.devClr g v) s fun t => t.hw.bit (fl 0x04C) b = false) ∧
    (∀ (v : BitVec 3) (b : Nat), Live s → Unlocked s pFLT → v.getLsbD b = true → s.hw.devCause b = true →
      b < 3 → Gives (.devClr g v) s fun t => t.hw.bit (fl 0x04C) b = s.hw.bit (fl 0x04C) b
      ∧ t.hw.bit (fl rEVT) 1 = true) ∧
    (∀ (c : Nat) (bad : Option Nat), Live s →
      max s.hw.grain g < s.hw.sup.scrubAt + 5000000 * s.hw.sup.scrubIv → Gives (.scrubPass g c bad) s fun t =>
      t.hw.regs = s.hw.regs ∧ t.hw.save = s.hw.save ∧ t.hw.nv = s.hw.nv ∧ t.mem = s.mem ∧ t.hw.sup = s.hw.sup
      ∧ t.hw.saf = s.hw.saf) ∧
    (∀ (c : Nat), Live s → s.hw.sup.scrubAt + 5000000 * s.hw.sup.scrubIv ≤ max s.hw.grain g →
      Gives (.scrubPass g c none) s fun t => t.hw.f (fl 0x058) 15 0 = min (s.hw.f (fl 0x058) 15 0 + c) 0xFFFF
      ∧ t.hw.bit (fl 0x04C) 0 = s.hw.bit (fl 0x04C) 0 ∧ t.hw.saf = s.hw.saf
      ∧ t.hw.sup.scrubAt = max s.hw.grain g ∧ t.hw.sup.scrubIv = s.hw.scrubUnits) ∧
    (∀ (c a : Nat), Live s → s.hw.sup.scrubAt + 5000000 * s.hw.sup.scrubIv ≤ max s.hw.grain g → a < 0x200000
      ∨ (0x28000000 ≤ a ∧ a < 0x28100000) → s.hw.bit (fl 0x04C) 0 = false →
      Gives (.scrubPass g c (some a)) s fun t => t.hw.bit (fl 0x04C) 0 = true
      ∧ t.hw.reg (fl 0x054) = BitVec.ofNat 32 a ∧ t.hw.bit (fl rEVT) 3 = true ∧ t.hw.devCause 0 = true
      ∧ t.hw.saf = s.hw.saf) ∧
    (∀ (c a : Nat), Live s → s.hw.sup.scrubAt + 5000000 * s.hw.sup.scrubIv ≤ max s.hw.grain g →
      a / 0x100000 = 0x1000 ∨ a / 0x100000 = 0x1001 → Gives (.scrubPass g c (some a)) s fun t =>
      t.hw.saf.faults.getLsbD 6 = true ∧ t.hw.bit (sf rREADY) 0 = false ∧ t.hw.f (sf 0x094) 3 0 = 0)

/-- For every command that pagesOf names (108 rows): a register of a page it does not name keeps its value; the legs,
the bridges, the engines, the axes and the profile units keep their working state; and every byte of memory outside
the fault log reads as before, but for the bytes the command stores: the ring entry or two that a CAN frame fills (at
RX_BASE plus 80 times the index), and acquisition memory for a sample or a trigger. The pages named are the command's
own, FLT, where a dropped record is counted, and SYS for a write of software, where a write to a locked page is noted;
for a cyclic frame also SAF, which numbers its telegrams, and SYS, where its data may end with a bus error. No waiting
command may be one that goes first in the same cycle. -/
def Obligations.CommandFrames : Prop :=
  ∀ (c : Instr) (s t : State) (ps : List Nat), pagesOf c = some ps → Settled s → exec c s = .next t → Alone s t.hw.grain →
    (∀ x, x / 0x1000 ∉ ps → t.hw.reg x = s.hw.reg x) ∧
    (∀ a, stores c s a = false → a < 0x50020000 ∨ 0x50030000 ≤ a → t.hw.rd8 t.mem a = s.hw.rd8 s.mem a) ∧
    t.hw.legs = s.hw.legs ∧ t.hw.bridges = s.hw.bridges ∧ t.hw.hyts = s.hw.hyts ∧ t.hw.ax = s.hw.ax ∧ t.hw.prf = s.hw.prf
end

