-- ==== Sys2Proof/Laws/Field.lean ====
section
/-! SUPPORT. The laws of bit fields of a register word. -/

namespace Sys2Proof.Machine

/-- Bit i of a word with a field replaced. -/
theorem getLsbD_putFld (w : Word) {hi lo : Nat} (hlo : lo ≤ hi) (hhi : hi < 32) (v i : Nat) :
    (putFld w hi lo v).getLsbD i = if lo ≤ i ∧ i ≤ hi then v.testBit (i - lo) else w.getLsbD i := by
  simp only [putFld, BitVec.getLsbD_or, BitVec.getLsbD_and, BitVec.getLsbD_not, BitVec.getLsbD_ofNat,
    Nat.testBit_shiftLeft, Nat.testBit_two_pow_sub_one]
  by_cases h1 : i < 32
  · by_cases h2 : lo ≤ i
    · by_cases h3 : i ≤ hi
      · have : i - lo < hi + 1 - lo := by omega
        simp [h1, h2, h3, this]
      · have : ¬ i - lo < hi + 1 - lo := by omega
        simp [h1, h2, h3, this]
    · simp [h1, h2]
  · have h3 : ¬ (lo ≤ i ∧ i ≤ hi) := by omega
    simp [h1, h3, BitVec.getLsbD_of_ge w i (by omega)]

/-- Bit j of a field. -/
theorem testBit_fld (w : Word) (hi lo j : Nat) :
    (fld w hi lo).testBit j = (decide (j < hi + 1 - lo) && w.getLsbD (lo + j)) := by
  simp only [fld, Nat.testBit_mod_two_pow, Nat.testBit_shiftRight, BitVec.getLsbD]

/-- A field reads back what was put into it, cut to its width. -/
theorem fld_putFld_same (w : Word) {hi lo : Nat} (hlo : lo ≤ hi) (hhi : hi < 32) (v : Nat) :
    fld (putFld w hi lo v) hi lo = v % 2 ^ (hi + 1 - lo) := by
  apply Nat.eq_of_testBit_eq
  intro j
  rw [testBit_fld, getLsbD_putFld w hlo hhi, Nat.testBit_mod_two_pow]
  by_cases h : j < hi + 1 - lo
  · have h2 : lo ≤ lo + j ∧ lo + j ≤ hi := by omega
    simp [h, h2]
  · simp [h]

/-- A field outside the one replaced reads as before. -/
theorem fld_putFld_disj (w : Word) {hi lo hi' lo' : Nat} (hlo : lo ≤ hi) (hhi : hi < 32) (v : Nat)
    (hd : hi' < lo ∨ hi < lo') : fld (putFld w hi lo v) hi' lo' = fld w hi' lo' := by
  apply Nat.eq_of_testBit_eq
  intro j
  rw [testBit_fld, testBit_fld, getLsbD_putFld w hlo hhi]
  by_cases h : j < hi' + 1 - lo'
  · have h2 : ¬ (lo ≤ lo' + j ∧ lo' + j ≤ hi) := by omega
    simp [h, h2]
  · simp [h]

/-- A bit put into a word reads back. -/
theorem bitOf_putFld_same (w : Word) {i : Nat} (hi : i < 32) (v : Nat) :
    bitOf (putFld w i i v) i = v.testBit 0 := by
  simp [bitOf, getLsbD_putFld w (Nat.le_refl i) hi]

/-- A bit outside the field replaced reads as before. -/
theorem bitOf_putFld_ne (w : Word) {hi lo i : Nat} (hlo : lo ≤ hi) (hhi : hi < 32) (v : Nat)
    (hd : i < lo ∨ hi < i) : bitOf (putFld w hi lo v) i = bitOf w i := by
  have h2 : ¬ (lo ≤ i ∧ i ≤ hi) := by omega
  simp [bitOf, getLsbD_putFld w hlo hhi, h2]

/-- A bit of a word with one bit replaced. -/
theorem bitOf_putFld (w : Word) {hi lo : Nat} (hlo : lo ≤ hi) (hhi : hi < 32) (v i : Nat) :
    bitOf (putFld w hi lo v) i = if lo ≤ i ∧ i ≤ hi then v.testBit (i - lo) else bitOf w i := getLsbD_putFld w hlo hhi v i

/-- A field of a word with another, apart from it or the same, replaced. -/
theorem fld_putFld (w : Word) {hi lo hi' lo' : Nat} (hlo : lo ≤ hi) (hhi : hi < 32) (v : Nat)
    (hd : (hi' < lo ∨ hi < lo') ∨ (hi' = hi ∧ lo' = lo)) :
    fld (putFld w hi lo v) hi' lo' = if hi' = hi ∧ lo' = lo then v % 2 ^ (hi + 1 - lo) else fld w hi' lo' := by
  by_cases h : hi' = hi ∧ lo' = lo
  · rw [if_pos h, h.1, h.2, fld_putFld_same w hlo hhi]
  · rw [if_neg h, fld_putFld_disj w hlo hhi v (hd.resolve_right h)]

theorem fld_lt (w : Word) (hi lo : Nat) : fld w hi lo < 2 ^ (hi + 1 - lo) := Nat.mod_lt _ (Nat.two_pow_pos _)

/-- The field of one bit. -/
theorem fld_bit (w : Word) (i : Nat) : fld w i i = if bitOf w i then 1 else 0 := by
  apply Nat.eq_of_testBit_eq
  intro j
  rw [testBit_fld]
  by_cases hj : j = 0
  · subst hj
    cases h : w.getLsbD i <;> simp [bitOf, h]
  · have h1 : Nat.testBit 1 j = false := by
      cases j with
      | zero => exact absurd rfl hj
      | succ j => simp [Nat.testBit_succ]
    cases bitOf w i <;> simp [hj, h1]

end Sys2Proof.Machine
end

