-- ==== Sys2Proof/Laws/State.lean ====
section
/-! SUPPORT. One lemma per field per primitive update of the module, and what the frame of a command does to each field. -/

namespace Sys2Proof.Machine

/-! ### Hw.setReg -/
@[simp] theorem Hw.setReg_grain (h : Hw) (a : Nat) (v : Word) : (h.setReg a v).grain = h.grain := rfl
@[simp] theorem Hw.setReg_wbuf (h : Hw) (a : Nat) (v : Word) : (h.setReg a v).wbuf = h.wbuf := rfl
@[simp] theorem Hw.setReg_free (h : Hw) (a : Nat) (v : Word) : (h.setReg a v).free = h.free := rfl
@[simp] theorem Hw.setReg_shadow (h : Hw) (a : Nat) (v : Word) : (h.setReg a v).shadow = h.shadow := rfl
@[simp] theorem Hw.setReg_pend (h : Hw) (a : Nat) (v : Word) : (h.setReg a v).pend = h.pend := rfl
@[simp] theorem Hw.setReg_pendPrev (h : Hw) (a : Nat) (v : Word) : (h.setReg a v).pendPrev = h.pendPrev := rfl
@[simp] theorem Hw.setReg_goMark (h : Hw) (a : Nat) (v : Word) : (h.setReg a v).goMark = h.goMark := rfl
@[simp] theorem Hw.setReg_latch (h : Hw) (a : Nat) (v : Word) : (h.setReg a v).latch = h.latch := rfl
@[simp] theorem Hw.setReg_evtCyc (h : Hw) (a : Nat) (v : Word) : (h.setReg a v).evtCyc = h.evtCyc := rfl
@[simp] theorem Hw.setReg_cntCyc (h : Hw) (a : Nat) (v : Word) : (h.setReg a v).cntCyc = h.cntCyc := rfl
@[simp] theorem Hw.setReg_lockSeq (h : Hw) (a : Nat) (v : Word) : (h.setReg a v).lockSeq = h.lockSeq := rfl
@[simp] theorem Hw.setReg_win (h : Hw) (a : Nat) (v : Word) : (h.setReg a v).win = h.win := rfl
@[simp] theorem Hw.setReg_logq (h : Hw) (a : Nat) (v : Word) : (h.setReg a v).logq = h.logq := rfl
@[simp] theorem Hw.setReg_logRecent (h : Hw) (a : Nat) (v : Word) : (h.setReg a v).logRecent = h.logRecent := rfl
@[simp] theorem Hw.setReg_logLost (h : Hw) (a : Nat) (v : Word) : (h.setReg a v).logLost = h.logLost := rfl
@[simp] theorem Hw.setReg_clk (h : Hw) (a : Nat) (v : Word) : (h.setReg a v).clk = h.clk := rfl
@[simp] theorem Hw.setReg_sys (h : Hw) (a : Nat) (v : Word) : (h.setReg a v).sys = h.sys := rfl
@[simp] theorem Hw.setReg_nv (h : Hw) (a : Nat) (v : Word) : (h.setReg a v).nv = h.nv := rfl
@[simp] theorem Hw.setReg_legs (h : Hw) (a : Nat) (v : Word) : (h.setReg a v).legs = h.legs := rfl
@[simp] theorem Hw.setReg_bridges (h : Hw) (a : Nat) (v : Word) : (h.setReg a v).bridges = h.bridges := rfl
@[simp] theorem Hw.setReg_cars (h : Hw) (a : Nat) (v : Word) : (h.setReg a v).cars = h.cars := rfl
@[simp] theorem Hw.setReg_gdp (h : Hw) (a : Nat) (v : Word) : (h.setReg a v).gdp = h.gdp := rfl
@[simp] theorem Hw.setReg_ax (h : Hw) (a : Nat) (v : Word) : (h.setReg a v).ax = h.ax := rfl
@[simp] theorem Hw.setReg_prf (h : Hw) (a : Nat) (v : Word) : (h.setReg a v).prf = h.prf := rfl
@[simp] theorem Hw.setReg_stp (h : Hw) (a : Nat) (v : Word) : (h.setReg a v).stp = h.stp := rfl
@[simp] theorem Hw.setReg_gears (h : Hw) (a : Nat) (v : Word) : (h.setReg a v).gears = h.gears := rfl
@[simp] theorem Hw.setReg_rcs (h : Hw) (a : Nat) (v : Word) : (h.setReg a v).rcs = h.rcs := rfl
@[simp] theorem Hw.setReg_lastSegs (h : Hw) (a : Nat) (v : Word) : (h.setReg a v).lastSegs = h.lastSegs := rfl
@[simp] theorem Hw.setReg_early (h : Hw) (a : Nat) (v : Word) : (h.setReg a v).early = h.early := rfl
@[simp] theorem Hw.setReg_sdm (h : Hw) (a : Nat) (v : Word) : (h.setReg a v).sdm = h.sdm := rfl
@[simp] theorem Hw.setReg_fbs (h : Hw) (a : Nat) (v : Word) : (h.setReg a v).fbs = h.fbs := rfl
@[simp] theorem Hw.setReg_pins (h : Hw) (a : Nat) (v : Word) : (h.setReg a v).pins = h.pins := rfl
@[simp] theorem Hw.setReg_save (h : Hw) (a : Nat) (v : Word) : (h.setReg a v).save = h.save := rfl
@[simp] theorem Hw.setReg_sup (h : Hw) (a : Nat) (v : Word) : (h.setReg a v).sup = h.sup := rfl
@[simp] theorem Hw.setReg_saf (h : Hw) (a : Nat) (v : Word) : (h.setReg a v).saf = h.saf := rfl
@[simp] theorem Hw.setReg_pair (h : Hw) (a : Nat) (v : Word) : (h.setReg a v).pair = h.pair := rfl
@[simp] theorem Hw.setReg_semAt (h : Hw) (a : Nat) (v : Word) : (h.setReg a v).semAt = h.semAt := rfl
@[simp] theorem Hw.setReg_hyts (h : Hw) (a : Nat) (v : Word) : (h.setReg a v).hyts = h.hyts := rfl
@[simp] theorem Hw.setReg_kerns (h : Hw) (a : Nat) (v : Word) : (h.setReg a v).kerns = h.kerns := rfl
@[simp] theorem Hw.setReg_enAt (h : Hw) (a : Nat) (v : Word) : (h.setReg a v).enAt = h.enAt := rfl
@[simp] theorem Hw.setReg_portCyc (h : Hw) (a : Nat) (v : Word) : (h.setReg a v).portCyc = h.portCyc := rfl
@[simp] theorem Hw.setReg_fields (h : Hw) (a : Nat) (v : Word) : (h.setReg a v).fields = h.fields := rfl
@[simp] theorem Hw.setReg_rst (h : Hw) (a : Nat) (v : Word) : (h.setReg a v).rst = h.rst := rfl
@[simp] theorem Hw.setReg_out (h : Hw) (a : Nat) (v : Word) : (h.setReg a v).out = h.out := rfl
@[simp] theorem Hw.setReg_ntm (h : Hw) (a : Nat) (v : Word) : (h.setReg a v).ntm = h.ntm := rfl
@[simp] theorem Hw.setReg_nsw (h : Hw) (a : Nat) (v : Word) : (h.setReg a v).nsw = h.nsw := rfl
@[simp] theorem Hw.setReg_can (h : Hw) (a : Nat) (v : Word) : (h.setReg a v).can = h.can := rfl
@[simp] theorem Hw.setReg_acq (h : Hw) (a : Nat) (v : Word) : (h.setReg a v).acq = h.acq := rfl

/-! ### Hw.setShd -/
@[simp] theorem Hw.setShd_grain (h : Hw) (a : Nat) (v : Word) : (h.setShd a v).grain = h.grain := rfl
@[simp] theorem Hw.setShd_wbuf (h : Hw) (a : Nat) (v : Word) : (h.setShd a v).wbuf = h.wbuf := rfl
@[simp] theorem Hw.setShd_free (h : Hw) (a : Nat) (v : Word) : (h.setShd a v).free = h.free := rfl
@[simp] theorem Hw.setShd_regs (h : Hw) (a : Nat) (v : Word) : (h.setShd a v).regs = h.regs := rfl
@[simp] theorem Hw.setShd_pend (h : Hw) (a : Nat) (v : Word) : (h.setShd a v).pend = h.pend := rfl
@[simp] theorem Hw.setShd_pendPrev (h : Hw) (a : Nat) (v : Word) : (h.setShd a v).pendPrev = h.pendPrev := rfl
@[simp] theorem Hw.setShd_goMark (h : Hw) (a : Nat) (v : Word) : (h.setShd a v).goMark = h.goMark := rfl
@[simp] theorem Hw.setShd_latch (h : Hw) (a : Nat) (v : Word) : (h.setShd a v).latch = h.latch := rfl
@[simp] theorem Hw.setShd_evtCyc (h : Hw) (a : Nat) (v : Word) : (h.setShd a v).evtCyc = h.evtCyc := rfl
@[simp] theorem Hw.setShd_cntCyc (h : Hw) (a : Nat) (v : Word) : (h.setShd a v).cntCyc = h.cntCyc := rfl
@[simp] theorem Hw.setShd_lockSeq (h : Hw) (a : Nat) (v : Word) : (h.setShd a v).lockSeq = h.lockSeq := rfl
@[simp] theorem Hw.setShd_win (h : Hw) (a : Nat) (v : Word) : (h.setShd a v).win = h.win := rfl
@[simp] theorem Hw.setShd_logq (h : Hw) (a : Nat) (v : Word) : (h.setShd a v).logq = h.logq := rfl
@[simp] theorem Hw.setShd_logRecent (h : Hw) (a : Nat) (v : Word) : (h.setShd a v).logRecent = h.logRecent := rfl
@[simp] theorem Hw.setShd_logLost (h : Hw) (a : Nat) (v : Word) : (h.setShd a v).logLost = h.logLost := rfl
@[simp] theorem Hw.setShd_clk (h : Hw) (a : Nat) (v : Word) : (h.setShd a v).clk = h.clk := rfl
@[simp] theorem Hw.setShd_sys (h : Hw) (a : Nat) (v : Word) : (h.setShd a v).sys = h.sys := rfl
@[simp] theorem Hw.setShd_nv (h : Hw) (a : Nat) (v : Word) : (h.setShd a v).nv = h.nv := rfl
@[simp] theorem Hw.setShd_legs (h : Hw) (a : Nat) (v : Word) : (h.setShd a v).legs = h.legs := rfl
@[simp] theorem Hw.setShd_bridges (h : Hw) (a : Nat) (v : Word) : (h.setShd a v).bridges = h.bridges := rfl
@[simp] theorem Hw.setShd_cars (h : Hw) (a : Nat) (v : Word) : (h.setShd a v).cars = h.cars := rfl
@[simp] theorem Hw.setShd_gdp (h : Hw) (a : Nat) (v : Word) : (h.setShd a v).gdp = h.gdp := rfl
@[simp] theorem Hw.setShd_ax (h : Hw) (a : Nat) (v : Word) : (h.setShd a v).ax = h.ax := rfl
@[simp] theorem Hw.setShd_prf (h : Hw) (a : Nat) (v : Word) : (h.setShd a v).prf = h.prf := rfl
@[simp] theorem Hw.setShd_stp (h : Hw) (a : Nat) (v : Word) : (h.setShd a v).stp = h.stp := rfl
@[simp] theorem Hw.setShd_gears (h : Hw) (a : Nat) (v : Word) : (h.setShd a v).gears = h.gears := rfl
@[simp] theorem Hw.setShd_rcs (h : Hw) (a : Nat) (v : Word) : (h.setShd a v).rcs = h.rcs := rfl
@[simp] theorem Hw.setShd_lastSegs (h : Hw) (a : Nat) (v : Word) : (h.setShd a v).lastSegs = h.lastSegs := rfl
@[simp] theorem Hw.setShd_early (h : Hw) (a : Nat) (v : Word) : (h.setShd a v).early = h.early := rfl
@[simp] theorem Hw.setShd_sdm (h : Hw) (a : Nat) (v : Word) : (h.setShd a v).sdm = h.sdm := rfl
@[simp] theorem Hw.setShd_fbs (h : Hw) (a : Nat) (v : Word) : (h.setShd a v).fbs = h.fbs := rfl
@[simp] theorem Hw.setShd_pins (h : Hw) (a : Nat) (v : Word) : (h.setShd a v).pins = h.pins := rfl
@[simp] theorem Hw.setShd_save (h : Hw) (a : Nat) (v : Word) : (h.setShd a v).save = h.save := rfl
@[simp] theorem Hw.setShd_sup (h : Hw) (a : Nat) (v : Word) : (h.setShd a v).sup = h.sup := rfl
@[simp] theorem Hw.setShd_saf (h : Hw) (a : Nat) (v : Word) : (h.setShd a v).saf = h.saf := rfl
@[simp] theorem Hw.setShd_pair (h : Hw) (a : Nat) (v : Word) : (h.setShd a v).pair = h.pair := rfl
@[simp] theorem Hw.setShd_semAt (h : Hw) (a : Nat) (v : Word) : (h.setShd a v).semAt = h.semAt := rfl
@[simp] theorem Hw.setShd_hyts (h : Hw) (a : Nat) (v : Word) : (h.setShd a v).hyts = h.hyts := rfl
@[simp] theorem Hw.setShd_kerns (h : Hw) (a : Nat) (v : Word) : (h.setShd a v).kerns = h.kerns := rfl
@[simp] theorem Hw.setShd_enAt (h : Hw) (a : Nat) (v : Word) : (h.setShd a v).enAt = h.enAt := rfl
@[simp] theorem Hw.setShd_portCyc (h : Hw) (a : Nat) (v : Word) : (h.setShd a v).portCyc = h.portCyc := rfl
@[simp] theorem Hw.setShd_fields (h : Hw) (a : Nat) (v : Word) : (h.setShd a v).fields = h.fields := rfl
@[simp] theorem Hw.setShd_rst (h : Hw) (a : Nat) (v : Word) : (h.setShd a v).rst = h.rst := rfl
@[simp] theorem Hw.setShd_out (h : Hw) (a : Nat) (v : Word) : (h.setShd a v).out = h.out := rfl
@[simp] theorem Hw.setShd_ntm (h : Hw) (a : Nat) (v : Word) : (h.setShd a v).ntm = h.ntm := rfl
@[simp] theorem Hw.setShd_nsw (h : Hw) (a : Nat) (v : Word) : (h.setShd a v).nsw = h.nsw := rfl
@[simp] theorem Hw.setShd_can (h : Hw) (a : Nat) (v : Word) : (h.setShd a v).can = h.can := rfl
@[simp] theorem Hw.setShd_acq (h : Hw) (a : Nat) (v : Word) : (h.setShd a v).acq = h.acq := rfl

/-! ### Hw.setFwin -/
@[simp] theorem Hw.setFwin_grain (h : Hw) (p : Nat) (w : FltWin) : (h.setFwin p w).grain = h.grain := rfl
@[simp] theorem Hw.setFwin_wbuf (h : Hw) (p : Nat) (w : FltWin) : (h.setFwin p w).wbuf = h.wbuf := rfl
@[simp] theorem Hw.setFwin_free (h : Hw) (p : Nat) (w : FltWin) : (h.setFwin p w).free = h.free := rfl
@[simp] theorem Hw.setFwin_regs (h : Hw) (p : Nat) (w : FltWin) : (h.setFwin p w).regs = h.regs := rfl
@[simp] theorem Hw.setFwin_shadow (h : Hw) (p : Nat) (w : FltWin) : (h.setFwin p w).shadow = h.shadow := rfl
@[simp] theorem Hw.setFwin_pend (h : Hw) (p : Nat) (w : FltWin) : (h.setFwin p w).pend = h.pend := rfl
@[simp] theorem Hw.setFwin_pendPrev (h : Hw) (p : Nat) (w : FltWin) : (h.setFwin p w).pendPrev = h.pendPrev := rfl
@[simp] theorem Hw.setFwin_goMark (h : Hw) (p : Nat) (w : FltWin) : (h.setFwin p w).goMark = h.goMark := rfl
@[simp] theorem Hw.setFwin_latch (h : Hw) (p : Nat) (w : FltWin) : (h.setFwin p w).latch = h.latch := rfl
@[simp] theorem Hw.setFwin_evtCyc (h : Hw) (p : Nat) (w : FltWin) : (h.setFwin p w).evtCyc = h.evtCyc := rfl
@[simp] theorem Hw.setFwin_cntCyc (h : Hw) (p : Nat) (w : FltWin) : (h.setFwin p w).cntCyc = h.cntCyc := rfl
@[simp] theorem Hw.setFwin_lockSeq (h : Hw) (p : Nat) (w : FltWin) : (h.setFwin p w).lockSeq = h.lockSeq := rfl
@[simp] theorem Hw.setFwin_logq (h : Hw) (p : Nat) (w : FltWin) : (h.setFwin p w).logq = h.logq := rfl
@[simp] theorem Hw.setFwin_logRecent (h : Hw) (p : Nat) (w : FltWin) : (h.setFwin p w).logRecent = h.logRecent := rfl
@[simp] theorem Hw.setFwin_logLost (h : Hw) (p : Nat) (w : FltWin) : (h.setFwin p w).logLost = h.logLost := rfl
@[simp] theorem Hw.setFwin_clk (h : Hw) (p : Nat) (w : FltWin) : (h.setFwin p w).clk = h.clk := rfl
@[simp] theorem Hw.setFwin_sys (h : Hw) (p : Nat) (w : FltWin) : (h.setFwin p w).sys = h.sys := rfl
@[simp] theorem Hw.setFwin_nv (h : Hw) (p : Nat) (w : FltWin) : (h.setFwin p w).nv = h.nv := rfl
@[simp] theorem Hw.setFwin_legs (h : Hw) (p : Nat) (w : FltWin) : (h.setFwin p w).legs = h.legs := rfl
@[simp] theorem Hw.setFwin_bridges (h : Hw) (p : Nat) (w : FltWin) : (h.setFwin p w).bridges = h.bridges := rfl
@[simp] theorem Hw.setFwin_cars (h : Hw) (p : Nat) (w : FltWin) : (h.setFwin p w).cars = h.cars := rfl
@[simp] theorem Hw.setFwin_gdp (h : Hw) (p : Nat) (w : FltWin) : (h.setFwin p w).gdp = h.gdp := rfl
@[simp] theorem Hw.setFwin_ax (h : Hw) (p : Nat) (w : FltWin) : (h.setFwin p w).ax = h.ax := rfl
@[simp] theorem Hw.setFwin_prf (h : Hw) (p : Nat) (w : FltWin) : (h.setFwin p w).prf = h.prf := rfl
@[simp] theorem Hw.setFwin_stp (h : Hw) (p : Nat) (w : FltWin) : (h.setFwin p w).stp = h.stp := rfl
@[simp] theorem Hw.setFwin_gears (h : Hw) (p : Nat) (w : FltWin) : (h.setFwin p w).gears = h.gears := rfl
@[simp] theorem Hw.setFwin_rcs (h : Hw) (p : Nat) (w : FltWin) : (h.setFwin p w).rcs = h.rcs := rfl
@[simp] theorem Hw.setFwin_lastSegs (h : Hw) (p : Nat) (w : FltWin) : (h.setFwin p w).lastSegs = h.lastSegs := rfl
@[simp] theorem Hw.setFwin_early (h : Hw) (p : Nat) (w : FltWin) : (h.setFwin p w).early = h.early := rfl
@[simp] theorem Hw.setFwin_sdm (h : Hw) (p : Nat) (w : FltWin) : (h.setFwin p w).sdm = h.sdm := rfl
@[simp] theorem Hw.setFwin_fbs (h : Hw) (p : Nat) (w : FltWin) : (h.setFwin p w).fbs = h.fbs := rfl
@[simp] theorem Hw.setFwin_pins (h : Hw) (p : Nat) (w : FltWin) : (h.setFwin p w).pins = h.pins := rfl
@[simp] theorem Hw.setFwin_save (h : Hw) (p : Nat) (w : FltWin) : (h.setFwin p w).save = h.save := rfl
@[simp] theorem Hw.setFwin_sup (h : Hw) (p : Nat) (w : FltWin) : (h.setFwin p w).sup = h.sup := rfl
@[simp] theorem Hw.setFwin_saf (h : Hw) (p : Nat) (w : FltWin) : (h.setFwin p w).saf = h.saf := rfl
@[simp] theorem Hw.setFwin_pair (h : Hw) (p : Nat) (w : FltWin) : (h.setFwin p w).pair = h.pair := rfl
@[simp] theorem Hw.setFwin_semAt (h : Hw) (p : Nat) (w : FltWin) : (h.setFwin p w).semAt = h.semAt := rfl
@[simp] theorem Hw.setFwin_hyts (h : Hw) (p : Nat) (w : FltWin) : (h.setFwin p w).hyts = h.hyts := rfl
@[simp] theorem Hw.setFwin_kerns (h : Hw) (p : Nat) (w : FltWin) : (h.setFwin p w).kerns = h.kerns := rfl
@[simp] theorem Hw.setFwin_enAt (h : Hw) (p : Nat) (w : FltWin) : (h.setFwin p w).enAt = h.enAt := rfl
@[simp] theorem Hw.setFwin_portCyc (h : Hw) (p : Nat) (w : FltWin) : (h.setFwin p w).portCyc = h.portCyc := rfl
@[simp] theorem Hw.setFwin_fields (h : Hw) (p : Nat) (w : FltWin) : (h.setFwin p w).fields = h.fields := rfl
@[simp] theorem Hw.setFwin_rst (h : Hw) (p : Nat) (w : FltWin) : (h.setFwin p w).rst = h.rst := rfl
@[simp] theorem Hw.setFwin_out (h : Hw) (p : Nat) (w : FltWin) : (h.setFwin p w).out = h.out := rfl
@[simp] theorem Hw.setFwin_ntm (h : Hw) (p : Nat) (w : FltWin) : (h.setFwin p w).ntm = h.ntm := rfl
@[simp] theorem Hw.setFwin_nsw (h : Hw) (p : Nat) (w : FltWin) : (h.setFwin p w).nsw = h.nsw := rfl
@[simp] theorem Hw.setFwin_can (h : Hw) (p : Nat) (w : FltWin) : (h.setFwin p w).can = h.can := rfl
@[simp] theorem Hw.setFwin_acq (h : Hw) (p : Nat) (w : FltWin) : (h.setFwin p w).acq = h.acq := rfl

/-! ### Hw.wr8 -/
@[simp] theorem Hw.wr8_grain (h : Hw) (a : Nat) (b : Byte) : (h.wr8 a b).grain = h.grain := rfl
@[simp] theorem Hw.wr8_free (h : Hw) (a : Nat) (b : Byte) : (h.wr8 a b).free = h.free := rfl
@[simp] theorem Hw.wr8_regs (h : Hw) (a : Nat) (b : Byte) : (h.wr8 a b).regs = h.regs := rfl
@[simp] theorem Hw.wr8_shadow (h : Hw) (a : Nat) (b : Byte) : (h.wr8 a b).shadow = h.shadow := rfl
@[simp] theorem Hw.wr8_pend (h : Hw) (a : Nat) (b : Byte) : (h.wr8 a b).pend = h.pend := rfl
@[simp] theorem Hw.wr8_pendPrev (h : Hw) (a : Nat) (b : Byte) : (h.wr8 a b).pendPrev = h.pendPrev := rfl
@[simp] theorem Hw.wr8_goMark (h : Hw) (a : Nat) (b : Byte) : (h.wr8 a b).goMark = h.goMark := rfl
@[simp] theorem Hw.wr8_latch (h : Hw) (a : Nat) (b : Byte) : (h.wr8 a b).latch = h.latch := rfl
@[simp] theorem Hw.wr8_evtCyc (h : Hw) (a : Nat) (b : Byte) : (h.wr8 a b).evtCyc = h.evtCyc := rfl
@[simp] theorem Hw.wr8_cntCyc (h : Hw) (a : Nat) (b : Byte) : (h.wr8 a b).cntCyc = h.cntCyc := rfl
@[simp] theorem Hw.wr8_lockSeq (h : Hw) (a : Nat) (b : Byte) : (h.wr8 a b).lockSeq = h.lockSeq := rfl
@[simp] theorem Hw.wr8_win (h : Hw) (a : Nat) (b : Byte) : (h.wr8 a b).win = h.win := rfl
@[simp] theorem Hw.wr8_logq (h : Hw) (a : Nat) (b : Byte) : (h.wr8 a b).logq = h.logq := rfl
@[simp] theorem Hw.wr8_logRecent (h : Hw) (a : Nat) (b : Byte) : (h.wr8 a b).logRecent = h.logRecent := rfl
@[simp] theorem Hw.wr8_logLost (h : Hw) (a : Nat) (b : Byte) : (h.wr8 a b).logLost = h.logLost := rfl
@[simp] theorem Hw.wr8_clk (h : Hw) (a : Nat) (b : Byte) : (h.wr8 a b).clk = h.clk := rfl
@[simp] theorem Hw.wr8_sys (h : Hw) (a : Nat) (b : Byte) : (h.wr8 a b).sys = h.sys := rfl
@[simp] theorem Hw.wr8_nv (h : Hw) (a : Nat) (b : Byte) : (h.wr8 a b).nv = h.nv := rfl
@[simp] theorem Hw.wr8_legs (h : Hw) (a : Nat) (b : Byte) : (h.wr8 a b).legs = h.legs := rfl
@[simp] theorem Hw.wr8_bridges (h : Hw) (a : Nat) (b : Byte) : (h.wr8 a b).bridges = h.bridges := rfl
@[simp] theorem Hw.wr8_cars (h : Hw) (a : Nat) (b : Byte) : (h.wr8 a b).cars = h.cars := rfl
@[simp] theorem Hw.wr8_gdp (h : Hw) (a : Nat) (b : Byte) : (h.wr8 a b).gdp = h.gdp := rfl
@[simp] theorem Hw.wr8_ax (h : Hw) (a : Nat) (b : Byte) : (h.wr8 a b).ax = h.ax := rfl
@[simp] theorem Hw.wr8_prf (h : Hw) (a : Nat) (b : Byte) : (h.wr8 a b).prf = h.prf := rfl
@[simp] theorem Hw.wr8_stp (h : Hw) (a : Nat) (b : Byte) : (h.wr8 a b).stp = h.stp := rfl
@[simp] theorem Hw.wr8_gears (h : Hw) (a : Nat) (b : Byte) : (h.wr8 a b).gears = h.gears := rfl
@[simp] theorem Hw.wr8_rcs (h : Hw) (a : Nat) (b : Byte) : (h.wr8 a b).rcs = h.rcs := rfl
@[simp] theorem Hw.wr8_lastSegs (h : Hw) (a : Nat) (b : Byte) : (h.wr8 a b).lastSegs = h.lastSegs := rfl
@[simp] theorem Hw.wr8_early (h : Hw) (a : Nat) (b : Byte) : (h.wr8 a b).early = h.early := rfl
@[simp] theorem Hw.wr8_sdm (h : Hw) (a : Nat) (b : Byte) : (h.wr8 a b).sdm = h.sdm := rfl
@[simp] theorem Hw.wr8_fbs (h : Hw) (a : Nat) (b : Byte) : (h.wr8 a b).fbs = h.fbs := rfl
@[simp] theorem Hw.wr8_pins (h : Hw) (a : Nat) (b : Byte) : (h.wr8 a b).pins = h.pins := rfl
@[simp] theorem Hw.wr8_save (h : Hw) (a : Nat) (b : Byte) : (h.wr8 a b).save = h.save := rfl
@[simp] theorem Hw.wr8_sup (h : Hw) (a : Nat) (b : Byte) : (h.wr8 a b).sup = h.sup := rfl
@[simp] theorem Hw.wr8_saf (h : Hw) (a : Nat) (b : Byte) : (h.wr8 a b).saf = h.saf := rfl
@[simp] theorem Hw.wr8_pair (h : Hw) (a : Nat) (b : Byte) : (h.wr8 a b).pair = h.pair := rfl
@[simp] theorem Hw.wr8_semAt (h : Hw) (a : Nat) (b : Byte) : (h.wr8 a b).semAt = h.semAt := rfl
@[simp] theorem Hw.wr8_hyts (h : Hw) (a : Nat) (b : Byte) : (h.wr8 a b).hyts = h.hyts := rfl
@[simp] theorem Hw.wr8_kerns (h : Hw) (a : Nat) (b : Byte) : (h.wr8 a b).kerns = h.kerns := rfl
@[simp] theorem Hw.wr8_enAt (h : Hw) (a : Nat) (b : Byte) : (h.wr8 a b).enAt = h.enAt := rfl
@[simp] theorem Hw.wr8_portCyc (h : Hw) (a : Nat) (b : Byte) : (h.wr8 a b).portCyc = h.portCyc := rfl
@[simp] theorem Hw.wr8_fields (h : Hw) (a : Nat) (b : Byte) : (h.wr8 a b).fields = h.fields := rfl
@[simp] theorem Hw.wr8_rst (h : Hw) (a : Nat) (b : Byte) : (h.wr8 a b).rst = h.rst := rfl
@[simp] theorem Hw.wr8_out (h : Hw) (a : Nat) (b : Byte) : (h.wr8 a b).out = h.out := rfl
@[simp] theorem Hw.wr8_ntm (h : Hw) (a : Nat) (b : Byte) : (h.wr8 a b).ntm = h.ntm := rfl
@[simp] theorem Hw.wr8_nsw (h : Hw) (a : Nat) (b : Byte) : (h.wr8 a b).nsw = h.nsw := rfl
@[simp] theorem Hw.wr8_can (h : Hw) (a : Nat) (b : Byte) : (h.wr8 a b).can = h.can := rfl
@[simp] theorem Hw.wr8_acq (h : Hw) (a : Nat) (b : Byte) : (h.wr8 a b).acq = h.acq := rfl

/-! ### Events and counters -/
@[simp] theorem Hw.evtTs_grain (h : Hw) (p b ts : Nat) : (h.evtTs p b ts).grain = h.grain := by
  unfold Hw.evtTs; dsimp only; split <;> rfl
@[simp] theorem Hw.evt_grain (h : Hw) (p b : Nat) : (h.evt p b).grain = h.grain := h.evtTs_grain p b _
@[simp] theorem Hw.evtTs_wbuf (h : Hw) (p b ts : Nat) : (h.evtTs p b ts).wbuf = h.wbuf := by
  unfold Hw.evtTs; dsimp only; split <;> rfl
@[simp] theorem Hw.evt_wbuf (h : Hw) (p b : Nat) : (h.evt p b).wbuf = h.wbuf := h.evtTs_wbuf p b _
@[simp] theorem Hw.evtTs_free (h : Hw) (p b ts : Nat) : (h.evtTs p b ts).free = h.free := by
  unfold Hw.evtTs; dsimp only; split <;> rfl
@[simp] theorem Hw.evt_free (h : Hw) (p b : Nat) : (h.evt p b).free = h.free := h.evtTs_free p b _
@[simp] theorem Hw.evtTs_shadow (h : Hw) (p b ts : Nat) : (h.evtTs p b ts).shadow = h.shadow := by
  unfold Hw.evtTs; dsimp only; split <;> rfl
@[simp] theorem Hw.evt_shadow (h : Hw) (p b : Nat) : (h.evt p b).shadow = h.shadow := h.evtTs_shadow p b _
@[simp] theorem Hw.evtTs_pend (h : Hw) (p b ts : Nat) : (h.evtTs p b ts).pend = h.pend := by
  unfold Hw.evtTs; dsimp only; split <;> rfl
@[simp] theorem Hw.evt_pend (h : Hw) (p b : Nat) : (h.evt p b).pend = h.pend := h.evtTs_pend p b _
@[simp] theorem Hw.evtTs_pendPrev (h : Hw) (p b ts : Nat) : (h.evtTs p b ts).pendPrev = h.pendPrev := by
  unfold Hw.evtTs; dsimp only; split <;> rfl
@[simp] theorem Hw.evt_pendPrev (h : Hw) (p b : Nat) : (h.evt p b).pendPrev = h.pendPrev := h.evtTs_pendPrev p b _
@[simp] theorem Hw.evtTs_goMark (h : Hw) (p b ts : Nat) : (h.evtTs p b ts).goMark = h.goMark := by
  unfold Hw.evtTs; dsimp only; split <;> rfl
@[simp] theorem Hw.evt_goMark (h : Hw) (p b : Nat) : (h.evt p b).goMark = h.goMark := h.evtTs_goMark p b _
@[simp] theorem Hw.evtTs_latch (h : Hw) (p b ts : Nat) : (h.evtTs p b ts).latch = h.latch := by
  unfold Hw.evtTs; dsimp only; split <;> rfl
@[simp] theorem Hw.evt_latch (h : Hw) (p b : Nat) : (h.evt p b).latch = h.latch := h.evtTs_latch p b _
@[simp] theorem Hw.evtTs_cntCyc (h : Hw) (p b ts : Nat) : (h.evtTs p b ts).cntCyc = h.cntCyc := by
  unfold Hw.evtTs; dsimp only; split <;> rfl
@[simp] theorem Hw.evt_cntCyc (h : Hw) (p b : Nat) : (h.evt p b).cntCyc = h.cntCyc := h.evtTs_cntCyc p b _
@[simp] theorem Hw.evtTs_lockSeq (h : Hw) (p b ts : Nat) : (h.evtTs p b ts).lockSeq = h.lockSeq := by
  unfold Hw.evtTs; dsimp only; split <;> rfl
@[simp] theorem Hw.evt_lockSeq (h : Hw) (p b : Nat) : (h.evt p b).lockSeq = h.lockSeq := h.evtTs_lockSeq p b _
@[simp] theorem Hw.evtTs_win (h : Hw) (p b ts : Nat) : (h.evtTs p b ts).win = h.win := by
  unfold Hw.evtTs; dsimp only; split <;> rfl
@[simp] theorem Hw.evt_win (h : Hw) (p b : Nat) : (h.evt p b).win = h.win := h.evtTs_win p b _
@[simp] theorem Hw.evtTs_logq (h : Hw) (p b ts : Nat) : (h.evtTs p b ts).logq = h.logq := by
  unfold Hw.evtTs; dsimp only; split <;> rfl
@[simp] theorem Hw.evt_logq (h : Hw) (p b : Nat) : (h.evt p b).logq = h.logq := h.evtTs_logq p b _
@[simp] theorem Hw.evtTs_logRecent (h : Hw) (p b ts : Nat) : (h.evtTs p b ts).logRecent = h.logRecent := by
  unfold Hw.evtTs; dsimp only; split <;> rfl
@[simp] theorem Hw.evt_logRecent (h : Hw) (p b : Nat) : (h.evt p b).logRecent = h.logRecent := h.evtTs_logRecent p b _
@[simp] theorem Hw.evtTs_logLost (h : Hw) (p b ts : Nat) : (h.evtTs p b ts).logLost = h.logLost := by
  unfold Hw.evtTs; dsimp only; split <;> rfl
@[simp] theorem Hw.evt_logLost (h : Hw) (p b : Nat) : (h.evt p b).logLost = h.logLost := h.evtTs_logLost p b _
@[simp] theorem Hw.evtTs_clk (h : Hw) (p b ts : Nat) : (h.evtTs p b ts).clk = h.clk := by
  unfold Hw.evtTs; dsimp only; split <;> rfl
@[simp] theorem Hw.evt_clk (h : Hw) (p b : Nat) : (h.evt p b).clk = h.clk := h.evtTs_clk p b _
@[simp] theorem Hw.evtTs_sys (h : Hw) (p b ts : Nat) : (h.evtTs p b ts).sys = h.sys := by
  unfold Hw.evtTs; dsimp only; split <;> rfl
@[simp] theorem Hw.evt_sys (h : Hw) (p b : Nat) : (h.evt p b).sys = h.sys := h.evtTs_sys p b _
@[simp] theorem Hw.evtTs_nv (h : Hw) (p b ts : Nat) : (h.evtTs p b ts).nv = h.nv := by
  unfold Hw.evtTs; dsimp only; split <;> rfl
@[simp] theorem Hw.evt_nv (h : Hw) (p b : Nat) : (h.evt p b).nv = h.nv := h.evtTs_nv p b _
@[simp] theorem Hw.evtTs_legs (h : Hw) (p b ts : Nat) : (h.evtTs p b ts).legs = h.legs := by
  unfold Hw.evtTs; dsimp only; split <;> rfl
@[simp] theorem Hw.evt_legs (h : Hw) (p b : Nat) : (h.evt p b).legs = h.legs := h.evtTs_legs p b _
@[simp] theorem Hw.evtTs_bridges (h : Hw) (p b ts : Nat) : (h.evtTs p b ts).bridges = h.bridges := by
  unfold Hw.evtTs; dsimp only; split <;> rfl
@[simp] theorem Hw.evt_bridges (h : Hw) (p b : Nat) : (h.evt p b).bridges = h.bridges := h.evtTs_bridges p b _
@[simp] theorem Hw.evtTs_cars (h : Hw) (p b ts : Nat) : (h.evtTs p b ts).cars = h.cars := by
  unfold Hw.evtTs; dsimp only; split <;> rfl
@[simp] theorem Hw.evt_cars (h : Hw) (p b : Nat) : (h.evt p b).cars = h.cars := h.evtTs_cars p b _
@[simp] theorem Hw.evtTs_gdp (h : Hw) (p b ts : Nat) : (h.evtTs p b ts).gdp = h.gdp := by
  unfold Hw.evtTs; dsimp only; split <;> rfl
@[simp] theorem Hw.evt_gdp (h : Hw) (p b : Nat) : (h.evt p b).gdp = h.gdp := h.evtTs_gdp p b _
@[simp] theorem Hw.evtTs_ax (h : Hw) (p b ts : Nat) : (h.evtTs p b ts).ax = h.ax := by
  unfold Hw.evtTs; dsimp only; split <;> rfl
@[simp] theorem Hw.evt_ax (h : Hw) (p b : Nat) : (h.evt p b).ax = h.ax := h.evtTs_ax p b _
@[simp] theorem Hw.evtTs_prf (h : Hw) (p b ts : Nat) : (h.evtTs p b ts).prf = h.prf := by
  unfold Hw.evtTs; dsimp only; split <;> rfl
@[simp] theorem Hw.evt_prf (h : Hw) (p b : Nat) : (h.evt p b).prf = h.prf := h.evtTs_prf p b _
@[simp] theorem Hw.evtTs_stp (h : Hw) (p b ts : Nat) : (h.evtTs p b ts).stp = h.stp := by
  unfold Hw.evtTs; dsimp only; split <;> rfl
@[simp] theorem Hw.evt_stp (h : Hw) (p b : Nat) : (h.evt p b).stp = h.stp := h.evtTs_stp p b _
@[simp] theorem Hw.evtTs_gears (h : Hw) (p b ts : Nat) : (h.evtTs p b ts).gears = h.gears := by
  unfold Hw.evtTs; dsimp only; split <;> rfl
@[simp] theorem Hw.evt_gears (h : Hw) (p b : Nat) : (h.evt p b).gears = h.gears := h.evtTs_gears p b _
@[simp] theorem Hw.evtTs_rcs (h : Hw) (p b ts : Nat) : (h.evtTs p b ts).rcs = h.rcs := by
  unfold Hw.evtTs; dsimp only; split <;> rfl
@[simp] theorem Hw.evt_rcs (h : Hw) (p b : Nat) : (h.evt p b).rcs = h.rcs := h.evtTs_rcs p b _
@[simp] theorem Hw.evtTs_lastSegs (h : Hw) (p b ts : Nat) : (h.evtTs p b ts).lastSegs = h.lastSegs := by
  unfold Hw.evtTs; dsimp only; split <;> rfl
@[simp] theorem Hw.evtTs_early (h : Hw) (p b ts : Nat) : (h.evtTs p b ts).early = h.early := by
  unfold Hw.evtTs; dsimp only; split <;> rfl
@[simp] theorem Hw.evt_lastSegs (h : Hw) (p b : Nat) : (h.evt p b).lastSegs = h.lastSegs := h.evtTs_lastSegs p b _
@[simp] theorem Hw.evt_early (h : Hw) (p b : Nat) : (h.evt p b).early = h.early := h.evtTs_early p b _
@[simp] theorem Hw.evtTs_sdm (h : Hw) (p b ts : Nat) : (h.evtTs p b ts).sdm = h.sdm := by
  unfold Hw.evtTs; dsimp only; split <;> rfl
@[simp] theorem Hw.evt_sdm (h : Hw) (p b : Nat) : (h.evt p b).sdm = h.sdm := h.evtTs_sdm p b _
@[simp] theorem Hw.evtTs_fbs (h : Hw) (p b ts : Nat) : (h.evtTs p b ts).fbs = h.fbs := by
  unfold Hw.evtTs; dsimp only; split <;> rfl
@[simp] theorem Hw.evt_fbs (h : Hw) (p b : Nat) : (h.evt p b).fbs = h.fbs := h.evtTs_fbs p b _
@[simp] theorem Hw.evtTs_pins (h : Hw) (p b ts : Nat) : (h.evtTs p b ts).pins = h.pins := by
  unfold Hw.evtTs; dsimp only; split <;> rfl
@[simp] theorem Hw.evt_pins (h : Hw) (p b : Nat) : (h.evt p b).pins = h.pins := h.evtTs_pins p b _
@[simp] theorem Hw.evtTs_save (h : Hw) (p b ts : Nat) : (h.evtTs p b ts).save = h.save := by
  unfold Hw.evtTs; dsimp only; split <;> rfl
@[simp] theorem Hw.evt_save (h : Hw) (p b : Nat) : (h.evt p b).save = h.save := h.evtTs_save p b _
@[simp] theorem Hw.evtTs_sup (h : Hw) (p b ts : Nat) : (h.evtTs p b ts).sup = h.sup := by
  unfold Hw.evtTs; dsimp only; split <;> rfl
@[simp] theorem Hw.evt_sup (h : Hw) (p b : Nat) : (h.evt p b).sup = h.sup := h.evtTs_sup p b _
@[simp] theorem Hw.evtTs_saf (h : Hw) (p b ts : Nat) : (h.evtTs p b ts).saf = h.saf := by
  unfold Hw.evtTs; dsimp only; split <;> rfl
@[simp] theorem Hw.evt_saf (h : Hw) (p b : Nat) : (h.evt p b).saf = h.saf := h.evtTs_saf p b _
@[simp] theorem Hw.evtTs_pair (h : Hw) (p b ts : Nat) : (h.evtTs p b ts).pair = h.pair := by
  unfold Hw.evtTs; dsimp only; split <;> rfl
@[simp] theorem Hw.evt_pair (h : Hw) (p b : Nat) : (h.evt p b).pair = h.pair := h.evtTs_pair p b _
@[simp] theorem Hw.evtTs_semAt (h : Hw) (p b ts : Nat) : (h.evtTs p b ts).semAt = h.semAt := by
  unfold Hw.evtTs; dsimp only; split <;> rfl
@[simp] theorem Hw.evt_semAt (h : Hw) (p b : Nat) : (h.evt p b).semAt = h.semAt := h.evtTs_semAt p b _
@[simp] theorem Hw.evtTs_hyts (h : Hw) (p b ts : Nat) : (h.evtTs p b ts).hyts = h.hyts := by
  unfold Hw.evtTs; dsimp only; split <;> rfl
@[simp] theorem Hw.evt_hyts (h : Hw) (p b : Nat) : (h.evt p b).hyts = h.hyts := h.evtTs_hyts p b _
@[simp] theorem Hw.evtTs_kerns (h : Hw) (p b ts : Nat) : (h.evtTs p b ts).kerns = h.kerns := by
  unfold Hw.evtTs; dsimp only; split <;> rfl
@[simp] theorem Hw.evt_kerns (h : Hw) (p b : Nat) : (h.evt p b).kerns = h.kerns := h.evtTs_kerns p b _
@[simp] theorem Hw.evtTs_enAt (h : Hw) (p b ts : Nat) : (h.evtTs p b ts).enAt = h.enAt := by
  unfold Hw.evtTs; dsimp only; split <;> rfl
@[simp] theorem Hw.evt_enAt (h : Hw) (p b : Nat) : (h.evt p b).enAt = h.enAt := h.evtTs_enAt p b _
@[simp] theorem Hw.evtTs_portCyc (h : Hw) (p b ts : Nat) : (h.evtTs p b ts).portCyc = h.portCyc := by
  unfold Hw.evtTs; dsimp only; split <;> rfl
@[simp] theorem Hw.evt_portCyc (h : Hw) (p b : Nat) : (h.evt p b).portCyc = h.portCyc := h.evtTs_portCyc p b _
@[simp] theorem Hw.evtTs_fields (h : Hw) (p b ts : Nat) : (h.evtTs p b ts).fields = h.fields := by
  unfold Hw.evtTs; dsimp only; split <;> rfl
@[simp] theorem Hw.evt_fields (h : Hw) (p b : Nat) : (h.evt p b).fields = h.fields := h.evtTs_fields p b _
@[simp] theorem Hw.evtTs_rst (h : Hw) (p b ts : Nat) : (h.evtTs p b ts).rst = h.rst := by
  unfold Hw.evtTs; dsimp only; split <;> rfl
@[simp] theorem Hw.evt_rst (h : Hw) (p b : Nat) : (h.evt p b).rst = h.rst := h.evtTs_rst p b _
@[simp] theorem Hw.evtTs_out (h : Hw) (p b ts : Nat) : (h.evtTs p b ts).out = h.out := by
  unfold Hw.evtTs; dsimp only; split <;> rfl
@[simp] theorem Hw.evt_out (h : Hw) (p b : Nat) : (h.evt p b).out = h.out := h.evtTs_out p b _
@[simp] theorem Hw.evtTs_ntm (h : Hw) (p b ts : Nat) : (h.evtTs p b ts).ntm = h.ntm := by
  unfold Hw.evtTs; dsimp only; split <;> rfl
@[simp] theorem Hw.evt_ntm (h : Hw) (p b : Nat) : (h.evt p b).ntm = h.ntm := h.evtTs_ntm p b _
@[simp] theorem Hw.evtTs_nsw (h : Hw) (p b ts : Nat) : (h.evtTs p b ts).nsw = h.nsw := by
  unfold Hw.evtTs; dsimp only; split <;> rfl
@[simp] theorem Hw.evt_nsw (h : Hw) (p b : Nat) : (h.evt p b).nsw = h.nsw := h.evtTs_nsw p b _
@[simp] theorem Hw.evtTs_can (h : Hw) (p b ts : Nat) : (h.evtTs p b ts).can = h.can := by
  unfold Hw.evtTs; dsimp only; split <;> rfl
@[simp] theorem Hw.evt_can (h : Hw) (p b : Nat) : (h.evt p b).can = h.can := h.evtTs_can p b _
@[simp] theorem Hw.evtTs_acq (h : Hw) (p b ts : Nat) : (h.evtTs p b ts).acq = h.acq := by
  unfold Hw.evtTs; dsimp only; split <;> rfl
@[simp] theorem Hw.evt_acq (h : Hw) (p b : Nat) : (h.evt p b).acq = h.acq := h.evtTs_acq p b _
@[simp] theorem Hw.bump_grain (h : Hw) (a hi lo : Nat) : (h.bump a hi lo).grain = h.grain := rfl
@[simp] theorem Hw.bump_wbuf (h : Hw) (a hi lo : Nat) : (h.bump a hi lo).wbuf = h.wbuf := rfl
@[simp] theorem Hw.bump_free (h : Hw) (a hi lo : Nat) : (h.bump a hi lo).free = h.free := rfl
@[simp] theorem Hw.bump_shadow (h : Hw) (a hi lo : Nat) : (h.bump a hi lo).shadow = h.shadow := rfl
@[simp] theorem Hw.bump_pend (h : Hw) (a hi lo : Nat) : (h.bump a hi lo).pend = h.pend := rfl
@[simp] theorem Hw.bump_pendPrev (h : Hw) (a hi lo : Nat) : (h.bump a hi lo).pendPrev = h.pendPrev := rfl
@[simp] theorem Hw.bump_goMark (h : Hw) (a hi lo : Nat) : (h.bump a hi lo).goMark = h.goMark := rfl
@[simp] theorem Hw.bump_latch (h : Hw) (a hi lo : Nat) : (h.bump a hi lo).latch = h.latch := rfl
@[simp] theorem Hw.bump_evtCyc (h : Hw) (a hi lo : Nat) : (h.bump a hi lo).evtCyc = h.evtCyc := rfl
@[simp] theorem Hw.bump_lockSeq (h : Hw) (a hi lo : Nat) : (h.bump a hi lo).lockSeq = h.lockSeq := rfl
@[simp] theorem Hw.bump_win (h : Hw) (a hi lo : Nat) : (h.bump a hi lo).win = h.win := rfl
@[simp] theorem Hw.bump_logq (h : Hw) (a hi lo : Nat) : (h.bump a hi lo).logq = h.logq := rfl
@[simp] theorem Hw.bump_logRecent (h : Hw) (a hi lo : Nat) : (h.bump a hi lo).logRecent = h.logRecent := rfl
@[simp] theorem Hw.bump_logLost (h : Hw) (a hi lo : Nat) : (h.bump a hi lo).logLost = h.logLost := rfl
@[simp] theorem Hw.bump_clk (h : Hw) (a hi lo : Nat) : (h.bump a hi lo).clk = h.clk := rfl
@[simp] theorem Hw.bump_sys (h : Hw) (a hi lo : Nat) : (h.bump a hi lo).sys = h.sys := rfl
@[simp] theorem Hw.bump_nv (h : Hw) (a hi lo : Nat) : (h.bump a hi lo).nv = h.nv := rfl
@[simp] theorem Hw.bump_legs (h : Hw) (a hi lo : Nat) : (h.bump a hi lo).legs = h.legs := rfl
@[simp] theorem Hw.bump_bridges (h : Hw) (a hi lo : Nat) : (h.bump a hi lo).bridges = h.bridges := rfl
@[simp] theorem Hw.bump_cars (h : Hw) (a hi lo : Nat) : (h.bump a hi lo).cars = h.cars := rfl
@[simp] theorem Hw.bump_gdp (h : Hw) (a hi lo : Nat) : (h.bump a hi lo).gdp = h.gdp := rfl
@[simp] theorem Hw.bump_ax (h : Hw) (a hi lo : Nat) : (h.bump a hi lo).ax = h.ax := rfl
@[simp] theorem Hw.bump_prf (h : Hw) (a hi lo : Nat) : (h.bump a hi lo).prf = h.prf := rfl
@[simp] theorem Hw.bump_stp (h : Hw) (a hi lo : Nat) : (h.bump a hi lo).stp = h.stp := rfl
@[simp] theorem Hw.bump_gears (h : Hw) (a hi lo : Nat) : (h.bump a hi lo).gears = h.gears := rfl
@[simp] theorem Hw.bump_rcs (h : Hw) (a hi lo : Nat) : (h.bump a hi lo).rcs = h.rcs := rfl
@[simp] theorem Hw.bump_lastSegs (h : Hw) (a hi lo : Nat) : (h.bump a hi lo).lastSegs = h.lastSegs := rfl
@[simp] theorem Hw.bump_early (h : Hw) (a hi lo : Nat) : (h.bump a hi lo).early = h.early := rfl
@[simp] theorem Hw.bump_sdm (h : Hw) (a hi lo : Nat) : (h.bump a hi lo).sdm = h.sdm := rfl
@[simp] theorem Hw.bump_fbs (h : Hw) (a hi lo : Nat) : (h.bump a hi lo).fbs = h.fbs := rfl
@[simp] theorem Hw.bump_pins (h : Hw) (a hi lo : Nat) : (h.bump a hi lo).pins = h.pins := rfl
@[simp] theorem Hw.bump_save (h : Hw) (a hi lo : Nat) : (h.bump a hi lo).save = h.save := rfl
@[simp] theorem Hw.bump_sup (h : Hw) (a hi lo : Nat) : (h.bump a hi lo).sup = h.sup := rfl
@[simp] theorem Hw.bump_saf (h : Hw) (a hi lo : Nat) : (h.bump a hi lo).saf = h.saf := rfl
@[simp] theorem Hw.bump_pair (h : Hw) (a hi lo : Nat) : (h.bump a hi lo).pair = h.pair := rfl
@[simp] theorem Hw.bump_semAt (h : Hw) (a hi lo : Nat) : (h.bump a hi lo).semAt = h.semAt := rfl
@[simp] theorem Hw.bump_hyts (h : Hw) (a hi lo : Nat) : (h.bump a hi lo).hyts = h.hyts := rfl
@[simp] theorem Hw.bump_kerns (h : Hw) (a hi lo : Nat) : (h.bump a hi lo).kerns = h.kerns := rfl
@[simp] theorem Hw.bump_enAt (h : Hw) (a hi lo : Nat) : (h.bump a hi lo).enAt = h.enAt := rfl
@[simp] theorem Hw.bump_portCyc (h : Hw) (a hi lo : Nat) : (h.bump a hi lo).portCyc = h.portCyc := rfl
@[simp] theorem Hw.bump_fields (h : Hw) (a hi lo : Nat) : (h.bump a hi lo).fields = h.fields := rfl
@[simp] theorem Hw.bump_rst (h : Hw) (a hi lo : Nat) : (h.bump a hi lo).rst = h.rst := rfl
@[simp] theorem Hw.bump_out (h : Hw) (a hi lo : Nat) : (h.bump a hi lo).out = h.out := rfl
@[simp] theorem Hw.bump_ntm (h : Hw) (a hi lo : Nat) : (h.bump a hi lo).ntm = h.ntm := rfl
@[simp] theorem Hw.bump_nsw (h : Hw) (a hi lo : Nat) : (h.bump a hi lo).nsw = h.nsw := rfl
@[simp] theorem Hw.bump_can (h : Hw) (a hi lo : Nat) : (h.bump a hi lo).can = h.can := rfl
@[simp] theorem Hw.bump_acq (h : Hw) (a hi lo : Nat) : (h.bump a hi lo).acq = h.acq := rfl
/-! ### The frame of a command -/
@[simp] theorem Hw.at_wbuf (h : Hw) (g : Nat) : (h.at g).wbuf = h.wbuf := rfl
@[simp] theorem Hw.at_free (h : Hw) (g : Nat) : (h.at g).free = h.free := rfl
@[simp] theorem Hw.at_regs (h : Hw) (g : Nat) : (h.at g).regs = h.regs := rfl
@[simp] theorem Hw.at_shadow (h : Hw) (g : Nat) : (h.at g).shadow = h.shadow := rfl
@[simp] theorem Hw.at_pend (h : Hw) (g : Nat) : (h.at g).pend = h.pend := rfl
@[simp] theorem Hw.at_pendPrev (h : Hw) (g : Nat) : (h.at g).pendPrev = h.pendPrev := rfl
@[simp] theorem Hw.at_goMark (h : Hw) (g : Nat) : (h.at g).goMark = h.goMark := rfl
@[simp] theorem Hw.at_latch (h : Hw) (g : Nat) : (h.at g).latch = h.latch := rfl
@[simp] theorem Hw.at_evtCyc (h : Hw) (g : Nat) : (h.at g).evtCyc = h.evtCyc := rfl
@[simp] theorem Hw.at_cntCyc (h : Hw) (g : Nat) : (h.at g).cntCyc = h.cntCyc := rfl
@[simp] theorem Hw.at_lockSeq (h : Hw) (g : Nat) : (h.at g).lockSeq = h.lockSeq := rfl
@[simp] theorem Hw.at_win (h : Hw) (g : Nat) : (h.at g).win = h.win := rfl
@[simp] theorem Hw.at_logq (h : Hw) (g : Nat) : (h.at g).logq = h.logq := rfl
@[simp] theorem Hw.at_logRecent (h : Hw) (g : Nat) : (h.at g).logRecent = h.logRecent := rfl
@[simp] theorem Hw.at_logLost (h : Hw) (g : Nat) : (h.at g).logLost = h.logLost := rfl
@[simp] theorem Hw.at_clk (h : Hw) (g : Nat) : (h.at g).clk = h.clk := rfl
@[simp] theorem Hw.at_sys (h : Hw) (g : Nat) : (h.at g).sys = h.sys := rfl
@[simp] theorem Hw.at_nv (h : Hw) (g : Nat) : (h.at g).nv = h.nv := rfl
@[simp] theorem Hw.at_legs (h : Hw) (g : Nat) : (h.at g).legs = h.legs := rfl
@[simp] theorem Hw.at_bridges (h : Hw) (g : Nat) : (h.at g).bridges = h.bridges := rfl
@[simp] theorem Hw.at_cars (h : Hw) (g : Nat) : (h.at g).cars = h.cars := rfl
@[simp] theorem Hw.at_gdp (h : Hw) (g : Nat) : (h.at g).gdp = h.gdp := rfl
@[simp] theorem Hw.at_ax (h : Hw) (g : Nat) : (h.at g).ax = h.ax := rfl
@[simp] theorem Hw.at_prf (h : Hw) (g : Nat) : (h.at g).prf = h.prf := rfl
@[simp] theorem Hw.at_stp (h : Hw) (g : Nat) : (h.at g).stp = h.stp := rfl
@[simp] theorem Hw.at_gears (h : Hw) (g : Nat) : (h.at g).gears = h.gears := rfl
@[simp] theorem Hw.at_rcs (h : Hw) (g : Nat) : (h.at g).rcs = h.rcs := rfl
@[simp] theorem Hw.at_lastSegs (h : Hw) (g : Nat) : (h.at g).lastSegs = h.lastSegs := rfl
@[simp] theorem Hw.at_early (h : Hw) (g : Nat) : (h.at g).early = h.early := rfl
@[simp] theorem Hw.at_sdm (h : Hw) (g : Nat) : (h.at g).sdm = h.sdm := rfl
@[simp] theorem Hw.at_fbs (h : Hw) (g : Nat) : (h.at g).fbs = h.fbs := rfl
@[simp] theorem Hw.at_pins (h : Hw) (g : Nat) : (h.at g).pins = h.pins := rfl
@[simp] theorem Hw.at_save (h : Hw) (g : Nat) : (h.at g).save = h.save := rfl
@[simp] theorem Hw.at_sup (h : Hw) (g : Nat) : (h.at g).sup = h.sup := rfl
@[simp] theorem Hw.at_saf (h : Hw) (g : Nat) : (h.at g).saf = h.saf := rfl
@[simp] theorem Hw.at_pair (h : Hw) (g : Nat) : (h.at g).pair = h.pair := rfl
@[simp] theorem Hw.at_semAt (h : Hw) (g : Nat) : (h.at g).semAt = h.semAt := rfl
@[simp] theorem Hw.at_hyts (h : Hw) (g : Nat) : (h.at g).hyts = h.hyts := rfl
@[simp] theorem Hw.at_kerns (h : Hw) (g : Nat) : (h.at g).kerns = h.kerns := rfl
@[simp] theorem Hw.at_enAt (h : Hw) (g : Nat) : (h.at g).enAt = h.enAt := rfl
@[simp] theorem Hw.at_portCyc (h : Hw) (g : Nat) : (h.at g).portCyc = h.portCyc := rfl
@[simp] theorem Hw.at_fields (h : Hw) (g : Nat) : (h.at g).fields = h.fields := rfl
@[simp] theorem Hw.at_rst (h : Hw) (g : Nat) : (h.at g).rst = h.rst := rfl
@[simp] theorem Hw.at_ntm (h : Hw) (g : Nat) : (h.at g).ntm = h.ntm := rfl
@[simp] theorem Hw.at_nsw (h : Hw) (g : Nat) : (h.at g).nsw = h.nsw := rfl
@[simp] theorem Hw.at_can (h : Hw) (g : Nat) : (h.at g).can = h.can := rfl
@[simp] theorem Hw.at_acq (h : Hw) (g : Nat) : (h.at g).acq = h.acq := rfl
@[simp] theorem Hw.at_grain (h : Hw) (g : Nat) : (h.at g).grain = max h.grain g := rfl
@[simp] theorem Hw.at_out (h : Hw) (g : Nat) : (h.at g).out = [] := rfl
@[simp] theorem Hw.seal_free (h : Hw) (g : Nat) : (h.seal g).free = h.free := rfl
@[simp] theorem Hw.seal_regs (h : Hw) (g : Nat) : (h.seal g).regs = h.regs := rfl
@[simp] theorem Hw.seal_shadow (h : Hw) (g : Nat) : (h.seal g).shadow = h.shadow := rfl
@[simp] theorem Hw.seal_pend (h : Hw) (g : Nat) : (h.seal g).pend = h.pend := rfl
@[simp] theorem Hw.seal_pendPrev (h : Hw) (g : Nat) : (h.seal g).pendPrev = h.pendPrev := rfl
@[simp] theorem Hw.seal_goMark (h : Hw) (g : Nat) : (h.seal g).goMark = h.goMark := rfl
@[simp] theorem Hw.seal_latch (h : Hw) (g : Nat) : (h.seal g).latch = h.latch := rfl
@[simp] theorem Hw.seal_evtCyc (h : Hw) (g : Nat) : (h.seal g).evtCyc = h.evtCyc := rfl
@[simp] theorem Hw.seal_cntCyc (h : Hw) (g : Nat) : (h.seal g).cntCyc = h.cntCyc := rfl
@[simp] theorem Hw.seal_lockSeq (h : Hw) (g : Nat) : (h.seal g).lockSeq = h.lockSeq := rfl
@[simp] theorem Hw.seal_win (h : Hw) (g : Nat) : (h.seal g).win = h.win := rfl
@[simp] theorem Hw.seal_logq (h : Hw) (g : Nat) : (h.seal g).logq = h.logq := rfl
@[simp] theorem Hw.seal_logRecent (h : Hw) (g : Nat) : (h.seal g).logRecent = h.logRecent := rfl
@[simp] theorem Hw.seal_logLost (h : Hw) (g : Nat) : (h.seal g).logLost = h.logLost := rfl
@[simp] theorem Hw.seal_clk (h : Hw) (g : Nat) : (h.seal g).clk = h.clk := rfl
@[simp] theorem Hw.seal_sys (h : Hw) (g : Nat) : (h.seal g).sys = h.sys := rfl
@[simp] theorem Hw.seal_nv (h : Hw) (g : Nat) : (h.seal g).nv = h.nv := rfl
@[simp] theorem Hw.seal_legs (h : Hw) (g : Nat) : (h.seal g).legs = h.legs := rfl
@[simp] theorem Hw.seal_bridges (h : Hw) (g : Nat) : (h.seal g).bridges = h.bridges := rfl
@[simp] theorem Hw.seal_cars (h : Hw) (g : Nat) : (h.seal g).cars = h.cars := rfl
@[simp] theorem Hw.seal_gdp (h : Hw) (g : Nat) : (h.seal g).gdp = h.gdp := rfl
@[simp] theorem Hw.seal_ax (h : Hw) (g : Nat) : (h.seal g).ax = h.ax := rfl
@[simp] theorem Hw.seal_prf (h : Hw) (g : Nat) : (h.seal g).prf = h.prf := rfl
@[simp] theorem Hw.seal_stp (h : Hw) (g : Nat) : (h.seal g).stp = h.stp := rfl
@[simp] theorem Hw.seal_gears (h : Hw) (g : Nat) : (h.seal g).gears = h.gears := rfl
@[simp] theorem Hw.seal_rcs (h : Hw) (g : Nat) : (h.seal g).rcs = h.rcs := rfl
@[simp] theorem Hw.seal_lastSegs (h : Hw) (g : Nat) : (h.seal g).lastSegs = h.lastSegs := rfl
@[simp] theorem Hw.seal_early (h : Hw) (g : Nat) : (h.seal g).early = h.early := rfl
@[simp] theorem Hw.seal_sdm (h : Hw) (g : Nat) : (h.seal g).sdm = h.sdm := rfl
@[simp] theorem Hw.seal_fbs (h : Hw) (g : Nat) : (h.seal g).fbs = h.fbs := rfl
@[simp] theorem Hw.seal_pins (h : Hw) (g : Nat) : (h.seal g).pins = h.pins := rfl
@[simp] theorem Hw.seal_save (h : Hw) (g : Nat) : (h.seal g).save = h.save := rfl
@[simp] theorem Hw.seal_saf (h : Hw) (g : Nat) : (h.seal g).saf = h.saf := rfl
@[simp] theorem Hw.seal_pair (h : Hw) (g : Nat) : (h.seal g).pair = h.pair := rfl
@[simp] theorem Hw.seal_semAt (h : Hw) (g : Nat) : (h.seal g).semAt = h.semAt := rfl
@[simp] theorem Hw.seal_hyts (h : Hw) (g : Nat) : (h.seal g).hyts = h.hyts := rfl
@[simp] theorem Hw.seal_kerns (h : Hw) (g : Nat) : (h.seal g).kerns = h.kerns := rfl
@[simp] theorem Hw.seal_enAt (h : Hw) (g : Nat) : (h.seal g).enAt = h.enAt := rfl
@[simp] theorem Hw.seal_portCyc (h : Hw) (g : Nat) : (h.seal g).portCyc = h.portCyc := rfl
@[simp] theorem Hw.seal_fields (h : Hw) (g : Nat) : (h.seal g).fields = h.fields := rfl
@[simp] theorem Hw.seal_out (h : Hw) (g : Nat) : (h.seal g).out = h.out := rfl
@[simp] theorem Hw.seal_ntm (h : Hw) (g : Nat) : (h.seal g).ntm = h.ntm := rfl
@[simp] theorem Hw.seal_nsw (h : Hw) (g : Nat) : (h.seal g).nsw = h.nsw := rfl
@[simp] theorem Hw.seal_can (h : Hw) (g : Nat) : (h.seal g).can = h.can := rfl
@[simp] theorem Hw.seal_acq (h : Hw) (g : Nat) : (h.seal g).acq = h.acq := rfl

end Sys2Proof.Machine
end

