-- ==== Sys2Proof/Laws/Tab.lean ====
section
/-! SUPPORT. The laws of sparse tables: a read after a write, and the canonical form kept by every operation. -/

namespace Sys2Proof.Machine

section
variable {α : Type}

theorem tabGet_tabDel_same (d : α) (k : Nat) (t : Tab α) : tabGet d k (tabDel k t) = d := by
  induction t with
  | nil => rfl
  | cons e t ih =>
    obtain ⟨i, v⟩ := e
    by_cases h : i = k
    · simpa [tabDel, h] using ih
    · simpa [tabDel, h, tabGet] using ih

theorem tabGet_tabDel_ne (d : α) {j k : Nat} (hjk : j ≠ k) (t : Tab α) : tabGet d j (tabDel k t) = tabGet d j t := by
  induction t with
  | nil => rfl
  | cons e t ih =>
    obtain ⟨i, v⟩ := e
    by_cases h : i = k
    · subst h
      simp [tabDel, tabGet, ih, Ne.symm hjk]
    · simp [tabDel, h, tabGet, ih]

theorem tabGet_tabIns_same (d : α) (k : Nat) (x : α) (t : Tab α) : tabGet d k (tabIns k x t) = x := by
  induction t with
  | nil => simp [tabIns, tabGet]
  | cons e t ih =>
    obtain ⟨i, v⟩ := e
    by_cases h1 : k < i
    · simp [tabIns, h1, tabGet]
    · by_cases h2 : k = i
      · simp [tabIns, h2, tabGet]
      · simp [tabIns, h1, h2, tabGet, ih, Ne.symm h2]

theorem tabGet_tabIns_ne (d : α) {j k : Nat} (hjk : j ≠ k) (x : α) (t : Tab α) :
    tabGet d j (tabIns k x t) = tabGet d j t := by
  induction t with
  | nil => simp [tabIns, tabGet, Ne.symm hjk]
  | cons e t ih =>
    obtain ⟨i, v⟩ := e
    by_cases h1 : k < i
    · simp [tabIns, h1, tabGet, Ne.symm hjk]
    · by_cases h2 : k = i
      · subst h2
        simp [tabIns, tabGet, Ne.symm hjk]
      · simp only [tabIns, h1, h2, if_false, tabGet]
        split
        · rfl
        · exact ih

/-- A read of the key just set gives the value set. -/
@[simp] theorem tabGet_tabSet_same [DecidableEq α] (d : α) (k : Nat) (x : α) (t : Tab α) :
    tabGet d k (tabSet d k x t) = x := by
  unfold tabSet
  split
  · next h => rw [tabGet_tabDel_same, h]
  · exact tabGet_tabIns_same d k x t

/-- A write of one key leaves every other. -/
theorem tabGet_tabSet_ne [DecidableEq α] (d e : α) {j k : Nat} (hjk : j ≠ k) (x : α) (t : Tab α) :
    tabGet e j (tabSet d k x t) = tabGet e j t := by
  unfold tabSet
  split
  · exact tabGet_tabDel_ne e hjk t
  · exact tabGet_tabIns_ne e hjk x t

theorem tabGet_tabSet [DecidableEq α] (d : α) (j k : Nat) (x : α) (t : Tab α) :
    tabGet d j (tabSet d k x t) = if j = k then x else tabGet d j t := by
  by_cases h : j = k
  · subst h; simp
  · simp [h, tabGet_tabSet_ne d d h]

/-! ### The canonical form -/

theorem tabOk_mono [DecidableEq α] (d : α) {m n : Nat} (hmn : m ≤ n) {t : Tab α} (h : tabOk d n t = true) :
    tabOk d m t = true := by
  cases t with
  | nil => rfl
  | cons e t =>
    obtain ⟨i, v⟩ := e
    simp only [tabOk, Bool.and_eq_true, decide_eq_true_eq] at h ⊢
    exact ⟨⟨hmn.trans h.1.1, h.1.2⟩, h.2⟩

theorem tabOk_tabDel [DecidableEq α] (d : α) (k : Nat) {n : Nat} {t : Tab α} (h : tabOk d n t = true) :
    tabOk d n (tabDel k t) = true := by
  induction t generalizing n with
  | nil => rfl
  | cons e t ih =>
    obtain ⟨i, v⟩ := e
    simp only [tabOk, Bool.and_eq_true, decide_eq_true_eq] at h
    by_cases hk : i = k
    · simp only [tabDel, hk, if_true]
      exact tabOk_mono d (by omega) (ih h.2)
    · simp only [tabDel, hk, if_false, tabOk, Bool.and_eq_true, decide_eq_true_eq]
      exact ⟨h.1, ih h.2⟩

theorem tabOk_tabIns [DecidableEq α] (d : α) {k : Nat} {x : α} (hx : x ≠ d) {n : Nat} (hn : n ≤ k) {t : Tab α}
    (h : tabOk d n t = true) : tabOk d n (tabIns k x t) = true := by
  induction t generalizing n with
  | nil => simp [tabIns, tabOk, hn, hx]
  | cons e t ih =>
    obtain ⟨i, v⟩ := e
    simp only [tabOk, Bool.and_eq_true, decide_eq_true_eq] at h
    by_cases h1 : k < i
    · simp only [tabIns, h1, if_true, tabOk, Bool.and_eq_true, decide_eq_true_eq]
      exact ⟨⟨hn, hx⟩, ⟨⟨by omega, h.1.2⟩, h.2⟩⟩
    · by_cases h2 : k = i
      · subst h2
        simp only [tabIns, h1, if_false, if_true, tabOk, Bool.and_eq_true, decide_eq_true_eq]
        exact ⟨⟨hn, hx⟩, h.2⟩
      · simp only [tabIns, h1, h2, if_false, tabOk, Bool.and_eq_true, decide_eq_true_eq]
        exact ⟨h.1, ih (by omega) h.2⟩

/-- Setting a key keeps the canonical form. -/
theorem tabOk_tabSet [DecidableEq α] (d : α) (k : Nat) (x : α) {t : Tab α} (h : tabOk d 0 t = true) :
    tabOk d 0 (tabSet d k x t) = true := by
  unfold tabSet
  split
  · exact tabOk_tabDel d k h
  · next hx => exact tabOk_tabIns d hx (Nat.zero_le k) h

/-- A table with some entries left out keeps the canonical form. -/
theorem tabOk_filter [DecidableEq α] (d : α) (p : Nat × α → Bool) {n : Nat} {t : Tab α} (h : tabOk d n t = true) :
    tabOk d n (t.filter p) = true := by
  induction t generalizing n with
  | nil => rfl
  | cons e t ih =>
    obtain ⟨i, v⟩ := e
    simp only [tabOk, Bool.and_eq_true, decide_eq_true_eq] at h
    by_cases hp : p (i, v)
    · simp only [List.filter, hp, tabOk, Bool.and_eq_true, decide_eq_true_eq]
      exact ⟨h.1, ih h.2⟩
    · simp only [List.filter, hp]
      exact tabOk_mono d (by omega) (ih h.2)

theorem tabGet_of_lt [DecidableEq α] (d : α) {n k : Nat} {t : Tab α} (h : tabOk d n t = true) (hk : k < n) :
    tabGet d k t = d := by
  induction t generalizing n with
  | nil => rfl
  | cons e t ih =>
    obtain ⟨i, v⟩ := e
    simp only [tabOk, Bool.and_eq_true, decide_eq_true_eq] at h
    have : i ≠ k := by omega
    simp only [tabGet, this, if_false]
    exact ih h.2 (by omega)

/-- Two tables in canonical form that read alike are the same table. -/
theorem tab_ext [DecidableEq α] (d : α) {n : Nat} {t u : Tab α} (ht : tabOk d n t = true) (hu : tabOk d n u = true)
    (h : ∀ k, tabGet d k t = tabGet d k u) : t = u := by
  induction t generalizing n u with
  | nil =>
    cases u with
    | nil => rfl
    | cons e u =>
      obtain ⟨i, v⟩ := e
      have := h i
      simp only [tabOk, Bool.and_eq_true, decide_eq_true_eq] at hu
      simp [tabGet] at this
      exact absurd this.symm hu.1.2
  | cons e t ih =>
    obtain ⟨i, v⟩ := e
    simp only [tabOk, Bool.and_eq_true, decide_eq_true_eq] at ht
    cases u with
    | nil =>
      have := h i
      simp [tabGet] at this
      exact absurd this ht.1.2
    | cons f u =>
      obtain ⟨j, w⟩ := f
      simp only [tabOk, Bool.and_eq_true, decide_eq_true_eq] at hu
      have hij : i = j := by
        rcases Nat.lt_trichotomy i j with hl | he | hl
        · have h1 := h i
          have h2 : tabGet d i ((j, w) :: u) = d :=
            tabGet_of_lt d (n := j) (by simp [tabOk, hu.1.2, hu.2]) hl
          rw [h2] at h1
          simp [tabGet] at h1
          exact absurd h1 ht.1.2
        · exact he
        · have h1 := h j
          have h2 : tabGet d j ((i, v) :: t) = d :=
            tabGet_of_lt d (n := i) (by simp [tabOk, ht.1.2, ht.2]) hl
          rw [h2] at h1
          simp [tabGet] at h1
          exact absurd h1.symm hu.1.2
      subst hij
      have hv := h i
      simp [tabGet] at hv
      subst hv
      have : t = u := ih ht.2 hu.2 fun k => by
        by_cases hk : i = k
        · subst hk
          rw [tabGet_of_lt d ht.2 (by omega), tabGet_of_lt d hu.2 (by omega)]
        · simpa [tabGet, hk] using h k
      rw [this]
end

end Sys2Proof.Machine
end

