-- ==== Sys2Proof/Laws/Reg.lean ====
section
/-! SUPPORT. The laws of the register pages: what each shared operation on registers, events, counters, the fault log
and software writes changes, said once. -/

namespace Sys2Proof.Machine

/-! ### A register in force -/

theorem Hw.reg_setReg (h : Hw) (a b : Nat) (v : Word) : (h.setReg a v).reg b = if b = a then v else h.reg b := by
  by_cases hab : b = a
  · subst hab
    simp [Hw.reg, Hw.setReg]
  · simp [Hw.reg, Hw.setReg, hab, tabGet_tabSet_ne _ _ hab]

@[simp] theorem Hw.reg_setReg_same (h : Hw) (a : Nat) (v : Word) : (h.setReg a v).reg a = v := by
  simp [Hw.reg_setReg]

theorem Hw.reg_setReg_ne (h : Hw) {a b : Nat} (hab : b ≠ a) (v : Word) : (h.setReg a v).reg b = h.reg b := by
  simp [Hw.reg_setReg, hab]

theorem Hw.reg_setF_ne (h : Hw) {a b : Nat} (hab : b ≠ a) (hi lo v : Nat) : (h.setF a hi lo v).reg b = h.reg b :=
  h.reg_setReg_ne hab _

theorem Hw.reg_setBit_ne (h : Hw) {a b : Nat} (hab : b ≠ a) (i : Nat) (v : Bool) :
    (h.setBit a i v).reg b = h.reg b := h.reg_setReg_ne hab _

@[simp] theorem Hw.reg_setF_same (h : Hw) (a hi lo v : Nat) : (h.setF a hi lo v).reg a = putFld (h.reg a) hi lo v :=
  h.reg_setReg_same a _

@[simp] theorem Hw.reg_setBit_same (h : Hw) (a i : Nat) (v : Bool) :
    (h.setBit a i v).reg a = putFld (h.reg a) i i (if v then 1 else 0) := h.reg_setReg_same a _

/-- A register reads the same in two modules whose registers in force are the same. -/
theorem Hw.reg_of_regs {h h' : Hw} (e : h'.regs = h.regs) (a : Nat) : h'.reg a = h.reg a := by
  simp only [Hw.reg, e]

@[simp] theorem Hw.at_reg (h : Hw) (g a : Nat) : (h.at g).reg a = h.reg a := rfl
@[simp] theorem Hw.at_bit (h : Hw) (g a i : Nat) : (h.at g).bit a i = h.bit a i := rfl
@[simp] theorem Hw.at_f (h : Hw) (g a hi lo : Nat) : (h.at g).f a hi lo = h.f a hi lo := rfl
@[simp] theorem Hw.at_mode (h : Hw) (g : Nat) : (h.at g).mode = h.mode := rfl
@[simp] theorem Hw.seal_reg (h : Hw) (g a : Nat) : (h.seal g).reg a = h.reg a := rfl
@[simp] theorem Hw.seal_bit (h : Hw) (g a i : Nat) : (h.seal g).bit a i = h.bit a i := rfl
@[simp] theorem Hw.seal_f (h : Hw) (g a hi lo : Nat) : (h.seal g).f a hi lo = h.f a hi lo := rfl
@[simp] theorem Hw.seal_mode (h : Hw) (g : Nat) : (h.seal g).mode = h.mode := rfl

/-! ### Fields and bits -/

/-- A field reads back what was put into it. -/
theorem Hw.f_setF_same (h : Hw) (a : Nat) {hi lo : Nat} (hlo : lo ≤ hi) (hhi : hi < 32) (v : Nat) :
    (h.setF a hi lo v).f a hi lo = v % 2 ^ (hi + 1 - lo) := by
  simp [Hw.f, fld_putFld_same _ hlo hhi]

/-- A field beside the one replaced reads as before. -/
theorem Hw.f_setF_disj (h : Hw) (a : Nat) {hi lo hi' lo' : Nat} (hlo : lo ≤ hi) (hhi : hi < 32) (v : Nat)
    (hd : hi' < lo ∨ hi < lo') : (h.setF a hi lo v).f a hi' lo' = h.f a hi' lo' := by
  simp [Hw.f, fld_putFld_disj _ hlo hhi v hd]

theorem Hw.f_setReg_ne (h : Hw) {a b : Nat} (hab : b ≠ a) (v : Word) (hi lo : Nat) :
    (h.setReg a v).f b hi lo = h.f b hi lo := by
  simp [Hw.f, h.reg_setReg_ne hab]

theorem Hw.f_setF_ne (h : Hw) {a b : Nat} (hab : b ≠ a) (hi lo v hi' lo' : Nat) :
    (h.setF a hi lo v).f b hi' lo' = h.f b hi' lo' := h.f_setReg_ne hab _ _ _

/-- A bit reads back what it was set to. -/
theorem Hw.bit_setBit_same (h : Hw) (a : Nat) {i : Nat} (hi : i < 32) (v : Bool) : (h.setBit a i v).bit a i = v := by
  cases v <;> simp [Hw.bit, bitOf_putFld_same _ hi]

/-- A bit beside the one set reads as before. -/
theorem Hw.bit_setBit_other (h : Hw) (a : Nat) {i j : Nat} (hi : i < 32) (hij : j ≠ i) (v : Bool) :
    (h.setBit a i v).bit a j = h.bit a j := by
  simp [Hw.bit, bitOf_putFld_ne _ (Nat.le_refl i) hi _ (by omega : j < i ∨ i < j)]

theorem Hw.bit_setReg_ne (h : Hw) {a b : Nat} (hab : b ≠ a) (v : Word) (i : Nat) :
    (h.setReg a v).bit b i = h.bit b i := by
  simp [Hw.bit, h.reg_setReg_ne hab]

theorem Hw.bit_setBit_ne (h : Hw) {a b : Nat} (hab : b ≠ a) (i : Nat) (v : Bool) (j : Nat) :
    (h.setBit a i v).bit b j = h.bit b j := h.bit_setReg_ne hab _ _

/-! ### Page space -/

/-- The registers in force after one is set. -/
@[simp] theorem get_set_same (k : Nat) (x : Word) (t : Tab Word) :
    tabGet (regReset k) k (tabSet (regReset k) k x t) = x := tabGet_tabSet_same _ _ _ _

theorem get_set_ne {j k : Nat} (h : j ≠ k) (x : Word) (t : Tab Word) :
    tabGet (regReset j) j (tabSet (regReset k) k x t) = tabGet (regReset j) j t := tabGet_tabSet_ne _ _ h _ _

/-- A register address names its page and its offset. -/
theorem ra_inj {p q off off' : Nat} (h1 : off < 0x1000) (h2 : off' < 0x1000) : ra p off = ra q off' ↔ p = q ∧ off = off' := by
  unfold ra
  constructor
  · intro h
    omega
  · rintro ⟨rfl, rfl⟩
    rfl

theorem ra_ne_page {p q off off' : Nat} (h1 : off < 0x1000) (h2 : off' < 0x1000) (h : p ≠ q) : ra p off ≠ ra q off' :=
  fun e => h ((ra_inj h1 h2).1 e).1

theorem ra_ne_off {p q off off' : Nat} (h1 : off < 0x1000) (h2 : off' < 0x1000) (h : off ≠ off') :
    ra p off ≠ ra q off' :=
  fun e => h ((ra_inj h1 h2).1 e).2

/-! ### Counters and events -/

/-- A counter's increment changes that register alone, and notes the increment. -/
theorem Hw.bumpN_eq (h : Hw) (a hi lo n : Nat) : ∃ c, h.bumpN a hi lo n =
    { h.setF a hi lo (min (h.f a hi lo + n) (2 ^ (hi + 1 - lo) - 1)) with cntCyc := c } := ⟨_, rfl⟩

theorem Hw.bump_eq (h : Hw) (a hi lo : Nat) : ∃ c, h.bump a hi lo =
    { h.setF a hi lo (min (h.f a hi lo + 1) (2 ^ (hi + 1 - lo) - 1)) with cntCyc := c } := ⟨_, rfl⟩

theorem Hw.reg_bump_ne (h : Hw) {a b : Nat} (hab : b ≠ a) (hi lo : Nat) : (h.bump a hi lo).reg b = h.reg b :=
  h.reg_setF_ne hab _ _ _

/-- A saturating counter goes up by one, or stays at all ones. -/
theorem Hw.f_bump_same (h : Hw) (a : Nat) {hi lo : Nat} (hlo : lo ≤ hi) (hhi : hi < 32) :
    (h.bump a hi lo).f a hi lo = min (h.f a hi lo + 1) (2 ^ (hi + 1 - lo) - 1) := by
  have h1 : (h.bump a hi lo).f a hi lo = (h.setF a hi lo (min (h.f a hi lo + 1) (2 ^ (hi + 1 - lo) - 1))).f a hi lo := rfl
  rw [h1, h.f_setF_same a hlo hhi]
  have := Nat.two_pow_pos (hi + 1 - lo)
  exact Nat.mod_eq_of_lt (by omega)

/-- The registers after an event: EVT gains the bit, EVT_TS takes a time-stamp where EVT read zero. -/
theorem Hw.evtTs_regs (h : Hw) (p b ts : Nat) : ∃ x, (h.evtTs p b ts).regs =
    ((if h.reg (ra p rEVT) = 0 then h.setReg (ra p rEVT_TS) x else h).setBit (ra p rEVT) b true).regs := by
  unfold Hw.evtTs
  exact ⟨_, rfl⟩

/-- An event leaves every field of the module but its registers and the notes of the cycle. -/
theorem Hw.evtTs_eta (h : Hw) (p b ts : Nat) : h.evtTs p b ts =
    { h with regs := (h.evtTs p b ts).regs, evtCyc := (h.evtTs p b ts).evtCyc } := by
  unfold Hw.evtTs
  dsimp only
  split <;> rfl

theorem Hw.reg_evtTs_ne (h : Hw) {p a : Nat} (h1 : a ≠ ra p rEVT) (h2 : a ≠ ra p rEVT_TS) (b ts : Nat) :
    (h.evtTs p b ts).reg a = h.reg a := by
  obtain ⟨x, e⟩ := h.evtTs_regs p b ts
  rw [Hw.reg_of_regs e, Hw.reg_setBit_ne _ h1]
  split
  · exact h.reg_setReg_ne h2 x
  · rfl

theorem Hw.reg_evt_ne (h : Hw) {p a : Nat} (h1 : a ≠ ra p rEVT) (h2 : a ≠ ra p rEVT_TS) (b : Nat) :
    (h.evt p b).reg a = h.reg a := h.reg_evtTs_ne h1 h2 b _

theorem evt_ne_ts (p q : Nat) : ra p rEVT ≠ ra q rEVT_TS := ra_ne_off (by decide) (by decide) (by decide)

/-- EVT gains the bit and keeps the others. -/
theorem Hw.reg_evtTs_same (h : Hw) (p b ts : Nat) :
    (h.evtTs p b ts).reg (ra p rEVT) = putFld (h.reg (ra p rEVT)) b b 1 := by
  obtain ⟨x, e⟩ := h.evtTs_regs p b ts
  rw [Hw.reg_of_regs e, Hw.reg_setBit_same]
  split
  · rw [h.reg_setReg_ne (evt_ne_ts p p)]; rfl
  · rfl

theorem Hw.bit_evtTs (h : Hw) (p : Nat) {b : Nat} (hb : b < 32) (ts : Nat) : (h.evtTs p b ts).bit (ra p rEVT) b = true := by
  simp [Hw.bit, h.reg_evtTs_same, bitOf_putFld_same _ hb]

/-- The event's bit is set. -/
theorem Hw.bit_evt (h : Hw) (p : Nat) {b : Nat} (hb : b < 32) : (h.evt p b).bit (ra p rEVT) b = true :=
  h.bit_evtTs p hb _

theorem Hw.evt_eta (h : Hw) (p b : Nat) : h.evt p b =
    { h with regs := (h.evt p b).regs, evtCyc := (h.evt p b).evtCyc } := h.evtTs_eta p b _

/-- The registers in force after an event, EVT and EVT_TS of its page apart. -/
theorem get_evt (h : Hw) {p a : Nat} (h1 : a ≠ ra p rEVT) (h2 : a ≠ ra p rEVT_TS) (b : Nat) :
    tabGet (regReset a) a (h.evt p b).regs = tabGet (regReset a) a h.regs := h.reg_evt_ne h1 h2 b

theorem get_evt_same (h : Hw) (p b : Nat) : tabGet (regReset (ra p rEVT)) (ra p rEVT) (h.evt p b).regs =
    putFld (tabGet (regReset (ra p rEVT)) (ra p rEVT) h.regs) b b 1 := h.reg_evtTs_same p b _

theorem get_bump (h : Hw) {a b : Nat} (hab : b ≠ a) (hi lo : Nat) :
    tabGet (regReset b) b (h.bump a hi lo).regs = tabGet (regReset b) b h.regs := h.reg_bump_ne hab hi lo

/-! ### The fault log -/

/-- Whether an address lies in the fault log's area of MRAM (R449). -/
def logArea (a : Nat) : Prop := 0x50020000 ≤ a ∧ a < 0x50030000

theorem logArea_logAddr (i : Nat) : logArea (logAddr i + 0x13) := by
  unfold logArea logAddr
  omega

theorem foldl_wr8_fields {α : Type} (l : List α) (a : α → Nat) (b : α → Byte) (h : Hw) :
    ∃ w, l.foldl (fun h x => h.wr8 (a x) (b x)) h = { h with wbuf := w } ∧ ∀ c ∈ w, c ∈ h.wbuf ∨ ∃ x, c.1 = a x := by
  induction l generalizing h with
  | nil => exact ⟨h.wbuf, rfl, fun c hc => .inl hc⟩
  | cons x l ih =>
    obtain ⟨w, e, hw⟩ := ih (h.wr8 (a x) (b x))
    refine ⟨w, by rw [List.foldl_cons, e]; rfl, fun c hc => ?_⟩
    rcases hw c hc with h1 | h1
    · rcases List.mem_cons.1 h1 with h2 | h2
      · exact .inr ⟨x, by rw [h2]⟩
      · exact .inl h2
    · exact .inr h1

/-- The registers a full log queue moves: the count of lost records and the event. -/
def inLog (a : Nat) : Prop := a = ra pFLT 0x048 ∨ a = ra pFLT rEVT ∨ a = ra pFLT rEVT_TS

/-- The module k is h after records were taken into the log: the queue, the flags of records written before, and, where
the queue is full, the count and the event of the loss; nothing else moves. -/
def Logged (h k : Hw) : Prop := ∃ r w q l c n, k =
    { h with regs := r, wbuf := w, logq := q, logLost := l, evtCyc := c, cntCyc := n } ∧
    (∀ a, ¬ inLog a → tabGet (regReset a) a r = h.reg a) ∧ ∀ c ∈ w, c ∈ h.wbuf ∨ logArea c.1

/-- A record taken into the log. -/
theorem Hw.logFull_logged (h : Hw) (x : LogRec) : Logged h (h.logFull x) := by
  unfold Logged Hw.logFull Hw.each
  generalize hy : (if (h.logq.any (·.ts == x.ts) || h.logRecent.any (·.1 == x.ts)) = true then
    { x with flags := x.flags ||| fSIMUL } else x) = y
  dsimp only
  generalize h.logq.map (fun z => if z.ts = x.ts then { z with flags := z.flags ||| fSIMUL } else z) = q
  rw [hy]
  obtain ⟨w, e, hw⟩ := foldl_wr8_fields (h.logRecent.filter (·.1 == y.ts)) (fun z => logAddr z.2.1 + 0x13)
    (fun z => BitVec.ofNat 8 (z.2.2 ||| fSIMUL)) h
  have hw' : ∀ c ∈ w, c ∈ h.wbuf ∨ logArea c.1 := fun c hc =>
    (hw c hc).imp id fun ⟨z, hz⟩ => hz ▸ logArea_logAddr _
  rw [e]
  dsimp only
  split
  · exact ⟨h.regs, w, q ++ [y], h.logLost, h.evtCyc, h.cntCyc, rfl, fun a _ => rfl, hw'⟩
  · generalize hk : Hw.bump _ (ra pFLT 0x048) 15 0 = k
    have hf := k.evt_eta pFLT 2
    refine ⟨(k.evt pFLT 2).regs, w, q, true, (k.evt pFLT 2).evtCyc, k.cntCyc, ?_, ?_, hw'⟩
    · rw [hf, ← hk]; rfl
    · intro a ha
      have h1 : a ≠ ra pFLT 0x048 := fun e => ha (.inl e)
      have h2 : a ≠ ra pFLT rEVT := fun e => ha (.inr (.inl e))
      have h3 : a ≠ ra pFLT rEVT_TS := fun e => ha (.inr (.inr e))
      have := k.reg_evt_ne h2 h3 2
      rw [← hk, Hw.reg_bump_ne _ h1] at this
      rw [← hk]
      exact this

theorem Hw.log_logged (h : Hw) (p rk cd i ts fl : Nat) : Logged h (h.log p rk cd i ts fl) := h.logFull_logged _

theorem Logged.reg {h k : Hw} (hk : Logged h k) {a : Nat} (ha : ¬ inLog a) : k.reg a = h.reg a := by
  obtain ⟨r, w, q, l, c, n, rfl, hr, -⟩ := hk
  exact hr a ha

theorem Logged.bit {h k : Hw} (hk : Logged h k) {a : Nat} (ha : ¬ inLog a) (i : Nat) : k.bit a i = h.bit a i :=
  congrArg (bitOf · i) (hk.reg ha)

theorem Logged.f {h k : Hw} (hk : Logged h k) {a : Nat} (ha : ¬ inLog a) (hi lo : Nat) : k.f a hi lo = h.f a hi lo :=
  congrArg (fld · hi lo) (hk.reg ha)

theorem Logged.get {h k : Hw} (hk : Logged h k) {a : Nat} (ha : ¬ inLog a) :
    tabGet (regReset a) a k.regs = tabGet (regReset a) a h.regs := hk.reg ha

theorem Logged.trans {h k l : Hw} (h1 : Logged h k) (h2 : Logged k l) : Logged h l := by
  obtain ⟨r, w, q, b, c, n, rfl, hr, hw⟩ := h1
  obtain ⟨r', w', q', b', c', n', rfl, hr', hw'⟩ := h2
  exact ⟨r', w', q', b', c', n', rfl, fun a ha => (hr' a ha).trans (hr a ha),
    fun x hx => (hw' x hx).elim (hw x) .inr⟩

/-! Every other field of the module is as it was. -/

theorem Logged.grain {h k : Hw} (hk : Logged h k) : k.grain = h.grain := by
  obtain ⟨_, _, _, _, _, _, rfl, -, -⟩ := hk; rfl
theorem Logged.free {h k : Hw} (hk : Logged h k) : k.free = h.free := by
  obtain ⟨_, _, _, _, _, _, rfl, -, -⟩ := hk; rfl
theorem Logged.shadow {h k : Hw} (hk : Logged h k) : k.shadow = h.shadow := by
  obtain ⟨_, _, _, _, _, _, rfl, -, -⟩ := hk; rfl
theorem Logged.pend {h k : Hw} (hk : Logged h k) : k.pend = h.pend := by
  obtain ⟨_, _, _, _, _, _, rfl, -, -⟩ := hk; rfl
theorem Logged.pendPrev {h k : Hw} (hk : Logged h k) : k.pendPrev = h.pendPrev := by
  obtain ⟨_, _, _, _, _, _, rfl, -, -⟩ := hk; rfl
theorem Logged.goMark {h k : Hw} (hk : Logged h k) : k.goMark = h.goMark := by
  obtain ⟨_, _, _, _, _, _, rfl, -, -⟩ := hk; rfl
theorem Logged.latch {h k : Hw} (hk : Logged h k) : k.latch = h.latch := by
  obtain ⟨_, _, _, _, _, _, rfl, -, -⟩ := hk; rfl
theorem Logged.lockSeq {h k : Hw} (hk : Logged h k) : k.lockSeq = h.lockSeq := by
  obtain ⟨_, _, _, _, _, _, rfl, -, -⟩ := hk; rfl
theorem Logged.win {h k : Hw} (hk : Logged h k) : k.win = h.win := by
  obtain ⟨_, _, _, _, _, _, rfl, -, -⟩ := hk; rfl
theorem Logged.logRecent {h k : Hw} (hk : Logged h k) : k.logRecent = h.logRecent := by
  obtain ⟨_, _, _, _, _, _, rfl, -, -⟩ := hk; rfl
theorem Logged.clk {h k : Hw} (hk : Logged h k) : k.clk = h.clk := by
  obtain ⟨_, _, _, _, _, _, rfl, -, -⟩ := hk; rfl
theorem Logged.sys {h k : Hw} (hk : Logged h k) : k.sys = h.sys := by
  obtain ⟨_, _, _, _, _, _, rfl, -, -⟩ := hk; rfl
theorem Logged.nv {h k : Hw} (hk : Logged h k) : k.nv = h.nv := by
  obtain ⟨_, _, _, _, _, _, rfl, -, -⟩ := hk; rfl
theorem Logged.legs {h k : Hw} (hk : Logged h k) : k.legs = h.legs := by
  obtain ⟨_, _, _, _, _, _, rfl, -, -⟩ := hk; rfl
theorem Logged.bridges {h k : Hw} (hk : Logged h k) : k.bridges = h.bridges := by
  obtain ⟨_, _, _, _, _, _, rfl, -, -⟩ := hk; rfl
theorem Logged.cars {h k : Hw} (hk : Logged h k) : k.cars = h.cars := by
  obtain ⟨_, _, _, _, _, _, rfl, -, -⟩ := hk; rfl
theorem Logged.gdp {h k : Hw} (hk : Logged h k) : k.gdp = h.gdp := by
  obtain ⟨_, _, _, _, _, _, rfl, -, -⟩ := hk; rfl
theorem Logged.ax {h k : Hw} (hk : Logged h k) : k.ax = h.ax := by
  obtain ⟨_, _, _, _, _, _, rfl, -, -⟩ := hk; rfl
theorem Logged.prf {h k : Hw} (hk : Logged h k) : k.prf = h.prf := by
  obtain ⟨_, _, _, _, _, _, rfl, -, -⟩ := hk; rfl
theorem Logged.stp {h k : Hw} (hk : Logged h k) : k.stp = h.stp := by
  obtain ⟨_, _, _, _, _, _, rfl, -, -⟩ := hk; rfl
theorem Logged.gears {h k : Hw} (hk : Logged h k) : k.gears = h.gears := by
  obtain ⟨_, _, _, _, _, _, rfl, -, -⟩ := hk; rfl
theorem Logged.rcs {h k : Hw} (hk : Logged h k) : k.rcs = h.rcs := by
  obtain ⟨_, _, _, _, _, _, rfl, -, -⟩ := hk; rfl
theorem Logged.lastSegs {h k : Hw} (hk : Logged h k) : k.lastSegs = h.lastSegs := by
  obtain ⟨_, _, _, _, _, _, rfl, -, -⟩ := hk; rfl
theorem Logged.sdm {h k : Hw} (hk : Logged h k) : k.sdm = h.sdm := by
  obtain ⟨_, _, _, _, _, _, rfl, -, -⟩ := hk; rfl
theorem Logged.fbs {h k : Hw} (hk : Logged h k) : k.fbs = h.fbs := by
  obtain ⟨_, _, _, _, _, _, rfl, -, -⟩ := hk; rfl
theorem Logged.pins {h k : Hw} (hk : Logged h k) : k.pins = h.pins := by
  obtain ⟨_, _, _, _, _, _, rfl, -, -⟩ := hk; rfl
theorem Logged.save {h k : Hw} (hk : Logged h k) : k.save = h.save := by
  obtain ⟨_, _, _, _, _, _, rfl, -, -⟩ := hk; rfl
theorem Logged.sup {h k : Hw} (hk : Logged h k) : k.sup = h.sup := by
  obtain ⟨_, _, _, _, _, _, rfl, -, -⟩ := hk; rfl
theorem Logged.saf {h k : Hw} (hk : Logged h k) : k.saf = h.saf := by
  obtain ⟨_, _, _, _, _, _, rfl, -, -⟩ := hk; rfl
theorem Logged.pair {h k : Hw} (hk : Logged h k) : k.pair = h.pair := by
  obtain ⟨_, _, _, _, _, _, rfl, -, -⟩ := hk; rfl
theorem Logged.semAt {h k : Hw} (hk : Logged h k) : k.semAt = h.semAt := by
  obtain ⟨_, _, _, _, _, _, rfl, -, -⟩ := hk; rfl
theorem Logged.hyts {h k : Hw} (hk : Logged h k) : k.hyts = h.hyts := by
  obtain ⟨_, _, _, _, _, _, rfl, -, -⟩ := hk; rfl
theorem Logged.kerns {h k : Hw} (hk : Logged h k) : k.kerns = h.kerns := by
  obtain ⟨_, _, _, _, _, _, rfl, -, -⟩ := hk; rfl
theorem Logged.enAt {h k : Hw} (hk : Logged h k) : k.enAt = h.enAt := by
  obtain ⟨_, _, _, _, _, _, rfl, -, -⟩ := hk; rfl
theorem Logged.portCyc {h k : Hw} (hk : Logged h k) : k.portCyc = h.portCyc := by
  obtain ⟨_, _, _, _, _, _, rfl, -, -⟩ := hk; rfl
theorem Logged.fields {h k : Hw} (hk : Logged h k) : k.fields = h.fields := by
  obtain ⟨_, _, _, _, _, _, rfl, -, -⟩ := hk; rfl
theorem Logged.rst {h k : Hw} (hk : Logged h k) : k.rst = h.rst := by
  obtain ⟨_, _, _, _, _, _, rfl, -, -⟩ := hk; rfl
theorem Logged.out {h k : Hw} (hk : Logged h k) : k.out = h.out := by
  obtain ⟨_, _, _, _, _, _, rfl, -, -⟩ := hk; rfl
theorem Logged.ntm {h k : Hw} (hk : Logged h k) : k.ntm = h.ntm := by
  obtain ⟨_, _, _, _, _, _, rfl, -, -⟩ := hk; rfl
theorem Logged.nsw {h k : Hw} (hk : Logged h k) : k.nsw = h.nsw := by
  obtain ⟨_, _, _, _, _, _, rfl, -, -⟩ := hk; rfl
theorem Logged.can {h k : Hw} (hk : Logged h k) : k.can = h.can := by
  obtain ⟨_, _, _, _, _, _, rfl, -, -⟩ := hk; rfl
theorem Logged.acq {h k : Hw} (hk : Logged h k) : k.acq = h.acq := by
  obtain ⟨_, _, _, _, _, _, rfl, -, -⟩ := hk; rfl

/-- The log moves no register of another page than the fault manager's. -/
theorem not_inLog_page {p off : Nat} (hp : p ≠ pFLT) (ho : off < 0x1000) : ¬ inLog (ra p off) := by
  rintro (e | e | e)
  · exact ra_ne_page ho (by decide) hp e
  · exact ra_ne_page ho (by decide) hp e
  · exact ra_ne_page ho (by decide) hp e

/-! ### Software writes -/

/-- A software write to a page that is not locked takes effect after its record in the log, in the last grain of its PCLK
cycle. -/
theorem Hw.swWrite_unlocked (h : Hw) {p : Nat} (off : Nat) (f : Hw → Hw) (hp : p ≠ pFLT)
    (hl : h.bit (ra p rLOCK) 0 = false) : ∃ k, Logged h k ∧ h.swWrite p off f = f k.atWrite := by
  refine ⟨_, h.log_logged p 10 (Config.writeCode p off).toNat (pageInst p) h.wgrain 0, ?_⟩
  unfold Hw.swWrite
  dsimp only
  rw [(h.log_logged p 10 _ _ h.wgrain 0).bit (not_inLog_page hp (by decide)), hl]
  rfl

end Sys2Proof.Machine
end

