-- ==== Sys2Proof/Laws/Mem.lean ====
section
/-! SUPPORT. The laws of the memories: what a write changes, what the end of a command brings into memory, and the
canonical form kept by all of it. -/

namespace Sys2Proof.Machine

@[simp] theorem memGet_memSet_same (m : Mem) (a : Nat) (b : Byte) : memGet (memSet m a b) a = b :=
  tabGet_tabSet_same _ _ _ _

theorem memGet_memSet_ne {x a : Nat} (h : x ≠ a) (m : Mem) (b : Byte) : memGet (memSet m a b) x = memGet m x :=
  tabGet_tabSet_ne _ _ h b m

/-- A write keeps the canonical form. -/
theorem wf_memSet {m : Mem} (h : Memory.wf m = true) (a : Nat) (b : Byte) : Memory.wf (memSet m a b) = true :=
  tabOk_tabSet _ a b h

/-- A run of writes keeps the canonical form. -/
theorem wf_memApply {m : Mem} (h : Memory.wf m = true) (l : List Host.Cell) : Memory.wf (memApply m l) = true := by
  induction l with
  | nil => exact h
  | cons c l ih => exact wf_memSet ih c.1 c.2

/-- What a reset of the die leaves keeps the canonical form. -/
theorem wf_filter {m : Mem} (h : Memory.wf m = true) (p : Host.Cell → Bool) : Memory.wf (m.filter p) = true :=
  tabOk_filter _ p h

/-- The end of a command keeps the canonical form. -/
theorem wf_after {m : Mem} (h : Memory.wf m = true) (x : Hw) : Memory.wf (m.after x) = true := by
  unfold Mem.after
  apply wf_memApply
  split
  · exact h
  · exact wf_filter h _

/-- A byte no write of the run names reads as before. -/
theorem memGet_memApply_of_not_mem {m : Mem} {l : List Host.Cell} {a : Nat} (h : ∀ c ∈ l, c.1 ≠ a) :
    memGet (memApply m l) a = memGet m a := by
  induction l with
  | nil => rfl
  | cons c l ih =>
    have h1 : a ≠ c.1 := fun e => h c (List.mem_cons_self ..) e.symm
    have h2 := ih fun d hd => h d (List.mem_cons_of_mem _ hd)
    show memGet (memSet (memApply m l) c.1 c.2) a = _
    rw [memGet_memSet_ne h1, h2]

/-- A byte reads after a run of writes as the newest write of it says, or as before. -/
theorem memGet_memApply (m : Mem) (l : List Host.Cell) (a : Nat) :
    memGet (memApply m l) a = match l.find? (fun c => c.1 == a) with | some c => c.2 | none => memGet m a := by
  induction l with
  | nil => rfl
  | cons c l ih =>
    show memGet (memSet (memApply m l) c.1 c.2) a = _
    by_cases h : c.1 = a
    · subst h; simp
    · rw [memGet_memSet_ne (Ne.symm h), ih]
      simp [h]

/-- What a command sees of a byte is what memory holds after it, where the die is not reset. -/
theorem memGet_after {m : Mem} {x : Hw} (h : x.rst = 0) (a : Nat) : memGet (m.after x) a = x.rd8 m a := by
  rw [Mem.after, if_pos h, memGet_memApply]; rfl

/-- With no write and no reset of the die memory stays as it was. -/
theorem after_of_no_write {m : Mem} {x : Hw} (h : x.rst = 0) (hw : x.wbuf = []) : m.after x = m := by
  simp [Mem.after, h, hw, memApply]

end Sys2Proof.Machine
end

