-- ==== Sys2Proof/Laws/Run.lean ====
section
/-! SUPPORT. What running a command can do, said once: an operation in the frame `runIf` answers a next state, keeps the
queue and the memory's form, and does nothing but pass time where its condition does not hold; every command is such an
operation, or one in its turn after others of its cycle. -/

namespace Sys2Proof.Machine

/-- The state a command leaves whose condition holds. -/
theorem runIf_of_true {k : Hw → Bool} {g : Nat} (f : Mem → Hw → Hw) {s : State} (h : k (s.hw.at g) = true) :
    runIf k g f s = .next { s with hw := (f s.mem (s.hw.at g)).seal (s.hw.at g).grain,
                                   mem := s.mem.after (f s.mem (s.hw.at g)) } := by
  simp only [runIf, h, if_true]

/-- The state a command leaves whose condition does not hold. -/
theorem runIf_of_false {k : Hw → Bool} {g : Nat} (f : Mem → Hw → Hw) {s : State} (h : k (s.hw.at g) = false) :
    runIf k g f s = .next { s with hw := (s.hw.at g).seal (s.hw.at g).grain, mem := s.mem.after (s.hw.at g) } := by
  simp only [runIf, h, Bool.false_eq_true, if_false]

/-- A command of the module on a die that is not held in reset. -/
theorem run_of_free {g : Nat} (f : Mem → Hw → Hw) {s : State} (h : s.hw.sys.held = false) :
    run g f s = .next { s with hw := (f s.mem (s.hw.at g)).seal (max s.hw.grain g),
                               mem := s.mem.after (f s.mem (s.hw.at g)) } :=
  runIf_of_true f (by simp [Hw.at, h])

/-- A command of the module on a die that is held in reset: nothing but time moves. -/
theorem run_of_held {g : Nat} (f : Mem → Hw → Hw) {s : State} (h : s.hw.sys.held = true) :
    run g f s = .next { s with hw := (s.hw.at g).seal (max s.hw.grain g), mem := s.mem.after (s.hw.at g) } :=
  runIf_of_false f (by simp [Hw.at, h])

/-- A step of the supervisor runs whether or not the die is held. -/
theorem runSup_eq (g : Nat) (f : Mem → Hw → Hw) (s : State) :
    runSup g f s = .next { s with hw := (f s.mem (s.hw.at g)).seal (max s.hw.grain g),
                                  mem := s.mem.after (f s.mem (s.hw.at g)) } :=
  runIf_of_true f rfl

/-- A step of the sensors, the fault manager or the supply page on a die that is not held. -/
theorem runCool_of_free {g : Nat} (f : Mem → Hw → Hw) {s : State} (h : s.hw.sys.held = false) :
    runCool g f s = .next { s with hw := (f s.mem (s.hw.at g)).seal (max s.hw.grain g),
                                   mem := s.mem.after (f s.mem (s.hw.at g)) } :=
  runIf_of_true f (by simp [Hw.at, h])

/-- A command of a link, of CAN or of acquisition, on a die that is neither held nor sheds load. -/
theorem runLink_of_free {g : Nat} (f : Mem → Hw → Hw) {s : State} (h : s.hw.sys.held = false)
    (hs : s.hw.sup.shed = false) :
    runLink g f s = .next { s with hw := (f s.mem (s.hw.at g)).seal (max s.hw.grain g),
                                   mem := s.mem.after (f s.mem (s.hw.at g)) } :=
  runIf_of_true f (by simp [Hw.at, h, hs])

/-- The memory after a command keeps its canonical form, whatever the operation. -/
theorem runIf_wf {k : Hw → Bool} {g : Nat} {f : Mem → Hw → Hw} {s t : State} (h : runIf k g f s = .next t)
    (hm : Memory.wf s.mem = true) : Memory.wf t.mem = true := by
  simp only [runIf, Host.Outcome.next.injEq] at h
  rw [← h]
  exact wf_after hm _

/-- A command ends with no write of its own still to be brought into memory, and no reset of the die still to come. -/
theorem runIf_sealed {k : Hw → Bool} {g : Nat} {f : Mem → Hw → Hw} {s t : State} (h : runIf k g f s = .next t) :
    t.hw.wbuf = [] ∧ t.hw.rst = 0 := by
  simp only [runIf, Host.Outcome.next.injEq] at h
  rw [← h]
  exact ⟨rfl, rfl⟩

/-- An outcome that is a next state with the queue as it was, whose memory keeps its canonical form. -/
def Kept (s : State) (o : Host.Outcome State Fault Refusal) : Prop :=
  ∃ t, o = .next t ∧ t.pending = s.pending ∧ (Memory.wf s.mem = true → Memory.wf t.mem = true)

/-- A kept outcome with no write still to be brought into memory, and no reset of the die still to come. -/
def Sealed (s : State) (o : Host.Outcome State Fault Refusal) : Prop :=
  ∃ t, o = .next t ∧ t.pending = s.pending ∧ (Memory.wf s.mem = true → Memory.wf t.mem = true) ∧
    t.hw.wbuf = [] ∧ t.hw.rst = 0

theorem Sealed.kept {s : State} {o : Host.Outcome State Fault Refusal} (h : Sealed s o) : Kept s o := by
  obtain ⟨t, e, p, w, -⟩ := h
  exact ⟨t, e, p, w⟩

/-- Whatever runs in the frame is sealed. -/
theorem sealed_runIf (k : Hw → Bool) (g : Nat) (f : Mem → Hw → Hw) (s : State) : Sealed s (runIf k g f s) :=
  ⟨_, rfl, rfl, fun hm => runIf_wf rfl hm, runIf_sealed rfl⟩

theorem sealed_run (g : Nat) (f : Mem → Hw → Hw) (s : State) : Sealed s (run g f s) := sealed_runIf _ g f s
theorem sealed_runLink (g : Nat) (f : Mem → Hw → Hw) (s : State) : Sealed s (runLink g f s) := sealed_runIf _ g f s
theorem sealed_runSup (g : Nat) (f : Mem → Hw → Hw) (s : State) : Sealed s (runSup g f s) := sealed_runIf _ g f s
theorem sealed_runCool (g : Nat) (f : Mem → Hw → Hw) (s : State) : Sealed s (runCool g f s) := sealed_runIf _ g f s

/-- A command that acts ahead of its turn answers a next state. -/
theorem kept_actEarly (i : Instr) (s : State) : Kept s (actEarly i s) := by
  unfold actEarly
  split <;> first
    | exact (sealed_run _ _ s).kept
    | exact (sealed_runLink _ _ s).kept
    | exact (sealed_runCool _ _ s).kept
    | exact ⟨s, rfl, rfl, id⟩

/-- Commands that act ahead leave the queue to the one in its turn. -/
theorem sealed_actAll {f : State → Host.Outcome State Fault Refusal} (hf : ∀ s, Sealed s (f s)) (l : List Instr) (s : State) :
    Sealed s (actAll f l s) := by
  induction l generalizing s with
  | nil => exact hf s
  | cons i is ih =>
    obtain ⟨t, e, p, w⟩ := kept_actEarly i s
    obtain ⟨u, e', p', w', q⟩ := ih { t with hw := { t.hw with early := i :: t.hw.early } }
    unfold actAll
    rw [e]
    dsimp only
    rw [e']
    exact ⟨_, rfl, p'.trans p, fun hm => w' (w hm), q⟩

/-- A command in its turn. -/
theorem sealed_inTurn {f : State → Host.Outcome State Fault Refusal} (hf : ∀ s, Sealed s (f s)) (g : Nat)
    (mine : Instr → Bool) (before : Instr → Option Nat) (s : State) : Sealed s (inTurn g mine before f s) := by
  unfold inTurn
  split
  · exact hf s
  · split
    · exact sealed_runIf _ _ _ s
    · exact sealed_actAll hf _ s

/-- Every command answers a next state, leaves the queue's rest to the step, and keeps the memory's canonical form. -/
theorem exec_sealed (c : Instr) (s : State) : Sealed s (exec c s) := by
  cases c <;> dsimp only [exec] <;> first
    | exact sealed_run _ _ s
    | exact sealed_runLink _ _ s
    | exact sealed_runSup _ _ s
    | exact sealed_runCool _ _ s
    | exact sealed_inTurn (fun s => sealed_run _ _ s) _ _ _ s
    | exact sealed_inTurn (fun s => sealed_runLink _ _ s) _ _ _ s
    | exact sealed_inTurn (fun s => sealed_runCool _ _ s) _ _ _ s

/-- A command with no command of its cycle to let go first, and that has not acted yet, is its own operation. -/
theorem inTurn_alone {g : Nat} {mine : Instr → Bool} {before : Instr → Option Nat}
    {f : State → Host.Outcome State Fault Refusal} {s : State} (h : s.hw.early = []) (hq : ahead g before s = []) :
    inTurn g mine before f s = f s := by
  simp [inTurn, h, hq, actAll]

/-- On a die that is held, a command is its own operation. -/
theorem inTurn_held {g : Nat} {mine : Instr → Bool} {before : Instr → Option Nat}
    {f : State → Host.Outcome State Fault Refusal} {s : State} (h : s.hw.sys.held = true) :
    inTurn g mine before f s = f s := by
  simp [inTurn, h]

/-- A command that has acted ahead of its turn leaves everything but that note. -/
theorem inTurn_spent {g : Nat} {mine : Instr → Bool} {before : Instr → Option Nat}
    {f : State → Host.Outcome State Fault Refusal} {s : State} (h : s.hw.sys.held = false) (hm : s.hw.early.any mine = true) :
    inTurn g mine before f s = runSup g (fun _ h => { h with early := h.early.eraseP mine }) s := by
  simp [inTurn, h, hm]

/-- With none of the queue's commands in the PCLK cycle of grain g that may act ahead, nothing goes first. -/
theorem ahead_nil {g : Nat} {before : Instr → Option Nat} {s : State}
    (h : ∀ i ∈ s.pending, (earlyGrain i).map (· / 5) ≠ some (max s.hw.grain g / 5)) : ahead g before s = [] := by
  unfold ahead
  dsimp only
  rw [List.filter_eq_nil_iff.mpr]
  · rfl
  intro i hi
  have hk := h i (List.diff_subset _ _ hi)
  cases e : earlyGrain i with
  | none => simp
  | some k =>
    rw [e] at hk
    simp only [Option.map_some, ne_eq, Option.some.injEq] at hk
    simp [hk]

/-- One step: the command at the front of the queue with the queue's rest. -/
theorem step_cons (c : Instr) (rest : List Instr) (s : State) :
    step { s with pending := c :: rest } = exec c { s with pending := rest } := rfl

/-- The empty queue idles. -/
theorem step_nil {s : State} (h : s.pending = []) : step s = .next s := by
  simp [step, h]

end Sys2Proof.Machine
end

