-- ==== Sys2Proof/Laws/Gives.lean ====
section
/-! SUPPORT. From a command to its effect: what has to be shown of the operation a command runs, so that the command
answers a next state of which a property holds. -/

namespace Sys2Proof

open Machine

/-- The state a command leaves that runs operation f in grain g. -/
def afterRun (s : State) (g : Nat) (f : Mem → Hw → Hw) : State :=
  { s with hw := (f s.mem (s.hw.at g)).seal (max s.hw.grain g), mem := s.mem.after (f s.mem (s.hw.at g)) }

/-- A command of the module, on a die that runs. -/
theorem gives_run {s : State} {g : Nat} {f : Mem → Hw → Hw} {P : State → Prop} (hl : Live s)
    (hP : P (afterRun s g f)) : ∃ t, run g f s = .next t ∧ P t :=
  ⟨_, run_of_free f hl, hP⟩

/-- A step of the supervisor. -/
theorem gives_sup {s : State} {g : Nat} {f : Mem → Hw → Hw} {P : State → Prop} (hP : P (afterRun s g f)) :
    ∃ t, runSup g f s = .next t ∧ P t :=
  ⟨_, runSup_eq g f s, hP⟩

/-- A step of the sensors, the fault manager or the supply page, on a die that runs. -/
theorem gives_cool {s : State} {g : Nat} {f : Mem → Hw → Hw} {P : State → Prop} (hl : Live s)
    (hP : P (afterRun s g f)) : ∃ t, runCool g f s = .next t ∧ P t :=
  ⟨_, runCool_of_free f hl, hP⟩

/-- A software write to a page that is not locked: the operation runs after the write's record in the log. -/
theorem gives_write {s : State} {g p off : Nat} {f : Mem → Hw → Hw} {P : State → Prop} (hl : Live s) (hp : p ≠ pFLT)
    (hu : Unlocked s p) (hP : ∀ k, Logged (s.hw.at g) k →
      P { s with hw := (f s.mem k.atWrite).seal (max s.hw.grain g), mem := s.mem.after (f s.mem k.atWrite) }) :
    ∃ t, run g (fun m h => h.swWrite p off (f m)) s = .next t ∧ P t := by
  obtain ⟨k, hk, e⟩ := (s.hw.at g).swWrite_unlocked off (f s.mem) hp hu
  refine gives_run hl ?_
  unfold afterRun
  dsimp only
  rw [e]
  exact hP k hk

end Sys2Proof
end

