-- ==== Sys2Proof/Laws/Modes.lean ====
section
/-! SUPPORT. What a change of the device mode does, and what it leaves: the SYS and CLK pages beside MODE and SYS.EVT. -/

namespace Sys2Proof.Machine

/-- The operation leaves every register of the pages SYS and CLK. -/
def KeepsLow (h k : Hw) : Prop := ∀ a, a < 0x2000 → k.reg a = h.reg a

theorem KeepsLow.refl (h : Hw) : KeepsLow h h := fun _ _ => rfl

theorem KeepsLow.trans {h k l : Hw} (h1 : KeepsLow h k) (h2 : KeepsLow k l) : KeepsLow h l :=
  fun a ha => (h2 a ha).trans (h1 a ha)

theorem keepsLow_of_regs {h k : Hw} (e : k.regs = h.regs) : KeepsLow h k := fun a _ => Hw.reg_of_regs e a

theorem keepsLow_setReg (h : Hw) {a : Nat} (ha : 0x2000 ≤ a) (v : Word) : KeepsLow h (h.setReg a v) :=
  fun b hb => h.reg_setReg_ne (by omega) v

theorem keepsLow_evt (h : Hw) {p : Nat} (hp : 2 ≤ p) (b : Nat) : KeepsLow h (h.evt p b) := fun a ha =>
  h.reg_evt_ne (by unfold ra rEVT; omega) (by unfold ra rEVT_TS; omega) b

theorem keepsLow_each {α : Type} (l : List α) (f : Hw → α → Hw) (hf : ∀ h x, KeepsLow h (f h x)) (h : Hw) :
    KeepsLow h (h.each l f) := by
  unfold Hw.each
  induction l generalizing h with
  | nil => exact .refl h
  | cons x l ih => exact (hf h x).trans (ih (f h x))

theorem low_lg (n off : Nat) : 0x2000 ≤ lg n off := by unfold lg ra pLEG; omega
theorem low_axr (a off : Nat) : 0x2000 ≤ axr a off := by unfold axr ra pAX; omega

theorem keepsLow_forceBegin (h : Hw) (n : Nat) : KeepsLow h (h.forceBegin n) :=
  (keepsLow_of_regs rfl : KeepsLow h (h.legSafe n)).trans (keepsLow_evt _ (by unfold pLEG; omega) 6)

theorem keepsLow_legOff (h : Hw) (n : Nat) : KeepsLow h (h.legOff n) :=
  (keepsLow_setReg h (low_lg n rCTRL) _).trans (keepsLow_of_regs rfl)

theorem keepsLow_homeEnd (h : Hw) (a : Nat) : KeepsLow h (h.homeEnd a) := by
  intro b hb
  have low : ∀ n off, b ≠ ra (pFB n) off := fun n off => by unfold ra pFB; omega
  unfold Hw.homeEnd
  split
  · rfl
  · dsimp only
    split
    · simp only [Hw.reg, Hw.setAxis, Hw.setBit, Hw.setF, Hw.setReg]
      rw [get_set_ne (low _ _), get_set_ne (low _ _), get_set_ne (low _ _)]
    · rfl

theorem keepsLow_setF (h : Hw) {a : Nat} (ha : 0x2000 ≤ a) (hi lo v : Nat) : KeepsLow h (h.setF a hi lo v) :=
  keepsLow_setReg h ha _

theorem keepsLow_setBit (h : Hw) {a : Nat} (ha : 0x2000 ≤ a) (i : Nat) (b : Bool) : KeepsLow h (h.setBit a i b) :=
  keepsLow_setReg h ha _

theorem keepsLow_setReg64 (h : Hw) {a : Nat} (ha : 0x2000 ≤ a) (v : Word64) : KeepsLow h (h.setReg64 a v) :=
  (keepsLow_setReg h ha _).trans (keepsLow_setReg _ (by omega) _)

theorem keepsLow_when {f : Hw → Hw} (h : Hw) (c : Bool) (hf : KeepsLow h (f h)) : KeepsLow h (h.when c f) := by
  unfold Hw.when
  split
  · exact hf
  · exact .refl h

theorem keepsLow_w1cSet (h : Hw) {a : Nat} (ha : 0x2000 ≤ a) (b : Nat) : KeepsLow h (h.w1cSet a b) :=
  (keepsLow_setReg h ha _).trans (keepsLow_of_regs rfl)

theorem keepsLow_setProf (h : Hw) (p : Nat) (x : PrfS) : KeepsLow h (h.setProf p x) := keepsLow_of_regs rfl
theorem keepsLow_setGear (h : Hw) (u : Nat) (x : GearS) : KeepsLow h (h.setGear u x) := keepsLow_of_regs rfl
theorem keepsLow_setAxis (h : Hw) (a : Nat) (x : AxS) : KeepsLow h (h.setAxis a x) := keepsLow_of_regs rfl

/-! ### Profiles -/

theorem low_prStat (p : Nat) : 0x2000 ≤ prStat p := by unfold prStat ra pPRF; omega
theorem low_prCred (p : Nat) : 0x2000 ≤ prCred p := by unfold prCred ra pPRF; omega
theorem low_mStat (p : Nat) : 0x2000 ≤ mStat p := by unfold mStat ra pLSH; omega
theorem low_mWend (p : Nat) : 0x2000 ≤ mWend p := by unfold mWend ra pLSH; omega

theorem keepsLow_setNxt (h : Hw) (p : Nat) (r : PRec) : KeepsLow h (h.setNxt p r) :=
  (keepsLow_setProf h p _).trans (keepsLow_each _ _ (fun h u => keepsLow_setGear h u _) _)

theorem keepsLow_axPut (h : Hw) (a : Nat) (r : PRec) : KeepsLow h (h.axPut a r) := by
  unfold Hw.axPut
  dsimp only
  split
  · exact (keepsLow_setAxis h a _).trans (keepsLow_setNxt _ _ _)
  · exact .refl h

theorem keepsLow_ownRec (h : Hw) (p : Nat) (r : PRec) : KeepsLow h (h.ownRec p r) := by
  unfold Hw.ownRec
  split
  · rename_i a _
    dsimp only
    split
    · exact keepsLow_setAxis h a _
    · exact (keepsLow_setAxis h a _).trans (keepsLow_axPut _ _ _)
  · exact keepsLow_setNxt _ _ _

theorem keepsLow_followAgain (h : Hw) (p : Nat) : KeepsLow h (h.followAgain p) :=
  keepsLow_each _ _ (fun _ _ => keepsLow_ownRec _ _ _) h

theorem keepsLow_flushQueue (h : Hw) (p : Nat) : KeepsLow h (h.flushQueue p) := by
  have h1 : KeepsLow h (h.leaveGroup p) := by
    unfold Hw.leaveGroup
    dsimp only
    split
    · exact keepsLow_setProf h _ _
    · exact .refl h
  exact ((h1.trans (keepsLow_setF _ (low_prCred p) _ _ _)).trans (keepsLow_setF _ (low_prCred p) _ _ _)).trans
      (keepsLow_setProf _ _ _)

theorem keepsLow_masterFlush (h : Hw) (mm : Nat) : KeepsLow h (h.masterFlush mm) := by
  have h1 : KeepsLow h { h with nsw := { h.nsw with sends := h.nsw.sends.filter (·.mm != mm) } } := keepsLow_of_regs rfl
  exact (((h1.trans (keepsLow_setBit _ (low_mStat _) _ _)).trans
      (keepsLow_setBit _ (low_mStat _) _ _)).trans (keepsLow_setF _ (low_mStat _) _ _ _)).trans
      (keepsLow_setReg64 _ (low_mWend _) _)

theorem keepsLow_flushOne (h : Hw) (p : Nat) : KeepsLow h (h.flushOne p) := by
  have h3 : KeepsLow h ((h.flushQueue p).setPfState p 1) :=
    ((keepsLow_flushQueue h p).trans (keepsLow_setF _ (low_prStat p) _ _ _)).trans
      (keepsLow_when _ _ (keepsLow_setReg64 _ (low_mWend _) _))
  unfold Hw.flushOne
  dsimp only
  split
  · exact h3.trans (keepsLow_masterFlush _ _)
  · exact h3

theorem keepsLow_axisFlush (h : Hw) (p : Nat) : KeepsLow h (h.axisFlush p) := by
  unfold Hw.axisFlush
  dsimp only
  split
  · have h1 : KeepsLow h (if h.pfState p = 2 ∨ h.pfState p = 3 then h.groupEnd p else h) := by
      split
      · refine keepsLow_each _ _ (fun h f => ?_) h
        exact (((keepsLow_setProf h f _).trans (keepsLow_flushOne _ f)).trans
          (keepsLow_w1cSet _ (low_prStat f) _)).trans (keepsLow_evt _ (by decide) 3)
      · exact .refl h
    exact (h1.trans (keepsLow_setProf _ _ _)).trans (keepsLow_flushOne _ p)
  · exact .refl h

theorem keepsLow_axPick (h : Hw) (a T X : Nat) : KeepsLow h (h.axPick a T X) := by
  unfold Hw.axPick
  dsimp only
  split
  · exact (keepsLow_setAxis h a _).trans (keepsLow_axPut _ _ _)
  · have h1 : KeepsLow h (if (h.axis a).inForce then h else h.axTakeOver a) := by
      split
      · exact .refl h
      · exact (keepsLow_axisFlush h _).trans (keepsLow_setAxis _ _ _)
    split
    · exact (h1.trans (keepsLow_setAxis _ _ _)).trans (keepsLow_axPut _ _ _)
    · exact h1.trans (keepsLow_axPut _ _ _)

theorem keepsLow_axShape (h : Hw) (a : Nat) : KeepsLow h (h.axShape a) := by
  unfold Hw.axShape
  dsimp only
  split
  · refine ((keepsLow_axPick h a _ _).trans (keepsLow_each _ _ (fun h f => ?_) _)).trans (keepsLow_followAgain _ _)
    exact (keepsLow_ownRec h f _).trans (keepsLow_setProf _ _ _)
  · exact .refl h

/-! ### Axes -/

theorem keepsLow_homeDrop (h : Hw) (a : Nat) : KeepsLow h (h.homeDrop a) := by
  unfold Hw.homeDrop
  refine KeepsLow.trans ?_ ((keepsLow_homeEnd _ a).trans (keepsLow_setAxis _ _ _))
  split
  · split
    · split
      · exact keepsLow_setReg h (low_axr a 0x094) _
      · exact .refl h
    · exact .refl h
  · exact .refl h

theorem keepsLow_wallAt (h : Hw) (a : Nat) (p : Word64) : KeepsLow h (h.wallAt a p) := keepsLow_setAxis h a _

theorem keepsLow_axOff (h : Hw) (a : Nat) : KeepsLow h (h.axOff a) := by
  unfold Hw.axOff
  dsimp only
  refine KeepsLow.trans ?_ (keepsLow_axShape _ a)
  refine KeepsLow.trans ?_ (keepsLow_setF _ (low_axr a rSTAT) _ _ _)
  refine KeepsLow.trans ?_ (keepsLow_setBit _ (low_axr a rSTAT) _ _)
  refine KeepsLow.trans ?_ (keepsLow_setAxis _ a _)
  refine KeepsLow.trans ?_ (keepsLow_wallAt _ a _)
  exact (keepsLow_each _ _ keepsLow_legOff h : KeepsLow h (h.axisLegsOff a)).trans (keepsLow_homeDrop _ a)

theorem keepsLow_axOffNow (h : Hw) (a : Nat) : KeepsLow h (h.axOffNow a) :=
  ((keepsLow_axOff h a).trans (keepsLow_setAxis _ _ _)).trans (keepsLow_setAxis _ _ _)

theorem keepsLow_axModeOff (h : Hw) (a : Nat) : KeepsLow h (h.axModeOff a) := by
  have hp : 2 ≤ pAX a := by unfold pAX; omega
  have h1 : KeepsLow h (if h.axLive a then h.axOffNow a else h) := by
    split
    · exact keepsLow_axOffNow h a
    · exact .refl h
  unfold Hw.axModeOff
  dsimp only
  revert h1
  generalize (if h.axLive a then h.axOffNow a else h) = k
  intro h1
  split
  · exact h1.trans (keepsLow_evt k hp 9)
  · exact h1

theorem keepsLow_ownRelease (h : Hw) : KeepsLow h h.ownRelease :=
  ((keepsLow_of_regs rfl).trans (keepsLow_setReg _ (by decide) _)).trans (keepsLow_setReg _ (by decide) _)

theorem keepsLow_soOpen (h : Hw) : KeepsLow h h.soOpen :=
  (keepsLow_of_regs rfl).trans (keepsLow_setReg _ (by decide) _)

theorem keepsLow_modeNote (h : Hw) (m old : BitVec 3) (o : Nat) : KeepsLow h (h.modeNote m old o) := keepsLow_of_regs rfl

theorem keepsLow_modeShut (h : Hw) (m : BitVec 3) : KeepsLow h (h.modeShut m) := by
  have h1 : KeepsLow h (h.each (List.range 32) Hw.axModeOff) := keepsLow_each _ _ keepsLow_axModeOff h
  have h2 := (h1.trans (keepsLow_when _ (Hw.paired (h.each (List.range 32) Hw.axModeOff)) (keepsLow_ownRelease _))).trans
    (keepsLow_soOpen _)
  unfold Hw.modeShut
  dsimp only
  split
  · exact h2.trans (keepsLow_of_regs rfl)
  · exact h2

/-- What a change of mode does after MODE and SYS.EVT are written leaves the SYS and CLK pages. -/
theorem modeCore_low (h : Hw) (m old : BitVec 3) (o : Nat) :
    KeepsLow (((h.setF (sy 0x040) 2 0 m.toNat).setF (sy 0x040) 10 8 old.toNat).evt pSYS 0) (h.modeCore m old o) := by
  unfold Hw.modeCore
  generalize ((h.setF (sy 0x040) 2 0 m.toNat).setF (sy 0x040) 10 8 old.toNat).evt pSYS 0 = k
  dsimp only
  have h1 := (keepsLow_modeNote k m old o).trans
    (keepsLow_when (f := fun h => h.each (List.range 96) Hw.forceBegin) _ (legMode old && !legMode m)
      (keepsLow_each (List.range 96) Hw.forceBegin keepsLow_forceBegin _))
  split
  · exact h1.trans (keepsLow_modeShut _ m)
  · exact h1

/-- The mode after a change of mode. -/
theorem modeCore_mode (h : Hw) (m old : BitVec 3) (o : Nat) : (h.modeCore m old o).mode = m := by
  have h1 := modeCore_low h m old o (ra pSYS 0x040) (by decide)
  have h2 : (((h.setF (sy 0x040) 2 0 m.toNat).setF (sy 0x040) 10 8 old.toNat).evt pSYS 0).reg (ra pSYS 0x040) =
      putFld (putFld (h.reg (ra pSYS 0x040)) 2 0 m.toNat) 10 8 old.toNat := by
    rw [Hw.reg_evt_ne _ (by decide) (by decide)]
    show (Hw.setF _ (ra pSYS 0x040) _ _ _).reg _ = _
    rw [Hw.reg_setF_same]
    show putFld ((Hw.setF _ (ra pSYS 0x040) _ _ _).reg _) _ _ _ = _
    rw [Hw.reg_setF_same]
  unfold Hw.mode
  rw [h1, h2]
  apply BitVec.eq_of_getLsbD_eq
  intro i hi
  rw [BitVec.getLsbD_extractLsb', getLsbD_putFld _ (by decide) (by decide), getLsbD_putFld _ (by decide) (by decide)]
  have h3 : ¬ (8 ≤ 0 + i ∧ 0 + i ≤ 10) := by omega
  have h4 : 0 ≤ 0 + i ∧ 0 + i ≤ 2 := by omega
  rw [if_neg h3, if_pos h4]
  simp [hi, BitVec.getLsbD]

/-- A change of mode leaves the CLK page. -/
theorem modeCore_clk (h : Hw) (m old : BitVec 3) (o off : Nat) (ho : off < 0x1000) :
    (h.modeCore m old o).reg (ra pCLK off) = h.reg (ra pCLK off) := by
  rw [modeCore_low h m old o _ (by unfold ra pCLK; omega)]
  rw [Hw.reg_evt_ne _ (by unfold ra pCLK pSYS rEVT; omega) (by unfold ra pCLK pSYS rEVT_TS; omega)]
  rw [Hw.reg_setF_ne _ (by unfold sy ra pCLK pSYS; omega), Hw.reg_setF_ne _ (by unfold sy ra pCLK pSYS; omega)]

/-- The first cause of a grain takes the module to its mode. -/
theorem setMode_fresh (h : Hw) (m : BitVec 3) (o : Nat) (hg : h.sys.modeGrain ≠ h.grain) :
    h.setMode m o = h.modeCore m h.mode o := by
  unfold Hw.setMode
  have : (h.sys.modeGrain == h.grain) = false := by simpa using hg
  simp [this, Hw.when]

end Sys2Proof.Machine
end

