-- ==== Sys2Proof/Machine/Panel.lean ====
section
/-! DEFINITION. What the module shows outside: the lights of the front panel (R40, R457), the interrupt of a page (R59),
its DRIVE line and the pins of a leg (R4, R40, R404, R463). -/

namespace Sys2Proof.Machine

/-! ### Front panel -/

/-- How a light is lit: steady, flashing at 1 Hz or 4 Hz, or steady but for 100 ms every 2 s. -/
inductive Rhythm where
  | steady | flash1 | flash4 | blink
  deriving DecidableEq, Repr

/-- A light of the front panel. -/
inductive Led where
  | off | red (r : Rhythm) | amber (r : Rhythm) | green (r : Rhythm)
  deriving DecidableEq, Repr

/-- The MODE LED (R40). -/
def Hw.modeLed (h : Hw) : Led :=
  match h.mode.toNat with
  | 0 => .green .flash4
  | 1 => .green .flash1
  | 2 => .green .steady
  | 3 => .green .blink
  | 4 => .amber .steady
  | 5 => .red .steady
  | 6 => .off
  | _ => .red .flash1

/-- The FAULT LED (R457, R49). -/
def Hw.faultLedShow (h : Hw) : Led :=
  if h.bit (ra pSAF rSTAT) 0 then .red .flash1
  else if h.f (fl 0x04C) 2 0 ≠ 0 ∨ bitOf h.gdpStat 1 ∨ h.sys.faultLed then .red .steady
  else .off

/-- The PAIR LED (R457). -/
def Hw.pairLed (h : Hw) : Led :=
  if !h.paired then .off
  else if !h.linkUp then .amber .flash4
  else if !h.pStat 2 then .amber .steady
  else if h.pStat 0 then .green .steady
  else if h.mode = mSHADOW then .green .flash1
  else .off

/-- Link on a LAN: on either of its two ports. -/
def Hw.lanLink (h : Hw) (b : Bool) : Bool := (domPorts b).any fun p => h.bit (nw (0x070 + 4 * p)) 0

/-- The NET LED (R457). -/
def Hw.netLed (h : Hw) : Led :=
  if h.bit (nt rSTAT) 2 || h.bit (nt rSTAT) 1 then .amber .steady
  else if h.lanLink false && h.lanLink true && h.bit (nt rREADY) 4 then .green .steady
  else if h.lanLink false || h.lanLink true then .green .flash1
  else .off

/-! ### Interrupts and pins -/

/-- The interrupt of a page to the application cores: an event whose EVT_EN bit is set (R59). -/
def Hw.pageIrq (h : Hw) (p : Nat) : Bool := h.reg (ra p rEVT) &&& h.reg (ra p rEVT_EN) != 0

/-- PUL and ENA of leg n at the connector in the present grain: none where the module drives neither (R40, R404, R417, R463),
both low while the leg is safe (R77). -/
def Hw.legPins (h : Hw) (n : Nat) : Option (Bool × Bool) :=
  if h.drivesLeg n then some (bitOf (h.legStat n) 2, bitOf (h.legStat n) 3) else none

/-- DCLKm at the connector at the start of the present grain: a 50 % clock of period N / 4 grains while the module owns the
backplane and EN is set (R105, R463). -/
def Hw.dclkPin (h : Hw) (m : Nat) : Option Bool :=
  if h.drives && h.bit (sd m 0x080) 16 then
    let s := h.divStart m (32 * h.grain)
    some (decide ((32 * h.grain - s) % (8 * h.dclkN m) < 4 * h.dclkN m))
  else none

/-- The level of field channel i of group g at its pin as its die drives it; an input drives nothing (R385, R390). -/
def Hw.fieldPin (h : Hw) (g i : Nat) : Option Bool :=
  if (h.field g).isOut i then some ((h.field g).drives i) else none

/-- The octets of a Molad frame on a lane, header, payload and CRC (R424); its numbers are TYPE, FLAGS, SEQ and STAMP. -/
def Out.moladOctets (o : Out) : List Byte :=
  let n := fun i => (o.nums.getD i 0).toNat
  let d := leBytes 1 (n 0) ++ leBytes 1 (n 1) ++ leBytes 2 (n 2) ++ leBytes 2 o.data.length ++ leBytes 2 0 ++
    leBytes 8 (n 3) ++ o.data
  d ++ wordBytes (crc32c d)

/-- What a gate-drive board makes of a leg's pins: high side on, low side on (R4, R5). -/
def switches : Option (Bool × Bool) → Bool × Bool
  | none => (false, false)
  | some (pul, ena) => (ena && pul, ena && !pul)

end Sys2Proof.Machine
end

