-- ==== Sys2Proof/Laws/Panel.lean ====
section
/-! SUPPORT. Laws of the pins and of a page's interrupt. -/

namespace Sys2Proof.Machine

/-- The board never has both switches of a leg on. -/
theorem switches_not_both (p : Option (Bool × Bool)) : switches p ≠ (true, true) := by
  match p with
  | none => decide
  | some (a, b) => cases a <;> cases b <;> decide

/-- A leg the module does not drive has both switches off. -/
theorem legPins_undriven (h : Hw) (n : Nat) (d : h.drivesLeg n = false) : switches (h.legPins n) = (false, false) := by
  simp [Hw.legPins, d, switches]

/-- A module whose DRIVE line is low drives no leg. -/
theorem drivesLeg_low (h : Hw) (n : Nat) (d : h.driveLine = false) : h.drivesLeg n = false := by
  simp [Hw.drivesLeg, d]

/-- A page with no event whose EVT_EN bit is set raises no interrupt. -/
theorem pageIrq_off (h : Hw) (p : Nat) (e : h.reg (ra p rEVT_EN) = 0) : h.pageIrq p = false := by
  simp [Hw.pageIrq, e]

end Sys2Proof.Machine
end

