-- ==== Sys2Proof/Machine/Contacts.lean ====
section
/-! DEFINITION. The contacts of the backplane connectors J0 to J4 (R426, R458 to R462): the signal of each, and its length. -/

namespace Sys2Proof.Machine

/-- A signal of the backplane; `neg`: the negative line of a pair. -/
inductive Signal where
  | ground | pe | holdMinus | holdPlus | vlog | presentN | notConnected
  | pul (leg : Nat) (neg : Bool) | ena (leg : Nat) (neg : Bool) | gst (leg : Nat)
  | sdData (k : Nat) (neg : Bool) | dclk (m : Nat) (neg : Bool) | trip (t : Nat)
  | fbLine (port line : Nat) (neg : Bool) | probe (k : Nat) (neg : Bool)
  | fio (ch : Nat) | lPlus (grp : Nat) | mMinus (grp : Nat)
  | safeIn (k : Nat) (chB : Bool) | srst | soP (j : Nat) | soM (j : Nat)
  | canH (n : Nat) | canL (n : Nat) | laneTx (k : Nat) (neg : Bool) | laneRx (k : Nat) (neg : Bool)
  | refClk (neg : Bool) | slotId (bit : Nat) | driveA | driveB
  deriving DecidableEq, Repr

/-- How far a contact reaches: long ones mate first, short ones last (R426). -/
inductive ContactLength where
  | long | medium | short
  deriving DecidableEq, Repr

/-- A column of J1 to J4, from its letter A on. -/
inductive Column where
  | A | B | C | D | E | F | G | H
  deriving DecidableEq, Repr

/-- Contacts 1 to 15 of J0 (R459). -/
def j0 (n : Nat) : Option Signal :=
  if n = 0 ∨ 15 < n then none
  else if n ≤ 2 then some .pe
  else if n ≤ 6 then some .ground
  else if n ≤ 8 then some .holdMinus
  else if n ≤ 12 then some .vlog
  else if n ≤ 14 then some .holdPlus
  else some .presentN

/-- J1, base 0, and J2, base 1 (R460). -/
def j12 (base : Nat) (col : Column) (row : Nat) : Option Signal :=
  if row = 0 ∨ 60 < row then none
  else
    let j := row - 1
    let leg := 48 * base + j
    let low := decide (row ≤ 48)
    let clock := decide (49 ≤ row) && decide (row ≤ 52)
    let trips := decide (49 ≤ row) && decide (row ≤ 56)
    some <| match col with
    | .A => if low then .pul leg false else if clock then .dclk (4 * base + (row - 49)) false else .ground
    | .B => if low then .pul leg true else if clock then .dclk (4 * base + (row - 49)) true else .ground
    | .C => .ground
    | .D => if low then .ena leg false else if trips then .trip (8 * base + (row - 49)) else .ground
    | .E => if low then .ena leg true else .ground
    | .F => if low then .gst leg else .ground
    | .G => if row ≤ 56 then .sdData (56 * base + j) false else .ground
    | .H => if row ≤ 56 then .sdData (56 * base + j) true else .ground

/-- The pair of columns of a line of J3: 0 to 3 from A, and whether it is the negative one (R461). -/
def Column.pair : Column → Nat × Bool
  | .A => (0, false)
  | .B => (0, true)
  | .C => (1, false)
  | .D => (1, true)
  | .E => (2, false)
  | .F => (2, true)
  | .G => (3, false)
  | .H => (3, true)

/-- J3 (R461). -/
def j3 (col : Column) (row : Nat) : Option Signal :=
  if row = 0 ∨ 40 < row then none
  else some <|
    if row ≤ 32 then .fbLine (row - 1) col.pair.1 col.pair.2
    else if row ≤ 34 then .probe (4 * (row - 33) + col.pair.1) col.pair.2
    else .ground

/-- J4 (R462). -/
def j4 (col : Column) (row : Nat) : Option Signal :=
  if row = 0 ∨ 32 < row then none
  else
    let field := fun (grp : Nat) => if row ≤ 16 then Signal.fio (16 * grp + (row - 1))
      else if row ≤ 18 then .lPlus (grp + 1) else if row ≤ 20 then .mMinus (grp + 1) else .notConnected
    let m2 := row == 10 || row == 15 || row == 16
    let lane := fun (neg : Bool) => if row = 6 then Signal.laneTx 0 neg else if row = 8 then .laneRx 0 neg
      else if row = 10 then .laneTx 1 neg else if row = 12 then .laneRx 1 neg
      else if row = 15 then .refClk neg else .ground
    match col with
    | .A => some (field 0)
    | .B => some (field 1)
    | .C => some <|
      if row ≤ 8 then .safeIn (row - 1) false else if row = 9 then .srst
      else if 11 ≤ row ∧ row ≤ 14 then .soP (row - 11) else if m2 then .mMinus 2 else .ground
    | .D => some <|
      if row ≤ 8 then .safeIn (row - 1) true
      else if 11 ≤ row ∧ row ≤ 14 then .soM (row - 11) else if m2 then .mMinus 2 else .ground
    | .E => some <|
      if row = 1 then .canH 0 else if row = 3 then .canH 1
      else if 17 ≤ row ∧ row ≤ 20 then .slotId (row - 17) else if row = 22 then .driveA else lane false
    | .F => some <|
      if row = 1 then .canL 0 else if row = 3 then .canL 1 else if row = 22 then .driveB else lane true
    | .G => none
    | .H => none

/-- The length of the contact of a signal (R426, R458, R459). -/
def Signal.length : Signal → ContactLength
  | .pe => .long
  | .ground => .long
  | .holdMinus => .long
  | .presentN => .short
  | _ => .medium

end Sys2Proof.Machine
end

