-- ==== Sys2Proof/Tests/Slice0.lean ====
section
/-! SUPPORT. Tests: well-formed and ill-formed commands, worked examples of the spec, and for every statement a state
and operands that meet its hypotheses. -/

namespace Sys2Proof

open Machine

/-- A machine whose module is as reset leaves it, but for what f sets. -/
def stateOf (f : Hw → Hw) : State := { hw := f {} }

/-- The same with memory. -/
def stateWith (f : Hw → Hw) (m : Mem → Mem) : State := { hw := f {}, mem := m [] }

/-- A word written to memory at an address. -/
def put32 (m : Mem) (a : Nat) (v : Word) : Mem := memApply m ((wordBytes v).zipIdx.map fun b => (a + b.2, b.1))

/-- A 256-bit number written to memory, big-endian. -/
def putBe (m : Mem) (a v : Nat) : Mem :=
  memApply m ((List.range 32).map fun i => (a + i, BitVec.ofNat 8 (v >>> (248 - 8 * i))))

/-- An image with one section of four zero bytes, at an address: the header of R47 with the generator of P-256 as its public
key, signed by the standard's rule with the private key 1 and the per-message number 1. -/
def image (m : Mem) (b : Nat) : Mem :=
  let m := put32 (put32 (put32 (put32 m b 0x58494D47) (b + 4) 1) (b + 0x10) 1) (b + 0x14) 0x100
  let m := put32 (put32 m (b + 0xA8) 4) (b + 0xAC) 0x1A0
  let m := putBe (putBe (putBe m (b + 0x20) ecGx) (b + 0x40) ecGy) (b + 0x60) ecGx
  putBe m (b + 0x80) 0x4ae9c4a885ac75449ea581e46436934cc5ed5bb535664c7b05a872402af4502b

/-! ## Well-formed and ill-formed commands -/

/-! ## Well-formed and ill-formed commands -/

theorem test_wf_clock_count :
    (∀ c ∈ ([.clockFail 0 true 65535] : List Instr), c.wf = true) := by decide

theorem test_illFormed_clock_count :
    (∀ c ∈ ([.clockFail 0 true 65536] : List Instr), c.wf = false) := by
  decide +kernel

theorem test_wf_requester :
    (∀ c ∈ ([.semRead 0 0x13 3,
    .semWrite 0 0x1F 3 1,
    .lockWrite 0 0x10 3 1] : List Instr), c.wf = true) := by decide

theorem test_illFormed_requester :
    (∀ c ∈ ([.semRead 0 0x14 3,
    .semWrite 0 0x20 3 1,
    .lockWrite 0 0x1E 3 1] : List Instr), c.wf = false) := by
  decide +kernel

theorem test_wf_register_write :
    (∀ c ∈ ([.registerWrite 0 0x10 0x40000000 2 1] : List Instr), c.wf = true) := by decide

theorem test_illFormed_register_write :
    (∀ c ∈ ([.registerWrite 0 0x14 0x40000000 4 1,
    .registerWrite 0 0x10 0x100000000 4 1,
    .registerWrite 0 0x10 0x40000000 3 1] : List Instr), c.wf = false) := by
  decide +kernel

theorem test_wf_power_on :
    (∀ c ∈ ([.powerOnRelease 0 ⟨65535, 65535, 0, 0, true, 0⟩] : List Instr), c.wf = true) := by decide

theorem test_illFormed_power_on :
    (∀ c ∈ ([.powerOnRelease 0 ⟨65536, 24000, 0, 0, true, 0⟩,
    .powerOnRelease 0 ⟨24000, 65536, 0, 0, true, 0⟩] : List Instr), c.wf = false) := by
  decide +kernel

theorem test_wf_gst_period :
    (∀ c ∈ ([.gstPeriod 0 0 10 10] : List Instr), c.wf = true) := by decide

theorem test_illFormed_gst_period :
    (∀ c ∈ ([.gstPeriod 0 0 10 11] : List Instr), c.wf = false) := by
  decide +kernel

theorem test_wf_sdm_bits :
    (∀ c ∈ ([.sdmConversion 0 0 ⟨0, true, [3, 7]⟩,
    .crustOutput 0 0 ⟨0, true, []⟩,
    .sdmCalDone 0 0 [1],
    .dclkLost 5 0 5] : List Instr), c.wf = true) := by decide

theorem test_illFormed_sdm_bits :
    (∀ c ∈ ([.sdmConversion 0 0 ⟨0, true, [7, 7]⟩,
    .crustOutput 0 0 ⟨0, true, [7, 3]⟩,
    .sdmCalDone 0 0 [],
    .sdmCalDone 0 0 (List.replicate 257 0),
    .dclkLost 5 0 6] : List Instr), c.wf = false) := by
  decide +kernel

theorem test_wf_feedback :
    (∀ c ∈ ([.fbLineChange 5 0 0 5,
    .probeLatch 9 0 0 true 9] : List Instr), c.wf = true) := by decide

theorem test_illFormed_feedback :
    (∀ c ∈ ([.fbLineChange 5 0 0 6,
    .probeLatch 9 0 0 true 10] : List Instr), c.wf = false) := by
  decide +kernel

theorem test_wf_limits :
    (∀ c ∈ ([.limitAccepted 5 0 true true 5,
    .homeLevelAccepted 5 0 true 5] : List Instr), c.wf = true) := by decide

theorem test_illFormed_limits :
    (∀ c ∈ ([.limitAccepted 5 0 true true 6,
    .homeLevelAccepted 5 0 true 6] : List Instr), c.wf = false) := by
  decide +kernel

theorem test_wf_ptp :
    (∀ c ∈ ([.ptpSync 0 false ⟨⟨2, 1, .layer2, true, 0, false, 0, 0, 0⟩, 0, 0, 0, false, 0⟩,
    .ptpFollowUp 0 true ⟨⟨2, 1, .layer2, true, 0, false, 0, 0, 0⟩, 0, 0, -128, false, -0x80000000⟩,
    .ptpAnnounce 0 false ⟨⟨2, 1, .layer2, true, 0, false, 0, 0, 0⟩, 0, 255, 255, 255, 65535, 255, 0, 65535⟩,
    .ptpDelayResp 0 false ⟨⟨2, 1, .layer2, true, 0, false, 0, 0, 0⟩, .delay, true, 0, 0, false⟩,
    .ptpDelayReq 0 false ⟨⟨2, 1, .layer2, true, 0, false, 0, 0, 0⟩, true, 0⟩] : List Instr), c.wf = true) := by decide

theorem test_illFormed_ptp :
    (∀ c ∈ ([.ptpSync 0 false ⟨⟨2, 1, .layer2, true, 0, false, 0, 0, (2 ^ 63)⟩, 0, 0, 0, false, 0⟩,
    .ptpSync 0 false ⟨⟨2, 1, .layer2, true, 0, false, 0, 0, (-(2 ^ 63) - 1)⟩, 0, 0, 0, false, 0⟩,
    .ptpSync 0 false ⟨⟨2, 1, .layer2, true, 0, false, 0, 0, 0⟩, 0, 2 ^ 96, 0, false, 0⟩,
    .ptpFollowUp 0 false ⟨⟨2, 1, .layer2, true, 0, false, 0, 0, 0⟩, 0, 0, 128, false, 0⟩,
    .ptpSync 0 false ⟨⟨2, 1, .layer2, true, 0, false, 0, 0, 0⟩, 0, 0, -129, false, 0⟩,
    .ptpSync 0 false ⟨⟨2, 1, .layer2, true, 0, false, 0, 0, 0⟩, 0, 0, 0, false, 0x80000000⟩,
    .ptpDelayResp 0 false ⟨⟨2, 1, .layer2, true, 0, false, 0, 0, 0⟩, .delay, true, 0, 2 ^ 96, false⟩,
    .ptpDelayReq 0 false ⟨⟨2, 1, .layer2, true, 0, false, 0, 0, (2 ^ 63)⟩, true, 0⟩,
    .ptpAnnounce 0 false ⟨⟨2, 1, .layer2, true, 0, false, 0, 0, 0⟩, 128, 0, 0, 0, 0, 0, 0, 0⟩,
    .ptpAnnounce 0 false ⟨⟨2, 1, .layer2, true, 0, false, 0, 0, 0⟩, 0, 256, 0, 0, 0, 0, 0, 0⟩,
    .ptpAnnounce 0 false ⟨⟨2, 1, .layer2, true, 0, false, 0, 0, 0⟩, 0, 0, 256, 0, 0, 0, 0, 0⟩,
    .ptpAnnounce 0 false ⟨⟨2, 1, .layer2, true, 0, false, 0, 0, 0⟩, 0, 0, 0, 256, 0, 0, 0, 0⟩,
    .ptpAnnounce 0 false ⟨⟨2, 1, .layer2, true, 0, false, 0, 0, 0⟩, 0, 0, 0, 0, 65536, 0, 0, 0⟩,
    .ptpAnnounce 0 false ⟨⟨2, 1, .layer2, true, 0, false, 0, 0, 0⟩, 0, 0, 0, 0, 0, 256, 0, 0⟩,
    .ptpAnnounce 0 false ⟨⟨2, 1, .layer2, true, 0, false, 0, 0, 0⟩, 0, 0, 0, 0, 0, 0, 0, 65536⟩] : List Instr), c.wf = false) := by
  decide +kernel

theorem test_wf_frames :
    (∀ c ∈ ([.frameReceive 0 ⟨3, 1536, none, 0, .software, true, false, none, true, 0, [1]⟩,
    .cyclicFrameReceive 0 false none [1],
    .announcementReceive 0 false ⟨0, 0, 0, 0, 0, 65535, none⟩,
    .partnerLanAge 0 255 false,
    .lldpReceive 0 0 0 65535] : List Instr), c.wf = true) := by decide

theorem test_illFormed_frames :
    (∀ c ∈ ([.frameReceive 0 ⟨4, 64, none, 0, .software, true, false, none, true, 0, []⟩,
    .frameReceive 0 ⟨0, 1537, none, 0, .software, true, false, none, true, 0, []⟩,
    .frameReceive 0 ⟨0, 0, none, 0, .software, true, false, none, true, 0, [1]⟩,
    .cyclicFrameReceive 0 false none (List.replicate 1501 0),
    .announcementReceive 0 false ⟨0, 0, 0, 0, 0, 65536, none⟩,
    .partnerLanAge 0 256 false,
    .lldpReceive 0 0 0 65536] : List Instr), c.wf = false) := by
  decide +kernel

theorem test_wf_can :
    (∀ c ∈ ([.canFrameReceive 5 0 ⟨0, 0, 5, [0], false⟩,
    .canTxDone 5 0 5] : List Instr), c.wf = true) := by decide

theorem test_illFormed_can :
    (∀ c ∈ ([.canFrameReceive 5 0 ⟨0, 0, 6, [0], false⟩,
    .canFrameReceive 5 0 ⟨0, 0, 5, List.replicate 17 0, false⟩,
    .canTxDone 5 0 6] : List Instr), c.wf = false) := by
  decide +kernel

theorem test_wf_acquisition :
    (∀ c ∈ ([.acqSample 0 (List.replicate 32 0)] : List Instr), c.wf = true) := by decide

theorem test_illFormed_acquisition :
    (∀ c ∈ ([.acqSample 0 (List.replicate 31 0)] : List Instr), c.wf = false) := by
  decide +kernel

theorem test_wf_field :
    (∀ c ∈ ([.fieldInputAccept 5 0 true 5,
    .fieldWireBreak 5 0 5,
    .fieldWireBreakEnd 5 0 5,
    .fieldSupplyUv 5 false 5,
    .fieldSupplyOv 5 false 5,
    .fieldSupplyClear 5 false true 5] : List Instr), c.wf = true) := by decide

theorem test_illFormed_field :
    (∀ c ∈ ([.fieldInputAccept 5 0 true 6,
    .fieldWireBreak 5 0 6,
    .fieldWireBreakEnd 5 0 6,
    .fieldSupplyUv 5 false 6,
    .fieldSupplyOv 5 false 6,
    .fieldSupplyClear 5 false true 6] : List Instr), c.wf = false) := by
  decide +kernel

theorem test_wf_molad :
    (∀ c ∈ ([.moladState 0 ⟨false, false, false, false, false, false, 0, 0⟩ 0 [0],
    .moladMirror 0 ⟨false, false, false, false, false, false, 0, 0⟩ 0 0 [0],
    .moladSync 0 ⟨false, false, false, false, false, false, 0, 0⟩ 255 0,
    .levelMismatch 5 0 true true 5] : List Instr), c.wf = true) := by decide

theorem test_illFormed_molad :
    (∀ c ∈ ([.moladState 0 ⟨false, false, false, false, false, false, 0, 0⟩ 0 (List.replicate 257 0),
    .moladMirror 0 ⟨false, false, false, false, false, false, 0, 0⟩ 0 0x100000000 [0],
    .moladMirror 0 ⟨false, false, false, false, false, false, 0, 0⟩ 0 0 (List.replicate 257 0),
    .moladSync 0 ⟨false, false, false, false, false, false, 0, 0⟩ 256 0,
    .levelMismatch 5 0 true true 6] : List Instr), c.wf = false) := by
  decide +kernel

theorem test_wf_power :
    (∀ c ∈ ([.powerFail 0 [17000],
    .holdTest 0 24000,
    .holdTestDone 0 4700 100,
    .vlogHigh 0 25000,
    .holdTestAuto 0 24000 24000] : List Instr), c.wf = true) := by decide

theorem test_illFormed_power :
    (∀ c ∈ ([.powerFail 0 [17000, 65536],
    .holdTest 0 65536,
    .holdTestDone 0 65536 0,
    .holdTestDone 0 0 65536,
    .vlogHigh 0 65536,
    .holdTestAuto 0 65536 0,
    .holdTestAuto 0 0 65536] : List Instr), c.wf = false) := by
  decide +kernel

theorem test_wf_thermal :
    (∀ c ∈ ([.thermalRead 0 ⟨List.replicate 12 400, 0⟩] : List Instr), c.wf = true) := by decide

theorem test_illFormed_thermal :
    (∀ c ∈ ([.thermalRead 0 ⟨List.replicate 11 400, 0⟩,
    .thermalRead 0 ⟨List.replicate 12 32768, 0⟩,
    .thermalRead 0 ⟨List.replicate 12 (-32769), 0⟩] : List Instr), c.wf = false) := by
  decide +kernel

theorem test_wf_scrub_and_latched_read :
    (∀ c ∈ ([.scrubPass 0 0 (some 0x28000000),
    .latchedRead 0 0x40000004] : List Instr), c.wf = true) := by decide

theorem test_illFormed_scrub_and_latched_read :
    (∀ c ∈ ([.scrubPass 0 0 (some 0x100000000),
    .latchedRead 0 0x40000002,
    .latchedRead 0 0x100000000] : List Instr), c.wf = false) := by
  decide +kernel

/-! ## Worked examples of the spec -/

/-- The first encoding example of chapter 8 (the table after R187). -/
theorem test_decode_tap : decodeHyt 0x84201344 = some (16, .tap 0 0 1 6 true false false false true) := by decide

/-- The second encoding example of chapter 8. -/
theorem test_decode_pwr_fall : decodeHyt 0x06C91800 = some (0, .pwr 2 false true 12) := by decide

/-- Lines 12 and 13 of the edge computation of chapter 8. -/
theorem test_decode_pwr_rise_and_pcom : decodeHyt 0x06C41800 = some (0, .pwr 1 false false 12)
    ∧ decodeHyt 0x06E02000 = some (0, .pcom false 4) := by decide

/-- The example of R184: eleven zeros from bit 54 give e = 3. -/
theorem test_exponent : accExp 0x000C0000000000 = 3 := by decide

/-- R184: an accumulator of 0, or of all ones, gives e = 47. -/
theorem test_exponent_ends : accExp 0 = 47 ∧ accExp 0xFFFFFFFFFFFFFF = 47 := by
  decide +kernel

/-- NRM of the example of R184 leaves 0.75. -/
theorem test_normalise :
    (({ acc := tabSet 0 0 0x000C0000000000 [] } : HytS).nrm 0 2).ac 0 = 0x00600000000000 := by decide

/-- SCL in the edge computation of chapter 8: a duty of 0.40 of 16P gives 400,000. -/
theorem test_scale :
    (({ d := tabSet 0 3 0x333333 [], acc := tabSet 0 1 1000000 [] } : HytS).scl 0 3 1).ac 0 = 400000 := by
  decide +kernel

/-- Stores of an accumulator in the example of chapter 7: ties under RND = 0 and RND = 1. -/
theorem test_store_ties :
    roundAcc 0 0x00400000800000 = (0x400000, false) ∧ roundAcc 1 0x00400000800000 = (0x400001, false) := by decide

/-- The store that saturates in the example of chapter 7. -/
theorem test_store_saturates : roundAcc 0 0x01000000000000 = (0x7FFFFF, true) := by decide

/-- The long subtraction of the example of chapter 7, stored under RND = 0. -/
theorem test_error_of_2_25_counts : roundAcc 0 0x00000240000000 = (0x000240, false) := by
  decide +kernel


/-- The front panel in BRINGUP (R40, R457): MODE green, flashing at 4 Hz; the other lights off. -/
theorem test_panel_bringup : State.reset.hw.modeLed = .green .flash4 ∧ State.reset.hw.pairLed = .off
    ∧ State.reset.hw.netLed = .off := by
  decide +kernel

/-- The worked example of chapter 21 (R460): leg 61, sigma-delta input 61, TRIP10 and DCLK5 on J2. -/
theorem test_contacts_of_leg_61 :
    j12 1 .A 14 = some (.pul 61 false) ∧ j12 1 .B 14 = some (.pul 61 true) ∧ j12 1 .D 14 = some (.ena 61 false)
    ∧ j12 1 .E 14 = some (.ena 61 true) ∧ j12 1 .F 14 = some (.gst 61) ∧ j12 1 .G 6 = some (.sdData 61 false)
    ∧ j12 1 .H 6 = some (.sdData 61 true) ∧ j12 1 .D 51 = some (.trip 10) ∧ j12 1 .A 50 = some (.dclk 5 false)
    ∧ j12 1 .B 50 = some (.dclk 5 true) := by decide

/-! ## For every statement, a state and operands that meet its hypotheses -/

theorem witness_stepRunsFrontCommand : ({} : State).pending = [] := by
  decide

theorem witness_everyStepKeepsInvariant : MemoryOk ({} : State) ∧ Settled ({} : State) ∧ step ({} : State) = .next {} :=
  ⟨by decide, by decide, rfl⟩

theorem witness_heldDieIdles :
    let s : State := { ({} : State) with hw := { ({} : Hw) with sys := { released := true, held := true, heldFor := 1 } } }
    s.hw.sys.held = true ∧ Settled s ∧ ofSupervisor (.batchBoundary 15625) = false := by
  decide

theorem witness_referenceAndClockFailure :
    (let s : State := stateOf fun h => { h with clk := { h.clk with fallback := false, unlockedAt := none } }.setReg (ck 0x040) 3;
      (Live s) ∧ (s.hw.bit (ck 0x040) 0 = true) ∧ (s.hw.bit (ck 0x040) 1 = true) ∧ (s.hw.clk.fallback = false)
      ∧ (s.hw.clk.unlockedAt = none)) ∧
    (let s : State := stateOf fun h => { h with clk := { h.clk with fallback := false, unlockedAt := none } }.setReg (ck 0x040) 1;
      let g : Nat := 99999999999; (Live s) ∧ (s.hw.bit (ck 0x040) 0 = true) ∧ (s.hw.bit (ck 0x040) 1 = false)
      ∧ (s.hw.clk.fallback = false) ∧ (s.hw.clk.unlockedAt = none) ∧ (s.hw.mode.toNat ≤ 4)
      ∧ (s.hw.sys.modeGrain < max s.hw.grain g)) ∧
    (let s : State := stateOf fun h => h.setReg (ra pCLK rLOCK) 0; (Live s) ∧ (Unlocked s pCLK)
      ∧ (s.hw.mode = mBRINGUP ∨ s.hw.mode = mCONFIG)) ∧
    (let s : State := stateOf fun h => (h.setReg (ra pCLK rLOCK) 0).setReg (sy 0x040) 3; (Live s) ∧ (Unlocked s pCLK)
      ∧ (s.hw.mode ≠ mBRINGUP) ∧ (s.hw.mode ≠ mCONFIG)) ∧
    (let s : State := ({} : State); let g : Nat := 99999999999; let l : Bool := false; let n : Nat := 4749; (Live s)
      ∧ ((l = true ∧ s.hw.clk.unlockedAt = none) ∨ n < 4750 ∨ 5250 < n) ∧ (s.hw.mode.toNat ≤ 4)
      ∧ (s.hw.sys.modeGrain < max s.hw.grain g)) ∧
    (let s : State := stateOf fun h => h.setReg (sy 0x040) 6; let l : Bool := false; let n : Nat := 5251; (Live s)
      ∧ ((l = true ∧ s.hw.clk.unlockedAt = none) ∨ n < 4750 ∨ 5250 < n) ∧ (6 ≤ s.hw.mode.toNat)) ∧
    (let s : State := stateOf fun h => { h with clk := { h.clk with unlockedAt := some 5 } }; let r : Bool := true;
      (Live s) ∧ (s.hw.clk.unlockedAt.isSome = true)
      ∧ (r = true ∨ s.hw.clk.fallback = true ∨ s.hw.bit (ck 0x040) 0 = false)) ∧
    (let s : State := stateOf fun h => { h with clk := { h.clk with unlockedAt := some 5 } }.setReg (sy 0x040) 5;
      let g : Nat := 99999999999; let u : Nat := 5; (Live s) ∧ (s.hw.clk.unlockedAt = some u)
      ∧ (u + 5000000 ≤ max s.hw.grain g) ∧ (s.hw.mode = mSAFEHALT) ∧ (s.hw.wbuf = [])) := by
  refine ⟨?_, ?_, ?_, ?_, ?_, ?_, ?_, ?_⟩ <;> decide

theorem witness_relockRelease :
    let s : State := stateOf fun h => { h with sys := { h.sys with held := true, heldFor := 1, released := true } }.setReg (sy 0x040) 0;
      (s.hw.sys.heldFor = 1) ∧ (s.hw.sys.held = true) ∧ (s.hw.mode ≠ mHOLDUP) := by
  decide

theorem witness_semaphoreReadAndWrite :
    (let s : State := stateOf fun h => h.setReg (sm 5) 0xFF; let r : Nat := 0x13; let n : Fin 64 := 5; (Live s)
      ∧ (semReq r = true) ∧ (s.hw.f (sm n) 7 0 = 0xFF)) ∧
    (let s : State := stateOf fun h => h.setReg (sm 63) 3; let g : Nat := 0; let r : Nat := 0x1F;
      let n : Fin 64 := 63; (Live s) ∧ (semReq r = true) ∧ (s.hw.f (sm n) 7 0 ≠ 0xFF)
      ∧ (tabGet 0 n.val s.hw.semAt ≠ max s.hw.grain g + 1 ∨ s.hw.f (sm n) 7 0 ≤ r)) ∧
    (let s : State := stateOf fun h => { h with semAt := [(0, h.grain + 1)] }.setReg (sm 0) 3; let g : Nat := 0;
      let r : Nat := 0; let n : Fin 64 := 0; (Live s) ∧ (semReq r = true) ∧ (s.hw.f (sm n) 7 0 ≠ 0xFF)
      ∧ (tabGet 0 n.val s.hw.semAt = max s.hw.grain g + 1) ∧ (r < s.hw.f (sm n) 7 0)) ∧
    (let s : State := stateOf fun h => (h.setReg (sm 5) 0x10).setReg (ra pSEM rLOCK) 0; let r : Nat := 0x10;
      let n : Fin 64 := 5; (Live s) ∧ (semReq r = true) ∧ (Unlocked s pSEM) ∧ (s.hw.f (sm n) 7 0 = r)) ∧
    (let s : State := stateOf fun h => (h.setReg (sm 5) 0x10).setReg (ra pSEM rLOCK) 0; let r : Nat := 0x1F;
      let n : Fin 64 := 5; (Live s) ∧ (semReq r = true) ∧ (Unlocked s pSEM) ∧ (s.hw.f (sm n) 7 0 ≠ r)) ∧
    (let s : State := ({} : State); let r : Nat := 0x14; (Live s) ∧ (semReq r = false)) ∧
    (let s : State := ({} : State); (Live s)) ∧
    (let s : State := ({} : State); (Live s)) ∧
    (let s : State := ({} : State); (Live s)) ∧
    (let s : State := stateOf fun h => (h.setReg (sm 5) 0x10).setReg (ra pSEM rLOCK) 0; (Live s) ∧ (Unlocked s pSEM)) := by
  refine ⟨?_, ?_, ?_, ?_, ?_, ?_, ?_, ?_, ?_, ?_⟩ <;> decide

theorem witness_batchBoundaryTimeBase :
    let s : State := stateOf fun h => { h with clk := { h.clk with stepped := true, nextB := 15625 }, pair := { h.pair with behind := none } }.setBit (ra pCLK rCOMMIT) 16 false;
      let g : Nat := 15625; (Live s) ∧ (s.hw.clk.nextB ≤ s.hw.ctGrains (max s.hw.grain g))
      ∧ (s.hw.clk.stepped = true) ∧ (s.hw.pending pCLK = false) ∧ (s.hw.pair.behind = none) := by
  decide

set_option maxRecDepth 100000 in
theorem witness_controlTimeStep :
    let s : State := stateOf fun h => ({ h with clk := { h.clk with stepped := false, nextB := 15625 }, pair := { h.pair with behind := none }, ntm := { h.ntm with want := some (true, 0) } }.each (List.range 96) fun h n => h.setBit (lg n rCTRL) 0 false) |> fun h => [false,true].foldl (fun h b => h.setF (dmr b 0) 9 8 0) h;
      let g : Nat := 15625; (Live s) ∧ (s.hw.clk.nextB ≤ s.hw.ctGrains (max s.hw.grain g))
      ∧ (s.hw.clk.stepped = false) ∧ ((s.hw.ntm.want.map (·.1)) = some true) ∧ (s.hw.anyEnabled = false)
      ∧ (s.hw.domLocked false = false) ∧ (s.hw.domLocked true = false) ∧ (s.hw.pair.behind = none) := by
  decide +kernel

set_option maxRecDepth 100000 in
theorem witness_batchChange :
    (let s : State := stateOf fun h => ({ h with grain := 9, clk := { h.clk with ctBase := 999999998 * 2 ^ 32, ctBaseGrain := 9, ctInc := 0x200000000, past := [] }, pend := [(ck 0x048, 31250)] }.setBit (ra pCLK rCOMMIT) 16 true).each (List.range 96) fun h n => h.setBit (lg n rCTRL) 0 false;
      let g : Nat := 10; (Live s) ∧ (s.hw.pending pCLK = true)
      ∧ ((tabGet {} pCLK s.hw.goMark).cycle ≠ max s.hw.grain g / 5) ∧ ((s.hw.pend.map (·.1)).Nodup)
      ∧ (s.hw.anyEnabled = false) ∧ ((s.hw.at g).wholeSecond = true)) ∧
    (let s : State := stateOf fun h => (h.setBit (ra pCLK rCOMMIT) 16 true).setBit (lg 7 rCTRL) 0 true; (Live s)
      ∧ (s.hw.pending pCLK = true) ∧ (s.hw.anyEnabled = true)) := by
  refine ⟨?_, ?_⟩ <;> decide +kernel

theorem witness_commitOfAPage :
    (let s : State := stateOf fun h => { h with shadow := [(ra pNTM 0x10C, 5)] }.each [pNTM] fun h p => h.setReg (ra p rLOCK) 0;
      let page : Fin 512 := 0x00C; let a : Nat := 0xC10C; (Live s) ∧ (Unlocked s page) ∧ (page.val ≠ pFLT)
      ∧ ((pageBlock page).1 ≠ .none) ∧ (commitMirrored page = false ∨ s.hw.mirrorOn = false)
      ∧ ((pageBlock page).1 ≠ .leg) ∧ ((pageBlock page).1 ≠ .car) ∧ (s.hw.setOk page = true)
      ∧ ((s.hw.shadow.map (·.1)).Nodup) ∧ (inPage page a = true)) ∧
    (let s : State := stateOf fun h => (h.setShd (ck 0x048) 15626).setReg (ra pCLK rLOCK) 0; let page : Fin 512 := 1;
      (Live s) ∧ (Unlocked s page) ∧ (page.val ≠ pFLT) ∧ ((pageBlock page).1 ≠ .none)
      ∧ (commitMirrored page = false ∨ s.hw.mirrorOn = false) ∧ ((pageBlock page).1 ≠ .leg)
      ∧ ((pageBlock page).1 ≠ .car) ∧ (s.hw.setOk page = false)) ∧
    (let s : State := stateOf fun h => (h.setShd (ck 0x048) 31250).setReg (ra pCLK rLOCK) 0; let page : Fin 512 := 1;
      let a : Nat := 0x1048; (Live s) ∧ (Unlocked s page) ∧ (page.val ≠ pFLT) ∧ ((pageBlock page).1 ≠ .none)
      ∧ (commitMirrored page = false ∨ s.hw.mirrorOn = false) ∧ ((s.hw.shadow.map (·.1)).Nodup)
      ∧ ((s.hw.regs.map (·.1)).Nodup) ∧ (inPage page a = true) ∧ (isRws a = true)) := by
  refine ⟨?_, ?_, ?_⟩ <;> decide

theorem witness_softResetOfAPage :
    (let s : State := stateOf fun h => ((h.setReg (ra pACQ 0x054) 7).setShd (ra pACQ 0x04C) 9).setReg (ra pACQ rLOCK) 0;
      let page : Fin 512 := 0x010; let off : Nat := 0x054; (Live s) ∧ (Unlocked s page) ∧ (page.val ≠ pFLT)
      ∧ (off < 0x1000) ∧ (s.hw.resetRefused page = false)
      ∧ ((pageBlock page).1 ∈ [.sem, .prf, .lsh, .stp, .nsw, .can, .acq, .hyt, .fio, .pwr]) ∧ (off ≠ rLOCK)
      ∧ ((pageBlock page).1 ≠ .fio ∨ off < 0x0AC)) ∧
    (let s : State := stateOf fun h => h.setReg (ra pTHM rLOCK) 0; let page : Fin 512 := 3; let off : Nat := 0x074;
      (Live s) ∧ (Unlocked s page) ∧ (page.val ≠ pFLT) ∧ (off < 0x1000) ∧ (s.hw.resetRefused page = true)
      ∧ (page.val ≠ pSYS)) := by
  refine ⟨?_, ?_⟩ <;> decide

theorem witness_lockAndLockedWrites :
    (let s : State := ({} : State); let page : Fin 512 := 1; (Live s) ∧ ((pageBlock page).1 ≠ .none)) ∧
    (let s : State := stateOf fun h => { h with grain := 1284, lockSeq := [(9, some ⟨0x10, 0⟩)] };
      let g : Nat := 1284; let r : Nat := 0x10; let page : Fin 512 := 9; let c : Nat := 0; (Live s)
      ∧ ((pageBlock page).1 ≠ .none) ∧ (tabGet none page.val s.hw.lockSeq = some ⟨r, c⟩)
      ∧ (max s.hw.grain g / 5 ≤ c + 256)) ∧
    (let s : State := stateOf fun h => { h with lockSeq := [(9, some ⟨0x10, 0⟩)] }; let g : Nat := 0;
      let r : Nat := 0x11; let page : Fin 512 := 9; let v : Word := 0xA5A5; (Live s) ∧ ((pageBlock page).1 ≠ .none)
      ∧ (v ≠ 0x5A5A)
      ∧ (v ≠ 0xA5A5 ∨ tabGet none page.val s.hw.lockSeq = none ∨ (tabGet none page.val s.hw.lockSeq).any (fun q => q.req != r || decide (q.cycle + 256 < max s.hw.grain g / 5)) = true)) ∧
    (let s : State := stateOf fun h => h.setReg (ra 9 rLOCK) 1; let g : Nat := 0; let page : Fin 512 := 9;
      let off : Nat := 0x40; let b : Nat := 0x40; (Live s) ∧ ((pageBlock page).1 ≠ .none) ∧ (Alone s g)
      ∧ (s.hw.bit (ra page rLOCK) 0 = true) ∧ (off % 4 = 0) ∧ (off < 0x1000) ∧ (off ≠ rEVT) ∧ (off ≠ rLOCK)
      ∧ (ra page b ∉ [sy 0x054, sy rEVT, sy rEVT_TS, fl 0x048, fl rEVT, fl rEVT_TS])) := by
  refine ⟨?_, ?_, ?_, ?_⟩ <;> decide

theorem witness_eventClear :
    (let s : State := stateOf fun h => (h.setReg (ra 9 rEVT) 3).at (h.grain + 5); let g : Nat := 5;
      let page : Fin 512 := 9; (Live s) ∧ (page.val ≠ pFLT)
      ∧ ((tabGet {} page.val s.hw.evtCyc).cycle ≠ max s.hw.grain g / 5)) ∧
    (let s : State := stateOf fun h => h.evt 9 1; let g : Nat := 0; let page : Fin 512 := 9; (Live s)
      ∧ (page.val ≠ pFLT) ∧ ((tabGet {} page.val s.hw.evtCyc).cycle = max s.hw.grain g / 5)) := by
  refine ⟨?_, ?_⟩ <;> decide

theorem witness_enableAndReady :
    (let s : State := stateOf fun h => h.setReg (ra 9 rLOCK) 0; let page : Fin 512 := 9; let off : Nat := 0x40;
      (Live s) ∧ ((pageBlock page).1 ≠ .none) ∧ (Unlocked s page)
      ∧ ((pageBlock page).1 ∉ [.leg, .car, .sdm, .fb, .can, .hyt, .acq, .flt]) ∧ (off < 0x1000) ∧ (off ≠ rCTRL)) ∧
    (let s : State := ({} : State); let page : Fin 512 := 9; (Live s) ∧ ((pageBlock page).1 ≠ .none)) := by
  refine ⟨?_, ?_⟩ <;> decide

theorem witness_fabricAccess :
    (let s : State := stateOf fun h => h.setReg (ra 9 rLOCK) 0; let g : Nat := 0; let page : Fin 512 := 9; (Live s)
      ∧ (Alone s g) ∧ (Unlocked s page) ∧ ((pageBlock page).1 ≠ .none)
      ∧ (tabGet 0 (ra page rEVT_EN) s.hw.portCyc = 0)) ∧
    (let s : State := stateOf fun h => h.setReg (ra pTHM rLOCK) 0; let g : Nat := 0; let page : Fin 512 := 3;
      let off : Nat := 0x074; let row : RegRow := (rowAt 3 0x074).getD ⟨0, 0, 0, 0, 0, 0, 0⟩; (Live s) ∧ (Alone s g)
      ∧ (Unlocked s page) ∧ ((pageBlock page).1 ∈ [.car, .leg, .stp, .thm]) ∧ (0x040 ≤ off) ∧ (off < 0x1000)
      ∧ (off % 4 = 0) ∧ (rowAt page off = some row) ∧ (row.w1c = 0) ∧ (tabGet 0 (ra page off) s.hw.portCyc = 0)) ∧
    (let s : State := ({} : State); let g : Nat := 0; let addr : Nat := 0x40001044; let n : Nat := 2;
      let b : Nat := 0x1044; (Live s) ∧ (Alone s g) ∧ (n = 1 ∨ n = 2 ∨ (n = 4 ∧ addr % 4 ≠ 0)) ∧ (0x40000000 ≤ addr)
      ∧ (addr < 0x40200000) ∧ (0x1000 ≤ b) ∧ (s.hw.wbuf = []) ∧ (s.hw.rst = 0)) ∧
    (let s : State := stateOf fun h => h.setReg (ra pCLK rLOCK) 0; let g : Nat := 0; (Live s) ∧ (Alone s g)
      ∧ (Unlocked s pCLK) ∧ (tabGet 0 (ck 0x048) s.hw.portCyc = 0)) ∧
    (let s : State := ({} : State); let g : Nat := 0; let addr : Nat := 0x1FFFFC; let n : Nat := 4;
      let b : Nat := 0x1FFFFF; (Live s) ∧ (Alone s g) ∧ (n = 1 ∨ n = 2 ∨ n = 4) ∧ (addr + n ≤ 0x200000)
      ∧ (s.hw.wbuf = []) ∧ (s.hw.rst = 0) ∧ (MemoryOk s) ∧ (b < 0x50020000)) ∧
    (let s : State := ({} : State); let g : Nat := 0; let addr : Nat := 0x80000000; let n : Nat := 1;
      let b : Nat := 0; (Live s) ∧ (Alone s g) ∧ (n = 1 ∨ n = 2 ∨ n = 4) ∧ (0x80000000 ≤ addr) ∧ (s.hw.wbuf = [])
      ∧ (s.hw.rst = 0) ∧ (b < 0x50020000)) ∧
    (let s : State := ({} : State); (Live s)) := by
  refine ⟨?_, ?_, ?_, ?_, ?_, ?_, ?_⟩ <;> decide

theorem witness_modeRequestsAtBoundary :
    let h : Hw := ({ ({} : Hw) with grain := 15625, sys := { modeReq := some mCONFIG } }).setBit (sy rREADY) 2 true
    h.sys.modeReq = some mCONFIG ∧ h.sys.modeGrain ≠ h.grain ∧ h.paired = false ∧ h.bit (sy rREADY) 2 = true ∧
      h.mode = mBRINGUP := by
  decide

theorem witness_modeRequestsAtBoundary_unlisted :
    let h : Hw := { ({} : Hw) with grain := 15625, sys := { modeReq := some mSHADOW } }
    h.sys.modeReq = some mSHADOW ∧ h.sys.modeGrain ≠ h.grain ∧ h.paired = false ∧ mSHADOW ≠ h.mode := by
  decide

theorem witness_modeRequestsAtBoundary_current :
    let h : Hw := { ({} : Hw) with grain := 15625, sys := { modeReq := some mBRINGUP } }
    h.sys.modeReq = some mBRINGUP ∧ h.sys.modeGrain ≠ h.grain ∧ h.paired = false ∧ mBRINGUP = h.mode := by
  decide

theorem witness_modeRequestAndRelease :
    (let s : State := stateOf fun h => h.setReg (ra pSYS rLOCK) 0; (Live s) ∧ (Unlocked s pSYS)) ∧
    (let s : State := stateOf fun h => { h with sys := { h.sys with released := false } };
      let p : PowerUp := ⟨19200, 18500, 50000, 20000, false, 3⟩; (s.hw.sys.released = false) ∧ (50000 ≤ p.seatedUs)
      ∧ (20000 ≤ p.supplyUs) ∧ (19200 ≤ p.vlogMv) ∧ (18500 ≤ p.vholdMv) ∧ (p.vlogMv < 65536) ∧ (p.vholdMv < 65536)) := by
  refine ⟨?_, ?_⟩ <;> decide

set_option maxRecDepth 100000 in
theorem witness_bootAndDebugImage :
    (let s : State := stateWith (fun h => ({ h with nv := { keyHash := [0xd875db7def232236aec738c6b0bb3e80142f5d0fd8f4df24fed6eef5cbb50d9f] }, sys := { h.sys with faultLed := false } }.setReg (sy 0x040) 0).setBit (sy rREADY) 2 false) (fun m => image m 0x60000000);
      (Live s) ∧ (s.hw.mode = mBRINGUP) ∧ (s.hw.bit (sy rREADY) 2 = false) ∧ (s.hw.sys.faultLed = false)
      ∧ (s.hw.headerReject s.mem 0x60000000 0x1000000 = 0)
      ∧ (s.hw.sigOk s.mem 0x60000000 (s.hw.copySections s.mem 0x60000000).2 = true)) ∧
    (let s : State := stateWith (fun h => ({ h with nv := { keyHash := [0xd875db7def232236aec738c6b0bb3e80142f5d0fd8f4df24fed6eef5cbb50d9f] }, sys := { h.sys with faultLed := false } }.setReg (sy 0x040) 0).setBit (sy rREADY) 2 false) (fun m => image m 0x61000000);
      (Live s) ∧ (s.hw.mode = mBRINGUP) ∧ (s.hw.bit (sy rREADY) 2 = false) ∧ (s.hw.sys.faultLed = false)
      ∧ (s.hw.headerReject s.mem 0x60000000 0x1000000 ≠ 0) ∧ (s.hw.headerReject s.mem 0x61000000 0x1000000 = 0)
      ∧ (s.hw.sigOk s.mem 0x61000000 (s.hw.copySections s.mem 0x61000000).2 = true)) ∧
    (let s : State := stateOf fun h => ({ h with sys := { h.sys with faultLed := false } }.setReg (sy 0x040) 0).setBit (sy rREADY) 2 false;
      (Live s) ∧ (s.hw.mode = mBRINGUP) ∧ (s.hw.bit (sy rREADY) 2 = false) ∧ (s.hw.sys.faultLed = false)
      ∧ (s.hw.headerReject s.mem 0x60000000 0x1000000 ≠ 0) ∧ (s.hw.headerReject s.mem 0x61000000 0x1000000 ≠ 0)) ∧
    (let s : State := stateWith (fun h => (({ h with nv := { keyHash := [0xd875db7def232236aec738c6b0bb3e80142f5d0fd8f4df24fed6eef5cbb50d9f] }, sys := { h.sys with faultLed := true } }).setReg (sy 0x040) 0).setBit (sy rREADY) 2 false) (fun m => image m 0x00100000);
      (Live s) ∧ (s.hw.mode = mBRINGUP) ∧ (s.hw.bit (sy rREADY) 2 = false) ∧ (s.hw.sys.faultLed = true)
      ∧ (s.hw.headerReject s.mem 0x00100000 0x100000 = 0)
      ∧ (s.hw.sigOk s.mem 0x00100000 (s.hw.copySections s.mem 0x00100000).2 = true)) ∧
    (let s : State := stateOf fun h => (({ h with sys := { h.sys with faultLed := true } }).setReg (sy 0x040) 0).setBit (sy rREADY) 2 false;
      (Live s) ∧ (s.hw.mode = mBRINGUP) ∧ (s.hw.bit (sy rREADY) 2 = false) ∧ (s.hw.sys.faultLed = true)
      ∧ (s.hw.headerOk s.mem 0x00100000 = false)) ∧
    (let s : State := stateOf fun h => (({ h with sys := { h.sys with faultLed := false } }).setReg (sy 0x040) 0).setBit (sy rREADY) 2 false;
      (Live s) ∧ (s.hw.mode = mBRINGUP) ∧ (s.hw.bit (sy rREADY) 2 = false) ∧ (s.hw.sys.faultLed = false)
      ∧ (s.hw.wbuf = [])) := by
  refine ⟨?_, ?_, ?_, ?_, ?_, ?_⟩ <;> decide +kernel

theorem witness_securityVersionAndFlash :
    (let s : State := stateOf fun h => (h.setBit (sy rREADY) 2 true).setReg (ra pSYS rLOCK) 0; (Live s)
      ∧ (Unlocked s pSYS) ∧ (s.hw.bit (sy rREADY) 2 = true)) ∧
    (let s : State := stateOf fun h => ((h.setBit (sy 0x060) 31 false).setReg (sy 0x058) 0x1010000).setReg (ra pSYS rLOCK) 0;
      (Live s) ∧ (Unlocked s pSYS) ∧ (s.hw.bit (sy 0x060) 31 = false) ∧ (s.hw.f (sy 0x058) 24 0 % 0x10000 = 0)
      ∧ (s.hw.bit (sy 0x044) 1 = true ∨ s.hw.f (sy 0x058) 24 0 / 0x1000000 ≠ s.hw.f (sy 0x044) 0 0)) ∧
    (let s : State := stateOf fun h => ((h.setBit (sy 0x060) 31 false).setReg (sy 0x058) 0x1000100).setReg (ra pSYS rLOCK) 0;
      (Live s) ∧ (Unlocked s pSYS) ∧ (s.hw.bit (sy 0x060) 31 = false) ∧ (s.hw.f (sy 0x058) 24 0 % 0x100 = 0)
      ∧ (s.hw.bit (sy 0x044) 1 = true ∨ s.hw.f (sy 0x058) 24 0 / 0x1000000 ≠ s.hw.f (sy 0x044) 0 0)) ∧
    (let s : State := stateOf fun h => (h.setReg (sy 0x058) 0x1000101).setReg (ra pSYS rLOCK) 0; (Live s)
      ∧ (Unlocked s pSYS)
      ∧ (s.hw.bit (sy 0x060) 31 = true ∨ s.hw.f (sy 0x058) 24 0 % 0x10000 ≠ 0 ∨ (s.hw.bit (sy 0x044) 1 = false
      ∧ s.hw.f (sy 0x058) 24 0 / 0x1000000 = s.hw.f (sy 0x044) 0 0))) ∧
    (let s : State := stateOf fun h => (h.setReg (sy 0x058) 0x1000101).setReg (ra pSYS rLOCK) 0; (Live s)
      ∧ (Unlocked s pSYS)
      ∧ (s.hw.bit (sy 0x060) 31 = true ∨ s.hw.f (sy 0x058) 24 0 % 0x100 ≠ 0 ∨ (s.hw.bit (sy 0x044) 1 = false
      ∧ s.hw.f (sy 0x058) 24 0 / 0x1000000 = s.hw.f (sy 0x044) 0 0))) ∧
    (let s : State := stateOf fun h => { h with sys := { h.sys with flashOp := some (2, 0x1000100, 0x40) } };
      let a : Nat := 0x1000100; let src : Nat := 0x40; (Live s) ∧ (s.hw.sys.flashOp = some (2, a, src))
      ∧ (s.hw.wbuf = []) ∧ (s.hw.rst = 0)) ∧
    (let s : State := stateOf fun h => { h with sys := { h.sys with flashOp := some (1, 0x1000000, 0) } };
      let a : Nat := 0x1000000; let src : Nat := 0; (Live s) ∧ (s.hw.sys.flashOp = some (1, a, src))
      ∧ (s.hw.wbuf = []) ∧ (s.hw.rst = 0)) := by
  refine ⟨?_, ?_, ?_, ?_, ?_, ?_, ?_⟩ <;> decide

theorem witness_boundaryScan :
    (let s : State := stateOf fun h => h.setReg (sy 0x040) 1; let j : JtagInstr := .extest; (Live s)
      ∧ (j = .bypass ∨ j = .other ∨ s.hw.mode = mBRINGUP ∨ s.hw.mode = mCONFIG)) ∧
    (let s : State := stateOf fun h => h.setReg (sy 0x040) 3; let j : JtagInstr := .intest; (Live s)
      ∧ (j = .extest ∨ j = .clamp ∨ j = .intest) ∧ (s.hw.mode ≠ mBRINGUP) ∧ (s.hw.mode ≠ mCONFIG)) := by
  refine ⟨?_, ?_⟩ <;> decide

theorem witness_coreHalts :
    (let s : State := stateOf fun h => { h with sys := { h.sys with acHalted := 0 } }.setBit (lg 95 rCTRL) 2 true;
      (Live s) ∧ (s.hw.sys.acHalted = 0)) ∧
    (let s : State := ({} : State); (Live s)) ∧
    (let s : State := stateOf fun h => h.setReg (sy 0x040) 3; let g : Nat := 99999999999; (Live s)
      ∧ (1 ≤ s.hw.mode.toNat) ∧ (s.hw.mode.toNat ≤ 4) ∧ (s.hw.sys.modeGrain < max s.hw.grain g)) := by
  refine ⟨?_, ?_, ?_⟩ <;> decide

theorem witness_legEnableAndDisable :
    (let s : State := stateOf fun h => let h : Hw := { h with sys := { h.sys with acHalted := 0 }, gdp := {}, legs := [(5, { running := true })], stp := [] };
      let h : Hw := (h.setReg (sy 0x040) 3).setReg (cr 1 0x044) 2;
      let h : Hw := (h.setReg (cr 0 0x044) 0).setReg (cr 1 0x04C) 15625;
      let h : Hw := (h.setReg (ra pGDP (0x600 + 20)) 0).setReg (ra pGDP 0x058) 0;
      let h : Hw := h.setReg (ra (pLEG 5) rLOCK) 0; h; let n : Fin 96 := 5; (Live s) ∧ (Unlocked s (pLEG n))
      ∧ (s.hw.mode = mRUN ∨ s.hw.mode = mSHADOW) ∧ ((s.hw.legAxis n).any s.hw.carValid = true)
      ∧ (s.hw.forced n = false)) ∧
    (let s : State := ({} : State); let n : Fin 96 := 95; (Live s) ∧ (Unlocked s (pLEG n)) ∧ ((s.hw.mode ≠ mRUN
      ∧ s.hw.mode ≠ mSHADOW) ∨ s.hw.legAxis n = none ∨ (s.hw.legAxis n).any (fun c => !s.hw.carValid c) = true ∨ s.hw.forced n = true)) ∧
    (let s : State := ({} : State); let n : Fin 96 := 5; (Live s) ∧ (Unlocked s (pLEG n))) ∧
    (let s : State := ({} : State); let g : Nat := 99999999999; let n : Fin 96 := 5; (Live s) ∧ (Unlocked s (pLEG n))
      ∧ ((tabGet {} (cntKey (lg n 0x05C) 0) s.hw.cntCyc).cycle ≠ max s.hw.grain g / 5)
      ∧ ((tabGet {} (cntKey (lg n 0x05C) 16) s.hw.cntCyc).cycle ≠ max s.hw.grain g / 5)
      ∧ ((tabGet {} (cntKey (lg n 0x060) 0) s.hw.cntCyc).cycle ≠ max s.hw.grain g / 5)) := by
  refine ⟨?_, ?_, ?_, ?_⟩ <;> decide

theorem witness_bridgeReloadAndWrap :
    (let s : State := stateOf fun h => let h : Hw := { h with grain := 50, pend := [(lg 5 0x040, 100)], goMark := [], cars := [] };
      let h : Hw := h.setReg (cr 0 0x044) 0;
      let h : Hw := (h.setReg (cr 1 0x044) 2).setBit (ra (pLEG 5) rCOMMIT) 16 true; h; let g : Nat := 99;
      let b : Fin 32 := 1; let n : Fin 96 := 5; let c : Nat := 1; let off : Nat := 0x040; (Live s)
      ∧ (n.val / 3 = b.val) ∧ (s.hw.legAxis n = some c) ∧ (((s.hw.at g).carDue c).cfg = false)
      ∧ (s.hw.takes (pLEG n) = true) ∧ ((tabGet {} (pLEG n) s.hw.goMark).cycle ≠ max s.hw.grain g / 5)
      ∧ (s.hw.pending (pLEG n) = true) ∧ ((s.hw.pend.map (·.1)).Nodup)
      ∧ (off ∈ [0x040, 0x044, 0x048, 0x04C, 0x050, 0x054, 0x058])) ∧
    (let s : State := stateOf fun h => let h : Hw := { h with sys := { h.sys with acHalted := 0 }, gdp := {}, legs := [(5, { running := true })], stp := [] };
      let h : Hw := (h.setReg (sy 0x040) 3).setReg (cr 1 0x044) 2;
      let h : Hw := (h.setReg (cr 0 0x044) 0).setReg (cr 1 0x04C) 15625;
      let h : Hw := (h.setReg (ra pGDP (0x600 + 20)) 0).setReg (ra pGDP 0x058) 0;
      let h : Hw := h.setReg (ra (pLEG 5) rLOCK) 0; let h : Hw := h.setBit (lg 5 rCTRL) 0 true;
      let h : Hw := { h with legs := [] }; h; let g : Nat := 0; let b : Fin 32 := 1; let n : Fin 96 := 5;
      let c : Nat := 1; (Live s) ∧ (n.val / 3 = b.val) ∧ (s.hw.legAxis n = some c)
      ∧ (bitOf ((s.hw.at g).carDue c).waiting b = false) ∧ (s.hw.legEnabled n = true) ∧ (s.hw.legMayEnable n = true)
      ∧ ((s.hw.leg n).running = false)) ∧
    (let s : State := stateOf fun h => let h : Hw := { h with sys := { h.sys with acHalted := 0 }, gdp := {}, legs := [(5, { running := true })], stp := [] };
      let h : Hw := (h.setReg (sy 0x040) 3).setReg (cr 1 0x044) 2;
      let h : Hw := (h.setReg (cr 0 0x044) 0).setReg (cr 1 0x04C) 15625;
      let h : Hw := (h.setReg (ra pGDP (0x600 + 20)) 0).setReg (ra pGDP 0x058) 0;
      let h : Hw := h.setReg (ra (pLEG 5) rLOCK) 0; let h : Hw := h.setReg (lg 5 0x054) 100;
      let h : Hw := { h with legs := [(5, { running := true, pul := true })] }; h; let g : Nat := 100000;
      let b : Fin 32 := 1; let n : Fin 96 := 5; (Live s) ∧ (n.val / 3 = b.val) ∧ ((s.hw.legAxis n).isSome = true)
      ∧ ((s.hw.leg n).running = true) ∧ ((s.hw.leg n).pul = true) ∧ (s.hw.forced n = false)
      ∧ (s.hw.f (lg n 0x054) 27 0 ≠ 0)
      ∧ (s.hw.f (lg n 0x054) 27 0 < s.hw.onTime n ((s.hw.at g).bridgeFine b 0 / 32 - (s.hw.f (lg n 0x04C) 31 16 + 31) / 32))) ∧
    (let s : State := stateOf fun h => let h : Hw := h.setReg (lg 5 0x054) 100;
      let h : Hw := { h with legs := [(5, { running := true, pul := true })] }; h; let g : Nat := 99999999;
      let b : Fin 32 := 1; let n : Fin 96 := 5; (Live s) ∧ (n.val / 3 = b.val) ∧ (s.hw.f (lg n 0x054) 27 0 ≠ 0)
      ∧ (s.hw.f (lg n 0x054) 27 0 < s.hw.onTime n (max s.hw.grain g))) := by
  refine ⟨?_, ?_, ?_, ?_⟩ <;> decide

theorem witness_pulEdges :
    (let s : State := stateOf fun h => let h : Hw := { h with sys := { h.sys with acHalted := 0 }, gdp := {}, legs := [(5, { running := true })], stp := [] };
      let h : Hw := (h.setReg (sy 0x040) 3).setReg (cr 1 0x044) 2;
      let h : Hw := (h.setReg (cr 0 0x044) 0).setReg (cr 1 0x04C) 15625;
      let h : Hw := (h.setReg (ra pGDP (0x600 + 20)) 0).setReg (ra pGDP 0x058) 0;
      let h : Hw := h.setReg (ra (pLEG 5) rLOCK) 0; let h : Hw := h.setReg (cr 1 0x040) 1;
      let h : Hw := (h.setReg (lg 5 0x040) 32000).setReg (lg 5 0x044) 64000; h; let g : Nat := 1000;
      let n : Fin 96 := 5; let rise : Bool := true; let c : Nat := 1; let r : Nat := 32000; let q : Nat := 64000;
      (Live s) ∧ (s.hw.legAxis n = some c) ∧ ((s.hw.leg n).running = true) ∧ (s.hw.forced n = false)
      ∧ (s.hw.period c ≠ 0) ∧ ((s.hw.leg n).dropPair ≠ some (s.hw.bridge (n.val / 3)).win)
      ∧ ((s.hw.leg n).pul ≠ rise)
      ∧ ((s.hw.leg n).refRise ≤ min (s.hw.bridge (n.val / 3)).start (32 * max s.hw.grain g))
      ∧ (rise = true ∨ s.hw.cmpPos n rise ≠ 0 ∨ s.hw.f (lg n 0x054) 27 0 = 0) ∧ (s.hw.cmpPlace c n rise = .inside r)
      ∧ (s.hw.cmpPlace c n (!rise) = .beyond ∨ (s.hw.cmpPlace c n (!rise) = .inside q ∧ (q < r ∨ (r < q
      ∧ r + s.hw.f (lg n 0x050) 15 0 ≤ q))))) ∧
    (let s : State := stateOf fun h => let h : Hw := { h with sys := { h.sys with acHalted := 0 }, gdp := {}, legs := [(5, { running := true })], stp := [] };
      let h : Hw := (h.setReg (sy 0x040) 3).setReg (cr 1 0x044) 2;
      let h : Hw := (h.setReg (cr 0 0x044) 0).setReg (cr 1 0x04C) 15625;
      let h : Hw := (h.setReg (ra pGDP (0x600 + 20)) 0).setReg (ra pGDP 0x058) 0;
      let h : Hw := h.setReg (ra (pLEG 5) rLOCK) 0; let h : Hw := h.setReg (cr 1 0x040) 1;
      let h : Hw := (h.setReg (lg 5 0x040) 32000).setReg (lg 5 0x044) 32000; h; let g : Nat := 1000;
      let n : Fin 96 := 5; let rise : Bool := true; let c : Nat := 1; let r : Nat := 32000; let q : Nat := 32000;
      (Live s) ∧ (s.hw.legAxis n = some c) ∧ ((s.hw.leg n).running = true) ∧ (s.hw.forced n = false)
      ∧ (s.hw.period c ≠ 0) ∧ ((s.hw.leg n).dropPair ≠ some (s.hw.bridge (n.val / 3)).win)
      ∧ ((s.hw.leg n).pul ≠ rise)
      ∧ ((s.hw.leg n).refRise ≤ min (s.hw.bridge (n.val / 3)).start (32 * max s.hw.grain g))
      ∧ (rise = true ∨ s.hw.cmpPos n rise ≠ 0 ∨ s.hw.f (lg n 0x054) 27 0 = 0) ∧ (s.hw.cmpPlace c n rise = .inside r)
      ∧ (s.hw.cmpPlace c n (!rise) = .inside q) ∧ (r = q ∨ (r < q ∧ q < r + s.hw.f (lg n 0x050) 15 0))) ∧
    (let s : State := stateOf fun h => let h : Hw := { h with sys := { h.sys with acHalted := 0 }, gdp := {}, legs := [(5, { running := true })], stp := [] };
      let h : Hw := (h.setReg (sy 0x040) 3).setReg (cr 1 0x044) 2;
      let h : Hw := (h.setReg (cr 0 0x044) 0).setReg (cr 1 0x04C) 15625;
      let h : Hw := (h.setReg (ra pGDP (0x600 + 20)) 0).setReg (ra pGDP 0x058) 0;
      let h : Hw := h.setReg (ra (pLEG 5) rLOCK) 0; let h : Hw := h.setReg (cr 1 0x040) 0x201;
      let h : Hw := (h.setReg (lg 5 0x040) 2000).setReg (lg 5 0x044) 1000;
      let h : Hw := h.setBridge 1 { mid := true }; h; let g : Nat := 1000; let n : Fin 96 := 5;
      let rise : Bool := true; let c : Nat := 1; (Live s) ∧ (s.hw.legAxis n = some c) ∧ ((s.hw.leg n).running = true)
      ∧ (s.hw.forced n = false) ∧ (s.hw.period c ≠ 0) ∧ ((s.hw.leg n).dropPair ≠ some (s.hw.bridge (n.val / 3)).win)
      ∧ ((s.hw.leg n).pul ≠ rise)
      ∧ ((s.hw.leg n).refRise ≤ min (s.hw.bridge (n.val / 3)).start (32 * max s.hw.grain g))
      ∧ (rise = true ∨ s.hw.cmpPos n rise ≠ 0 ∨ s.hw.f (lg n 0x054) 27 0 = 0) ∧ (s.hw.cmpPlace c n rise = .before)
      ∧ (s.hw.cmpPlace c n (!rise) = .before) ∧ (s.hw.cmpPos n (!rise) < s.hw.cmpPos n rise)) ∧
    (let s : State := stateOf fun h => let h : Hw := { h with sys := { h.sys with acHalted := 0 }, gdp := {}, legs := [(5, { running := true })], stp := [] };
      let h : Hw := (h.setReg (sy 0x040) 3).setReg (cr 1 0x044) 2;
      let h : Hw := (h.setReg (cr 0 0x044) 0).setReg (cr 1 0x04C) 15625;
      let h : Hw := (h.setReg (ra pGDP (0x600 + 20)) 0).setReg (ra pGDP 0x058) 0;
      let h : Hw := h.setReg (ra (pLEG 5) rLOCK) 0; let h : Hw := h.setReg (cr 1 0x040) 0x201;
      let h : Hw := (h.setReg (lg 5 0x040) 1000).setReg (lg 5 0x044) 2000;
      let h : Hw := h.setBridge 1 { mid := true }; h; let g : Nat := 1000; let n : Fin 96 := 5;
      let rise : Bool := true; let c : Nat := 1; (Live s) ∧ (s.hw.legAxis n = some c) ∧ ((s.hw.leg n).running = true)
      ∧ (s.hw.forced n = false) ∧ (s.hw.period c ≠ 0) ∧ ((s.hw.leg n).dropPair ≠ some (s.hw.bridge (n.val / 3)).win)
      ∧ ((s.hw.leg n).refRise ≤ min (s.hw.bridge (n.val / 3)).start (32 * max s.hw.grain g))
      ∧ (rise = true ∨ s.hw.cmpPos n rise ≠ 0 ∨ s.hw.f (lg n 0x054) 27 0 = 0) ∧ (s.hw.cmpPlace c n rise = .before)
      ∧ (s.hw.cmpPlace c n (!rise) = .before) ∧ (s.hw.cmpPos n rise < s.hw.cmpPos n (!rise))) ∧
    (let s : State := stateOf fun h => let h : Hw := { h with sys := { h.sys with acHalted := 0 }, gdp := {}, legs := [(5, { running := true })], stp := [] };
      let h : Hw := (h.setReg (sy 0x040) 3).setReg (cr 1 0x044) 2;
      let h : Hw := (h.setReg (cr 0 0x044) 0).setReg (cr 1 0x04C) 15625;
      let h : Hw := (h.setReg (ra pGDP (0x600 + 20)) 0).setReg (ra pGDP 0x058) 0;
      let h : Hw := h.setReg (ra (pLEG 5) rLOCK) 0;
      let h : Hw := (h.setReg (cr 1 0x04C) 500).setReg (lg 5 0x040) 16000; h; let n : Fin 96 := 5;
      let rise : Bool := true; let c : Nat := 1; (Live s) ∧ (s.hw.legAxis n = some c) ∧ ((s.hw.leg n).running = true)
      ∧ (s.hw.forced n = false) ∧ (s.hw.period c ≠ 0) ∧ (32 * s.hw.period c ≤ s.hw.cmpPos n rise)) ∧
    (let s : State := stateOf fun h => let h : Hw := { h with sys := { h.sys with acHalted := 0 }, gdp := {}, legs := [(5, { running := true })], stp := [] };
      let h : Hw := (h.setReg (sy 0x040) 3).setReg (cr 1 0x044) 2;
      let h : Hw := (h.setReg (cr 0 0x044) 0).setReg (cr 1 0x04C) 15625;
      let h : Hw := (h.setReg (ra pGDP (0x600 + 20)) 0).setReg (ra pGDP 0x058) 0;
      let h : Hw := h.setReg (ra (pLEG 5) rLOCK) 0; h; let n : Fin 96 := 5; let rise : Bool := default;
      let c : Nat := 1; (Live s) ∧ (s.hw.legAxis n = some c) ∧ ((s.hw.leg n).running = true)
      ∧ (s.hw.forced n = false) ∧ (s.hw.period c ≠ 0) ∧ ((s.hw.leg n).dropPair ≠ some (s.hw.bridge (n.val / 3)).win)
      ∧ ((s.hw.leg n).pul = rise)) := by
  refine ⟨?_, ?_, ?_, ?_, ?_, ?_⟩ <;> decide

theorem witness_gateStatusOfALeg :
    (let s : State := stateOf fun h => let h : Hw := h.setReg (gp 0x040) 0; let h : Hw := h.setReg (gstStat 5) 5; h;
      let n : Fin 96 := 5; let p : Nat := 2500; let hi : Nat := 500; (Live s) ∧ (gstDecode p hi = some 0)
      ∧ (s.hw.gstCode n ≠ 0)
      ∧ (max 1 (s.hw.f (gp 0x040) 2 0) ≤ (if (tabGet {} n.val s.hw.gdp.gst).code = 0 then (tabGet {} n.val s.hw.gdp.gst).n + 1 else 1))) ∧
    (let s : State := stateOf fun h => let h : Hw := h.setReg (gp 0x040) 0; let h : Hw := h.setReg (gstStat 5) 0;
      let h : Hw := h.setReg (lg 5 rCTRL) 0; h; let n : Fin 96 := 5; let p : Nat := 2500; let hi : Nat := 1000;
      let d : Nat := 1; (Live s) ∧ (gstDecode p hi = some d) ∧ (d ≠ 0) ∧ (s.hw.gstCode n ≠ d)
      ∧ (max 1 (s.hw.f (gp 0x040) 2 0) ≤ (if (tabGet {} n.val s.hw.gdp.gst).code = d then (tabGet {} n.val s.hw.gdp.gst).n + 1 else 1))) ∧
    (let s : State := stateOf fun h => let h : Hw := h.setReg (lg 5 rCTRL) 0; h; let p : Nat := 100;
      let hi : Nat := 20; (Live s) ∧ (gstDecode p hi = none) ∧ (p < 0x1000) ∧ (hi < 0x1000)) ∧
    (let s : State := stateOf fun h => let h : Hw := h.setReg (cr 31 0x044) 0; h; let n : Fin 96 := 95; (Live s)
      ∧ (s.hw.legAxis n = none)) ∧
    (let s : State := stateOf fun h => let h : Hw := (h.setReg (cr 0 0x044) 0).setReg (cr 1 0x044) 2;
      let h : Hw := ((h.setReg (lg 3 rCTRL) 0).setReg (lg 4 rCTRL) 0).setReg (lg 5 rCTRL) 0; h; let n : Fin 96 := 5;
      let a : Nat := 1; (Live s) ∧ (s.hw.legAxis n = some a)) ∧
    (let s : State := stateOf fun h => let h : Hw := h.setReg (lg 5 rCTRL) 0; h; (Live s)) ∧
    (let s : State := ({} : State); (Live s)) := by
  refine ⟨?_, ?_, ?_, ?_, ?_, ?_, ?_⟩ <;> decide

theorem witness_tripInputs :
    (let s : State := stateOf fun h => let h : Hw := h.setReg (tripReg 3 0) 5;
      let h : Hw := (h.setReg (gp 0x058) 0).setReg (tripReg 3 8) 0x20; h; let g : Nat := 100; let i : Fin 16 := 3;
      let lv : Bool := true; (Live s) ∧ (s.hw.bit (tripReg i 0) 0 = true) ∧ (s.hw.bit (gp 0x058) i = false)
      ∧ (s.hw.bit (tripReg i 0) 2 = true) ∧ (s.hw.tripActive i lv = true) ∧ ((s.hw.trip i).async = none)
      ∧ (s.hw.tripBlanked i (max s.hw.grain g) = false)) ∧
    (let s : State := stateOf fun h => let h : Hw := h.setReg (tripReg 3 0) 5;
      let h : Hw := (h.setReg (gp 0x058) 0).setReg (tripReg 3 8) 0x20;
      let h : Hw := h.setTrip 3 { async := some 97 }; h; let i : Fin 16 := 3; let p : Nat := 97; (Live s)
      ∧ (s.hw.bit (tripReg i 0) 0 = true) ∧ (s.hw.bit (gp 0x058) i = false) ∧ ((s.hw.trip i).async = some p)) ∧
    (let s : State := stateOf fun h => let h : Hw := h.setReg (tripReg 3 0) 5;
      let h : Hw := (h.setReg (gp 0x058) 0).setReg (tripReg 3 8) 0x20; h; let g : Nat := 100; let i : Fin 16 := 3;
      let lv : Bool := true; (Live s) ∧ (s.hw.bit (tripReg i 0) 0 = true) ∧ (s.hw.bit (gp 0x058) i = false)
      ∧ (s.hw.bit (tripReg i 0) 2 = true) ∧ (s.hw.tripActive i lv = true) ∧ ((s.hw.trip i).async = none)
      ∧ (s.hw.tripBlanked i (max s.hw.grain g - 3) = false)) ∧
    (let s : State := stateOf fun h => let h : Hw := h.setReg (tripReg 3 0) 0x00640001;
      let h : Hw := (h.setReg (gp 0x058) 0).setReg (tripReg 3 8) 0x20;
      let h : Hw := { h with grain := 99, legs := [(5, { edges := [99] })] }; h; let g : Nat := 100;
      let i : Fin 16 := 3; let lv : Bool := true; (Live s) ∧ (s.hw.bit (tripReg i 0) 0 = true)
      ∧ (s.hw.bit (gp 0x058) i = false) ∧ (s.hw.bit (tripReg i 0) 2 = false) ∧ (s.hw.tripActive i lv = true)
      ∧ ((s.hw.trip i).level ≠ lv) ∧ ((s.hw.trip i).async = none) ∧ (s.hw.tripBlanked i (max s.hw.grain g) = true)) ∧
    (let s : State := stateOf fun h => let h : Hw := h.setReg (tripReg 3 0) 0x00640001;
      let h : Hw := (h.setReg (gp 0x058) 0).setReg (tripReg 3 8) 0x20;
      let h : Hw := { h with grain := 99, legs := [(5, { edges := [99] })] };
      let h : Hw := h.setTrip 3 { held := true, level := true }; h; let g : Nat := 100; let i : Fin 16 := 3;
      let lv : Bool := false; (Live s) ∧ (s.hw.bit (tripReg i 0) 0 = true) ∧ (s.hw.bit (gp 0x058) i = false)
      ∧ (s.hw.bit (tripReg i 0) 2 = false) ∧ (s.hw.tripActive i lv = false) ∧ ((s.hw.trip i).async = none)
      ∧ ((s.hw.trip i).held = true) ∧ (s.hw.tripBlanked i (max s.hw.grain g) = true)) ∧
    (let s : State := stateOf fun h => let h : Hw := h.setReg (tripReg 3 0) 0x00000501;
      let h : Hw := (h.setReg (gp 0x058) 0).setReg (tripReg 3 8) 0x20; let h : Hw := { h with legs := [] };
      let h : Hw := h.setTrip 3 { level := true, since := 50 }; h; let g : Nat := 100; let i : Fin 16 := 3; (Live s)
      ∧ (s.hw.bit (tripReg i 0) 0 = true) ∧ (s.hw.bit (gp 0x058) i = false) ∧ (s.hw.bit (tripReg i 0) 2 = false)
      ∧ (s.hw.tripActive i (s.hw.trip i).level = true) ∧ (s.hw.tripBlanked i (max s.hw.grain g) = false)
      ∧ ((s.hw.at g).tripRun i + s.hw.f (tripReg i 0) 15 8 ≤ max s.hw.grain g)) ∧
    (let s : State := stateOf fun h => let h : Hw := h.setReg (tripReg 3 0) 0x0000FF01;
      let h : Hw := (h.setReg (gp 0x058) 0).setReg (tripReg 3 8) 0x20;
      let h : Hw := h.setTrip 3 { level := true, since := 50 }; h; let g : Nat := 100; let i : Fin 16 := 3; (Live s)
      ∧ (max s.hw.grain g < (s.hw.trip i).since + s.hw.f (tripReg i 0) 15 8)) ∧
    (let s : State := stateOf fun h => let h : Hw := (h.setReg (gp 0x058) 0).setReg (tripReg 3 0) 0x00640005;
      let h : Hw := h.setReg (tripReg 3 8) 0x20; let h : Hw := { h with legs := [(5, { edges := [100] })] };
      let h : Hw := h.setTrip 3 { pin := true, held := true, heldTs := 104 }; h; let g : Nat := 200;
      let i : Fin 16 := 3; (Live s) ∧ (s.hw.bit (tripReg i 0) 0 = true) ∧ (s.hw.bit (gp 0x058) i = false)
      ∧ (s.hw.bit (tripReg i 0) 2 = true) ∧ (s.hw.tripActive i (s.hw.trip i).pin = true)
      ∧ (s.hw.tripBlanked i (max s.hw.grain g - 1) = true) ∧ (s.hw.tripBlanked i (max s.hw.grain g) = false)) ∧
    (let s : State := stateOf fun h => let h : Hw := (h.setReg (gp 0x058) 8).setReg (gp rLOCK) 0;
      let h : Hw := h.setReg (tripReg 3 4) 2; let h : Hw := h.setReg (tripReg 3 0) 0;
      let h : Hw := h.setTrip 3 { mask := 7 }; h; let g : Nat := 1000; let i : Fin 16 := 3;
      let m : BitVec 16 := 0xFFFF; (Live s) ∧ (Unlocked s pGDP) ∧ (m.getLsbD i = true)
      ∧ (s.hw.bit (gp 0x058) i = true) ∧ (s.hw.tripActive i (s.hw.trip i).level = false)
      ∧ ((s.hw.trip i).since + 500 * s.hw.f (tripReg i 4) 15 0 ≤ (5 * (max s.hw.grain g / 5) + 4))
      ∧ ((s.hw.trip i).lastCycle ≠ some (max s.hw.grain g / 5))) ∧
    (let s : State := stateOf fun h => let h : Hw := (h.setReg (gp 0x058) 8).setReg (gp rLOCK) 0;
      let h : Hw := h.setTrip 3 { mask := 7, level := true }; h; let g : Nat := 100; let i : Fin 16 := 3;
      let m : BitVec 16 := 0xFFFF; (Live s) ∧ (Unlocked s pGDP) ∧ (m.getLsbD i = true)
      ∧ (s.hw.bit (gp 0x058) i = true)
      ∧ (s.hw.tripActive i (s.hw.trip i).level = true ∨ (5 * (max s.hw.grain g / 5) + 4) < (s.hw.trip i).since + 500 * s.hw.f (tripReg i 4) 15 0 ∨ (s.hw.trip i).lastCycle = some (max s.hw.grain g / 5))) := by
  refine ⟨?_, ?_, ?_, ?_, ?_, ?_, ?_, ?_, ?_, ?_⟩ <;> decide

theorem witness_protectionRetries :
    (let s : State := stateOf fun h => let h : Hw := h.setReg (gp 0x058) 0;
      let h : Hw := h.setProt 2 1 { phase := 1, force := 7 }; let h : Hw := h.setBit (axProt 2) 17 true; h;
      let g : Nat := 0; let a : Fin 32 := 2; let c : Fin 3 := 1; (Live s) ∧ ((s.hw.prot a c).phase = 1)
      ∧ ((s.hw.prot a c).due ≤ max s.hw.grain g) ∧ ((s.hw.at g).retryCond a c = true)) ∧
    (let s : State := stateOf fun h => let h : Hw := h.setReg (gstStat 5) 1;
      let h : Hw := h.setProt 2 0 { phase := 1, force := 0x20 }; h; let g : Nat := 0; let a : Fin 32 := 2;
      let c : Fin 3 := 0; (Live s) ∧ ((s.hw.prot a c).phase = 1) ∧ ((s.hw.prot a c).due ≤ max s.hw.grain g)
      ∧ ((s.hw.at g).retryCond a c = false)) ∧
    (let s : State := stateOf fun h => let h : Hw := h.setReg (gp 0x058) 0;
      let h : Hw := h.setProt 2 1 { phase := 2, force := 7 }; h; let g : Nat := 0; let a : Fin 32 := 2;
      let c : Fin 3 := 1; (Live s) ∧ ((s.hw.prot a c).phase = 2) ∧ ((s.hw.at g).retryCond a c = true)) ∧
    (let s : State := stateOf fun h => let h : Hw := h.setReg (gstStat 5) 1;
      let h : Hw := h.setProt 2 0 { phase := 2, force := 0x20 }; h; let g : Nat := 0; let a : Fin 32 := 2;
      let c : Fin 3 := 0; (Live s) ∧ ((s.hw.prot a c).phase = 2) ∧ ((s.hw.prot a c).due ≤ max s.hw.grain g)
      ∧ ((s.hw.at g).retryCond a c = false)) ∧
    (let s : State := stateOf fun h => let h : Hw := h.setReg (axProt 2) 0x777;
      let h : Hw := h.setReg (retryReg 1) 0x01000000; let h : Hw := h.setProt 2 1 { lastFault := some 5 }; h;
      let g : Nat := 500000005; let a : Fin 32 := 2; let c : Fin 3 := 1; (Live s)
      ∧ ((s.hw.prot a c).lastFault.all (fun f => decide (f + s.hw.f (retryReg c) 31 24 * 500000000 ≤ max s.hw.grain g)) = true)) ∧
    (let s : State := stateOf fun h => let h : Hw := h.setReg (axProt 2) 0x777;
      let h : Hw := h.setReg (retryReg 1) 0xFF000000; let h : Hw := h.setProt 2 1 { lastFault := some 1000 }; h;
      let g : Nat := 1001; let a : Fin 32 := 2; let c : Fin 3 := 1; let f : Nat := 1000; (Live s)
      ∧ ((s.hw.prot a c).lastFault = some f) ∧ (max s.hw.grain g < f + s.hw.f (retryReg c) 31 24 * 500000000)) ∧
    (let s : State := stateOf fun h => let h : Hw := (h.setReg (axProt 2) 0x7000000).setReg (gp rLOCK) 0;
      let h : Hw := h.setReg (cr 2 0x044) 0; let h : Hw := h.setProt 2 1 { force := 1 }; h; let g : Nat := 0;
      let a : Fin 32 := 2; let m : Word := 4; let n : Nat := 0; (Live s) ∧ (Unlocked s pGDP) ∧ (bitOf m a = true)
      ∧ (((s.hw.axisLegs a).any fun n => s.hw.gstCode n != 0 || s.hw.tripForce n) = false)
      ∧ (∀ k : Fin 3, (s.hw.prot a k).lastFault ≠ some (5 * (max s.hw.grain g / 5) + 4)
      ∧ (s.hw.prot a k).bareShort ≠ some (5 * (max s.hw.grain g / 5) + 4))) ∧
    (let s : State := stateOf fun h => let h : Hw := (h.setReg (gstStat 5) 1).setReg (gp rLOCK) 0;
      let h : Hw := h.setReg (cr 2 0x044) 2; h; let a : Fin 32 := 2; let m : Word := 4; (Live s) ∧ (Unlocked s pGDP)
      ∧ (bitOf m a = true) ∧ (((s.hw.axisLegs a).any fun n => s.hw.gstCode n != 0 || s.hw.tripForce n) = true)) := by
  refine ⟨?_, ?_, ?_, ?_, ?_, ?_, ?_, ?_⟩ <;> decide

set_option maxRecDepth 100000 in
theorem witness_sigmaDeltaConversions :
    (let s : State := stateOf fun h => let h : Hw := h.setReg (sd 7 rCTRL) 1;
      let h : Hw := (h.setReg (sd 7 0x040) 32).setReg (sd 7 rSTAT) 0;
      let h : Hw := ((h.setReg (sd 7 0x044) 0).setReg (sd 7 0x058) 0x7FFFFF).setReg (sd 0 0x080) 0x10028;
      let h : Hw := { h.setSdm 7 { from_ := 1 } with sup := {} }.setSdm 0 {};
      let h : Hw := (h.setReg (sd 7 0x060) 0).setReg (sd 7 0x04C) 0; h; let g : Nat := 940; let n : Fin 112 := 7;
      let d : SdmBits := ⟨30080, true, [500]⟩; let p : SdmPlace := ⟨s.hw.sdmNow 7, 15200, none, false⟩; (Live s)
      ∧ (s.hw.bit (sd n rCTRL) 0 = true) ∧ ((s.hw.at g).sdmDue n d.last = true)
      ∧ ((s.hw.at g).sdmPlace n d.last = some p) ∧ (s.hw.sdmLost n = false)
      ∧ ((s.hw.sdmS n).from_ ≤ (s.hw.at g).edgeBack (s.hw.sdmClk n) (3 * fld p.set.cfg 8 0 - 2 - 1) d.last)) ∧
    (let s : State := stateOf fun h => let h : Hw := h.setReg (sd 7 rCTRL) 1;
      let h : Hw := (h.setReg (sd 7 0x040) 32).setReg (sd 7 rSTAT) 4;
      let h : Hw := ((h.setReg (sd 7 0x044) 0).setReg (sd 7 0x058) 0x7FFFFF).setReg (sd 0 0x080) 0x10028;
      let h : Hw := { h.setSdm 7 { from_ := 1 } with sup := {} }.setSdm 0 {};
      let h : Hw := (h.setReg (sd 7 0x060) 0).setReg (sd 7 0x04C) 0; h; let g : Nat := 940; let n : Fin 112 := 7;
      let d : SdmBits := ⟨30080, true, [500]⟩; let p : SdmPlace := ⟨s.hw.sdmNow 7, 15200, none, false⟩; (Live s)
      ∧ (s.hw.bit (sd n rCTRL) 0 = true) ∧ ((s.hw.at g).sdmDue n d.last = true)
      ∧ ((s.hw.at g).sdmPlace n d.last = some p) ∧ (s.hw.bit (sd n rSTAT) 2 = true)
      ∧ (s.hw.bit (sd n rSTAT) 1 = false)) ∧
    (let s : State := stateOf fun h => let h : Hw := h.setReg (sd 7 rCTRL) 1;
      let h : Hw := ((h.setReg (sd 7 0x040) 0x00080020).setReg (sd 7 rSTAT) 0).setReg (sd 0 0x080) 0x10028;
      let h : Hw := { h.setSdm 7 { crustFrom := 1 } with sup := {} }.setSdm 0 {};
      let h : Hw := (h.setReg (sd 7 0x060) 0).setReg (sd 7 0x04C) 0; h; let g : Nat := 150; let n : Fin 112 := 7;
      let d : SdmBits := ⟨4800, true, [60]⟩; (Live s) ∧ (s.hw.bit (sd n rCTRL) 0 = true) ∧ (s.hw.sdmLost n = false)
      ∧ ((s.hw.at g).crustDue n (s.hw.f (sd n 0x040) 21 16) d.last = true)) ∧
    (let s : State := stateOf fun h => h.setReg (sd 7 rLOCK) 0; let n : Fin 112 := 7; (Live s)
      ∧ (Unlocked s (pSDM n))) ∧
    (let s : State := stateOf fun h => let h : Hw := { h.setReg (ra pTHM rSTAT) 0x10 with sup := {} };
      let h : Hw := h.setReg (sd 0 0x080) 40; let h : Hw := (h.setReg (sd 7 0x040) 0).setSdm 7 { cal := some 1 }; h;
      let n : Fin 112 := 7; let dis : List Nat := [3, 0, 0, 0, 2, 0, 0, 1, 1, 1]; let c : Nat := 1; (Live s)
      ∧ ((s.hw.sdmS n).cal = some c) ∧ ((s.hw.sup.bands.any fun e => decide (c ≤ e.1)) = false)
      ∧ (0 < (longestRun ((List.range (s.hw.dclkN (s.hw.sdmClk n) / 4)).map fun i => dis[i]? == some 0)).2)) ∧
    (let s : State := stateOf fun h => let h : Hw := { h.setReg (ra pTHM rSTAT) 0x10 with sup := { h.sup with bands := [(9, 0)] } };
      let h : Hw := h.setSdm 7 { cal := some 2 }; h; let n : Fin 112 := 7; let dis : List Nat := default;
      let c : Nat := 2; (Live s) ∧ ((s.hw.sdmS n).cal = some c)
      ∧ ((s.hw.sup.bands.any fun e => decide (c ≤ e.1)) = true ∨ (longestRun ((List.range (s.hw.dclkN (s.hw.sdmClk n) / 4)).map fun i => dis[i]? == some 0)).2 = 0)) ∧
    (let s : State := stateOf fun h => let h : Hw := (h.setReg (sd 7 rCTRL) 1).setReg (sd 7 rSTAT) 0; h;
      let n : Fin 112 := 7; let k : Nat := 1023; (Live s) ∧ (s.hw.bit (sd n rCTRL) 0 = true)
      ∧ (s.hw.sdmLost n = false) ∧ (s.hw.f (sd n 0x05C) 9 0 ≤ k)) ∧
    (let s : State := stateOf fun h => let h : Hw := (h.setReg (sd 60 0x040) 0x4000).setReg (sd 5 0x080) 0; h;
      let g : Nat := 99999; let n : Fin 112 := 60; let m : Fin 8 := 5; let since : Nat := 0; (Live s)
      ∧ (s.hw.sdmClk n = m.val) ∧ (s.hw.bit (sd m 0x080) 24 = false)
      ∧ (since + 4 * (8 * s.hw.dclkN m) ≤ 32 * max s.hw.grain g + 31)) ∧
    (let s : State := stateOf fun h => let h : Hw := h.setReg (sd 7 rSTAT) 4; h; let n : Fin 112 := 7; (Live s)
      ∧ (s.hw.bit (sd n rSTAT) 1 = false)) ∧
    (let s : State := stateOf fun h => let h : Hw := h.setReg (sd 9 rSTAT) 2; h; let n : Fin 112 := 9; (Live s)
      ∧ (s.hw.bit (sd n rSTAT) 1 = true)) := by
  refine ⟨?_, ?_, ?_, ?_, ?_, ?_, ?_, ?_, ?_, ?_⟩ <;> decide +kernel

theorem witness_feedbackPositions :
    (let s : State := stateOf fun h => let h : Hw := { h with acq := {}, fbs := [(3, { on := true, mode := 1 })] };
      let h : Hw := h.setReg (fbr 3 0x040) 0x00050001; h; let g : Nat := 15; let n : Fin 32 := 3;
      let l : BitVec 8 := 1; let first : Nat := 10; (Live s) ∧ ((s.hw.fb n).on = true)
      ∧ (first + s.hw.fbFilt n ≤ max s.hw.grain g) ∧ ((s.hw.fb n).mode = mINC)
      ∧ ((l ^^^ (s.hw.fb n).lines).getLsbD 0 ≠ (l ^^^ (s.hw.fb n).lines).getLsbD 1)) ∧
    (let s : State := stateOf fun h => let h : Hw := { h with acq := {}, fbs := [(3, { on := true, mode := 1 })] };
      let h : Hw := h.setReg (fbr 3 0x040) 0x00050001; h; let g : Nat := 15; let n : Fin 32 := 3;
      let l : BitVec 8 := 3; let first : Nat := 10; (Live s) ∧ ((s.hw.fb n).on = true)
      ∧ (first + s.hw.fbFilt n ≤ max s.hw.grain g) ∧ ((s.hw.fb n).mode = mINC)
      ∧ ((l ^^^ (s.hw.fb n).lines).getLsbD 0 = true) ∧ ((l ^^^ (s.hw.fb n).lines).getLsbD 1 = true)) ∧
    (let s : State := stateOf fun h => let h : Hw := { h with acq := {}, fbs := [(3, { on := true, mode := 1 })] };
      let h : Hw := h.setReg (fbr 3 0x040) 0x00050001; h; let g : Nat := 14; let n : Fin 32 := 3;
      let first : Nat := 99999999999; (Live s) ∧ (max s.hw.grain g < first + s.hw.fbFilt n)) ∧
    (let s : State := stateOf fun h => let h : Hw := { h with fbs := [(3, { on := true, mode := 1 })] };
      let h : Hw := h.setReg (fbr 3 0x040) 0x00050001; h; let n : Fin 32 := 3; let k : Nat := 5; (Live s)
      ∧ ((s.hw.fb n).on = true) ∧ (0 < k) ∧ (k ≤ s.hw.fbFilt n)) ∧
    (let s : State := stateOf fun h => let h : Hw := ({ h with pair := {}, sys := { h.sys with acHalted := 0, held := false }, fbs := [(3, { on := true, mode := 3 })] }.setBit (ra pPAIR rSTAT) 0 true).setBit (fbr 3 rCTRL) 2 false;
      let h : Hw := (h.setReg64 (ra pCLK 0x058) (BitVec.ofNat 64 h.grain)).setReg (fbr 3 0x04C) 0x01000064; h;
      let g : Nat := s.hw.grain + 100; let n : Fin 32 := 3; (Live s) ∧ ((s.hw.fb n).on = true)
      ∧ ((s.hw.fb n).mode = mSSI) ∧ ((s.hw.fb n).read = none) ∧ ((s.hw.at g).fbDrives n = true)
      ∧ (max s.hw.grain g = (s.hw.reg64 (ra pCLK 0x058)).toNat + s.hw.f (fbr n 0x04C) 18 0)
      ∧ ((s.hw.fb n).frameEnd = 0 ∨ (s.hw.fb n).frameEnd + 500 * s.hw.f (fbr n 0x04C) 31 24 ≤ max s.hw.grain g)) ∧
    (let s : State := stateOf fun h => let h : Hw := h.setReg (fbr 3 0x048) 0x00C00010;
      let h : Hw := { h with fbs := [(3, { on := true, mode := 3, read := some 7, bad := true })] }; h;
      let g : Nat := 99999; let n : Fin 32 := 3; let l : List Bool := List.replicate 17 true; let r : Nat := 7;
      (Live s) ∧ ((s.hw.fb n).on = true) ∧ ((s.hw.fb n).mode = mSSI) ∧ ((s.hw.fb n).read = some r)
      ∧ (l.length = s.hw.ssiSamples n) ∧ (s.hw.ssiDoneAt n r ≤ max s.hw.grain g)
      ∧ (((s.hw.fb n).latch 0).wait = none) ∧ (((s.hw.fb n).latch 1).wait = none)
      ∧ ((s.hw.fb n).bad = true ∨ l.getLast? ≠ some false)) ∧
    (let s : State := stateOf fun h => let h : Hw := (h.setReg (fbr 3 0x048) 0x00C00010).setReg (fbr 3 0x050) 0;
      let h : Hw := { h with acq := {}, fbs := [(3, { on := true, mode := 3, read := some 7 })] }; h;
      let g : Nat := 99999; let n : Fin 32 := 3; let l : List Bool := List.replicate 16 true ++ [false];
      let r : Nat := 7; (Live s) ∧ ((s.hw.fb n).on = true) ∧ ((s.hw.fb n).mode = mSSI) ∧ ((s.hw.fb n).read = some r)
      ∧ (l.length = s.hw.ssiSamples n) ∧ (s.hw.ssiDoneAt n r ≤ max s.hw.grain g)
      ∧ (((s.hw.fb n).latch 0).wait = none) ∧ (((s.hw.fb n).latch 1).wait = none) ∧ ((s.hw.fb n).bad = false)
      ∧ (l.getLast? = some false) ∧ ((s.hw.fb n).frame = none)) ∧
    (let s : State := stateOf fun h => let h : Hw := (h.setReg (fbr 3 0x048) 0x00C00010).setReg (fbr 3 0x050) 9;
      let h : Hw := { h with acq := {}, fbs := [(3, { on := true, mode := 3, read := some 7, frame := some (65530, 2) })] }; h;
      let g : Nat := 99999; let n : Fin 32 := 3; let l : List Bool := List.replicate 16 true ++ [false];
      let r : Nat := 7; let v0 : Nat := 65530; let r0 : Nat := 2; (Live s) ∧ ((s.hw.fb n).on = true)
      ∧ ((s.hw.fb n).mode = mSSI) ∧ ((s.hw.fb n).read = some r) ∧ (l.length = s.hw.ssiSamples n)
      ∧ (s.hw.ssiDoneAt n r ≤ max s.hw.grain g) ∧ (((s.hw.fb n).latch 0).wait = none)
      ∧ (((s.hw.fb n).latch 1).wait = none) ∧ ((s.hw.fb n).bad = false) ∧ (l.getLast? = some false)
      ∧ ((s.hw.fb n).frame = some (v0, r0))) ∧
    (let s : State := stateOf fun h => let h : Hw := ((h.setReg (fbr 3 rLOCK) 0).setReg (ra pPAIR 0x040) 0).setReg (fbr 3 0x084) 0xFFFFFFF0; h;
      let n : Fin 32 := 3; (Live s) ∧ (Unlocked s (pFB n)) ∧ (s.hw.mirrorOn = false)) ∧
    (let s : State := stateOf fun h => let h : Hw := ((h.setReg (fbr 3 rLOCK) 0).setReg (fbr 3 0x090) 7).setReg (fbr 3 0x094) 0x30201;
      let h : Hw := { h with cntCyc := [] }; h; let g : Nat := 100; let n : Fin 32 := 3; (Live s)
      ∧ (Unlocked s (pFB n)) ∧ (∀ e ∈ s.hw.cntCyc, e.2.cycle ≠ max s.hw.grain g / 5)) ∧
    (let s : State := stateOf fun h => let h : Hw := h.setStep 3 { plan := -5, done := 2, span := 100 };
      let h : Hw := h.setFb 3 {}; h; let g : Nat := 99999; let n : Fin 32 := 3; (Live s)
      ∧ ((s.hw.step n).done < (s.hw.step n).plan.natAbs)
      ∧ ((s.hw.step n).riseAt ((s.hw.step n).done + 1) ≤ max s.hw.grain g)) ∧
    (let s : State := stateOf fun h => let h : Hw := h.setStep 3 { plan := 5, done := 2, span := 100 };
      let h : Hw := ({ h with pair := {}, sys := { h.sys with acHalted := 0, held := false } }.setFb 3 { on := true, mode := 4 }).setBit (ra pPAIR rSTAT) 0 true; h;
      let g : Nat := 99999; let n : Fin 32 := 3; (Live s) ∧ ((s.hw.step n).done < (s.hw.step n).plan.natAbs)
      ∧ ((s.hw.step n).riseAt ((s.hw.step n).done + 1) ≤ max s.hw.grain g) ∧ ((s.hw.fb n).on = true)
      ∧ ((s.hw.fb n).mode = mSTEP) ∧ ((s.hw.at g).fbDrives n = true)) := by
  refine ⟨?_, ?_, ?_, ?_, ?_, ?_, ?_, ?_, ?_, ?_, ?_, ?_⟩ <;> decide

theorem witness_probesAndCompares :
    (let s : State := stateOf fun h => let h : Hw := (h.setReg (fbr 3 0x040) 1).setReg (fbr 3 rLOCK) 0;
      let h : Hw := (h.setReg (fbr 3 0x0C0) 0x10000).setFb 3 { on := true, mode := 1 }; h; let g : Nat := 0;
      let n : Fin 32 := 3; let k : Fin 2 := 1; (Live s) ∧ (Unlocked s (pFB n))
      ∧ (s.hw.latchArmOk n k (max s.hw.grain g / 5 * 5 + 4) = true) ∧ (((s.hw.fb n).latch k).armed = none)) ∧
    (let s : State := stateOf fun h => let h : Hw := (h.setReg (fbr 3 0x040) 0).setReg (fbr 3 rLOCK) 0; h;
      let n : Fin 32 := 3; let k : Fin 2 := 1; (Live s) ∧ (Unlocked s (pFB n))
      ∧ (latchSrcOk (s.hw.fbMode n) (s.hw.f (fbr n (0x0A0 + 0x20 * k)) 19 16) = false)) ∧
    (let s : State := stateOf fun h => let h : Hw := h.setReg (fbr 3 rLOCK) 0;
      let h : Hw := h.setFb 3 { on := true, latches := [(1, { armed := some 9 })] }; h; let n : Fin 32 := 3;
      let k : Fin 2 := 1; let x : Nat := 9; (Live s) ∧ (Unlocked s (pFB n)) ∧ (((s.hw.fb n).latch k).armed = some x)
      ∧ (((s.hw.fb n).latch k).disarmed = none)) ∧
    (let s : State := stateOf fun h => let h : Hw := h.setReg (fbr 3 0x0C0) 0x05010200;
      let h : Hw := { h with ax := [] };
      let h : Hw := h.setFb 3 { on := true, mode := 1, latches := [(1, { armed := some 9, level := some false })] }; h;
      let g : Nat := 20; let n : Fin 32 := 3; let k : Fin 2 := 1; let lv : Bool := true; let first : Nat := 15;
      (Live s) ∧ (s.hw.latchLive n k = true)
      ∧ (max (first + s.hw.latchFilt n k) (first + s.hw.fbFilt n) ≤ max s.hw.grain g)
      ∧ (((s.hw.fb n).latch k).fresh ≤ first + s.hw.latchFilt n k) ∧ (((s.hw.fb n).latch k).level = some (!lv))
      ∧ (s.hw.latchTakes n k lv (first + s.hw.latchFilt n k) = true) ∧ ((s.hw.fb n).read = none)
      ∧ (s.hw.bit (fbr n (0x0A0 + 0x20 * k)) 4 = false)) ∧
    (let s : State := stateOf fun h => let h : Hw := h.setReg (fbr 3 0x0C0) 0x05010200;
      let h : Hw := h.setFb 3 { on := true, mode := 1 }; h; let n : Fin 32 := 3; let k : Fin 2 := 1;
      let len : Nat := 5; (Live s) ∧ (s.hw.latchLive n k = true) ∧ (0 < len) ∧ (len ≤ s.hw.latchFilt n k)) ∧
    (let s : State := stateOf fun h => let h : Hw := h.setReg (fbr 3 rLOCK) 0;
      let h : Hw := (h.setCount (fbr 3 0x060) 77).setReg (fbr 3 0x114) 77; h; let n : Fin 32 := 3;
      let k : Fin 2 := 1; (Live s) ∧ (Unlocked s (pFB n)) ∧ (countDiff (s.hw.cmpTarget n k) (s.hw.fbInt n) = 0)) ∧
    (let s : State := stateOf fun h => let h : Hw := h.setReg (fbr 3 rLOCK) 0;
      let h : Hw := (h.setCount (fbr 3 0x060) 70).setReg (fbr 3 0x114) 77; let h : Hw := h.setReg (fbr 3 0x100) 0; h;
      let n : Fin 32 := 3; let k : Fin 2 := 1; (Live s) ∧ (Unlocked s (pFB n))
      ∧ (0 < countDiff (s.hw.cmpTarget n k) (s.hw.fbInt n)) ∧ (s.hw.cmpDir n k ≠ 1)) ∧
    (let s : State := stateOf fun h => let h : Hw := h.setReg (fbr 3 rLOCK) 0;
      let h : Hw := (h.setCount (fbr 3 0x060) 80).setReg (fbr 3 0x114) 77; let h : Hw := h.setReg (fbr 3 0x100) 0; h;
      let n : Fin 32 := 3; let k : Fin 2 := 1; (Live s) ∧ (Unlocked s (pFB n))
      ∧ (countDiff (s.hw.cmpTarget n k) (s.hw.fbInt n) < 0) ∧ (s.hw.cmpDir n k = 0)
      ∧ (s.hw.bit (fbr n (0x0E0 + 0x20 * k)) 4 = false)) ∧
    (let s : State := stateOf fun h => let h : Hw := h.setReg (fbr 3 rLOCK) 0; let h : Hw := h.setFb 3 {}; h;
      let n : Fin 32 := 3; let k : Fin 2 := 1; (Live s) ∧ (Unlocked s (pFB n))
      ∧ (tabGet none k.val (s.hw.fb n).due = none)) ∧
    (let s : State := stateOf fun h => let h : Hw := h.setReg (ra pACQ rCTRL) 0;
      let h : Hw := h.setFb 3 { due := [(1, some (5, 6))] }; h; let g : Nat := 7; let n : Fin 32 := 3;
      let k : Fin 2 := 1; let ts : Nat := 5; let d : Nat := 6; (Live s)
      ∧ (tabGet none k.val (s.hw.fb n).due = some (ts, d)) ∧ (d ≤ max s.hw.grain g)) := by
  refine ⟨?_, ?_, ?_, ?_, ?_, ?_, ?_, ?_, ?_, ?_⟩ <;> decide

theorem witness_hytarAccumulatorArithmetic :
    (let s : State := stateOf fun h => let h : Hw := h.setBit (hy 3 rSTAT) 0 true;
      let h : Hw := h.setHyt 3 { (h.hyt 3) with waiting := false, stepping := false, pc := 7, acc := [(1, 5), (2, 0x7FFFFFFFFFFFFF)] }; h;
      let e : Fin 16 := 3; let p : BitVec 5 := default; let sf : Bool := false; let r : BitVec 5 := 1; (Issues s e p)
      ∧ ((sf || decide (r.toNat < 8)) = true)) ∧
    (let s : State := stateOf fun h => let h : Hw := h.setBit (hy 3 rSTAT) 0 true;
      let h : Hw := h.setHyt 3 { (h.hyt 3) with waiting := false, stepping := false, pc := 7, acc := [(1, 5), (2, 0x7FFFFFFFFFFFFF)] }; h;
      let e : Fin 16 := 3; let p : BitVec 5 := default; let sf : Bool := false; let r : BitVec 5 := 1; (Issues s e p)
      ∧ ((sf || decide (r.toNat < 8)) = true)) ∧
    (let s : State := stateOf fun h => let h : Hw := h.setBit (hy 3 rSTAT) 0 true;
      let h : Hw := h.setHyt 3 { (h.hyt 3) with waiting := false, stepping := false, pc := 7, acc := [(1, 5), (2, 0x7FFFFFFFFFFFFF)] }; h;
      let e : Fin 16 := 3; let p : BitVec 5 := default; (Issues s e p)) ∧
    (let s : State := stateOf fun h => let h : Hw := h.setBit (hy 3 rSTAT) 0 true;
      let h : Hw := h.setHyt 3 { (h.hyt 3) with waiting := false, stepping := false, pc := 7, acc := [(1, 5), (2, 0x7FFFFFFFFFFFFF)] }; h;
      let e : Fin 16 := 3; let p : BitVec 5 := default; (Issues s e p)) ∧
    (let s : State := stateOf fun h => let h : Hw := h.setBit (hy 3 rSTAT) 0 true;
      let h : Hw := h.setHyt 3 { (h.hyt 3) with waiting := false, stepping := false, pc := 7, acc := [(1, 5), (2, 0x7FFFFFFFFFFFFF)] }; h;
      let e : Fin 16 := 3; let p : BitVec 5 := default; let sf : Bool := false; let r : BitVec 5 := 1; (Issues s e p)
      ∧ ((sf || decide (r.toNat < 8)) = true)) ∧
    (let s : State := stateOf fun h => let h : Hw := h.setBit (hy 3 rSTAT) 0 true;
      let h : Hw := h.setHyt 3 { (h.hyt 3) with waiting := false, stepping := false, pc := 7, acc := [(1, 5), (2, 0x7FFFFFFFFFFFFF)] }; h;
      let e : Fin 16 := 3; let p : BitVec 5 := default; let sf : Bool := false; let r : BitVec 5 := 1; (Issues s e p)
      ∧ ((sf || decide (r.toNat < 8)) = true)) ∧
    (let s : State := stateOf fun h => let h : Hw := h.setBit (hy 3 rSTAT) 0 true;
      let h : Hw := h.setHyt 3 { (h.hyt 3) with waiting := false, stepping := false, pc := 7, acc := [(1, 5), (2, 0x7FFFFFFFFFFFFF)] }; h;
      let e : Fin 16 := 3; let p : BitVec 5 := default; let sf : Bool := false; let r : BitVec 5 := 1; (Issues s e p)
      ∧ ((sf || decide (r.toNat < 8)) = true)) ∧
    (let s : State := stateOf fun h => let h : Hw := h.setBit (hy 3 rSTAT) 0 true;
      let h : Hw := h.setHyt 3 { (h.hyt 3) with waiting := false, stepping := false, pc := 7, acc := [(1, 5), (2, 0x7FFFFFFFFFFFFF)] }; h;
      let e : Fin 16 := 3; let p : BitVec 5 := default; (Issues s e p)) ∧
    (let s : State := stateOf fun h => let h : Hw := h.setBit (hy 3 rSTAT) 0 true;
      let h : Hw := h.setHyt 3 { (h.hyt 3) with waiting := false, stepping := false, pc := 7, acc := [(1, 5), (2, 0x7FFFFFFFFFFFFF)] }; h;
      let e : Fin 16 := 3; let p : BitVec 5 := default; let sf : Bool := false; let r : BitVec 5 := 1; (Issues s e p)
      ∧ ((sf || decide (r.toNat < 8)) = true)) ∧
    (let s : State := stateOf fun h => let h : Hw := h.setBit (hy 3 rSTAT) 0 true;
      let h : Hw := h.setHyt 3 { (h.hyt 3) with waiting := false, stepping := false, pc := 7, acc := [(1, 5), (2, 0x7FFFFFFFFFFFFF)] }; h;
      let e : Fin 16 := 3; let p : BitVec 5 := default; let sf : Bool := false; let r : BitVec 5 := 1; (Issues s e p)
      ∧ ((sf || decide (r.toNat < 8)) = true)) ∧
    (let s : State := stateOf fun h => let h : Hw := h.setBit (hy 3 rSTAT) 0 true;
      let h : Hw := h.setHyt 3 { (h.hyt 3) with waiting := false, stepping := false, pc := 7, acc := [(1, 5), (2, 0x7FFFFFFFFFFFFF)] }; h;
      let e : Fin 16 := 3; let p : BitVec 5 := default; let a : BitVec 3 := 2; (Issues s e p)
      ∧ ((2 : Int) ^ 47 ≤ ((s.hw.hyt e).ac a.toNat).toInt)) ∧
    (let s : State := stateOf fun h => let h : Hw := h.setBit (hy 3 rSTAT) 0 true;
      let h : Hw := h.setHyt 3 { (h.hyt 3) with waiting := false, stepping := false, pc := 7, acc := [(2, 0x80000000000000)] }; h;
      let e : Fin 16 := 3; let p : BitVec 5 := default; let a : BitVec 3 := 2; (Issues s e p)
      ∧ (((s.hw.hyt e).ac a.toNat).toInt < -(2 : Int) ^ 47)) ∧
    (let s : State := stateOf fun h => let h : Hw := h.setBit (hy 3 rSTAT) 0 true;
      let h : Hw := h.setHyt 3 { (h.hyt 3) with waiting := false, stepping := false, pc := 7, acc := [(2, 0xFF800000000000)] }; h;
      let e : Fin 16 := 3; let p : BitVec 5 := default; let a : BitVec 3 := 2; (Issues s e p)
      ∧ (((s.hw.hyt e).ac a.toNat).toInt < (2 : Int) ^ 47) ∧ (-(2 : Int) ^ 47 ≤ ((s.hw.hyt e).ac a.toNat).toInt)) := by
  refine ⟨?_, ?_, ?_, ?_, ?_, ?_, ?_, ?_, ?_, ?_, ?_, ?_, ?_⟩ <;> decide

theorem witness_hytarMultiplies :
    (let s : State := stateOf fun h => let h : Hw := h.setBit (hy 3 rSTAT) 0 true;
      let h : Hw := h.setHyt 3 { (h.hyt 3) with waiting := false, stepping := false, pc := 7, d := [(0, 0x400000), (5, 0x800000), (17, 0x123456)], acc := [(2, 0x7FFFFFFFFFFFFF)], ix := [(6, 100)], md := [(6, 3)] }; h;
      let e : Fin 16 := 3; let p : BitVec 5 := default; (Issues s e p)) ∧
    (let s : State := stateOf fun h => let h : Hw := h.setBit (hy 3 rSTAT) 0 true;
      let h : Hw := h.setHyt 3 { (h.hyt 3) with waiting := false, stepping := false, pc := 7, d := [(0, 0x400000), (5, 0x800000), (17, 0x123456)], acc := [(2, 0x7FFFFFFFFFFFFF)], ix := [(6, 100)], md := [(6, 3)] }; h;
      let e : Fin 16 := 3; let p : BitVec 5 := default; (Issues s e p)) ∧
    (let s : State := stateOf fun h => let h : Hw := h.setBit (hy 3 rSTAT) 0 true;
      let h : Hw := h.setHyt 3 { (h.hyt 3) with waiting := false, stepping := false, pc := 7, d := [(0, 0x400000), (5, 0x800000), (17, 0x123456)], acc := [(2, 0x7FFFFFFFFFFFFF)], ix := [(6, 100)], md := [(6, 3)] }; h;
      let e : Fin 16 := 3; let p : BitVec 5 := default; (Issues s e p)) ∧
    (let s : State := stateOf fun h => let h : Hw := h.setBit (hy 3 rSTAT) 0 true;
      let h : Hw := h.setHyt 3 { (h.hyt 3) with waiting := false, stepping := false, pc := 7, d := [(0, 0x400000), (5, 0x800000), (17, 0x123456)], acc := [(2, 0x7FFFFFFFFFFFFF)], ix := [(6, 100)], md := [(6, 3)] }; h;
      let e : Fin 16 := 3; let p : BitVec 5 := default; (Issues s e p)) ∧
    (let s : State := stateOf fun h => let h : Hw := h.setBit (hy 3 rSTAT) 0 true;
      let h : Hw := h.setHyt 3 { (h.hyt 3) with waiting := false, stepping := false, pc := 7, d := [(0, 0x400000), (5, 0x800000), (17, 0x123456)], acc := [(2, 0x7FFFFFFFFFFFFF)], ix := [(6, 100)], md := [(6, 3)] }; h;
      let e : Fin 16 := 3; let p : BitVec 5 := default; (Issues s e p)) ∧
    (let s : State := stateOf fun h => let h : Hw := h.setBit (hy 3 rSTAT) 0 true;
      let h : Hw := h.setHyt 3 { (h.hyt 3) with waiting := false, stepping := false, pc := 7, d := [(0, 0x400000), (5, 0x800000), (17, 0x123456)], acc := [(2, 0x7FFFFFFFFFFFFF)], ix := [(6, 100)], md := [(6, 3)] }; h;
      let e : Fin 16 := 3; let p : BitVec 5 := default; (Issues s e p)) ∧
    (let s : State := stateOf fun h => let h : Hw := h.setBit (hy 3 rSTAT) 0 true;
      let h : Hw := h.setHyt 3 { (h.hyt 3) with waiting := false, stepping := false, pc := 7, d := [(0, 0x400000), (5, 0x800000), (17, 0x123456)], acc := [(2, 0x7FFFFFFFFFFFFF)], ix := [(6, 100)], md := [(6, 3)] }; h;
      let e : Fin 16 := 3; let p : BitVec 5 := default; (Issues s e p) ∧ (s.hw.pair.copying ≠ some e.val)) ∧
    (let s : State := stateOf fun h => let h : Hw := h.setBit (hy 3 rSTAT) 0 true;
      let h : Hw := h.setHyt 3 { (h.hyt 3) with waiting := false, stepping := false, pc := 7, d := [(0, 0x400000), (5, 0x800000), (17, 0x123456)], acc := [(2, 0x7FFFFFFFFFFFFF)], ix := [(6, 100)], md := [(6, 3)] }; h;
      let e : Fin 16 := 3; let p : BitVec 5 := default; (Issues s e p) ∧ (s.hw.pair.copying ≠ some e.val)) ∧
    (let s : State := stateOf fun h => let h : Hw := h.setBit (hy 3 rSTAT) 0 true;
      let h : Hw := h.setHyt 3 { (h.hyt 3) with waiting := false, stepping := false, pc := 7, d := [(0, 0x400000), (5, 0x800000), (17, 0x123456)], acc := [(2, 0x7FFFFFFFFFFFFF)], ix := [(6, 100)], md := [(6, 3)] }; h;
      let e : Fin 16 := 3; let p : BitVec 5 := default; (Issues s e p) ∧ (s.hw.pair.copying ≠ some e.val)) ∧
    (let s : State := stateOf fun h => let h : Hw := h.setBit (hy 3 rSTAT) 0 true;
      let h : Hw := h.setHyt 3 { (h.hyt 3) with waiting := false, stepping := false, pc := 7, d := [(0, 0x400000), (5, 0x800000), (17, 0x123456)], acc := [(2, 0x7FFFFFFFFFFFFF)], ix := [(6, 100)], md := [(6, 3)] }; h;
      let e : Fin 16 := 3; let p : BitVec 5 := default; (Issues s e p)) := by
  refine ⟨?_, ?_, ?_, ?_, ?_, ?_, ?_, ?_, ?_, ?_⟩ <;> decide

theorem witness_hytarLogicAndShifts :
    (let s : State := stateOf fun h => let h : Hw := h.setBit (hy 3 rSTAT) 0 true;
      let h : Hw := h.setHyt 3 { (h.hyt 3) with waiting := false, stepping := false, pc := 7, d := [(3, 0x7FFFFF), (4, 0xFFFFF0)], acc := [(2, 0xF0000000000001), (1, 7)] }; h;
      let e : Fin 16 := 3; let p : BitVec 5 := default; let sf : Bool := false; let r : BitVec 5 := 1; (Issues s e p)
      ∧ ((sf || decide (r.toNat < 8)) = true)) ∧
    (let s : State := stateOf fun h => let h : Hw := h.setBit (hy 3 rSTAT) 0 true;
      let h : Hw := h.setHyt 3 { (h.hyt 3) with waiting := false, stepping := false, pc := 7, d := [(3, 0x7FFFFF), (4, 0xFFFFF0)], acc := [(2, 0xF0000000000001), (1, 7)] }; h;
      let e : Fin 16 := 3; let p : BitVec 5 := default; let sf : Bool := false; let r : BitVec 5 := 1; (Issues s e p)
      ∧ ((sf || decide (r.toNat < 8)) = true)) ∧
    (let s : State := stateOf fun h => let h : Hw := h.setBit (hy 3 rSTAT) 0 true;
      let h : Hw := h.setHyt 3 { (h.hyt 3) with waiting := false, stepping := false, pc := 7, d := [(3, 0x7FFFFF), (4, 0xFFFFF0)], acc := [(2, 0xF0000000000001), (1, 7)] }; h;
      let e : Fin 16 := 3; let p : BitVec 5 := default; let sf : Bool := false; let r : BitVec 5 := 1; (Issues s e p)
      ∧ ((sf || decide (r.toNat < 8)) = true)) ∧
    (let s : State := stateOf fun h => let h : Hw := h.setBit (hy 3 rSTAT) 0 true;
      let h : Hw := h.setHyt 3 { (h.hyt 3) with waiting := false, stepping := false, pc := 7, d := [(3, 0x7FFFFF), (4, 0xFFFFF0)], acc := [(2, 0xF0000000000001), (1, 7)] }; h;
      let e : Fin 16 := 3; let p : BitVec 5 := default; (Issues s e p)) ∧
    (let s : State := stateOf fun h => let h : Hw := h.setBit (hy 3 rSTAT) 0 true;
      let h : Hw := h.setHyt 3 { (h.hyt 3) with waiting := false, stepping := false, pc := 7, d := [(3, 0x7FFFFF), (4, 0xFFFFF0)], acc := [(2, 0xF0000000000001), (1, 7)] }; h;
      let e : Fin 16 := 3; let p : BitVec 5 := default; let n : BitVec 6 := 8; (Issues s e p) ∧ (n.getLsbD 0 = false)
      ∧ (((s.hw.hyt e).dr (n.toNat / 2)).toInt < 0)) ∧
    (let s : State := stateOf fun h => let h : Hw := h.setBit (hy 3 rSTAT) 0 true;
      let h : Hw := h.setHyt 3 { (h.hyt 3) with waiting := false, stepping := false, pc := 7, d := [(3, 0x7FFFFF), (4, 0xFFFFF0)], acc := [(2, 0xF0000000000001), (1, 7)] }; h;
      let e : Fin 16 := 3; let p : BitVec 5 := default; let n : BitVec 6 := 6; (Issues s e p) ∧ (n.getLsbD 0 = false)
      ∧ (0 ≤ ((s.hw.hyt e).dr (n.toNat / 2)).toInt)) ∧
    (let s : State := stateOf fun h => let h : Hw := h.setBit (hy 3 rSTAT) 0 true;
      let h : Hw := h.setHyt 3 { (h.hyt 3) with waiting := false, stepping := false, pc := 7, d := [(3, 0x7FFFFF), (4, 0xFFFFF0)], acc := [(2, 0xF0000000000001), (1, 7)] }; h;
      let e : Fin 16 := 3; let p : BitVec 5 := default; let n : BitVec 6 := 31; (Issues s e p) ∧ (0 < n.toInt)) ∧
    (let s : State := stateOf fun h => let h : Hw := h.setBit (hy 3 rSTAT) 0 true;
      let h : Hw := h.setHyt 3 { (h.hyt 3) with waiting := false, stepping := false, pc := 7, d := [(3, 0x7FFFFF), (4, 0xFFFFF0)], acc := [(2, 0xF0000000000001), (1, 7)] }; h;
      let e : Fin 16 := 3; let p : BitVec 5 := default; let n : BitVec 6 := 32; (Issues s e p) ∧ (n.toInt < 0)) ∧
    (let s : State := stateOf fun h => let h : Hw := h.setBit (hy 3 rSTAT) 0 true;
      let h : Hw := h.setHyt 3 { (h.hyt 3) with waiting := false, stepping := false, pc := 7, d := [(3, 0x7FFFFF), (4, 0xFFFFF0)], acc := [(2, 0xF0000000000001), (1, 7)] }; h;
      let e : Fin 16 := 3; let p : BitVec 5 := default; (Issues s e p)) ∧
    (let s : State := stateOf fun h => let h : Hw := h.setBit (hy 3 rSTAT) 0 true;
      let h : Hw := h.setHyt 3 { (h.hyt 3) with waiting := false, stepping := false, pc := 7, d := [(3, 0x7FFFFF), (4, 0xFFFFF0)], acc := [(2, 0xF0000000000001), (1, 7)] }; h;
      let e : Fin 16 := 3; let p : BitVec 5 := default; let n : BitVec 6 := 8; (Issues s e p) ∧ (n.getLsbD 0 = false)
      ∧ (((s.hw.hyt e).dr (n.toNat / 2)).toInt < 0)) ∧
    (let s : State := stateOf fun h => let h : Hw := h.setBit (hy 3 rSTAT) 0 true;
      let h : Hw := h.setHyt 3 { (h.hyt 3) with waiting := false, stepping := false, pc := 7, d := [(3, 0x7FFFFF), (4, 0xFFFFF0)], acc := [(2, 0xF0000000000001), (1, 7)] }; h;
      let e : Fin 16 := 3; let p : BitVec 5 := default; let n : BitVec 6 := 6; (Issues s e p) ∧ (n.getLsbD 0 = false)
      ∧ (0 < ((s.hw.hyt e).dr (n.toNat / 2)).toInt)) ∧
    (let s : State := stateOf fun h => let h : Hw := h.setBit (hy 3 rSTAT) 0 true;
      let h : Hw := h.setHyt 3 { (h.hyt 3) with waiting := false, stepping := false, pc := 7, d := [(3, 0x7FFFFF), (4, 0xFFFFF0)], acc := [(2, 0xF0000000000001), (1, 7)] }; h;
      let e : Fin 16 := 3; let p : BitVec 5 := default; let n : BitVec 6 := 10; (Issues s e p)
      ∧ (n.getLsbD 0 = false) ∧ ((s.hw.hyt e).dr (n.toNat / 2) = 0)) ∧
    (let s : State := stateOf fun h => let h : Hw := h.setBit (hy 3 rSTAT) 0 true;
      let h : Hw := h.setHyt 3 { (h.hyt 3) with waiting := false, stepping := false, pc := 7, d := [(3, 0x7FFFFF), (4, 0xFFFFF0)], acc := [(2, 0xF0000000000001), (1, 7)] }; h;
      let e : Fin 16 := 3; let p : BitVec 5 := default; (Issues s e p)) ∧
    (let s : State := stateOf fun h => let h : Hw := h.setBit (hy 3 rSTAT) 0 true;
      let h : Hw := h.setHyt 3 { (h.hyt 3) with waiting := false, stepping := false, pc := 7, acc := [(2, 0x1000)] }; h;
      let e : Fin 16 := 3; let p : BitVec 5 := default; let a : BitVec 3 := 2; (Issues s e p)
      ∧ (0 ≤ accExp ((s.hw.hyt e).ac a.toNat))) ∧
    (let s : State := stateOf fun h => let h : Hw := h.setBit (hy 3 rSTAT) 0 true;
      let h : Hw := h.setHyt 3 { (h.hyt 3) with waiting := false, stepping := false, pc := 7, acc := [(2, 0x40000000000000)] }; h;
      let e : Fin 16 := 3; let p : BitVec 5 := default; let a : BitVec 3 := 2; (Issues s e p)
      ∧ (accExp ((s.hw.hyt e).ac a.toNat) < 0)) ∧
    (let s : State := stateOf fun h => let h : Hw := h.setBit (hy 3 rSTAT) 0 true;
      let h : Hw := h.setHyt 3 { (h.hyt 3) with waiting := false, stepping := false, pc := 7, d := [(3, 0x7FFFFF), (4, 0xFFFFF0)], acc := [(2, 0xF0000000000001), (1, 7)] }; h;
      let e : Fin 16 := 3; let p : BitVec 5 := default; (Issues s e p)) ∧
    (let s : State := stateOf fun h => let h : Hw := h.setBit (hy 3 rSTAT) 0 true;
      let h : Hw := h.setHyt 3 { (h.hyt 3) with waiting := false, stepping := false, pc := 7 }; h;
      let e : Fin 16 := 3; let p : BitVec 5 := default; (Issues s e p)) ∧
    (let s : State := stateOf fun h => let h : Hw := h.setBit (hy 3 rSTAT) 0 true;
      let h : Hw := h.setHyt 3 { (h.hyt 3) with waiting := false, stepping := false, pc := 7 }; h;
      let e : Fin 16 := 3; let p : BitVec 5 := default; let i : BitVec 16 := 0x81; (Issues s e p) ∧ (i.toNat < 256)) ∧
    (let s : State := stateOf fun h => let h : Hw := h.setBit (hy 3 rSTAT) 0 true;
      let h : Hw := h.setHyt 3 { (h.hyt 3) with waiting := false, stepping := false, pc := 7 }; h;
      let e : Fin 16 := 3; let p : BitVec 5 := default; (Issues s e p)) := by
  refine ⟨?_, ?_, ?_, ?_, ?_, ?_, ?_, ?_, ?_, ?_, ?_, ?_, ?_, ?_, ?_, ?_, ?_, ?_, ?_⟩ <;> decide

theorem witness_hytarMoves :
    (let s : State := stateOf fun h => let h : Hw := h.setBit (hy 3 rSTAT) 0 true;
      let h : Hw := h.setHyt 3 { (h.hyt 3) with waiting := false, stepping := false, pc := 7, d := [(5, 0x800001)], acc := [(5, 0x7FFFFFFFFFFFFF)], ix := [(6, 100)], md := [(6, 3)] }; h;
      let e : Fin 16 := 3; let p : BitVec 5 := default; let d : BitVec 7 := 3; let c : BitVec 7 := 5; (Issues s e p)
      ∧ (d.toNat < 32) ∧ (c.toNat < 32)) ∧
    (let s : State := stateOf fun h => let h : Hw := h.setBit (hy 3 rSTAT) 0 true;
      let h : Hw := h.setHyt 3 { (h.hyt 3) with waiting := false, stepping := false, pc := 7, d := [(5, 0x800001)], acc := [(5, 0x7FFFFFFFFFFFFF)], ix := [(6, 100)], md := [(6, 3)] }; h;
      let e : Fin 16 := 3; let p : BitVec 5 := default; let d : BitVec 7 := 3; let c : BitVec 7 := 37; (Issues s e p)
      ∧ (d.toNat < 32) ∧ (32 ≤ c.toNat) ∧ (c.toNat < 40)) ∧
    (let s : State := stateOf fun h => let h : Hw := h.setBit (hy 3 rSTAT) 0 true;
      let h : Hw := h.setHyt 3 { (h.hyt 3) with waiting := false, stepping := false, pc := 7, d := [(5, 0x800001)], acc := [(5, 0x7FFFFFFFFFFFFF)], ix := [(6, 100)], md := [(6, 3)] }; h;
      let e : Fin 16 := 3; let p : BitVec 5 := default; let d : BitVec 7 := 33; let c : BitVec 7 := 5; (Issues s e p)
      ∧ (32 ≤ d.toNat) ∧ (d.toNat < 40) ∧ (c.toNat < 32)) ∧
    (let s : State := stateOf fun h => let h : Hw := h.setBit (hy 3 rSTAT) 0 true;
      let h : Hw := h.setHyt 3 { (h.hyt 3) with waiting := false, stepping := false, pc := 7, d := [(5, 0x800001)], acc := [(5, 0x7FFFFFFFFFFFFF)], ix := [(6, 100)], md := [(6, 3)] }; h;
      let e : Fin 16 := 3; let p : BitVec 5 := default; let d : BitVec 7 := 43; let c : BitVec 7 := 5; (Issues s e p)
      ∧ (40 ≤ d.toNat) ∧ (d.toNat < 64) ∧ (c.toNat < 32)) ∧
    (let s : State := stateOf fun h => let h : Hw := h.setBit (hy 3 rSTAT) 0 true;
      let h : Hw := h.setHyt 3 { (h.hyt 3) with waiting := false, stepping := false, pc := 7, d := [(5, 0x800001)], acc := [(5, 0x7FFFFFFFFFFFFF)], ix := [(6, 100)], md := [(6, 3)] }; h;
      let e : Fin 16 := 3; let p : BitVec 5 := default; let d : BitVec 7 := 72; let c : BitVec 7 := 5; (Issues s e p)
      ∧ (64 ≤ d.toNat) ∧ (d.toNat < 78) ∧ (c.toNat < 32)) ∧
    (let s : State := stateOf fun h => let h : Hw := h.setBit (hy 3 rSTAT) 0 true;
      let h : Hw := h.setHyt 3 { (h.hyt 3) with waiting := false, stepping := false, pc := 7, d := [(5, 0x800001)], acc := [(5, 0x7FFFFFFFFFFFFF)], ix := [(6, 100)], md := [(6, 3)] }; h;
      let e : Fin 16 := 3; let p : BitVec 5 := default; let d : BitVec 7 := 33; let c : BitVec 7 := 76;
      (Issues s e p) ∧ (d.toNat < 78) ∧ (c.toNat < 78)) ∧
    (let s : State := stateOf fun h => let h : Hw := h.setBit (hy 3 rSTAT) 0 true;
      let h : Hw := h.setHyt 3 { (h.hyt 3) with waiting := false, stepping := false, pc := 7, d := [(5, 0x800001)], acc := [(5, 0x7FFFFFFFFFFFFF)], ix := [(6, 100)], md := [(6, 3)] }; h;
      let e : Fin 16 := 3; let p : BitVec 5 := default; let r : BitVec 5 := 23; (Issues s e p) ∧ (r.toNat < 24)) ∧
    (let s : State := stateOf fun h => let h : Hw := h.setBit (hy 3 rSTAT) 0 true;
      let h : Hw := h.setHyt 3 { (h.hyt 3) with waiting := false, stepping := false, pc := 7, d := [(5, 0x800001)], acc := [(5, 0x7FFFFFFFFFFFFF)], ix := [(6, 100)], md := [(6, 3)] }; h;
      let e : Fin 16 := 3; let p : BitVec 5 := default; let r : BitVec 5 := 6; (Issues s e p) ∧ (r.toNat < 24)) ∧
    (let s : State := stateOf fun h => let h : Hw := h.setBit (hy 3 rSTAT) 0 true;
      let h : Hw := h.setHyt 3 { (h.hyt 3) with waiting := false, stepping := false, pc := 7, d := [(5, 0x800001)], acc := [(5, 0x7FFFFFFFFFFFFF)], ix := [(6, 100)], md := [(6, 3)] }; h;
      let e : Fin 16 := 3; let p : BitVec 5 := default; let am : BitVec 3 := 1; let dp : BitVec 4 := default;
      (Issues s e p) ∧ (memLegal am.toNat dp = true)) ∧
    (let s : State := stateOf fun h => let h : Hw := h.setBit (hy 3 rSTAT) 0 true;
      let h : Hw := h.setHyt 3 { (h.hyt 3) with waiting := false, stepping := false, pc := 7, d := [(5, 0x800001)], acc := [(5, 0x7FFFFFFFFFFFFF)], ix := [(6, 100)], md := [(6, 3)] }; h;
      let e : Fin 16 := 3; let p : BitVec 5 := default; let am : BitVec 3 := 1; let dp : BitVec 4 := default;
      (Issues s e p) ∧ (memLegal am.toNat dp = true)) ∧
    (let s : State := stateOf fun h => let h : Hw := h.setBit (hy 3 rSTAT) 0 true;
      let h : Hw := h.setHyt 3 { (h.hyt 3) with waiting := false, stepping := false, pc := 7, d := [(5, 0x800001)], acc := [(5, 0x7FFFFFFFFFFFFF)], ix := [(6, 100)], md := [(6, 3)] }; h;
      let e : Fin 16 := 3; let p : BitVec 5 := default; let am : BitVec 3 := 1; let dp : BitVec 4 := default;
      (Issues s e p) ∧ (memLegal am.toNat dp = true)) ∧
    (let s : State := stateOf fun h => let h : Hw := h.setBit (hy 3 rSTAT) 0 true;
      let h : Hw := h.setHyt 3 { (h.hyt 3) with waiting := false, stepping := false, pc := 7, d := [(5, 0x800001)], acc := [(5, 0x7FFFFFFFFFFFFF)], ix := [(6, 100)], md := [(6, 3)] }; h;
      let e : Fin 16 := 3; let p : BitVec 5 := default; let d : BitVec 5 := 5; let am : BitVec 3 := 1;
      let dp : BitVec 4 := default; (Issues s e p) ∧ (memLegal am.toNat dp = true) ∧ (d.toNat < 8)) ∧
    (let s : State := stateOf fun h => let h : Hw := h.setBit (hy 3 rSTAT) 0 true;
      let h : Hw := h.setHyt 3 { (h.hyt 3) with waiting := false, stepping := false, pc := 7, d := [(5, 0x800001)], acc := [(5, 0x7FFFFFFFFFFFFF)], ix := [(6, 100)], md := [(6, 3)] }; h;
      let e : Fin 16 := 3; let p : BitVec 5 := default; let d : BitVec 5 := 5; let am : BitVec 3 := 1;
      let dp : BitVec 4 := default; (Issues s e p) ∧ (memLegal am.toNat dp = true) ∧ (d.toNat < 8)) ∧
    (let s : State := stateOf fun h => let h : Hw := h.setBit (hy 3 rSTAT) 0 true;
      let h : Hw := h.setHyt 3 { (h.hyt 3) with waiting := false, stepping := false, pc := 7, d := [(5, 0x800001)], acc := [(5, 0x7FFFFFFFFFFFFF)], ix := [(6, 100)], md := [(6, 3)] }; h;
      let e : Fin 16 := 3; let p : BitVec 5 := default; let am : BitVec 3 := 1; let dp : BitVec 4 := default;
      (Issues s e p) ∧ (memLegal am.toNat dp = true) ∧ (s.hw.pair.copying ≠ some e.val)) ∧
    (let s : State := stateOf fun h => let h : Hw := h.setBit (hy 3 rSTAT) 0 true;
      let h : Hw := h.setHyt 3 { (h.hyt 3) with waiting := false, stepping := false, pc := 7, d := [(5, 0x800001)], acc := [(5, 0x7FFFFFFFFFFFFF)], ix := [(6, 100)], md := [(6, 3)] }; h;
      let e : Fin 16 := 3; let p : BitVec 5 := default; let d : BitVec 5 := 5; let am : BitVec 3 := 1;
      let dp : BitVec 4 := default; (Issues s e p) ∧ (memLegal am.toNat dp = true) ∧ (s.hw.pair.copying ≠ some e.val)
      ∧ (d.toNat < 8)) ∧
    (let s : State := stateOf fun h => let h : Hw := h.setBit (hy 3 rSTAT) 0 true;
      let h : Hw := h.setHyt 3 { (h.hyt 3) with waiting := false, stepping := false, pc := 7, d := [(5, 0x800001)], acc := [(5, 0x7FFFFFFFFFFFFF)], ix := [(6, 100)], md := [(6, 3)] }; h;
      let e : Fin 16 := 3; let p : BitVec 5 := default; let d : BitVec 5 := 5; let i : BitVec 3 := 6;
      let am : BitVec 3 := 1; let dp : BitVec 4 := default; (Issues s e p) ∧ (memLegal am.toNat dp = true)
      ∧ (s.hw.pair.copying ≠ some e.val) ∧ (d.toNat < 8)
      ∧ (dmAddr e ((s.hw.hyt e).agu i.toNat ((s.hw.hyt e).memAddr i.toNat am.toNat dp) 1) ≠ dmAddr e ((s.hw.hyt e).memAddr i.toNat am.toNat dp))) := by
  refine ⟨?_, ?_, ?_, ?_, ?_, ?_, ?_, ?_, ?_, ?_, ?_, ?_, ?_, ?_, ?_, ?_⟩ <;> decide

theorem witness_hytarControl :
    (let s : State := stateOf fun h => let h : Hw := h.setBit (hy 3 rSTAT) 0 true;
      let h : Hw := h.setHyt 3 { (h.hyt 3) with waiting := false, stepping := false, pc := 7 }; h;
      let e : Fin 16 := 3; let p : BitVec 5 := default; (Issues s e p)) ∧
    (let s : State := stateOf fun h => let h : Hw := h.setBit (hy 3 rSTAT) 0 true;
      let h : Hw := h.setHyt 3 { (h.hyt 3) with waiting := false, stepping := false, pc := 7 }; h;
      let e : Fin 16 := 3; let p : BitVec 5 := default; (Issues s e p)) ∧
    (let s : State := stateOf fun h => let h : Hw := h.setBit (hy 3 rSTAT) 0 true;
      let h : Hw := h.setHyt 3 { (h.hyt 3) with waiting := false, stepping := false, pc := 7 }; h;
      let e : Fin 16 := 3; let p : BitVec 5 := default; (Issues s e p)) ∧
    (let s : State := stateOf fun h => let h : Hw := h.setBit (hy 3 rSTAT) 0 true;
      let h : Hw := h.setHyt 3 { (h.hyt 3) with waiting := false, stepping := false, pc := 7, epAt := [] }; h;
      let g : Nat := 0; let e : Fin 16 := 3; let p : BitVec 5 := default; (Issues s e p)
      ∧ (∀ x ∈ (s.hw.hyt e).epAt, x.2 ≠ max s.hw.grain g + 1)) ∧
    (let s : State := stateOf fun h => let h : Hw := h.setBit (hy 3 rSTAT) 0 true;
      let h : Hw := h.setHyt 3 { (h.hyt 3) with waiting := false, stepping := false, pc := 7, epAt := [(63, h.grain + 1)] }; h;
      let g : Nat := 0; let e : Fin 16 := 3; let p : BitVec 5 := default; let n : BitVec 6 := 63; (Issues s e p)
      ∧ (tabGet 0 n.toNat (s.hw.hyt e).epAt = max s.hw.grain g + 1)) ∧
    (let s : State := stateOf fun h => let h : Hw := h.setBit (hy 3 rSTAT) 0 true;
      let h : Hw := h.setHyt 3 { (h.hyt 3) with waiting := false, stepping := false, pc := 7, d := [(16, 1), (31, 5)], ecr := 0 }; h;
      let e : Fin 16 := 3; let p : BitVec 5 := default; let i : Fin 16 := 15; (Issues s e p)
      ∧ (i.val < (s.hw.hyt e).window)) ∧
    (let s : State := stateOf fun h => let h : Hw := h.setBit (hy 3 rSTAT) 0 true;
      let h : Hw := h.setHyt 3 { (h.hyt 3) with waiting := false, stepping := false, pc := 7, sr := 0 }; h;
      let e : Fin 16 := 3; let p : BitVec 5 := default; let c : BitVec 4 := 1; (Issues s e p)
      ∧ (hcond (s.hw.hyt e).sr c.toNat = false)) ∧
    (let s : State := stateOf fun h => let h : Hw := h.setBit (hy 3 rSTAT) 0 true;
      let h : Hw := h.setHyt 3 { (h.hyt 3) with waiting := false, stepping := false, pc := 7, loops := [{ first := 5, last := 9, left := 3 }] }; h;
      let e : Fin 16 := 3; let p : BitVec 5 := default; let c : BitVec 4 := 0; let tgt : BitVec 14 := 9;
      (Issues s e p) ∧ (hcond (s.hw.hyt e).sr c.toNat = true)
      ∧ ((s.hw.hyt e).loops.all (fun l => decide (l.first ≤ tgt.toNat ∧ tgt.toNat ≤ l.last)) = true)) ∧
    (let s : State := stateOf fun h => let h : Hw := h.setBit (hy 3 rSTAT) 0 true;
      let h : Hw := h.setHyt 3 { (h.hyt 3) with waiting := false, stepping := false, pc := 7, loops := [{ first := 5, last := 9, left := 3 }] }; h;
      let e : Fin 16 := 3; let p : BitVec 5 := default; let c : BitVec 4 := 0; let tgt : BitVec 14 := 10;
      let l : HLoop := { first := 5, last := 9, left := 3 }; (Issues s e p) ∧ (hcond (s.hw.hyt e).sr c.toNat = true)
      ∧ ((s.hw.hyt e).loops = [l]) ∧ (l.modulo = false) ∧ (tgt.toNat < l.first ∨ l.last < tgt.toNat)) ∧
    (let s : State := stateOf fun h => let h : Hw := h.setBit (hy 3 rSTAT) 0 true;
      let h : Hw := h.setHyt 3 { (h.hyt 3) with waiting := false, stepping := false, pc := 7, loops := [{ first := 5, last := 9, left := 3 }] }; h;
      let e : Fin 16 := 3; let p : BitVec 5 := default; let c : BitVec 4 := 0; (Issues s e p)
      ∧ (hcond (s.hw.hyt e).sr c.toNat = true)) ∧
    (let s : State := stateOf fun h => let h : Hw := h.setBit (hy 3 rSTAT) 0 true;
      let h : Hw := h.setHyt 3 { (h.hyt 3) with waiting := false, stepping := false, pc := 7, sr := 0 }; h;
      let e : Fin 16 := 3; let p : BitVec 5 := default; let c : BitVec 4 := 1; (Issues s e p)
      ∧ (hcond (s.hw.hyt e).sr c.toNat = false)) ∧
    (let s : State := stateOf fun h => let h : Hw := h.setBit (hy 3 rSTAT) 0 true;
      let h : Hw := h.setHyt 3 { (h.hyt 3) with waiting := false, stepping := false, pc := 7 }; h;
      let e : Fin 16 := 3; let p : BitVec 5 := default; (Issues s e p)) ∧
    (let s : State := stateOf fun h => let h : Hw := h.setBit (hy 3 rSTAT) 0 true;
      let h : Hw := h.setHyt 3 { (h.hyt 3) with waiting := false, stepping := false, pc := 7, loops := [] }; h;
      let e : Fin 16 := 3; let p : BitVec 5 := default; let n : BitVec 13 := 5; let len : BitVec 8 := 255;
      (Issues s e p) ∧ (n ≠ 0) ∧ ((s.hw.hyt e).loops.length < 4) ∧ ((s.hw.hyt e).bodyOk len.toNat = true)) ∧
    (let s : State := stateOf fun h => let h : Hw := h.setBit (hy 3 rSTAT) 0 true;
      let h : Hw := h.setHyt 3 { (h.hyt 3) with waiting := false, stepping := false, pc := 7, loops := [] }; h;
      let e : Fin 16 := 3; let p : BitVec 5 := default; let len : BitVec 8 := 255; (Issues s e p)
      ∧ ((s.hw.hyt e).bodyOk len.toNat = true)) ∧
    (let s : State := stateOf fun h => let h : Hw := h.setBit (hy 3 rSTAT) 0 true;
      let h : Hw := h.setHyt 3 { (h.hyt 3) with waiting := false, stepping := false, pc := 7, loops := List.replicate 4 { first := 0, last := 900, left := 2 }, ln := [(0, 9)] }; h;
      let e : Fin 16 := 3; let p : BitVec 5 := default; let r : BitVec 5 := 16; let len : BitVec 8 := 2;
      (Issues s e p) ∧ (r.toNat < 24) ∧ ((s.hw.hyt e).areg r.toNat ≠ 0) ∧ (4 ≤ (s.hw.hyt e).loops.length)
      ∧ ((s.hw.hyt e).bodyOk len.toNat = true)) ∧
    (let s : State := stateOf fun h => let h : Hw := h.setBit (hy 3 rSTAT) 0 true;
      let h : Hw := h.setHyt 3 { (h.hyt 3) with waiting := false, stepping := false, pc := 7, loops := [], ln := [(0, 9)] }; h;
      let e : Fin 16 := 3; let p : BitVec 5 := default; let r : BitVec 5 := 16; let len : BitVec 8 := 2;
      (Issues s e p) ∧ (r.toNat < 24) ∧ ((s.hw.hyt e).areg r.toNat ≠ 0) ∧ ((s.hw.hyt e).loops.length < 4)
      ∧ ((s.hw.hyt e).bodyOk len.toNat = true)) ∧
    (let s : State := stateOf fun h => let h : Hw := h.setBit (hy 3 rSTAT) 0 true;
      let h : Hw := h.setHyt 3 { (h.hyt 3) with waiting := false, stepping := false, pc := 7, loops := [], ln := [(0, 9)] }; h;
      let e : Fin 16 := 3; let p : BitVec 5 := default; let r : BitVec 5 := 16; let len : BitVec 8 := 2;
      (Issues s e p) ∧ (r.toNat < 24) ∧ ((s.hw.hyt e).areg r.toNat ≠ 0) ∧ ((s.hw.hyt e).loops.length < 4)
      ∧ ((s.hw.hyt e).bodyOk len.toNat = true)) ∧
    (let s : State := stateOf fun h => let h : Hw := h.setBit (hy 3 rSTAT) 0 true;
      let h : Hw := h.setHyt 3 { (h.hyt 3) with waiting := false, stepping := false, pc := 7, loops := [] }; h;
      let e : Fin 16 := 3; let p : BitVec 5 := default; let n : BitVec 9 := 1; let len : BitVec 8 := 2;
      (Issues s e p) ∧ (n ≠ 0) ∧ ((s.hw.hyt e).loops.length < 4) ∧ ((s.hw.hyt e).bodyOk len.toNat = true)) ∧
    (let s : State := stateOf fun h => let h : Hw := h.setBit (hy 3 rSTAT) 0 true;
      let h : Hw := h.setHyt 3 { (h.hyt 3) with waiting := false, stepping := false, pc := 7 }; h;
      let e : Fin 16 := 3; let p : BitVec 5 := default; let pg : BitVec 2 := 1; let q : BitVec 2 := 3;
      let two : Bool := true; (Issues s e p) ∧ (two = false ∨ q ≠ pg)) := by
  refine ⟨?_, ?_, ?_, ?_, ?_, ?_, ?_, ?_, ?_, ?_, ?_, ?_, ?_, ?_, ?_, ?_, ?_, ?_, ?_⟩ <;> decide

theorem witness_hytarPredicatesPortsFabric :
    (let s : State := stateOf fun h => let h : Hw := h.setBit (hy 3 rSTAT) 0 true;
      let h : Hw := h.setHyt 3 { (h.hyt 3) with waiting := false, stepping := false, pc := 7 }; h;
      let e : Fin 16 := 3; let p : BitVec 5 := 2; (Live s) ∧ (Settled s) ∧ (s.hw.hytRuns e = true)
      ∧ ((s.hw.hyt e).waiting = false) ∧ ((s.hw.hyt e).stepping = false) ∧ (s.hw.sup.eccHyt = [])
      ∧ (predLegal p.toNat = true) ∧ ((s.hw.hyt e).pred p.toNat = false)) ∧
    (let s : State := stateOf fun h => let h : Hw := h.setBit (hy 3 rSTAT) 0 true;
      let h : Hw := h.setHyt 3 { (h.hyt 3) with waiting := false, stepping := false, pc := 7 }; h;
      let e : Fin 16 := 3; let p : BitVec 5 := 2; let am : BitVec 3 := 5; let dp : BitVec 4 := default; (Live s)
      ∧ (Settled s) ∧ (s.hw.hytRuns e = true) ∧ ((s.hw.hyt e).waiting = false) ∧ ((s.hw.hyt e).stepping = false)
      ∧ (s.hw.sup.eccHyt = []) ∧ (predLegal p.toNat = true) ∧ ((s.hw.hyt e).pred p.toNat = false)
      ∧ (memLegal am.toNat dp = true)) ∧
    (let s : State := stateOf fun h => let h : Hw := h.setBit (hy 3 rSTAT) 0 true;
      let h : Hw := h.setHyt 3 { (h.hyt 3) with waiting := false, stepping := false, pc := 7 }; h;
      let e : Fin 16 := 3; let p : BitVec 5 := 2; (Live s) ∧ (Settled s) ∧ (s.hw.hytRuns e = true)
      ∧ ((s.hw.hyt e).waiting = false) ∧ ((s.hw.hyt e).stepping = false) ∧ (s.hw.sup.eccHyt = [])
      ∧ (predLegal p.toNat = true) ∧ ((s.hw.hyt e).pred p.toNat = false)) ∧
    (let s : State := stateOf fun h => let h : Hw := h.setBit (hy 3 rSTAT) 0 true;
      let h : Hw := h.setHyt 3 { (h.hyt 3) with waiting := false, stepping := false, pc := 7 }; h;
      let e : Fin 16 := 3; let p : BitVec 5 := 2; let x : Bool := default; let n : BitVec 7 := default; (Live s)
      ∧ (Settled s) ∧ (s.hw.hytRuns e = true) ∧ ((s.hw.hyt e).waiting = false) ∧ ((s.hw.hyt e).stepping = false)
      ∧ (s.hw.sup.eccHyt = []) ∧ (predLegal p.toNat = true) ∧ ((s.hw.hyt e).pred p.toNat = false)
      ∧ (x = false ∨ n.toNat % 16 = 0)) ∧
    (let s : State := stateOf fun h => let h : Hw := h.setBit (hy 3 rSTAT) 0 true;
      let h : Hw := h.setHyt 3 { (h.hyt 3) with waiting := false, stepping := false, pc := 7 }; h;
      let e : Fin 16 := 3; let p : BitVec 5 := 2; (Live s) ∧ (Settled s) ∧ (s.hw.hytRuns e = true)
      ∧ ((s.hw.hyt e).waiting = false) ∧ ((s.hw.hyt e).stepping = false) ∧ (s.hw.sup.eccHyt = [])
      ∧ (predLegal p.toNat = true) ∧ ((s.hw.hyt e).pred p.toNat = false)) ∧
    (let s : State := stateOf fun h => let h : Hw := h.setBit (hy 3 rSTAT) 0 true;
      let h : Hw := h.setHyt 3 { (h.hyt 3) with waiting := false, stepping := false, pc := 7 }; h;
      let e : Fin 16 := 3; let p : BitVec 5 := 5; (Live s) ∧ (Settled s) ∧ (s.hw.hytRuns e = true)
      ∧ ((s.hw.hyt e).waiting = false) ∧ ((s.hw.hyt e).stepping = false) ∧ (s.hw.sup.eccHyt = [])
      ∧ (predLegal p.toNat = false)) ∧
    (let s : State := stateOf fun h => let h : Hw := h.setBit (hy 3 rSTAT) 0 true;
      let h : Hw := h.setHyt 3 { (h.hyt 3) with waiting := false, stepping := false, pc := 7 }; h;
      let e : Fin 16 := 3; let w : Word := 0xFFFFFFFF; (Live s) ∧ (Settled s) ∧ (s.hw.hytRuns e = true)
      ∧ ((s.hw.hyt e).waiting = false) ∧ ((s.hw.hyt e).stepping = false) ∧ (s.hw.sup.eccHyt = [])
      ∧ (s.hw.wordLegal e w = false)) ∧
    (let s : State := stateOf fun h => let h : Hw := h.setBit (hy 3 rSTAT) 0 true;
      let h : Hw := (h.setReg (cr 0 0x044) 0).setReg (cr 1 0x044) 2; let h : Hw := h.setReg (hy 3 0x04C) 2;
      let h : Hw := h.setHyt 3 { (h.hyt 3) with waiting := false, stepping := false, pc := 7, port := [] }; h;
      let e : Fin 16 := 3; let p : BitVec 5 := default; let n : BitVec 7 := 5; (Live s) ∧ (Settled s)
      ∧ (s.hw.hytRuns e = true) ∧ ((s.hw.hyt e).waiting = false) ∧ ((s.hw.hyt e).stepping = false)
      ∧ (s.hw.sup.eccHyt = []) ∧ (Issues s e p) ∧ (s.hw.ownsLeg e n.toNat = true) ∧ ((s.hw.hyt e).port.length < 8)) ∧
    (let s : State := stateOf fun h => let h : Hw := h.setBit (hy 3 rSTAT) 0 true;
      let h : Hw := h.setHyt 3 { (h.hyt 3) with waiting := false, stepping := false, pc := 7 }; h;
      let e : Fin 16 := 3; let p : BitVec 5 := default; let n : BitVec 7 := 127; (Live s) ∧ (Settled s)
      ∧ (s.hw.hytRuns e = true) ∧ ((s.hw.hyt e).waiting = false) ∧ ((s.hw.hyt e).stepping = false)
      ∧ (s.hw.sup.eccHyt = []) ∧ (Issues s e p) ∧ (s.hw.ownsLeg e n.toNat = false)) ∧
    (let s : State := stateOf fun h => let h : Hw := h.setBit (hy 3 rSTAT) 0 true;
      let h : Hw := (h.setReg (cr 0 0x044) 0).setReg (cr 1 0x044) 2; let h : Hw := h.setReg (hy 3 0x04C) 2;
      let h : Hw := h.setHyt 3 { (h.hyt 3) with waiting := false, stepping := false, pc := 7, port := List.replicate 8 {} }; h;
      let e : Fin 16 := 3; let p : BitVec 5 := default; let n : BitVec 7 := 5; (Live s) ∧ (Settled s)
      ∧ (s.hw.hytRuns e = true) ∧ ((s.hw.hyt e).waiting = false) ∧ ((s.hw.hyt e).stepping = false)
      ∧ (s.hw.sup.eccHyt = []) ∧ (Issues s e p) ∧ (s.hw.ownsLeg e n.toNat = true) ∧ (8 ≤ (s.hw.hyt e).port.length)) ∧
    (let s : State := stateOf fun h => let h : Hw := h.setBit (hy 3 rSTAT) 0 true;
      let h : Hw := h.setReg (hy 3 0x04C) 2;
      let h : Hw := h.setHyt 3 { (h.hyt 3) with waiting := false, stepping := false, pc := 7, port := [] }; h;
      let e : Fin 16 := 3; let p : BitVec 5 := default; let n : BitVec 5 := 1; (Live s) ∧ (Settled s)
      ∧ (s.hw.hytRuns e = true) ∧ ((s.hw.hyt e).waiting = false) ∧ ((s.hw.hyt e).stepping = false)
      ∧ (s.hw.sup.eccHyt = []) ∧ (Issues s e p) ∧ (s.hw.ownsAxis e n.toNat = true) ∧ ((s.hw.hyt e).port.length < 8)) ∧
    (let s : State := stateOf fun h => let h : Hw := h.setBit (hy 3 rSTAT) 0 true;
      let h : Hw := h.setHyt 3 { (h.hyt 3) with waiting := false, stepping := false, pc := 7, acc := [(1, 0x1FFFFC)] }; h;
      let e : Fin 16 := 3; let p : BitVec 5 := default; let a : BitVec 3 := 1; (Live s) ∧ (Settled s)
      ∧ (s.hw.hytRuns e = true) ∧ ((s.hw.hyt e).waiting = false) ∧ ((s.hw.hyt e).stepping = false)
      ∧ (s.hw.sup.eccHyt = []) ∧ (Issues s e p) ∧ ((s.hw.hyt e).berr = none)
      ∧ (((s.hw.hyt e).ac a.toNat).toNat % 2 ^ 32 + 4 ≤ 0x200000)) ∧
    (let s : State := stateOf fun h => let h : Hw := h.setBit (hy 3 rSTAT) 0 true;
      let h : Hw := h.setHyt 3 { (h.hyt 3) with waiting := false, stepping := false, pc := 7, acc := [(1, 0x1FFFFC), (2, 9)] }; h;
      let e : Fin 16 := 3; let p : BitVec 5 := default; let a : BitVec 3 := 1; (Live s) ∧ (Settled s)
      ∧ (s.hw.hytRuns e = true) ∧ ((s.hw.hyt e).waiting = false) ∧ ((s.hw.hyt e).stepping = false)
      ∧ (s.hw.sup.eccHyt = []) ∧ (Issues s e p) ∧ (((s.hw.hyt e).ac a.toNat).toNat % 2 ^ 32 + 4 ≤ 0x200000)) ∧
    (let s : State := stateOf fun h => let h : Hw := h.setBit (hy 3 rSTAT) 0 true;
      let h : Hw := h.setHyt 3 { (h.hyt 3) with waiting := false, stepping := false, pc := 7, acc := [(1, 0x1FFFFC)], berr := some 7 }; h;
      let e : Fin 16 := 3; let p : BitVec 5 := default; (Live s) ∧ (Settled s) ∧ (s.hw.hytRuns e = true)
      ∧ ((s.hw.hyt e).waiting = false) ∧ ((s.hw.hyt e).stepping = false) ∧ (s.hw.sup.eccHyt = []) ∧ (Issues s e p)
      ∧ ((s.hw.hyt e).berr.isSome = true)) ∧
    (let s : State := stateOf fun h => let h : Hw := h.setBit (hy 3 rSTAT) 0 true;
      let h : Hw := h.setHyt 3 { (h.hyt 3) with waiting := false, stepping := false, pc := 7, acc := [(1, 0x80000000)] }; h;
      let e : Fin 16 := 3; let p : BitVec 5 := default; let a : BitVec 3 := 1; (Live s) ∧ (Settled s)
      ∧ (s.hw.hytRuns e = true) ∧ ((s.hw.hyt e).waiting = false) ∧ ((s.hw.hyt e).stepping = false)
      ∧ (s.hw.sup.eccHyt = []) ∧ (Issues s e p) ∧ ((s.hw.hyt e).berr = none)
      ∧ (0x80000000 ≤ ((s.hw.hyt e).ac a.toNat).toNat % 2 ^ 32)) ∧
    (let s : State := stateOf fun h => let h : Hw := h.setBit (hy 3 rSTAT) 0 true;
      let h : Hw := h.setHyt 3 { (h.hyt 3) with waiting := false, stepping := false, pc := 7, acc := [(1, 0x80000000)] }; h;
      let e : Fin 16 := 3; let p : BitVec 5 := default; let a : BitVec 3 := 1; (Live s) ∧ (Settled s)
      ∧ (s.hw.hytRuns e = true) ∧ ((s.hw.hyt e).waiting = false) ∧ ((s.hw.hyt e).stepping = false)
      ∧ (s.hw.sup.eccHyt = []) ∧ (Issues s e p) ∧ ((s.hw.hyt e).berr = none)
      ∧ (0x80000000 ≤ ((s.hw.hyt e).ac a.toNat).toNat % 2 ^ 32)) := by
  refine ⟨?_, ?_, ?_, ?_, ?_, ?_, ?_, ?_, ?_, ?_, ?_, ?_, ?_, ?_, ?_, ?_⟩ <;> decide

theorem witness_engineHaltsAndStarts :
    (let s : State := stateOf fun h => let h : Hw := (((h.setReg (hy 3 rSTAT) 0).setReg (hy 3 rLOCK) 0).setReg (hy 3 rCTRL) 0).setReg (hy 3 0x040) 77; h;
      let e : Fin 16 := 3; (Live s) ∧ (Unlocked s (pHYT e)) ∧ (s.hw.bit (hy e rCTRL) 0 = false)) ∧
    (let s : State := stateOf fun h => let h : Hw := (((h.setReg (hy 3 rSTAT) 2).setReg (hy 3 rLOCK) 0).setReg (hy 3 0x048) 3).setReg (hy 3 rCTRL) 1;
      let h : Hw := { h with hyts := [], kerns := [] }; h; let e : Fin 16 := 3; (Live s) ∧ (Unlocked s (pHYT e))
      ∧ (s.hw.bit (hy e rCTRL) 0 = true)) ∧
    (let s : State := stateOf fun h => let h : Hw := (h.setBit (hy 3 rSTAT) 0 true).setReg (hy 3 rLOCK) 0;
      let h : Hw := h.setReg (hy 3 0x04C) 0; h; let e : Fin 16 := 3; (Live s) ∧ (Unlocked s (pHYT e))
      ∧ (s.hw.hytRuns e = true)) ∧
    (let s : State := stateOf fun h => let h : Hw := (h.setBit (hy 3 rSTAT) 0 true).setReg (hy 3 rLOCK) 0;
      let h : Hw := h.setReg (hy 3 0x04C) 0; h; let e : Fin 16 := 3; (Live s) ∧ (Unlocked s (pHYT e))
      ∧ (s.hw.hytRuns e = true)) ∧
    (let s : State := stateOf fun h => let h : Hw := (h.setBit (hy 3 rSTAT) 0 true).setReg (hy 3 rLOCK) 0;
      let h : Hw := h.setReg (hy 3 0x04C) 0; let h : Hw := h.setHyt 3 { pc := 9 };
      let h : Hw := h.setReg (hy 3 0x054) 0x80000009; h; let e : Fin 16 := 3; (Live s) ∧ (s.hw.hytRuns e = true)
      ∧ ((s.hw.hyt e).waiting = false) ∧ (s.hw.bit (hy e 0x054) 31 = true)
      ∧ (s.hw.f (hy e 0x054) 13 0 = (s.hw.hyt e).pc.toNat)) ∧
    (let s : State := stateOf fun h => let h : Hw := (h.setBit (hy 3 rSTAT) 0 true).setReg (hy 3 rLOCK) 0;
      let h : Hw := h.setReg (hy 3 0x04C) 0; let h : Hw := h.setHyt 3 { berr := some 0x70000000 }; h;
      let e : Fin 16 := 3; let addr : Word := 0x70000000; (Live s) ∧ ((s.hw.hyt e).berr = some addr)
      ∧ (s.hw.hytRuns e = true)) ∧
    (let s : State := stateOf fun h => let h : Hw := (h.setBit (hy 3 rSTAT) 0 true).setReg (hy 3 0x04C) 2;
      let h : Hw := ((h.setReg (cr 0 0x044) 0).setReg (cr 1 0x044) 2).setReg (hy 3 0x050) 50;
      let h : Hw := (h.setBit (lg 5 rCTRL) 0 true).setHyt 3 { commitAt := [(1, 7)] };
      let h : Hw := { h with enAt := [] }; h; let g : Nat := 999999999; let e : Fin 16 := 3; let a : Fin 32 := 1;
      (Live s) ∧ (s.hw.hytRuns e = true) ∧ (s.hw.reg (hy e 0x050) ≠ 0) ∧ (a.val ∈ s.hw.hytEnabled e)
      ∧ (Nat.max (tabGet 0 a.val (s.hw.hyt e).commitAt) (tabGet 0 a.val s.hw.enAt) + (s.hw.reg (hy e 0x050)).toNat < max s.hw.grain g)) ∧
    (let s : State := stateOf fun h => let h : Hw := (((h.setReg (hy 3 rSTAT) 2).setReg (hy 3 rLOCK) 0).setReg (hy 3 0x048) 3).setReg (hy 3 rCTRL) 1;
      let h : Hw := { h with hyts := [], kerns := [] }; h; let e : Fin 16 := 3; (Live s) ∧ (Unlocked s (pHYT e))
      ∧ (s.hw.hytDebug e = true)) ∧
    (let s : State := stateOf fun h => let h : Hw := (h.setBit (hy 3 rSTAT) 0 true).setReg (hy 3 rLOCK) 0;
      let h : Hw := h.setReg (hy 3 0x04C) 0; h; let e : Fin 16 := 3; (Live s) ∧ (Unlocked s (pHYT e))
      ∧ (s.hw.hytDebug e = false)) ∧
    (let s : State := stateOf fun h => let h : Hw := (((h.setReg (hy 3 rSTAT) 2).setReg (hy 3 rLOCK) 0).setReg (hy 3 0x048) 3).setReg (hy 3 rCTRL) 1;
      let h : Hw := { h with hyts := [], kerns := [] }; h; let e : Fin 16 := 3; (Live s) ∧ (Unlocked s (pHYT e))
      ∧ (Settled s) ∧ (s.hw.hytDebug e = true) ∧ ((s.hw.hyt e).waiting = false)
      ∧ (s.hw.rd32 s.mem (pmAddr e (s.hw.hyt e).pc.toNat) = 0) ∧ (s.hw.sup.eccHyt = [])) ∧
    (let s : State := stateOf fun h => let h : Hw := (h.setBit (hy 3 rSTAT) 0 true).setReg (hy 3 rLOCK) 0;
      let h : Hw := h.setReg (hy 3 0x04C) 0;
      let h : Hw := h.setHyt 3 { waiting := true, epend := 8, emask := 24 }; h; let e : Fin 16 := 3; (Live s)
      ∧ (s.hw.hytRuns e = true) ∧ ((s.hw.hyt e).waiting = true) ∧ ((s.hw.hyt e).stepping = false)
      ∧ ((s.hw.hyt e).epend &&& (s.hw.hyt e).emask ≠ 0)) ∧
    (let s : State := stateOf fun h => let h : Hw := (h.setBit (hy 3 rSTAT) 0 true).setReg (hy 3 rLOCK) 0;
      let h : Hw := h.setReg (hy 3 0x04C) 0;
      let h : Hw := h.setHyt 3 { waiting := true, epend := 8, emask := 16 }; h; let e : Fin 16 := 3; (Live s)
      ∧ ((s.hw.hyt e).epend &&& (s.hw.hyt e).emask = 0)) ∧
    (let s : State := stateOf fun h => let h : Hw := (h.setBit (hy 3 rSTAT) 0 true).setReg (hy 3 rLOCK) 0;
      let h : Hw := h.setReg (hy 3 0x04C) 0; let h : Hw := { h with cntCyc := [], evtCyc := [] };
      let h : Hw := (h.setReg (hy 3 0x064) 0x50003).setReg (hy 3 0x06C) 5; h; let g : Nat := 0; let e : Fin 16 := 3;
      (Live s) ∧ (Unlocked s (pHYT e)) ∧ (∀ x ∈ s.hw.cntCyc, x.2.cycle ≠ max s.hw.grain g / 5)
      ∧ (∀ x ∈ s.hw.evtCyc, x.2.cycle ≠ max s.hw.grain g / 5)) := by
  refine ⟨?_, ?_, ?_, ?_, ?_, ?_, ?_, ?_, ?_, ?_, ?_, ?_, ?_⟩ <;> decide

set_option maxRecDepth 100000 in
theorem witness_engineInputsAndWrites :
    (let s : State := stateOf fun h => let h : Hw := (h.setReg (hy 3 0x080) 0).setReg (hy 3 rLOCK) 0; h;
      let e : Fin 16 := 3; let i : Fin 32 := default; (Live s) ∧ (s.hw.f (hy e (0x080 + 4 * i)) 26 24 = 0)) ∧
    (let s : State := stateOf fun h => let h : Hw := h.setReg (hy 3 0x0FC) 0x04000000;
      let h : Hw := h.setHyt 3 {}; h; let e : Fin 16 := 3; let i : Fin 32 := 31; (Live s) ∧ (Settled s)
      ∧ (1 ≤ s.hw.f (hy e (0x080 + 4 * i)) 26 24) ∧ (s.hw.f (hy e (0x080 + 4 * i)) 26 24 ≤ 4)
      ∧ (s.hw.pair.copying ≠ some e.val) ∧ ((s.hw.hyt e).epend.getLsbD i = false)) ∧
    (let s : State := stateOf fun h => let h : Hw := h.setReg (hy 3 0x0FC) 0x04000000;
      let h : Hw := h.setHyt 3 { epend := 0x80000000 }; h; let e : Fin 16 := 3; let i : Fin 32 := 31; (Live s)
      ∧ (s.hw.f (hy e (0x080 + 4 * i)) 26 24 ≠ 0) ∧ ((s.hw.hyt e).epend.getLsbD i = true)) ∧
    (let s : State := stateOf fun h => let h : Hw := h.setHyt 3 { tmr := 10 }; h; let g : Nat := 500;
      let e : Fin 16 := 3; (Live s) ∧ ((s.hw.hyt e).tmr ≠ 0)
      ∧ ((s.hw.hyt e).tmr ≤ 2 * (max s.hw.grain g - (s.hw.hyt e).tmrAt))) ∧
    (let s : State := stateOf fun h => let h : Hw := h.setHyt 3 {}; h; let g : Nat := 0; let e : Fin 16 := 3;
      (Live s) ∧ ((s.hw.hyt e).tmr = 0 ∨ 2 * (max s.hw.grain g - (s.hw.hyt e).tmrAt) < (s.hw.hyt e).tmr)) ∧
    (let s : State := stateOf fun h => let h : Hw := (h.setReg (hy 3 0x080) 0).setReg (hy 3 rLOCK) 0; h;
      let e : Fin 16 := 3; (Live s) ∧ (Unlocked s (pHYT e))) ∧
    (let s : State := stateOf fun h => let h : Hw := h.setHyt 3 { port := [{ unit := 5, v := 900 }] }; h;
      let g : Nat := 5; let e : Fin 16 := 3; let en : PortEnt := { unit := 5, v := 900 };
      let rest : List PortEnt := []; (Live s) ∧ ((s.hw.hyt e).port = en :: rest) ∧ (en.commit = false)
      ∧ ((en.left + 3) / 5 ≤ max s.hw.grain g / 5)) ∧
    (let s : State := stateOf fun h => let h : Hw := h.setHyt 3 { port := [{ unit := 5, commit := true }] }; h;
      let g : Nat := 5; let e : Fin 16 := 3; let en : PortEnt := { unit := 5, commit := true };
      let rest : List PortEnt := []; (Live s) ∧ ((s.hw.hyt e).port = en :: rest) ∧ (en.commit = true)
      ∧ ((en.left + 3) / 5 ≤ max s.hw.grain g / 5)) ∧
    (let s : State := stateOf fun h => let h : Hw := h.setReg (hy 3 rSTAT) 0; h; let e : Fin 16 := 3; (Live s)
      ∧ (Settled s) ∧ (s.hw.hytRuns e = false)) ∧
    (let s : State := stateOf fun h => let h : Hw := (h.setBit (hy 3 rSTAT) 0 true).setReg (hy 3 rLOCK) 0;
      let h : Hw := h.setReg (hy 3 0x04C) 0; h; let e : Fin 16 := 3; (Live s) ∧ (Settled s)
      ∧ (s.hw.hytRuns e = true)) ∧
    (let s : State := stateOf fun h => let h : Hw := ((h.setReg (hy 3 rSTAT) 0).setReg (hy 3 rLOCK) 0).setReg (hy 3 0x04C) 4;
      let h : Hw := (List.range 96).foldl (fun h n => h.setReg (lg n rCTRL) 0) h; h; let e : Fin 16 := 3;
      let v : Word := 6; (Live s) ∧ (Unlocked s (pHYT e)) ∧ (s.hw.hytRuns e = false)
      ∧ ((bridgesOf (s.hw.reg (hy e 0x04C) ||| v)).any (fun a => (s.hw.axisLegs a).any s.hw.legEnabled) = false)
      ∧ ((List.range 16).any (fun o => o != e.val && (s.hw.reg (hy o 0x04C) &&& v &&& ~~~(s.hw.reg (hy e 0x04C))) != 0) = false)) ∧
    (let s : State := stateOf fun h => let h : Hw := (h.setBit (hy 3 rSTAT) 0 true).setReg (hy 3 rLOCK) 0;
      let h : Hw := h.setReg (hy 3 0x04C) 0; h; let e : Fin 16 := 3; (Live s) ∧ (Unlocked s (pHYT e))
      ∧ (s.hw.hytRuns e = true)) ∧
    (let s : State := stateOf fun h => let h : Hw := (h.setReg (hy 3 0x080) 0).setReg (hy 3 rLOCK) 0; h;
      let e : Fin 16 := 3; let v : Word := 0x0300F087; (Live s) ∧ (Unlocked s (pHYT e)) ∧ (sinOk v = true)) ∧
    (let s : State := stateOf fun h => let h : Hw := (h.setReg (hy 3 0x080) 0).setReg (hy 3 rLOCK) 0; h;
      let e : Fin 16 := 3; let v : Word := 0x05000000; (Live s) ∧ (Unlocked s (pHYT e)) ∧ (sinOk v = false)) ∧
    (let s : State := stateOf fun h => let h : Hw := (h.setReg (hy 3 0x080) 0).setReg (hy 3 rLOCK) 0; h;
      let e : Fin 16 := 3; let v : Word := 0x0000061F; (Live s) ∧ (Unlocked s (pHYT e)) ∧ (fld v 10 8 ≤ 6)) ∧
    (let s : State := stateOf fun h => let h : Hw := (h.setReg (hy 3 0x080) 0).setReg (hy 3 rLOCK) 0; h;
      let e : Fin 16 := 3; let v : Word := 0x0000071F; (Live s) ∧ (Unlocked s (pHYT e)) ∧ (6 < fld v 10 8)) := by
  refine ⟨?_, ?_, ?_, ?_, ?_, ?_, ?_, ?_, ?_, ?_, ?_, ?_, ?_, ?_, ?_, ?_⟩ <;> decide +kernel

set_option maxRecDepth 100000 in
theorem witness_kernelSteps :
    (let s : State := stateWith (fun h => let h : Hw := (h.setReg (hy 3 rSTAT) 1).setHyt 3 {};
      let h : Hw := { h with kerns := [(6, { seen := true })], fbs := [] }; let h : Hw := h.setReg (hy 3 0x04C) 2;
      let h : Hw := ((h.setReg (hy 3 0x050) 9999).setReg (cr 0 0x044) 0).setReg (cr 1 0x044) 1;
      let h : Hw := (h.setReg (cr 1 0x040) 1).setReg (cr 1 0x04C) 100000;
      let h : Hw := (List.range 3).foldl (fun h n => ((h.setReg (sd n 0x044) 1).setReg (hy 3 (0x080 + 4 * n)) (BitVec.ofNat 32 (0x01000000 + n))).setReg (sd n 0x040) 0x40) h;
      let h : Hw := (List.range 9).foldl (fun h n => h.setReg (hy 3 (0x08C + 4 * n)) 0) h;
      let h : Hw := ((((h.setReg (hy 3 0x0B0) 0x01000060).setReg (hy 3 0x0B4) 0x02000003).setReg (hy 3 0x0B8) 0x03000005).setReg (hy 3 0x0BC) 0x04000000).setReg (sd 96 0x044) 1;
      let h : Hw := (h.setReg (sd 96 0x040) 0x40).setReg (sd 0 0x080) 40;
      let h : Hw := (h.setReg (sd 4 0x080) 40).setReg (ck 0x048) 100000; h) (fun m => put32 (put32 (put32 (put32 (put32 (put32 (put32 (put32 (put32 (put32 (put32 (put32 (put32 (put32 (put32 (put32 (put32 (m) (dmAddr 3 321) 1) (dmAddr 3 322) 96) (dmAddr 3 323) 3) (dmAddr 3 324) 5) (dmAddr 3 325) 0) (dmAddr 3 326) 0) (dmAddr 3 328) 4) (dmAddr 3 329) 4096) (dmAddr 3 331) 3000) (dmAddr 3 343) 4096) (dmAddr 3 349) 1000) (dmAddr 3 350) 4096) (dmAddr 3 355) 1048576) (dmAddr 3 357) 1) (dmAddr 3 382) 4194304) (dmAddr 3 383) 3) (dmAddr 3 256) 5);
      let g : Nat := 0; let e : Fin 16 := 3; let slot : Bool := false; (Live s) ∧ (Settled s)
      ∧ (s.hw.hytRuns e = true) ∧ ((s.hw.hyt e).hookAt = none) ∧ ((s.hw.kSlots e).any (s.hw.kDue s.mem) = false)
      ∧ ((s.hw.hyt e).owed = []) ∧ (bitOf (s.hw.dmRd s.mem e (0x0100 + 0x0400 * slotN slot)) 0 = true)
      ∧ (((((s.hw.at g).upHyt e fun x => { x with hookAt := none }).kResume s.mem ({ e := e.val, s := slotN slot, bank := fld (s.hw.dmRd s.mem e (0x0100 + 0x0400 * slotN slot)) 4 4 } : KAx)).kern ({ e := e.val, s := slotN slot, bank := fld (s.hw.dmRd s.mem e (0x0100 + 0x0400 * slotN slot)) 4 4 } : KAx)).run = false)
      ∧ ((((s.hw.at g).upHyt e fun x => { x with hookAt := none }).kResume s.mem ({ e := e.val, s := slotN slot, bank := fld (s.hw.dmRd s.mem e (0x0100 + 0x0400 * slotN slot)) 4 4 } : KAx)).kCheck s.mem ({ e := e.val, s := slotN slot, bank := fld (s.hw.dmRd s.mem e (0x0100 + 0x0400 * slotN slot)) 4 4 } : KAx) (min 2 (fld (s.hw.dmRd s.mem e (0x0100 + 0x0400 * slotN slot)) 2 1)) = 0)) ∧
    (let s : State := stateWith (fun h => let h : Hw := (h.setReg (hy 3 rSTAT) 1).setHyt 3 {};
      let h : Hw := { h with kerns := [(6, { seen := true })] }; h) (fun m => put32 (m) (dmAddr 3 256) 5);
      let g : Nat := 0; let e : Fin 16 := 3; let slot : Bool := false; let c : Nat := 1; (Live s) ∧ (Settled s)
      ∧ (s.hw.hytRuns e = true) ∧ ((s.hw.hyt e).hookAt = none) ∧ ((s.hw.kSlots e).any (s.hw.kDue s.mem) = false)
      ∧ ((s.hw.hyt e).owed = []) ∧ (bitOf (s.hw.dmRd s.mem e (0x0100 + 0x0400 * slotN slot)) 0 = true)
      ∧ (((((s.hw.at g).upHyt e fun x => { x with hookAt := none }).kResume s.mem ({ e := e.val, s := slotN slot, bank := fld (s.hw.dmRd s.mem e (0x0100 + 0x0400 * slotN slot)) 4 4 } : KAx)).kern ({ e := e.val, s := slotN slot, bank := fld (s.hw.dmRd s.mem e (0x0100 + 0x0400 * slotN slot)) 4 4 } : KAx)).run = false)
      ∧ ((((s.hw.at g).upHyt e fun x => { x with hookAt := none }).kResume s.mem ({ e := e.val, s := slotN slot, bank := fld (s.hw.dmRd s.mem e (0x0100 + 0x0400 * slotN slot)) 4 4 } : KAx)).kCheck s.mem ({ e := e.val, s := slotN slot, bank := fld (s.hw.dmRd s.mem e (0x0100 + 0x0400 * slotN slot)) 4 4 } : KAx) (min 2 (fld (s.hw.dmRd s.mem e (0x0100 + 0x0400 * slotN slot)) 2 1)) = c)
      ∧ (c ≠ 0)) ∧
    (let s : State := stateWith (fun h => let h : Hw := (h.setReg (hy 3 rSTAT) 1).setHyt 3 {};
      let h : Hw := { h with kerns := [(6, { seen := true, run := true, st := 3, bank := 1 })] };
      let h : Hw := h.setHyt 3 { epend := 0xFFFFFFFF }; h) (fun m => put32 (m) (dmAddr 3 256) 4); let g : Nat := 0;
      let e : Fin 16 := 3; let slot : Bool := false; (Live s) ∧ (Settled s) ∧ (s.hw.hytRuns e = true)
      ∧ ((s.hw.hyt e).hookAt = none) ∧ ((s.hw.kSlots e).any (s.hw.kDue s.mem) = false) ∧ ((s.hw.hyt e).owed = [])
      ∧ (((((s.hw.at g).upHyt e fun x => { x with hookAt := none }).kResume s.mem ⟨e, slotN slot, 0⟩).kern ⟨e, slotN slot, 0⟩).taskB ≠ some (s.hw.reg (ck 0x064)))
      ∧ ((((s.hw.at g).upHyt e fun x => { x with hookAt := none }).kResume s.mem ⟨e, slotN slot, 0⟩).kWaits s.mem ⟨e, slotN slot, ((((s.hw.at g).upHyt e fun x => { x with hookAt := none }).kResume s.mem ⟨e, slotN slot, 0⟩).kern ⟨e, slotN slot, 0⟩).bank⟩ = false)
      ∧ (bitOf (s.hw.dmRd s.mem e (0x0100 + 0x0400 * slotN slot)) 0 = false)) ∧
    (let s : State := stateWith (fun h => let h : Hw := (h.setReg (hy 3 rSTAT) 1).setHyt 3 {};
      let h : Hw := { h with kerns := [(6, { seen := true })], fbs := [] }; let h : Hw := h.setReg (hy 3 0x04C) 2;
      let h : Hw := ((h.setReg (hy 3 0x050) 9999).setReg (cr 0 0x044) 0).setReg (cr 1 0x044) 1;
      let h : Hw := (h.setReg (cr 1 0x040) 1).setReg (cr 1 0x04C) 100000;
      let h : Hw := (List.range 3).foldl (fun h n => ((h.setReg (sd n 0x044) 1).setReg (hy 3 (0x080 + 4 * n)) (BitVec.ofNat 32 (0x01000000 + n))).setReg (sd n 0x040) 0x40) h;
      let h : Hw := (List.range 9).foldl (fun h n => h.setReg (hy 3 (0x08C + 4 * n)) 0) h;
      let h : Hw := ((((h.setReg (hy 3 0x0B0) 0x01000060).setReg (hy 3 0x0B4) 0x02000003).setReg (hy 3 0x0B8) 0x03000005).setReg (hy 3 0x0BC) 0x04000000).setReg (sd 96 0x044) 1;
      let h : Hw := (h.setReg (sd 96 0x040) 0x40).setReg (sd 0 0x080) 40;
      let h : Hw := (h.setReg (sd 4 0x080) 40).setReg (ck 0x048) 100000;
      let h : Hw := { h with kerns := [(6, { seen := true, run := true, st := 2 })], grain := 100000000 }; h) (fun m => put32 (put32 (put32 (put32 (put32 (put32 (put32 (put32 (put32 (put32 (put32 (put32 (put32 (put32 (put32 (put32 (put32 (m) (dmAddr 3 321) 1) (dmAddr 3 322) 96) (dmAddr 3 323) 3) (dmAddr 3 324) 5) (dmAddr 3 325) 0) (dmAddr 3 326) 0) (dmAddr 3 328) 4) (dmAddr 3 329) 4096) (dmAddr 3 331) 3000) (dmAddr 3 343) 4096) (dmAddr 3 349) 1000) (dmAddr 3 350) 4096) (dmAddr 3 355) 1048576) (dmAddr 3 357) 1) (dmAddr 3 382) 4194304) (dmAddr 3 383) 3) (dmAddr 3 256) 5);
      let g : Nat := 0; let e : Fin 16 := 3; let slot : Bool := false; (Live s) ∧ (Settled s)
      ∧ (s.hw.hytRuns e = true) ∧ ((s.hw.hyt e).hookAt = none) ∧ ((s.hw.kSlots e).any (s.hw.kDue s.mem) = false)
      ∧ ((s.hw.hyt e).owed = [])
      ∧ (((((s.hw.at g).upHyt e fun x => { x with hookAt := none }).kResume s.mem ⟨e, slotN slot, 0⟩).kern ⟨e, slotN slot, 0⟩).taskB ≠ some (s.hw.reg (ck 0x064)))
      ∧ ((((s.hw.at g).upHyt e fun x => { x with hookAt := none }).kResume s.mem ⟨e, slotN slot, 0⟩).kWaits s.mem ⟨e, slotN slot, ((((s.hw.at g).upHyt e fun x => { x with hookAt := none }).kResume s.mem ⟨e, slotN slot, 0⟩).kern ⟨e, slotN slot, 0⟩).bank⟩ = false)
      ∧ (bitOf (s.hw.dmRd s.mem e (0x0100 + 0x0400 * slotN slot)) 0 = true)
      ∧ (((((s.hw.at g).upHyt e fun x => { x with hookAt := none }).kResume s.mem ⟨e, slotN slot, 0⟩).kern ⟨e, slotN slot, 0⟩).st = 2)) ∧
    (let s : State := stateWith (fun h => let h : Hw := (h.setReg (hy 3 rSTAT) 1).setHyt 3 {};
      let h : Hw := { h with kerns := [(6, { seen := true })], fbs := [] }; let h : Hw := h.setReg (hy 3 0x04C) 2;
      let h : Hw := ((h.setReg (hy 3 0x050) 9999).setReg (cr 0 0x044) 0).setReg (cr 1 0x044) 1;
      let h : Hw := (h.setReg (cr 1 0x040) 1).setReg (cr 1 0x04C) 100000;
      let h : Hw := (List.range 3).foldl (fun h n => ((h.setReg (sd n 0x044) 1).setReg (hy 3 (0x080 + 4 * n)) (BitVec.ofNat 32 (0x01000000 + n))).setReg (sd n 0x040) 0x40) h;
      let h : Hw := (List.range 9).foldl (fun h n => h.setReg (hy 3 (0x08C + 4 * n)) 0) h;
      let h : Hw := ((((h.setReg (hy 3 0x0B0) 0x01000060).setReg (hy 3 0x0B4) 0x02000003).setReg (hy 3 0x0B8) 0x03000005).setReg (hy 3 0x0BC) 0x04000000).setReg (sd 96 0x044) 1;
      let h : Hw := (h.setReg (sd 96 0x040) 0x40).setReg (sd 0 0x080) 40;
      let h : Hw := (h.setReg (sd 4 0x080) 40).setReg (ck 0x048) 100000;
      let h : Hw := { h with kerns := [(6, { seen := true, run := true, st := 2 })] };
      let h : Hw := h.setHyt 3 { epend := 1 }; h) (fun m => put32 (put32 (put32 (put32 (put32 (put32 (put32 (put32 (put32 (put32 (put32 (put32 (put32 (put32 (put32 (put32 (put32 (m) (dmAddr 3 321) 1) (dmAddr 3 322) 96) (dmAddr 3 323) 3) (dmAddr 3 324) 5) (dmAddr 3 325) 0) (dmAddr 3 326) 0) (dmAddr 3 328) 4) (dmAddr 3 329) 4096) (dmAddr 3 331) 3000) (dmAddr 3 343) 4096) (dmAddr 3 349) 1000) (dmAddr 3 350) 4096) (dmAddr 3 355) 1048576) (dmAddr 3 357) 1) (dmAddr 3 382) 4194304) (dmAddr 3 383) 3) (dmAddr 3 256) 5);
      let e : Fin 16 := 3; let slot : Bool := false; let b : Nat := 0; (Live s) ∧ (Settled s)
      ∧ (s.hw.hytRuns e = true) ∧ ((s.hw.hyt e).hookAt = none) ∧ ((s.hw.kern ⟨e, slotN slot, 0⟩).st = 2)
      ∧ (s.hw.kbN s.mem ⟨e, slotN slot, (s.hw.kern ⟨e, slotN slot, 0⟩).bank⟩ 0x06 = b)
      ∧ ((s.hw.hyt e).epend.getLsbD (16 * slotN slot + 3 * b) = true)
      ∧ (slot = true → (s.hw.kSlots e).any (fun y => y.s == 0 && s.hw.kDue s.mem y) = false)) ∧
    (let s : State := stateOf fun h => let h : Hw := (h.setReg (hy 3 rSTAT) 1).setHyt 3 {};
      let h : Hw := { h with kerns := [] }; h; let e : Fin 16 := 3; let slot : Bool := true; (Live s) ∧ (Settled s)
      ∧ (s.hw.hytRuns e = true) ∧ ((s.hw.hyt e).hookAt = none) ∧ ((s.hw.kern ⟨e, slotN slot, 0⟩).st ≠ 2)) := by
  refine ⟨?_, ?_, ?_, ?_, ?_, ?_⟩ <;> decide +kernel

set_option maxRecDepth 100000 in
theorem witness_profileCommands :
    (let s : State := stateOf fun h => let h : Hw := ((h.setReg (ra pPRF rLOCK) 0).setReg (pr 0x040) 0).setReg (ra pPRF 0x040) 9;
      let h : Hw := h.setProf 9 {};
      let h : Hw := ((h.setReg (prfWin 9 0x080) 1).setReg (prfWin 9 0x084) 0x00100000).setReg (prCred 9) 16;
      let h : Hw := { h with clk := { h.clk with nextB := 10 ^ 14 } }; h; let g : Nat := 0;
      let v : Word := 0x00090010; (Live s) ∧ (Unlocked s pPRF) ∧ (s.hw.mirrorOn = false) ∧ (fld v 23 16 < 128)
      ∧ (s.hw.pfEn (fld v 23 16) = true) ∧ (s.hw.pfSrc (fld v 23 16) ≠ 2) ∧ ((s.hw.at g).boundaryInCycle = false)
      ∧ (fld v 12 0 ≠ 0) ∧ (fld v 12 0 ≤ s.hw.credits (fld v 23 16))
      ∧ (s.hw.queued (fld v 23 16) + fld v 12 0 < 8192)) ∧
    (let s : State := stateOf fun h => let h : Hw := ((h.setReg (ra pPRF rLOCK) 0).setReg (pr 0x040) 0).setReg (ra pPRF 0x040) 9;
      let h : Hw := h.setProf 9 {};
      let h : Hw := ((h.setReg (prfWin 9 0x080) 1).setReg (prfWin 9 0x084) 0x00100000).setReg (prCred 9) 16;
      let h : Hw := { h with clk := { h.clk with nextB := 10 ^ 14 } }; h; let g : Nat := 0;
      let v : Word := 0x00090011; (Live s) ∧ (Unlocked s pPRF) ∧ (s.hw.mirrorOn = false) ∧ (fld v 23 16 < 128)
      ∧ (s.hw.pfEn (fld v 23 16) = true) ∧ (s.hw.pfSrc (fld v 23 16) ≠ 2) ∧ ((s.hw.at g).boundaryInCycle = false)
      ∧ (fld v 12 0 = 0 ∨ s.hw.credits (fld v 23 16) < fld v 12 0)) ∧
    (let s : State := stateOf fun h => let h : Hw := ((h.setReg (ra pPRF rLOCK) 0).setReg (pr 0x040) 0).setReg (ra pPRF 0x040) 9;
      let h : Hw := h.setProf 9 {}; h; let v : Word := 0x00870001; (Live s) ∧ (Unlocked s pPRF)
      ∧ (s.hw.mirrorOn = false) ∧ (128 ≤ fld v 23 16) ∧ (fld v 23 16 ≤ 135)) ∧
    (let s : State := stateOf fun h => let h : Hw := ((h.setReg (ra pPRF rLOCK) 0).setReg (pr 0x040) 0).setReg (ra pPRF 0x040) 9;
      let h : Hw := h.setProf 9 {}; let h : Hw := h.setReg (prfWin 9 0x080) 0; h; let v : Word := 0x00090001;
      (Live s) ∧ (Unlocked s pPRF) ∧ (s.hw.mirrorOn = false) ∧ (135 < (fld v 23 16) ∨ ((fld v 23 16) < 128
      ∧ (s.hw.pfEn (fld v 23 16) = false ∨ s.hw.pfSrc (fld v 23 16) = 2)))) ∧
    (let s : State := stateOf fun h => let h : Hw := ((h.setReg (ra pPRF rLOCK) 0).setReg (pr 0x040) 0).setReg (ra pPRF 0x040) 9;
      let h : Hw := h.setProf 9 {};
      let h : Hw := ((h.setReg (prfWin 9 0x080) 1).setReg (prCred 9) 0x10010).setReg (prStat 9) 1;
      let h : Hw := (h.setReg (ck rREADY) 4).setReg64 (prfWin 9 0x090) 0xFFFFFFFFFFFFFF;
      let h : Hw := (List.range 136).foldl (fun h p => if p = 9 then h else h.setReg (prfWin p 0x080) 0) h; h;
      let g : Nat := 0; (Live s) ∧ (Unlocked s pPRF) ∧ (s.hw.mirrorOn = false) ∧ (s.hw.pfState s.hw.pfSel = 1)
      ∧ (s.hw.pfSrc s.hw.pfSel = 0) ∧ (s.hw.queued s.hw.pfSel ≠ 0) ∧ ((s.hw.prof s.hw.pfSel).segs = [])
      ∧ (s.hw.bit (ck rREADY) 2 = true)
      ∧ ((s.hw.at g).nextInstantFrom ≤ (s.hw.reg64 (prfWin s.hw.pfSel 0x090)).toNat)) ∧
    (let s : State := stateOf fun h => let h : Hw := ((h.setReg (ra pPRF rLOCK) 0).setReg (pr 0x040) 0).setReg (ra pPRF 0x040) 9;
      let h : Hw := h.setProf 9 {}; let h : Hw := (h.setReg (prfWin 9 0x080) 1).setReg (prCred 9) 0x10010;
      let h : Hw := ((h.setReg (prStat 9) 1).setReg (ck rREADY) 4).setReg64 (prfWin 9 0x090) 0;
      let h : Hw := { h with clk := { h.clk with nextB := 5 } }; h; let g : Nat := 0; let why : Nat := 2; (Live s)
      ∧ (Unlocked s pPRF) ∧ (s.hw.mirrorOn = false)
      ∧ (why = (if s.hw.pfState s.hw.pfSel ≠ 1 then 1 else if s.hw.pfSrc s.hw.pfSel ≠ 0 then 5 else if s.hw.queued s.hw.pfSel = 0 then 3 else if s.hw.bit (ck rREADY) 2 = false then 4 else if (s.hw.reg64 (prfWin s.hw.pfSel 0x090)).toNat < (s.hw.at g).nextInstantFrom then 2 else 0))
      ∧ (why ≠ 0)) ∧
    (let s : State := stateOf fun h => let h : Hw := ((h.setReg (ra pPRF rLOCK) 0).setReg (pr 0x040) 0).setReg (ra pPRF 0x040) 9;
      let h : Hw := h.setProf 9 {};
      let h : Hw := ((h.setReg (prfWin 9 0x080) 1).setReg (prCred 9) 0x30010).setReg (prStat 9) 4; h; (Live s)
      ∧ (Unlocked s pPRF) ∧ (s.hw.mirrorOn = false) ∧ (s.hw.pfState s.hw.pfSel = 1 ∨ s.hw.pfState s.hw.pfSel = 4)
      ∧ (s.hw.pfSrc s.hw.pfSel ≠ 2) ∧ (s.hw.credits s.hw.pfSel + s.hw.queued s.hw.pfSel < 8192) ∧ (s.hw.pfSel < 136)) ∧
    (let s : State := stateOf fun h => let h : Hw := ((h.setReg (ra pPRF rLOCK) 0).setReg (pr 0x040) 0).setReg (ra pPRF 0x040) 9;
      let h : Hw := h.setProf 9 {}; let h : Hw := (h.setReg (prfWin 9 0x080) 1).setReg (prStat 9) 3; h; (Live s)
      ∧ (Unlocked s pPRF) ∧ (s.hw.mirrorOn = false) ∧ (s.hw.pfState s.hw.pfSel ≠ 1) ∧ (s.hw.pfState s.hw.pfSel ≠ 2)
      ∧ (s.hw.pfState s.hw.pfSel ≠ 4)) ∧
    (let s : State := stateOf fun h => let h : Hw := ((h.setReg (ra pPRF rLOCK) 0).setReg (pr 0x040) 0).setReg (ra pPRF 0x040) 9;
      let h : Hw := h.setProf 9 {}; let h : Hw := (h.setReg (prfWin 9 0x080) 1).setReg (prStat 9) 4;
      let h : Hw := h.setReg (prfWin 9 0x098) 1234; h; (Live s) ∧ (Unlocked s pPRF) ∧ (s.hw.mirrorOn = false)
      ∧ (s.hw.pfState s.hw.pfSel = 1 ∨ s.hw.pfState s.hw.pfSel = 4)) ∧
    (let s : State := stateOf fun h => let h : Hw := ((h.setReg (ra pPRF rLOCK) 0).setReg (pr 0x040) 0).setReg (ra pPRF 0x040) 9;
      let h : Hw := h.setProf 9 {}; let h : Hw := (h.setReg (prfWin 9 0x080) 1).setReg (prStat 9) 3; h; (Live s)
      ∧ (Unlocked s pPRF) ∧ (s.hw.mirrorOn = false) ∧ (s.hw.pfState s.hw.pfSel ≠ 1) ∧ (s.hw.pfState s.hw.pfSel ≠ 4)) ∧
    (let s : State := stateOf fun h => let h : Hw := ((h.setReg (ra pPRF rLOCK) 0).setReg (pr 0x040) 0).setReg (ra pPRF 0x040) 9;
      let h : Hw := h.setProf 9 {}; let h : Hw := (h.setReg (prfWin 9 0x080) 1).setReg (prStat 9) 0x304; h; (Live s)
      ∧ (Unlocked s pPRF) ∧ (s.hw.mirrorOn = false) ∧ (s.hw.pfState s.hw.pfSel = 4)
      ∧ (s.hw.pfSrc s.hw.pfSel = 0 ∨ s.hw.pfState (s.hw.pfLeader s.hw.pfSel) ≠ 2) ∧ (s.hw.pfSel < 136)) ∧
    (let s : State := stateOf fun h => let h : Hw := ((h.setReg (ra pPRF rLOCK) 0).setReg (pr 0x040) 0).setReg (ra pPRF 0x040) 9;
      let h : Hw := h.setProf 9 {}; let h : Hw := (h.setReg (prfWin 9 0x080) 1).setReg (prStat 9) 1; h; (Live s)
      ∧ (Unlocked s pPRF) ∧ (s.hw.mirrorOn = false) ∧ (s.hw.pfState s.hw.pfSel ≠ 4)) ∧
    (let s : State := stateOf fun h => let h : Hw := (h.setReg (prCred 9) 0x30010).setProf 9 { unret := [0, 7] }; h;
      let g : Nat := 0; let p : Fin 136 := 9; let fin : Nat := 0; let rest : List Nat := [7]; (Live s)
      ∧ ((s.hw.prof p).unret = fin :: rest) ∧ (fin ≤ (s.hw.at g).ctGrains (max s.hw.grain g))
      ∧ (s.hw.bit (prCred p) 15 = false)) ∧
    (let s : State := stateOf fun h => let h : Hw := h.setProf 9 {}; h; let g : Nat := 0; let p : Fin 136 := 9;
      (Live s)
      ∧ ((s.hw.prof p).unret = [] ∨ (s.hw.prof p).unret.head?.any (fun e => decide ((s.hw.at g).ctGrains (max s.hw.grain g) < e)) = true)) := by
  refine ⟨?_, ?_, ?_, ?_, ?_, ?_, ?_, ?_, ?_, ?_, ?_, ?_, ?_, ?_⟩ <;> decide +kernel

set_option maxRecDepth 100000 in
theorem witness_lineShaftCommands :
    (let s : State := stateOf fun h => let h : Hw := (h.setReg (ra pLSH rLOCK) 0).setReg (pr 0x040) 0;
      let h : Hw := ((h.setReg (prfWin 130 0x080) 1).setReg (prfWin 130 0x084) 0x00100000).setReg (prCred 130) 16;
      let h : Hw := ((h.setReg (prStat 130) 1).setReg (ls 0x048) 0).setReg (mStat 2) 0;
      let h : Hw := { h with clk := { h.clk with nextB := 10 ^ 14 } }; h; let g : Nat := 0; let m : BitVec 3 := 2;
      (Live s) ∧ (Alone s g) ∧ (Unlocked s pLSH) ∧ (s.hw.mirrorOn = false) ∧ (s.hw.pfState (128 + m.toNat) = 1)
      ∧ (s.hw.bit (ls (0x040 + 4 * m.toNat)) 1 = false) ∧ (s.hw.bit (mStat m.toNat) 1 = false)
      ∧ ((s.hw.at g).boundaryInCycle = false) ∧ (s.hw.credits (128 + m.toNat) ≠ 0)
      ∧ (s.hw.queued (128 + m.toNat) < 8191) ∧ (s.hw.wbuf = [])) ∧
    (let s : State := stateOf fun h => let h : Hw := (h.setReg (ra pLSH rLOCK) 0).setReg (pr 0x040) 0;
      let h : Hw := h.setReg (ls 0x048) 2; h; let g : Nat := 0; let m : BitVec 3 := 2; (Live s) ∧ (Alone s g)
      ∧ (Unlocked s pLSH) ∧ (s.hw.mirrorOn = false) ∧ (s.hw.bit (ls (0x040 + 4 * m.toNat)) 1 = true)
      ∧ (s.hw.wbuf = [])) ∧
    (let s : State := stateOf fun h => let h : Hw := (h.setReg (ra pLSH rLOCK) 0).setReg (pr 0x040) 0;
      let h : Hw := (h.setReg (prfWin 130 0x080) 1).setReg (prStat 130) 1;
      let h : Hw := (h.setReg (ls 0x048) 0).setReg (mStat 2) 0x10002; h; let g : Nat := 0; let m : BitVec 3 := 2;
      (Live s) ∧ (Alone s g) ∧ (Unlocked s pLSH) ∧ (s.hw.mirrorOn = false) ∧ (s.hw.pfState (128 + m.toNat) = 1)
      ∧ (s.hw.bit (ls (0x040 + 4 * m.toNat)) 1 = false) ∧ (s.hw.bit (mStat m.toNat) 1 = true) ∧ (s.hw.wbuf = [])
      ∧ ((fld (s.hw.rd32 s.mem ((slotAddr (s.hw.pfBase (128 + m.toNat) + s.hw.f (prStat (128 + m.toNat)) 27 16)) + 20)) 15 0) + 1 = s.hw.f (mStat m.toNat) 31 16)) ∧
    (let s : State := stateOf fun h => let h : Hw := (h.setReg (ra pLSH rLOCK) 0).setReg (pr 0x040) 0;
      let h : Hw := h.setReg (mStat 2) 0; h; let g : Nat := 0; let m : BitVec 3 := 2; (Live s) ∧ (Alone s g)
      ∧ (Unlocked s pLSH) ∧ (s.hw.mirrorOn = false) ∧ (s.hw.bit (mStat m.toNat) 0 = false)) ∧
    (let s : State := stateOf fun h => let h : Hw := (h.setReg (ra pLSH rLOCK) 0).setReg (pr 0x040) 0;
      let h : Hw := (h.setReg (mStat 2) 1).setReg (ls 0x0E8) 7; h; let g : Nat := 0; let m : BitVec 3 := 2; (Live s)
      ∧ (Alone s g) ∧ (Unlocked s pLSH) ∧ (s.hw.mirrorOn = false) ∧ (s.hw.bit (mStat m.toNat) 0 = true)
      ∧ ((s.hw.reg64 (ls 0x0E8)).toNat % s.hw.batch ≠ 0)) ∧
    (let s : State := stateOf fun h => let h : Hw := (h.setReg (ra pLSH rLOCK) 0).setReg (pr 0x040) 0;
      let h : Hw := (h.setReg (mStat 2) 1).setReg64 (ls 0x0E8) 0x4000000000000000;
      let h : Hw := h.setReg (ck 0x048) 16384; h; let g : Nat := 0; let m : BitVec 3 := 2; (Live s) ∧ (Alone s g)
      ∧ (Unlocked s pLSH) ∧ (s.hw.mirrorOn = false) ∧ (s.hw.bit (mStat m.toNat) 0 = true)
      ∧ ((s.hw.reg64 (ls 0x0E8)).toNat % s.hw.batch = 0)
      ∧ ((s.hw.at g).ctGrains (max s.hw.grain g / 5 * 5 + 4) + 2 * s.hw.batch ≤ (s.hw.reg64 (ls 0x0E8)).toNat)) ∧
    (let s : State := stateOf fun h => let h : Hw := { h with early := [.rejoin 7 2] }; h; let g : Nat := 7;
      let m : BitVec 3 := 2; (Live s) ∧ (s.hw.early = [.rejoin g m])) ∧
    (let s : State := { (stateOf fun h => let h : Hw := (h.setReg (ra pLSH rLOCK) 0).setReg (pr 0x040) 0;
      let h : Hw := (h.setReg (mStat 3) 0); let h : Hw := { h with early := [] }; h) with pending := [.rejoin 8 3] };
      let g : Nat := 7; let r : Nat := 8; let n : BitVec 3 := 3; (Live s) ∧ (Unlocked s pLSH)
      ∧ (s.hw.mirrorOn = false) ∧ (s.hw.early = []) ∧ (s.pending = [.rejoin r n])
      ∧ (max s.hw.grain r / 5 = max s.hw.grain g / 5) ∧ (r / 5 = max s.hw.grain g / 5)
      ∧ (s.hw.bit (mStat n.toNat) 0 = false)) ∧
    (let s : State := stateOf fun h => let h : Hw := (h.setReg (ra pLSH rLOCK) 0).setReg (pr 0x040) 0; h; (Live s)
      ∧ (Unlocked s pLSH)) ∧
    (let s : State := stateWith (fun h => let h : Hw := h.setReg (cm 3 12) 2;
      let h : Hw := ((h.setReg (cm 3 0) 0).setReg (cm 3 4) 2).setReg (cm 3 8) 5;
      let h : Hw := (List.range 136).foldl (fun h p => h.setReg (prfWin p 0x080) 0) h; h) (fun m => put32 (put32 (put32 m 0x28000020 0) 0x28000024 5) 0x28000000 0);
      let g : Nat := 0; let i : Fin 16 := 3; (Live s) ∧ (s.hw.bit (cm i 12) 1 = true)
      ∧ ((s.hw.at g).camCheck s.mem i = 0)) ∧
    (let s : State := stateOf fun h => let h : Hw := h.setReg (cm 3 12) 3; let h : Hw := h.setReg (cm 3 4) 1; h;
      let g : Nat := 0; let i : Fin 16 := 3; let err : Nat := 1; (Live s) ∧ (s.hw.bit (cm i 12) 1 = true)
      ∧ ((s.hw.at g).camCheck s.mem i = err) ∧ (err ≠ 0)) ∧
    (let s : State := stateOf fun h => let h : Hw := (h.setReg (ra pLSH rLOCK) 0).setReg (pr 0x040) 0;
      let h : Hw := h.setReg (cm 3 12) 1; h; let i : BitVec 4 := 3; (Live s) ∧ (Unlocked s pLSH)
      ∧ (s.hw.bit (cm i.toNat 12) 0 = true)) ∧
    (let s : State := stateOf fun h => let h : Hw := (h.setReg (ra pLSH rLOCK) 0).setReg (pr 0x040) 0;
      let h : Hw := h.setReg (cm 3 12) 0; h; let i : BitVec 4 := 3; (Live s) ∧ (Unlocked s pLSH)
      ∧ (s.hw.bit (cm i.toNat 12) 0 = false)) := by
  refine ⟨?_, ?_, ?_, ?_, ?_, ?_, ?_, ?_, ?_, ?_, ?_, ?_, ?_⟩ <;> decide +kernel

theorem witness_axisCommands :
    (let s : State := stateOf fun h => let h : Hw := ((h.setReg (axr 4 rLOCK) 0).setReg (pr 0x040) 0).setReg (axr 4 rSTAT) 0;
      let h : Hw := (h.setReg (axr 4 0x0A4) 0).setReg (axr 4 0x040) 0x093F;
      let h : Hw := { h with ax := [], legs := [] }; let h : Hw := (h.setReg (sy 0x040) 3).setReg (cr 4 0x044) 0;
      let h : Hw := (h.setReg (prfWin 9 0x080) 1).setReg (prStat 9) 1; h; let a : Fin 32 := 4; (Live s)
      ∧ (Unlocked s (pAX a)) ∧ (s.hw.mirrorOn = false) ∧ (s.hw.axEnableReason a = 0)
      ∧ ((s.hw.axUsedLegs a).all s.hw.legMayEnable = true)) ∧
    (let s : State := stateOf fun h => let h : Hw := ((h.setReg (axr 4 rLOCK) 0).setReg (pr 0x040) 0).setReg (axr 4 rSTAT) 2;
      let h : Hw := (h.setReg (axr 4 0x0A4) 0).setReg (axr 4 0x040) 0x093F;
      let h : Hw := { h with ax := [], legs := [] }; h; let a : Fin 32 := 4; (Live s) ∧ (Unlocked s (pAX a))
      ∧ (s.hw.mirrorOn = false) ∧ (s.hw.axState a ≠ sOFF)) ∧
    (let s : State := stateOf fun h => let h : Hw := ((h.setReg (axr 4 rLOCK) 0).setReg (pr 0x040) 0).setReg (axr 4 rSTAT) 1;
      let h : Hw := (h.setReg (axr 4 0x0A4) 0).setReg (axr 4 0x040) 0x093F;
      let h : Hw := { h with ax := [], legs := [] };
      let h : Hw := (h.setReg (cr 4 0x044) 0).setReg (axr 4 0x05C) 9; h; let g : Nat := 99; let a : Fin 32 := 4;
      (Live s) ∧ (s.hw.axState a = sSTARTING) ∧ ((s.hw.axUsedLegs a).all (fun k => (s.hw.leg k).running) = true)
      ∧ (((s.hw.axUsedLegs a).map fun k => (s.hw.leg k).startedAt).foldl max 0 + s.hw.f (axr a 0x05C) 23 0 ≤ max s.hw.grain g)) ∧
    (let s : State := stateOf fun h => let h : Hw := ((h.setReg (axr 4 rLOCK) 0).setReg (pr 0x040) 0).setReg (axr 4 rSTAT) 2;
      let h : Hw := (h.setReg (axr 4 0x0A4) 0).setReg (axr 4 0x040) 0x093F;
      let h : Hw := { h with ax := [], legs := [] }; h; let a : Fin 32 := 4; (Live s) ∧ (Unlocked s (pAX a))
      ∧ (s.hw.mirrorOn = false) ∧ (s.hw.axState a = sRUNNING)) ∧
    (let s : State := stateOf fun h => let h : Hw := ((h.setReg (axr 4 rLOCK) 0).setReg (pr 0x040) 0).setReg (axr 4 rSTAT) 2;
      let h : Hw := (h.setReg (axr 4 0x0A4) 0).setReg (axr 4 0x040) 0x093F;
      let h : Hw := { h with ax := [], legs := [] }; h; let a : Fin 32 := 4; (Live s) ∧ (Unlocked s (pAX a))
      ∧ (s.hw.mirrorOn = false) ∧ (s.hw.axState a = sRUNNING)) ∧
    (let s : State := stateOf fun h => let h : Hw := ((h.setReg (axr 4 rLOCK) 0).setReg (pr 0x040) 0).setReg (axr 4 rSTAT) 1;
      let h : Hw := (h.setReg (axr 4 0x0A4) 0).setReg (axr 4 0x040) 0x093F;
      let h : Hw := { h with ax := [], legs := [] }; h; let a : Fin 32 := 4; (Live s) ∧ (Unlocked s (pAX a))
      ∧ (s.hw.mirrorOn = false) ∧ (s.hw.axState a = sSTARTING)) ∧
    (let s : State := stateOf fun h => let h : Hw := ((h.setReg (axr 4 rLOCK) 0).setReg (pr 0x040) 0).setReg (axr 4 rSTAT) 0;
      let h : Hw := (h.setReg (axr 4 0x0A4) 0).setReg (axr 4 0x040) 0x093F;
      let h : Hw := { h with ax := [], legs := [] }; h; let a : Fin 32 := 4; (Live s) ∧ (Unlocked s (pAX a))
      ∧ (s.hw.mirrorOn = false) ∧ (s.hw.axState a = sOFF)) ∧
    (let s : State := stateOf fun h => let h : Hw := ((h.setReg (axr 4 rLOCK) 0).setReg (pr 0x040) 0).setReg (axr 4 rSTAT) 5;
      let h : Hw := (h.setReg (axr 4 0x0A4) 0).setReg (axr 4 0x040) 0x093F;
      let h : Hw := { h with ax := [], legs := [] }; let h : Hw := h.setReg (prfWin 9 0x080) 1; h;
      let a : Fin 32 := 4; (Live s) ∧ (Unlocked s (pAX a)) ∧ (s.hw.mirrorOn = false) ∧ (s.hw.axState a = sHOLDING)
      ∧ (s.hw.f (axr a 0x0A4) 7 0 = 0) ∧ (s.hw.pfSrc (s.hw.axProf a) ≠ 2)) ∧
    (let s : State := stateOf fun h => let h : Hw := ((h.setReg (axr 4 rLOCK) 0).setReg (pr 0x040) 0).setReg (axr 4 rSTAT) 2;
      let h : Hw := (h.setReg (axr 4 0x0A4) 0).setReg (axr 4 0x040) 0x093F;
      let h : Hw := { h with ax := [], legs := [] }; h; let a : Fin 32 := 4; (Live s) ∧ (Unlocked s (pAX a))
      ∧ (s.hw.mirrorOn = false) ∧ (s.hw.axState a ≠ sHOLDING)) ∧
    (let s : State := stateOf fun h => let h : Hw := ((h.setReg (axr 4 rLOCK) 0).setReg (pr 0x040) 0).setReg (axr 4 rSTAT) 2;
      let h : Hw := (h.setReg (axr 4 0x0A4) 0).setReg (axr 4 0x040) 0x093F;
      let h : Hw := { h with ax := [], legs := [] }; let h : Hw := h.setReg (cr 4 0x044) 2; h; let a : Fin 32 := 4;
      (Live s) ∧ (Unlocked s (pAX a)) ∧ (s.hw.mirrorOn = false) ∧ (s.hw.axState a ≠ sFAULT)) ∧
    (let s : State := stateOf fun h => let h : Hw := ((h.setReg (axr 4 rLOCK) 0).setReg (pr 0x040) 0).setReg (axr 4 rSTAT) 6;
      let h : Hw := (h.setReg (axr 4 0x0A4) 0).setReg (axr 4 0x040) 0x093F;
      let h : Hw := { h with ax := [], legs := [] }; let h : Hw := h.setReg (axProt 4) 0;
      let h : Hw := (List.range 16).foldl (fun h e => h.setReg (hy e 0x04C) 0) h; h; let a : Fin 32 := 4; (Live s)
      ∧ (Unlocked s (pAX a)) ∧ (s.hw.mirrorOn = false) ∧ (s.hw.axState a = sFAULT) ∧ (s.hw.anyLatched a = false)
      ∧ (s.hw.axEngineHalted a = false)) ∧
    (let s : State := stateOf fun h => let h : Hw := ((h.setReg (axr 4 rLOCK) 0).setReg (pr 0x040) 0).setReg (axr 4 rSTAT) 6;
      let h : Hw := (h.setReg (axr 4 0x0A4) 0).setReg (axr 4 0x040) 0x093F;
      let h : Hw := { h with ax := [], legs := [] }; let h : Hw := h.setReg (axProt 4) 0x1000000; h;
      let a : Fin 32 := 4; (Live s) ∧ (Unlocked s (pAX a)) ∧ (s.hw.mirrorOn = false) ∧ (s.hw.axState a = sFAULT)
      ∧ (s.hw.anyLatched a = true)) ∧
    (let s : State := stateOf fun h => let h : Hw := ((h.setReg (axr 4 rLOCK) 0).setReg (pr 0x040) 0).setReg (axr 4 rSTAT) 2;
      let h : Hw := (h.setReg (axr 4 0x0A4) 0).setReg (axr 4 0x040) 0x093F;
      let h : Hw := { h with ax := [], legs := [] }; let h : Hw := h.setReg (cr 4 0x044) 2; h; let a : Fin 32 := 4;
      let v : Word := 0x7F; (Live s) ∧ (Unlocked s (pAX a)) ∧ (0x10 ≤ fld v 7 0) ∧ (fld v 7 0 ≤ 0x7F)
      ∧ (s.hw.f (axr a 0x0A4) 7 0 = 0)) ∧
    (let s : State := stateOf fun h => let h : Hw := ((h.setReg (axr 4 rLOCK) 0).setReg (pr 0x040) 0).setReg (axr 4 rSTAT) 2;
      let h : Hw := (h.setReg (axr 4 0x0A4) 0).setReg (axr 4 0x040) 0x093F;
      let h : Hw := { h with ax := [], legs := [] }; h; let a : Fin 32 := 4; let v : Word := 0x80; (Live s)
      ∧ (Unlocked s (pAX a)) ∧ (fld v 7 0 < 0x10 ∨ 0x7F < fld v 7 0)) ∧
    (let s : State := stateOf fun h => let h : Hw := ((h.setReg (axr 4 rLOCK) 0).setReg (pr 0x040) 0).setReg (axr 4 rSTAT) 6;
      let h : Hw := (h.setReg (axr 4 0x0A4) 0).setReg (axr 4 0x040) 0x093F;
      let h : Hw := { h with ax := [], legs := [] }; h; let a : Fin 32 := 4; (Live s) ∧ (Unlocked s (pAX a))
      ∧ (s.hw.axState a = sOFF ∨ s.hw.axState a = sFAULT)) ∧
    (let s : State := stateOf fun h => let h : Hw := ((h.setReg (axr 4 rLOCK) 0).setReg (pr 0x040) 0).setReg (axr 4 rSTAT) 2;
      let h : Hw := (h.setReg (axr 4 0x0A4) 0).setReg (axr 4 0x040) 0x093F;
      let h : Hw := { h with ax := [], legs := [] }; h; let a : Fin 32 := 4; (Live s) ∧ (Unlocked s (pAX a))
      ∧ (s.hw.axState a ≠ sOFF) ∧ (s.hw.axState a ≠ sFAULT)) := by
  refine ⟨?_, ?_, ?_, ?_, ?_, ?_, ?_, ?_, ?_, ?_, ?_, ?_, ?_, ?_, ?_, ?_⟩ <;> decide

theorem witness_limitsAndHoming :
    (let s : State := stateOf fun h => let h : Hw := ((h.setReg (axr 4 rLOCK) 0).setReg (pr 0x040) 0).setReg (axr 4 rSTAT) 5;
      let h : Hw := (h.setReg (axr 4 0x0A4) 0).setReg (axr 4 0x040) 0x093F;
      let h : Hw := { h with ax := [], legs := [] };
      let h : Hw := ((h.setReg (axr 4 0x064) 0x07222120).setReg (axr 4 0x068) 0).setProf 9 {}; h; let g : Nat := 0;
      let a : Fin 32 := 4; let neg : Bool := true; let level : Bool := false; let first : Nat := 0; (Live s)
      ∧ (s.hw.limShows a (if neg then 1 else 0) level = true)
      ∧ (first + 500 * s.hw.f (axr a 0x068) 15 0 ≤ max s.hw.grain g)
      ∧ (s.hw.limActive a (if neg then 1 else 0) level = true)
      ∧ ((if neg then (s.hw.axis a).accN else (s.hw.axis a).accP) = false)
      ∧ (s.hw.bit (axr a rSTAT) (if neg then 5 else 4) = false) ∧ (s.hw.axState a = sHOLDING)) ∧
    (let s : State := stateOf fun h => let h : Hw := ((h.setReg (axr 4 rLOCK) 0).setReg (pr 0x040) 0).setReg (axr 4 rSTAT) 5;
      let h : Hw := (h.setReg (axr 4 0x0A4) 0).setReg (axr 4 0x040) 0x093F;
      let h : Hw := { h with ax := [], legs := [] };
      let h : Hw := ((h.setReg (axr 4 0x064) 0x07222120).setReg (axr 4 0x068) 0).setProf 9 {};
      let h : Hw := h.setAxis 4 { accP := true, accN := true }; h; let g : Nat := 0; let a : Fin 32 := 4;
      let neg : Bool := true; let level : Bool := true; let first : Nat := 0; (Live s)
      ∧ (s.hw.limShows a (if neg then 1 else 0) level = true)
      ∧ (first + 500 * s.hw.f (axr a 0x068) 15 0 ≤ max s.hw.grain g)
      ∧ (s.hw.limActive a (if neg then 1 else 0) level = false)
      ∧ ((if neg then (s.hw.axis a).accN else (s.hw.axis a).accP) = true)
      ∧ (s.hw.bit (axr a rSTAT) (if neg then 5 else 4) = false) ∧ (s.hw.axState a ≠ sHOMING)) ∧
    (let s : State := stateOf fun h => let h : Hw := ((h.setReg (axr 4 rLOCK) 0).setReg (pr 0x040) 0).setReg (axr 4 rSTAT) 0x35;
      let h : Hw := (h.setReg (axr 4 0x0A4) 0).setReg (axr 4 0x040) 0x093F;
      let h : Hw := { h with ax := [], legs := [] };
      let h : Hw := ((h.setReg (axr 4 0x064) 0x07222120).setReg (axr 4 0x068) 0).setProf 9 {};
      let h : Hw := h.setReg (axr 4 0x068) 9; h; let g : Nat := 0; let a : Fin 32 := 4; let neg : Bool := true;
      let level : Bool := false; let first : Nat := 0; (Live s)
      ∧ (s.hw.limShows a (if neg then 1 else 0) level = true)
      ∧ (max s.hw.grain g < first + 500 * s.hw.f (axr a 0x068) 15 0)
      ∧ (s.hw.limActive a (if neg then 1 else 0) level ≠ (if neg then (s.hw.axis a).accN else (s.hw.axis a).accP))
      ∧ (s.hw.bit (axr a rSTAT) (if neg then 5 else 4) = true)) ∧
    (let s : State := stateOf fun h => let h : Hw := ((h.setReg (axr 4 rLOCK) 0).setReg (pr 0x040) 0).setReg (axr 4 rSTAT) 0x05;
      let h : Hw := (h.setReg (axr 4 0x0A4) 0).setReg (axr 4 0x040) 0x093F;
      let h : Hw := { h with ax := [], legs := [] };
      let h : Hw := ((h.setReg (axr 4 0x064) 0x07222120).setReg (axr 4 0x068) 0).setProf 9 {};
      let h : Hw := h.setReg (axr 4 0x068) 9; h; let g : Nat := 0; let a : Fin 32 := 4; let neg : Bool := true;
      let level : Bool := false; let first : Nat := 0; (Live s)
      ∧ (s.hw.limShows a (if neg then 1 else 0) level = true)
      ∧ (max s.hw.grain g < first + 500 * s.hw.f (axr a 0x068) 15 0)
      ∧ (s.hw.bit (axr a rSTAT) (if neg then 5 else 4) = false)) ∧
    (let s : State := stateOf fun h => let h : Hw := ((h.setReg (axr 4 rLOCK) 0).setReg (pr 0x040) 0).setReg (axr 4 rSTAT) 0x05;
      let h : Hw := (h.setReg (axr 4 0x0A4) 0).setReg (axr 4 0x040) 0x093F;
      let h : Hw := { h with ax := [], legs := [] };
      let h : Hw := ((h.setReg (axr 4 0x064) 0x07222120).setReg (axr 4 0x068) 0).setProf 9 {}; h;
      let a : Fin 32 := 4; let neg : Bool := true; let level : Bool := true; (Live s)
      ∧ (s.hw.limShows a (if neg then 1 else 0) level = false ∨ s.hw.limActive a (if neg then 1 else 0) level = (if neg then (s.hw.axis a).accN else (s.hw.axis a).accP))) ∧
    (let s : State := stateOf fun h => let h : Hw := ((h.setReg (axr 4 rLOCK) 0).setReg (pr 0x040) 0).setReg (axr 4 rSTAT) 0x35;
      let h : Hw := (h.setReg (axr 4 0x0A4) 0).setReg (axr 4 0x040) 0x093F;
      let h : Hw := { h with ax := [], legs := [] };
      let h : Hw := ((h.setReg (axr 4 0x064) 0x07222120).setReg (axr 4 0x068) 0).setProf 9 {};
      let h : Hw := h.setReg (axr 4 0x06C) 0; let h : Hw := (h.setReg (axr 4 0x070) 0).setReg (axr 4 0x074) 0; h;
      let a : Fin 32 := 4; let neg : Bool := true; (Live s) ∧ (s.hw.limReleases a neg = true)) ∧
    (let s : State := stateOf fun h => let h : Hw := ((h.setReg (axr 4 rLOCK) 0).setReg (pr 0x040) 0).setReg (axr 4 rSTAT) 0x05;
      let h : Hw := (h.setReg (axr 4 0x0A4) 0).setReg (axr 4 0x040) 0x093F;
      let h : Hw := { h with ax := [], legs := [] };
      let h : Hw := ((h.setReg (axr 4 0x064) 0x07222120).setReg (axr 4 0x068) 0).setProf 9 {}; h;
      let a : Fin 32 := 4; let neg : Bool := true; (Live s) ∧ (s.hw.limReleases a neg = false)) ∧
    (let s : State := stateOf fun h => let h : Hw := ((h.setReg (axr 4 rLOCK) 0).setReg (pr 0x040) 0).setReg (axr 4 rSTAT) 0x05;
      let h : Hw := (h.setReg (axr 4 0x0A4) 0).setReg (axr 4 0x040) 0x093F;
      let h : Hw := { h with ax := [], legs := [] };
      let h : Hw := ((h.setReg (axr 4 0x064) 0x07222120).setReg (axr 4 0x068) 0).setProf 9 {}; h; let g : Nat := 0;
      let a : Fin 32 := 4; let level : Bool := false; let first : Nat := 0; (Live s)
      ∧ (s.hw.limShows a 2 level = true) ∧ (first + 500 * s.hw.f (axr a 0x068) 15 0 ≤ max s.hw.grain g)
      ∧ (s.hw.limActive a 2 level ≠ (s.hw.axis a).accH) ∧ (s.hw.axState a ≠ sHOMING)) ∧
    (let s : State := stateOf fun h => let h : Hw := ((h.setReg (axr 4 rLOCK) 0).setReg (pr 0x040) 0).setReg (axr 4 rSTAT) 0x05;
      let h : Hw := (h.setReg (axr 4 0x0A4) 0).setReg (axr 4 0x040) 0x093F;
      let h : Hw := { h with ax := [], legs := [] };
      let h : Hw := ((h.setReg (axr 4 0x064) 0x07222120).setReg (axr 4 0x068) 0).setProf 9 {}; h; let g : Nat := 0;
      let a : Fin 32 := 4; let level : Bool := true; let first : Nat := 0; (Live s)
      ∧ (s.hw.limShows a 2 level = false ∨ max s.hw.grain g < first + 500 * s.hw.f (axr a 0x068) 15 0 ∨ s.hw.limActive a 2 level = (s.hw.axis a).accH)) ∧
    (let s : State := stateOf fun h => let h : Hw := ((h.setReg (axr 4 rLOCK) 0).setReg (pr 0x040) 0).setReg (axr 4 rSTAT) 5;
      let h : Hw := (h.setReg (axr 4 0x0A4) 0).setReg (axr 4 0x040) 0x093F;
      let h : Hw := { h with ax := [], legs := [] };
      let h : Hw := ((h.setReg (axr 4 0x064) 0x07222120).setReg (axr 4 0x068) 0).setProf 9 {};
      let h : Hw := (h.setReg (prfWin 9 0x080) 1).setReg (prStat 9) 1;
      let h : Hw := (h.setReg (axr 4 0x07C) 0).setReg (axr 4 0x064) 0x3F3F3F; h; let a : Fin 32 := 4; (Live s)
      ∧ (Unlocked s (pAX a)) ∧ (s.hw.mirrorOn = false) ∧ (s.hw.axState a = sHOLDING) ∧ (s.hw.f (axr a 0x0A4) 7 0 = 0)
      ∧ (s.hw.axIdle a = true) ∧ (s.hw.f (axr a 0x07C) 2 0 = 0) ∧ (s.hw.homeCfgOk a = true)) ∧
    (let s : State := stateOf fun h => let h : Hw := ((h.setReg (axr 4 rLOCK) 0).setReg (pr 0x040) 0).setReg (axr 4 rSTAT) 2;
      let h : Hw := (h.setReg (axr 4 0x0A4) 0).setReg (axr 4 0x040) 0x093F;
      let h : Hw := { h with ax := [], legs := [] }; h; let a : Fin 32 := 4; (Live s) ∧ (Unlocked s (pAX a))
      ∧ (s.hw.mirrorOn = false) ∧ (s.hw.axState a ≠ sHOLDING) ∧ (s.hw.axState a ≠ sOFF)) := by
  refine ⟨?_, ?_, ?_, ?_, ?_, ?_, ?_, ?_, ?_, ?_, ?_⟩ <;> decide

theorem witness_networkTimeServo :
    (let s : State := stateOf fun h => let h : Hw := h.setReg (dmr true 0) 0x100;
      let h : Hw := h.setReg (dmr true 0x10) 0;
      let h : Hw := h.setDom true { master := some { hdr := { major := 2, minor := 1, via := .layer2, multicast := true, domain := 0, secondPort := false, src := 5, seq := 3, correction := 0 }, logInterval := 0, priority1 := 128, clockClass := 6, clockAccuracy := 0x21, variance := 0, priority2 := 128, gmId := 5, stepsRemoved := 0 }, heard := [({ hdr := { major := 2, minor := 1, via := .layer2, multicast := true, domain := 0, secondPort := false, src := 5, seq := 3, correction := 0 }, logInterval := 0, priority1 := 128, clockClass := 6, clockAccuracy := 0x21, variance := 0, priority2 := 128, gmId := 5, stepsRemoved := 0 }, 0)] }; h;
      let b : Bool := true;
      let m : PtpMsg := { hdr := { major := 2, minor := 1, via := .layer2, multicast := true, domain := 0, secondPort := false, src := 5, seq := 3, correction := 0 }, stamp := 4000, origin := 900000, logInterval := 0, twoStep := false, rate := 0 };
      (Live s) ∧ (Unshed s) ∧ (s.hw.syncTaken b m = true)
      ∧ (s.hw.syncExtra b m (s.hw.ingress b (domPort b m.hdr.secondPort) m.stamp) = false) ∧ (m.twoStep = false)
      ∧ (0 < ((s.hw.dom b).t1.elim (annInterval m.logInterval) fun p => ((m.origin : Int) + m.hdr.correction) - p))
      ∧ (s.hw.f (dmr b 0x10) 15 0 = 0 ∨ (((s.hw.ingress b (domPort b m.hdr.secondPort) m.stamp) - ((m.origin : Int) + m.hdr.correction) - s.hw.domDelay b - s.hw.asym (domPort b (s.hw.dom b).port)).natAbs : Int) ≤ (s.hw.f (dmr b 0x10) 15 0 : Int) * 1000 * 65536)) ∧
    (let s : State := stateOf fun h => let h : Hw := h.setReg (dmr true 0) 0x100;
      let h : Hw := h.setReg (dmr true 0x10) 0;
      let h : Hw := h.setDom true { master := some { hdr := { major := 2, minor := 1, via := .layer2, multicast := true, domain := 0, secondPort := false, src := 5, seq := 3, correction := 0 }, logInterval := 0, priority1 := 128, clockClass := 6, clockAccuracy := 0x21, variance := 0, priority2 := 128, gmId := 5, stepsRemoved := 0 }, heard := [({ hdr := { major := 2, minor := 1, via := .layer2, multicast := true, domain := 0, secondPort := false, src := 5, seq := 3, correction := 0 }, logInterval := 0, priority1 := 128, clockClass := 6, clockAccuracy := 0x21, variance := 0, priority2 := 128, gmId := 5, stepsRemoved := 0 }, 0)] };
      let h : Hw := h.setReg (dmr true 0x10) 1; h; let b : Bool := true;
      let m : PtpMsg := { hdr := { major := 2, minor := 1, via := .layer2, multicast := true, domain := 0, secondPort := false, src := 5, seq := 3, correction := 0 }, stamp := 4000, origin := 90000000000, logInterval := 0, twoStep := false, rate := 0 };
      (Live s) ∧ (Unshed s) ∧ (s.hw.syncTaken b m = true)
      ∧ (s.hw.syncExtra b m (s.hw.ingress b (domPort b m.hdr.secondPort) m.stamp) = false) ∧ (m.twoStep = false)
      ∧ (0 < ((s.hw.dom b).t1.elim (annInterval m.logInterval) fun p => ((m.origin : Int) + m.hdr.correction) - p))
      ∧ (s.hw.f (dmr b 0x10) 15 0 ≠ 0)
      ∧ ((s.hw.f (dmr b 0x10) 15 0 : Int) * 1000 * 65536 < (((s.hw.ingress b (domPort b m.hdr.secondPort) m.stamp) - ((m.origin : Int) + m.hdr.correction) - s.hw.domDelay b - s.hw.asym (domPort b (s.hw.dom b).port)).natAbs : Int))) ∧
    (let s : State := stateOf fun h => let h : Hw := h.setReg (dmr true 0) 0x100;
      let h : Hw := h.setReg (dmr true 0x10) 0;
      let h : Hw := h.setDom true { master := some { hdr := { major := 2, minor := 1, via := .layer2, multicast := true, domain := 0, secondPort := false, src := 5, seq := 3, correction := 0 }, logInterval := 0, priority1 := 128, clockClass := 6, clockAccuracy := 0x21, variance := 0, priority2 := 128, gmId := 5, stepsRemoved := 0 }, heard := [({ hdr := { major := 2, minor := 1, via := .layer2, multicast := true, domain := 0, secondPort := false, src := 5, seq := 3, correction := 0 }, logInterval := 0, priority1 := 128, clockClass := 6, clockAccuracy := 0x21, variance := 0, priority2 := 128, gmId := 5, stepsRemoved := 0 }, 0)] };
      let h : Hw := h.setDom true { h.dom true with used := some 999999999999 }; h; let b : Bool := true;
      let m : PtpMsg := { hdr := { major := 2, minor := 1, via := .layer2, multicast := true, domain := 0, secondPort := false, src := 5, seq := 3, correction := 0 }, stamp := 4000, origin := 900000, logInterval := -8, twoStep := false, rate := 0 };
      (Live s) ∧ (Unshed s) ∧ (s.hw.syncTaken b m = true)
      ∧ (s.hw.syncExtra b m (s.hw.ingress b (domPort b m.hdr.secondPort) m.stamp) = true)) ∧
    (let s : State := stateOf fun h => let h : Hw := h.setReg (dmr true 0) 0x100;
      let h : Hw := h.setReg (dmr true 0x10) 0;
      let h : Hw := h.setDom true { master := some { hdr := { major := 2, minor := 1, via := .layer2, multicast := true, domain := 0, secondPort := false, src := 5, seq := 3, correction := 0 }, logInterval := 0, priority1 := 128, clockClass := 6, clockAccuracy := 0x21, variance := 0, priority2 := 128, gmId := 5, stepsRemoved := 0 }, heard := [({ hdr := { major := 2, minor := 1, via := .layer2, multicast := true, domain := 0, secondPort := false, src := 5, seq := 3, correction := 0 }, logInterval := 0, priority1 := 128, clockClass := 6, clockAccuracy := 0x21, variance := 0, priority2 := 128, gmId := 5, stepsRemoved := 0 }, 0)] }; h;
      let b : Bool := true;
      let m : PtpMsg := { hdr := { major := 2, minor := 1, via := .layer2, multicast := true, domain := 0, secondPort := false, src := 5, seq := 3, correction := 0 }, stamp := 4000, origin := 900000, logInterval := 0, twoStep := true, rate := 0 };
      (Live s) ∧ (Unshed s) ∧ (s.hw.syncTaken b m = true)
      ∧ (s.hw.syncExtra b m (s.hw.ingress b (domPort b m.hdr.secondPort) m.stamp) = false) ∧ (m.twoStep = true)) ∧
    (let s : State := stateOf fun h => let h : Hw := h.setReg (dmr true 0) 0; h; let b : Bool := true;
      let m : PtpMsg := { hdr := { major := 2, minor := 1, via := .layer2, multicast := true, domain := 0, secondPort := false, src := 5, seq := 3, correction := 0 }, stamp := 4000, origin := 900000, logInterval := 0, twoStep := false, rate := 0 };
      (Live s) ∧ (Unshed s) ∧ (s.hw.syncTaken b m = false)) ∧
    (let s : State := stateOf fun h => let h : Hw := h.setReg (dmr true 0) 0x100;
      let h : Hw := h.setReg (dmr true 0x10) 0;
      let h : Hw := h.setDom true { master := some { hdr := { major := 2, minor := 1, via := .layer2, multicast := true, domain := 0, secondPort := false, src := 5, seq := 3, correction := 0 }, logInterval := 0, priority1 := 128, clockClass := 6, clockAccuracy := 0x21, variance := 0, priority2 := 128, gmId := 5, stepsRemoved := 0 }, twoStep := some ({ hdr := { major := 2, minor := 1, via := .layer2, multicast := true, domain := 0, secondPort := false, src := 5, seq := 3, correction := 0 }, stamp := 4000, origin := 900000, logInterval := 0, twoStep := true, rate := 0 }, 65536000) }; h;
      let b : Bool := true;
      let m : PtpMsg := { hdr := { major := 2, minor := 1, via := .layer2, multicast := true, domain := 0, secondPort := false, src := 5, seq := 3, correction := 0 }, stamp := 4000, origin := 900000, logInterval := 0, twoStep := false, rate := 0 };
      let y : PtpMsg := { hdr := { major := 2, minor := 1, via := .layer2, multicast := true, domain := 0, secondPort := false, src := 5, seq := 3, correction := 0 }, stamp := 4000, origin := 900000, logInterval := 0, twoStep := true, rate := 0 };
      let q : Int := 65536000; (Live s) ∧ (Unshed s) ∧ ((s.hw.dom b).twoStep = some (y, q))
      ∧ (s.hw.ptpActs b m.hdr = true) ∧ (y.hdr.src = m.hdr.src) ∧ (y.hdr.seq = m.hdr.seq)
      ∧ (y.hdr.secondPort = m.hdr.secondPort) ∧ (s.hw.syncTaken b y = true)
      ∧ (0 < ((s.hw.dom b).t1.elim (annInterval y.logInterval) fun p => ((m.origin : Int) + (y.hdr.correction + m.hdr.correction)) - p))
      ∧ (s.hw.f (dmr b 0x10) 15 0 = 0 ∨ ((q - ((m.origin : Int) + (y.hdr.correction + m.hdr.correction)) - s.hw.domDelay b - s.hw.asym (domPort b (s.hw.dom b).port)).natAbs : Int) ≤ (s.hw.f (dmr b 0x10) 15 0 : Int) * 1000 * 65536)) ∧
    (let s : State := stateOf fun h => let h : Hw := h.setReg (dmr true 0) 0x100;
      let h : Hw := h.setReg (dmr true 0x10) 0;
      let h : Hw := h.setDom true { master := some { hdr := { major := 2, minor := 1, via := .layer2, multicast := true, domain := 0, secondPort := false, src := 5, seq := 3, correction := 0 }, logInterval := 0, priority1 := 128, clockClass := 6, clockAccuracy := 0x21, variance := 0, priority2 := 128, gmId := 5, stepsRemoved := 0 }, stepAt := some 5000, twoStep := some ({ hdr := { major := 2, minor := 1, via := .layer2, multicast := true, domain := 0, secondPort := false, src := 5, seq := 3, correction := 0 }, stamp := 4000, origin := 900000, logInterval := 0, twoStep := true, rate := 0 }, 65536000) }; h;
      let b : Bool := true;
      let m : PtpMsg := { hdr := { major := 2, minor := 1, via := .layer2, multicast := true, domain := 0, secondPort := false, src := 5, seq := 3, correction := 0 }, stamp := 4000, origin := 900000, logInterval := 0, twoStep := false, rate := 0 };
      let y : PtpMsg := { hdr := { major := 2, minor := 1, via := .layer2, multicast := true, domain := 0, secondPort := false, src := 5, seq := 3, correction := 0 }, stamp := 4000, origin := 900000, logInterval := 0, twoStep := true, rate := 0 };
      let q : Int := 65536000; (Live s) ∧ (Unshed s) ∧ ((s.hw.dom b).twoStep = some (y, q))
      ∧ (s.hw.ptpActs b m.hdr = true) ∧ (y.hdr.src = m.hdr.src) ∧ (y.hdr.seq = m.hdr.seq)
      ∧ (y.hdr.secondPort = m.hdr.secondPort) ∧ (s.hw.syncTaken b y = false)) ∧
    (let s : State := stateOf fun h => let h : Hw := h.setDom true {}; h; let b : Bool := true;
      let m : PtpMsg := { hdr := { major := 2, minor := 1, via := .layer2, multicast := true, domain := 0, secondPort := false, src := 5, seq := 3, correction := 0 }, stamp := 4000, origin := 900000, logInterval := 0, twoStep := false, rate := 0 };
      (Live s) ∧ (Unshed s)
      ∧ ((s.hw.dom b).twoStep.all (fun y => y.1.hdr.seq != m.hdr.seq || y.1.hdr.src != m.hdr.src || y.1.hdr.secondPort != m.hdr.secondPort || !s.hw.ptpActs b m.hdr) = true)) ∧
    (let s : State := stateOf fun h => let h : Hw := h.setReg (dmr true 0) 0x100;
      let h : Hw := h.setReg (dmr true 0x10) 0;
      let h : Hw := h.setDom true { master := some { hdr := { major := 2, minor := 1, via := .layer2, multicast := true, domain := 0, secondPort := false, src := 5, seq := 3, correction := 0 }, logInterval := 0, priority1 := 128, clockClass := 6, clockAccuracy := 0x21, variance := 0, priority2 := 128, gmId := 5, stepsRemoved := 0 }, heard := [({ hdr := { major := 2, minor := 1, via := .layer2, multicast := true, domain := 0, secondPort := false, src := 5, seq := 3, correction := 0 }, logInterval := 0, priority1 := 128, clockClass := 6, clockAccuracy := 0x21, variance := 0, priority2 := 128, gmId := 5, stepsRemoved := 0 }, 0)] };
      let h : Hw := h.setDom true { h.dom true with req := some (3, 9), sync := some (5, 7) }; h;
      let b : Bool := true;
      let m : PtpRespMsg := { hdr := { major := 2, minor := 1, via := .layer2, multicast := true, domain := 0, secondPort := false, src := 5, seq := 3, correction := 0 }, kind := .delay, ours := true, stamp := 4000, time := 900000, twoStep := false };
      let t1 : Int := 5; let t2 : Int := 7; let t3 : Int := 9; (Live s) ∧ (Unshed s) ∧ (s.hw.ptpActs b m.hdr = true)
      ∧ (m.ours = true) ∧ (s.hw.domRole b = 1) ∧ (s.hw.domP2p b = false) ∧ (m.kind = .delay)
      ∧ ((s.hw.dom b).req = some (m.hdr.seq, t3)) ∧ ((s.hw.dom b).sync = some (t1, t2))
      ∧ ((s.hw.dom b).master.any (fun x => x.hdr.src == m.hdr.src) = true)) ∧
    (let s : State := stateOf fun h => let h : Hw := h.setReg (dmr true 0) 0x100;
      let h : Hw := h.setReg (dmr true 0x10) 0;
      let h : Hw := h.setDom true { master := some { hdr := { major := 2, minor := 1, via := .layer2, multicast := true, domain := 0, secondPort := false, src := 5, seq := 3, correction := 0 }, logInterval := 0, priority1 := 128, clockClass := 6, clockAccuracy := 0x21, variance := 0, priority2 := 128, gmId := 5, stepsRemoved := 0 }, heard := [({ hdr := { major := 2, minor := 1, via := .layer2, multicast := true, domain := 0, secondPort := false, src := 5, seq := 3, correction := 0 }, logInterval := 0, priority1 := 128, clockClass := 6, clockAccuracy := 0x21, variance := 0, priority2 := 128, gmId := 5, stepsRemoved := 0 }, 0)] };
      let h : Hw := (h.setReg (dmr true 0) 0x900).setDom true { link1 := { req := some (3, 9) } }; h;
      let b : Bool := true;
      let m : PtpRespMsg := { hdr := { major := 2, minor := 1, via := .layer2, multicast := true, domain := 0, secondPort := false, src := 5, seq := 3, correction := 0 }, kind := .pdelay, ours := true, stamp := 4000, time := 900000, twoStep := false };
      let t1 : Int := 9; (Live s) ∧ (Unshed s) ∧ (s.hw.ptpActs b m.hdr = true) ∧ (m.ours = true)
      ∧ (s.hw.domRole b ≠ 0) ∧ (s.hw.domP2p b = true) ∧ (m.kind = .pdelay) ∧ (m.twoStep = false)
      ∧ (((s.hw.dom b).link m.hdr.secondPort).req = some (m.hdr.seq, t1))) ∧
    (let s : State := stateOf fun h => let h : Hw := h.setReg (dmr true 0) 0x100;
      let h : Hw := h.setReg (dmr true 0x10) 0;
      let h : Hw := h.setDom true { master := some { hdr := { major := 2, minor := 1, via := .layer2, multicast := true, domain := 0, secondPort := false, src := 5, seq := 3, correction := 0 }, logInterval := 0, priority1 := 128, clockClass := 6, clockAccuracy := 0x21, variance := 0, priority2 := 128, gmId := 5, stepsRemoved := 0 }, heard := [({ hdr := { major := 2, minor := 1, via := .layer2, multicast := true, domain := 0, secondPort := false, src := 5, seq := 3, correction := 0 }, logInterval := 0, priority1 := 128, clockClass := 6, clockAccuracy := 0x21, variance := 0, priority2 := 128, gmId := 5, stepsRemoved := 0 }, 0)] };
      let h : Hw := (h.setReg (dmr true 0) 0x900).setDom true { link1 := { req := some (3, 9) } }; h;
      let b : Bool := true;
      let m : PtpRespMsg := { hdr := { major := 2, minor := 1, via := .layer2, multicast := true, domain := 0, secondPort := false, src := 5, seq := 3, correction := 0 }, kind := .pdelay, ours := true, stamp := 4000, time := 900000, twoStep := true };
      let t1 : Int := 9; (Live s) ∧ (Unshed s) ∧ (s.hw.ptpActs b m.hdr = true) ∧ (m.ours = true)
      ∧ (s.hw.domRole b ≠ 0) ∧ (s.hw.domP2p b = true) ∧ (m.kind = .pdelay) ∧ (m.twoStep = true)
      ∧ (((s.hw.dom b).link m.hdr.secondPort).req = some (m.hdr.seq, t1))) ∧
    (let s : State := stateOf fun h => let h : Hw := h.setReg (dmr true 0) 0x100;
      let h : Hw := h.setReg (dmr true 0x10) 0;
      let h : Hw := h.setDom true { master := some { hdr := { major := 2, minor := 1, via := .layer2, multicast := true, domain := 0, secondPort := false, src := 5, seq := 3, correction := 0 }, logInterval := 0, priority1 := 128, clockClass := 6, clockAccuracy := 0x21, variance := 0, priority2 := 128, gmId := 5, stepsRemoved := 0 }, heard := [({ hdr := { major := 2, minor := 1, via := .layer2, multicast := true, domain := 0, secondPort := false, src := 5, seq := 3, correction := 0 }, logInterval := 0, priority1 := 128, clockClass := 6, clockAccuracy := 0x21, variance := 0, priority2 := 128, gmId := 5, stepsRemoved := 0 }, 0)] };
      let h : Hw := (h.setReg (dmr true 0) 0x900).setDom true { link1 := { resp := some (3, 9, 4000) } }; h;
      let b : Bool := true;
      let m : PtpRespMsg := { hdr := { major := 2, minor := 1, via := .layer2, multicast := true, domain := 0, secondPort := false, src := 5, seq := 3, correction := 0 }, kind := .pdelayFollowUp, ours := true, stamp := 4000, time := 900000, twoStep := true };
      let part : Int := 9; let q : Nat := 4000; (Live s) ∧ (Unshed s) ∧ (s.hw.ptpActs b m.hdr = true)
      ∧ (m.ours = true) ∧ (s.hw.domRole b ≠ 0) ∧ (s.hw.domP2p b = true) ∧ (m.kind = .pdelayFollowUp)
      ∧ (((s.hw.dom b).link m.hdr.secondPort).resp = some (m.hdr.seq, part, q))) ∧
    (let s : State := stateOf fun h => let h : Hw := h.setReg (dmr true 0) 0x100;
      let h : Hw := h.setReg (dmr true 0x10) 0;
      let h : Hw := h.setDom true { master := some { hdr := { major := 2, minor := 1, via := .layer2, multicast := true, domain := 0, secondPort := false, src := 5, seq := 3, correction := 0 }, logInterval := 0, priority1 := 128, clockClass := 6, clockAccuracy := 0x21, variance := 0, priority2 := 128, gmId := 5, stepsRemoved := 0 }, heard := [({ hdr := { major := 2, minor := 1, via := .layer2, multicast := true, domain := 0, secondPort := false, src := 5, seq := 3, correction := 0 }, logInterval := 0, priority1 := 128, clockClass := 6, clockAccuracy := 0x21, variance := 0, priority2 := 128, gmId := 5, stepsRemoved := 0 }, 0)] }; h;
      let b : Bool := true;
      let m : PtpRespMsg := { hdr := { major := 2, minor := 1, via := .layer2, multicast := true, domain := 0, secondPort := false, src := 5, seq := 3, correction := 0 }, kind := .pdelay, ours := true, stamp := 4000, time := 900000, twoStep := true };
      (Live s) ∧ (Unshed s) ∧ (s.hw.domP2p b = decide (m.kind = .delay))) ∧
    (let s : State := stateOf fun h => let h : Hw := h.setReg (dmr true 0) 0x100; let h : Hw := h.setDom true {}; h;
      let b : Bool := true;
      let m : PtpAnnounceMsg := { hdr := { major := 2, minor := 1, via := .layer2, multicast := true, domain := 0, secondPort := false, src := 5, seq := 3, correction := 0 }, logInterval := 0, priority1 := 128, clockClass := 6, clockAccuracy := 0x21, variance := 0, priority2 := 128, gmId := 5, stepsRemoved := 0 };
      (Live s) ∧ (Unshed s) ∧ (s.hw.ptpActs b m.hdr = true) ∧ (s.hw.domRole b = 1) ∧ ((s.hw.dom b).master = none)
      ∧ ((s.hw.dom b).heard = [])) ∧
    (let s : State := stateOf fun h => let h : Hw := h.setReg (dmr true 0) 0x100;
      let h : Hw := h.setReg (dmr true 0x10) 0;
      let h : Hw := h.setDom true { master := some { hdr := { major := 2, minor := 1, via := .layer2, multicast := true, domain := 0, secondPort := false, src := 5, seq := 3, correction := 0 }, logInterval := 0, priority1 := 128, clockClass := 6, clockAccuracy := 0x21, variance := 0, priority2 := 128, gmId := 5, stepsRemoved := 0 }, heard := [({ hdr := { major := 2, minor := 1, via := .layer2, multicast := true, domain := 0, secondPort := false, src := 5, seq := 3, correction := 0 }, logInterval := 0, priority1 := 128, clockClass := 6, clockAccuracy := 0x21, variance := 0, priority2 := 128, gmId := 5, stepsRemoved := 0 }, 0)] }; h;
      let g : Nat := 0; let b : Bool := true;
      let m : PtpAnnounceMsg := { hdr := { major := 2, minor := 1, via := .layer2, multicast := true, domain := 0, secondPort := false, src := 7, seq := 3, correction := 0 }, logInterval := 0, priority1 := 128, clockClass := 6, clockAccuracy := 0x21, variance := 0, priority2 := 128, gmId := 4, stepsRemoved := 0 };
      let x : PtpAnnounceMsg := { hdr := { major := 2, minor := 1, via := .layer2, multicast := true, domain := 0, secondPort := false, src := 5, seq := 3, correction := 0 }, logInterval := 0, priority1 := 128, clockClass := 6, clockAccuracy := 0x21, variance := 0, priority2 := 128, gmId := 5, stepsRemoved := 0 };
      let k : Nat := 0; (Live s) ∧ (Unshed s) ∧ (s.hw.ptpActs b m.hdr = true) ∧ (s.hw.domRole b = 1)
      ∧ ((s.hw.dom b).master = some x) ∧ ((s.hw.dom b).heard = [(x, k)]) ∧ ((max s.hw.grain g) < annUntil (x, k))
      ∧ (annSame x m = false) ∧ (annBetter m x = true)) ∧
    (let s : State := stateOf fun h => let h : Hw := h.setReg (dmr true 0) 0x100;
      let h : Hw := h.setReg (dmr true 0x10) 0;
      let h : Hw := h.setDom true { master := some { hdr := { major := 2, minor := 1, via := .layer2, multicast := true, domain := 0, secondPort := false, src := 5, seq := 3, correction := 0 }, logInterval := 0, priority1 := 128, clockClass := 6, clockAccuracy := 0x21, variance := 0, priority2 := 128, gmId := 5, stepsRemoved := 0 }, heard := [({ hdr := { major := 2, minor := 1, via := .layer2, multicast := true, domain := 0, secondPort := false, src := 5, seq := 3, correction := 0 }, logInterval := 0, priority1 := 128, clockClass := 6, clockAccuracy := 0x21, variance := 0, priority2 := 128, gmId := 5, stepsRemoved := 0 }, 0)] }; h;
      let g : Nat := 0; let b : Bool := true;
      let m : PtpAnnounceMsg := { hdr := { major := 2, minor := 1, via := .layer2, multicast := true, domain := 0, secondPort := false, src := 7, seq := 3, correction := 0 }, logInterval := 0, priority1 := 128, clockClass := 6, clockAccuracy := 0x21, variance := 0, priority2 := 128, gmId := 9, stepsRemoved := 0 };
      let x : PtpAnnounceMsg := { hdr := { major := 2, minor := 1, via := .layer2, multicast := true, domain := 0, secondPort := false, src := 5, seq := 3, correction := 0 }, logInterval := 0, priority1 := 128, clockClass := 6, clockAccuracy := 0x21, variance := 0, priority2 := 128, gmId := 5, stepsRemoved := 0 };
      let k : Nat := 0; (Live s) ∧ (Unshed s) ∧ (s.hw.ptpActs b m.hdr = true) ∧ (s.hw.domRole b = 1)
      ∧ ((s.hw.dom b).master = some x) ∧ ((s.hw.dom b).heard = [(x, k)]) ∧ ((max s.hw.grain g) < annUntil (x, k))
      ∧ (annSame x m = false) ∧ (annBetter m x = false)) ∧
    (let s : State := stateOf fun h => let h : Hw := h.setReg (dmr true 0) 0x100;
      let h : Hw := h.setReg (dmr true 0x10) 0;
      let h : Hw := h.setDom true { master := some { hdr := { major := 2, minor := 1, via := .layer2, multicast := true, domain := 0, secondPort := false, src := 5, seq := 3, correction := 0 }, logInterval := 0, priority1 := 128, clockClass := 6, clockAccuracy := 0x21, variance := 0, priority2 := 128, gmId := 5, stepsRemoved := 0 }, heard := [({ hdr := { major := 2, minor := 1, via := .layer2, multicast := true, domain := 0, secondPort := false, src := 5, seq := 3, correction := 0 }, logInterval := 0, priority1 := 128, clockClass := 6, clockAccuracy := 0x21, variance := 0, priority2 := 128, gmId := 5, stepsRemoved := 0 }, 0)] }; h;
      let g : Nat := 1500000000; let b : Bool := true;
      let x : PtpAnnounceMsg := { hdr := { major := 2, minor := 1, via := .layer2, multicast := true, domain := 0, secondPort := false, src := 5, seq := 3, correction := 0 }, logInterval := 0, priority1 := 128, clockClass := 6, clockAccuracy := 0x21, variance := 0, priority2 := 128, gmId := 5, stepsRemoved := 0 };
      let k : Nat := 0; (Live s) ∧ (s.hw.domRole b = 1) ∧ ((s.hw.dom b).master = some x)
      ∧ ((s.hw.dom b).heard = [(x, k)]) ∧ (annUntil (x, k) ≤ (max s.hw.grain g))) ∧
    (let s : State := stateOf fun h => let h : Hw := h.setReg (dmr true 0) 0x100;
      let h : Hw := h.setReg (dmr true 0x10) 0;
      let h : Hw := h.setDom true { master := some { hdr := { major := 2, minor := 1, via := .layer2, multicast := true, domain := 0, secondPort := false, src := 5, seq := 3, correction := 0 }, logInterval := 0, priority1 := 128, clockClass := 6, clockAccuracy := 0x21, variance := 0, priority2 := 128, gmId := 5, stepsRemoved := 0 }, heard := [({ hdr := { major := 2, minor := 1, via := .layer2, multicast := true, domain := 0, secondPort := false, src := 5, seq := 3, correction := 0 }, logInterval := 0, priority1 := 128, clockClass := 6, clockAccuracy := 0x21, variance := 0, priority2 := 128, gmId := 5, stepsRemoved := 0 }, 0)] }; h;
      let g : Nat := 0; let b : Bool := true;
      let x : PtpAnnounceMsg := { hdr := { major := 2, minor := 1, via := .layer2, multicast := true, domain := 0, secondPort := false, src := 5, seq := 3, correction := 0 }, logInterval := 0, priority1 := 128, clockClass := 6, clockAccuracy := 0x21, variance := 0, priority2 := 128, gmId := 5, stepsRemoved := 0 };
      let k : Nat := 0; (Live s) ∧ ((s.hw.dom b).master = some x) ∧ ((s.hw.dom b).heard = [(x, k)])
      ∧ ((max s.hw.grain g) < annUntil (x, k))) ∧
    (let s : State := stateOf fun h => let h : Hw := h.setReg (dmr true 0) 0x100;
      let h : Hw := h.setReg (dmr true 0x10) 0;
      let h : Hw := h.setDom true { master := some { hdr := { major := 2, minor := 1, via := .layer2, multicast := true, domain := 0, secondPort := false, src := 5, seq := 3, correction := 0 }, logInterval := 0, priority1 := 128, clockClass := 6, clockAccuracy := 0x21, variance := 0, priority2 := 128, gmId := 5, stepsRemoved := 0 }, heard := [({ hdr := { major := 2, minor := 1, via := .layer2, multicast := true, domain := 0, secondPort := false, src := 5, seq := 3, correction := 0 }, logInterval := 0, priority1 := 128, clockClass := 6, clockAccuracy := 0x21, variance := 0, priority2 := 128, gmId := 5, stepsRemoved := 0 }, 0)] };
      let h : Hw := (h.setReg (dmr true 0x0C) 0x2000000).setDom true { h.dom true with lastSync := some (7, -3) }; h;
      let g : Nat := 125000007; let b : Bool := true; let k : Nat := 7; let log : Int := -3; (Live s)
      ∧ (s.hw.domRole b = 1) ∧ ((s.hw.dom b).lastSync = some (k, log))
      ∧ (k + max 1 (s.hw.f (dmr b 0x0C) 31 24) * logGrains log ≤ (max s.hw.grain g))) ∧
    (let s : State := stateOf fun h => let h : Hw := h.setReg (dmr true 0) 0x100;
      let h : Hw := h.setReg (dmr true 0x10) 0;
      let h : Hw := h.setDom true { master := some { hdr := { major := 2, minor := 1, via := .layer2, multicast := true, domain := 0, secondPort := false, src := 5, seq := 3, correction := 0 }, logInterval := 0, priority1 := 128, clockClass := 6, clockAccuracy := 0x21, variance := 0, priority2 := 128, gmId := 5, stepsRemoved := 0 }, heard := [({ hdr := { major := 2, minor := 1, via := .layer2, multicast := true, domain := 0, secondPort := false, src := 5, seq := 3, correction := 0 }, logInterval := 0, priority1 := 128, clockClass := 6, clockAccuracy := 0x21, variance := 0, priority2 := 128, gmId := 5, stepsRemoved := 0 }, 0)] };
      let h : Hw := (h.setReg (dmr true 0x0C) 0x2000000).setDom true { h.dom true with lastSync := some (7, -3) }; h;
      let g : Nat := 0; let b : Bool := true; let k : Nat := 7; let log : Int := -3; (Live s)
      ∧ ((s.hw.dom b).lastSync = some (k, log))
      ∧ ((max s.hw.grain g) < k + max 1 (s.hw.f (dmr b 0x0C) 31 24) * logGrains log)) := by
  refine ⟨?_, ?_, ?_, ?_, ?_, ?_, ?_, ?_, ?_, ?_, ?_, ?_, ?_, ?_, ?_, ?_, ?_, ?_, ?_, ?_⟩ <;> decide

theorem witness_networkTimeMessages :
    (let s : State := stateOf fun h => let h : Hw := (h.setReg (ra pNSW 0x068) 1).setReg (ra pNSW 0x078) 1;
      let h : Hw := ((h.setReg (ra pNSW 0x06C) 0).setReg (ra pNSW 0x07C) 0).setReg (nt rLOCK) 0;
      let h : Hw := (h.setReg (dmr true 0) 0x200).setDom true {}; h; let g : Nat := 0; let b : Bool := true;
      let p : Nat := 2; let v : PtpVia := .layer2; (Live s) ∧ (Unshed s) ∧ (s.hw.domRole b = 2)
      ∧ ((s.hw.dom b).sentAt.all (fun k => decide (k + logGrains (signed 4 (s.hw.f (dmr b 0) 31 28)) ≤ (max s.hw.grain g))) = true)
      ∧ (p ∈ domPorts b) ∧ (v ∈ s.hw.domVias b) ∧ (s.hw.bit (ra pNSW (0x060 + 4 * p)) 0 = true)
      ∧ (s.hw.bit (ra pNSW (0x070 + 4 * p)) 0 = true)) ∧
    (let s : State := stateOf fun h => let h : Hw := h.setReg (dmr true 0) 0x100; h; let g : Nat := 0;
      let b : Bool := true; (Live s) ∧ (Unshed s)
      ∧ (s.hw.domRole b ≠ 2 ∨ (s.hw.dom b).sentAt.all (fun k => decide (k + logGrains (signed 4 (s.hw.f (dmr b 0) 31 28)) ≤ (max s.hw.grain g))) = false)) ∧
    (let s : State := stateOf fun h => let h : Hw := (h.setReg (ra pNSW 0x068) 1).setReg (ra pNSW 0x078) 1;
      let h : Hw := ((h.setReg (ra pNSW 0x06C) 0).setReg (ra pNSW 0x07C) 0).setReg (nt rLOCK) 0;
      let h : Hw := h.setReg (dmr true 0) 0x200; h; let b : Bool := true; let p : Nat := 2;
      let v : PtpVia := .layer2; (Live s) ∧ (Unshed s) ∧ (s.hw.domRole b = 2) ∧ (p ∈ domPorts b)
      ∧ (v ∈ s.hw.domVias b) ∧ (s.hw.bit (ra pNSW (0x060 + 4 * p)) 0 = true)
      ∧ (s.hw.bit (ra pNSW (0x070 + 4 * p)) 0 = true)) ∧
    (let s : State := stateOf fun h => let h : Hw := h.setReg (dmr true 0) 0x100; h; let b : Bool := true; (Live s)
      ∧ (Unshed s) ∧ (s.hw.domRole b ≠ 2)) ∧
    (let s : State := stateOf fun h => let h : Hw := (h.setReg (ra pNSW 0x068) 1).setReg (ra pNSW 0x078) 1;
      let h : Hw := ((h.setReg (ra pNSW 0x06C) 0).setReg (ra pNSW 0x07C) 0).setReg (nt rLOCK) 0;
      let h : Hw := h.setReg (dmr true 0) 0x200; h; let b : Bool := true;
      let m : PtpReqMsg := { hdr := { major := 2, minor := 1, via := .layer2, multicast := true, domain := 0, secondPort := false, src := 5, seq := 3, correction := 0 }, pdelay := false, stamp := 4000 };
      let p : Nat := 2; let v : PtpVia := .layer2; (Live s) ∧ (Unshed s) ∧ (s.hw.domRole b = 2)
      ∧ (s.hw.ptpActs b m.hdr = true) ∧ (m.pdelay = false) ∧ (p = domPort b m.hdr.secondPort) ∧ (v ∈ s.hw.domVias b)
      ∧ (s.hw.bit (ra pNSW (0x060 + 4 * p)) 0 = true) ∧ (s.hw.bit (ra pNSW (0x070 + 4 * p)) 0 = true)) ∧
    (let s : State := stateOf fun h => let h : Hw := (h.setReg (ra pNSW 0x068) 1).setReg (ra pNSW 0x078) 1;
      let h : Hw := ((h.setReg (ra pNSW 0x06C) 0).setReg (ra pNSW 0x07C) 0).setReg (nt rLOCK) 0;
      let h : Hw := h.setReg (dmr true 0) 0x200; h; let b : Bool := true;
      let m : PtpReqMsg := { hdr := { major := 2, minor := 1, via := .layer2, multicast := true, domain := 0, secondPort := false, src := 5, seq := 3, correction := 0 }, pdelay := true, stamp := 4000 };
      let p : Nat := 2; let v : PtpVia := .layer2; (Live s) ∧ (Unshed s) ∧ (s.hw.domRole b = 2)
      ∧ (s.hw.ptpActs b m.hdr = true) ∧ (m.pdelay = true) ∧ (p = domPort b m.hdr.secondPort) ∧ (v ∈ s.hw.domVias b)
      ∧ (s.hw.bit (ra pNSW (0x060 + 4 * p)) 0 = true) ∧ (s.hw.bit (ra pNSW (0x070 + 4 * p)) 0 = true)) ∧
    (let s : State := stateOf fun h => let h : Hw := h.setReg (dmr true 0) 0x100; h; let b : Bool := true;
      let m : PtpReqMsg := { hdr := { major := 2, minor := 1, via := .layer2, multicast := true, domain := 0, secondPort := false, src := 5, seq := 3, correction := 0 }, pdelay := true, stamp := 4000 };
      (Live s) ∧ (Unshed s) ∧ (s.hw.domRole b ≠ 2 ∨ s.hw.ptpActs b m.hdr = false)) ∧
    (let s : State := stateOf fun h => let h : Hw := (h.setReg (ra pNSW 0x068) 1).setReg (ra pNSW 0x078) 1;
      let h : Hw := ((h.setReg (ra pNSW 0x06C) 0).setReg (ra pNSW 0x07C) 0).setReg (nt rLOCK) 0;
      let h : Hw := h.setReg (dmr true 0) 0x900; h; let b : Bool := true; let p : Nat := 2;
      let v : PtpVia := .layer2; let x : Bool := false; (Live s) ∧ (Unshed s) ∧ (s.hw.domRole b ≠ 0)
      ∧ (s.hw.domP2p b = true) ∧ (p = domPort b x) ∧ (v ∈ s.hw.domVias b)
      ∧ (s.hw.bit (ra pNSW (0x060 + 4 * p)) 0 = true) ∧ (s.hw.bit (ra pNSW (0x070 + 4 * p)) 0 = true)) ∧
    (let s : State := stateOf fun h => let h : Hw := (h.setReg (ra pNSW 0x068) 1).setReg (ra pNSW 0x078) 1;
      let h : Hw := ((h.setReg (ra pNSW 0x06C) 0).setReg (ra pNSW 0x07C) 0).setReg (nt rLOCK) 0;
      let h : Hw := h.setReg (dmr true 0) 0x100;
      let h : Hw := h.setDom true { master := some { hdr := { major := 2, minor := 1, via := .layer2, multicast := true, domain := 0, secondPort := false, src := 5, seq := 3, correction := 0 }, logInterval := 0, priority1 := 128, clockClass := 6, clockAccuracy := 0x21, variance := 0, priority2 := 128, gmId := 5, stepsRemoved := 0 } }; h;
      let b : Bool := true; let p : Nat := 2; let v : PtpVia := .layer2; (Live s) ∧ (Unshed s) ∧ (s.hw.domRole b = 1)
      ∧ (s.hw.domP2p b = false) ∧ ((s.hw.dom b).master.isSome = true) ∧ (p = domPort b (s.hw.dom b).port)
      ∧ (v ∈ s.hw.domVias b) ∧ (s.hw.bit (ra pNSW (0x060 + 4 * p)) 0 = true)
      ∧ (s.hw.bit (ra pNSW (0x070 + 4 * p)) 0 = true)) ∧
    (let s : State := stateOf fun h => let h : Hw := h.setReg (dmr true 0) 0x200; h; let b : Bool := true; (Live s)
      ∧ (Unshed s) ∧ (s.hw.domRole b = 0 ∨ (s.hw.domP2p b = false
      ∧ (s.hw.domRole b = 2 ∨ (s.hw.dom b).master = none)))) ∧
    (let s : State := stateOf fun h => let h : Hw := (h.setReg (ra pNSW 0x068) 1).setReg (ra pNSW 0x078) 1;
      let h : Hw := ((h.setReg (ra pNSW 0x06C) 0).setReg (ra pNSW 0x07C) 0).setReg (nt rLOCK) 0;
      let h : Hw := (h.setReg (dmr true 0) 0x200).setReg (dmr true 0x44) 999; h; let b : Bool := true; (Live s)
      ∧ (Unlocked s pNTM) ∧ (s.hw.domRole b = 2)) ∧
    (let s : State := stateOf fun h => let h : Hw := (h.setReg (ra pNSW 0x068) 1).setReg (ra pNSW 0x078) 1;
      let h : Hw := ((h.setReg (ra pNSW 0x06C) 0).setReg (ra pNSW 0x07C) 0).setReg (nt rLOCK) 0;
      let h : Hw := h.setReg (dmr true 0) 0x100; h; let b : Bool := true; (Live s) ∧ (Unlocked s pNTM)
      ∧ (s.hw.domRole b ≠ 2)) ∧
    (let s : State := stateOf fun h => let h : Hw := (h.setReg (ra pNSW 0x068) 1).setReg (ra pNSW 0x078) 1;
      let h : Hw := ((h.setReg (ra pNSW 0x06C) 0).setReg (ra pNSW 0x07C) 0).setReg (nt rLOCK) 0;
      let h : Hw := (h.setReg (nt rREADY) 0).setReg (nt rSTAT) 0; h; let src : Bool := default; (Live s)
      ∧ (Unlocked s pNTM) ∧ (s.hw.clk.stepped = true ∨ (src = false ∧ s.hw.srcLocked = false))) ∧
    (let s : State := stateOf fun h => let h : Hw := (h.setReg (ra pNSW 0x068) 1).setReg (ra pNSW 0x078) 1;
      let h : Hw := ((h.setReg (ra pNSW 0x06C) 0).setReg (ra pNSW 0x07C) 0).setReg (nt rLOCK) 0;
      let h : Hw := { h with clk := { h.clk with stepped := false } }; h; let src : Bool := true; (Live s)
      ∧ (Unlocked s pNTM) ∧ (s.hw.clk.stepped = false) ∧ (src = true ∨ s.hw.srcLocked = true)) ∧
    (let s : State := stateOf fun h => let h : Hw := (h.setReg (ra pNSW 0x068) 1).setReg (ra pNSW 0x078) 1;
      let h : Hw := ((h.setReg (ra pNSW 0x06C) 0).setReg (ra pNSW 0x07C) 0).setReg (nt rLOCK) 0; h; (Live s)
      ∧ (Unlocked s pNTM)) := by
  refine ⟨?_, ?_, ?_, ?_, ?_, ?_, ?_, ?_, ?_, ?_, ?_, ?_, ?_, ?_, ?_⟩ <;> decide

theorem witness_switchFrames :
    (let s : State := stateOf fun h => let h : Hw := (h.setReg (nw 0x068) 3).setReg (nw 0x078) 5;
      let h : Hw := (h.setReg (nw 0x06C) 3).setReg (nw 0x07C) 3;
      let h : Hw := (h.setReg (nw 0x084) 0x00400002).setReg (nw 0x080) 0x00400040;
      let h : Hw := { h with nsw := {} }; let h : Hw := (h.setReg (nw rLOCK) 0).setReg (nw 0x500) 0;
      let h : Hw := h.setReg (nw 0x078) 0; h; let g : Nat := 0;
      let f : Frame := { port := 2, len := 64, pcp := some 3, etype := 0x800, kind := .software, forUs := true, multicast := false, prp := none, fcsOk := true, stamp := 4000, data := [] };
      (Live s) ∧ (Unshed s) ∧ (Alone s g) ∧ (f.port < 4) ∧ (s.hw.portUp f.port = false)) ∧
    (let s : State := stateOf fun h => let h : Hw := (h.setReg (nw 0x068) 3).setReg (nw 0x078) 5;
      let h : Hw := (h.setReg (nw 0x06C) 3).setReg (nw 0x07C) 3;
      let h : Hw := (h.setReg (nw 0x084) 0x00400002).setReg (nw 0x080) 0x00400040;
      let h : Hw := { h with nsw := {} }; let h : Hw := (h.setReg (nw rLOCK) 0).setReg (nw 0x500) 0; h;
      let g : Nat := 0;
      let f : Frame := { port := 2, len := 64, pcp := some 3, etype := 0x800, kind := .pause, forUs := true, multicast := false, prp := none, fcsOk := true, stamp := 4000, data := [] };
      (Live s) ∧ (Unshed s) ∧ (Alone s g) ∧ (f.port < 4) ∧ (s.hw.portUp f.port = true) ∧ (f.kind = .pause)) ∧
    (let s : State := stateOf fun h => let h : Hw := (h.setReg (nw 0x068) 3).setReg (nw 0x078) 5;
      let h : Hw := (h.setReg (nw 0x06C) 3).setReg (nw 0x07C) 3;
      let h : Hw := (h.setReg (nw 0x084) 0x00400002).setReg (nw 0x080) 0x00400040;
      let h : Hw := { h with nsw := {} }; let h : Hw := (h.setReg (nw rLOCK) 0).setReg (nw 0x500) 0; h;
      let g : Nat := 0;
      let f : Frame := { port := 2, len := 64, pcp := some 3, etype := 0x800, kind := .lldp, forUs := true, multicast := false, prp := none, fcsOk := true, stamp := 4000, data := [] };
      (Live s) ∧ (Unshed s) ∧ (Alone s g) ∧ (f.port < 4) ∧ (s.hw.portUp f.port = true) ∧ (f.kind = .lldp)
      ∧ (f.forUs = true) ∧ (f.prp = none) ∧ (f.fcsOk = true)
      ∧ ((s.hw.at g).cellsOk (s.hw.frameClass f) (cellsOf f.len) none = true)) ∧
    (let s : State := stateOf fun h => let h : Hw := (h.setReg (nw 0x068) 3).setReg (nw 0x078) 5;
      let h : Hw := (h.setReg (nw 0x06C) 3).setReg (nw 0x07C) 3;
      let h : Hw := (h.setReg (nw 0x084) 0x00400002).setReg (nw 0x080) 0x00400040;
      let h : Hw := { h with nsw := {} }; let h : Hw := (h.setReg (nw rLOCK) 0).setReg (nw 0x500) 0; h;
      let g : Nat := 0;
      let f : Frame := { port := 2, len := 64, pcp := some 3, etype := 0x800, kind := .foreign, forUs := false, multicast := false, prp := none, fcsOk := true, stamp := 4000, data := [] };
      (Live s) ∧ (Unshed s) ∧ (Alone s g) ∧ (f.port < 4) ∧ (s.hw.portUp f.port = true) ∧ (f.kind = .foreign)
      ∧ (f.forUs = false) ∧ (f.multicast = false) ∧ (f.fcsOk = true) ∧ (s.hw.portUp (otherPort f.port) = true)
      ∧ (s.hw.portSpeed f.port ≠ s.hw.portSpeed (otherPort f.port))
      ∧ ((s.hw.at g).cellsOk (s.hw.frameClass f) (cellsOf f.len) (some (otherPort f.port)) = true)) ∧
    (let s : State := stateOf fun h => let h : Hw := (h.setReg (nw 0x068) 3).setReg (nw 0x078) 5;
      let h : Hw := (h.setReg (nw 0x06C) 3).setReg (nw 0x07C) 3;
      let h : Hw := (h.setReg (nw 0x084) 0x00400002).setReg (nw 0x080) 0x00400040;
      let h : Hw := { h with nsw := {} }; let h : Hw := (h.setReg (nw rLOCK) 0).setReg (nw 0x500) 0;
      let h : Hw := h.setReg (dmr true 0) 0x800; h; let g : Nat := 0;
      let f : Frame := { port := 2, len := 64, pcp := some 3, etype := 0x800, kind := .ptpSync, forUs := false, multicast := true, prp := none, fcsOk := true, stamp := 4000, data := [] };
      (Live s) ∧ (Unshed s) ∧ (Alone s g) ∧ (f.port < 4) ∧ (s.hw.portUp f.port = true) ∧ (f.kind = .ptpSync)
      ∧ (f.forUs = false) ∧ (f.fcsOk = true) ∧ (s.hw.domAs (decide (2 ≤ f.port)) = false)
      ∧ (s.hw.portUp (otherPort f.port) = true) ∧ (s.hw.portSpeed f.port ≠ s.hw.portSpeed (otherPort f.port))
      ∧ ((s.hw.at g).cellsOk (s.hw.frameClass f) (cellsOf f.len) (some (otherPort f.port)) = true)) ∧
    (let s : State := stateOf fun h => let h : Hw := (h.setReg (nw 0x068) 3).setReg (nw 0x078) 5;
      let h : Hw := (h.setReg (nw 0x06C) 3).setReg (nw 0x07C) 3;
      let h : Hw := (h.setReg (nw 0x084) 0x00400002).setReg (nw 0x080) 0x00400040;
      let h : Hw := { h with nsw := {} }; let h : Hw := (h.setReg (nw rLOCK) 0).setReg (nw 0x500) 0;
      let h : Hw := (h.setReg (nw 0x080) 0).setReg (nw 0x084) 0x1FF; h; let g : Nat := 0;
      let f : Frame := { port := 2, len := 900000, pcp := some 3, etype := 0x800, kind := .foreign, forUs := false, multicast := false, prp := none, fcsOk := true, stamp := 4000, data := [] };
      (Live s) ∧ (Unshed s) ∧ (Alone s g) ∧ (f.port < 4) ∧ (s.hw.portUp f.port = true) ∧ (f.kind ≠ .pause)
      ∧ ((s.hw.at g).cellsOk (s.hw.frameClass f) (cellsOf f.len) none = false)) ∧
    (let s : State := stateOf fun h => let h : Hw := (h.setReg (nw 0x068) 3).setReg (nw 0x078) 5;
      let h : Hw := (h.setReg (nw 0x06C) 3).setReg (nw 0x07C) 3;
      let h : Hw := (h.setReg (nw 0x084) 0x00400002).setReg (nw 0x080) 0x00400040;
      let h : Hw := { h with nsw := {} }; let h : Hw := (h.setReg (nw rLOCK) 0).setReg (nw 0x500) 0;
      let h : Hw := { h with nsw := { frames := [⟨2, 3, 64, 1, none, none, { kind := .forwarded, port := 2 }⟩] } }; h;
      let g : Nat := 0; let p : Fin 4 := 2;
      let x : NFrame := ⟨2, 3, 64, 1, none, none, { kind := .forwarded, port := 2 }⟩; (Live s) ∧ (Unshed s)
      ∧ (Alone s g) ∧ (s.hw.portUp p = true) ∧ (s.hw.nsw.frames = [x]) ∧ (x.port = p.val)
      ∧ (tabGet 0 p.val s.hw.nsw.busy ≤ max s.hw.grain g) ∧ ((s.hw.at g).mayStart p x.cls x.len = true)
      ∧ (x.soft = none) ∧ (x.event = none)) ∧
    (let s : State := stateOf fun h => let h : Hw := (h.setReg (nw 0x068) 3).setReg (nw 0x078) 5;
      let h : Hw := (h.setReg (nw 0x06C) 3).setReg (nw 0x07C) 3;
      let h : Hw := (h.setReg (nw 0x084) 0x00400002).setReg (nw 0x080) 0x00400040;
      let h : Hw := { h with nsw := {} }; let h : Hw := (h.setReg (nw rLOCK) 0).setReg (nw 0x500) 0;
      let h : Hw := { h with nsw := { frames := [⟨2, 3, 64, 1, none, some (7, 9), { kind := .forwarded, port := 2 }⟩] } }; h;
      let g : Nat := 0; let p : Fin 4 := 2;
      let x : NFrame := ⟨2, 3, 64, 1, none, some (7, 9), { kind := .forwarded, port := 2 }⟩; let q : Int := 7;
      let link : Int := 9; (Live s) ∧ (Unshed s) ∧ (Alone s g) ∧ (s.hw.portUp p = true) ∧ (s.hw.nsw.frames = [x])
      ∧ (x.port = p.val) ∧ (tabGet 0 p.val s.hw.nsw.busy ≤ max s.hw.grain g)
      ∧ ((s.hw.at g).mayStart p x.cls x.len = true) ∧ (x.soft = none) ∧ (x.event = some (q, link))) ∧
    (let s : State := stateOf fun h => let h : Hw := (h.setReg (nw 0x068) 3).setReg (nw 0x078) 5;
      let h : Hw := (h.setReg (nw 0x06C) 3).setReg (nw 0x07C) 3;
      let h : Hw := (h.setReg (nw 0x084) 0x00400002).setReg (nw 0x080) 0x00400040;
      let h : Hw := { h with nsw := {} }; let h : Hw := (h.setReg (nw rLOCK) 0).setReg (nw 0x500) 0;
      let h : Hw := h.setReg (nw 0x078) 0; h; let g : Nat := 0; let p : Fin 4 := 2; (Live s) ∧ (Unshed s)
      ∧ (Alone s g) ∧ (s.hw.portUp p = false ∨ max s.hw.grain g < tabGet 0 p.val s.hw.nsw.busy)) ∧
    (let s : State := stateOf fun h => let h : Hw := (h.setReg (nw 0x068) 3).setReg (nw 0x078) 5;
      let h : Hw := (h.setReg (nw 0x06C) 3).setReg (nw 0x07C) 3;
      let h : Hw := (h.setReg (nw 0x084) 0x00400002).setReg (nw 0x080) 0x00400040;
      let h : Hw := { h with nsw := {} }; let h : Hw := (h.setReg (nw rLOCK) 0).setReg (nw 0x500) 0;
      let h : Hw := (h.setReg (ck 0x048) 100).setReg (ck 0x04C) 1;
      let h : Hw := ((h.setReg (nw 0x500) 2).setReg (nw 0x504) 0xFF000000).setReg (nw 0x508) 0xFF000064; h;
      let g : Nat := 0; let p : Fin 4 := 2; (Live s) ∧ (Unshed s) ∧ (s.hw.gclOn p = true)
      ∧ ((List.range (s.hw.gclN p)).all (fun j => decide (j + 1 < s.hw.gclN p → s.hw.gclSum p (j + 1) ≤ (s.hw.at g).cycPos)) = true)
      ∧ (tabGet 0 p.val s.hw.nsw.gcl < s.hw.gclN p - 1)) ∧
    (let s : State := stateOf fun h => let h : Hw := (h.setReg (nw 0x068) 3).setReg (nw 0x078) 5;
      let h : Hw := (h.setReg (nw 0x06C) 3).setReg (nw 0x07C) 3;
      let h : Hw := (h.setReg (nw 0x084) 0x00400002).setReg (nw 0x080) 0x00400040;
      let h : Hw := { h with nsw := {} }; let h : Hw := (h.setReg (nw rLOCK) 0).setReg (nw 0x500) 0; h;
      let p : Fin 4 := 2; (Live s) ∧ (Unshed s) ∧ (s.hw.gclOn p = false)) ∧
    (let s : State := stateOf fun h => let h : Hw := (h.setReg (nw 0x068) 3).setReg (nw 0x078) 5;
      let h : Hw := (h.setReg (nw 0x06C) 3).setReg (nw 0x07C) 3;
      let h : Hw := (h.setReg (nw 0x084) 0x00400002).setReg (nw 0x080) 0x00400040;
      let h : Hw := { h with nsw := { bufs := [(8168, 1)], rxq := [(8168, 64)] } };
      let h : Hw := (h.setReg (nw rLOCK) 0).setReg (nw 0x500) 0; h; let c : Nat := 8168; let len : Nat := 64;
      let rest : List (Nat × Nat) := []; (Live s) ∧ (s.hw.nsw.rxq = (c, len) :: rest)) ∧
    (let s : State := stateOf fun h => let h : Hw := (h.setReg (nw 0x068) 3).setReg (nw 0x078) 5;
      let h : Hw := (h.setReg (nw 0x06C) 3).setReg (nw 0x07C) 3;
      let h : Hw := (h.setReg (nw 0x084) 0x00400002).setReg (nw 0x080) 0x00400040;
      let h : Hw := { h with nsw := {} }; let h : Hw := (h.setReg (nw rLOCK) 0).setReg (nw 0x500) 0; h; (Live s)
      ∧ (s.hw.nsw.rxq = [])) ∧
    (let s : State := stateOf fun h => let h : Hw := (h.setReg (nw 0x068) 3).setReg (nw 0x078) 5;
      let h : Hw := (h.setReg (nw 0x06C) 3).setReg (nw 0x07C) 3;
      let h : Hw := (h.setReg (nw 0x084) 0x00400002).setReg (nw 0x080) 0x00400040;
      let h : Hw := { h with nsw := { bufs := [(8168, 2)], rxq := [] } };
      let h : Hw := (h.setReg (nw rLOCK) 0).setReg (nw 0x500) 0; h; let g : Nat := 0; let c : BitVec 13 := 8168;
      (Live s) ∧ (Alone s g) ∧ (Unlocked s pNSW) ∧ (s.hw.bufState c.toNat = 2)) ∧
    (let s : State := stateOf fun h => let h : Hw := (h.setReg (nw 0x068) 3).setReg (nw 0x078) 5;
      let h : Hw := (h.setReg (nw 0x06C) 3).setReg (nw 0x07C) 3;
      let h : Hw := (h.setReg (nw 0x084) 0x00400002).setReg (nw 0x080) 0x00400040;
      let h : Hw := { h with nsw := { bufs := [(8168, 1)], rxq := [] } };
      let h : Hw := (h.setReg (nw rLOCK) 0).setReg (nw 0x500) 0; h; let g : Nat := 0; let c : BitVec 13 := 8168;
      (Live s) ∧ (Alone s g) ∧ (Unlocked s pNSW) ∧ (s.hw.bufState c.toNat ≠ 2)) ∧
    (let s : State := stateOf fun h => let h : Hw := (h.setReg (nw 0x068) 3).setReg (nw 0x078) 5;
      let h : Hw := (h.setReg (nw 0x06C) 3).setReg (nw 0x07C) 3;
      let h : Hw := (h.setReg (nw 0x084) 0x00400002).setReg (nw 0x080) 0x00400040;
      let h : Hw := { h with nsw := {} }; let h : Hw := (h.setReg (nw rLOCK) 0).setReg (nw 0x500) 0;
      let h : Hw := h.setReg (nw 0x084) 1; h; let g : Nat := 0; (Live s) ∧ (Alone s g) ∧ (s.hw.f (nw 0x084) 8 0 = 1)
      ∧ ((s.hw.at g).bufState 8180 = 0)) ∧
    (let s : State := stateOf fun h => let h : Hw := (h.setReg (nw 0x068) 3).setReg (nw 0x078) 5;
      let h : Hw := (h.setReg (nw 0x06C) 3).setReg (nw 0x07C) 3;
      let h : Hw := (h.setReg (nw 0x084) 0x00400002).setReg (nw 0x080) 0x00400040;
      let h : Hw := { h with nsw := {} }; let h : Hw := (h.setReg (nw rLOCK) 0).setReg (nw 0x500) 0;
      let h : Hw := h.setReg (nw 0x084) 1; let h : Hw := { h with nsw := { bufs := [(8180, 1)] } }; h;
      let g : Nat := 0; (Live s) ∧ (Alone s g) ∧ (s.hw.f (nw 0x084) 8 0 = 1) ∧ ((s.hw.at g).bufState 8180 ≠ 0)) ∧
    (let s : State := stateOf fun h => let h : Hw := (h.setReg (nw 0x068) 3).setReg (nw 0x078) 5;
      let h : Hw := (h.setReg (nw 0x06C) 3).setReg (nw 0x07C) 3;
      let h : Hw := (h.setReg (nw 0x084) 0x00400002).setReg (nw 0x080) 0x00400040;
      let h : Hw := { h with nsw := { bufs := [(8168, 2)], rxq := [] } };
      let h : Hw := (h.setReg (nw rLOCK) 0).setReg (nw 0x500) 0;
      let h : Hw := (((h.setReg (nw 0x070) 0).setReg (nw 0x074) 0).setReg (nw 0x078) 0).setReg (nw 0x07C) 0; h;
      let g : Nat := 0; let v : Word := 0x00401FE8; (Live s) ∧ (Alone s g) ∧ (Unlocked s pNSW)
      ∧ (s.hw.bufState (fld v 12 0) = 2) ∧ (60 ≤ fld v 26 16) ∧ (fld v 26 16 ≤ 1522)
      ∧ (∀ p : Fin 4, s.hw.portUp p = false)) ∧
    (let s : State := stateOf fun h => let h : Hw := (h.setReg (nw 0x068) 3).setReg (nw 0x078) 5;
      let h : Hw := (h.setReg (nw 0x06C) 3).setReg (nw 0x07C) 3;
      let h : Hw := (h.setReg (nw 0x084) 0x00400002).setReg (nw 0x080) 0x00400040;
      let h : Hw := { h with nsw := { bufs := [(8168, 2)], rxq := [] } };
      let h : Hw := (h.setReg (nw rLOCK) 0).setReg (nw 0x500) 0;
      let h : Hw := (h.setReg (nw 0x068) 3).setReg (nw 0x078) 5; h; let g : Nat := 0; let v : Word := 0x00401FE8;
      let p : Fin 4 := 2; (Live s) ∧ (Alone s g) ∧ (Unlocked s pNSW) ∧ (s.hw.bufState (fld v 12 0) = 2)
      ∧ (60 ≤ fld v 26 16) ∧ (fld v 26 16 ≤ 1522) ∧ (s.hw.portUp p = true)) ∧
    (let s : State := ({} : State); let g : Nat := 0; (Live s) ∧ (Alone s g)) ∧
    (let s : State := stateOf fun h => let h : Hw := (h.setReg (nw 0x068) 3).setReg (nw 0x078) 5;
      let h : Hw := (h.setReg (nw 0x06C) 3).setReg (nw 0x07C) 3;
      let h : Hw := (h.setReg (nw 0x084) 0x00400002).setReg (nw 0x080) 0x00400040;
      let h : Hw := { h with nsw := {} }; let h : Hw := (h.setReg (nw rLOCK) 0).setReg (nw 0x500) 0;
      let h : Hw := h.setReg (nw 0x078) 0; h; let p : Fin 4 := 2; let sp : BitVec 2 := 2; (Live s) ∧ (Unshed s)
      ∧ (s.hw.bit (nw (0x060 + 4 * p)) 0 = true) ∧ ((sp = 1 ∧ s.hw.bit (nw (0x060 + 4 * p)) 2 = true) ∨ (sp = 2
      ∧ s.hw.bit (nw (0x060 + 4 * p)) 1 = true))
      ∧ (s.hw.reg (nw (0x070 + 4 * p)) ≠ BitVec.ofNat 32 (2 * sp.toNat + 1))) := by
  refine ⟨?_, ?_, ?_, ?_, ?_, ?_, ?_, ?_, ?_, ?_, ?_, ?_, ?_, ?_, ?_, ?_, ?_, ?_, ?_, ?_, ?_⟩ <;> decide

theorem witness_cyclicFramesAndPartners :
    (let s : State := stateOf fun h => let h : Hw := { h with nsw := {} };
      let h : Hw := ((h.setReg (nw 0x0A4) 0).setReg (nw rLOCK) 0).setReg (nw 0x048) 0; h; let g : Nat := 0; (Live s)
      ∧ (Unshed s)
      ∧ (s.hw.bit (nw 0x0A4) 31 = false ∨ s.hw.nsw.sent = true ∨ (s.hw.at g).cycPos < s.hw.f (nw 0x0A4) 22 0)) ∧
    (let s : State := stateOf fun h => let h : Hw := { h with nsw := {} };
      let h : Hw := ((h.setReg (nw 0x0A4) 0).setReg (nw rLOCK) 0).setReg (nw 0x048) 0;
      let h : Hw := h.setReg (nw 0x0A4) 0x80000000;
      let h : Hw := (List.range 4).foldl (fun h p => h.setReg (nw (0x070 + 4 * p)) 0) h; h; let g : Nat := 0;
      (Live s) ∧ (Unshed s) ∧ (s.hw.bit (nw 0x0A4) 31 = true) ∧ (s.hw.nsw.sent = false)
      ∧ (s.hw.f (nw 0x0A4) 22 0 ≤ (s.hw.at g).cycPos) ∧ (∀ p : Fin 4, s.hw.portUp p = false)) ∧
    (let s : State := stateOf fun h => let h : Hw := { h with nsw := {} };
      let h : Hw := ((h.setReg (nw 0x0A4) 0).setReg (nw rLOCK) 0).setReg (nw 0x048) 0; h; let g : Nat := 0;
      let data : List Byte := default; (Live s) ∧ (Unshed s) ∧ (Alone s g) ∧ (data.getD 0 0 ≠ 1 ∨ data.length < 16)) ∧
    (let s : State := stateOf fun h => let h : Hw := { h with nsw := {} };
      let h : Hw := ((h.setReg (nw 0x0A4) 0).setReg (nw rLOCK) 0).setReg (nw 0x048) 0;
      let h : Hw := (h.setReg (nw 0x17C) 0x80000009).setReg (nw 0x1FC) 0x80000000; h; let g : Nat := 0;
      let data : List Byte := [1, 0, 9, 0, 0, 0, 0, 0, 0, 0, 0, 0, 5, 1, 0, 0]; let k : Fin 32 := 31; (Live s)
      ∧ (Unshed s) ∧ (Alone s g) ∧ (16 ≤ data.length) ∧ (data.getD 0 0 = 1) ∧ (data.getD 14 0 = 0)
      ∧ (s.hw.bit (nw (0x100 + 4 * k)) 31 = true) ∧ (s.hw.f (nw (0x100 + 4 * k)) 15 0 = leNat ((data.drop 2).take 2))
      ∧ (s.hw.nodeConflict (leNat ((data.drop 2).take 2)) = false)) ∧
    (let s : State := stateOf fun h => let h : Hw := { h with nsw := {} };
      let h : Hw := ((h.setReg (nw 0x0A4) 0).setReg (nw rLOCK) 0).setReg (nw 0x048) 0;
      let h : Hw := { h with nsw := { prp := [(7, 9, 0)] } }; h; let g : Nat := 0; let src : BitVec 48 := 7;
      let q : BitVec 16 := 9; let data : List Byte := [1, 0, 9, 0, 0, 0, 0, 0, 0, 0, 0, 0, 5, 1, 0, 0];
      let k : Nat := 0; (Live s) ∧ (Unshed s) ∧ (Alone s g) ∧ (16 ≤ data.length) ∧ (data.getD 0 0 = 1)
      ∧ (data.getD 14 0 = 0) ∧ (s.hw.nsw.prp = [(src.toNat, q.toNat, k)])
      ∧ (max s.hw.grain g ≤ k + max 1 (min 400 (s.hw.f (nw 0x380) 8 0)) * 500000)) ∧
    (let s : State := stateOf fun h => let h : Hw := { h with nsw := {} };
      let h : Hw := ((h.setReg (nw 0x0A4) 0).setReg (nw rLOCK) 0).setReg (nw 0x048) 0; h; let g : Nat := 0;
      let data : List Byte := [1, 0, 9, 0, 0, 0, 0, 0, 0, 0, 0, 0, 5, 1, 0, 0]; (Live s) ∧ (Unshed s) ∧ (Alone s g)
      ∧ (16 ≤ data.length) ∧ (data.getD 0 0 = 1) ∧ (data.getD 14 0 = 0) ∧ (s.hw.nsw.prp = [])) ∧
    (let s : State := stateOf fun h => let h : Hw := { h with nsw := {} };
      let h : Hw := ((h.setReg (nw 0x0A4) 0).setReg (nw rLOCK) 0).setReg (nw 0x048) 0;
      let h : Hw := (h.setReg (nw 0x17C) 0x80000009).setReg (nw 0x1FC) 0;
      let h : Hw := { h with nsw := { cyc := 1000 } }; h; let k : Fin 32 := 31; (Live s) ∧ (Unshed s)
      ∧ (s.hw.bit (nw (0x100 + 4 * k)) 31 = true) ∧ (s.hw.bit (nw (0x180 + 4 * k)) 31 = false)
      ∧ (tabGet 0 k.val s.hw.nsw.rxCyc + max 1 (s.hw.f (nw 0x0C4) 7 0) < s.hw.nsw.cyc)) ∧
    (let s : State := stateOf fun h => let h : Hw := { h with nsw := {} };
      let h : Hw := ((h.setReg (nw 0x0A4) 0).setReg (nw rLOCK) 0).setReg (nw 0x048) 0; h; let k : Fin 32 := 31;
      (Live s) ∧ (Unshed s)
      ∧ (s.hw.bit (nw (0x100 + 4 * k)) 31 = false ∨ s.hw.nsw.cyc ≤ tabGet 0 k.val s.hw.nsw.rxCyc + max 1 (s.hw.f (nw 0x0C4) 7 0))) ∧
    (let s : State := stateOf fun h => let h : Hw := { h with nsw := {} };
      let h : Hw := ((h.setReg (nw 0x0A4) 0).setReg (nw rLOCK) 0).setReg (nw 0x048) 0;
      let h : Hw := (List.range 4).foldl (fun h p => h.setReg (nw (0x070 + 4 * p)) 0) h;
      let h : Hw := h.setReg (nw 0x048) 0x80000000; h; let g : Nat := 0; (Live s) ∧ (Unshed s)
      ∧ (s.hw.bit (nw 0x048) 31 = true)
      ∧ (s.hw.nsw.annAt.all (fun k => decide (k + s.hw.f (nw 0x048) 15 0 * 500000 ≤ max s.hw.grain g)) = true)
      ∧ (∀ p : Fin 4, s.hw.portUp p = false)) ∧
    (let s : State := stateOf fun h => let h : Hw := { h with nsw := {} };
      let h : Hw := ((h.setReg (nw 0x0A4) 0).setReg (nw rLOCK) 0).setReg (nw 0x048) 0; h; let g : Nat := 0; (Live s)
      ∧ (Unshed s)
      ∧ (s.hw.bit (nw 0x048) 31 = false ∨ s.hw.nsw.annAt.all (fun k => decide (k + s.hw.f (nw 0x048) 15 0 * 500000 ≤ max s.hw.grain g)) = false)) ∧
    (let s : State := stateOf fun h => let h : Hw := { h with nsw := {} };
      let h : Hw := ((h.setReg (nw 0x0A4) 0).setReg (nw rLOCK) 0).setReg (nw 0x048) 0;
      let h : Hw := h.setReg (nw 0x040) 3; h; let g : Nat := 0; let a : Announcement := ⟨7, 0, 9, 1, 3, 20, none⟩;
      (Live s) ∧ (Unshed s) ∧ (Alone s g) ∧ (s.hw.nsw.partners = []) ∧ (a.node.toNat ≠ s.hw.f (nw 0x040) 15 0)) ∧
    (let s : State := stateOf fun h => let h : Hw := { h with nsw := { partners := [(0, { used := true, mac := 7, lanA := true })] } }; h;
      let g : Nat := 0; let a : Announcement := ⟨7, 0, 9, 1, 3, 20, none⟩; (Live s) ∧ (Unshed s) ∧ (Alone s g)
      ∧ ((s.hw.partner 0).used = true) ∧ ((s.hw.partner 0).mac = a.mac)) ∧
    (let s : State := stateOf fun h => let h : Hw := { h with nsw := { partners := [(2, { used := true, mac := 7, lanB := true, annInt := 1 })] } };
      let h : Hw := h.setReg (nw 0x048) 0x10000; h; let g : Nat := 999999; let i : Nat := 2; let lanB : Bool := true;
      (Live s) ∧ (Unshed s) ∧ ((s.hw.partner i).used = true) ∧ ((s.hw.partner i).lanA = !lanB)
      ∧ ((s.hw.partner i).lanB = lanB)
      ∧ (tabGet 0 (2 * i + dn lanB) s.hw.nsw.heard + max 1 (s.hw.f (nw 0x048) 23 16) * (s.hw.partner i).annInt * 500000 ≤ max s.hw.grain g)) ∧
    (let s : State := stateOf fun h => let h : Hw := (List.range 4).foldl (fun h p => h.setReg (nw (0x070 + 4 * p)) 0) h; h;
      let g : Nat := 0; (Live s) ∧ (Unshed s)
      ∧ (s.hw.nsw.lldpAt.all (fun k => decide (k + 500000000 ≤ max s.hw.grain g)) = false ∨ ∀ p : Fin 4, s.hw.portUp p = false)) ∧
    (let s : State := stateOf fun h => let h : Hw := { h with nsw := {} };
      let h : Hw := ((h.setReg (nw 0x0A4) 0).setReg (nw rLOCK) 0).setReg (nw 0x048) 0;
      let h : Hw := ((h.setReg (nw 0x068) 3).setReg (nw 0x078) 5).setReg (nw 0x500) 0; h; let g : Nat := 0;
      let p : Fin 4 := 2; (Live s) ∧ (Unshed s)
      ∧ (s.hw.nsw.lldpAt.all (fun k => decide (k + 500000000 ≤ max s.hw.grain g)) = true) ∧ (s.hw.portUp p = true)
      ∧ (tabGet 0 p.val s.hw.nsw.busy ≤ max s.hw.grain g) ∧ (s.hw.gclOn p = false)) ∧
    (let s : State := ({} : State); let ttl : Nat := 4; (Live s) ∧ (Unshed s) ∧ (ttl ≠ 0)) ∧
    (let s : State := ({} : State); (Live s) ∧ (Unshed s)) ∧
    (let s : State := stateOf fun h => let h : Hw := { h with nsw := { ttl := [(3, 5)] } }; h; let g : Nat := 5;
      let p : Fin 4 := 3; (Live s) ∧ (Unshed s) ∧ (tabGet 0 p.val s.hw.nsw.ttl ≠ 0)
      ∧ (tabGet 0 p.val s.hw.nsw.ttl ≤ max s.hw.grain g)) ∧
    (let s : State := stateOf fun h => let h : Hw := (List.range 4).foldl (fun h p => h.setReg (nw (0x070 + 4 * p)) 0) h; h;
      let g : Nat := 0; (Live s) ∧ (Unshed s)
      ∧ (s.hw.nsw.prpAt.all (fun k => decide (k + 1000000000 ≤ max s.hw.grain g)) = true)
      ∧ (∀ p : Fin 4, s.hw.portUp p = false)) ∧
    (let s : State := stateOf fun h => let h : Hw := (List.range 4).foldl (fun h p => h.setReg (nw (0x070 + 4 * p)) 0) h;
      let h : Hw := { h with nsw := { prpAt := some 5 } }; h; let g : Nat := 0; (Live s) ∧ (Unshed s)
      ∧ (s.hw.nsw.prpAt.all (fun k => decide (k + 1000000000 ≤ max s.hw.grain g)) = false)) ∧
    (let s : State := stateOf fun h => let h : Hw := { h with nsw := {} };
      let h : Hw := ((h.setReg (nw 0x0A4) 0).setReg (nw rLOCK) 0).setReg (nw 0x048) 0;
      let h : Hw := ((h.setReg (nw 0x068) 3).setReg (nw 0x078) 5).setReg (nw 0x500) 0; h; let g : Nat := 0;
      let p : Fin 4 := 2; (Live s) ∧ (Unshed s)
      ∧ (s.hw.nsw.prpAt.all (fun k => decide (k + 1000000000 ≤ max s.hw.grain g)) = true) ∧ (s.hw.portUp p = true)
      ∧ (tabGet 0 p.val s.hw.nsw.busy ≤ max s.hw.grain g) ∧ (s.hw.gclOn p = false)) ∧
    (let s : State := stateOf fun h => let h : Hw := { h with nsw := {} };
      let h : Hw := ((h.setReg (nw 0x0A4) 0).setReg (nw rLOCK) 0).setReg (nw 0x048) 0; h; let i : BitVec 8 := 255;
      (Live s) ∧ (Unlocked s pNSW) ∧ ((s.hw.partner i.toNat).node < 65536) ∧ ((s.hw.partner i.toNat).flags < 8)
      ∧ ((s.hw.partner i.toNat).slot < 16) ∧ ((s.hw.partner i.toNat).mode < 8)) := by
  refine ⟨?_, ?_, ?_, ?_, ?_, ?_, ?_, ?_, ?_, ?_, ?_, ?_, ?_, ?_, ?_, ?_, ?_, ?_, ?_, ?_, ?_, ?_⟩ <;> decide

theorem witness_canReceptionAndErrors :
    (let s : State := stateOf fun h => let h : Hw := ((h.setReg (cn 1 rCTRL) 1).setReg (cn 1 rREADY) 4).setReg (cn 1 rSTAT) 0;
      let h : Hw := (h.setReg (cn 1 0x040) 3).setReg (cn 1 0x050) 0x44000; let h : Hw := { h with can := [] };
      let h : Hw := (h.setReg (pr rSTAT) 1).setReg (cn 1 rLOCK) 0; h; let g : Nat := 0; let n : Fin 2 := 1;
      let f : CanFrame := { word1 := 0x123, flags := 8, sof := 77, data := [1, 2], own := false }; let w : Nat := 1;
      (Live s) ∧ (Settled s) ∧ (Unshed s) ∧ (Alone s g) ∧ (s.hw.canLive n = true)
      ∧ (bitOf f.flags 12 = false ∨ s.hw.bit (cn n 0x040) 0 = true) ∧ (f.own = false) ∧ (s.hw.canShdFull n = false)
      ∧ (s.hw.canSpace n = true) ∧ (w < 16)) ∧
    (let s : State := stateOf fun h => let h : Hw := ((h.setReg (cn 1 rCTRL) 1).setReg (cn 1 rREADY) 4).setReg (cn 1 rSTAT) 0;
      let h : Hw := (h.setReg (cn 1 0x040) 3).setReg (cn 1 0x050) 0x44000; let h : Hw := { h with can := [] };
      let h : Hw := (h.setReg (pr rSTAT) 1).setReg (cn 1 rLOCK) 0;
      let h : Hw := (h.setReg (cn 1 0x054) 1029).setReg (cn 1 0x058) 5; h; let g : Nat := 0; let n : Fin 2 := 1;
      let f : CanFrame := { word1 := 0x123, flags := 8, sof := 77, data := [1, 2], own := false }; let w : Nat := 1;
      (Live s) ∧ (Settled s) ∧ (Unshed s) ∧ (Alone s g) ∧ (s.hw.canLive n = true)
      ∧ (bitOf f.flags 12 = false ∨ s.hw.bit (cn n 0x040) 0 = true) ∧ (f.own = false) ∧ (s.hw.canShdFull n = false)
      ∧ (s.hw.canSpace n = false) ∧ (w < 16)) ∧
    (let s : State := stateOf fun h => let h : Hw := ((h.setReg (cn 1 rCTRL) 1).setReg (cn 1 rREADY) 4).setReg (cn 1 rSTAT) 0;
      let h : Hw := (h.setReg (cn 1 0x040) 3).setReg (cn 1 0x050) 0x44000; let h : Hw := { h with can := [] };
      let h : Hw := (h.setReg (pr rSTAT) 1).setReg (cn 1 rLOCK) 0;
      let h : Hw := (h.setReg (cn 1 0x054) 1029).setReg (cn 1 0x058) 5; let h : Hw := h.setReg (cn 1 rSTAT) 1; h;
      let g : Nat := 0; let n : Fin 2 := 1;
      let f : CanFrame := { word1 := 0x123, flags := 8, sof := 77, data := [1, 2], own := false }; (Live s)
      ∧ (Settled s) ∧ (Unshed s) ∧ (Alone s g) ∧ (s.hw.canLive n = true)
      ∧ (bitOf f.flags 12 = false ∨ s.hw.bit (cn n 0x040) 0 = true) ∧ (f.own = false) ∧ (s.hw.canShdFull n = true)
      ∧ (s.hw.canSpace n = false)) ∧
    (let s : State := stateOf fun h => let h : Hw := ((h.setReg (cn 1 rCTRL) 1).setReg (cn 1 rREADY) 4).setReg (cn 1 rSTAT) 0;
      let h : Hw := (h.setReg (cn 1 0x040) 3).setReg (cn 1 0x050) 0x44000; let h : Hw := { h with can := [] };
      let h : Hw := (h.setReg (pr rSTAT) 1).setReg (cn 1 rLOCK) 0; let h : Hw := h.setReg (cn 1 rREADY) 0; h;
      let g : Nat := 0; let n : Fin 2 := 1; (Live s) ∧ (Settled s) ∧ (Unshed s) ∧ (Alone s g)
      ∧ (s.hw.canLive n = false)) ∧
    (let s : State := stateOf fun h => let h : Hw := ((h.setReg (cn 1 rCTRL) 1).setReg (cn 1 rREADY) 4).setReg (cn 1 rSTAT) 0;
      let h : Hw := (h.setReg (cn 1 0x040) 3).setReg (cn 1 0x050) 0x44000; let h : Hw := { h with can := [] };
      let h : Hw := (h.setReg (pr rSTAT) 1).setReg (cn 1 rLOCK) 0;
      let h : Hw := (h.setReg (cn 1 rSTAT) 1).setReg (cn 1 0x104) 9; h; let n : Fin 2 := 1; let w : Nat := 1;
      (Live s) ∧ (Settled s) ∧ (Unshed s) ∧ (s.hw.canShdFull n = true) ∧ (s.hw.canSpace n = true) ∧ (1 ≤ w)
      ∧ (w < 20)) ∧
    (let s : State := stateOf fun h => let h : Hw := ((h.setReg (cn 1 rCTRL) 1).setReg (cn 1 rREADY) 4).setReg (cn 1 rSTAT) 0;
      let h : Hw := (h.setReg (cn 1 0x040) 3).setReg (cn 1 0x050) 0x44000; let h : Hw := { h with can := [] };
      let h : Hw := (h.setReg (pr rSTAT) 1).setReg (cn 1 rLOCK) 0; h; let n : Fin 2 := 1; (Live s) ∧ (Settled s)
      ∧ (Unshed s) ∧ (s.hw.canShdFull n = false ∨ s.hw.canSpace n = false)) ∧
    (let s : State := stateOf fun h => let h : Hw := ((h.setReg (cn 1 rCTRL) 1).setReg (cn 1 rREADY) 4).setReg (cn 1 rSTAT) 0;
      let h : Hw := (h.setReg (cn 1 0x040) 3).setReg (cn 1 0x050) 0x44000; let h : Hw := { h with can := [] };
      let h : Hw := (h.setReg (pr rSTAT) 1).setReg (cn 1 rLOCK) 0;
      let h : Hw := (h.setReg (cn 1 0x054) 1029).setReg (cn 1 0x058) 5; h; let g : Nat := 0; let n : Fin 2 := 1;
      let v : Word := 1029; (Live s) ∧ (Settled s) ∧ (Alone s g) ∧ (Unlocked s (pCAN n))
      ∧ (v - s.hw.reg (cn n 0x058) ≤ s.hw.reg (cn n 0x054) - s.hw.reg (cn n 0x058))) ∧
    (let s : State := stateOf fun h => let h : Hw := ((h.setReg (cn 1 rCTRL) 1).setReg (cn 1 rREADY) 4).setReg (cn 1 rSTAT) 0;
      let h : Hw := (h.setReg (cn 1 0x040) 3).setReg (cn 1 0x050) 0x44000; let h : Hw := { h with can := [] };
      let h : Hw := (h.setReg (pr rSTAT) 1).setReg (cn 1 rLOCK) 0;
      let h : Hw := (h.setReg (cn 1 0x054) 1029).setReg (cn 1 0x058) 5; h; let g : Nat := 0; let n : Fin 2 := 1;
      let v : Word := 1030; (Live s) ∧ (Settled s) ∧ (Alone s g) ∧ (Unlocked s (pCAN n))
      ∧ (s.hw.reg (cn n 0x054) - s.hw.reg (cn n 0x058) < v - s.hw.reg (cn n 0x058))) ∧
    (let s : State := stateOf fun h => let h : Hw := ((h.setReg (cn 1 rCTRL) 1).setReg (cn 1 rREADY) 4).setReg (cn 1 rSTAT) 0;
      let h : Hw := (h.setReg (cn 1 0x040) 3).setReg (cn 1 0x050) 0x44000; let h : Hw := { h with can := [] };
      let h : Hw := (h.setReg (pr rSTAT) 1).setReg (cn 1 rLOCK) 0;
      let h : Hw := (h.setReg (cn 1 0x054) 1029).setReg (cn 1 0x058) 5; h; (Live s) ∧ (Settled s)) ∧
    (let s : State := stateOf fun h => let h : Hw := ((h.setReg (cn 1 rCTRL) 1).setReg (cn 1 rREADY) 4).setReg (cn 1 rSTAT) 0;
      let h : Hw := (h.setReg (cn 1 0x040) 3).setReg (cn 1 0x050) 0x44000; let h : Hw := { h with can := [] };
      let h : Hw := (h.setReg (pr rSTAT) 1).setReg (cn 1 rLOCK) 0; h; let n : Fin 2 := 1; (Live s) ∧ (Settled s)
      ∧ (Unshed s) ∧ (s.hw.bit (cn n rCTRL) 0 = true) ∧ (s.hw.canBusOff n = false)) ∧
    (let s : State := stateOf fun h => let h : Hw := ((h.setReg (cn 1 rCTRL) 1).setReg (cn 1 rREADY) 4).setReg (cn 1 rSTAT) 0;
      let h : Hw := (h.setReg (cn 1 0x040) 3).setReg (cn 1 0x050) 0x44000; let h : Hw := { h with can := [] };
      let h : Hw := (h.setReg (pr rSTAT) 1).setReg (cn 1 rLOCK) 0; let h : Hw := h.setReg (cn 1 rCTRL) 0; h;
      let n : Fin 2 := 1; (Live s) ∧ (Settled s) ∧ (Unshed s) ∧ (s.hw.bit (cn n rCTRL) 0 = false)) ∧
    (let s : State := stateOf fun h => let h : Hw := ((h.setReg (cn 1 rCTRL) 1).setReg (cn 1 rREADY) 4).setReg (cn 1 rSTAT) 0;
      let h : Hw := (h.setReg (cn 1 0x040) 3).setReg (cn 1 0x050) 0x44000; let h : Hw := { h with can := [] };
      let h : Hw := (h.setReg (pr rSTAT) 1).setReg (cn 1 rLOCK) 0; h; let n : Fin 2 := 1; (Live s) ∧ (Settled s)
      ∧ (Unshed s) ∧ (s.hw.bit (cn n rCTRL) 0 = true) ∧ (s.hw.canBusOff n = false)) ∧
    (let s : State := stateOf fun h => let h : Hw := ((h.setReg (cn 1 rCTRL) 1).setReg (cn 1 rREADY) 4).setReg (cn 1 rSTAT) 0;
      let h : Hw := (h.setReg (cn 1 0x040) 3).setReg (cn 1 0x050) 0x44000; let h : Hw := { h with can := [] };
      let h : Hw := (h.setReg (pr rSTAT) 1).setReg (cn 1 rLOCK) 0; let h : Hw := h.setReg (cn 1 rSTAT) 2; h;
      let n : Fin 2 := 1; (Live s) ∧ (Settled s) ∧ (Unlocked s (pCAN n)) ∧ (s.hw.canBusOff n = true)) ∧
    (let s : State := stateOf fun h => let h : Hw := ((h.setReg (cn 1 rCTRL) 1).setReg (cn 1 rREADY) 4).setReg (cn 1 rSTAT) 0;
      let h : Hw := (h.setReg (cn 1 0x040) 3).setReg (cn 1 0x050) 0x44000; let h : Hw := { h with can := [] };
      let h : Hw := (h.setReg (pr rSTAT) 1).setReg (cn 1 rLOCK) 0; let h : Hw := h.setReg (cn 1 rSTAT) 2; h;
      let n : Fin 2 := 1; (Live s) ∧ (Settled s) ∧ (Unshed s) ∧ (s.hw.canBusOff n = true)
      ∧ (s.hw.bit (cn n 0x040) 1 = true ∨ (s.hw.canS n).recover = true)) ∧
    (let s : State := stateOf fun h => let h : Hw := ((h.setReg (cn 1 rCTRL) 1).setReg (cn 1 rREADY) 4).setReg (cn 1 rSTAT) 0;
      let h : Hw := (h.setReg (cn 1 0x040) 3).setReg (cn 1 0x050) 0x44000; let h : Hw := { h with can := [] };
      let h : Hw := (h.setReg (pr rSTAT) 1).setReg (cn 1 rLOCK) 0; h; let n : Fin 2 := 1; (Live s) ∧ (Settled s)
      ∧ (Unshed s) ∧ (s.hw.canBusOff n = false ∨ (s.hw.bit (cn n 0x040) 1 = false ∧ (s.hw.canS n).recover = false))) ∧
    (let s : State := stateOf fun h => let h : Hw := ((h.setReg (cn 1 rCTRL) 1).setReg (cn 1 rREADY) 4).setReg (cn 1 rSTAT) 0;
      let h : Hw := (h.setReg (cn 1 0x040) 3).setReg (cn 1 0x050) 0x44000; let h : Hw := { h with can := [] };
      let h : Hw := (h.setReg (pr rSTAT) 1).setReg (cn 1 rLOCK) 0; h; let n : Fin 2 := 1; (Live s) ∧ (Settled s)
      ∧ (Unshed s) ∧ (s.hw.bit (cn n rCTRL) 0 = true) ∧ (s.hw.canBusOff n = false)) ∧
    (let s : State := stateOf fun h => let h : Hw := ((h.setReg (cn 1 rCTRL) 1).setReg (cn 1 rREADY) 4).setReg (cn 1 rSTAT) 0;
      let h : Hw := (h.setReg (cn 1 0x040) 3).setReg (cn 1 0x050) 0x44000; let h : Hw := { h with can := [] };
      let h : Hw := (h.setReg (pr rSTAT) 1).setReg (cn 1 rLOCK) 0; let h : Hw := h.setReg (cn 1 rCTRL) 0; h;
      let n : Fin 2 := 1; (Live s) ∧ (Settled s) ∧ (Unshed s)
      ∧ (s.hw.bit (cn n rCTRL) 0 = false ∨ s.hw.canBusOff n = true)) := by
  refine ⟨?_, ?_, ?_, ?_, ?_, ?_, ?_, ?_, ?_, ?_, ?_, ?_, ?_, ?_, ?_, ?_, ?_⟩ <;> decide

theorem witness_canTransmitSlots :
    (let s : State := stateOf fun h => let h : Hw := ((h.setReg (cn 1 rCTRL) 1).setReg (cn 1 rREADY) 4).setReg (cn 1 rSTAT) 0;
      let h : Hw := (h.setReg (cn 1 0x040) 3).setReg (cn 1 0x050) 0x44000; let h : Hw := { h with can := [] };
      let h : Hw := (h.setReg (pr rSTAT) 1).setReg (cn 1 rLOCK) 0;
      let h : Hw := ((h.setReg (txr 1 9 0x14) (BitVec.ofNat 32 (256 * 0))).setReg (txr 1 9 0) 0x123).setReg (txr 1 9 4) 8;
      let h : Hw := (h.setReg64 (txr 1 9 8) 0).setReg (cn 1 0x068) 0;
      let h : Hw := (List.range 9).foldl (fun h k => h.setReg (txr 1 k 0x14) 0) h;
      let h : Hw := (List.range 6).foldl (fun h k => h.setReg (txr 1 (10 + k) 0x14) 0) h;
      let h : Hw := h.setReg (cn 1 0x04C) 0; h; let n : Fin 2 := 1; let k : Fin 16 := 9; (Live s) ∧ (Settled s)
      ∧ (Unlocked s (pCAN n)) ∧ (s.hw.txBad n k = false)) ∧
    (let s : State := stateOf fun h => let h : Hw := ((h.setReg (cn 1 rCTRL) 1).setReg (cn 1 rREADY) 4).setReg (cn 1 rSTAT) 0;
      let h : Hw := (h.setReg (cn 1 0x040) 3).setReg (cn 1 0x050) 0x44000; let h : Hw := { h with can := [] };
      let h : Hw := (h.setReg (pr rSTAT) 1).setReg (cn 1 rLOCK) 0;
      let h : Hw := ((h.setReg (txr 1 9 0x14) (BitVec.ofNat 32 (256 * 0))).setReg (txr 1 9 0) 0x123).setReg (txr 1 9 4) 8;
      let h : Hw := (h.setReg64 (txr 1 9 8) 0).setReg (cn 1 0x068) 0;
      let h : Hw := (List.range 9).foldl (fun h k => h.setReg (txr 1 k 0x14) 0) h;
      let h : Hw := (List.range 6).foldl (fun h k => h.setReg (txr 1 (10 + k) 0x14) 0) h;
      let h : Hw := h.setReg (cn 1 0x04C) 0; h; let n : Fin 2 := 1; let k : Fin 16 := 9; (Live s) ∧ (Settled s)
      ∧ (Unlocked s (pCAN n)) ∧ (s.hw.txBad n k = false)) ∧
    (let s : State := stateOf fun h => let h : Hw := ((h.setReg (cn 1 rCTRL) 1).setReg (cn 1 rREADY) 4).setReg (cn 1 rSTAT) 0;
      let h : Hw := (h.setReg (cn 1 0x040) 3).setReg (cn 1 0x050) 0x44000; let h : Hw := { h with can := [] };
      let h : Hw := (h.setReg (pr rSTAT) 1).setReg (cn 1 rLOCK) 0;
      let h : Hw := ((h.setReg (txr 1 9 0x14) (BitVec.ofNat 32 (256 * 3))).setReg (txr 1 9 0) 0x123).setReg (txr 1 9 4) 8;
      let h : Hw := (h.setReg64 (txr 1 9 8) 0).setReg (cn 1 0x068) 0;
      let h : Hw := (List.range 9).foldl (fun h k => h.setReg (txr 1 k 0x14) 0) h;
      let h : Hw := (List.range 6).foldl (fun h k => h.setReg (txr 1 (10 + k) 0x14) 0) h;
      let h : Hw := h.setReg (cn 1 0x04C) 0; h; let n : Fin 2 := 1; let k : Fin 16 := 9; (Live s) ∧ (Settled s)
      ∧ (Unlocked s (pCAN n)) ∧ (s.hw.txBad n k = true)) ∧
    (let s : State := stateOf fun h => let h : Hw := ((h.setReg (cn 1 rCTRL) 1).setReg (cn 1 rREADY) 4).setReg (cn 1 rSTAT) 0;
      let h : Hw := (h.setReg (cn 1 0x040) 3).setReg (cn 1 0x050) 0x44000; let h : Hw := { h with can := [] };
      let h : Hw := (h.setReg (pr rSTAT) 1).setReg (cn 1 rLOCK) 0;
      let h : Hw := ((h.setReg (txr 1 9 0x14) (BitVec.ofNat 32 (256 * 2))).setReg (txr 1 9 0) 0x123).setReg (txr 1 9 4) 8;
      let h : Hw := (h.setReg64 (txr 1 9 8) 0).setReg (cn 1 0x068) 0;
      let h : Hw := (List.range 9).foldl (fun h k => h.setReg (txr 1 k 0x14) 0) h;
      let h : Hw := (List.range 6).foldl (fun h k => h.setReg (txr 1 (10 + k) 0x14) 0) h;
      let h : Hw := h.setReg (cn 1 0x04C) 0; h; let g : Nat := 0; let n : Fin 2 := 1; let k : Fin 16 := 9; (Live s)
      ∧ (Settled s) ∧ (Alone s g) ∧ (Unlocked s (pCAN n)) ∧ (s.hw.txState n k = 1 ∨ s.hw.txState n k = 2)) ∧
    (let s : State := stateOf fun h => let h : Hw := ((h.setReg (cn 1 rCTRL) 1).setReg (cn 1 rREADY) 4).setReg (cn 1 rSTAT) 0;
      let h : Hw := (h.setReg (cn 1 0x040) 3).setReg (cn 1 0x050) 0x44000; let h : Hw := { h with can := [] };
      let h : Hw := (h.setReg (pr rSTAT) 1).setReg (cn 1 rLOCK) 0;
      let h : Hw := ((h.setReg (txr 1 9 0x14) (BitVec.ofNat 32 (256 * 3))).setReg (txr 1 9 0) 0x123).setReg (txr 1 9 4) 8;
      let h : Hw := (h.setReg64 (txr 1 9 8) 0).setReg (cn 1 0x068) 0;
      let h : Hw := (List.range 9).foldl (fun h k => h.setReg (txr 1 k 0x14) 0) h;
      let h : Hw := (List.range 6).foldl (fun h k => h.setReg (txr 1 (10 + k) 0x14) 0) h;
      let h : Hw := h.setReg (cn 1 0x04C) 0; h; let g : Nat := 0; let n : Fin 2 := 1; let k : Fin 16 := 9; (Live s)
      ∧ (Settled s) ∧ (Alone s g) ∧ (Unlocked s (pCAN n)) ∧ (s.hw.txState n k = 3)) ∧
    (let s : State := stateOf fun h => let h : Hw := ((h.setReg (cn 1 rCTRL) 1).setReg (cn 1 rREADY) 4).setReg (cn 1 rSTAT) 0;
      let h : Hw := (h.setReg (cn 1 0x040) 3).setReg (cn 1 0x050) 0x44000; let h : Hw := { h with can := [] };
      let h : Hw := (h.setReg (pr rSTAT) 1).setReg (cn 1 rLOCK) 0;
      let h : Hw := ((h.setReg (txr 1 9 0x14) (BitVec.ofNat 32 (256 * 1))).setReg (txr 1 9 0) 0x123).setReg (txr 1 9 4) 8;
      let h : Hw := (h.setReg64 (txr 1 9 8) 0).setReg (cn 1 0x068) 0;
      let h : Hw := (List.range 9).foldl (fun h k => h.setReg (txr 1 k 0x14) 0) h;
      let h : Hw := (List.range 6).foldl (fun h k => h.setReg (txr 1 (10 + k) 0x14) 0) h;
      let h : Hw := h.setReg (cn 1 0x04C) 0; h; let g : Nat := 0; let n : Fin 2 := 1; let k : Fin 16 := 9; (Live s)
      ∧ (Settled s) ∧ (Unshed s) ∧ (s.hw.txState n k = 1) ∧ (s.hw.txT n k ≤ (s.hw.at g).ctGrains (s.hw.at g).grain)) ∧
    (let s : State := stateOf fun h => let h : Hw := ((h.setReg (cn 1 rCTRL) 1).setReg (cn 1 rREADY) 4).setReg (cn 1 rSTAT) 0;
      let h : Hw := (h.setReg (cn 1 0x040) 3).setReg (cn 1 0x050) 0x44000; let h : Hw := { h with can := [] };
      let h : Hw := (h.setReg (pr rSTAT) 1).setReg (cn 1 rLOCK) 0;
      let h : Hw := ((h.setReg (txr 1 9 0x14) (BitVec.ofNat 32 (256 * 2))).setReg (txr 1 9 0) 0x123).setReg (txr 1 9 4) 8;
      let h : Hw := (h.setReg64 (txr 1 9 8) 0).setReg (cn 1 0x068) 0;
      let h : Hw := (List.range 9).foldl (fun h k => h.setReg (txr 1 k 0x14) 0) h;
      let h : Hw := (List.range 6).foldl (fun h k => h.setReg (txr 1 (10 + k) 0x14) 0) h;
      let h : Hw := h.setReg (cn 1 0x04C) 0; h; let g : Nat := 0; let n : Fin 2 := 1; let k : Fin 16 := 9; (Live s)
      ∧ (Settled s) ∧ (Unshed s) ∧ (s.hw.txState n k ≠ 1 ∨ (s.hw.at g).ctGrains (s.hw.at g).grain < s.hw.txT n k)) ∧
    (let s : State := stateOf fun h => let h : Hw := ((h.setReg (cn 1 rCTRL) 1).setReg (cn 1 rREADY) 4).setReg (cn 1 rSTAT) 0;
      let h : Hw := (h.setReg (cn 1 0x040) 3).setReg (cn 1 0x050) 0x44000; let h : Hw := { h with can := [] };
      let h : Hw := (h.setReg (pr rSTAT) 1).setReg (cn 1 rLOCK) 0;
      let h : Hw := ((h.setReg (txr 1 9 0x14) (BitVec.ofNat 32 (256 * 2))).setReg (txr 1 9 0) 0x123).setReg (txr 1 9 4) 8;
      let h : Hw := (h.setReg64 (txr 1 9 8) 0).setReg (cn 1 0x068) 0;
      let h : Hw := (List.range 9).foldl (fun h k => h.setReg (txr 1 k 0x14) 0) h;
      let h : Hw := (List.range 6).foldl (fun h k => h.setReg (txr 1 (10 + k) 0x14) 0) h;
      let h : Hw := h.setReg (cn 1 0x04C) 0; let h : Hw := { h with can := [(1, { timed := 0x200 })] };
      let h : Hw := { h with clk := { h.clk with ctBase := 2 ^ 60, ctBaseGrain := 0 } }; h; let g : Nat := 0;
      let n : Fin 2 := 1; let k : Fin 16 := 9; (Live s) ∧ (Settled s) ∧ (Unshed s) ∧ (Alone s g)
      ∧ ((s.hw.at g).txWindowOver n k = true) ∧ (s.hw.txState n k = 1 ∨ s.hw.txState n k = 2)
      ∧ (s.hw.bit (cn n 0x068) 31 = false)) ∧
    (let s : State := stateOf fun h => let h : Hw := ((h.setReg (cn 1 rCTRL) 1).setReg (cn 1 rREADY) 4).setReg (cn 1 rSTAT) 0;
      let h : Hw := (h.setReg (cn 1 0x040) 3).setReg (cn 1 0x050) 0x44000; let h : Hw := { h with can := [] };
      let h : Hw := (h.setReg (pr rSTAT) 1).setReg (cn 1 rLOCK) 0;
      let h : Hw := ((h.setReg (txr 1 9 0x14) (BitVec.ofNat 32 (256 * 1))).setReg (txr 1 9 0) 0x123).setReg (txr 1 9 4) 8;
      let h : Hw := (h.setReg64 (txr 1 9 8) 0).setReg (cn 1 0x068) 0;
      let h : Hw := (List.range 9).foldl (fun h k => h.setReg (txr 1 k 0x14) 0) h;
      let h : Hw := (List.range 6).foldl (fun h k => h.setReg (txr 1 (10 + k) 0x14) 0) h;
      let h : Hw := h.setReg (cn 1 0x04C) 0; let h : Hw := { h with can := [(1, { timed := 0x200 })] };
      let h : Hw := { h with clk := { h.clk with ctBase := 2 ^ 60, ctBaseGrain := 0 } };
      let h : Hw := h.setReg (cn 1 0x068) 0x80000000; h; let g : Nat := 0; let n : Fin 2 := 1; let k : Fin 16 := 9;
      (Live s) ∧ (Settled s) ∧ (Unshed s) ∧ (Alone s g) ∧ ((s.hw.at g).txWindowOver n k = true)
      ∧ (s.hw.txState n k = 1 ∨ s.hw.txState n k = 2) ∧ (s.hw.bit (cn n 0x068) 31 = true)) ∧
    (let s : State := stateOf fun h => let h : Hw := ((h.setReg (cn 1 rCTRL) 1).setReg (cn 1 rREADY) 4).setReg (cn 1 rSTAT) 0;
      let h : Hw := (h.setReg (cn 1 0x040) 3).setReg (cn 1 0x050) 0x44000; let h : Hw := { h with can := [] };
      let h : Hw := (h.setReg (pr rSTAT) 1).setReg (cn 1 rLOCK) 0;
      let h : Hw := ((h.setReg (txr 1 9 0x14) (BitVec.ofNat 32 (256 * 2))).setReg (txr 1 9 0) 0x123).setReg (txr 1 9 4) 8;
      let h : Hw := (h.setReg64 (txr 1 9 8) 0).setReg (cn 1 0x068) 0;
      let h : Hw := (List.range 9).foldl (fun h k => h.setReg (txr 1 k 0x14) 0) h;
      let h : Hw := (List.range 6).foldl (fun h k => h.setReg (txr 1 (10 + k) 0x14) 0) h;
      let h : Hw := h.setReg (cn 1 0x04C) 0; h; let g : Nat := 0; let n : Fin 2 := 1; let k : Fin 16 := 9; (Live s)
      ∧ (Settled s) ∧ (Unshed s) ∧ (Alone s g) ∧ ((s.hw.at g).txWindowOver n k = false)) ∧
    (let s : State := stateOf fun h => let h : Hw := ((h.setReg (cn 1 rCTRL) 1).setReg (cn 1 rREADY) 4).setReg (cn 1 rSTAT) 0;
      let h : Hw := (h.setReg (cn 1 0x040) 3).setReg (cn 1 0x050) 0x44000; let h : Hw := { h with can := [] };
      let h : Hw := (h.setReg (pr rSTAT) 1).setReg (cn 1 rLOCK) 0;
      let h : Hw := ((h.setReg (txr 1 9 0x14) (BitVec.ofNat 32 (256 * 2))).setReg (txr 1 9 0) 0x123).setReg (txr 1 9 4) 8;
      let h : Hw := (h.setReg64 (txr 1 9 8) 0).setReg (cn 1 0x068) 0;
      let h : Hw := (List.range 9).foldl (fun h k => h.setReg (txr 1 k 0x14) 0) h;
      let h : Hw := (List.range 6).foldl (fun h k => h.setReg (txr 1 (10 + k) 0x14) 0) h;
      let h : Hw := h.setReg (cn 1 0x04C) 0; h; let g : Nat := 0; let n : Fin 2 := 1; let k : Fin 16 := 9; (Live s)
      ∧ (Settled s) ∧ (Unshed s) ∧ (Alone s g) ∧ (s.hw.canLive n = true) ∧ (s.hw.canListen n = false)
      ∧ (s.hw.txActive n = none) ∧ (s.hw.txPick n = some k.val)) ∧
    (let s : State := stateOf fun h => let h : Hw := ((h.setReg (cn 1 rCTRL) 1).setReg (cn 1 rREADY) 4).setReg (cn 1 rSTAT) 0;
      let h : Hw := (h.setReg (cn 1 0x040) 3).setReg (cn 1 0x050) 0x44000; let h : Hw := { h with can := [] };
      let h : Hw := (h.setReg (pr rSTAT) 1).setReg (cn 1 rLOCK) 0;
      let h : Hw := ((h.setReg (txr 1 9 0x14) (BitVec.ofNat 32 (256 * 0))).setReg (txr 1 9 0) 0x123).setReg (txr 1 9 4) 8;
      let h : Hw := (h.setReg64 (txr 1 9 8) 0).setReg (cn 1 0x068) 0;
      let h : Hw := (List.range 9).foldl (fun h k => h.setReg (txr 1 k 0x14) 0) h;
      let h : Hw := (List.range 6).foldl (fun h k => h.setReg (txr 1 (10 + k) 0x14) 0) h;
      let h : Hw := h.setReg (cn 1 0x04C) 0; h; let g : Nat := 0; let n : Fin 2 := 1; (Live s) ∧ (Settled s)
      ∧ (Unshed s) ∧ (Alone s g) ∧ (s.hw.canLive n = false ∨ s.hw.canListen n = true ∨ s.hw.txPick n = none)) ∧
    (let s : State := stateOf fun h => let h : Hw := ((h.setReg (cn 1 rCTRL) 1).setReg (cn 1 rREADY) 4).setReg (cn 1 rSTAT) 0;
      let h : Hw := (h.setReg (cn 1 0x040) 3).setReg (cn 1 0x050) 0x44000; let h : Hw := { h with can := [] };
      let h : Hw := (h.setReg (pr rSTAT) 1).setReg (cn 1 rLOCK) 0;
      let h : Hw := ((h.setReg (txr 1 9 0x14) (BitVec.ofNat 32 (256 * 3))).setReg (txr 1 9 0) 0x123).setReg (txr 1 9 4) 8;
      let h : Hw := (h.setReg64 (txr 1 9 8) 0).setReg (cn 1 0x068) 0;
      let h : Hw := (List.range 9).foldl (fun h k => h.setReg (txr 1 k 0x14) 0) h;
      let h : Hw := (List.range 6).foldl (fun h k => h.setReg (txr 1 (10 + k) 0x14) 0) h;
      let h : Hw := h.setReg (cn 1 0x04C) 0; h; let g : Nat := 0; let n : Fin 2 := 1; let k : Fin 16 := 9; (Live s)
      ∧ (Settled s) ∧ (Unshed s) ∧ (Alone s g) ∧ (s.hw.txActive n = some k.val) ∧ (s.hw.canBusOff n = false)) ∧
    (let s : State := stateOf fun h => let h : Hw := ((h.setReg (cn 1 rCTRL) 1).setReg (cn 1 rREADY) 4).setReg (cn 1 rSTAT) 0;
      let h : Hw := (h.setReg (cn 1 0x040) 3).setReg (cn 1 0x050) 0x44000; let h : Hw := { h with can := [] };
      let h : Hw := (h.setReg (pr rSTAT) 1).setReg (cn 1 rLOCK) 0;
      let h : Hw := ((h.setReg (txr 1 9 0x14) (BitVec.ofNat 32 (256 * 2))).setReg (txr 1 9 0) 0x123).setReg (txr 1 9 4) 8;
      let h : Hw := (h.setReg64 (txr 1 9 8) 0).setReg (cn 1 0x068) 0;
      let h : Hw := (List.range 9).foldl (fun h k => h.setReg (txr 1 k 0x14) 0) h;
      let h : Hw := (List.range 6).foldl (fun h k => h.setReg (txr 1 (10 + k) 0x14) 0) h;
      let h : Hw := h.setReg (cn 1 0x04C) 0; h; let g : Nat := 0; let n : Fin 2 := 1; (Live s) ∧ (Settled s)
      ∧ (Unshed s) ∧ (Alone s g) ∧ (s.hw.txActive n = none)) ∧
    (let s : State := stateOf fun h => let h : Hw := ((h.setReg (cn 1 rCTRL) 1).setReg (cn 1 rREADY) 4).setReg (cn 1 rSTAT) 0;
      let h : Hw := (h.setReg (cn 1 0x040) 3).setReg (cn 1 0x050) 0x44000; let h : Hw := { h with can := [] };
      let h : Hw := (h.setReg (pr rSTAT) 1).setReg (cn 1 rLOCK) 0;
      let h : Hw := ((h.setReg (txr 1 9 0x14) (BitVec.ofNat 32 (256 * 3))).setReg (txr 1 9 0) 0x123).setReg (txr 1 9 4) 8;
      let h : Hw := (h.setReg64 (txr 1 9 8) 0).setReg (cn 1 0x068) 0;
      let h : Hw := (List.range 9).foldl (fun h k => h.setReg (txr 1 k 0x14) 0) h;
      let h : Hw := (List.range 6).foldl (fun h k => h.setReg (txr 1 (10 + k) 0x14) 0) h;
      let h : Hw := h.setReg (cn 1 0x04C) 0; let h : Hw := { h with can := [(1, { abort := 0x200 })] }; h;
      let n : Fin 2 := 1; let k : Fin 16 := 9; (Live s) ∧ (Settled s) ∧ (Unshed s) ∧ (s.hw.txActive n = some k.val)
      ∧ ((s.hw.canS n).abort.getLsbD k = true)) ∧
    (let s : State := stateOf fun h => let h : Hw := ((h.setReg (cn 1 rCTRL) 1).setReg (cn 1 rREADY) 4).setReg (cn 1 rSTAT) 0;
      let h : Hw := (h.setReg (cn 1 0x040) 3).setReg (cn 1 0x050) 0x44000; let h : Hw := { h with can := [] };
      let h : Hw := (h.setReg (pr rSTAT) 1).setReg (cn 1 rLOCK) 0;
      let h : Hw := ((h.setReg (txr 1 9 0x14) (BitVec.ofNat 32 (256 * 3))).setReg (txr 1 9 0) 0x123).setReg (txr 1 9 4) 8;
      let h : Hw := (h.setReg64 (txr 1 9 8) 0).setReg (cn 1 0x068) 0;
      let h : Hw := (List.range 9).foldl (fun h k => h.setReg (txr 1 k 0x14) 0) h;
      let h : Hw := (List.range 6).foldl (fun h k => h.setReg (txr 1 (10 + k) 0x14) 0) h;
      let h : Hw := h.setReg (cn 1 0x04C) 0; h; let g : Nat := 0; let n : Fin 2 := 1; let k : Fin 16 := 9; (Live s)
      ∧ (Settled s) ∧ (Unshed s) ∧ (s.hw.txActive n = some k.val) ∧ ((s.hw.canS n).abort.getLsbD k = false)
      ∧ ((s.hw.at g).txWindowOver n k = false)) ∧
    (let s : State := stateOf fun h => let h : Hw := ((h.setReg (cn 1 rCTRL) 1).setReg (cn 1 rREADY) 4).setReg (cn 1 rSTAT) 0;
      let h : Hw := (h.setReg (cn 1 0x040) 3).setReg (cn 1 0x050) 0x44000; let h : Hw := { h with can := [] };
      let h : Hw := (h.setReg (pr rSTAT) 1).setReg (cn 1 rLOCK) 0;
      let h : Hw := ((h.setReg (txr 1 9 0x14) (BitVec.ofNat 32 (256 * 3))).setReg (txr 1 9 0) 0x123).setReg (txr 1 9 4) 8;
      let h : Hw := (h.setReg64 (txr 1 9 8) 0).setReg (cn 1 0x068) 0;
      let h : Hw := (List.range 9).foldl (fun h k => h.setReg (txr 1 k 0x14) 0) h;
      let h : Hw := (List.range 6).foldl (fun h k => h.setReg (txr 1 (10 + k) 0x14) 0) h;
      let h : Hw := h.setReg (cn 1 0x04C) 0; let h : Hw := { h with can := [(1, { timed := 0x200 })] };
      let h : Hw := { h with clk := { h.clk with ctBase := 2 ^ 60, ctBaseGrain := 0 } }; h; let g : Nat := 0;
      let n : Fin 2 := 1; let k : Fin 16 := 9; (Live s) ∧ (Settled s) ∧ (Unshed s) ∧ (s.hw.txActive n = some k.val)
      ∧ ((s.hw.canS n).abort.getLsbD k = false) ∧ ((s.hw.at g).txWindowOver n k = true)
      ∧ (s.hw.bit (cn n 0x068) 31 = false)) := by
  refine ⟨?_, ?_, ?_, ?_, ?_, ?_, ?_, ?_, ?_, ?_, ?_, ?_, ?_, ?_, ?_, ?_, ?_⟩ <;> decide

theorem witness_acquisitionRecords :
    (let s : State := stateOf fun h => let h : Hw := ((h.setReg (aq rCTRL) 1).setReg (aq rREADY) 1).setReg (aq rLOCK) 0;
      let h : Hw := ((h.setReg (aq 0x040) 0x10000).setReg (aq 0x044) 0).setReg (aq 0x048) 10;
      let h : Hw := (h.setReg (aq 0x04C) 20).setReg (aq 0x068) 0;
      let h : Hw := (List.range 16).foldl (fun h r => h.setReg (rcd r 0) 0) h;
      let h : Hw := (h.setReg (ck 0x048) 16384).setReg (th rSTAT) 0;
      let h : Hw := { h with acq := { num := 255 } }; h; let g : Nat := 0; let r : Nat := 1; (Live s) ∧ (Settled s)
      ∧ (Alone s g) ∧ (Unlocked s pACQ) ∧ (s.hw.bit (aq rCTRL) 0 = true) ∧ (s.hw.bit (aq rREADY) 0 = true)
      ∧ (s.hw.acq.phase = 0) ∧ (s.hw.nextRec = some r) ∧ (s.hw.prePg + 1 ≤ s.hw.acq.freeN)) ∧
    (let s : State := stateOf fun h => let h : Hw := ((h.setReg (aq rCTRL) 1).setReg (aq rREADY) 1).setReg (aq rLOCK) 0;
      let h : Hw := ((h.setReg (aq 0x040) 0x10000).setReg (aq 0x044) 0).setReg (aq 0x048) 10;
      let h : Hw := (h.setReg (aq 0x04C) 20).setReg (aq 0x068) 0;
      let h : Hw := (List.range 16).foldl (fun h r => h.setReg (rcd r 0) 0) h;
      let h : Hw := (h.setReg (ck 0x048) 16384).setReg (th rSTAT) 0;
      let h : Hw := { h with acq := { phase := 1 } }; h; let g : Nat := 0; (Live s) ∧ (Settled s) ∧ (Alone s g)
      ∧ (Unlocked s pACQ) ∧ (s.hw.acq.phase ≠ 0 ∨ s.hw.bit (aq rCTRL) 0 = false ∨ s.hw.bit (aq rREADY) 0 = false)) ∧
    (let s : State := stateOf fun h => let h : Hw := ((h.setReg (aq rCTRL) 1).setReg (aq rREADY) 1).setReg (aq rLOCK) 0;
      let h : Hw := ((h.setReg (aq 0x040) 0x10000).setReg (aq 0x044) 0).setReg (aq 0x048) 10;
      let h : Hw := (h.setReg (aq 0x04C) 20).setReg (aq 0x068) 0;
      let h : Hw := (List.range 16).foldl (fun h r => h.setReg (rcd r 0) 0) h;
      let h : Hw := (h.setReg (ck 0x048) 16384).setReg (th rSTAT) 0; let h : Hw := { h with acq := { } };
      let h : Hw := (List.range 16).foldl (fun h r => h.setReg (rcd r 0) 0x80000000) h; h; let g : Nat := 0; (Live s)
      ∧ (Settled s) ∧ (Alone s g) ∧ (Unlocked s pACQ) ∧ (s.hw.bit (aq rCTRL) 0 = true)
      ∧ (s.hw.bit (aq rREADY) 0 = true) ∧ (s.hw.acq.phase = 0) ∧ (s.hw.nextRec = none)) ∧
    (let s : State := stateOf fun h => let h : Hw := ((h.setReg (aq rCTRL) 1).setReg (aq rREADY) 1).setReg (aq rLOCK) 0;
      let h : Hw := ((h.setReg (aq 0x040) 0x10000).setReg (aq 0x044) 0).setReg (aq 0x048) 10;
      let h : Hw := (h.setReg (aq 0x04C) 20).setReg (aq 0x068) 0;
      let h : Hw := (List.range 16).foldl (fun h r => h.setReg (rcd r 0) 0) h;
      let h : Hw := (h.setReg (ck 0x048) 16384).setReg (th rSTAT) 0;
      let h : Hw := { h with acq := { closed := [(3, 512, 0)] } }; h; let g : Nat := 0; let r : Nat := 1; (Live s)
      ∧ (Settled s) ∧ (Alone s g) ∧ (Unlocked s pACQ) ∧ (s.hw.bit (aq rCTRL) 0 = true)
      ∧ (s.hw.bit (aq rREADY) 0 = true) ∧ (s.hw.acq.phase = 0) ∧ (s.hw.nextRec = some r)
      ∧ (s.hw.acq.freeN < s.hw.prePg + 1)) ∧
    (let s : State := stateOf fun h => let h : Hw := ((h.setReg (aq rCTRL) 1).setReg (aq rREADY) 1).setReg (aq rLOCK) 0;
      let h : Hw := ((h.setReg (aq 0x040) 0x10000).setReg (aq 0x044) 0).setReg (aq 0x048) 10;
      let h : Hw := (h.setReg (aq 0x04C) 20).setReg (aq 0x068) 0;
      let h : Hw := (List.range 16).foldl (fun h r => h.setReg (rcd r 0) 0) h;
      let h : Hw := (h.setReg (ck 0x048) 16384).setReg (th rSTAT) 0;
      let h : Hw := { h with acq := { phase := 3 } }; h; (Live s) ∧ (Settled s) ∧ (Unlocked s pACQ)
      ∧ (s.hw.acq.phase = 3)) ∧
    (let s : State := stateOf fun h => let h : Hw := ((h.setReg (aq rCTRL) 1).setReg (aq rREADY) 1).setReg (aq rLOCK) 0;
      let h : Hw := ((h.setReg (aq 0x040) 0x10000).setReg (aq 0x044) 0).setReg (aq 0x048) 10;
      let h : Hw := (h.setReg (aq 0x04C) 20).setReg (aq 0x068) 0;
      let h : Hw := (List.range 16).foldl (fun h r => h.setReg (rcd r 0) 0) h;
      let h : Hw := (h.setReg (ck 0x048) 16384).setReg (th rSTAT) 0;
      let h : Hw := { h with acq := { phase := 2 } }; h; (Live s) ∧ (Settled s) ∧ (Unlocked s pACQ)
      ∧ (s.hw.acq.phase = 1 ∨ s.hw.acq.phase = 2)) ∧
    (let s : State := stateOf fun h => let h : Hw := ((h.setReg (aq rCTRL) 1).setReg (aq rREADY) 1).setReg (aq rLOCK) 0;
      let h : Hw := ((h.setReg (aq 0x040) 0x10000).setReg (aq 0x044) 0).setReg (aq 0x048) 10;
      let h : Hw := (h.setReg (aq 0x04C) 20).setReg (aq 0x068) 0;
      let h : Hw := (List.range 16).foldl (fun h r => h.setReg (rcd r 0) 0) h;
      let h : Hw := (h.setReg (ck 0x048) 16384).setReg (th rSTAT) 0; let h : Hw := { h with acq := { } }; h; (Live s)
      ∧ (Settled s) ∧ (Unlocked s pACQ) ∧ (s.hw.acq.phase = 0)) ∧
    (let s : State := stateOf fun h => let h : Hw := ((h.setReg (aq rCTRL) 1).setReg (aq rREADY) 1).setReg (aq rLOCK) 0;
      let h : Hw := ((h.setReg (aq 0x040) 0x10000).setReg (aq 0x044) 0).setReg (aq 0x048) 10;
      let h : Hw := (h.setReg (aq 0x04C) 20).setReg (aq 0x068) 0;
      let h : Hw := (List.range 16).foldl (fun h r => h.setReg (rcd r 0) 0) h;
      let h : Hw := (h.setReg (ck 0x048) 16384).setReg (th rSTAT) 0;
      let h : Hw := { h with acq := { phase := 1 } }; h; (Live s) ∧ (Settled s) ∧ (Unlocked s pACQ)) ∧
    (let s : State := stateOf fun h => let h : Hw := ((h.setReg (aq rCTRL) 1).setReg (aq rREADY) 1).setReg (aq rLOCK) 0;
      let h : Hw := ((h.setReg (aq 0x040) 0x10000).setReg (aq 0x044) 0).setReg (aq 0x048) 10;
      let h : Hw := (h.setReg (aq 0x04C) 20).setReg (aq 0x068) 0;
      let h : Hw := (List.range 16).foldl (fun h r => h.setReg (rcd r 0) 0) h;
      let h : Hw := (h.setReg (ck 0x048) 16384).setReg (th rSTAT) 0;
      let h : Hw := { h with acq := { phase := 2 } }; h; (Live s) ∧ (Settled s) ∧ (Unlocked s pACQ)
      ∧ (s.hw.acq.phase ≠ 1)) ∧
    (let s : State := stateOf fun h => let h : Hw := ((h.setReg (aq rCTRL) 1).setReg (aq rREADY) 1).setReg (aq rLOCK) 0;
      let h : Hw := ((h.setReg (aq 0x040) 0x10000).setReg (aq 0x044) 0).setReg (aq 0x048) 10;
      let h : Hw := (h.setReg (aq 0x04C) 20).setReg (aq 0x068) 0;
      let h : Hw := (List.range 16).foldl (fun h r => h.setReg (rcd r 0) 0) h;
      let h : Hw := (h.setReg (ck 0x048) 16384).setReg (th rSTAT) 0;
      let h : Hw := { h with acq := { phase := 1, last := some (7, 8) } }; let h : Hw := h.setReg64 (aq 0x060) 9; h;
      let ti : Nat := 7; let T : Nat := 8; (Live s) ∧ (Settled s) ∧ (Unlocked s pACQ) ∧ (s.hw.acq.phase = 1)
      ∧ (s.hw.bit (aq 0x040) 4 = false) ∧ (s.hw.acq.last = some (ti, T)) ∧ (T < (s.hw.reg64 (aq 0x060)).toNat)) ∧
    (let s : State := stateOf fun h => let h : Hw := ((h.setReg (aq rCTRL) 1).setReg (aq rREADY) 1).setReg (aq rLOCK) 0;
      let h : Hw := ((h.setReg (aq 0x040) 0x10000).setReg (aq 0x044) 0).setReg (aq 0x048) 10;
      let h : Hw := (h.setReg (aq 0x04C) 20).setReg (aq 0x068) 0;
      let h : Hw := (List.range 16).foldl (fun h r => h.setReg (rcd r 0) 0) h;
      let h : Hw := (h.setReg (ck 0x048) 16384).setReg (th rSTAT) 0;
      let h : Hw := { h with acq := { phase := 1, last := some (16384, 16384) } };
      let h : Hw := h.setReg64 (aq 0x060) 9; h; let ti : Nat := 16384; let T : Nat := 16384; let back : Nat := 1;
      (Live s) ∧ (Settled s) ∧ (Unlocked s pACQ) ∧ (s.hw.acq.phase = 1) ∧ (s.hw.bit (aq 0x040) 4 = false)
      ∧ (s.hw.acq.last = some (ti, T)) ∧ ((s.hw.reg64 (aq 0x060)).toNat ≤ T)
      ∧ (back = (T - ((s.hw.reg64 (aq 0x060)).toNat + s.hw.sper - 1) / s.hw.sper * s.hw.sper) / s.hw.sper + 1)
      ∧ (s.hw.preHeld < back)) ∧
    (let s : State := stateOf fun h => let h : Hw := ((h.setReg (aq rCTRL) 1).setReg (aq rREADY) 1).setReg (aq rLOCK) 0;
      let h : Hw := ((h.setReg (aq 0x040) 0x10000).setReg (aq 0x044) 0).setReg (aq 0x048) 10;
      let h : Hw := (h.setReg (aq 0x04C) 20).setReg (aq 0x068) 0;
      let h : Hw := (List.range 16).foldl (fun h r => h.setReg (rcd r 0) 0) h;
      let h : Hw := (h.setReg (ck 0x048) 16384).setReg (th rSTAT) 0;
      let h : Hw := { h with acq := { phase := 1, taken := 5, last := some (16384, 16384) } };
      let h : Hw := h.setReg64 (aq 0x060) 9; h; let ti : Nat := 16384; let T : Nat := 16384; let back : Nat := 1;
      (Live s) ∧ (Settled s) ∧ (Unlocked s pACQ) ∧ (s.hw.acq.phase = 1) ∧ (s.hw.bit (aq 0x040) 4 = false)
      ∧ (s.hw.acq.last = some (ti, T)) ∧ (s.hw.acq.desc < 16) ∧ ((s.hw.reg64 (aq 0x060)).toNat ≤ T)
      ∧ (back = (T - ((s.hw.reg64 (aq 0x060)).toNat + s.hw.sper - 1) / s.hw.sper * s.hw.sper) / s.hw.sper + 1)
      ∧ (back ≤ s.hw.preHeld)) ∧
    (let s : State := stateOf fun h => let h : Hw := ((h.setReg (aq rCTRL) 1).setReg (aq rREADY) 1).setReg (aq rLOCK) 0;
      let h : Hw := ((h.setReg (aq 0x040) 0x10000).setReg (aq 0x044) 0).setReg (aq 0x048) 10;
      let h : Hw := (h.setReg (aq 0x04C) 20).setReg (aq 0x068) 0;
      let h : Hw := (List.range 16).foldl (fun h r => h.setReg (rcd r 0) 0) h;
      let h : Hw := (h.setReg (ck 0x048) 16384).setReg (th rSTAT) 0; let h : Hw := { h with acq := { phase := 1 } };
      let h : Hw := { h with grain := 16383, clk := { h.clk with ctBaseGrain := 0, ctBase := 0, ctInc := 2 ^ 33, past := [] } };
      let h : Hw := h.setReg (aq 0x050) 0; h; let g : Nat := 16384; let ti : Nat := 16384; let T : Nat := 16384;
      (Live s) ∧ (Settled s) ∧ (Unshed s) ∧ (s.hw.bit (aq rCTRL) 0 = true) ∧ (s.hw.bit (aq rREADY) 0 = true)
      ∧ ((s.hw.at g).acqInstant = some (ti, T)) ∧ (s.hw.throttled = s.hw.acq.thr) ∧ ((s.hw.at g).stopDue = false)
      ∧ (s.hw.acq.phase = 1) ∧ (s.hw.acq.armAt < (s.hw.at g).grain) ∧ (s.hw.acq.soft = none)
      ∧ (s.hw.acq.remote = none) ∧ (s.hw.f (aq 0x068) 8 0 = 0)) ∧
    (let s : State := stateOf fun h => let h : Hw := ((h.setReg (aq rCTRL) 1).setReg (aq rREADY) 1).setReg (aq rLOCK) 0;
      let h : Hw := ((h.setReg (aq 0x040) 0x10000).setReg (aq 0x044) 0).setReg (aq 0x048) 10;
      let h : Hw := (h.setReg (aq 0x04C) 20).setReg (aq 0x068) 0;
      let h : Hw := (List.range 16).foldl (fun h r => h.setReg (rcd r 0) 0) h;
      let h : Hw := (h.setReg (ck 0x048) 16384).setReg (th rSTAT) 0;
      let h : Hw := { h with acq := { phase := 1, soft := some 4 } };
      let h : Hw := { h with grain := 16383, clk := { h.clk with ctBaseGrain := 0, ctBase := 0, ctInc := 2 ^ 33, past := [] } };
      let h : Hw := h.setReg (aq 0x050) 0; h; let g : Nat := 16384; let ti : Nat := 16384; let T : Nat := 16384;
      let w : Nat := 4; (Live s) ∧ (Settled s) ∧ (Unshed s) ∧ (s.hw.bit (aq rCTRL) 0 = true)
      ∧ (s.hw.bit (aq rREADY) 0 = true) ∧ ((s.hw.at g).acqInstant = some (ti, T)) ∧ (s.hw.throttled = s.hw.acq.thr)
      ∧ ((s.hw.at g).stopDue = false) ∧ (s.hw.acq.phase = 1) ∧ (s.hw.acq.desc < 16)
      ∧ (s.hw.acq.armAt < (s.hw.at g).grain) ∧ (s.hw.acq.soft = some w) ∧ (w < (s.hw.at g).grain)
      ∧ (s.hw.acq.remote = none) ∧ (s.hw.bit (aq 0x040) 4 = false)) ∧
    (let s : State := stateOf fun h => let h : Hw := ((h.setReg (aq rCTRL) 1).setReg (aq rREADY) 1).setReg (aq rLOCK) 0;
      let h : Hw := ((h.setReg (aq 0x040) 0x10000).setReg (aq 0x044) 0).setReg (aq 0x048) 10;
      let h : Hw := (h.setReg (aq 0x04C) 20).setReg (aq 0x068) 0;
      let h : Hw := (List.range 16).foldl (fun h r => h.setReg (rcd r 0) 0) h;
      let h : Hw := (h.setReg (ck 0x048) 16384).setReg (th rSTAT) 0; let h : Hw := { h with acq := { } };
      let h : Hw := h.setReg (aq rCTRL) 0; h; (Live s) ∧ (Settled s) ∧ (Unshed s)
      ∧ (s.hw.bit (aq rCTRL) 0 = false ∨ s.hw.bit (aq rREADY) 0 = false)) ∧
    (let s : State := stateOf fun h => let h : Hw := ((h.setReg (aq rCTRL) 1).setReg (aq rREADY) 1).setReg (aq rLOCK) 0;
      let h : Hw := ((h.setReg (aq 0x040) 0x10000).setReg (aq 0x044) 0).setReg (aq 0x048) 10;
      let h : Hw := (h.setReg (aq 0x04C) 20).setReg (aq 0x068) 0;
      let h : Hw := (List.range 16).foldl (fun h r => h.setReg (rcd r 0) 0) h;
      let h : Hw := (h.setReg (ck 0x048) 16384).setReg (th rSTAT) 0;
      let h : Hw := { h with acq := { phase := 3, rearm := 4 } }; h; let r : Nat := 1; (Live s) ∧ (Settled s)
      ∧ (Unshed s) ∧ (s.hw.acq.phase = 3) ∧ (4 ≤ s.hw.acq.rearm) ∧ (s.hw.prePg + 1 ≤ s.hw.acq.freeN)
      ∧ (s.hw.nextRec = some r)) ∧
    (let s : State := stateOf fun h => let h : Hw := ((h.setReg (aq rCTRL) 1).setReg (aq rREADY) 1).setReg (aq rLOCK) 0;
      let h : Hw := ((h.setReg (aq 0x040) 0x10000).setReg (aq 0x044) 0).setReg (aq 0x048) 10;
      let h : Hw := (h.setReg (aq 0x04C) 20).setReg (aq 0x068) 0;
      let h : Hw := (List.range 16).foldl (fun h r => h.setReg (rcd r 0) 0) h;
      let h : Hw := (h.setReg (ck 0x048) 16384).setReg (th rSTAT) 0;
      let h : Hw := { h with acq := { phase := 3, rearm := 3 } }; h; (Live s) ∧ (Settled s) ∧ (Unshed s)
      ∧ (s.hw.acq.phase ≠ 3 ∨ s.hw.acq.rearm < 4 ∨ s.hw.acq.freeN < s.hw.prePg + 1 ∨ s.hw.nextRec = none)) ∧
    (let s : State := stateOf fun h => let h : Hw := ((h.setReg (aq rCTRL) 1).setReg (aq rREADY) 1).setReg (aq rLOCK) 0;
      let h : Hw := ((h.setReg (aq 0x040) 0x10000).setReg (aq 0x044) 0).setReg (aq 0x048) 10;
      let h : Hw := (h.setReg (aq 0x04C) 20).setReg (aq 0x068) 0;
      let h : Hw := (List.range 16).foldl (fun h r => h.setReg (rcd r 0) 0) h;
      let h : Hw := (h.setReg (ck 0x048) 16384).setReg (th rSTAT) 0;
      let h : Hw := { h with acq := { closed := [(3, 5, 0), (4, 6, 0)] } }; h; let g : Nat := 50;
      let n : BitVec 10 := 7; (Live s) ∧ (Settled s) ∧ (Alone s g) ∧ (Unlocked s pACQ)
      ∧ (n.toNat ≤ ((s.hw.acq.closed.filter fun e => e.2.2 != (s.hw.at g).cycle).foldl (fun t e => t + e.2.1) 0))) ∧
    (let s : State := stateOf fun h => let h : Hw := ((h.setReg (aq rCTRL) 1).setReg (aq rREADY) 1).setReg (aq rLOCK) 0;
      let h : Hw := ((h.setReg (aq 0x040) 0x10000).setReg (aq 0x044) 0).setReg (aq 0x048) 10;
      let h : Hw := (h.setReg (aq 0x04C) 20).setReg (aq 0x068) 0;
      let h : Hw := (List.range 16).foldl (fun h r => h.setReg (rcd r 0) 0) h;
      let h : Hw := (h.setReg (ck 0x048) 16384).setReg (th rSTAT) 0;
      let h : Hw := { h with acq := { closed := [(3, 5, 0), (4, 6, 10)] } }; h; let g : Nat := 50;
      let n : BitVec 10 := 7; (Live s) ∧ (Settled s) ∧ (Alone s g) ∧ (Unlocked s pACQ)
      ∧ (((s.hw.acq.closed.filter fun e => e.2.2 != (s.hw.at g).cycle).foldl (fun t e => t + e.2.1) 0) < n.toNat)) ∧
    (let s : State := stateOf fun h => let h : Hw := ((h.setReg (aq rCTRL) 1).setReg (aq rREADY) 1).setReg (aq rLOCK) 0;
      let h : Hw := ((h.setReg (aq 0x040) 0x10000).setReg (aq 0x044) 0).setReg (aq 0x048) 10;
      let h : Hw := (h.setReg (aq 0x04C) 20).setReg (aq 0x068) 0;
      let h : Hw := (List.range 16).foldl (fun h r => h.setReg (rcd r 0) 0) h;
      let h : Hw := (h.setReg (ck 0x048) 16384).setReg (th rSTAT) 0;
      let h : Hw := { h with acq := { closed := [(3, 5, 0)], post := 4 } }; h; (Live s) ∧ (Settled s)) := by
  refine ⟨?_, ?_, ?_, ?_, ?_, ?_, ?_, ?_, ?_, ?_, ?_, ?_, ?_, ?_, ?_, ?_, ?_, ?_, ?_, ?_⟩ <;> decide

theorem witness_safetyFunctionsAndOutputs :
    (let s : State := stateOf fun h => let h : Hw := (h.setReg (sf rLOCK) 0).setReg (sy 0x040) 0x300;
      let h : Hw := { h with legs := [], ax := [] }; let h : Hw := h.setReg (fnReg 6 0x14) 0x80000000;
      let h : Hw := { h with saf := { a := { fns := [(6, { state := 2 })] }, b := { fns := [(6, { state := 2 })] } } };
      let h : Hw := h.setReg (fnReg 6 0x30) 0; h; let g : Nat := 0; let k : Fin 8 := 6; let n : Fin 96 := 95;
      (Live s) ∧ (Unshed s) ∧ (∀ c : Bool, (s.hw.safFn c k).state = 2 ∧ (s.hw.safFn c k).lead = false
      ∧ (s.hw.safFn c k).since + s.hw.f (fnReg k 0x30) 15 0 * 500000 ≤ max s.hw.grain g)
      ∧ ((s.hw.reg (fnReg k 0x14) ++ s.hw.reg (fnReg k 0x10) ++ s.hw.reg (fnReg k 0x0C)).getLsbD n = true)) ∧
    (let s : State := stateOf fun h => let h : Hw := (h.setReg (sf rLOCK) 0).setReg (sy 0x040) 0x300;
      let h : Hw := { h with legs := [], ax := [] }; let h : Hw := h.setReg (fnReg 6 0x14) 0x80000000;
      let h : Hw := { h with saf := { a := { fns := [(6, { state := 4 })] }, b := { fns := [(6, { state := 4 })] } } };
      let h : Hw := h.setReg (fnReg 6 0x30) 0; h; let g : Nat := 0; let k : Fin 8 := 6; (Live s) ∧ (Unshed s)
      ∧ (∀ c : Bool, ((s.hw.safFn c k).state ≠ 2 ∨ (s.hw.safFn c k).lead = true ∨ max s.hw.grain g < (s.hw.safFn c k).since + s.hw.f (fnReg k 0x30) 15 0 * 500000)
      ∧ (s.hw.safFn c k).state ≠ 3)) ∧
    (let s : State := stateOf fun h => let h : Hw := (h.setReg (sf rLOCK) 0).setReg (sy 0x040) 0x300;
      let h : Hw := { h with legs := [], ax := [] }; let h : Hw := h.setReg (fnReg 6 0x14) 0x80000000;
      let h : Hw := { h with saf := { a := { fns := [(6, { state := 4 })] }, b := { fns := [(6, { state := 4 })] } } };
      let h : Hw := h.setReg (fnReg 6 0x30) 0; h; let g : Nat := 0; let k : Fin 8 := 6; (Live s) ∧ (Unshed s)
      ∧ (∀ c : Bool, (s.hw.safFn c k).state = 4
      ∧ (s.hw.safFn c k).since + s.hw.f (fnReg k 0x30) 15 0 * 500000 ≤ max s.hw.grain g)) ∧
    (let s : State := stateOf fun h => let h : Hw := (h.setReg (sf rLOCK) 0).setReg (sy 0x040) 0x300;
      let h : Hw := { h with legs := [], ax := [] }; let h : Hw := h.setReg (fnReg 6 0x14) 0x80000000;
      let h : Hw := { h with saf := { a := { fns := [(6, { state := 2 })] }, b := { fns := [(6, { state := 2 })] } } }; h;
      let g : Nat := 0; let k : Fin 8 := 6; (Live s) ∧ (Unshed s)
      ∧ (∀ c : Bool, ((s.hw.safFn c k).state ≠ 4 ∨ max s.hw.grain g < (s.hw.safFn c k).since + s.hw.f (fnReg k 0x30) 15 0 * 500000)
      ∧ (s.hw.safFn c k).state ≠ 3)) ∧
    (let s : State := stateOf fun h => let h : Hw := (h.setReg (sf rLOCK) 0).setReg (sy 0x040) 0x300;
      let h : Hw := { h with legs := [], ax := [] }; let h : Hw := h.setReg (fnReg 6 0x14) 0x80000000;
      let h : Hw := { h with saf := { a := { fns := [(6, { state := 2, lead := true })] }, b := { fns := [(6, { state := 2, lead := true })] } } };
      let h : Hw := h.setReg (fnReg 6 0x30) 0; h; let g : Nat := 0; let k : Fin 8 := 6; let n : Fin 96 := 95;
      (Live s) ∧ (Unshed s) ∧ (∀ c : Bool, (s.hw.safFn c k).state = 2 ∧ (s.hw.safFn c k).lead = true
      ∧ (s.hw.safFn c k).leadAt + s.hw.f (fnReg k 0x30) 31 16 * 500000 ≤ max s.hw.grain g)
      ∧ ((s.hw.reg (fnReg k 0x14) ++ s.hw.reg (fnReg k 0x10) ++ s.hw.reg (fnReg k 0x0C)).getLsbD n = true)) ∧
    (let s : State := stateOf fun h => let h : Hw := (h.setReg (sf rLOCK) 0).setReg (sy 0x040) 0x300;
      let h : Hw := { h with legs := [], ax := [] }; let h : Hw := h.setReg (fnReg 6 0x14) 0x80000000;
      let h : Hw := { h with saf := { a := { fns := [(6, { state := 2 })] }, b := { fns := [(6, { state := 2 })] } } }; h;
      let g : Nat := 0; let k : Fin 8 := 6; (Live s) ∧ (Unshed s)
      ∧ (∀ c : Bool, ((s.hw.safFn c k).state ≠ 2 ∨ (s.hw.safFn c k).lead = false ∨ max s.hw.grain g < (s.hw.safFn c k).leadAt + s.hw.f (fnReg k 0x30) 31 16 * 500000)
      ∧ (s.hw.safFn c k).state ≠ 3)) ∧
    (let s : State := stateOf fun h => let h : Hw := (h.setReg (sf rLOCK) 0).setReg (sy 0x040) 0x300;
      let h : Hw := { h with legs := [], ax := [] }; let h : Hw := h.setReg (fnReg 6 0x14) 0x80000000; h;
      let g : Nat := 0; let j : Fin 4 := 3; let c : Bool := default; (Live s) ∧ (Unshed s)
      ∧ (s.hw.bit (sf (0x080 + 4 * j)) 0 = false ∨ s.hw.bit (sf 0x094) j = false ∨ tabGet 0 (2 * j.val + if c then 1 else 0) s.hw.saf.tests = 0 ∨ max s.hw.grain g + 1 < tabGet 0 (2 * j.val + if c then 1 else 0) s.hw.saf.tests + (if c then 0 else s.hw.f (sf (0x080 + 4 * j)) 23 16 * 500000000))) ∧
    (let s : State := stateOf fun h => let h : Hw := (h.setReg (sf rLOCK) 0).setReg (sy 0x040) 0x300;
      let h : Hw := { h with legs := [], ax := [] }; let h : Hw := h.setReg (fnReg 6 0x14) 0x80000000;
      let h : Hw := (h.setReg (sf 0x08C) 0x00000101).setReg (sf 0x094) 8;
      let h : Hw := { h with saf := { h.saf with tests := [(6, 1), (7, 1)] } }; h; let g : Nat := 1;
      let j : Fin 4 := 3; let c : Bool := default; let d : Nat := 5000; (Live s) ∧ (Unshed s)
      ∧ (s.hw.bit (sf (0x080 + 4 * j)) 0 = true) ∧ (s.hw.bit (sf 0x094) j = true)
      ∧ (tabGet 0 (2 * j.val + if c then 1 else 0) s.hw.saf.tests ≠ 0)
      ∧ (tabGet 0 (2 * j.val + if c then 1 else 0) s.hw.saf.tests + (if c then 0 else s.hw.f (sf (0x080 + 4 * j)) 23 16 * 500000000) ≤ max s.hw.grain g + 1)
      ∧ (d ≤ 5000 * s.hw.f (sf (0x080 + 4 * j)) 15 8)) ∧
    (let s : State := stateOf fun h => let h : Hw := (h.setReg (sf rLOCK) 0).setReg (sy 0x040) 0x300;
      let h : Hw := { h with legs := [], ax := [] }; let h : Hw := h.setReg (fnReg 6 0x14) 0x80000000;
      let h : Hw := (h.setReg (sy 0x040) 3).setReg (sf 0x08C) 1; let h : Hw := h.setReg (sf 0x094) 8;
      let h : Hw := { h with saf := { h.saf with tests := [(6, 1), (7, 1)] } }; h; let g : Nat := 9;
      let j : Fin 4 := 3; let c : Bool := default; let opened : Option Nat := some 5001; (Live s) ∧ (Unshed s)
      ∧ (s.hw.bit (sf (0x080 + 4 * j)) 0 = true) ∧ (s.hw.bit (sf 0x094) j = true)
      ∧ (tabGet 0 (2 * j.val + if c then 1 else 0) s.hw.saf.tests ≠ 0)
      ∧ (tabGet 0 (2 * j.val + if c then 1 else 0) s.hw.saf.tests + (if c then 0 else s.hw.f (sf (0x080 + 4 * j)) 23 16 * 500000000) ≤ max s.hw.grain g + 1)
      ∧ (opened.all (fun d => decide (5000 * s.hw.f (sf (0x080 + 4 * j)) 15 8 < d)) = true)
      ∧ (s.hw.sys.modeGrain < max s.hw.grain g) ∧ (1 ≤ s.hw.mode.toNat) ∧ (s.hw.mode.toNat ≤ 4)) ∧
    (let s : State := ({} : State); (Live s) ∧ (Unshed s)) ∧
    (let s : State := ({} : State); let fa : BitVec 4 := default; let fb : BitVec 4 := 8; let j : Fin 4 := 3;
      (Live s) ∧ (Unshed s) ∧ (fa.getLsbD j = true ∨ fb.getLsbD j = true)) ∧
    (let s : State := stateOf fun h => let h : Hw := (h.setReg (sf rLOCK) 0).setReg (sy 0x040) 0x300;
      let h : Hw := { h with legs := [], ax := [] }; let h : Hw := h.setReg (fnReg 6 0x14) 0x80000000;
      let h : Hw := { h with saf := { faults := 0x10, rearm := true } }; h; (Live s) ∧ (Unshed s)
      ∧ (s.hw.saf.rearm = true)) ∧
    (let s : State := stateOf fun h => let h : Hw := (h.setReg (sf rLOCK) 0).setReg (sy 0x040) 0x300;
      let h : Hw := { h with legs := [], ax := [] }; let h : Hw := h.setReg (fnReg 6 0x14) 0x80000000; h; (Live s)
      ∧ (Unshed s) ∧ (s.hw.saf.rearm = false)) ∧
    (let s : State := stateOf fun h => let h : Hw := (h.setReg (sf rLOCK) 0).setReg (sy 0x040) 0x300;
      let h : Hw := { h with legs := [], ax := [] }; let h : Hw := h.setReg (fnReg 6 0x14) 0x80000000;
      let h : Hw := h.setReg (sy 0x040) 3; h; let off : BitVec 12 := 0x100; (Live s) ∧ (Unlocked s pSAF)
      ∧ (safCfgOffs.contains off.toNat = true) ∧ (s.hw.mode ≠ mBRINGUP) ∧ (s.hw.mode ≠ mCONFIG)) ∧
    (let s : State := stateOf fun h => let h : Hw := (h.setReg (sf rLOCK) 0).setReg (sy 0x040) 0x300;
      let h : Hw := { h with legs := [], ax := [] }; let h : Hw := h.setReg (fnReg 6 0x14) 0x80000000;
      let h : Hw := h.setReg (sy 0x040) 0; h; (Live s) ∧ (Unlocked s pSAF)
      ∧ (s.hw.mode = mBRINGUP ∨ s.hw.mode = mCONFIG)) ∧
    (let s : State := stateOf fun h => let h : Hw := (h.setReg (sf rLOCK) 0).setReg (sy 0x040) 0x300;
      let h : Hw := { h with legs := [], ax := [] }; let h : Hw := h.setReg (fnReg 6 0x14) 0x80000000;
      let h : Hw := h.setReg (sy 0x040) 0; h; let v : Word := 0x7001; (Live s) ∧ (Unlocked s pSAF)
      ∧ (s.hw.mode = mBRINGUP ∨ s.hw.mode = mCONFIG) ∧ (fld v 2 0 ≠ 0)) ∧
    (let s : State := stateOf fun h => let h : Hw := (h.setReg (sf rLOCK) 0).setReg (sy 0x040) 0x300;
      let h : Hw := { h with legs := [], ax := [] }; let h : Hw := h.setReg (fnReg 6 0x14) 0x80000000;
      let h : Hw := h.setReg (sy 0x040) 0x300; h; (Live s) ∧ (Unlocked s pSAF)) ∧
    (let s : State := stateOf fun h => let h : Hw := (h.setReg (sf rLOCK) 0).setReg (sy 0x040) 0x300;
      let h : Hw := { h with legs := [], ax := [] }; let h : Hw := h.setReg (fnReg 6 0x14) 0x80000000; h; (Live s)
      ∧ (Unlocked s pSAF)) := by
  refine ⟨?_, ?_, ?_, ?_, ?_, ?_, ?_, ?_, ?_, ?_, ?_, ?_, ?_, ?_, ?_, ?_, ?_, ?_⟩ <;> decide

theorem witness_safetyTicksAndConnections :
    (let s : State := ({} : State); (Live s) ∧ (Unshed s)) ∧
    (let s : State := stateOf fun h => let h : Hw := { h with saf := { a := { ticks := 999, others := 989 }, b := { ticks := 999, others := 1011 } } }; h;
      let c : Bool := default; (Live s) ∧ (Unshed s) ∧ ((s.hw.safCh c).ticks = 999)
      ∧ ((s.hw.safCh c).others < 990 ∨ 1010 < (s.hw.safCh c).others)) ∧
    (let s : State := ({} : State); let c : Bool := default; (Live s) ∧ (Unshed s) ∧ ((s.hw.safCh c).ticks < 999)) ∧
    (let s : State := stateOf fun h => let h : Hw := h.setReg (fnReg 6 0) 0x7000; h; let k : Fin 8 := 6; (Live s)
      ∧ (Unshed s) ∧ (s.hw.fnKind k = 0)) ∧
    (let s : State := stateOf fun h => let h : Hw := ((h.setReg (fnReg 6 0) 0x7001).setReg (fnReg 6 8) 0x80).setReg (sf 0x07C) 0;
      let h : Hw := { h with saf := { a := { fns := [(6, { state := 1 })] }, b := { fns := [(6, { state := 1 })] } } }; h;
      let c : Bool := default; let k : Fin 8 := 6; let i : Fin 8 := 7; (Live s) ∧ (Unshed s) ∧ (s.hw.fnKind k = 1)
      ∧ ((s.hw.safFn c k).state = 1) ∧ (s.hw.bit (fnReg k 8) i = true) ∧ (s.hw.bit (sf (0x060 + 4 * i)) 0 = false)) ∧
    (let s : State := stateOf fun h => let h : Hw := (h.setReg (rxReg 15 0) 0x80000407).setReg (rxReg 15 0x14) 1;
      let h : Hw := (h.setReg (rxReg 15 0x10) 5).setReg (rxReg 15 0x0C) 8;
      let h : Hw := { h with saf := { rx := [(15, { wait := [(3, true, [], 4)] })] } }; h; let g : Nat := 9;
      let j : Fin 16 := 15; let w : Nat × Bool × List Byte × Nat := (3, true, [], 4);
      let rest : List (Nat × Bool × List Byte × Nat) := []; (Live s) ∧ (Unshed s) ∧ (s.hw.rxEn j = true)
      ∧ ((s.hw.safRx j).wait = w :: rest) ∧ (w.2.2.2 + 50000 * s.hw.f (rxReg j 0x0C) 31 24 ≤ max s.hw.grain g)
      ∧ (∀ x ∈ rest, max s.hw.grain g < x.2.2.2 + 50000 * s.hw.f (rxReg j 0x0C) 31 24)
      ∧ (s.hw.rxState j = 1 ∨ s.hw.rxState j = 2) ∧ (s.hw.f (rxReg j 0x10) 7 0 ≠ 0)) ∧
    (let s : State := stateOf fun h => let h : Hw := (h.setReg (rxReg 15 0) 0x80000407).setReg (rxReg 15 0x14) 1;
      let h : Hw := (h.setReg (rxReg 15 0x10) 5).setReg (rxReg 15 0x0C) 8;
      let h : Hw := { h with saf := { rx := [(15, { wait := [(3, true, [], 4)] })] } };
      let h : Hw := h.setReg (rxReg 15 0x10) 0; h; let g : Nat := 9; let j : Fin 16 := 15;
      let w : Nat × Bool × List Byte × Nat := (3, true, [], 4); let rest : List (Nat × Bool × List Byte × Nat) := [];
      (Live s) ∧ (Unshed s) ∧ (s.hw.rxEn j = true) ∧ ((s.hw.safRx j).wait = w :: rest)
      ∧ (w.2.2.2 + 50000 * s.hw.f (rxReg j 0x0C) 31 24 ≤ max s.hw.grain g)
      ∧ (∀ x ∈ rest, max s.hw.grain g < x.2.2.2 + 50000 * s.hw.f (rxReg j 0x0C) 31 24)
      ∧ (s.hw.rxState j = 1 ∨ s.hw.rxState j = 2) ∧ (s.hw.f (rxReg j 0x10) 7 0 = 0)) ∧
    (let s : State := ({} : State); let g : Nat := 0; let j : Fin 16 := 15; (Live s) ∧ (Unshed s)
      ∧ (s.hw.rxEn j = false ∨ ∀ x ∈ (s.hw.safRx j).wait, max s.hw.grain g < x.2.2.2 + 50000 * s.hw.f (rxReg j 0x0C) 31 24)) ∧
    (let s : State := stateOf fun h => let h : Hw := (h.setReg (rxReg 15 0) 0x80000407).setReg (rxReg 15 0x14) 1;
      let h : Hw := (h.setReg (rxReg 15 0x10) 5).setReg (rxReg 15 0x0C) 8;
      let h : Hw := { h with saf := { rx := [(15, { grace := some 3 })] } };
      let h : Hw := h.setReg (rxReg 15 0x14) 2; h; let g : Nat := 2500000003; let j : Fin 16 := 15; let q : Nat := 3;
      (Live s) ∧ (Unshed s) ∧ (s.hw.rxEn j = true) ∧ ((s.hw.safRx j).grace = some q)
      ∧ (q + s.hw.f (rxReg j 0x10) 7 0 * 500000000 ≤ max s.hw.grain g) ∧ (s.hw.rxState j ≠ 3)) ∧
    (let s : State := ({} : State); let g : Nat := 0; let j : Fin 16 := 15; (Live s) ∧ (Unshed s)
      ∧ (s.hw.rxEn j = false ∨ (s.hw.safRx j).grace.all (fun q => decide (max s.hw.grain g < q + s.hw.f (rxReg j 0x10) 7 0 * 500000000)) = true)) ∧
    (let s : State := stateOf fun h => let h : Hw := (h.setReg (rxReg 15 0) 0x80000407).setReg (rxReg 15 0x14) 1;
      let h : Hw := (h.setReg (rxReg 15 0x10) 5).setReg (rxReg 15 0x0C) 8; let h : Hw := { h with saf := {} }; h;
      let g : Nat := 4000000; let j : Fin 16 := 15; (Live s) ∧ (Unshed s) ∧ (s.hw.rxEn j = true)
      ∧ (s.hw.rxState j ≠ 3) ∧ ((s.hw.safRx j).accAt + s.hw.f (rxReg j 0x0C) 15 0 * 500000 ≤ max s.hw.grain g)) ∧
    (let s : State := ({} : State); let g : Nat := 0; let j : Fin 16 := 15; (Live s) ∧ (Unshed s)
      ∧ (s.hw.rxEn j = false ∨ s.hw.rxState j = 3 ∨ max s.hw.grain g < (s.hw.safRx j).accAt + s.hw.f (rxReg j 0x0C) 15 0 * 500000)) := by
  refine ⟨?_, ?_, ?_, ?_, ?_, ?_, ?_, ?_, ?_, ?_, ?_, ?_⟩ <;> decide

theorem witness_fieldChannels :
    (let s : State := stateOf fun h => let h : Hw := { h with fields := [(1, {})], sup := {} };
      let h : Hw := h.setReg (fo 1 rLOCK) 0;
      let h : Hw := (List.range 16).foldl (fun h i => h.setReg (chCfg 1 i) 0x01000026) h; h; let g : Nat := 250;
      let p : Bool := true; (Live s) ∧ (s.hw.sup.shed = false) ∧ (max s.hw.grain g % 500 = (if p then 250 else 0))
      ∧ ((s.hw.field (grpN p)).idx < 16)) ∧
    (let s : State := stateOf fun h => let h : Hw := { h with fields := [(1, {})], sup := {} };
      let h : Hw := h.setReg (fo 1 rLOCK) 0;
      let h : Hw := (List.range 16).foldl (fun h i => h.setReg (chCfg 1 i) 0x01000026) h; h; let g : Nat := 250;
      let p : Bool := true; (Live s) ∧ (s.hw.sup.shed = false) ∧ (max s.hw.grain g % 500 = (if p then 250 else 0))) ∧
    (let s : State := stateOf fun h => let h : Hw := { h with fields := [(1, {})], sup := {} };
      let h : Hw := h.setReg (fo 1 rLOCK) 0;
      let h : Hw := (List.range 16).foldl (fun h i => h.setReg (chCfg 1 i) 0x01000026) h; h; let g : Nat := 251;
      let p : Bool := true; (Live s) ∧ (s.hw.sup.shed = true ∨ max s.hw.grain g % 500 ≠ (if p then 250 else 0))) ∧
    (let s : State := stateOf fun h => let h : Hw := { h with fields := [(1, { got := 0xFFFF, stale := false, upDue := true })], sup := {} };
      let h : Hw := h.setReg (fo 1 rLOCK) 0;
      let h : Hw := (List.range 16).foldl (fun h i => h.setReg (chCfg 1 i) 0x01000026) h; h; let g : Nat := 0;
      let p : Bool := true; (Live s) ∧ (Alone s g) ∧ ((s.hw.field (grpN p)).upDue = true) ∧ (s.hw.sup.shed = false)) ∧
    (let s : State := stateOf fun h => let h : Hw := { h with fields := [(1, { got := 0xFFFF, stale := false, upDue := true })], sup := {} };
      let h : Hw := h.setReg (fo 1 rLOCK) 0;
      let h : Hw := (List.range 16).foldl (fun h i => h.setReg (chCfg 1 i) 0x01000026) h; h; let g : Nat := 0;
      let p : Bool := true; (Live s) ∧ (Alone s g) ∧ ((s.hw.field (grpN p)).upDue = true) ∧ (s.hw.sup.shed = false)
      ∧ ((s.hw.field (grpN p)).got = 0xFFFF) ∧ ((s.hw.field (grpN p)).uv = false)) ∧
    (let s : State := stateOf fun h => let h : Hw := { h with fields := [(1, { upDue := true, uv := true })], sup := {} };
      let h : Hw := h.setReg (fo 1 rLOCK) 0;
      let h : Hw := (List.range 16).foldl (fun h i => h.setReg (chCfg 1 i) 0x01000026) h; h; let g : Nat := 0;
      let p : Bool := true; (Live s) ∧ (Alone s g) ∧ ((s.hw.field (grpN p)).upDue = true) ∧ (s.hw.sup.shed = false)
      ∧ ((s.hw.field (grpN p)).stale = true) ∧ ((s.hw.field (grpN p)).uv = true)) ∧
    (let s : State := stateOf fun h => let h : Hw := { h with fields := [(1, {})], sup := {} };
      let h : Hw := h.setReg (fo 1 rLOCK) 0;
      let h : Hw := (List.range 16).foldl (fun h i => h.setReg (chCfg 1 i) 0x01000026) h; h; let g : Nat := 0;
      let p : Bool := true; (Live s) ∧ (Alone s g) ∧ ((s.hw.field (grpN p)).upDue = false ∨ s.hw.sup.shed = true)) ∧
    (let s : State := stateOf fun h => let h : Hw := { h with fields := [(1, {})], sup := {} };
      let h : Hw := h.setReg (fo 1 rLOCK) 0;
      let h : Hw := (List.range 16).foldl (fun h i => h.setReg (chCfg 1 i) 0x01000026) h; h; let g : Nat := 20000000;
      let ch : Fin 32 := 29; let first : Nat := 0; (Live s)
      ∧ ((s.hw.field (ch.val / 16)).isOut (ch.val % 16) = false)
      ∧ ((s.hw.field (ch.val / 16)).wb.getLsbD (ch.val % 16) = false)
      ∧ (first + fieldFilt (fld ((s.hw.field (ch.val / 16)).word (ch.val % 16)) 3 1) ≤ max s.hw.grain g)) ∧
    (let s : State := stateOf fun h => let h : Hw := { h with fields := [(1, { wb := 0xFFFF })], sup := {} };
      let h : Hw := h.setReg (fo 1 rLOCK) 0;
      let h : Hw := (List.range 16).foldl (fun h i => h.setReg (chCfg 1 i) 0x01000026) h; h; let g : Nat := 0;
      let ch : Fin 32 := 29; let first : Nat := 0; (Live s)
      ∧ ((s.hw.field (ch.val / 16)).isOut (ch.val % 16) = true ∨ (s.hw.field (ch.val / 16)).wb.getLsbD (ch.val % 16) = true ∨ max s.hw.grain g < first + fieldFilt (fld ((s.hw.field (ch.val / 16)).word (ch.val % 16)) 3 1))) ∧
    (let s : State := stateOf fun h => let h : Hw := { h with fields := [(1, {})], sup := {} };
      let h : Hw := h.setReg (fo 1 rLOCK) 0;
      let h : Hw := (List.range 16).foldl (fun h i => h.setReg (chCfg 1 i) 0x01000026) h; h; let ch : Fin 32 := 29;
      let len : Nat := 0; (Live s) ∧ ((s.hw.field (ch.val / 16)).isOut (ch.val % 16) = false)
      ∧ (len < fieldFilt (fld ((s.hw.field (ch.val / 16)).word (ch.val % 16)) 3 1))) ∧
    (let s : State := stateOf fun h => let h : Hw := { h with fields := [(1, {})], sup := {} };
      let h : Hw := h.setReg (fo 1 rLOCK) 0;
      let h : Hw := (List.range 16).foldl (fun h i => h.setReg (chCfg 1 i) 0x01000026) h; h; let ch : Fin 32 := 29;
      let len : Nat := 50000000; (Live s)
      ∧ ((s.hw.field (ch.val / 16)).isOut (ch.val % 16) = true ∨ fieldFilt (fld ((s.hw.field (ch.val / 16)).word (ch.val % 16)) 3 1) ≤ len)) ∧
    (let s : State := stateOf fun h => let h : Hw := { h with fields := [(1, { cfg := [(13, 0x10)] })], sup := {} };
      let h : Hw := h.setReg (fo 1 rLOCK) 0;
      let h : Hw := (List.range 16).foldl (fun h i => h.setReg (chCfg 1 i) 0x01000026) h; h; let g : Nat := 20000000;
      let ch : Fin 32 := 29; let first : Nat := 0; (Live s)
      ∧ (bitOf ((s.hw.field (ch.val / 16)).word (ch.val % 16)) 4 = true)
      ∧ ((s.hw.field (ch.val / 16)).isOut (ch.val % 16) = false)
      ∧ (first + fieldFilt (fld ((s.hw.field (ch.val / 16)).word (ch.val % 16)) 3 1) ≤ max s.hw.grain g)) ∧
    (let s : State := stateOf fun h => let h : Hw := { h with fields := [(1, {})], sup := {} };
      let h : Hw := h.setReg (fo 1 rLOCK) 0;
      let h : Hw := (List.range 16).foldl (fun h i => h.setReg (chCfg 1 i) 0x01000026) h; h; let g : Nat := 0;
      let ch : Fin 32 := 29; let first : Nat := 0; (Live s)
      ∧ (bitOf ((s.hw.field (ch.val / 16)).word (ch.val % 16)) 4 = false ∨ (s.hw.field (ch.val / 16)).isOut (ch.val % 16) = true ∨ max s.hw.grain g < first + fieldFilt (fld ((s.hw.field (ch.val / 16)).word (ch.val % 16)) 3 1))) ∧
    (let s : State := stateOf fun h => let h : Hw := { h with fields := [(1, {})], sup := {} };
      let h : Hw := h.setReg (fo 1 rLOCK) 0;
      let h : Hw := (List.range 16).foldl (fun h i => h.setReg (chCfg 1 i) 0x01000026) h; h; let g : Nat := 20000000;
      let ch : Fin 32 := 29; let first : Nat := 0; (Live s)
      ∧ (first + fieldFilt (fld ((s.hw.field (ch.val / 16)).word (ch.val % 16)) 3 1) ≤ max s.hw.grain g)) ∧
    (let s : State := stateOf fun h => let h : Hw := { h with fields := [(1, {})], sup := {} };
      let h : Hw := h.setReg (fo 1 rLOCK) 0;
      let h : Hw := (List.range 16).foldl (fun h i => h.setReg (chCfg 1 i) 0x01000026) h; h; let g : Nat := 0;
      let ch : Fin 32 := 29; let first : Nat := 5; (Live s)
      ∧ (max s.hw.grain g < first + fieldFilt (fld ((s.hw.field (ch.val / 16)).word (ch.val % 16)) 3 1))) ∧
    (let s : State := stateOf fun h => let h : Hw := { h with fields := [(1, { cfg := [(13, 1)], req := 0xFFFF, outEn := true })], sup := {} };
      let h : Hw := h.setReg (fo 1 rLOCK) 0;
      let h : Hw := (List.range 16).foldl (fun h i => h.setReg (chCfg 1 i) 0x01000026) h; h; let ch : Fin 32 := 29;
      (Live s) ∧ ((s.hw.field (ch.val / 16)).drives (ch.val % 16) = true)) ∧
    (let s : State := stateOf fun h => let h : Hw := { h with fields := [(1, {})], sup := {} };
      let h : Hw := h.setReg (fo 1 rLOCK) 0;
      let h : Hw := (List.range 16).foldl (fun h i => h.setReg (chCfg 1 i) 0x01000026) h; h; let ch : Fin 32 := 29;
      (Live s) ∧ ((s.hw.field (ch.val / 16)).drives (ch.val % 16) = false)) ∧
    (let s : State := ({} : State); (Live s)) ∧
    (let s : State := stateOf fun h => let h : Hw := { h with fields := [(1, {})], sup := {} };
      let h : Hw := h.setReg (fo 1 rLOCK) 0;
      let h : Hw := (List.range 16).foldl (fun h i => h.setReg (chCfg 1 i) 0x01000026) h;
      let h : Hw := h.setReg (fo 1 0x098) 0x20000000; h; let g : Nat := 0; let p : Bool := true;
      let v : BitVec 16 := 0x2000; let i : Nat := 13; (Live s) ∧ (Alone s g) ∧ (Unlocked s (pFIO (grpN p)))
      ∧ (v.getLsbD i = true) ∧ (s.hw.bit (fo (grpN p) 0x098) i = false)
      ∧ ((s.hw.field (grpN p)).shut.getLsbD i = false) ∧ (i < 16)) ∧
    (let s : State := stateOf fun h => let h : Hw := { h with fields := [(1, { shut := 0x2000 })], sup := {} };
      let h : Hw := h.setReg (fo 1 rLOCK) 0;
      let h : Hw := (List.range 16).foldl (fun h i => h.setReg (chCfg 1 i) 0x01000026) h;
      let h : Hw := h.setReg (fo 1 0x098) 0x20000000; h; let g : Nat := 0; let p : Bool := true; let i : Nat := 13;
      (Live s) ∧ (Alone s g) ∧ (Unlocked s (pFIO (grpN p)))
      ∧ (s.hw.bit (fo (grpN p) 0x098) i = true ∨ (s.hw.field (grpN p)).shut.getLsbD i = true) ∧ (i < 16)) ∧
    (let s : State := stateOf fun h => let h : Hw := { h with fields := [(1, {})], sup := {} };
      let h : Hw := h.setReg (fo 1 rLOCK) 0;
      let h : Hw := (List.range 16).foldl (fun h i => h.setReg (chCfg 1 i) 0x01000026) h; h; let p : Bool := true;
      (Live s) ∧ (Unlocked s (pFIO (grpN p)))) ∧
    (let s : State := stateOf fun h => let h : Hw := { h with fields := [(1, {})], sup := {} };
      let h : Hw := h.setReg (fo 1 rLOCK) 0;
      let h : Hw := (List.range 16).foldl (fun h i => h.setReg (chCfg 1 i) 0x01000026) h; h; let p : Bool := true;
      (Live s) ∧ (Unlocked s (pFIO (grpN p)))) ∧
    (let s : State := stateOf fun h => let h : Hw := { h with fields := [(1, { pulses := [(13, (1, 5))] })], sup := {} };
      let h : Hw := h.setReg (fo 1 rLOCK) 0;
      let h : Hw := (List.range 16).foldl (fun h i => h.setReg (chCfg 1 i) 0x01000026) h; h; let g : Nat := 13;
      let ch : Fin 32 := 29; (Live s)
      ∧ ((tabGet (0, 0) (ch.val % 16) (s.hw.field (ch.val / 16)).pulses).2 + 8 ≤ max s.hw.grain g)) ∧
    (let s : State := stateOf fun h => let h : Hw := { h with fields := [(1, { pulses := [(13, (1, 5))] })], sup := {} };
      let h : Hw := h.setReg (fo 1 rLOCK) 0;
      let h : Hw := (List.range 16).foldl (fun h i => h.setReg (chCfg 1 i) 0x01000026) h; h; let g : Nat := 12;
      let ch : Fin 32 := 29; (Live s)
      ∧ (max s.hw.grain g < (tabGet (0, 0) (ch.val % 16) (s.hw.field (ch.val / 16)).pulses).2 + 8)) ∧
    (let s : State := ({} : State); let g : Nat := 50000; let first : Nat := 0; (Live s)
      ∧ (first + 50000 ≤ max s.hw.grain g)) ∧
    (let s : State := ({} : State); let g : Nat := 0; let first : Nat := 0; (Live s)
      ∧ (max s.hw.grain g < first + 50000)) ∧
    (let s : State := ({} : State); let g : Nat := 50000; let first : Nat := 0; (Live s)
      ∧ (first + 50000 ≤ max s.hw.grain g)) ∧
    (let s : State := ({} : State); let g : Nat := 0; let first : Nat := 0; (Live s)
      ∧ (max s.hw.grain g < first + 50000)) ∧
    (let s : State := ({} : State); let g : Nat := 5000000; let first : Nat := 0; (Live s)
      ∧ (first + 5000000 ≤ max s.hw.grain g)) ∧
    (let s : State := ({} : State); let g : Nat := 0; let first : Nat := 0; (Live s)
      ∧ (max s.hw.grain g < first + 5000000)) ∧
    (let s : State := stateOf fun h => let h : Hw := { h with fields := [(1, { stale := false })], sup := {} };
      let h : Hw := h.setReg (fo 1 rLOCK) 0;
      let h : Hw := (List.range 16).foldl (fun h i => h.setReg (chCfg 1 i) 0x01000026) h; h; let g : Nat := 2000;
      let p : Bool := true; (Live s)
      ∧ ((s.hw.field (grpN p)).upAt + 500 * max 1 (s.hw.f (fo (grpN p) 0x0A8) 7 0) ≤ max s.hw.grain g)
      ∧ ((s.hw.field (grpN p)).stale = false)) ∧
    (let s : State := stateOf fun h => let h : Hw := { h with fields := [(1, {})], sup := {} };
      let h : Hw := h.setReg (fo 1 rLOCK) 0;
      let h : Hw := (List.range 16).foldl (fun h i => h.setReg (chCfg 1 i) 0x01000026) h; h; let g : Nat := 0;
      let p : Bool := true; (Live s)
      ∧ ((s.hw.field (grpN p)).stale = true ∨ max s.hw.grain g < (s.hw.field (grpN p)).upAt + 500 * max 1 (s.hw.f (fo (grpN p) 0x0A8) 7 0))) ∧
    (let s : State := stateOf fun h => let h : Hw := { h with fields := [(1, {})], sup := {} };
      let h : Hw := h.setReg (fo 1 rLOCK) 0;
      let h : Hw := (List.range 16).foldl (fun h i => h.setReg (chCfg 1 i) 0x01000026) h; h; let g : Nat := 8000;
      let p : Bool := true; (Live s) ∧ ((s.hw.field (grpN p)).dnAt + 8000 ≤ max s.hw.grain g)) ∧
    (let s : State := stateOf fun h => let h : Hw := { h with fields := [(1, {})], sup := {} };
      let h : Hw := h.setReg (fo 1 rLOCK) 0;
      let h : Hw := (List.range 16).foldl (fun h i => h.setReg (chCfg 1 i) 0x01000026) h; h; let g : Nat := 0;
      let p : Bool := true; (Live s) ∧ (max s.hw.grain g < (s.hw.field (grpN p)).dnAt + 8000)) := by
  refine ⟨?_, ?_, ?_, ?_, ?_, ?_, ?_, ?_, ?_, ?_, ?_, ?_, ?_, ?_, ?_, ?_, ?_, ?_, ?_, ?_, ?_, ?_, ?_, ?_, ?_, ?_, ?_, ?_, ?_, ?_, ?_, ?_, ?_, ?_⟩ <;> decide

theorem witness_pairOwnership :
    (let s : State := stateOf fun h => let h : Hw := ((h.setReg (pr rSTAT) 0).setReg (pr 0x040) 0x00081001).setReg (pr rREADY) 4;
      let h : Hw := (h.setReg (sy 0x040) 3).setReg (pr rLOCK) 0;
      let h : Hw := { h with pair := { claimDue := true } };
      let h : Hw := { h with clk := { h.clk with ctBaseGrain := 0, ctBase := 0, ctInc := 2 ^ 33, past := [], nextB := 2500 }, legs := [], ax := [] };
      let h : Hw := (h.setReg (ck 0x048) 2500); h; (Live s) ∧ (s.hw.pair.claimDue = true)) ∧
    (let s : State := stateOf fun h => let h : Hw := ((h.setReg (pr rSTAT) 0).setReg (pr 0x040) 0x00081001).setReg (pr rREADY) 4;
      let h : Hw := (h.setReg (sy 0x040) 3).setReg (pr rLOCK) 0;
      let h : Hw := { h with pair := { claimDue := true } };
      let h : Hw := { h with clk := { h.clk with ctBaseGrain := 0, ctBase := 0, ctInc := 2 ^ 33, past := [], nextB := 2500 }, legs := [], ax := [] };
      let h : Hw := (h.setReg (ck 0x048) 2500); h; let g : Nat := 9; (Live s) ∧ (s.hw.pair.claimDue = true)
      ∧ (s.hw.sys.modeGrain < max s.hw.grain g) ∧ (s.hw.mode = mSTANDBY ∨ s.hw.mode = mRUN) ∧ (s.hw.paired = true)) ∧
    (let s : State := stateOf fun h => let h : Hw := ((h.setReg (pr rSTAT) 0).setReg (pr 0x040) 0x00081001).setReg (pr rREADY) 4;
      let h : Hw := (h.setReg (sy 0x040) 3).setReg (pr rLOCK) 0; let h : Hw := { h with pair := {} };
      let h : Hw := { h with clk := { h.clk with ctBaseGrain := 0, ctBase := 0, ctInc := 2 ^ 33, past := [], nextB := 2500 }, legs := [], ax := [] };
      let h : Hw := (h.setReg (ck 0x048) 2500); h; (Live s) ∧ (s.hw.pair.claimDue = false)) ∧
    (let s : State := stateOf fun h => let h : Hw := ((h.setReg (pr rSTAT) 0).setReg (pr 0x040) 0x00081001).setReg (pr rREADY) 4;
      let h : Hw := (h.setReg (sy 0x040) 3).setReg (pr rLOCK) 0;
      let h : Hw := { h with pair := { claim := some 5 } };
      let h : Hw := { h with clk := { h.clk with ctBaseGrain := 0, ctBase := 0, ctInc := 2 ^ 33, past := [], nextB := 2500 }, legs := [], ax := [] };
      let h : Hw := (h.setReg (ck 0x048) 2500); let h : Hw := h.setReg (pr 0x044) 0x20000; h; let g : Nat := 1000;
      (Live s) ∧ (s.hw.pair.claim ≠ none) ∧ (s.hw.pair.claimAt + 500 * s.hw.f (pr 0x044) 31 16 ≤ max s.hw.grain g)) ∧
    (let s : State := stateOf fun h => let h : Hw := ((h.setReg (pr rSTAT) 0).setReg (pr 0x040) 0x00081001).setReg (pr rREADY) 4;
      let h : Hw := (h.setReg (sy 0x040) 3).setReg (pr rLOCK) 0; let h : Hw := { h with pair := {} };
      let h : Hw := { h with clk := { h.clk with ctBaseGrain := 0, ctBase := 0, ctInc := 2 ^ 33, past := [], nextB := 2500 }, legs := [], ax := [] };
      let h : Hw := (h.setReg (ck 0x048) 2500); h; let g : Nat := 0; (Live s)
      ∧ (s.hw.pair.claim = none ∨ max s.hw.grain g < s.hw.pair.claimAt + 500 * s.hw.f (pr 0x044) 31 16)) ∧
    (let s : State := stateOf fun h => let h : Hw := ((h.setReg (pr rSTAT) 0).setReg (pr 0x040) 0x00081001).setReg (pr rREADY) 4;
      let h : Hw := (h.setReg (sy 0x040) 3).setReg (pr rLOCK) 0;
      let h : Hw := { h with pair := { claim := some 5 } };
      let h : Hw := { h with clk := { h.clk with ctBaseGrain := 0, ctBase := 0, ctInc := 2 ^ 33, past := [], nextB := 2500 }, legs := [], ax := [] };
      let h : Hw := (h.setReg (ck 0x048) 2500); h;
      let f : MoladHdr := ⟨true, true, false, false, false, false, 7, 5⟩; let c : Nat := 5; (Live s)
      ∧ (s.hw.pair.rxSeqs.contains f.seq.toNat = false) ∧ (s.hw.pair.claim = some c) ∧ (c < f.stamp ∨ (c = f.stamp
      ∧ s.hw.pStat 9 = false))) ∧
    (let s : State := stateOf fun h => let h : Hw := ((h.setReg (pr rSTAT) 0x200).setReg (pr 0x040) 0x00081001).setReg (pr rREADY) 4;
      let h : Hw := (h.setReg (sy 0x040) 3).setReg (pr rLOCK) 0;
      let h : Hw := { h with pair := { claim := some 5 } };
      let h : Hw := { h with clk := { h.clk with ctBaseGrain := 0, ctBase := 0, ctInc := 2 ^ 33, past := [], nextB := 2500 }, legs := [], ax := [] };
      let h : Hw := (h.setReg (ck 0x048) 2500); h; let g : Nat := 9;
      let f : MoladHdr := ⟨true, true, false, false, false, false, 7, 5⟩; let c : Nat := 5; (Live s)
      ∧ (s.hw.pair.rxSeqs.contains f.seq.toNat = false) ∧ (s.hw.pair.claim = some c) ∧ (f.stamp < c ∨ (c = f.stamp
      ∧ s.hw.pStat 9 = true)) ∧ (s.hw.sys.modeGrain < max s.hw.grain g) ∧ (s.hw.mode = mSTANDBY ∨ s.hw.mode = mRUN)
      ∧ (s.hw.paired = true)) ∧
    (let s : State := stateOf fun h => let h : Hw := ((h.setReg (pr rSTAT) 0x201).setReg (pr 0x040) 0x00081001).setReg (pr rREADY) 4;
      let h : Hw := (h.setReg (sy 0x040) 3).setReg (pr rLOCK) 0; let h : Hw := { h with pair := {} };
      let h : Hw := { h with clk := { h.clk with ctBaseGrain := 0, ctBase := 0, ctInc := 2 ^ 33, past := [], nextB := 2500 }, legs := [], ax := [] };
      let h : Hw := (h.setReg (ck 0x048) 2500); h; let g : Nat := 9; (Live s) ∧ (s.hw.pStat 0 = true)
      ∧ (s.hw.pStat 8 = false) ∧ (s.hw.pStat 9 = true) ∧ (s.hw.sys.modeGrain < max s.hw.grain g)
      ∧ (s.hw.mode = mSTANDBY ∨ s.hw.mode = mRUN)) ∧
    (let s : State := stateOf fun h => let h : Hw := ((h.setReg (pr rSTAT) 1).setReg (pr 0x040) 0x00081001).setReg (pr rREADY) 4;
      let h : Hw := (h.setReg (sy 0x040) 3).setReg (pr rLOCK) 0; let h : Hw := { h with pair := {} };
      let h : Hw := { h with clk := { h.clk with ctBaseGrain := 0, ctBase := 0, ctInc := 2 ^ 33, past := [], nextB := 2500 }, legs := [], ax := [] };
      let h : Hw := (h.setReg (ck 0x048) 2500); h; (Live s)
      ∧ (s.hw.pStat 0 = false ∨ s.hw.pStat 8 = true ∨ s.hw.pStat 9 = false)) ∧
    (let s : State := stateOf fun h => let h : Hw := ((h.setReg (pr rSTAT) 6).setReg (pr 0x040) 0x00081001).setReg (pr rREADY) 4;
      let h : Hw := (h.setReg (sy 0x040) 4).setReg (pr rLOCK) 0; let h : Hw := { h with pair := {} };
      let h : Hw := { h with clk := { h.clk with ctBaseGrain := 0, ctBase := 0, ctInc := 2 ^ 33, past := [], nextB := 2500 }, legs := [], ax := [] };
      let h : Hw := (h.setReg (ck 0x048) 2500); h; let g : Nat := 9; (Live s) ∧ (s.hw.mode = mSHADOW)
      ∧ (s.hw.pStat 2 = true) ∧ (s.hw.pair.hand = none) ∧ (s.hw.sys.modeGrain < max s.hw.grain g)) ∧
    (let s : State := stateOf fun h => let h : Hw := ((h.setReg (pr rSTAT) 2).setReg (pr 0x040) 0x00081001).setReg (pr rREADY) 4;
      let h : Hw := (h.setReg (sy 0x040) 4).setReg (pr rLOCK) 0; let h : Hw := { h with pair := {} };
      let h : Hw := { h with clk := { h.clk with ctBaseGrain := 0, ctBase := 0, ctInc := 2 ^ 33, past := [], nextB := 2500 }, legs := [], ax := [] };
      let h : Hw := (h.setReg (ck 0x048) 2500); h; let g : Nat := 9; (Live s) ∧ (s.hw.mode = mSHADOW)
      ∧ (s.hw.pStat 2 = false) ∧ (s.hw.pair.hand = none) ∧ (s.hw.sys.modeGrain < max s.hw.grain g)) ∧
    (let s : State := stateOf fun h => let h : Hw := ((h.setReg (pr rSTAT) 0x103).setReg (pr 0x040) 0x00081001).setReg (pr rREADY) 4;
      let h : Hw := (h.setReg (sy 0x040) 3).setReg (pr rLOCK) 0;
      let h : Hw := { h with pair := { hand := some (40, true, true) } };
      let h : Hw := { h with clk := { h.clk with ctBaseGrain := 0, ctBase := 0, ctInc := 2 ^ 33, past := [], nextB := 2500 }, legs := [], ax := [] };
      let h : Hw := (h.setReg (ck 0x048) 2500); h; let c : Nat := 40; (Live s) ∧ (s.hw.mode = mRUN)
      ∧ (s.hw.pStat 0 = true) ∧ (s.hw.pStat 1 = true) ∧ (s.hw.pair.hand = some (c, true, true))) ∧
    (let s : State := stateOf fun h => let h : Hw := ((h.setReg (pr rSTAT) 3).setReg (pr 0x040) 0x00081001).setReg (pr rREADY) 4;
      let h : Hw := (h.setReg (sy 0x040) 3).setReg (pr rLOCK) 0; let h : Hw := { h with pair := {} };
      let h : Hw := { h with clk := { h.clk with ctBaseGrain := 0, ctBase := 0, ctInc := 2 ^ 33, past := [], nextB := 2500 }, legs := [], ax := [] };
      let h : Hw := (h.setReg (ck 0x048) 2500); h; (Live s) ∧ (s.hw.mode ≠ mSHADOW) ∧ (s.hw.pair.hand = none)) ∧
    (let s : State := stateOf fun h => let h : Hw := ((h.setReg (pr rSTAT) 5).setReg (pr 0x040) 0x00081001).setReg (pr rREADY) 4;
      let h : Hw := (h.setReg (sy 0x040) 3).setReg (pr rLOCK) 0;
      let h : Hw := { h with pair := { partnerMode := 4 } };
      let h : Hw := { h with clk := { h.clk with ctBaseGrain := 0, ctBase := 0, ctInc := 2 ^ 33, past := [], nextB := 2500 }, legs := [], ax := [] };
      let h : Hw := (h.setReg (ck 0x048) 2500); h; (Live s) ∧ (Unlocked s pPAIR) ∧ (s.hw.pStat 0 = true)
      ∧ (s.hw.pair.hand = none) ∧ (s.hw.linkUp = true) ∧ (s.hw.pair.partnerMode = mSHADOW) ∧ (s.hw.pStat 2 = true)
      ∧ (s.hw.pStat 7 = false)) ∧
    (let s : State := stateOf fun h => let h : Hw := ((h.setReg (pr rSTAT) 0).setReg (pr 0x040) 0x00081001).setReg (pr rREADY) 4;
      let h : Hw := (h.setReg (sy 0x040) 3).setReg (pr rLOCK) 0; let h : Hw := { h with pair := {} };
      let h : Hw := { h with clk := { h.clk with ctBaseGrain := 0, ctBase := 0, ctInc := 2 ^ 33, past := [], nextB := 2500 }, legs := [], ax := [] };
      let h : Hw := (h.setReg (ck 0x048) 2500); h; (Live s) ∧ (Unlocked s pPAIR)
      ∧ (s.hw.pStat 0 = false ∨ s.hw.pair.hand ≠ none)) ∧
    (let s : State := stateOf fun h => let h : Hw := ((h.setReg (pr rSTAT) 1).setReg (pr 0x040) 0x00081001).setReg (pr rREADY) 0;
      let h : Hw := (h.setReg (sy 0x040) 3).setReg (pr rLOCK) 0; let h : Hw := { h with pair := {} };
      let h : Hw := { h with clk := { h.clk with ctBaseGrain := 0, ctBase := 0, ctInc := 2 ^ 33, past := [], nextB := 2500 }, legs := [], ax := [] };
      let h : Hw := (h.setReg (ck 0x048) 2500); h; (Live s) ∧ (Unlocked s pPAIR) ∧ (s.hw.pStat 0 = true)
      ∧ (s.hw.pair.hand = none) ∧ (s.hw.linkUp = false)) ∧
    (let s : State := stateOf fun h => let h : Hw := ((h.setReg (pr rSTAT) 1).setReg (pr 0x040) 0x00081001).setReg (pr rREADY) 4;
      let h : Hw := (h.setReg (sy 0x040) 3).setReg (pr rLOCK) 0;
      let h : Hw := { h with pair := { partnerMode := 4 } };
      let h : Hw := { h with clk := { h.clk with ctBaseGrain := 0, ctBase := 0, ctInc := 2 ^ 33, past := [], nextB := 2500 }, legs := [], ax := [] };
      let h : Hw := (h.setReg (ck 0x048) 2500); h; (Live s) ∧ (Unlocked s pPAIR) ∧ (s.hw.pStat 0 = true)
      ∧ (s.hw.pair.hand = none) ∧ (s.hw.linkUp = true) ∧ (s.hw.pair.partnerMode = mSHADOW)
      ∧ (s.hw.pStat 2 = false ∨ s.hw.pStat 7 = true)) ∧
    (let s : State := stateOf fun h => let h : Hw := ((h.setReg (pr rSTAT) 0x101).setReg (pr 0x040) 0x00081001).setReg (pr rREADY) 4;
      let h : Hw := (h.setReg (sy 0x040) 3).setReg (pr rLOCK) 0;
      let h : Hw := { h with pair := { hand := some (2500, true, false) } };
      let h : Hw := { h with clk := { h.clk with ctBaseGrain := 0, ctBase := 0, ctInc := 2 ^ 33, past := [], nextB := 2500 }, legs := [], ax := [] };
      let h : Hw := (h.setReg (ck 0x048) 2500); h; let g : Nat := 0; let tH : Nat := 2500; (Live s)
      ∧ (s.hw.pair.hand = some (tH, true, false)) ∧ (tH ≤ (s.hw.at g).ctGrains (s.hw.at g).grain + s.hw.batch)) ∧
    (let s : State := stateOf fun h => let h : Hw := ((h.setReg (pr rSTAT) 0x101).setReg (pr 0x040) 0x00081001).setReg (pr rREADY) 4;
      let h : Hw := (h.setReg (sy 0x040) 3).setReg (pr rLOCK) 0;
      let h : Hw := { h with pair := { hand := some (2500, true, true) } };
      let h : Hw := { h with clk := { h.clk with ctBaseGrain := 0, ctBase := 0, ctInc := 2 ^ 33, past := [], nextB := 2500 }, legs := [], ax := [] };
      let h : Hw := (h.setReg (ck 0x048) 2500); h; let g : Nat := 0; let tH : Nat := 2500; (Live s)
      ∧ (s.hw.pair.hand = none ∨ s.hw.pair.hand = some (tH, true, true) ∨ s.hw.pair.hand = some (tH, false, true) ∨ (s.hw.pair.hand = some (tH, true, false)
      ∧ (s.hw.at g).ctGrains (s.hw.at g).grain + s.hw.batch < tH))) ∧
    (let s : State := stateOf fun h => let h : Hw := ((h.setReg (pr rSTAT) 0x102).setReg (pr 0x040) 0x00081001).setReg (pr rREADY) 4;
      let h : Hw := (h.setReg (sy 0x040) 4).setReg (pr rLOCK) 0;
      let h : Hw := { h with pair := { hand := some (5, false, true) } };
      let h : Hw := { h with clk := { h.clk with ctBaseGrain := 0, ctBase := 0, ctInc := 2 ^ 33, past := [], nextB := 2500 }, legs := [], ax := [] };
      let h : Hw := (h.setReg (ck 0x048) 2500); h; let g : Nat := 9; let tH : Nat := 5; let acked : Bool := true;
      (Live s) ∧ (s.hw.pair.hand = some (tH, false, acked)) ∧ (tH ≤ (s.hw.at g).ctGrains (s.hw.at g).grain)
      ∧ (s.hw.mode = mSHADOW) ∧ (s.hw.sys.modeGrain < max s.hw.grain g)) ∧
    (let s : State := stateOf fun h => let h : Hw := ((h.setReg (pr rSTAT) 0x102).setReg (pr 0x040) 0x00081001).setReg (pr rREADY) 4;
      let h : Hw := (h.setReg (sy 0x040) 4).setReg (pr rLOCK) 0;
      let h : Hw := { h with pair := { hand := some (2 ^ 40, false, true) } };
      let h : Hw := { h with clk := { h.clk with ctBaseGrain := 0, ctBase := 0, ctInc := 2 ^ 33, past := [], nextB := 2500 }, legs := [], ax := [] };
      let h : Hw := (h.setReg (ck 0x048) 2500); h; let g : Nat := 9; let tH : Nat := 2 ^ 40;
      let acked : Bool := true; (Live s)
      ∧ (s.hw.pair.hand = none ∨ s.hw.pair.hand = some (tH, true, acked) ∨ (s.hw.pair.hand = some (tH, false, acked)
      ∧ (s.hw.at g).ctGrains (s.hw.at g).grain < tH))) ∧
    (let s : State := stateOf fun h => let h : Hw := ((h.setReg (pr rSTAT) 0x101).setReg (pr 0x040) 0x00081001).setReg (pr rREADY) 4;
      let h : Hw := (h.setReg (sy 0x040) 3).setReg (pr rLOCK) 0;
      let h : Hw := { h with pair := { hand := some (5, true, true) } };
      let h : Hw := { h with clk := { h.clk with ctBaseGrain := 0, ctBase := 0, ctInc := 2 ^ 33, past := [], nextB := 2500 }, legs := [], ax := [] };
      let h : Hw := (h.setReg (ck 0x048) 2500); h; let g : Nat := 9999; let tH : Nat := 5; (Live s)
      ∧ (s.hw.pair.hand = some (tH, true, true)) ∧ ((s.hw.at g).handOver tH = true)) ∧
    (let s : State := stateOf fun h => let h : Hw := ((h.setReg (pr rSTAT) 0x101).setReg (pr 0x040) 0x00081001).setReg (pr rREADY) 4;
      let h : Hw := (h.setReg (sy 0x040) 3).setReg (pr rLOCK) 0;
      let h : Hw := { h with pair := { hand := some (5, false, true) } };
      let h : Hw := { h with clk := { h.clk with ctBaseGrain := 0, ctBase := 0, ctInc := 2 ^ 33, past := [], nextB := 2500 }, legs := [], ax := [] };
      let h : Hw := (h.setReg (ck 0x048) 2500); h; let g : Nat := 9999; let tH : Nat := 5; (Live s)
      ∧ (s.hw.pair.hand = some (tH, false, true)) ∧ ((s.hw.at g).handOver tH = true)) ∧
    (let s : State := stateOf fun h => let h : Hw := ((h.setReg (pr rSTAT) 0x101).setReg (pr 0x040) 0x00081001).setReg (pr rREADY) 4;
      let h : Hw := (h.setReg (sy 0x040) 3).setReg (pr rLOCK) 0;
      let h : Hw := { h with pair := { hand := some (5, true, false) } };
      let h : Hw := { h with clk := { h.clk with ctBaseGrain := 0, ctBase := 0, ctInc := 2 ^ 33, past := [], nextB := 2500 }, legs := [], ax := [] };
      let h : Hw := (h.setReg (ck 0x048) 2500); h; let g : Nat := 0; let tH : Nat := 5; let acked : Bool := true;
      (Live s) ∧ (s.hw.pair.hand = none ∨ (s.hw.pair.hand = some (tH, acked, acked)
      ∧ (s.hw.at g).handOver tH = false) ∨ s.hw.pair.hand = some (tH, acked, false))) ∧
    (let s : State := stateOf fun h => let h : Hw := ((h.setReg (pr rSTAT) 0).setReg (pr 0x040) 0x00081001).setReg (pr rREADY) 4;
      let h : Hw := (h.setReg (sy 0x040) 4).setReg (pr rLOCK) 0; let h : Hw := { h with pair := {} };
      let h : Hw := { h with clk := { h.clk with ctBaseGrain := 0, ctBase := 0, ctInc := 2 ^ 33, past := [], nextB := 2500 }, legs := [], ax := [] };
      let h : Hw := (h.setReg (ck 0x048) 2500); h; (Live s) ∧ (Unlocked s pPAIR) ∧ (s.hw.mode = mSHADOW)
      ∧ (s.hw.linkUp = true)) ∧
    (let s : State := stateOf fun h => let h : Hw := ((h.setReg (pr rSTAT) 0).setReg (pr 0x040) 0x00081001).setReg (pr rREADY) 4;
      let h : Hw := (h.setReg (sy 0x040) 3).setReg (pr rLOCK) 0; let h : Hw := { h with pair := {} };
      let h : Hw := { h with clk := { h.clk with ctBaseGrain := 0, ctBase := 0, ctInc := 2 ^ 33, past := [], nextB := 2500 }, legs := [], ax := [] };
      let h : Hw := (h.setReg (ck 0x048) 2500); h; (Live s) ∧ (Unlocked s pPAIR) ∧ (s.hw.mode ≠ mSHADOW)) ∧
    (let s : State := stateOf fun h => let h : Hw := ((h.setReg (pr rSTAT) 0).setReg (pr 0x040) 0x00081001).setReg (pr rREADY) 0;
      let h : Hw := (h.setReg (sy 0x040) 4).setReg (pr rLOCK) 0; let h : Hw := { h with pair := {} };
      let h : Hw := { h with clk := { h.clk with ctBaseGrain := 0, ctBase := 0, ctInc := 2 ^ 33, past := [], nextB := 2500 }, legs := [], ax := [] };
      let h : Hw := (h.setReg (ck 0x048) 2500); h; (Live s) ∧ (Unlocked s pPAIR) ∧ (s.hw.mode = mSHADOW)
      ∧ (s.hw.linkUp = false)) ∧
    (let s : State := stateOf fun h => let h : Hw := ((h.setReg (pr rSTAT) 0).setReg (pr 0x040) 0x00081001).setReg (pr rREADY) 4;
      let h : Hw := (h.setReg (sy 0x040) 4).setReg (pr rLOCK) 0; let h : Hw := { h with pair := {} };
      let h : Hw := { h with clk := { h.clk with ctBaseGrain := 0, ctBase := 0, ctInc := 2 ^ 33, past := [], nextB := 2500 }, legs := [], ax := [] };
      let h : Hw := (h.setReg (ck 0x048) 2500); h; let f : MoladHdr := ⟨true, true, false, false, true, false, 7, 5⟩;
      (Live s) ∧ (s.hw.pair.rxSeqs.contains f.seq.toNat = false) ∧ (f.ack = true) ∧ (s.hw.mode = mSHADOW)) ∧
    (let s : State := stateOf fun h => let h : Hw := ((h.setReg (pr rSTAT) 1).setReg (pr 0x040) 0x00081001).setReg (pr rREADY) 4;
      let h : Hw := (h.setReg (sy 0x040) 3).setReg (pr rLOCK) 0; let h : Hw := { h with pair := {} };
      let h : Hw := { h with clk := { h.clk with ctBaseGrain := 0, ctBase := 0, ctInc := 2 ^ 33, past := [], nextB := 2500 }, legs := [], ax := [] };
      let h : Hw := (h.setReg (ck 0x048) 2500); h;
      let f : MoladHdr := ⟨true, true, false, false, false, false, 7, 5⟩; (Live s)
      ∧ (s.hw.pair.rxSeqs.contains f.seq.toNat = false) ∧ (f.ack = false) ∧ (s.hw.pStat 0 = true)) ∧
    (let s : State := stateOf fun h => let h : Hw := ((h.setReg (pr rSTAT) 0).setReg (pr 0x040) 0x00081001).setReg (pr rREADY) 4;
      let h : Hw := (h.setReg (sy 0x040) 4).setReg (pr rLOCK) 0; let h : Hw := { h with pair := {} };
      let h : Hw := { h with clk := { h.clk with ctBaseGrain := 0, ctBase := 0, ctInc := 2 ^ 33, past := [], nextB := 2500 }, legs := [], ax := [] };
      let h : Hw := (h.setReg (ck 0x048) 2500); h;
      let f : MoladHdr := ⟨true, true, false, false, false, false, 7, 5⟩; (Live s)
      ∧ (s.hw.pair.rxSeqs.contains f.seq.toNat = false) ∧ (f.ack = false) ∧ (s.hw.mode = mSHADOW)) ∧
    (let s : State := stateOf fun h => let h : Hw := ((h.setReg (pr rSTAT) 0x101).setReg (pr 0x040) 0x00081001).setReg (pr rREADY) 4;
      let h : Hw := (h.setReg (sy 0x040) 3).setReg (pr rLOCK) 0;
      let h : Hw := { h with pair := { hand := some (5000, true, false) } };
      let h : Hw := { h with clk := { h.clk with ctBaseGrain := 0, ctBase := 0, ctInc := 2 ^ 33, past := [], nextB := 2500 }, legs := [], ax := [] };
      let h : Hw := (h.setReg (ck 0x048) 2500); h; let g : Nat := 0;
      let f : MoladHdr := ⟨true, true, false, false, true, false, 7, 5⟩; let tH : Nat := 5000;
      let acked : Bool := false; (Live s) ∧ (s.hw.pair.rxSeqs.contains f.seq.toNat = false) ∧ (f.ack = true)
      ∧ (s.hw.pair.hand = some (tH, true, acked)) ∧ ((s.hw.at g).ctGrains (s.hw.at g).grain + s.hw.batch ≤ tH)) ∧
    (let s : State := stateOf fun h => let h : Hw := ((h.setReg (pr rSTAT) 0x101).setReg (pr 0x040) 0x00081001).setReg (pr rREADY) 4;
      let h : Hw := (h.setReg (sy 0x040) 3).setReg (pr rLOCK) 0;
      let h : Hw := { h with pair := { hand := some (2000, true, false) } };
      let h : Hw := { h with clk := { h.clk with ctBaseGrain := 0, ctBase := 0, ctInc := 2 ^ 33, past := [], nextB := 2500 }, legs := [], ax := [] };
      let h : Hw := (h.setReg (ck 0x048) 2500); h; let g : Nat := 0;
      let f : MoladHdr := ⟨true, true, false, false, true, false, 7, 5⟩; let tH : Nat := 2000;
      let acked : Bool := false; (Live s) ∧ (s.hw.pair.rxSeqs.contains f.seq.toNat = false) ∧ (f.ack = true)
      ∧ (s.hw.pair.hand = some (tH, true, acked)) ∧ (tH < (s.hw.at g).ctGrains (s.hw.at g).grain + s.hw.batch)) ∧
    (let s : State := stateOf fun h => let h : Hw := ((h.setReg (pr rSTAT) 1).setReg (pr 0x040) 0x00081001).setReg (pr rREADY) 4;
      let h : Hw := (h.setReg (sy 0x040) 3).setReg (pr rLOCK) 0; let h : Hw := { h with pair := {} };
      let h : Hw := { h with clk := { h.clk with ctBaseGrain := 0, ctBase := 0, ctInc := 2 ^ 33, past := [], nextB := 2500 }, legs := [], ax := [] };
      let h : Hw := (h.setReg (ck 0x048) 2500); h; (Live s) ∧ (s.hw.paired = true)) ∧
    (let s : State := stateOf fun h => let h : Hw := ((h.setReg (pr rSTAT) 1).setReg (pr 0x040) 0x00081001).setReg (pr rREADY) 4;
      let h : Hw := (h.setReg (sy 0x040) 3).setReg (pr rLOCK) 0; let h : Hw := { h with pair := {} };
      let h : Hw := { h with clk := { h.clk with ctBaseGrain := 0, ctBase := 0, ctInc := 2 ^ 33, past := [], nextB := 2500 }, legs := [], ax := [] };
      let h : Hw := (h.setReg (ck 0x048) 2500); let h : Hw := h.setReg (pr 0x040) 0; h; (Live s)
      ∧ (s.hw.paired = false)) ∧
    (let s : State := stateOf fun h => let h : Hw := ((h.setReg (pr rSTAT) 5).setReg (pr 0x040) 0x00081001).setReg (pr rREADY) 4;
      let h : Hw := (h.setReg (sy 0x040) 3).setReg (pr rLOCK) 0;
      let h : Hw := { h with pair := { partnerMode := 4 } };
      let h : Hw := { h with clk := { h.clk with ctBaseGrain := 0, ctBase := 0, ctInc := 2 ^ 33, past := [], nextB := 2500 }, legs := [], ax := [] };
      let h : Hw := (h.setReg (ck 0x048) 2500); h; (Live s) ∧ (s.hw.pStat 0 = true)
      ∧ (s.hw.pair.partnerMode = mSHADOW) ∧ (s.hw.pStat 2 = true) ∧ (s.hw.pStat 7 = false) ∧ (s.hw.linkUp = true)
      ∧ (s.hw.pair.hand = none)) ∧
    (let s : State := stateOf fun h => let h : Hw := ((h.setReg (pr rSTAT) 0).setReg (pr 0x040) 0x00081001).setReg (pr rREADY) 4;
      let h : Hw := (h.setReg (sy 0x040) 3).setReg (pr rLOCK) 0; let h : Hw := { h with pair := {} };
      let h : Hw := { h with clk := { h.clk with ctBaseGrain := 0, ctBase := 0, ctInc := 2 ^ 33, past := [], nextB := 2500 }, legs := [], ax := [] };
      let h : Hw := (h.setReg (ck 0x048) 2500); h; (Live s)
      ∧ (s.hw.pStat 0 = false ∨ s.hw.pair.hand ≠ none ∨ s.hw.linkUp = false)) ∧
    (let s : State := stateOf fun h => let h : Hw := ((h.setReg (pr rSTAT) 0x41).setReg (pr 0x040) 0x00081001).setReg (pr rREADY) 4;
      let h : Hw := (h.setReg (sy 0x040) 3).setReg (pr rLOCK) 0; let h : Hw := { h with pair := {} };
      let h : Hw := { h with clk := { h.clk with ctBaseGrain := 0, ctBase := 0, ctInc := 2 ^ 33, past := [], nextB := 2500 }, legs := [], ax := [] };
      let h : Hw := (h.setReg (ck 0x048) 2500); h; (Live s)) ∧
    (let s : State := stateOf fun h => let h : Hw := ((h.setReg (pr rSTAT) 0).setReg (pr 0x040) 0x00081001).setReg (pr rREADY) 4;
      let h : Hw := (h.setReg (sy 0x040) 4).setReg (pr rLOCK) 0; let h : Hw := { h with pair := {} };
      let h : Hw := { h with clk := { h.clk with ctBaseGrain := 0, ctBase := 0, ctInc := 2 ^ 33, past := [], nextB := 2500 }, legs := [], ax := [] };
      let h : Hw := (h.setReg (ck 0x048) 2500); let h : Hw := h.setReg (axr 4 rLOCK) 0; h; let a : Fin 32 := 4;
      (Live s) ∧ (Unlocked s (pAX a)) ∧ (s.hw.mirrorOn = true) ∧ (s.hw.mode = mSHADOW)) ∧
    (let s : State := stateOf fun h => let h : Hw := ((h.setReg (pr rSTAT) 1).setReg (pr 0x040) 0x00081001).setReg (pr rREADY) 4;
      let h : Hw := (h.setReg (sy 0x040) 3).setReg (pr rLOCK) 0; let h : Hw := { h with pair := {} };
      let h : Hw := { h with clk := { h.clk with ctBaseGrain := 0, ctBase := 0, ctInc := 2 ^ 33, past := [], nextB := 2500 }, legs := [], ax := [] };
      let h : Hw := (h.setReg (ck 0x048) 2500); let h : Hw := h.setReg (axr 4 rLOCK) 0; h; let a : Fin 32 := 4;
      (Live s) ∧ (Unlocked s (pAX a)) ∧ (s.hw.mirrorOn = true) ∧ (s.hw.mode ≠ mSHADOW) ∧ (s.hw.pStat 0 = true)) := by
  refine ⟨?_, ?_, ?_, ?_, ?_, ?_, ?_, ?_, ?_, ?_, ?_, ?_, ?_, ?_, ?_, ?_, ?_, ?_, ?_, ?_, ?_, ?_, ?_, ?_, ?_, ?_, ?_, ?_, ?_, ?_, ?_, ?_, ?_, ?_, ?_, ?_, ?_, ?_, ?_⟩ <;> decide

set_option maxRecDepth 100000 in
theorem witness_pairLinkAndSynchronisation :
    (let s : State := stateOf fun h => let h : Hw := ((h.setReg (pr rSTAT) 0).setReg (pr 0x040) 0x00081001).setReg (pr rREADY) 4;
      let h : Hw := (h.setReg (sy 0x040) 3).setReg (pr rLOCK) 0;
      let h : Hw := { h with pair := { queue := [⟨5, true, 0x28000040, [7]⟩] } };
      let h : Hw := { h with clk := { h.clk with ctBaseGrain := 0, ctBase := 0, ctInc := 2 ^ 33, past := [], nextB := 2500 }, legs := [], ax := [] };
      let h : Hw := (h.setReg (ck 0x048) 2500); h; let d : Nat := 5; let addr : Nat := 0x28000040; let v : Word := 7;
      let rest : List MirrorW := []; (Live s) ∧ (Settled s) ∧ (s.hw.pair.queue = ⟨d, true, addr, [v]⟩ :: rest)) ∧
    (let s : State := stateOf fun h => let h : Hw := ((h.setReg (pr rSTAT) 0).setReg (pr 0x040) 0x00081001).setReg (pr rREADY) 4;
      let h : Hw := (h.setReg (sy 0x040) 3).setReg (pr rLOCK) 0;
      let h : Hw := { h with pair := { queue := [⟨5, false, 0x40000000 + ra (pAX 4) 0x044, [2]⟩] } };
      let h : Hw := { h with clk := { h.clk with ctBaseGrain := 0, ctBase := 0, ctInc := 2 ^ 33, past := [], nextB := 2500 }, legs := [], ax := [] };
      let h : Hw := (h.setReg (ck 0x048) 2500); let h : Hw := h.setReg (axr 4 rSTAT) 1;
      let h : Hw := (h.setReg (axr 4 0x0A4) 0).setReg (axr 4 0x040) 0x093F; h; let g : Nat := 9; let d : Nat := 5;
      let a : Fin 32 := 4; let rest : List MirrorW := []; (Live s) ∧ (Settled s)
      ∧ (s.hw.pair.queue = ⟨d, false, 0x40000000 + ra (pAX a) 0x044, [2]⟩ :: rest) ∧ (s.hw.pair.behind = none)
      ∧ (d ≤ (s.hw.at g).ctGrains (s.hw.at g).grain) ∧ (s.hw.axState a = sSTARTING)) ∧
    (let s : State := stateOf fun h => let h : Hw := ((h.setReg (pr rSTAT) 0).setReg (pr 0x040) 0x00081001).setReg (pr rREADY) 4;
      let h : Hw := (h.setReg (sy 0x040) 3).setReg (pr rLOCK) 0; let h : Hw := { h with pair := {} };
      let h : Hw := { h with clk := { h.clk with ctBaseGrain := 0, ctBase := 0, ctInc := 2 ^ 33, past := [], nextB := 2500 }, legs := [], ax := [] };
      let h : Hw := (h.setReg (ck 0x048) 2500); h; let g : Nat := 0; let d : Nat := 0; let addr : Nat := 0;
      let ws : List Word := default; let rest : List MirrorW := default; (Live s) ∧ (Settled s)
      ∧ (s.hw.pair.queue = [] ∨ (s.hw.pair.queue = ⟨d, false, addr, ws⟩ :: rest
      ∧ (s.hw.at g).ctGrains (s.hw.at g).grain < d))) ∧
    (let s : State := stateOf fun h => let h : Hw := ((h.setReg (pr rSTAT) 0).setReg (pr 0x040) 0x00081001).setReg (pr rREADY) 4;
      let h : Hw := (h.setReg (sy 0x040) 3).setReg (pr rLOCK) 0; let h : Hw := { h with pair := {} };
      let h : Hw := { h with clk := { h.clk with ctBaseGrain := 0, ctBase := 0, ctInc := 2 ^ 33, past := [], nextB := 2500 }, legs := [], ax := [] };
      let h : Hw := (h.setReg (ck 0x048) 2500); h;
      let f : MoladHdr := ⟨true, true, false, false, false, false, 7, 5⟩; (Live s) ∧ (Settled s)
      ∧ (s.hw.pair.rxSeqs.contains f.seq.toNat = false)) ∧
    (let s : State := stateOf fun h => let h : Hw := ((h.setReg (pr rSTAT) 0).setReg (pr 0x040) 0x00081001).setReg (pr rREADY) 4;
      let h : Hw := (h.setReg (sy 0x040) 3).setReg (pr rLOCK) 0; let h : Hw := { h with pair := { rxSeqs := [7] } };
      let h : Hw := { h with clk := { h.clk with ctBaseGrain := 0, ctBase := 0, ctInc := 2 ^ 33, past := [], nextB := 2500 }, legs := [], ax := [] };
      let h : Hw := (h.setReg (ck 0x048) 2500); h;
      let f : MoladHdr := ⟨true, true, false, false, false, false, 7, 5⟩; (Live s) ∧ (Settled s)
      ∧ (s.hw.pair.rxSeqs.contains f.seq.toNat = true)) ∧
    (let s : State := stateOf fun h => let h : Hw := ((h.setReg (pr rSTAT) 0).setReg (pr 0x040) 0x00081001).setReg (pr rREADY) 4;
      let h : Hw := (h.setReg (sy 0x040) 3).setReg (pr rLOCK) 0;
      let h : Hw := { h with pair := { helloAt := some 0 } };
      let h : Hw := { h with clk := { h.clk with ctBaseGrain := 0, ctBase := 0, ctInc := 2 ^ 33, past := [], nextB := 2500 }, legs := [], ax := [] };
      let h : Hw := (h.setReg (ck 0x048) 2500); h; let g : Nat := 0; (Live s) ∧ (Settled s)
      ∧ (s.hw.pair.helloAt.any (fun k => decide (max s.hw.grain g < k + 1000)) = true)) ∧
    (let s : State := stateOf fun h => let h : Hw := ((h.setReg (pr rSTAT) 0).setReg (pr 0x040) 0x00081001).setReg (pr rREADY) 4;
      let h : Hw := (h.setReg (sy 0x040) 3).setReg (pr rLOCK) 0; let h : Hw := { h with pair := {} };
      let h : Hw := { h with clk := { h.clk with ctBaseGrain := 0, ctBase := 0, ctInc := 2 ^ 33, past := [], nextB := 2500 }, legs := [], ax := [] };
      let h : Hw := (h.setReg (ck 0x048) 2500); h; let g : Nat := 0; (Live s) ∧ (Settled s)
      ∧ (s.hw.pair.cfgStale = false)
      ∧ (s.hw.pair.helloAt.all (fun k => decide (k + 1000 ≤ max s.hw.grain g)) = true)) ∧
    (let s : State := stateOf fun h => let h : Hw := ((h.setReg (pr rSTAT) 0).setReg (pr 0x040) 0x00081001).setReg (pr rREADY) 4;
      let h : Hw := (h.setReg (sy 0x040) 3).setReg (pr rLOCK) 0;
      let h : Hw := { h with pair := { own := [(5000, 9)], synced := true, matchRun := 15 } };
      let h : Hw := { h with clk := { h.clk with ctBaseGrain := 0, ctBase := 0, ctInc := 2 ^ 33, past := [], nextB := 2500 }, legs := [], ax := [] };
      let h : Hw := (h.setReg (ck 0x048) 2500); h;
      let f : MoladHdr := ⟨true, true, false, false, false, false, 7, 5⟩; let inst : Nat := 5000;
      let hash : Word := 9; (Live s) ∧ (Settled s) ∧ (s.hw.pair.rxSeqs.contains f.seq.toNat = false)
      ∧ (s.hw.pair.own = [(inst, hash)]) ∧ (s.hw.pair.peer = [])) ∧
    (let s : State := stateOf fun h => let h : Hw := ((h.setReg (pr rSTAT) 4).setReg (pr 0x040) 0x00081001).setReg (pr rREADY) 4;
      let h : Hw := (h.setReg (sy 0x040) 3).setReg (pr rLOCK) 0;
      let h : Hw := { h with pair := { own := [(5000, 9)], matchRun := 15 } };
      let h : Hw := { h with clk := { h.clk with ctBaseGrain := 0, ctBase := 0, ctInc := 2 ^ 33, past := [], nextB := 2500 }, legs := [], ax := [] };
      let h : Hw := (h.setReg (ck 0x048) 2500); h;
      let f : MoladHdr := ⟨true, true, false, false, false, false, 7, 5⟩; let inst : Nat := 5000; let c : Word := 9;
      let hash : Word := 8; (Live s) ∧ (Settled s) ∧ (s.hw.pair.rxSeqs.contains f.seq.toNat = false)
      ∧ (s.hw.pair.own = [(inst, c)]) ∧ (c ≠ hash) ∧ (s.hw.pair.peer = [])) ∧
    (let s : State := stateOf fun h => let h : Hw := ((h.setReg (pr rSTAT) 0).setReg (pr 0x040) 0x00081001).setReg (pr rREADY) 4;
      let h : Hw := (h.setReg (sy 0x040) 3).setReg (pr rLOCK) 0;
      let h : Hw := { h with pair := { own := [(500, 9)] } };
      let h : Hw := { h with clk := { h.clk with ctBaseGrain := 0, ctBase := 0, ctInc := 2 ^ 33, past := [], nextB := 2500 }, legs := [], ax := [] };
      let h : Hw := (h.setReg (ck 0x048) 2500); let h : Hw := { h with clk := { h.clk with nextB := 5000 } }; h;
      let g : Nat := 9000; let inst : Nat := 500; let c : Word := 9; (Live s) ∧ (Settled s)
      ∧ (s.hw.pair.own = [(inst, c)]) ∧ (inst < s.hw.clk.nextB - s.hw.batch)
      ∧ (s.hw.clk.nextB - s.hw.batch + 2000 ≤ (s.hw.at g).ctGrains (s.hw.at g).grain)) ∧
    (let s : State := stateOf fun h => let h : Hw := ((h.setReg (pr rSTAT) 0).setReg (pr 0x040) 0x00081001).setReg (pr rREADY) 4;
      let h : Hw := (h.setReg (sy 0x040) 3).setReg (pr rLOCK) 0; let h : Hw := { h with pair := {} };
      let h : Hw := { h with clk := { h.clk with ctBaseGrain := 0, ctBase := 0, ctInc := 2 ^ 33, past := [], nextB := 2500 }, legs := [], ax := [] };
      let h : Hw := (h.setReg (ck 0x048) 2500); h; let g : Nat := 0; (Live s) ∧ (Settled s)
      ∧ (s.hw.pair.own = [] ∨ (s.hw.at g).ctGrains (s.hw.at g).grain < s.hw.clk.nextB - s.hw.batch + 2000)) ∧
    (let s : State := stateOf fun h => let h : Hw := ((h.setReg (pr rSTAT) 0).setReg (pr 0x040) 0x00081001).setReg (pr rREADY) 4;
      let h : Hw := (h.setReg (sy 0x040) 3).setReg (pr rLOCK) 0; let h : Hw := { h with pair := {} };
      let h : Hw := { h with clk := { h.clk with ctBaseGrain := 0, ctBase := 0, ctInc := 2 ^ 33, past := [], nextB := 2500 }, legs := [], ax := [] };
      let h : Hw := (h.setReg (ck 0x048) 2500); h; let g : Nat := 99; let n : Fin 96 := 95;
      let ena : Bool := default; let pin : Bool := true; let first : Nat := 0; (Live s) ∧ (Settled s)
      ∧ (bitOf ((s.hw.at g).legStat n) (if ena then 3 else 2) ≠ pin)
      ∧ (first + s.hw.f (pr 0x040) 23 16 ≤ max s.hw.grain g)
      ∧ (tabGet 0 (2 * n.val + if ena then 1 else 0) s.hw.pair.lvlFrom ≤ first)) ∧
    (let s : State := stateOf fun h => let h : Hw := ((h.setReg (pr rSTAT) 0).setReg (pr 0x040) 0x00081001).setReg (pr rREADY) 4;
      let h : Hw := (h.setReg (sy 0x040) 3).setReg (pr rLOCK) 0; let h : Hw := { h with pair := {} };
      let h : Hw := { h with clk := { h.clk with ctBaseGrain := 0, ctBase := 0, ctInc := 2 ^ 33, past := [], nextB := 2500 }, legs := [], ax := [] };
      let h : Hw := (h.setReg (ck 0x048) 2500); h; let g : Nat := 0; let n : Fin 96 := 95; let ena : Bool := default;
      let pin : Bool := default; let first : Nat := 0; (Live s) ∧ (Settled s)
      ∧ (bitOf ((s.hw.at g).legStat n) (if ena then 3 else 2) = pin ∨ max s.hw.grain g < first + s.hw.f (pr 0x040) 23 16 ∨ first < tabGet 0 (2 * n.val + if ena then 1 else 0) s.hw.pair.lvlFrom)) ∧
    (let s : State := stateOf fun h => let h : Hw := ((h.setReg (pr rSTAT) 2).setReg (pr 0x040) 0x00081001).setReg (pr rREADY) 4;
      let h : Hw := (h.setReg (sy 0x040) 4).setReg (pr rLOCK) 0; let h : Hw := { h with pair := {} };
      let h : Hw := { h with clk := { h.clk with ctBaseGrain := 0, ctBase := 0, ctInc := 2 ^ 33, past := [], nextB := 2500 }, legs := [], ax := [] };
      let h : Hw := (h.setReg (ck 0x048) 2500);
      let h : Hw := { h with pair := { h.pair with partnerSig := h.safSig } };
      let h : Hw := (h.setReg (pr 0x064) 7).setReg (pr 0x068) 7; h; (Live s) ∧ (Settled s) ∧ (Unlocked s pPAIR)
      ∧ (s.hw.mode = mSHADOW) ∧ (s.hw.pair.hand = none) ∧ (s.hw.linkUp = true) ∧ (s.hw.pStat 1 = true)
      ∧ (s.hw.pair.cfgStale = false) ∧ (s.hw.reg (pr 0x064) = s.hw.reg (pr 0x068))
      ∧ (s.hw.safSig = s.hw.pair.partnerSig)) ∧
    (let s : State := stateOf fun h => let h : Hw := ((h.setReg (pr rSTAT) 0).setReg (pr 0x040) 0x00081001).setReg (pr rREADY) 4;
      let h : Hw := (h.setReg (sy 0x040) 3).setReg (pr rLOCK) 0; let h : Hw := { h with pair := {} };
      let h : Hw := { h with clk := { h.clk with ctBaseGrain := 0, ctBase := 0, ctInc := 2 ^ 33, past := [], nextB := 2500 }, legs := [], ax := [] };
      let h : Hw := (h.setReg (ck 0x048) 2500); h; (Live s) ∧ (Settled s) ∧ (Unlocked s pPAIR)
      ∧ (s.hw.pair.cfgStale = false) ∧ (s.hw.mode ≠ mSHADOW ∨ s.hw.pair.hand ≠ none ∨ (s.hw.linkUp = true
      ∧ s.hw.pStat 1 = false))) ∧
    (let s : State := stateOf fun h => let h : Hw := ((h.setReg (pr rSTAT) 0).setReg (pr 0x040) 0x00081001).setReg (pr rREADY) 0;
      let h : Hw := (h.setReg (sy 0x040) 4).setReg (pr rLOCK) 0; let h : Hw := { h with pair := {} };
      let h : Hw := { h with clk := { h.clk with ctBaseGrain := 0, ctBase := 0, ctInc := 2 ^ 33, past := [], nextB := 2500 }, legs := [], ax := [] };
      let h : Hw := (h.setReg (ck 0x048) 2500); h; (Live s) ∧ (Settled s) ∧ (Unlocked s pPAIR)
      ∧ (s.hw.pair.cfgStale = false) ∧ (s.hw.mode = mSHADOW) ∧ (s.hw.pair.hand = none) ∧ (s.hw.linkUp = false)) ∧
    (let s : State := stateOf fun h => let h : Hw := ((h.setReg (pr rSTAT) 2).setReg (pr 0x040) 0x00081001).setReg (pr rREADY) 4;
      let h : Hw := (h.setReg (sy 0x040) 4).setReg (pr rLOCK) 0; let h : Hw := { h with pair := {} };
      let h : Hw := { h with clk := { h.clk with ctBaseGrain := 0, ctBase := 0, ctInc := 2 ^ 33, past := [], nextB := 2500 }, legs := [], ax := [] };
      let h : Hw := (h.setReg (ck 0x048) 2500); let h : Hw := (h.setReg (pr 0x064) 7).setReg (pr 0x068) 8; h;
      (Live s) ∧ (Settled s) ∧ (Unlocked s pPAIR) ∧ (s.hw.pair.cfgStale = false) ∧ (s.hw.mode = mSHADOW)
      ∧ (s.hw.pair.hand = none) ∧ (s.hw.linkUp = true) ∧ (s.hw.pStat 1 = true)
      ∧ (s.hw.reg (pr 0x064) ≠ s.hw.reg (pr 0x068))) ∧
    (let s : State := stateOf fun h => let h : Hw := ((h.setReg (pr rSTAT) 1).setReg (pr 0x040) 0x00081001).setReg (pr rREADY) 4;
      let h : Hw := (h.setReg (sy 0x040) 3).setReg (pr rLOCK) 0; let h : Hw := { h with pair := {} };
      let h : Hw := { h with clk := { h.clk with ctBaseGrain := 0, ctBase := 0, ctInc := 2 ^ 33, past := [], nextB := 2500 }, legs := [], ax := [] };
      let h : Hw := (h.setReg (ck 0x048) 2500); h;
      let f : MoladHdr := ⟨true, true, false, false, false, false, 7, 5⟩; (Live s) ∧ (Settled s)
      ∧ (s.hw.pair.rxSeqs.contains f.seq.toNat = false) ∧ (f.ack = false) ∧ (s.hw.pStat 0 = true)) ∧
    (let s : State := stateOf fun h => let h : Hw := ((h.setReg (pr rSTAT) 8).setReg (pr 0x040) 0x00081001).setReg (pr rREADY) 4;
      let h : Hw := (h.setReg (sy 0x040) 3).setReg (pr rLOCK) 0; let h : Hw := { h with pair := {} };
      let h : Hw := { h with clk := { h.clk with ctBaseGrain := 0, ctBase := 0, ctInc := 2 ^ 33, past := [], nextB := 2500 }, legs := [], ax := [] };
      let h : Hw := (h.setReg (ck 0x048) 2500); let h : Hw := h.setReg (pr 0x078) 0x200; h;
      let f : MoladHdr := ⟨true, true, false, false, true, false, 7, 5⟩; (Live s) ∧ (Settled s)
      ∧ (s.hw.pair.rxSeqs.contains f.seq.toNat = false) ∧ (f.ack = true) ∧ (s.hw.pStat 3 = true)
      ∧ (s.hw.syncPhase = 2)) ∧
    (let s : State := stateOf fun h => let h : Hw := ((h.setReg (pr rSTAT) 8).setReg (pr 0x040) 0x00081001).setReg (pr rREADY) 4;
      let h : Hw := (h.setReg (sy 0x040) 3).setReg (pr rLOCK) 0; let h : Hw := { h with pair := {} };
      let h : Hw := { h with clk := { h.clk with ctBaseGrain := 0, ctBase := 0, ctInc := 2 ^ 33, past := [], nextB := 2500 }, legs := [], ax := [] };
      let h : Hw := (h.setReg (ck 0x048) 2500); h;
      let f : MoladHdr := ⟨true, true, false, false, false, false, 7, 5⟩; (Live s) ∧ (Settled s)
      ∧ (s.hw.pair.rxSeqs.contains f.seq.toNat = false) ∧ (s.hw.pStat 3 = true)) ∧
    (let s : State := stateOf fun h => let h : Hw := ((h.setReg (pr rSTAT) 0).setReg (pr 0x040) 0x00081001).setReg (pr rREADY) 4;
      let h : Hw := (h.setReg (sy 0x040) 3).setReg (pr rLOCK) 0; let h : Hw := { h with pair := {} };
      let h : Hw := { h with clk := { h.clk with ctBaseGrain := 0, ctBase := 0, ctInc := 2 ^ 33, past := [], nextB := 2500 }, legs := [], ax := [] };
      let h : Hw := (h.setReg (ck 0x048) 2500); h;
      let f : MoladHdr := ⟨true, true, false, false, false, false, 7, 5⟩; (Live s) ∧ (Settled s)
      ∧ (s.hw.pair.rxSeqs.contains f.seq.toNat = false) ∧ (s.hw.pStat 3 = false)) ∧
    (let s : State := stateOf fun h => let h : Hw := ((h.setReg (pr rSTAT) 0).setReg (pr 0x040) 0x00081001).setReg (pr rREADY) 4;
      let h : Hw := (h.setReg (sy 0x040) 3).setReg (pr rLOCK) 0; let h : Hw := { h with pair := {} };
      let h : Hw := { h with clk := { h.clk with ctBaseGrain := 0, ctBase := 0, ctInc := 2 ^ 33, past := [], nextB := 2500 }, legs := [], ax := [] };
      let h : Hw := (h.setReg (ck 0x048) 2500); h;
      let f : MoladHdr := ⟨true, true, false, false, false, false, 7, 5⟩; (Live s) ∧ (Settled s)
      ∧ (s.hw.pair.rxSeqs.contains f.seq.toNat = false)) ∧
    (let s : State := stateOf fun h => let h : Hw := ((h.setReg (pr rSTAT) 0).setReg (pr 0x040) 0x00081001).setReg (pr rREADY) 4;
      let h : Hw := (h.setReg (sy 0x040) 3).setReg (pr rLOCK) 0; let h : Hw := { h with pair := {} };
      let h : Hw := { h with clk := { h.clk with ctBaseGrain := 0, ctBase := 0, ctInc := 2 ^ 33, past := [], nextB := 2500 }, legs := [], ax := [] };
      let h : Hw := (h.setReg (ck 0x048) 2500); h; let g : Nat := 5;
      let f : MoladHdr := ⟨true, true, false, false, false, false, 7, 5⟩; let d : Nat := 1000; (Live s) ∧ (Settled s)
      ∧ (s.hw.pair.rxSeqs.contains f.seq.toNat = false) ∧ ((s.hw.at g).ctGrains (s.hw.at g).grain ≤ d)
      ∧ (d < (s.hw.at g).ctGrains (s.hw.at g).grain + 2 ^ 31) ∧ (d % 2 ^ 32 ≠ 0xFFFFFFFF)) ∧
    (let s : State := stateOf fun h => let h : Hw := ((h.setReg (pr rSTAT) 0).setReg (pr 0x040) 0x00081001).setReg (pr rREADY) 4;
      let h : Hw := (h.setReg (sy 0x040) 3).setReg (pr rLOCK) 0; let h : Hw := { h with pair := {} };
      let h : Hw := { h with clk := { h.clk with ctBaseGrain := 0, ctBase := 0, ctInc := 2 ^ 33, past := [], nextB := 2500 }, legs := [], ax := [] };
      let h : Hw := (h.setReg (ck 0x048) 2500); let h : Hw := h.setReg (pr 0x040) 3; h;
      let f : MoladHdr := ⟨true, true, false, false, false, false, 7, 5⟩; (Live s) ∧ (Settled s)
      ∧ (s.hw.pair.rxSeqs.contains f.seq.toNat = false) ∧ (s.hw.bit (pr 0x040) 1 = true)) ∧
    (let s : State := stateOf fun h => let h : Hw := ((h.setReg (pr rSTAT) 0).setReg (pr 0x040) 0x00081001).setReg (pr rREADY) 4;
      let h : Hw := (h.setReg (sy 0x040) 3).setReg (pr rLOCK) 0; let h : Hw := { h with pair := {} };
      let h : Hw := { h with clk := { h.clk with ctBaseGrain := 0, ctBase := 0, ctInc := 2 ^ 33, past := [], nextB := 2500 }, legs := [], ax := [] };
      let h : Hw := (h.setReg (ck 0x048) 2500); h;
      let f : MoladHdr := ⟨true, true, false, false, false, false, 7, 5⟩; (Live s) ∧ (Settled s)
      ∧ (s.hw.pair.rxSeqs.contains f.seq.toNat = false) ∧ (s.hw.bit (pr 0x040) 1 = false)) ∧
    (let s : State := ({} : State); (Live s) ∧ (Settled s)) ∧
    (let s : State := stateOf fun h => let h : Hw := ((h.setReg (pr rSTAT) 0x34).setReg (pr 0x040) 0x00081001).setReg (pr rREADY) 4;
      let h : Hw := (h.setReg (sy 0x040) 3).setReg (pr rLOCK) 0; let h : Hw := { h with pair := {} };
      let h : Hw := { h with clk := { h.clk with ctBaseGrain := 0, ctBase := 0, ctInc := 2 ^ 33, past := [], nextB := 2500 }, legs := [], ax := [] };
      let h : Hw := (h.setReg (ck 0x048) 2500); let h : Hw := h.setReg (pr 0x044) 5; h; let g : Nat := 2500;
      let lane : Bool := true; (Live s) ∧ (Settled s)
      ∧ (s.hw.pair.laneAt lane + 500 * s.hw.f (pr 0x044) 15 0 ≤ max s.hw.grain g)
      ∧ (s.hw.pStat (if lane then 4 else 5) = true)) ∧
    (let s : State := stateOf fun h => let h : Hw := ((h.setReg (pr rSTAT) 0x24).setReg (pr 0x040) 0x00081001).setReg (pr rREADY) 4;
      let h : Hw := (h.setReg (sy 0x040) 3).setReg (pr rLOCK) 0; let h : Hw := { h with pair := {} };
      let h : Hw := { h with clk := { h.clk with ctBaseGrain := 0, ctBase := 0, ctInc := 2 ^ 33, past := [], nextB := 2500 }, legs := [], ax := [] };
      let h : Hw := (h.setReg (ck 0x048) 2500); let h : Hw := h.setReg (pr 0x044) 5; h; let g : Nat := 2500;
      let lane : Bool := true; (Live s) ∧ (Settled s)
      ∧ (s.hw.pair.laneAt lane + 500 * s.hw.f (pr 0x044) 15 0 ≤ max s.hw.grain g)
      ∧ (s.hw.pStat (if lane then 4 else 5) = false) ∧ (s.hw.linkUp = true)) ∧
    (let s : State := stateOf fun h => let h : Hw := ((h.setReg (pr rSTAT) 0).setReg (pr 0x040) 0x00081001).setReg (pr rREADY) 4;
      let h : Hw := (h.setReg (sy 0x040) 3).setReg (pr rLOCK) 0; let h : Hw := { h with pair := {} };
      let h : Hw := { h with clk := { h.clk with ctBaseGrain := 0, ctBase := 0, ctInc := 2 ^ 33, past := [], nextB := 2500 }, legs := [], ax := [] };
      let h : Hw := (h.setReg (ck 0x048) 2500); let h : Hw := h.setReg (pr 0x044) 5; h; let g : Nat := 0;
      let lane : Bool := true; (Live s) ∧ (Settled s)
      ∧ (max s.hw.grain g < s.hw.pair.laneAt lane + 500 * s.hw.f (pr 0x044) 15 0)) ∧
    (let s : State := stateOf fun h => let h : Hw := ((h.setReg (pr rSTAT) 8).setReg (pr 0x040) 0x00081001).setReg (pr rREADY) 4;
      let h : Hw := (h.setReg (sy 0x040) 3).setReg (pr rLOCK) 0;
      let h : Hw := { h with pair := { started := true } };
      let h : Hw := { h with clk := { h.clk with ctBaseGrain := 0, ctBase := 0, ctInc := 2 ^ 33, past := [], nextB := 2500 }, legs := [], ax := [] };
      let h : Hw := (h.setReg (ck 0x048) 2500); let h : Hw := (h.setReg (pr 0x078) 0x30200).setReg (pr 0x048) 8; h;
      let e : Fin 16 := 3; (Live s) ∧ (Settled s) ∧ (s.hw.pStat 3 = true) ∧ (s.hw.syncPhase = 2)
      ∧ (s.hw.syncEng = e.val) ∧ (s.hw.pair.started = true) ∧ (s.hw.f (pr 0x048) 15 0 = 2 ^ e.val)) ∧
    (let s : State := stateOf fun h => let h : Hw := ((h.setReg (pr rSTAT) 8).setReg (pr 0x040) 0x00081001).setReg (pr rREADY) 4;
      let h : Hw := (h.setReg (sy 0x040) 3).setReg (pr rLOCK) 0; let h : Hw := { h with pair := {} };
      let h : Hw := { h with clk := { h.clk with ctBaseGrain := 0, ctBase := 0, ctInc := 2 ^ 33, past := [], nextB := 2500 }, legs := [], ax := [] };
      let h : Hw := (h.setReg (ck 0x048) 2500); let h : Hw := h.setReg (pr 0x078) 0x30200; h; let e : Fin 16 := 3;
      (Live s) ∧ (Settled s)
      ∧ (s.hw.pStat 3 = false ∨ s.hw.syncPhase ≠ 2 ∨ s.hw.syncEng ≠ e.val ∨ s.hw.pair.started = false)) ∧
    (let s : State := stateOf fun h => let h : Hw := ((h.setReg (pr rSTAT) 8).setReg (pr 0x040) 0x00081001).setReg (pr rREADY) 4;
      let h : Hw := (h.setReg (sy 0x040) 3).setReg (pr rLOCK) 0; let h : Hw := { h with pair := {} };
      let h : Hw := { h with clk := { h.clk with ctBaseGrain := 0, ctBase := 0, ctInc := 2 ^ 33, past := [], nextB := 2500 }, legs := [], ax := [] };
      let h : Hw := (h.setReg (ck 0x048) 2500); let h : Hw := h.setReg (pr 0x078) 0x103; h; (Live s) ∧ (Settled s)
      ∧ (s.hw.pStat 3 = true) ∧ (3 ≤ s.hw.f (pr 0x078) 7 0) ∧ (s.hw.f (pr 0x078) 7 0 < 255)) ∧
    (let s : State := stateOf fun h => let h : Hw := ((h.setReg (pr rSTAT) 8).setReg (pr 0x040) 0x00081001).setReg (pr rREADY) 4;
      let h : Hw := (h.setReg (sy 0x040) 3).setReg (pr rLOCK) 0; let h : Hw := { h with pair := {} };
      let h : Hw := { h with clk := { h.clk with ctBaseGrain := 0, ctBase := 0, ctInc := 2 ^ 33, past := [], nextB := 2500 }, legs := [], ax := [] };
      let h : Hw := (h.setReg (ck 0x048) 2500); let h : Hw := h.setReg (pr 0x078) 0x102; h; (Live s) ∧ (Settled s)
      ∧ (s.hw.pStat 3 = true) ∧ (s.hw.f (pr 0x078) 7 0 < 3)) ∧
    (let s : State := stateOf fun h => let h : Hw := ((h.setReg (pr rSTAT) 0).setReg (pr 0x040) 0x00081001).setReg (pr rREADY) 4;
      let h : Hw := (h.setReg (sy 0x040) 3).setReg (pr rLOCK) 0; let h : Hw := { h with pair := {} };
      let h : Hw := { h with clk := { h.clk with ctBaseGrain := 0, ctBase := 0, ctInc := 2 ^ 33, past := [], nextB := 2500 }, legs := [], ax := [] };
      let h : Hw := (h.setReg (ck 0x048) 2500); h; (Live s) ∧ (Settled s) ∧ (s.hw.pStat 3 = false)) := by
  refine ⟨?_, ?_, ?_, ?_, ?_, ?_, ?_, ?_, ?_, ?_, ?_, ?_, ?_, ?_, ?_, ?_, ?_, ?_, ?_, ?_, ?_, ?_, ?_, ?_, ?_, ?_, ?_, ?_, ?_, ?_, ?_, ?_, ?_, ?_⟩ <;> decide +kernel

set_option maxRecDepth 100000 in
theorem witness_suppliesHoldUpAndSaves :
    (let s : State := stateOf fun h => let h : Hw := { h with sys := {}, save := {}, sup := {}, logq := [], legs := [], ax := [] };
      let h : Hw := ((h.setReg (sy 0x040) 3).setReg (sv rLOCK) 0).setReg (pw rLOCK) 0;
      let h : Hw := (h.setReg (sv 0x040) 0).setReg (ck 0x048) 2500; h; let g : Nat := 9;
      let vs : List Nat := [30000, 17999, 17000, 5, 0]; (Settled s) ∧ ((vs.drop (vs.length - 4)).length = 4)
      ∧ ((vs.drop (vs.length - 4)).all (fun v => decide (v < 18000)) = true) ∧ (s.hw.mode ≠ mHOLDUP)
      ∧ (s.hw.sys.modeGrain < max s.hw.grain g)) ∧
    (let s : State := stateOf fun h => let h : Hw := { h with sys := {}, save := {}, sup := {}, logq := [], legs := [], ax := [] };
      let h : Hw := ((h.setReg (sy 0x040) 3).setReg (sv rLOCK) 0).setReg (pw rLOCK) 0;
      let h : Hw := (h.setReg (sv 0x040) 0).setReg (ck 0x048) 2500;
      let h : Hw := { h with sup := { lowRun := 3 } }; h; let g : Nat := 9; let v : Nat := 17999; (Settled s)
      ∧ (v < 18000) ∧ (3 ≤ s.hw.sup.lowRun) ∧ (s.hw.mode ≠ mHOLDUP) ∧ (s.hw.sys.modeGrain < max s.hw.grain g)) ∧
    (let s : State := stateOf fun h => let h : Hw := { h with sys := {}, save := {}, sup := {}, logq := [], legs := [], ax := [] };
      let h : Hw := ((h.setReg (sy 0x040) 3).setReg (sv rLOCK) 0).setReg (pw rLOCK) 0;
      let h : Hw := (h.setReg (sv 0x040) 0).setReg (ck 0x048) 2500; h; let v : Nat := 17999; (Settled s)
      ∧ (18000 ≤ v ∨ s.hw.sup.lowRun < 3)) ∧
    (let s : State := stateOf fun h => let h : Hw := { h with sys := {}, save := {}, sup := {}, logq := [], legs := [], ax := [] };
      let h : Hw := ((h.setReg (sy 0x040) 6).setReg (sv rLOCK) 0).setReg (pw rLOCK) 0;
      let h : Hw := (h.setReg (sv 0x040) 0).setReg (ck 0x048) 2500; h; (Settled s) ∧ (Live s) ∧ (s.hw.mode = mHOLDUP)
      ∧ (s.hw.sup.shed = false) ∧ (s.hw.save.busy = none) ∧ (s.hw.save.done = false)) ∧
    (let s : State := stateOf fun h => let h : Hw := { h with sys := {}, save := {}, sup := {}, logq := [], legs := [], ax := [] };
      let h : Hw := ((h.setReg (sy 0x040) 3).setReg (sv rLOCK) 0).setReg (pw rLOCK) 0;
      let h : Hw := (h.setReg (sv 0x040) 0).setReg (ck 0x048) 2500; h; (Settled s) ∧ (Live s) ∧ ((s.hw.mode ≠ mHOLDUP
      ∧ s.hw.mode ≠ mCOOLDOWN) ∨ s.hw.sup.shed = true)) ∧
    (let s : State := stateOf fun h => let h : Hw := { h with sys := {}, save := {}, sup := {}, logq := [], legs := [], ax := [] };
      let h : Hw := ((h.setReg (sy 0x040) 3).setReg (sv rLOCK) 0).setReg (pw rLOCK) 0;
      let h : Hw := (h.setReg (sv 0x040) 0).setReg (ck 0x048) 2500; h; (Settled s) ∧ (Live s) ∧ (Unlocked s pSAVE)
      ∧ (s.hw.save.busy = none) ∧ (s.hw.mode ≠ mHOLDUP)) ∧
    (let s : State := stateOf fun h => let h : Hw := { h with sys := {}, save := {}, sup := {}, logq := [], legs := [], ax := [] };
      let h : Hw := ((h.setReg (sy 0x040) 6).setReg (sv rLOCK) 0).setReg (pw rLOCK) 0;
      let h : Hw := (h.setReg (sv 0x040) 0).setReg (ck 0x048) 2500; h; (Settled s) ∧ (Live s) ∧ (Unlocked s pSAVE)
      ∧ (s.hw.save.busy ≠ none ∨ s.hw.mode = mHOLDUP)) ∧
    (let s : State := stateOf fun h => let h : Hw := { h with sys := {}, save := {}, sup := {}, logq := [], legs := [], ax := [] };
      let h : Hw := ((h.setReg (sy 0x040) 3).setReg (sv rLOCK) 0).setReg (pw rLOCK) 0;
      let h : Hw := (h.setReg (sv 0x040) 0).setReg (ck 0x048) 2500;
      let h : Hw := { h with save := { busy := some (3, 1, 5, 6, 7) } }; h; let cause : Nat := 3; let g0 : Nat := 5;
      let ct : Nat := 6; let seq : Nat := 7; let k : BitVec 1 := 1; (Settled s) ∧ (Live s)
      ∧ (s.hw.save.busy = some (cause, k.toNat, g0, ct, seq)) ∧ (s.hw.mode ≠ mCOOLDOWN)) ∧
    (let s : State := stateOf fun h => let h : Hw := { h with sys := {}, save := {}, sup := {}, logq := [], legs := [], ax := [] };
      let h : Hw := ((h.setReg (sy 0x040) 3).setReg (sv rLOCK) 0).setReg (pw rLOCK) 0;
      let h : Hw := (h.setReg (sv 0x040) 0).setReg (ck 0x048) 2500; h; (Settled s) ∧ (Live s)
      ∧ (s.hw.save.busy = none)) ∧
    (let s : State := stateOf fun h => let h : Hw := { h with sys := {}, save := {}, sup := {}, logq := [], legs := [], ax := [] };
      let h : Hw := ((h.setReg (sy 0x040) 3).setReg (sv rLOCK) 0).setReg (pw rLOCK) 0;
      let h : Hw := (h.setReg (sv 0x040) 0).setReg (ck 0x048) 2500; h; (Settled s) ∧ (Live s) ∧ (Unlocked s pSAVE)
      ∧ ((s.hw.mode ≠ mBRINGUP ∧ s.hw.mode ≠ mCONFIG) ∨ s.hw.newestSave s.mem = none)) ∧
    (let s : State := stateWith (fun h => let h : Hw := { h with sys := {}, save := {}, sup := {}, logq := [], legs := [], ax := [] };
      let h : Hw := ((h.setReg (sy 0x040) 1).setReg (sv rLOCK) 0).setReg (pw rLOCK) 0;
      let h : Hw := (h.setReg (sv 0x040) 0).setReg (ck 0x048) 2500; h) (fun m => put32 (put32 (put32 (put32 (put32 (put32 (put32 (put32 (put32 (m) 1342177280 1481851222) 1342177284 1) 1342177288 4) 1342177292 1) 1342177312 1) 1342177316 4149722949) 1342177344 32) 1342177348 4) 1342177472 7);
      let k : Nat := 0; let a : Nat := 0x20; let i : Nat := 3; (Settled s) ∧ (Live s) ∧ (Unlocked s pSAVE)
      ∧ (s.hw.mode = mBRINGUP ∨ s.hw.mode = mCONFIG) ∧ (s.hw.newestSave s.mem = some k)
      ∧ ((s.hw.rd32 s.mem (saveArea k + 0x20)) = 1) ∧ ((s.hw.rd32 s.mem (saveArea k + 0x40)).toNat = a)
      ∧ (i < (s.hw.rd32 s.mem (saveArea k + 0x44)).toNat)) ∧
    (let s : State := stateOf fun h => let h : Hw := { h with sys := {}, save := {}, sup := {}, logq := [], legs := [], ax := [] };
      let h : Hw := ((h.setReg (sy 0x040) 1).setReg (sv rLOCK) 0).setReg (pw rLOCK) 0;
      let h : Hw := (h.setReg (sv 0x040) 0).setReg (ck 0x048) 2500;
      let h : Hw := { h with save := { restoring := true } }; h; (Settled s) ∧ (Live s)
      ∧ (s.hw.save.restoring = true)) ∧
    (let s : State := stateOf fun h => let h : Hw := { h with sys := {}, save := {}, sup := {}, logq := [], legs := [], ax := [] };
      let h : Hw := ((h.setReg (sy 0x040) 1).setReg (sv rLOCK) 0).setReg (pw rLOCK) 0;
      let h : Hw := (h.setReg (sv 0x040) 0).setReg (ck 0x048) 2500; h; (Settled s) ∧ (Live s)
      ∧ (s.hw.save.restoring = false)) ∧
    (let s : State := stateOf fun h => let h : Hw := { h with sys := {}, save := {}, sup := {}, logq := [], legs := [], ax := [] };
      let h : Hw := ((h.setReg (sy 0x040) 6).setReg (sv rLOCK) 0).setReg (pw rLOCK) 0;
      let h : Hw := (h.setReg (sv 0x040) 0).setReg (ck 0x048) 2500;
      let h : Hw := { h with save := { done := true } }; h; let g : Nat := 10000000; let since : Nat := 0;
      (Settled s) ∧ (s.hw.mode = mHOLDUP) ∧ (s.hw.save.busy = none) ∧ (s.hw.save.done = true ∨ s.hw.sys.held = true)
      ∧ (s.hw.sup.lowAt.all (fun k => decide (k < since)) = true)
      ∧ (max since s.hw.save.doneAt + 10000000 ≤ max s.hw.grain g) ∧ (s.hw.sys.thermPending = false)) ∧
    (let s : State := stateOf fun h => let h : Hw := { h with sys := {}, save := {}, sup := {}, logq := [], legs := [], ax := [] };
      let h : Hw := ((h.setReg (sy 0x040) 6).setReg (sv rLOCK) 0).setReg (pw rLOCK) 0;
      let h : Hw := (h.setReg (sv 0x040) 0).setReg (ck 0x048) 2500;
      let h : Hw := { h with save := { done := true }, sys := { h.sys with thermPending := true } }; h;
      let g : Nat := 10000000; let since : Nat := 0; (Settled s) ∧ (s.hw.mode = mHOLDUP) ∧ (s.hw.save.busy = none)
      ∧ (s.hw.save.done = true ∨ s.hw.sys.held = true) ∧ (s.hw.sup.lowAt.all (fun k => decide (k < since)) = true)
      ∧ (max since s.hw.save.doneAt + 10000000 ≤ max s.hw.grain g) ∧ (s.hw.sys.thermPending = true)) ∧
    (let s : State := stateOf fun h => let h : Hw := { h with sys := {}, save := {}, sup := {}, logq := [], legs := [], ax := [] };
      let h : Hw := ((h.setReg (sy 0x040) 6).setReg (sv rLOCK) 0).setReg (pw rLOCK) 0;
      let h : Hw := (h.setReg (sv 0x040) 0).setReg (ck 0x048) 2500; h; let g : Nat := 0; let since : Nat := 0;
      (Settled s) ∧ (s.hw.mode ≠ mHOLDUP ∨ s.hw.save.busy ≠ none ∨ (s.hw.save.done = false
      ∧ s.hw.sys.held = false) ∨ s.hw.sup.lowAt.any (fun k => decide (since ≤ k)) = true ∨ max s.hw.grain g < max since s.hw.save.doneAt + 10000000)) ∧
    (let s : State := stateOf fun h => let h : Hw := { h with sys := {}, save := {}, sup := {}, logq := [], legs := [], ax := [] };
      let h : Hw := ((h.setReg (sy 0x040) 6).setReg (sv rLOCK) 0).setReg (pw rLOCK) 0;
      let h : Hw := (h.setReg (sv 0x040) 0).setReg (ck 0x048) 2500; h; (Settled s) ∧ (s.hw.mode = mHOLDUP)) ∧
    (let s : State := stateOf fun h => let h : Hw := { h with sys := {}, save := {}, sup := {}, logq := [], legs := [], ax := [] };
      let h : Hw := ((h.setReg (sy 0x040) 3).setReg (sv rLOCK) 0).setReg (pw rLOCK) 0;
      let h : Hw := (h.setReg (sv 0x040) 0).setReg (ck 0x048) 2500; h; (Settled s) ∧ (s.hw.mode ≠ mHOLDUP)) ∧
    (let s : State := stateOf fun h => let h : Hw := { h with sys := {}, save := {}, sup := {}, logq := [], legs := [], ax := [] };
      let h : Hw := ((h.setReg (sy 0x040) 3).setReg (sv rLOCK) 0).setReg (pw rLOCK) 0;
      let h : Hw := (h.setReg (sv 0x040) 0).setReg (ck 0x048) 2500; h; let mv : Nat := 24000; (Settled s) ∧ (Live s)
      ∧ (Unlocked s pPWR) ∧ (s.hw.mode = mRUN ∨ s.hw.mode = mSHADOW ∨ s.hw.mode = mHOLDUP ∨ mv < 19200)) ∧
    (let s : State := stateOf fun h => let h : Hw := { h with sys := {}, save := {}, sup := {}, logq := [], legs := [], ax := [] };
      let h : Hw := ((h.setReg (sy 0x040) 1).setReg (sv rLOCK) 0).setReg (pw rLOCK) 0;
      let h : Hw := (h.setReg (sv 0x040) 0).setReg (ck 0x048) 2500; h; let mv : Nat := 19200; (Settled s) ∧ (Live s)
      ∧ (Unlocked s pPWR) ∧ (s.hw.mode ≠ mRUN) ∧ (s.hw.mode ≠ mSHADOW) ∧ (s.hw.mode ≠ mHOLDUP) ∧ (19200 ≤ mv)) ∧
    (let s : State := stateOf fun h => let h : Hw := { h with sys := {}, save := {}, sup := {}, logq := [], legs := [], ax := [] };
      let h : Hw := ((h.setReg (sy 0x040) 1).setReg (sv rLOCK) 0).setReg (pw rLOCK) 0;
      let h : Hw := (h.setReg (sv 0x040) 0).setReg (ck 0x048) 2500;
      let h : Hw := { h with sup := { testing := true } }; h; (Settled s) ∧ (Live s) ∧ (s.hw.sup.testing = true)) ∧
    (let s : State := stateOf fun h => let h : Hw := { h with sys := {}, save := {}, sup := {}, logq := [], legs := [], ax := [] };
      let h : Hw := ((h.setReg (sy 0x040) 1).setReg (sv rLOCK) 0).setReg (pw rLOCK) 0;
      let h : Hw := (h.setReg (sv 0x040) 0).setReg (ck 0x048) 2500; h; (Settled s) ∧ (Live s)
      ∧ (s.hw.sup.testing = false)) ∧
    (let s : State := stateOf fun h => let h : Hw := { h with sys := {}, save := {}, sup := {}, logq := [], legs := [], ax := [] };
      let h : Hw := ((h.setReg (sy 0x040) 0).setReg (sv rLOCK) 0).setReg (pw rLOCK) 0;
      let h : Hw := (h.setReg (sv 0x040) 0).setReg (ck 0x048) 2500; h; let vlog : Nat := 24000;
      let vhold : Nat := 23500; (Settled s) ∧ (Live s) ∧ (s.hw.mode = mBRINGUP) ∧ (s.hw.sup.autoDone = false)
      ∧ (vlog ≤ vhold + 500)) ∧
    (let s : State := stateOf fun h => let h : Hw := { h with sys := {}, save := {}, sup := {}, logq := [], legs := [], ax := [] };
      let h : Hw := ((h.setReg (sy 0x040) 0).setReg (sv rLOCK) 0).setReg (pw rLOCK) 0;
      let h : Hw := (h.setReg (sv 0x040) 0).setReg (ck 0x048) 2500; h; let vlog : Nat := 24001;
      let vhold : Nat := 23500; (Settled s) ∧ (Live s)
      ∧ (s.hw.mode ≠ mBRINGUP ∨ s.hw.sup.autoDone = true ∨ vhold + 500 < vlog)) ∧
    (let s : State := ({} : State); (Settled s) ∧ (Live s)) := by
  refine ⟨?_, ?_, ?_, ?_, ?_, ?_, ?_, ?_, ?_, ?_, ?_, ?_, ?_, ?_, ?_, ?_, ?_, ?_, ?_, ?_, ?_, ?_, ?_, ?_, ?_⟩ <;> decide +kernel

theorem witness_temperatureAndFaultLog :
    (let s : State := stateOf fun h => let h : Hw := (List.range 12).foldl (fun h n => h.setReg (th (0x040 + 4 * n)) 0) h;
      let h : Hw := ((h.setReg (th rSTAT) 0).setReg (fl rLOCK) 0).setReg (fl 0x04C) 0;
      let h : Hw := { h with sup := {}, sys := {}, evtCyc := [], save := {}, logq := [], win := [], legs := [], ax := [] }; h;
      let g : Nat := 0; let r : ThermalReading := ⟨List.replicate 12 400, 21280⟩; (Settled s) ∧ (Alone s g)
      ∧ (Live s) ∧ (∀ i : Fin 12, s.hw.tsValid i = true) ∧ (r.temps = List.replicate 12 400)) ∧
    (let s : State := stateOf fun h => let h : Hw := (List.range 12).foldl (fun h n => h.setReg (th (0x040 + 4 * n)) 0) h;
      let h : Hw := ((h.setReg (th rSTAT) 0).setReg (fl rLOCK) 0).setReg (fl 0x04C) 0;
      let h : Hw := { h with sup := {}, sys := {}, evtCyc := [], save := {}, logq := [], win := [], legs := [], ax := [] }; h;
      let g : Nat := 0; let r : ThermalReading := ⟨List.replicate 8 1856 ++ List.replicate 4 400, 24192⟩; (Settled s)
      ∧ (Alone s g) ∧ (Live s) ∧ (∀ i : Fin 12, s.hw.tsValid i = true)
      ∧ (r.temps = List.replicate 8 1856 ++ List.replicate 4 400) ∧ (s.hw.bit (th rSTAT) 1 = false)) ∧
    (let s : State := stateOf fun h => let h : Hw := (List.range 12).foldl (fun h n => h.setReg (th (0x040 + 4 * n)) 0) h;
      let h : Hw := ((h.setReg (th rSTAT) 0).setReg (fl rLOCK) 0).setReg (fl 0x04C) 0;
      let h : Hw := { h with sup := {}, sys := {}, evtCyc := [], save := {}, logq := [], win := [], legs := [], ax := [] };
      let h : Hw := { h with sup := { shutDie := 1 } }; h; let g : Nat := 9;
      let r : ThermalReading := ⟨List.replicate 12 2096, 24672⟩; (Settled s) ∧ (Alone s g) ∧ (Live s)
      ∧ (∀ i : Fin 12, s.hw.tsValid i = true) ∧ (r.temps = List.replicate 12 2096) ∧ (1 ≤ s.hw.sup.shutDie)
      ∧ (s.hw.sup.shut = false) ∧ (s.hw.sys.modeGrain < max s.hw.grain g) ∧ (s.hw.mode ≠ mHOLDUP)
      ∧ (s.hw.mode ≠ mCOOLDOWN)) ∧
    (let s : State := stateOf fun h => let h : Hw := (List.range 12).foldl (fun h n => h.setReg (th (0x040 + 4 * n)) 0) h;
      let h : Hw := ((h.setReg (th rSTAT) 0).setReg (fl rLOCK) 0).setReg (fl 0x04C) 0;
      let h : Hw := { h with sup := {}, sys := {}, evtCyc := [], save := {}, logq := [], win := [], legs := [], ax := [] }; h;
      let g : Nat := 0; let n : Fin 12 := 7; let r : ThermalReading := ⟨List.replicate 12 3000, 0⟩; (Settled s)
      ∧ (Alone s g) ∧ (Live s) ∧ (s.hw.tsValid n = true) ∧ (r.temps.getD n 0 < -880 ∨ 2800 < r.temps.getD n 0)) ∧
    (let s : State := stateOf fun h => let h : Hw := (List.range 12).foldl (fun h n => h.setReg (th (0x040 + 4 * n)) 0) h;
      let h : Hw := ((h.setReg (th rSTAT) 0).setReg (fl rLOCK) 0).setReg (fl 0x04C) 0;
      let h : Hw := { h with sup := {}, sys := {}, evtCyc := [], save := {}, logq := [], win := [], legs := [], ax := [] };
      let h : Hw := { h with sup := { codes := [(7, (1, 400, 432))] } }; h; let g : Nat := 30000000000;
      let n : Fin 12 := 7; let k : Nat := 0; let lo : Int := 400; let hi : Int := 432; (Settled s) ∧ (Live s)
      ∧ (s.hw.tsValid n = true) ∧ ((tabGet (0, 0, 0) n.val s.hw.sup.codes) = (k + 1, lo, hi))
      ∧ (k + 30000000000 ≤ max s.hw.grain g) ∧ (lo + 32 ≤ hi)) ∧
    (let s : State := stateOf fun h => let h : Hw := (List.range 12).foldl (fun h n => h.setReg (th (0x040 + 4 * n)) 0) h;
      let h : Hw := ((h.setReg (th rSTAT) 0).setReg (fl rLOCK) 0).setReg (fl 0x04C) 0;
      let h : Hw := { h with sup := {}, sys := {}, evtCyc := [], save := {}, logq := [], win := [], legs := [], ax := [] };
      let h : Hw := h.setReg (th 0x05C) 0x10000; h; let g : Nat := 0; let n : Fin 12 := 7; (Settled s) ∧ (Live s)
      ∧ (s.hw.tsValid n = false ∨ (tabGet (0, 0, 0) n.val s.hw.sup.codes).1 = 0 ∨ max s.hw.grain g + 1 < (tabGet (0, 0, 0) n.val s.hw.sup.codes).1 + 30000000000 ∨ (tabGet (0, 0, 0) n.val s.hw.sup.codes).2.2 < (tabGet (0, 0, 0) n.val s.hw.sup.codes).2.1 + 32)) ∧
    (let s : State := stateOf fun h => let h : Hw := (List.range 12).foldl (fun h n => h.setReg (th (0x040 + 4 * n)) 0) h;
      let h : Hw := ((h.setReg (th rSTAT) 0).setReg (fl rLOCK) 0).setReg (fl 0x04C) 0;
      let h : Hw := { h with sup := {}, sys := {}, evtCyc := [], save := {}, logq := [], win := [], legs := [], ax := [] };
      let h : Hw := h.setReg (th rSTAT) 0x42; h; let g : Nat := 500000000; (Settled s) ∧ (Alone s g) ∧ (Live s)
      ∧ (s.hw.bit (th rSTAT) 1 = true) ∧ (1 ≤ s.hw.f (th rSTAT) 7 6) ∧ (s.hw.f (th rSTAT) 7 6 < 3)
      ∧ (s.hw.sup.stepAt + 500000000 ≤ max s.hw.grain g)) ∧
    (let s : State := stateOf fun h => let h : Hw := (List.range 12).foldl (fun h n => h.setReg (th (0x040 + 4 * n)) 0) h;
      let h : Hw := ((h.setReg (th rSTAT) 0).setReg (fl rLOCK) 0).setReg (fl 0x04C) 0;
      let h : Hw := { h with sup := {}, sys := {}, evtCyc := [], save := {}, logq := [], win := [], legs := [], ax := [] }; h;
      let g : Nat := 0; (Settled s) ∧ (Alone s g) ∧ (Live s)
      ∧ (s.hw.bit (th rSTAT) 1 = false ∨ s.hw.f (th rSTAT) 7 6 = 3 ∨ max s.hw.grain g < s.hw.sup.stepAt + 500000000)) ∧
    (let s : State := stateOf fun h => let h : Hw := (List.range 12).foldl (fun h n => h.setReg (th (0x040 + 4 * n)) 0) h;
      let h : Hw := ((h.setReg (th rSTAT) 0).setReg (fl rLOCK) 0).setReg (fl 0x04C) 0;
      let h : Hw := { h with sup := {}, sys := {}, evtCyc := [], save := {}, logq := [], win := [], legs := [], ax := [] };
      let h : Hw := h.setReg (sy 0x040) 7;
      let h : Hw := { h with save := { done := true }, sup := { coolFrom := some 5 } }; h; let g : Nat := 5000000005;
      let c : Nat := 5; (Settled s) ∧ (s.hw.mode = mCOOLDOWN) ∧ (s.hw.save.done = true)
      ∧ (s.hw.sup.coolFrom = some c) ∧ (c + 5000000000 ≤ max s.hw.grain g) ∧ (1 ≤ s.hw.nValid dieSensors)) ∧
    (let s : State := stateOf fun h => let h : Hw := (List.range 12).foldl (fun h n => h.setReg (th (0x040 + 4 * n)) 0) h;
      let h : Hw := ((h.setReg (th rSTAT) 0).setReg (fl rLOCK) 0).setReg (fl 0x04C) 0;
      let h : Hw := { h with sup := {}, sys := {}, evtCyc := [], save := {}, logq := [], win := [], legs := [], ax := [] };
      let h : Hw := h.setReg (sy 0x040) 7; h; let g : Nat := 0; (Settled s)
      ∧ (s.hw.mode ≠ mCOOLDOWN ∨ s.hw.save.done = false ∨ s.hw.sup.coolFrom.all (fun c => decide (max s.hw.grain g < c + 5000000000)) = true)) ∧
    (let s : State := stateOf fun h => let h : Hw := (List.range 12).foldl (fun h n => h.setReg (th (0x040 + 4 * n)) 0) h;
      let h : Hw := ((h.setReg (th rSTAT) 0).setReg (fl rLOCK) 0).setReg (fl 0x04C) 0;
      let h : Hw := { h with sup := {}, sys := {}, evtCyc := [], save := {}, logq := [], win := [], legs := [], ax := [] };
      let h : Hw := { h with sup := { roFrom := some 4 } }; h; let g : Nat := 5000000004; let c : Nat := 4;
      (Settled s) ∧ (Live s) ∧ (s.hw.sup.roFrom = some c) ∧ (c + 5000000000 ≤ max s.hw.grain g)) ∧
    (let s : State := stateOf fun h => let h : Hw := (List.range 12).foldl (fun h n => h.setReg (th (0x040 + 4 * n)) 0) h;
      let h : Hw := ((h.setReg (th rSTAT) 0).setReg (fl rLOCK) 0).setReg (fl 0x04C) 0;
      let h : Hw := { h with sup := {}, sys := {}, evtCyc := [], save := {}, logq := [], win := [], legs := [], ax := [] }; h;
      let g : Nat := 0; (Settled s) ∧ (Live s)
      ∧ (s.hw.sup.roFrom.all (fun c => decide (max s.hw.grain g < c + 5000000000)) = true)) ∧
    (let s : State := stateOf fun h => let h : Hw := (List.range 12).foldl (fun h n => h.setReg (th (0x040 + 4 * n)) 0) h;
      let h : Hw := ((h.setReg (th rSTAT) 0).setReg (fl rLOCK) 0).setReg (fl 0x04C) 0;
      let h : Hw := { h with sup := {}, sys := {}, evtCyc := [], save := {}, logq := [], win := [], legs := [], ax := [] };
      let h : Hw := h.setFwin 7 { isOpen := true, start := 0, windowMs := 1 }; h; let g : Nat := 600000;
      let p : Fin 512 := 7; (Settled s) ∧ (Live s) ∧ ((s.hw.fwin p).isOpen = true)
      ∧ ((s.hw.fwin p).last < max s.hw.grain g)) ∧
    (let s : State := stateOf fun h => let h : Hw := (List.range 12).foldl (fun h n => h.setReg (th (0x040 + 4 * n)) 0) h;
      let h : Hw := ((h.setReg (th rSTAT) 0).setReg (fl rLOCK) 0).setReg (fl 0x04C) 0;
      let h : Hw := { h with sup := {}, sys := {}, evtCyc := [], save := {}, logq := [], win := [], legs := [], ax := [] }; h;
      let g : Nat := 0; let p : Fin 512 := 7; (Settled s) ∧ (Live s)
      ∧ ((s.hw.fwin p).isOpen = false ∨ max s.hw.grain g ≤ (s.hw.fwin p).last)) ∧
    (let s : State := stateOf fun h => let h : Hw := (List.range 12).foldl (fun h n => h.setReg (th (0x040 + 4 * n)) 0) h;
      let h : Hw := ((h.setReg (th rSTAT) 0).setReg (fl rLOCK) 0).setReg (fl 0x04C) 0;
      let h : Hw := { h with sup := {}, sys := {}, evtCyc := [], save := {}, logq := [], win := [], legs := [], ax := [] };
      let h : Hw := { h with logq := [{ ts := 5, ct := 6, page := 7, rank := 10, flags := 0, code := 9, inst := 3, detail := 0 }], logLost := false }; h;
      let g : Nat := 0;
      let r : LogRec := { ts := 5, ct := 6, page := 7, rank := 10, flags := 0, code := 9, inst := 3, detail := 0 };
      (Settled s) ∧ (Alone s g) ∧ (Live s) ∧ (s.hw.logq = [r]) ∧ (s.hw.logLost = false)) ∧
    (let s : State := stateOf fun h => let h : Hw := (List.range 12).foldl (fun h n => h.setReg (th (0x040 + 4 * n)) 0) h;
      let h : Hw := ((h.setReg (th rSTAT) 0).setReg (fl rLOCK) 0).setReg (fl 0x04C) 0;
      let h : Hw := { h with sup := {}, sys := {}, evtCyc := [], save := {}, logq := [], win := [], legs := [], ax := [] }; h;
      let g : Nat := 0; (Settled s) ∧ (Alone s g) ∧ (Live s) ∧ (s.hw.logq = [])) ∧
    (let s : State := stateOf fun h => let h : Hw := (List.range 12).foldl (fun h n => h.setReg (th (0x040 + 4 * n)) 0) h;
      let h : Hw := ((h.setReg (th rSTAT) 0).setReg (fl rLOCK) 0).setReg (fl 0x04C) 0;
      let h : Hw := { h with sup := {}, sys := {}, evtCyc := [], save := {}, logq := [], win := [], legs := [], ax := [] };
      let h : Hw := { h with nv := { h.nv with logWr := 9, logRd := 4 } }; h; let g : Nat := 0; let v : Word := 9;
      (Settled s) ∧ (Alone s g) ∧ (Live s) ∧ (Unlocked s pFLT) ∧ (v - s.hw.nv.logRd ≤ s.hw.nv.logWr - s.hw.nv.logRd)) ∧
    (let s : State := stateOf fun h => let h : Hw := (List.range 12).foldl (fun h n => h.setReg (th (0x040 + 4 * n)) 0) h;
      let h : Hw := ((h.setReg (th rSTAT) 0).setReg (fl rLOCK) 0).setReg (fl 0x04C) 0;
      let h : Hw := { h with sup := {}, sys := {}, evtCyc := [], save := {}, logq := [], win := [], legs := [], ax := [] };
      let h : Hw := { h with nv := { h.nv with logWr := 9, logRd := 4 } }; h; let g : Nat := 0; let v : Word := 10;
      (Settled s) ∧ (Alone s g) ∧ (Live s) ∧ (Unlocked s pFLT) ∧ (s.hw.nv.logWr - s.hw.nv.logRd < v - s.hw.nv.logRd)) ∧
    (let s : State := stateOf fun h => let h : Hw := (List.range 12).foldl (fun h n => h.setReg (th (0x040 + 4 * n)) 0) h;
      let h : Hw := ((h.setReg (th rSTAT) 0).setReg (fl rLOCK) 0).setReg (fl 0x04C) 0;
      let h : Hw := { h with sup := {}, sys := {}, evtCyc := [], save := {}, logq := [], win := [], legs := [], ax := [] };
      let h : Hw := (h.setReg (fl 0x04C) 7).setReg (pw rSTAT) 0; h; let g : Nat := 9; let v : BitVec 3 := 2;
      let b : Nat := 1; (Settled s) ∧ (Live s) ∧ (Unlocked s pFLT) ∧ (v.getLsbD b = true) ∧ (s.hw.devCause b = false)
      ∧ (b < 3) ∧ ((tabGet {} (w1cKey (fl 0x04C)) s.hw.evtCyc).cycle ≠ max s.hw.grain g / 5)) ∧
    (let s : State := stateOf fun h => let h : Hw := (List.range 12).foldl (fun h n => h.setReg (th (0x040 + 4 * n)) 0) h;
      let h : Hw := ((h.setReg (th rSTAT) 0).setReg (fl rLOCK) 0).setReg (fl 0x04C) 0;
      let h : Hw := { h with sup := {}, sys := {}, evtCyc := [], save := {}, logq := [], win := [], legs := [], ax := [] };
      let h : Hw := (h.setReg (fl 0x04C) 7).setReg (pw rSTAT) 1; h; let v : BitVec 3 := 2; let b : Nat := 1;
      (Settled s) ∧ (Live s) ∧ (Unlocked s pFLT) ∧ (v.getLsbD b = true) ∧ (s.hw.devCause b = true) ∧ (b < 3)) ∧
    (let s : State := stateOf fun h => let h : Hw := (List.range 12).foldl (fun h n => h.setReg (th (0x040 + 4 * n)) 0) h;
      let h : Hw := ((h.setReg (th rSTAT) 0).setReg (fl rLOCK) 0).setReg (fl 0x04C) 0;
      let h : Hw := { h with sup := {}, sys := {}, evtCyc := [], save := {}, logq := [], win := [], legs := [], ax := [] }; h;
      let g : Nat := 0; (Settled s) ∧ (Live s) ∧ (max s.hw.grain g < s.hw.sup.scrubAt + 5000000 * s.hw.sup.scrubIv)) ∧
    (let s : State := stateOf fun h => let h : Hw := (List.range 12).foldl (fun h n => h.setReg (th (0x040 + 4 * n)) 0) h;
      let h : Hw := ((h.setReg (th rSTAT) 0).setReg (fl rLOCK) 0).setReg (fl 0x04C) 0;
      let h : Hw := { h with sup := {}, sys := {}, evtCyc := [], save := {}, logq := [], win := [], legs := [], ax := [] }; h;
      let g : Nat := 5000000000; (Settled s) ∧ (Live s)
      ∧ (s.hw.sup.scrubAt + 5000000 * s.hw.sup.scrubIv ≤ max s.hw.grain g)) ∧
    (let s : State := stateOf fun h => let h : Hw := (List.range 12).foldl (fun h n => h.setReg (th (0x040 + 4 * n)) 0) h;
      let h : Hw := ((h.setReg (th rSTAT) 0).setReg (fl rLOCK) 0).setReg (fl 0x04C) 0;
      let h : Hw := { h with sup := {}, sys := {}, evtCyc := [], save := {}, logq := [], win := [], legs := [], ax := [] }; h;
      let g : Nat := 5000000000; let a : Nat := 0x28000040; (Settled s) ∧ (Live s)
      ∧ (s.hw.sup.scrubAt + 5000000 * s.hw.sup.scrubIv ≤ max s.hw.grain g) ∧ (a < 0x200000 ∨ (0x28000000 ≤ a
      ∧ a < 0x28100000)) ∧ (s.hw.bit (fl 0x04C) 0 = false)) ∧
    (let s : State := stateOf fun h => let h : Hw := (List.range 12).foldl (fun h n => h.setReg (th (0x040 + 4 * n)) 0) h;
      let h : Hw := ((h.setReg (th rSTAT) 0).setReg (fl rLOCK) 0).setReg (fl 0x04C) 0;
      let h : Hw := { h with sup := {}, sys := {}, evtCyc := [], save := {}, logq := [], win := [], legs := [], ax := [] }; h;
      let g : Nat := 5000000000; let a : Nat := 0x100100000; (Settled s) ∧ (Live s)
      ∧ (s.hw.sup.scrubAt + 5000000 * s.hw.sup.scrubIv ≤ max s.hw.grain g)
      ∧ (a / 0x100000 = 0x1000 ∨ a / 0x100000 = 0x1001)) := by
  refine ⟨?_, ?_, ?_, ?_, ?_, ?_, ?_, ?_, ?_, ?_, ?_, ?_, ?_, ?_, ?_, ?_, ?_, ?_, ?_, ?_, ?_, ?_, ?_, ?_⟩ <;> decide

theorem witness_commandFrames :
    pagesOf (.fieldOutSet 5 true 1) = some [pFIO 1, pSYS, pFLT] ∧ Settled ({} : State) ∧ Alone ({} : State) 5 ∧
      (match exec (.fieldOutSet 5 true 1) ({} : State) with | .next t => decide (t.hw.reg (fo 1 0x080) = 1) | _ => false) = true ∧
      fo 1 0x080 / 0x1000 = pFIO 1 ∧ stores (.fieldOutSet 5 true 1) ({} : State) 0x40 = false := by
  decide

end Sys2Proof
end

/-! The write of a register over the fabric (R57, R58, R60, R62): what a write that only stores leaves, what a bus error
leaves, and the bytes a write to memory leaves. -/

namespace Sys2Proof.Machine

/-! ### Shadows -/

@[simp] theorem Hw.shd_setShd_same (h : Hw) (a : Nat) (v : Word) : (h.setShd a v).shd a = v := tabGet_tabSet_same _ _ _ _

@[simp] theorem Hw.shd_setReg (h : Hw) (a b : Nat) (v : Word) : (h.setReg a v).shd b = h.shd b := rfl

@[simp] theorem Hw.reg_setShd (h : Hw) (a b : Nat) (v : Word) : (h.setShd a v).reg b = h.reg b := rfl

theorem Logged.shd {h k : Hw} (hk : Logged h k) (a : Nat) : k.shd a = h.shd a := by
  simp only [Hw.shd, hk.shadow]

/-! ### A software write that only stores -/

/-- A word with the bits of a mask replaced, as R60 stores a write. -/
def underMask (old v : Word) (mask : Nat) : Word := (old &&& ~~~(BitVec.ofNat 32 mask)) ||| (v &&& BitVec.ofNat 32 mask)

@[simp] theorem underMask_zero (old v : Word) : underMask old v 0 = old := by
  have hones : ~~~(BitVec.ofNat 32 0) = BitVec.allOnes 32 := rfl
  rw [underMask, hones, BitVec.and_allOnes, BitVec.and_zero, BitVec.or_zero]

@[simp] theorem underMask_ones (old v : Word) : underMask old v 0xFFFFFFFF = v := by
  have hones : BitVec.ofNat 32 0xFFFFFFFF = BitVec.allOnes 32 := rfl
  rw [underMask, hones, BitVec.not_allOnes, BitVec.and_allOnes, BitVec.and_zero, BitVec.zero_or]

/-- A store to a register without write-1-to-clear bits: RW bits go to the register, RWS bits to the shadow (R60). -/
theorem Hw.store_eq (h : Hw) (a : Nat) {row : RegRow} (hw : row.w1c = 0) (v : Word) : h.store a row v =
    (let k := if row.rw = 0 then h else h.setReg a (underMask (h.reg a) v row.rw)
     if row.rws = 0 then k else k.setShd a (underMask (k.shd a) v row.rws)) := if_pos hw

theorem Hw.reg_store (h : Hw) (a : Nat) {row : RegRow} (hw : row.w1c = 0) (v : Word) :
    (h.store a row v).reg a = underMask (h.reg a) v row.rw := by
  rw [h.store_eq a hw]
  by_cases h1 : row.rw = 0 <;> by_cases h2 : row.rws = 0 <;> simp [h1, h2]

theorem Hw.shd_store (h : Hw) (a : Nat) {row : RegRow} (hw : row.w1c = 0) (v : Word) :
    (h.store a row v).shd a = underMask (h.shd a) v row.rws := by
  rw [h.store_eq a hw]
  by_cases h1 : row.rw = 0 <;> by_cases h2 : row.rws = 0 <;> simp [h1, h2]

/-- The register at offset off of page p takes a software write of any value as it is and does nothing else: it is not
LOCK, EVT or CTRL, a pair does not mirror it, and its page gives it no behaviour and no value stored otherwise. -/
structure StoresAsWritten (p off : Nat) : Prop where
  ne_lock : off ≠ rLOCK
  ne_evt : off ≠ rEVT
  ne_ctrl : off ≠ rCTRL
  not_mirrored : mirrored p off = false
  effect : ∀ (h : Hw) (m : Mem) (r : Nat) (v : Word), h.regEffect m r p off v = h.plainWrite p off (ra p off) v
  value : ∀ (h : Hw) (v : Word), h.storedAs p off v = v

/-- Software writes every bit of EVT_EN of an assigned page. -/
theorem rowAt_evtEn {p : Nat} (hp : (pageBlock p).1 ≠ .none) :
    rowAt p rEVT_EN = some ⟨rEVT_EN, 1, 4, 0xFFFFFFFF, 0, 0, 0⟩ := by
  rw [rowAt, if_neg hp]
  rfl

/-- EVT_EN of every assigned page stores what is written. -/
theorem storesAsWritten_evtEn {p : Nat} (hp : (pageBlock p).1 ≠ .none) : StoresAsWritten p rEVT_EN := by
  rcases hb : pageBlock p with ⟨b, n⟩
  rw [hb] at hp
  refine ⟨by decide, by decide, by decide, ?_, fun h m r v => ?_, fun h v => ?_⟩
  · cases b <;> simp [mirrored, hb, rEVT_EN, rCOMMIT]
  · have hsaf : safCfgOffs.contains rEVT_EN = false := by decide
    cases b with
    | none => exact absurd rfl hp
    | saf => simp only [Hw.regEffect, hb, hsaf]; rfl
    | _ => simp [Hw.regEffect, hb, rEVT_EN, rCTRL, rCOMMIT]
  · cases b <;> simp [Hw.storedAs, hb, rEVT_EN, rFLT_CFG]

/-- Every register of a CAR, LEG, STP or THM page above the header stores what is written. -/
theorem storesAsWritten_of_block {p off : Nat} (hp : (pageBlock p).1 ∈ [Block.car, .leg, .stp, .thm]) (ho : 0x040 ≤ off) :
    StoresAsWritten p off := by
  have hoff : off ≠ rLOCK ∧ off ≠ rEVT ∧ off ≠ rCTRL ∧ off ≠ rCOMMIT ∧ off ≠ rFLT_CFG := by
    simp only [rLOCK, rEVT, rCTRL, rCOMMIT, rFLT_CFG]
    omega
  obtain ⟨hlock, hevt, hctrl, hcommit, hcfg⟩ := hoff
  rcases hb : pageBlock p with ⟨b, n⟩
  rw [hb] at hp
  simp only [List.mem_cons, List.not_mem_nil, or_false] at hp
  refine ⟨hlock, hevt, hctrl, ?_, fun h m r v => ?_, fun h v => ?_⟩
  · rcases hp with rfl | rfl | rfl | rfl <;> simp [mirrored, hb, hcommit]
  · rcases hp with rfl | rfl | rfl | rfl <;> simp [Hw.regEffect, hb, hctrl, hcommit]
  · rcases hp with rfl | rfl | rfl | rfl <;> simp [Hw.storedAs, hb, hcfg]

/-- CLK.BATCH stores what is written. -/
theorem storesAsWritten_batch : StoresAsWritten pCLK 0x048 :=
  ⟨by decide, by decide, by decide, by decide, fun _ _ _ _ => rfl, fun _ _ => rfl⟩

/-- The log moves registers at three offsets only. -/
theorem not_inLog_off {p off : Nat} (ho : off < 0x1000) (h1 : off ≠ 0x048) (h2 : off ≠ rEVT) (h3 : off ≠ rEVT_TS) :
    ¬ inLog (ra p off) := by
  rintro (e | e | e)
  · exact ra_ne_off ho (by decide) h1 e
  · exact ra_ne_off ho (by decide) h2 e
  · exact ra_ne_off ho (by decide) h3 e

/-- A software write to an unlocked page, the fault manager's among them, takes effect after its record in the log. -/
theorem Hw.swWrite_of_unlocked (h : Hw) {p : Nat} (off : Nat) (f : Hw → Hw) (hl : h.bit (ra p rLOCK) 0 = false) :
    ∃ k, Logged h k ∧ h.swWrite p off f = f k.atWrite := by
  have hk := h.log_logged p 10 (Config.writeCode p off).toNat (pageInst p) h.wgrain 0
  refine ⟨_, hk, ?_⟩
  have hlock : ¬ inLog (ra p rLOCK) := not_inLog_off (by decide) (by decide) (by decide) (by decide)
  simp only [Hw.swWrite, hk.bit hlock, hl]
  rfl

/-- A write of a register that is not LOCK, EVT or CTRL and that a pair does not mirror is a software write of its effect. -/
theorem Hw.regWrite_eq_swWrite (h : Hw) (m : Mem) (r : Nat) {p off : Nat} (v : Word) (hr : StoresAsWritten p off) :
    h.regWrite m r p off v = h.swWrite p off fun h => h.plainWrite p off (ra p off) v := by
  have hc : (off == rCTRL) = false := by simpa using hr.ne_ctrl
  simp only [Hw.regWrite, if_neg hr.ne_lock, if_neg hr.ne_evt, hr.not_mirrored, hr.effect, hc, Bool.false_and,
    Bool.false_eq_true, if_false]
  congr 1
  funext k
  split <;> rfl

/-- A write of a register of an unlocked page that stores as written is, after its record in the log, a store. -/
theorem Hw.regWrite_stores (h : Hw) (m : Mem) (r : Nat) {p off : Nat} {row : RegRow} (v : Word)
    (hr : StoresAsWritten p off) (hl : h.bit (ra p rLOCK) 0 = false) (hrow : rowAt p off = some row)
    (hport : tabGet 0 (ra p off) h.portCyc = 0) :
    ∃ k, Logged h k ∧ h.regWrite m r p off v = k.atWrite.store (ra p off) row v := by
  obtain ⟨k, hk, e⟩ := h.swWrite_of_unlocked off (fun h => h.plainWrite p off (ra p off) v) hl
  refine ⟨k, hk, ?_⟩
  have hp : tabGet 0 (ra p off) k.atWrite.portCyc ≠ k.atWrite.cycle + 1 := by
    show tabGet 0 (ra p off) k.portCyc ≠ _
    rw [hk.portCyc, hport]
    omega
  rw [h.regWrite_eq_swWrite m r v hr, e]
  simp only [Hw.plainWrite, hrow, if_neg hp, hr.value]

/-- An aligned word written in the page space is a write of the register there. -/
theorem Hw.busWrite_register (h : Hw) (m : Mem) (r : Nat) {p off : Nat} (v : Word) (hp : p < 512) (ho : off < 0x1000)
    (ha : off % 4 = 0) : h.busWrite m r (0x40000000 + ra p off) 4 v = (h.regWrite m r p off v, true) := by
  have h1 : (0x40000000 + ra p off - 0x40000000) / 0x1000 = p := by unfold ra; omega
  have h2 : (0x40000000 + ra p off) % 0x1000 = off := by unfold ra; omega
  have h3 : 0x40000000 ≤ 0x40000000 + ra p off ∧ 0x40000000 + ra p off < 0x40200000 := by unfold ra; omega
  have h4 : (4 = 4 ∧ (0x40000000 + ra p off) % 4 = 0) := by unfold ra; omega
  rw [Hw.busWrite, if_neg (by decide), if_pos h3, if_pos h4, h1, h2]

/-! ### Bus errors (R58) -/

/-- A bus error sets SYS.EVT.BUS_ERR. -/
theorem Hw.bit_busErr (h : Hw) (addr src : Nat) : (h.busErr addr src).bit (sy rEVT) 2 = true :=
  Hw.bit_evt _ pSYS (by decide)

/-- A bus error leaves every register outside the SYS page. -/
theorem Hw.reg_busErr_of_ge (h : Hw) (addr src : Nat) {b : Nat} (hb : 0x1000 ≤ b) :
    (h.busErr addr src).reg b = h.reg b := by
  have hne : ∀ off, off < 0x1000 → b ≠ ra pSYS off := fun off ho e => by
    simp only [ra, pSYS] at e
    omega
  unfold Hw.busErr
  rw [Hw.reg_evt_ne _ (hne rEVT (by decide)) (hne rEVT_TS (by decide))]
  split
  · rfl
  · rw [Hw.reg_setReg_ne (a := sy 0x050) _ (hne 0x050 (by decide)),
      Hw.reg_setReg_ne (a := sy 0x04C) _ (hne 0x04C (by decide))]

/-- A bus error latches its address where none stands. -/
theorem Hw.reg_busErr_addr (h : Hw) (addr src : Nat) : (h.busErr addr src).reg (sy 0x04C) =
    if h.bit (sy rEVT) 2 then h.reg (sy 0x04C) else BitVec.ofNat 32 addr := by
  unfold Hw.busErr
  rw [Hw.reg_evt_ne _ (by decide) (by decide)]
  split
  · rfl
  · rw [Hw.reg_setReg_ne _ (by decide), Hw.reg_setReg_same]

/-- A bus error latches its requester where none stands. -/
theorem Hw.reg_busErr_src (h : Hw) (addr src : Nat) : (h.busErr addr src).reg (sy 0x050) =
    if h.bit (sy rEVT) 2 then h.reg (sy 0x050) else BitVec.ofNat 32 src := by
  unfold Hw.busErr
  rw [Hw.reg_evt_ne _ (by decide) (by decide)]
  split
  · rfl
  · rw [Hw.reg_setReg_same]

@[simp] theorem Hw.busErr_wbuf (h : Hw) (addr src : Nat) : (h.busErr addr src).wbuf = h.wbuf := by
  unfold Hw.busErr; split <;> simp

@[simp] theorem Hw.busErr_rst (h : Hw) (addr src : Nat) : (h.busErr addr src).rst = h.rst := by
  unfold Hw.busErr; split <;> simp

/-- A fabric access of one, two or four bytes. -/
abbrev AccessSize (n : Nat) : Prop := n = 1 ∨ n = 2 ∨ n = 4

/-- A write in the page space that is not an aligned word ends with a bus error. -/
theorem Hw.busWrite_unaligned (h : Hw) (m : Mem) (r : Nat) {addr n : Nat} (v : Word)
    (hn : n = 1 ∨ n = 2 ∨ (n = 4 ∧ addr % 4 ≠ 0)) (hlo : 0x40000000 ≤ addr) (hhi : addr < 0x40200000) :
    h.busWrite m r addr n v = (h.busErr addr r, false) := by
  have hsize : ¬ (n ≠ 1 ∧ n ≠ 2 ∧ n ≠ 4) := by omega
  have hword : ¬ (n = 4 ∧ addr % 4 = 0) := by omega
  rw [Hw.busWrite, if_neg hsize, if_pos ⟨hlo, hhi⟩, if_neg hword]

/-- A write above every region ends with a bus error. -/
theorem Hw.busWrite_outside (h : Hw) (m : Mem) (r : Nat) {addr n : Nat} (v : Word) (hn : AccessSize n)
    (ha : 0x80000000 ≤ addr) : h.busWrite m r addr n v = (h.busErr addr r, false) := by
  have hsize : ¬ (n ≠ 1 ∧ n ≠ 2 ∧ n ≠ 4) := by omega
  have hpage : ¬ (0x40000000 ≤ addr ∧ addr < 0x40200000) := by omega
  have hmem : h.memWrite m addr n ((wordBytes v).take n) = (h, false) := by
    have hout : ∀ e, e ≤ 0x80000000 → ¬ addr + n ≤ e := by omega
    simp [Hw.memWrite, hout]
  rw [Hw.busWrite, if_neg hsize, if_neg hpage, hmem]
  rfl

/-! ### Application SRAM -/

/-- A byte after one byte is written. -/
theorem Hw.rd8_wr8 (h : Hw) (m : Mem) (a b : Nat) (x : Byte) :
    (h.wr8 a x).rd8 m b = if b = a then x else h.rd8 m b := by
  by_cases hb : b = a
  · subst hb
    simp [Hw.rd8, Hw.wr8]
  · simp [Hw.rd8, Hw.wr8, hb, Ne.symm hb]

/-- A byte after a run of bytes is written: of the run, or as before. -/
theorem Hw.rd8_wrN (h : Hw) (m : Mem) (a : Nat) (d : List Byte) (b : Nat) :
    (h.wrN a d).rd8 m b = if a ≤ b ∧ b < a + d.length then d.getD (b - a) 0 else h.rd8 m b := by
  induction d generalizing h a with
  | nil => simp [Hw.wrN, show ¬ (a ≤ b ∧ b < a) by omega]
  | cons x d ih =>
    rw [Hw.wrN, ih, Hw.rd8_wr8, List.length_cons]
    by_cases hb : b = a
    · subst hb
      simp
    · by_cases hin : a + 1 ≤ b ∧ b < a + 1 + d.length
      · have hsub : b - a = b - (a + 1) + 1 := by omega
        rw [if_pos hin, if_pos (by omega), hsub, List.getD_cons_succ]
      · rw [if_neg hin, if_neg hb, if_neg (by omega)]

@[simp] theorem Hw.wrN_rst (h : Hw) (a : Nat) (d : List Byte) : (h.wrN a d).rst = h.rst := by
  induction d generalizing h a with
  | nil => rfl
  | cons x d ih => exact ih _ _

/-- The bytes of a word lie in it from the lowest up. -/
theorem getD_take_wordBytes (v : Word) {n i : Nat} (hn : n ≤ 4) (hi : i < n) :
    ((wordBytes v).take n).getD i 0 = v.extractLsb' (8 * i) 8 := by
  rw [List.getD_eq_getElem?_getD, List.getElem?_take_of_lt hi]
  have hi4 : i < 4 := by omega
  interval_cases i <;> rfl

/-- A write into application SRAM writes its bytes and ends without a bus error. -/
theorem Hw.busWrite_sram (h : Hw) (m : Mem) (r : Nat) {addr n : Nat} (v : Word) (hn : AccessSize n)
    (ha : addr + n ≤ 0x200000) : h.busWrite m r addr n v = (h.wrN addr ((wordBytes v).take n), true) := by
  have hsize : ¬ (n ≠ 1 ∧ n ≠ 2 ∧ n ≠ 4) := by omega
  have hpage : ¬ (0x40000000 ≤ addr ∧ addr < 0x40200000) := by omega
  have hmem : h.memWrite m addr n ((wordBytes v).take n) = (h.wrN addr ((wordBytes v).take n), true) := by
    simp [Hw.memWrite, ha]
  rw [Hw.busWrite, if_neg hsize, if_neg hpage, hmem]
  rfl

/-! ### Latching reads (R11) -/

/-- A word just latched is the one found, whatever was latched before. -/
theorem find?_tabIns {α : Type} (k : Nat) (x : α) (t : Tab α) :
    (tabIns k x t).find? (fun e => e.1 == k) = some (k, x) := by
  induction t with
  | nil => simp [tabIns]
  | cons e t ih =>
    obtain ⟨i, w⟩ := e
    rcases Nat.lt_trichotomy k i with hlt | heq | hgt
    · simp [tabIns, hlt]
    · simp [tabIns, heq]
    · have hne : i ≠ k := by omega
      simp [tabIns, Nat.not_lt.mpr hgt.le, hne, hne.symm, ih]

/-- Reading CLK.GRAIN_LO latches GRAIN_HI. -/
theorem Hw.latch_latchedRead_grainLo (h : Hw) (m : Mem) : (h.latchedRead m 0x40001050).latch =
    tabIns (ck 0x054) (BitVec.ofNat 32 (h.grain / 2 ^ 32)) h.latch := rfl

end Sys2Proof.Machine

namespace Sys2Proof

open Machine

/-! ### From a register write to its effect -/

/-- A register write with no command of its cycle to let go first is the write over the fabric. -/
theorem gives_registerWrite {s : State} {g r addr n : Nat} {v : Word} {P : State → Prop} (hl : Live s) (ha : Alone s g)
    (hP : P (afterRun s g fun m h => (h.busWrite m r addr n v).1)) : Gives (.registerWrite g r addr n v) s P := by
  obtain ⟨hearly, hqueue⟩ := ha
  have hexec : exec (.registerWrite g r addr n v) s = actRegisterWrite g r addr n v s :=
    inTurn_alone hearly (ahead_nil hqueue)
  rw [Gives, hexec]
  exact gives_run hl hP

/-- A register write that ends with a bus error. -/
theorem gives_busErr {s : State} {g r addr n : Nat} {v : Word} {P : State → Prop} (hl : Live s) (ha : Alone s g)
    (he : ∀ (h : Hw) (m : Mem), h.busWrite m r addr n v = (h.busErr addr r, false))
    (hP : P (afterRun s g fun _ h => h.busErr addr r)) : Gives (.registerWrite g r addr n v) s P := by
  refine gives_registerWrite hl ha ?_
  simpa only [he] using hP

/-- A write of a register that stores as written puts its RW bits in the register and its RWS bits in the shadow. -/
theorem gives_store {s : State} {g r off : Nat} {page : Fin 512} {row : RegRow} {v : Word} (hl : Live s) (ha : Alone s g)
    (hu : Unlocked s page) (hr : StoresAsWritten page off) (ho : off < 0x1000) (ho4 : off % 4 = 0)
    (hlog : ¬ inLog (ra page off)) (hrow : rowAt page off = some row) (hw : row.w1c = 0)
    (hport : tabGet 0 (ra page off) s.hw.portCyc = 0) :
    Gives (.registerWrite g r (0x40000000 + ra page off) 4 v) s fun t =>
      t.hw.reg (ra page off) = underMask (s.hw.reg (ra page off)) v row.rw ∧
      t.hw.shd (ra page off) = underMask (s.hw.shd (ra page off)) v row.rws := by
  obtain ⟨k, hk, e⟩ := (s.hw.at g).regWrite_stores s.mem r v hr hu hrow hport
  refine gives_registerWrite hl ha ?_
  simp only [afterRun, Hw.busWrite_register _ _ r v page.isLt ho ho4, e]
  constructor
  · calc (k.atWrite.store (ra page off) row v).reg (ra page off)
        = underMask (k.reg (ra page off)) v row.rw := Hw.reg_store _ _ hw v
      _ = underMask (s.hw.reg (ra page off)) v row.rw := by rw [hk.reg hlog]; rfl
  · calc (k.atWrite.store (ra page off) row v).shd (ra page off)
        = underMask (k.shd (ra page off)) v row.rws := Hw.shd_store _ _ hw v
      _ = underMask (s.hw.shd (ra page off)) v row.rws := by rw [hk.shd]; rfl

/-- A bus error leaves memory as it was where the command has no write of its own. -/
theorem mem_afterRun_busErr {s : State} {g addr r : Nat} (hb : s.hw.wbuf = []) (hrst : s.hw.rst = 0) :
    (afterRun s g fun _ h => h.busErr addr r).mem = s.mem :=
  after_of_no_write (by simpa using hrst) (by simpa using hb)

/-- A byte after a write into application SRAM: of the word written, from its lowest byte up, or as before. -/
theorem memGet_afterRun_sram {s : State} {g r addr n : Nat} {v : Word} (hn : AccessSize n) (ha : addr + n ≤ 0x200000)
    (hb : s.hw.wbuf = []) (hrst : s.hw.rst = 0) (b : Nat) :
    memGet (afterRun s g fun m h => (h.busWrite m r addr n v).1).mem b =
      if addr ≤ b ∧ b < addr + n then v.extractLsb' (8 * (b - addr)) 8 else memGet s.mem b := by
  have hlen : ((wordBytes v).take n).length = n := by
    rw [List.length_take, show (wordBytes v).length = 4 from rfl]
    omega
  have hold : (s.hw.at g).rd8 s.mem b = memGet s.mem b := by simp [Hw.rd8, hb]
  simp only [afterRun, Hw.busWrite_sram _ _ r v hn ha]
  rw [memGet_after (by simpa using hrst), Hw.rd8_wrN, hlen, hold]
  split
  · next hin => exact getD_take_wordBytes v (by omega) (by omega)
  · rfl

/-- Settles O17, by what each kind of access does: a write that only stores, one that ends with a bus error, a write to
SRAM, and a latching read. -/
theorem fabricAccess : Obligations.FabricAccess := by
  unfold Obligations.FabricAccess
  intro s g r v hl
  refine ⟨?_, ?_, ?_, ?_, ?_, ?_, ?_⟩
  · intro page ha hu hp hport
    obtain ⟨t, ht, hreg, -⟩ := gives_store (r := r) (v := v) hl ha hu (storesAsWritten_evtEn hp) (by decide) (by decide)
      (not_inLog_off (by decide) (by decide) (by decide) (by decide)) (rowAt_evtEn hp) rfl hport
    exact ⟨t, ht, hreg.trans (underMask_ones _ v)⟩
  · intro page off row ha hu hblock hlo hhi h4 hrow hw hport
    have hpage : (page : Nat) ≠ pFLT := fun e => by
      rw [e] at hblock
      exact absurd hblock (by decide)
    exact gives_store hl ha hu (storesAsWritten_of_block hblock hlo) hhi h4 (not_inLog_page hpage hhi) hrow hw hport
  · intro addr n b ha hn hlo hhi hb hbuf hrst
    refine gives_busErr hl ha (fun h m => h.busWrite_unaligned m r v hn hlo hhi) ⟨?_, ?_, ?_, ?_, ?_⟩
    · exact Hw.reg_busErr_of_ge _ addr r hb
    · exact mem_afterRun_busErr hbuf hrst
    · exact Hw.bit_busErr _ addr r
    · exact Hw.reg_busErr_addr _ addr r
    · exact Hw.reg_busErr_src _ addr r
  · intro ha hu hport
    obtain ⟨t, ht, hreg, hshd⟩ := gives_store (r := r) (v := v) (page := 1) hl ha hu storesAsWritten_batch (by decide)
      (by decide) (not_inLog_page (by decide) (by decide)) rfl rfl hport
    exact ⟨t, ht, hshd, hreg.trans (underMask_zero _ v)⟩
  · intro addr n b ha hn hlast hbuf hrst _ _
    exact gives_registerWrite hl ha (memGet_afterRun_sram hn hlast hbuf hrst b)
  · intro addr n b ha hn hlo hbuf hrst _
    refine gives_busErr hl ha (fun h m => h.busWrite_outside m r v hn hlo) ⟨?_, ?_, ?_, ?_⟩
    · exact Hw.bit_busErr _ addr r
    · rw [mem_afterRun_busErr hbuf hrst]
    · exact Hw.reg_busErr_addr _ addr r
    · exact Hw.reg_busErr_src _ addr r
  · refine gives_run (f := fun m h => h.latchedRead m 0x40001050) hl ?_
    simp only [afterRun, Hw.seal_latch, Hw.latch_latchedRead_grainLo, find?_tabIns, Hw.at_grain]

end Sys2Proof

namespace Sys2Proof.Machine

/-! ### What the motion units leave as they stop -/

/-- What paces the batches: the time base, and the boundary that a synchronising shadow evaluates next. -/
def Hw.base (h : Hw) : Clk × Option Nat := (h.clk, h.pair.behind)

theorem Hw.clk_of_base {h k : Hw} (e : k.base = h.base) : k.clk = h.clk := congrArg (·.1) e
theorem Hw.behind_of_base {h k : Hw} (e : k.base = h.base) : k.pair.behind = h.pair.behind := congrArg (·.2) e

@[simp] theorem Hw.setReg_base (h : Hw) (a : Nat) (v : Word) : (h.setReg a v).base = h.base := rfl
@[simp] theorem Hw.setFwin_base (h : Hw) (p : Nat) (w : FltWin) : (h.setFwin p w).base = h.base := rfl
@[simp] theorem Hw.bump_base (h : Hw) (a hi lo : Nat) : (h.bump a hi lo).base = h.base := rfl
@[simp] theorem Hw.evt_base (h : Hw) (p i : Nat) : (h.evt p i).base = h.base := by simp only [Hw.base, Hw.evt_clk, Hw.evt_pair]
theorem Logged.base {h k : Hw} (hk : Logged h k) : k.base = h.base := by simp only [Hw.base, hk.clk, hk.pair]

/-- What the profile, line-shaft and axis units and the legs leave of the module as they stop: what paces the batches, and a
register. -/
def Hw.away (h : Hw) (b : Nat) : (Clk × Option Nat) × Word := (h.base, h.reg b)

theorem Hw.base_of_away {h k : Hw} {b : Nat} (e : k.away b = h.away b) : k.base = h.base := congrArg (·.1) e
theorem Hw.reg_of_away {h k : Hw} {b : Nat} (e : k.away b = h.away b) : k.reg b = h.reg b := congrArg (·.2) e

/-- Where every single action keeps a part of the module, a run of them keeps it. -/
theorem Hw.each_keeps {α γ : Type} (F : Hw → γ) {f : Hw → α → Hw} (hf : ∀ h x, F (f h x) = F h) (l : List α) (h : Hw) :
    F (h.each l f) = F h := by
  unfold Hw.each
  induction l generalizing h with
  | nil => rfl
  | cons x l ih => rw [List.foldl_cons, ih, hf]

/-- Registers of the motion units' pages and of the pages behind them. -/
@[simp] theorem motion_prStat (p : Nat) : 0x9000 ≤ prStat p := by unfold prStat ra pPRF; omega
@[simp] theorem motion_prCred (p : Nat) : 0x9000 ≤ prCred p := by unfold prCred ra pPRF; omega
@[simp] theorem motion_mStat (p : Nat) : 0x9000 ≤ mStat p := by unfold mStat ra pLSH; omega
@[simp] theorem motion_mWend (p : Nat) : 0x9000 ≤ mWend p := by unfold mWend ra pLSH; omega
@[simp] theorem motion_axr (a off : Nat) : 0x9000 ≤ axr a off := by unfold axr ra pAX; omega
@[simp] theorem motion_lg (n off : Nat) : 0x9000 ≤ lg n off := by unfold lg ra pLEG; omega
@[simp] theorem motion_hy (e off : Nat) : 0x9000 ≤ hy e off := by unfold hy ra pHYT; omega
@[simp] theorem motion_fbr (n off : Nat) : 0x9000 ≤ ra (pFB n) off := by unfold ra pFB; omega
@[simp] theorem motion_pPRF : 9 ≤ pPRF := by decide
@[simp] theorem motion_pAX (a : Nat) : 9 ≤ pAX a := by unfold pAX; omega
@[simp] theorem motion_pLEG (n : Nat) : 9 ≤ pLEG n := by unfold pLEG; omega
@[simp] theorem motion_pHYT (e : Nat) : 9 ≤ pHYT e := by unfold pHYT; omega

section
variable {b : Nat} (hb : b < 0x9000)

theorem Hw.each_away {α : Type} {f : Hw → α → Hw} (hf : ∀ h x, (f h x).away b = h.away b) (l : List α) (h : Hw) :
    (h.each l f).away b = h.away b := Hw.each_keeps (·.away b) hf l h

@[simp] theorem Hw.when_away {f : Hw → Hw} (hf : ∀ h, (f h).away b = h.away b) (c : Bool) (h : Hw) :
    (h.when c f).away b = h.away b := by
  unfold Hw.when
  split
  · exact hf h
  · rfl

@[simp] theorem Hw.ite_away {c : Prop} [Decidable c] (h k : Hw) :
    (if c then h else k).away b = if c then h.away b else k.away b := apply_ite (·.away b) c h k

@[simp] theorem Hw.setProf_away (h : Hw) (p : Nat) (x : PrfS) : (h.setProf p x).away b = h.away b := rfl
@[simp] theorem Hw.setGear_away (h : Hw) (u : Nat) (x : GearS) : (h.setGear u x).away b = h.away b := rfl
@[simp] theorem Hw.setAxis_away (h : Hw) (a : Nat) (x : AxS) : (h.setAxis a x).away b = h.away b := rfl
@[simp] theorem Hw.setLeg_away (h : Hw) (n : Nat) (x : LegS) : (h.setLeg n x).away b = h.away b := rfl
@[simp] theorem Hw.setFbs_away (h : Hw) (x : Tab FbS) : ({ h with fbs := x } : Hw).away b = h.away b := rfl
@[simp] theorem Hw.setHyt_away (h : Hw) (e : Nat) (x : HytS) : (h.setHyt e x).away b = h.away b := rfl

include hb

@[simp] theorem Hw.setReg_away (h : Hw) {a : Nat} (ha : 0x9000 ≤ a) (v : Word) : (h.setReg a v).away b = h.away b := by
  simp only [Hw.away, h.reg_setReg_ne (show b ≠ a by omega)]
  rfl

@[simp] theorem Hw.setF_away (h : Hw) {a : Nat} (ha : 0x9000 ≤ a) (hi lo v : Nat) : (h.setF a hi lo v).away b = h.away b :=
  h.setReg_away hb ha _

@[simp] theorem Hw.setBit_away (h : Hw) {a : Nat} (ha : 0x9000 ≤ a) (i : Nat) (v : Bool) : (h.setBit a i v).away b = h.away b :=
  h.setReg_away hb ha _

@[simp] theorem Hw.setReg64_away (h : Hw) {a : Nat} (ha : 0x9000 ≤ a) (v : Word64) : (h.setReg64 a v).away b = h.away b :=
  (Hw.setReg_away hb _ (by omega) _).trans (h.setReg_away hb ha _)

@[simp] theorem Hw.w1cSet_away (h : Hw) {a : Nat} (ha : 0x9000 ≤ a) (i : Nat) : (h.w1cSet a i).away b = h.away b :=
  h.setBit_away hb ha i true

@[simp] theorem Hw.evt_away (h : Hw) {p : Nat} (hp : 9 ≤ p) (i : Nat) : (h.evt p i).away b = h.away b := by
  have h1 : b ≠ ra p rEVT := by unfold ra; omega
  have h2 : b ≠ ra p rEVT_TS := by unfold ra; omega
  simp only [Hw.away, h.reg_evt_ne h1 h2, Hw.evt_base]

end

theorem Logged.away {h k : Hw} (hk : Logged h k) {b : Nat} (hl : ¬ inLog b) : k.away b = h.away b := by
  simp only [Hw.away, hk.reg hl, hk.base]

/-! ### Profiles -/

section
variable {b : Nat}

@[simp] theorem Hw.leaveGroup_away (h : Hw) (f : Nat) : (h.leaveGroup f).away b = h.away b := by
  simp [Hw.leaveGroup]

@[simp] theorem Hw.setNxt_away (h : Hw) (p : Nat) (r : PRec) : (h.setNxt p r).away b = h.away b :=
  (Hw.each_away (fun h u => h.setGear_away u _) _ _).trans (h.setProf_away p _)

@[simp] theorem Hw.axPut_away (h : Hw) (a : Nat) (r : PRec) : (h.axPut a r).away b = h.away b := by
  simp [Hw.axPut]

@[simp] theorem Hw.ownRec_away (h : Hw) (p : Nat) (r : PRec) : (h.ownRec p r).away b = h.away b := by
  unfold Hw.ownRec
  split <;> simp

@[simp] theorem Hw.followAgain_away (h : Hw) (p : Nat) : (h.followAgain p).away b = h.away b :=
  Hw.each_away (fun _ _ => Hw.ownRec_away _ _ _) _ _

@[simp] theorem Hw.axHigh_away (h : Hw) (a : Nat) : (h.axHigh a).away b = h.away b := rfl
@[simp] theorem Hw.wallAt_away (h : Hw) (a : Nat) (p : Word64) : (h.wallAt a p).away b = h.away b := rfl
@[simp] theorem Hw.legSafe_away (h : Hw) (n : Nat) : (h.legSafe n).away b = h.away b := rfl

variable (hb : b < 0x9000)
include hb

@[simp] theorem Hw.setPfState_away (h : Hw) (p st : Nat) : (h.setPfState p st).away b = h.away b := by
  simp [Hw.setPfState, hb]

@[simp] theorem Hw.masterFlush_away (h : Hw) (m : Nat) : (h.masterFlush m).away b = h.away b := by
  simp only [Hw.masterFlush, Hw.setReg64_away, Hw.setF_away, Hw.setBit_away, motion_mWend, motion_mStat, hb]
  rfl

@[simp] theorem Hw.flushQueue_away (h : Hw) (p : Nat) : (h.flushQueue p).away b = h.away b := by
  simp [Hw.flushQueue, hb]

@[simp] theorem Hw.flushOne_away (h : Hw) (p : Nat) : (h.flushOne p).away b = h.away b := by
  simp [Hw.flushOne, hb]

@[simp] theorem Hw.groupEnd_away (h : Hw) (p : Nat) : (h.groupEnd p).away b = h.away b :=
  Hw.each_away (fun _ _ => by simp [hb]) _ _

@[simp] theorem Hw.axisFlush_away (h : Hw) (p : Nat) : (h.axisFlush p).away b = h.away b := by
  simp [Hw.axisFlush, hb]

/-! ### Axes -/

@[simp] theorem Hw.axTakeOver_away (h : Hw) (a : Nat) : (h.axTakeOver a).away b = h.away b := by
  simp [Hw.axTakeOver, hb]

@[simp] theorem Hw.axPick_away (h : Hw) (a T X : Nat) : (h.axPick a T X).away b = h.away b := by
  unfold Hw.axPick
  dsimp only
  split
  · simp
  · split <;> simp [hb]

@[simp] theorem Hw.axShape_away (h : Hw) (a : Nat) : (h.axShape a).away b = h.away b := by
  unfold Hw.axShape
  dsimp only
  split
  · rw [Hw.followAgain_away, Hw.each_away (fun _ _ => by simp), Hw.axPick_away hb]
  · rfl

@[simp] theorem Hw.axRamp_away (h : Hw) (a dec : Nat) (vt : Int) (e : RampEnd) :
    (h.axRamp a dec vt e).away b = h.away b := by
  simp [Hw.axRamp, hb]

@[simp] theorem Hw.setAxState_away (h : Hw) (a st : Nat) : (h.setAxState a st).away b = h.away b := by
  simp [Hw.setAxState, hb]

@[simp] theorem Hw.homeEnd_away (h : Hw) (a : Nat) : (h.homeEnd a).away b = h.away b := by
  unfold Hw.homeEnd
  split
  · rfl
  · dsimp only
    rw [Hw.setAxis_away]
    split
    · rw [Hw.setBit_away hb _ (motion_fbr _ _), Hw.setFbs_away, Hw.setF_away hb _ (motion_fbr _ _),
        Hw.setF_away hb _ (motion_fbr _ _)]
    · rfl

@[simp] theorem Hw.homeDrop_away (h : Hw) (a : Nat) : (h.homeDrop a).away b = h.away b := by
  unfold Hw.homeDrop
  dsimp only
  rw [Hw.setAxis_away, Hw.homeEnd_away hb]
  split
  · split <;> simp [hb]
  · rfl

@[simp] theorem Hw.legOff_away (h : Hw) (n : Nat) : (h.legOff n).away b = h.away b := by
  simp [Hw.legOff, hb]

@[simp] theorem Hw.axisLegsOff_away (h : Hw) (a : Nat) : (h.axisLegsOff a).away b = h.away b :=
  Hw.each_away (fun _ _ => Hw.legOff_away hb _ _) _ _

@[simp] theorem Hw.forceBegin_away (h : Hw) (n : Nat) : (h.forceBegin n).away b = h.away b := by
  simp [Hw.forceBegin, hb]

@[simp] theorem Hw.axOff_away (h : Hw) (a : Nat) : (h.axOff a).away b = h.away b := by
  simp [Hw.axOff, hb]

@[simp] theorem Hw.axOffNow_away (h : Hw) (a : Nat) : (h.axOffNow a).away b = h.away b := by
  simp [Hw.axOffNow, hb]

@[simp] theorem Hw.axModeOff_away (h : Hw) (a : Nat) : (h.axModeOff a).away b = h.away b := by
  simp [Hw.axModeOff, hb]

@[simp] theorem Hw.axStop_away (h : Hw) (a dec : Nat) (e : RampEnd) : (h.axStop a dec e).away b = h.away b := by
  unfold Hw.axStop
  split
  · dsimp only
    split <;> simp [hb]
  · simp [hb]

/-- A fault of an axis leaves, beside what it enters in the log, every register below the motion units. -/
@[simp] theorem Hw.axFault_away (hl : ¬ inLog b) (h : Hw) (a code react rank : Nat) :
    (h.axFault a code react rank).away b = h.away b := by
  have hlog : ∀ rk cd i ts, (h.log (pAX a) rk cd i ts).away b = h.away b := fun _ _ _ _ => (h.log_logged ..).away hl
  unfold Hw.axFault
  split
  · simp [hb, hlog]
  · dsimp only
    split <;> simp [hb, hlog]

/-! ### Halts of the engines -/

@[simp] theorem Hw.haltForce_away (h : Hw) (axes : List Nat) (on : Bool) : (h.haltForce axes on).away b = h.away b :=
  Hw.each_away (fun _ _ => by simp [hb]) _ _

@[simp] theorem Hw.hytHalt_away (hl : ¬ inLog b) (h : Hw) (e cause : Nat) : (h.hytHalt e cause).away b = h.away b := by
  unfold Hw.hytHalt
  dsimp only
  rw [Hw.each_away fun _ _ => Hw.axFault_away hb hl _ _ _ _ _]
  simp [hb]

end

/-! ### The gears as they are evaluated again -/

@[simp] theorem motion_ls (off : Nat) : 0x9000 ≤ ls off := by unfold ls ra pLSH; omega
@[simp] theorem motion_gr (u off : Nat) : 0x9000 ≤ gr u off := motion_ls _
@[simp] theorem motion_nt (off : Nat) : 0x9000 ≤ nt off := by unfold nt ra pNTM; omega
@[simp] theorem motion_pLSH : 9 ≤ pLSH := by decide
@[simp] theorem motion_pNTM : 9 ≤ pNTM := by decide

section
variable {b : Nat} (hb : b < 0x9000)
include hb

@[simp] theorem Hw.setInt64_away (h : Hw) {a : Nat} (ha : 0x9000 ≤ a) (v : Int) : (h.setInt64 a v).away b = h.away b :=
  h.setReg64_away hb ha _

@[simp] theorem Hw.camWrap_away (m : Mem) (u : Nat) (G : Word64) (n : Nat) (h : Hw) :
    (Hw.camWrap m u G n h).away b = h.away b := by
  induction n generalizing h with
  | zero => rfl
  | succ n ih =>
    simp -implicitDefEqProofs only [Hw.camWrap, ih, Hw.ite_away, Hw.evt_away hb _ motion_pLSH, Hw.setBit_away hb _ (motion_gr _ _),
      Hw.setF_away hb _ (motion_gr _ _), Hw.setGear_away, ite_self]

@[simp] theorem Hw.gearBack_away (h : Hw) (u : Nat) (i : GearIn) : (h.gearBack u i).away b = h.away b := by
  refine (Hw.setGear_away _ _ _).trans (Hw.each_away (fun h w => ?_) _ _)
  split <;> simp [hb]

theorem Hw.gearCompute_away (h : Hw) (m : Mem) (u : Nat) (r : PRec) (l : Bool) :
    (h.gearCompute m u r l).1.away b = h.away b := by
  simp -implicitDefEqProofs only [Hw.gearCompute, apply_ite Prod.fst, Hw.ite_away, Hw.camWrap_away hb, Hw.setGear_away,
    Hw.setInt64_away hb _ (motion_gr _ _), Hw.setReg64_away hb _ (motion_ls _), Hw.setReg64_away hb _ (motion_gr _ _),
    Hw.setReg_away hb _ (motion_gr _ _), Hw.setBit_away hb _ (motion_gr _ _), Hw.setF_away hb _ (motion_gr _ _), ite_self]

theorem Hw.gearAgain_away (h : Hw) (m : Mem) (u : Nat) (r : PRec) : (h.gearAgain m u r).1.away b = h.away b := by
  simp -implicitDefEqProofs only [Hw.gearAgain, Hw.ite_away, Hw.setGear_away, Hw.setReg_away hb _ (motion_gr _ _),
    Hw.setBit_away hb _ (motion_gr _ _), Hw.setF_away hb _ (motion_gr _ _), Hw.gearCompute_away hb, Hw.gearBack_away hb, ite_self]

theorem Hw.unitsShift_away (h : Hw) (m : Mem) : (h.unitsShift m).away b = h.away b := by
  refine (Hw.each_away (fun _ _ => Hw.setProf_away _ _ _) _ _).trans (Hw.each_away (fun h u => ?_) _ _)
  dsimp only
  split
  · exact (Hw.ownRec_away _ _ _).trans (Hw.gearAgain_away hb _ _ _ _)
  · rfl

end

end Sys2Proof.Machine

namespace Sys2Proof.Machine

/-! ### Primitive updates and the shared operations -/

section
variable {α : Type}

@[simp] theorem Hw.each_base {f : Hw → α → Hw} (hf : ∀ h x, (f h x).base = h.base) (l : List α) (h : Hw) :
    (h.each l f).base = h.base := Hw.each_keeps Hw.base hf l h

@[simp] theorem Hw.when_base {f : Hw → Hw} (hf : ∀ h, (f h).base = h.base) (c : Bool) (h : Hw) :
    (h.when c f).base = h.base := by
  unfold Hw.when
  split
  · exact hf h
  · rfl

@[simp] theorem Hw.ite_base {c : Prop} [Decidable c] (h k : Hw) :
    (if c then h else k).base = if c then h.base else k.base := apply_ite Hw.base c h k
end

@[simp] theorem Hw.setF_base (h : Hw) (a hi lo v : Nat) : (h.setF a hi lo v).base = h.base := rfl
@[simp] theorem Hw.setBit_base (h : Hw) (a i : Nat) (v : Bool) : (h.setBit a i v).base = h.base := rfl
@[simp] theorem Hw.setReg64_base (h : Hw) (a : Nat) (v : Word64) : (h.setReg64 a v).base = h.base := rfl
@[simp] theorem Hw.setInt64_base (h : Hw) (a : Nat) (v : Int) : (h.setInt64 a v).base = h.base := rfl
@[simp] theorem Hw.setCount_base (h : Hw) (a : Nat) (v : Int) : (h.setCount a v).base = h.base := rfl
@[simp] theorem Hw.w1cSet_base (h : Hw) (a i : Nat) : (h.w1cSet a i).base = h.base := rfl
@[simp] theorem Hw.setLeg_base (h : Hw) (n : Nat) (x : LegS) : (h.setLeg n x).base = h.base := rfl
@[simp] theorem Hw.setBridge_base (h : Hw) (n : Nat) (x : BridgeS) : (h.setBridge n x).base = h.base := rfl
@[simp] theorem Hw.setCar_base (h : Hw) (n : Nat) (x : CarS) : (h.setCar n x).base = h.base := rfl
@[simp] theorem Hw.setProf_base (h : Hw) (n : Nat) (x : PrfS) : (h.setProf n x).base = h.base := rfl
@[simp] theorem Hw.setGear_base (h : Hw) (n : Nat) (x : GearS) : (h.setGear n x).base = h.base := rfl
@[simp] theorem Hw.setRcu_base (h : Hw) (n : Nat) (x : RcS) : (h.setRcu n x).base = h.base := rfl
@[simp] theorem Hw.setStep_base (h : Hw) (n : Nat) (x : StpS) : (h.setStep n x).base = h.base := rfl
@[simp] theorem Hw.setAxis_base (h : Hw) (n : Nat) (x : AxS) : (h.setAxis n x).base = h.base := rfl
@[simp] theorem Hw.setFb_base (h : Hw) (n : Nat) (x : FbS) : (h.setFb n x).base = h.base := rfl
@[simp] theorem Hw.setLatch_base (h : Hw) (n k : Nat) (x : LatchS) : (h.setLatch n k x).base = h.base := rfl
@[simp] theorem Hw.setDue_base (h : Hw) (n k : Nat) (d : Option (Nat × Nat)) : (h.setDue n k d).base = h.base := rfl
@[simp] theorem Hw.setSdm_base (h : Hw) (n : Nat) (x : SdmS) : (h.setSdm n x).base = h.base := rfl
@[simp] theorem Hw.setAcq_base (h : Hw) (x : AcqS) : (h.setAcq x).base = h.base := rfl
@[simp] theorem Hw.setHyt_base (h : Hw) (n : Nat) (x : HytS) : (h.setHyt n x).base = h.base := rfl
@[simp] theorem Hw.setDom_base (h : Hw) (b : Bool) (x : DomS) : (h.setDom b x).base = h.base := rfl
@[simp] theorem Hw.withAcq_base (h : Hw) (x : AcqS) : ({ h with acq := x } : Hw).base = h.base := rfl
@[simp] theorem Hw.withLastSegs_base (h : Hw) (x : Tab (List Seg)) : ({ h with lastSegs := x } : Hw).base = h.base := rfl
@[simp] theorem Hw.withNsw_base (h : Hw) (x : NswS) : ({ h with nsw := x } : Hw).base = h.base := rfl
@[simp] theorem Hw.withSys_base (h : Hw) (x : Sys) : ({ h with sys := x } : Hw).base = h.base := rfl
@[simp] theorem Hw.upPair_base (h : Hw) {f : PairS → PairS} (hf : ∀ q, (f q).behind = q.behind) :
    (h.upPair f).base = h.base := congrArg (h.clk, ·) (hf h.pair)
@[simp] theorem Hw.upHyt_base (h : Hw) (e : Nat) (f : HytS → HytS) : (h.upHyt e f).base = h.base := rfl
@[simp] theorem Hw.epSet_base (h : Hw) (e b : Nat) : (h.epSet e b).base = h.base := rfl
@[simp] theorem Hw.setPStat_base (h : Hw) (i : Nat) (v : Bool) : (h.setPStat i v).base = h.base := rfl

@[simp] theorem Hw.log_base (h : Hw) (p rk cd i ts fl : Nat) : (h.log p rk cd i ts fl).base = h.base :=
  (h.log_logged p rk cd i ts fl).base

@[simp] theorem Hw.fltEnd_base (h : Hw) (p : Nat) : (h.fltEnd p).base = h.base := (Hw.logFull_logged _ _).base

@[simp] theorem Hw.fltEvent_base (h : Hw) (p rk cd i ts : Nat) : (h.fltEvent p rk cd i ts).1.base = h.base := by
  unfold Hw.fltEvent
  dsimp only
  simp only [apply_ite Prod.fst, Hw.ite_base, Hw.log_base, Hw.setF_base, Hw.setFwin_base, Hw.bump_base, Hw.fltEnd_base, ite_self]

@[simp] theorem Hw.takePending_base (h : Hw) (p : Nat) : (h.takePending p).base = h.base := by
  unfold Hw.takePending
  split
  · dsimp only
    split <;> rfl
  · rfl

@[simp] theorem Hw.moladSend_base (h : Hw) (ty : Nat) (ack : Bool) (l : List Byte) : (h.moladSend ty ack l).base = h.base := rfl
@[simp] theorem Hw.memCopy_base (h : Hw) (a : Nat) (l : List Word) : (h.memCopy a l).base = h.base := rfl
@[simp] theorem Hw.warnAxis_base (h : Hw) (a i : Nat) : (h.warnAxis a i).base = h.base := by simp -implicitDefEqProofs [Hw.warnAxis]

@[simp] theorem Hw.acqLate_base (h : Hw) (kind inst ts : Nat) : (h.acqLate kind inst ts).base = h.base := by
  unfold Hw.acqLate
  split <;> simp -implicitDefEqProofs

@[simp] theorem Hw.acqNote_base (h : Hw) (kind inst ts v : Nat) : (h.acqNote kind inst ts v).base = h.base := by
  simp -implicitDefEqProofs [Hw.acqNote]

/-! ### Carriers -/

@[simp] theorem Hw.recalcPeriod_base (h : Hw) (c : Nat) : (h.recalcPeriod c).base = h.base := rfl
@[simp] theorem Hw.setCarDue_base (h : Hw) (c : Nat) (x : CarGo) : (h.setCarDue c x).base = h.base := rfl
@[simp] theorem Hw.legSafe_base (h : Hw) (n : Nat) : (h.legSafe n).base = h.base := rfl

@[simp] theorem Hw.carTake_base (h : Hw) (c : Nat) : (h.carTake c).base = h.base := by
  simp -implicitDefEqProofs [Hw.carTake]

@[simp] theorem Hw.carApply_base (h : Hw) (c : Nat) : (h.carApply c).base = h.base := by
  simp -implicitDefEqProofs [Hw.carApply]

@[simp] theorem Hw.carSlip_base (h : Hw) (c : Nat) : (h.carSlip c).base = h.base := by
  simp -implicitDefEqProofs [Hw.carSlip]

@[simp] theorem Hw.carCounted_base (h : Hw) (c : Nat) : (h.carCounted c).base = h.base := by
  simp -implicitDefEqProofs [Hw.carCounted]

@[simp] theorem Hw.carRestart_base (h : Hw) (c : Nat) : (h.carRestart c).base = h.base := by
  simp -implicitDefEqProofs [Hw.carRestart]

@[simp] theorem Hw.carBoundary_base (h : Hw) (c k : Nat) : (h.carBoundary c k).base = h.base := by
  simp -implicitDefEqProofs [Hw.carBoundary]

/-! ### The motion units as they stop -/

@[simp] theorem Hw.setPfState_base (h : Hw) (p st : Nat) : (h.setPfState p st).base = h.base :=
  Hw.base_of_away (b := 0) (by simp)
@[simp] theorem Hw.masterFlush_base (h : Hw) (m : Nat) : (h.masterFlush m).base = h.base :=
  Hw.base_of_away (b := 0) (by simp)
@[simp] theorem Hw.leaveGroup_base (h : Hw) (f : Nat) : (h.leaveGroup f).base = h.base :=
  Hw.base_of_away (b := 0) (by simp)
@[simp] theorem Hw.groupEnd_base (h : Hw) (p : Nat) : (h.groupEnd p).base = h.base :=
  Hw.base_of_away (b := 0) (by simp)
@[simp] theorem Hw.setNxt_base (h : Hw) (p : Nat) (r : PRec) : (h.setNxt p r).base = h.base :=
  Hw.base_of_away (b := 0) (by simp)
@[simp] theorem Hw.ownRec_base (h : Hw) (p : Nat) (r : PRec) : (h.ownRec p r).base = h.base :=
  Hw.base_of_away (b := 0) (by simp)
@[simp] theorem Hw.axPick_base (h : Hw) (a T X : Nat) : (h.axPick a T X).base = h.base :=
  Hw.base_of_away (b := 0) (by simp)
@[simp] theorem Hw.axRamp_base (h : Hw) (a dec : Nat) (vt : Int) (e : RampEnd) : (h.axRamp a dec vt e).base = h.base :=
  Hw.base_of_away (b := 0) (by simp)
@[simp] theorem Hw.setAxState_base (h : Hw) (a st : Nat) : (h.setAxState a st).base = h.base := rfl
@[simp] theorem Hw.wallAt_base (h : Hw) (a : Nat) (p : Word64) : (h.wallAt a p).base = h.base := rfl
@[simp] theorem Hw.homeEnd_base (h : Hw) (a : Nat) : (h.homeEnd a).base = h.base :=
  Hw.base_of_away (b := 0) (by simp)
@[simp] theorem Hw.axOff_base (h : Hw) (a : Nat) : (h.axOff a).base = h.base :=
  Hw.base_of_away (b := 0) (by simp)
@[simp] theorem Hw.axModeOff_base (h : Hw) (a : Nat) : (h.axModeOff a).base = h.base :=
  Hw.base_of_away (b := 0) (by simp)
@[simp] theorem Hw.axStop_base (h : Hw) (a dec : Nat) (e : RampEnd) : (h.axStop a dec e).base = h.base :=
  Hw.base_of_away (b := 0) (by simp)
@[simp] theorem Hw.forceBegin_base (h : Hw) (n : Nat) : (h.forceBegin n).base = h.base :=
  Hw.base_of_away (b := 0) (by simp)
@[simp] theorem Hw.axFault_base (h : Hw) (a code react rank : Nat) : (h.axFault a code react rank).base = h.base :=
  Hw.base_of_away (h.axFault_away (b := 0) (by decide) (by unfold inLog ra pFLT; omega) a code react rank)

end Sys2Proof.Machine

namespace Sys2Proof.Machine

/-! ### Profiles -/

@[simp] theorem Hw.notePath_base (h : Hw) (p : Nat) (s : Seg) : (h.notePath p s).base = h.base := by
  simp [Hw.notePath]
@[simp] theorem Hw.noteHeld_base (h : Hw) (p : Nat) (x : Word64) : (h.noteHeld p x).base = h.base := by
  simp [Hw.noteHeld]
@[simp] theorem Hw.loadHeld_base (h : Hw) (p : Nat) (x : Word64) : (h.loadHeld p x).base = h.base := by
  simp [Hw.loadHeld]
@[simp] theorem Hw.requeue_base (h : Hw) (p : Nat) : (h.requeue p).base = h.base := rfl

@[simp] theorem Hw.creditReturn_base (h : Hw) (p b : Nat) : (h.creditReturn p b).base = h.base := by
  simp [Hw.creditReturn]

@[simp] theorem Hw.prfFlt_base (h : Hw) (p code : Nat) : (h.prfFlt p code).base = h.base := by
  simp -implicitDefEqProofs [Hw.prfFlt]

@[simp] theorem Hw.holdAtEnd_base (h : Hw) (p : Nat) : (h.holdAtEnd p).base = h.base := by
  unfold Hw.holdAtEnd
  split <;> rfl

@[simp] theorem Hw.endLast_base (h : Hw) (l : List Nat) : (h.endLast l).base = h.base := by
  simp -implicitDefEqProofs [Hw.endLast]

@[simp] theorem Hw.endError_base (h : Hw) (l : List Nat) : (h.endError l).base = h.base := by
  simp -implicitDefEqProofs [Hw.endError]

@[simp] theorem Hw.endStarved_base (h : Hw) (l : List Nat) (b : Bool) : (h.endStarved l b).base = h.base := by
  simp -implicitDefEqProofs [Hw.endStarved]

@[simp] theorem Hw.advance_base (h : Hw) (l : List Nat) : (h.advance l).base = h.base := by
  refine Hw.each_base (fun h q => ?_) l h
  dsimp only
  split <;> simp

@[simp] theorem Hw.evalLead_base (p X n : Nat) (h : Hw) : (Hw.evalLead p X n h).1.base = h.base := by
  induction n generalizing h with
  | zero => rfl
  | succ n ih =>
    unfold Hw.evalLead
    dsimp only
    split
    · rfl
    · simp only [apply_ite Prod.fst, Hw.ite_base]
      split <;> simp -implicitDefEqProofs
      split <;> simp -implicitDefEqProofs [apply_ite Prod.fst, ih]

@[simp] theorem Hw.readLead_base (m : Mem) (p n : Nat) (h : Hw) : (Hw.readLead m p n h).base = h.base := by
  induction n generalizing h with
  | zero => rfl
  | succ n ih =>
    unfold Hw.readLead
    dsimp only
    split <;> simp [ih]

@[simp] theorem Hw.readFollow_base (m : Mem) (f n : Nat) (h : Hw) : (Hw.readFollow m f n h).base = h.base := by
  induction n generalizing h with
  | zero => rfl
  | succ n ih =>
    unfold Hw.readFollow
    dsimp only
    split <;> simp [ih]

@[simp] theorem Hw.pairUp_base (h : Hw) (p f : Nat) : (h.pairUp p f).base = h.base := by
  unfold Hw.pairUp
  dsimp only
  split <;> simp

@[simp] theorem Hw.readGroup_base (h : Hw) (m : Mem) (p : Nat) : (h.readGroup m p).base = h.base := by
  simp [Hw.readGroup]

@[simp] theorem Hw.setLedger_base (h : Hw) (p c q r : Nat) : (h.setLedger p c q r).base = h.base := rfl
@[simp] theorem Hw.freshLedger_base (h : Hw) (p : Nat) : (h.freshLedger p).base = h.base := rfl

@[simp] theorem Hw.armFollow_base (h : Hw) (p x : Nat) : (h.armFollow p x).base = h.base := by
  simp [Hw.armFollow]

@[simp] theorem Hw.joinArmed_base (h : Hw) (p : Nat) : (h.joinArmed p).base = h.base := by
  unfold Hw.joinArmed
  dsimp only
  split <;> simp

@[simp] theorem Hw.prfApplied_base (h : Hw) (p : Nat) (en : Bool) (r : Word) : (h.prfApplied p en r).base = h.base := by
  simp [Hw.prfApplied]

@[simp] theorem Hw.prfTake_base (h : Hw) : h.prfTake.base = h.base := by
  simp -implicitDefEqProofs [Hw.prfTake]

/-! ### Gears, cams and register correction -/

@[simp] theorem Hw.camWrap_base (m : Mem) (u : Nat) (G : Word64) (n : Nat) (h : Hw) :
    (Hw.camWrap m u G n h).base = h.base := Hw.base_of_away (b := 0) (by simp)
@[simp] theorem Hw.gearCompute_base (h : Hw) (m : Mem) (u : Nat) (r : PRec) (l : Bool) :
    (h.gearCompute m u r l).1.base = h.base := Hw.base_of_away (Hw.gearCompute_away (b := 0) (by decide) h m u r l)

@[simp] theorem Hw.gearEval_base (h : Hw) (m : Mem) (u : Nat) (r : PRec) (l : Bool) : (h.gearEval m u r l).1.base = h.base := by
  simp -implicitDefEqProofs [Hw.gearEval]

@[simp] theorem Hw.phCorrect_base (h : Hw) (u : Nat) (d : Int) : (h.phCorrect u d).base = h.base := rfl

@[simp] theorem Hw.lshFlt_base (h : Hw) (code inst : Nat) : (h.lshFlt code inst).base = h.base := by
  simp -implicitDefEqProofs [Hw.lshFlt]

@[simp] theorem Hw.lshTake_base (h : Hw) : h.lshTake.base = h.base := by
  simp -implicitDefEqProofs [Hw.lshTake]

@[simp] theorem Hw.latchArm_base (h : Hw) (n k g : Nat) : (h.latchArm n k g).base = h.base := by
  simp -implicitDefEqProofs [Hw.latchArm]
@[simp] theorem Hw.latchDisarm_base (h : Hw) (n k g : Nat) : (h.latchDisarm n k g).base = h.base := by
  simp -implicitDefEqProofs [Hw.latchDisarm]

@[simp] theorem Hw.rcMark_base (h : Hw) (r mp ph T : Nat) : (h.rcMark r mp ph T).base = h.base := by
  simp -implicitDefEqProofs only [Hw.rcMark, Hw.ite_base, Hw.phCorrect_base, Hw.setRcu_base, Hw.setBit_base, Hw.setF_base, Hw.bump_base,
    Hw.setReg_base, Hw.setInt64_base, Hw.evt_base, ite_self]
@[simp] theorem Hw.rcArm_base (h : Hw) (r : Nat) : (h.rcArm r).base = h.base := by
  simp -implicitDefEqProofs [Hw.rcArm]
@[simp] theorem Hw.rcMiss_base (h : Hw) (r : Nat) : (h.rcMiss r).base = h.base := by
  simp -implicitDefEqProofs [Hw.rcMiss]
@[simp] theorem Hw.rcBoundary_base (h : Hw) (r : Nat) : (h.rcBoundary r).base = h.base := by
  unfold Hw.rcBoundary
  split
  · rfl
  · extract_lets x mp cfg rep pB org phase marks k1 k2 rejected z k3 eB isOpen was y k4 k5 z1 k6
    have e1 : k1.base = h.base := Hw.setRcu_base h r _
    clear_value k1
    have e2 : k2.base = h.base := by
      clear_value phase
      exact (Hw.each_base (fun h T => Hw.rcMark_base h r mp phase T) marks k1).trans e1
    clear_value k2
    have e3 : k3.base = h.base := by
      simp -implicitDefEqProofs only [k3, Hw.ite_base, Hw.setRcu_base, ite_self, e2]
    clear_value k3
    have e4 : k4.base = h.base := (Hw.setBit_base k3 _ _ _).trans e3
    clear_value k4
    have e5 : k5.base = h.base := (Hw.when_base (fun _ => Hw.latchDisarm_base _ _ _ _) _ k4).trans e4
    clear_value k5
    have e6 : k6.base = h.base := (Hw.setRcu_base k5 r _).trans e5
    simp -implicitDefEqProofs only [Hw.ite_base, Hw.rcMiss_base, Hw.rcArm_base, Hw.setRcu_base, ite_self, e4, e6]

@[simp] theorem Hw.setOwed_base (h : Hw) (c : Nat) : (h.setOwed c).base = h.base := rfl
@[simp] theorem Hw.stepPlan_base (h : Hw) (c : Nat) (r : PRec) : (h.stepPlan c r).base = h.base := by
  simp -implicitDefEqProofs [Hw.stepPlan]

/-! ### Axes -/

@[simp] theorem Hw.homeMove_base (h : Hw) (a : Nat) (x : HomeS) (ph : HomePhase) (n : Bool) (v : Int) :
    (h.homeMove a x ph n v).base = h.base := by
  simp [Hw.homeMove]
@[simp] theorem Hw.homeAbort_base (h : Hw) (a e : Nat) : (h.homeAbort a e).base = h.base := by
  simp [Hw.homeAbort]
@[simp] theorem Hw.limShift_base (h : Hw) (a : Nat) (s : Int) : (h.limShift a s).base = h.base := rfl

@[simp] theorem Hw.profError_base (h : Hw) (a : Nat) : (h.profError a).base = h.base := by
  simp [Hw.profError]

@[simp] theorem Hw.profRec_base (h : Hw) (p : Nat) (o : PRec) (T X : Nat) : (h.profRec p o T X).base = h.base := by
  unfold Hw.profRec
  split <;> simp

@[simp] theorem Hw.profRelease_base (h : Hw) (p B : Nat) : (h.profRelease p B).base = h.base := by
  simp [Hw.profRelease]

@[simp] theorem Hw.axRampEnd_base (h : Hw) (a : Nat) : (h.axRampEnd a).base = h.base := by
  unfold Hw.axRampEnd
  dsimp only
  split
  · rw [Hw.ite_base]
    split
    · rfl
    · split
      case h_4 => split <;> simp
      all_goals simp
  · rfl

@[simp] theorem Hw.homeDist_base (h : Hw) (a : Nat) : (h.homeDist a).base = h.base := by
  unfold Hw.homeDist
  dsimp only
  split <;> simp

@[simp] theorem Hw.protWaitAt_base (h : Hw) (a : Nat) : (h.protWaitAt a).base = h.base := by
  simp [Hw.protWaitAt]

/-! ### The units at a boundary -/

@[simp] theorem Hw.unitLead_base (h : Hw) (m : Mem) (p T X : Nat) : (h.unitLead m p T X).base = h.base := by
  simp [Hw.unitLead]
@[simp] theorem Hw.unitFollow_base (h : Hw) (f T X : Nat) : (h.unitFollow f T X).base = h.base := by
  simp [Hw.unitFollow]
@[simp] theorem Hw.unitGear_base (h : Hw) (m : Mem) (u T X : Nat) : (h.unitGear m u T X).base = h.base := by
  simp [Hw.unitGear]
@[simp] theorem Hw.unitsEval_base (h : Hw) (m : Mem) (T X : Nat) : (h.unitsEval m T X).base = h.base := by
  simp -implicitDefEqProofs [Hw.unitsEval]
@[simp] theorem Hw.unitsRelease_base (h : Hw) (B : Nat) : (h.unitsRelease B).base = h.base := by
  simp -implicitDefEqProofs [Hw.unitsRelease]
@[simp] theorem Hw.unitsPlan_base (h : Hw) : h.unitsPlan.base = h.base := by
  simp -implicitDefEqProofs [Hw.unitsPlan]

/-! ### Feedback ports, sigma-delta channels, engines, acquisition -/

@[simp] theorem Hw.fbSnap_base (h : Hw) (n : Nat) : (h.fbSnap n).base = h.base := by
  simp [Hw.fbSnap]
@[simp] theorem Hw.fbBoundary_base (h : Hw) (n : Nat) : (h.fbBoundary n).base = h.base := by
  simp [Hw.fbBoundary]
@[simp] theorem Hw.fbEv_base (h : Hw) (n ts : Nat) (e : FbEv) : (h.fbEv n ts e).base = h.base := by
  simp [Hw.fbEv]
@[simp] theorem Hw.repFollow_base (h : Hw) (n ts : Nat) : (h.repFollow n ts).base = h.base := by
  simp [Hw.repFollow]

@[simp] theorem Hw.posLoad_base (h : Hw) (n : Nat) (v : Int) (ts : Nat) : (h.posLoad n v ts).base = h.base := by
  unfold Hw.posLoad
  dsimp only
  rw [Hw.evt_base, Hw.each_base]
  · simp
  · intro h k
    split <;> simp

@[simp] theorem Hw.homeLoad_base (h : Hw) (a : Nat) : (h.homeLoad a).base = h.base := by
  simp [Hw.homeLoad]
@[simp] theorem Hw.fbReconf_base (h : Hw) (n : Nat) : (h.fbReconf n).base = h.base := by
  simp -implicitDefEqProofs [Hw.fbReconf]
@[simp] theorem Hw.fbTake_base (h : Hw) (n : Nat) : (h.fbTake n).base = h.base := by
  simp [Hw.fbTake]
@[simp] theorem Hw.selEvent_base (h : Hw) (kind inst : Nat) : (h.selEvent kind inst).base = h.base := by
  simp -implicitDefEqProofs [Hw.selEvent]
@[simp] theorem Hw.dclkBoundary_base (h : Hw) : h.dclkBoundary.base = h.base := by
  simp -implicitDefEqProofs [Hw.dclkBoundary]
@[simp] theorem Hw.crustRestart_base (h : Hw) (n : Nat) : (h.crustRestart n).base = h.base := rfl
@[simp] theorem Hw.sdmStart_base (h : Hw) (n : Nat) : (h.sdmStart n).base = h.base := by
  simp only [Hw.sdmStart, Hw.crustRestart_base, Hw.setBit_base, Hw.setSdm_base, Hw.setF_base]
@[simp] theorem Hw.sdmTake_base (h : Hw) (n : Nat) : (h.sdmTake n).base = h.base := by
  have starts : ∀ (p : Hw → Nat → Bool) (l : List Nat) c (k : Hw), (k.when c fun h =>
      (h.setSdm n { h.sdmS n with div := [32 * h.grain] }).each (l.filter (p h)) Hw.sdmStart).base = k.base :=
    fun _ _ c k => Hw.when_base (fun _ => (Hw.each_base Hw.sdmStart_base _ _).trans (Hw.setSdm_base _ _ _)) c k
  have crust : ∀ c (k : Hw), (k.when c fun h => h.crustRestart n).base = k.base :=
    fun c k => Hw.when_base (fun _ => Hw.crustRestart_base _ _) c k
  simp only [Hw.sdmTake, Hw.ite_base, crust, Hw.sdmStart_base, starts, Hw.takePending_base, Hw.setSdm_base, ite_self]
@[simp] theorem Hw.acqSeed_base (h : Hw) : h.acqSeed.base = h.base := rfl
@[simp] theorem Hw.acqTake_base (h : Hw) : h.acqTake.base = h.base := by
  simp [Hw.acqTake]
@[simp] theorem Hw.loadShow_base (h : Hw) (e : Nat) : (h.loadShow e).base = h.base := by
  simp -implicitDefEqProofs [Hw.loadShow]
@[simp] theorem Hw.kHooks_base (h : Hw) (m : Mem) (e : Nat) : (h.kHooks m e).base = h.base := by
  simp -implicitDefEqProofs [Hw.kHooks]
@[simp] theorem Hw.dropArrivals_base (h : Hw) : h.dropArrivals.base = h.base := by
  simp [Hw.dropArrivals]

/-! ### Network time and the switch -/

@[simp] theorem Hw.domLock_base (h : Hw) (b on : Bool) : (h.domLock b on).base = h.base := by
  simp [Hw.domLock]
@[simp] theorem Hw.domMaster_base (h : Hw) (b : Bool) (x : Option PtpAnnounceMsg) : (h.domMaster b x).base = h.base := by
  simp [Hw.domMaster]
@[simp] theorem Hw.ntmTake_base (h : Hw) : h.ntmTake.base = h.base := by
  simp -implicitDefEqProofs [Hw.ntmTake]
@[simp] theorem Hw.nswCycle_base (h : Hw) (t : Nat) : (h.nswCycle t).base = h.base := by
  simp -implicitDefEqProofs [Hw.nswCycle]
@[simp] theorem Hw.nswTake_base (h : Hw) : h.nswTake.base = h.base := by
  simp -implicitDefEqProofs [Hw.nswTake]

/-! ### Modes and the pair -/

@[simp] theorem Hw.ownRelease_base (h : Hw) : h.ownRelease.base = h.base := rfl
@[simp] theorem Hw.modeNote_base (h : Hw) (m old : BitVec 3) (o : Nat) : (h.modeNote m old o).base = h.base := rfl
@[simp] theorem Hw.soOpen_base (h : Hw) : h.soOpen.base = h.base := rfl
@[simp] theorem Hw.modeShut_base (h : Hw) (m : BitVec 3) : (h.modeShut m).base = h.base := by
  simp -implicitDefEqProofs [Hw.modeShut]
@[simp] theorem Hw.modeRefuse_base (h : Hw) (r : Nat) : (h.modeRefuse r).base = h.base := by
  simp -implicitDefEqProofs [Hw.modeRefuse]
@[simp] theorem Hw.modeCore_base (h : Hw) (m old : BitVec 3) (o : Nat) : (h.modeCore m old o).base = h.base := by
  simp -implicitDefEqProofs [Hw.modeCore]
@[simp] theorem Hw.setMode_base (h : Hw) (m : BitVec 3) (o : Nat) : (h.setMode m o).base = h.base := by
  simp -implicitDefEqProofs [Hw.setMode]
@[simp] theorem Hw.toShadow_base (h : Hw) : h.toShadow.base = h.base := by
  simp -implicitDefEqProofs [Hw.toShadow]

@[simp] theorem Hw.modeBoundary_base (h : Hw) : h.modeBoundary.base = h.base := by
  unfold Hw.modeBoundary
  split
  · rfl
  · simp

@[simp] theorem Hw.shadowBoundary_base (h : Hw) : h.shadowBoundary.base = h.base := by
  simp -implicitDefEqProofs [Hw.shadowBoundary]
@[simp] theorem Hw.syncLost_base (h : Hw) : h.syncLost.base = h.base := rfl
@[simp] theorem Hw.pairFlt_base (h : Hw) (code inst : Nat) : (h.pairFlt code inst).base = h.base := by
  simp -implicitDefEqProofs [Hw.pairFlt]
@[simp] theorem Hw.compare_base (h : Hw) (a b : Word) : (h.compare a b).base = h.base := by
  simp -implicitDefEqProofs [Hw.compare]

@[simp] theorem Hw.compareAt_base (h : Hw) (i : Nat) : (h.compareAt i).base = h.base := by
  unfold Hw.compareAt
  split <;> simp

@[simp] theorem Hw.compareSend_base (h : Hw) (X : Nat) : (h.compareSend X).base = h.base := by
  simp -implicitDefEqProofs [Hw.compareSend]

@[simp] theorem Hw.sendState_base (n : Nat) (l : List Word) (o : Nat) (h : Hw) : (Hw.sendState n l o h).base = h.base := by
  induction n generalizing l o h with
  | zero => rfl
  | succ n ih => simp -implicitDefEqProofs [Hw.sendState, ih]

@[simp] theorem Hw.sendCopy_base (h : Hw) (m : Mem) (a n : Nat) : (h.sendCopy m a n).base = h.base := by
  simp -implicitDefEqProofs [Hw.sendCopy]
@[simp] theorem Hw.sendSync_base (h : Hw) (a : Bool) (p b : Nat) : (h.sendSync a p b).base = h.base := rfl
@[simp] theorem Hw.captureUnits_base (h : Hw) (m : Mem) (X : Nat) : (h.captureUnits m X).base = h.base := by
  simp -implicitDefEqProofs [Hw.captureUnits]

@[simp] theorem Hw.copyDone_base (h : Hw) (X : Nat) : (h.copyDone X).base = h.base := by
  unfold Hw.copyDone
  split <;> simp

/-! ### The commits and the work of a boundary -/

@[simp] theorem Hw.batchTake_base (h : Hw) (p : Nat) : (h.batchTake p).base = h.base := by
  unfold Hw.batchTake
  split <;> simp [Hw.pairTake]

@[simp] theorem Hw.batchCommits_base (h : Hw) : h.batchCommits.base = h.base := by
  simp [Hw.batchCommits]

end Sys2Proof.Machine

namespace Sys2Proof.Machine

/-! ### The time base at a boundary -/

/-- Registers of the CLK page and of the pages before it that an entry of the log does not change. -/
theorem ck_not_inLog (off : Nat) (ho : off < 0x1000) : ¬ inLog (ck off) := by
  unfold inLog ck ra pCLK pFLT
  omega

theorem Hw.evt_away_ne {b : Nat} (h : Hw) {p : Nat} (i : Nat) (h1 : b ≠ ra p rEVT) (h2 : b ≠ ra p rEVT_TS) :
    (h.evt p i).away b = h.away b := by
  simp only [Hw.away, h.reg_evt_ne h1 h2, Hw.evt_base]

theorem Hw.setReg_away_ne {b : Nat} (h : Hw) {a : Nat} (ha : b ≠ a) (v : Word) : (h.setReg a v).away b = h.away b := by
  simp only [Hw.away, h.reg_setReg_ne ha]
  rfl

theorem Hw.setF_away_ne {b : Nat} (h : Hw) {a : Nat} (ha : b ≠ a) (hi lo v : Nat) : (h.setF a hi lo v).away b = h.away b :=
  h.setReg_away_ne ha _

theorem Hw.setBit_away_ne {b : Nat} (h : Hw) {a : Nat} (ha : b ≠ a) (i : Nat) (v : Bool) : (h.setBit a i v).away b = h.away b :=
  h.setReg_away_ne ha _

theorem Hw.setReg64_away_ne {b : Nat} (h : Hw) {a : Nat} (ha : b ≠ a) (ha' : b ≠ a + 4) (v : Word64) :
    (h.setReg64 a v).away b = h.away b :=
  (Hw.setReg_away_ne _ ha' _).trans (h.setReg_away_ne ha _)

section
variable {b : Nat} (hb : b < 0x9000)
include hb

theorem Hw.ctSource_away (h : Hw) : h.ctSource.away b = h.away b := by
  simp -implicitDefEqProofs [Hw.ctSource, hb]

theorem Hw.ctStepDue_away (h : Hw) : h.ctStepDue.1.away b = h.away b := by
  have unwant : ∀ (k : Hw) (x : NtmS), ({ k with ntm := x } : Hw).away b = k.away b := fun _ _ => rfl
  unfold Hw.ctStepDue
  split
  · rfl
  · extract_lets auto w k
    have hk : k.away b = h.away b := by
      simp only [k]
      split
      · split
        · exact (Hw.evt_away hb _ motion_pNTM _).trans (unwant _ _)
        · rfl
      · rfl
    split <;> exact hk

end

/-- The registers of the CLK page that the time base reads: BATCH, and COMMIT with its PENDING bit. -/
theorem Hw.slip_away {off : Nat} (ho : off = 0x048 ∨ off = rCOMMIT) (h : Hw) (X : Nat) (e : Bool) :
    (h.slip X e).away (ck off) = h.away (ck off) := by
  have hl : ¬ inLog (ck off) := ck_not_inLog off (by rcases ho with rfl | rfl <;> decide)
  have hS : ck off ≠ ck 0x068 := by rcases ho with rfl | rfl <;> decide
  have hE : ck off ≠ ra pCLK rEVT := by rcases ho with rfl | rfl <;> decide
  have hT : ck off ≠ ra pCLK rEVT_TS := by rcases ho with rfl | rfl <;> decide
  have entry : ∀ (k : Hw) (g : Nat), ((k.evt pCLK 3).log pCLK 10 3 0 g).away (ck off) = k.away (ck off) := fun k g =>
    ((k.evt pCLK 3).log_logged pCLK 10 3 0 g 0 |>.away hl).trans (k.evt_away_ne 3 hE hT)
  simp -implicitDefEqProofs only [Hw.slip, Hw.ite_away, entry, Hw.setF_away_ne h hS, ite_self]

/-- Without a pending change of BATCH and NCYC a boundary changes neither. -/
theorem Hw.batchChange_of_not_pending {h : Hw} (hp : h.pending pCLK = false) : h.batchChange = h := by
  have ht : h.takes pCLK = false := by simp [Hw.takes, hp]
  simp [Hw.batchChange, Hw.batchApply, ht]

/-- The slewing of CT changes its increment alone. -/
theorem Hw.ctSlew_base (h : Hw) : ∃ i, h.ctSlew.base = ({ h.clk with ctInc := i }, h.pair.behind) := by
  have fault : ∀ (k : Hw) e, (k.timeFault e).base = k.base := fun k e => by
    simp -implicitDefEqProofs [Hw.timeFault]
  unfold Hw.ctSlew
  extract_lets B e k inc
  split
  · exact ⟨h.clk.ctInc, rfl⟩
  · exact ⟨inc, fault _ _⟩

/-- A boundary at which CT goes on: the batch begins at X, the next boundary is one BATCH later. -/
theorem Hw.moveBase_base (h : Hw) (X : Nat) : ∃ c, (h.moveBase X).base = (c, h.pair.behind) ∧ c.lastB = X
    ∧ c.nextB = X + h.batch ∧ c.batchNum = X / h.batch ∧ c.stepped = h.clk.stepped := by
  unfold Hw.moveBase
  extract_lets c k
  obtain ⟨i, hi⟩ := (k.setReg (ck 0x060) (BitVec.ofNat 32 ((X / k.batch) % max 1 k.ncyc))).ctSlew_base
  exact ⟨_, hi, rfl, rfl, rfl, rfl⟩

/-- After a step of CT the next boundary is at a whole number of batches. -/
theorem Hw.ctStep_base (h : Hw) (v inc : Nat) :
    ∃ c n, (h.ctStep v inc).base = (c, h.pair.behind) ∧ c.nextB = n * h.batch := by
  unfold Hw.ctStep
  extract_lets B c w k1 next d k2 k3 k4
  have hnext : next = (k1.ctGrains (B + 2499) / h.batch + 1) * h.batch := rfl
  refine ⟨k2.clk, _, ?_, hnext⟩
  simp -implicitDefEqProofs only [Hw.ctClamped, Hw.setBit_base, Hw.evt_base, Hw.setReg_base, k4, k3]
  rfl

theorem Hw.batch_of_away {h k : Hw} (e : k.away (ck 0x048) = h.away (ck 0x048)) : k.batch = h.batch :=
  congrArg (fld · 18 0) (Hw.reg_of_away e)

theorem Hw.pending_of_away {h k : Hw} (e : k.away (ck rCOMMIT) = h.away (ck rCOMMIT)) : k.pending pCLK = h.pending pCLK :=
  congrArg (bitOf · 16) (Hw.reg_of_away e)

theorem Hw.not_stepped_of_ctStepDue {h : Hw} {x : Nat × Nat} (hx : h.ctStepDue.2 = some x) : h.clk.stepped = false := by
  by_contra hs
  rw [Hw.ctStepDue, if_pos (by simpa using hs)] at hx
  cases hx

/-- The time base at boundary X, without a pending change of BATCH and NCYC: CT goes on, or, where it has not been
stepped, it steps. -/
theorem Hw.timeBoundary_base {h : Hw} (hp : h.pending pCLK = false) (X : Nat) :
    ∃ c, (h.timeBoundary X).1.base = (c, h.pair.behind) ∧
      (c.lastB = X ∧ c.nextB = X + h.batch ∧ c.batchNum = X / h.batch ∧ c.stepped = h.clk.stepped ∨
        h.clk.stepped = false ∧ ∃ n, c.nextB = n * h.batch) := by
  unfold Hw.timeBoundary
  extract_lets B d k1 legs steps k2 k3 k4
  have a1 : ∀ b < 0x9000, k1.away b = h.away b := fun b hb => (Hw.ctStepDue_away hb _).trans (Hw.ctSource_away hb _)
  have s2 : ∀ off, off = 0x048 ∨ off = rCOMMIT → k2.away (ck off) = h.away (ck off) := fun off ho =>
    (k1.slip_away ho X _ |> fun e => e).trans (a1 _ (by rcases ho with rfl | rfl <;> decide))
  have hp2 : k2.pending pCLK = false := (Hw.pending_of_away (s2 rCOMMIT (.inr rfl))).trans hp
  have e3 : k3 = k2 := by
    simp only [k3, Hw.batchChange_of_not_pending hp2, ite_self]
  have a4 : k4.away (ck 0x048) = h.away (ck 0x048) :=
    (Hw.setReg_away_ne _ (by decide) _).trans ((Hw.setReg64_away_ne _ (by decide) (by decide) _).trans
      ((congrArg (Hw.away · (ck 0x048)) e3).trans (s2 0x048 (.inl rfl))))
  have b4 : k4.base = h.base := Hw.base_of_away a4
  have c4 : k4.clk = h.clk := Hw.clk_of_base b4
  have p4 : k4.pair.behind = h.pair.behind := Hw.behind_of_base b4
  have n4 : k4.batch = h.batch := Hw.batch_of_away a4
  -- CT goes on, the bits of a step that waits set or cleared
  have goes : ∀ w, ∃ c, ((k4.stepWait w).moveBase X).base = (c, h.pair.behind) ∧
      (c.lastB = X ∧ c.nextB = X + h.batch ∧ c.batchNum = X / h.batch ∧ c.stepped = h.clk.stepped) := fun w => by
    have aw : (k4.stepWait w).away (ck 0x048) = k4.away (ck 0x048) :=
      (Hw.setBit_away_ne _ (by decide) _ _).trans (k4.setBit_away_ne (by decide) _ _)
    have bw : (k4.stepWait w).base = h.base := (Hw.base_of_away aw).trans b4
    obtain ⟨c, hc, h1, h2, h3, h4⟩ := (k4.stepWait w).moveBase_base X
    rw [Hw.behind_of_base bw] at hc
    rw [Hw.batch_of_away aw, n4] at h2 h3
    rw [Hw.clk_of_base bw] at h4
    exact ⟨c, hc, h1, h2, h3, h4⟩
  split
  · rename_i v inc hd
    split
    · obtain ⟨c, hc, hs⟩ := goes true
      exact ⟨c, hc, .inl hs⟩
    · have hs : h.clk.stepped = false := by
        rw [← Hw.clk_of_base (Hw.base_of_away (Hw.ctSource_away (b := 0) (by decide) h))]
        exact Hw.not_stepped_of_ctStepDue hd
      obtain ⟨c, n, hc, hn⟩ := k4.ctStep_base v inc
      rw [n4] at hn
      rw [p4] at hc
      generalize k4.ctStep v inc = k at hc ⊢
      have hclk : k.clk = c := congrArg (·.1) hc
      have hbeh : k.pair.behind = h.pair.behind := congrArg (·.2) hc
      refine ⟨{ c with lastB := c.nextB - k.batch }, ?_, .inr ⟨hs, n, hn⟩⟩
      simp only [Hw.base, hclk, hbeh]
  · obtain ⟨c, hc, hs⟩ := goes false
    exact ⟨c, hc, .inl hs⟩

/-! ### The work of a boundary -/

/-- A live module, or a shadow that is not behind, evaluates its units once. -/
theorem Hw.batchUnits_base {h : Hw} (hb : h.pair.behind = none) (m : Mem) (X n : Nat) :
    (h.batchUnits m X n).base = h.base := by
  simp -implicitDefEqProofs [Hw.batchUnits, hb]

/-- After the time base nothing of a boundary's work changes it. -/
theorem Hw.batchBoundary_base {h : Hw} (hb : h.pair.behind = none) (hp : h.pending pCLK = false) (m : Mem) :
    ∃ c, (h.batchBoundary m).base = (c, none) ∧
      (c.lastB = h.clk.nextB ∧ c.nextB = h.clk.nextB + h.batch ∧ c.batchNum = h.clk.nextB / h.batch
          ∧ c.stepped = h.clk.stepped ∨
        h.clk.stepped = false ∧ ∃ n, c.nextB = n * h.batch) := by
  have ha : ∀ b < 0x9000, (h.unitsShift m).away b = h.away b := fun b hlt => Hw.unitsShift_away hlt h m
  have hsh : (h.unitsShift m).base = h.base := Hw.base_of_away (ha 0 (by decide))
  have hbatch : (h.unitsShift m).batch = h.batch := Hw.batch_of_away (ha _ (by decide))
  have hpend : (h.unitsShift m).pending pCLK = false := (Hw.pending_of_away (ha _ (by decide))).trans hp
  obtain ⟨c, hc, hcase⟩ := Hw.timeBoundary_base hpend h.clk.nextB
  rw [Hw.behind_of_base hsh, hb] at hc
  rw [hbatch, Hw.clk_of_base hsh] at hcase
  refine ⟨c, ?_, hcase⟩
  unfold Hw.batchBoundary
  extract_lets X B k0 t k1 cyc k2 k3 k4 k5 k6 k7 k8 k9 k10 k11 k12 k13
  have e0 : k0 = h.unitsShift m := by simp only [k0, hb, Hw.when, Option.isNone_none, if_true]
  have e1 : k1.base = (c, none) := by simpa only [k1, t, e0] using hc
  have e5 : k5.base = (c, none) := by
    simp -implicitDefEqProofs only [k5, k4, k3, k2, Hw.dclkBoundary_base, Hw.batchCommits_base, Hw.when_base,
      Hw.unitsRelease_base, Hw.each_base, Hw.fbBoundary_base, Hw.homeLoad_base, e1, implies_true]
  have e6 : k6.base = (c, none) := (Hw.batchUnits_base (congrArg (·.2) e5) m X _).trans e5
  have e13 : k13.base = k6.base := by
    simp -implicitDefEqProofs only [k13, k12, k11, k10, k9, k8, k7, Hw.ite_base, Hw.nswCycle_base, Hw.nswTake_base,
      Hw.selEvent_base, Hw.dropArrivals_base, Hw.copyDone_base, Hw.captureUnits_base, Hw.compareSend_base,
      Hw.shadowBoundary_base, Hw.modeBoundary_base, Hw.each_base, Hw.carBoundary_base, implies_true, ite_self]
  exact ((Hw.each_base (fun h e => (Hw.kHooks_base _ _ _).trans (h.loadShow_base e)) _ _).trans e13).trans e6

end Sys2Proof.Machine

namespace Sys2Proof
open Machine

theorem Machine.Hw.clk_of_base_eq {h : Hw} {c : Clk} {b : Option Nat} (e : h.base = (c, b)) : h.clk = c := congrArg (·.1) e

/-- What a command of the module is said to give on a die that runs holds of the state it leads to. -/
theorem afterRun_of_gives {c : Instr} {s : State} {g : Nat} {f : Mem → Hw → Hw} {P : State → Prop}
    (hc : exec c s = run g f s) (hl : Live s) (h : Gives c s P) : P (afterRun s g f) := by
  obtain ⟨t, ht, hP⟩ := h
  rw [hc, run_of_free f hl] at ht
  cases ht
  exact hP

/-- Settles O9: the units' shift before the time base keeps the CLK page, and nothing after it touches the time base. -/
theorem batchBoundaryTimeBase : Obligations.BatchBoundaryTimeBase := by
  intro s g hl hreach hstep hpend hbeh
  refine gives_run (f := fun m h => h.boundaryCmd m) hl ?_
  obtain ⟨c, hc, hcase⟩ := Hw.batchBoundary_base (h := s.hw.at g) hbeh hpend s.mem
  have hclk : ((s.hw.at g).boundaryCmd s.mem).clk = c := by
    rw [Hw.boundaryCmd, if_pos (show (s.hw.at g).clk.nextB ≤ (s.hw.at g).ctGrains (s.hw.at g).grain from hreach)]
    exact Hw.clk_of_base_eq hc
  obtain ⟨h1, h2, h3, h4⟩ | ⟨h1, -⟩ := hcase
  · simp only [afterRun, Hw.seal_clk, hclk]
    exact ⟨h1, h2, h3, h4.trans hstep⟩
  · exact absurd (h1.symm.trans hstep) (by decide)

/-- A module with BATCH 0, whose next boundary is instant 0 and where a step of CT to CT_SET waits. -/
def batchZero : State :=
  { hw := { regs := [(ck 0x048, 0)], clk := { nextB := 0 }, ntm := { want := some (true, 0) } } }

/-- With BATCH 0 the next boundary stays at instant 0, whichever way a step of CT ends. -/
theorem Machine.Hw.ctStepCmd_nextB_zero {h : Hw} (hb : h.pair.behind = none) (hp : h.pending pCLK = false)
    (h0 : h.batch = 0) (hX : h.clk.nextB = 0) (m : Mem) : (h.ctStepCmd m).clk.nextB = 0 := by
  unfold Hw.ctStepCmd
  split
  · obtain ⟨c, hc, ⟨-, h2, -⟩ | ⟨-, n, hn⟩⟩ := Hw.batchBoundary_base hb hp m
    · rw [Hw.clk_of_base_eq hc, h2, h0, hX]
    · rw [Hw.clk_of_base_eq hc, hn, h0, Nat.mul_zero]
  · exact hX

/-- What O10 says fails in every state with BATCH 0 that waits for a step at instant 0. -/
theorem controlTimeStep_batch_ne_zero (h : Obligations.ControlTimeStep) {s : State} (hl : Live s)
    (hX : s.hw.clk.nextB = 0) (hs : s.hw.clk.stepped = false) (hw : (s.hw.ntm.want.map (·.1)) = some true)
    (he : s.hw.anyEnabled = false) (ha : s.hw.domLocked false = false) (hb : s.hw.domLocked true = false)
    (hbeh : s.hw.pair.behind = none) (hp : s.hw.pending pCLK = false) : s.hw.batch ≠ 0 := by
  intro h0
  have hg := h s 0 hl (hX.trans_le (Nat.zero_le _)) hs hw he ha hb hbeh
  obtain ⟨-, -, -, -, -, -, -, hlt, -⟩ := afterRun_of_gives (f := fun m h => h.ctStepCmd m) rfl hl hg
  have hn : ((s.hw.at 0).ctStepCmd s.mem).clk.nextB = 0 := Hw.ctStepCmd_nextB_zero (h := s.hw.at 0) hbeh hp h0 hX _
  simp only [afterRun, Hw.seal_clk, hn] at hlt
  exact Nat.not_lt_zero _ hlt

/-- Refutes O10: nothing keeps BATCH from 0, and a multiple of 0 is no instant that CT reaches 2,500 grains later. -/
theorem not_controlTimeStep : ¬ Obligations.ControlTimeStep := fun h =>
  controlTimeStep_batch_ne_zero h (s := batchZero) rfl rfl rfl rfl (by decide) (by decide) (by decide) rfl (by decide)
    (by decide)

end Sys2Proof

namespace Sys2Proof
open Machine

/-! ### Refutations by a state the model evaluates -/

/-- A module with a memory write outstanding, and nothing else. -/
def writeOutstanding : State := { hw := { wbuf := [(0, 1)] } }

/-- Refutes O56: a claim time-out with no claim does nothing, but the end of its command performs a memory write that an
earlier one left outstanding, and the statement asks for no settled state. -/
theorem not_pairOwnership : ¬ Obligations.PairOwnership := by
  intro h
  obtain ⟨-, -, -, -, hidle, -⟩ := h writeOutstanding 0 rfl
  obtain ⟨-, -, hmem, -⟩ := afterRun_of_gives (f := fun _ h => h.claimTimeout) rfl rfl (hidle (.inl rfl))
  exact absurd hmem (by decide)

/-- A module whose SAF page holds EVT bit 5 for its STAT bit 1. -/
def safetyHeld : State := { hw := { regs := [(ra pSAF rSTAT, 2), (ra pSAF rEVT, 0x20)] } }

/-- Refutes O15: EVT bit 5 of the SAF page stays set while STAT bit 1 is, whatever is written. -/
theorem not_eventClear : ¬ Obligations.EventClear := by
  intro h
  obtain ⟨hclear, -⟩ := h safetyHeld 5 ⟨pSAF, by decide⟩ 0x20 5 rfl (by decide)
  have hbit := afterRun_of_gives (f := fun _ h => h.swOpen pSAF rEVT fun h => h.evtClear pSAF 0x20) rfl rfl
    (hclear (by decide))
  exact absurd hbit (by decide)

/-- A module that has sent its hash of instant 0 and stands 80,000 grains into a later batch. -/
def hashLate : State := { hw := { clk := { nextB := 20000 }, pair := { own := [(0, 0)] } } }

/-- A frame of lane 0 with nothing in its header. -/
def plainFrame : MoladHdr :=
  { lane := false, own := false, sync := false, lever := false, ack := false, posB := false, seq := 0, stamp := 0 }

/-- Refutes O57: a hash that comes more than 2,000 grains into a later batch finds the own one already given up, so no
match is counted. -/
theorem not_pairLinkAndSynchronisation : ¬ Obligations.PairLinkAndSynchronisation := by
  intro h
  obtain ⟨-, -, -, -, -, -, -, hmatch, -⟩ := h hashLate 100000 rfl (by decide)
  have hg := hmatch plainFrame 0 0 0 rfl rfl rfl
  obtain ⟨hrun, -⟩ := afterRun_of_gives (f := fun _ h => h.onFrame plainFrame fun h => h.moladCompare 0 0) rfl rfl hg
  exact absurd hrun (by decide)

/-- A module in RUN whose leg 0, enabled on a bridge of axis 0, waits in the safe state for a reload, with a pending set
that holds CTRL. -/
def pendingClear : State :=
  { hw := { regs := [(sy 0x040, 3), (cr 0 0x044, 1), (cr 0 0x04C, 15625), (gp 0x600, 0),
                       (ra (pLEG 0) rCOMMIT, 0x10000), (lg 0 rCTRL, 1)],
            pend := [(lg 0 rCTRL, 0)] } }

/-- Refutes O25: the reload takes the pending set before it starts the legs, and a set that holds CTRL clears ENABLE. -/
theorem not_bridgeReloadAndWrap : ¬ Obligations.BridgeReloadAndWrap := by
  intro h
  obtain ⟨-, hstart, -⟩ := h pendingClear 50 0 0 rfl rfl
  have hg := hstart 0 (by decide) (by decide) (by decide) (by decide) (by decide)
  obtain ⟨hrun, -⟩ := afterRun_of_gives (f := fun _ h => h.bridgeReload 0) rfl rfl hg
  exact absurd hrun (by decide)

end Sys2Proof

namespace Sys2Proof
open Machine

/-! ### Reset -/

/-- Settles O2: every value is the one the empty state and the reset values of the register map give. -/
theorem resetState : Obligations.ResetState := by
  have cfg : ∀ p : Fin 512, (pageBlock p).1 ≠ .none → State.reset.hw.reg (ra p rFLT_CFG) = 0x000103E8 := by
    decide +kernel
  have off : ∀ n : Fin 96, State.reset.hw.legEnabled n = false := by decide +kernel
  have free : ∀ n : Fin 64, State.reset.hw.f (sm n) 7 0 = 0xFF := by decide +kernel
  exact ⟨by decide, by decide, rfl, by decide, by decide, by decide, rfl, cfg, off, fun _ => rfl, free⟩

end Sys2Proof

namespace Sys2Proof.Machine

/-! ### The release of the die -/

/-- The registers a release writes: those that show the pins, and the SAVE page. -/
def shownAtRelease (a : Nat) : Prop :=
  a = ra pPAIR rSTAT ∨ a = ra pCLK 0x044 ∨ a = sy 0x048 ∨ ∃ off < 0x1000, a = sv off

theorem Hw.saveCheck_reg (h : Hw) (m : Mem) {a : Nat} (ha : ∀ off < 0x1000, a ≠ sv off) :
    (h.saveCheck m).reg a = h.reg a := by
  unfold Hw.saveCheck
  split
  · rfl
  · dsimp only
    rw [Hw.reg_setReg_ne _ (ha 0x04C (by decide)), Hw.reg_setF_ne _ (ha 0x048 (by decide)),
      Hw.reg_setF_ne _ (ha rSTAT (by decide)), Hw.reg_setBit_ne _ (ha rREADY (by decide))]

/-- Looking for a save writes nothing but the SAVE page. -/
theorem Hw.saveCheck_eta (h : Hw) (m : Mem) : ∃ r, h.saveCheck m = { h with regs := r } := by
  unfold Hw.saveCheck
  split
  · exact ⟨h.regs, rfl⟩
  · exact ⟨_, rfl⟩

/-- A released die stands at grain 0, with every field of its working state as after reset. -/
theorem Hw.dieRelease_eta (h : Hw) (m : Mem) : ∃ r, h.dieRelease m = { h.dieReset 0 with grain := 0, regs := r } := by
  obtain ⟨r, hr⟩ := Hw.saveCheck_eta ({ h.dieReset 0 with grain := 0 }.showPins) m
  exact ⟨r, hr⟩

theorem Hw.dieRelease_rst (h : Hw) (m : Mem) : (h.dieRelease m).rst = 2 := by
  obtain ⟨r, hr⟩ := h.dieRelease_eta m
  rw [hr]
  rfl

theorem Hw.dieRelease_sys (h : Hw) (m : Mem) : (h.dieRelease m).sys = { released := true } := by
  obtain ⟨r, hr⟩ := h.dieRelease_eta m
  rw [hr]
  rfl

theorem Hw.dieRelease_pins (h : Hw) (m : Mem) : (h.dieRelease m).pins = h.pins := by
  obtain ⟨r, hr⟩ := h.dieRelease_eta m
  rw [hr]
  rfl

theorem Hw.dieRelease_legs (h : Hw) (m : Mem) : (h.dieRelease m).legs = [] := by
  obtain ⟨r, hr⟩ := h.dieRelease_eta m
  rw [hr]
  rfl

/-- A release ends at grain 0. -/
theorem Hw.seal_grain_of_release {h : Hw} (hr : h.rst = 2) (g : Nat) : (h.seal g).grain = 0 := if_pos hr

/-- A released die shows its reset values, but for the pins and the newest save. -/
theorem Hw.dieRelease_reg (h : Hw) (m : Mem) {a : Nat} (ha : ¬ shownAtRelease a) : (h.dieRelease m).reg a = regReset a := by
  simp only [shownAtRelease, not_or, not_exists, not_and] at ha
  obtain ⟨hp, hc, hs, hsv⟩ := ha
  unfold Hw.dieRelease
  rw [Hw.saveCheck_reg _ m hsv]
  unfold Hw.showPins
  dsimp only
  rw [Hw.reg_setF_ne _ hs, Hw.reg_setBit_ne _ hc, Hw.reg_setBit_ne _ hp, Hw.reg_setBit_ne _ hp, Hw.reg_setBit_ne _ hp]
  rfl

theorem not_shown_page {p off : Nat} (h1 : p ≠ pPAIR) (h2 : p ≠ pSAVE) (ho : off < 0x1000) (h3 : ra p off ≠ ra pCLK 0x044)
    (h4 : ra p off ≠ sy 0x048) : ¬ shownAtRelease (ra p off) := by
  rintro (e | e | e | ⟨off', ho', e⟩)
  · exact ra_ne_page ho (by decide) h1 e
  · exact h3 e
  · exact h4 e
  · exact ra_ne_page ho ho' h2 e

theorem Hw.dieRelease_mode (h : Hw) (m : Mem) : (h.dieRelease m).mode = mBRINGUP := by
  have hm := h.dieRelease_reg m (not_shown_page (p := pSYS) (off := 0x040) (by decide) (by decide) (by decide) (by decide)
    (by decide))
  unfold Hw.mode
  rw [hm]
  decide

theorem Hw.mode_of_reg {h k : Hw} (e : k.reg (ra pSYS 0x040) = h.reg (ra pSYS 0x040)) : k.mode = h.mode :=
  congrArg (·.extractLsb' 0 3) e

/-- The module with the pins a power-on finds. -/
def Hw.poweredBy (h : Hw) (p : PowerUp) : Hw :=
  { h with pins := { h.pins with slotId := p.slotId, leverOpen := false, presentHigh := false, refPresent := p.refPresent } }

/-- The supply's two voltages, as the PWR page shows them. -/
def Hw.showSupply (h : Hw) (p : PowerUp) : Hw :=
  (h.setReg (ra pPWR 0x040) (BitVec.ofNat 32 (p.vlogMv % 0x10000))).setReg (ra pPWR 0x044)
    (BitVec.ofNat 32 (p.vholdMv % 0x10000))

/-! ### A request for a mode -/

/-- A field above MODE leaves MODE. -/
theorem mode_putFld (w : Word) {hi lo : Nat} (h3 : 3 ≤ lo) (hlo : lo ≤ hi) (hhi : hi < 32) (v : Nat) :
    (putFld w hi lo v).extractLsb' 0 3 = w.extractLsb' 0 3 := by
  apply BitVec.eq_of_getLsbD_eq
  intro i hi3
  have : ¬ (lo ≤ 0 + i ∧ 0 + i ≤ hi) := by omega
  rw [BitVec.getLsbD_extractLsb', BitVec.getLsbD_extractLsb', getLsbD_putFld _ hlo hhi, if_neg this]

/-- A request writes REQ alone. -/
theorem Hw.modeRequest_reg (h : Hw) (m : BitVec 3) (a : Nat) :
    (h.modeRequest m).reg a = (h.setF (sy 0x040) 18 16 m.toNat).reg a := by
  unfold Hw.modeRequest
  dsimp only
  split <;> rfl

/-- The lower half of a register written with a number of 16 bits. -/
theorem fld_ofNat_half {v : Nat} (hv : v < 65536) : fld (BitVec.ofNat 32 (v % 0x10000)) 15 0 = v := by
  have h1 : v % 0x10000 = v := Nat.mod_eq_of_lt hv
  rw [h1, fld, BitVec.toNat_ofNat, Nat.mod_eq_of_lt (show v < 2 ^ 32 by omega), Nat.shiftRight_zero]
  exact Nat.mod_eq_of_lt hv

end Sys2Proof.Machine

namespace Sys2Proof
open Machine

/-- A step of the supervisor whose operation is known to lead to k. -/
theorem gives_sup_eq {s : State} {g : Nat} {f : Mem → Hw → Hw} {P : State → Prop} {k : Hw} (e : f s.mem (s.hw.at g) = k)
    (hP : P { s with hw := k.seal (max s.hw.grain g), mem := s.mem.after k }) : ∃ t, runSup g f s = .next t ∧ P t := by
  subst e
  exact gives_sup hP

/-- A command whose operation is known to lead to k, on a die that runs. -/
theorem gives_run_eq {s : State} {g : Nat} {f : Mem → Hw → Hw} {P : State → Prop} {k : Hw} (hl : Live s)
    (e : f s.mem (s.hw.at g) = k) (hP : P { s with hw := k.seal (max s.hw.grain g), mem := s.mem.after k }) :
    ∃ t, run g f s = .next t ∧ P t := by
  subst e
  exact gives_run hl hP

/-- Settles O7: the release shows every register outside the pins' and the SAVE page at its reset value. -/
theorem relockRelease : Obligations.RelockRelease := by
  intro s g r hfor hheld hmode
  have hc : (s.hw.at g).sys.held = true ∧ (s.hw.at g).sys.heldFor = 1 ∧ (s.hw.at g).mode ≠ mHOLDUP :=
    ⟨hheld, hfor, hmode⟩
  refine gives_sup_eq (f := fun m h => h.relock m r) (if_pos hc) ?_
  generalize { s.hw.at g with pins := { (s.hw.at g).pins with refPresent := r } } = h
  refine ⟨?_, ?_, Hw.seal_grain_of_release (h.dieRelease_rst s.mem) _, Hw.bit_setBit_same _ _ (by decide) _, ?_⟩
  · simp only [Hw.seal_sys, Hw.setBit, Hw.setF, Hw.setReg_sys, h.dieRelease_sys]
  · rw [Hw.seal_mode, Hw.mode_of_reg (Hw.reg_setBit_ne _ (by decide) _ _)]
    exact h.dieRelease_mode s.mem
  · rw [Hw.seal_bit, Hw.bit_setBit_ne _ (by decide), Hw.bit, ck, h.dieRelease_reg s.mem (not_shown_page (by decide) (by decide)
      (by decide) (by decide) (by decide))]
    decide

/-- Settles O19: a request is stored beside MODE's present value; the release shows BRINGUP and the voltages. -/
theorem modeRequestAndRelease : Obligations.ModeRequestAndRelease := by
  refine fun s g => ⟨fun m hl hu => ?_, fun p hrel hseat hsup hvl hvh hl16 hh16 => ?_⟩
  · refine gives_write (f := fun _ h => h.modeRequest m) hl (by decide) hu fun k hk => ?_
    have hreg : k.reg (sy 0x040) = s.hw.reg (sy 0x040) := hk.reg (not_inLog_page (by decide) (by decide))
    have hset : (k.atWrite.modeRequest m).reg (sy 0x040) = putFld (s.hw.reg (sy 0x040)) 18 16 m.toNat := by
      rw [← hreg, Hw.modeRequest_reg]
      exact Hw.reg_setF_same ..
    refine ⟨?_, ?_, ?_⟩
    · unfold Hw.modeRequest
      dsimp only
      split <;> rfl
    · show ((k.atWrite.modeRequest m).reg (sy 0x040)).extractLsb' 0 3 = _
      rw [hset, mode_putFld _ (by decide) (by decide) (by decide)]
      rfl
    · show fld ((k.atWrite.modeRequest m).reg (sy 0x040)) 18 16 = _
      rw [hset, fld_putFld_same _ (by decide) (by decide)]
      exact Nat.mod_eq_of_lt m.isLt
  · have hc : 50000 ≤ p.seatedUs ∧ 20000 ≤ p.supplyUs ∧ 19200 ≤ p.vlogMv ∧ 18500 ≤ p.vholdMv
        ∧ ((!(s.hw.at g).sys.released) = true ∨ ((s.hw.at g).sys.held = true ∧ (s.hw.at g).sys.heldFor = 2)) :=
      ⟨hseat, hsup, hvl, hvh, .inl (by simp [Hw.at, hrel])⟩
    have hon : (s.hw.at g).powerOn s.mem p = (((s.hw.at g).poweredBy p).dieRelease s.mem).showSupply p := if_pos hc
    refine gives_sup_eq (f := fun m h => h.powerOn m p) hon ?_
    generalize hh : (s.hw.at g).poweredBy p = h
    have hreg : ∀ {q off : Nat}, q ≠ pPAIR → q ≠ pSAVE → q ≠ pPWR → off < 0x1000 → ra q off ≠ ra pCLK 0x044 →
        ra q off ≠ sy 0x048 → ((h.dieRelease s.mem).showSupply p).reg (ra q off) = regReset (ra q off) :=
      fun h1 h2 h3 ho h4 h5 => by
        rw [Hw.showSupply, Hw.reg_setReg_ne _ (ra_ne_page ho (by decide) h3), Hw.reg_setReg_ne _ (ra_ne_page ho (by decide) h3)]
        exact h.dieRelease_reg s.mem (not_shown_page h1 h2 ho h4 h5)
    have hsys : ((h.dieRelease s.mem).showSupply p).sys = { released := true } := h.dieRelease_sys s.mem
    refine ⟨Hw.seal_grain_of_release (h.dieRelease_rst s.mem) _, ?_, congrArg (·.held) hsys, congrArg (·.released) hsys,
      ?_, ?_, ?_, h.dieRelease_legs s.mem, ?_⟩
    · rw [Hw.seal_mode, Hw.mode, hreg (by decide) (by decide) (by decide) (by decide) (by decide) (by decide)]
      decide
    · show (h.dieRelease s.mem).pins.slotId = p.slotId
      rw [h.dieRelease_pins, ← hh]
      rfl
    · rw [Hw.seal_f, Hw.showSupply, Hw.f_setReg_ne _ (by decide), Hw.f, Hw.reg_setReg_same]
      exact fld_ofNat_half hl16
    · rw [Hw.seal_f, Hw.showSupply, Hw.f, Hw.reg_setReg_same]
      exact fld_ofNat_half hh16
    · show fld (Hw.reg _ (ra pCLK 0x048)) 18 0 = _
      rw [Hw.seal_reg, hreg (by decide) (by decide) (by decide) (by decide) (by decide) (by decide)]
      decide

end Sys2Proof

namespace Sys2Proof.Machine

/-! ### Clock failure -/

/-- The end of ownership leaves every register but the PAIR page's STAT. -/
theorem Hw.ownRelease_reg (h : Hw) {a : Nat} (ha : a ≠ ra pPAIR rSTAT) : h.ownRelease.reg a = h.reg a :=
  (Hw.reg_setBit_ne _ ha _ _).trans (Hw.reg_setBit_ne _ ha _ _)

/-- The loss of lock as a clock failure notes it. -/
def Hw.noteLoss (h : Hw) (lost : Bool) : Hw :=
  if lost then { h with clk := { h.clk with unlockedAt := some h.grain } }.setBit (ck 0x044) 0 false else h

theorem Hw.clockFail_eq (h : Hw) (lost : Bool) : h.clockFail lost =
    (((((h.evt pCLK 1).log pCLK 1 1 0 h.grain).noteLoss lost).when
      (((h.evt pCLK 1).log pCLK 1 1 0 h.grain).noteLoss lost).paired Hw.ownRelease).toSafehalt true) := by
  simp only [Hw.clockFail, Hw.noteLoss, Hw.log]

theorem Hw.noteLoss_reg (h : Hw) (lost : Bool) {a : Nat} (ha : a ≠ ck 0x044) : (h.noteLoss lost).reg a = h.reg a := by
  unfold Hw.noteLoss
  split
  · exact Hw.reg_setBit_ne _ ha _ _
  · rfl

/-- What a clock failure has done before the mode follows: CLOCK_FAIL is set, the loss of lock noted. -/
theorem Hw.clockFail_before (h : Hw) (lost : Bool) : ∃ k : Hw, h.clockFail lost = k.toSafehalt true ∧
    k.bit (ck rEVT) 1 = true ∧ k.mode = h.mode ∧ k.sys = h.sys ∧ k.grain = h.grain ∧
      k.clk.unlockedAt = if lost then some h.grain else h.clk.unlockedAt := by
  refine ⟨_, h.clockFail_eq lost, ?_⟩
  have hk := (h.evt pCLK 1).log_logged pCLK 1 1 0 h.grain 0
  generalize (h.evt pCLK 1).log pCLK 1 1 0 h.grain = k at hk ⊢
  have hreg : ∀ a, a ≠ ck 0x044 → a ≠ ra pPAIR rSTAT →
      ((k.noteLoss lost).when (k.noteLoss lost).paired Hw.ownRelease).reg a = k.reg a := fun a h1 h2 => by
    unfold Hw.when
    split
    · exact (Hw.ownRelease_reg _ h2).trans (k.noteLoss_reg lost h1)
    · exact k.noteLoss_reg lost h1
  have hrest : ∀ {γ : Type} (F : Hw → γ), (∀ h : Hw, F h.ownRelease = F h) →
      F ((k.noteLoss lost).when (k.noteLoss lost).paired Hw.ownRelease) = F (k.noteLoss lost) := fun F hF => by
    unfold Hw.when
    split
    · exact hF _
    · rfl
  have hnote : ∀ {γ : Type} (F : Hw → γ), F ({ k with clk := { k.clk with unlockedAt := some k.grain } }.setBit (ck 0x044) 0
      false) = F k → F (k.noteLoss lost) = F k := fun F hF => by
    unfold Hw.noteLoss
    split
    · exact hF
    · rfl
  refine ⟨?_, ?_, ?_, ?_, ?_⟩
  · rw [Hw.bit, hreg _ (by decide) (by decide)]
    exact (hk.bit (ck_not_inLog _ (by decide)) 1).trans (h.bit_evt pCLK (by decide))
  · refine Hw.mode_of_reg ((hreg _ (by decide) (by decide)).trans ?_)
    exact (hk.reg (not_inLog_page (by decide) (by decide))).trans (h.reg_evt_ne (by decide) (by decide) 1)
  · exact ((hrest (·.sys) fun _ => rfl).trans (hnote (·.sys) rfl)).trans (hk.sys.trans (h.evt_sys pCLK 1))
  · exact ((hrest (·.grain) fun _ => rfl).trans (hnote (·.grain) rfl)).trans (hk.grain.trans (h.evt_grain pCLK 1))
  · rw [hrest (·.clk.unlockedAt) fun _ => rfl]
    have hclk : k.clk = h.clk := hk.clk.trans (h.evt_clk pCLK 1)
    have hgr : k.grain = h.grain := hk.grain.trans (h.evt_grain pCLK 1)
    cases lost
    · exact congrArg (·.unlockedAt) hclk
    · exact congrArg some hgr

/-- From BRINGUP to SHADOW a cause of SAFEHALT takes the module there, the first of its grain. -/
theorem Hw.toSafehalt_of_low {h : Hw} (hm : h.mode.toNat ≤ 4) (hg : h.sys.modeGrain < h.grain) :
    h.toSafehalt true = h.modeCore mSAFEHALT h.mode oSAFEHALT := by
  have hc : 1 ≤ h.mode.toNat ∧ h.mode.toNat ≤ 4 ∨ (h.mode = mBRINGUP ∧ true = true) := by
    by_cases h0 : h.mode.toNat = 0
    · exact .inr ⟨BitVec.eq_of_toNat_eq h0, rfl⟩
    · exact .inl ⟨by omega, hm⟩
  unfold Hw.toSafehalt
  dsimp only
  rw [if_pos hc, setMode_fresh _ _ _ (by omega)]

/-- HOLDUP and COOLDOWN stay. -/
theorem Hw.toSafehalt_of_high {h : Hw} (hm : 6 ≤ h.mode.toNat) : h.toSafehalt true = h := by
  have hc : ¬ (1 ≤ h.mode.toNat ∧ h.mode.toNat ≤ 4 ∨ (h.mode = mBRINGUP ∧ true = true)) := by
    rintro (h1 | ⟨h1, -⟩)
    · omega
    · rw [h1] at hm
      exact absurd hm (by decide)
  exact if_neg hc

/-- A clock failure in BRINGUP to SHADOW. -/
theorem Hw.clockFail_low {h : Hw} (lost : Bool) (hm : h.mode.toNat ≤ 4) (hg : h.sys.modeGrain < h.grain) :
    (h.clockFail lost).bit (ck rEVT) 1 = true ∧ (h.clockFail lost).mode = mSAFEHALT ∧
      (h.clockFail lost).clk.unlockedAt = if lost then some h.grain else h.clk.unlockedAt := by
  obtain ⟨k, e, he, hmode, hsys, hgr, hun⟩ := h.clockFail_before lost
  rw [e, Hw.toSafehalt_of_low (hmode ▸ hm) (by rw [hsys, hgr]; exact hg)]
  refine ⟨?_, modeCore_mode .., ?_⟩
  · rw [Hw.bit, ck, modeCore_clk _ _ _ _ _ (by decide)]
    exact he
  · rw [Hw.clk_of_base (Hw.modeCore_base k _ _ _)]
    exact hun

/-- A clock failure in HOLDUP and COOLDOWN. -/
theorem Hw.clockFail_high {h : Hw} (lost : Bool) (hm : 6 ≤ h.mode.toNat) :
    (h.clockFail lost).bit (ck rEVT) 1 = true ∧ (h.clockFail lost).mode = h.mode := by
  obtain ⟨k, e, he, hmode, -⟩ := h.clockFail_before lost
  rw [e, Hw.toSafehalt_of_high (hmode ▸ hm)]
  exact ⟨he, hmode⟩

/-- The state of the clock inputs at which the monitor reports a failure. -/
theorem Hw.clockCheck_fails {h : Hw} {l : Bool} {n : Nat}
    (hc : (l = true ∧ h.clk.unlockedAt = none) ∨ n < 4750 ∨ 5250 < n) :
    ∃ lost, h.clockCheck l n = h.clockFail lost := by
  unfold Hw.clockCheck
  split
  · exact ⟨true, rfl⟩
  · next hno =>
    have hn : n < 4750 ∨ 5250 < n := hc.resolve_left fun ⟨h1, h2⟩ => hno (by simp [h1, h2])
    exact ⟨false, if_pos hn⟩

/-- An entry of a table from which entries are dropped by their key. -/
theorem tabGet_filter_key {α : Type} (d : α) (p : Nat → Bool) (k : Nat) (t : Tab α) :
    tabGet d k (t.filter fun e => p e.1) = if p k then tabGet d k t else d := by
  have hcons : ∀ (e : Nat × α) (t : Tab α), tabGet d k (e :: t) = if e.1 = k then e.2 else tabGet d k t := fun _ _ => rfl
  induction t with
  | nil => exact (ite_self d).symm
  | cons e t ih =>
    by_cases he : e.1 = k <;> by_cases hp : p e.1 = true
    · rw [List.filter_cons, if_pos hp, hcons, hcons, if_pos he, if_pos he, ← he, if_pos hp]
    · rw [List.filter_cons, if_neg hp, ih, ← he, if_neg hp, if_neg hp]
    · rw [List.filter_cons, if_pos hp, hcons, hcons, if_neg he, if_neg he, ih]
    · rw [List.filter_cons, if_neg hp, hcons, if_neg he, ih]

/-! ### The reference clock -/

/-- The module once REFCLK is gone or back. -/
def Hw.refShown (h : Hw) (r : Bool) : Hw := { h with pins := { h.pins with refPresent := r } }.setBit (ck 0x044) 2 r

/-- The module once it runs from the on-module oscillator in place of REFCLK. -/
def Hw.fallBack (h : Hw) : Hw := ({ h with clk := { h.clk with fallback := true } }.setBit (ck 0x044) 1 false).evt pCLK 0

theorem Hw.fallBack_shows (h : Hw) : h.fallBack.clk = { h.clk with fallback := true } ∧
    h.fallBack.bit (ck 0x044) 1 = false ∧ h.fallBack.bit (ck rEVT) 0 = true ∧ h.fallBack.mode = h.mode := by
  refine ⟨Hw.evt_clk _ _ _, ?_, Hw.bit_evt _ _ (by decide), Hw.mode_of_reg ?_⟩
  · rw [Hw.bit, Hw.fallBack, Hw.reg_evt_ne _ (by decide) (by decide)]
    exact Hw.bit_setBit_same _ _ (by decide) _
  · exact (Hw.reg_evt_ne _ (by decide) (by decide) _).trans (Hw.reg_setBit_ne _ (by decide) _ _)

theorem Hw.refShown_bit (h : Hw) (r : Bool) {a : Nat} (ha : a ≠ ck 0x044) (i : Nat) : (h.refShown r).bit a i = h.bit a i :=
  Hw.bit_setBit_ne _ ha _ _ _

theorem Hw.refLoss_of_selected {h : Hw} (hsel : h.bit (ck 0x040) 0 = true) (hno : h.clk.fallback = false)
    (hlk : h.clk.unlockedAt = none) :
    h.refLoss = if h.bit (ck 0x040) 1 then (h.refShown false).fallBack else (h.refShown false).clockFail true := by
  have hc : ((h.refShown false).bit (ck 0x040) 0 && !(h.refShown false).clk.fallback
      && (h.refShown false).clk.unlockedAt.isNone) = true := by
    rw [h.refShown_bit _ (by decide), hsel]
    simp [Hw.refShown, Hw.setBit, Hw.setF, hno, hlk]
  rw [← h.refShown_bit false (by decide) 1]
  exact if_pos hc

/-- Lock comes back where it was lost and the reference it needs is there. -/
theorem Hw.lockRegained_of_lost {h : Hw} {r : Bool} (hlk : h.clk.unlockedAt.isSome = true)
    (hr : r = true ∨ h.clk.fallback = true ∨ h.bit (ck 0x040) 0 = false) :
    (h.lockRegained r).clk.unlockedAt = none ∧ (h.lockRegained r).bit (ck 0x044) 0 = true ∧
      (h.lockRegained r).bit (ck 0x044) 2 = r := by
  have hc : ((h.refShown r).clk.unlockedAt.isSome
      && (r || (h.refShown r).clk.fallback || !(h.refShown r).bit (ck 0x040) 0)) = true := by
    rw [h.refShown_bit r (by decide)]
    have hclk : (h.refShown r).clk = h.clk := rfl
    rw [hclk, hlk]
    rcases hr with hr | hr | hr <;> simp [hr]
  have e : h.lockRegained r =
      { h.refShown r with clk := { (h.refShown r).clk with unlockedAt := none } }.setBit (ck 0x044) 0 true := if_pos hc
  rw [e]
  refine ⟨rfl, Hw.bit_setBit_same _ _ (by decide) _, ?_⟩
  rw [Hw.bit_setBit_other _ _ (by decide) (by decide)]
  exact Hw.bit_setBit_same _ _ (by decide) _

/-- REF_SRC follows a write in BRINGUP and CONFIG; FALLBACK_EN always does. -/
theorem Hw.refWrite_bits (h : Hw) (v : Word) :
    (h.refWrite v).bit (ck 0x040) 1 = v.getLsbD 1 ∧
    (h.mode = mBRINGUP ∨ h.mode = mCONFIG → (h.refWrite v).bit (ck 0x040) 0 = v.getLsbD 0
      ∧ (h.refWrite v).clk.fallback = false ∧ (h.refWrite v).bit (ck 0x044) 1 = v.getLsbD 0) ∧
    (h.mode ≠ mBRINGUP → h.mode ≠ mCONFIG → (h.refWrite v).bit (ck 0x040) 0 = h.bit (ck 0x040) 0
      ∧ (h.refWrite v).clk = h.clk) := by
  have hput : ∀ (w : Word) (i j : Nat) (hi : i < 32), bitOf (putFld w i i (fld v j j)) i = v.getLsbD j := fun w i j hi => by
    rw [bitOf_putFld_same _ hi, testBit_fld]
    simp
  generalize hk : h.setF (ck 0x040) 1 1 (fld v 1 1) = k
  have hmode : k.mode = h.mode := Hw.mode_of_reg (by rw [← hk, Hw.reg_setF_ne _ (by decide)])
  have hen : k.bit (ck 0x040) 1 = v.getLsbD 1 := by
    rw [← hk, Hw.bit, Hw.reg_setF_same]
    exact hput _ 1 1 (by decide)
  have hclk : k.clk = h.clk := by rw [← hk]; rfl
  have hsrc : k.bit (ck 0x040) 0 = h.bit (ck 0x040) 0 := by
    rw [← hk, Hw.bit, Hw.reg_setF_same, bitOf_putFld_ne _ (by decide) (by decide) _ (by decide)]
    rfl
  by_cases hm : h.mode = mBRINGUP ∨ h.mode = mCONFIG
  · have e : h.refWrite v = ({ k with clk := { k.clk with fallback := false } }.setF (ck 0x040) 0 0 (fld v 0 0)).setF
        (ck 0x044) 1 1 (fld v 0 0) := by
      simp only [Hw.refWrite, hk, hmode, if_pos hm]
    have hsrc' : (h.refWrite v).bit (ck 0x040) 0 = v.getLsbD 0 := by
      rw [e, Hw.bit, Hw.reg_setF_ne _ (by decide), Hw.reg_setF_same]
      exact hput _ 0 0 (by decide)
    have hen' : (h.refWrite v).bit (ck 0x040) 1 = v.getLsbD 1 := by
      rw [e, Hw.bit, Hw.reg_setF_ne _ (by decide), Hw.reg_setF_same, bitOf_putFld_ne _ (by decide) (by decide) _ (by decide)]
      exact hen
    have hshow : (h.refWrite v).bit (ck 0x044) 1 = v.getLsbD 0 := by
      rw [e, Hw.bit, Hw.reg_setF_same]
      exact hput _ 1 0 (by decide)
    exact ⟨hen', fun _ => ⟨hsrc', by rw [e]; rfl, hshow⟩, fun h1 h2 => absurd hm (by simp [h1, h2])⟩
  · have e : h.refWrite v = k := by simp only [Hw.refWrite, hk, hmode, if_neg hm]
    rw [e]
    exact ⟨hen, fun h1 => absurd h1 hm, fun _ _ => ⟨hsrc, hclk⟩⟩

end Sys2Proof.Machine

namespace Sys2Proof
open Machine

/-- Settles O6, a command at a time; a change of mode leaves the CLK page, a reset of the die shows reset values. -/
theorem referenceAndClockFailure : Obligations.ReferenceAndClockFailure := by
  intro s g hl
  refine ⟨fun hsel hfb hno hlk => ?_, fun hsel hfb hno hlk hm hg => ?_, fun v r hu hm => ?_, fun v r hu hm1 hm2 => ?_,
    fun l n hc hm hg => ?_, fun l n hc hm => ?_, fun r hlk hr => ?_, fun u a b hu ht hm hw => ?_⟩
  · have e : (s.hw.at g).refLoss = ((s.hw.at g).refShown false).fallBack :=
      (Hw.refLoss_of_selected (h := s.hw.at g) hsel hno hlk).trans (if_pos hfb)
    obtain ⟨h1, h2, h3, h4⟩ := ((s.hw.at g).refShown false).fallBack_shows
    have hmode : ((s.hw.at g).refShown false).mode = s.hw.mode := Hw.mode_of_reg (Hw.reg_setBit_ne _ (by decide) _ _)
    refine gives_run_eq (f := fun _ h => h.refLoss) hl e ⟨?_, h2, h3, h4.trans hmode, ?_⟩
    · exact congrArg (·.fallback) h1
    · exact (congrArg (·.unlockedAt) h1).trans hlk
  · have e : (s.hw.at g).refLoss = ((s.hw.at g).refShown false).clockFail true :=
      (Hw.refLoss_of_selected (h := s.hw.at g) hsel hno hlk).trans (if_neg (by simp [hfb]))
    have hmode : ((s.hw.at g).refShown false).mode = s.hw.mode := Hw.mode_of_reg (Hw.reg_setBit_ne _ (by decide) _ _)
    exact gives_run_eq (f := fun _ h => h.refLoss) hl e (Hw.clockFail_low true (hmode ▸ hm) hg)
  · obtain ⟨k, hk, e⟩ := ((s.hw.at g).refShown r).swWrite_unlocked 0x040 (fun h => h.refWrite v) (p := pCLK) (by decide)
      ((Hw.refShown_bit _ _ (by decide) _).trans hu)
    have hmode : k.atWrite.mode = s.hw.mode := Hw.mode_of_reg
      ((hk.reg (not_inLog_page (by decide) (by decide))).trans (Hw.reg_setBit_ne _ (by decide) _ _))
    obtain ⟨h1, h2, -⟩ := k.atWrite.refWrite_bits v
    obtain ⟨h3, h4, h5⟩ := h2 (hmode ▸ hm)
    exact gives_run_eq (f := fun _ h => (h.refShown r).swWrite pCLK 0x040 fun h => h.refWrite v) hl e ⟨h3, h1, h4, h5⟩
  · obtain ⟨k, hk, e⟩ := ((s.hw.at g).refShown r).swWrite_unlocked 0x040 (fun h => h.refWrite v) (p := pCLK) (by decide)
      ((Hw.refShown_bit _ _ (by decide) _).trans hu)
    have hmode : k.atWrite.mode = s.hw.mode := Hw.mode_of_reg
      ((hk.reg (not_inLog_page (by decide) (by decide))).trans (Hw.reg_setBit_ne _ (by decide) _ _))
    obtain ⟨h1, -, h2⟩ := k.atWrite.refWrite_bits v
    obtain ⟨h3, h4⟩ := h2 (hmode ▸ hm1) (hmode ▸ hm2)
    refine gives_run_eq (f := fun _ h => (h.refShown r).swWrite pCLK 0x040 fun h => h.refWrite v) hl e ⟨?_, h1, ?_⟩
    · refine h3.trans ((hk.bit (ck_not_inLog _ (by decide)) 0).trans ?_)
      exact Hw.refShown_bit (s.hw.at g) r (by decide) 0
    · exact congrArg (·.fallback) (h4.trans hk.clk)
  · obtain ⟨lost, e⟩ := Hw.clockCheck_fails (h := s.hw.at g) hc
    obtain ⟨he, hmode, -⟩ := Hw.clockFail_low (h := s.hw.at g) lost hm hg
    exact gives_run_eq (f := fun _ h => h.clockCheck l n) hl e ⟨he, hmode⟩
  · obtain ⟨lost, e⟩ := Hw.clockCheck_fails (h := s.hw.at g) hc
    exact gives_run_eq (f := fun _ h => h.clockCheck l n) hl e (Hw.clockFail_high (h := s.hw.at g) lost hm)
  · refine gives_run (f := fun _ h => h.lockRegained r) hl ?_
    obtain ⟨h1, h2, h3⟩ := Hw.lockRegained_of_lost (h := s.hw.at g) hlk hr
    exact ⟨h1, h2, h3⟩
  · have hto : (s.hw.at g).relockTimeout = (s.hw.at g).dieReset 1 := by
      simp only [Hw.relockTimeout, Hw.at_clk, hu]
      exact if_pos ⟨ht, hm⟩
    refine gives_run_eq (f := fun _ h => h.relockTimeout) hl hto ⟨rfl, ?_, rfl, .inr rfl, rfl, ?_⟩
    · exact (by decide : ({} : Hw).mode = mBRINGUP)
    · show memGet (memApply (s.mem.filter fun c => keeps c.1) s.hw.wbuf) b = _
      rw [hw]
      exact tabGet_filter_key _ keeps b s.mem

end Sys2Proof

namespace Sys2Proof.Machine

/-! ### Semaphores (R35) -/

theorem sm_lt (n : Fin 64) : sm n < 0x9000 := by
  unfold sm ra pSEM
  omega

theorem sm_not_inLog (n : Fin 64) : ¬ inLog (sm n) := not_inLog_page (by decide) (by omega)

theorem sm_inj {n m : Fin 64} : sm n = sm m ↔ n = m := by
  unfold sm ra
  omega

theorem sm_ne_header (n : Fin 64) {p off : Nat} (ho : off < 0x040) : sm n ≠ ra p off :=
  ra_ne_off (by omega) (by omega) (by omega)

/-- A requester's ID fits the holder field and is none that says free. -/
theorem semReq_lt {r : Nat} (hr : semReq r = true) : r < 0x20 := by
  simp only [semReq, Bool.or_eq_true, decide_eq_true_eq, beq_iff_eq] at hr
  omega

/-- A semaphore that changes its holder; the others stay. -/
theorem Hw.setHolder_f (h : Hw) (n m : Fin 64) (r : Nat) (hr : r < 256) :
    (h.setF (sm n) 7 0 r).f (sm n) 7 0 = r ∧ (m = n ∨ (h.setF (sm n) 7 0 r).f (sm m) 7 0 = h.f (sm m) 7 0) := by
  refine ⟨(h.f_setF_same _ (by decide) (by decide) r).trans (Nat.mod_eq_of_lt hr), ?_⟩
  by_cases e : m = n
  · exact .inl e
  · exact .inr (h.f_setF_ne (mt sm_inj.mp e) ..)

/-- A read takes a semaphore that is free, or that a higher requester claimed in the same cycle. -/
theorem Hw.semRead_takes {h : Hw} {r : Nat} (n : Fin 64) (hr : semReq r = true)
    (ht : h.f (sm n) 7 0 = 0xFF ∨ (tabGet 0 n.val h.semAt = h.grain + 1 ∧ r < h.f (sm n) 7 0)) :
    h.semRead r n = { h with semAt := tabSet 0 n (h.grain + 1) h.semAt }.setF (sm n) 7 0 r := by
  refine if_pos ?_
  rcases ht with ht | ⟨h1, h2⟩
  · simp [hr, ht]
  · simp [hr, h1, h2]

/-- A read leaves a semaphore that is held, but for a higher requester of the same cycle. -/
theorem Hw.semRead_leaves {h : Hw} {r : Nat} (n : Fin 64) (hf : h.f (sm n) 7 0 ≠ 0xFF)
    (hb : tabGet 0 n.val h.semAt ≠ h.grain + 1 ∨ h.f (sm n) 7 0 ≤ r) : h.semRead r n = h := by
  refine if_neg ?_
  rcases hb with hb | hb
  · simp [hf, hb]
  · simp [hf, Nat.not_lt.mpr hb]

theorem Hw.semRead_no_id {h : Hw} {r n : Nat} (hr : semReq r = false) : h.semRead r n = h := if_neg (by simp [hr])

/-- The holder's write frees. -/
theorem Hw.semWrite_holder {h : Hw} {r : Nat} (n : Fin 64) (hr : semReq r = true) (ho : h.f (sm n) 7 0 = r) :
    h.semWrite r n = { h with semAt := tabSet 0 n 0 h.semAt }.setF (sm n) 7 0 0xFF := if_pos (by simp [hr, ho])

/-- Another's write is an event of the page. -/
theorem Hw.semWrite_foreign {h : Hw} {r : Nat} (n : Fin 64) (ho : h.f (sm n) 7 0 ≠ r) :
    h.semWrite r n = h.evt pSEM 0 := if_neg (by simp [ho])

/-! ### Halts leave the semaphores -/

/-- A software write, locked or not, leaves a register its operation leaves and the SYS page and the log do not hold. -/
theorem Hw.swWrite_away {b : Nat} (hb : 0x1000 ≤ b) (hl : ¬ inLog b) (h : Hw) (p off : Nat) {f : Hw → Hw}
    (hf : ∀ k : Hw, (f k).reg b = k.reg b) : (h.swWrite p off f).reg b = h.reg b := by
  have hsys : ∀ off < 0x1000, b ≠ ra pSYS off := fun off ho => by unfold ra pSYS; omega
  have hlog := h.log_logged p 10 (Config.writeCode p off).toNat (pageInst p) h.wgrain 0
  unfold Hw.swWrite
  dsimp only
  split
  · unfold Hw.lockedWrite
    rw [Hw.reg_evt_ne _ (hsys _ (by decide)) (hsys _ (by decide)), Hw.reg_bump_ne _ (hsys _ (by decide))]
    exact hlog.reg hl
  · rw [hf]
    exact hlog.reg hl

theorem Hw.haltReq_sem (h : Hw) (e : Nat) (m : Fin 64) : (h.haltReq e).reg (sm m) = h.reg (sm m) := by
  unfold Hw.haltReq
  split
  · exact Hw.reg_of_away (Hw.hytHalt_away (sm_lt m) (sm_not_inLog m) h e 2)
  · rfl

theorem Hw.hytDisable_sem (h : Hw) (e : Nat) (m : Fin 64) : (h.hytDisable e).reg (sm m) = h.reg (sm m) := by
  have h1 : (h.setBit (hy e rCTRL) 0 false).away (sm m) = h.away (sm m) := Hw.setBit_away (sm_lt m) h (motion_hy _ _) _ _
  unfold Hw.hytDisable
  dsimp only
  split
  · exact Hw.reg_of_away ((Hw.hytHalt_away (sm_lt m) (sm_not_inLog m) _ e 1).trans h1)
  · exact Hw.reg_of_away h1

theorem Hw.acHalt_sem (h : Hw) (c : Nat) (on : Bool) (m : Fin 64) : (h.acHalt c on).reg (sm m) = h.reg (sm m) := by
  unfold Hw.acHalt
  dsimp only
  split
  · exact Hw.reg_of_away (Hw.each_away (fun _ _ => Hw.forceBegin_away (sm_lt m) _ _) _ _)
  · rfl

/-! ### The reset of a page -/

/-- A register of a page that is reset shows its reset value, LOCK apart. -/
theorem Hw.pageReset_reg (h : Hw) {p a : Nat} (hp : inPage p a = true) (hl : a ≠ ra p rLOCK) :
    (h.pageReset p).reg a = regReset a := by
  unfold Hw.pageReset
  dsimp only
  rw [Hw.reg_setReg_ne _ hl]
  exact (tabGet_filter_key _ (fun k => !inPage p k) a _).trans (if_neg (by simp [hp]))

/-- A reset of the SEM page frees every semaphore. -/
theorem Hw.softReset_sem (h : Hw) (mem : Mem) (m : Fin 64) : (h.softReset mem pSEM).f (sm m) 7 0 = 0xFF := by
  have hin : inPage pSEM (sm m) = true := by revert m; decide
  have hfree : fld (regReset (sm m)) 7 0 = 0xFF := by revert m; decide +kernel
  have e : (h.softReset mem pSEM).reg (sm m) = (h.pageReset pSEM).reg (sm m) := rfl
  rw [Hw.f, e, h.pageReset_reg hin (sm_ne_header m (by decide)), hfree]

end Sys2Proof.Machine

namespace Sys2Proof
open Machine

/-- Settles O8, a command at a time. -/
theorem semaphoreReadAndWrite : Obligations.SemaphoreReadAndWrite := by
  refine fun s g r n m hl => ⟨fun hr hf => ?_, fun hr hf hb => ?_, fun hr hf ha hlt => ?_, fun v hr hu ho => ?_,
    fun v hr hu ho => ?_, fun hr => ?_, fun e => ?_, fun e => ?_, fun k => ?_, fun hu => ?_⟩
  · exact gives_run_eq (f := fun _ h => h.semRead r n) hl (Hw.semRead_takes (h := s.hw.at g) n hr (.inl hf))
      (Hw.setHolder_f _ n m r (by have := semReq_lt hr; omega))
  · exact gives_run_eq (f := fun _ h => h.semRead r n) hl (Hw.semRead_leaves (h := s.hw.at g) n hf hb) ⟨rfl, rfl⟩
  · exact gives_run_eq (f := fun _ h => h.semRead r n) hl (Hw.semRead_takes (h := s.hw.at g) n hr (.inr ⟨ha, hlt⟩))
      (Hw.setHolder_f _ n m r (by have := semReq_lt hr; omega)).1
  · refine gives_write (f := fun _ h => h.semWrite r n) hl (by decide) hu fun k hk => ?_
    have hold : ∀ j : Fin 64, k.atWrite.f (sm j) 7 0 = s.hw.f (sm j) 7 0 := fun j => hk.f (sm_not_inLog j) 7 0
    rw [Hw.semWrite_holder n hr ((hold n).trans ho), ← hold m]
    exact Hw.setHolder_f _ n m 0xFF (by decide)
  · refine gives_write (f := fun _ h => h.semWrite r n) hl (by decide) hu fun k hk => ?_
    have hold : ∀ j : Fin 64, k.atWrite.f (sm j) 7 0 = s.hw.f (sm j) 7 0 := fun j => hk.f (sm_not_inLog j) 7 0
    rw [Hw.semWrite_foreign n (by rwa [hold n]), ← hold m]
    refine ⟨?_, Hw.bit_evt _ _ (by decide)⟩
    exact congrArg (fld · 7 0) (Hw.reg_evt_ne _ (sm_ne_header m (by decide)) (sm_ne_header m (by decide)) _)
  · exact gives_run_eq (f := fun _ h => h.semRead r n) hl (Hw.semRead_no_id hr) rfl
  · exact gives_run (f := fun _ h => h.swWrite (pHYT e) rCTRL fun h => h.haltReq e) hl
      (Hw.swWrite_away (by unfold sm ra pSEM; omega) (sm_not_inLog m) _ _ _ fun k => k.haltReq_sem e m)
  · exact gives_run (f := fun _ h => h.swWrite (pHYT e) rCTRL fun h => h.hytDisable e) hl
      (Hw.swWrite_away (by unfold sm ra pSEM; omega) (sm_not_inLog m) _ _ _ fun k => k.hytDisable_sem e m)
  · exact gives_run (f := fun _ h => h.acHalt k true) hl (Hw.acHalt_sem _ k true m)
  · exact gives_write (f := fun mem h => h.softReset mem pSEM) hl (by decide) hu fun k _ => k.atWrite.softReset_sem s.mem m

end Sys2Proof

namespace Sys2Proof.Machine

/-! ### A committed set taken into force -/

theorem tabGet_of_not_mem {α : Type} {d : α} {k : Nat} {t : Tab α} (hk : k ∉ t.map (·.1)) : tabGet d k t = d := by
  induction t with
  | nil => rfl
  | cons e t ih =>
    rw [List.map_cons, List.mem_cons, not_or] at hk
    exact (if_neg (Ne.symm hk.1)).trans (ih hk.2)

/-- The last entry of a key is what a run of sets leaves; with no key twice it is the only one. -/
theorem tabGet_foldl_tabSet (a : Nat) {l : Tab Word} (hn : (l.map (·.1)).Nodup) (t : Tab Word) :
    tabGet (regReset a) a (l.foldl (fun t e => tabSet (regReset e.1) e.1 e.2 t) t) =
      tabGet (tabGet (regReset a) a t) a l := by
  induction l generalizing t with
  | nil => rfl
  | cons e l ih =>
    have hcons : ∀ d, tabGet d a (e :: l) = if e.1 = a then e.2 else tabGet d a l := fun _ => rfl
    rw [List.map_cons, List.nodup_cons] at hn
    rw [List.foldl_cons, ih hn.2, hcons]
    split
    · next he =>
      rw [← he, tabGet_tabSet_same]
      exact tabGet_of_not_mem hn.1
    · next he => rw [get_set_ne (Ne.symm he)]

/-- Where a page has no bits that only the hardware sets, its committed registers take the set's values. -/
theorem tabGet_applySet {p a : Nat} (ha : inPage p a = true) (hw : isRws a = true) (h1 : roBits (ra p 0x080) = 0)
    (h2 : roBits (ra p 0x04C) = 0) {src : Tab Word} (hn : (src.map (·.1)).Nodup) (regs : Tab Word) :
    tabGet (regReset a) a (applySet p src regs) = tabGet (regReset a) a src := by
  have hkeys : ((pageEntries p src).map (·.1)).Nodup := (List.Sublist.map _ List.filter_sublist).nodup hn
  unfold applySet
  simp only [List.foldl_cons, List.foldl_nil, h1, h2, if_true]
  rw [tabGet_foldl_tabSet a hkeys, tabGet_filter_key _ (fun k => !(inPage p k && isRws k)), ha, hw]
  exact (tabGet_filter_key _ (inPage p) a src).trans (if_pos ha)

/-- A pending set taken at a commit point of a later cycle than its GO. -/
theorem Hw.takePending_later {h : Hw} {p : Nat} (hp : h.pending p = true) (hc : (tabGet {} p h.goMark).cycle ≠ h.cycle) :
    h.takePending p = { h with regs := applySet p h.pend h.regs, pair := { h.pair with cfgStale := true } }.setBit
      (ra p rCOMMIT) 16 false := by
  have ht : h.takes p = true := by simp [Hw.takes, hp, hc]
  have hs : h.takenSet p = h.pend := if_neg hc
  unfold Hw.takePending
  rw [if_pos ht, hs]
  exact if_neg hc

/-! ### The end of a carrier's period -/

section
variable {γ : Type} (F : Hw → γ) (hreg : ∀ (h : Hw) (a : Nat) (v : Word), 0x9000 ≤ a → F (h.setReg a v) = F h)
  (hcar : ∀ (h : Hw) c x, F (h.setCar c x) = F h) (hleg : ∀ (h : Hw) n x, F (h.setLeg n x) = F h)
include hreg hcar hleg

/-- The end of a period touches the unit, its CAR page and its legs. -/
theorem Hw.carRestart_keeps (h : Hw) (c : Nat) : F (h.carRestart c) = F h := by
  have hcr : ∀ off, 0x9000 ≤ cr c off := fun off => by unfold cr ra pCAR; omega
  have hcount : ∀ k : Hw, F (k.carCounted c) = F k := fun k => by
    unfold Hw.carCounted Hw.when
    split
    · exact hreg _ _ _ (hcr _)
    · rfl
  have hslip : ∀ k : Hw, F (k.carSlip c) = F k := fun k => by
    unfold Hw.carSlip
    extract_lets n E slip k1
    split
    · exact hcar _ _ _
    · exact (Hw.each_keeps F (fun _ _ => hleg _ _ _) _ _).trans (hcar _ _ _)
  unfold Hw.carRestart
  split
  · rfl
  · exact (hcar _ _ _).trans ((hslip _).trans (hcount h))

end

/-! ### The change of BATCH and NCYC -/

/-- The periods that follow BATCH, and the units left without one. -/
def Hw.periodsFollow (h : Hw) (b : Nat) : Hw :=
  h.each (List.range 32) fun h c =>
    let h := h.recalcPeriod c
    if (periodOf b (h.carK c) (h.carMul c)).isNone then (h.setCar c { h.car c with invalid := true }).evt (pCAR c) 1 else h

theorem Hw.periodsFollow_reg (h : Hw) (b : Nat) {a : Nat} (ha : a < 0x9000) : (h.periodsFollow b).reg a = h.reg a := by
  refine Hw.each_keeps (·.reg a) (fun k c => ?_) _ _
  have hcr : a ≠ cr c 0x04C := by unfold cr ra pCAR; omega
  have hev : ∀ off, a ≠ ra (pCAR c) off := fun off => by unfold ra pCAR; omega
  dsimp only
  split
  · rw [Hw.reg_evt_ne _ (hev _) (hev _)]
    exact k.reg_setF_ne hcr ..
  · exact k.reg_setF_ne hcr ..

/-- While a leg is enabled a change waits. -/
theorem Hw.batchChange_of_enabled {h : Hw} (hon : h.anyEnabled = true) : h.batchChange = h := by
  have ha : h.batchApply = h := if_neg (by simp [hon])
  unfold Hw.batchChange
  dsimp only
  rw [ha]
  exact if_neg (by simp)

/-- The module at a change of BATCH and NCYC: every divided carrier ends its period, then the set is taken. -/
def Hw.changeTaken (h : Hw) : Hw := (h.each ((List.range 32).filter fun c => !h.carMul c) Hw.carRestart).takePending pCLK

/-- What a change of BATCH and NCYC takes into force. -/
theorem Hw.changeTaken_shows {h : Hw} (hp : h.pending pCLK = true) (hc : (tabGet {} pCLK h.goMark).cycle ≠ h.cycle)
    (hn : (h.pend.map (·.1)).Nodup) : h.changeTaken.pending pCLK = false ∧
      h.changeTaken.reg (ck 0x048) = h.pnd (ck 0x048) ∧ h.changeTaken.reg (ck 0x04C) = h.pnd (ck 0x04C) := by
  have keep : ∀ {γ : Type} (F : Hw → γ), (∀ (h : Hw) (a : Nat) (v : Word), 0x9000 ≤ a → F (h.setReg a v) = F h) →
      (∀ (h : Hw) c x, F (h.setCar c x) = F h) → (∀ (h : Hw) n x, F (h.setLeg n x) = F h) →
      F (h.each ((List.range 32).filter fun c => !h.carMul c) Hw.carRestart) = F h := fun F h1 h2 h3 =>
    Hw.each_keeps F (fun k c => k.carRestart_keeps F h1 h2 h3 c) _ _
  unfold Hw.changeTaken
  have kp := keep (·.pend) (fun _ _ _ _ => rfl) (fun _ _ _ => rfl) fun _ _ _ => rfl
  have km := keep (·.goMark) (fun _ _ _ _ => rfl) (fun _ _ _ => rfl) fun _ _ _ => rfl
  have kg := keep (·.grain) (fun _ _ _ _ => rfl) (fun _ _ _ => rfl) fun _ _ _ => rfl
  have kr := keep (·.reg (ra pCLK rCOMMIT)) (fun _ _ _ ha => Hw.reg_setReg_ne _ (by unfold ra pCLK rCOMMIT; omega) _)
    (fun _ _ _ => rfl) fun _ _ _ => rfl
  generalize h.each ((List.range 32).filter fun c => !h.carMul c) Hw.carRestart = k at kp km kg kr
  have hpk : k.pending pCLK = true := (congrArg (bitOf · 16) kr).trans hp
  have hck : (tabGet {} pCLK k.goMark).cycle ≠ k.cycle := by
    rw [Hw.cycle, kg, km]
    exact hc
  rw [Hw.takePending_later hpk hck]
  have takes : ∀ off, ck off ≠ ra pCLK rCOMMIT → inPage pCLK (ck off) = true → isRws (ck off) = true →
      (({ k with regs := applySet pCLK k.pend k.regs, pair := { k.pair with cfgStale := true } } : Hw).setBit (ra pCLK rCOMMIT)
        16 false).reg (ck off) = h.pnd (ck off) := fun off h1 h2 h3 => by
    rw [Hw.reg_setBit_ne _ h1]
    refine (tabGet_applySet h2 h3 (by decide) (by decide) (by rw [kp]; exact hn) k.regs).trans ?_
    rw [kp]
    rfl
  exact ⟨Hw.bit_setBit_same _ _ (by decide) _, takes 0x048 (by decide) (by decide) (by decide),
    takes 0x04C (by decide) (by decide) (by decide)⟩

/-- SLIP_MAX as it follows BATCH. -/
def Hw.slipMax (h : Hw) : Hw := h.setF (ck 0x068) 31 16 ((h.batch + 1999) / 2000 + 1)

/-- A change of BATCH and NCYC: the set, SLIP_MAX, the batch it falls in, then the periods. -/
theorem Hw.batchApply_eq {h : Hw} (ht : h.takes pCLK = true) (hoff : h.anyEnabled = false) (hsec : h.wholeSecond = true) :
    ∃ k : Hw, h.batchApply = k.periodsFollow h.changeTaken.batch ∧
      ∀ a, a ≠ ck 0x060 → k.reg a = h.changeTaken.slipMax.reg a := by
  unfold Hw.batchApply
  rw [if_pos (show (h.wholeSecond && h.takes pCLK && !h.anyEnabled) = true by rw [hsec, ht, hoff]; rfl)]
  extract_lets sec fallen k b k2 k3
  refine ⟨k3, rfl, fun a ha => ?_⟩
  simp only [k3]
  split
  · exact Hw.reg_setReg_ne _ ha _
  · rfl

/-- The change of BATCH and NCYC, with what follows from the new BATCH. -/
theorem Hw.batchApply_shows {h : Hw} (hp : h.pending pCLK = true) (hc : (tabGet {} pCLK h.goMark).cycle ≠ h.cycle)
    (hn : (h.pend.map (·.1)).Nodup) (hoff : h.anyEnabled = false) (hsec : h.wholeSecond = true) :
    h.batchApply.pending pCLK = false ∧ h.batchApply.reg (ck 0x048) = h.pnd (ck 0x048) ∧
      h.batchApply.reg (ck 0x04C) = h.pnd (ck 0x04C) ∧
      h.batchApply.f (ck 0x068) 31 16 = ((h.batchApply.batch + 1999) / 2000 + 1) % 65536 := by
  obtain ⟨k, e, hk⟩ := Hw.batchApply_eq (show h.takes pCLK = true by simp [Hw.takes, hp, hc]) hoff hsec
  obtain ⟨h1, h2, h3⟩ := Hw.changeTaken_shows hp hc hn
  rw [e]
  have last : ∀ a < 0x9000, a ≠ ck 0x060 →
      (k.periodsFollow h.changeTaken.batch).reg a = h.changeTaken.slipMax.reg a := fun a ha h6 =>
    (k.periodsFollow_reg _ ha).trans (hk a h6)
  have rest : ∀ a, a ≠ ck 0x068 → h.changeTaken.slipMax.reg a = h.changeTaken.reg a := fun a ha =>
    h.changeTaken.reg_setF_ne ha _ _ _
  have hb : (k.periodsFollow h.changeTaken.batch).batch = h.changeTaken.batch :=
    congrArg (fld · 18 0) ((last (ra pCLK 0x048) (by decide) (by decide)).trans (rest _ (by decide)))
  refine ⟨?_, ?_, ?_, ?_⟩
  · exact (congrArg (bitOf · 16) ((last (ra pCLK rCOMMIT) (by decide) (by decide)).trans (rest _ (by decide)))).trans h1
  · exact ((last (ck 0x048) (by decide) (by decide)).trans (rest _ (by decide))).trans h2
  · exact ((last (ck 0x04C) (by decide) (by decide)).trans (rest _ (by decide))).trans h3
  · rw [hb]
    exact (congrArg (fld · 31 16) (last (ck 0x068) (by decide) (by decide))).trans
      (h.changeTaken.f_setF_same _ (by decide) (by decide) _)

/-- The check of the gate control lists after a change leaves the CLK page. -/
theorem Hw.gclCheck_reg (h : Hw) {a : Nat} (ha : a < 0x9000) : h.gclCheck.reg a = h.reg a := by
  have hne : ∀ off, a ≠ ra pNSW off := fun off => by unfold ra pNSW; omega
  unfold Hw.gclCheck
  split
  · exact h.reg_evt_ne (hne _) (hne _) 1
  · rfl

theorem Hw.batchChange_shows {h : Hw} (hp : h.pending pCLK = true) (hc : (tabGet {} pCLK h.goMark).cycle ≠ h.cycle)
    (hn : (h.pend.map (·.1)).Nodup) (hoff : h.anyEnabled = false) (hsec : h.wholeSecond = true) :
    h.batchChange.pending pCLK = false ∧ h.batchChange.reg (ck 0x048) = h.pnd (ck 0x048) ∧
      h.batchChange.reg (ck 0x04C) = h.pnd (ck 0x04C) ∧
      h.batchChange.f (ck 0x068) 31 16 = ((h.batchChange.batch + 1999) / 2000 + 1) % 65536 := by
  obtain ⟨h1, h2, h3, h4⟩ := Hw.batchApply_shows hp hc hn hoff hsec
  have e : ∀ a < 0x9000, h.batchChange.reg a = h.batchApply.reg a := fun a ha => by
    unfold Hw.batchChange
    dsimp only
    split
    · exact Hw.gclCheck_reg _ ha
    · rfl
  have hb : h.batchChange.batch = h.batchApply.batch := congrArg (fld · 18 0) (e (ra pCLK 0x048) (by decide))
  rw [hb]
  exact ⟨(congrArg (bitOf · 16) (e (ra pCLK rCOMMIT) (by decide))).trans h1, (e _ (by decide)).trans h2,
    (e _ (by decide)).trans h3, (congrArg (fld · 31 16) (e (ck 0x068) (by decide))).trans h4⟩

end Sys2Proof.Machine

namespace Sys2Proof
open Machine

/-- Settles O11: the divided carriers end their periods first, the set is taken, and what follows leaves the CLK page's
BATCH and NCYC. -/
theorem batchChange : Obligations.BatchChange := by
  refine fun s g hl => ⟨fun hp hc hn hoff hsec => ?_, fun a hp hon => ?_⟩
  · obtain ⟨h1, h2, h3, h4⟩ := Hw.batchChange_shows (h := s.hw.at g) hp hc hn hoff hsec
    exact gives_run (f := fun _ h => h.batchChange) hl ⟨h1, h2, h3, h4⟩
  · exact gives_run_eq (f := fun _ h => h.batchChange) hl (Hw.batchChange_of_enabled (h := s.hw.at g) hon) ⟨hp, rfl⟩

end Sys2Proof

namespace Sys2Proof.Machine

/-! ### What decides whether a leg may be enabled -/

section
variable {h k : Hw} (hr : ∀ a, ¬ inLog a → k.reg a = h.reg a) (hg : k.gdp = h.gdp) (hl : k.legs = h.legs)
  (hc : k.cars = h.cars) (hs : k.sys = h.sys)

theorem not_inLog_of_ge {a : Nat} (ha : 0x3000 ≤ a) : ¬ inLog a := by
  unfold inLog ra pFLT rEVT rEVT_TS
  omega

include hr

theorem Hw.legAxis_congr (n : Nat) : k.legAxis n = h.legAxis n := by
  have e : (fun c => k.bit (cr c 0x044) (n / 3)) = fun c => h.bit (cr c 0x044) (n / 3) := funext fun c =>
    congrArg (bitOf · _) (hr _ (not_inLog_of_ge (by unfold cr ra pCAR; omega)))
  unfold Hw.legAxis Hw.bridgeAxis
  rw [e]

theorem Hw.mode_congr : k.mode = h.mode := Hw.mode_of_reg (hr _ (not_inLog_page (by decide) (by decide)))

theorem Hw.legEnabled_congr (n : Nat) : k.legEnabled n = h.legEnabled n :=
  congrArg (bitOf · 0) (hr _ (not_inLog_of_ge (by unfold lg ra pLEG; omega)))

include hc

theorem Hw.carValid_congr (c : Nat) : k.carValid c = h.carValid c := by
  have hp : k.period c = h.period c :=
    congrArg (fld · 23 0) (hr _ (not_inLog_of_ge (by unfold cr ra pCAR; omega)))
  have hcar : k.car c = h.car c := congrArg (tabGet _ c) hc
  rw [Hw.carValid, Hw.carValid, hp, hcar]

omit hc
include hg hl hs

theorem Hw.forced_congr (n : Nat) : k.forced n = h.forced n := by
  have hgst : k.gstCode n = h.gstCode n :=
    congrArg (fld · 2 0) (hr _ (not_inLog_of_ge (by unfold ra pGDP; omega)))
  have hbit : ∀ t, k.bit (ra pGDP 0x058) t = h.bit (ra pGDP 0x058) t := fun t =>
    congrArg (bitOf · t) (hr _ (not_inLog_page (by decide) (by decide)))
  have hctrl : k.bit (ra (pLEG n) rCTRL) 2 = h.bit (ra (pLEG n) rCTRL) 2 :=
    congrArg (bitOf · 2) (hr _ (not_inLog_of_ge (by unfold ra pLEG; omega)))
  simp only [Hw.forced, Hw.protForce, Hw.statusForce, Hw.tripForce, Hw.classForce, Hw.modeForce, Hw.haltSafe, Hw.acHalted,
    Hw.trip, Hw.leg, hgst, hbit, hctrl, Hw.mode_congr hr, hg, hl, hs]

include hc

theorem Hw.legMayEnable_congr (n : Nat) : k.legMayEnable n = h.legMayEnable n := by
  simp only [Hw.legMayEnable, Hw.mode_congr hr, Hw.legAxis_congr hr, Hw.forced_congr hr hg hl hs, Hw.carValid_congr hr hc]

end

/-- A leg may be enabled in RUN or SHADOW, on an owned bridge with a valid period, under no force (R66, R77). -/
theorem Hw.legMayEnable_iff (h : Hw) (n : Nat) : h.legMayEnable n = true ↔
    (h.mode = mRUN ∨ h.mode = mSHADOW) ∧ (h.legAxis n).any h.carValid = true ∧ h.forced n = false := by
  unfold Hw.legMayEnable legMode
  cases h.legAxis n <;> simp [mRUN, mSHADOW, and_assoc]

/-! ### ENABLE -/

theorem lg_ctrl_inj {n m : Nat} : lg n rCTRL = lg m rCTRL ↔ n = m := by
  unfold lg ra pLEG
  omega

/-- ENABLE written of one leg: of the others nothing changes. -/
theorem Hw.setEnable_shows (h : Hw) (n : Nat) (v : Bool) : (h.setBit (lg n rCTRL) 0 v).legEnabled n = v ∧
    ∀ k, k = n ∨ (h.setBit (lg n rCTRL) 0 v).legEnabled k = h.legEnabled k := by
  refine ⟨Hw.bit_setBit_same _ _ (by decide) _, fun k => ?_⟩
  by_cases e : k = n
  · exact .inl e
  · exact .inr (Hw.bit_setBit_ne _ (mt lg_ctrl_inj.mp e) _ _ _)

theorem Hw.legEnable_accepted {h : Hw} {n : Nat} (hm : h.legMayEnable n = true) : (h.legEnable n).legEnabled n = true ∧
    (∀ k, k = n ∨ (h.legEnable n).legEnabled k = h.legEnabled k) ∧ (h.legEnable n).legs = h.legs := by
  unfold Hw.legEnable
  rw [if_pos hm]
  extract_lets k
  have hk : k.regs = h.regs ∧ k.legs = h.legs := by
    simp only [k]
    split
    · split <;> exact ⟨rfl, rfl⟩
    · exact ⟨rfl, rfl⟩
  obtain ⟨h1, h2⟩ := k.setEnable_shows n true
  refine ⟨h1, fun j => (h2 j).imp_right fun e => e.trans ?_, hk.2⟩
  exact congrArg (bitOf · 0) (Hw.reg_of_regs hk.1 _)

theorem Hw.legEnable_refused {h : Hw} {n : Nat} (hm : h.legMayEnable n = false) : (h.legEnable n).legEnabled n = false ∧
    (h.legEnable n).bit (lg n rEVT) 1 = true ∧ (h.legEnable n).legs = h.legs := by
  have e : h.legEnable n = (h.setBit (lg n rCTRL) 0 false).evt (pLEG n) 1 := if_neg (by simp [hm])
  rw [e]
  refine ⟨?_, Hw.bit_evt _ _ (by decide), Hw.evt_legs _ _ _⟩
  have hne : lg n rCTRL ≠ ra (pLEG n) rEVT ∧ lg n rCTRL ≠ ra (pLEG n) rEVT_TS :=
    ⟨ra_ne_off (by decide) (by decide) (by decide), ra_ne_off (by decide) (by decide) (by decide)⟩
  rw [Hw.legEnabled, Hw.bit, Hw.reg_evt_ne _ hne.1 hne.2]
  exact Hw.bit_setBit_same _ _ (by decide) _

/-- A clear of ENABLE drives the leg to the safe state in the grain it acts in. -/
theorem Hw.legOff_shows (h : Hw) (n : Nat) : (h.legOff n).legEnabled n = false ∧ ((h.legOff n).leg n).running = false ∧
    ((h.legOff n).leg n).pul = false ∧ ((h.legOff n).leg n).pulAt = 32 * h.grain ∧
      ∀ k, k ≠ n → (h.legOff n).legEnabled k = h.legEnabled k ∧ (h.legOff n).leg k = h.leg k := by
  obtain ⟨e1, e2⟩ := h.setEnable_shows n false
  have hn : ∀ {γ : Type} (F : LegS → γ) (x : γ), (∀ l : LegS, F { l with
      running := false, pul := false, pulAt := 32 * h.grain, prevAt := 0, prevFrom := 0, prevTo := 0, enaFrom := 0, enaTo := 0,
      refFall := 0, refRise := 0, dropPair := none, hsDue := false, edges := l.edges.filter (decide <| · < h.grain),
      rises := l.rises.filter (decide <| · < h.grain) } = x) → F ((h.legOff n).leg n) = x := fun F x hF => by
    rw [← hF ((h.setBit (lg n rCTRL) 0 false).leg n)]
    exact congrArg F (tabGet_tabSet_same _ _ _ _)
  refine ⟨e1, hn _ _ fun _ => rfl, hn _ _ fun _ => rfl, hn _ _ fun _ => rfl, fun k hk => ⟨(e2 k).resolve_left hk, ?_⟩⟩
  exact tabGet_tabSet_ne _ _ hk _ _

/-! ### CNT_CLR -/

/-- An entry of the log counts nothing but its own loss. -/
theorem Hw.log_cntCyc (h : Hw) (p rk cd i ts fl : Nat) {key : Nat} (hk : key ≠ cntKey (ra pFLT 0x048) 0) :
    tabGet {} key (h.log p rk cd i ts fl).cntCyc = tabGet {} key h.cntCyc := by
  have flags : ∀ (l : List (Nat × Nat × Nat)) (a : Nat × Nat × Nat → Nat) (b : Nat × Nat × Nat → Byte) (k : Hw),
      (k.each l fun h x => h.wr8 (a x) (b x)).cntCyc = k.cntCyc := fun l a b k =>
    Hw.each_keeps (·.cntCyc) (fun _ _ => Hw.wr8_cntCyc _ _ _) l k
  unfold Hw.log Hw.logFull
  extract_lets others q r k
  have e : k.cntCyc = h.cntCyc := flags _ _ _ h
  rw [← e]
  split
  · rfl
  · rw [Hw.evt_cntCyc]
    exact tabGet_tabSet_ne _ _ hk _ _

/-- A software write of an open page acts after its record, which counts nothing but its own loss. -/
theorem Hw.swWrite_counts (h : Hw) {p : Nat} (off : Nat) (f : Hw → Hw) (hp : p ≠ pFLT) (hl : h.bit (ra p rLOCK) 0 = false) :
    ∃ k : Hw, Logged h k ∧ h.swWrite p off f = f k.atWrite ∧
      ∀ key, key ≠ cntKey (ra pFLT 0x048) 0 → tabGet {} key k.cntCyc = tabGet {} key h.cntCyc := by
  have hk := h.log_logged p 10 (Config.writeCode p off).toNat (pageInst p) h.wgrain 0
  refine ⟨_, hk, ?_, fun key hkey => h.log_cntCyc _ _ _ _ _ _ hkey⟩
  unfold Hw.swWrite
  dsimp only
  rw [hk.bit (not_inLog_page hp (by decide)), hl]
  rfl

/-- A count that no increment of this cycle met is cleared. -/
theorem Hw.clrCnt_of_old {h : Hw} {a lo : Nat} (hi : Nat) (hc : (tabGet {} (cntKey a lo) h.cntCyc).cycle ≠ h.cycle) :
    h.clrCnt a hi lo = h.setF a hi lo 0 := by
  unfold Hw.clrCnt
  dsimp only
  rw [if_neg hc]

/-- CNT_CLR of a leg none of whose counts was stepped in the cycle. -/
theorem Hw.legCntClr_of_old {h : Hw} {n : Nat} (h1 : (tabGet {} (cntKey (lg n 0x05C) 0) h.cntCyc).cycle ≠ h.cycle)
    (h2 : (tabGet {} (cntKey (lg n 0x05C) 16) h.cntCyc).cycle ≠ h.cycle)
    (h3 : (tabGet {} (cntKey (lg n 0x060) 0) h.cntCyc).cycle ≠ h.cycle) :
    h.legCntClr n = ((h.setF (lg n 0x05C) 15 0 0).setF (lg n 0x05C) 31 16 0).setF (lg n 0x060) 31 0 0 := by
  unfold Hw.legCntClr
  rw [Hw.clrCnt_of_old 15 h1, Hw.clrCnt_of_old (h := h.setF (lg n 0x05C) 15 0 0) 31 h2,
    Hw.clrCnt_of_old (h := (h.setF (lg n 0x05C) 15 0 0).setF (lg n 0x05C) 31 16 0) 31 h3]

theorem putFld_halves_zero (w : Word) : putFld (putFld w 15 0 0) 31 16 0 = 0 := by
  apply BitVec.eq_of_getLsbD_eq
  intro i hi
  rw [getLsbD_putFld _ (by decide) (by decide), getLsbD_putFld _ (by decide) (by decide)]
  by_cases h : 16 ≤ i
  · rw [if_pos ⟨h, by omega⟩]
    simp
  · rw [if_neg (by omega), if_pos (by omega)]
    simp

end Sys2Proof.Machine

namespace Sys2Proof
open Machine

/-- Settles O24: the record of the write in the log decides nothing about a leg; the rest is each command's own. -/
theorem legEnableAndDisable : Obligations.LegEnableAndDisable := by
  intro s g n j hl hu
  have hpg : pLEG n ≠ pFLT := by unfold pLEG pFLT; omega
  have may : ∀ {k : Hw}, Logged (s.hw.at g) k → k.atWrite.legMayEnable n = s.hw.legMayEnable n := fun hk =>
    Hw.legMayEnable_congr (fun a ha => hk.reg ha) hk.gdp hk.legs hk.cars hk.sys n
  have enabled : ∀ {k : Hw}, Logged (s.hw.at g) k → ∀ j, k.atWrite.legEnabled j = s.hw.legEnabled j := fun hk j =>
    Hw.legEnabled_congr (fun a ha => hk.reg ha) j
  refine ⟨fun hm ha hf => ?_, fun hno => ?_, ?_, fun h1 h2 h3 => ?_⟩
  · refine gives_write (f := fun _ h => h.legEnable n) hl hpg hu fun k hk => ?_
    obtain ⟨e1, e2, e3⟩ := Hw.legEnable_accepted ((may hk).trans ((s.hw.legMayEnable_iff n).mpr ⟨hm, ha, hf⟩))
    refine ⟨e1, ?_, congrArg (tabGet _ _) (e3.trans hk.legs)⟩
    exact (e2 j).imp Fin.ext fun e => e.trans (enabled hk j)
  · refine gives_write (f := fun _ h => h.legEnable n) hl hpg hu fun k hk => ?_
    have hmay : s.hw.legMayEnable n = false := by
      rw [← Bool.not_eq_true, Hw.legMayEnable_iff]
      rintro ⟨hm, ha, hf⟩
      rcases hno with ⟨h1, h2⟩ | h | h | h
      · exact hm.elim h1 h2
      · rw [h] at ha
        exact Bool.false_ne_true ha
      · obtain ⟨c, hc⟩ := Option.isSome_iff_exists.mp (Option.isSome_of_any ha)
        simp [hc] at ha h
        exact absurd (ha.symm.trans h) (by decide)
      · exact absurd (hf.symm.trans h) (by decide)
    obtain ⟨e1, e2, e3⟩ := Hw.legEnable_refused ((may hk).trans hmay)
    exact ⟨e1, e2, congrArg (tabGet _ _) (e3.trans hk.legs)⟩
  · refine gives_write (f := fun _ h => h.legOff n) hl hpg hu fun k hk => ?_
    obtain ⟨e1, e2, e3, e4, e5⟩ := k.atWrite.legOff_shows n
    have hgr : k.atWrite.grain = 5 * (max s.hw.grain g / 5) + 4 := congrArg (fun x => 5 * (x / 5) + 4) hk.grain
    refine ⟨e1, e2, e3, e4.trans (by rw [hgr]), ?_⟩
    by_cases e : j.val = n.val
    · exact .inl (Fin.ext e)
    · obtain ⟨e6, e7⟩ := e5 j e
      exact .inr ⟨e6.trans (enabled hk j), e7.trans (congrArg (tabGet _ _) hk.legs)⟩
  · obtain ⟨k, hk, e, hcnt⟩ := (s.hw.at g).swWrite_counts (p := pLEG n) rCTRL (fun h => h.legCntClr n) hpg hu
    have hcyc : k.atWrite.cycle = max s.hw.grain g / 5 := by
      have hgr : k.atWrite.grain = 5 * (max s.hw.grain g / 5) + 4 := congrArg (fun x => 5 * (x / 5) + 4) hk.grain
      rw [Hw.cycle, hgr]
      omega
    have old : ∀ off lo, (tabGet {} (cntKey (lg n off) lo) s.hw.cntCyc).cycle ≠ max s.hw.grain g / 5 →
        (tabGet {} (cntKey (lg n off) lo) k.atWrite.cntCyc).cycle ≠ k.atWrite.cycle := fun off lo hne => by
      have hkey : cntKey (lg n off) lo ≠ cntKey (ra pFLT 0x048) 0 := by
        unfold cntKey lg ra pLEG pFLT
        omega
      rw [hcyc]
      exact (congrArg (·.cycle) (hcnt _ hkey)).trans_ne hne
    refine gives_run_eq (f := fun _ h => h.swWrite (pLEG n) rCTRL fun h => h.legCntClr n) hl e ?_
    rw [Hw.legCntClr_of_old (old _ _ h1) (old _ _ h2) (old _ _ h3)]
    have hne : lg n 0x05C ≠ lg n 0x060 := ra_ne_off (by decide) (by decide) (by decide)
    refine ⟨?_, ?_, congrArg (tabGet _ _) hk.legs⟩
    · rw [Hw.seal_reg, Hw.reg_setF_ne _ hne, Hw.reg_setF_same, Hw.reg_setF_same]
      exact putFld_halves_zero _
    · exact Hw.f_setF_same _ _ (by decide) (by decide) 0

end Sys2Proof

namespace Sys2Proof
open Machine

/-- A module whose record of the legs that a fault cut lies at grain 100: leg 0, of axis 0's bridge 0. Its trip input 0,
enabled on leg 0, has latched asynchronously. -/
def cutAhead : State :=
  { hw := { regs := [(cr 0 0x044, 1), (tripReg 0 0, 1), (tripReg 0 0x08, 1), (gp 0x058, 0)],
            gdp := { trips := [(0, { async := some 0 })], cut := 1, cutAt := 100 } } }

/-- Refutes O28: whether an axis was on is asked of the state before, the model asks it in the grain of the command, and in
that grain the legs cut at grain 100 count as on, so axis 0's class is faulted. -/
theorem not_tripInputs : ¬ Obligations.TripInputs := by
  intro h
  obtain ⟨-, hrecord, -⟩ := h cutAhead 100 0 0 rfl
  have hg := hrecord false 0 0 (by decide) (by decide) rfl
  obtain ⟨-, -, -, -, -, -, hprot⟩ := afterRun_of_gives (f := fun _ h => h.tripAssert 0 false true) rfl rfl hg
  exact absurd (hprot (by decide)) (by decide +kernel)

end Sys2Proof

namespace Sys2Proof
open Machine

/-- A step is the identity on an empty queue, and otherwise a sealed command on the queue's rest. -/
theorem step_sealed {s t : State} (h : step s = .next t) :
    t = s ∨ (Memory.wf s.mem = true → Memory.wf t.mem = true) ∧ t.hw.wbuf = [] ∧ t.hw.rst = 0 := by
  cases hq : s.pending with
  | nil =>
    rw [step_nil hq] at h
    cases h
    exact .inl rfl
  | cons c rest =>
    obtain ⟨u, hu, -, hwf, hbuf, hrst⟩ := exec_sealed c { s with pending := rest }
    have hs : step s = exec c { s with pending := rest } := by simp only [step, hq]
    rw [hs, hu] at h
    cases h
    exact .inr ⟨hwf, hbuf, hrst⟩

/-- Settles O3: every command ends sealed, and the empty queue idles. -/
theorem everyStepKeepsInvariant : Obligations.EveryStepKeepsInvariant := by
  refine ⟨fun s t hm h => ?_, fun s t hs h => ?_⟩
  · rcases step_sealed h with rfl | ⟨hwf, -⟩
    · exact hm
    · exact hwf hm
  · rcases step_sealed h with rfl | ⟨-, hsettled⟩
    · exact hs
    · exact hsettled

end Sys2Proof

namespace Sys2Proof.Machine

/-- With no write and no reset outstanding the end of a command that did nothing changes nothing. -/
theorem Hw.seal_of_settled {h : Hw} (hw : h.wbuf = []) (hr : h.rst = 0) : h.seal h.grain = h := by
  unfold Hw.seal
  simp only [hw, hr, List.any_nil, Bool.not_false, List.filter_true]
  cases h
  cases hw
  cases hr
  rfl

/-- An outcome in which nothing but the grain reached has moved. -/
def Idles (s : State) (o : Host.Outcome State Fault Refusal) : Prop := ∃ g, o = .next { s with hw := s.hw.at g }

/-- A command whose condition a settled state does not meet idles. -/
theorem idles_runIf {k : Hw → Bool} {s : State} (g : Nat) (f : Mem → Hw → Hw) (hs : Settled s)
    (h : k (s.hw.at g) = false) : Idles s (runIf k g f s) := by
  obtain ⟨hw, hr⟩ := hs
  refine ⟨g, ?_⟩
  rw [runIf_of_false f h, Hw.seal_of_settled (h := s.hw.at g) hw hr, after_of_no_write (x := s.hw.at g) hr hw]

section
variable {s : State} (hd : s.hw.sys.held = true) (hs : Settled s)
include hd hs

theorem idles_run (g : Nat) (f : Mem → Hw → Hw) : Idles s (run g f s) :=
  idles_runIf g f hs (by simp [hd])

theorem idles_runLink (g : Nat) (f : Mem → Hw → Hw) : Idles s (runLink g f s) :=
  idles_runIf g f hs (by simp [hd])

omit hs in
theorem idles_inTurn {f : State → Host.Outcome State Fault Refusal} (hf : Idles s (f s)) (g : Nat)
    (mine : Instr → Bool) (before : Instr → Option Nat) : Idles s (inTurn g mine before f s) := by
  rwa [inTurn_held hd]

/-- On a held die every command but the supervisor's, the sensors' and the fault manager's idles. -/
theorem idles_exec {c : Instr} (hc : ofSupervisor c = false) : Idles s (exec c s) := by
  cases c <;> dsimp only [exec] <;> first
    | exact Bool.noConfusion hc
    | exact idles_run hd hs _ _
    | exact idles_runLink hd hs _ _
    | exact idles_inTurn hd (idles_run hd hs _ _) _ _ _
    | exact idles_inTurn hd (idles_runLink hd hs _ _) _ _ _

end

end Sys2Proof.Machine

namespace Sys2Proof
open Machine

/-- Settles O5: on a held die every row but the supervisor's runs in a frame whose condition fails. -/
theorem heldDieIdles : Obligations.HeldDieIdles := fun _ _ hd hs hc => idles_exec hd hs hc

end Sys2Proof

namespace Sys2Proof
open Machine

/-- A module in BRINGUP on which a reset of the die is still to be done, with a byte of application SRAM that the reset
clears. -/
def resetOutstanding : State := { hw := { rst := 1 }, mem := [(0, 1)] }

/-- Refutes O20: before both slots are rejected DEBUG_IMAGE_LOAD does nothing itself, but the end of the command performs a
reset of the die that an earlier one left outstanding, and the statement rules out outstanding writes only. -/
theorem not_bootAndDebugImage : ¬ Obligations.BootAndDebugImage := by
  intro h
  obtain ⟨-, -, -, -, -, hidle⟩ := h resetOutstanding 0 rfl (by decide) (by decide)
  obtain ⟨-, hmem, -⟩ := afterRun_of_gives (f := fun m h => h.debugImage m) rfl rfl (hidle 0 rfl rfl)
  exact absurd hmem (by decide)

end Sys2Proof

namespace Sys2Proof
open Machine

/-- Settles O22: the TAP looks at the instruction and the mode, and writes nothing but the event of a refusal. -/
theorem boundaryScan : Obligations.BoundaryScan := by
  refine fun s g j a hl => ⟨fun hj => gives_run (f := fun _ h => h.jtag j) hl ?_,
    fun hj hb hc => gives_run (f := fun _ h => h.jtag j) hl ?_⟩
  · have hrun : (s.hw.at g).jtag j = { s.hw.at g with sys := { s.hw.sys with jtag := j } } := by
      rcases hj with rfl | rfl | hm | hm
      · rfl
      · rfl
      · simp [Hw.jtag, hm]
      · simp [Hw.jtag, hm]
    simp only [afterRun, hrun]
    exact ⟨rfl, rfl⟩
  · have hrun : (s.hw.at g).jtag j = ({ s.hw.at g with sys := { s.hw.sys with jtag := .bypass } } : Hw).evt pSYS 5 := by
      rcases hj with rfl | rfl | rfl <;> simp [Hw.jtag, hb, hc]
    simp only [afterRun, hrun]
    refine ⟨by simp, Hw.bit_evt _ pSYS (by decide), ?_⟩
    by_cases h1 : a = sy rEVT
    · exact .inl h1
    by_cases h2 : a = sy rEVT_TS
    · exact .inr (.inl h2)
    exact .inr (.inr (Hw.reg_evt_ne _ h1 h2 5))

end Sys2Proof

namespace Sys2Proof.Machine

/-- The module before and after its write of a record: what a register reads in the grain of the write. -/
@[simp] theorem Hw.atWrite_bit (h : Hw) (a i : Nat) : h.atWrite.bit a i = h.bit a i := rfl
@[simp] theorem Hw.atWrite_f (h : Hw) (a hi lo : Nat) : h.atWrite.f a hi lo = h.f a hi lo := rfl

/-- A block whose CTRL.ENABLE only stores (R59). -/
theorem Hw.enable_plain (h : Hw) {p : Nat} (on : Bool) (hp : (pageBlock p).1 ≠ .none)
    (hb : (pageBlock p).1 ∉ [Block.leg, .car, .sdm, .fb, .can, .hyt, .acq, .flt]) :
    h.enable p on = h.setBit (ra p rCTRL) 0 on := by
  rcases hpb : pageBlock p with ⟨b, n⟩
  rw [hpb] at hp hb
  cases b <;> simp_all [Hw.enable]

/-- FUNCTION_READY of a page other than LEG. -/
theorem Hw.functionReady_plain (h : Hw) {p : Nat} (cal : Bool) (hp : (pageBlock p).1 ≠ .none) (hl : (pageBlock p).1 ≠ .leg) :
    h.functionReady p cal = h.setBit (ra p rREADY) (if cal then 1 else 0) true := by
  cases hb : (pageBlock p).1 <;> simp_all [Hw.functionReady]

/-- FUNCTION_READY of a LEG page sets both bits (R81). -/
theorem Hw.functionReady_leg (h : Hw) {p : Nat} (cal : Bool) (hl : (pageBlock p).1 = .leg) :
    h.functionReady p cal = (h.setBit (ra p rREADY) 0 true).setBit (ra p rREADY) 1 true := by
  simp [Hw.functionReady, hl]

end Sys2Proof.Machine

namespace Sys2Proof
open Machine

/-- Settles O16: where no block has a rule of its own, ENABLE and READY are bits that the commands set. -/
theorem enableAndReady : Obligations.EnableAndReady := by
  refine fun s g page hl hp => ⟨fun on off hu hb ho hc => ?_, fun cal => ?_⟩
  · have hflt : page.val ≠ pFLT := fun e => by
      rw [e] at hb
      exact hb (by decide)
    refine gives_write (f := fun _ h => h.enable page on) hl hflt hu fun k hk => ?_
    rw [Hw.enable_plain _ on hp hb]
    exact ⟨Hw.bit_setBit_same _ _ (by decide) on,
      (Hw.reg_setBit_ne _ (ra_ne_off ho (by decide) hc) 0 on).trans (hk.reg (not_inLog_page hflt ho))⟩
  · refine gives_run (f := fun _ h => h.functionReady page cal) hl ?_
    simp only [afterRun, Hw.seal_bit]
    by_cases hleg : (pageBlock page).1 = .leg
    · have h1 : ((s.hw.at g).functionReady page cal).bit (ra page rREADY) 1 = true := by
        rw [Hw.functionReady_leg _ cal hleg]
        exact Hw.bit_setBit_same _ _ (by decide) true
      have h0 : ((s.hw.at g).functionReady page cal).bit (ra page rREADY) 0 = true := by
        rw [Hw.functionReady_leg _ cal hleg, Hw.bit_setBit_other _ _ (by decide) (by decide)]
        exact Hw.bit_setBit_same _ _ (by decide) true
      exact ⟨by cases cal <;> assumption, fun _ => ⟨h0, h1⟩⟩
    · refine ⟨?_, fun e => absurd e hleg⟩
      rw [Hw.functionReady_plain _ cal hp hleg]
      exact Hw.bit_setBit_same _ _ (by cases cal <;> decide) true

end Sys2Proof

namespace Sys2Proof.Machine

/-! ### The stored minimum version and the flash (R51, R65) -/

/-- A version that is neither below the stored one nor above the running image's becomes the minimum. -/
theorem Hw.secAdvance_secMin (h : Hw) (v : BitVec 6) (hb : h.bit (sy rREADY) 2 = true) : (h.secAdvance v).nv.secMin =
    if h.nv.secMin.toNat ≤ v.toNat ∧ v.toNat ≤ h.f (sy 0x044) 13 8 then v else h.nv.secMin := by
  unfold Hw.secAdvance
  by_cases hv : h.nv.secMin.toNat ≤ v.toNat ∧ v.toNat ≤ h.f (sy 0x044) 13 8
  · rw [if_pos ⟨hb, hv⟩, if_pos hv]
    rfl
  · rw [if_neg fun hc => hv hc.2, if_neg hv]

/-- The addresses a flash command is aligned to: sectors of 64 KiB for an erase, 256 bytes for a program. -/
def flashAlign (cmd : Nat) : Nat := if cmd = 1 then 0x10000 else 0x100

/-- A flash command is refused: one is in progress, its address is not aligned, or lies in the running slot. -/
def Hw.FlashBad (h : Hw) (cmd : Nat) : Prop :=
  h.bit (sy 0x060) 31 = true ∨ h.f (sy 0x058) 24 0 % flashAlign cmd ≠ 0 ∨
    (h.bit (sy 0x044) 1 = false ∧ h.f (sy 0x058) 24 0 / 0x1000000 = h.f (sy 0x044) 0 0)

theorem Hw.flashCmd_refused {h : Hw} {cmd : Nat} (hb : h.FlashBad cmd) : h.flashCmd cmd = h.evt pSYS 7 := by
  refine if_pos ?_
  rcases hb with hb | hb | ⟨hb, hs⟩
  · simp [hb]
  · simp only [flashAlign] at hb
    simp [hb]
  · simp [hb, hs]

theorem Hw.flashCmd_accepted {h : Hw} {cmd : Nat} (hb : ¬ h.FlashBad cmd) : h.flashCmd cmd =
    ({ h with sys := { h.sys with flashOp := some (cmd, h.f (sy 0x058) 24 0, h.f (sy 0x05C) 20 0) } } : Hw).setBit
      (sy 0x060) 31 true := by
  refine if_neg fun hc => hb ?_
  simp only [Bool.or_eq_true, Bool.and_eq_true, Bool.not_eq_true', beq_iff_eq, bne_iff_ne] at hc
  rcases hc with (hc | hc) | hc
  · exact .inr (.inr hc)
  · exact .inr (.inl hc)
  · exact .inl hc

/-- The registers a flash command looks at stay in the log's record of its write. -/
theorem Logged.flashBad {h k : Hw} (hk : Logged h k) (cmd : Nat) : k.atWrite.FlashBad cmd ↔ h.FlashBad cmd := by
  have hs : ∀ off < 0x1000, ¬ inLog (sy off) := fun off ho => not_inLog_page (by decide) ho
  simp only [Hw.FlashBad, Hw.atWrite_bit, Hw.atWrite_f, hk.bit (hs 0x060 (by decide)), hk.bit (hs 0x044 (by decide)),
    hk.f (hs 0x058 (by decide)), hk.f (hs 0x044 (by decide))]

/-- The module once its flash command has ended and the bytes d stand at address a. -/
def Hw.flashEnded (h : Hw) (a : Nat) (d : List Byte) (free : Nat) : Hw :=
  (({ h with sys := { h.sys with flashOp := none }, free } : Hw).wrN (0x60000000 + a) d).setBit (sy 0x060) 31 false

/-- A program command ends with the bytes of its source, those within application SRAM. -/
theorem Hw.flashDone_program {h : Hw} {a src : Nat} (hop : h.sys.flashOp = some (2, a, src)) (m : Mem) :
    ∃ d : List Byte, d.length = 0x100 ∧ (∀ i < 0x100, src + i < 0x200000 → d.getD i 0 = h.rd8 m (src + i)) ∧
      h.flashDone m = h.flashEnded a d h.free := by
  refine ⟨(List.range 0x100).map fun i => if src + i < 0x200000 then h.rd8 m (src + i) else 0, ?_, fun i hi hs => ?_, ?_⟩
  · rw [List.length_map, List.length_range]
  · simp [hi, hs]
  · simp only [Hw.flashDone, hop]
    rfl

theorem Hw.flashDone_erase {h : Hw} {a src : Nat} (hop : h.sys.flashOp = some (1, a, src)) (m : Mem) :
    ∃ d f, h.flashDone m = h.flashEnded a d f := by
  simp only [Hw.flashDone, hop]
  exact ⟨_, _, rfl⟩

@[simp] theorem Hw.wrN_sys (h : Hw) (a : Nat) (d : List Byte) : (h.wrN a d).sys = h.sys := by
  induction d generalizing h a with
  | nil => rfl
  | cons x d ih => exact ih _ _

theorem Hw.flashEnded_shows (h : Hw) (a : Nat) (d : List Byte) (f : Nat) :
    (h.flashEnded a d f).bit (sy 0x060) 31 = false ∧ (h.flashEnded a d f).sys.flashOp = none :=
  ⟨Hw.bit_setBit_same _ _ (by decide) false, congrArg (·.flashOp) (Hw.wrN_sys _ _ _)⟩

/-- A byte of flash after the end of a flash command. -/
theorem Hw.flashEnded_byte {h : Hw} (m : Mem) (hr : h.rst = 0) (a : Nat) (d : List Byte) (f i : Nat) (hi : i < d.length) :
    memGet (m.after (h.flashEnded a d f)) (0x60000000 + a + i) = d.getD i 0 := by
  have hrst : (h.flashEnded a d f).rst = 0 := (Hw.wrN_rst _ _ _).trans hr
  rw [memGet_after hrst]
  refine (Hw.rd8_wrN _ m (0x60000000 + a) d _).trans ?_
  rw [if_pos (by omega), Nat.add_sub_cancel_left]

end Sys2Proof.Machine

namespace Sys2Proof
open Machine

/-- A flash command that is accepted: BUSY is set and its operands stand. -/
theorem flash_accepted {s : State} {g cmd : Nat} {o : Instr} (hl : Live s) (hu : Unlocked s pSYS)
    (ho : exec o s = run g (fun _ h => h.swWrite pSYS 0x060 fun h => h.flashCmd cmd) s) (hb : ¬ s.hw.FlashBad cmd) :
    Gives o s fun t => t.hw.bit (sy 0x060) 31 = true
      ∧ t.hw.sys.flashOp = some (cmd, s.hw.f (sy 0x058) 24 0, s.hw.f (sy 0x05C) 20 0) := by
  rw [Gives, ho]
  refine gives_write (f := fun _ h => h.flashCmd cmd) hl (by decide) hu fun k hk => ?_
  rw [Hw.flashCmd_accepted (mt (hk.flashBad cmd).mp hb)]
  have ha : k.atWrite.f (sy 0x058) 24 0 = s.hw.f (sy 0x058) 24 0 := hk.f (not_inLog_page (by decide) (by decide)) _ _
  have hsrc : k.atWrite.f (sy 0x05C) 20 0 = s.hw.f (sy 0x05C) 20 0 := hk.f (not_inLog_page (by decide) (by decide)) _ _
  rw [ha, hsrc]
  exact ⟨Hw.bit_setBit_same _ _ (by decide) true, rfl⟩

/-- A flash command that is refused: the event is set, BUSY and the command in progress stay. -/
theorem flash_refused {s : State} {g cmd : Nat} {o : Instr} (hl : Live s) (hu : Unlocked s pSYS)
    (ho : exec o s = run g (fun _ h => h.swWrite pSYS 0x060 fun h => h.flashCmd cmd) s) (hb : s.hw.FlashBad cmd) :
    Gives o s fun t => t.hw.bit (sy rEVT) 7 = true ∧ t.hw.bit (sy 0x060) 31 = s.hw.bit (sy 0x060) 31
      ∧ t.hw.sys.flashOp = s.hw.sys.flashOp := by
  rw [Gives, ho]
  refine gives_write (f := fun _ h => h.flashCmd cmd) hl (by decide) hu fun k hk => ?_
  rw [Hw.flashCmd_refused ((hk.flashBad cmd).mpr hb)]
  refine ⟨Hw.bit_evt _ pSYS (by decide), ?_, ?_⟩
  · have hreg : (k.atWrite.evt pSYS 7).reg (sy 0x060) = s.hw.reg (sy 0x060) :=
      (Hw.reg_evt_ne _ (by decide) (by decide) 7).trans (hk.reg (not_inLog_page (by decide) (by decide)))
    exact congrArg (bitOf · 31) hreg
  · rw [Hw.seal_sys, Hw.evt_sys]
    exact congrArg (·.flashOp) hk.sys

/-- Settles O21: the writes act after their record in the log, the end of a command on memory as it stands. -/
theorem securityVersionAndFlash : Obligations.SecurityVersionAndFlash := by
  have good : ∀ {h : Hw} {cmd : Nat}, h.bit (sy 0x060) 31 = false → h.f (sy 0x058) 24 0 % flashAlign cmd = 0 →
      (h.bit (sy 0x044) 1 = true ∨ h.f (sy 0x058) 24 0 / 0x1000000 ≠ h.f (sy 0x044) 0 0) → ¬ h.FlashBad cmd := by
    rintro h cmd hbusy hal hslot (hb | hb | ⟨hb, hs⟩)
    · exact absurd (hbusy.symm.trans hb) (by decide)
    · exact hb hal
    · exact hslot.elim (fun h1 => absurd (hb.symm.trans h1) (by decide)) fun h1 => h1 hs
  refine fun s g hl => ⟨fun v hu hb => ?_, fun hu hbusy hal hslot => flash_accepted hl hu rfl (good hbusy hal hslot),
    fun hu hbusy hal hslot => flash_accepted hl hu rfl (good hbusy hal hslot), fun hu hb => flash_refused hl hu rfl hb,
    fun hu hb => flash_refused hl hu rfl hb, fun a src i hop hbuf hrst => ?_, fun a src hop hbuf hrst => ?_⟩
  · refine gives_write (f := fun _ h => h.secAdvance v) hl (by decide) hu fun k hk => ?_
    have hnv : k.atWrite.nv = s.hw.nv := hk.nv
    have hready : k.atWrite.bit (sy rREADY) 2 = true := (hk.bit (not_inLog_page (by decide) (by decide)) _).trans hb
    have hver : k.atWrite.f (sy 0x044) 13 8 = s.hw.f (sy 0x044) 13 8 := hk.f (not_inLog_page (by decide) (by decide)) _ _
    rw [Hw.seal_nv, Hw.secAdvance_secMin _ v hready, hnv, hver]
  · obtain ⟨d, hlen, hget, he⟩ := Hw.flashDone_program (h := s.hw.at g) hop s.mem
    obtain ⟨hbit, hdone⟩ := (s.hw.at g).flashEnded_shows a d s.hw.free
    refine gives_run_eq (f := fun m h => h.flashDone m) hl he ⟨hbit, hdone, fun hi hs => ?_⟩
    calc memGet (s.mem.after ((s.hw.at g).flashEnded a d s.hw.free)) (0x60000000 + a + i)
        = d.getD i 0 := Hw.flashEnded_byte (h := s.hw.at g) s.mem hrst a d _ i (hlen ▸ hi)
      _ = (s.hw.at g).rd8 s.mem (src + i) := hget i hi hs
      _ = memGet s.mem (src + i) := by simp [Hw.rd8, hbuf]
  · obtain ⟨d, f, he⟩ := Hw.flashDone_erase (h := s.hw.at g) hop s.mem
    exact gives_run_eq (f := fun m h => h.flashDone m) hl he ((s.hw.at g).flashEnded_shows a d f)

end Sys2Proof

namespace Sys2Proof.Machine

/-! ### LOCK (R62) -/

/-- The PCLK cycle of a register write is that of its command. -/
theorem Hw.atWrite_cycle (h : Hw) : h.atWrite.cycle = h.cycle := by
  simp only [Hw.cycle, Hw.atWrite, Hw.wgrain]
  omega

/-- The module with what it remembers of the writes of page p's LOCK. -/
def Hw.noteLock (h : Hw) (p : Nat) (x : Option LockSeq) : Hw := { h with lockSeq := tabSet none p x h.lockSeq }

theorem Hw.noteLock_same (h : Hw) (p : Nat) (x : Option LockSeq) : tabGet none p (h.noteLock p x).lockSeq = x :=
  tabGet_tabSet_same _ _ _ _

/-- Requester r has written the first word, at most 256 cycles ago. -/
def Hw.lockHalf (h : Hw) (r p : Nat) : Bool :=
  match tabGet none p h.lockSeq with
  | some q => q.req == r && decide (h.cycle ≤ q.cycle + 256)
  | none => false

theorem Hw.lockWrite_eq (h : Hw) (r : Nat) {p : Nat} (v : Word) (hp : (pageBlock p).1 ≠ .none) : h.lockWrite r p v =
    if h.lockHalf r p && v == 0xA5A5 then (h.noteLock p none).setBit (ra p rLOCK) 0 (!h.bit (ra p rLOCK) 0)
    else if v = 0x5A5A then h.noteLock p (some ⟨r, h.cycle⟩) else h.noteLock p none := by
  unfold Hw.lockWrite
  split
  · next hn => exact absurd hn hp
  · rfl

/-- A write of LOCK that is not the second word of a sequence leaves LOCK. -/
theorem Hw.lockWrite_leaves {h : Hw} {r p : Nat} {v : Word} (hp : (pageBlock p).1 ≠ .none)
    (hv : v ≠ 0xA5A5 ∨ h.lockHalf r p = false) :
    h.lockWrite r p v = h.noteLock p (if v = 0x5A5A then some ⟨r, h.cycle⟩ else none) := by
  have hc : (h.lockHalf r p && v == 0xA5A5) = false := by
    rcases hv with hv | hv
    · rw [beq_false_of_ne hv, Bool.and_false]
    · rw [hv, Bool.false_and]
  rw [h.lockWrite_eq r v hp, hc, if_neg (by decide)]
  split <;> rfl

theorem Hw.lockWrite_toggles {h : Hw} {r p : Nat} (hp : (pageBlock p).1 ≠ .none) (hh : h.lockHalf r p = true) :
    h.lockWrite r p 0xA5A5 = (h.noteLock p none).setBit (ra p rLOCK) 0 (!h.bit (ra p rLOCK) 0) := by
  rw [h.lockWrite_eq r _ hp, hh]
  rfl

/-- The record of a write leaves LOCK and what is remembered of it. -/
theorem Logged.lockHalf {h k : Hw} (hk : Logged h k) (r p : Nat) : k.atWrite.lockHalf r p = h.lockHalf r p := by
  have hc : k.atWrite.cycle = h.cycle := k.atWrite_cycle.trans (by rw [Hw.cycle, hk.grain]; rfl)
  have hs : k.atWrite.lockSeq = h.lockSeq := hk.lockSeq
  simp only [Hw.lockHalf, hc, hs]

theorem not_inLog_lock (p : Nat) : ¬ inLog (ra p rLOCK) :=
  not_inLog_off (by decide) (by decide) (by decide) (by decide)

/-! ### A write to a locked page -/

/-- The registers a write to a locked page moves: those of the log, and the count and event of SYS. -/
def inLocked (a : Nat) : Prop := a = sy 0x054 ∨ a = sy rEVT ∨ a = sy rEVT_TS

theorem Hw.reg_lockedWrite (h : Hw) {a : Nat} (ha : ¬ inLocked a) : h.lockedWrite.reg a = h.reg a := by
  simp only [inLocked, not_or] at ha
  obtain ⟨hc, he, ht⟩ := ha
  exact (Hw.reg_evt_ne _ he ht 3).trans (h.reg_bump_ne hc 15 0)

theorem Hw.lockedWrite_shows (h : Hw) : h.lockedWrite.f (sy 0x054) 15 0 = min (h.f (sy 0x054) 15 0 + 1) 0xFFFF ∧
    h.lockedWrite.bit (sy rEVT) 3 = true := by
  refine ⟨?_, Hw.bit_evt _ pSYS (by decide)⟩
  have hreg : h.lockedWrite.reg (sy 0x054) = (h.bump (sy 0x054) 15 0).reg (sy 0x054) :=
    Hw.reg_evt_ne _ (by decide) (by decide) 3
  rw [Hw.f, hreg]
  exact h.f_bump_same _ (by decide) (by decide)

/-- A software write to a locked page is counted after its record in the log. -/
theorem Hw.swWrite_locked (h : Hw) {p : Nat} (off : Nat) (f : Hw → Hw) (hl : h.bit (ra p rLOCK) 0 = true) :
    ∃ k, Logged h k ∧ h.swWrite p off f = k.atWrite.lockedWrite := by
  have hk := h.log_logged p 10 (Config.writeCode p off).toNat (pageInst p) h.wgrain 0
  refine ⟨_, hk, ?_⟩
  simp only [Hw.swWrite, hk.bit (not_inLog_lock p), hl]
  rfl

/-- A register write, but of LOCK and EVT, is a software write that a lock stops. -/
theorem Hw.regWrite_locked (h : Hw) (m : Mem) (r : Nat) {p off : Nat} (v : Word) (ho : off ≠ rLOCK) (he : off ≠ rEVT)
    (hl : h.bit (ra p rLOCK) 0 = true) : ∃ k, Logged h k ∧ h.regWrite m r p off v = k.atWrite.lockedWrite := by
  unfold Hw.regWrite
  rw [if_neg ho, if_neg he]
  split
  · exact h.swWrite_locked off _ hl
  · exact h.swWrite_locked off _ hl

end Sys2Proof.Machine

namespace Sys2Proof
open Machine

/-- A write of LOCK, which acts after its record in the log whether or not the page is locked. -/
theorem gives_lockWrite {s : State} {g r : Nat} {page : Fin 512} {v : Word} {P : State → Prop} (hl : Live s)
    (hP : ∀ k, Logged (s.hw.at g) k → P { s with hw := (k.atWrite.lockWrite r page v).seal (max s.hw.grain g),
                                                 mem := s.mem.after (k.atWrite.lockWrite r page v) }) :
    Gives (.lockWrite g r page v) s P :=
  gives_run (f := fun _ h => h.swOpen page rLOCK fun h => h.lockWrite r page v) hl (hP _ (Hw.log_logged ..))

/-- Settles O14: what LOCK remembers decides a write of it, and a locked page stops every other write before its effect. -/
theorem lockAndLockedWrites : Obligations.LockAndLockedWrites := by
  intro s g r page v hl hp
  have half : ∀ {k}, Logged (s.hw.at g) k → k.atWrite.lockHalf r page = (s.hw.at g).lockHalf r page := fun hk =>
    hk.lockHalf r page
  have lock : ∀ {k}, Logged (s.hw.at g) k → k.atWrite.bit (ra page rLOCK) 0 = s.hw.bit (ra page rLOCK) 0 :=
    fun hk => hk.bit (not_inLog_lock page) 0
  refine ⟨gives_lockWrite hl fun k hk => ?_, fun c hseq hc => gives_lockWrite hl fun k hk => ?_,
    fun hv hr => gives_lockWrite hl fun k hk => ?_, fun off b ha hlock h4 ho hevt hlk hb => ?_⟩
  · rw [Hw.lockWrite_leaves hp (.inl (by decide))]
    have hcyc : k.atWrite.cycle = max s.hw.grain g / 5 := k.atWrite_cycle.trans (by rw [Hw.cycle, hk.grain]; rfl)
    refine ⟨?_, lock (k := k) hk⟩
    rw [Hw.seal_lockSeq, Hw.noteLock_same, if_pos rfl, hcyc]
  · have hhalf : (s.hw.at g).lockHalf r page = true := by
      simp only [Hw.lockHalf, Hw.at_lockSeq, hseq, beq_self_eq_true, Bool.true_and, decide_eq_true_eq]
      exact hc
    rw [Hw.lockWrite_toggles hp ((half hk).trans hhalf), ← lock hk]
    exact ⟨Hw.bit_setBit_same _ _ (by decide) _, k.atWrite.noteLock_same page none⟩
  · have hno : v ≠ 0xA5A5 ∨ (s.hw.at g).lockHalf r page = false := by
      refine hr.imp id fun hr => ?_
      simp only [Hw.lockHalf, Hw.at_lockSeq]
      rcases hseq : tabGet none page.val s.hw.lockSeq with _ | q
      · rfl
      · rw [hseq] at hr
        have hgap : q.req ≠ r ∨ q.cycle + 256 < max s.hw.grain g / 5 := by simpa using hr
        have hcyc : (s.hw.at g).cycle = max s.hw.grain g / 5 := rfl
        simp only [hcyc, Bool.and_eq_false_iff, beq_eq_false_iff_ne, decide_eq_false_iff_not]
        exact hgap.imp id (by omega)
    rw [Hw.lockWrite_leaves hp (hno.imp id (half hk).trans), if_neg hv]
    exact ⟨lock (k := k) hk, k.atWrite.noteLock_same page none⟩
  · obtain ⟨k, hk, e⟩ := (s.hw.at g).regWrite_locked s.mem r v hlk hevt hlock
    refine gives_registerWrite hl ha ?_
    simp only [afterRun, Hw.busWrite_register _ _ r v page.isLt ho h4, e]
    simp only [List.mem_cons, List.not_mem_nil, or_false, not_or] at hb
    obtain ⟨h1, h2, h3, h4, h5, h6⟩ := hb
    obtain ⟨hcnt, hev⟩ := k.atWrite.lockedWrite_shows
    refine ⟨?_, hcnt.trans ?_, hev⟩
    · have hlocked : ¬ inLocked (ra page b) := by simp [inLocked, h1, h2, h3]
      have hlog : ¬ inLog (ra page b) := by
        rintro (e | e | e)
        · exact h4 e
        · exact h5 e
        · exact h6 e
      exact (Hw.reg_lockedWrite _ hlocked).trans (hk.reg hlog)
    · have hf : k.atWrite.f (sy 0x054) 15 0 = s.hw.f (sy 0x054) 15 0 := hk.f (not_inLog_page (by decide) (by decide)) _ _
      rw [hf]

end Sys2Proof

namespace Sys2Proof.Machine

/-! ### What legs and axes leave of the SAF page as they stop -/

/-- The supervisor's state, the grain, and a register. -/
def Hw.calm (h : Hw) (b : Nat) : (Sys × Nat) × Word := ((h.sys, h.grain), h.reg b)

theorem Hw.sys_of_calm {h k : Hw} {b : Nat} (e : k.calm b = h.calm b) : k.sys = h.sys := congrArg (·.1.1) e
theorem Hw.grain_of_calm {h k : Hw} {b : Nat} (e : k.calm b = h.calm b) : k.grain = h.grain := congrArg (·.1.2) e
theorem Hw.reg_of_calm {h k : Hw} {b : Nat} (e : k.calm b = h.calm b) : k.reg b = h.reg b := congrArg (·.2) e

section
variable {b : Nat}

theorem Hw.each_calm {α : Type} {f : Hw → α → Hw} {l : List α} (hf : ∀ x ∈ l, ∀ h, (f h x).calm b = h.calm b) (h : Hw) :
    (h.each l f).calm b = h.calm b := by
  unfold Hw.each
  induction l generalizing h with
  | nil => rfl
  | cons x l ih =>
    rw [List.foldl_cons, ih fun y hy => hf y (List.mem_cons_of_mem _ hy), hf x List.mem_cons_self]

@[simp] theorem Hw.ite_calm {c : Prop} [Decidable c] (h k : Hw) :
    (if c then h else k).calm b = if c then h.calm b else k.calm b := apply_ite (·.calm b) c h k

@[simp] theorem Hw.when_calm {f : Hw → Hw} (hf : ∀ h, (f h).calm b = h.calm b) (c : Bool) (h : Hw) :
    (h.when c f).calm b = h.calm b := by
  unfold Hw.when
  split
  · exact hf h
  · rfl

@[simp] theorem Hw.setProf_calm (h : Hw) (p : Nat) (x : PrfS) : (h.setProf p x).calm b = h.calm b := rfl
@[simp] theorem Hw.setGear_calm (h : Hw) (u : Nat) (x : GearS) : (h.setGear u x).calm b = h.calm b := rfl
@[simp] theorem Hw.setAxis_calm (h : Hw) (a : Nat) (x : AxS) : (h.setAxis a x).calm b = h.calm b := rfl
@[simp] theorem Hw.setLeg_calm (h : Hw) (n : Nat) (x : LegS) : (h.setLeg n x).calm b = h.calm b := rfl
@[simp] theorem Hw.setFbs_calm (h : Hw) (x : Tab FbS) : ({ h with fbs := x } : Hw).calm b = h.calm b := rfl
@[simp] theorem Hw.wallAt_calm (h : Hw) (a : Nat) (p : Word64) : (h.wallAt a p).calm b = h.calm b := rfl
@[simp] theorem Hw.legSafe_calm (h : Hw) (n : Nat) : (h.legSafe n).calm b = h.calm b := rfl
@[simp] theorem Hw.axHigh_calm (h : Hw) (a : Nat) : (h.axHigh a).calm b = h.calm b := rfl

theorem Hw.setReg_calm (h : Hw) {a : Nat} (ha : b ≠ a) (v : Word) : (h.setReg a v).calm b = h.calm b := by
  simp only [Hw.calm, h.reg_setReg_ne ha]
  rfl

theorem Hw.setF_calm (h : Hw) {a : Nat} (ha : b ≠ a) (hi lo v : Nat) : (h.setF a hi lo v).calm b = h.calm b :=
  h.setReg_calm ha _

theorem Hw.setBit_calm (h : Hw) {a : Nat} (ha : b ≠ a) (i : Nat) (v : Bool) : (h.setBit a i v).calm b = h.calm b :=
  h.setReg_calm ha _

theorem Hw.evt_calm (h : Hw) {p : Nat} (h1 : b ≠ ra p rEVT) (h2 : b ≠ ra p rEVT_TS) (i : Nat) :
    (h.evt p i).calm b = h.calm b := by
  simp only [Hw.calm, h.reg_evt_ne h1 h2, Hw.evt_sys, Hw.evt_grain]

theorem Logged.calm {h k : Hw} (hk : Logged h k) (hb : ¬ inLog b) : k.calm b = h.calm b := by
  simp only [Hw.calm, hk.reg hb, hk.sys, hk.grain]

@[simp] theorem Hw.leaveGroup_calm (h : Hw) (f : Nat) : (h.leaveGroup f).calm b = h.calm b := by
  simp [Hw.leaveGroup]

@[simp] theorem Hw.setNxt_calm (h : Hw) (p : Nat) (r : PRec) : (h.setNxt p r).calm b = h.calm b :=
  (Hw.each_calm (fun u _ h => h.setGear_calm u _) _).trans (h.setProf_calm p _)

@[simp] theorem Hw.axPut_calm (h : Hw) (a : Nat) (r : PRec) : (h.axPut a r).calm b = h.calm b := by
  simp [Hw.axPut]

@[simp] theorem Hw.ownRec_calm (h : Hw) (p : Nat) (r : PRec) : (h.ownRec p r).calm b = h.calm b := by
  unfold Hw.ownRec
  split <;> simp

@[simp] theorem Hw.followAgain_calm (h : Hw) (p : Nat) : (h.followAgain p).calm b = h.calm b :=
  Hw.each_calm (fun _ _ _ => Hw.ownRec_calm _ _ _) _

/-! The registers of the motion units lie before the page STP or behind the page PAIR. -/

variable (hlo : 0xB000 ≤ b) (hhi : b < 0x20000)
include hlo

theorem Hw.masterFlush_calm (h : Hw) {m : Nat} (hm : m < 0x80) : (h.masterFlush m).calm b = h.calm b := by
  have hs : b ≠ mStat m := by unfold mStat ra pLSH; omega
  have hw : b ≠ mWend m ∧ b ≠ mWend m + 4 := by unfold mWend ra pLSH; omega
  simp only [Hw.masterFlush, Hw.setReg64, Hw.setReg_calm _ hw.1, Hw.setReg_calm _ hw.2, Hw.setF_calm _ hs,
    Hw.setBit_calm _ hs]
  rfl

theorem Hw.flushQueue_calm (h : Hw) {p : Nat} (hp : p < 0x100) : (h.flushQueue p).calm b = h.calm b := by
  have hc : b ≠ prCred p := by unfold prCred ra pPRF; omega
  simp only [Hw.flushQueue, Hw.setProf_calm, Hw.setF_calm _ hc, Hw.leaveGroup_calm]

theorem Hw.setPfState_calm (h : Hw) {p : Nat} (hp : p < 0x100) (st : Nat) : (h.setPfState p st).calm b = h.calm b := by
  have hs : b ≠ prStat p := by unfold prStat ra pPRF; omega
  have hw : b ≠ mWend (p - 128) ∧ b ≠ mWend (p - 128) + 4 := by unfold mWend ra pLSH; omega
  have hz : ∀ h : Hw, (h.setReg64 (mWend (p - 128)) 0).calm b = h.calm b := fun h =>
    (Hw.setReg_calm _ hw.2 _).trans (h.setReg_calm hw.1 _)
  simp only [Hw.setPfState, Hw.when_calm hz, Hw.setF_calm _ hs]

theorem Hw.flushOne_calm (h : Hw) {p : Nat} (hp : p < 0x100) : (h.flushOne p).calm b = h.calm b := by
  simp only [Hw.flushOne, Hw.ite_calm, Hw.masterFlush_calm hlo _ (show p - 128 < 0x80 by omega),
    Hw.setPfState_calm hlo _ hp, Hw.flushQueue_calm hlo _ hp, ite_self]

theorem Hw.groupEnd_calm (h : Hw) (p : Nat) : (h.groupEnd p).calm b = h.calm b := by
  refine Hw.each_calm (fun f hf h => ?_) h
  have hlt : f < 0x100 := by
    have := List.mem_range.mp (List.mem_filter.mp hf).1
    omega
  have hs : b ≠ prStat f := by unfold prStat ra pPRF; omega
  have hw : ∀ h : Hw, (h.w1cSet (prStat f) 3).calm b = h.calm b := fun h => h.setBit_calm hs 3 true
  rw [Hw.evt_calm _ (by unfold ra pPRF rEVT; omega) (by unfold ra pPRF rEVT_TS; omega), hw, Hw.flushOne_calm hlo _ hlt,
    Hw.setProf_calm]

theorem Hw.axisFlush_calm (h : Hw) {p : Nat} (hp : p < 0x100) : (h.axisFlush p).calm b = h.calm b := by
  simp only [Hw.axisFlush, Hw.ite_calm, Hw.flushOne_calm hlo _ hp, Hw.setProf_calm, Hw.groupEnd_calm hlo, ite_self]

theorem Hw.axTakeOver_calm (h : Hw) (a : Nat) : (h.axTakeOver a).calm b = h.calm b := by
  have hp : h.axProf a < 0x100 := fld_lt (h.reg (axr a 0x040)) 15 8
  exact (Hw.setAxis_calm _ _ _).trans (Hw.axisFlush_calm hlo h hp)

theorem Hw.axPick_calm (h : Hw) (a T X : Nat) : (h.axPick a T X).calm b = h.calm b := by
  unfold Hw.axPick
  dsimp only
  split
  · simp
  · split <;> simp [Hw.axTakeOver_calm hlo]

theorem Hw.axShape_calm (h : Hw) (a : Nat) : (h.axShape a).calm b = h.calm b := by
  unfold Hw.axShape
  dsimp only
  split
  · rw [Hw.followAgain_calm, Hw.each_calm (fun _ _ _ => by simp), Hw.axPick_calm hlo]
  · rfl

include hhi

theorem Hw.homeEnd_calm (h : Hw) (a : Nat) : (h.homeEnd a).calm b = h.calm b := by
  have hn : ∀ n off, b ≠ ra (pFB n) off := fun n off => by unfold ra pFB; omega
  unfold Hw.homeEnd
  split
  · rfl
  · dsimp only
    rw [Hw.setAxis_calm]
    split
    · rw [Hw.setBit_calm _ (hn _ _), Hw.setFbs_calm, Hw.setF_calm _ (hn _ _), Hw.setF_calm _ (hn _ _)]
    · rfl

theorem ne_axr (a off : Nat) : b ≠ axr a off := by unfold axr ra pAX; omega
theorem ne_lg (n off : Nat) : b ≠ lg n off := by unfold lg ra pLEG; omega

theorem Hw.homeDrop_calm (h : Hw) (a : Nat) : (h.homeDrop a).calm b = h.calm b := by
  unfold Hw.homeDrop
  dsimp only
  rw [Hw.setAxis_calm, Hw.homeEnd_calm hlo hhi]
  split
  · split <;> simp [Hw.setReg_calm _ (ne_axr hlo hhi a _)]
  · rfl

theorem Hw.forceBegin_calm (h : Hw) (n : Nat) : (h.forceBegin n).calm b = h.calm b :=
  Hw.evt_calm _ (ne_lg hlo hhi n _) (ne_lg hlo hhi n _) 6

theorem Hw.legOff_calm (h : Hw) (n : Nat) : (h.legOff n).calm b = h.calm b :=
  h.setBit_calm (ne_lg hlo hhi n _) 0 false

theorem Hw.axisLegsOff_calm (h : Hw) (a : Nat) : (h.axisLegsOff a).calm b = h.calm b :=
  Hw.each_calm (fun n _ h => h.legOff_calm hlo hhi n) _

theorem Hw.axOff_calm (h : Hw) (a : Nat) : (h.axOff a).calm b = h.calm b := by
  simp only [Hw.axOff, Hw.setAxState, Hw.axShape_calm hlo, Hw.setF_calm _ (ne_axr hlo hhi a _),
    Hw.setBit_calm _ (ne_axr hlo hhi a _),
    Hw.setAxis_calm, Hw.wallAt_calm, Hw.homeDrop_calm hlo hhi, Hw.axisLegsOff_calm hlo hhi]

theorem Hw.axOffNow_calm (h : Hw) (a : Nat) : (h.axOffNow a).calm b = h.calm b :=
  (Hw.axHigh_calm _ a).trans ((Hw.setAxis_calm _ a _).trans (h.axOff_calm hlo hhi a))

theorem Hw.axModeOff_calm (h : Hw) (a : Nat) : (h.axModeOff a).calm b = h.calm b := by
  have hoff : (if h.axLive a then h.axOffNow a else h).calm b = h.calm b := by
    rw [Hw.ite_calm, Hw.axOffNow_calm hlo hhi, ite_self]
  unfold Hw.axModeOff
  generalize (if h.axLive a then h.axOffNow a else h) = k at hoff
  dsimp only
  split
  · exact (k.evt_calm (ne_axr hlo hhi a _) (ne_axr hlo hhi a _) 9).trans hoff
  · exact hoff

theorem Hw.axSafeOff_calm (h : Hw) (a : Nat) : (h.axSafeOff a).calm b = h.calm b := by
  have hoff : ((h.axOff a).axHigh a).calm b = h.calm b := (Hw.axHigh_calm _ a).trans (h.axOff_calm hlo hhi a)
  unfold Hw.axSafeOff
  generalize (h.axOff a).axHigh a = k at hoff
  refine (Hw.evt_calm _ (ne_axr hlo hhi a _) (ne_axr hlo hhi a _) 10).trans ?_
  rw [Hw.ite_calm, Hw.setAxis_calm, ite_self, hoff]

theorem Hw.safForces_calm (h : Hw) : h.safForces.calm b = h.calm b := by
  refine Hw.each_calm (fun n _ h => ?_) h
  dsimp only
  split
  · rfl
  · split
    · split
      · rw [Hw.axSafeOff_calm hlo hhi, Hw.forceBegin_calm hlo hhi, Hw.setLeg_calm]
      · rw [Hw.forceBegin_calm hlo hhi, Hw.setLeg_calm]
    · rw [Hw.setLeg_calm]

/-- A change of mode leaves the pages between STP and PAIR, but for what SO_STAT and the end of ownership show. -/
theorem Hw.modeCore_reg (hso : b ≠ ra pSAF 0x094) (hpr : b ≠ ra pPAIR rSTAT) (h : Hw) (m old : BitVec 3) (o : Nat) :
    (h.modeCore m old o).reg b = h.reg b := by
  have hsy : ∀ off < 0x1000, b ≠ sy off := fun off ho => by unfold sy ra pSYS; omega
  have h1 : (((h.setF (sy 0x040) 2 0 m.toNat).setF (sy 0x040) 10 8 old.toNat).evt pSYS 0).reg b = h.reg b := by
    rw [Hw.reg_evt_ne _ (hsy rEVT (by decide)) (hsy rEVT_TS (by decide)), Hw.reg_setF_ne _ (hsy 0x040 (by decide)),
      Hw.reg_setF_ne _ (hsy 0x040 (by decide))]
  have forces : ∀ (k : Hw) c, (k.when c fun h => h.each (List.range 96) Hw.forceBegin).reg b = k.reg b := fun k c =>
    Hw.reg_of_calm (Hw.when_calm (fun _ => Hw.each_calm (fun n _ h => h.forceBegin_calm hlo hhi n) _) c k)
  have shut : ∀ k : Hw, (k.modeShut m).reg b = k.reg b := fun k => by
    have hoff : (k.each (List.range 32) Hw.axModeOff).reg b = k.reg b :=
      Hw.reg_of_calm (Hw.each_calm (fun a _ h => h.axModeOff_calm hlo hhi a) _)
    have hopen : ∀ c (k : Hw), (k.when c Hw.ownRelease).soOpen.reg b = k.reg b := fun c k => by
      refine (Hw.reg_setF_ne _ hso 3 0 0).trans ?_
      unfold Hw.when
      split
      · exact Hw.ownRelease_reg k hpr
      · rfl
    unfold Hw.modeShut
    dsimp only
    split
    · exact (hopen _ _).trans hoff
    · exact (hopen _ _).trans hoff
  unfold Hw.modeCore
  dsimp only
  split
  · exact (shut _).trans ((forces _ _).trans h1)
  · exact (forces _ _).trans h1

end

/-! ### A safety fault (R360) -/

/-- CODE and CHAN of a safety fault: the first that is pending, and the channels that share its code. -/
def Hw.safCode (h : Hw) (first : Bool) (code chan : Nat) : Hw :=
  if first then (h.setF (sf 0x048) 7 0 code).setF (sf 0x048) 9 8 chan
  else if h.f (sf 0x048) 7 0 = code ∧ code ≠ 1 ∧ code ≠ 5 ∧ code ≠ 6 then
    h.setF (sf 0x048) 9 8 (h.f (sf 0x048) 9 8 ||| chan)
  else h

/-- What the island remembers of its faults. -/
def Hw.safPend (h : Hw) (code : Nat) : Hw :=
  { h with saf := { h.saf with faults := h.saf.faults ||| BitVec.ofNat 8 (2 ^ code), lastFault := some h.grain,
                               rearm := false } }

/-- The module as a safety fault has noted itself, before the force lines and the mode follow. -/
def Hw.safNoted (h : Hw) (code chan : Nat) : Hw :=
  (((((h.evt pSAF 1).log pSAF 2 code 0 h.grain).safCode (h.saf.faults == 0) code chan).safPend code).setBit (sf rSTAT) 0
    true).setBit (sf rREADY) 0 false

theorem Hw.safFault_eq (h : Hw) (code chan : Nat) :
    h.safFault code chan = ((h.safNoted code chan).soOpen.safForces).toSafehalt false := rfl

theorem Hw.safCode_calm {b : Nat} (hb : b ≠ sf 0x048) (h : Hw) (first : Bool) (code chan : Nat) :
    (h.safCode first code chan).calm b = h.calm b := by
  simp only [Hw.safCode, Hw.ite_calm, Hw.setF_calm _ hb, ite_self]

/-- A safety fault sets its event and STAT bit 0, and clears READY. -/
theorem Hw.safNoted_shows (h : Hw) (code chan : Nat) : (h.safNoted code chan).bit (sf rEVT) 1 = true ∧
    (h.safNoted code chan).bit (sf rSTAT) 0 = true ∧ (h.safNoted code chan).bit (sf rREADY) 0 = false := by
  refine ⟨?_, ?_, Hw.bit_setBit_same _ _ (by decide) false⟩
  · have hk := (h.evt pSAF 1).log_logged pSAF 2 code 0 h.grain 0
    have hreg : (h.safNoted code chan).reg (sf rEVT) = (h.evt pSAF 1).reg (sf rEVT) := by
      refine (Hw.reg_setBit_ne _ (by decide) _ _).trans ((Hw.reg_setBit_ne _ (by decide) _ _).trans ?_)
      exact (Hw.reg_of_calm (Hw.safCode_calm (by decide) _ _ code chan)).trans
        (hk.reg (not_inLog_page (by decide) (by decide)))
    rw [Hw.bit, hreg]
    exact h.bit_evt pSAF (by decide)
  · rw [Hw.safNoted, Hw.bit_setBit_ne _ (by decide)]
    exact Hw.bit_setBit_same _ _ (by decide) true

/-- It leaves the mode, what the supervisor holds, and the grain. -/
theorem Hw.safNoted_calm (h : Hw) (code chan : Nat) : (h.safNoted code chan).calm (sy 0x040) = h.calm (sy 0x040) := by
  have hk := (h.evt pSAF 1).log_logged pSAF 2 code 0 h.grain 0
  calc (h.safNoted code chan).calm (sy 0x040)
      = ((h.evt pSAF 1).log pSAF 2 code 0 h.grain).calm (sy 0x040) :=
        (Hw.setBit_calm _ (by decide) _ _).trans ((Hw.setBit_calm _ (by decide) _ _).trans
          (Hw.safCode_calm (by decide) _ _ code chan))
    _ = h.calm (sy 0x040) :=
        (hk.calm (not_inLog_page (by decide) (by decide))).trans (h.evt_calm (by decide) (by decide) 1)

theorem Hw.axSafeOff_away {b : Nat} (hb : b < 0x9000) (h : Hw) (a : Nat) : (h.axSafeOff a).away b = h.away b := by
  have hoff : ((h.axOff a).axHigh a).away b = h.away b := (Hw.axHigh_away _ a).trans (Hw.axOff_away hb h a)
  unfold Hw.axSafeOff
  generalize (h.axOff a).axHigh a = k at hoff
  refine (Hw.evt_away hb _ (motion_pAX a) 10).trans ?_
  rw [Hw.ite_away, Hw.setAxis_away, ite_self, hoff]

theorem Hw.safForces_away {b : Nat} (hb : b < 0x9000) (h : Hw) : h.safForces.away b = h.away b := by
  refine Hw.each_away (fun h n => ?_) _ _
  dsimp only
  split
  · rfl
  · split
    · split
      · rw [Hw.axSafeOff_away hb, Hw.forceBegin_away hb, Hw.setLeg_away]
      · rw [Hw.forceBegin_away hb, Hw.setLeg_away]
    · rw [Hw.setLeg_away]

/-- A cause of SAFEHALT from CONFIG to SHADOW, the first of its grain. -/
theorem Hw.toSafehalt_of_running {h : Hw} (h1 : 1 ≤ h.mode.toNat) (h4 : h.mode.toNat ≤ 4) (hg : h.sys.modeGrain < h.grain)
    (boot : Bool) : h.toSafehalt boot = h.modeCore mSAFEHALT h.mode oSAFEHALT := by
  unfold Hw.toSafehalt
  dsimp only
  rw [if_pos (.inl ⟨h1, h4⟩), setMode_fresh _ _ _ (by omega)]

/-- A safety fault in CONFIG, STANDBY, RUN or SHADOW enters SAFEHALT. -/
theorem Hw.safFault_shows {h : Hw} (h1 : 1 ≤ h.mode.toNat) (h4 : h.mode.toNat ≤ 4) (hg : h.sys.modeGrain < h.grain)
    (code chan : Nat) : (h.safFault code chan).mode = mSAFEHALT ∧ (h.safFault code chan).bit (sf rEVT) 1 = true ∧
      (h.safFault code chan).bit (sf rSTAT) 0 = true ∧ (h.safFault code chan).bit (sf rREADY) 0 = false := by
  obtain ⟨hevt, hstat, hready⟩ := h.safNoted_shows code chan
  have hnote := h.safNoted_calm code chan
  rw [h.safFault_eq]
  generalize h.safNoted code chan = k at hevt hstat hready hnote ⊢
  have hforce : ∀ b, 0xB000 ≤ b → b < 0x20000 → b ≠ sf 0x094 → k.soOpen.safForces.calm b = k.calm b := fun b hlo hhi hb =>
    (Hw.safForces_calm hlo hhi _).trans (Hw.setF_calm _ hb 3 0 0)
  have hrest := hforce (sf rEVT) (by decide) (by decide) (by decide)
  have hmode : k.soOpen.safForces.mode = h.mode := by
    refine Hw.mode_of_reg ((Hw.reg_of_away (Hw.safForces_away (by decide) _)).trans ?_)
    exact (Hw.reg_setF_ne k (by decide) 3 0 0).trans (Hw.reg_of_calm hnote)
  have hsys : k.soOpen.safForces.sys = h.sys := (Hw.sys_of_calm hrest).trans (Hw.sys_of_calm hnote)
  have hgr : k.soOpen.safForces.grain = h.grain := (Hw.grain_of_calm hrest).trans (Hw.grain_of_calm hnote)
  rw [Hw.toSafehalt_of_running (hmode ▸ h1) (hmode ▸ h4) (by rw [hsys, hgr]; exact hg)]
  have hreg : ∀ b, 0xB000 ≤ b → b < 0x20000 → b ≠ sf 0x094 → b ≠ ra pPAIR rSTAT →
      (k.soOpen.safForces.modeCore mSAFEHALT k.soOpen.safForces.mode oSAFEHALT).reg b = k.reg b := fun b hlo hhi hb hp =>
    (Hw.modeCore_reg hlo hhi hb hp _ _ _ _).trans (Hw.reg_of_calm (hforce b hlo hhi hb))
  refine ⟨modeCore_mode .., ?_, ?_, ?_⟩
  · rw [Hw.bit, hreg _ (by decide) (by decide) (by decide) (by decide)]
    exact hevt
  · rw [Hw.bit, hreg _ (by decide) (by decide) (by decide) (by decide)]
    exact hstat
  · rw [Hw.bit, hreg _ (by decide) (by decide) (by decide) (by decide)]
    exact hready

/-! ### Debug halts of application cores (R54) -/

theorem Hw.forceBegin_leg_ne (h : Hw) {n k : Nat} (hk : k ≠ n) : (h.forceBegin n).leg k = h.leg k := by
  rw [Hw.leg, Hw.forceBegin, Hw.evt_legs]
  exact tabGet_tabSet_ne _ _ hk _ _

theorem Hw.forceBegin_evt_ne (h : Hw) {n k : Nat} (hk : k ≠ n) : (h.forceBegin n).reg (lg k rEVT) = h.reg (lg k rEVT) := by
  have h1 : lg k rEVT ≠ lg n rEVT := by unfold lg ra pLEG; omega
  have h2 : lg k rEVT ≠ lg n rEVT_TS := ra_ne_off (by decide) (by decide) (by decide)
  exact Hw.reg_evt_ne _ h1 h2 6

/-- A force that begins on legs leaves every other leg. -/
theorem Hw.each_forceBegin_other {l : List Nat} {n : Nat} (hn : n ∉ l) (h : Hw) :
    (h.each l Hw.forceBegin).leg n = h.leg n ∧ (h.each l Hw.forceBegin).reg (lg n rEVT) = h.reg (lg n rEVT) := by
  unfold Hw.each
  induction l generalizing h with
  | nil => exact ⟨rfl, rfl⟩
  | cons x l ih =>
    obtain ⟨hx, hl⟩ := not_or.mp (mt List.mem_cons.mpr hn)
    obtain ⟨h1, h2⟩ := ih hl (h.forceBegin x)
    exact ⟨h1.trans (h.forceBegin_leg_ne hx), h2.trans (h.forceBegin_evt_ne hx)⟩

/-- A force that begins on a leg drives it to the safe state and sets EVT.FORCED. -/
theorem Hw.each_forceBegin_shows {l : List Nat} {n : Nat} (hn : n ∈ l) (h : Hw) :
    (h.each l Hw.forceBegin).bit (lg n rEVT) 6 = true ∧ ((h.each l Hw.forceBegin).leg n).running = false := by
  unfold Hw.each
  induction l generalizing h with
  | nil => cases hn
  | cons x l ih =>
    by_cases hl : n ∈ l
    · exact ih hl (h.forceBegin x)
    · obtain rfl : n = x := (List.mem_cons.mp hn).resolve_right hl
      obtain ⟨h1, h2⟩ := Hw.each_forceBegin_other hl (h.forceBegin n)
      have hself : (h.forceBegin n).leg n = (h.legSafe n).leg n := by
        rw [Hw.leg, Hw.forceBegin, Hw.evt_legs]
        rfl
      refine ⟨(congrArg (bitOf · 6) h2).trans (Hw.bit_evt _ _ (by decide)), ?_⟩
      rw [Hw.each] at h1
      rw [List.foldl_cons, h1, hself, Hw.legSafe, Hw.leg, Hw.setLeg, tabGet_tabSet_same]

theorem Hw.each_forceBegin_sys (l : List Nat) (h : Hw) : (h.each l Hw.forceBegin).sys = h.sys :=
  Hw.each_keeps (·.sys) (fun h n => (h.legSafe n).evt_sys (pLEG n) 6) l h

/-- The module with the set of halted cores. -/
def Hw.withHalted (h : Hw) (w : BitVec 4) : Hw := { h with sys := { h.sys with acHalted := w } }

/-- The first core that halts forces the legs whose page has HALT_SAFE set. -/
theorem Hw.acHalt_first {h : Hw} (core : Fin 4) (hw : h.sys.acHalted = 0) : h.acHalt core true =
    (h.withHalted (BitVec.ofNat 4 (2 ^ core.val))).each
      ((List.range 96).filter fun n => h.bit (lg n rCTRL) 2) Hw.forceBegin := by
  have hne : (BitVec.ofNat 4 (2 ^ core.val) != 0) = true := by revert core; decide
  have hor : (0 : BitVec 4) ||| BitVec.ofNat 4 (2 ^ core.val) = BitVec.ofNat 4 (2 ^ core.val) := BitVec.zero_or
  have hsafe : ∀ k, ((h.withHalted (BitVec.ofNat 4 (2 ^ core.val))).haltSafe k) = h.bit (ra k rCTRL) 2 := fun k =>
    congrArg (· && h.bit (ra k rCTRL) 2) hne
  unfold Hw.acHalt
  dsimp only
  rw [if_pos ⟨rfl, hw⟩, if_pos rfl, hw, hor]
  exact congrArg (fun q => Hw.each _ ((List.range 96).filter q) Hw.forceBegin) (funext fun n => hsafe (pLEG n))

theorem Hw.acHalt_resume (h : Hw) (core : Nat) :
    h.acHalt core false = h.withHalted (h.sys.acHalted &&& ~~~BitVec.ofNat 4 (2 ^ core)) := by
  unfold Hw.acHalt
  dsimp only
  rw [if_neg fun hc => Bool.noConfusion hc.1]
  rfl

end Sys2Proof.Machine

namespace Sys2Proof
open Machine

/-- Settles O23: a halt forces the legs that ask for it, a safety fault passes through its note, the force lines and
the mode. -/
theorem coreHalts : Obligations.CoreHalts := by
  refine fun s g hl => ⟨fun c n hw => ?_, fun c => ?_, fun b h1 h4 hg => ?_⟩
  · refine gives_run_eq (f := fun _ h => h.acHalt c true) hl (Hw.acHalt_first (h := s.hw.at g) c hw)
      ⟨?_, fun hn => ?_, fun hn => ?_⟩
    · rw [Hw.seal_sys, Hw.each_forceBegin_sys]
      rfl
    · exact Hw.each_forceBegin_shows (List.mem_filter.mpr ⟨List.mem_range.mpr n.isLt, hn⟩) _
    · refine (Hw.each_forceBegin_other (fun hm => ?_) _).1
      exact absurd ((List.mem_filter.mp hm).2.symm.trans hn) (by decide)
  · exact gives_run_eq (f := fun _ h => h.acHalt c false) hl ((s.hw.at g).acHalt_resume c) ⟨rfl, rfl⟩
  · exact gives_run (f := fun _ h => h.safFault 5 (if b then 2 else 1)) hl
      (Hw.safFault_shows (h := s.hw.at g) h1 h4 hg 5 (if b then 2 else 1))

end Sys2Proof

namespace Sys2Proof.Machine

/-! ### Whether a SOFT_RESET is refused -/

section
variable {h k : Hw} (hr : ∀ a, ¬ inLog a → k.reg a = h.reg a)
include hr

theorem Hw.anyEnabled_congr : k.anyEnabled = h.anyEnabled :=
  congrArg (List.any _) (funext fun n => Hw.legEnabled_congr hr n)

theorem Hw.axisLegs_congr (a : Nat) : k.axisLegs a = h.axisLegs a :=
  congrArg (fun w => legsOf (bridgesOf w)) (hr _ (not_inLog_of_ge (by unfold cr ra pCAR; omega)))

theorem Hw.axisEnabled_congr (a : Nat) : (k.axisLegs a).any k.legEnabled = (h.axisLegs a).any h.legEnabled := by
  rw [Hw.axisLegs_congr hr, show k.legEnabled = h.legEnabled from funext fun n => Hw.legEnabled_congr hr n]

theorem Hw.hytEnabled_congr (e : Nat) : k.hytEnabled e = h.hytEnabled e := by
  have haxes : k.hytAxes e = h.hytAxes e :=
    congrArg bridgesOf (hr _ (not_inLog_of_ge (by unfold hy ra pHYT; omega)))
  simp only [Hw.hytEnabled, haxes, Hw.axisEnabled_congr hr]

theorem Hw.dclkUsed_congr (n : Nat) : k.dclkUsed n = h.dclkUsed n := by
  have hsd : ∀ i off, k.reg (sd i off) = h.reg (sd i off) := fun i off =>
    hr _ (not_inLog_of_ge (by unfold sd ra pSDM; omega))
  simp only [Hw.dclkUsed, Hw.sdmClk, Hw.bit, Hw.f, hsd]

/-- What refuses a SOFT_RESET is read outside the log. -/
theorem Hw.resetRefused_congr (p : Nat) : k.resetRefused p = h.resetRefused p := by
  have hpair : k.bit (pr rSTAT) 0 = h.bit (pr rSTAT) 0 :=
    congrArg (bitOf · 0) (hr _ (not_inLog_of_ge (by decide)))
  unfold Hw.resetRefused
  simp only [Hw.anyEnabled_congr hr, Hw.axisEnabled_congr hr, Hw.hytEnabled_congr hr, Hw.dclkUsed_congr hr,
    Hw.legEnabled_congr hr, hpair]

end

/-! ### The reset of a page -/

theorem inPage_ra {p off : Nat} (hp : p < 0x200) (ho : off < 0x1000) : inPage p (ra p off) = true := by
  have hlt : ¬ 0x200000 ≤ ra p off := by unfold ra; omega
  have hdiv : ra p off / 0x1000 = p := by unfold ra; omega
  simp [inPage, hlt, hdiv]

/-- A page that is reset has no pending set. -/
theorem Hw.pageReset_pnd (h : Hw) {p a : Nat} (hp : inPage p a = true) : (h.pageReset p).pnd a = regReset a :=
  (tabGet_filter_key _ (fun k => !inPage p k) a h.pend).trans (if_neg (by simp [hp]))

/-- The register a of page p is back at its reset value, and no set is pending for it. -/
def Hw.IsReset (h : Hw) (a : Nat) : Prop := h.reg a = regReset a ∧ h.pnd a = regReset a

theorem Hw.isReset_pageReset (h : Hw) {p a : Nat} (hp : inPage p a = true) (hl : a ≠ ra p rLOCK) :
    (h.pageReset p).IsReset a := ⟨h.pageReset_reg hp hl, h.pageReset_pnd hp⟩

theorem Hw.isReset_setReg {h : Hw} {a : Nat} (ha : h.IsReset a) {c : Nat} (hc : a ≠ c) (v : Word) :
    (h.setReg c v).IsReset a := ⟨(h.reg_setReg_ne hc v).trans ha.1, ha.2⟩

theorem Hw.isReset_each_setReg (v : Nat → Word) {l : List Nat} {a : Nat} (hl : ∀ c ∈ l, a ≠ c) {h : Hw} (ha : h.IsReset a) :
    (h.each l fun h c => h.setReg c (v c)).IsReset a := by
  unfold Hw.each
  induction l generalizing h with
  | nil => exact ha
  | cons c l ih =>
    rw [List.foldl_cons]
    exact ih (fun d hd => hl d (List.mem_cons_of_mem _ hd)) (Hw.isReset_setReg ha (hl c List.mem_cons_self) _)

/-- A reset of a FIO page, below its counters. -/
theorem Hw.isReset_fioReset (h : Hw) {g off : Nat} (hg : pFIO g < 0x200) (hl : off ≠ rLOCK) (ho : off < 0x0AC) :
    (h.fioReset g).IsReset (fo g off) := by
  have hpage : inPage (pFIO g) (fo g off) = true := inPage_ra hg (by omega)
  refine Hw.isReset_each_setReg _ (fun c hc => ?_) (h.isReset_pageReset hpage (ra_ne_off (by omega) (by decide) hl))
  rcases List.mem_cons.mp hc with rfl | hc
  · unfold fo ra; omega
  · obtain ⟨i, -, rfl⟩ := List.mem_map.mp hc
    unfold chCnt fo ra; omega

/-- The page of block number n of a kind. -/
def blockPage : Block → Nat → Nat
  | .sys, _ | .none, _ => pSYS
  | .clk, _ => pCLK | .flt, _ => pFLT | .thm, _ => pTHM | .pwr, _ => pPWR | .save, _ => pSAVE | .sem, _ => pSEM
  | .gdp, _ => pGDP | .prf, _ => pPRF | .lsh, _ => pLSH | .stp, _ => pSTP | .ntm, _ => pNTM | .nsw, _ => pNSW
  | .acq, _ => pACQ | .saf, _ => pSAF | .pair, _ => pPAIR
  | .can, n => pCAN n | .fio, n => pFIO n | .hyt, n => pHYT n | .fb, n => pFB n | .ax, n => pAX n
  | .car, n => pCAR n | .sdm, n => pSDM n | .leg, n => pLEG n

/-- An assigned page is the one of its block and number. -/
theorem eq_blockPage {p n : Nat} {b : Block} (hp : p < 0x200) (h : pageBlock p = (b, n)) (hb : b ≠ .none) :
    p = blockPage b n := by
  have hall : ∀ q : Fin 512, (pageBlock q).1 ≠ .none → q.val = blockPage (pageBlock q).1 (pageBlock q).2 := by
    decide +kernel
  have hq := hall ⟨p, hp⟩
  simp only [h] at hq
  exact hq hb

/-- The blocks whose accepted SOFT_RESET returns the whole page. -/
theorem Hw.isReset_blockReset (h : Hw) (m : Mem) {p off : Nat} (hp : p < 0x200)
    (hb : (pageBlock p).1 ∈ [Block.sem, .prf, .lsh, .stp, .nsw, .can, .acq, .hyt, .fio, .pwr]) (ho : off < 0x1000)
    (hl : off ≠ rLOCK) (hf : (pageBlock p).1 ≠ .fio ∨ off < 0x0AC) : (h.blockReset m p).IsReset (ra p off) := by
  have hreset : (h.pageReset p).IsReset (ra p off) :=
    h.isReset_pageReset (inPage_ra hp ho) (ra_ne_off ho (by decide) hl)
  rcases hpb : pageBlock p with ⟨b, n⟩
  have hpage := eq_blockPage hp hpb
  rw [hpb] at hb hf
  unfold Hw.blockReset
  rw [hpb]
  simp only [List.mem_cons, List.not_mem_nil, or_false] at hb
  rcases hb with rfl | rfl | rfl | rfl | rfl | rfl | rfl | rfl | rfl | rfl
  case inr.inr.inr.inr.inr.inr.inr.inr.inl =>
    have hpfio : p = pFIO n := hpage (by decide)
    rw [hpfio]
    exact h.isReset_fioReset (hpfio ▸ hp) hl (hf.resolve_left fun hne => hne rfl)
  all_goals
    rw [hpage (by decide)] at hreset ⊢
    dsimp only [blockPage] at hreset ⊢
    exact hreset

end Sys2Proof.Machine

namespace Sys2Proof
open Machine

/-- Settles O13: what refuses is read outside the log, and the pages named return by the rule of every page. -/
theorem softResetOfAPage : Obligations.SoftResetOfAPage := by
  intro s g page off hl hu hflt ho
  have refused : ∀ {k}, Logged (s.hw.at g) k → k.atWrite.resetRefused page = s.hw.resetRefused page := fun hk =>
    Hw.resetRefused_congr (h := s.hw) (fun a ha => hk.reg ha) page
  refine ⟨fun hr hb hlock hf => ?_, fun hr hsys => ?_⟩
  · refine gives_write (f := fun m h => h.softReset m page) hl hflt hu fun k hk => ?_
    have hrun : k.atWrite.softReset s.mem page = k.atWrite.blockReset s.mem page := by
      rw [Hw.softReset, refused hk, hr, if_neg (by decide)]
    simp only [hrun]
    exact Hw.isReset_blockReset _ s.mem page.isLt hb ho hlock hf
  · refine gives_write (f := fun m h => h.softReset m page) hl hflt hu fun k hk => ?_
    have hrun : k.atWrite.softReset s.mem page = k.atWrite.evt pSYS 6 := by
      rw [Hw.softReset, refused hk, hr, if_pos rfl]
    simp only [hrun]
    exact ⟨Hw.bit_evt _ pSYS (by decide),
      (Hw.reg_evt_ne _ (ra_ne_page ho (by decide) hsys) (ra_ne_page ho (by decide) hsys) 6).trans
        (hk.reg (not_inLog_page hflt ho))⟩

end Sys2Proof

namespace Sys2Proof.Machine

/-! ### The check of a set (R61) -/

/-- The module k reads as h outside the log, and holds the same shadow and pending sets and the same phase of
acquisition. -/
structure ReadsAs (k h : Hw) : Prop where
  reg : ∀ a, ¬ inLog a → k.reg a = h.reg a
  shd : ∀ a, k.shd a = h.shd a
  pnd : ∀ a, k.pnd a = h.pnd a
  phase : k.acq.phase = h.acq.phase

theorem ReadsAs.page {k h : Hw} (hk : ReadsAs k h) {p off : Nat} (hp : 3 ≤ p) : k.reg (ra p off) = h.reg (ra p off) :=
  hk.reg _ (not_inLog_of_ge (by unfold ra; omega))

theorem ReadsAs.win {k h : Hw} (hk : ReadsAs k h) (p off : Nat) : k.reg (prfWin p off) = h.reg (prfWin p off) :=
  hk.reg _ (not_inLog_of_ge (by unfold prfWin; omega))

@[simp] theorem three_le_pCAN (n : Nat) : 3 ≤ pCAN n := by unfold pCAN; omega
@[simp] theorem three_le_pFIO (n : Nat) : 3 ≤ pFIO n := by unfold pFIO; omega
@[simp] theorem three_le_pFB (n : Nat) : 3 ≤ pFB n := by unfold pFB; omega
@[simp] theorem three_le_pAX (n : Nat) : 3 ≤ pAX n := by unfold pAX; omega
@[simp] theorem three_le_pSDM (n : Nat) : 3 ≤ pSDM n := by unfold pSDM; omega
@[simp] theorem three_le_pPRF : 3 ≤ pPRF := by decide
@[simp] theorem three_le_pLSH : 3 ≤ pLSH := by decide
@[simp] theorem three_le_pSAF : 3 ≤ pSAF := by decide
@[simp] theorem three_le_pPAIR : 3 ≤ pPAIR := by decide
@[simp] theorem three_le_pNSW : 3 ≤ pNSW := by decide

section
variable {k h : Hw} (hk : ReadsAs k h)
include hk

theorem ReadsAs.bit {p off : Nat} (hp : 3 ≤ p) (i : Nat) : k.bit (ra p off) i = h.bit (ra p off) i :=
  congrArg (bitOf · i) (hk.page hp)

theorem ReadsAs.f {p off : Nat} (hp : 3 ≤ p) (hi lo : Nat) : k.f (ra p off) hi lo = h.f (ra p off) hi lo :=
  congrArg (fld · hi lo) (hk.page hp)

theorem ReadsAs.batch : k.batch = h.batch :=
  congrArg (fld · 18 0) (hk.reg _ (not_inLog_page (by decide) (by decide)))

theorem ReadsAs.ncyc : k.ncyc = h.ncyc :=
  congrArg (fld · 9 0) (hk.reg _ (not_inLog_page (by decide) (by decide)))

theorem ReadsAs.pfCfg (p : Nat) : k.pfCfg p = h.pfCfg p := hk.win p 0x080

theorem ReadsAs.pfState (p : Nat) : k.pfState p = h.pfState p := by
  simp only [Hw.pfState, Hw.pfEn, Hw.pfSrc, Hw.gearDrives, prStat, hk.pfCfg, hk.bit three_le_pLSH, hk.f three_le_pLSH,
    hk.f three_le_pPRF]
  rfl

theorem ReadsAs.limSrcOk (a : Nat) : k.limSrcOk a = h.limSrcOk a := by
  funext i
  simp only [Hw.limSrcOk, Hw.limSrc, axr, hk.f (three_le_pAX _), hk.bit (three_le_pFIO _)]
  rfl

/-- The chapters' checks look at nothing that the record of a write moves. -/
theorem ReadsAs.setOk (p : Nat) : k.setOk p = h.setOk p := by
  rcases hpb : pageBlock p with ⟨b, n⟩
  unfold Hw.setOk
  rw [hpb]
  cases b
  case' clk => simp only [Hw.clkSetOk, hk.shd, Hw.anyEnabled_congr hk.reg]
  case' thm => simp only [Hw.thmSetOk, hk.shd]
  case' save => simp only [Hw.saveSetOk, hk.shd]
  case' prf => simp only [Hw.prfSetOk, Hw.camInUse, hk.shd, hk.pfCfg, hk.pfState, hk.win, hk.bit three_le_pLSH,
      hk.f three_le_pLSH, hk.page three_le_pLSH]
  case' lsh => simp only [Hw.lshSetOk, Hw.pfEn, Hw.pfSrc, gr, rc, cm, ls, hk.shd, hk.pfCfg, hk.bit three_le_pLSH,
      hk.f three_le_pLSH, hk.page three_le_pLSH]
  case' stp => simp only [Hw.stpSetOk, hk.shd, hk.batch]
  case' ntm => simp only [Hw.ntmSetOk, hk.shd]
  case' nsw => simp only [Hw.nswSetOk, sf, nw, hk.shd, hk.batch, hk.ncyc, hk.bit three_le_pSAF, hk.f three_le_pNSW]
  case' can => simp only [Hw.canSetOk, Hw.pending, cn, hk.shd, hk.pnd, hk.bit (three_le_pCAN _), hk.f (three_le_pCAN _)]
  case' acq => simp only [Hw.acqSetOk, hk.shd, hk.batch, hk.phase]
  case' fio => simp only [Hw.fioSetOk, chCfg, fo, hk.shd, hk.bit (three_le_pFIO _), hk.f (three_le_pFIO _)]
  case' pair => simp only [Hw.pairSetOk, Hw.mode_congr hk.reg]
  case' fb => simp only [Hw.fbSetOk, Hw.fbHasMode, Hw.fbMode, Hw.axFb, Hw.pending, fbr, axr, hk.shd, hk.pnd, hk.batch,
      hk.bit (three_le_pFB _), hk.f (three_le_pFB _), hk.f (three_le_pAX _), Hw.axisEnabled_congr hk.reg]
  case' ax => simp only [Hw.axSetOk, Hw.axState, Hw.homeCfgOk, axr, hk.shd, hk.limSrcOk, hk.f (three_le_pAX _)]
  case' sdm => simp only [Hw.sdmSetOk, Hw.dclkN, sd, hk.shd, hk.batch, hk.bit (three_le_pSDM _), hk.f (three_le_pSDM _),
      hk.bit three_le_pPAIR, Hw.dclkUsed_congr hk.reg]
  all_goals rfl

end

/-! ### A write of COMMIT -/

theorem rowAt_commit {p : Nat} (hp : (pageBlock p).1 ≠ .none) : ∃ r, rowAt p rCOMMIT = some r ∧ r.rws = 0 := by
  rw [rowAt, if_neg hp]
  exact ⟨_, rfl, rfl⟩

/-- COMMIT is not written through a shadow. -/
theorem isRws_commit {p : Nat} (hp : (pageBlock p).1 ≠ .none) (hlt : p < 0x200) : isRws (ra p rCOMMIT) = false := by
  obtain ⟨r, hr, hrws⟩ := rowAt_commit hp
  have hrow : rowOf (ra p rCOMMIT) = some r := by
    have h1 : ¬ 0x200000 ≤ ra p rCOMMIT := by unfold ra rCOMMIT; omega
    have h2 : ra p rCOMMIT / 0x1000 = p := by unfold ra rCOMMIT; omega
    have h3 : ra p rCOMMIT % 0x1000 = rCOMMIT := by unfold ra rCOMMIT; omega
    rw [rowOf, if_neg h1, h2, h3, hr]
  simp [isRws, hrow, hrws]

/-- Neither is a register of the log. -/
theorem isRws_inLog {a : Nat} (ha : inLog a) : isRws a = false := by
  rcases ha with rfl | rfl | rfl <;> decide +kernel

/-- The word that a software write of COMMIT writes: VIEW as it stands, and the command bits. -/
def Hw.commitWord (h : Hw) (p bits : Nat) : Word := (h.reg (ra p rCOMMIT) &&& 0x100) ||| BitVec.ofNat 32 bits

theorem Hw.bit_commitWord (h : Hw) (p : Nat) {bits : Nat} (hb : bits < 4) (i : Nat) :
    bitOf (h.commitWord p bits) i = if i = 8 then h.bit (ra p rCOMMIT) 8 else bits.testBit i := by
  have hbits : bits.testBit i = (decide (i < 2) && bits.testBit i) := by
    by_cases hi : i < 2
    · simp [hi]
    · have hpow : 2 ^ 2 ≤ 2 ^ i := Nat.pow_le_pow_right (by decide) (by omega)
      rw [Nat.testBit_lt_two_pow (by omega), Bool.and_false]
  have hview : (0x100 : Word).getLsbD i = decide (i = 8) := by
    have hw : (0x100 : Word) = BitVec.twoPow 32 8 := by decide
    rw [hw, BitVec.getLsbD_twoPow]
    by_cases hi : i = 8 <;> simp [hi, eq_comm]
  simp only [bitOf, Hw.commitWord, BitVec.getLsbD_or, BitVec.getLsbD_and, BitVec.getLsbD_ofNat, hview, Hw.bit]
  by_cases hi : i = 8
  · subst hi
    rw [hbits]
    simp
  · rw [hbits]
    by_cases h2 : i < 2
    · simp [hi, h2, show i < 32 by omega]
    · simp [hi, h2]

/-- A bit put back as it reads changes no register. -/
theorem putFld_bitOf (w : Word) {i : Nat} (hi : i < 32) : putFld w i i (if bitOf w i then 1 else 0) = w := by
  apply BitVec.eq_of_getLsbD_eq
  intro j hj
  rw [getLsbD_putFld w (Nat.le_refl i) hi]
  split
  · next h =>
    obtain rfl : i = j := by omega
    cases hb : w.getLsbD i <;> simp [bitOf, hb]
  · rfl

theorem Hw.reg_setBit_self (h : Hw) (a : Nat) {i : Nat} (hi : i < 32) (b : Nat) :
    (h.setBit a i (h.bit a i)).reg b = h.reg b := by
  by_cases hb : b = a
  · rw [hb, Hw.reg_setBit_same]
    exact putFld_bitOf _ hi
  · exact h.reg_setBit_ne hb _ _

/-! ### The committed values as a table -/

theorem filter_tabDel {α : Type} {p : Nat → Bool} {k : Nat} (hk : p k = false) (t : Tab α) :
    (tabDel k t).filter (fun e => p e.1) = t.filter fun e => p e.1 := by
  induction t with
  | nil => rfl
  | cons e t ih =>
    obtain ⟨i, v⟩ := e
    by_cases hi : i = k
    · subst hi
      simp [tabDel, ih, hk]
    · simp [tabDel, hi, ih, List.filter_cons]

theorem filter_tabIns {α : Type} {p : Nat → Bool} {k : Nat} (hk : p k = false) (x : α) (t : Tab α) :
    (tabIns k x t).filter (fun e => p e.1) = t.filter fun e => p e.1 := by
  induction t with
  | nil => simp [tabIns, hk]
  | cons e t ih =>
    obtain ⟨i, v⟩ := e
    rcases Nat.lt_trichotomy k i with hlt | rfl | hgt
    · simp [tabIns, hlt, hk]
    · simp [tabIns, hk]
    · simp [tabIns, show ¬ k < i by omega, show ¬ k = i by omega, ih, List.filter_cons]

/-- A key that a filter drops may be set or not. -/
theorem filter_tabSet {α : Type} [DecidableEq α] {p : Nat → Bool} {k : Nat} (hk : p k = false) (d x : α) (t : Tab α) :
    (tabSet d k x t).filter (fun e => p e.1) = t.filter fun e => p e.1 := by
  unfold tabSet
  split
  · exact filter_tabDel hk t
  · exact filter_tabIns hk x t

/-- The committed values of the registers that are written through a shadow. -/
def Hw.committed (h : Hw) : Tab Word := h.regs.filter fun e => isRws e.1

theorem Hw.committed_setReg (h : Hw) {a : Nat} (ha : isRws a = false) (v : Word) :
    (h.setReg a v).committed = h.committed :=
  filter_tabSet ha _ v h.regs

theorem Hw.committed_setBit (h : Hw) {a : Nat} (ha : isRws a = false) (i : Nat) (v : Bool) :
    (h.setBit a i v).committed = h.committed := h.committed_setReg ha _

theorem Hw.committed_of_regs {h k : Hw} (e : k.regs = h.regs) : k.committed = h.committed :=
  congrArg (List.filter fun e : Nat × Word => isRws e.1) e

theorem Hw.committed_evt (h : Hw) {p : Nat} (h1 : isRws (ra p rEVT) = false)
    (h2 : isRws (ra p rEVT_TS) = false) (b : Nat) :
    (h.evt p b).committed = h.committed := by
  obtain ⟨x, e⟩ := h.evtTs_regs p b h.grain
  refine (Hw.committed_of_regs e).trans ((Hw.committed_setBit _ h1 b true).trans ?_)
  split
  · exact h.committed_setReg h2 x
  · rfl

/-- A record taken into the log leaves every committed value. -/
theorem Hw.committed_logFull (h : Hw) (x : LogRec) : (h.logFull x).committed = h.committed := by
  unfold Hw.logFull
  extract_lets others q y k
  have hk : k.regs = h.regs := by
    refine Hw.each_keeps (f := fun h z => h.wr8 _ _) (·.regs) (fun _ _ => ?_) _ h
    rfl
  clear_value k
  split
  · exact Hw.committed_of_regs hk
  · rw [Hw.committed_evt _ (isRws_inLog (.inr (.inl rfl))) (isRws_inLog (.inr (.inr rfl)))]
    exact (Hw.committed_setReg { k with logq := q, logLost := true } (isRws_inLog (.inl rfl)) _).trans
      (Hw.committed_of_regs hk)

theorem Hw.committed_log (h : Hw) (p rk cd i ts fl : Nat) : (h.log p rk cd i ts fl).committed = h.committed :=
  h.committed_logFull _

/-! ### From a write of COMMIT to GO and DISCARD -/

/-- The module q is h once a write of COMMIT is recorded in the log and VIEW is stored as it stood. -/
structure CommitBegun (h q : Hw) : Prop where
  reads : ReadsAs q h
  shadow : q.shadow = h.shadow
  pend : q.pend = h.pend
  committed : q.committed = h.committed

/-- A write of COMMIT of an open page that is not mirrored. -/
theorem Hw.commitBits_eq (h : Hw) {p : Nat} {bits : Nat} (hb : bits < 4) (hp : p ≠ pFLT) (hlt : p < 0x200)
    (hn : (pageBlock p).1 ≠ .none) (hl : h.bit (ra p rLOCK) 0 = false)
    (hm : commitMirrored p = false ∨ h.mirrorOn = false) :
    ∃ q, CommitBegun h q ∧ h.commitBits p bits =
      (let x := q.when (bits.testBit 0) fun h => h.go p
       x.when (bits.testBit 1) fun h =>
         let h := h.discard p
         match pageBlock p with
         | (.car, c) => h.setCar c { h.car c with go := {}, goPrev := {} }
         | _ => h) := by
  have hlog := h.log_logged p 10 (Config.writeCode p rCOMMIT).toNat (pageInst p) h.wgrain 0
  have hcom := h.committed_log p 10 (Config.writeCode p rCOMMIT).toNat (pageInst p) h.wgrain 0
  have hlock := (hlog.bit (not_inLog_page (p := p) (off := rLOCK) hp (by decide)) 0).trans hl
  have hwrite : h.commitBits p bits =
      (h.log p 10 (Config.writeCode p rCOMMIT).toNat (pageInst p) h.wgrain).atWrite.commitWrite p (h.commitWord p bits) := by
    have hopen : ∀ f : Hw → Hw, h.swWrite p rCOMMIT f =
        f (h.log p 10 (Config.writeCode p rCOMMIT).toNat (pageInst p) h.wgrain).atWrite := fun f => by
      unfold Hw.swWrite
      dsimp only
      rw [hlock]
      rfl
    unfold Hw.commitBits
    split
    · next hmir =>
      have hoff : (h.log p 10 (Config.writeCode p rCOMMIT).toNat (pageInst p) h.wgrain).atWrite.mirrorOn = false := by
        have h1 := hlog.bit (not_inLog_page (p := pPAIR) (off := 0x040) (by decide) (by decide)) 0
        have h2 := hlog.bit (not_inLog_page (p := pPAIR) (off := rREADY) (by decide) (by decide)) 2
        refine Eq.trans ?_ (hm.resolve_left (by simp [hmir]))
        simp only [Hw.mirrorOn, Hw.atWrite_bit, pr, h1, h2]
      unfold Hw.swMirror
      rw [hopen, hoff]
      rfl
    · exact hopen _
  rw [hwrite]
  generalize h.log p 10 (Config.writeCode p rCOMMIT).toNat (pageInst p) h.wgrain = k at hlog hcom
  have hview : bitOf (h.commitWord p bits) 8 = k.atWrite.bit (ra p rCOMMIT) 8 :=
    ((h.bit_commitWord p hb 8).trans (if_pos rfl)).trans (hlog.bit (not_inLog_page hp (by decide)) 8).symm
  refine ⟨k.atWrite.setBit (ra p rCOMMIT) 8 (k.atWrite.bit (ra p rCOMMIT) 8),
    ⟨⟨fun a ha => ?_, fun a => ?_, fun a => ?_, ?_⟩,
    hlog.shadow, hlog.pend, ?_⟩, ?_⟩
  · exact (Hw.reg_setBit_self _ _ (by decide) a).trans (hlog.reg ha)
  · exact hlog.shd a
  · exact congrArg (tabGet (regReset a) a) hlog.pend
  · exact congrArg (·.phase) hlog.acq
  · exact (Hw.committed_setBit _ (isRws_commit hn hlt) _ _).trans hcom
  · unfold Hw.commitWrite
    rw [hview, h.bit_commitWord p hb 0, h.bit_commitWord p hb 1]
    rfl

/-- The pending set after an accepted GO is the shadow set. -/
theorem pnd_makePending (h : Hw) {p a : Nat} (ha : inPage p a = true) (hn : (h.shadow.map (·.1)).Nodup) :
    (h.makePending p).pnd a = h.shd a := by
  have hkeys : ((pageEntries p h.shadow).map (·.1)).Nodup := (List.Sublist.map _ List.filter_sublist).nodup hn
  have hpend : (h.makePending p).pend = copyPage p h.shadow h.pend := by
    unfold Hw.makePending
    dsimp only
    split <;> rfl
  rw [Hw.pnd, hpend, copyPage, tabGet_foldl_tabSet a hkeys, tabGet_filter_key _ (fun k => !inPage p k), ha]
  exact (tabGet_filter_key _ (inPage p) a h.shadow).trans (if_pos ha)

/-- An accepted GO sets PENDING, clears REFUSED and writes no other register. -/
theorem Hw.makePending_shows (h : Hw) (p : Nat) : (h.makePending p).pending p = true ∧
    (h.makePending p).bit (ra p rCOMMIT) 17 = false ∧ ∀ a, a ≠ ra p rCOMMIT → (h.makePending p).reg a = h.reg a := by
  unfold Hw.makePending
  dsimp only
  refine ⟨?_, Hw.bit_setBit_same _ _ (by decide) false, fun a ha => ?_⟩
  · refine (Hw.bit_setBit_other _ _ (by decide) (by decide) false).trans ?_
    exact Hw.bit_setBit_same _ _ (by decide) true
  · rw [Hw.reg_setBit_ne _ ha, Hw.reg_setBit_ne _ ha]
    split <;> rfl

/-- A GO of a page with the common rules. -/
theorem Hw.go_common (h : Hw) {p : Nat} (hn : (pageBlock p).1 ≠ .none) (hleg : (pageBlock p).1 ≠ .leg)
    (hcar : (pageBlock p).1 ≠ .car) :
    h.go p = if h.setOk p then h.makePending p else (h.refuseCommit p).evt p (refusedBit p) := by
  rcases hpb : pageBlock p with ⟨b, n⟩
  rw [hpb] at hn hleg hcar
  unfold Hw.go
  rw [hpb]
  cases b
  case none => exact absurd rfl hn
  case leg => exact absurd rfl hleg
  case car => exact absurd rfl hcar
  all_goals rfl

theorem refusedBit_lt (p : Nat) : refusedBit p < 32 := by
  unfold refusedBit
  split <;> decide

/-- A refused GO sets REFUSED and the chapter's event, and keeps PENDING and the pending set. -/
theorem Hw.refused_shows (h : Hw) (p : Nat) :
    ((h.refuseCommit p).evt p (refusedBit p)).bit (ra p rCOMMIT) 17 = true ∧
    ((h.refuseCommit p).evt p (refusedBit p)).bit (ra p rEVT) (refusedBit p) = true ∧
    ((h.refuseCommit p).evt p (refusedBit p)).pend = h.pend ∧
    ((h.refuseCommit p).evt p (refusedBit p)).pending p = h.pending p := by
  have hcommit : ((h.refuseCommit p).evt p (refusedBit p)).reg (ra p rCOMMIT) = (h.refuseCommit p).reg (ra p rCOMMIT) :=
    Hw.reg_evt_ne _ (ra_ne_off (by decide) (by decide) (by decide)) (ra_ne_off (by decide) (by decide) (by decide)) _
  refine ⟨?_, Hw.bit_evt _ _ (refusedBit_lt p), Hw.evt_pend _ _ _, ?_⟩
  · rw [Hw.bit, hcommit]
    exact h.bit_setBit_same _ (by decide) true
  · rw [Hw.pending, Hw.bit, hcommit]
    exact h.bit_setBit_other _ (by decide) (by decide) true

/-- A discard cancels the pending set and copies the committed values into the shadow. -/
theorem Hw.discard_shows (h : Hw) {p a : Nat} (ha : inPage p a = true)
    (hn : (h.committed.map (·.1)).Nodup) : (h.discard p).pending p = false ∧ (h.discard p).pnd a = regReset a ∧
      (h.discard p).shd a = tabGet (regReset a) a h.committed := by
  refine ⟨Hw.bit_setBit_same _ _ (by decide) false, ?_, ?_⟩
  · exact (tabGet_filter_key _ (fun k => !inPage p k) a h.pend).trans (if_neg (by simp [ha]))
  · have hkeys : ((pageEntries p h.committed).map (·.1)).Nodup := (List.Sublist.map _ List.filter_sublist).nodup hn
    have hshadow : (h.discard p).shadow = copyPage p h.committed h.shadow := rfl
    rw [Hw.shd, hshadow, copyPage, tabGet_foldl_tabSet a hkeys, tabGet_filter_key _ (fun k => !inPage p k), ha]
    exact (tabGet_filter_key _ (inPage p) a h.committed).trans (if_pos ha)

end Sys2Proof.Machine

namespace Sys2Proof
open Machine

/-- Settles O12: the write of COMMIT is recorded, which moves nothing a check reads, then GO or DISCARD acts. -/
theorem commitOfAPage : Obligations.CommitOfAPage := by
  intro s g page a hl hu hflt hn hm
  obtain ⟨q, hq, hgo⟩ := (s.hw.at g).commitBits_eq (bits := 1) (by decide) hflt page.isLt hn hu hm
  obtain ⟨y, hy, hdis⟩ := (s.hw.at g).commitBits_eq (bits := 2) (by decide) hflt page.isLt hn hu hm
  have hgo' : (s.hw.at g).commitBits page 1 = q.go page := hgo
  have hok : q.setOk page = s.hw.setOk page := (hq.reads.setOk page).trans rfl
  refine ⟨fun hleg hcar hset hnd ha => ?_, fun hleg hcar hset => ?_, fun hns hnr ha hw => ?_⟩
  · rw [Hw.go_common q hn hleg hcar, hok, hset, if_pos rfl] at hgo'
    obtain ⟨hp, hr, hother⟩ := q.makePending_shows page
    refine gives_run_eq (f := fun _ h => h.commitBits page 1) hl hgo' ⟨hp, hr, ?_, fun hw => ?_⟩
    · exact (pnd_makePending q ha (hq.shadow ▸ hnd)).trans (hq.reads.shd a)
    · have hne : a ≠ ra page rCOMMIT := fun e => by
        rw [e, isRws_commit hn page.isLt] at hw
        cases hw
      have hlog : ¬ inLog a := fun e => by
        rw [isRws_inLog e] at hw
        cases hw
      exact (hother a hne).trans (hq.reads.reg a hlog)
  · rw [Hw.go_common q hn hleg hcar, hok, hset, if_neg (by decide)] at hgo'
    obtain ⟨h17, hevt, hpend, hpending⟩ := q.refused_shows page
    refine gives_run_eq (f := fun _ h => h.commitBits page 1) hl hgo' ⟨h17, hevt, hpend.trans hq.pend, hpending.trans ?_⟩
    exact congrArg (bitOf · 16) (hq.reads.reg _ (not_inLog_page hflt (by decide)))
  · have hnc : (y.committed.map (·.1)).Nodup := by
      rw [hy.committed]
      exact (List.Sublist.map _ List.filter_sublist).nodup hnr
    obtain ⟨hp, hpnd, hshd⟩ := y.discard_shows ha hnc
    have hval : tabGet (regReset a) a y.committed = s.hw.reg a := by
      rw [hy.committed]
      exact (tabGet_filter_key _ isRws a s.hw.regs).trans (if_pos hw)
    refine gives_run_eq (f := fun _ h => h.commitBits page 2) hl hdis ?_
    dsimp only [Hw.when]
    simp only [show Nat.testBit 2 0 = false from rfl, show Nat.testBit 2 1 = true from rfl, if_true,
      Bool.false_eq_true, if_false]
    split
    · exact ⟨hp, hpnd, hshd.trans hval⟩
    · exact ⟨hp, hpnd, hshd.trans hval⟩

end Sys2Proof

namespace Sys2Proof.Machine

/-! ### Words of memory -/

/-- A word is its four bytes, the highest first. -/
theorem wordBytes_append (v : Word) :
    v.extractLsb' 24 8 ++ v.extractLsb' 16 8 ++ v.extractLsb' 8 8 ++ v.extractLsb' 0 8 = v := by
  apply BitVec.eq_of_getLsbD_eq
  intro i hi
  simp only [BitVec.getLsbD_append, BitVec.getLsbD_extractLsb']
  by_cases h1 : i < 8
  · simp [h1]
  · by_cases h2 : i < 16
    · simp [h1, show i - 8 < 8 by omega, show 8 + (i - 8) = i by omega]
    · by_cases h3 : i < 24
      · simp [h1, show ¬ i - 8 < 8 by omega, show i - 8 - 8 < 8 by omega, show 16 + (i - 8 - 8) = i by omega]
      · simp [h1, show ¬ i - 8 < 8 by omega, show ¬ i - 8 - 8 < 8 by omega, show i - 8 - 8 - 8 < 8 by omega,
          show 24 + (i - 8 - 8 - 8) = i by omega]

theorem Hw.rd32_wr32_same (h : Hw) (m : Mem) (a : Nat) (v : Word) : (h.wr32 a v).rd32 m a = v := by
  have hb : ∀ i < 4, (h.wr32 a v).rd8 m (a + i) = (wordBytes v).getD i 0 := fun i hi => by
    refine (Hw.rd8_wrN h m a (wordBytes v) (a + i)).trans ?_
    rw [if_pos ⟨by omega, Nat.add_lt_add_left hi a⟩, Nat.add_sub_cancel_left]
  have h0 := hb 0 (by decide)
  rw [Nat.add_zero] at h0
  unfold Hw.rd32
  rw [hb 3 (by decide), hb 2 (by decide), hb 1 (by decide), h0]
  exact wordBytes_append v

/-- Bytes outside the word written are read as before. -/
theorem Hw.rd8_wr32_ne (h : Hw) (m : Mem) {a b : Nat} (hab : b < a ∨ a + 4 ≤ b) (v : Word) :
    (h.wr32 a v).rd8 m b = h.rd8 m b := by
  refine (Hw.rd8_wrN h m a (wordBytes v) b).trans (if_neg ?_)
  have hlen : (wordBytes v).length = 4 := rfl
  omega

theorem Hw.rd32_wr32_ne (h : Hw) (m : Mem) {a b : Nat} (hab : b + 4 ≤ a ∨ a + 4 ≤ b) (v : Word) :
    (h.wr32 a v).rd32 m b = h.rd32 m b := by
  unfold Hw.rd32
  rw [Hw.rd8_wr32_ne h m (by omega), Hw.rd8_wr32_ne h m (by omega), Hw.rd8_wr32_ne h m (by omega),
    Hw.rd8_wr32_ne h m (by omega)]

/-- A word read after the command, in the memory its writes have reached. -/
theorem Hw.rd32_seal {h : Hw} (hr : h.rst = 0) (m : Mem) (g a : Nat) : (h.seal g).rd32 (m.after h) a = h.rd32 m a := by
  have hb : ∀ b, (h.seal g).rd8 (m.after h) b = h.rd8 m b := fun b => memGet_after hr b
  unfold Hw.rd32
  rw [hb, hb, hb, hb]

/-! ### Writes of data memory (R156) -/

/-- What no write of a data word moves. -/
def Hw.still (h : Hw) : (Tab Word × Tab Word) × Tab HytS × Nat := ((h.regs, h.shadow), h.hyts, h.rst)

theorem Hw.regs_of_still {h k : Hw} (e : k.still = h.still) : k.regs = h.regs := congrArg (·.1.1) e
theorem Hw.hyt_of_still {h k : Hw} (e : k.still = h.still) (n : Nat) : k.hyt n = h.hyt n :=
  congrArg (tabGet ({} : HytS) n) (congrArg (·.2.1) e : k.hyts = h.hyts)
theorem Hw.rst_of_still {h k : Hw} (e : k.still = h.still) : k.rst = h.rst := congrArg (·.2.2) e
theorem Hw.wrN_still (h : Hw) (a : Nat) (d : List Byte) : (h.wrN a d).still = h.still := by
  induction d generalizing h a with
  | nil => rfl
  | cons x d ih => exact ih _ _

/-- The acquisition's note of written words moves neither the view above nor a waiting write. -/
theorem Hw.acqBytes_still (h : Hw) (a : Nat) (d : List Byte) :
    (h.acqBytes a d).still = h.still ∧ (h.acqBytes a d).wbuf = h.wbuf := by
  have hc : ∀ h : Hw, ∀ c : Nat, ((fun h : Hw => (h.still, h.wbuf)) (if a ≤ h.chWord c ∧ h.chWord c + 4 ≤ a + d.length then
      let l := tabGet [] c h.acq.hist
      let near := l.takeWhile fun e => decide (h.grain < e.1 + 70000)
      let l := (h.grain, (bytesWord (d.drop (h.chWord c - a))).toNat) :: near ++ (l.drop near.length).take 1
      { h with acq := { h.acq with hist := tabSet [] c l h.acq.hist } }
      else h)) = (h.still, h.wbuf) := fun h c => by
    dsimp only
    split <;> rfl
  have hall : ((h.acqBytes a d).still, (h.acqBytes a d).wbuf) = (h.still, h.wbuf) := by
    unfold Hw.acqBytes
    split
    · exact Hw.each_keeps (fun h => (h.still, h.wbuf)) hc _ h
    · rfl
  exact ⟨congrArg (·.1) hall, congrArg (·.2) hall⟩

theorem Hw.dmWr_still (h : Hw) (e w : Nat) (v : Word) : (h.dmWr e w v).still = h.still := by
  have hw : ((h.wr32 (dmAddr e w) v).acqBytes (dmAddr e w) (wordBytes v)).still = h.still :=
    (Hw.acqBytes_still _ _ _).1.trans (h.wrN_still _ _)
  unfold Hw.dmWr
  dsimp only
  split
  · exact hw
  · exact hw

theorem Hw.dmWr_wbuf (h : Hw) (e w : Nat) (v : Word) : (h.dmWr e w v).wbuf = (h.wr32 (dmAddr e w) v).wbuf := by
  have hw := (Hw.acqBytes_still (h.wr32 (dmAddr e w) v) (dmAddr e w) (wordBytes v)).2
  unfold Hw.dmWr
  dsimp only
  split
  · exact hw
  · exact hw

theorem Hw.rd32_of_wbuf {h k : Hw} (e : k.wbuf = h.wbuf) (m : Mem) (a : Nat) : k.rd32 m a = h.rd32 m a := by
  simp only [Hw.rd32, Hw.rd8, e]

/-- Words written one after another from data word b on, the first of them n words further. -/
def Hw.dmRun (h : Hw) (e b n : Nat) (l : List Word) : Hw := h.each (l.zipIdx n) fun h w => h.dmWr e (b + w.2) w.1

theorem Hw.dmRun_cons (h : Hw) (e b n : Nat) (v : Word) (l : List Word) :
    h.dmRun e b n (v :: l) = (h.dmWr e (b + n) v).dmRun e b (n + 1) l := rfl

theorem Hw.dmRun_still (h : Hw) (e b n : Nat) (l : List Word) : (h.dmRun e b n l).still = h.still := by
  induction l generalizing h n with
  | nil => rfl
  | cons v l ih =>
    rw [Hw.dmRun_cons, ih]
    exact h.dmWr_still e (b + n) v

/-- A word after one data word is written. -/
theorem Hw.rd32_dmWr (h : Hw) (m : Mem) (e w a : Nat) (v : Word) :
    (h.dmWr e w v).rd32 m a = (h.wr32 (dmAddr e w) v).rd32 m a := Hw.rd32_of_wbuf (h.dmWr_wbuf e w v) m a

/-- A word below a run reads as before. -/
theorem Hw.rd32_dmRun_below (h : Hw) (m : Mem) (e b n k : Nat) (l : List Word)
    (hk : k < n) (hb : b + n + l.length ≤ 16384) :
    (h.dmRun e b n l).rd32 m (dmAddr e (b + k)) = h.rd32 m (dmAddr e (b + k)) := by
  induction l generalizing h n with
  | nil => rfl
  | cons v l ih =>
    rw [List.length_cons] at hb
    have ha : dmAddr e (b + k) + 4 ≤ dmAddr e (b + n) := by
      unfold dmAddr
      omega
    rw [Hw.dmRun_cons, ih _ _ (by omega) (by omega), Hw.rd32_dmWr]
    exact Hw.rd32_wr32_ne h m (.inl ha) v

/-- A word of a run reads as it was written. -/
theorem Hw.rd32_dmRun (h : Hw) (m : Mem) (e b n j : Nat) (l : List Word) (hj : j < l.length)
    (hb : b + n + l.length ≤ 16384) : (h.dmRun e b n l).rd32 m (dmAddr e (b + (n + j))) = l.getD j 0 := by
  induction l generalizing h n j with
  | nil => exact absurd hj (Nat.not_lt_zero j)
  | cons v l ih =>
    rw [List.length_cons] at hb hj
    rw [Hw.dmRun_cons]
    cases j with
    | zero =>
      have hbelow := Hw.rd32_dmRun_below (h.dmWr e (b + n) v) m e b (n + 1) n l (by omega) (by omega)
      rw [show n + 0 = n from rfl, hbelow, Hw.rd32_dmWr, Hw.rd32_wr32_same]
      rfl
    | succ j =>
      rw [show n + (j + 1) = n + 1 + j by omega, ih _ _ _ (by omega) (by omega)]
      rfl

/-! ### Arrivals (R163, R164) -/

/-- The record of a source holds eight words. -/
theorem Hw.sinRecord_length (h : Hw) (m : Mem) {kind : Nat} (inst : Nat) (h1 : 1 ≤ kind) (h4 : kind ≤ 4) :
    (h.sinRecord m kind inst).length = 8 := by
  interval_cases kind <;> rfl

/-- The record of an arrival of slot i is written, and the grain of the arrival noted. -/
def Hw.arrived (h : Hw) (m : Mem) (e i : Nat) : Hw :=
  let k := h.dmRun e (0x3F00 + 8 * i) 0 (h.sinRecord m (h.f (hy e (0x080 + 4 * i)) 26 24) (h.f (hy e (0x080 + 4 * i)) 7 0))
  k.upHyt e fun x => { x with arrAt := tabSet 0 i k.grain x.arrAt }

/-- An overrun of slot i: it is counted and flagged, a lasting fault warns the axes of the engine. -/
def Hw.overrun (h : Hw) (e i : Nat) : Hw :=
  (((h.upHyt e fun x => { x with lost := tabSet 0 i (tabGet 0 i x.lost + 1) x.lost }).w1cSet (hy e 0x06C) i).evt
    (pHYT e) 5).hytFlt e 5

theorem Hw.signalArrival_unmapped {h : Hw} {e i : Nat} (hk : h.f (hy e (0x080 + 4 * i)) 26 24 = 0) (m : Mem) :
    h.signalArrival m e i = h := if_pos hk

theorem Hw.signalArrival_mapped {h : Hw} {e i : Nat} (hk : h.f (hy e (0x080 + 4 * i)) 26 24 ≠ 0) (m : Mem) :
    h.signalArrival m e i =
      (if (h.hyt e).epend.getLsbD i then (h.arrived m e i).overrun e i else h.arrived m e i).epSet e i := by
  unfold Hw.signalArrival
  rw [if_neg hk]
  rfl

theorem Hw.hyt_setHyt_same (h : Hw) (e : Nat) (x : HytS) : (h.setHyt e x).hyt e = x := tabGet_tabSet_same _ _ _ _

theorem Hw.epend_epSet (h : Hw) (e b : Nat) : ((h.epSet e b).hyt e).epend = (h.hyt e).epend ||| BitVec.ofNat 64 (2 ^ b) :=
  congrArg (·.epend) (h.hyt_setHyt_same e _)

theorem Hw.pc_epSet (h : Hw) (e b : Nat) : ((h.epSet e b).hyt e).pc = (h.hyt e).pc :=
  congrArg (·.pc) (h.hyt_setHyt_same e _)

/-- An arrival leaves the registers, and the pending bits of its engine until EPEND is set. -/
theorem Hw.arrived_shows (h : Hw) (m : Mem) (e i : Nat) :
    (h.arrived m e i).regs = h.regs ∧ ((h.arrived m e i).hyt e).epend = (h.hyt e).epend ∧
      (h.arrived m e i).rst = h.rst := by
  unfold Hw.arrived
  generalize h.sinRecord m _ _ = l
  dsimp only
  have hstill := h.dmRun_still e (0x3F00 + 8 * i) 0 l
  generalize h.dmRun e (0x3F00 + 8 * i) 0 l = k at hstill ⊢
  refine ⟨(Hw.regs_of_still hstill : k.regs = h.regs), ?_, (Hw.rst_of_still hstill : k.rst = h.rst)⟩
  rw [Hw.upHyt, Hw.hyt_setHyt_same, Hw.hyt_of_still hstill]

/-- The words of an arrival's record as the command leaves them. -/
theorem Hw.rd32_arrived (h : Hw) (m : Mem) (e i : Nat) (hi : i < 32) {j : Nat} {l : List Word} (hj : j < l.length)
    (hlen : l.length = 8)
    (hw : h.sinRecord m (h.f (hy e (0x080 + 4 * i)) 26 24) (h.f (hy e (0x080 + 4 * i)) 7 0) = l) :
    (h.arrived m e i).rd32 m (dmAddr e (0x3F00 + 8 * i + j)) = l.getD j 0 := by
  have hrun := h.rd32_dmRun m e (0x3F00 + 8 * i) 0 j l hj (by omega)
  rw [Nat.zero_add] at hrun
  unfold Hw.arrived
  rw [hw]
  exact hrun

/-! ### Counted events of an engine (R171) -/

/-- Registers that a counted event of page p does not move. -/
def offFault (p a : Nat) : Prop := ¬ inLog a ∧ a ≠ ra p rFLT_CNT

/-- One register and the engines. -/
def Hw.engView (h : Hw) (a : Nat) : Word × Tab HytS := (h.reg a, h.hyts)

theorem Hw.bit_of_engView {h k : Hw} {a : Nat} (e : k.engView a = h.engView a) (b : Nat) : k.bit a b = h.bit a b :=
  congrArg (bitOf · b) (congrArg (·.1) e : k.reg a = h.reg a)

theorem Logged.engView {h k : Hw} (hk : Logged h k) {a : Nat} (ha : ¬ inLog a) : k.engView a = h.engView a := by
  rw [Hw.engView, hk.reg ha, hk.hyts, Hw.engView]

theorem Hw.setReg_engView (h : Hw) {a b : Nat} (hab : b ≠ a) (v : Word) : (h.setReg a v).engView b = h.engView b :=
  congrArg (·, h.hyts) (h.reg_setReg_ne hab v)

theorem Hw.evt_engView (h : Hw) {p b : Nat} (h1 : b ≠ ra p rEVT) (h2 : b ≠ ra p rEVT_TS) (i : Nat) :
    (h.evt p i).engView b = h.engView b := by
  rw [Hw.engView, Hw.reg_evt_ne _ h1 h2, Hw.evt_hyts, Hw.engView]

/-- A counted event of a page moves its FLT_CNT and what a record in the log moves, and no engine. -/
theorem Hw.fltEvent_engView (h : Hw) {p a : Nat} (ha : offFault p a) (rk cd i ts : Nat) :
    (h.fltEvent p rk cd i ts).1.engView a = h.engView a := by
  obtain ⟨hlog, hcnt⟩ := ha
  have hset : ∀ (h : Hw) v, (h.setF (ra p rFLT_CNT) 7 0 v).engView a = h.engView a := fun h v => h.setReg_engView hcnt _
  have hbump : ∀ h : Hw, (h.bump (ra p rFLT_CNT) 7 0).engView a = h.engView a := fun h =>
    congrArg (·, h.hyts) (h.reg_bump_ne hcnt 7 0)
  have hwin : ∀ (h : Hw) w, (h.setFwin p w).engView a = h.engView a := fun _ _ => rfl
  have hlogs : ∀ (h : Hw) rk cd i ts fl, (h.log p rk cd i ts fl).engView a = h.engView a := fun h _ _ _ _ _ =>
    (h.log_logged _ _ _ _ _ _).engView hlog
  have hend : ∀ h : Hw, (h.fltEnd p).engView a = h.engView a := fun h =>
    ((Hw.logFull_logged _ _).engView hlog).trans (hset _ _)
  unfold Hw.fltEvent
  dsimp only
  simp only [apply_ite Prod.fst, apply_ite (Hw.engView · a), hset, hbump, hwin, hlogs, hend, ite_self]

/-- A warning of an axis touches the axis page only. -/
theorem Hw.warnAxis_engView (h : Hw) {a b : Nat} (hb : b < ra (pAX 0) 0) (i : Nat) :
    (h.warnAxis a i).engView b = h.engView b := by
  have hpage : ∀ off, b ≠ ra (pAX a) off := fun off => by
    simp only [ra, pAX] at hb ⊢
    omega
  rw [Hw.warnAxis, Hw.evt_engView _ (hpage _) (hpage _)]
  exact h.setReg_engView (hpage _) _

theorem Hw.hytFlt_engView (h : Hw) {e a : Nat} (ha : offFault (pHYT e) a) (hax : a < ra (pAX 0) 0) (code : Nat) :
    (h.hytFlt e code).engView a = h.engView a := by
  have hev := h.fltEvent_engView ha 10 code e h.grain
  unfold Hw.hytFlt
  dsimp only
  split
  · exact (Hw.each_keeps (Hw.engView · a) (fun h x => h.warnAxis_engView (a := x) hax 1) _ _).trans hev
  · exact hev

theorem offFault_hy (e : Fin 16) {off : Nat} (ho : off < 0x1000) (hc : off ≠ rFLT_CNT) :
    offFault (pHYT e) (hy e off) := by
  refine ⟨not_inLog_page ?_ ho, fun h => hc (by simpa [hy, ra] using h)⟩
  unfold pHYT pFLT
  omega

theorem hy_lt_axes (e : Fin 16) {off : Nat} (ho : off < 0x1000) : hy e off < ra (pAX 0) 0 := by
  simp only [hy, ra, pHYT, pAX]
  omega

/-- An overrun is flagged in the engine's page and leaves its pending bits. -/
theorem Hw.overrun_shows (h : Hw) (e : Fin 16) (i : Fin 32) : (h.overrun e i).bit (hy e 0x06C) i = true ∧
    (h.overrun e i).bit (hy e rEVT) 5 = true := by
  unfold Hw.overrun
  generalize (h.upHyt e fun x => { x with lost := tabSet 0 i (tabGet 0 i x.lost + 1) x.lost }) = k
  have hflt : ∀ (h : Hw) off, off < 0x1000 → off ≠ rFLT_CNT → ∀ b,
      (h.hytFlt e 5).bit (hy e off) b = h.bit (hy e off) b :=
    fun h off ho hc b => Hw.bit_of_engView (h.hytFlt_engView (offFault_hy e ho hc) (hy_lt_axes e ho) 5) b
  rw [hflt _ _ (by decide) (by decide), hflt _ _ (by decide) (by decide)]
  refine ⟨?_, Hw.bit_evt _ _ (by decide)⟩
  have hev : ((k.w1cSet (hy e 0x06C) i).evt (pHYT e) 5).reg (hy e 0x06C) = (k.w1cSet (hy e 0x06C) i).reg (hy e 0x06C) :=
    Hw.reg_evt_ne _ (ra_ne_off (by decide) (by decide) (by decide)) (ra_ne_off (by decide) (by decide) (by decide)) _
  refine (congrArg (bitOf · i) hev).trans ?_
  exact Hw.bit_setBit_same k (hy e 0x06C) i.isLt true

/-! ### Doorbells (R167) -/

theorem Hw.hyt_doorbells (h : Hw) (e : Nat) (l : List Nat) (hl : ∀ d ∈ l, d < 16) :
    ((h.each l fun h d => h.epSet e (48 + d)).hyt e).pc = (h.hyt e).pc ∧ ∀ k < 64,
      ((h.each l fun h d => h.epSet e (48 + d)).hyt e).epend.getLsbD k =
        ((h.hyt e).epend.getLsbD k || l.any (48 + · == k)) := by
  induction l generalizing h with
  | nil => exact ⟨rfl, fun k _ => (Bool.or_false _).symm⟩
  | cons d l ih =>
    obtain ⟨hpc, hbits⟩ := ih (h.epSet e (48 + d)) fun x hx => hl x (List.mem_cons_of_mem d hx)
    refine ⟨hpc.trans (h.pc_epSet e _), fun k hk => (hbits k hk).trans ?_⟩
    have hd := hl d List.mem_cons_self
    rw [h.epend_epSet, List.any_cons, BitVec.getLsbD_or, BitVec.getLsbD_ofNat, Nat.testBit_two_pow, Bool.or_assoc]
    simp only [hk, decide_true, Bool.true_and]
    rfl

/-- A doorbell sets EPEND bits 63:48 by the bits of its value. -/
theorem Hw.doorbell_shows (h : Hw) (e : Nat) (v : BitVec 16) : ((h.doorbell e v).hyt e).pc = (h.hyt e).pc ∧
    ((h.doorbell e v).hyt e).epend = (h.hyt e).epend ||| (v.setWidth 64 <<< 48) := by
  obtain ⟨hpc, hbits⟩ := h.hyt_doorbells e ((List.range 16).filter v.getLsbD) fun d hd =>
    List.mem_range.mp (List.mem_filter.mp hd).1
  refine ⟨hpc, BitVec.eq_of_getLsbD_eq fun k hk => (hbits k hk).trans ?_⟩
  rw [BitVec.getLsbD_or, BitVec.getLsbD_shiftLeft, BitVec.getLsbD_setWidth]
  congr 1
  rw [Bool.eq_iff_iff]
  simp only [List.any_filter, List.any_eq_true, List.mem_range, Bool.and_eq_true, beq_iff_eq, decide_eq_true_eq,
    Bool.not_eq_true', decide_eq_false_iff_not]
  constructor
  · rintro ⟨d, hd, hv, rfl⟩
    exact ⟨⟨hk, by omega⟩, by omega, by rwa [Nat.add_sub_cancel_left]⟩
  · rintro ⟨⟨-, h48⟩, -, hv⟩
    exact ⟨k - 48, by omega, hv, by omega⟩

/-! ### The leg-port queue (R166) -/

theorem Hw.makePending_hyts (h : Hw) (p : Nat) : (h.makePending p).hyts = h.hyts := by
  unfold Hw.makePending
  dsimp only
  split <;> rfl

/-- A GO of a page leaves PENDING of every page set. -/
theorem Hw.makePending_pending (h : Hw) (p q : Nat) (hp : h.pending p = true) : (h.makePending q).pending p = true := by
  obtain ⟨hq, -, hother⟩ := h.makePending_shows q
  by_cases e : ra p rCOMMIT = ra q rCOMMIT
  · exact (congrArg (fun a => (h.makePending q).bit a 16) e).trans hq
  · exact (congrArg (bitOf · 16) (hother _ e)).trans hp

theorem Hw.each_makePending_pending (h : Hw) (p : Nat) (l : List Nat) (hp : h.pending p = true) :
    (h.each l fun h n => h.makePending (pLEG n)).pending p = true := by
  induction l generalizing h with
  | nil => exact hp
  | cons n l ih => exact ih _ (h.makePending_pending p (pLEG n) hp)

/-- A group commit moves no engine, and where every set of the group passes its check the unit's commit is pending. -/
theorem Hw.carGo_shows (h : Hw) (c : Nat) : (h.carGo c).hyts = h.hyts ∧
    ((h.carSetOk c && (h.axisLegs c).all fun n => legSetOk n h.shd) = true → (h.carGo c).pending (pCAR c) = true) := by
  have hmake : ∀ (l : List Nat) (h : Hw), (h.each l fun h n => h.makePending (pLEG n)).hyts = h.hyts :=
    fun l h => Hw.each_keeps (·.hyts) (fun h n => h.makePending_hyts (pLEG n)) l h
  have hrefuse : ∀ (l : List Nat) (h : Hw), (h.each l fun h n => h.refuseCommit (pLEG n)).hyts = h.hyts :=
    fun l h => Hw.each_keeps (f := fun h n => h.refuseCommit (pLEG n)) (·.hyts) (fun _ _ => rfl) l h
  have hevt : ∀ (l : List Nat) (h : Hw), (h.each l fun h n => h.evt (pLEG n) 0).hyts = h.hyts :=
    fun l h => Hw.each_keeps (·.hyts) (fun h n => h.evt_hyts (pLEG n) 0) l h
  rw [Bool.and_eq_true, List.all_eq_true]
  have hall : ((h.axisLegs c).filter fun n => !legSetOk n h.shd).isEmpty = true ↔
      ∀ n ∈ h.axisLegs c, legSetOk n h.shd = true := by
    rw [List.isEmpty_iff, List.filter_eq_nil_iff]
    simp
  unfold Hw.carGo
  extract_lets legs bad ok changes grp old k whole r k' r'
  clear_value changes grp old whole
  constructor
  · split
    · exact (hmake legs _).trans (h.makePending_hyts _)
    · refine (hevt bad _).trans ((hrefuse legs _).trans ?_)
      exact Hw.evt_hyts _ _ _
  · rintro ⟨hcar, hlegs⟩
    rw [if_pos (by rw [Bool.and_eq_true]; exact ⟨hcar, hall.mpr hlegs⟩)]
    exact Hw.each_makePending_pending _ _ legs (h.makePending_shows (pCAR c)).1

/-- An engine whose front entry, a commit of a unit, has left the queue: the grain is noted for the watchdog. -/
def HytS.landed (x : HytS) (rest : List PortEnt) (unit g : Nat) : HytS :=
  { x with port := rest, commitAt := tabSet 0 unit g x.commitAt }

theorem Hw.portCommit_due {h : Hw} {e : Nat} {en : PortEnt} {rest : List PortEnt} (hq : (h.hyt e).port = en :: rest)
    (hc : en.commit = true) (hd : h.portDue en = true) :
    h.portCommit e = (h.setHyt e ((h.hyt e).landed rest en.unit h.grain)).carGo en.unit := by
  simp only [Hw.portCommit, hq, hc, hd, Bool.not_true, Bool.or_self, Bool.false_eq_true, if_false]
  rfl

/-! ### Writes of the engine pages (R52, R163, R165, R167) -/

/-- Bringing CFG_HASH up to date moves that register alone, and no memory. -/
theorem Hw.cfgSettle_shows (h : Hw) (m : Mem) : (h.cfgSettle m).wbuf = h.wbuf ∧ (h.cfgSettle m).rst = h.rst ∧
    ∀ a, a ≠ ra pPAIR 0x064 → (h.cfgSettle m).reg a = h.reg a := by
  unfold Hw.cfgSettle
  split
  · exact ⟨rfl, rfl, fun a ha => Hw.reg_setReg_ne _ ha _⟩
  · exact ⟨rfl, rfl, fun _ _ => rfl⟩

/-- The registers of the engines, the carrier units and the legs are those of h. -/
def UnitsAs (k h : Hw) : Prop := ∀ a, 0x20000 ≤ a → k.reg a = h.reg a

theorem UnitsAs.hytRuns {k h : Hw} (hk : UnitsAs k h) (e : Nat) : k.hytRuns e = h.hytRuns e :=
  congrArg (bitOf · 0) (hk _ (by unfold hy ra pHYT; omega))

theorem UnitsAs.hy {k h : Hw} (hk : UnitsAs k h) (e off : Nat) : k.reg (hy e off) = h.reg (hy e off) :=
  hk _ (by unfold Machine.hy ra pHYT; omega)

theorem UnitsAs.axisLegs {k h : Hw} (hk : UnitsAs k h) (a : Nat) : k.axisLegs a = h.axisLegs a :=
  congrArg (fun w => legsOf (bridgesOf w)) (hk _ (by unfold cr ra pCAR; omega))

theorem UnitsAs.legEnabled {k h : Hw} (hk : UnitsAs k h) : k.legEnabled = h.legEnabled :=
  funext fun n => congrArg (bitOf · 0) (hk _ (by unfold lg ra pLEG; omega))

/-- A change of AXES is kept back: an axis that leaves or joins has an enabled leg, or another engine owns it. -/
def Hw.axesBusy (h : Hw) (e : Nat) (v : Word) : Bool :=
  (bridgesOf (h.reg (Machine.hy e 0x04C) ||| v)).any (fun a => (h.axisLegs a).any h.legEnabled) ||
    (List.range 16).any fun o => o != e && (h.reg (Machine.hy o 0x04C) &&& v &&& ~~~(h.reg (Machine.hy e 0x04C))) != 0

theorem UnitsAs.axesBusy {k h : Hw} (hk : UnitsAs k h) (e : Nat) (v : Word) : k.axesBusy e v = h.axesBusy e v := by
  simp only [Hw.axesBusy, hk.hy, hk.axisLegs, hk.legEnabled]

theorem Hw.hytAxesWrite_eq (h : Hw) (e : Nat) (v : Word) : h.hytAxesWrite e v =
    if h.hytRuns e || h.axesBusy e v then h.evt (pHYT e) 0 else h.setReg (Machine.hy e 0x04C) v := by
  rw [Hw.axesBusy, ← Bool.or_assoc]
  rfl

/-- A write that is refused sets CFG_REFUSED and leaves the register. -/
theorem Hw.refusal_shows (h : Hw) (e : Nat) {off : Nat} (ho : off < 0x1000) (h1 : off ≠ rEVT) (h2 : off ≠ rEVT_TS) :
    (h.evt (pHYT e) 0).reg (Machine.hy e off) = h.reg (Machine.hy e off) ∧
      (h.evt (pHYT e) 0).bit (Machine.hy e rEVT) 0 = true :=
  ⟨Hw.reg_evt_ne _ (ra_ne_off ho (by decide) h1) (ra_ne_off ho (by decide) h2) _, Hw.bit_evt _ _ (by decide)⟩

/-- A write of a page of an engine, before which CFG_HASH is brought up to date. -/
theorem Hw.settledWrite_unlocked (h : Hw) (m : Mem) (e : Fin 16) (off : Nat) (f : Hw → Hw)
    (hu : h.bit (ra (pHYT e) rLOCK) 0 = false) :
    ∃ k, UnitsAs k h ∧ (h.cfgSettle m).swWrite (pHYT e) off f = f k := by
  obtain ⟨-, -, hreg⟩ := h.cfgSettle_shows m
  have hp : pHYT e ≠ pFLT := by
    unfold pHYT pFLT
    omega
  have hlock : (h.cfgSettle m).bit (ra (pHYT e) rLOCK) 0 = false :=
    (congrArg (bitOf · 0) (hreg _ (by unfold ra pHYT pPAIR; omega))).trans hu
  obtain ⟨k, hk, hf⟩ := (h.cfgSettle m).swWrite_unlocked off f hp hlock
  refine ⟨k.atWrite, fun a ha => (hk.reg (not_inLog_of_ge (by omega))).trans (hreg a ?_), hf⟩
  unfold ra pPAIR
  omega

end Sys2Proof.Machine

namespace Sys2Proof
open Machine

/-- A write of a page of an engine: the operation runs on the units' registers as they stand. -/
theorem gives_engineWrite {s : State} {g : Nat} {e : Fin 16} {off : Nat} {f : Hw → Hw} {P : State → Prop} (hl : Live s)
    (hu : Unlocked s (pHYT e)) (hP : ∀ k, UnitsAs k s.hw →
      P { s with hw := (f k).seal (max s.hw.grain g), mem := s.mem.after (f k) }) :
    ∃ t, run g (fun m h => (h.cfgSettle m).swWrite (pHYT e) off f) s = .next t ∧ P t := by
  obtain ⟨k, hk, hf⟩ := (s.hw.at g).settledWrite_unlocked s.mem e off f hu
  exact gives_run_eq (f := fun m h => (h.cfgSettle m).swWrite (pHYT e) off f) hl hf (hP k hk)

/-- An arrival of a slot (R163, R164): none, the first and one too many. -/
theorem arrival_unmapped {s : State} (g : Nat) (e : Fin 16) (i : Fin 32) (hl : Live s)
    (hk : s.hw.f (hy e (0x080 + 4 * i)) 26 24 = 0) : Gives (.signalArrival g e i) s fun t =>
      t.hw.hyt e = s.hw.hyt e ∧ t.hw.regs = s.hw.regs ∧ (s.hw.rst = 0 → s.hw.wbuf = [] → t.mem = s.mem) :=
  gives_run_eq (f := fun m h => h.signalArrival m e i) hl (Hw.signalArrival_unmapped (h := s.hw.at g) hk s.mem)
    ⟨rfl, rfl, fun hr hw => after_of_no_write (x := s.hw.at g) hr hw⟩

theorem arrival_first {s : State} (g : Nat) (e : Fin 16) (i : Fin 32) (j : Fin 8) (hl : Live s) (hs : Settled s)
    (h1 : 1 ≤ s.hw.f (hy e (0x080 + 4 * i)) 26 24) (h4 : s.hw.f (hy e (0x080 + 4 * i)) 26 24 ≤ 4)
    (hp : (s.hw.hyt e).epend.getLsbD i = false) : Gives (.signalArrival g e i) s fun t =>
      let w := s.hw.sinRecord s.mem (s.hw.f (hy e (0x080 + 4 * i)) 26 24) (s.hw.f (hy e (0x080 + 4 * i)) 7 0)
      w.length = 8 ∧ (t.hw.hyt e).epend = (s.hw.hyt e).epend ||| BitVec.ofNat 64 (2 ^ i.val)
      ∧ t.hw.rd32 t.mem (dmAddr e (0x3F00 + 8 * i + j)) = w.getD j 0 ∧ t.hw.regs = s.hw.regs := by
  have hlen := s.hw.sinRecord_length s.mem (s.hw.f (hy e (0x080 + 4 * i)) 7 0) h1 h4
  obtain ⟨hregs, hpend, hrst⟩ := (s.hw.at g).arrived_shows s.mem e i
  have hword := (s.hw.at g).rd32_arrived s.mem e i i.isLt (lt_of_lt_of_eq j.isLt hlen.symm) hlen rfl
  have hmap := Hw.signalArrival_mapped (h := s.hw.at g) (Nat.one_le_iff_ne_zero.mp h1) s.mem
  have hclear : ((s.hw.at g).hyt e).epend.getLsbD i = false := hp
  rw [hclear, if_neg (by decide)] at hmap
  refine gives_run_eq (f := fun m h => h.signalArrival m e i) hl hmap ⟨hlen, ?_, ?_, hregs⟩
  · exact (Hw.epend_epSet _ e i).trans (congrArg (· ||| _) hpend)
  · exact (Hw.rd32_seal (hrst.trans hs.2) s.mem (max s.hw.grain g) _).trans hword

theorem arrival_again {s : State} (g : Nat) (e : Fin 16) (i : Fin 32) (hl : Live s)
    (hk : s.hw.f (hy e (0x080 + 4 * i)) 26 24 ≠ 0) (hp : (s.hw.hyt e).epend.getLsbD i = true) :
    Gives (.signalArrival g e i) s fun t => (t.hw.hyt e).epend.getLsbD i = true
      ∧ t.hw.bit (hy e 0x06C) i = true ∧ t.hw.bit (hy e rEVT) 5 = true := by
  have hmap := Hw.signalArrival_mapped (h := s.hw.at g) hk s.mem
  have hset : ((s.hw.at g).hyt e).epend.getLsbD i = true := hp
  rw [hset, if_pos rfl] at hmap
  obtain ⟨hslot, hevt⟩ := ((s.hw.at g).arrived s.mem e i).overrun_shows e i
  generalize ((s.hw.at g).arrived s.mem e i).overrun e i = k at hmap hslot hevt
  refine gives_run_eq (f := fun m h => h.signalArrival m e i) hl hmap ⟨?_, hslot, hevt⟩
  refine (congrArg (BitVec.getLsbD · i) (Hw.epend_epSet _ e i)).trans ?_
  rw [BitVec.getLsbD_or, BitVec.getLsbD_ofNat, Nat.testBit_two_pow_self]
  simp [show i.val < 64 by omega]

/-- The timer of an engine (R151). -/
theorem timer_expires {s : State} (g : Nat) (e : Fin 16) (hl : Live s) (h0 : (s.hw.hyt e).tmr ≠ 0)
    (hd : (s.hw.hyt e).tmr ≤ 2 * (max s.hw.grain g - (s.hw.hyt e).tmrAt)) : Gives (.engineTimerExpiry g e) s fun t =>
      (t.hw.hyt e).tmr = 0 ∧ (t.hw.hyt e).epend = (s.hw.hyt e).epend ||| BitVec.ofNat 64 (2 ^ 47)
      ∧ t.hw.regs = s.hw.regs := by
  have hnow : ((s.hw.at g).hyt e).tmr ≠ 0 ∧ ((s.hw.at g).hyt e).tmrNow (s.hw.at g).grain = 0 :=
    ⟨h0, Nat.sub_eq_zero_of_le hd⟩
  refine gives_run_eq (f := fun _ h => h.timerExpiry e) hl (if_pos hnow) ⟨?_, ?_, rfl⟩
  · refine (congrArg (·.tmr) (Hw.hyt_setHyt_same _ e _)).trans ?_
    exact congrArg (·.tmr) (Hw.hyt_setHyt_same _ e _)
  · refine (Hw.epend_epSet _ e 47).trans (congrArg (· ||| BitVec.ofNat 64 (2 ^ 47)) ?_)
    exact congrArg (·.epend) (Hw.hyt_setHyt_same _ e _)

theorem timer_runs {s : State} (g : Nat) (e : Fin 16) (hl : Live s)
    (hd : (s.hw.hyt e).tmr = 0 ∨ 2 * (max s.hw.grain g - (s.hw.hyt e).tmrAt) < (s.hw.hyt e).tmr) :
    Gives (.engineTimerExpiry g e) s fun t => t.hw.hyt e = s.hw.hyt e ∧ t.hw.regs = s.hw.regs := by
  have hnow : ¬ (((s.hw.at g).hyt e).tmr ≠ 0 ∧ ((s.hw.at g).hyt e).tmrNow (s.hw.at g).grain = 0) := fun ⟨h0, hn⟩ => by
    have hle : (s.hw.hyt e).tmr ≤ 2 * (max s.hw.grain g - (s.hw.hyt e).tmrAt) := Nat.sub_eq_zero_iff_le.mp hn
    exact hd.elim h0 fun hlt => absurd hle (Nat.not_le.mpr hlt)
  exact gives_run_eq (f := fun _ h => h.timerExpiry e) hl (if_neg hnow) ⟨rfl, rfl⟩

/-- A doorbell (R167): its record in the log moves no engine. -/
theorem doorbell_rings {s : State} (g : Nat) (e : Fin 16) (v : BitVec 16) (hl : Live s) (hu : Unlocked s (pHYT e)) :
    Gives (.doorbell g e v) s fun t => (t.hw.hyt e).epend = (s.hw.hyt e).epend ||| (v.setWidth 64 <<< 48)
      ∧ (t.hw.hyt e).pc = (s.hw.hyt e).pc := by
  have hp : pHYT e ≠ pFLT := by
    unfold pHYT pFLT
    omega
  refine gives_write (f := fun _ h => h.doorbell e v) hl hp hu fun k hk => ?_
  obtain ⟨hpc, hpend⟩ := k.atWrite.doorbell_shows e v
  have hhyt : k.atWrite.hyt e = s.hw.hyt e := congrArg (tabGet ({} : HytS) (e : Nat)) hk.hyts
  rw [hhyt] at hpc hpend
  exact ⟨hpend, hpc⟩

/-- The front entry of the leg-port queue lands when due (R166). -/
theorem portWrite_lands {s : State} (g : Nat) (e : Fin 16) {en : PortEnt} {rest : List PortEnt} (hl : Live s)
    (hq : (s.hw.hyt e).port = en :: rest) (hc : en.commit = false) (hd : (en.left + 3) / 5 ≤ max s.hw.grain g / 5) :
    Gives (.portWriteApply g e) s fun t => (t.hw.hyt e).port = rest
      ∧ t.hw.shd (lg en.unit (if en.fall then 0x044 else 0x040)) = BitVec.ofNat 32 en.v ∧ t.hw.regs = s.hw.regs := by
  have hport : ((s.hw.at g).hyt e).port = en :: rest := hq
  have hdue : (s.hw.at g).portDue en = true := decide_eq_true hd
  refine gives_run (f := fun _ h => h.portWrite e) hl ?_
  unfold afterRun Hw.portWrite
  dsimp only
  rw [hport]
  dsimp only
  rw [hc, hdue]
  exact ⟨congrArg (·.port) (Hw.hyt_setHyt_same _ e _), Hw.shd_setShd_same _ _ _, rfl⟩

theorem portCommit_lands {s : State} (g : Nat) (e : Fin 16) {en : PortEnt} {rest : List PortEnt} (hl : Live s)
    (hq : (s.hw.hyt e).port = en :: rest) (hc : en.commit = true) (hd : (en.left + 3) / 5 ≤ max s.hw.grain g / 5) :
    Gives (.portCommitApply g e) s fun t => (t.hw.hyt e).port = rest
      ∧ tabGet 0 en.unit (t.hw.hyt e).commitAt = max s.hw.grain g
      ∧ ((s.hw.carSetOk en.unit && (s.hw.axisLegs en.unit).all fun n => legSetOk n s.hw.shd) = true →
        t.hw.pending (pCAR en.unit) = true) := by
  obtain ⟨hhyts, hpend⟩ :=
    ((s.hw.at g).setHyt e (((s.hw.at g).hyt e).landed rest en.unit (s.hw.at g).grain)).carGo_shows en.unit
  have hhyt := (congrArg (tabGet ({} : HytS) (e : Nat)) hhyts).trans (Hw.hyt_setHyt_same _ _ _)
  refine gives_run_eq (f := fun _ h => h.portCommit e) hl (Hw.portCommit_due (h := s.hw.at g) hq hc (decide_eq_true hd))
    ⟨congrArg (·.port) hhyt, ?_, hpend⟩
  exact (congrArg (fun x : HytS => tabGet 0 en.unit x.commitAt) hhyt).trans (tabGet_tabSet_same _ _ _ _)

/-- A write of program memory (R52): of a stopped engine it lands, of a running one it is flagged. -/
theorem pmWrite_lands {s : State} (g : Nat) (e : Fin 16) (i : BitVec 14) (v : Word) (b : Nat) (hl : Live s) (hs : Settled s)
    (hr : s.hw.hytRuns e = false) : Gives (.hytPmWrite g e i v) s fun t => t.hw.rd32 t.mem (pmAddr e i.toNat) = v
      ∧ (b / 4 = pmAddr e i.toNat / 4 ∨ memGet t.mem b = memGet s.mem b) := by
  obtain ⟨hbuf, hrst, hreg⟩ := (s.hw.at g).cfgSettle_shows s.mem
  have hruns : ((s.hw.at g).cfgSettle s.mem).hytRuns e = false :=
    (congrArg (bitOf · 0) (hreg _ (by unfold hy ra pHYT pPAIR rSTAT; omega))).trans hr
  have hw : ((s.hw.at g).cfgSettle s.mem).pmWrite e i.toNat v = ((s.hw.at g).cfgSettle s.mem).wr32 (pmAddr e i.toNat) v :=
    if_neg (by rw [hruns]; decide)
  obtain ⟨k, hk⟩ : ∃ k, (s.hw.at g).cfgSettle s.mem = k := ⟨_, rfl⟩
  rw [hk] at hbuf hrst
  rw [hk] at hw
  have hrst' : (k.wr32 (pmAddr e i.toNat) v).rst = 0 := (Hw.wrN_rst _ _ _).trans (hrst.trans hs.2)
  refine gives_run_eq (f := fun m h => (h.cfgSettle m).pmWrite e i.toNat v) hl 
    ((congrArg (fun k : Hw => k.pmWrite e i.toNat v) hk).trans hw) ⟨?_, ?_⟩
  · exact (Hw.rd32_seal hrst' s.mem _ _).trans (Hw.rd32_wr32_same k s.mem _ v)
  · refine or_iff_not_imp_left.mpr fun hb => ?_
    have hal : pmAddr e i.toNat % 4 = 0 := by
      unfold pmAddr
      omega
    refine (memGet_after hrst' b).trans ((Hw.rd8_wr32_ne k s.mem (by omega) v).trans ?_)
    rw [Hw.rd8, hbuf.trans hs.1]
    rfl

theorem pmWrite_ignored {s : State} (g : Nat) (e : Fin 16) (i : BitVec 14) (v : Word) (hl : Live s) (hs : Settled s)
    (hr : s.hw.hytRuns e = true) : Gives (.hytPmWrite g e i v) s fun t =>
      t.mem = s.mem ∧ t.hw.bit (hy e rEVT) 3 = true := by
  obtain ⟨hbuf, hrst, hreg⟩ := (s.hw.at g).cfgSettle_shows s.mem
  have hruns : ((s.hw.at g).cfgSettle s.mem).hytRuns e = true :=
    (congrArg (bitOf · 0) (hreg _ (by unfold hy ra pHYT pPAIR rSTAT; omega))).trans hr
  refine gives_run_eq (f := fun m h => (h.cfgSettle m).pmWrite e i.toNat v) hl (if_pos hruns)
    ⟨?_, Hw.bit_evt _ _ (by decide)⟩
  refine after_of_no_write ?_ ?_
  · rw [Hw.evt_rst]
    exact hrst.trans hs.2
  · rw [Hw.evt_wbuf]
    exact hbuf.trans hs.1

/-- A register write of an engine's page that its rule refuses. -/
theorem gives_refusal {s : State} {g : Nat} {e : Fin 16} {off off' : Nat} {f : Hw → Hw} (hl : Live s)
    (hu : Unlocked s (pHYT e)) (ho : off < 0x1000) (h1 : off ≠ rEVT) (h2 : off ≠ rEVT_TS)
    (hf : ∀ k, UnitsAs k s.hw → f k = k.evt (pHYT e) 0) :
    ∃ t, run g (fun m h => (h.cfgSettle m).swWrite (pHYT e) off' f) s = .next t ∧
      t.hw.reg (hy e off) = s.hw.reg (hy e off) ∧ t.hw.bit (hy e rEVT) 0 = true := by
  refine gives_engineWrite hl hu fun k hk => ?_
  rw [hf k hk]
  obtain ⟨hreg, hbit⟩ := k.refusal_shows e ho h1 h2
  exact ⟨hreg.trans (hk.hy e off), hbit⟩

/-- A register write of an engine's page that its rule takes. -/
theorem gives_taken {s : State} {g a : Nat} {e : Fin 16} {off' : Nat} {w : Word} {f : Hw → Hw} (hl : Live s)
    (hu : Unlocked s (pHYT e)) (hf : ∀ k, UnitsAs k s.hw → f k = k.setReg a w) :
    ∃ t, run g (fun m h => (h.cfgSettle m).swWrite (pHYT e) off' f) s = .next t ∧ t.hw.reg a = w := by
  refine gives_engineWrite hl hu fun k hk => ?_
  rw [hf k hk]
  exact Hw.reg_setReg_same k a w

/-- Settles O40: arrivals, the timer and the queue each by their own theorem; the writes of AXES, SIN_MAP and WSEL look
only at registers of the engines, the carrier units and the legs, which neither CFG_HASH nor the log moves. -/
theorem engineInputsAndWrites : Obligations.EngineInputsAndWrites := by
  intro s g e hl
  refine ⟨fun i hk => arrival_unmapped g e i hl hk, fun i j hs h1 h4 _ hp => arrival_first g e i j hl hs h1 h4 hp,
    fun i hk hp => arrival_again g e i hl hk hp, fun h0 hd => timer_expires g e hl h0 hd, fun hd => timer_runs g e hl hd,
    fun v hu => doorbell_rings g e v hl hu, fun en rest hq hc hd => portWrite_lands g e hl hq hc hd,
    fun en rest hq hc hd => portCommit_lands g e hl hq hc hd, fun i v b hs hr => pmWrite_lands g e i v b hl hs hr,
    fun i v hs hr => pmWrite_ignored g e i v hl hs hr, fun v hu hr hbusy hown => gives_taken hl hu fun k hk => ?_,
    fun v hu hr => gives_refusal hl hu (by decide) (by decide) (by decide) fun k hk => ?_,
    fun i v hu hok => gives_taken hl hu fun k _ => if_pos hok,
    fun i v hu hno => gives_refusal hl hu (by omega) (ne_of_gt ?_) (ne_of_gt ?_) fun k _ => if_neg (by rw [hno]; decide),
    fun j v hu hok => gives_taken hl hu fun k _ => if_pos hok,
    fun j v hu hno => gives_refusal hl hu (by omega) (ne_of_gt ?_) (ne_of_gt ?_) fun k _ => if_neg (by omega)⟩
  · have hfree : s.hw.axesBusy e v = false := by rw [Hw.axesBusy, hbusy, hown, Bool.or_self]
    rw [Hw.hytAxesWrite_eq, hk.hytRuns, hr, hk.axesBusy, hfree]
    rfl
  · rw [Hw.hytAxesWrite_eq, hk.hytRuns, hr, Bool.true_or, if_pos rfl]
  all_goals
    simp only [rEVT, rEVT_TS]
    omega

end Sys2Proof

namespace Sys2Proof
open Machine

/-- A module whose acquisition watches the levels of field group 0 (a channel of kind 9) and has assembled the sample of
the present grain, and to whose frame the group's field die has its reply ready. -/
def sampledEarly : State :=
  { hw := { regs := [(aq rCTRL, 1), (aq 0x044, 1), (aq 0x100, 0x09000000)], acq := { last := some (0, 0) },
            fields := [(0, { upDue := true, stale := false })] } }

/-- The upstream frame of field group 0, valid and with every level low, in grain 0. -/
def levelsFrame : Instr := .fieldUpstreamFrame 0 false true 0 0 false

/-- The module after the frame. -/
def sampledLate : State := afterRun sampledEarly 0 fun _ h => h.fieldUpstream (grpN false) true 0 0 false

theorem exec_levelsFrame : exec levelsFrame sampledEarly = .next sampledLate := rfl

/-- The frame's levels belong to a sample already assembled: LATE_CNT counts them (R347). -/
theorem sampledLate_counts : sampledLate.hw.reg (aq 0x078) = 1 := by decide +kernel

/-- Refutes O60: the levels a field frame brings may come too late for a sample of the acquisition, which counts them
in LATE_CNT, a register of its own page and not of the frame's (R347). -/
theorem not_commandFrames : ¬ Obligations.CommandFrames := by
  intro h
  obtain ⟨hreg, -⟩ := h levelsFrame sampledEarly sampledLate _ rfl ⟨rfl, rfl⟩ exec_levelsFrame ⟨rfl, by decide⟩
  have hkept := hreg (aq 0x078) (by decide)
  rw [sampledLate_counts] at hkept
  exact absurd hkept (by decide)

end Sys2Proof

namespace Sys2Proof.Machine

/-! ### Counted events of a leg (R81) -/

theorem Hw.leg_of_legs {h k : Hw} (e : k.legs = h.legs) (n : Nat) : k.leg n = h.leg n := congrArg (tabGet _ n) e

@[simp] theorem Hw.seal_leg (h : Hw) (g n : Nat) : (h.seal g).leg n = h.leg n := rfl

@[simp] theorem Hw.leg_setLeg_same (h : Hw) (n : Nat) (l : LegS) : (h.setLeg n l).leg n = l := tabGet_tabSet_same _ _ _ _

@[simp] theorem Hw.fltEvent_legs (h : Hw) (p rk cd i ts : Nat) : (h.fltEvent p rk cd i ts).1.legs = h.legs := by
  have hset : ∀ (h : Hw) a hi lo v, (h.setF a hi lo v).legs = h.legs := fun _ _ _ _ _ => rfl
  have hlog : ∀ (h : Hw) rk cd i ts fl, (h.log p rk cd i ts fl).legs = h.legs := fun h _ _ _ _ _ =>
    (h.log_logged _ _ _ _ _ _).legs
  have hend : ∀ h : Hw, (h.fltEnd p).legs = h.legs := fun _ => (Hw.logFull_logged _ _).legs
  unfold Hw.fltEvent
  dsimp only
  simp only [apply_ite Prod.fst, apply_ite Hw.legs, hset, Hw.bump_legs, Hw.setFwin_legs, hlog, hend, ite_self]

@[simp] theorem Hw.warnAxis_legs (h : Hw) (a i : Nat) : (h.warnAxis a i).legs = h.legs := Hw.evt_legs _ _ _

theorem Hw.legAxis_lt {h : Hw} {n a : Nat} (e : h.legAxis n = some a) : a < 32 :=
  List.mem_range.mp (List.mem_of_find?_eq_some (p := fun c => h.bit (cr c 0x044) (n / 3)) e)

@[simp] theorem Hw.legFlt_legs (h : Hw) (n code : Nat) : (h.legFlt n code).legs = h.legs := by
  unfold Hw.legFlt
  dsimp only
  split
  · split
    · rw [Hw.warnAxis_legs, Hw.fltEvent_legs]
    · exact Hw.fltEvent_legs _ _ _ _ _ _
  · exact Hw.fltEvent_legs _ _ _ _ _ _

/-- A warning of an axis leaves the registers of the legs. -/
theorem Hw.reg_warnAxis_lg (h : Hw) {a : Nat} (ha : a < 32) (i n off : Nat) :
    (h.warnAxis a i).reg (lg n off) = h.reg (lg n off) := by
  have hne : ∀ o < 0x1000, lg n off ≠ ra (pAX a) o := fun o ho => by
    unfold lg ra pLEG pAX
    omega
  rw [Hw.warnAxis, Hw.reg_evt_ne _ (hne _ (by decide)) (hne _ (by decide))]
  exact Hw.reg_setF_ne _ (hne _ (by decide)) _ _ _

/-- A counted event of a leg moves its FLT_CNT, and no other register of the leg. -/
theorem Hw.reg_legFlt (h : Hw) (n code : Nat) {off : Nat} (ho : off < 0x1000) (hc : off ≠ rFLT_CNT) :
    (h.legFlt n code).reg (lg n off) = h.reg (lg n off) := by
  have hoff : offFault (pLEG n) (lg n off) :=
    ⟨not_inLog_of_ge (by unfold lg ra pLEG; omega), ra_ne_off ho (by decide) hc⟩
  have hev : (h.fltEvent (pLEG n) 10 code n h.grain).1.reg (lg n off) = h.reg (lg n off) :=
    congrArg (·.1) (h.fltEvent_engView hoff 10 code n h.grain)
  unfold Hw.legFlt
  dsimp only
  split
  · split
    · next a e => exact (Hw.reg_warnAxis_lg _ (Hw.legAxis_lt e) 0 n off).trans hev
    · exact hev
  · exact hev

/-! ### A delivered edge and a dropped pair -/

@[simp] theorem LegS.deliver_running (l : LegS) (e : PlacedEdge) (level : Bool) (win : Nat) :
    (l.deliver e level win).running = l.running := by
  unfold LegS.deliver
  dsimp only
  split <;> rfl

/-- A notch noted for a handover changes nothing else of its leg. -/
theorem Hw.noteNotch_leg (h : Hw) (n : Nat) : ∃ N, (h.noteNotch n).leg n = { h.leg n with handNotch := N } := by
  unfold Hw.noteNotch
  dsimp only
  split
  · split
    · exact ⟨_, h.leg_setLeg_same n _⟩
    · exact ⟨_, rfl⟩
  · exact ⟨_, rfl⟩

/-- A placed edge e of leg n acts: it is delivered, and counted where it comes late or stretched (R74, R75). -/
def Hw.actEdge (h : Hw) (n : Nat) (rise : Bool) (e : PlacedEdge) : Hw :=
  let h := (h.setLeg n ((h.leg n).deliver e rise (h.bridge (n / 3)).win)).noteNotch n
  let h := h.when e.late fun h => (h.evt (pLEG n) 4).legFlt n 4
  h.when e.stretched fun h => ((h.bump (lg n 0x05C) 31 16).evt (pLEG n) 3).legFlt n 3

theorem Hw.when_legs {f : Hw → Hw} (hf : ∀ h, (f h).legs = h.legs) (c : Bool) (h : Hw) : (h.when c f).legs = h.legs := by
  unfold Hw.when
  split
  · exact hf h
  · rfl

/-- An edge that acts gives PUL its level, in the window in force, on a leg that runs on. -/
theorem Hw.actEdge_shows (h : Hw) (n : Nat) (rise : Bool) (e : PlacedEdge) : ((h.actEdge n rise e).leg n).pul = rise ∧
    ((h.actEdge n rise e).leg n).edgeWin = (h.bridge (n / 3)).win ∧
      ((h.actEdge n rise e).leg n).running = (h.leg n).running := by
  obtain ⟨N, hnote⟩ := (h.setLeg n ((h.leg n).deliver e rise (h.bridge (n / 3)).win)).noteNotch_leg n
  have hleg : (h.actEdge n rise e).leg n =
      { (h.leg n).deliver e rise (h.bridge (n / 3)).win with handNotch := N } := by
    rw [Hw.leg_setLeg_same] at hnote
    rw [← hnote]
    refine Hw.leg_of_legs ((Hw.when_legs (fun h => ?_) _ _).trans (Hw.when_legs (fun h => ?_) _ _)) n
    · rw [Hw.legFlt_legs, Hw.evt_legs, Hw.bump_legs]
    · rw [Hw.legFlt_legs, Hw.evt_legs]
  rw [hleg]
  exact ⟨rfl, rfl, (h.leg n).deliver_running e rise (h.bridge (n / 3)).win⟩

/-- A drop leaves PUL, counts one and sets PULSE_DROPPED. -/
theorem Hw.dropPulse_shows (h : Hw) (n win : Nat) : ((h.dropPulse n win).leg n).pul = (h.leg n).pul ∧
    (h.dropPulse n win).f (lg n 0x05C) 15 0 = min (h.f (lg n 0x05C) 15 0 + 1) 0xFFFF ∧
      (h.dropPulse n win).bit (lg n rEVT) 2 = true := by
  have hlegs : (h.dropPulse n win).legs = (h.setLeg n { h.leg n with dropPair := some win }).legs := by
    rw [Hw.dropPulse, Hw.legFlt_legs, Hw.evt_legs, Hw.bump_legs]
  refine ⟨?_, ?_, ?_⟩
  · rw [Hw.leg_of_legs hlegs, Hw.leg_setLeg_same]
  · have hne : lg n 0x05C ≠ ra (pLEG n) rEVT ∧ lg n 0x05C ≠ ra (pLEG n) rEVT_TS :=
      ⟨ra_ne_off (by decide) (by decide) (by decide), ra_ne_off (by decide) (by decide) (by decide)⟩
    rw [Hw.f, Hw.dropPulse, Hw.reg_legFlt _ _ _ (by decide) (by decide), Hw.reg_evt_ne _ hne.1 hne.2]
    exact Hw.f_bump_same _ _ (by decide) (by decide)
  · rw [Hw.bit, Hw.dropPulse, Hw.reg_legFlt _ _ _ (by decide) (by decide)]
    exact Hw.bit_evt _ _ (by decide)

/-! ### The fate of two compares (R72, R75) -/

theorem pairFate_inside (r q i j m : Nat) : pairFate (.inside r) (.inside q) i j m =
    if r = q then .drop else if r < q ∧ q - r < m then .drop else .act := rfl

/-- A compare in the window acts where its partner lies beyond it, earlier, or MIN_PULSE or more later. -/
theorem pairFate_acts {o : EdgePlace} {r q i j m : Nat}
    (ho : o = .beyond ∨ (o = .inside q ∧ (q < r ∨ (r < q ∧ r + m ≤ q)))) : pairFate (.inside r) o i j m = .act := by
  rcases ho with rfl | ⟨rfl, hq⟩
  · rfl
  · rw [pairFate_inside, if_neg (by omega), if_neg (by omega)]

/-- Two compares in the window at one place, or less than MIN_PULSE apart, are dropped. -/
theorem pairFate_drops {r q m : Nat} (hq : r = q ∨ (r < q ∧ q < r + m)) (i j : Nat) :
    pairFate (.inside r) (.inside q) i j m = .drop := by
  rw [pairFate_inside]
  rcases hq with rfl | hq
  · exact if_pos rfl
  · rw [if_neg (by omega), if_pos (by omega)]

/-- Of two compares before the window the one of the later position acts and the other does not. -/
theorem pairFate_before {i j : Nat} (hij : i ≠ j) (m : Nat) :
    pairFate .before .before i j m = if i < j then .superseded else .act := if_neg hij

/-! ### A compare reached (R70 to R72) -/

theorem Hw.cmpPlace_beyond {h : Hw} {c n : Nat} {rise : Bool} (hp : 32 * h.period c ≤ h.cmpPos n rise) :
    h.cmpPlace c n rise = .beyond := if_pos hp

/-- The fate of the compare that leg n reaches, by its place and its partner's. -/
def Hw.edgeFate (h : Hw) (c n : Nat) (rise : Bool) : PairFate :=
  pairFate (h.cmpPlace c n rise) (h.cmpPlace c n (!rise)) (h.cmpPos n rise) (h.cmpPos n (!rise)) (h.f (lg n 0x050) 15 0)

theorem Hw.edgeFate_of_places {h : Hw} {c n : Nat} {rise : Bool} {mine other : EdgePlace}
    (hm : h.cmpPlace c n rise = mine) (ho : h.cmpPlace c n (!rise) = other) : h.edgeFate c n rise =
      pairFate mine other (h.cmpPos n rise) (h.cmpPos n (!rise)) (h.f (lg n 0x050) 15 0) := by
  rw [Hw.edgeFate, hm, ho]

/-- Whether the compare of leg n is met in the grain of its place in the window. -/
def Hw.edgeOnCount (h : Hw) (c n : Nat) (rise : Bool) : Bool :=
  h.carCount c h.grain == h.carPos c (n / 3) (h.cmpPos n rise) / 32 && !(h.cmpPlace c n rise == .before)

/-- The instant at which the compare of leg n acts. -/
def Hw.edgeTime (h : Hw) (c n : Nat) (rise : Bool) : Nat :=
  if h.cmpPlace c n rise == .before then (h.bridge (n / 3)).start
  else if h.edgeOnCount c n rise then 32 * h.grain + h.carPos c (n / 3) (h.cmpPos n rise) % 32 else 32 * h.grain

/-- The edge of leg n as the compare at place rel puts it. -/
def Hw.edgePlaced (h : Hw) (c n : Nat) (rise : Bool) (rel : Nat) : PlacedEdge :=
  h.countFall c (placeEdge (h.edgeTime c n rise) rel (h.bridge (n / 3)).start (h.minAt n) (h.preOf n rise)
    (h.postOf n rise) (h.cmpPlace c n rise == .before || !h.edgeOnCount c n rise))

/-- What the fate of the compare of leg n at place rel does. -/
def Hw.fateDone (h : Hw) (c n : Nat) (rise : Bool) (rel : Nat) : Hw :=
  match h.edgeFate c n rise with
  | .superseded => h
  | .drop => h.dropPulse n (h.bridge (n / 3)).win
  | .act => h.actEdge n rise (h.edgePlaced c n rise rel)

theorem Hw.edgeTime_ge (h : Hw) (c n : Nat) (rise : Bool) :
    min (h.bridge (n / 3)).start (32 * h.grain) ≤ h.edgeTime c n rise := by
  unfold Hw.edgeTime
  split
  · exact min_le_left _ _
  · split <;> omega

/-- A compare with no place in the window or before it does nothing. -/
theorem Hw.pulEdge_unplaced {h : Hw} {c n : Nat} {rise : Bool} (ha : h.legAxis n = some c)
    (hrel : (h.cmpPlace c n rise).rel? = none) : h.pulEdge n rise = h := by
  unfold Hw.pulEdge
  simp only [ha, hrel]

/-- A compare at or beyond 32P never fires. -/
theorem Hw.pulEdge_beyond {h : Hw} {c n : Nat} {rise : Bool} (ha : h.legAxis n = some c)
    (hp : 32 * h.period c ≤ h.cmpPos n rise) : h.pulEdge n rise = h :=
  Hw.pulEdge_unplaced ha (congrArg EdgePlace.rel? (Hw.cmpPlace_beyond hp))

/-- What keeps a compare in the window or before it from its fate: no edges on the leg, a dropped partner, the low time of
a refresh, PUL's own level, and a refresh that a fall joins. -/
theorem Hw.pulEdge_placed {h : Hw} {c n rel : Nat} {rise : Bool} (ha : h.legAxis n = some c)
    (hrel : (h.cmpPlace c n rise).rel? = some rel) : h.pulEdge n rise =
      if !(h.leg n).running || h.forced n || h.period c == 0 then h
      else if (h.leg n).dropPair = some (h.bridge (n / 3)).win then h.setLeg n { h.leg n with dropPair := none }
      else if decide ((h.leg n).refFall ≤ h.edgeTime c n rise) && decide (h.edgeTime c n rise < (h.leg n).refRise) then h
      else if (h.leg n).pul = rise then h
      else if !rise && h.cmpPos n rise == 0 && h.refreshDue n (h.edgeTime c n rise) then
        h.refresh n (h.edgeTime c n rise)
      else h.fateDone c n rise rel := by
  unfold Hw.pulEdge
  simp only [ha, hrel]
  rfl

/-- Without HS_MAX_ON no refresh is due. -/
theorem Hw.refreshDue_off {h : Hw} {n : Nat} (h0 : h.f (lg n 0x054) 27 0 = 0) (t : Nat) : h.refreshDue n t = false := by
  simp [Hw.refreshDue, Hw.onTooLong, h0]

/-- Leg n, of carrier unit c, delivers edges: it is out of the safe state, under no force, its period is valid, and the
window's remaining edge is not the second of a dropped pair. -/
structure Hw.EdgesRun (h : Hw) (c n : Nat) : Prop where
  axis : h.legAxis n = some c
  running : (h.leg n).running = true
  free : h.forced n = false
  period : h.period c ≠ 0
  pair : (h.leg n).dropPair ≠ some (h.bridge (n / 3)).win

/-- No refresh is in the way of the compare of leg n: the last has ended, and the compare is no fall at position 0 that
one may join (R79). -/
structure Hw.Unrefreshed (h : Hw) (n : Nat) (rise : Bool) : Prop where
  ended : (h.leg n).refRise ≤ min (h.bridge (n / 3)).start (32 * h.grain)
  apart : rise = true ∨ h.cmpPos n rise ≠ 0 ∨ h.f (lg n 0x054) 27 0 = 0

section
variable {h : Hw} {c n : Nat} {rise : Bool}

theorem Hw.EdgesRun.delivers (hr : h.EdgesRun c n) : (!(h.leg n).running || h.forced n || h.period c == 0) = false := by
  simp [hr.running, hr.free, hr.period]

/-- The compare acts after the low time of the last refresh. -/
theorem Hw.Unrefreshed.after (hu : h.Unrefreshed n rise) (c : Nat) :
    ¬ h.edgeTime c n rise < (h.leg n).refRise :=
  Nat.not_lt.mpr (hu.ended.trans (h.edgeTime_ge c n rise))

theorem Hw.Unrefreshed.joins (hu : h.Unrefreshed n rise) (t : Nat) :
    (!rise && h.cmpPos n rise == 0 && h.refreshDue n t) = false := by
  rcases hu.apart with e | e | e
  · simp [e]
  · simp [e]
  · simp [Hw.refreshDue_off e]

/-- An edge at PUL's own level changes nothing. -/
theorem Hw.pulEdge_level (hr : h.EdgesRun c n) (hp : (h.leg n).pul = rise) : h.pulEdge n rise = h := by
  cases hrel : (h.cmpPlace c n rise).rel? with
  | none => exact Hw.pulEdge_unplaced hr.axis hrel
  | some rel => simp [Hw.pulEdge_placed hr.axis hrel, hr.delivers, hr.pair, hp]

/-- An edge to the other level, with no refresh in its way, meets its fate. -/
theorem Hw.pulEdge_fate (hr : h.EdgesRun c n) (hu : h.Unrefreshed n rise) {rel : Nat}
    (hrel : (h.cmpPlace c n rise).rel? = some rel) (hp : (h.leg n).pul ≠ rise) :
    h.pulEdge n rise = h.fateDone c n rise rel := by
  simp [Hw.pulEdge_placed hr.axis hrel, hr.delivers, hr.pair, hu.after, hp, hu.joins]

/-- An edge that acts. -/
theorem Hw.pulEdge_acts (hr : h.EdgesRun c n) (hu : h.Unrefreshed n rise) {rel : Nat}
    (hrel : (h.cmpPlace c n rise).rel? = some rel) (hp : (h.leg n).pul ≠ rise) (hf : h.edgeFate c n rise = .act) :
    h.pulEdge n rise = h.actEdge n rise (h.edgePlaced c n rise rel) := by
  rw [Hw.pulEdge_fate hr hu hrel hp, Hw.fateDone, hf]

/-- An edge dropped with its partner. -/
theorem Hw.pulEdge_drops (hr : h.EdgesRun c n) (hu : h.Unrefreshed n rise) {rel : Nat}
    (hrel : (h.cmpPlace c n rise).rel? = some rel) (hp : (h.leg n).pul ≠ rise) (hf : h.edgeFate c n rise = .drop) :
    h.pulEdge n rise = h.dropPulse n (h.bridge (n / 3)).win := by
  rw [Hw.pulEdge_fate hr hu hrel hp, Hw.fateDone, hf]

/-- An edge whose partner decides the level alone changes nothing. -/
theorem Hw.pulEdge_superseded (hr : h.EdgesRun c n) (hu : h.Unrefreshed n rise) {rel : Nat}
    (hrel : (h.cmpPlace c n rise).rel? = some rel) (hf : h.edgeFate c n rise = .superseded) : h.pulEdge n rise = h := by
  by_cases hp : (h.leg n).pul = rise
  · exact Hw.pulEdge_level hr hp
  · rw [Hw.pulEdge_fate hr hu hrel hp, Hw.fateDone, hf]

end

end Sys2Proof.Machine

namespace Sys2Proof
open Machine

/-- Settles O26: what keeps a compare from its fate is ruled out by the hypotheses, and the fate follows from the places of
the two compares. -/
theorem pulEdges : Obligations.PulEdges := by
  intro s g n rise c r q hl ha hrun hfree hper
  have runs : (s.hw.leg n).dropPair ≠ some (s.hw.bridge (n.val / 3)).win → (s.hw.at g).EdgesRun c n := fun hd =>
    ⟨ha, hrun, hfree, hper, hd⟩
  have gives : ∀ {P : State → Prop} {k : Hw}, (s.hw.at g).pulEdge n rise = k →
      P { s with hw := k.seal (max s.hw.grain g), mem := s.mem.after k } → Gives (.pulEdge g n rise) s P := fun e hP =>
    gives_run_eq (f := fun _ h => h.pulEdge n rise) hl e hP
  refine ⟨fun hd hp he hj hin hout => ?_, fun hd hp he hj hin hin' hq => ?_, fun hd hp he hj hb hb' hlt => ?_,
    fun hd he hj hb hb' hlt => ?_, fun a hbig => gives (Hw.pulEdge_beyond (h := s.hw.at g) ha hbig) ⟨rfl, rfl⟩,
    fun a hd hp => gives (Hw.pulEdge_level (runs hd) hp) ⟨rfl, rfl⟩⟩
  · have hfate : (s.hw.at g).edgeFate c n rise = .act := (Hw.edgeFate_of_places hin rfl).trans (pairFate_acts hout)
    obtain ⟨hpul, hwin, hon⟩ := (s.hw.at g).actEdge_shows n rise ((s.hw.at g).edgePlaced c n rise r)
    exact gives (Hw.pulEdge_acts (runs hd) ⟨he, hj⟩ (congrArg EdgePlace.rel? hin) hp hfate) ⟨hpul, hwin, hon.trans hrun⟩
  · have hfate : (s.hw.at g).edgeFate c n rise = .drop := (Hw.edgeFate_of_places hin hin').trans (pairFate_drops hq _ _)
    obtain ⟨hpul, hcnt, hevt⟩ := (s.hw.at g).dropPulse_shows n ((s.hw.at g).bridge (n / 3)).win
    exact gives (Hw.pulEdge_drops (runs hd) ⟨he, hj⟩ (congrArg EdgePlace.rel? hin) hp hfate)
      ⟨(congrArg (·.pul) (Hw.seal_leg _ _ n)).trans hpul, (Hw.seal_f _ _ _ _ _).trans hcnt, (Hw.seal_bit _ _ _ _).trans hevt⟩
  · have hfate : (s.hw.at g).edgeFate c n rise = .act :=
      ((Hw.edgeFate_of_places hb hb').trans (pairFate_before hlt.ne' _)).trans (if_neg hlt.not_gt)
    obtain ⟨hpul, -⟩ := (s.hw.at g).actEdge_shows n rise ((s.hw.at g).edgePlaced c n rise 0)
    exact gives (Hw.pulEdge_acts (runs hd) ⟨he, hj⟩ (congrArg EdgePlace.rel? hb) hp hfate) hpul
  · have hfate : (s.hw.at g).edgeFate c n rise = .superseded :=
      ((Hw.edgeFate_of_places hb hb').trans (pairFate_before hlt.ne _)).trans (if_pos hlt)
    exact gives (Hw.pulEdge_superseded (runs hd) ⟨he, hj⟩ (congrArg EdgePlace.rel? hb) hfate) rfl

end Sys2Proof

/-! Gate status and short circuits (R83 to R95). A protection only tightens: what it changes beyond its own code, event and
force leaves every leg that is safe safe, every force in force, and every gate status as it was. -/

namespace Sys2Proof.Machine

/-! ### What the motion units touch as an axis stops -/

/-- A part of the module apart from the motion units' tables, the notes of events, and the registers of the motion units'
pages and of those behind them. -/
structure MotionFree {γ : Type} (F : Hw → γ) : Prop where
  reg : ∀ (h : Hw) {a : Nat}, 0x9000 ≤ a → ∀ v, F (h.setReg a v) = F h
  evtCyc : ∀ (h : Hw) x, F { h with evtCyc := x } = F h
  prof : ∀ h p x, F (Hw.setProf h p x) = F h
  gear : ∀ h u x, F (Hw.setGear h u x) = F h
  axis : ∀ h a x, F (Hw.setAxis h a x) = F h
  fbs : ∀ (h : Hw) x, F { h with fbs := x } = F h
  nsw : ∀ (h : Hw) x, F { h with nsw := x } = F h

namespace MotionFree

variable {γ : Type} {F : Hw → γ} (hF : MotionFree F)
include hF

theorem setF (h : Hw) {a : Nat} (ha : 0x9000 ≤ a) (hi lo v : Nat) : F (h.setF a hi lo v) = F h := hF.reg h ha _

theorem setBit (h : Hw) {a : Nat} (ha : 0x9000 ≤ a) (i : Nat) (v : Bool) : F (h.setBit a i v) = F h := hF.reg h ha _

theorem w1cSet (h : Hw) {a : Nat} (ha : 0x9000 ≤ a) (i : Nat) : F (h.w1cSet a i) = F h :=
  (hF.evtCyc _ _).trans (hF.setBit h ha i true)

theorem setReg64 (h : Hw) {a : Nat} (ha : 0x9000 ≤ a) (v : Word64) : F (h.setReg64 a v) = F h :=
  (hF.reg _ (Nat.le_add_right_of_le ha) _).trans (hF.reg h ha _)

theorem evt (h : Hw) {p : Nat} (hp : 9 ≤ p) (i : Nat) : F (h.evt p i) = F h := by
  have hra : ∀ off, 0x9000 ≤ ra p off := fun off => by unfold ra; omega
  refine (hF.evtCyc _ _).trans ((hF.setBit _ (hra _) i true).trans ?_)
  split
  · exact hF.reg h (hra _) _
  · rfl

/-! Profiles -/

theorem leaveGroup (h : Hw) (f : Nat) : F (h.leaveGroup f) = F h := by
  simp only [Hw.leaveGroup, apply_ite F, hF.prof, ite_self]

theorem flushQueue (h : Hw) (p : Nat) : F (h.flushQueue p) = F h := by
  simp only [Hw.flushQueue, hF.prof, hF.setF, motion_prCred, hF.leaveGroup]

theorem setPfState (h : Hw) (p st : Nat) : F (h.setPfState p st) = F h := by
  simp only [Hw.setPfState, Hw.when, apply_ite F, hF.setReg64, hF.setF, motion_prStat, motion_mWend, ite_self]

theorem masterFlush (h : Hw) (m : Nat) : F (h.masterFlush m) = F h := by
  simp only [Hw.masterFlush, hF.setReg64, hF.setF, hF.setBit, motion_mWend, motion_mStat, hF.nsw]

theorem flushOne (h : Hw) (p : Nat) : F (h.flushOne p) = F h := by
  simp only [Hw.flushOne, apply_ite F, hF.masterFlush, hF.setPfState, hF.flushQueue, ite_self]

theorem groupEnd (h : Hw) (p : Nat) : F (h.groupEnd p) = F h :=
  Hw.each_keeps F (fun h f => by
    simp only [hF.evt, motion_pPRF, hF.w1cSet, motion_prStat, hF.flushOne, hF.prof]) _ _

theorem axisFlush (h : Hw) (p : Nat) : F (h.axisFlush p) = F h := by
  simp only [Hw.axisFlush, apply_ite F, hF.flushOne, hF.prof, hF.groupEnd, ite_self]

/-! Axes -/

theorem setNxt (h : Hw) (p : Nat) (r : PRec) : F (h.setNxt p r) = F h :=
  (Hw.each_keeps F (fun h u => hF.gear h u _) _ _).trans (hF.prof h p _)

theorem axPut (h : Hw) (a : Nat) (r : PRec) : F (h.axPut a r) = F h := by
  simp only [Hw.axPut, apply_ite F, hF.setNxt, hF.axis, ite_self]

theorem ownRec (h : Hw) (p : Nat) (r : PRec) : F (h.ownRec p r) = F h := by
  unfold Hw.ownRec
  split
  · simp only [apply_ite F, hF.axPut, hF.axis, ite_self]
  · exact hF.setNxt h p r

theorem followAgain (h : Hw) (p : Nat) : F (h.followAgain p) = F h :=
  Hw.each_keeps F (fun h _ => hF.ownRec h _ _) _ _

theorem axTakeOver (h : Hw) (a : Nat) : F (h.axTakeOver a) = F h :=
  (hF.axis _ _ _).trans (hF.axisFlush h _)

theorem axPick (h : Hw) (a T X : Nat) : F (h.axPick a T X) = F h := by
  unfold Hw.axPick
  dsimp only
  split
  · exact (hF.axPut _ _ _).trans (hF.axis _ _ _)
  · split <;> simp only [hF.axPut, hF.axis, apply_ite F, hF.axTakeOver, ite_self]

theorem axShape (h : Hw) (a : Nat) : F (h.axShape a) = F h := by
  have hfol : ∀ (h : Hw) f r x, F ((h.ownRec f r).setProf f x) = F h := fun h f r x =>
    (hF.prof _ _ _).trans (hF.ownRec h f r)
  unfold Hw.axShape
  dsimp only
  split
  · exact (hF.followAgain _ _).trans ((Hw.each_keeps F (fun h f => hfol h f _ _) _ _).trans (hF.axPick h _ _ _))
  · rfl

theorem axRamp (h : Hw) (a dec : Nat) (vt : Int) (e : RampEnd) : F (h.axRamp a dec vt e) = F h :=
  (hF.axShape _ _).trans (hF.axis _ _ _)

theorem homeEnd (h : Hw) (a : Nat) : F (h.homeEnd a) = F h := by
  unfold Hw.homeEnd
  split
  · rfl
  · refine (hF.axis _ _ _).trans ?_
    split
    · simp only [hF.setBit, hF.fbs, hF.setF, motion_fbr]
    · rfl

theorem homeDrop (h : Hw) (a : Nat) : F (h.homeDrop a) = F h := by
  refine (hF.axis _ _ _).trans ((hF.homeEnd _ _).trans ?_)
  split
  · split
    · simp only [apply_ite F, hF.reg, motion_axr, ite_self]
    · rfl
  · rfl

theorem setAxState (h : Hw) (a st : Nat) : F (h.setAxState a st) = F h := hF.setF h (motion_axr _ _) _ _ _

theorem wallAt (h : Hw) (a : Nat) (p : Word64) : F (h.wallAt a p) = F h := hF.axis _ _ _

theorem axHigh (h : Hw) (a : Nat) : F (h.axHigh a) = F h := hF.axis _ _ _

theorem axStop (h : Hw) (a dec : Nat) (e : RampEnd) : F (h.axStop a dec e) = F h := by
  unfold Hw.axStop
  split
  · dsimp only
    split <;> simp only [apply_ite F, hF.axRamp, hF.axis, ite_self]
  · simp only [hF.axRamp, hF.setAxState, hF.homeDrop]

theorem axProtWait (h : Hw) (a : Nat) : F (h.axProtWait a) = F h := by
  simp only [Hw.axProtWait, apply_ite F, hF.axShape, hF.axHigh, hF.setAxState, hF.setBit, hF.setReg64, motion_axr, hF.axis,
    hF.wallAt, hF.homeDrop, ite_self]

end MotionFree

/-! ### Protections tighten -/

/-- What the protections keep, and a register: their own state, the legs' outputs, the register. -/
def Hw.guards (h : Hw) (b : Nat) : (Gdp × Tab LegS) × Word := ((h.gdp, h.legs), h.reg b)

theorem motionFree_guards {b : Nat} (hb : b < 0x9000) : MotionFree (Hw.guards · b) where
  reg h a ha v := by simp only [Hw.guards, h.reg_setReg_ne (show b ≠ a by omega), Hw.setReg_gdp, Hw.setReg_legs]
  evtCyc _ _ := rfl
  prof _ _ _ := rfl
  gear _ _ _ := rfl
  axis _ _ _ := rfl
  fbs _ _ := rfl
  nsw _ _ := rfl

/-- From h to k no gate status changes, no event of GDP is cleared, no force of a class or of a leg alone ends, no run of GST
periods is touched, and no leg leaves the safe state. -/
structure Tightens (h k : Hw) : Prop where
  stat : ∀ n : Fin 96, k.reg (gstStat n) = h.reg (gstStat n)
  evt : ∀ i, h.bit (gp rEVT) i = true → k.bit (gp rEVT) i = true
  force : ∀ a c n, (h.prot a c).force.getLsbD n = true → (k.prot a c).force.getLsbD n = true
  lone : ∀ n, h.gdp.lone.getLsbD n = true → k.gdp.lone.getLsbD n = true
  gst : k.gdp.gst = h.gdp.gst
  off : ∀ n, (h.leg n).running = false → (k.leg n).running = false
  low : ∀ n, (h.leg n).pul = false → (k.leg n).pul = false

theorem gstStat_lt (n : Fin 96) : gstStat n < 0x8780 := by
  unfold gstStat gp ra pGDP
  omega

theorem gp_evt_lt : gp rEVT < 0x8600 := by decide

theorem gstStat_ge (n : Nat) : 0x8600 ≤ gstStat n := by
  unfold gstStat gp ra pGDP
  omega

theorem axProt_ge (a : Nat) : 0x8800 ≤ axProt a := by
  unfold axProt gp ra pGDP
  omega

namespace Tightens

variable {h k l : Hw}

theorem refl (h : Hw) : Tightens h h :=
  ⟨fun _ => rfl, fun _ => id, fun _ _ _ => id, fun _ => id, rfl, fun _ => id, fun _ => id⟩

theorem trans (h1 : Tightens h k) (h2 : Tightens k l) : Tightens h l :=
  ⟨fun n => (h2.stat n).trans (h1.stat n), fun i => h2.evt i ∘ h1.evt i, fun a c n => h2.force a c n ∘ h1.force a c n,
    fun n => h2.lone n ∘ h1.lone n, h2.gst.trans h1.gst, fun n => h2.off n ∘ h1.off n, fun n => h2.low n ∘ h1.low n⟩

theorem ite {c : Prop} [Decidable c] (h1 : Tightens h k) (h2 : Tightens h l) : Tightens h (if c then k else l) := by
  split
  · exact h1
  · exact h2

theorem each {α : Type} {f : Hw → α → Hw} (hf : ∀ h x, Tightens h (f h x)) (l : List α) (h : Hw) :
    Tightens h (h.each l f) := by
  unfold Hw.each
  induction l generalizing h with
  | nil => exact refl h
  | cons x l ih => exact (hf h x).trans (ih (f h x))

/-- Registers apart, nothing that the protections keep has changed. -/
theorem of_regs (hg : k.gdp = h.gdp) (hl : k.legs = h.legs) (hs : ∀ n : Fin 96, k.reg (gstStat n) = h.reg (gstStat n))
    (he : ∀ i, h.bit (gp rEVT) i = true → k.bit (gp rEVT) i = true) : Tightens h k where
  stat := hs
  evt := he
  force a c n := by simp only [Hw.prot, hg, imp_self]
  lone n := by rw [hg]; exact id
  gst := by rw [hg]
  off n := by rw [Hw.leg_of_legs hl]; exact id
  low n := by rw [Hw.leg_of_legs hl]; exact id

/-- What moves no register below the motion units but the log's only tightens, where it leaves the legs. -/
theorem of_guards (e : ∀ b < 0x9000, ¬ inLog b → k.guards b = h.guards b) : Tightens h k := by
  have hreg : ∀ b, 0x3000 ≤ b → b < 0x9000 → k.reg b = h.reg b := fun b hlo hhi =>
    congrArg (·.2) (e b hhi (not_inLog_of_ge hlo))
  have hst := e (gp rEVT) (by decide) (not_inLog_of_ge (by decide))
  have hge : ∀ n : Fin 96, 0x3000 ≤ gstStat n := fun n => Nat.le_trans (by decide) (gstStat_ge n)
  exact of_regs (congrArg (·.1.1) hst) (congrArg (·.1.2) hst)
    (fun n => hreg _ (hge n) ((gstStat_lt n).trans (by decide)))
    fun i => by rw [Hw.bit, Hw.bit, hreg (gp rEVT) (by decide) (by decide)]; exact id

theorem of_logged (hk : Logged h k) : Tightens h k :=
  of_guards fun b _ hb => by simp only [Hw.guards, hk.gdp, hk.legs, hk.reg hb]

theorem setReg_high (h : Hw) {a : Nat} (ha : 0x9000 ≤ a) (v : Word) : Tightens h (h.setReg a v) :=
  of_guards fun _ hb _ => (motionFree_guards hb).reg h ha v

theorem evt_high (h : Hw) {p : Nat} (hp : 9 ≤ p) (i : Nat) : Tightens h (h.evt p i) :=
  of_guards fun _ hb _ => (motionFree_guards hb).evt h hp i

theorem setProtReg (h : Hw) (a i : Nat) (v : Bool) : Tightens h (h.setBit (axProt a) i v) := by
  have hlt := axProt_ge a
  refine of_regs rfl rfl (fun n => h.reg_setBit_ne (by have := gstStat_lt n; omega) i v) fun j => ?_
  rw [Hw.bit_setBit_ne _ (by have := gp_evt_lt; omega)]
  exact id

theorem gdpEvt (h : Hw) {i : Nat} (hi : i < 32) (ts : Nat) : Tightens h (h.evtTs pGDP i ts) := by
  have hne : ∀ n off, off < 0x600 → gstStat n ≠ ra pGDP off := fun n off ho => by
    have := gstStat_ge n
    unfold ra pGDP
    omega
  refine of_regs (h.evtTs_gdp pGDP i ts) (h.evtTs_legs pGDP i ts)
    (fun n => h.reg_evtTs_ne (hne n _ (by decide)) (hne n _ (by decide)) i ts) fun j hj => ?_
  have hreg : (h.evtTs pGDP i ts).reg (gp rEVT) = putFld (h.reg (gp rEVT)) i i 1 := h.reg_evtTs_same pGDP i ts
  rw [Hw.bit, hreg, bitOf_putFld _ (Nat.le_refl i) hi]
  split
  · rw [show j - i = 0 by omega]; rfl
  · exact hj

theorem gdpEvt_now (h : Hw) {i : Nat} (hi : i < 32) : Tightens h (h.evt pGDP i) := gdpEvt h hi _

theorem setProt (h : Hw) (a c : Nat) {x : ProtS}
    (hx : ∀ n, (h.prot a c).force.getLsbD n = true → x.force.getLsbD n = true) : Tightens h (h.setProt a c x) where
  stat _ := rfl
  evt _ := id
  force a' c' n hn := by
    have hget : (h.setProt a c x).prot a' c' = if 3 * a' + c' = 3 * a + c then x else h.prot a' c' := by
      split
      · next e => rw [Hw.prot, e]; exact tabGet_tabSet_same _ _ _ _
      · next e => exact tabGet_tabSet_ne _ _ e _ _
    rw [hget]
    split
    · next e => exact hx n (by rwa [Hw.prot, e] at hn)
    · exact hn
  lone _ := id
  gst := rfl
  off _ := id
  low _ := id

theorem retryStop (h : Hw) (a c : Nat) : Tightens h (h.retryStop a c) :=
  (setProt h a c (x := { h.prot a c with phase := 0 }) fun _ => id).trans (setProtReg _ a _ false)

theorem retryWait (h : Hw) (a c : Nat) : Tightens h (h.retryWait a c) :=
  (setProt h a c (x := { h.prot a c with phase := 1, due := h.grain + h.f (retryReg c) 13 0 * grainsPerMs })
    fun _ => id).trans (setProtReg _ a _ true)

/-! Legs -/

theorem legSafe (h : Hw) (n : Nat) : Tightens h (h.legSafe n) := by
  have hsafe : ∀ m, (h.legSafe n).leg m = h.leg m ∨ ((h.legSafe n).leg m).running = false ∧
      ((h.legSafe n).leg m).pul = false := fun m => by
    by_cases e : m = n
    · right
      rw [e, Hw.legSafe, Hw.leg_setLeg_same]
      exact ⟨rfl, rfl⟩
    · exact .inl (tabGet_tabSet_ne _ _ e _ _)
  exact ⟨fun _ => rfl, fun _ => id, fun _ _ _ => id, fun _ => id, rfl,
    fun m hm => (hsafe m).elim (fun e => by rwa [e]) (·.1), fun m hm => (hsafe m).elim (fun e => by rwa [e]) (·.2)⟩

theorem forceBegin (h : Hw) (n : Nat) : Tightens h (h.forceBegin n) := (legSafe h n).trans (evt_high _ (motion_pLEG n) 6)

theorem forceMask (h before : Hw) (mask : BitVec 96) : Tightens h (h.forceMask before mask) :=
  each (fun h n => forceBegin h n) _ h

theorem legOff (h : Hw) (n : Nat) : Tightens h (h.legOff n) := (setReg_high h (motion_lg n _) _).trans (legSafe _ n)

theorem axisLegsOff (h : Hw) (a : Nat) : Tightens h (h.axisLegsOff a) := each (fun h n => legOff h n) _ h

/-! Axes -/

theorem axOff (h : Hw) (a : Nat) : Tightens h (h.axOff a) :=
  (axisLegsOff h a).trans (of_guards fun b hb _ => by
    simp only [Hw.axOff, (motionFree_guards hb).axShape, (motionFree_guards hb).setAxState, (motionFree_guards hb).setBit,
      motion_axr, (motionFree_guards hb).axis, (motionFree_guards hb).wallAt, (motionFree_guards hb).homeDrop])

theorem axFault (h : Hw) (a code react rank : Nat) : Tightens h (h.axFault a code react rank) := by
  have log : ∀ cd, Tightens h (h.log (pAX a) rank cd a h.grain) := fun cd => of_logged (h.log_logged ..)
  have stop : ∀ k dec e, Tightens k (Hw.axStop k a dec e) := fun k dec e =>
    of_guards fun b hb _ => (motionFree_guards hb).axStop k a dec e
  have high : ∀ k, Tightens k (Hw.axHigh k a) := fun k => of_guards fun b hb _ => (motionFree_guards hb).axHigh k a
  have reg : ∀ (k : Hw) hi lo v, Tightens k (k.setF (axr a 0x0A4) hi lo v) := fun k _ _ _ =>
    setReg_high k (motion_axr _ _) _
  have evt : ∀ (k : Hw) i, Tightens k (k.evt (pAX a) i) := fun k => evt_high k (motion_pAX a)
  unfold Hw.axFault
  split
  · exact (log 3).trans (evt _ 3)
  · extract_lets h1 had h2 r h3 st h4
    have t2 : Tightens h h2 := (log 2).trans (ite (reg h1 7 0 code) (refl h1))
    have t3 : Tightens h h3 := t2.trans ((reg h2 9 8 r).trans (evt _ 2))
    have t4 : Tightens h h4 := t3.trans (ite (high h3) (refl h3))
    exact ite (t4.trans (axOff h4 a)) (t4.trans (stop h4 _ _))

theorem axProtWait (h : Hw) (a : Nat) : Tightens h (h.axProtWait a) :=
  of_guards fun _ hb _ => (motionFree_guards hb).axProtWait h a

/-! Class faults (R96 to R98) -/

theorem cut (h : Hw) (m : BitVec 96) (g : Nat) : Tightens h { h with gdp := { h.gdp with cut := m, cutAt := g } } :=
  ⟨fun _ => rfl, fun _ => id, fun _ _ _ => id, fun _ => id, rfl, fun _ => id, fun _ => id⟩

theorem faultLatch (h : Hw) (a c : Nat) : Tightens h (h.faultLatch a c) := by
  unfold Hw.faultLatch
  extract_lets on d h1 h2
  have t1 : Tightens h h1 := cut h _ _
  have t2 : Tightens h h2 := t1.trans ((retryStop h1 a c).trans ((axisLegsOff _ a).trans (setProtReg _ a _ true)))
  exact t2.trans ((gdpEvt_now h2 (by decide)).trans ((setReg_high _ (motion_axr a _) _).trans (axFault _ a _ _ _)))

theorem protFault (h : Hw) (a c : Nat) (mask : BitVec 96) : Tightens h (h.protFault a c mask) := by
  unfold Hw.protFault
  extract_lets x h1
  have t1 : Tightens h h1 := setProt h a c fun n hn => by
    rw [BitVec.getLsbD_or, hn, Bool.true_or]
  have wait : Tightens h ((h1.retryWait a c).axProtWait a) := t1.trans ((retryWait h1 a c).trans (axProtWait _ a))
  have latch : Tightens h (h1.faultLatch a c) := t1.trans (faultLatch h1 a c)
  exact ite latch (ite wait (ite latch wait))

end Tightens

/-! ### A counted event of GDP (R85) -/

theorem Hw.fltEvent_gdp (h : Hw) (p rk cd i ts : Nat) : (h.fltEvent p rk cd i ts).1.gdp = h.gdp := by
  have hset : ∀ (h : Hw) a hi lo v, (h.setF a hi lo v).gdp = h.gdp := fun _ _ _ _ _ => rfl
  have hlog : ∀ (h : Hw) rk cd i ts fl, (h.log p rk cd i ts fl).gdp = h.gdp := fun h _ _ _ _ _ => (h.log_logged ..).gdp
  have hend : ∀ h : Hw, (h.fltEnd p).gdp = h.gdp := fun _ => (Hw.logFull_logged _ _).gdp
  unfold Hw.fltEvent
  dsimp only
  simp only [apply_ite Prod.fst, apply_ite Hw.gdp, hset, Hw.bump_gdp, Hw.setFwin_gdp, hlog, hend, ite_self]

theorem Tightens.gdpFltEvent (h : Hw) (rk cd i ts : Nat) : Tightens h (h.fltEvent pGDP rk cd i ts).1 := by
  have hreg : ∀ a, offFault pGDP a → (h.fltEvent pGDP rk cd i ts).1.reg a = h.reg a := fun a ha =>
    congrArg (·.1) (h.fltEvent_engView ha rk cd i ts)
  have hst : ∀ n, offFault pGDP (gstStat n) := fun n => by
    have hge := gstStat_ge n
    exact ⟨not_inLog_of_ge (by omega), by unfold ra pGDP rFLT_CNT; omega⟩
  have hev : offFault pGDP (gp rEVT) := ⟨not_inLog_of_ge (by decide), by decide⟩
  exact of_regs (h.fltEvent_gdp ..) (h.fltEvent_legs ..) (fun n => hreg _ (hst n))
    fun i => by rw [Hw.bit, Hw.bit, hreg _ hev]; exact id

/-! ### What a gate status shows as protections tighten -/

namespace Tightens

variable {h k : Hw}

theorem f (ht : Tightens h k) (n : Fin 96) (hi lo : Nat) : k.f (gstStat n) hi lo = h.f (gstStat n) hi lo :=
  congrArg (fld · hi lo) (ht.stat n)

theorem gstCode (ht : Tightens h k) (n : Fin 96) : k.gstCode n = h.gstCode n := ht.f n 2 0

end Tightens

theorem Hw.gstCode_setF (h : Hw) (n : Nat) {code : Nat} (hc : code < 8) : (h.setF (gstStat n) 2 0 code).gstCode n = code :=
  (h.f_setF_same (gstStat n) (by decide) (by decide) code).trans (Nat.mod_eq_of_lt hc)

/-! ### A status that forces its leg (R87) -/

/-- Beyond its code and the leg's outputs, a status that forces a leg only tightens. -/
theorem Hw.statusFault_tightens (h : Hw) (n code : Nat) :
    Tightens ((h.setF (gstStat n) 2 0 code).legSafe n) (h.statusFault n code) := by
  unfold Hw.statusFault
  extract_lets was en h1 h2
  have t2 : Tightens (h1.legSafe n) h2 := .ite (.refl _) (.evt_high _ (motion_pLEG n) 6)
  split
  · exact .ite (t2.trans (.protFault h2 _ _ _)) t2
  · exact t2

theorem Hw.statusFault_shows (h : Hw) (n : Fin 96) {code : Nat} (hc : code < 8) :
    (h.statusFault n code).gstCode n = code ∧ ((h.statusFault n code).leg n).running = false ∧
      ((h.statusFault n code).leg n).pul = false := by
  have ht := h.statusFault_tightens n code
  refine ⟨(ht.gstCode n).trans (h.gstCode_setF n hc), ht.off n ?_, ht.low n ?_⟩
  · rw [Hw.legSafe, Hw.leg_setLeg_same]
  · rw [Hw.legSafe, Hw.leg_setLeg_same]

/-- From h to k the measured times of leg n, the events of GDP that are set and the runs of agreeing periods stay. -/
structure KeepsPeriod (n : Fin 96) (h k : Hw) : Prop where
  times : ∀ hi lo, 2 < lo → k.f (gstStat n) hi lo = h.f (gstStat n) hi lo
  evt : ∀ i, h.bit (gp rEVT) i = true → k.bit (gp rEVT) i = true
  gst : k.gdp.gst = h.gdp.gst

theorem KeepsPeriod.trans {n : Fin 96} {h k l : Hw} (h1 : KeepsPeriod n h k) (h2 : KeepsPeriod n k l) : KeepsPeriod n h l :=
  ⟨fun hi lo hlo => (h2.times hi lo hlo).trans (h1.times hi lo hlo), fun i => h2.evt i ∘ h1.evt i, h2.gst.trans h1.gst⟩

theorem Tightens.keepsPeriod {h k : Hw} (ht : Tightens h k) (n : Fin 96) : KeepsPeriod n h k :=
  ⟨fun hi lo _ => ht.f n hi lo, ht.evt, ht.gst⟩

theorem Hw.statusFault_keepsPeriod (h : Hw) (n : Fin 96) (code : Nat) : KeepsPeriod n h (h.statusFault n code) := by
  have ht := h.statusFault_tightens n code
  have hne : gp rEVT ≠ gstStat n := fun e => absurd (gstStat_ge n) (by rw [← e]; decide)
  exact ⟨fun hi lo hlo => (ht.f n hi lo).trans (h.f_setF_disj _ (by decide) (by decide) code (.inr hlo)),
    fun i hi => ht.evt i ((congrArg (bitOf · i) (h.reg_setF_ne hne 2 0 code)).trans hi), ht.gst⟩

theorem Hw.gstLost_keepsPeriod (h : Hw) (n : Fin 96) (ts : Nat) : KeepsPeriod n h (h.gstLost n ts) :=
  (((Tightens.gdpEvt h (by decide) ts).trans (.of_logged (Hw.log_logged _ _ _ _ _ _ 0))).keepsPeriod n).trans
    (Hw.statusFault_keepsPeriod _ n 5)

/-- A status that forces its leg, with its event and its record in the log: event i of GDP, code c in the log. -/
theorem Hw.eventFault_shows (h : Hw) (n : Fin 96) {i code : Nat} (hi : i < 32) (hc : code < 8) (c ts : Nat) :
    (((h.evtTs pGDP i ts).log pGDP 4 c n ts).statusFault n code).gstCode n = code ∧
      (((h.evtTs pGDP i ts).log pGDP 4 c n ts).statusFault n code).bit (gp rEVT) i = true ∧
      ((((h.evtTs pGDP i ts).log pGDP 4 c n ts).statusFault n code).leg n).running = false ∧
      ((((h.evtTs pGDP i ts).log pGDP 4 c n ts).statusFault n code).leg n).pul = false := by
  have tlog := Tightens.of_logged ((h.evtTs pGDP i ts).log_logged pGDP 4 c n ts 0)
  have hevt := tlog.evt i (h.bit_evtTs pGDP hi ts)
  generalize (h.evtTs pGDP i ts).log pGDP 4 c n ts = k at hevt ⊢
  obtain ⟨hcode, hoff, hlow⟩ := k.statusFault_shows n hc
  exact ⟨hcode, (k.statusFault_keepsPeriod n code).evt i hevt, hoff, hlow⟩

/-- GST_LOST sets its code and its event, and the leg is safe (R86). -/
theorem Hw.gstLost_shows (h : Hw) (n : Fin 96) (ts : Nat) : (h.gstLost n ts).gstCode n = 5 ∧
    (h.gstLost n ts).bit (gp rEVT) 3 = true ∧ ((h.gstLost n ts).leg n).running = false ∧
      ((h.gstLost n ts).leg n).pul = false := h.eventFault_shows n (by decide) (by decide) 3 ts

/-! ### A period of GST (R84, R85) -/

/-- A measured period, with the run of agreeing periods it leaves. -/
def Hw.gstSeen (h : Hw) (n P H : Nat) (r : GstRun) : Hw :=
  { (h.setF (gstStat n) 31 20 (min P 0xFFF)).setF (gstStat n) 19 8 (min H 0xFFF) with
    gdp := { h.gdp with gst := tabSet {} n r h.gdp.gst } }

/-- The consecutive periods of a leg that have decoded to d, one that decodes to d now included. -/
def Hw.gstAgree (h : Hw) (n d : Nat) : Nat :=
  if (tabGet {} n h.gdp.gst).code = d then (tabGet {} n h.gdp.gst).n + 1 else 1

theorem Hw.gstSeen_f (h : Hw) (n P H : Nat) (r : GstRun) (a hi lo : Nat) : (h.gstSeen n P H r).f a hi lo =
    ((h.setF (gstStat n) 31 20 (min P 0xFFF)).setF (gstStat n) 19 8 (min H 0xFFF)).f a hi lo := rfl

theorem Hw.gstSeen_times (h : Hw) (n : Nat) {P H : Nat} (hP : P < 0x1000) (hH : H < 0x1000) (r : GstRun) :
    (h.gstSeen n P H r).f (gstStat n) 31 20 = P ∧ (h.gstSeen n P H r).f (gstStat n) 19 8 = H := by
  have hcut : ∀ x, x < 0x1000 → min x 0xFFF % 0x1000 = x := fun x hx => by omega
  rw [Hw.gstSeen_f, Hw.gstSeen_f, Hw.f_setF_disj _ _ (by decide) (by decide) _ (.inr (by decide)),
    Hw.f_setF_same _ _ (by decide) (by decide), Hw.f_setF_same _ _ (by decide) (by decide)]
  exact ⟨hcut P hP, hcut H hH⟩

theorem Hw.gstSeen_gstCode (h : Hw) (n P H : Nat) (r : GstRun) : (h.gstSeen n P H r).gstCode n = h.gstCode n := by
  have hcode : ∀ k : Hw, k.gstCode n = k.f (gstStat n) 2 0 := fun _ => rfl
  rw [hcode, Hw.gstSeen_f, Hw.f_setF_disj _ _ (by decide) (by decide) _ (.inl (by decide)),
    Hw.f_setF_disj _ _ (by decide) (by decide) _ (.inl (by decide)), hcode]

theorem Hw.gstSeen_confirm (h : Hw) (n P H : Nat) (r : GstRun) :
    (h.gstSeen n P H r).f (gp 0x040) 2 0 = h.f (gp 0x040) 2 0 := by
  have hne : gp 0x040 ≠ gstStat n := fun e => absurd (gstStat_ge n) (by rw [← e]; decide)
  rw [Hw.gstSeen_f, Hw.f_setF_ne _ hne, Hw.f_setF_ne _ hne]

theorem Hw.gstSeen_run (h : Hw) (n P H : Nat) (r : GstRun) : tabGet {} n (h.gstSeen n P H r).gdp.gst = r :=
  tabGet_tabSet_same _ n r h.gdp.gst

/-- A valid period decodes to a status from 0 to 3 and its times fit their fields (R84). -/
theorem gstDecode_some {P H d : Nat} (e : gstDecode P H = some d) : d < 4 ∧ P < 0x1000 ∧ H < 0x1000 := by
  unfold gstDecode at e
  split_ifs at e with hrange h0 h1 h2 h3
  all_goals
    obtain rfl := Option.some.inj e
    omega

/-- A status that has come in CONFIRM consecutive periods and differs from the one in force comes into force (R85). -/
theorem Hw.gstPeriod_confirmed {h : Hw} {n P H d : Nat} (e : gstDecode P H = some d) (hne : h.gstCode n ≠ d)
    (hk : max 1 (h.f (gp 0x040) 2 0) ≤ h.gstAgree n d) : h.gstPeriod n P H =
      if d = 0 then (h.gstSeen n P H ⟨d, min (h.gstAgree n d) 4⟩).setF (gstStat n) 2 0 0
      else (((h.gstSeen n P H ⟨d, min (h.gstAgree n d) 4⟩).evtTs pGDP 2 (h.grain - 3)).log pGDP 4 2 n
        (h.grain - 3)).statusFault n d := by
  have hcond : max 1 ((h.gstSeen n P H ⟨d, min (h.gstAgree n d) 4⟩).f (gp 0x040) 2 0) ≤ h.gstAgree n d ∧
      (h.gstSeen n P H ⟨d, min (h.gstAgree n d) 4⟩).gstCode n ≠ d := by
    rw [Hw.gstSeen_confirm, Hw.gstSeen_gstCode]
    exact ⟨hk, hne⟩
  unfold Hw.gstPeriod
  rw [e]
  exact if_pos hcond

/-- The status OK comes into force and leaves the leg (R87). -/
theorem Hw.gstPeriod_ok {h : Hw} {n : Fin 96} {P H : Nat} (e : gstDecode P H = some 0) (hne : h.gstCode n ≠ 0)
    (hk : max 1 (h.f (gp 0x040) 2 0) ≤ h.gstAgree n 0) : (h.gstPeriod n P H).gstCode n = 0 ∧
      (h.gstPeriod n P H).f (gstStat n) 31 20 = P ∧ (h.gstPeriod n P H).f (gstStat n) 19 8 = H ∧
      (h.gstPeriod n P H).leg n = h.leg n := by
  obtain ⟨-, hP, hH⟩ := gstDecode_some e
  obtain ⟨hper, hhigh⟩ := h.gstSeen_times n hP hH ⟨0, min (h.gstAgree n 0) 4⟩
  rw [Hw.gstPeriod_confirmed e hne hk, if_pos rfl]
  refine ⟨Hw.gstCode_setF _ n (by decide), ?_, ?_, rfl⟩
  · rw [Hw.f_setF_disj _ _ (by decide) (by decide) _ (.inr (by decide)), hper]
  · rw [Hw.f_setF_disj _ _ (by decide) (by decide) _ (.inr (by decide)), hhigh]

/-- Any other status comes into force with its event, and forces the leg (R87). -/
theorem Hw.gstPeriod_fault {h : Hw} {n : Fin 96} {P H d : Nat} (e : gstDecode P H = some d) (hd : d ≠ 0)
    (hne : h.gstCode n ≠ d) (hk : max 1 (h.f (gp 0x040) 2 0) ≤ h.gstAgree n d) : (h.gstPeriod n P H).gstCode n = d ∧
      (h.gstPeriod n P H).bit (gp rEVT) 2 = true ∧ ((h.gstPeriod n P H).leg n).running = false ∧
      ((h.gstPeriod n P H).leg n).pul = false ∧ (h.gstPeriod n P H).statusForce n = true := by
  obtain ⟨hd4, -, -⟩ := gstDecode_some e
  rw [Hw.gstPeriod_confirmed e hne hk, if_neg hd]
  obtain ⟨hcode, hevt, hoff, hlow⟩ := (h.gstSeen n P H ⟨d, min (h.gstAgree n d) 4⟩).eventFault_shows n (i := 2)
    (code := d) (by decide) (by omega) 2 (h.grain - 3)
  refine ⟨hcode, hevt, hoff, hlow, ?_⟩
  rw [Hw.statusForce, hcode, Bool.and_eq_true, bne_iff_ne, bne_iff_ne]
  exact ⟨hd, by omega⟩

theorem Hw.gstPeriod_of_error {h : Hw} {n P H : Nat} (e : gstDecode P H = none) : h.gstPeriod n P H =
    if (((h.gstSeen n P H {}).evtTs pGDP 4 (h.grain - 3)).fltEvent pGDP 4 4 n (h.grain - 3)).2 then
      (((h.gstSeen n P H {}).evtTs pGDP 4 (h.grain - 3)).fltEvent pGDP 4 4 n (h.grain - 3)).1.gstLost n (h.grain - 3)
    else (((h.gstSeen n P H {}).evtTs pGDP 4 (h.grain - 3)).fltEvent pGDP 4 4 n (h.grain - 3)).1 := by
  unfold Hw.gstPeriod
  rw [e]
  rfl

/-- A code error starts the run of agreeing periods again, sets EVT.CODE_ERR and keeps the times measured, whether or not
the errors of the window make the leg GST_LOST (R85). -/
theorem Hw.gstPeriod_error {h : Hw} {n : Fin 96} {P H : Nat} (e : gstDecode P H = none) (hP : P < 0x1000) (hH : H < 0x1000) :
    (h.gstPeriod n P H).f (gstStat n) 31 20 = P ∧ (h.gstPeriod n P H).f (gstStat n) 19 8 = H ∧
      (h.gstPeriod n P H).bit (gp rEVT) 4 = true ∧ tabGet {} n.val (h.gstPeriod n P H).gdp.gst = ({} : GstRun) := by
  obtain ⟨hper, hhigh⟩ := h.gstSeen_times n hP hH {}
  have hrun : tabGet {} n.val (h.gstSeen n P H {}).gdp.gst = ({} : GstRun) := h.gstSeen_run n P H {}
  have hevt := (h.gstSeen n P H {}).bit_evtTs pGDP (b := 4) (by decide) (h.grain - 3)
  have hkeep : KeepsPeriod n (h.gstSeen n P H {}) (h.gstPeriod n P H) ∧ (h.gstPeriod n P H).bit (gp rEVT) 4 = true := by
    have hseen := (Tightens.gdpEvt (h.gstSeen n P H {}) (i := 4) (by decide) (h.grain - 3)).keepsPeriod n
    have hcount := (Tightens.gdpFltEvent ((h.gstSeen n P H {}).evtTs pGDP 4 (h.grain - 3)) 4 4 n (h.grain - 3)).keepsPeriod n
    have hlost := hcount.trans (Hw.gstLost_keepsPeriod _ n (h.grain - 3))
    rw [Hw.gstPeriod_of_error e]
    split
    · exact ⟨hseen.trans hlost, hlost.evt 4 hevt⟩
    · exact ⟨hseen.trans hcount, hcount.evt 4 hevt⟩
  exact ⟨(hkeep.1.times 31 20 (by decide)).trans hper, (hkeep.1.times 19 8 (by decide)).trans hhigh, hkeep.2,
    (congrArg (tabGet {} n.val) hkeep.1.gst).trans hrun⟩

/-! ### A short circuit from a hard fault (R86, R95) -/

/-- A declared short circuit before its forces: its time-stamp, its event and its record in the log. -/
def Hw.shortNoted (h : Hw) (n ts : Nat) : Hw :=
  (({ h with gdp := { h.gdp with shortAt := some (h.grain, ts) } } : Hw).evtTs pGDP 1 ts).log pGDP 3 1 n ts

/-- The time-stamp of a short circuit: that of the first declared in the grain (R95). -/
def Hw.shortTs (h : Hw) (ts : Nat) : Nat :=
  match h.gdp.shortAt with
  | some (g, t) => if g = h.grain then t else ts
  | none => ts

theorem Hw.shortNoted_gdp (h : Hw) (n ts : Nat) :
    (h.shortNoted n ts).gdp = { h.gdp with shortAt := some (h.grain, ts) } :=
  (Hw.log_logged ..).gdp.trans (Hw.evtTs_gdp _ _ _ _)

theorem Hw.shortNoted_reg (h : Hw) (n ts : Nat) {a : Nat} (hlo : 0x3000 ≤ a) (h1 : a ≠ ra pGDP rEVT)
    (h2 : a ≠ ra pGDP rEVT_TS) : (h.shortNoted n ts).reg a = h.reg a :=
  ((Hw.log_logged ..).reg (not_inLog_of_ge hlo)).trans (Hw.reg_evtTs_ne _ h1 h2 1 ts)

theorem UnitsAs.legAxis {k h : Hw} (hk : UnitsAs k h) (n : Nat) : k.legAxis n = h.legAxis n := by
  have hcar : ∀ c, k.bit (cr c 0x044) (n / 3) = h.bit (cr c 0x044) (n / 3) := fun c =>
    congrArg (bitOf · (n / 3)) (hk _ (by unfold cr ra pCAR; omega))
  simp only [Hw.legAxis, Hw.bridgeAxis, hcar]

theorem Hw.shortNoted_units (h : Hw) (n ts : Nat) : UnitsAs (h.shortNoted n ts) h := fun _ ha =>
  h.shortNoted_reg n ts (by omega) (by unfold ra pGDP rEVT; omega) (by unfold ra pGDP rEVT_TS; omega)

theorem Hw.setGstStat_units (h : Hw) (n : Fin 96) (hi lo v : Nat) : UnitsAs (h.setF (gstStat n) hi lo v) h := fun _ ha =>
  h.reg_setF_ne (by have := gstStat_lt n; omega) hi lo v

theorem Hw.shortNoted_gstCode (h : Hw) (n ts m : Nat) : (h.shortNoted n ts).gstCode m = h.gstCode m := by
  have hge := gstStat_ge m
  exact congrArg (fld · 2 0) (h.shortNoted_reg n ts (a := gstStat m) (by omega) (by unfold ra pGDP rEVT; omega)
    (by unfold ra pGDP rEVT_TS; omega))

theorem Hw.shortNoted_evt (h : Hw) (n ts : Nat) : (h.shortNoted n ts).bit (gp rEVT) 1 = true :=
  ((Hw.log_logged ..).bit (not_inLog_of_ge (by decide)) 1).trans (Hw.bit_evtTs _ pGDP (by decide) ts)

theorem getLsbD_ofNat_two_pow {w n : Nat} (hn : n < w) : (BitVec.ofNat w (2 ^ n)).getLsbD n = true := by
  rw [BitVec.getLsbD_ofNat, Nat.testBit_two_pow_self, decide_eq_true hn, Bool.and_true]

/-- The mask of a list of legs holds each of them. -/
theorem getLsbD_foldl_or {l : List Nat} {n : Nat} (hn : n < 96) (m : BitVec 96) (h : m.getLsbD n = true ∨ n ∈ l) :
    (l.foldl (fun m k => m ||| BitVec.ofNat 96 (2 ^ k)) m).getLsbD n = true := by
  induction l generalizing m with
  | nil => exact h.resolve_right List.not_mem_nil
  | cons k l ih =>
    refine ih _ ?_
    rcases h with h | h
    · left
      rw [BitVec.getLsbD_or, h, Bool.true_or]
    · refine (List.mem_cons.mp h).imp (fun e => ?_) id
      rw [← e, BitVec.getLsbD_or, getLsbD_ofNat_two_pow hn, Bool.or_true]

theorem Hw.axisMask_of_legAxis {h : Hw} {n a : Nat} (hn : n < 96) (e : h.legAxis n = some a) :
    (h.axisMask a).getLsbD n = true := by
  refine getLsbD_foldl_or hn _ (.inr ?_)
  have hbit : bitOf (h.reg (cr a 0x044)) (n / 3) = true :=
    List.find?_some (p := fun c => h.bit (cr c 0x044) (n / 3)) e
  have hbridge : n / 3 ∈ bridgesOf (h.reg (cr a 0x044)) :=
    List.mem_filter.mpr ⟨List.mem_range.mpr (by omega), hbit⟩
  refine List.mem_flatMap.mpr ⟨n / 3, hbridge, ?_⟩
  simp only [List.mem_cons, List.not_mem_nil, or_false]
  omega

/-- A mask's force drives to the safe state its legs that no protection held before. -/
theorem Hw.forceMask_off (h before : Hw) {mask : BitVec 96} {n : Nat} (hn : n < 96) (hm : mask.getLsbD n = true)
    (hp : before.protForce n = false) : ((h.forceMask before mask).leg n).running = false :=
  (Hw.each_forceBegin_shows (List.mem_filter.mpr ⟨List.mem_range.mpr hn, by rw [hm, hp]; rfl⟩) h).2

/-- The short-circuit force of a leg alone. -/
def Hw.withLone (h : Hw) (n : Nat) : Hw :=
  { h with gdp := { h.gdp with lone := h.gdp.lone ||| BitVec.ofNat 96 (2 ^ n) } }

theorem Hw.withLone_tightens (h : Hw) (n : Nat) : Tightens h (h.withLone n) where
  stat _ := rfl
  evt _ := id
  force _ _ _ := id
  lone m hm := by rw [Hw.withLone, BitVec.getLsbD_or, hm, Bool.true_or]
  gst := rfl
  off _ := id
  low _ := id

/-- A short circuit on a leg of no axis forces that leg alone. -/
theorem Hw.short_unowned {h : Hw} {n : Nat} (e : h.legAxis n = none) (ts : Nat) :
    h.short n ts = ((h.shortNoted n (h.shortTs ts)).withLone n).forceMask (h.shortNoted n (h.shortTs ts))
      (BitVec.ofNat 96 (2 ^ n)) := by
  have e' := ((h.shortNoted_units n (h.shortTs ts)).legAxis n).trans e
  unfold Hw.short
  extract_lets t d k0 k
  split
  · rfl
  · next a ha => exact absurd (e'.symm.trans ha) (Option.some_ne_none a).symm

/-- The short-circuit force of axis a holds the legs of a mask, and has begun on those that no protection held. -/
def Hw.shortForced (h : Hw) (a : Nat) (mask : BitVec 96) : Hw :=
  (h.setProt a 2 { h.prot a 2 with force := (h.prot a 2).force ||| mask }).forceMask h mask

theorem Hw.shortForced_tightens (h : Hw) (a : Nat) (m : BitVec 96) : Tightens h (h.shortForced a m) :=
  (Tightens.setProt h a 2 (x := { h.prot a 2 with force := (h.prot a 2).force ||| m }) fun n hn => by
    rw [BitVec.getLsbD_or, hn, Bool.true_or]).trans (.forceMask _ h m)

theorem Hw.shortForced_holds (h : Hw) (a : Nat) {m : BitVec 96} {n : Nat} (hm : m.getLsbD n = true) :
    ((h.shortForced a m).prot a 2).force.getLsbD n = true := by
  refine (Tightens.forceMask (h.setProt a 2 { h.prot a 2 with force := (h.prot a 2).force ||| m }) h m).force a 2 n ?_
  rw [Hw.prot, Hw.setProt, tabGet_tabSet_same, BitVec.getLsbD_or, hm, Bool.or_true]

/-- A short circuit on a leg of an axis forces every leg of the axis; what follows only tightens. -/
theorem Hw.short_owned {h : Hw} {n a : Nat} (e : h.legAxis n = some a) (ts : Nat) :
    Tightens ((h.shortNoted n (h.shortTs ts)).shortForced a ((h.shortNoted n (h.shortTs ts)).axisMask a))
      (h.short n ts) := by
  have e' := ((h.shortNoted_units n (h.shortTs ts)).legAxis n).trans e
  unfold Hw.short
  extract_lets t d k0 k
  split
  · next ha => exact absurd (e'.symm.trans ha) (Option.some_ne_none a)
  · next b hb =>
    obtain rfl : a = b := Option.some.inj (e'.symm.trans hb)
    exact .ite (.protFault _ a 2 _) ((Tightens.retryStop _ a 2).trans (.setProt _ a 2 fun _ => id))

/-- The hard fault's own code is no status force: a leg that no protection held before its code came is held by none. -/
theorem Hw.protForce_shortNoted {h : Hw} {n : Fin 96} (hp : h.protForce n = false) (ts : Nat) :
    ((h.setF (gstStat n) 2 0 4).shortNoted n ts).protForce n = false := by
  have hcode : ((h.setF (gstStat n) 2 0 4).shortNoted n ts).gstCode n = 4 :=
    (Hw.shortNoted_gstCode _ n ts n).trans (h.gstCode_setF n (by decide))
  have hgdp := (h.setF (gstStat n) 2 0 4).shortNoted_gdp n ts
  have hlatch : ((h.setF (gstStat n) 2 0 4).shortNoted n ts).reg (ra pGDP 0x058) = h.reg (ra pGDP 0x058) :=
    (Hw.shortNoted_reg _ n ts (by decide) (by decide) (by decide)).trans
      (h.reg_setF_ne (fun e => absurd (gstStat_ge n) (by rw [← e]; decide)) 2 0 4)
  generalize (h.setF (gstStat n) 2 0 4).shortNoted n ts = k at hcode hgdp hlatch ⊢
  have hstatus : k.statusForce n = false := by rw [Hw.statusForce, hcode]; rfl
  have htrip : k.tripForce n = h.tripForce n := by
    simp only [Hw.tripForce, Hw.bit, Hw.trip, hlatch, hgdp, Hw.setF, Hw.setReg_gdp]
  have hclass : k.classForce n = h.classForce n := by rw [Hw.classForce, hgdp]; rfl
  have hlone : k.gdp.lone = h.gdp.lone := by rw [hgdp]; rfl
  rw [Hw.protForce, Bool.or_eq_false_iff, Bool.or_eq_false_iff, Bool.or_eq_false_iff] at hp
  obtain ⟨⟨⟨-, htr⟩, hcl⟩, hlo⟩ := hp
  rw [Hw.protForce, hstatus, htrip, hclass, hlone, htr, hcl, hlo]
  rfl

/-- A short circuit tightens what holds once it is noted. -/
theorem Hw.short_tightens (h : Hw) (n ts : Nat) : Tightens (h.shortNoted n (h.shortTs ts)) (h.short n ts) := by
  cases e : h.legAxis n with
  | none =>
    rw [Hw.short_unowned e]
    exact (Hw.withLone_tightens _ n).trans (.forceMask _ _ _)
  | some a => exact (Hw.shortForced_tightens _ a _).trans (Hw.short_owned e ts)

/-- A hard fault is the status 4, with the event of a short circuit (R87). -/
theorem Hw.gstHard_status (h : Hw) (n : Fin 96) : (h.gstHard n).gstCode n = 4 ∧ (h.gstHard n).bit (gp rEVT) 1 = true := by
  have ht := (h.setF (gstStat n) 2 0 4).short_tightens n (h.grain - 3)
  exact ⟨(ht.gstCode n).trans ((Hw.shortNoted_gstCode _ n _ n).trans (h.gstCode_setF n (by decide))),
    ht.evt 1 (Hw.shortNoted_evt _ n _)⟩

/-- A hard fault on a leg of no axis forces that leg alone (R95). -/
theorem Hw.gstHard_unowned {h : Hw} {n : Fin 96} (e : h.legAxis n = none) : (h.gstHard n).gdp.lone.getLsbD n = true ∧
    (h.protForce n = true ∨ ((h.gstHard n).leg n).running = false) := by
  have hfree : h.protForce n = false → ∀ ts, ((h.setF (gstStat n) 2 0 4).shortNoted n ts).protForce n = false :=
    Hw.protForce_shortNoted
  have haxis := ((h.setGstStat_units n 2 0 4).legAxis n).trans e
  unfold Hw.gstHard
  generalize h.setF (gstStat n) 2 0 4 = k at hfree haxis ⊢
  rw [Hw.short_unowned haxis]
  generalize k.shortTs (h.grain - 3) = ts
  have hmask := getLsbD_ofNat_two_pow n.isLt
  refine ⟨(Tightens.forceMask ((k.shortNoted n ts).withLone n) _ _).lone n ?_, ?_⟩
  · rw [Hw.withLone, BitVec.getLsbD_or, hmask, Bool.or_true]
  · cases hp : h.protForce n
    · exact .inr (Hw.forceMask_off _ _ n.isLt hmask (hfree hp ts))
    · exact .inl rfl

/-- A hard fault on a leg of axis a forces the axis's legs, that leg among them (R95). -/
theorem Hw.gstHard_owned {h : Hw} {n : Fin 96} {a : Nat} (e : h.legAxis n = some a) :
    ((h.gstHard n).prot a 2).force.getLsbD n = true ∧
      (h.protForce n = true ∨ ((h.gstHard n).leg n).running = false) := by
  have hfree : h.protForce n = false → ∀ ts, ((h.setF (gstStat n) 2 0 4).shortNoted n ts).protForce n = false :=
    Hw.protForce_shortNoted
  have haxis := ((h.setGstStat_units n 2 0 4).legAxis n).trans e
  unfold Hw.gstHard
  generalize h.setF (gstStat n) 2 0 4 = k at hfree haxis ⊢
  have hshort := Hw.short_owned haxis (h.grain - 3)
  generalize k.shortTs (h.grain - 3) = ts at hshort
  have hmask := Hw.axisMask_of_legAxis n.isLt (((k.shortNoted_units n ts).legAxis n).trans haxis)
  refine ⟨hshort.force a 2 n (Hw.shortForced_holds _ a hmask), ?_⟩
  cases hp : h.protForce n
  · exact .inr (hshort.off n (Hw.forceMask_off _ _ n.isLt hmask (hfree hp ts)))
  · exact .inl rfl

/-! ### The end of a di/dt blank (R94) -/

/-- The rises of ENA whose blank has passed are no longer kept. -/
def Hw.dropBlanked (h : Hw) (n : Nat) : Hw :=
  let blank := h.f (gp (0x400 + 4 * n)) 24 16
  h.setLeg n { h.leg n with rises := (h.leg n).rises.filter fun r => decide (h.grain < r + blank) }

theorem Hw.dropBlanked_shows (h : Hw) (n : Nat) :
    (∀ r ∈ ((h.dropBlanked n).leg n).rises, h.grain < r + h.f (gp (0x400 + 4 * n)) 24 16) ∧
      ((h.dropBlanked n).leg n).running = (h.leg n).running := by
  rw [Hw.dropBlanked, Hw.leg_setLeg_same]
  exact ⟨fun r hr => of_decide_eq_true (List.mem_filter.mp hr).2, rfl⟩

end Sys2Proof.Machine

namespace Sys2Proof
open Machine

/-- Settles O27: each command shows its own code, event and force, and what follows them only tightens. -/
theorem gateStatusOfALeg : Obligations.GateStatusOfALeg := by
  intro s g n hl
  have period : ∀ {p hi : Nat} {P : State → Prop}, P (afterRun s g fun _ h => h.gstPeriod n p hi) →
      Gives (.gstPeriod g n p hi) s P := fun hP => gives_run (f := fun _ h => h.gstPeriod n _ _) hl hP
  obtain ⟨hcode, hevt⟩ := (s.hw.at g).gstHard_status n
  refine ⟨fun p hi e hne hk => period (Hw.gstPeriod_ok (h := s.hw.at g) e hne hk),
    fun p hi d e hd hne hk => period (Hw.gstPeriod_fault (h := s.hw.at g) e hd hne hk),
    fun p hi e hp hh => period (Hw.gstPeriod_error (h := s.hw.at g) e hp hh),
    fun e => gives_run (f := fun _ h => h.gstHard n) hl ⟨hcode, hevt, Hw.gstHard_unowned (h := s.hw.at g) e⟩,
    fun a e => gives_run (f := fun _ h => h.gstHard n) hl ⟨hcode, hevt, Hw.gstHard_owned (h := s.hw.at g) e⟩,
    gives_run (f := fun _ h => h.gstLost n (h.grain - 3)) hl (Hw.gstLost_shows (s.hw.at g) n _), fun x => ?_⟩
  obtain ⟨hrises, hrun⟩ := (s.hw.at g).dropBlanked_shows n
  exact gives_run (f := fun _ h => h.dropBlanked n) hl ⟨hrises, hrun, rfl⟩

end Sys2Proof

/-! Sigma-delta sensing (R104 to R118). A conversion, a crust output or a loss writes the registers of its channel; the
fault of an axis or the forces of its legs that may follow leave every register of the SDM pages. -/

namespace Sys2Proof.Machine

/-! ### What a fault of an axis leaves -/

/-- A register of the CAR and SDM pages, which lie between the pages of the axes and those of the legs. -/
def MidReg (b : Nat) : Prop := 0x80000 ≤ b ∧ b < 0x180000

@[simp] theorem Hw.setProt_calm (h : Hw) (a c : Nat) (x : ProtS) (b : Nat) : (h.setProt a c x).calm b = h.calm b := rfl

section
variable {b : Nat} (hb : MidReg b)
include hb

theorem MidReg.above_line_shaft : 0xB000 ≤ b := by
  have := hb.1
  omega

theorem MidReg.not_inLog : ¬ inLog b := not_inLog_of_ge (by have := hb.1; omega)

/-- No page below the carriers and none of a leg holds the register. -/
theorem MidReg.ne_ra {p off : Nat} (hp : p < 0x80 ∨ 0x180 ≤ p) (ho : off < 0x1000) : b ≠ ra p off := by
  obtain ⟨hlo, hhi⟩ := hb
  unfold ra
  omega

theorem MidReg.ne_axr {a off : Nat} (ha : a < 32) (ho : off < 0x1000) : b ≠ axr a off :=
  hb.ne_ra (by unfold pAX; omega) ho

theorem MidReg.ne_fb (h : Hw) (a : Nat) {off : Nat} (ho : off < 0x1000) : b ≠ ra (pFB (h.axFb a)) off :=
  hb.ne_ra (by have : h.axFb a < 64 := fld_lt _ _ _; unfold pFB; omega) ho

theorem MidReg.ne_lg (n : Nat) {off : Nat} (ho : off < 0x1000) : b ≠ lg n off := hb.ne_ra (by unfold pLEG; omega) ho

theorem Hw.log_mid (h : Hw) (p rk cd i ts fl : Nat) : (h.log p rk cd i ts fl).calm b = h.calm b :=
  (h.log_logged p rk cd i ts fl).calm hb.not_inLog

theorem Hw.evt_mid (h : Hw) {p : Nat} (hp : p < 0x80 ∨ 0x180 ≤ p) (i : Nat) : (h.evt p i).calm b = h.calm b :=
  h.evt_calm (hb.ne_ra hp (by decide)) (hb.ne_ra hp (by decide)) i

theorem Hw.axShape_mid (h : Hw) (a : Nat) : (h.axShape a).calm b = h.calm b := h.axShape_calm hb.above_line_shaft a

theorem Hw.axRamp_mid (h : Hw) (a dec : Nat) (vt : Int) (e : RampEnd) : (h.axRamp a dec vt e).calm b = h.calm b :=
  Hw.axShape_mid hb _ a

theorem Hw.homeEnd_mid (h : Hw) (a : Nat) : (h.homeEnd a).calm b = h.calm b := by
  have hsrc : b ≠ ra (pFB (h.axFb a)) 0x0C0 := hb.ne_fb h a (by decide)
  unfold Hw.homeEnd
  split
  · rfl
  · dsimp only
    rw [Hw.setAxis_calm]
    split
    · rw [Hw.setBit_calm _ (hb.ne_fb _ a (by decide)), Hw.setFbs_calm, Hw.setF_calm _ hsrc, Hw.setF_calm _ hsrc]
    · rfl

theorem Hw.forceBegin_mid (h : Hw) (n : Nat) : (h.forceBegin n).calm b = h.calm b :=
  Hw.evt_calm _ (hb.ne_lg n (by decide)) (hb.ne_lg n (by decide)) 6

theorem Hw.axisLegsOff_mid (h : Hw) (a : Nat) : (h.axisLegsOff a).calm b = h.calm b :=
  Hw.each_calm (fun n _ h => (Hw.legSafe_calm _ n).trans (h.setBit_calm (hb.ne_lg n (by decide)) 0 false)) _

theorem Hw.forceMask_mid (h before : Hw) (m : BitVec 96) : (h.forceMask before m).calm b = h.calm b :=
  Hw.each_calm (fun n _ h => h.forceBegin_mid hb n) h

/-! The axis a. -/

variable {a : Nat} (ha : a < 32)
include ha

theorem Hw.setAxr_mid (h : Hw) {off : Nat} (ho : off < 0x1000) (hi lo v : Nat) :
    (h.setF (axr a off) hi lo v).calm b = h.calm b := h.setF_calm (hb.ne_axr ha ho) hi lo v

theorem Hw.axEvt_mid (h : Hw) (i : Nat) : (h.evt (pAX a) i).calm b = h.calm b :=
  h.evt_mid hb (.inl (by unfold pAX; omega)) i

theorem Hw.homeDrop_mid (h : Hw) : (h.homeDrop a).calm b = h.calm b := by
  unfold Hw.homeDrop
  dsimp only
  rw [Hw.setAxis_calm, Hw.homeEnd_mid hb]
  split
  · split
    · rw [Hw.ite_calm, Hw.setReg_calm _ (hb.ne_axr ha (by decide)), ite_self]
    · rfl
  · rfl

theorem Hw.axStop_mid (h : Hw) (dec : Nat) (e : RampEnd) : (h.axStop a dec e).calm b = h.calm b := by
  unfold Hw.axStop
  split
  · dsimp only
    split <;> simp only [Hw.ite_calm, Hw.axRamp_mid hb, Hw.setAxis_calm, ite_self]
  · rw [Hw.axRamp_mid hb, Hw.setAxState, Hw.setAxr_mid hb ha _ (by decide), Hw.homeDrop_mid hb ha]

theorem Hw.axOff_mid (h : Hw) : (h.axOff a).calm b = h.calm b := by
  have hstat : b ≠ axr a rSTAT := hb.ne_axr ha (by decide)
  simp only [Hw.axOff, Hw.setAxState, Hw.axShape_mid hb, Hw.setF_calm _ hstat, Hw.setBit_calm _ hstat, Hw.setAxis_calm,
    Hw.wallAt_calm, Hw.homeDrop_mid hb ha, Hw.axisLegsOff_mid hb]

/-- A fault of an axis leaves the registers of the carriers and of the channels. -/
theorem Hw.axFault_mid (h : Hw) (code react rank : Nat) : (h.axFault a code react rank).calm b = h.calm b := by
  have hcode : ∀ (h : Hw) hi lo v, (h.setF (axr a 0x0A4) hi lo v).calm b = h.calm b := fun h =>
    h.setAxr_mid hb ha (by decide)
  unfold Hw.axFault
  split
  · rw [Hw.axEvt_mid hb ha, Hw.log_mid hb]
  · simp only [Hw.ite_calm, Hw.axOff_mid hb ha, Hw.axStop_mid hb ha, Hw.axHigh_calm, Hw.axEvt_mid hb ha, hcode,
      Hw.log_mid hb, ite_self]

theorem Hw.axProtWait_mid (h : Hw) : (h.axProtWait a).calm b = h.calm b := by
  have hstat : b ≠ axr a rSTAT := hb.ne_axr ha (by decide)
  have hpos : ∀ (h : Hw) v, (h.setReg64 (axr a 0x098) v).calm b = h.calm b := fun h v =>
    (Hw.setReg_calm _ (hb.ne_axr (off := 0x09C) ha (by decide)) _).trans (h.setReg_calm (hb.ne_axr ha (by decide)) _)
  simp only [Hw.axProtWait, Hw.ite_calm, Hw.axShape_mid hb, Hw.axHigh_calm, Hw.setAxState, Hw.setF_calm _ hstat,
    Hw.setBit_calm _ hstat, hpos, Hw.setAxis_calm, Hw.wallAt_calm, Hw.homeDrop_mid hb ha, ite_self]

theorem MidReg.ne_axProt : b ≠ axProt a := hb.ne_ra (p := pGDP) (by decide) (by omega)

theorem Hw.retryWait_mid (h : Hw) (c : Nat) : (h.retryWait a c).calm b = h.calm b :=
  Hw.setBit_calm _ (hb.ne_axProt ha) _ true

theorem Hw.retryStop_mid (h : Hw) (c : Nat) : (h.retryStop a c).calm b = h.calm b :=
  Hw.setBit_calm _ (hb.ne_axProt ha) _ false

theorem Hw.faultLatch_mid (h : Hw) (c : Nat) : (h.faultLatch a c).calm b = h.calm b := by
  unfold Hw.faultLatch Hw.axProtLatched
  dsimp only
  rw [Hw.axFault_mid hb ha, Hw.setBit_calm _ (hb.ne_axr ha (by decide)), Hw.evt_mid hb _ (by decide),
    Hw.setBit_calm _ (hb.ne_axProt ha), Hw.axisLegsOff_mid hb, Hw.retryStop_mid hb ha]
  rfl

theorem Hw.protFault_mid (h : Hw) (c : Nat) (m : BitVec 96) : (h.protFault a c m).calm b = h.calm b := by
  simp only [Hw.protFault, Hw.ite_calm, Hw.faultLatch_mid hb ha, Hw.axProtWait_mid hb ha, Hw.retryWait_mid hb ha,
    Hw.setProt_calm, ite_self]

/-! ### What a short circuit leaves -/

omit ha

theorem Hw.shortNoted_mid (h : Hw) (n ts : Nat) : (h.shortNoted n ts).calm b = h.calm b := by
  have hg : (h.shortNoted n ts).sys = h.sys ∧ (h.shortNoted n ts).grain = h.grain :=
    ⟨(Hw.log_logged ..).sys.trans (Hw.evtTs_sys ..), (Hw.log_logged ..).grain.trans (Hw.evtTs_grain ..)⟩
  rw [Hw.calm, hg.1, hg.2, h.shortNoted_reg n ts (by have := hb.1; omega) (hb.ne_ra (by decide) (by decide))
    (hb.ne_ra (by decide) (by decide))]
  rfl

/-- A short circuit leaves the registers of the carriers and of the channels. -/
theorem Hw.short_mid (h : Hw) (n ts : Nat) : (h.short n ts).calm b = h.calm b := by
  have hnote := h.shortNoted_mid hb n (h.shortTs ts)
  unfold Hw.short
  extract_lets t d k0 k
  have hk : k.calm b = h.calm b := hnote
  split
  · exact (Hw.forceMask_mid hb _ _ _).trans hk
  · next a e =>
    have ha := Hw.legAxis_lt e
    have hforced : ((k.setProt a 2 { k.prot a 2 with force := (k.prot a 2).force ||| k.axisMask a }).forceMask k
        (k.axisMask a)).calm b = h.calm b := (Hw.forceMask_mid hb _ _ _).trans hk
    dsimp only
    generalize (k.setProt a 2 _).forceMask k _ = k' at hforced ⊢
    rw [Hw.ite_calm, Hw.protFault_mid hb ha, Hw.setProt_calm, Hw.retryStop_mid hb ha, ite_self, hforced]

/-- The di/dt detector leaves the registers of the carriers and of the channels. -/
theorem Hw.didt_mid (h : Hw) (n : Nat) (c : Int) (S : Nat) : (h.didt n c S).calm b = h.calm b := by
  unfold Hw.didt
  dsimp only
  split
  · rfl
  · split
    · rw [Hw.ite_calm, Hw.short_mid hb]
      exact ite_self _
    · rfl

/-! ### What the acquisition's notes leave -/

/-- A value noted for the acquisition leaves the registers of the carriers and of the channels. -/
theorem Hw.acqNote_mid (h : Hw) (kind inst ts v : Nat) : (h.acqNote kind inst ts v).calm b = h.calm b := by
  have hcnt : ∀ h : Hw, (h.bump (aq 0x078) 15 0).calm b = h.calm b := fun h =>
    h.setF_calm (hb.ne_ra (p := pACQ) (by decide) (by decide)) _ _ _
  have hlate : (h.acqLate kind inst ts).calm b = h.calm b := by
    unfold Hw.acqLate
    split
    · rfl
    · exact Hw.each_calm (fun c _ h => by rw [Hw.ite_calm, Hw.evt_mid hb _ (by decide), hcnt, ite_self]) h
  refine Eq.trans (Hw.each_calm (fun c _ k => ?_) _) hlate
  rfl

end

/-! ### The registers of a channel -/

theorem sd_inj {n m off off' : Nat} (h1 : off < 0x1000) (h2 : off' < 0x1000) :
    sd n off = sd m off' ↔ n = m ∧ off = off' := by
  unfold sd ra pSDM
  omega

theorem sd_ne {n m off off' : Nat} (h1 : off < 0x1000) (h2 : off' < 0x1000) (h : off ≠ off') : sd n off ≠ sd m off' :=
  ra_ne_off h1 h2 h

theorem midReg_sd {n off : Nat} (hn : n < 112) (ho : off < 0x1000) : MidReg (sd n off) := by
  unfold MidReg sd ra pSDM
  omega

/-- An event of a channel moves EVT and EVT_TS of its page alone. -/
theorem Hw.reg_evt_sd (h : Hw) (n m i : Nat) {off : Nat} (ho : off < 0x1000) (h1 : off ≠ rEVT) (h2 : off ≠ rEVT_TS) :
    (h.evt (pSDM m) i).reg (sd n off) = h.reg (sd n off) :=
  h.reg_evt_ne (sd_ne ho (by decide) h1) (sd_ne ho (by decide) h2) i

/-- A counted event of a channel moves FLT_CNT of its page and what a record in the log moves. -/
theorem Hw.reg_fltEvent_sd (h : Hw) {n off : Nat} (hn : n < 112) (ho : off < 0x1000) (hc : off ≠ rFLT_CNT)
    (rk cd i ts : Nat) : (h.fltEvent (pSDM n) rk cd i ts).1.reg (sd n off) = h.reg (sd n off) :=
  congrArg (·.1) (h.fltEvent_engView ⟨(midReg_sd hn ho).not_inLog, sd_ne ho (by decide) hc⟩ rk cd i ts)

/-- A sensor fault of a channel leaves the registers of all channels. -/
theorem Hw.reg_sdmFault (h : Hw) {b : Nat} (hb : MidReg b) (n : Nat) : (h.sdmFault n).reg b = h.reg b := by
  unfold Hw.sdmFault
  split
  · split
    · next a e => exact Hw.reg_of_calm (h.axFault_mid hb (Hw.legAxis_lt e) _ _ _)
    · rfl
  · rfl

/-! ### Conversions (R109 to R115) -/

/-- What every conversion notes: its last bit, and whether targets merged in it. -/
def Hw.sdmEnded (h : Hw) (n last : Nat) (merged : Bool) : Hw :=
  (h.setSdm n { h.sdmS n with lastEnd := some last }).when merged (·.evt (pSDM n) 5)

theorem Hw.reg_sdmEnded (h : Hw) (n last : Nat) (merged : Bool) {off : Nat} (ho : off < 0x1000) (h1 : off ≠ rEVT)
    (h2 : off ≠ rEVT_TS) : (h.sdmEnded n last merged).reg (sd n off) = h.reg (sd n off) := by
  unfold Hw.sdmEnded Hw.when
  split
  · exact Hw.reg_evt_sd _ n n 5 ho h1 h2
  · rfl

theorem Hw.f_sdmEnded (h : Hw) (n last : Nat) (merged : Bool) {off : Nat} (ho : off < 0x1000) (h1 : off ≠ rEVT)
    (h2 : off ≠ rEVT_TS) (hi lo : Nat) : (h.sdmEnded n last merged).f (sd n off) hi lo = h.f (sd n off) hi lo :=
  congrArg (fld · hi lo) (h.reg_sdmEnded n last merged ho h1 h2)

/-- The registers of a channel take a valid conversion. -/
def Hw.sdmPut (h : Hw) (n : Nat) (data ts err : Word) : Hw :=
  ((((h.setReg (sd n 0x068) data).setReg (sd n 0x06C) ts).setReg (sd n 0x070) err).setBit (sd n rSTAT) 0 true).setBit
    (sd n rREADY) 2 true

theorem Hw.sdmPut_shows (h : Hw) (n : Nat) (data ts err : Word) : (h.sdmPut n data ts err).reg (sd n 0x068) = data ∧
    (h.sdmPut n data ts err).reg (sd n 0x06C) = ts ∧ (h.sdmPut n data ts err).reg (sd n 0x070) = err ∧
    (h.sdmPut n data ts err).bit (sd n rSTAT) 0 = true := by
  have hready : ∀ off < 0x1000, off ≠ rREADY → sd n off ≠ sd n rREADY := fun _ ho => sd_ne ho (by decide)
  have hstat : (h.sdmPut n data ts err).bit (sd n rSTAT) 0 = true := by
    rw [Hw.sdmPut, Hw.bit_setBit_ne _ (hready _ (by decide) (by decide)), Hw.bit_setBit_same _ _ (by decide)]
  refine ⟨?_, ?_, ?_, hstat⟩ <;>
    simp [Hw.sdmPut, Hw.setBit, Hw.setF, Hw.reg_setReg, sd_inj, rSTAT, rREADY]

/-- An overrange of a channel is shown, counted and, where it lasts, reported (R114). -/
def Hw.sdmOver (h : Hw) (n : Nat) : Hw :=
  let k := (h.evt (pSDM n) 1).bump (sd n 0x078) 15 0
  let r := k.fltEvent (pSDM n) 10 1 n k.grain
  if r.2 then r.1.sdmFault n else r.1

/-- An overrange moves EVT, FLT_CNT and OVR_CNT of its channel. -/
theorem Hw.reg_sdmOver (h : Hw) {n off : Nat} (hn : n < 112) (ho : off < 0x1000)
    (hoff : off ∉ [rEVT, rEVT_TS, rFLT_CNT, 0x078]) : (h.sdmOver n).reg (sd n off) = h.reg (sd n off) := by
  simp only [List.mem_cons, List.not_mem_nil, or_false, not_or] at hoff
  obtain ⟨h1, h2, h3, h4⟩ := hoff
  have hcnt : ((h.evt (pSDM n) 1).bump (sd n 0x078) 15 0).reg (sd n off) = h.reg (sd n off) :=
    (Hw.reg_bump_ne _ (sd_ne ho (by decide) h4) 15 0).trans (h.reg_evt_sd n n 1 ho h1 h2)
  have hflt := (Hw.reg_fltEvent_sd ((h.evt (pSDM n) 1).bump (sd n 0x078) 15 0) hn ho h3 10 1 n
    ((h.evt (pSDM n) 1).bump (sd n 0x078) 15 0).grain).trans hcnt
  unfold Hw.sdmOver
  dsimp only
  split
  · exact (Hw.reg_sdmFault _ (midReg_sd hn ho) n).trans hflt
  · exact hflt

/-- The word of DATA for a conversion whose bits have the weighted sum sigma: y, SEQ, SAT, OVR and VALID (R109, R114). -/
def Hw.sdmData (h : Hw) (n seq : Nat) (p : SdmPlace) (sigma : Nat) : Word :=
  let M := fld p.set.cfg 8 0
  let y := crumb M sigma p.set.gain p.set.offset
  BitVec.ofNat 32 (unsign 24 y.1 * 256 + seq * 16 + (if y.2 then 4 else 0) +
    (if h.f (sd n 0x058) 22 0 * M ^ 3 ≤ (2 * (sigma : Int) - (M ^ 3 : Nat)).natAbs * 2 ^ 23 then 2 else 0) + 1)

/-- DATA_ERR of a conversion: its distance from its target, 0 in free mode (R111). -/
def SdmPlace.err (p : SdmPlace) : Word :=
  match p.target with
  | some T => BitVec.ofNat 32 (unsign 16 (p.centre - T))
  | none => 0

/-- A conversion of bits writes the registers of its channel; an overrange is shown after its note for the acquisition. -/
theorem Hw.sdmValue_cases (h : Hw) (n seq : Nat) (p : SdmPlace) (bits : List Bool) : ∃ ts v k,
    k = (h.sdmPut n (h.sdmData n seq p (weighted (sinc3 (fld p.set.cfg 8 0)) bits))
      (BitVec.ofNat 32 (p.centre.toNat / 32)) p.err).acqNote 1 n ts v ∧
    (h.sdmValue n seq p bits = k.sdmOver n ∨ h.sdmValue n seq p bits = k) := by
  refine ⟨(p.centre.toNat + 31) / 32, unsign 24 (crumb (fld p.set.cfg 8 0) (weighted (sinc3 (fld p.set.cfg 8 0)) bits)
    p.set.gain p.set.offset).1, _, rfl, ?_⟩
  by_cases hovr : h.f (sd n 0x058) 22 0 * fld p.set.cfg 8 0 ^ 3 ≤
      (2 * (weighted (sinc3 (fld p.set.cfg 8 0)) bits : Int) - (fld p.set.cfg 8 0 ^ 3 : Nat)).natAbs * 2 ^ 23
  · left
    simp only [Hw.sdmValue, Hw.sdmData, hovr, decide_true, if_true]
    rfl
  · right
    simp only [Hw.sdmValue, Hw.sdmData, hovr, decide_false, Bool.false_eq_true, if_false]
    rfl

/-- A conversion of bits shows its value, its time, its distance from its target and VALID. -/
theorem Hw.sdmValue_shows (h : Hw) {n : Nat} (hn : n < 112) (seq : Nat) (p : SdmPlace) (bits : List Bool) :
    (h.sdmValue n seq p bits).reg (sd n 0x068) = h.sdmData n seq p (weighted (sinc3 (fld p.set.cfg 8 0)) bits) ∧
    (h.sdmValue n seq p bits).reg (sd n 0x06C) = BitVec.ofNat 32 (p.centre.toNat / 32) ∧
    (h.sdmValue n seq p bits).reg (sd n 0x070) = p.err ∧ (h.sdmValue n seq p bits).bit (sd n rSTAT) 0 = true := by
  obtain ⟨ts, v, k, hk, hend⟩ := h.sdmValue_cases n seq p bits
  generalize h.sdmData n seq p (weighted (sinc3 (fld p.set.cfg 8 0)) bits) = data at hk ⊢
  generalize BitVec.ofNat 32 (p.centre.toNat / 32) = time at hk ⊢
  obtain ⟨hdata, htime, herr, hstat⟩ := h.sdmPut_shows n data time p.err
  have hreg : ∀ off < 0x1000, off ∉ [rEVT, rEVT_TS, rFLT_CNT, 0x078] →
      (h.sdmValue n seq p bits).reg (sd n off) = (h.sdmPut n data time p.err).reg (sd n off) := fun off ho hoff => by
    have hnote : k.reg (sd n off) = (h.sdmPut n data time p.err).reg (sd n off) := by
      rw [hk, Hw.reg_of_calm (Hw.acqNote_mid (midReg_sd hn ho) _ 1 n ts v)]
    rcases hend with e | e
    · rw [e, Hw.reg_sdmOver k hn ho hoff, hnote]
    · rw [e, hnote]
  exact ⟨(hreg _ (by decide) (by decide)).trans hdata, (hreg _ (by decide) (by decide)).trans htime,
    (hreg _ (by decide) (by decide)).trans herr,
    (congrArg (bitOf · 0) (hreg rSTAT (by decide) (by decide))).trans hstat⟩

/-- A valid conversion of a channel that is not lost, all of whose bits were taken since the channel started. -/
theorem Hw.sdmConv_valid {h : Hw} {n : Nat} {d : SdmBits} {p : SdmPlace} (hon : h.bit (sd n rCTRL) 0 = true)
    (hdue : h.sdmDue n d.last = true) (hp : h.sdmPlace n d.last = some p) (hl : h.sdmLost n = false)
    (hfrom : (h.sdmS n).from_ ≤ h.edgeBack (h.sdmClk n) (3 * fld p.set.cfg 8 0 - 2 - 1) d.last) :
    h.sdmConv n d = (h.sdmEnded n d.last p.merged).sdmValue n ((h.f (sd n 0x068) 7 4 + 1) % 16) p
      (h.sdmTaken n (3 * fld p.set.cfg 8 0 - 2) d) := by
  unfold Hw.sdmConv
  simp only [hon, hdue, hp, hl, Bool.not_true, Bool.or_self, Bool.false_eq_true, if_false, if_neg (Nat.not_lt.mpr hfrom)]
  rfl

/-- A conversion of a stuck channel whose clock is not lost is void. -/
theorem Hw.sdmConv_void {h : Hw} {n : Nat} {d : SdmBits} {p : SdmPlace} (hon : h.bit (sd n rCTRL) 0 = true)
    (hdue : h.sdmDue n d.last = true) (hp : h.sdmPlace n d.last = some p) (hs : h.bit (sd n rSTAT) 2 = true)
    (hc : h.bit (sd n rSTAT) 1 = false) :
    h.sdmConv n d = (h.sdmEnded n d.last p.merged).sdmVoid n ((h.f (sd n 0x068) 7 4 + 1) % 16) p := by
  have hl : h.sdmLost n = true := by rw [Hw.sdmLost, hs, Bool.or_true]
  unfold Hw.sdmConv
  simp only [hon, hdue, hp, hl, hc, Bool.not_true, Bool.or_self, Bool.false_eq_true, if_false, if_true, Bool.false_and]
  rfl

/-- A void conversion keeps the value of the last valid one and counts SEQ on. -/
theorem Hw.sdmVoid_shows (h : Hw) (n seq : Nat) (p : SdmPlace) :
    (h.sdmVoid n seq p).reg (sd n 0x068) = BitVec.ofNat 32 (h.f (sd n 0x068) 31 8 * 256 + seq * 16) ∧
    (h.sdmVoid n seq p).reg (sd n 0x070) = 0 ∧ (h.sdmVoid n seq p).bit (sd n rSTAT) 0 = false := by
  refine ⟨?_, ?_, Hw.bit_setBit_same _ _ (by decide) false⟩ <;>
    simp [Hw.sdmVoid, Hw.setBit, Hw.setF, Hw.reg_setReg, sd_inj, rSTAT]

/-! ### Crust outputs (R113) -/

/-- The crust output of a channel with ratio Mc for its bits. -/
def crustOf (Mc : Nat) (bits : List Bool) : Int :=
  (satBits 16 (roundHalfEven ((2 * (weighted (sinc2 Mc) bits : Int) - (Mc ^ 2 : Nat)) * 2 ^ 15) (Mc ^ 2))).1

/-- The registers of a channel take a crust output. -/
def Hw.crustPut (h : Hw) (n last : Nat) (c : Int) : Hw :=
  ((h.setSdm n { h.sdmS n with crustEnd := some last }).setReg (sd n 0x074) (BitVec.ofNat 32 (unsign 16 c))).setBit
    (sd n rREADY) 2 true

/-- A crust output that is due goes to CRUST, to the acquisition and to the di/dt detector. -/
theorem Hw.sdmCrust_due {h : Hw} {n : Nat} {d : SdmBits} (hon : h.bit (sd n rCTRL) 0 = true) (hl : h.sdmLost n = false)
    (hdue : h.crustDue n (h.f (sd n 0x040) 21 16) d.last = true) : ∃ ts v S,
    h.sdmCrust n d =
      ((h.crustPut n d.last (crustOf (h.f (sd n 0x040) 21 16) (h.sdmTaken n (2 * h.f (sd n 0x040) 21 16 - 1) d))).acqNote
        2 n ts v).didt n (crustOf (h.f (sd n 0x040) 21 16) (h.sdmTaken n (2 * h.f (sd n 0x040) 21 16 - 1) d)) S := by
  unfold Hw.sdmCrust
  simp only [hon, hl, hdue, Bool.not_true, Bool.or_self, Bool.false_eq_true, if_false]
  exact ⟨_, _, _, rfl⟩

/-- A crust output that is due is shown in CRUST, and the channel is clocked. -/
theorem Hw.sdmCrust_shows {h : Hw} {n : Nat} {d : SdmBits} (hn : n < 112) (hon : h.bit (sd n rCTRL) 0 = true)
    (hl : h.sdmLost n = false) (hdue : h.crustDue n (h.f (sd n 0x040) 21 16) d.last = true) :
    (h.sdmCrust n d).reg (sd n 0x074) = BitVec.ofNat 32 (unsign 16 (crustOf (h.f (sd n 0x040) 21 16)
      (h.sdmTaken n (2 * h.f (sd n 0x040) 21 16 - 1) d))) ∧ (h.sdmCrust n d).bit (sd n rREADY) 2 = true := by
  obtain ⟨ts, v, S, e⟩ := Hw.sdmCrust_due hon hl hdue
  generalize crustOf (h.f (sd n 0x040) 21 16) (h.sdmTaken n (2 * h.f (sd n 0x040) 21 16 - 1) d) = c at e ⊢
  have hreg : ∀ off < 0x1000, (h.sdmCrust n d).reg (sd n off) = (h.crustPut n d.last c).reg (sd n off) := fun off ho => by
    have hm := midReg_sd hn ho
    rw [e, Hw.reg_of_calm (Hw.didt_mid hm _ n c S), Hw.reg_of_calm (Hw.acqNote_mid hm _ 2 n ts v)]
  refine ⟨(hreg _ (by decide)).trans ?_, (congrArg (bitOf · 2) (hreg rREADY (by decide))).trans ?_⟩
  · rw [Hw.crustPut, Hw.reg_setBit_ne _ (sd_ne (by decide) (by decide) (by decide)), Hw.reg_setReg_same]
  · exact Hw.bit_setBit_same _ _ (by decide) true

/-! ### Calibration (R108) -/

@[simp] theorem Hw.setSdm_reg (h : Hw) (n : Nat) (x : SdmS) (a : Nat) : (h.setSdm n x).reg a = h.reg a := rfl

@[simp] theorem Hw.setSdm_bit (h : Hw) (n : Nat) (x : SdmS) (a i : Nat) : (h.setSdm n x).bit a i = h.bit a i := rfl

@[simp] theorem Hw.setSdm_f (h : Hw) (n : Nat) (x : SdmS) (a hi lo : Nat) : (h.setSdm n x).f a hi lo = h.f a hi lo := rfl

@[simp] theorem Hw.sdmS_setBit (h : Hw) (a i : Nat) (v : Bool) (n : Nat) : (h.setBit a i v).sdmS n = h.sdmS n := rfl

theorem Hw.sdmS_setSdm (h : Hw) (n : Nat) (x : SdmS) : (h.setSdm n x).sdmS n = x := tabGet_tabSet_same _ _ _ _

theorem runLen_le (l : List Bool) : runLen l ≤ l.length := by
  induction l with
  | nil => exact Nat.le_refl _
  | cons x l ih => cases x <;> simp [runLen, ih]

/-- The longest cyclic run starts in the list and is no longer than it. -/
theorem longestRun_le (l : List Bool) : (longestRun l).1 ≤ l.length ∧ (longestRun l).2 ≤ l.length := by
  unfold longestRun
  refine List.foldlRecOn (motive := fun best : Nat × Nat => best.1 ≤ l.length ∧ best.2 ≤ l.length) _ _
    ⟨Nat.zero_le _, Nat.zero_le _⟩ fun best hbest i hi => ?_
  have hi := (List.mem_range.mp hi).le
  have hrun : runLen (l.drop i ++ l.take i) ≤ l.length := (runLen_le _).trans (by simp; omega)
  dsimp only
  split
  · exact ⟨hi, hrun⟩
  · exact hbest

/-- The sample points of channel n, up to floor(N / 4) − 1, without disagreement in a sweep. -/
def Hw.sdmGood (h : Hw) (n : Nat) (dis : List Nat) : List Bool :=
  (List.range (h.dclkN (h.sdmClk n) / 4)).map fun i => dis[i]? == some 0

theorem Hw.sdmGood_length (h : Hw) (n : Nat) (dis : List Nat) :
    (h.sdmGood n dis).length = h.dclkN (h.sdmClk n) / 4 ∧ (h.sdmGood n dis).length < 64 := by
  have hN : h.dclkN (h.sdmClk n) < 256 := fld_lt _ _ _
  have hlen : (h.sdmGood n dis).length = h.dclkN (h.sdmClk n) / 4 := by simp [Hw.sdmGood]
  exact ⟨hlen, by omega⟩

/-- The sweep of channel n is over: CAL_BUSY is clear. -/
def Hw.sdmSwept (h : Hw) (n : Nat) : Hw := (h.setBit (sd n rSTAT) 5 false).setSdm n { h.sdmS n with cal := none }

/-- The eye of a sweep and the sample point it gives, written in band b of SPD. -/
def Hw.sdmEye (h : Hw) (n b Q : Nat) (eye : Nat × Nat) : Hw :=
  (((h.setF (sd n 0x064) 5 0 eye.1).setF (sd n 0x064) 21 16 eye.2).spdChange n fun h =>
    h.setF (sd n 0x060) (8 * b + 5) (8 * b) ((eye.1 + (eye.2 - 1) / 2) % Q)).setBit (sd n rREADY) 1 true

/-- The end of a sweep: an eye is taken where the band stood and some point is good. -/
theorem Hw.sdmCalDone_eq {h : Hw} {n c : Nat} (hc : (h.sdmS n).cal = some c) (dis : List Nat) : h.sdmCalDone n dis =
    if (longestRun (h.sdmGood n dis)).2 = 0 ∨ (h.sup.bands.any fun e => decide (c ≤ e.1)) = true then
      (h.sdmSwept n).evt (pSDM n) 4
    else (h.sdmSwept n).sdmEye n h.band (h.dclkN (h.sdmClk n) / 4) (longestRun (h.sdmGood n dis)) := by
  unfold Hw.sdmCalDone
  rw [hc]
  rfl

/-- A sweep in which the band stood and some point is good gives the eye. -/
theorem Hw.sdmCalDone_found {h : Hw} {n c : Nat} {dis : List Nat} (hc : (h.sdmS n).cal = some c)
    (hband : (h.sup.bands.any fun e => decide (c ≤ e.1)) = false) (hgood : 0 < (longestRun (h.sdmGood n dis)).2) :
    h.sdmCalDone n dis =
      (h.sdmSwept n).sdmEye n h.band (h.dclkN (h.sdmClk n) / 4) (longestRun (h.sdmGood n dis)) :=
  (Hw.sdmCalDone_eq hc dis).trans (if_neg (not_or.mpr ⟨hgood.ne', by rw [hband]; decide⟩))

/-- A sweep in which the band moved or no point is good fails. -/
theorem Hw.sdmCalDone_failed {h : Hw} {n c : Nat} {dis : List Nat} (hc : (h.sdmS n).cal = some c)
    (hno : (longestRun (h.sdmGood n dis)).2 = 0 ∨ (h.sup.bands.any fun e => decide (c ≤ e.1)) = true) :
    h.sdmCalDone n dis = (h.sdmSwept n).evt (pSDM n) 4 :=
  (Hw.sdmCalDone_eq hc dis).trans (if_pos hno)

theorem Hw.sdmSwept_shows (h : Hw) (n : Nat) : (h.sdmSwept n).bit (sd n rSTAT) 5 = false ∧
    ((h.sdmSwept n).sdmS n).cal = none := by
  rw [Hw.sdmSwept, Hw.setSdm_bit, Hw.sdmS_setSdm]
  exact ⟨Hw.bit_setBit_same _ _ (by decide) false, rfl⟩

/-- An eye shows its start and length, gives the sample point of its band, and sets CAL_DONE. -/
theorem Hw.sdmEye_shows (h : Hw) (n : Nat) {b Q : Nat} {eye : Nat × Nat} (hb : b < 4) (hQ : Q < 64) (h0 : 0 < Q)
    (h1 : eye.1 < 64) (h2 : eye.2 < 64) : (h.sdmEye n b Q eye).bit (sd n rSTAT) 5 = h.bit (sd n rSTAT) 5 ∧
    ((h.sdmEye n b Q eye).sdmS n).cal = (h.sdmS n).cal ∧ (h.sdmEye n b Q eye).f (sd n 0x064) 5 0 = eye.1 ∧
    (h.sdmEye n b Q eye).f (sd n 0x064) 21 16 = eye.2 ∧
    (h.sdmEye n b Q eye).f (sd n 0x060) (8 * b + 5) (8 * b) = (eye.1 + (eye.2 - 1) / 2) % Q ∧
    (h.sdmEye n b Q eye).bit (sd n rREADY) 1 = true := by
  have hmod : (eye.1 + (eye.2 - 1) / 2) % Q % 64 = (eye.1 + (eye.2 - 1) / 2) % Q :=
    Nat.mod_eq_of_lt ((Nat.mod_lt _ h0).trans hQ)
  refine ⟨?_, ?_, ?_, ?_, ?_, Hw.bit_setBit_same _ _ (by decide) true⟩
  · simp [Hw.sdmEye, Hw.spdChange, Hw.bit, Hw.setBit, Hw.setF, Hw.reg_setReg, sd_inj, rSTAT, rREADY]
  · rw [Hw.sdmEye, Hw.spdChange, Hw.sdmS_setBit, Hw.sdmS_setSdm]
    rfl
  · simp [Hw.sdmEye, Hw.spdChange, Hw.f, Hw.setBit, Hw.setF, Hw.reg_setReg, sd_inj, rREADY, fld_putFld, Nat.mod_eq_of_lt h1]
  · simp [Hw.sdmEye, Hw.spdChange, Hw.f, Hw.setBit, Hw.setF, Hw.reg_setReg, sd_inj, rREADY, fld_putFld, Nat.mod_eq_of_lt h2]
  · rw [Hw.sdmEye, Hw.f, Hw.reg_setBit_ne _ (sd_ne (by decide) (by decide) (by decide)), Hw.spdChange, Hw.setSdm_reg,
      Hw.reg_setF_same, fld_putFld_same _ (by omega) (by omega), show 8 * b + 5 + 1 - 8 * b = 6 by omega]
    exact hmod

/-- A failed sweep is over, sets CAL_FAIL and leaves SPD. -/
theorem Hw.sdmFailed_shows (h : Hw) (n : Nat) : ((h.sdmSwept n).evt (pSDM n) 4).bit (sd n rSTAT) 5 = false ∧
    (((h.sdmSwept n).evt (pSDM n) 4).sdmS n).cal = none ∧
    ((h.sdmSwept n).evt (pSDM n) 4).bit (ra (pSDM n) rEVT) 4 = true ∧
    ((h.sdmSwept n).evt (pSDM n) 4).reg (sd n 0x060) = h.reg (sd n 0x060) := by
  obtain ⟨hbusy, hcal⟩ := h.sdmSwept_shows n
  refine ⟨?_, ?_, Hw.bit_evt _ _ (by decide), ?_⟩
  · rw [Hw.bit, Hw.reg_evt_sd _ n n 4 (by decide) (by decide) (by decide)]
    exact hbusy
  · rw [Hw.sdmS, Hw.evt_sdm]
    exact hcal
  · rw [Hw.reg_evt_sd _ n n 4 (by decide) (by decide) (by decide), Hw.sdmSwept, Hw.setSdm_reg]
    exact Hw.reg_setBit_ne _ (sd_ne (by decide) (by decide) (by decide)) 5 false

/-! ### Losses (R115) -/

/-- Channel n shows a loss: bit i of STAT and bit e of EVT are set, and CLOCKED is clear. -/
def Hw.ShowsLoss (h : Hw) (n i e : Nat) : Prop :=
  h.bit (sd n rSTAT) i = true ∧ h.bit (sd n rREADY) 2 = false ∧ h.bit (ra (pSDM n) rEVT) e = true

/-- A loss is read in the registers of its channel alone. -/
theorem Hw.ShowsLoss.of_reg {h k : Hw} {n i e : Nat} (hs : h.ShowsLoss n i e)
    (hreg : ∀ off < 0x1000, k.reg (sd n off) = h.reg (sd n off)) : k.ShowsLoss n i e := by
  obtain ⟨hstat, hready, hevt⟩ := hs
  exact ⟨(congrArg (bitOf · i) (hreg rSTAT (by decide))).trans hstat,
    (congrArg (bitOf · 2) (hreg rREADY (by decide))).trans hready,
    (congrArg (bitOf · e) (hreg rEVT (by decide))).trans hevt⟩

/-- A loss of channel n, with bit i of STAT and event e, as its page takes it. -/
def Hw.sdmLose (h : Hw) (n i e : Nat) : Hw :=
  ((h.setBit (sd n rSTAT) i true).setBit (sd n rREADY) 2 false).evt (pSDM n) e

theorem Hw.sdmLose_shows (h : Hw) (n : Nat) {i e : Nat} (hi : i < 32) (he : e < 32) :
    (h.sdmLose n i e).ShowsLoss n i e := by
  refine ⟨?_, ?_, Hw.bit_evt _ _ he⟩
  · rw [Hw.sdmLose, Hw.bit, Hw.reg_evt_sd _ n n e (by decide) (by decide) (by decide),
      Hw.reg_setBit_ne _ (sd_ne (by decide) (by decide) (by decide))]
    exact Hw.bit_setBit_same _ _ hi true
  · rw [Hw.sdmLose, Hw.bit, Hw.reg_evt_sd _ n n e (by decide) (by decide) (by decide)]
    exact Hw.bit_setBit_same _ _ (by decide) false

/-- Data held for STUCK_LIM bits shows as a loss with STUCK and its event. -/
theorem Hw.sdmStuck_shows {h : Hw} {n held : Nat} (hn : n < 112) (hon : h.bit (sd n rCTRL) 0 = true)
    (hl : h.sdmLost n = false) (hheld : h.f (sd n 0x05C) 9 0 ≤ held) : (h.sdmStuck n held).ShowsLoss n 2 2 := by
  have e : h.sdmStuck n held = (h.sdmLose n 2 2).sdmFault n := if_pos (by rw [hon, hl, decide_eq_true hheld]; rfl)
  rw [e]
  exact (h.sdmLose_shows n (by decide) (by decide)).of_reg fun off ho => Hw.reg_sdmFault _ (midReg_sd hn ho) n

/-- A channel loses its clock. -/
def Hw.clockLoss (h : Hw) (n : Nat) : Hw :=
  if (h.sdmLose n 1 3).bit (sd n rCTRL) 0 then (h.sdmLose n 1 3).sdmFault n else h.sdmLose n 1 3

/-- Every register of the SDM pages is, after a channel loses its clock, as the loss itself writes it. -/
theorem Hw.reg_clockLoss (h : Hw) (n : Nat) {b : Nat} (hb : MidReg b) :
    (h.clockLoss n).reg b = (h.sdmLose n 1 3).reg b := by
  unfold Hw.clockLoss
  split
  · exact Hw.reg_sdmFault _ hb n
  · rfl

theorem Hw.clockLoss_self (h : Hw) {n : Nat} (hn : n < 112) : (h.clockLoss n).ShowsLoss n 1 3 :=
  (h.sdmLose_shows n (by decide) (by decide)).of_reg fun _ ho => h.reg_clockLoss n (midReg_sd hn ho)

/-- A channel's loss of its clock leaves the registers of another channel. -/
theorem Hw.reg_clockLoss_other (h : Hw) {n k off : Nat} (hn : n < 112) (ho : off < 0x1000) (hk : n ≠ k) :
    (h.clockLoss k).reg (sd n off) = h.reg (sd n off) := by
  have hpg : pSDM n ≠ pSDM k := by unfold pSDM; omega
  have hne : ∀ off' < 0x1000, sd n off ≠ sd k off' := fun off' ho' => ra_ne_page ho ho' hpg
  rw [h.reg_clockLoss k (midReg_sd hn ho), Hw.sdmLose, Hw.reg_evt_ne _ (hne _ (by decide)) (hne _ (by decide)),
    Hw.reg_setBit_ne _ (hne _ (by decide)), Hw.reg_setBit_ne _ (hne _ (by decide))]

theorem Hw.clockLoss_keeps {h : Hw} {n : Nat} (hn : n < 112) (hs : h.ShowsLoss n 1 3) (k : Nat) :
    (h.clockLoss k).ShowsLoss n 1 3 := by
  by_cases hk : n = k
  · exact hk ▸ h.clockLoss_self hn
  · exact hs.of_reg fun _ ho => h.reg_clockLoss_other hn ho hk

/-- Channels that lose their clock show it. -/
theorem Hw.each_clockLoss_shows {l : List Nat} {n : Nat} (hn : n < 112) (hl : n ∈ l) (h : Hw) :
    (h.each l Hw.clockLoss).ShowsLoss n 1 3 := by
  have keeps : ∀ (l : List Nat) (h : Hw), h.ShowsLoss n 1 3 → (h.each l Hw.clockLoss).ShowsLoss n 1 3 := fun l h hs =>
    List.foldlRecOn l _ (motive := fun k : Hw => k.ShowsLoss n 1 3) hs fun k hk x _ => Hw.clockLoss_keeps hn hk x
  induction l generalizing h with
  | nil => cases hl
  | cons x l ih =>
    rcases List.mem_cons.mp hl with rfl | hl
    · exact keeps l _ (h.clockLoss_self hn)
    · exact ih hl (h.clockLoss x)

/-- A channel's loss of its clock leaves every DCLK_CFG. -/
theorem Hw.clockLoss_dclk (h : Hw) {m : Nat} (hm : m < 112) (k : Nat) :
    (h.clockLoss k).reg (sd m 0x080) = h.reg (sd m 0x080) := by
  have hne : ∀ off' < 0x1000, 0x080 ≠ off' → sd m 0x080 ≠ sd k off' := fun off' ho' => sd_ne (by decide) ho'
  rw [h.reg_clockLoss k (midReg_sd hm (by decide)), Hw.sdmLose, Hw.reg_evt_sd _ m k 3 (by decide) (by decide) (by decide),
    Hw.reg_setBit_ne _ (hne _ (by decide) (by decide)), Hw.reg_setBit_ne _ (hne _ (by decide) (by decide))]

/-- A clock without a rising edge for four periods is lost, and with it every channel captured against it. -/
theorem Hw.dclkLost_shows {h : Hw} {m n since : Nat} (hm : m < 112) (hn : n < 112) (hclk : h.sdmClk n = m)
    (hl : h.bit (sd m 0x080) 24 = false) (hs : since + 4 * (8 * h.dclkN m) ≤ 32 * h.grain + 31) :
    (h.dclkLost m since).bit (sd m 0x080) 24 = true ∧ (h.dclkLost m since).ShowsLoss n 1 3 := by
  have e : h.dclkLost m since = (h.setBit (sd m 0x080) 24 true).each
      ((List.range 112).filter fun n => h.sdmClk n == m) Hw.clockLoss := by
    refine if_neg (not_or.mpr ⟨Nat.not_lt.mpr hs, ?_⟩)
    rw [hl]
    exact Bool.false_ne_true
  have hmem : n ∈ (List.range 112).filter fun n => h.sdmClk n == m :=
    List.mem_filter.mpr ⟨List.mem_range.mpr hn, beq_iff_eq.mpr hclk⟩
  rw [e]
  refine ⟨?_, Hw.each_clockLoss_shows hn hmem _⟩
  rw [Hw.bit, Hw.each_keeps (·.reg (sd m 0x080)) fun h k => h.clockLoss_dclk hm k]
  exact Hw.bit_setBit_same _ _ (by decide) true

/-! ### The restart of a channel (R115, R117) -/

theorem Hw.sdmClk_of_reg {h k : Hw} {n : Nat} (e : k.reg (sd n 0x040) = h.reg (sd n 0x040)) : k.sdmClk n = h.sdmClk n := by
  rw [Hw.sdmClk, Hw.f, e, Hw.sdmClk, Hw.f]

theorem Hw.crustRestart_reg (h : Hw) (n a : Nat) : (h.crustRestart n).reg a = h.reg a := rfl

theorem Hw.crustRestart_crust (h : Hw) (n : Nat) : tabGet [] n (h.crustRestart n).gdp.crust = [] := by
  simp [Hw.crustRestart]

/-- STUCK and VALID of a channel cleared. -/
def Hw.sdmCleared (h : Hw) (n : Nat) : Hw :=
  ((h.setF (sd n rSTAT) 0 0 0).setBit (sd n rSTAT) 2 false).setBit (sd n 0x068) 0 false

theorem Hw.reg_sdmCleared (h : Hw) (n m : Nat) {off : Nat} (ho : off < 0x1000) (h1 : off ≠ rSTAT) (h2 : off ≠ 0x068) :
    (h.sdmCleared n).reg (sd m off) = h.reg (sd m off) := by
  rw [Hw.sdmCleared, Hw.reg_setBit_ne _ (sd_ne ho (by decide) h2), Hw.reg_setBit_ne _ (sd_ne ho (by decide) h1),
    Hw.reg_setF_ne _ (sd_ne ho (by decide) h1)]

/-- The registers of a channel that starts: LOST shows its clock, and CLOCKED whether bits arrive. -/
theorem Hw.reg_sdmStart (h : Hw) (n : Nat) : ∃ arrive, ∀ a, (h.sdmStart n).reg a =
    (((h.sdmCleared n).setBit (sd n rSTAT) 1 (h.bit (sd (h.sdmClk n) 0x080) 24)).setBit (sd n rREADY) 2 arrive).reg a := by
  have hclk : (h.sdmCleared n).sdmClk n = h.sdmClk n :=
    Hw.sdmClk_of_reg (h.reg_sdmCleared n n (by decide) (by decide) (by decide))
  have hlost : (h.sdmCleared n).bit (sd ((h.sdmCleared n).sdmClk n) 0x080) 24 = h.bit (sd (h.sdmClk n) 0x080) 24 := by
    rw [hclk, Hw.bit, h.reg_sdmCleared n _ (by decide) (by decide) (by decide), Hw.bit]
  rw [← hlost]
  unfold Hw.sdmStart
  exact ⟨_, fun a => Hw.crustRestart_reg _ n a⟩

/-- A channel that starts shows neither STUCK nor VALID, shows LOST as its clock stands, and its detector has no outputs. -/
theorem Hw.sdmStart_shows (h : Hw) (n : Nat) : (h.sdmStart n).bit (sd n rSTAT) 2 = false ∧
    (h.sdmStart n).bit (sd n rSTAT) 0 = false ∧ (h.sdmStart n).bit (sd n 0x068) 0 = false ∧
    (h.sdmStart n).bit (sd n rSTAT) 1 = h.bit (sd (h.sdmClk n) 0x080) 24 ∧
    (∀ m, (h.sdmStart n).bit (sd m 0x080) 24 = h.bit (sd m 0x080) 24) ∧
    tabGet [] n (h.sdmStart n).gdp.crust = [] := by
  obtain ⟨arrive, hreg⟩ := h.reg_sdmStart n
  have hstat : (h.sdmStart n).reg (sd n rSTAT) = putFld (putFld (putFld (h.reg (sd n rSTAT)) 0 0 0) 2 2 0) 1 1
      (if h.bit (sd (h.sdmClk n) 0x080) 24 then 1 else 0) := by
    rw [hreg, Hw.reg_setBit_ne _ (sd_ne (by decide) (by decide) (by decide)), Hw.reg_setBit_same, Hw.sdmCleared,
      Hw.reg_setBit_ne _ (sd_ne (by decide) (by decide) (by decide)), Hw.reg_setBit_same, Hw.reg_setF_same]
    rfl
  refine ⟨?_, ?_, ?_, ?_, fun m => ?_, Hw.crustRestart_crust _ n⟩
  · rw [Hw.bit, hstat]
    simp [bitOf_putFld]
  · rw [Hw.bit, hstat]
    simp [bitOf_putFld]
  · rw [Hw.bit, hreg, Hw.reg_setBit_ne _ (sd_ne (by decide) (by decide) (by decide)),
      Hw.reg_setBit_ne _ (sd_ne (by decide) (by decide) (by decide))]
    exact Hw.bit_setBit_same _ _ (by decide) false
  · rw [Hw.bit, hstat]
    cases h.bit (sd (h.sdmClk n) 0x080) 24 <;> simp [bitOf_putFld]
  · rw [Hw.bit, hreg, Hw.reg_setBit_ne _ (sd_ne (by decide) (by decide) (by decide)),
      Hw.reg_setBit_ne _ (sd_ne (by decide) (by decide) (by decide)),
      h.reg_sdmCleared n m (by decide) (by decide) (by decide), Hw.bit]

/-- A restart clears STUCK and VALID, and the detector starts anew. -/
theorem Hw.sdmRestart_shows (h : Hw) (n : Nat) : (h.sdmRestart n).bit (sd n rSTAT) 2 = false ∧
    (h.sdmRestart n).bit (sd n rSTAT) 0 = false ∧ (h.sdmRestart n).bit (sd n 0x068) 0 = false ∧
    tabGet [] n (h.sdmRestart n).gdp.crust = [] := by
  obtain ⟨hstuck, hvalid, hdata, -, -, hcrust⟩ :=
    (h.when (h.bit (sd n rSTAT) 1) fun h => h.setBit (sd (h.sdmClk n) 0x080) 24 false).sdmStart_shows n
  exact ⟨hstuck, hvalid, hdata, hcrust⟩

/-- A restart of a channel that had lost its clock clears the clock's LOST and its own. -/
theorem Hw.sdmRestart_lost {h : Hw} {n : Nat} (hl : h.bit (sd n rSTAT) 1 = true) :
    (h.sdmRestart n).bit (sd (h.sdmClk n) 0x080) 24 = false ∧ (h.sdmRestart n).bit (sd n rSTAT) 1 = false := by
  have e : h.sdmRestart n = (h.setBit (sd (h.sdmClk n) 0x080) 24 false).sdmStart n := by
    rw [Hw.sdmRestart, hl]
    rfl
  have hclk : (h.setBit (sd (h.sdmClk n) 0x080) 24 false).sdmClk n = h.sdmClk n :=
    Hw.sdmClk_of_reg (h.reg_setBit_ne (sd_ne (by decide) (by decide) (by decide)) 24 false)
  have hset : (h.setBit (sd (h.sdmClk n) 0x080) 24 false).bit (sd (h.sdmClk n) 0x080) 24 = false :=
    Hw.bit_setBit_same _ _ (by decide) false
  obtain ⟨-, -, -, hlost, hdclk, -⟩ := (h.setBit (sd (h.sdmClk n) 0x080) 24 false).sdmStart_shows n
  rw [hclk, hset] at hlost
  exact e ▸ ⟨(hdclk _).trans hset, hlost⟩

end Sys2Proof.Machine

namespace Sys2Proof
open Machine

/-- Settles O30: each command shows its own registers; the acquisition's notes, and the faults of axes and the short circuits
that may follow, leave every register of the SDM pages. -/
theorem sigmaDeltaConversions : Obligations.SigmaDeltaConversions := by
  intro s g n hl
  have hn := n.isLt
  refine ⟨fun d p hon hdue hp hlost hfrom => ?_, fun d p hon hdue hp hstuck hclk => ?_, fun d hon hlost hdue => ?_,
    fun hu => ?_, fun dis c hc hband hgood => ?_, fun dis c hc hno => ?_, fun k hon hlost hk => ?_,
    fun m since hclk hlost hsince => ?_, fun _ => ?_, fun hlost => ?_⟩
  · refine gives_run_eq (f := fun _ h => h.sdmConv n d) hl (Hw.sdmConv_valid (h := s.hw.at g) hon hdue hp hlost hfrom) ?_
    obtain ⟨hdata, hts, herr, hstat⟩ := Hw.sdmValue_shows ((s.hw.at g).sdmEnded n d.last p.merged) hn
      ((s.hw.f (sd n 0x068) 7 4 + 1) % 16) p ((s.hw.at g).sdmTaken n (3 * fld p.set.cfg 8 0 - 2) d)
    rw [Hw.sdmData, Hw.f_sdmEnded _ n d.last p.merged (by decide) (by decide) (by decide)] at hdata
    exact ⟨hdata, hts, herr, hstat⟩
  · refine gives_run_eq (f := fun _ h => h.sdmConv n d) hl (Hw.sdmConv_void (h := s.hw.at g) hon hdue hp hstuck hclk) ?_
    obtain ⟨hdata, herr, hstat⟩ := ((s.hw.at g).sdmEnded n d.last p.merged).sdmVoid_shows n
      ((s.hw.f (sd n 0x068) 7 4 + 1) % 16) p
    rw [Hw.f_sdmEnded _ n d.last p.merged (by decide) (by decide) (by decide)] at hdata
    exact ⟨hdata, herr, hstat⟩
  · exact gives_run (f := fun _ h => h.sdmCrust n d) hl (Hw.sdmCrust_shows (h := s.hw.at g) hn hon hlost hdue)
  · refine gives_write (f := fun _ h => h.sdmCal n) hl (by unfold pSDM pFLT; omega) hu fun k hk => ⟨?_, ?_⟩
    · exact Hw.bit_setBit_same _ _ (by decide) true
    · exact (congrArg (·.cal) (Hw.sdmS_setSdm _ n.val _)).trans (congrArg (fun x => some (5 * (x / 5) + 4)) hk.grain)
  · have hpos : 0 < (longestRun ((s.hw.at g).sdmGood n dis)).2 := hgood
    refine gives_run_eq (f := fun _ h => h.sdmCalDone n dis) hl (Hw.sdmCalDone_found (h := s.hw.at g) hc hband hpos) ?_
    obtain ⟨hbusy, hcal⟩ := (s.hw.at g).sdmSwept_shows n
    obtain ⟨hlen, hlt⟩ := (s.hw.at g).sdmGood_length n dis
    obtain ⟨h1, h2⟩ := longestRun_le ((s.hw.at g).sdmGood n dis)
    obtain ⟨hstat, hcal', hstart, heye, hspd, hdone⟩ := ((s.hw.at g).sdmSwept n).sdmEye_shows n (b := s.hw.band)
      (Q := (s.hw.at g).dclkN ((s.hw.at g).sdmClk n) / 4) (fld_lt _ _ _) (hlen ▸ hlt) (hlen ▸ hpos.trans_le h2)
      (h1.trans_lt hlt) (h2.trans_lt hlt)
    exact ⟨hstat.trans hbusy, hcal'.trans hcal, hstart, heye, hspd, hdone⟩
  · refine gives_run_eq (f := fun _ h => h.sdmCalDone n dis) hl (Hw.sdmCalDone_failed (h := s.hw.at g) hc hno.symm) ?_
    exact (s.hw.at g).sdmFailed_shows n
  · exact gives_run (f := fun _ h => h.sdmStuck n k) hl (Hw.sdmStuck_shows (h := s.hw.at g) hn hon hlost hk)
  · exact gives_run (f := fun _ h => h.dclkLost m since) hl
      (Hw.dclkLost_shows (h := s.hw.at g) (by omega) hn hclk hlost hsince)
  · obtain ⟨hstuck, hvalid, hdata, hcrust⟩ := (s.hw.at g).sdmRestart_shows n
    exact gives_run (f := fun _ h => h.sdmRestart n) hl ⟨hstuck, hvalid, hdata, hcrust⟩
  · obtain ⟨hstuck, -, hdata, -⟩ := (s.hw.at g).sdmRestart_shows n
    obtain ⟨hclk, hstat⟩ := Hw.sdmRestart_lost (h := s.hw.at g) hlost
    exact gives_run (f := fun _ h => h.sdmRestart n) hl ⟨hclk, hstat, hstuck, hdata⟩

end Sys2Proof

/-! Probe latches and position compares (R138 to R144). A latch and a compare write registers of their port's page and its
working state; what they set off elsewhere, in engines, field outputs, the acquisition and homing axes, leaves both. -/

namespace Sys2Proof.Machine

/-! ### The working state of a port -/

theorem fbr_ne {n m off off' : Nat} (h1 : off < 0x1000) (h2 : off' < 0x1000) (h : off ≠ off') : fbr n off ≠ fbr m off' :=
  ra_ne_off h1 h2 h

theorem fbr_add (n off i : Nat) : fbr n off + i = fbr n (off + i) := Nat.add_assoc _ _ _

theorem Hw.reg64_congr {h k : Hw} {a : Nat} (h0 : k.reg a = h.reg a) (h4 : k.reg (a + 4) = h.reg (a + 4)) :
    k.reg64 a = h.reg64 a := congrArg₂ (· ++ ·) h4 h0

theorem Hw.fb_of_fbs {h k : Hw} (e : k.fbs = h.fbs) (n : Nat) : k.fb n = h.fb n :=
  congrArg (tabGet ({} : FbS) n) e

@[simp] theorem Hw.fb_setFb (h : Hw) (n : Nat) (x : FbS) : (h.setFb n x).fb n = x := tabGet_tabSet_same _ _ _ _

@[simp] theorem Hw.fb_setLatch (h : Hw) (n k : Nat) (l : LatchS) :
    (h.setLatch n k l).fb n = { h.fb n with latches := tabSet {} k l (h.fb n).latches } := h.fb_setFb n _

@[simp] theorem Hw.latch_setLatch (h : Hw) (n k : Nat) (l : LatchS) : ((h.setLatch n k l).fb n).latch k = l := by
  rw [Hw.fb_setLatch]
  exact tabGet_tabSet_same _ _ _ _

@[simp] theorem Hw.due_setDue (h : Hw) (n k : Nat) (d : Option (Nat × Nat)) :
    tabGet none k ((h.setDue n k d).fb n).due = d := by
  rw [Hw.setDue, Hw.fb_setFb]
  exact tabGet_tabSet_same _ _ _ _

@[simp] theorem Hw.reg_setDue (h : Hw) (n k : Nat) (d : Option (Nat × Nat)) (a : Nat) :
    (h.setDue n k d).reg a = h.reg a := rfl
@[simp] theorem Hw.bit_setLatch (h : Hw) (n k : Nat) (l : LatchS) (a i : Nat) : (h.setLatch n k l).bit a i = h.bit a i := rfl
@[simp] theorem Hw.fb_setReg (h : Hw) (a : Nat) (v : Word) (n : Nat) : (h.setReg a v).fb n = h.fb n := rfl
@[simp] theorem Hw.fb_setF (h : Hw) (a hi lo v n : Nat) : (h.setF a hi lo v).fb n = h.fb n := rfl
@[simp] theorem Hw.fb_setBit (h : Hw) (a i : Nat) (v : Bool) (n : Nat) : (h.setBit a i v).fb n = h.fb n := rfl
@[simp] theorem Hw.fb_evt (h : Hw) (p b n : Nat) : (h.evt p b).fb n = h.fb n := Hw.fb_of_fbs (h.evt_fbs p b) n

/-! ### What a change of an axis leaves of the ports

Homing on Z ramps the axis whose latch has resolved, and the record of its profile follows. -/

@[simp] theorem Hw.setF_fbs (h : Hw) (a hi lo v : Nat) : (h.setF a hi lo v).fbs = h.fbs := rfl
@[simp] theorem Hw.setReg64_fbs (h : Hw) (a : Nat) (v : Word64) : (h.setReg64 a v).fbs = h.fbs := rfl
@[simp] theorem Hw.w1cSet_fbs (h : Hw) (a i : Nat) : (h.w1cSet a i).fbs = h.fbs := rfl
@[simp] theorem Hw.setProf_fbs (h : Hw) (p : Nat) (x : PrfS) : (h.setProf p x).fbs = h.fbs := rfl
@[simp] theorem Hw.setGear_fbs (h : Hw) (u : Nat) (x : GearS) : (h.setGear u x).fbs = h.fbs := rfl
@[simp] theorem Hw.setAxis_fbs (h : Hw) (a : Nat) (x : AxS) : (h.setAxis a x).fbs = h.fbs := rfl
@[simp] theorem Hw.masterFlush_fbs (h : Hw) (m : Nat) : (h.masterFlush m).fbs = h.fbs := rfl

theorem Hw.each_fbs {α : Type} {f : Hw → α → Hw} (hf : ∀ h x, (f h x).fbs = h.fbs) (l : List α) (h : Hw) :
    (h.each l f).fbs = h.fbs := Hw.each_keeps Hw.fbs hf l h

@[simp] theorem Hw.leaveGroup_fbs (h : Hw) (f : Nat) : (h.leaveGroup f).fbs = h.fbs := by
  simp only [Hw.leaveGroup, apply_ite Hw.fbs, Hw.setProf_fbs, ite_self]

@[simp] theorem Hw.flushQueue_fbs (h : Hw) (p : Nat) : (h.flushQueue p).fbs = h.fbs := h.leaveGroup_fbs p

@[simp] theorem Hw.setPfState_fbs (h : Hw) (p st : Nat) : (h.setPfState p st).fbs = h.fbs := by
  simp only [Hw.setPfState, Hw.when, apply_ite Hw.fbs, Hw.setReg64_fbs, Hw.setF_fbs, ite_self]

@[simp] theorem Hw.flushOne_fbs (h : Hw) (p : Nat) : (h.flushOne p).fbs = h.fbs := by
  simp only [Hw.flushOne, apply_ite Hw.fbs, Hw.masterFlush_fbs, Hw.setPfState_fbs, Hw.flushQueue_fbs, ite_self]

@[simp] theorem Hw.groupEnd_fbs (h : Hw) (p : Nat) : (h.groupEnd p).fbs = h.fbs :=
  Hw.each_fbs (fun h f => by simp only [Hw.evt_fbs, Hw.w1cSet_fbs, Hw.flushOne_fbs, Hw.setProf_fbs]) _ _

@[simp] theorem Hw.axisFlush_fbs (h : Hw) (p : Nat) : (h.axisFlush p).fbs = h.fbs := by
  simp only [Hw.axisFlush, apply_ite Hw.fbs, Hw.flushOne_fbs, Hw.setProf_fbs, Hw.groupEnd_fbs, ite_self]

@[simp] theorem Hw.setNxt_fbs (h : Hw) (p : Nat) (r : PRec) : (h.setNxt p r).fbs = h.fbs :=
  (Hw.each_fbs (fun h u => h.setGear_fbs u _) _ _).trans (h.setProf_fbs p _)

@[simp] theorem Hw.axPut_fbs (h : Hw) (a : Nat) (r : PRec) : (h.axPut a r).fbs = h.fbs := by
  simp only [Hw.axPut, apply_ite Hw.fbs, Hw.setNxt_fbs, Hw.setAxis_fbs, ite_self]

@[simp] theorem Hw.ownRec_fbs (h : Hw) (p : Nat) (r : PRec) : (h.ownRec p r).fbs = h.fbs := by
  unfold Hw.ownRec
  split
  · simp only [apply_ite Hw.fbs, Hw.axPut_fbs, Hw.setAxis_fbs, ite_self]
  · exact h.setNxt_fbs p r

@[simp] theorem Hw.axPick_fbs (h : Hw) (a T X : Nat) : (h.axPick a T X).fbs = h.fbs := by
  unfold Hw.axPick
  dsimp only
  split
  · rw [Hw.axPut_fbs, Hw.setAxis_fbs]
  · split <;> simp only [Hw.axPut_fbs, Hw.setAxis_fbs, apply_ite Hw.fbs, Hw.axTakeOver, Hw.axisFlush_fbs, ite_self]

@[simp] theorem Hw.axShape_fbs (h : Hw) (a : Nat) : (h.axShape a).fbs = h.fbs := by
  unfold Hw.axShape
  dsimp only
  split
  · rw [Hw.followAgain, Hw.each_fbs fun h f => h.ownRec_fbs f _, Hw.each_fbs fun h f => ?_, Hw.axPick_fbs]
    exact h.ownRec_fbs f _
  · rfl

/-! ### What latches and compares set off -/

/-- The working state of all ports, and a register. -/
def Hw.ports (h : Hw) (b : Nat) : Tab FbS × Word := (h.fbs, h.reg b)

/-- From h to k the ports keep their working state and the registers of their pages. -/
def PortsKept (h k : Hw) : Prop := ∀ n : Fin 32, ∀ off < 0x1000, k.ports (fbr n off) = h.ports (fbr n off)

namespace PortsKept

variable {h k l : Hw}

theorem refl (h : Hw) : PortsKept h h := fun _ _ _ => rfl

theorem trans (h1 : PortsKept h k) (h2 : PortsKept k l) : PortsKept h l := fun n off ho => (h2 n off ho).trans (h1 n off ho)

theorem fb (hk : PortsKept h k) (n : Nat) : k.fb n = h.fb n := Hw.fb_of_fbs (congrArg (·.1) (hk 0 0 (by decide))) n

theorem reg (hk : PortsKept h k) (n : Fin 32) {off : Nat} (ho : off < 0x1000) : k.reg (fbr n off) = h.reg (fbr n off) :=
  congrArg (·.2) (hk n off ho)

theorem f (hk : PortsKept h k) (n : Fin 32) {off : Nat} (ho : off < 0x1000) (hi lo : Nat) :
    k.f (fbr n off) hi lo = h.f (fbr n off) hi lo := congrArg (fld · hi lo) (hk.reg n ho)

theorem bit (hk : PortsKept h k) (n : Fin 32) {off : Nat} (ho : off < 0x1000) (i : Nat) :
    k.bit (fbr n off) i = h.bit (fbr n off) i := congrArg (bitOf · i) (hk.reg n ho)

theorem reg64 (hk : PortsKept h k) (n : Fin 32) {off : Nat} (ho : off + 4 < 0x1000) :
    k.reg64 (fbr n off) = h.reg64 (fbr n off) :=
  Hw.reg64_congr (hk.reg n (by omega)) (by rw [fbr_add]; exact hk.reg n ho)

theorem of_tables (hf : k.fbs = h.fbs) (hr : k.regs = h.regs) : PortsKept h k := fun n off _ => by
  rw [Hw.ports, Hw.ports, hf, Hw.reg_of_regs hr]

theorem each {α : Type} {f : Hw → α → Hw} (hf : ∀ h x, PortsKept h (f h x)) (l : List α) (h : Hw) :
    PortsKept h (h.each l f) := fun n off ho => Hw.each_keeps (Hw.ports · (fbr n off)) (fun h x => hf h x n off ho) l h

theorem ite {c : Prop} [Decidable c] (h1 : PortsKept h k) (h2 : PortsKept h l) : PortsKept h (if c then k else l) := by
  split
  · exact h1
  · exact h2

theorem selEvent (h : Hw) (kind inst : Nat) : PortsKept h (h.selEvent kind inst) := by
  refine each (fun h e => each (fun h j => ?_) _ h) _ h
  dsimp only
  split
  · exact of_tables rfl rfl
  · exact refl h

theorem acqEvent (h : Hw) (kind inst ts : Nat) : PortsKept h (h.acqEvent kind inst ts) := by
  unfold Hw.acqEvent
  split
  · exact of_tables rfl rfl
  · exact refl h

theorem pulseStart (h : Hw) (n k : Nat) : PortsKept h (h.pulseStart n k) := by
  refine each (fun h g => each (fun h i => ?_) _ h) _ h
  dsimp only
  split
  · exact of_tables rfl rfl
  · exact refl h

/-- A reference found moves a register of its axis, and the axis ramps to rest. -/
theorem homeRef (h : Hw) (a : Nat) (r : Int) : PortsKept h (h.homeRef a r) := by
  intro n off ho
  have hlo : 0xB000 ≤ fbr n off := by unfold fbr ra pFB; omega
  have hax : fbr n off ≠ axr a 0x094 := by unfold fbr axr ra pFB pAX; omega
  unfold Hw.homeRef
  split
  · rfl
  · refine Prod.ext (Hw.axShape_fbs _ _) ?_
    exact (Hw.reg_of_calm (Hw.axShape_calm hlo _ a)).trans (h.reg_setReg_ne hax _)

/-- A resolved latch sets off pending events, the acquisition, marks of register correction and homing axes. -/
theorem latchHook (h : Hw) (n k : Nat) : PortsKept h (h.latchHook n k) := by
  unfold Hw.latchHook
  extract_lets ts sel T acq marks
  have hacq : PortsKept h acq := (selEvent h _ n).trans (acqEvent sel _ n T)
  have hmarks : PortsKept h marks := hacq.trans <| each (f := fun h r =>
    h.setRcu r { h.rcu r with marks := (h.rcu r).marks ++ [T] }) (fun _ _ => of_tables rfl rfl) _ acq
  split
  · exact refl h
  · split
    · refine hmarks.trans (each (fun h a => ?_) _ marks)
      split
      · exact ite (homeRef h a _) (refl h)
      · exact refl h
    · exact hmarks

end PortsKept

/-- An event of a port moves EVT and EVT_TS of its page, which lie before FLT_CNT. -/
theorem Hw.reg_evtTs_fbr (h : Hw) (n m i ts : Nat) {off : Nat} (ho : off < 0x1000) (hlo : 0x020 ≤ off) :
    (h.evtTs (pFB m) i ts).reg (fbr n off) = h.reg (fbr n off) :=
  h.reg_evtTs_ne (fbr_ne ho (by decide) (by unfold rEVT; omega)) (fbr_ne ho (by decide) (by unfold rEVT_TS; omega)) i ts

/-- What a latch or a compare notes as it acts: its event, and a record in the log. -/
def Hw.portNote (h : Hw) (n rank i ts : Nat) : Hw := (h.evtTs (pFB n) i ts).log (pFB n) rank i n ts

theorem not_inLog_fbr (n : Nat) {off : Nat} (ho : off < 0x1000) : ¬ inLog (fbr n off) :=
  not_inLog_page (by unfold pFB pFLT; omega) ho

theorem Hw.reg_portNote (h : Hw) (n rank i ts : Nat) {off : Nat} (ho : off < 0x1000) (hlo : 0x020 ≤ off) :
    (h.portNote n rank i ts).reg (fbr n off) = h.reg (fbr n off) :=
  ((Hw.log_logged _ _ _ _ _ _ _).reg (not_inLog_fbr n ho)).trans (h.reg_evtTs_fbr n n i ts ho hlo)

theorem Hw.fb_portNote (h : Hw) (n rank i ts m : Nat) : (h.portNote n rank i ts).fb m = h.fb m :=
  Hw.fb_of_fbs ((Hw.log_logged _ _ _ _ _ _ _).fbs.trans (h.evtTs_fbs _ _ _)) m

theorem Hw.evt_portNote (h : Hw) (n rank : Nat) {i : Nat} (hi : i < 32) (ts : Nat) :
    (h.portNote n rank i ts).bit (ra (pFB n) rEVT) i = true :=
  ((Hw.log_logged _ _ _ _ _ _ _).bit (not_inLog_fbr n (off := rEVT) (by decide)) i).trans (h.bit_evtTs _ hi ts)

/-! ### LATCH_ARM and LATCH_DISARM (R139) -/

/-- An accepted arm of a unit that is not armed clears LATCHED, sets ARMED, and counts from the next grain. -/
theorem Hw.latchArm_shows {h : Hw} {n k g : Nat} (hok : h.latchArmOk n k g = true)
    (hno : ((h.fb n).latch k).armed = none) : (h.latchArm n k g).bit (fbr n (0x0A8 + 0x20 * k)) 0 = true ∧
    (h.latchArm n k g).bit (fbr n (0x0A8 + 0x20 * k)) 1 = false ∧
    (((h.latchArm n k g).fb n).latch k).armed = some (g + 1) := by
  have hst : 0x0A0 + 0x20 * k + 8 = 0x0A8 + 0x20 * k := by omega
  unfold Hw.latchArm
  simp only [hok, if_true, hst, Hw.bit_setLatch, Hw.latch_setLatch]
  refine ⟨Hw.bit_setBit_same _ _ (by decide) true, ?_, ?_⟩
  · rw [Hw.bit_setBit_other _ _ (by decide) (by decide), Hw.bit_setBit_same _ _ (by decide)]
  · simp [hno]

/-- An arm with a source that the mode does not offer is refused. -/
theorem Hw.latchArm_refused {h : Hw} {n k : Nat} (hsrc : latchSrcOk (h.fbMode n) (h.f (fbr n (0x0A0 + 0x20 * k)) 19 16) = false)
    (g : Nat) : h.latchArm n k g = h.evt (pFB n) 9 := if_neg (by simp [Hw.latchArmOk, hsrc])

/-- A disarm of an armed unit clears ARMED; the arm itself stands up to the disarm's grain. -/
theorem Hw.latchDisarm_shows {h : Hw} {n k x : Nat} (ha : ((h.fb n).latch k).armed = some x)
    (hd : ((h.fb n).latch k).disarmed = none) (g : Nat) :
    (h.latchDisarm n k g).bit (fbr n (0x0A8 + 0x20 * k)) 0 = false ∧
    (((h.latchDisarm n k g).fb n).latch k).armed = some x ∧
    (((h.latchDisarm n k g).fb n).latch k).disarmed = some g := by
  have e : h.latchDisarm n k g = (h.setBit (fbr n (0x0A8 + 0x20 * k)) 0 false).setLatch n k
      { (h.fb n).latch k with disarmed := some g } := if_pos (by simp [ha, hd])
  rw [e, Hw.latch_setLatch]
  exact ⟨Hw.bit_setBit_same _ _ (by decide) false, ha, rfl⟩

/-- The history of a port is no matter of its latches. -/
theorem Hw.posAt_setLatch (h : Hw) (n k : Nat) (l : LatchS) (T : Nat) :
    ((h.setLatch n k l).fb n).posAt T ((h.setLatch n k l).fbInt n) = (h.fb n).posAt T (h.fbInt n) := by
  rw [Hw.fb_setLatch]
  rfl

/-! ### An edge that latches (R138 to R140) -/

/-- The registers of a latch as it resolves without interpolation: its time-stamp, its position, LATCHED. -/
def Hw.latchWrite (h : Hw) (n k T : Nat) (v : Int) : Hw :=
  ((h.setReg (fbr n (0x0AC + 0x20 * k)) (BitVec.ofNat 32 T)).setInt64 (fbr n (0x0B0 + 0x20 * k)) v).setF
    (fbr n (0x0A8 + 0x20 * k)) 2 0 2

theorem Hw.reg_setReg64_ne (h : Hw) {a b : Nat} (h1 : b ≠ a) (h2 : b ≠ a + 4) (v : Word64) :
    (h.setReg64 a v).reg b = h.reg b := (Hw.reg_setReg_ne _ h2 _).trans (h.reg_setReg_ne h1 _)

theorem Hw.reg64_setReg64 (h : Hw) (a : Nat) (v : Word64) : (h.setReg64 a v).reg64 a = v := by
  rw [Hw.reg64, Hw.setReg64, Hw.reg_setReg_same, Hw.reg_setReg_ne _ (by omega), Hw.reg_setReg_same,
    BitVec.extractLsb'_append_extractLsb'_eq_extractLsb' (by decide)]
  exact BitVec.extractLsb'_eq_self

theorem Hw.reg64_setF_ne (h : Hw) {a b : Nat} (h1 : a ≠ b) (h2 : a + 4 ≠ b) (hi lo v : Nat) :
    (h.setF b hi lo v).reg64 a = h.reg64 a := Hw.reg64_congr (h.reg_setF_ne h1 hi lo v) (h.reg_setF_ne h2 hi lo v)

theorem Hw.latchWrite_shows (h : Hw) (n k T : Nat) (v : Int) :
    (h.latchWrite n k T v).reg (fbr n (0x0AC + 0x20 * k)) = BitVec.ofNat 32 T ∧
    (h.latchWrite n k T v).reg64 (fbr n (0x0B0 + 0x20 * k)) = BitVec.ofInt 64 v ∧
    (h.latchWrite n k T v).f (fbr n (0x0A8 + 0x20 * k)) 2 0 = 2 := by
  unfold Hw.latchWrite Hw.setInt64
  refine ⟨?_, ?_, Hw.f_setF_same _ _ (by decide) (by decide) 2⟩
  · rw [Hw.reg_setF_ne _ (by unfold fbr ra; omega), Hw.reg_setReg64_ne _ (by unfold fbr ra; omega) (by unfold fbr ra; omega),
      Hw.reg_setReg_same]
  · rw [Hw.reg64_setF_ne _ (by unfold fbr ra; omega) (by unfold fbr ra; omega), Hw.reg64_setReg64]

/-- A latch that resolves without interpolation writes its registers, notes its event, and is armed no more. -/
theorem Hw.latchResolve_eq {h : Hw} {n k : Nat} (hint : h.bit (fbr n (0x0A0 + 0x20 * k)) 4 = false) (T : Nat) :
    h.latchResolve n k T = ((h.latchWrite n k T (((h.fb n).posAt T (h.fbInt n)).1 * 2 ^ 32)).setLatch n k
      { (h.fb n).latch k with armed := none, disarmed := none, wait := none, resolved := some h.grain }).portNote n 7
        (6 + k) T := by
  have hst : 0x0A0 + 0x20 * k + 8 = 0x0A8 + 0x20 * k := by omega
  have hts : 0x0A0 + 0x20 * k + 0x0C = 0x0AC + 0x20 * k := by omega
  have hpos : 0x0A0 + 0x20 * k + 0x10 = 0x0B0 + 0x20 * k := by omega
  unfold Hw.latchResolve Hw.latchWrite Hw.portNote
  simp only [hint, hst, hts, hpos, Bool.not_false, Bool.false_and, if_true, if_false, Bool.false_eq_true, add_zero]
  rfl

/-- The registers of latch k of port n, its working state and its event, as it resolves with time-stamp T at a position. -/
structure Hw.Latched (h : Hw) (n k T : Nat) (pos : Int) : Prop where
  ts : h.reg (fbr n (0x0AC + 0x20 * k)) = BitVec.ofNat 32 T
  pos : h.reg64 (fbr n (0x0B0 + 0x20 * k)) = BitVec.ofInt 64 (pos * 2 ^ 32)
  stat : h.f (fbr n (0x0A8 + 0x20 * k)) 2 0 = 2
  armed : ((h.fb n).latch k).armed = none
  evt : h.bit (ra (pFB n) rEVT) (6 + k) = true

theorem Hw.latchResolve_latched {h : Hw} {n : Nat} {k : Fin 2} (hint : h.bit (fbr n (0x0A0 + 0x20 * k)) 4 = false) (T : Nat) :
    (h.latchResolve n k T).Latched n k T ((h.fb n).posAt T (h.fbInt n)).1 := by
  have hk := k.isLt
  rw [Hw.latchResolve_eq hint]
  obtain ⟨hts, hpos, hstat⟩ := h.latchWrite_shows n k T (((h.fb n).posAt T (h.fbInt n)).1 * 2 ^ 32)
  generalize h.latchWrite n k T _ = w at hts hpos hstat ⊢
  generalize hl : ({ (h.fb n).latch k with armed := none, disarmed := none, wait := none, resolved := some h.grain } :
    LatchS) = l
  have hreg : ∀ off < 0x1000, 0x020 ≤ off → ((w.setLatch n k l).portNote n 7 (6 + k) T).reg (fbr n off) = w.reg (fbr n off) :=
    fun off ho hlo => Hw.reg_portNote _ n 7 (6 + k) T ho hlo
  refine ⟨(hreg _ (by omega) (by omega)).trans hts, ?_, (congrArg (fld · 2 0) (hreg _ (by omega) (by omega))).trans hstat,
    ?_, Hw.evt_portNote _ _ _ (by omega) T⟩
  · refine (Hw.reg64_congr (hreg _ (by omega) (by omega)) ?_).trans hpos
    rw [fbr_add]
    exact hreg _ (by omega) (by omega)
  · rw [Hw.fb_portNote, Hw.latch_setLatch, ← hl]

theorem Hw.Latched.of_kept {h k : Hw} {n : Fin 32} {j : Fin 2} {T : Nat} {pos : Int} (hl : h.Latched n j T pos)
    (hk : PortsKept h k) : k.Latched n j T pos := by
  have hj := j.isLt
  obtain ⟨hts, hpos, hstat, harm, hevt⟩ := hl
  exact ⟨(hk.reg n (by omega)).trans hts, (hk.reg64 n (by omega)).trans hpos, (hk.f n (by omega) 2 0).trans hstat,
    by rw [hk.fb, harm], (hk.bit n (off := rEVT) (by decide) _).trans hevt⟩

/-- Latch k of port n with a level accepted. -/
def Hw.latchLevel (h : Hw) (n k : Nat) (lv : Bool) : Hw := h.setLatch n k { (h.fb n).latch k with level := some lv }

section
variable {h : Hw} {n : Fin 32} {k : Fin 2} {lv : Bool} {first : Nat} (hlive : h.latchLive n k = true)
  (hstood : max (first + h.latchFilt n k) (first + h.fbFilt n) ≤ h.grain)
  (hfresh : ((h.fb n).latch k).fresh ≤ first + h.latchFilt n k) (hlevel : ((h.fb n).latch k).level = some (!lv))
  (htakes : h.latchTakes n k lv (first + h.latchFilt n k) = true) (hread : (h.fb n).read = none)
include hlive hstood hfresh hlevel htakes hread

/-- An edge that has stood, that the unit takes, and that meets no SSI read resolves the latch (R138 to R140). -/
theorem Hw.probeLatch_takes : h.probeLatch n k lv first =
    ((h.latchLevel n k lv).latchResolve n k (first - 3), true) := by
  have hnow : decide (h.grain < max (first + h.latchFilt n k) (first + h.fbFilt n)) = false :=
    decide_eq_false (Nat.not_lt.mpr hstood)
  have hopen : decide (first + h.latchFilt n k < ((h.fb n).latch k).fresh) = false := decide_eq_false (Nat.not_lt.mpr hfresh)
  simp only [Hw.probeLatch, hlive, hnow, hopen]
  simp [Hw.latchLevel, hlevel, htakes, hread]

/-- Without interpolation its registers show the edge, whatever the latch sets off. -/
theorem Hw.probeLatch_latched (hint : h.bit (fbr n (0x0A0 + 0x20 * k)) 4 = false) :
    ∃ t, (let r := h.probeLatch n k lv first; if r.2 then r.1.latchHook n k else r.1) = t ∧
      t.Latched n k (first - 3) ((h.fb n).posAt (first - 3) (h.fbInt n)).1 := by
  have hres := Hw.latchResolve_latched (h := h.latchLevel n k lv) hint (first - 3)
  rw [Hw.latchLevel, Hw.posAt_setLatch, ← Hw.latchLevel] at hres
  rw [Hw.probeLatch_takes hlive hstood hfresh hlevel htakes hread]
  dsimp only
  exact ⟨_, if_pos rfl, hres.of_kept (PortsKept.latchHook _ n k)⟩

end

/-! ### A pulse too short (R138) -/

theorem Hw.probeLost_shows {h : Hw} {n : Nat} {k : Fin 2} {len : Nat} (hlive : h.latchLive n k = true) (h0 : 0 < len)
    (hlen : len ≤ h.latchFilt n k) :
    (h.probeLost n k len).f (fbr n (0x0A8 + 0x20 * k)) 31 16 =
      min (h.f (fbr n (0x0A8 + 0x20 * k)) 31 16 + 1) 0xFFFF ∧
    (h.probeLost n k len).bit (ra (pFB n) rEVT) 8 = true ∧ (h.probeLost n k len).fb n = h.fb n := by
  have hk := k.isLt
  have e : h.probeLost n k len = (h.bump (fbr n (0x0A8 + 0x20 * k)) 31 16).evtTs (pFB n) 8 (h.grain - 3) :=
    if_pos (by simp [hlive, h0, hlen])
  rw [e]
  refine ⟨?_, Hw.bit_evtTs _ _ (by decide) _, Hw.fb_of_fbs ((Hw.evtTs_fbs _ _ _ _).trans (Hw.bump_fbs _ _ _ _)) n⟩
  rw [Hw.f, Hw.reg_evtTs_fbr _ _ _ _ _ (by omega) (by omega)]
  exact h.f_bump_same _ (by decide) (by decide)

/-! ### Compares (R142 to R144) -/

/-- One of the lowest three bits set where they were cleared. -/
theorem fld_putFld_cleared (w : Word) {i : Nat} (hi : i < 3) : fld (putFld (putFld w 2 0 0) i i 1) 2 0 = 2 ^ i := by
  apply Nat.eq_of_testBit_eq
  intro j
  rw [testBit_fld, getLsbD_putFld _ le_rfl (by omega), getLsbD_putFld _ (by decide) (by decide), Nat.testBit_two_pow]
  by_cases hj : i = j
  · subst hj
    simp [hi]
  · rw [if_neg (by omega)]
    by_cases h3 : j < 3
    · rw [if_pos (by omega)]
      simp [hj]
    · simp [hj, h3]

/-- Compare k of port n with its status cleared, and not due. -/
def Hw.cmpCleared (h : Hw) (n k : Nat) : Hw := (h.setF (fbr n (0x0E8 + 0x20 * k)) 2 0 0).setDue n k none

theorem Hw.cmpCleared_set (h : Hw) (n k : Nat) {i : Nat} (hi : i < 3) :
    ((h.cmpCleared n k).setBit (fbr n (0x0E8 + 0x20 * k)) i true).f (fbr n (0x0E8 + 0x20 * k)) 2 0 = 2 ^ i := by
  rw [Hw.f, Hw.reg_setBit_same, Hw.cmpCleared, Hw.reg_setDue, Hw.reg_setF_same]
  exact fld_putFld_cleared _ hi

theorem Hw.cmpCleared_due (h : Hw) (n k : Nat) : tabGet none k ((h.cmpCleared n k).fb n).due = none := Hw.due_setDue _ _ _ _

/-- A target reached: ARMED, and due in the next grain. -/
theorem Hw.cmpArm_reached {h : Hw} {n k : Nat} (hd : countDiff (h.cmpTarget n k) (h.fbInt n) = 0) (g : Nat) :
    (h.cmpArm n k g).f (fbr n (0x0E8 + 0x20 * k)) 2 0 = 1 ∧
    tabGet none k ((h.cmpArm n k g).fb n).due = some (g + 1, g + 1) := by
  have e : h.cmpArm n k g = ((h.cmpCleared n k).setBit (fbr n (0x0E8 + 0x20 * k)) 0 true).setDue n k
      (some (g + 1, g + 1)) := if_pos hd
  rw [e]
  exact ⟨h.cmpCleared_set n k (by decide), Hw.due_setDue _ _ _ _⟩

/-- A target ahead in a direction that is not NEG: ARMED, and not due. -/
theorem Hw.cmpArm_ahead {h : Hw} {n k : Nat} (hd : 0 < countDiff (h.cmpTarget n k) (h.fbInt n)) (hdir : h.cmpDir n k ≠ 1)
    (g : Nat) : (h.cmpArm n k g).f (fbr n (0x0E8 + 0x20 * k)) 2 0 = 1 ∧
    tabGet none k ((h.cmpArm n k g).fb n).due = none := by
  have hle : h.cmpDir n k ≤ 2 := min_le_left _ _
  have e : h.cmpArm n k g = (h.cmpCleared n k).setBit (fbr n (0x0E8 + 0x20 * k)) 0 true :=
    (if_neg hd.ne').trans (if_pos (by omega))
  rw [e]
  exact ⟨h.cmpCleared_set n k (by decide), h.cmpCleared_due n k⟩

/-- Compare k of port n with MISSED set and its event. -/
def Hw.cmpMissed (h : Hw) (n k : Nat) : Hw :=
  ((h.cmpCleared n k).setBit (fbr n (0x0E8 + 0x20 * k)) 2 true).evt (pFB n) 12

theorem Hw.reg_cmpMissed (h : Hw) (n k : Nat) {off : Nat} (ho : off < 0x1000) (hlo : 0x020 ≤ off) :
    (h.cmpMissed n k).reg (fbr n off) = ((h.cmpCleared n k).setBit (fbr n (0x0E8 + 0x20 * k)) 2 true).reg (fbr n off) :=
  Hw.reg_evtTs_fbr _ n n 12 _ ho hlo

/-- A target behind in direction POS without FIRE_IF_PASSED: MISSED and its event, and not due. -/
theorem Hw.cmpArm_missed {h : Hw} {n : Nat} {k : Fin 2} (hd : countDiff (h.cmpTarget n k) (h.fbInt n) < 0)
    (hdir : h.cmpDir n k = 0) (hcfg : h.bit (fbr n (0x0E0 + 0x20 * k)) 4 = false) (g : Nat) :
    (h.cmpArm n k g).f (fbr n (0x0E8 + 0x20 * k)) 2 0 = 4 ∧ tabGet none k.val ((h.cmpArm n k g).fb n).due = none ∧
    (h.cmpArm n k g).bit (ra (pFB n) rEVT) 12 = true := by
  have hk := k.isLt
  have hne : fbr n (0x0E0 + 0x20 * k) ≠ fbr n (0x0E8 + 0x20 * k) := fbr_ne (by omega) (by omega) (by omega)
  have hcfg' : (h.cmpMissed n k).bit (fbr n (0x0E0 + 0x20 * k)) 4 = false := by
    rw [Hw.bit, h.reg_cmpMissed n k (by omega) (by omega), Hw.reg_setBit_ne _ hne, Hw.cmpCleared, Hw.reg_setDue,
      Hw.reg_setF_ne _ hne]
    exact hcfg
  have e : h.cmpArm n k g = h.cmpMissed n k := by
    have hno : ¬ (h.cmpDir n k = 2 ∨ (h.cmpDir n k = 0 ∧ 0 < countDiff (h.cmpTarget n k) (h.fbInt n)) ∨
      (h.cmpDir n k = 1 ∧ countDiff (h.cmpTarget n k) (h.fbInt n) < 0)) := by omega
    unfold Hw.cmpArm
    dsimp only
    rw [if_neg hd.ne, if_neg hno]
    exact if_neg (Bool.not_eq_true _ ▸ hcfg')
  rw [e]
  refine ⟨?_, ?_, Hw.bit_evt _ _ (by decide)⟩
  · rw [Hw.f, h.reg_cmpMissed n k (by omega) (by omega)]
    exact h.cmpCleared_set n k (by decide)
  · rw [Hw.cmpMissed, Hw.fb_evt]
    exact h.cmpCleared_due n k

/-- A disarm clears ARMED of a compare that is not due. -/
theorem Hw.cmpDisarm_shows {h : Hw} {n k : Nat} (hd : tabGet none k (h.fb n).due = none) (g : Nat) :
    (h.cmpDisarm n k g).bit (fbr n (0x0E8 + 0x20 * k)) 0 = false ∧ (h.cmpDisarm n k g).fb n = h.fb n := by
  have e : h.cmpDisarm n k g = h.setBit (fbr n (0x0E8 + 0x20 * k)) 0 false := by
    unfold Hw.cmpDisarm
    simp [hd]
  rw [e]
  exact ⟨Hw.bit_setBit_same _ _ (by decide) false, rfl⟩

/-- Compare k of port n has fired with time-stamp ts. -/
structure Hw.Fired (h : Hw) (n k ts : Nat) : Prop where
  stat : h.f (fbr n (0x0E8 + 0x20 * k)) 1 0 = 2
  ts : h.reg (fbr n (0x0EC + 0x20 * k)) = BitVec.ofNat 32 ts
  due : tabGet none k (h.fb n).due = none
  evt : h.bit (ra (pFB n) rEVT) (10 + k) = true

/-- A due compare as it fires. -/
def Hw.cmpFired (h : Hw) (n k ts : Nat) : Hw :=
  (((h.setDue n k none).setF (fbr n (0x0E8 + 0x20 * k)) 1 0 2).setReg (fbr n (0x0EC + 0x20 * k)) (BitVec.ofNat 32 ts)).portNote
    n 8 (10 + k) ts

theorem Hw.cmpFired_fired (h : Hw) (n : Nat) (k : Fin 2) (ts : Nat) : (h.cmpFired n k ts).Fired n k ts := by
  have hk := k.isLt
  refine ⟨?_, ?_, ?_, Hw.evt_portNote _ _ _ (by omega) ts⟩
  · rw [Hw.f, Hw.cmpFired, Hw.reg_portNote _ _ _ _ _ (by omega) (by omega),
      Hw.reg_setReg_ne _ (fbr_ne (by omega) (by omega) (by omega))]
    exact Hw.f_setF_same _ _ (by decide) (by decide) 2
  · rw [Hw.cmpFired, Hw.reg_portNote _ _ _ _ _ (by omega) (by omega), Hw.reg_setReg_same]
  · rw [Hw.cmpFired, Hw.fb_portNote, Hw.fb_setReg, Hw.fb_setF, Hw.due_setDue]

theorem Hw.cmpFire_due {h : Hw} {n k ts d : Nat} (hdue : tabGet none k (h.fb n).due = some (ts, d)) (hd : d ≤ h.grain) :
    h.cmpFire n k = (h.cmpFired n k ts, true) := by
  unfold Hw.cmpFire
  rw [hdue]
  exact if_neg (Nat.not_lt.mpr hd)

theorem Hw.compareFire_fired {h : Hw} {n : Fin 32} {k : Fin 2} {ts d : Nat}
    (hdue : tabGet none k.val (h.fb n).due = some (ts, d)) (hd : d ≤ h.grain) : (h.compareFire n k).Fired n k ts := by
  have hk := k.isLt
  have hkept : PortsKept (h.cmpFired n k ts) (h.compareFire n k) := by
    rw [Hw.compareFire, Hw.cmpFire_due hdue hd]
    exact (PortsKept.pulseStart _ n k).trans ((PortsKept.selEvent _ _ n).trans (PortsKept.acqEvent _ _ n _))
  obtain ⟨hstat, hts, hnone, hevt⟩ := h.cmpFired_fired n k ts
  exact ⟨(hkept.f n (by omega) 1 0).trans hstat, (hkept.reg n (by omega)).trans hts,
    by rw [hkept.fb, hnone], (hkept.bit n (off := rEVT) (by decide) _).trans hevt⟩

/-! ### A write of software to a port's page -/

namespace PortsKept

variable {h k : Hw} (hk : PortsKept h k) (n : Fin 32)
include hk

theorem fbInt : k.fbInt n = h.fbInt n := congrArg intPart (hk.reg64 n (by decide))

theorem fbMode : k.fbMode n = h.fbMode n := hk.f n (by decide) 2 0

variable (j : Fin 2)

theorem latchArmOk (g : Nat) : k.latchArmOk n j g = h.latchArmOk n j g := by
  rw [Hw.latchArmOk, Hw.latchArmOk, hk.fbMode, hk.f n (by omega), hk.fb]

theorem cmpTarget : k.cmpTarget n j = h.cmpTarget n j := congrArg BitVec.toInt (hk.reg n (by omega))

theorem cmpDir : k.cmpDir n j = h.cmpDir n j := congrArg (min 2) (hk.f n (by omega) 1 0)

end PortsKept

end Sys2Proof.Machine

namespace Sys2Proof
open Machine

/-- A software write to the page of a port, which is not locked: its effect finds the ports as they were. -/
theorem gives_portWrite {s : State} {g off : Nat} {n : Fin 32} {f : Hw → Hw} {P : State → Prop} (hl : Live s)
    (hu : Unlocked s (pFB n)) (hP : ∀ h : Hw, PortsKept s.hw h → h.wgrain = max s.hw.grain g / 5 * 5 + 4 →
      P { s with hw := (f h).seal (max s.hw.grain g), mem := s.mem.after (f h) }) :
    ∃ t, run g (fun _ h => h.swWrite (pFB n) off f) s = .next t ∧ P t := by
  refine gives_write (f := fun _ => f) hl (by unfold pFB pFLT; omega) hu fun k hk => hP k.atWrite (fun m off ho => ?_) ?_
  · exact Prod.ext hk.fbs (hk.reg (not_inLog_fbr m ho))
  · have hg : k.grain = max s.hw.grain g := hk.grain
    simp only [Hw.atWrite, Hw.wgrain, hg]
    omega

/-- Settles O32: each command shows its own registers and working state; what a resolved latch and a fired compare set off
leaves every port. -/
theorem probesAndCompares : Obligations.ProbesAndCompares := by
  intro s g n k hl
  refine ⟨fun hu hok hno => ?_, fun hu hsrc => ?_, fun x hu ha hd => ?_,
    fun lv first hlive hstood hfresh hlevel htakes hread hint => ?_, fun len hlive h0 hlen => ?_, fun hu hd => ?_,
    fun hu hd hdir => ?_, fun hu hd hdir hcfg => ?_, fun hu hdue => ?_, fun ts d hdue hd => ?_⟩
  · refine gives_portWrite (f := fun h => h.latchArm n k h.wgrain) hl hu fun h hk hg => ?_
    rw [hg]
    exact Hw.latchArm_shows ((hk.latchArmOk n k _).trans hok) (by rw [hk.fb, hno])
  · refine gives_portWrite (f := fun h => h.latchArm n k h.wgrain) hl hu fun h hk hg => ?_
    rw [Hw.latchArm_refused (by rw [hk.fbMode, hk.f n (by omega), hsrc])]
    refine ⟨Hw.bit_evt _ _ (by decide), (h.fb_evt _ 9 n).trans (hk.fb n), ?_⟩
    exact (Hw.reg_evtTs_fbr _ n n 9 _ (by omega) (by omega)).trans (hk.reg n (by omega))
  · refine gives_portWrite (f := fun h => h.latchDisarm n k h.wgrain) hl hu fun h hk hg => ?_
    rw [hg]
    exact Hw.latchDisarm_shows (by rw [hk.fb, ha]) (by rw [hk.fb, hd]) _
  · obtain ⟨t, e, hts, hpos, hstat, harm, hevt⟩ :=
      Hw.probeLatch_latched (h := s.hw.at g) hlive hstood hfresh hlevel htakes hread hint
    refine gives_run_eq (f := fun _ h => let r := h.probeLatch n k lv first; if r.2 then r.1.latchHook n k else r.1) hl e ?_
    exact ⟨hts, congrArg BitVec.toInt hpos, hstat, harm, hevt⟩
  · exact gives_run (f := fun _ h => h.probeLost n k len) hl (Hw.probeLost_shows (h := s.hw.at g) hlive h0 hlen)
  · refine gives_portWrite (f := fun h => h.cmpArm n k h.wgrain) hl hu fun h hk hg => ?_
    rw [hg]
    exact Hw.cmpArm_reached (by rw [hk.cmpTarget, hk.fbInt, hd]) _
  · refine gives_portWrite (f := fun h => h.cmpArm n k h.wgrain) hl hu fun h hk hg => ?_
    exact Hw.cmpArm_ahead (by rwa [hk.cmpTarget, hk.fbInt]) (by rwa [hk.cmpDir]) _
  · refine gives_portWrite (f := fun h => h.cmpArm n k h.wgrain) hl hu fun h hk hg => ?_
    exact Hw.cmpArm_missed (by rwa [hk.cmpTarget, hk.fbInt]) (by rwa [hk.cmpDir]) (by rw [hk.bit n (by omega), hcfg]) _
  · refine gives_portWrite (f := fun h => h.cmpDisarm n k h.wgrain) hl hu fun h hk hg => ?_
    obtain ⟨hstat, hfb⟩ := Hw.cmpDisarm_shows (by rw [hk.fb, hdue]) h.wgrain
    exact ⟨hstat, hfb.trans (hk.fb n)⟩
  · obtain ⟨hstat, hts, hnone, hevt⟩ := Hw.compareFire_fired (h := s.hw.at g) hdue hd
    exact gives_run (f := fun _ h => h.compareFire n k) hl ⟨hstat, hts, hnone, hevt⟩

end Sys2Proof

/-! ## The instructions of the Hytar engines (R149 to R187)

An instruction that an engine issues with its predicate true is its operation, then the advance of the PC; most operations
replace the registers of their engine and leave everything else. -/

namespace Sys2Proof.Machine

/-! ### An engine's registers replaced -/

theorem Hw.hyt_setHyt_ne (h : Hw) {e n : Nat} (hn : n ≠ e) (x : HytS) : (h.setHyt e x).hyt n = h.hyt n :=
  tabGet_tabSet_ne _ _ hn x h.hyts

/-- From h to k the registers of engine e become x, and nothing else changes. -/
structure Hw.Turns (h k : Hw) (e : Nat) (x : HytS) : Prop where
  this : k.hyt e = x
  others : ∀ n, n ≠ e → k.hyt n = h.hyt n
  rest : k = { h with hyts := k.hyts }

theorem Hw.Turns.refl (h : Hw) (e : Nat) : h.Turns h e (h.hyt e) := ⟨rfl, fun _ _ => rfl, rfl⟩

theorem Hw.Turns.setHyt {h k : Hw} {e : Nat} {x : HytS} (ht : h.Turns k e x) (y : HytS) : h.Turns (k.setHyt e y) e y :=
  ⟨k.hyt_setHyt_same e y, fun n hn => (k.hyt_setHyt_ne hn y).trans (ht.others n hn), congrArg (·.setHyt e y) ht.rest⟩

theorem Hw.Turns.upHyt {h k : Hw} {e : Nat} {x : HytS} (ht : h.Turns k e x) (f : HytS → HytS) :
    h.Turns (k.upHyt e f) e (f x) := by
  rw [Hw.upHyt, ht.this]
  exact ht.setHyt (f x)

/-! ### The PC after an instruction -/

theorem HytS.stepping_rotate (x : HytS) : x.rotate.stepping = x.stepping := by
  have hfold : ∀ (l : List Nat) (y : HytS),
      (l.foldl (fun y i => y.setD (16 + (i + 1) % x.window) (x.dr (16 + i))) y).stepping = y.stepping := fun l => by
    induction l with
    | nil => exact fun _ => rfl
    | cons i l ih => exact fun y => ih _
  exact hfold _ x

@[simp] theorem HytS.stepping_advance (x : HytS) : x.advance.stepping = x.stepping := by
  unfold HytS.advance
  split
  · next l t _ =>
    have hr : (if l.modulo then x.rotate else x).stepping = x.stepping := by
      split
      · exact x.stepping_rotate
      · rfl
    dsimp only
    split
    · split <;> exact hr
    · rfl
  · rfl

theorem Hw.stepEnd_of_unstepped {h : Hw} {e : Nat} (hs : (h.hyt e).stepping = false) : h.stepEnd e = h := by
  simp [Hw.stepEnd, hs]

/-- The end of an instruction that is not a single step and does not jump. -/
theorem Hw.advanced {h : Hw} {e : Nat} (hs : (h.hyt e).stepping = false) :
    (h.upHyt e HytS.advance).stepEnd e = h.upHyt e HytS.advance := by
  refine Hw.stepEnd_of_unstepped ?_
  rw [Hw.upHyt, Hw.hyt_setHyt_same, HytS.stepping_advance, hs]

/-! ### How an instruction issues (R156, R161, R173) -/

/-- Engine e runs, does not wait and is not being stepped, and no word of the engine memories holds an error. -/
structure Hw.Ready (h : Hw) (e : Nat) : Prop where
  runs : h.hytRuns e = true
  awake : (h.hyt e).waiting = false
  unstepped : (h.hyt e).stepping = false
  clean : h.sup.eccHyt = []

theorem Hw.eccRead_clean {h : Hw} (hc : h.sup.eccHyt = []) (e : Nat) (d : Bool) (a : Nat) : h.eccRead e d a = (h, false) := by
  simp [Hw.eccRead, Hw.eccAt, hc]

theorem Hw.eccLoad_clean {h : Hw} (hc : h.sup.eccHyt = []) (e : Nat) (l : List Nat) : h.eccLoad e l = (h, false) := by
  induction l with
  | nil => rfl
  | cons w l ih => simp [Hw.eccLoad, Hw.eccRead_clean hc, ih]

section
variable {h : Hw} {e p : Nat} (hr : h.Ready e) {legal : Bool} {rd : List Nat} {f : Hw → Hw × Flow}
include hr

/-- What the fetch of an engine that is ready comes down to. -/
theorem Hw.issue_ready : h.issue e p legal rd f =
    if !(predLegal p && legal) then h.hytHalt e 5
    else if !(h.hyt e).pred p then h.upHyt e HytS.advance
    else match (f h).2 with
      | .next => ((f h).1.upHyt e HytS.advance).stepEnd e
      | .jump t br => ((f h).1.upHyt e fun x => x.jump t br).stepEnd e
      | .stop cause done => (if done then (f h).1.upHyt e HytS.advance else (f h).1).hytHalt e cause
      | .stall => h := by
  simp only [Hw.issue, hr.runs, hr.awake, Hw.eccRead_clean hr.clean, Hw.eccLoad_clean hr.clean, Hw.advanced hr.unstepped,
    Bool.not_true, Bool.or_self, Bool.false_eq_true, if_false] <;> rfl

/-- An illegal instruction stops the engine, whatever its predicate. -/
theorem Hw.issue_illegal (hl : (predLegal p && legal) = false) : h.issue e p legal rd f = h.hytHalt e 5 := by
  rw [Hw.issue_ready hr, hl]
  rfl

variable (hp : predLegal p = true) (hl : legal = true)
include hp hl

/-- A legal instruction whose predicate is false only advances. -/
theorem Hw.issue_off (hf : (h.hyt e).pred p = false) : h.issue e p legal rd f = h.upHyt e HytS.advance := by
  rw [Hw.issue_ready hr, hp, hl, hf]
  rfl

variable (ht : (h.hyt e).pred p = true) {k : Hw}
include ht

theorem Hw.issue_next (hk : f h = (k, .next)) (hs : (k.hyt e).stepping = false) :
    h.issue e p legal rd f = k.upHyt e HytS.advance := by
  rw [Hw.issue_ready hr, hp, hl, ht, hk]
  exact Hw.advanced hs

theorem Hw.issue_stop {cause : Nat} (hk : f h = (k, .stop cause false)) : h.issue e p legal rd f = k.hytHalt e cause := by
  rw [Hw.issue_ready hr, hp, hl, ht, hk]
  rfl

theorem Hw.issue_stall (hk : f h = (k, .stall)) : h.issue e p legal rd f = h := by
  rw [Hw.issue_ready hr, hp, hl, ht, hk]
  rfl

end

/-! ### The end of a command that writes no memory -/

theorem Hw.seal_of_still {h : Hw} (hw : h.wbuf = []) (hr : h.rst = 0) (g : Nat) : h.seal g = { h with grain := g } := by
  have hfilter : ∀ {α : Type} (l : List α), l.filter (fun _ => true) = l := fun l => List.filter_eq_self.mpr fun _ _ => rfl
  simp [Hw.seal, hw, hr, hfilter]

end Sys2Proof.Machine

namespace Sys2Proof
open Machine

theorem Machine.Hw.ready_of_issues {s : State} {e : Fin 16} {p : BitVec 5} (hI : Issues s e p) (g : Nat) :
    (s.hw.at g).Ready e := by
  obtain ⟨-, -, hruns, hawake, hstep, -, -, hclean⟩ := hI
  exact ⟨hruns, hawake, hstep, hclean⟩

/-- A command that only turns the registers of engine e to x. -/
theorem only_of_turns {s : State} {g : Nat} {e : Fin 16} (k : Fin 16) {x : HytS} {f : Mem → Hw → Hw} (hs : Settled s)
    (ht : (s.hw.at g).Turns (f s.mem (s.hw.at g)) e x) : Only s (afterRun s g f) g e k x := by
  obtain ⟨hthis, hothers, hrest⟩ := ht
  unfold afterRun
  generalize f s.mem (s.hw.at g) = h at hthis hothers hrest
  have hw : h.wbuf = [] := (congrArg Hw.wbuf hrest).trans hs.1
  have hr : h.rst = 0 := (congrArg Hw.rst hrest).trans hs.2
  have hg : h.grain = max s.hw.grain g := congrArg Hw.grain hrest
  have hseal : h.seal (max s.hw.grain g) = h := by rw [Hw.seal_of_still hw hr, ← hg]
  rw [hseal, after_of_no_write hr hw]
  refine ⟨hthis, ?_, ?_⟩
  · rcases eq_or_ne k e with hk | hk
    · exact .inl hk
    · exact .inr (hothers k fun he => hk (Fin.ext he))
  · exact congrArg (fun k => { s with hw := k }) hrest

section
variable {s : State} {g : Nat} {e : Fin 16} {p : BitVec 5} {h : Hw} {x : HytS} (hI : Issues s e p)
include hI

section
variable {f : Mem → Hw → Hw} {legal : Bool} {rd : List Nat} {F : Hw → Hw × Flow} (hl : legal = true)
  (hf : f s.mem (s.hw.at g) = (s.hw.at g).issue e p.toNat legal rd F) (he : F (s.hw.at g) = (h, .next))
include hl hf he

/-- An instruction whose operation leads to h, and goes on to the next in line. -/
theorem gives_issue {P : State → Prop} (hx : (h.hyt e).stepping = false)
    (hP : P { s with hw := (h.upHyt e HytS.advance).seal (max s.hw.grain g),
                     mem := s.mem.after (h.upHyt e HytS.advance) }) : ∃ t, run g f s = .next t ∧ P t := by
  have hr := Hw.ready_of_issues hI g
  obtain ⟨hlive, -, -, -, -, hp, ht, -⟩ := hI
  exact gives_run_eq hlive (hf.trans (Hw.issue_next hr hp hl ht he hx)) hP

/-- An instruction whose operation turns the registers of its engine to x, and nothing else. -/
theorem gives_turn (k : Fin 16) (ht : (s.hw.at g).Turns h e x) (hx : x.stepping = (s.hw.hyt e).stepping) :
    ∃ t, run g f s = .next t ∧ Only s t g e k x.advance := by
  have hstep : (s.hw.hyt e).stepping = false := (Hw.ready_of_issues hI g).unstepped
  obtain ⟨-, hs, -⟩ := id hI
  refine gives_issue hI hl hf he (by rw [ht.this, hx, hstep]) ?_
  exact only_of_turns (f := fun _ _ => h.upHyt e HytS.advance) k hs (ht.upHyt HytS.advance)

end

/-- An instruction whose operation is a function of the registers of its engine. -/
theorem gives_reg {op : HOp} {f : HytS → HytS} (k : Fin 16) (hl : op.legal (s.hw.hyt e) = true)
    (he : op.effect s.mem e (s.hw.at g) = ((s.hw.at g).upHyt e f, .next)) (hf : f (s.hw.hyt e) = x)
    (hx : x.stepping = (s.hw.hyt e).stepping) :
    ∃ t, run g (fun m h => h.hop m e p.toNat op) s = .next t ∧ Only s t g e k x.advance := by
  subst hf
  exact gives_turn hI hl rfl he k ((Hw.Turns.refl _ e).upHyt f) hx

end

end Sys2Proof

/-! ### Sources and limits of the accumulator instructions (R152, R154, R183) -/

namespace Sys2Proof.Machine

/-- The fractional source of a legal accumulator instruction. -/
theorem HytS.srcA2_frac (x : HytS) {sf : Bool} {r : BitVec 5} (hr : (sf || decide (r.toNat < 8)) = true) :
    x.srcA2 true sf r.toNat = fracSource x sf r := by
  cases sf with
  | true => rfl
  | false => exact congrArg x.ac (Nat.mod_eq_of_lt (of_decide_eq_true hr))

/-- The integer source of a legal accumulator instruction. -/
theorem HytS.srcA2_int (x : HytS) {sf : Bool} {r : BitVec 5} (hr : (sf || decide (r.toNat < 8)) = true) :
    x.srcA2 false sf r.toNat = intSource x sf r := by
  cases sf with
  | true => rfl
  | false => exact congrArg x.ac (Nat.mod_eq_of_lt (of_decide_eq_true hr))

/-- Bits 55:47 of an accumulator are its value in units of 2^47, in nine bits. -/
theorem toNat_high_of_acc (v : BitVec 56) : ((v.extractLsb' 47 9).toNat : Int) = v.toInt / 2 ^ 47 % 512 := by
  have hlt := v.isLt
  rw [BitVec.extractLsb'_toNat, BitVec.toInt_eq_toNat_cond, Nat.shiftRight_eq_div_pow]
  split <;> omega

/-- E is clear exactly where the accumulator lies in the Q1.47 range (R154). -/
theorem outsideQ47_eq_false_iff (v : BitVec 56) :
    outsideQ47 v = false ↔ v.toInt < (2 : Int) ^ 47 ∧ -(2 : Int) ^ 47 ≤ v.toInt := by
  have hhigh := toNat_high_of_acc v
  have hlo := BitVec.le_toInt v
  have hhi := BitVec.toInt_lt (x := v)
  have hz : (0 : BitVec 9).toNat = 0 := rfl
  have ho : (0x1FF : BitVec 9).toNat = 0x1FF := rfl
  simp only [outsideQ47, bne, Bool.and_eq_false_iff, Bool.not_eq_false', beq_iff_eq, ← BitVec.toNat_inj, hz, ho]
  omega

/-- The registers after SAT of accumulator a (R183). -/
def HytS.limit (x : HytS) (a : Nat) : HytS :=
  if outsideQ47 (x.ac a) then
    let r : BitVec 56 := if (x.ac a).msb then 0xFF800000000000 else 0x007FFFFFFFFFFF
    { x.setAc a r with sr := putFlag (flagsQE x.sr r) fSAT true }
  else { x with sr := flagsQE x.sr (x.ac a) }

theorem HytS.limit_within {x : HytS} {a : Nat} (hhi : (x.ac a).toInt < (2 : Int) ^ 47)
    (hlo : -(2 : Int) ^ 47 ≤ (x.ac a).toInt) : x.limit a = { x with sr := flagsQE x.sr (x.ac a) } := by
  rw [HytS.limit, (outsideQ47_eq_false_iff _).mpr ⟨hhi, hlo⟩]
  rfl

theorem HytS.limit_above {x : HytS} {a : Nat} (hv : (2 : Int) ^ 47 ≤ (x.ac a).toInt) :
    x.limit a = { x.setAc a 0x007FFFFFFFFFFF with sr := putFlag (flagsQE x.sr 0x007FFFFFFFFFFF) fSAT true } := by
  have hout : outsideQ47 (x.ac a) = true := by
    rw [← Bool.not_eq_false, outsideQ47_eq_false_iff]
    omega
  have hmsb : (x.ac a).msb = false := by
    rw [BitVec.msb_eq_toInt, decide_eq_false_iff_not]
    omega
  rw [HytS.limit, hout, hmsb]
  rfl

theorem HytS.limit_below {x : HytS} {a : Nat} (hv : (x.ac a).toInt < -(2 : Int) ^ 47) :
    x.limit a = { x.setAc a 0xFF800000000000 with sr := putFlag (flagsQE x.sr 0xFF800000000000) fSAT true } := by
  have hout : outsideQ47 (x.ac a) = true := by
    rw [← Bool.not_eq_false, outsideQ47_eq_false_iff]
    omega
  have hmsb : (x.ac a).msb = true := by
    rw [BitVec.msb_eq_toInt, decide_eq_true_eq]
    omega
  rw [HytS.limit, hout, hmsb]
  rfl

/-- N and Z of the exact difference compare the two values. -/
theorem flags_of_difference (sr : Word) (v w : BitVec 56) :
    putFlag (putFlag sr fN (decide (v.toInt - w.toInt < 0))) fZ (decide (v.toInt - w.toInt = 0)) =
      putFlag (putFlag sr fN (decide (v.toInt < w.toInt))) fZ (decide (v = w)) := by
  have hn : v.toInt - w.toInt < 0 ↔ v.toInt < w.toInt := by omega
  have hz : v.toInt - w.toInt = 0 ↔ v = w := Int.sub_eq_zero.trans BitVec.toInt_inj
  simp only [hn, hz]

/-- A choice between the registers as they are and with an accumulator written leaves whether the engine is stepped. -/
theorem HytS.stepping_ite_setAc (x : HytS) (c : Prop) [Decidable c] (a : Nat) (v : BitVec 56) :
    (if c then x.setAc a v else x).stepping = x.stepping := by
  split <;> rfl

end Sys2Proof.Machine

namespace Sys2Proof
open Machine

/-- Settles O33: each instruction is a function of the registers of its engine. -/
theorem hytarAccumulatorArithmetic : Obligations.HytarAccumulatorArithmetic := by
  intro s g e k p a hI eng
  have sat : ∀ {x : HytS}, eng.limit a.toNat = x → x.stepping = eng.stepping → Gives (.sat g e p a) s fun t =>
      Only s t g e k x.advance := fun hx hs => gives_reg (op := .sat a.toNat) hI k rfl rfl hx hs
  refine ⟨fun sf r hr => ?_, fun sf r hr => ?_, ?_, ?_, fun sf r hr => ?_, fun sf r hr => ?_, fun sf r hr => ?_, ?_,
    fun sf r hr => ?_, fun sf r hr => ?_, fun h => sat (HytS.limit_above h) rfl, fun h => sat (HytS.limit_below h) rfl,
    fun hhi hlo => sat (HytS.limit_within hhi hlo) rfl⟩
  · exact gives_reg (op := .add a.toNat sf r.toNat) hI k hr rfl (by rw [HytS.srcA2_frac _ hr]; rfl) rfl
  · exact gives_reg (op := .sub a.toNat sf r.toNat) hI k hr rfl (by rw [HytS.srcA2_frac _ hr]; rfl) rfl
  · exact gives_reg (op := .neg a.toNat) hI k rfl rfl rfl rfl
  · exact gives_reg (op := .abs a.toNat) hI k rfl rfl rfl rfl
  · exact gives_reg (op := .addl a.toNat sf r.toNat) hI k hr rfl (by rw [HytS.srcA2_int _ hr]) rfl
  · exact gives_reg (op := .subl a.toNat sf r.toNat) hI k hr rfl (by rw [HytS.srcA2_int _ hr]) rfl
  · exact gives_reg (op := .cmp a.toNat sf r.toNat) hI k hr rfl
      (by rw [HytS.srcA2_frac _ hr]; exact congrArg (fun w => ({ eng with sr := w } : HytS)) (flags_of_difference _ _ _)) rfl
  · exact gives_reg (op := .clr a.toNat) hI k rfl rfl rfl rfl
  · exact gives_reg (op := .min a.toNat sf r.toNat) hI k hr rfl (by rw [HytS.srcA2_frac _ hr]) (eng.stepping_ite_setAc _ _ _)
  · exact gives_reg (op := .max a.toNat sf r.toNat) hI k hr rfl (by rw [HytS.srcA2_frac _ hr]) (eng.stepping_ite_setAc _ _ _)

end Sys2Proof

/-! ### Multiplies, parallel accesses and TAP (R182, R187) -/

namespace Sys2Proof.Machine

theorem dmAddr_mod (e w : Nat) : dmAddr e w % 4 = 0 := by
  unfold dmAddr
  omega

/-- A byte outside the data word written reads as before. -/
theorem Hw.rd8_dmWr_ne (h : Hw) (m : Mem) {e w b : Nat} (hb : b / 4 ≠ dmAddr e w / 4) (v : Word) :
    (h.dmWr e w v).rd8 m b = h.rd8 m b := by
  have ha := dmAddr_mod e w
  have hword : (h.dmWr e w v).rd8 m b = (h.wr32 (dmAddr e w) v).rd8 m b := by
    simp only [Hw.rd8, h.dmWr_wbuf]
  exact hword.trans (h.rd8_wr32_ne m (by omega) v)

@[simp] theorem HytS.stepping_setD (x : HytS) (n : Nat) (v : BitVec 24) : (x.setD n v).stepping = x.stepping := rfl
@[simp] theorem HytS.stepping_putF (x : HytS) (a : Nat) (v : Int) : (x.putF a v).stepping = x.stepping := rfl
@[simp] theorem HytS.stepping_parUpdate (x : HytS) (i : Nat) (u : Bool) : (x.parUpdate i u).stepping = x.stepping := rfl

theorem HytS.mulAcc_mpy (x : HytS) (a xr yr : Nat) :
    x.mulAcc 0 a xr yr = fracResult x a (2 * ((x.dr xr).toInt * (x.dr yr).toInt)) := rfl

theorem HytS.mulAcc_mac (x : HytS) (a xr yr : Nat) :
    x.mulAcc 1 a xr yr = fracResult x a ((x.ac a).toInt + 2 * ((x.dr xr).toInt * (x.dr yr).toInt)) := rfl

theorem HytS.mulAcc_msu (x : HytS) (a xr yr : Nat) :
    x.mulAcc 2 a xr yr = fracResult x a ((x.ac a).toInt - 2 * ((x.dr xr).toInt * (x.dr yr).toInt)) := rfl

/-- The address registers of engine registers: IXi, its anchor, MDi and LNi. -/
def HytS.addressing (x : HytS) : (Tab (BitVec 16) × Tab (BitVec 16)) × Tab (BitVec 16) × Tab (BitVec 16) :=
  ((x.ix, x.ak), x.md, x.ln)

/-- A parallel access moves IXi as the address registers stood before the instruction (R187). -/
theorem HytS.parUpdate_of_addressing {x y : HytS} (ha : y.addressing = x.addressing) (i : Nat) (u : Bool) :
    y.parUpdate i u = y.stepIx i (x.agu i (x.ixr i) (if u then (x.mdr i).toInt else 1)) := by
  have read : ∀ (t : HytS → Tab (BitVec 16)), t y = t x → tabGet (0 : BitVec 16) i (t y) = tabGet 0 i (t x) :=
    fun _ => congrArg (tabGet 0 i)
  have hix : y.ixr i = x.ixr i := congrArg BitVec.toNat (read HytS.ix (congrArg (·.1.1) ha))
  have hak : y.anchor i = x.anchor i := congrArg BitVec.toNat (read HytS.ak (congrArg (·.1.2) ha))
  have hmd : y.mdr i = x.mdr i := read HytS.md (congrArg (·.2.1) ha)
  have hln : y.lnr i = x.lnr i := congrArg BitVec.toNat (read HytS.ln (congrArg (·.2.2) ha))
  simp only [HytS.parUpdate, HytS.agu, hix, hak, hmd, hln]

theorem HytS.addressing_mulAcc (x : HytS) (kind a xr yr : Nat) : (x.mulAcc kind a xr yr).addressing = x.addressing := rfl
theorem HytS.stepping_mulAcc (x : HytS) (kind a xr yr : Nat) : (x.mulAcc kind a xr yr).stepping = x.stepping := rfl

/-- The registers after TAP of the words wi and wj (R182). -/
def HytS.tap (x : HytS) (wi wj : BitVec 24) (a i j mr : Nat) (c ui uj s z : Bool) : HytS :=
  let p := product wi wj
  let p := if s then -p else p
  let y := x.putF a (if z then p else (x.ac a).toInt + p)
  let y := if c then y.setD mr wi else y
  let y := y.parUpdate i ui
  if i = j then y else y.parUpdate j uj

theorem Hw.tap_eq (h : Hw) (m : Mem) (e a i j mr : Nat) (c ui uj s z : Bool) : h.tap m e a i j mr c ui uj s z =
    h.setHyt e ((h.hyt e).tap (h.dmData m e ((h.hyt e).ixr i)) (h.dmData m e ((h.hyt e).ixr j)) a i j mr c ui uj s z) := by
  unfold Hw.tap HytS.tap
  rfl

theorem HytS.stepping_tap (x : HytS) (wi wj : BitVec 24) (a i j mr : Nat) (c ui uj s z : Bool) :
    (x.tap wi wj a i j mr c ui uj s z).stepping = x.stepping := by
  unfold HytS.tap
  dsimp only
  split
  · cases c <;> simp
  · cases c <;> simp

/-- TAP by the numbers of its index registers, the sum with the accumulator or with 0 in its place. -/
theorem HytS.tap_fields (x : HytS) (wi wj : BitVec 24) (a : Nat) (i j : BitVec 3) (mr : Nat) (c ui uj s z : Bool) :
    x.tap wi wj a i.toNat j.toNat mr c ui uj s z =
      (let pr := 2 * (wi.toInt * wj.toInt)
       let x1 := fracResult x a ((if z then 0 else (x.ac a).toInt) + (if s then -pr else pr))
       let x2 := (if c then x1.setD mr wi else x1).parUpdate i.toNat ui
       if i = j then x2 else x2.parUpdate j.toNat uj) := by
  unfold HytS.tap
  simp only [BitVec.toNat_inj]
  cases z with
  | false => rfl
  | true => simp only [if_true, Int.zero_add]; rfl

end Sys2Proof.Machine

namespace Sys2Proof
open Machine

section
variable {s : State} {g : Nat} {e : Fin 16} {p : BitVec 5} {op : HOp} (hI : Issues s e p)
  (hl : op.legal (s.hw.hyt e) = true)
include hI hl

/-- An instruction that stores the word v at data word w: the registers it leaves, and no byte written but the word's. -/
theorem gives_dmStore {w : Nat} {v : Word} {x : HytS}
    (he : op.effect s.mem e (s.hw.at g) = (((s.hw.at g).dmWr e w v).setHyt e x, .next))
    (hx : x.stepping = (s.hw.hyt e).stepping) (b : Nat) :
    ∃ t, run g (fun m h => h.hop m e p.toNat op) s = .next t ∧ t.hw.hyt e = x.advance ∧ t.hw.regs = s.hw.regs ∧
      t.hw.rd32 t.mem (dmAddr e w) = v ∧ (b / 4 = dmAddr e w / 4 ∨ memGet t.mem b = memGet s.mem b) := by
  obtain ⟨-, ⟨hbuf, hrst⟩, -, -, hstep, -⟩ := id hI
  have hstill := (s.hw.at g).dmWr_still e w v
  have hword : ((s.hw.at g).dmWr e w v).rd32 s.mem (dmAddr e w) = v :=
    (Hw.rd32_dmWr _ _ _ _ _ _).trans (Hw.rd32_wr32_same _ _ _ _)
  have hbyte : b / 4 ≠ dmAddr e w / 4 → ((s.hw.at g).dmWr e w v).rd8 s.mem b = memGet s.mem b := fun hb => by
    rw [Hw.rd8_dmWr_ne _ _ hb, Hw.rd8, Hw.at_wbuf, hbuf, List.find?_nil]
  generalize (s.hw.at g).dmWr e w v = h at he hstill hword hbyte
  have hr : ((h.setHyt e x).upHyt e HytS.advance).rst = 0 := (Hw.rst_of_still hstill).trans hrst
  have hthis := h.hyt_setHyt_same e x
  refine gives_issue (f := fun m h => h.hop m e p.toNat op) hI hl rfl he (by rw [hthis, hx, hstep])
    ⟨?_, (Hw.regs_of_still hstill : h.regs = _), ?_, ?_⟩
  · exact (Hw.hyt_setHyt_same _ _ _).trans (congrArg HytS.advance hthis)
  · exact (Hw.rd32_seal hr _ _ _).trans hword
  · rcases eq_or_ne (b / 4) (dmAddr e w / 4) with hb | hb
    · exact .inl hb
    · exact .inr ((memGet_after hr b).trans (hbyte hb))

variable {kind a xr yr mr i : Nat} {u : Bool} {x : HytS} (hx : (s.hw.hyt e).mulAcc kind a xr yr = x)
include hx

/-- A multiply with a parallel store, the product's registers being x. -/
theorem gives_mulStore (he : op.effect s.mem e (s.hw.at g) = ((s.hw.at g).mulStore e kind a xr yr mr i u, .next)) (b : Nat) :
    let eng := s.hw.hyt e
    ∃ t, run g (fun m h => h.hop m e p.toNat op) s = .next t ∧
      t.hw.hyt e = (x.stepIx i (eng.agu i (eng.ixr i) (if u then (eng.mdr i).toInt else 1))).advance ∧
      t.hw.regs = s.hw.regs ∧ t.hw.rd32 t.mem (dmAddr e (eng.ixr i)) = (eng.dr (16 + mr)).signExtend 32 ∧
      (b / 4 = dmAddr e (eng.ixr i) / 4 ∨ memGet t.mem b = memGet s.mem b) := by
  intro eng
  subst hx
  have hpar := HytS.parUpdate_of_addressing (eng.addressing_mulAcc kind a xr yr) i u
  rw [← hpar]
  exact gives_dmStore hI hl he (eng.stepping_mulAcc kind a xr yr) b

/-- A multiply with a parallel load, the product's registers being x. -/
theorem gives_mulLoad (k : Fin 16)
    (he : op.effect s.mem e (s.hw.at g) = ((s.hw.at g).mulLoad s.mem e kind a xr yr mr i u, .next)) :
    let eng := s.hw.hyt e
    ∃ t, run g (fun m h => h.hop m e p.toNat op) s = .next t ∧ Only s t g e k
      ((x.setD (16 + mr) (s.hw.dmData s.mem e (eng.ixr i))).stepIx i
        (eng.agu i (eng.ixr i) (if u then (eng.mdr i).toInt else 1))).advance := by
  intro eng
  subst hx
  have hpar := HytS.parUpdate_of_addressing (x := eng)
    (y := (eng.mulAcc kind a xr yr).setD (16 + mr) (s.hw.dmData s.mem e (eng.ixr i))) (eng.addressing_mulAcc kind a xr yr) i u
  exact gives_reg (f := fun x => ((x.mulAcc kind a xr yr).setD (16 + mr) (s.hw.dmData s.mem e (eng.ixr i))).parUpdate i u)
    hI k hl he hpar (eng.stepping_mulAcc kind a xr yr)

end

/-- Settles O34: products and loads are functions of the registers of the engine, stores write one word of its memory. -/
theorem hytarMultiplies : Obligations.HytarMultiplies := by
  intro s g e k p a hI eng
  refine ⟨fun x y => ?_, fun x y => ?_, fun x y => ?_, fun x y m i u => ?_, fun x y m i u => ?_, fun x y m i u => ?_,
    fun x y m i u b _ => ?_, fun x y m i u b _ => ?_, fun x y m i u b _ => ?_, fun i j m c ui uj sg z => ?_⟩
  · exact gives_reg (op := .mpy a.toNat x.toNat y.toNat) hI k rfl rfl rfl rfl
  · exact gives_reg (op := .mac a.toNat x.toNat y.toNat) hI k rfl rfl rfl rfl
  · exact gives_reg (op := .msu a.toNat x.toNat y.toNat) hI k rfl rfl rfl rfl
  · exact gives_mulLoad (op := .mpyp a.toNat x.toNat y.toNat m.toNat i.toNat u) hI rfl (eng.mulAcc_mpy ..) k rfl
  · exact gives_mulLoad (op := .macp a.toNat x.toNat y.toNat m.toNat i.toNat u) hI rfl (eng.mulAcc_mac ..) k rfl
  · exact gives_mulLoad (op := .msup a.toNat x.toNat y.toNat m.toNat i.toNat u) hI rfl (eng.mulAcc_msu ..) k rfl
  · exact gives_mulStore (op := .mpys a.toNat x.toNat y.toNat m.toNat i.toNat u) hI rfl (eng.mulAcc_mpy ..) rfl b
  · exact gives_mulStore (op := .macs a.toNat x.toNat y.toNat m.toNat i.toNat u) hI rfl (eng.mulAcc_mac ..) rfl b
  · exact gives_mulStore (op := .msus a.toNat x.toNat y.toNat m.toNat i.toNat u) hI rfl (eng.mulAcc_msu ..) rfl b
  · have ht := Hw.tap_eq (s.hw.at g) s.mem e a.toNat i.toNat j.toNat m.toNat c ui uj sg z
    have hx := eng.tap_fields (s.hw.dmData s.mem e (eng.ixr i.toNat)) (s.hw.dmData s.mem e (eng.ixr j.toNat)) a.toNat i j
      m.toNat c ui uj sg z
    dsimp only at hx ⊢
    rw [← hx]
    exact gives_turn (f := fun mem h => h.hop mem e p.toNat (.tap a.toNat i.toNat j.toNat m.toNat c ui uj sg z)) hI rfl rfl
      (congrArg (·, Flow.next) ht) k ((Hw.Turns.refl _ e).setHyt _) (eng.stepping_tap ..)

end Sys2Proof

/-! ### Shifts, normalising and immediates (R183 to R185) -/

namespace Sys2Proof.Machine

/-- ASH by its number of places, to the left or to the right. -/
theorem HytS.ash_eq (x : HytS) (a : Nat) (n : Int) : x.ash a n =
    fracResult x a (if 0 ≤ n then (x.ac a).toInt * 2 ^ n.natAbs else (x.ac a).toInt / 2 ^ n.natAbs) := by
  have hv : (if 0 ≤ n then (x.ac a).toInt * 2 ^ n.toNat else (x.ac a).toInt / 2 ^ (-n).toNat) =
      if 0 ≤ n then (x.ac a).toInt * 2 ^ n.natAbs else (x.ac a).toInt / 2 ^ n.natAbs := by
    split
    · rw [show n.toNat = n.natAbs by omega]
    · rw [show (-n).toNat = n.natAbs by omega]
  unfold HytS.ash
  dsimp only
  rw [hv]
  rfl

theorem HytS.lsh_left (x : HytS) (a : Nat) {n : Int} (hn : 0 < n) : x.lsh a n =
    intResult x a (x.ac a <<< n.natAbs) ((x.ac a).getLsbD (56 - n.natAbs)) := by
  simp only [HytS.lsh, if_pos hn, if_pos hn.le, if_neg hn.ne']

theorem HytS.lsh_right (x : HytS) (a : Nat) {n : Int} (hn : n < 0) : x.lsh a n =
    intResult x a (x.ac a >>> n.natAbs) ((x.ac a).getLsbD (n.natAbs - 1)) := by
  simp only [HytS.lsh, if_neg hn.not_gt, if_neg hn.not_ge, if_neg hn.ne]

theorem HytS.lsh_zero (x : HytS) (a : Nat) : x.lsh a 0 = intResult x a (x.ac a) false := by
  have hv : x.ac a <<< 0 = x.ac a := BitVec.shiftLeft_zero _
  exact congrArg (fun v => intResult x a v false) hv

/-- The shift count of a data register (R183): its sign, and its size up to 56. -/
theorem clip_sign (v : Int) : (clip (-56) 56 v < 0 ↔ v < 0) ∧ (0 < clip (-56) 56 v ↔ 0 < v) ∧
    (clip (-56) 56 v).natAbs = min 56 v.natAbs := by
  unfold clip
  split
  · omega
  · split <;> omega

/-- NRM to the left. -/
theorem HytS.nrm_left (x : HytS) (a d : Nat) (he : 0 ≤ accExp (x.ac a)) : x.nrm a d =
    { (x.setAc a (x.ac a <<< (accExp (x.ac a)).toNat)).setD d (BitVec.ofInt 24 (accExp (x.ac a))) with
      sr := flagsQE x.sr (x.ac a <<< (accExp (x.ac a)).toNat) } := by
  unfold HytS.nrm
  dsimp only
  rw [if_pos he]

/-- NRM to the right. -/
theorem HytS.nrm_right (x : HytS) (a d : Nat) (he : accExp (x.ac a) < 0) : x.nrm a d =
    { (x.setAc a (BitVec.ofInt 56 ((x.ac a).toInt / 2 ^ (accExp (x.ac a)).natAbs))).setD d
        (BitVec.ofInt 24 (accExp (x.ac a))) with
      sr := flagsQE x.sr (BitVec.ofInt 56 ((x.ac a).toInt / 2 ^ (accExp (x.ac a)).natAbs)) } := by
  unfold HytS.nrm
  dsimp only
  rw [if_neg he.not_ge, show (-accExp (x.ac a)).toNat = (accExp (x.ac a)).natAbs by omega]

end Sys2Proof.Machine

namespace Sys2Proof
open Machine

/-- Settles O35: each instruction is a function of the registers of its engine; a shift follows the sign of its count. -/
theorem hytarLogicAndShifts : Obligations.HytarLogicAndShifts := by
  intro s g e k p a hI eng
  have ash : ∀ {n : BitVec 6} {sf : Bool} {x : HytS}, (!sf || !n.getLsbD 0) = true →
      eng.ash a.toNat (eng.shiftN sf n) = x → x.stepping = eng.stepping →
      Gives (.ash g e p a sf n) s fun t => Only s t g e k x.advance := fun {n sf x} hl hx hs =>
    gives_reg (op := .ash a.toNat sf n) hI k hl rfl hx hs
  have lsh : ∀ {n : BitVec 6} {sf : Bool} {x : HytS}, (!sf || !n.getLsbD 0) = true →
      eng.lsh a.toNat (eng.shiftN sf n) = x → x.stepping = eng.stepping →
      Gives (.lsh g e p a sf n) s fun t => Only s t g e k x.advance := fun {n sf x} hl hx hs =>
    gives_reg (op := .lsh a.toNat sf n) hI k hl rfl hx hs
  have even : ∀ {n : BitVec 6}, n.getLsbD 0 = false → (!true || !n.getLsbD 0) = true := fun h => by rw [h]; rfl
  refine ⟨fun sf r hr => ?_, fun sf r hr => ?_, fun sf r hr => ?_, fun n => ?_, fun n h0 hn => ?_, fun n h0 hn => ?_,
    fun n hn => ?_, fun n hn => ?_, ?_, fun n h0 hn => ?_, fun n h0 hn => ?_, fun n h0 hn => ?_, fun d => ?_,
    fun d he => ?_, fun d he => ?_, fun x b => ?_, fun d i => ?_, fun d i hi => ?_, fun i => ?_⟩
  · exact gives_reg (op := .and a.toNat sf r.toNat) hI k hr rfl (by rw [HytS.srcA2_int _ hr]; rfl) rfl
  · exact gives_reg (op := .or a.toNat sf r.toNat) hI k hr rfl (by rw [HytS.srcA2_int _ hr]; rfl) rfl
  · exact gives_reg (op := .xor a.toNat sf r.toNat) hI k hr rfl (by rw [HytS.srcA2_int _ hr]; rfl) rfl
  · exact ash rfl (eng.ash_eq a.toNat n.toInt) rfl
  · obtain ⟨hneg, -, habs⟩ := clip_sign (eng.dr (n.toNat / 2)).toInt
    refine ash (even h0) ((eng.ash_eq a.toNat _).trans ?_) rfl
    rw [HytS.shiftN, if_pos rfl, if_neg (by omega), habs]
  · obtain ⟨hneg, -, habs⟩ := clip_sign (eng.dr (n.toNat / 2)).toInt
    refine ash (even h0) ((eng.ash_eq a.toNat _).trans ?_) rfl
    rw [HytS.shiftN, if_pos rfl, if_pos (by omega), habs]
  · have habs : n.toInt.natAbs = n.toNat := by
      rw [BitVec.toInt_eq_toNat_cond] at hn ⊢
      have := n.isLt
      split at hn <;> omega
    refine lsh rfl ((eng.lsh_left a.toNat hn).trans ?_) rfl
    rw [habs]
  · exact lsh rfl (eng.lsh_right a.toNat hn) rfl
  · exact lsh rfl (eng.lsh_zero a.toNat) rfl
  · obtain ⟨hneg, -, habs⟩ := clip_sign (eng.dr (n.toNat / 2)).toInt
    refine lsh (even h0) ((eng.lsh_right a.toNat (hneg.mpr hn)).trans ?_) rfl
    rw [habs]
  · obtain ⟨-, hpos, habs⟩ := clip_sign (eng.dr (n.toNat / 2)).toInt
    refine lsh (even h0) ((eng.lsh_left a.toNat (hpos.mpr hn)).trans ?_) rfl
    rw [habs]
  · refine lsh (even h0) (Eq.trans ?_ (eng.lsh_zero a.toNat)) rfl
    rw [HytS.shiftN, if_pos rfl, hn]
    rfl
  · exact gives_reg (op := .exp a.toNat d.toNat) hI k rfl rfl rfl rfl
  · exact gives_reg (op := .nrm a.toNat d.toNat) hI k rfl rfl (eng.nrm_left _ _ he) rfl
  · exact gives_reg (op := .nrm a.toNat d.toNat) hI k rfl rfl (eng.nrm_right _ _ he) rfl
  · exact gives_reg (op := .scl a.toNat x.toNat b.toNat) hI k rfl rfl rfl rfl
  · exact gives_reg (op := .ldi d.toNat i) hI k rfl rfl rfl rfl
  · exact gives_reg (op := .ldil d.toNat i) hI k (beq_iff_eq.mpr (Nat.div_eq_of_lt hi)) rfl rfl rfl
  · exact gives_reg (op := .ldac a.toNat i) hI k rfl rfl rfl rfl

end Sys2Proof

namespace Sys2Proof
open Machine

/-- An engine at the end of a pass of a modulo loop, whose first data word holds 5. -/
def windowTurns : State :=
  { hw := { regs := [(hy 0 rSTAT, 1)], hyts := [(0, { loops := [{ left := 2, modulo := true }] })] },
    mem := [(dmAddr 0 0, 5)] }

/-- Refutes O36: the end of a pass of a modulo loop turns the register window after the load, so that a word loaded into D16
then stands in D17, and D16 holds what D31 held. -/
theorem not_hytarMoves : ¬ Obligations.HytarMoves := by
  intro h
  obtain ⟨-, -, -, -, -, -, -, -, -, hload, -⟩ := h windowTurns 0 0 0 0 (by decide)
  obtain ⟨hloaded, -⟩ := afterRun_of_gives (f := fun m h => h.hop m 0 0 (.ld 16 0 0 0) .dataCorrected) rfl rfl
    (hload 16 0 0 0 (by decide))
  exact absurd hloaded (by decide)

end Sys2Proof

/-! ## Halts, the leg-port queue and the fabric of the Hytar engines (R165 to R169, R186)

A halt stops the axes of its engine, which leaves the registers of the HYT pages and the engines as the halt noted them. -/

namespace Sys2Proof.Machine

/-! ### What the stop of its axes leaves of an engine -/

/-- A register of the HYT pages. -/
def HytReg (b : Nat) : Prop := 0x20000 ≤ b ∧ b < 0x30000

theorem hytReg_hy (e : Fin 16) {off : Nat} (ho : off < 0x1000) : HytReg (hy e off) := by
  unfold HytReg hy ra pHYT
  omega

theorem motionFree_hyts : MotionFree Hw.hyts where
  reg _ _ _ _ := rfl
  evtCyc _ _ := rfl
  prof _ _ _ := rfl
  gear _ _ _ := rfl
  axis _ _ _ := rfl
  fbs _ _ := rfl
  nsw _ _ := rfl

@[simp] theorem Hw.setAxis_engView (h : Hw) (a : Nat) (x : AxS) (b : Nat) : (h.setAxis a x).engView b = h.engView b := rfl
@[simp] theorem Hw.setLeg_engView (h : Hw) (n : Nat) (x : LegS) (b : Nat) : (h.setLeg n x).engView b = h.engView b := rfl
@[simp] theorem Hw.legSafe_engView (h : Hw) (n b : Nat) : (h.legSafe n).engView b = h.engView b := rfl
@[simp] theorem Hw.axHigh_engView (h : Hw) (a b : Nat) : (h.axHigh a).engView b = h.engView b := rfl
@[simp] theorem Hw.wallAt_engView (h : Hw) (a : Nat) (p : Word64) (b : Nat) : (h.wallAt a p).engView b = h.engView b := rfl
@[simp] theorem Hw.setFbs_engView (h : Hw) (x : Tab FbS) (b : Nat) :
    ({ h with fbs := x } : Hw).engView b = h.engView b := rfl
@[simp] theorem Hw.ite_engView {c : Prop} [Decidable c] (h k : Hw) (b : Nat) :
    (if c then h else k).engView b = if c then h.engView b else k.engView b := apply_ite (·.engView b) c h k

theorem Hw.f_of_engView {h k : Hw} {a : Nat} (e : k.engView a = h.engView a) (hi lo : Nat) : k.f a hi lo = h.f a hi lo :=
  congrArg (fld · hi lo) (congrArg (·.1) e : k.reg a = h.reg a)

theorem Hw.hyt_of_engView {h k : Hw} {a : Nat} (e : k.engView a = h.engView a) (n : Nat) : k.hyt n = h.hyt n :=
  congrArg (tabGet ({} : HytS) n) (congrArg (·.2) e : k.hyts = h.hyts)

section
variable {b : Nat} (hb : HytReg b)
include hb

/-- No page of a feedback, an axis or a leg holds the register. -/
theorem HytReg.ne_ra {p : Nat} (hp : pFB 0 ≤ p) (off : Nat) : b ≠ ra p off := by
  obtain ⟨-, hhi⟩ := hb
  unfold pFB at hp
  unfold ra
  omega

theorem HytReg.ne_axr (a off : Nat) : b ≠ axr a off := hb.ne_ra (by unfold pFB pAX; omega) off

theorem HytReg.setAxr (h : Hw) (a off hi lo v : Nat) : (h.setF (axr a off) hi lo v).engView b = h.engView b :=
  h.setReg_engView (hb.ne_axr a off) _

theorem HytReg.evt (h : Hw) {p : Nat} (hp : pFB 0 ≤ p) (i : Nat) : (h.evt p i).engView b = h.engView b :=
  h.evt_engView (hb.ne_ra hp _) (hb.ne_ra hp _) i

theorem HytReg.axEvt (h : Hw) (a i : Nat) : (h.evt (pAX a) i).engView b = h.engView b :=
  hb.evt h (by unfold pFB pAX; omega) i

theorem HytReg.log (h : Hw) (p rk cd i ts : Nat) : (h.log p rk cd i ts).engView b = h.engView b :=
  (h.log_logged p rk cd i ts _).engView (not_inLog_of_ge (by have := hb.1; omega))

theorem HytReg.legOff (h : Hw) (n : Nat) : (h.legOff n).engView b = h.engView b :=
  h.setReg_engView (hb.ne_ra (by unfold pFB pLEG; omega) _) _

theorem HytReg.forceBegin (h : Hw) (n : Nat) : (h.forceBegin n).engView b = h.engView b :=
  hb.evt (h.legSafe n) (by unfold pFB pLEG; omega) 6

theorem HytReg.haltForce (h : Hw) (axes : List Nat) : (h.haltForce axes true).engView b = h.engView b :=
  Hw.each_keeps (Hw.engView · b) (fun h n => hb.forceBegin (h.setLeg n { h.leg n with fHalted := true }) n) _ h

theorem HytReg.axShape (h : Hw) (a : Nat) : (h.axShape a).engView b = h.engView b :=
  Prod.ext (Hw.reg_of_calm (h.axShape_calm (by have := hb.1; omega) a)) (motionFree_hyts.axShape h a)

theorem HytReg.axRamp (h : Hw) (a dec : Nat) (vt : Int) (e : RampEnd) : (h.axRamp a dec vt e).engView b = h.engView b :=
  hb.axShape _ a

theorem HytReg.homeEnd (h : Hw) (a : Nat) : (h.homeEnd a).engView b = h.engView b := by
  have hfb : ∀ (h : Hw) n off v, (h.setReg (ra (pFB n) off) v).engView b = h.engView b := fun h n off v =>
    h.setReg_engView (hb.ne_ra (by unfold pFB; omega) off) v
  unfold Hw.homeEnd
  split
  · rfl
  · dsimp only
    rw [Hw.setAxis_engView]
    split
    · rw [Hw.setBit, Hw.setF, hfb, Hw.setFbs_engView, Hw.setF, hfb, Hw.setF, hfb]
    · rfl

theorem HytReg.homeDrop (h : Hw) (a : Nat) : (h.homeDrop a).engView b = h.engView b := by
  unfold Hw.homeDrop
  dsimp only
  rw [Hw.setAxis_engView, hb.homeEnd]
  split
  · split
    · rw [Hw.ite_engView, h.setReg_engView (hb.ne_axr _ _), ite_self]
    · rfl
  · rfl

theorem HytReg.axOff (h : Hw) (a : Nat) : (h.axOff a).engView b = h.engView b := by
  have hlegs : (h.axisLegsOff a).engView b = h.engView b := Hw.each_keeps (Hw.engView · b) hb.legOff _ h
  simp only [Hw.axOff, Hw.setAxState, hb.axShape, Hw.setBit, hb.setAxr, Hw.setAxis_engView, Hw.wallAt_engView, hb.homeDrop,
    hlegs]

theorem HytReg.axStop (h : Hw) (a dec : Nat) (e : RampEnd) : (h.axStop a dec e).engView b = h.engView b := by
  unfold Hw.axStop
  split
  · dsimp only
    split <;> simp only [Hw.ite_engView, hb.axRamp, Hw.setAxis_engView, ite_self]
  · rw [hb.axRamp, Hw.setAxState, hb.setAxr, hb.homeDrop]

/-- A fault of an axis leaves the engines. -/
theorem HytReg.axFault (h : Hw) (a code react rank : Nat) : (h.axFault a code react rank).engView b = h.engView b := by
  unfold Hw.axFault
  split
  · rw [hb.axEvt, hb.log]
  · simp only [Hw.ite_engView, hb.axOff, hb.axStop, Hw.axHigh_engView, hb.axEvt, hb.setAxr, hb.log, ite_self]

end

/-! ### A halt (R169) -/

/-- The engine stops: STAT and the event of a halt. -/
def Hw.hytStopped (h : Hw) (e : Nat) : Hw :=
  (((h.setHyt e ((h.hyt e).clock h.grain false)).setBit (hy e rSTAT) 0 false).setBit (hy e rSTAT) 1 true).evt (pHYT e) 1

/-- The cause of a halt and the PC of its engine, recorded. -/
def Hw.hytRecord (h : Hw) (e cause pc : Nat) : Hw :=
  ((h.setF (hy e 0x048) 3 0 cause).setF (hy e 0x048) 29 16 pc).setF (hy e 0x044) 13 0 pc

/-- A halt before it reaches the axes. -/
def Hw.hytNoted (h : Hw) (e cause : Nat) : Hw := (h.hytStopped e).hytRecord e cause (h.hyt e).pc.toNat

theorem Hw.hytHalt_engView (h : Hw) (e cause : Nat) {b : Nat} (hb : HytReg b) :
    (h.hytHalt e cause).engView b = (h.hytNoted e cause).engView b :=
  (Hw.each_keeps (Hw.engView · b) (fun k a => hb.axFault k a 4 3 10) _ _).trans (hb.haltForce _ _)

theorem hy_ne (e : Nat) {x y : Nat} (h1 : x < 0x1000) (h2 : y < 0x1000) (h : x ≠ y) : hy e x ≠ hy e y := ra_ne_off h1 h2 h

theorem Hw.hytStopped_shows (h : Hw) (e : Nat) : (h.hytStopped e).bit (hy e rSTAT) 0 = false ∧
    (h.hytStopped e).bit (hy e rSTAT) 1 = true ∧ (h.hytStopped e).bit (hy e rEVT) 1 = true := by
  have hevt : (h.hytStopped e).bit (hy e rEVT) 1 = true := Hw.bit_evt _ (pHYT e) (by decide)
  have hev : ∀ (k : Hw) i, (k.evt (pHYT e) 1).bit (hy e rSTAT) i = k.bit (hy e rSTAT) i := fun k i =>
    congrArg (bitOf · i) (k.reg_evt_ne (hy_ne e (by decide) (by decide) (by decide))
      (hy_ne e (by decide) (by decide) (by decide)) 1)
  refine ⟨?_, ?_, hevt⟩
  · rw [Hw.hytStopped, hev, Hw.bit_setBit_other _ _ (by decide) (by decide), Hw.bit_setBit_same _ _ (by decide)]
  · rw [Hw.hytStopped, hev, Hw.bit_setBit_same _ _ (by decide)]

theorem Hw.hyt_hytStopped (h : Hw) (e : Nat) : (h.hytStopped e).hyt e = (h.hyt e).clock h.grain false := by
  refine (congrArg (tabGet ({} : HytS) e) ?_).trans (h.hyt_setHyt_same e _)
  simp only [Hw.hytStopped, Hw.setBit, Hw.setF, Hw.setReg_hyts, Hw.evt_hyts]

/-- The record of a halt moves no register but its own two. -/
theorem Hw.reg_hytRecord_ne (h : Hw) {e x : Nat} (cause pc : Nat) (hx : x < 0x1000) (h1 : x ≠ 0x048) (h2 : x ≠ 0x044) :
    (h.hytRecord e cause pc).reg (hy e x) = h.reg (hy e x) := by
  rw [Hw.hytRecord, Hw.reg_setF_ne _ (hy_ne e hx (by decide) h2), Hw.reg_setF_ne _ (hy_ne e hx (by decide) h1),
    Hw.reg_setF_ne _ (hy_ne e hx (by decide) h1)]

theorem Hw.hyt_hytRecord (h : Hw) (e cause pc n : Nat) : (h.hytRecord e cause pc).hyt n = h.hyt n := rfl

theorem Hw.hytRecord_shows (h : Hw) (e : Nat) {cause pc : Nat} (hc : cause < 16) (hpc : pc < 2 ^ 14) :
    (h.hytRecord e cause pc).f (hy e 0x048) 3 0 = cause ∧ (h.hytRecord e cause pc).f (hy e 0x048) 29 16 = pc := by
  have hne : hy e 0x048 ≠ hy e 0x044 := hy_ne e (by decide) (by decide) (by decide)
  rw [Hw.hytRecord, Hw.f_setF_ne _ hne, Hw.f_setF_ne _ hne, Hw.f_setF_disj _ _ (by decide) (by decide) _ (by decide),
    Hw.f_setF_same _ _ (by decide) (by decide), Hw.f_setF_same _ _ (by decide) (by decide)]
  exact ⟨Nat.mod_eq_of_lt hc, Nat.mod_eq_of_lt hpc⟩

/-- Engine e, which stood as h has it, stands halted in k for a cause. -/
structure Hw.Halts (h k : Hw) (e cause : Nat) : Prop where
  stopped : k.hytRuns e = false
  halted : k.bit (hy e rSTAT) 1 = true
  cause : k.f (hy e 0x048) 3 0 = cause
  pc : k.f (hy e 0x048) 29 16 = (h.hyt e).pc.toNat
  event : k.bit (hy e rEVT) 1 = true
  engine : k.hyt e = (h.hyt e).clock h.grain false

theorem HytS.pc_clock (x : HytS) (g : Nat) (on : Bool) : (x.clock g on).pc = x.pc := rfl

theorem Hw.hytNoted_halts (h : Hw) (e : Nat) {cause : Nat} (hc : cause < 16) : h.Halts (h.hytNoted e cause) e cause := by
  obtain ⟨hstopped, hhalted, hevt⟩ := h.hytStopped_shows e
  obtain ⟨hcause, hpc⟩ := (h.hytStopped e).hytRecord_shows e hc (h.hyt e).pc.isLt
  have hreg : ∀ x, x < 0x1000 → x ≠ 0x048 → x ≠ 0x044 → ∀ i,
      (h.hytNoted e cause).bit (hy e x) i = (h.hytStopped e).bit (hy e x) i := fun x hx h1 h2 i =>
    congrArg (bitOf · i) ((h.hytStopped e).reg_hytRecord_ne cause _ hx h1 h2)
  have hstat := hreg rSTAT (by decide) (by decide) (by decide)
  have heng : (h.hytNoted e cause).hyt e = (h.hytStopped e).hyt e := (h.hytStopped e).hyt_hytRecord e cause _ e
  exact ⟨(hstat 0).trans hstopped, (hstat 1).trans hhalted, hcause, hpc,
    (hreg rEVT (by decide) (by decide) (by decide) 1).trans hevt, heng.trans (h.hyt_hytStopped e)⟩

theorem Hw.hytHalt_halts (h : Hw) (e : Fin 16) {cause : Nat} (hc : cause < 16) : h.Halts (h.hytHalt e cause) e cause := by
  have hview : ∀ {off : Nat}, off < 0x1000 →
      (h.hytHalt e cause).engView (hy e off) = (h.hytNoted e cause).engView (hy e off) := fun ho =>
    h.hytHalt_engView e cause (hytReg_hy e ho)
  have hstat := hview (off := rSTAT) (by decide)
  have hcause := hview (off := 0x048) (by decide)
  have hnoted := h.hytNoted_halts e hc
  exact ⟨(Hw.bit_of_engView hstat 0).trans hnoted.stopped, (Hw.bit_of_engView hstat 1).trans hnoted.halted,
    (Hw.f_of_engView hcause 3 0).trans hnoted.cause, (Hw.f_of_engView hcause 29 16).trans hnoted.pc,
    (Hw.bit_of_engView (hview (by decide)) 1).trans hnoted.event, (Hw.hyt_of_engView hstat e).trans hnoted.engine⟩

theorem Hw.illegalWord_halts {h : Hw} {e : Fin 16} (hr : h.Ready e) {w : Word} (hw : h.wordLegal e w = false) :
    h.illegalWord e w = h.hytHalt e 5 := by
  simp [Hw.illegalWord, hr.runs, hr.awake, hw]

/-! ### The leg-port queue (R166) -/

section
variable {h : Hw} {e : Nat} {owned : Bool} {en : PortEnt}

theorem Hw.portPut_refused (ho : owned = false) : h.portPut e owned en = (h.evt (pHYT e) 2, .next) := by
  simp [Hw.portPut, ho]

theorem Hw.portPut_full (ho : owned = true) (hn : 8 ≤ (h.hyt e).port.length) : h.portPut e owned en = (h, .stall) := by
  simp [Hw.portPut, ho, hn]

theorem Hw.portPut_queued (ho : owned = true) (hn : (h.hyt e).port.length < 8) : h.portPut e owned en =
    (h.setHyt e { h.hyt e with port := (h.hyt e).port ++ [{ en with left := h.grain }] }, .next) := by
  simp [Hw.portPut, ho, Nat.not_le.mpr hn]

end

/-! ### The fabric (R168, R186) -/

@[simp] theorem Hw.busErr_hyts (h : Hw) (addr src : Nat) : (h.busErr addr src).hyts = h.hyts := by
  unfold Hw.busErr
  split <;> simp

theorem Hw.hyt_busErr (h : Hw) (addr src n : Nat) : (h.busErr addr src).hyt n = h.hyt n :=
  congrArg (tabGet ({} : HytS) n) (h.busErr_hyts addr src)

theorem Hw.busRead_sram (h : Hw) (m : Mem) (r : Nat) {addr : Nat} (ha : addr + 4 ≤ 0x200000) :
    h.busRead m r addr = (h, some (h.rd32 m addr)) := by
  have hpage : ¬ (0x40000000 ≤ addr ∧ addr < 0x40200000) := by omega
  have heng : ¬ (0x10000000 ≤ addr ∧ addr < 0x10200000) := by omega
  have hread : readable addr 4 = true := by simp [readable, ha]
  rw [Hw.busRead, if_neg hpage, if_pos hread, if_neg heng]

theorem Hw.busRead_outside (h : Hw) (m : Mem) (r : Nat) {addr : Nat} (ha : 0x80000000 ≤ addr) :
    h.busRead m r addr = (h.busErr addr r, none) := by
  have hpage : ¬ (0x40000000 ≤ addr ∧ addr < 0x40200000) := by omega
  have hread : readable addr 4 = false := by
    have hout : ∀ e, e ≤ 0x80000000 → ¬ addr + 4 ≤ e := by omega
    simp [readable, hout]
  rw [Hw.busRead, if_neg hpage, hread]
  rfl

/-- The engine owes the error of a store it posted. -/
def HytS.owing (x : HytS) (addr : Nat) : HytS := { x with berr := some (BitVec.ofNat 32 addr) }

section
variable {h : Hw} (m : Mem) {e a : Nat} (d : Nat)

theorem Hw.fldOp_waits (hb : (h.hyt e).berr.isSome = true) : h.fldOp m e d a = (h, .stall) := by
  simp [Hw.fldOp, hb]

theorem Hw.fldOp_sram (hb : (h.hyt e).berr = none) (ha : ((h.hyt e).ac a).toNat % 2 ^ 32 + 4 ≤ 0x200000) :
    h.fldOp m e d a =
      (h.upHyt e fun x => x.setAc d ((h.rd32 m (((h.hyt e).ac a).toNat % 2 ^ 32)).setWidth 56), .next) := by
  simp only [Hw.fldOp, hb, Option.isSome_none, Bool.false_eq_true, if_false, h.busRead_sram m e ha]

theorem Hw.fldOp_outside (hb : (h.hyt e).berr = none) (ha : 0x80000000 ≤ ((h.hyt e).ac a).toNat % 2 ^ 32) :
    h.fldOp m e d a = (h.busErr (((h.hyt e).ac a).toNat % 2 ^ 32) e, .stop 8 false) := by
  simp only [Hw.fldOp, hb, Option.isSome_none, Bool.false_eq_true, if_false, h.busRead_outside m e ha]

theorem Hw.fstOp_sram (ha : ((h.hyt e).ac a).toNat % 2 ^ 32 + 4 ≤ 0x200000) :
    h.fstOp m e d a = (h.wr32 (((h.hyt e).ac a).toNat % 2 ^ 32) (((h.hyt e).ac d).setWidth 32), .next) := by
  simp only [Hw.fstOp, h.busWrite_sram m e _ (.inr (.inr rfl)) ha]
  rfl

theorem Hw.fstOp_outside (hb : (h.hyt e).berr = none) (ha : 0x80000000 ≤ ((h.hyt e).ac a).toNat % 2 ^ 32) :
    h.fstOp m e d a = ((h.busErr (((h.hyt e).ac a).toNat % 2 ^ 32) e).setHyt e
      ((h.hyt e).owing ((h.hyt e).ac a).toNat), .next) := by
  have hw : BitVec.ofNat 32 (((h.hyt e).ac a).toNat % 2 ^ 32) = BitVec.ofNat 32 ((h.hyt e).ac a).toNat :=
    BitVec.eq_of_toNat_eq (by simp)
  simp only [Hw.fstOp, h.busWrite_outside m e _ (.inr (.inr rfl)) ha, hb, Option.getD_none, Bool.false_eq_true, if_false, hw,
    Hw.upHyt, Hw.hyt_busErr, HytS.owing]

end

end Sys2Proof.Machine

namespace Sys2Proof
open Machine

/-! ### Instructions that do not turn the registers of their engine -/

section
variable {s : State} {g : Nat} {e : Fin 16} {p : BitVec 5} {f : Mem → Hw → Hw} {legal : Bool} {rd : List Nat}
  {F : Hw → Hw × Flow} (hlive : Live s) (hf : f s.mem (s.hw.at g) = (s.hw.at g).issue e p.toNat legal rd F)
include hlive hf

/-- A legal instruction whose predicate is false. -/
theorem gives_off (hs : Settled s) (hr : (s.hw.at g).Ready e) (hp : predLegal p.toNat = true)
    (ht : (s.hw.hyt e).pred p.toNat = false) (k : Fin 16) (hl : legal = true) :
    ∃ t, run g f s = .next t ∧ Only s t g e k (s.hw.hyt e).advance :=
  gives_run_eq hlive (hf.trans (Hw.issue_off hr hp hl ht))
    (only_of_turns (f := fun _ h => h.upHyt e HytS.advance) k hs ((Hw.Turns.refl _ e).upHyt HytS.advance))

/-- An instruction that no predicate names stops its engine. -/
theorem gives_illegal (hr : (s.hw.at g).Ready e) (hp : predLegal p.toNat = false) :
    ∃ t, run g f s = .next t ∧ (s.hw.at g).Halts t.hw e 5 := by
  have hl : (predLegal p.toNat && legal) = false := by rw [hp, Bool.false_and]
  obtain ⟨hstop, hhalt, hcause, hpc, hevt, heng⟩ := (s.hw.at g).hytHalt_halts e (cause := 5) (by decide)
  exact gives_run_eq hlive (hf.trans (Hw.issue_illegal hr hl)) ⟨hstop, hhalt, hcause, hpc, hevt, heng⟩

omit hlive
variable (hI : Issues s e p) (hl : legal = true)
include hI hl

/-- An instruction that waits. -/
theorem gives_stall {h : Hw} (k : Fin 16) (he : F (s.hw.at g) = (h, .stall)) :
    ∃ t, run g f s = .next t ∧ Only s t g e k (s.hw.hyt e) := by
  have hr := Hw.ready_of_issues hI g
  obtain ⟨hlive, hs, -, -, -, hp, ht, -⟩ := hI
  exact gives_run_eq hlive (hf.trans (Hw.issue_stall hr hp hl ht he))
    (only_of_turns (f := fun _ h => h) k hs (Hw.Turns.refl _ e))

end

/-- An entry for the leg-port queue whose unit the engine does not own is dropped, and flagged. -/
theorem gives_refused {s : State} {g : Nat} {e : Fin 16} {p : BitVec 5} {op : HOp} (hI : Issues s e p)
    (hl : op.legal (s.hw.hyt e) = true)
    (he : op.effect s.mem e (s.hw.at g) = ((s.hw.at g).evt (pHYT e) 2, .next)) :
    ∃ t, run g (fun m h => h.hop m e p.toNat op) s = .next t ∧ t.hw.hyt e = (s.hw.hyt e).advance ∧
      t.hw.bit (hy e rEVT) 2 = true ∧ t.mem = s.mem := by
  obtain ⟨-, ⟨hbuf, hrst⟩, -, -, hstep, -⟩ := id hI
  have hthis : ((s.hw.at g).evt (pHYT e) 2).hyt e = s.hw.hyt e :=
    congrArg (tabGet ({} : HytS) e) (Hw.evt_hyts _ _ _)
  have hbit : ((s.hw.at g).evt (pHYT e) 2).bit (hy e rEVT) 2 = true := Hw.bit_evt _ _ (by decide)
  have hmem : s.mem.after ((s.hw.at g).evt (pHYT e) 2) = s.mem :=
    after_of_no_write ((Hw.evt_rst _ _ _).trans hrst) ((Hw.evt_wbuf _ _ _).trans hbuf)
  generalize (s.hw.at g).evt (pHYT e) 2 = h at he hthis hbit hmem
  refine gives_issue (f := fun m h => h.hop m e p.toNat op) hI hl rfl he (by rw [hthis, hstep]) ⟨?_, hbit, hmem⟩
  exact (Hw.hyt_setHyt_same _ _ _).trans (congrArg HytS.advance hthis)

/-! ### The fabric -/

section
variable {s : State} {g : Nat} {e : Fin 16} {p : BitVec 5} {d a addr : Nat} (hI : Issues s e p)
  (haddr : ((s.hw.hyt e).ac a).toNat % 2 ^ 32 = addr)
include hI haddr

/-- FST into application SRAM writes the word and leaves every other byte. -/
theorem gives_fst_sram (b : Nat) (ha : addr + 4 ≤ 0x200000) :
    ∃ t, run g (fun m h => h.hopAny m e p.toNat (.fst d a)) s = .next t ∧ t.hw.hyt e = (s.hw.hyt e).advance ∧
      t.hw.rd32 t.mem addr = ((s.hw.hyt e).ac d).setWidth 32 ∧ t.hw.regs = s.hw.regs ∧
      ((addr ≤ b ∧ b < addr + 4) ∨ memGet t.mem b = memGet s.mem b) := by
  subst haddr
  have he := Hw.fstOp_sram s.mem (h := s.hw.at g) (e := e) d ha
  obtain ⟨-, ⟨hbuf, hrst⟩, -, -, hstep, -⟩ := id hI
  change (s.hw.at g).fstOp s.mem e d a =
    ((s.hw.at g).wr32 (((s.hw.hyt e).ac a).toNat % 2 ^ 32) (((s.hw.hyt e).ac d).setWidth 32), .next) at he
  generalize ((s.hw.hyt e).ac a).toNat % 2 ^ 32 = addr at he ⊢
  generalize ((s.hw.hyt e).ac d).setWidth 32 = v at he ⊢
  have hstill := (s.hw.at g).wrN_still addr (wordBytes v)
  have hword := Hw.rd32_wr32_same (s.hw.at g) s.mem addr v
  have hbyte : b < addr ∨ addr + 4 ≤ b → ((s.hw.at g).wr32 addr v).rd8 s.mem b = memGet s.mem b := fun hb => by
    rw [Hw.rd8_wr32_ne _ _ hb, Hw.rd8, Hw.at_wbuf, hbuf, List.find?_nil]
  rw [← Hw.wr32] at hstill
  generalize (s.hw.at g).wr32 addr v = h at he hstill hword hbyte
  have hthis : h.hyt e = s.hw.hyt e := Hw.hyt_of_still hstill e
  have hr : (h.upHyt e HytS.advance).rst = 0 := (Hw.rst_of_still hstill).trans hrst
  refine gives_issue (f := fun m h => h.hopAny m e p.toNat (.fst d a)) hI rfl rfl he (by rw [hthis, hstep])
    ⟨?_, (Hw.rd32_seal hr _ _ _).trans hword, (Hw.regs_of_still hstill : h.regs = _), ?_⟩
  · exact (Hw.hyt_setHyt_same _ _ _).trans (congrArg HytS.advance hthis)
  · rcases Nat.lt_or_ge b addr with hb | hb
    · exact .inr ((memGet_after hr b).trans (hbyte (.inl hb)))
    · rcases Nat.lt_or_ge b (addr + 4) with hb' | hb'
      · exact .inl ⟨hb, hb'⟩
      · exact .inr ((memGet_after hr b).trans (hbyte (.inr hb')))

variable (hb : (s.hw.hyt e).berr = none)
include hb

/-- FLD from application SRAM. -/
theorem gives_fld_sram (k : Fin 16) (ha : addr + 4 ≤ 0x200000) :
    ∃ t, run g (fun m h => h.hopAny m e p.toNat (.fld d a)) s = .next t ∧
      Only s t g e k ((s.hw.hyt e).setAc d ((s.hw.rd32 s.mem addr).setWidth 56)).advance := by
  subst haddr
  exact gives_turn (f := fun m h => h.hopAny m e p.toNat (.fld d a)) hI rfl rfl
    (Hw.fldOp_sram s.mem (h := s.hw.at g) d hb ha) k ((Hw.Turns.refl _ e).upHyt _) rfl

/-- FLD outside every region stops the engine. -/
theorem gives_fld_outside (ha : 0x80000000 ≤ addr) :
    ∃ t, run g (fun m h => h.hopAny m e p.toNat (.fld d a)) s = .next t ∧
      ((s.hw.at g).busErr addr e).Halts t.hw e 8 ∧ t.hw.bit (sy rEVT) 2 = true := by
  subst haddr
  have he := Hw.fldOp_outside s.mem (h := s.hw.at g) (e := e) d hb ha
  have hr := Hw.ready_of_issues hI g
  obtain ⟨hlive, -, -, -, -, hp, ht, -⟩ := hI
  have hsys := ((s.hw.at g).busErr (((s.hw.hyt e).ac a).toNat % 2 ^ 32) e).hytHalt_away (b := sy rEVT) (by decide)
    (not_inLog_page (by decide) (by decide)) e 8
  obtain ⟨hstop, hhalt, hcause, hpc, hevt, heng⟩ :=
    ((s.hw.at g).busErr (((s.hw.hyt e).ac a).toNat % 2 ^ 32) e).hytHalt_halts e (cause := 8) (by decide)
  exact gives_run_eq (f := fun m h => h.hopAny m e p.toNat (.fld d a)) hlive (Hw.issue_stop hr hp rfl ht he)
    ⟨⟨hstop, hhalt, hcause, hpc, hevt, heng⟩,
      (congrArg (bitOf · 2) (Hw.reg_of_away hsys)).trans (Hw.bit_busErr _ _ _)⟩

/-- FST outside every region goes on with the error outstanding. -/
theorem gives_fst_outside (b : Nat) (ha : 0x80000000 ≤ addr) :
    ∃ t, run g (fun m h => h.hopAny m e p.toNat (.fst d a)) s = .next t ∧
      t.hw.hyt e = ((s.hw.hyt e).owing ((s.hw.hyt e).ac a).toNat).advance ∧ t.hw.bit (sy rEVT) 2 = true ∧
      memGet t.mem b = memGet s.mem b := by
  have he := Hw.fstOp_outside s.mem (h := s.hw.at g) (e := e) d hb (haddr.symm ▸ ha)
  obtain ⟨-, ⟨hbuf, hrst⟩, -, -, hstep, -⟩ := id hI
  change (s.hw.at g).fstOp s.mem e d a = (((s.hw.at g).busErr (((s.hw.hyt e).ac a).toNat % 2 ^ 32) e).setHyt e
    ((s.hw.hyt e).owing ((s.hw.hyt e).ac a).toNat), .next) at he
  rw [haddr] at he
  have hbit := (s.hw.at g).bit_busErr addr e
  have hmem : s.mem.after ((s.hw.at g).busErr addr e) = s.mem :=
    after_of_no_write ((Hw.busErr_rst _ _ _).trans hrst) ((Hw.busErr_wbuf _ _ _).trans hbuf)
  generalize (s.hw.at g).busErr addr e = h at he hbit hmem
  have hthis := h.hyt_setHyt_same e ((s.hw.hyt e).owing ((s.hw.hyt e).ac a).toNat)
  refine gives_issue (f := fun m h => h.hopAny m e p.toNat (.fst d a)) hI rfl rfl he
    ((congrArg HytS.stepping hthis).trans hstep) ⟨?_, hbit, congrArg (memGet · b) hmem⟩
  exact (Hw.hyt_setHyt_same _ _ _).trans (congrArg HytS.advance hthis)

end

/-- Settles O38, by what issue does with each kind of instruction: off, illegal, waiting, stopped, or carried out. -/
theorem hytarPredicatesPortsFabric : Obligations.HytarPredicatesPortsFabric := by
  intro s g e k p hlive hs hruns hawake hstep hclean eng
  have hr : (s.hw.at g).Ready e := ⟨hruns, hawake, hstep, hclean⟩
  refine ⟨fun a i j m c ui uj sg z hp ht => ?_, fun d i am dp hp ht hmem => ?_, fun c tgt hp ht => ?_,
    fun a x fall n hp ht hx => ?_, fun d a hp ht => ?_, fun hp => ?_, fun w hw => ?_, fun a fall n hI ho hn => ?_,
    fun a fall n hI ho => ?_, fun a fall n hI ho hn => ?_, fun n hI ho hn => ?_, fun d a hI hb ha => ?_,
    fun d a b hI ha => ?_, fun d a hI hb => ?_, fun d a hI hb ha => ?_, fun d a b hI hb ha => ?_⟩
  · exact gives_off (f := fun mem h => h.hop mem e p.toNat (.tap a.toNat i.toNat j.toNat m.toNat c ui uj sg z)) hlive rfl hs
      hr hp ht k rfl
  · exact gives_off (f := fun m h => h.hop m e p.toNat (.st d.toNat i.toNat am.toNat dp)) hlive rfl hs hr hp ht k hmem
  · exact gives_off (f := fun m h => h.hop m e p.toNat (.br c.toNat tgt.toNat)) hlive rfl hs hr hp ht k rfl
  · refine gives_off (f := fun m h => h.hop m e p.toNat (.pwr a.toNat x fall n.toNat)) hlive rfl hs hr hp ht k ?_
    rcases hx with rfl | hn
    · rfl
    · exact (congrArg (!x || ·) (beq_iff_eq.mpr hn)).trans (Bool.or_true _)
  · exact gives_off (f := fun m h => h.hopAny m e p.toNat (.fst d.toNat a.toNat)) hlive rfl hs hr hp ht k rfl
  · obtain ⟨t, hrun, hhalt⟩ := gives_illegal (f := fun m h => h.hop m e p.toNat .nop) hlive rfl hr hp
    exact ⟨t, hrun, hhalt.stopped, hhalt.cause, hhalt.pc, hhalt.engine⟩
  · obtain ⟨hstop, hhalt, hcause, hpc, hevt, heng⟩ := (s.hw.at g).hytHalt_halts e (cause := 5) (by decide)
    exact gives_run_eq (f := fun _ h => h.illegalWord e w) hlive (Hw.illegalWord_halts hr hw)
      ⟨hstop, hhalt, hcause, hpc, hevt, heng⟩
  · exact gives_turn (f := fun m h => h.hop m e p.toNat (.pwr a.toNat false fall n.toNat)) hI rfl rfl
      (Hw.portPut_queued ho hn) k ((Hw.Turns.refl _ e).setHyt _) rfl
  · exact gives_refused (op := .pwr a.toNat false fall n.toNat) hI rfl (Hw.portPut_refused ho)
  · exact gives_stall (f := fun m h => h.hop m e p.toNat (.pwr a.toNat false fall n.toNat)) rfl hI rfl k
      (Hw.portPut_full ho hn)
  · exact gives_turn (f := fun m h => h.hop m e p.toNat (.pcom false n.toNat)) hI rfl rfl
      (Hw.portPut_queued ho hn) k ((Hw.Turns.refl _ e).setHyt _) rfl
  · exact gives_fld_sram hI rfl hb k ha
  · exact gives_fst_sram hI rfl b ha
  · exact gives_stall (f := fun m h => h.hopAny m e p.toNat (.fld d.toNat a.toNat)) rfl hI rfl k (Hw.fldOp_waits _ _ hb)
  · obtain ⟨t, hrun, hhalt, hbus⟩ := gives_fld_outside (d := d.toNat) hI rfl hb ha
    refine ⟨t, hrun, hhalt.stopped, hhalt.cause, ?_, hbus⟩
    exact (congrArg HytS.pc hhalt.engine).trans ((HytS.pc_clock _ _ _).trans (congrArg HytS.pc (Hw.hyt_busErr _ _ _ _)))
  · obtain ⟨t, hrun, heng, hbus, hmem⟩ := gives_fst_outside (d := d.toNat) hI rfl hb b ha
    exact ⟨t, hrun, heng, hbus, fun _ => hmem⟩

end Sys2Proof

/-! ## Steps of the standard loop kernel (R192 to R216)

A fault of the kernel reaches legs and an axis unit by register writes. They leave the kernel's own state and the data
memory of its engine, so a step of the kernel is known by the words it writes itself. -/

namespace Sys2Proof.Machine

/-! ### What a fault of an axis leaves -/

namespace MotionFree

variable {γ : Type} {F : Hw → γ} (hF : MotionFree F) (hleg : ∀ (h : Hw) n x, F (h.setLeg n x) = F h)
include hF hleg

theorem legOff (h : Hw) (n : Nat) : F (h.legOff n) = F h := (hleg _ n _).trans (hF.setBit h (motion_lg n _) _ _)

theorem axOff (h : Hw) (a : Nat) : F (h.axOff a) = F h := by
  have hlegs : F (h.axisLegsOff a) = F h := Hw.each_keeps F (hF.legOff hleg) _ h
  simp only [Hw.axOff, hF.axShape, hF.setAxState, hF.setBit, motion_axr, hF.axis, hF.wallAt, hF.homeDrop, hlegs]

/-- What the motion units, the legs and the log leave, a fault of an axis leaves. -/
theorem axFault (h : Hw) (a code react rank : Nat) (hlog : ∀ cd, F (h.log (pAX a) rank cd a h.grain) = F h) :
    F (h.axFault a code react rank) = F h := by
  unfold Hw.axFault
  split
  · exact (hF.evt _ (motion_pAX a) 3).trans (hlog 3)
  · simp only [apply_ite F, hF.axOff hleg, hF.axStop, hF.axHigh, hF.evt, motion_pAX, hF.setF, motion_axr, hlog, ite_self]

end MotionFree

/-! ### What the legs and axes leave of a kernel -/

/-- The own words of the kernels, a reset of the die still to be done, and data word w of engine e. -/
def Hw.loopView (m : Mem) (e w : Nat) (h : Hw) : (Tab KernS × Nat) × Word := ((h.kerns, h.rst), h.dmRd m e w)

theorem motionFree_loopView (m : Mem) (e w : Nat) : MotionFree (Hw.loopView m e w) where
  reg _ _ _ _ := rfl
  evtCyc _ _ := rfl
  prof _ _ _ := rfl
  gear _ _ _ := rfl
  axis _ _ _ := rfl
  fbs _ _ := rfl
  nsw _ _ := rfl

theorem Hw.dmRd_of_wbuf {h k : Hw} (hw : k.wbuf = h.wbuf) (m : Mem) (e w : Nat) : k.dmRd m e w = h.dmRd m e w :=
  Hw.rd32_of_wbuf hw m _

theorem Hw.loopView_of_fields {h k : Hw} (hk : k.kerns = h.kerns) (hr : k.rst = h.rst) (hw : k.wbuf = h.wbuf) (m : Mem)
    (e w : Nat) : k.loopView m e w = h.loopView m e w := by
  simp only [Hw.loopView, hk, hr, Hw.dmRd_of_wbuf hw]

/-- The log's area of MRAM holds no data word of an engine. -/
theorem not_logArea_dmAddr {e : Nat} (_ : e < 16) (w : Nat) {i : Nat} (_ : i < 4) : ¬ logArea (dmAddr e w + i) := by
  unfold logArea dmAddr
  omega

theorem Hw.rd8_logFull (h : Hw) (x : LogRec) (m : Mem) {b : Nat} (hb : ¬ logArea b) : (h.logFull x).rd8 m b = h.rd8 m b := by
  have hflag : ∀ (h : Hw) (z : Nat × Nat × Nat) v, (h.wr8 (logAddr z.2.1 + 0x13) v).rd8 m b = h.rd8 m b := fun h z v => by
    rw [h.rd8_wr8 m, if_neg]
    rintro rfl
    exact hb (logArea_logAddr _)
  have hfull : ∀ h : Hw, ((h.bump (ra pFLT 0x048) 15 0).evt pFLT 2).rd8 m b = h.rd8 m b := fun h => by
    simp only [Hw.rd8, Hw.evt_wbuf, Hw.bump_wbuf]
  unfold Hw.logFull
  extract_lets others q y k
  have hall : k.rd8 m b = h.rd8 m b := Hw.each_keeps (Hw.rd8 · m b) (fun h z => hflag h z _) _ h
  split
  · exact hall
  · exact (hfull _).trans hall

theorem Hw.loopView_log (h : Hw) {e : Nat} (he : e < 16) (m : Mem) (w p rk cd i ts : Nat) :
    (h.log p rk cd i ts).loopView m e w = h.loopView m e w := by
  have hlog := h.log_logged p rk cd i ts 0
  have hrd : ∀ j < 4, (h.log p rk cd i ts).rd8 m (dmAddr e w + j) = h.rd8 m (dmAddr e w + j) := fun j hj =>
    h.rd8_logFull _ m (not_logArea_dmAddr he w hj)
  have hrd0 := hrd 0 (by decide)
  rw [Nat.add_zero] at hrd0
  simp only [Hw.loopView, hlog.kerns, hlog.rst, Hw.dmRd, Hw.rd32, hrd 1 (by decide), hrd 2 (by decide), hrd 3 (by decide), hrd0]

theorem Hw.loopView_swWrite (h : Hw) {e : Nat} (he : e < 16) (m : Mem) (w p off : Nat) {f : Hw → Hw}
    (hf : ∀ h : Hw, (f h).loopView m e w = h.loopView m e w) : (h.swWrite p off f).loopView m e w = h.loopView m e w := by
  have hlocked : ∀ h : Hw, h.lockedWrite.loopView m e w = h.loopView m e w := fun h =>
    Hw.loopView_of_fields (Hw.evt_kerns _ _ _) (Hw.evt_rst _ _ _) (Hw.evt_wbuf _ _ _) m e w
  unfold Hw.swWrite
  dsimp only
  split
  · exact (hlocked _).trans (h.loopView_log he m w ..)
  · exact (hf _).trans (h.loopView_log he m w ..)

/-! ### The register writes of a fault of the kernel (R209) -/

theorem pageBlock_pLEG {n : Nat} (_ : n < 96) : pageBlock (pLEG n) = (.leg, n) := by
  have hall : ∀ k : Fin 96, pageBlock (pLEG k) = (.leg, k.val) := by decide +kernel
  exact hall ⟨n, ‹_›⟩

theorem pageBlock_pAX {a : Nat} (_ : a < 32) : pageBlock (pAX a) = (.ax, a) := by
  have hall : ∀ k : Fin 32, pageBlock (pAX k) = (.ax, k.val) := by decide +kernel
  exact hall ⟨a, ‹_›⟩

section
variable {e : Nat} (he : e < 16) (m : Mem) (w : Nat)

theorem Hw.loopView_evt (h : Hw) (p i : Nat) : (h.evt p i).loopView m e w = h.loopView m e w :=
  Hw.loopView_of_fields (h.evt_kerns p i) (h.evt_rst p i) (h.evt_wbuf p i) m e w

theorem Hw.loopView_legOff (h : Hw) (n : Nat) : (h.legOff n).loopView m e w = h.loopView m e w :=
  (motionFree_loopView m e w).legOff (fun _ _ _ => rfl) h n

theorem Hw.loopView_legEnable (h : Hw) (n : Nat) : (h.legEnable n).loopView m e w = h.loopView m e w := by
  unfold Hw.legEnable
  split
  · refine ((motionFree_loopView m e w).setBit _ (motion_lg n _) 0 true).trans ?_
    split
    · split <;> rfl
    · rfl
  · exact loopView_evt m w _ _ _

/-- A write of CTRL of a leg's page. -/
theorem Hw.loopView_ctrlWrite (h : Hw) {n : Nat} (hn : n < 96) (m' : Mem) (v : Word) :
    (h.ctrlWrite m' (pLEG n) v).loopView m e w = h.loopView m e w := by
  have hp := pageBlock_pLEG hn
  have hreset : (h.blockReset m' (pLEG n)).loopView m e w = h.loopView m e w := by
    simp only [Hw.blockReset, hp]
    rfl
  have hhalt : ∀ (h : Hw) on, (h.haltSafeWrite (pLEG n) on).loopView m e w = h.loopView m e w := fun h on => by
    simp only [Hw.haltSafeWrite, hp, Hw.when, apply_ite (Hw.loopView m e w), Hw.forceBegin, loopView_evt]
    split
    · rfl
    · exact ite_self _
  have hen : ∀ (h : Hw) on, (h.enable (pLEG n) on).loopView m e w = h.loopView m e w := fun h on => by
    simp only [Hw.enable, hp, apply_ite (Hw.loopView m e w), loopView_legEnable, loopView_legOff, ite_self]
  have hbits : ∀ (h : Hw) v, (h.ctrlBits (pLEG n) v).loopView m e w = h.loopView m e w := fun h v => by
    simp only [Hw.ctrlBits, hp, Hw.when, apply_ite (Hw.loopView m e w)]
    exact ite_self _
  unfold Hw.ctrlWrite
  simp only [Hw.when, apply_ite (Hw.loopView m e w), hreset, hbits, hen, hhalt, loopView_evt, ite_self]

include he

theorem Hw.loopView_legCtrl (h : Hw) {n : Nat} (hn : n < 96) (m' : Mem) (r : Nat) (v : Word) :
    (h.regWrite m' r (pLEG n) rCTRL v).loopView m e w = h.loopView m e w := by
  have hp := pageBlock_pLEG hn
  have hmir : mirrored (pLEG n) rCTRL = false := by simp only [mirrored, hp]
  rw [Hw.regWrite, if_neg (by decide), if_neg (by decide), hmir, if_neg (by decide)]
  refine h.loopView_swWrite he m w _ _ fun k => ?_
  simp only [hp]
  exact k.loopView_ctrlWrite m w hn m' v

theorem Hw.loopView_engFault (h : Hw) (a : Nat) (v : Word) : (h.engFault a v).loopView m e w = h.loopView m e w := by
  have hfree := motionFree_loopView m e w
  unfold Hw.engFault
  dsimp only
  split
  · refine (hfree.axFault (fun _ _ _ => rfl) _ _ _ _ _ fun cd => ?_).trans (hfree.setF h (motion_axr _ _) _ _ _)
    exact Hw.loopView_log _ he m w ..
  · rfl

theorem Hw.loopView_axFaultCode (h : Hw) {a : Nat} (ha : a < 32) (m' : Mem) (r : Nat) (v : Word) :
    (h.regWrite m' r (pAX a) 0x0A0 v).loopView m e w = h.loopView m e w := by
  have hp := pageBlock_pAX ha
  have hmir : mirrored (pAX a) 0x0A0 = false := by simp only [mirrored, hp]; rfl
  rw [Hw.regWrite, if_neg (by decide), if_neg (by decide), hmir, if_neg (by decide)]
  refine h.loopView_swWrite he m w _ _ fun k => ?_
  simp only [Hw.regEffect, hp]
  exact k.loopView_engFault he m w a v

end

/-! ### Steps within an axis slot -/

/-- From h to k slot s of engine e keeps the part p of its own words; no reset of the die is asked for, and of the
engine's data memory only the first twelve words of the slot's axis block may be written (R193). -/
structure Hw.SlotStep {β : Type} (p : KernS → β) (m : Mem) (e s : Nat) (h k : Hw) : Prop where
  kern : p (k.kern ⟨e, s, 0⟩) = p (h.kern ⟨e, s, 0⟩)
  rst : k.rst = h.rst
  word : ∀ w < 16384, w < 0x0100 + 0x0400 * s ∨ 0x010C + 0x0400 * s ≤ w → k.dmRd m e w = h.dmRd m e w

theorem Hw.kern_setKern (h : Hw) (x : KAx) (y : KernS) : (h.setKern x y).kern x = y := tabGet_tabSet_same _ _ _ _

/-- A data word after another, or the same, is written. -/
theorem Hw.dmRd_dmWr_same (h : Hw) (m : Mem) (e w : Nat) (v : Word) : (h.dmWr e w v).dmRd m e w = v :=
  (h.rd32_dmWr m e w _ v).trans (h.rd32_wr32_same m _ v)

theorem Hw.dmRd_dmWr_ne (h : Hw) (m : Mem) (e : Nat) {w x : Nat} (hw : w < 16384) (hx : x < 16384) (hne : x ≠ w)
    (v : Word) : (h.dmWr e w v).dmRd m e x = h.dmRd m e x := by
  refine (h.rd32_dmWr m e w _ v).trans (h.rd32_wr32_ne m ?_ v)
  unfold dmAddr
  omega

theorem Hw.wrN_kerns (h : Hw) (a : Nat) (d : List Byte) : (h.wrN a d).kerns = h.kerns := by
  induction d generalizing h a with
  | nil => rfl
  | cons x d ih => exact ih _ _

theorem Hw.acqBytes_kerns (h : Hw) (a : Nat) (d : List Byte) : (h.acqBytes a d).kerns = h.kerns := by
  unfold Hw.acqBytes
  split
  · refine Hw.each_keeps Hw.kerns (fun h c => ?_) _ h
    dsimp only
    split <;> rfl
  · rfl

theorem Hw.dmWr_kerns (h : Hw) (e w : Nat) (v : Word) : (h.dmWr e w v).kerns = h.kerns := by
  have hw : ((h.wr32 (dmAddr e w) v).acqBytes (dmAddr e w) (wordBytes v)).kerns = h.kerns :=
    (Hw.acqBytes_kerns _ _ _).trans (h.wrN_kerns _ _)
  unfold Hw.dmWr
  dsimp only
  split
  · exact hw
  · exact hw

namespace Hw.SlotStep

variable {β : Type} {p : KernS → β} {m : Mem} {e s : Nat} {h k l : Hw}

theorem refl (h : Hw) : SlotStep p m e s h h := ⟨rfl, rfl, fun _ _ _ => rfl⟩

theorem trans (h1 : SlotStep p m e s h k) (h2 : SlotStep p m e s k l) : SlotStep p m e s h l :=
  ⟨h2.kern.trans h1.kern, h2.rst.trans h1.rst, fun w hw ho => (h2.word w hw ho).trans (h1.word w hw ho)⟩

theorem ite {c : Prop} [Decidable c] (h1 : SlotStep p m e s h k) (h2 : SlotStep p m e s h l) :
    SlotStep p m e s h (if c then k else l) := by
  split
  · exact h1
  · exact h2

theorem each {α : Type} {f : Hw → α → Hw} (l : List α) (hf : ∀ h, ∀ x ∈ l, SlotStep p m e s h (f h x)) (h : Hw) :
    SlotStep p m e s h (h.each l f) := by
  unfold Hw.each
  induction l generalizing h with
  | nil => exact refl h
  | cons x l ih =>
    exact (hf h x (List.mem_cons_self ..)).trans (ih (fun h y hy => hf h y (List.mem_cons_of_mem _ hy)) _)

theorem of_loopView (hv : ∀ w, k.loopView m e w = h.loopView m e w) : SlotStep p m e s h k := by
  have hkern : k.kerns = h.kerns := congrArg (·.1.1) (hv 0)
  exact ⟨congrArg (fun t => p (tabGet {} (2 * e + s) t)) hkern, congrArg (·.1.2) (hv 0), fun w _ _ => congrArg (·.2) (hv w)⟩

theorem of_fields (hk : k.kerns = h.kerns) (hr : k.rst = h.rst) (hw : k.wbuf = h.wbuf) : SlotStep p m e s h k :=
  of_loopView fun w => Hw.loopView_of_fields hk hr hw m e w

theorem setKern (h : Hw) {b : Nat} {y : KernS} (hp : p y = p (h.kern ⟨e, s, b⟩)) : SlotStep p m e s h (h.setKern ⟨e, s, b⟩ y) :=
  ⟨(congrArg p (h.kern_setKern ⟨e, s, b⟩ y)).trans hp, rfl, fun _ _ _ => rfl⟩

theorem dmWr (h : Hw) (hs : s < 2) {i : Nat} (hi : i < 12) (v : Word) : SlotStep p m e s h (h.dmWr e (0x0100 + 0x0400 * s + i) v) :=
  ⟨congrArg (fun t => p (tabGet {} (2 * e + s) t)) (h.dmWr_kerns e _ v), Hw.rst_of_still (h.dmWr_still e _ v),
    fun w hw ho => h.dmRd_dmWr_ne m e (by omega) hw (by omega) v⟩

end Hw.SlotStep

theorem lt_of_mem_bridgesOf {w : Word} {b : Nat} (hb : b ∈ bridgesOf w) : b < 32 :=
  List.mem_range.mp (List.mem_filter.mp hb).1

theorem lt_of_mem_legsOf {bs : List Nat} (hbs : ∀ b ∈ bs, b < 32) {n : Nat} (hn : n ∈ legsOf bs) : n < 96 := by
  obtain ⟨b, hb, hn⟩ := List.mem_flatMap.mp hn
  have hlt := hbs b hb
  simp only [List.mem_cons, List.not_mem_nil, or_false] at hn
  omega

theorem Hw.lt_of_mem_kLegs {h : Hw} {m : Mem} {x : KAx} {n : Nat} (hn : n ∈ h.kLegs m x) : n < 96 :=
  lt_of_mem_legsOf (fun _ => lt_of_mem_bridgesOf) hn

namespace Hw.SlotStep

variable {β : Type} {p : KernS → β} {m : Mem} {e s b : Nat} (he : e < 16) (hs : s < 2) (h : Hw)

/-! The words and registers a kernel writes, and its port queue -/

theorem kOwe (c : HookCall) (n : Nat) : SlotStep p m e s h (h.kOwe n c) := ite (refl h) (of_fields rfl rfl rfl)

theorem kPort (owned : Bool) (en : PortEnt) (n : Nat) : SlotStep p m e s h (h.kPort n owned en) :=
  ite (of_fields rfl rfl rfl) (of_fields (h.evt_kerns _ 2) (h.evt_rst _ 2) (h.evt_wbuf _ 2))

theorem kWrite (x : KAx) (cs : List (Nat × Nat × Nat)) : SlotStep p m e s h (h.kWrite m x cs) :=
  (each cs (fun k _ _ => (kPort k _ _ _).trans (kPort _ _ _ _)) h).trans (kPort _ _ _ _)

include hs

theorem kShow : SlotStep p m e s h (h.kShow ⟨e, s, b⟩) := dmWr h hs (i := 1) (by decide) _

include he

/-- A fault of the kernel writes its slot's AXSTAT; the registers it writes are those of legs and of an axis unit. -/
theorem kFault (hp : ∀ k st code, p { k with st, code } = p k) (code : Nat) : SlotStep p m e s h (h.kFault m ⟨e, s, b⟩ code) := by
  unfold Hw.kFault
  extract_lets off a h1 k h2
  have t1 : SlotStep p m e s h h1 :=
    each _ (fun k n hn => of_loopView fun w => k.loopView_legCtrl he m w (lt_of_mem_kLegs hn) m e off) h
  have t2 : SlotStep p m e s h1 h2 := (setKern h1 (hp _ _ _)).trans (kShow hs _)
  have ha : a < 32 := Nat.mod_lt _ (by decide)
  exact (t1.trans t2).trans (of_loopView fun w => h2.loopView_axFaultCode he m w ha m e _)

end Hw.SlotStep

/-! ### The control law of an update (R202 to R208) -/

namespace Hw.SlotStep

variable {m : Mem} {e s b : Nat} (hs : s < 2) (h : Hw)

/-- Words 2 to 6, 10 and 11 of the axis block. -/
theorem kMeasure {β : Type} {p : KernS → β} (hs : s < 2) (u : KUpd) (ti : Nat) (i v : Int × Int) (iq : Int) :
    SlotStep p m e s h (h.kMeasure ⟨e, s, b⟩ u ti i v iq) := by
  have hstep : ∀ l : List (Nat × Word), (∀ y ∈ l, y.1 < 12) → SlotStep p m e s h
      (l.foldl (fun h y => h.dmWr e (0x0100 + 0x0400 * s + y.1) y.2) h) := fun l hl =>
    each l (fun k y hy => dmWr k hs (hl y hy) y.2) h
  refine hstep _ ?_
  simp

theorem kIntegrate (i ref v v' : Int × Int) : SlotStep KernS.updated m e s h (h.kIntegrate m ⟨e, s, b⟩ i ref v v') :=
  setKern h rfl

theorem kFlux (u : KUpd) (i : Int × Int) : SlotStep KernS.updated m e s h (h.kFlux m ⟨e, s, b⟩ u i) := setKern h rfl

theorem kWeaken (v : Int × Int) (V : Int) : SlotStep KernS.updated m e s h (h.kWeaken m ⟨e, s, b⟩ v V) :=
  ite (setKern h rfl) (refl h)

include hs

theorem kThree (u : KUpd) (ph : List Int) (dmax : Int) :
    SlotStep KernS.updated m e s h (h.kThree m ⟨e, s, b⟩ u ph dmax).1 :=
  (((ite (kFlux h u _) (refl h)).trans (kIntegrate _ _ _ _ _)).trans (kWeaken _ _ _)).trans (kMeasure _ hs _ _ _ _ _)

theorem kTwo (u : KUpd) (ph : List Int) (dmax : Int) : SlotStep KernS.updated m e s h (h.kTwo m ⟨e, s, b⟩ u ph dmax).1 := by
  unfold Hw.kTwo
  dsimp only
  split
  · exact (kIntegrate h _ _ _ _).trans (kMeasure _ hs _ _ _ _ _)
  · exact (kIntegrate h _ _ _ _).trans (kMeasure _ hs _ _ _ _ _)

theorem kOneWinding (u : KUpd) (ph : List Int) (dmax : Int) :
    SlotStep KernS.updated m e s h (h.kOneWinding m ⟨e, s, b⟩ u ph dmax).1 :=
  (kIntegrate h _ _ _ _).trans (kMeasure _ hs _ _ _ _ _)

/-- The edges of an update: it stays noted as run. -/
theorem kEdges (u : KUpd) (y : Nat → Int) (ph : List Int) (mid : Bool) :
    SlotStep KernS.updated m e s h (h.kEdges m ⟨e, s, b⟩ u y ph mid) := by
  unfold Hw.kEdges
  extract_lets caps p16 k0 h1 r h2 st k dbl rose legs cs k1 k2
  have t1 : SlotStep KernS.updated m e s h h1 := setKern h rfl
  have t2 : SlotStep KernS.updated m e s h1 h2 := by
    unfold h2 r
    split
    · exact kTwo hs h1 u ph _
    · exact kOneWinding hs h1 u ph _
    · exact kThree hs h1 u ph _
  have hk : k2.updated = k.updated := by
    unfold k2
    split <;> rfl
  refine (t1.trans t2).trans ((setKern h2 ?_).trans (kWrite _ _ _))
  split
  · exact hk
  · exact hk

end Hw.SlotStep

/-! ### The batch task of a running axis (R197 to R201) -/

/-- What a batch task keeps of its slot's own words once it has taken the mode. -/
def KernS.task (k : KernS) : Bool × Option Word × Nat := (k.run, k.taskB, k.mode)

theorem KernS.task_zeroLoops (k : KernS) : k.zeroLoops.task = k.task := rfl
theorem KernS.task_rest (k : KernS) (v : Int) : (k.rest v).task = k.task := rfl

namespace Hw.SlotStep

variable {m : Mem} {e s b : Nat} (he : e < 16) (hs : s < 2) (h : Hw)

theorem kBankChange (want mode : Nat) : SlotStep KernS.task m e s h (h.kBankChange m ⟨e, s, b⟩ want mode) :=
  ite (refl h) (ite (setKern h rfl) (setKern h rfl))

include hs

theorem kLoops (sp : KSet) (bpos : Word64) : SlotStep KernS.task m e s h (h.kLoops m ⟨e, s, b⟩ sp bpos).1 := by
  unfold Hw.kLoops
  extract_lets k spd iqMax free ep fe code h1
  have t1 : SlotStep KernS.task m e s h h1 :=
    ite ((dmWr h hs (i := 8) (by decide) _).trans (dmWr _ hs (i := 9) (by decide) _)) (refl h)
  have hk : k.task = (h1.kern ⟨e, s, b⟩).task := t1.kern.symm
  split
  · split
    · exact t1
    · exact t1.trans (setKern h1 hk)
  · exact t1.trans (setKern h1 hk)

include he

theorem kBatchRun (reset : Bool) : SlotStep KernS.task m e s h (h.kBatchRun m ⟨e, s, b⟩ reset) := by
  unfold Hw.kBatchRun
  extract_lets a sp k c cpr delta mc theta en heldN k1 k2 k3 h1 s13 fb r h2 k4 h3 w h4 spd lost codes k5 h5
  have hk3 : k3.task = k.task := by
    simp only [k3, k2, apply_ite KernS.task, KernS.task_rest, KernS.task_zeroLoops, ite_self]
    rfl
  have hk4 : (if en then k4 else k4.rest (kQ (h2.kb m ⟨e, s, b⟩ 0x18))).task = k4.task := by
    simp only [apply_ite KernS.task, KernS.task_rest, ite_self]
  have t1 : SlotStep KernS.task m e s h h1 := setKern h hk3
  have t2 : SlotStep KernS.task m e s h1 h2 := kLoops hs h1 sp _
  have t3 : SlotStep KernS.task m e s h2 h3 := setKern h2 hk4
  have t4 : SlotStep KernS.task m e s h3 h4 := (dmWr h3 hs (i := 6) (by decide) _).trans (dmWr _ hs (i := 7) (by decide) _)
  have t5 : SlotStep KernS.task m e s h4 h5 := setKern h4 rfl
  refine ((((t1.trans t2).trans t3).trans t4).trans t5).trans ?_
  clear_value codes
  cases codes with
  | cons c _ => exact kFault he hs h5 (fun _ _ _ => rfl) c
  | nil => exact (ite (refl h5) (kPort h5 _ _ _)).trans (kShow hs _)

end Hw.SlotStep

/-! ### A row of the kernel: what it serves, the hooks owed, and the control block (R192, R211, R215) -/

theorem HytS.epend_foldl {α : Type} {f : HytS → α → HytS} (hf : ∀ y a, (f y a).epend = y.epend) (l : List α) (y : HytS) :
    (l.foldl f y).epend = y.epend :=
  List.foldlRecOn l f (motive := fun z => z.epend = y.epend) rfl fun z hz a _ => (hf z a).trans hz

theorem HytS.epend_afterKernel (x : HytS) (n : Nat) : (x.afterKernel n).epend = x.epend := by
  unfold HytS.afterKernel
  extract_lets w x1 x2 x3 x4 x5
  have h1 : x1.epend = x.epend := HytS.epend_foldl (by intros; rfl) _ _
  have h2 : x2.epend = x1.epend := HytS.epend_foldl (by intros; rfl) _ _
  have h3 : x3.epend = x2.epend := HytS.epend_foldl (by intros; rfl) _ _
  have h4 : x4.epend = x3.epend := HytS.epend_foldl (by intros; rfl) _ _
  have h5 : x5.epend = x4.epend := HytS.epend_foldl (by intros; rfl) _ _
  clear_value x1 x2 x3 x4 x5
  dsimp only
  exact h5.trans (h4.trans (h3.trans (h2.trans h1)))

theorem Hw.hyt_upHyt_same (h : Hw) (e : Nat) (f : HytS → HytS) : (h.upHyt e f).hyt e = f (h.hyt e) := h.hyt_setHyt_same e _

theorem Hw.epend_kCall (h : Hw) (e : Nat) (c : HookCall) : ((h.kCall e c).hyt e).epend = (h.hyt e).epend := by
  have hcall : ((h.kCall e c).hyt e).epend = ((h.hyt e).afterKernel h.free).epend := by
    unfold Hw.kCall
    extract_lets n k
    have hk : k.hyt e = _ := h.hyt_upHyt_same e _
    refine (congrArg HytS.epend hk).trans ?_
    show HytS.epend _ = HytS.epend ((h.hyt e).afterKernel n)
    generalize (h.hyt e).afterKernel n = y
    cases c.block <;> rfl
  exact hcall.trans ((h.hyt e).epend_afterKernel h.free)

/-- From h to k nothing moves but the registers of engine e, its pending bits apart, and the values drawn afresh. -/
structure Hw.Hooked (e : Nat) (h k : Hw) : Prop where
  kerns : k.kerns = h.kerns
  rst : k.rst = h.rst
  wbuf : k.wbuf = h.wbuf
  regs : k.regs = h.regs
  epend : (k.hyt e).epend = (h.hyt e).epend

namespace Hw.Hooked

variable {e : Nat} {h k l : Hw}

theorem refl (h : Hw) : Hooked e h h := ⟨rfl, rfl, rfl, rfl, rfl⟩

theorem upHyt (h : Hw) {f : HytS → HytS} (hf : (f (h.hyt e)).epend = (h.hyt e).epend) : Hooked e h (h.upHyt e f) :=
  ⟨rfl, rfl, rfl, rfl, (congrArg HytS.epend (h.hyt_upHyt_same e f)).trans hf⟩

theorem trans (h1 : Hooked e h k) (h2 : Hooked e k l) : Hooked e h l :=
  ⟨h2.kerns.trans h1.kerns, h2.rst.trans h1.rst, h2.wbuf.trans h1.wbuf, h2.regs.trans h1.regs, h2.epend.trans h1.epend⟩

theorem kServe (h : Hw) (m : Mem) : Hooked e h (h.kServe m e) := by
  unfold Hw.kServe
  split
  · exact refl h
  · split
    · exact (upHyt h rfl).trans ⟨rfl, rfl, rfl, rfl, Hw.epend_kCall _ e _⟩
    · exact refl h

theorem kOwe (h : Hw) (c : HookCall) : Hooked e h (h.kOwe e c) := by
  unfold Hw.kOwe
  split
  · exact refl h
  · exact upHyt h rfl

theorem kBatchHook (h : Hw) : Hooked e h (h.kBatchHook e) := by
  unfold Hw.kBatchHook
  dsimp only
  split
  · exact refl h
  · exact (upHyt h rfl).trans (kOwe _ _)

end Hw.Hooked

/-- From h to k the control block of engine e is written: its first four words, the version among them (R192). -/
structure Hw.Housed (m : Mem) (e : Nat) (h k : Hw) : Prop where
  kerns : k.kerns = h.kerns
  still : k.still = h.still
  word : ∀ w, 4 ≤ w → w < 16384 → k.dmRd m e w = h.dmRd m e w
  version : k.dmRd m e 0 = (2 : BitVec 16) ++ Config.kernelMinor

theorem Hw.housed_kHouse (h : Hw) (m : Mem) (e : Nat) (late : Bool) : h.Housed m e (h.kHouse m e late) := by
  unfold Hw.kHouse
  extract_lets xs load heavy late stat h1 pred
  have hword : ∀ (k : Hw) {w x : Nat}, w < 4 → x < 16384 → x ≠ w → ∀ v, (k.dmWr e w v).dmRd m e x = k.dmRd m e x :=
    fun k w x hw hx hne v => k.dmRd_dmWr_ne m e (by omega) hx hne v
  refine ⟨?_, ?_, fun w h4 hw => ?_, ?_⟩
  · simp only [h1, Hw.dmWr_kerns]
  · simp only [h1, Hw.dmWr_still]
  · rw [hword _ (by decide) hw (by omega), hword _ (by decide) hw (by omega), hword _ (by decide) hw (by omega),
      hword _ (by decide) hw (by omega)]
  · rw [hword _ (by decide) (by decide) (by decide), hword _ (by decide) (by decide) (by decide),
      hword _ (by decide) (by decide) (by decide), Hw.dmRd_dmWr_same]

/-- The module as a row serves it: no hook is out. -/
def Hw.unhooked (h : Hw) (e : Nat) : Hw := h.upHyt e fun x => { x with hookAt := none }

theorem Hw.hyt_unhooked (h : Hw) (e : Nat) : (h.unhooked e).hyt e = { h.hyt e with hookAt := none } :=
  h.hyt_upHyt_same e _

theorem Hw.hooked_unhooked (h : Hw) (e : Nat) : Hooked e h (h.unhooked e) := .upHyt h rfl

/-- A row of an engine that runs and is in no hook. -/
theorem Hw.kRow_free {h : Hw} {e : Nat} (hr : h.hytRuns e = true) (hh : (h.hyt e).hookAt = none) (m : Mem) (f : Hw → Hw) :
    h.kRow m e f = ((f (h.unhooked e)).kServe m e).kHouse m e false := by
  simp only [Hw.kRow, hr, Hw.kFree, Hw.kHookOver, hh]
  rfl

theorem Hw.kern_of_kerns {h k : Hw} (hk : k.kerns = h.kerns) (x : KAx) : k.kern x = h.kern x :=
  congrArg (tabGet ({} : KernS) (2 * x.e + x.s)) hk

theorem Hw.kDue_of_hooked {h k : Hw} {e : Nat} (hk : Hooked e h k) (m : Mem) {x : KAx} (hx : x.e = e) :
    k.kDue m x = h.kDue m x := by
  have hkern : k.kern x = h.kern x := Hw.kern_of_kerns hk.kerns x
  have hb : k.kbN m x 0x06 = h.kbN m x 0x06 := congrArg BitVec.toNat (Hw.dmRd_of_wbuf hk.wbuf m _ _)
  subst hx
  simp only [Hw.kDue, Hw.kRunning, Hw.kTrigger, hkern, hb, hk.epend]

/-- A running slot whose trigger conversion is pending is due. -/
theorem Hw.kDue_of_pending {h : Hw} {m : Mem} {x : KAx} (hst : (h.kern x).st = 2)
    (hbit : (h.hyt x.e).epend.getLsbD (h.kTrigger m x) = true) : h.kDue m x = true := by
  have hrun : h.kRunning x = true := beq_iff_eq.mpr hst
  rw [Hw.kDue, hrun, hbit]
  rfl

theorem Hw.kSlots_of_kerns {h k : Hw} (hk : k.kerns = h.kerns) (e : Nat) : k.kSlots e = h.kSlots e := by
  simp only [Hw.kSlots, Hw.kern, hk]

theorem Hw.any_kSlots_of_hooked {h k : Hw} {e : Nat} (hk : Hooked e h k) (m : Mem) (c : KAx → Bool) :
    ((k.kSlots e).any fun x => c x && k.kDue m x) = (h.kSlots e).any fun x => c x && h.kDue m x := by
  have hdue : ∀ s b, k.kDue m ⟨e, s, b⟩ = h.kDue m ⟨e, s, b⟩ := fun _ _ => Hw.kDue_of_hooked hk m rfl
  rw [Hw.kSlots_of_kerns hk.kerns]
  simp only [Hw.kSlots, List.map_cons, List.map_nil, List.any_cons, List.any_nil, hdue]

theorem Hw.any_due_of_hooked {h k : Hw} {e : Nat} (hk : Hooked e h k) (m : Mem) :
    (k.kSlots e).any (k.kDue m) = (h.kSlots e).any (h.kDue m) := by
  have hall := Hw.any_kSlots_of_hooked hk m fun _ => true
  simpa only [Bool.true_and] using hall

/-- Work after the current updates and the hooks, where none is due or owed. -/
theorem Hw.kAfter_clear {h k : Hw} {m : Mem} {e : Nat} (hk : Hooked e h k) (hd : (h.kSlots e).any (h.kDue m) = false)
    (ho : (k.hyt e).owed = []) (f : Hw → Hw) : k.kAfter m e f = f k := by
  rw [Hw.kAfter, (Hw.any_due_of_hooked hk m).trans hd, ho]
  rfl

/-! ### The start of an axis (R194, R198) -/

/-- What a slot resumes from leaves registers and memory. -/
theorem Hw.kResume_keeps (h : Hw) (m : Mem) (x : KAx) : (h.kResume m x).still = h.still ∧ (h.kResume m x).wbuf = h.wbuf := by
  unfold Hw.kResume
  dsimp only
  split
  · exact ⟨rfl, rfl⟩
  · split <;> exact ⟨rfl, rfl⟩

theorem Hw.rst_kResume {h k : Hw} {m : Mem} {x : KAx} (hk : h.kResume m x = k) : k.rst = h.rst :=
  hk ▸ Hw.rst_of_still (h.kResume_keeps m x).1

theorem Hw.dmRd_kResume {h k : Hw} {m : Mem} {x : KAx} (hk : h.kResume m x = k) (e w : Nat) : k.dmRd m e w = h.dmRd m e w :=
  hk ▸ Hw.dmRd_of_wbuf (h.kResume_keeps m x).2 m e w

theorem Hw.kBatchNo_kResume {h k : Hw} {m : Mem} {x : KAx} (hk : h.kResume m x = k) : k.kBatchNo = h.kBatchNo :=
  hk ▸ Hw.reg_of_regs (Hw.regs_of_still (h.kResume_keeps m x).1) _

/-- A slot's own words are set and shown in its AXSTAT. -/
theorem Hw.kShow_setKern (h : Hw) (x : KAx) (y : KernS) :
    ((h.setKern x y).kShow x).kern x = y ∧ ((h.setKern x y).kShow x).rst = h.rst :=
  ⟨(Hw.kern_of_kerns (Hw.dmWr_kerns ..) x).trans (h.kern_setKern x y), Hw.rst_of_still (Hw.dmWr_still (h.setKern x y) ..)⟩

/-- The slot as AXCTL names its bank. -/
def Hw.asked (h : Hw) (m : Mem) (e s : Nat) : KAx := ⟨e, s, fld (h.dmRd m e (0x0100 + 0x0400 * s)) 4 4⟩

/-- The mode AXCTL asks for. -/
def Hw.askedMode (h : Hw) (m : Mem) (e s : Nat) : Nat := min 2 (fld (h.dmRd m e (0x0100 + 0x0400 * s)) 2 1)

section
variable {h k : Hw} {m : Mem} {e s : Nat} (hrun : bitOf (h.dmRd m e (0x0100 + 0x0400 * s)) 0 = true)
  (hk : h.kResume m (h.asked m e s) = k) (hidle : (k.kern (h.asked m e s)).run = false)
include hrun hk hidle

theorem Hw.kStart_of_sound (hc : k.kCheck m (h.asked m e s) (h.askedMode m e s) = 0) :
    ∃ y : KernS, h.kStart m e s = ((k.setKern (h.asked m e s) y).kShow (h.asked m e s)).dmWr e (0x0100 + 0x0400 * s + 0x0C) 0 ∧
      y.st = 2 ∧ y.run = true ∧ y.code = 0 ∧ y.bank = (h.asked m e s).bank ∧ y.mode = h.askedMode m e s := by
  have hstay : ¬ (!bitOf (h.dmRd m e (0x0100 + 0x0400 * s)) 0 || (k.kern (h.asked m e s)).run) = true := by
    rw [hrun, hidle]
    decide
  subst hk
  unfold Hw.kStart
  extract_lets ctl x k1 y mode code
  have hy : ¬ (!bitOf ctl 0 || y.run) = true := hstay
  have hcode : ¬ code ≠ 0 := not_not_intro hc
  rw [if_neg hy, if_neg hcode]
  exact ⟨_, rfl, rfl, rfl, rfl, rfl, rfl⟩

theorem Hw.kStart_of_unsound {c : Nat} (hc : k.kCheck m (h.asked m e s) (h.askedMode m e s) = c) (h0 : c ≠ 0) :
    h.kStart m e s = (k.setKern (h.asked m e s) { k.kern (h.asked m e s) with run := true, st := 3, code := c }).kShow
      (h.asked m e s) := by
  have hstay : ¬ (!bitOf (h.dmRd m e (0x0100 + 0x0400 * s)) 0 || (k.kern (h.asked m e s)).run) = true := by
    rw [hrun, hidle]
    decide
  subst hk hc
  unfold Hw.kStart
  extract_lets ctl x k1 y mode code
  have hy : ¬ (!bitOf ctl 0 || y.run) = true := hstay
  have hcode : code ≠ 0 := h0
  exact (if_neg hy).trans (if_pos hcode)

/-- A bank that passes every check: the slot runs with the bank and the mode asked for, and no update is counted. -/
theorem Hw.kStart_accepts (hc : k.kCheck m (h.asked m e s) (h.askedMode m e s) = 0) : (h.kStart m e s).rst = h.rst ∧
    ((h.kStart m e s).kern ⟨e, s, 0⟩).st = 2 ∧ ((h.kStart m e s).kern ⟨e, s, 0⟩).run = true ∧
      ((h.kStart m e s).kern ⟨e, s, 0⟩).code = 0 ∧ ((h.kStart m e s).kern ⟨e, s, 0⟩).bank = (h.asked m e s).bank ∧
        ((h.kStart m e s).kern ⟨e, s, 0⟩).mode = h.askedMode m e s ∧
          (h.kStart m e s).dmRd m e (0x0100 + 0x0400 * s + 0x0C) = 0 := by
  obtain ⟨y, heq, hfields⟩ := Hw.kStart_of_sound hrun hk hidle hc
  obtain ⟨hkern, hrst⟩ := k.kShow_setKern (h.asked m e s) y
  have hkern : (h.kStart m e s).kern ⟨e, s, 0⟩ = y := by
    rw [heq]
    exact (Hw.kern_of_kerns (Hw.dmWr_kerns ..) ⟨e, s, 0⟩).trans hkern
  obtain ⟨hst, hyrun, hcode, hbank, hmode⟩ := hfields
  rw [hkern, heq, Hw.dmRd_dmWr_same]
  exact ⟨(Hw.rst_of_still (Hw.dmWr_still ..)).trans (hrst.trans (Hw.rst_kResume hk)), hst, hyrun, hcode, hbank, hmode, rfl⟩

/-- A bank that fails a check: the slot is refused with the check's code. -/
theorem Hw.kStart_refuses {c : Nat} (hc : k.kCheck m (h.asked m e s) (h.askedMode m e s) = c) (h0 : c ≠ 0) :
    (h.kStart m e s).rst = h.rst ∧ ((h.kStart m e s).kern ⟨e, s, 0⟩).st = 3 ∧
      ((h.kStart m e s).kern ⟨e, s, 0⟩).run = true ∧ ((h.kStart m e s).kern ⟨e, s, 0⟩).code = c := by
  have heq := Hw.kStart_of_unsound hrun hk hidle hc h0
  obtain ⟨hkern, hrst⟩ := k.kShow_setKern (h.asked m e s) { k.kern (h.asked m e s) with run := true, st := 3, code := c }
  rw [heq]
  have hkern := congrArg (fun y : KernS => (y.st, y.run, y.code)) hkern
  exact ⟨hrst.trans (Hw.rst_kResume hk), congrArg (·.1) hkern, congrArg (·.2.1) hkern, congrArg (·.2.2) hkern⟩

end

/-! ### The batch task (R197, R198) -/

/-- The own words of a slot that stops at a cleared RUN, and those of one that keeps its state (R198). -/
def KernS.stop (k : KernS) (no : Word) : KernS :=
  if k.st = 2 then { seen := true, bank := k.bank, taskB := some no } else { k with run := false, taskB := some no }

section
variable {h : Hw} {m : Mem} {e s b : Nat}

theorem Hw.kTask_stops (hs : s < 2) (hrun : bitOf (h.dmRd m e (0x0100 + 0x0400 * s)) 0 = false) :
    SlotStep (fun _ => ()) m e s h (h.kTask m ⟨e, s, b⟩) ∧
      (h.kTask m ⟨e, s, b⟩).kern ⟨e, s, 0⟩ = (h.kern ⟨e, s, b⟩).stop h.kBatchNo := by
  have hctl : (!bitOf (h.dmRd m e (KAx.block ⟨e, s, b⟩)) 0) = true := congrArg not hrun
  have heq : h.kTask m ⟨e, s, b⟩ = (h.setKern ⟨e, s, b⟩ ((h.kern ⟨e, s, b⟩).stop h.kBatchNo)).kShow ⟨e, s, b⟩ := by
    unfold Hw.kTask KernS.stop
    dsimp only
    rw [if_pos hctl]
  have hset : SlotStep (fun _ => ()) m e s h (h.setKern ⟨e, s, b⟩ ((h.kern ⟨e, s, b⟩).stop h.kBatchNo)) := .setKern h rfl
  rw [heq]
  exact ⟨hset.trans (.kShow hs _), (h.kShow_setKern ⟨e, s, b⟩ _).1⟩

theorem Hw.SlotStep.any {β : Type} {p : KernS → β} {k : Hw} (hk : SlotStep p m e s h k) : SlotStep (fun _ => ()) m e s h k :=
  ⟨rfl, hk.rst, hk.word⟩

theorem Hw.kTask_runs (he : e < 16) (hs : s < 2) (hrun : bitOf (h.dmRd m e (0x0100 + 0x0400 * s)) 0 = true)
    (hst : (h.kern ⟨e, s, b⟩).st = 2) : SlotStep (fun _ => ()) m e s h (h.kTask m ⟨e, s, b⟩) ∧
      ((h.kTask m ⟨e, s, b⟩).kern ⟨e, s, 0⟩).task = ((h.kern ⟨e, s, b⟩).run, some h.kBatchNo, h.askedMode m e s) := by
  have hctl : ¬ (!bitOf (h.dmRd m e (KAx.block ⟨e, s, b⟩)) 0) = true := by
    rw [Bool.not_eq_true, Bool.not_eq_false']
    exact hrun
  unfold Hw.kTask
  extract_lets ctl k0 k mode h1 x k1 h2 h3
  have hk : k.st = 2 := hst
  rw [if_neg hctl, if_pos hk]
  have t1 : SlotStep KernS.task m e s (h.setKern ⟨e, s, b⟩ k) h1 := .kBankChange _ _ _
  have hk1 : k1.task = k.task := t1.kern.trans (congrArg KernS.task (h.kern_setKern ⟨e, s, b⟩ k))
  have hk2 : (h2.kern ⟨e, s, 0⟩).task = (k.run, k.taskB, mode) := by
    have htask : (h2.kern ⟨e, s, 0⟩).task = (k1.run, k1.taskB, mode) := congrArg KernS.task (h1.kern_setKern ⟨e, s, b⟩ _)
    exact htask.trans (Prod.ext (congrArg (·.1) hk1) (Prod.ext (congrArg (·.2.1) hk1) rfl))
  have t2 : SlotStep KernS.task m e s h2 h3 := .kBatchRun he hs h2 _
  have t3 : SlotStep KernS.task m e s h3 (if bitOf ctl 5 then h3.dmWr e (0x0100 + 0x0400 * s) (ctl &&& ~~~(0x20 : Word)) else h3) :=
    .ite (.dmWr h3 hs (i := 0) (by decide) _) (.refl h3)
  have t0 : SlotStep (fun _ => ()) m e s h (h.setKern ⟨e, s, b⟩ k) := .setKern h rfl
  have tm : SlotStep (fun _ => ()) m e s h1 h2 := .setKern h1 rfl
  exact ⟨((t0.trans t1.any).trans tm).trans (t2.trans t3).any, (t2.trans t3).kern.trans hk2⟩

end

/-- The batch task of slot s, where it is still to run in this batch and does not wait (R197). -/
theorem Hw.kBatch_due {h k : Hw} {m : Mem} {e s : Nat} {x : KAx} (hk : h.kResume m ⟨e, s, 0⟩ = k)
    (hx : x = ⟨e, s, (k.kern ⟨e, s, 0⟩).bank⟩) (hno : (k.kern ⟨e, s, 0⟩).taskB ≠ some k.kBatchNo)
    (hwait : k.kWaits m x = false) : h.kBatch m e s =
      (((k.kTask m x).kTake e [16 * s + 13, 16 * s + 14, 15]).dmWr e 0x0007
        (((k.kTask m x).kTake e [16 * s + 13, 16 * s + 14, 15]).dmRd m e 0x0007 + 1)).kBatchHook e := by
  subst hk hx
  unfold Hw.kBatch
  extract_lets k x k1
  have hgo : ¬ (decide ((k.kern x).taskB = some k.kBatchNo) || k.kWaits m x) = true := by
    rw [hwait, Bool.or_false, decide_eq_true_eq]
    exact hno
  exact if_neg hgo

theorem getLsbD_and_not_two_pow (w : BitVec 64) (i : Nat) : (w &&& ~~~(BitVec.ofNat 64 (2 ^ i))).getLsbD i = false := by
  by_cases hi : i < 64
  · rw [BitVec.getLsbD_and, BitVec.getLsbD_not, getLsbD_ofNat_two_pow hi, Bool.not_true, Bool.and_false, Bool.and_false]
  · exact BitVec.getLsbD_of_ge _ _ (Nat.le_of_not_lt hi)

/-- A bit that is cleared among others, or was clear before. -/
theorem getLsbD_clear_bits {l : List Nat} {w : BitVec 64} {i : Nat} (hi : i ∈ l ∨ w.getLsbD i = false) :
    (l.foldl (fun w i => w &&& ~~~(BitVec.ofNat 64 (2 ^ i))) w).getLsbD i = false := by
  induction l generalizing w with
  | nil => exact hi.resolve_left (List.not_mem_nil)
  | cons j l ih =>
    refine ih ?_
    rcases hi with hi | hi
    · rcases List.mem_cons.mp hi with rfl | hi
      · exact .inr (getLsbD_and_not_two_pow w i)
      · exact .inl hi
    · rw [BitVec.getLsbD_and, hi]
      exact .inr (Bool.false_and _)

theorem Hw.epend_kTake (h : Hw) (e : Nat) {l : List Nat} {i : Nat} (hi : i ∈ l) :
    ((h.kTake e l).hyt e).epend.getLsbD i = false := by
  rw [Hw.kTake, Hw.hyt_upHyt_same]
  exact getLsbD_clear_bits (.inl hi)

/-- The batch task of slot s ran on h, and K is the module as the task left it: the inputs are taken and the batch is
counted (R192, R197). -/
structure Hw.BatchDone (m : Mem) (e s : Nat) (h K t : Hw) : Prop where
  kern : t.kern ⟨e, s, 0⟩ = K.kern ⟨e, s, 0⟩
  rst : t.rst = h.rst
  count : t.dmRd m e 7 = h.dmRd m e 7 + 1
  taken : ∀ i ∈ [16 * s + 13, 16 * s + 14, 15], (t.hyt e).epend.getLsbD i = false

theorem Hw.kBatch_done {h k : Hw} {m : Mem} {e s : Nat} {x : KAx} (hk : h.kResume m ⟨e, s, 0⟩ = k)
    (hx : x = ⟨e, s, (k.kern ⟨e, s, 0⟩).bank⟩) (hno : (k.kern ⟨e, s, 0⟩).taskB ≠ some k.kBatchNo)
    (hwait : k.kWaits m x = false) (ht : SlotStep (fun _ => ()) m e s k (k.kTask m x)) :
    BatchDone m e s h (k.kTask m x) (h.kBatch m e s) := by
  have hword : (k.kTask m x).dmRd m e 7 = h.dmRd m e 7 :=
    (ht.word 7 (by decide) (.inl (by omega))).trans (Hw.dmRd_kResume hk e 7)
  have hrst : (k.kTask m x).rst = h.rst := ht.rst.trans (Hw.rst_kResume hk)
  rw [Hw.kBatch_due hk hx hno hwait]
  generalize k.kTask m x = K at hword hrst
  have htake : ∀ i ∈ [16 * s + 13, 16 * s + 14, 15],
      ((K.kTake e [16 * s + 13, 16 * s + 14, 15]).hyt e).epend.getLsbD i = false := fun i => K.epend_kTake e
  have hkern : (K.kTake e [16 * s + 13, 16 * s + 14, 15]).kerns = K.kerns := rfl
  have hrd : (K.kTake e [16 * s + 13, 16 * s + 14, 15]).dmRd m e 7 = h.dmRd m e 7 := hword
  have hr : (K.kTake e [16 * s + 13, 16 * s + 14, 15]).rst = h.rst := hrst
  generalize K.kTake e [16 * s + 13, 16 * s + 14, 15] = T at htake hkern hrd hr
  have hstill := T.dmWr_still e 7 (T.dmRd m e 7 + 1)
  have hhook := Hooked.kBatchHook (e := e) (T.dmWr e 7 (T.dmRd m e 7 + 1))
  refine ⟨?_, ?_, ?_, fun i hi => ?_⟩
  · exact congrArg (tabGet {} (2 * e + s)) (hhook.kerns.trans ((T.dmWr_kerns _ _ _).trans hkern))
  · exact hhook.rst.trans ((Hw.rst_of_still hstill).trans hr)
  · rw [Hw.dmRd_of_wbuf hhook.wbuf, Hw.dmRd_dmWr_same, hrd]
  · rw [hhook.epend, Hw.hyt_of_still hstill]
    exact htake i hi

/-! ### The current update (R202, R211) -/

theorem Hw.rst_setKern (h : Hw) (x : KAx) (y : KernS) : (h.setKern x y).rst = h.rst := rfl
theorem Hw.rst_upHyt (h : Hw) (e : Nat) (f : HytS → HytS) : (h.upHyt e f).rst = h.rst := rfl
theorem Hw.dmRd_setKern (h : Hw) (x : KAx) (y : KernS) (m : Mem) (e w : Nat) : (h.setKern x y).dmRd m e w = h.dmRd m e w := rfl
theorem Hw.dmRd_upHyt (h : Hw) (n : Nat) (f : HytS → HytS) (m : Mem) (e w : Nat) : (h.upHyt n f).dmRd m e w = h.dmRd m e w :=
  rfl

theorem Hw.kUpdate_idle {h : Hw} {m : Mem} {e s : Nat} (hst : (h.kern ⟨e, s, 0⟩).st ≠ 2) : h.kUpdate m e s = h := by
  have hdue : ∀ b, h.kDue m ⟨e, s, b⟩ = false := fun b => by
    have hrun : h.kRunning ⟨e, s, b⟩ = false := beq_false_of_ne hst
    rw [Hw.kDue, hrun, Bool.false_and]
  unfold Hw.kUpdate
  dsimp only
  rw [hdue]
  rfl

/-- An update that is due, and behind no other, is noted, counted, and the conversions missed with it (R192). -/
theorem Hw.kUpdate_counts {h : Hw} {m : Mem} {e s b : Nat} (he : e < 16) (hs : s < 2) (hb : b = (h.kern ⟨e, s, 0⟩).bank)
    (hdue : h.kDue m ⟨e, s, b⟩ = true)
    (hfirst : s = 1 → (h.kSlots e).any (fun y => y.s == 0 && h.kDue m y) = false) :
    (h.kUpdate m e s).rst = h.rst ∧ ((h.kUpdate m e s).kern ⟨e, s, 0⟩).updated = true ∧
      (h.kUpdate m e s).dmRd m e (0x0100 + 0x0400 * s + 0x0C) = h.dmRd m e (0x0100 + 0x0400 * s + 0x0C) + 1 ∧
      (h.kUpdate m e s).dmRd m e 8 =
        BitVec.ofNat 32 (min (2 ^ 32 - 1) ((h.dmRd m e 8).toNat + tabGet 0 (h.kTrigger m ⟨e, s, b⟩) (h.hyt e).lost)) := by
  subst hb
  unfold Hw.kUpdate
  extract_lets x k slot lost miss h1 js h2 y ok vdc ph f ts c dbl mid n P u k3 h3 h4
  have hgo : ¬ (!h.kDue m x || (decide (s = 1) && (h.kSlots e).any fun y => y.s == 0 && h.kDue m y)) = true := by
    rw [show h.kDue m x = true from hdue, Bool.not_true, Bool.false_or, Bool.and_eq_true, decide_eq_true_eq]
    rintro ⟨h1, hany⟩
    exact absurd (hany.symm.trans (hfirst h1)) (by decide)
  rw [if_neg hgo]
  have hlaw : SlotStep KernS.updated m e s h3 h4 := by
    unfold h4
    split
    · exact .kFault he hs h3 (fun _ _ _ => rfl) _
    · split
      · exact (SlotStep.kEdges hs h3 u y ph mid).trans (.kShow hs _)
      · exact .kWrite h3 x _
  have hend := hlaw.trans (.kOwe h4 { addr := (h4.hyt e).hooks.cur, d8 := BitVec.ofNat 24 s, block := some x.block } e)
  have hblock : x.block = 0x0100 + 0x0400 * s := rfl
  have hlow : h3.dmRd m e 8 = BitVec.ofNat 32 miss := calc
    h3.dmRd m e 8 = (h2.setKern x _).dmRd m e 8 := Hw.dmRd_dmWr_ne _ m e (by omega) (by decide) (by omega) _
    _ = h2.dmRd m e 8 := Hw.dmRd_setKern ..
    _ = h1.dmRd m e 8 := Hw.dmRd_upHyt ..
    _ = BitVec.ofNat 32 miss := Hw.dmRd_dmWr_same _ m e 8 _
  have hcount : h2.dmRd m e (0x0100 + 0x0400 * s + 0x0C) = h.dmRd m e (0x0100 + 0x0400 * s + 0x0C) := calc
    h2.dmRd m e (0x0100 + 0x0400 * s + 0x0C) = h1.dmRd m e (0x0100 + 0x0400 * s + 0x0C) := Hw.dmRd_upHyt ..
    _ = (h.upHyt e _).dmRd m e (0x0100 + 0x0400 * s + 0x0C) := Hw.dmRd_dmWr_ne _ m e (by decide) (by omega) (by omega) _
    _ = h.dmRd m e (0x0100 + 0x0400 * s + 0x0C) := Hw.dmRd_upHyt ..
  have hword : h3.dmRd m e (0x0100 + 0x0400 * s + 0x0C) = h.dmRd m e (0x0100 + 0x0400 * s + 0x0C) + 1 :=
    (Hw.dmRd_dmWr_same (h2.setKern x _) m e _ _).trans (congrArg (· + 1) hcount)
  have hrst : h3.rst = h.rst := calc
    h3.rst = (h2.setKern x _).rst := Hw.rst_of_still (Hw.dmWr_still _ _ _ _)
    _ = h2.rst := Hw.rst_setKern ..
    _ = h1.rst := Hw.rst_upHyt ..
    _ = (h.upHyt e _).rst := Hw.rst_of_still (Hw.dmWr_still _ _ _ _)
    _ = h.rst := Hw.rst_upHyt ..
  have hupd : (h3.kern x).updated = true := by
    have hkern : h3.kern x = (h2.setKern x _).kern x := Hw.kern_of_kerns (Hw.dmWr_kerns ..) x
    rw [hkern, Hw.kern_setKern]
  clear_value h4 h3
  exact ⟨hend.rst.trans hrst, hend.kern.trans hupd, (hend.word _ (by omega) (.inr (by omega))).trans hword,
    (hend.word 8 (by decide) (.inl (by omega))).trans hlow⟩

/-- The row serves the engine as the command found it. -/
theorem Hw.hooked_served (h : Hw) (g e : Nat) : Hooked e h ((h.at g).unhooked e) :=
  Hooked.trans (k := h.at g) ⟨rfl, rfl, rfl, rfl, rfl⟩ ((h.at g).hooked_unhooked e)

end Sys2Proof.Machine

namespace Sys2Proof
open Machine

/-- How a row of the kernel that left the module k ends: the control block is written and a hook that is owed is called
(R192, R215). -/
structure RowEnds (m : Mem) (e : Nat) (k : Hw) (t : State) : Prop where
  kern : t.hw.kerns = k.kerns
  regs : t.hw.regs = k.regs
  epend : (t.hw.hyt e).epend = (k.hyt e).epend
  word : ∀ w, 4 ≤ w → w < 16384 → t.hw.dmRd t.mem e w = k.dmRd m e w
  version : t.hw.dmRd t.mem e 0 = (2 : BitVec 16) ++ Config.kernelMinor

theorem gives_row {s : State} {g e : Nat} {f : Mem → Hw → Hw} {P : State → Prop} {k : Hw} (hl : Live s)
    (hr : s.hw.hytRuns e = true) (hh : (s.hw.hyt e).hookAt = none) (hf : f s.mem ((s.hw.at g).unhooked e) = k)
    (hrst : k.rst = 0) (hP : ∀ t, RowEnds s.mem e k t → P t) : ∃ t, run g (fun m h => h.kRow m e (f m)) s = .next t ∧ P t := by
  subst hf
  refine gives_run_eq (f := fun m h => h.kRow m e (f m)) hl
    (Hw.kRow_free (h := s.hw.at g) hr hh s.mem (f s.mem)) (hP _ ?_)
  generalize f s.mem ((s.hw.at g).unhooked e) = k at hrst
  have hserve := Hw.Hooked.kServe (e := e) k s.mem
  generalize k.kServe s.mem e = k1 at hserve
  have hhouse := k1.housed_kHouse s.mem e false
  generalize k1.kHouse s.mem e false = k2 at hhouse
  have hrst2 : k2.rst = 0 := (Hw.rst_of_still hhouse.still).trans (hserve.rst.trans hrst)
  have hrd : ∀ w, (k2.seal (max s.hw.grain g)).dmRd (s.mem.after k2) e w = k2.dmRd s.mem e w := fun w =>
    Hw.rd32_seal hrst2 s.mem _ _
  refine ⟨hhouse.kerns.trans hserve.kerns, (Hw.regs_of_still hhouse.still).trans hserve.regs, ?_, fun w h4 hw => ?_,
    (hrd 0).trans hhouse.version⟩
  · exact (congrArg HytS.epend (Hw.hyt_of_still hhouse.still e)).trans hserve.epend
  · exact (hrd w).trans ((hhouse.word w h4 hw).trans (Hw.dmRd_of_wbuf hserve.wbuf _ _ _))

section
variable {s : State} {g : Nat} {e : Fin 16} {slot : Bool} {P : State → Prop} {k : Hw}

theorem slotN_lt (slot : Bool) : slotN slot < 2 := by cases slot <;> decide

variable (hl : Live s) (hs : Settled s) (hr : s.hw.hytRuns e = true) (hh : (s.hw.hyt e).hookAt = none)
  (hdue : (s.hw.kSlots e).any (s.hw.kDue s.mem) = false) (howed : (s.hw.hyt e).owed = [])
include hl hs hr hh hdue howed

/-- Work of a row after the current updates and the hooks, where none is due or owed. -/
theorem gives_after {f : Mem → Hw → Hw} (hf : f s.mem ((s.hw.at g).unhooked e) = k) (hrst : k.rst = s.hw.rst)
    (hP : ∀ t, RowEnds s.mem e k t → P t) : ∃ t, run g (fun m h => h.kRow m e fun h => h.kAfter m e (f m)) s = .next t ∧ P t := by
  have howed' : (((s.hw.at g).unhooked e).hyt e).owed = [] := (congrArg HytS.owed ((s.hw.at g).hyt_unhooked e)).trans howed
  have hclear := Hw.kAfter_clear (s.hw.hooked_served g e) hdue howed' (f s.mem)
  exact gives_row (f := fun m h => h.kAfter m e (f m)) hl hr hh (hclear.trans hf) (hrst.trans hs.2) hP

/-- A batch task that runs, by what it leaves. -/
theorem gives_batchTask (hk : ((s.hw.at g).unhooked e).kResume s.mem ⟨e, slotN slot, 0⟩ = k)
    (hno : (k.kern ⟨e, slotN slot, 0⟩).taskB ≠ some k.kBatchNo)
    (hwait : k.kWaits s.mem ⟨e, slotN slot, (k.kern ⟨e, slotN slot, 0⟩).bank⟩ = false)
    (ht : Hw.SlotStep (fun _ => ()) s.mem e (slotN slot) k (k.kTask s.mem ⟨e, slotN slot, (k.kern ⟨e, slotN slot, 0⟩).bank⟩))
    (hP : ∀ t : State, t.hw.kern ⟨e, slotN slot, 0⟩ =
        (k.kTask s.mem ⟨e, slotN slot, (k.kern ⟨e, slotN slot, 0⟩).bank⟩).kern ⟨e, slotN slot, 0⟩ →
      t.hw.dmRd t.mem e 7 = s.hw.dmRd s.mem e 7 + 1 →
      (∀ i ∈ [16 * slotN slot + 13, 16 * slotN slot + 14, 15], (t.hw.hyt e).epend.getLsbD i = false) → P t) :
    Gives (.kernelBatchTask g e slot) s P := by
  have hdone := Hw.kBatch_done hk rfl hno hwait ht
  refine gives_after (f := fun m h => h.kBatch m e (slotN slot)) hl hs hr hh hdue howed rfl hdone.rst fun t hend => ?_
  refine hP t ((Hw.kern_of_kerns hend.kern _).trans hdone.kern) ((hend.word 7 (by decide) (by decide)).trans hdone.count) ?_
  intro i hi
  rw [hend.epend]
  exact hdone.taken i hi

end

/-- Settles O41: a row of the kernel writes the slot it serves and the control block; what else it does leaves both. -/
theorem kernelSteps : Obligations.KernelSteps := by
  intro s g e slot hl hs hr hh eng
  have hlt := slotN_lt slot
  let h := (s.hw.at g).unhooked e
  have hserved : Hw.Hooked e s.hw h := s.hw.hooked_served g e
  let k := h.kResume s.mem ⟨e, slotN slot, 0⟩
  have hk : h.kResume s.mem ⟨e, slotN slot, 0⟩ = k := rfl
  have hbatch : k.kBatchNo = s.hw.reg (ck 0x064) := Hw.kBatchNo_kResume (h := h) hk
  have hctl : k.dmRd s.mem e (0x0100 + 0x0400 * slotN slot) = s.hw.dmRd s.mem e (0x0100 + 0x0400 * slotN slot) :=
    Hw.dmRd_kResume (h := h) hk _ _
  refine ⟨fun hdue howed hrun hidle hc => ?_, fun c hdue howed hrun hidle hc h0 => ?_, fun hdue howed hno hwait hrun => ?_,
    fun hdue howed hno hwait hrun hst => ?_, fun b hst hb hbit hslot hfirst => ?_, fun hst => ?_⟩
  · obtain ⟨hrst, hst, hrun', hcode, hbank, hmode, hword⟩ := Hw.kStart_accepts (h := h) (m := s.mem) hrun rfl hidle hc
    refine gives_after (f := fun m h => h.kStart m e (slotN slot)) hl hs hr hh hdue howed rfl hrst fun t hend => ?_
    rw [Hw.kern_of_kerns hend.kern]
    exact ⟨hst, hrun', hcode, hbank, hmode, (hend.word _ (by omega) (by omega)).trans hword, hend.version⟩
  · obtain ⟨hrst, hst, hrun', hcode⟩ := Hw.kStart_refuses (h := h) (m := s.mem) hrun rfl hidle hc h0
    refine gives_after (f := fun m h => h.kStart m e (slotN slot)) hl hs hr hh hdue howed rfl hrst fun t hend => ?_
    rw [Hw.kern_of_kerns hend.kern]
    exact ⟨hst, hrun', hcode, hend.version⟩
  · have hrun' : bitOf (k.dmRd s.mem e (0x0100 + 0x0400 * slotN slot)) 0 = false := (congrArg (bitOf · 0) hctl).trans hrun
    obtain ⟨hstep, htask⟩ := Hw.kTask_stops (b := (k.kern ⟨e, slotN slot, 0⟩).bank) hlt hrun'
    refine gives_batchTask hl hs hr hh hdue howed hk (hbatch ▸ hno) hwait hstep fun t hkern hcount htaken => ?_
    rw [hkern, htask, hbatch]
    exact ⟨rfl, hcount, htaken 15 (by simp), htaken _ (by simp), htaken _ (by simp)⟩
  · have hrun' : bitOf (k.dmRd s.mem e (0x0100 + 0x0400 * slotN slot)) 0 = true := (congrArg (bitOf · 0) hctl).trans hrun
    obtain ⟨hstep, htask⟩ := Hw.kTask_runs (b := (k.kern ⟨e, slotN slot, 0⟩).bank) e.isLt hlt hrun' hst
    refine gives_batchTask hl hs hr hh hdue howed hk (hbatch ▸ hno) hwait hstep fun t hkern hcount htaken => ?_
    rw [hkern]
    refine ⟨congrArg (·.1) htask, (congrArg (·.2.1) htask).trans (congrArg some hbatch), ?_, hcount, htaken 15 (by simp)⟩
    exact (congrArg (·.2.2) htask).trans (congrArg (fun ctl => min 2 (fld ctl 2 1)) hctl)
  · subst hslot hb
    have hd : s.hw.kDue s.mem ⟨e, slotN true, (s.hw.kern ⟨e, slotN true, 0⟩).bank⟩ = true := Hw.kDue_of_pending hst hbit
    have hd' := (Hw.kDue_of_hooked hserved s.mem rfl).trans hd
    have hf' := (Hw.any_kSlots_of_hooked hserved s.mem fun y => y.s == 0).trans hfirst
    obtain ⟨hrst, hupd, hword, hmiss⟩ := Hw.kUpdate_counts (h := h) e.isLt hlt rfl hd' fun _ => hf'
    refine gives_row (f := fun m h => h.kUpdate m e (slotN true)) hl hr hh rfl
      (hrst.trans (hserved.rst.trans hs.2)) fun t hend => ?_
    refine ⟨?_, ?_, ?_⟩
    · rw [Hw.kern_of_kerns hend.kern]
      exact hupd
    · exact (hend.word _ (by decide) (by decide)).trans hword
    · have hlost : (h.hyt e).lost = (s.hw.hyt e).lost := (congrArg HytS.lost ((s.hw.at g).hyt_unhooked e)).trans rfl
      refine (hend.word 8 (by decide) (by decide)).trans (hmiss.trans ?_)
      rw [hlost]
      rfl
  · refine gives_row (f := fun m h => h.kUpdate m e (slotN slot)) hl hr hh
      (Hw.kUpdate_idle (h := h) hst) (hserved.rst.trans hs.2) fun t hend => ?_
    exact ⟨Hw.kern_of_kerns (hend.kern.trans hserved.kerns) _, hend.regs.trans hserved.regs⟩

end Sys2Proof

namespace Sys2Proof.Machine

/-! ### The working state and the registers of a profile -/

@[simp] theorem Hw.prof_setProf_same (h : Hw) (p : Nat) (x : PrfS) : (h.setProf p x).prof p = x :=
  tabGet_tabSet_same _ _ _ _

theorem Hw.prof_setProf_ne (h : Hw) {p q : Nat} (hq : q ≠ p) (x : PrfS) : (h.setProf p x).prof q = h.prof q :=
  tabGet_tabSet_ne _ _ hq _ _

theorem Hw.prof_of_prf {h k : Hw} (e : k.prf = h.prf) (p : Nat) : k.prof p = h.prof p := congrArg (tabGet ({} : PrfS) p) e

@[simp] theorem Hw.reg_setProf (h : Hw) (p : Nat) (x : PrfS) (a : Nat) : (h.setProf p x).reg a = h.reg a := rfl
theorem Hw.setReg64_prf (h : Hw) (a : Nat) (v : Word64) : (h.setReg64 a v).prf = h.prf := rfl
@[simp] theorem Hw.prof_setReg64 (h : Hw) (a : Nat) (v : Word64) (p : Nat) : (h.setReg64 a v).prof p = h.prof p := rfl
@[simp] theorem Hw.prof_setF (h : Hw) (a hi lo v p : Nat) : (h.setF a hi lo v).prof p = h.prof p := rfl
@[simp] theorem Hw.prof_evt (h : Hw) (q b p : Nat) : (h.evt q b).prof p = h.prof p := Hw.prof_of_prf (h.evt_prf q b) p

/-- A profile that has a state is enabled. -/
theorem Hw.pfEn_of_pfState {h : Hw} {p : Nat} (hst : h.pfState p ≠ 0) : h.pfEn p = true := by
  by_contra hen
  exact hst (by simp [Hw.pfState, hen])

/-- The state of an enabled profile without a gear is the one PSTAT holds. -/
theorem Hw.pfState_of_stat {h : Hw} {p : Nat} (hen : h.pfEn p = true) (hsrc : h.pfSrc p ≠ 2) :
    h.pfState p = h.f (prStat p) 2 0 := by simp [Hw.pfState, hen, hsrc]

/-- No geared profile is in ERROR. -/
theorem Hw.pfSrc_of_failed {h : Hw} {p : Nat} (hst : h.pfState p = 4) : h.pfSrc p ≠ 2 := by
  intro hsrc
  have hen := Hw.pfEn_of_pfState (h := h) (p := p) (by omega)
  cases hgear : h.gearDrives p <;> simp [Hw.pfState, hen, hsrc, hgear] at hst

theorem Hw.pfCfg_congr {h k : Hw} {p : Nat} (e : k.reg (prfWin p 0x080) = h.reg (prfWin p 0x080)) :
    k.pfCfg p = h.pfCfg p := e

/-- The state of a profile is read from its P_CFG, its PSTAT and the gear units. -/
theorem Hw.pfState_congr {h k : Hw} {p : Nat} (hcfg : k.reg (prfWin p 0x080) = h.reg (prfWin p 0x080))
    (hstat : k.reg (prStat p) = h.reg (prStat p))
    (hgear : ∀ u, k.reg (ra pLSH (0x200 + 0x40 * u)) = h.reg (ra pLSH (0x200 + 0x40 * u))) :
    k.pfState p = h.pfState p := by
  simp only [Hw.pfState, Hw.pfEn, Hw.pfSrc, Hw.gearDrives, Hw.pfCfg_congr hcfg, Hw.f, Hw.bit, hstat, hgear]
  rfl

/-- PSTAT.STATE of a profile enabled without a gear is set, whatever else an operation does. -/
theorem Hw.pfState_of_set {h k : Hw} {p st : Nat} (hcfg : k.reg (prfWin p 0x080) = h.reg (prfWin p 0x080))
    (hen : h.pfEn p = true) (hsrc : h.pfSrc p ≠ 2) (hstat : k.f (prStat p) 2 0 = st) : k.pfState p = st := by
  have hc := Hw.pfCfg_congr hcfg
  rw [Hw.pfState_of_stat (by rw [Hw.pfEn, hc]; exact hen) (by rw [Hw.pfSrc, hc]; exact hsrc), hstat]

/-- A field reads back a number that fits it. -/
theorem fld_putFld_of_lt (w : Word) {hi lo v : Nat} (hlo : lo ≤ hi) (hhi : hi < 32) (hv : v < 2 ^ (hi + 1 - lo)) :
    fld (putFld w hi lo v) hi lo = v := (fld_putFld_same w hlo hhi v).trans (Nat.mod_eq_of_lt hv)

/-! The registers of a profile are apart: CRED and PSTAT in the PRF page, the window behind the page space, M_WEND in
another page. -/

theorem prCred_ne_prStat {p q : Nat} (hp : p < 256) : prCred p ≠ prStat q := by unfold prCred prStat ra; omega
theorem prfWin_ne_prStat {p q off : Nat} (hq : q < 256) : prfWin p off ≠ prStat q := by
  unfold prfWin prStat ra pPRF; omega
theorem prfWin_ne_prCred {p q off : Nat} (hq : q < 256) : prfWin p off ≠ prCred q := by
  unfold prfWin prCred ra pPRF; omega
theorem prStat_inj {p q : Nat} (hpq : p ≠ q) : prStat p ≠ prStat q := by unfold prStat ra; omega
theorem gear_ne_prStat {q u : Nat} (hq : q < 256) : ra pLSH (0x200 + 0x40 * u) ≠ prStat q := by
  unfold prStat ra pLSH pPRF; omega

/-- Whether an address is not that of M_WEND of the master numbered p. -/
def notWend (p a : Nat) : Prop := a ≠ mWend (p - 128) ∧ a ≠ mWend (p - 128) + 4

theorem notWend_prStat {p q : Nat} (hq : q < 256) : notWend p (prStat q) := by
  unfold notWend mWend prStat ra pLSH pPRF; omega
theorem notWend_prCred {p q : Nat} (hq : q < 256) : notWend p (prCred q) := by
  unfold notWend mWend prCred ra pLSH pPRF; omega
theorem notWend_prfWin {p q off : Nat} (hp : p < 256) : notWend p (prfWin q off) := by
  unfold notWend mWend prfWin ra pLSH; omega
theorem notWend_gear {p u : Nat} (hp : p < 136) : notWend p (ra pLSH (0x200 + 0x40 * u)) := by
  unfold notWend mWend ra pLSH; omega

/-! ### Refusals (R226, R229) -/

/-- A refused push names the profile and the reason, and moves nothing of any profile. -/
theorem Hw.pushRefuse_shows (h : Hw) {p reason : Nat} (hp : p < 256) (hr : reason < 4) (q : Nat) :
    (h.pushRefuse p reason).f (ra pPRF 0x048) 1 0 = reason ∧ (h.pushRefuse p reason).f (ra pPRF 0x048) 23 16 = p ∧
    (h.pushRefuse p reason).bit (ra pPRF rEVT) 1 = true ∧ (h.pushRefuse p reason).prof q = h.prof q ∧
    (h.pushRefuse p reason).reg (prCred q) = h.reg (prCred q) := by
  have hevt : ∀ k : Hw, (k.evt pPRF 1).reg (ra pPRF 0x048) = k.reg (ra pPRF 0x048) := fun k =>
    k.reg_evt_ne (by decide) (by decide) 1
  refine ⟨?_, ?_, Hw.bit_evt _ pPRF (by decide), by simp [Hw.pushRefuse], ?_⟩
  · rw [Hw.f, Hw.pushRefuse, hevt]
    exact (Hw.f_setF_same _ _ (by decide) (by decide) reason).trans (Nat.mod_eq_of_lt hr)
  · rw [Hw.f, Hw.pushRefuse, hevt]
    refine (Hw.f_setF_disj _ _ (by decide) (by decide) reason (by decide)).trans ?_
    exact (Hw.f_setF_same _ _ (by decide) (by decide) p).trans (Nat.mod_eq_of_lt hp)
  · have hne : ∀ off < 0x400, prCred q ≠ ra pPRF off := fun off ho => by unfold prCred ra; omega
    rw [Hw.pushRefuse, Hw.reg_evt_ne _ (hne _ (by decide)) (hne _ (by decide)), Hw.reg_setF_ne _ (hne _ (by decide)),
      Hw.reg_setF_ne _ (hne _ (by decide))]

theorem Hw.reg_cmdRefuse_ne (h : Hw) {a : Nat} (ha : a < 0x9014 ∨ 0x9054 ≤ a) (reason : Nat) :
    (h.cmdRefuse reason).reg a = h.reg a := by
  have hne : ∀ off, 0x014 ≤ off → off < 0x054 → a ≠ ra pPRF off := fun off hlo hhi => by unfold ra pPRF; omega
  rw [Hw.cmdRefuse, Hw.reg_evt_ne _ (hne _ (by decide) (by decide)) (hne _ (by decide) (by decide)),
    Hw.reg_setF_ne _ (hne _ (by decide) (by decide))]

/-- A refused command shows its reason, and moves nothing of any profile. -/
theorem Hw.cmdRefuse_shows (h : Hw) {reason : Nat} (hr : reason < 8) (q : Nat) :
    (h.cmdRefuse reason).f (ra pPRF 0x050) 2 0 = reason ∧ (h.cmdRefuse reason).bit (ra pPRF rEVT) 2 = true ∧
    (h.cmdRefuse reason).prof q = h.prof q := by
  refine ⟨?_, Hw.bit_evt _ pPRF (by decide), by simp [Hw.cmdRefuse]⟩
  rw [Hw.f, Hw.cmdRefuse, Hw.reg_evt_ne _ (by decide) (by decide)]
  exact (Hw.f_setF_same _ _ (by decide) (by decide) reason).trans (Nat.mod_eq_of_lt hr)

theorem Hw.cred_cmdRefuse (h : Hw) (reason q : Nat) : (h.cmdRefuse reason).reg (prCred q) = h.reg (prCred q) :=
  h.reg_cmdRefuse_ne (by unfold prCred ra pPRF; omega) reason

theorem Hw.pfState_cmdRefuse (h : Hw) (reason q : Nat) : (h.cmdRefuse reason).pfState q = h.pfState q :=
  Hw.pfState_congr (h.reg_cmdRefuse_ne (by unfold prfWin; omega) reason)
    (h.reg_cmdRefuse_ne (by unfold prStat ra pPRF; omega) reason)
    fun _ => h.reg_cmdRefuse_ne (by unfold ra pLSH; omega) reason

/-! ### PUSH (R225, R226) -/

/-- The boundary in a PCLK cycle is a matter of the time base. -/
theorem Hw.boundaryGrain_congr {h k : Hw} (hc : k.clk = h.clk) (hg : k.grain / 5 = h.grain / 5) :
    k.boundaryGrain = h.boundaryGrain := by
  have hct : k.ctGrains = h.ctGrains := funext fun x => by rw [Hw.ctGrains, Hw.ctGrains, Hw.ctAt, Hw.ctAt, hc]
  rw [Hw.boundaryGrain, Hw.boundaryGrain, hct, hc, hg]

theorem Hw.push_above {h : Hw} {p : Nat} (hp : 135 < p) (n : Nat) : h.push p n = h.pushRefuse p 2 := if_pos hp

theorem Hw.push_master {h : Hw} {p : Nat} (hp : 128 ≤ p) (hp' : p ≤ 135) (n : Nat) : h.push p n = h.pushRefuse p 3 := by
  rw [Hw.push, if_neg (by omega), if_pos hp]

theorem Hw.push_unfit {h : Hw} {p : Nat} (hp : p < 128) (hu : h.pfEn p = false ∨ h.pfSrc p = 2) (n : Nat) :
    h.push p n = h.pushRefuse p 2 := by
  rw [Hw.push, if_neg (by omega), if_neg (by omega), if_pos (by simpa using hu)]

/-- A push to an enabled recipe profile in a cycle without a boundary looks at CREDITS as they stand. -/
theorem Hw.push_recipe {h : Hw} {p : Nat} (hp : p < 128) (hen : h.pfEn p = true) (hsrc : h.pfSrc p ≠ 2)
    (hb : h.boundaryGrain = none) (n : Nat) :
    h.push p n = if n = 0 ∨ h.credits p < n then h.pushRefuse p 1 else h.pushN p n := by
  have hc : h.creditInCycle p = h := by rw [Hw.creditInCycle, hb]
  rw [Hw.push, if_neg (by omega), if_neg (by omega), if_neg (by simpa [hen] using hsrc), hc]

/-- The ledger of a profile after n segments go from CREDITS to QUEUED, W_IDX and the queue with them. -/
theorem Hw.pushN_shows {h : Hw} {p n : Nat} (hp : p < 256) (hn : n ≤ h.credits p) (hq : h.queued p + n < 8192) :
    (h.pushN p n).credits p = h.credits p - n ∧ (h.pushN p n).queued p = h.queued p + n ∧
    (h.pushN p n).f (prStat p) 27 16 = (h.f (prStat p) 27 16 + n) % h.pfCap p % 4096 ∧
    ((h.pushN p n).prof p).queue.map (·.1) = (h.prof p).queue.map (·.1) ++
      (List.range n).map (fun i => (h.f (prStat p) 27 16 + i) % h.pfCap p) ∧
    ((h.pushN p n).prof p).cur = (h.prof p).cur := by
  have hne := prCred_ne_prStat (p := p) (q := p) hp
  have hc : h.credits p < 8192 := fld_lt _ _ _
  have hcred : (h.pushN p n).reg (prCred p) =
      putFld (putFld (h.reg (prCred p)) 12 0 (h.credits p - n)) 28 16 (h.queued p + n) := by
    rw [Hw.pushN, Hw.reg_setProf, Hw.reg_setF_ne _ hne, Hw.reg_setF_same, Hw.reg_setF_same]
  have hstat : (h.pushN p n).reg (prStat p) =
      putFld (h.reg (prStat p)) 27 16 ((h.f (prStat p) 27 16 + n) % h.pfCap p) := by
    rw [Hw.pushN, Hw.reg_setProf, Hw.reg_setF_same, Hw.reg_setF_ne _ hne.symm, Hw.reg_setF_ne _ hne.symm]
  refine ⟨?_, ?_, ?_, ?_, ?_⟩
  · rw [Hw.credits, Hw.f, hcred, fld_putFld_disj _ (by decide) (by decide) _ (by decide)]
    exact fld_putFld_of_lt _ (by decide) (by decide) (by omega)
  · rw [Hw.queued, Hw.f, hcred]
    exact fld_putFld_of_lt _ (by decide) (by decide) (by omega)
  · rw [Hw.f, hstat]
    exact fld_putFld_same _ (by decide) (by decide) _
  · simp [Hw.pushN, Function.comp_def]
  · simp [Hw.pushN]

/-! ### The state of a profile set -/

theorem Hw.reg_setPfState (h : Hw) {p a : Nat} (ha : notWend p a) (st : Nat) :
    (h.setPfState p st).reg a = (h.setF (prStat p) 2 0 st).reg a := by
  obtain ⟨hne, hne4⟩ := ha
  unfold Hw.setPfState Hw.when
  split
  · rw [Hw.reg_setReg64_ne _ hne hne4]
  · rfl

@[simp] theorem Hw.prof_setPfState (h : Hw) (p st q : Nat) : (h.setPfState p st).prof q = h.prof q := by
  unfold Hw.setPfState Hw.when
  split
  · rw [Hw.prof_setReg64, Hw.prof_setF]
  · rw [Hw.prof_setF]

@[simp] theorem Hw.reg_requeue (h : Hw) (p a : Nat) : (h.requeue p).reg a = h.reg a := rfl

@[simp] theorem Hw.prof_requeue_same (h : Hw) (p : Nat) : (h.requeue p).prof p =
    { h.prof p with queue := (h.prof p).segs.map (fun s => (s.off, none)) ++ (h.prof p).queue, segs := [], rejoin := none,
                    broken := false } := h.prof_setProf_same p _

/-! ### START (R229) -/

/-- Why START on the profile of SEL is refused, or 0. -/
def Hw.startRefusal (h : Hw) : Nat :=
  if h.pfState h.pfSel ≠ 1 then 1
  else if h.pfSrc h.pfSel ≠ 0 then 5
  else if h.queued h.pfSel = 0 then 3
  else if h.bit (ck rREADY) 2 = false then 4
  else if (h.reg64 (prfWin h.pfSel 0x090)).toNat < h.nextInstantFrom then 2
  else 0

theorem Hw.startRefusal_none (h : Hw) (hst : h.pfState h.pfSel = 1) (hsrc : h.pfSrc h.pfSel = 0)
    (hq : h.queued h.pfSel ≠ 0) (hready : h.bit (ck rREADY) 2 = true)
    (hT : h.nextInstantFrom ≤ (h.reg64 (prfWin h.pfSel 0x090)).toNat) :
    h.startRefusal = 0 := by
  simp [Hw.startRefusal, hst, hsrc, hq, hready, hT]

theorem Hw.startRefusal_lt (h : Hw) : h.startRefusal < 8 := by
  unfold Hw.startRefusal
  repeat' split
  all_goals decide

theorem Hw.cmdStart_eq (h : Hw) (m : Mem) : h.cmdStart m =
    if h.startRefusal = 0 then h.startProf m h.pfSel (h.reg64 (prfWin h.pfSel 0x090)).toNat
    else h.cmdRefuse h.startRefusal := by
  unfold Hw.cmdStart Hw.startRefusal ck
  dsimp only
  by_cases hst : h.pfState h.pfSel = 1
  case neg => simp [hst]
  by_cases hsrc : h.pfSrc h.pfSel = 0
  case neg => simp [hst, hsrc]
  by_cases hq : h.queued h.pfSel = 0
  case pos => simp [hst, hsrc, hq]
  by_cases hready : h.bit (ra pCLK rREADY) 2 = true
  case neg => simp [hst, hsrc, hq, hready]
  by_cases hT : (h.reg64 (prfWin h.pfSel 0x090)).toNat < h.nextInstantFrom
  case pos => simp [hst, hsrc, hq, hready, hT]
  simp [hst, hsrc, hq, hready, hT]

/-- Profile f stands armed for t0 at the position x it holds. -/
def Hw.ArmedAt (h : Hw) (f t0 : Nat) (x : Word64) : Prop :=
  h.f (prStat f) 2 0 = 2 ∧ (h.prof f).cur = some (virtSeg t0 x)

theorem Hw.reg_armFollow (h : Hw) (f t0 a : Nat) : (h.armFollow f t0).reg a = (h.setF (prStat f) 2 0 2).reg a := by
  simp [Hw.armFollow, Hw.setPfState, Hw.when]
  rfl

theorem Hw.prof_armFollow_ne (h : Hw) {f q : Nat} (hq : q ≠ f) (t0 : Nat) : (h.armFollow f t0).prof q = h.prof q := by
  simp [Hw.armFollow, Hw.prof_setProf_ne _ hq, Hw.requeue]

theorem Hw.prof_armFollow_same (h : Hw) (f t0 : Nat) : (h.armFollow f t0).prof f =
    { (h.requeue f).prof f with cur := some (virtSeg t0 (h.prof f).held) } := by
  simp [Hw.armFollow]

theorem Hw.armFollow_arms (h : Hw) (f t0 : Nat) : (h.armFollow f t0).ArmedAt f t0 (h.prof f).held := by
  refine ⟨?_, by rw [Hw.prof_armFollow_same]⟩
  rw [Hw.f, Hw.reg_armFollow, Hw.reg_setF_same]
  exact fld_putFld_of_lt _ (by decide) (by decide) (by decide)

@[simp] theorem Hw.held_armFollow (h : Hw) (f t0 q : Nat) : ((h.armFollow f t0).prof q).held = (h.prof q).held := by
  by_cases hq : q = f
  · subst hq
    simp [Hw.prof_armFollow_same]
  · rw [Hw.prof_armFollow_ne _ hq]

/-- Arming a group leaves the other profiles' working state. -/
theorem Hw.prof_each_armFollow (h : Hw) {l : List Nat} {q : Nat} (hq : q ∉ l) (t0 : Nat) :
    (h.each l fun h f => h.armFollow f t0).prof q = h.prof q := by
  unfold Hw.each
  induction l generalizing h with
  | nil => rfl
  | cons f l ih =>
    rw [List.foldl_cons, ih _ (List.not_mem_of_not_mem_cons hq), Hw.prof_armFollow_ne _ (List.ne_of_not_mem_cons hq)]

/-- Arming a group leaves every register but the group's PSTAT. -/
theorem Hw.reg_each_armFollow (h : Hw) {l : List Nat} {a : Nat} (ha : ∀ f ∈ l, a ≠ prStat f) (t0 : Nat) :
    (h.each l fun h f => h.armFollow f t0).reg a = h.reg a := by
  unfold Hw.each
  induction l generalizing h with
  | nil => rfl
  | cons f l ih =>
    rw [List.foldl_cons, ih _ fun x hx => ha x (List.mem_cons_of_mem _ hx), Hw.reg_armFollow,
      Hw.reg_setF_ne _ (ha f List.mem_cons_self)]

/-- Arming a group leaves the other profiles as they are armed, or not. -/
theorem Hw.armedAt_each_armFollow (h : Hw) {l : List Nat} {q : Nat} (hq : q ∉ l) (t0 t : Nat) (x : Word64) :
    (h.each l fun h f => h.armFollow f t0).ArmedAt q t x ↔ h.ArmedAt q t x := by
  have hreg := h.reg_each_armFollow (l := l) (a := prStat q) (fun f hf => prStat_inj fun e => hq (e ▸ hf)) t0
  simp only [Hw.ArmedAt, Hw.f, hreg, h.prof_each_armFollow hq]

/-- Every profile of a group is armed at its own position. -/
theorem Hw.each_armFollow_arms (h : Hw) {l : List Nat} {f : Nat} (hf : f ∈ l) (t0 : Nat) :
    (h.each l fun h f => h.armFollow f t0).ArmedAt f t0 (h.prof f).held := by
  induction l generalizing h with
  | nil => exact absurd hf List.not_mem_nil
  | cons g l ih =>
    by_cases hl : f ∈ l
    · exact h.held_armFollow g t0 f ▸ ih (h.armFollow g t0) hl
    · obtain rfl : f = g := (List.mem_cons.1 hf).resolve_right hl
      exact (Hw.armedAt_each_armFollow (h.armFollow f t0) hl t0 t0 _).2 (h.armFollow_arms f t0)

/-- The idle followers of a leader. -/
def Hw.idleFollowers (h : Hw) (p : Nat) : List Nat :=
  (List.range 136).filter fun f => h.pfEn f && h.pfSrc f == 1 && h.pfLeader f == p && h.pfState f == 1

/-- A leader armed with its idle followers. -/
def Hw.armGroup (h : Hw) (p t0 : Nat) : Hw :=
  let k := h.armFollow p t0
  k.each (k.idleFollowers p) fun h f => h.armFollow f t0

/-- An accepted START arms the group; a master's sends and its M_WEND come to that. -/
theorem Hw.startProf_group (h : Hw) (m : Mem) (p t0 : Nat) :
    (h.startProf m p t0).prf = (h.armGroup p t0).prf ∧
    ∀ a, notWend p a → (h.startProf m p t0).reg a = (h.armGroup p t0).reg a := by
  unfold Hw.startProf
  extract_lets req held lead fs group sum sends nsw
  have hgroup : group = h.armGroup p t0 := rfl
  rw [← hgroup]
  split
  · exact ⟨Hw.setReg64_prf _ _ _, fun a ⟨hne, hne4⟩ => Hw.reg_setReg64_ne _ hne hne4 _⟩
  · exact ⟨rfl, fun a _ => rfl⟩

theorem Hw.mem_idleFollowers {h : Hw} {p : Nat} (f : Fin 136) (hen : h.pfEn f = true) (hsrc : h.pfSrc f = 1)
    (hlead : h.pfLeader f = p) (hst : h.pfState f = 1) : f.val ∈ h.idleFollowers p :=
  List.mem_filter.2 ⟨List.mem_range.2 f.isLt, by simp [hen, hsrc, hlead, hst]⟩

theorem Hw.src_of_mem_idleFollowers {h : Hw} {p f : Nat} (hf : f ∈ h.idleFollowers p) : f < 136 ∧ h.pfSrc f = 1 := by
  obtain ⟨hlt, hc⟩ := List.mem_filter.1 hf
  simp only [Bool.and_eq_true, beq_iff_eq] at hc
  exact ⟨List.mem_range.1 hlt, hc.1.1.2⟩

section
variable {h : Hw} {p : Nat} (hp : p < 256)
include hp

theorem Hw.reg_armFollow_win (t0 q off : Nat) : (h.armFollow p t0).reg (prfWin q off) = h.reg (prfWin q off) := by
  rw [Hw.reg_armFollow, Hw.reg_setF_ne _ (prfWin_ne_prStat hp)]

theorem Hw.pfState_armFollow_ne {q : Nat} (hq : q ≠ p) (t0 : Nat) : (h.armFollow p t0).pfState q = h.pfState q := by
  refine Hw.pfState_congr (Hw.reg_armFollow_win hp t0 q _) ?_ fun u => ?_
  · rw [Hw.reg_armFollow, Hw.reg_setF_ne _ (prStat_inj hq)]
  · rw [Hw.reg_armFollow, Hw.reg_setF_ne _ (gear_ne_prStat hp)]

/-- START of a recipe leader arms it and each of its idle followers at the position it holds, and leaves its ledger. -/
theorem Hw.startProf_shows (m : Mem) (t0 : Nat) (hst : h.pfState p = 1) (hsrc : h.pfSrc p = 0)
    (hsegs : (h.prof p).segs = []) :
    let k := h.startProf m p t0
    k.pfState p = 2 ∧ (k.prof p).cur = some (virtSeg t0 (h.prof p).held) ∧ (k.prof p).queue = (h.prof p).queue ∧
    k.reg (prCred p) = h.reg (prCred p) ∧ ∀ f : Fin 136, h.pfEn f = true ∧ h.pfSrc f = 1 ∧ h.pfLeader f = p ∧
      h.pfState f = 1 → k.pfState f = 2 ∧ (k.prof f).cur = some (virtSeg t0 (h.prof f).held) := by
  obtain ⟨hprf, hreg⟩ := h.startProf_group m p t0
  have hcfg : ∀ q, (h.armFollow p t0).pfCfg q = h.pfCfg q := fun q => Hw.reg_armFollow_win hp t0 q _
  have hlt : ∀ f ∈ (h.armFollow p t0).idleFollowers p, f < 256 := fun f hf => by
    have := (Hw.src_of_mem_idleFollowers hf).1
    omega
  have hlead : p ∉ (h.armFollow p t0).idleFollowers p := fun hf => by
    have h1 := (Hw.src_of_mem_idleFollowers hf).2
    rw [Hw.pfSrc, hcfg, ← Hw.pfSrc] at h1
    omega
  have hwin : ∀ q, (h.startProf m p t0).reg (prfWin q 0x080) = h.reg (prfWin q 0x080) := fun q => by
    rw [hreg _ (notWend_prfWin hp), Hw.armGroup, Hw.reg_each_armFollow _ fun f hf => prfWin_ne_prStat (hlt f hf)]
    exact Hw.reg_armFollow_win hp t0 q _
  have hprof : (h.startProf m p t0).prof p = (h.armFollow p t0).prof p :=
    (Hw.prof_of_prf hprf p).trans (Hw.prof_each_armFollow _ hlead t0)
  have armed : ∀ {q x}, q < 256 → (h.armGroup p t0).ArmedAt q t0 x → (h.startProf m p t0).ArmedAt q t0 x :=
    fun hq ha => ⟨(congrArg (fld · 2 0) (hreg _ (notWend_prStat hq))).trans ha.1, by rw [Hw.prof_of_prf hprf]; exact ha.2⟩
  obtain ⟨hstat, hcur⟩ := armed hp ((Hw.armedAt_each_armFollow _ hlead t0 t0 _).2 (h.armFollow_arms p t0))
  refine ⟨?_, hcur, ?_, ?_, fun f ⟨hen, hfsrc, hflead, hfst⟩ => ?_⟩
  · exact Hw.pfState_of_set (hwin p) (Hw.pfEn_of_pfState (by omega)) (by omega) hstat
  · rw [hprof, Hw.prof_armFollow_same, Hw.prof_requeue_same, hsegs]
    rfl
  · rw [hreg _ (notWend_prCred hp), Hw.armGroup, Hw.reg_each_armFollow _ fun f _ => prCred_ne_prStat hp, Hw.reg_armFollow,
      Hw.reg_setF_ne _ (prCred_ne_prStat hp)]
  · have hne : f.val ≠ p := fun e => by rw [e] at hfsrc; omega
    have hmem : f.val ∈ (h.armFollow p t0).idleFollowers p := by
      refine Hw.mem_idleFollowers f ?_ ?_ ?_ ((Hw.pfState_armFollow_ne hp hne t0).trans hfst)
      · rw [Hw.pfEn, hcfg]; exact hen
      · rw [Hw.pfSrc, hcfg]; exact hfsrc
      · rw [Hw.pfLeader, hcfg]; exact hflead
    obtain ⟨hfstat, hfcur⟩ := armed (by omega) (Hw.each_armFollow_arms (h.armFollow p t0) hmem t0)
    exact ⟨Hw.pfState_of_set (hwin f) hen (by omega) hfstat, by rw [hfcur, Hw.held_armFollow]⟩

/-- START that nothing refuses, on the profile of SEL. -/
theorem Hw.cmdStart_shows (hsel : h.pfSel = p) (m : Mem) (hst : h.pfState p = 1) (hsrc : h.pfSrc p = 0) (hq : h.queued p ≠ 0)
    (hready : h.bit (ck rREADY) 2 = true) {t0 : Nat} (ht0 : (h.reg64 (prfWin p 0x090)).toNat = t0)
    (hT : h.nextInstantFrom ≤ t0) (hsegs : (h.prof p).segs = []) :
    let k := h.cmdStart m
    k.pfState p = 2 ∧ (k.prof p).cur = some (virtSeg t0 (h.prof p).held) ∧ (k.prof p).queue = (h.prof p).queue ∧
    k.reg (prCred p) = h.reg (prCred p) ∧ ∀ f : Fin 136, h.pfEn f = true ∧ h.pfSrc f = 1 ∧ h.pfLeader f = p ∧
      h.pfState f = 1 → k.pfState f = 2 ∧ (k.prof f).cur = some (virtSeg t0 (h.prof f).held) := by
  subst hsel ht0
  rw [Hw.cmdStart_eq, if_pos (h.startRefusal_none hst hsrc hq hready hT)]
  exact Hw.startProf_shows hp m _ hst hsrc hsegs

/-! ### FLUSH (R229) -/

omit hp in
theorem Hw.leaveGroup_idle (h2 : h.pfState p ≠ 2) (h3 : h.pfState p ≠ 3) : h.leaveGroup p = h := if_neg (by omega)

omit hp in
/-- FLUSH of a master clears what its feeds left in the LSH page. -/
theorem Hw.masterFlush_keeps (h : Hw) {mm : Nat} (hm : mm < 128) :
    (h.masterFlush mm).prf = h.prf ∧ ∀ a, a < 0xA000 ∨ 0xB000 ≤ a → (h.masterFlush mm).reg a = h.reg a := by
  refine ⟨rfl, fun a ha => ?_⟩
  have h1 : a ≠ mStat mm := by unfold mStat ra pLSH; omega
  have h2 : a ≠ mWend mm := by unfold mWend ra pLSH; omega
  have h3 : a ≠ mWend mm + 4 := by unfold mWend ra pLSH; omega
  rw [Hw.masterFlush, Hw.reg_setReg64_ne _ h2 h3, Hw.reg_setF_ne _ h1, Hw.reg_setBit_ne _ h1, Hw.reg_setBit_ne _ h1]
  rfl

/-- FLUSH of one profile outside the LSH page. -/
theorem Hw.flushOne_keeps : (h.flushOne p).prf = (h.flushQueue p).prf ∧ ∀ a, a < 0xA000 ∨ 0xB000 ≤ a →
    (h.flushOne p).reg a = ((h.flushQueue p).setF (prStat p) 2 0 1).reg a := by
  have hwend : ∀ a, a < 0xA000 ∨ 0xB000 ≤ a → notWend p a := fun a ha => by unfold notWend mWend ra pLSH; omega
  have hset : ((h.flushQueue p).setPfState p 1).prf = (h.flushQueue p).prf := by
    unfold Hw.setPfState Hw.when
    split <;> rfl
  unfold Hw.flushOne
  dsimp only
  split
  · obtain ⟨hprf, hreg⟩ := Hw.masterFlush_keeps ((h.flushQueue p).setPfState p 1) (mm := p - 128) (by omega)
    exact ⟨hprf.trans hset, fun a ha => (hreg a ha).trans (Hw.reg_setPfState _ (hwend a ha) 1)⟩
  · exact ⟨hset, fun a ha => Hw.reg_setPfState _ (hwend a ha) 1⟩

/-- A profile that stands or has failed gives its queue back, keeps its position and is IDLE. -/
theorem Hw.flushOne_shows (hst : h.pfState p = 1 ∨ h.pfState p = 4) (hsrc : h.pfSrc p ≠ 2)
    (hsum : h.credits p + h.queued p < 8192) :
    let k := h.flushOne p
    k.pfState p = 1 ∧ k.queued p = 0 ∧ k.credits p = h.credits p + h.queued p ∧ (k.prof p).queue = [] ∧
    (k.prof p).segs = [] ∧ (k.prof p).held = (h.prof p).held := by
  obtain ⟨hprf, hreg⟩ := Hw.flushOne_keeps (h := h) hp
  have hleave : h.leaveGroup p = h := Hw.leaveGroup_idle (by omega) (by omega)
  have hprof : ((h.flushOne p).prof p) = { h.prof p with queue := [], segs := [], cur := none, unret := [], rejoin := none,
                                                          broken := false } := by
    rw [Hw.prof_of_prf hprf, Hw.flushQueue, hleave]
    exact Hw.prof_setProf_same _ p _
  have hcred : (h.flushOne p).reg (prCred p) =
      putFld (putFld (h.reg (prCred p)) 12 0 (h.credits p + h.queued p)) 28 16 0 := by
    rw [hreg _ (by unfold prCred ra pPRF; omega), Hw.reg_setF_ne _ (prCred_ne_prStat hp), Hw.flushQueue, hleave,
      Hw.reg_setProf, Hw.reg_setF_same, Hw.reg_setF_same]
  refine ⟨?_, ?_, ?_, by rw [hprof], by rw [hprof], by rw [hprof]⟩
  · refine Hw.pfState_of_set ?_ (Hw.pfEn_of_pfState (by omega)) hsrc ?_
    · rw [hreg _ (by unfold prfWin; omega), Hw.reg_setF_ne _ (prfWin_ne_prStat hp), Hw.flushQueue, hleave, Hw.reg_setProf,
        Hw.reg_setF_ne _ (prfWin_ne_prCred hp), Hw.reg_setF_ne _ (prfWin_ne_prCred hp)]
    · rw [Hw.f, hreg _ (by unfold prStat ra pPRF; omega), Hw.reg_setF_same]
      exact fld_putFld_of_lt _ (by decide) (by decide) (by decide)
  · rw [Hw.queued, Hw.f, hcred]
    exact fld_putFld_of_lt _ (by decide) (by decide) (by decide)
  · rw [Hw.credits, Hw.f, hcred, fld_putFld_disj _ (by decide) (by decide) _ (by decide)]
    exact fld_putFld_of_lt _ (by decide) (by decide) hsum

omit hp in
/-- FLUSH of the profile of SEL where it stands or has failed. -/
theorem Hw.cmdFlush_standing (hsel : h.pfSel = p) (hst : h.pfState p = 1 ∨ h.pfState p = 4) :
    h.cmdFlush = h.flushOne p := by
  unfold Hw.cmdFlush
  dsimp only
  rw [hsel, if_pos (by omega), if_neg (by omega)]

end

theorem Hw.cmdFlush_refused {h : Hw} (h1 : h.pfState h.pfSel ≠ 1) (h2 : h.pfState h.pfSel ≠ 2) (h4 : h.pfState h.pfSel ≠ 4) :
    h.cmdFlush = h.cmdRefuse 1 := if_neg (by omega)

/-! ### LOAD (R229) -/

/-- LOAD sets the held position, and leaves the queue and every state. -/
theorem Hw.loadHeld_shows (h : Hw) (p : Nat) (x : Word64) :
    ((h.loadHeld p x).prof p).held = x ∧ ((h.loadHeld p x).prof p).queue = (h.prof p).queue ∧
    ∀ q, (h.loadHeld p x).pfState q = h.pfState q := by
  have hprf : (h.loadHeld p x).prf = (h.setProf p { h.prof p with held := x, loaded := true }).prf := by
    unfold Hw.loadHeld Hw.noteHeld Hw.notePath
    split <;> rfl
  have hregs : (h.loadHeld p x).regs = h.regs := by
    unfold Hw.loadHeld Hw.noteHeld Hw.notePath
    split <;> rfl
  rw [Hw.prof_of_prf hprf, Hw.prof_setProf_same]
  exact ⟨rfl, rfl, fun q => Hw.pfState_congr (Hw.reg_of_regs hregs _) (Hw.reg_of_regs hregs _) fun _ =>
    Hw.reg_of_regs hregs _⟩

/-- LOAD of the profile of SEL where it stands or has failed. -/
theorem Hw.cmdLoad_standing {h : Hw} {p : Nat} (hsel : h.pfSel = p) (hst : h.pfState p = 1 ∨ h.pfState p = 4) :
    h.cmdLoad = h.loadHeld p (h.reg64 (prfWin p 0x098)) := by
  subst hsel
  exact if_pos hst

theorem Hw.cmdLoad_refused {h : Hw} (h1 : h.pfState h.pfSel ≠ 1) (h4 : h.pfState h.pfSel ≠ 4) : h.cmdLoad = h.cmdRefuse 1 :=
  if_neg (by omega)

/-! ### CLEAR (R229) -/

/-- A profile taken from ERROR to IDLE, before it joins a leader that stands armed. -/
def Hw.cleared (h : Hw) (p : Nat) : Hw := ((h.requeue p).setPfState p 1).setF (prStat p) 11 8 0

/-- No armed leader, none to join. -/
theorem Hw.joinArmed_alone {h : Hw} {f : Nat} (ha : h.pfSrc f = 0 ∨ h.pfState (h.pfLeader f) ≠ 2) : h.joinArmed f = h := by
  unfold Hw.joinArmed
  dsimp only
  split
  · exact if_neg (by omega)
  · rfl

section
variable {h : Hw} {p : Nat} (hp : p < 136)
include hp

omit hp in
theorem Hw.reg_cleared {a : Nat} (ha : notWend p a) (hs : a ≠ prStat p) : (h.cleared p).reg a = h.reg a := by
  rw [Hw.cleared, Hw.reg_setF_ne _ hs, Hw.reg_setPfState _ ha, Hw.reg_setF_ne _ hs, Hw.reg_requeue]

theorem Hw.stat_cleared : (h.cleared p).reg (prStat p) = putFld (putFld (h.reg (prStat p)) 2 0 1) 11 8 0 := by
  rw [Hw.cleared, Hw.reg_setF_same, Hw.reg_setPfState _ (notWend_prStat (by omega)), Hw.reg_setF_same, Hw.reg_requeue]

theorem Hw.pfCfg_cleared (q : Nat) : (h.cleared p).pfCfg q = h.pfCfg q :=
  Hw.reg_cleared (notWend_prfWin (by omega)) (prfWin_ne_prStat (by omega))

theorem Hw.pfState_cleared_ne {q : Nat} (hq : q < 256) (hne : q ≠ p) : (h.cleared p).pfState q = h.pfState q :=
  Hw.pfState_congr (Hw.pfCfg_cleared hp q) (Hw.reg_cleared (notWend_prStat hq) (prStat_inj hne)) fun _ =>
    Hw.reg_cleared (notWend_gear hp) (gear_ne_prStat (by omega))

theorem Hw.pfState_cleared_same (hst : h.pfState p = 4) : (h.cleared p).pfState p = 1 := by
  refine Hw.pfState_of_set (Hw.pfCfg_cleared hp p) (Hw.pfEn_of_pfState (by omega)) (Hw.pfSrc_of_failed hst) ?_
  rw [Hw.f, Hw.stat_cleared hp, fld_putFld_disj _ (by decide) (by decide) _ (by decide)]
  exact fld_putFld_of_lt _ (by decide) (by decide) (by decide)

/-- CLEAR of a failed profile that no armed leader waits for. -/
theorem Hw.cmdClear_alone (hsel : h.pfSel = p) (hst : h.pfState p = 4)
    (ha : h.pfSrc p = 0 ∨ h.pfState (h.pfLeader p) ≠ 2) : h.cmdClear = h.cleared p := by
  unfold Hw.cmdClear
  dsimp only
  rw [hsel, if_pos hst]
  have hlead : (h.cleared p).pfLeader p = h.pfLeader p := congrArg (fld · 15 8) (Hw.pfCfg_cleared hp p)
  have hsrc : (h.cleared p).pfSrc p = h.pfSrc p := congrArg (fld · 2 1) (Hw.pfCfg_cleared hp p)
  refine Hw.joinArmed_alone (h := h.cleared p) (ha.imp (fun h0 => hsrc.trans h0) fun h2 => ?_)
  · rw [hlead]
    by_cases hne : h.pfLeader p = p
    · rw [hne, Hw.pfState_cleared_same hp hst]
      decide
    · rwa [Hw.pfState_cleared_ne (q := h.pfLeader p) hp (fld_lt _ 15 8) hne]

/-- A cleared profile is IDLE without its code, and what it had read is queued again. -/
theorem Hw.cleared_shows (hst : h.pfState p = 4) :
    let k := h.cleared p
    k.pfState p = 1 ∧ k.f (prStat p) 11 8 = 0 ∧ (k.prof p).segs = [] ∧
    (k.prof p).queue.map (·.1) = (h.prof p).segs.map (·.off) ++ (h.prof p).queue.map (·.1) ∧
    (k.prof p).held = (h.prof p).held := by
  have hprof : (h.cleared p).prof p = (h.requeue p).prof p := by simp [Hw.cleared]
  rw [Hw.prof_requeue_same] at hprof
  refine ⟨Hw.pfState_cleared_same hp hst, ?_, congrArg (·.segs) hprof, ?_, congrArg (·.held) hprof⟩
  · rw [Hw.f, Hw.stat_cleared hp]
    exact fld_putFld_of_lt _ (by decide) (by decide) (by decide)
  · rw [hprof]
    simp [Function.comp_def]

end

theorem Hw.cmdClear_refused {h : Hw} (h4 : h.pfState h.pfSel ≠ 4) : h.cmdClear = h.cmdRefuse 1 := if_neg h4

/-! ### SEGMENT_RETIRE (R228) -/

/-- The segment that waits longest retires once CT has reached its end: its credit is owed. -/
theorem Hw.retire_due {h : Hw} {p fin : Nat} {rest : List Nat} (hu : (h.prof p).unret = fin :: rest)
    (hct : fin ≤ h.ctGrains h.grain) (howed : h.bit (prCred p) 15 = false) :
    (h.retire p).queued p = h.queued p - 1 ∧ (h.retire p).bit (prCred p) 15 = true ∧
    ((h.retire p).prof p).unret = rest ∧ ((h.retire p).prof p).retGrain = h.grain ∧ (h.retire p).credits p = h.credits p := by
  have hq : h.queued p < 8192 := fld_lt _ _ _
  have hret : h.creditReturn p h.grain = h := if_neg (by simp [howed])
  have hrun : h.retire p = ((h.setF (prCred p) 28 16 (h.queued p - 1)).setBit (prCred p) 15 true).setProf p
      { h.prof p with unret := rest, retGrain := h.grain } := by
    unfold Hw.retire
    dsimp only
    rw [hu]
    dsimp only
    rw [if_pos hct, hret]
    rfl
  have hcred : (h.retire p).reg (prCred p) = putFld (putFld (h.reg (prCred p)) 28 16 (h.queued p - 1)) 15 15 1 := by
    rw [hrun, Hw.reg_setProf, Hw.reg_setBit_same, Hw.reg_setF_same]
    rfl
  refine ⟨?_, ?_, ?_, ?_, ?_⟩
  · rw [Hw.queued, Hw.f, hcred, fld_putFld_disj _ (by decide) (by decide) _ (by decide)]
    exact fld_putFld_of_lt _ (by decide) (by decide) (by omega)
  · rw [Hw.bit, hcred, bitOf_putFld_same _ (by decide)]
    rfl
  · rw [hrun, Hw.prof_setProf_same]
  · rw [hrun, Hw.prof_setProf_same]
  · rw [Hw.credits, Hw.f, hcred, fld_putFld_disj _ (by decide) (by decide) _ (by decide),
      fld_putFld_disj _ (by decide) (by decide) _ (by decide)]
    rfl

/-- Nothing retires before CT has reached the end of the segment that waits longest. -/
theorem Hw.retire_early {h : Hw} {p : Nat}
    (hu : (h.prof p).unret = [] ∨ (h.prof p).unret.head?.any (fun e => decide (h.ctGrains h.grain < e)) = true) :
    h.retire p = h := by
  unfold Hw.retire
  dsimp only
  split
  · next e rest heq =>
    have hlt : h.ctGrains h.grain < e := by simpa [heq] using hu
    exact if_neg (by omega)
  · rfl

end Sys2Proof.Machine

namespace Sys2Proof
open Machine

/-! ### A software write to the PRF page -/

/-- The module k stands for the profile commands as h does in grain g: it reads as h outside the log, and holds the same
working state of the profiles, the same time base, and the same boundary in its PCLK cycle. -/
structure ProfilesAs (g : Nat) (k h : Hw) : Prop where
  reads : ReadsAs k h
  prf : k.prf = h.prf
  clk : k.clk = h.clk
  boundary : k.boundaryGrain = (h.at g).boundaryGrain

/-- A software write to PRF, which is not locked, with mirroring off: its effect finds the profiles as they were. -/
theorem gives_profileWrite {s : State} {g off : Nat} {v : Word} {f : Mem → Hw → Hw} {P : State → Prop} (hl : Live s)
    (hu : Unlocked s pPRF) (hm : s.hw.mirrorOn = false) (hP : ∀ k, ProfilesAs g k s.hw →
      P { s with hw := (f s.mem k).seal (max s.hw.grain g), mem := s.mem.after (f s.mem k) }) :
    ∃ t, run g (fun m h => h.swMirror pPRF off v (f m)) s = .next t ∧ P t := by
  refine gives_write (f := fun m h => if h.mirrorOn && h.mode == 4 then h.evt pPAIR 10
    else if h.mirrorOn && h.bit (pr rSTAT) 0 then h.mirrorPut (0x40000000 + ra pPRF off) [v] else f m h) hl (by decide) hu
    fun k hk => ?_
  have hreads : ReadsAs k.atWrite s.hw := ⟨fun a ha => hk.reg ha, hk.shd, fun a => congrArg (tabGet (regReset a) a) hk.pend,
    congrArg (·.phase) hk.acq⟩
  have hoff : k.atWrite.mirrorOn = false := by
    rw [Hw.mirrorOn, pr, pr, hreads.bit three_le_pPAIR, hreads.bit three_le_pPAIR]
    exact hm
  have hcyc : k.atWrite.grain / 5 = (s.hw.at g).grain / 5 := k.atWrite_cycle.trans (congrArg (· / 5) hk.grain)
  simp only [hoff, Bool.false_and, Bool.false_eq_true, if_false]
  exact hP _ ⟨hreads, hk.prf, hk.clk, Hw.boundaryGrain_congr hk.clk hcyc⟩

namespace ProfilesAs

variable {g : Nat} {k h : Hw} (hk : ProfilesAs g k h)
include hk

theorem prof (p : Nat) : k.prof p = h.prof p := Hw.prof_of_prf hk.prf p
theorem pfSel : k.pfSel = h.pfSel := hk.reads.f three_le_pPRF 7 0
theorem pfEn (p : Nat) : k.pfEn p = h.pfEn p := congrArg (bitOf · 0) (hk.reads.pfCfg p)
theorem pfSrc (p : Nat) : k.pfSrc p = h.pfSrc p := congrArg (fld · 2 1) (hk.reads.pfCfg p)
theorem pfLeader (p : Nat) : k.pfLeader p = h.pfLeader p := congrArg (fld · 15 8) (hk.reads.pfCfg p)
theorem pfState (p : Nat) : k.pfState p = h.pfState p := hk.reads.pfState p
theorem pfCap (p : Nat) : k.pfCap p = h.pfCap p := congrArg (fld · 28 16) (hk.reads.win p 0x084)
theorem cred (p : Nat) : k.reg (prCred p) = h.reg (prCred p) := hk.reads.page three_le_pPRF
theorem credits (p : Nat) : k.credits p = h.credits p := congrArg (fld · 12 0) (hk.cred p)
theorem queued (p : Nat) : k.queued p = h.queued p := congrArg (fld · 28 16) (hk.cred p)
theorem stat (p hi lo : Nat) : k.f (prStat p) hi lo = h.f (prStat p) hi lo := hk.reads.f three_le_pPRF hi lo
theorem win64 (p off : Nat) (ho : 0x080 ≤ off) : k.reg64 (prfWin p off) = h.reg64 (prfWin p off) :=
  Hw.reg64_congr (hk.reads.win p off) (by
    rw [show prfWin p off + 4 = prfWin p (off + 4) by unfold prfWin; omega]; exact hk.reads.win p _)
theorem nextInstantFrom : k.nextInstantFrom = (h.at g).nextInstantFrom := by
  simp only [Hw.nextInstantFrom, Hw.boundaryInCycle, hk.boundary, hk.clk, hk.reads.batch]
  rfl

theorem ready : k.bit (ck rREADY) 2 = h.bit (ck rREADY) 2 :=
  congrArg (bitOf · 2) (hk.reads.reg _ (not_inLog_page (by decide) (by decide)))

/-- START is refused for the reason that the state before shows. -/
theorem startRefusal : k.startRefusal = (h.at g).startRefusal := by
  simp only [Hw.startRefusal, hk.pfSel, hk.pfState, hk.pfSrc, hk.queued, hk.ready, hk.nextInstantFrom,
    hk.win64 _ _ (show 0x080 ≤ 0x090 by decide)]
  rfl

/-- A push to an enabled recipe profile in a cycle without a boundary. -/
theorem push_recipe {p : Nat} (hp : p < 128) (hen : h.pfEn p = true) (hsrc : h.pfSrc p ≠ 2)
    (hb : (h.at g).boundaryInCycle = false) (n : Nat) :
    k.push p n = if n = 0 ∨ h.credits p < n then k.pushRefuse p 1 else k.pushN p n := by
  have hnone := Option.not_isSome_iff_eq_none.1 (Bool.eq_false_iff.1 hb)
  rw [← hk.credits]
  exact Hw.push_recipe hp ((hk.pfEn p).trans hen) (ne_of_eq_of_ne (hk.pfSrc p) hsrc) (hk.boundary.trans hnone) n

end ProfilesAs

/-- A push that is refused: PUSH_REF and EVT show it, and the profile stands as it was. -/
theorem gives_pushRefusal {s : State} {g reason : Nat} {v : Word} (hl : Live s) (hu : Unlocked s pPRF)
    (hm : s.hw.mirrorOn = false) (hr : reason < 4)
    (he : ∀ k, ProfilesAs g k s.hw → k.push (fld v 23 16) (fld v 12 0) = k.pushRefuse (fld v 23 16) reason) :
    Gives (.push g v) s fun t => t.hw.f (ra pPRF 0x048) 1 0 = reason ∧ t.hw.f (ra pPRF 0x048) 23 16 = fld v 23 16 ∧
      t.hw.bit (ra pPRF rEVT) 1 = true ∧ t.hw.prof (fld v 23 16) = s.hw.prof (fld v 23 16) ∧
      t.hw.reg (prCred (fld v 23 16)) = s.hw.reg (prCred (fld v 23 16)) := by
  refine gives_profileWrite (f := fun _ h => h.push (fld v 23 16) (fld v 12 0)) hl hu hm fun k hk => ?_
  obtain ⟨hreason, hname, hevt, hprof, hcred⟩ := k.pushRefuse_shows (p := fld v 23 16) (fld_lt v 23 16) hr (fld v 23 16)
  simp only [he k hk]
  exact ⟨hreason, hname, hevt, hprof.trans (hk.prof _), hcred.trans (hk.cred _)⟩

/-- A command on the profile of SEL that is refused: CMD_REF and EVT show it, and every profile stands as it was. -/
theorem gives_cmdRefusal {s : State} {g reason : Nat} {v : Word} {f : Mem → Hw → Hw} (hl : Live s) (hu : Unlocked s pPRF)
    (hm : s.hw.mirrorOn = false) (hr : reason < 8)
    (he : ∀ k, ProfilesAs g k s.hw → f s.mem k = k.cmdRefuse reason) (q : Nat) :
    ∃ t, run g (fun m h => h.swMirror pPRF 0x04C v (f m)) s = .next t ∧ t.hw.f (ra pPRF 0x050) 2 0 = reason ∧
      t.hw.bit (ra pPRF rEVT) 2 = true ∧ t.hw.prof q = s.hw.prof q ∧ t.hw.pfState q = s.hw.pfState q ∧
      t.hw.reg (prCred q) = s.hw.reg (prCred q) := by
  refine gives_profileWrite hl hu hm fun k hk => ?_
  obtain ⟨hreason, hevt, hprof⟩ := k.cmdRefuse_shows hr q
  simp only [he k hk]
  exact ⟨hreason, hevt, hprof.trans (hk.prof q), (k.pfState_cmdRefuse reason q).trans (hk.pfState q),
    (k.cred_cmdRefuse reason q).trans (hk.cred q)⟩

/-- Settles O42: a refusal is one register and one event; each accepted command shows the ledger, the state and the working
state of its profile, and START those of its idle followers. -/
theorem profileCommands : Obligations.ProfileCommands := by
  intro s g hl
  have hsel : s.hw.pfSel < 256 := fld_lt _ 7 0
  refine ⟨fun v hu hm hp hen hsrc hb h0 hn hq => ?_, fun v hu hm hp hen hsrc hb hn => ?_, fun v hu hm hp hp' => ?_,
    fun v hu hm hp => ?_, fun f hu hm hst hsrc hq hsegs hready hT => ?_, fun why hu hm hwhy h0 => ?_,
    fun hu hm hst hsrc hsum hp => ?_, fun hu hm h1 h2 h4 => ?_, fun hu hm hst => ?_, fun hu hm h1 h4 => ?_,
    fun hu hm hst ha hp => ?_, fun hu hm h4 => ?_, fun p fin rest hun hct howed => ?_, fun p hun => ?_⟩
  · refine gives_profileWrite (f := fun _ h => h.push (fld v 23 16) (fld v 12 0)) hl hu hm fun k hk => ?_
    have hshows := Hw.pushN_shows (h := k) (p := fld v 23 16) (n := fld v 12 0) (by omega) (by rwa [hk.credits])
      (by rwa [hk.queued])
    rw [hk.credits, hk.queued, hk.stat, hk.pfCap, hk.prof] at hshows
    simp only [hk.push_recipe hp hen hsrc hb, if_neg (not_or.2 ⟨h0, Nat.not_lt.2 hn⟩)]
    exact hshows
  · exact gives_pushRefusal hl hu hm (by decide) fun k hk => (hk.push_recipe hp hen hsrc hb _).trans (if_pos hn)
  · obtain ⟨t, e, hreason, hname, hevt, hprof, -⟩ := gives_pushRefusal (g := g) hl hu hm (by decide) fun k _ =>
      Hw.push_master (h := k) hp hp' (fld v 12 0)
    exact ⟨t, e, hreason, hname, hevt, hprof⟩
  · obtain ⟨t, e, hreason, hname, hevt, hprof, -⟩ := gives_pushRefusal (g := g) (v := v) (reason := 2) hl hu hm (by decide)
      fun k hk => hp.elim (fun habove => Hw.push_above habove _) fun ⟨hlt, hunfit⟩ =>
        Hw.push_unfit hlt (by rwa [hk.pfEn, hk.pfSrc]) _
    exact ⟨t, e, hreason, hname, hevt, hprof⟩
  · refine gives_profileWrite (f := fun m h => h.cmdStart m) hl hu hm fun k hk => ?_
    obtain ⟨hstate, hcur, hqueue, hcred, hfol⟩ := Hw.cmdStart_shows hsel hk.pfSel s.mem ((hk.pfState _).trans hst)
      ((hk.pfSrc _).trans hsrc) (by rwa [hk.queued]) (hk.ready.trans hready)
      (congrArg BitVec.toNat (hk.win64 _ 0x090 (by decide))) (hk.nextInstantFrom ▸ hT) (by rwa [hk.prof])
    simp only [hk.prof, hk.cred, hk.pfEn, hk.pfSrc, hk.pfLeader, hk.pfState] at hcur hqueue hcred hfol
    exact ⟨hstate, hcur, hqueue, hcred, hfol f⟩
  · have hreasons : (s.hw.at g).startRefusal = why := hwhy.symm
    obtain ⟨t, e, hreason, hevt, hprof, hst, -⟩ := gives_cmdRefusal (g := g) (v := 1) (f := fun m h => h.cmdStart m) hl hu hm
      (hreasons ▸ Hw.startRefusal_lt _) (fun k hk => by rw [Hw.cmdStart_eq, hk.startRefusal, hreasons, if_neg h0]) s.hw.pfSel
    exact ⟨t, e, hreason, hevt, hst, hprof⟩
  · refine gives_profileWrite (f := fun _ h => h.cmdFlush) hl hu hm fun k hk => ?_
    have hshows := Hw.flushOne_shows (h := k) hsel (by rwa [hk.pfState]) (by rwa [hk.pfSrc]) (by rwa [hk.credits, hk.queued])
    rw [hk.credits, hk.queued, hk.prof] at hshows
    simp only [Hw.cmdFlush_standing hk.pfSel (by rwa [hk.pfState])]
    exact hshows
  · obtain ⟨t, e, hreason, hevt, hprof, -, hcred⟩ := gives_cmdRefusal (g := g) (v := 2) (f := fun _ h => h.cmdFlush) hl hu hm
      (by decide) (fun k hk => Hw.cmdFlush_refused (by rwa [hk.pfSel, hk.pfState]) (by rwa [hk.pfSel, hk.pfState])
        (by rwa [hk.pfSel, hk.pfState])) s.hw.pfSel
    exact ⟨t, e, hreason, hevt, hprof, hcred⟩
  · refine gives_profileWrite (f := fun _ h => h.cmdLoad) hl hu hm fun k hk => ?_
    obtain ⟨hheld, hqueue, hstate⟩ := k.loadHeld_shows s.hw.pfSel (k.reg64 (prfWin s.hw.pfSel 0x098))
    simp only [Hw.cmdLoad_standing hk.pfSel (by rwa [hk.pfState])]
    exact ⟨hheld.trans (hk.win64 _ 0x098 (by decide)), hqueue.trans (congrArg (·.queue) (hk.prof _)),
      (hstate _).trans (hk.pfState _)⟩
  · obtain ⟨t, e, hreason, hevt, hprof, -⟩ := gives_cmdRefusal (g := g) (v := 3) (f := fun _ h => h.cmdLoad) hl hu hm
      (by decide) (fun k hk => Hw.cmdLoad_refused (by rwa [hk.pfSel, hk.pfState]) (by rwa [hk.pfSel, hk.pfState])) s.hw.pfSel
    exact ⟨t, e, hreason, hevt, hprof⟩
  · refine gives_profileWrite (f := fun _ h => h.cmdClear) hl hu hm fun k hk => ?_
    have hfailed := (hk.pfState s.hw.pfSel).trans hst
    have hshows := Hw.cleared_shows hp hfailed
    rw [hk.prof] at hshows
    simp only [Hw.cmdClear_alone hp hk.pfSel hfailed (by rwa [hk.pfSrc, hk.pfLeader, hk.pfState])]
    exact hshows
  · obtain ⟨t, e, hreason, hevt, hprof, -⟩ := gives_cmdRefusal (g := g) (v := 4) (f := fun _ h => h.cmdClear) hl hu hm
      (by decide) (fun k hk => Hw.cmdClear_refused (by rwa [hk.pfSel, hk.pfState])) s.hw.pfSel
    exact ⟨t, e, hreason, hevt, hprof⟩
  · exact gives_run (f := fun _ h => h.retire p) hl (Hw.retire_due (h := s.hw.at g) hun hct howed)
  · exact gives_run_eq (f := fun _ h => h.retire p) hl (Hw.retire_early (h := s.hw.at g) hun) ⟨rfl, rfl⟩

end Sys2Proof

/-! ## A REJOIN that acted ahead of its turn (R244, log entry 4)

In its turn such a REJOIN only takes its note away; the end of the command is that of any other. -/

namespace Sys2Proof
open Machine

/-- A REJOIN that has acted already takes its note away; what the state leaves outstanding is done at the command's end. -/
theorem exec_rejoin_spent {s : State} {g : Nat} {m : BitVec 3} (hl : Live s) (he : s.hw.early = [.rejoin g m]) :
    exec (.rejoin g m) s = .next (afterRun s g fun _ h => { h with early := [] }) := by
  have hmine : s.hw.early.any (· == .rejoin g m) = true := by simp [he]
  have hnone : s.hw.early.eraseP (· == .rejoin g m) = [] := by simp [he]
  calc exec (.rejoin g m) s
      = runSup g (fun _ h => { h with early := h.early.eraseP (· == .rejoin g m) }) s := inTurn_spent hl hmine
    _ = .next (afterRun s g fun _ h => { h with early := h.early.eraseP (· == .rejoin g m) }) := runSup_eq g _ s
    _ = .next (afterRun s g fun _ h => { h with early := [] }) := by simp only [afterRun, Hw.at_early, hnone]

/-- A module on which a reset of the die is still to be done, with a byte of application SRAM that the reset clears; a
REJOIN of master 0 in grain 0 has acted ahead of its turn. -/
def rejoinedEarly : State := { hw := { rst := 1, early := [.rejoin 0 0] }, mem := [(0, 1)] }

/-- Refutes O43: a REJOIN that has acted already does nothing more itself, but the end of the command performs a reset of the
die that an earlier one left outstanding, which the clause does not rule out, and so memory changes. -/
theorem not_lineShaftCommands : ¬ Obligations.LineShaftCommands := by
  intro h
  obtain ⟨-, -, -, -, -, -, hspent, -⟩ := h rejoinedEarly 0 0 rfl
  obtain ⟨t, hexec, -, -, -, hmem⟩ := hspent rfl
  rw [exec_rejoin_spent rfl rfl] at hexec
  cases hexec
  exact absurd hmem (by decide)

end Sys2Proof

namespace Sys2Proof
open Machine

/-! ### The step, and two refutations by a state the model evaluates -/

/-- Settles O1: both clauses are the two equations of `step`. -/
theorem stepRunsFrontCommand : Obligations.StepRunsFrontCommand :=
  ⟨fun c r s => step_cons c r s, fun _ h => step_nil h⟩

/-- A module whose CAN channel 0 is live with its shadow slot and its ring full, and which has written a record to the log
in grain 0. -/
def canFullLogged : State :=
  { hw := { regs := [(cn 0 rCTRL, 1), (cn 0 rREADY, 4), (cn 0 rSTAT, 1), (cn 0 0x054, 1024)], logRecent := [(0, 0, 0)] } }

/-- A frame of another node, with no data. -/
def plainCanFrame : CanFrame := { word1 := 0, flags := 0, sof := 0, data := [], own := false }

/-- Refutes O50: a frame dropped with ring and slot full raises a fault, whose record of the same grain as an earlier one
marks that one SIMUL in MRAM, so the memory does not stay as it was. -/
theorem not_canReceptionAndErrors : ¬ Obligations.CanReceptionAndErrors := by
  intro h
  obtain ⟨-, -, hfull, -⟩ := h canFullLogged 0 0 rfl ⟨rfl, rfl⟩
  have hg := hfull plainCanFrame rfl ⟨rfl, fun i hi => absurd hi List.not_mem_nil⟩ (by decide) (.inl rfl) rfl (by decide)
    (by decide)
  obtain ⟨t, e, -, -, -, -, -, -, hmem⟩ := hg
  have hrun : exec (.canFrameReceive 0 0 plainCanFrame) canFullLogged
      = .next (afterRun canFullLogged 0 fun _ h => h.canRx 0 plainCanFrame) := rfl
  rw [hrun, Host.Outcome.next.injEq] at e
  rw [← e] at hmem
  exact absurd hmem (by decide)

/-- A module in RUN that has written a record to the log in the grain of a software write, with an uncorrectable word at
that record's place in MRAM. -/
def testRefused : State :=
  { hw := { regs := [(sy 0x040, 3)], logRecent := [(4, 0, 0)], sup := { eccBad := [0x50020013] } } }

/-- Refutes O58: the record of a refused capacitor test marks an earlier one of the same grain SIMUL, and that write to MRAM
takes the word off those that hold an uncorrectable error. -/
theorem not_suppliesHoldUpAndSaves : ¬ Obligations.SuppliesHoldUpAndSaves := by
  intro h
  obtain ⟨-, -, -, -, -, -, -, -, -, -, -, -, -, -, -, -, -, -, htest, -⟩ := h testRefused 0 ⟨rfl, rfl⟩
  have hg := htest 0 rfl rfl (.inl rfl)
  obtain ⟨-, hsup, -⟩ := afterRun_of_gives
    (f := fun _ h => (h.vlogSample 0).swWrite pPWR 0x050 fun h => h.holdTest 0) rfl rfl hg
  exact absurd (congrArg (fun x : SupS => x.eccBad) hsup) (by decide)

end Sys2Proof

namespace Sys2Proof
open Machine

/-! ### What a command in its turn or of a link gives -/

section
variable {s : State} {g : Nat} {f : Mem → Hw → Hw} {P : State → Prop}

@[simp] theorem afterRun_hw (s : State) (g : Nat) (f : Mem → Hw → Hw) :
    (afterRun s g f).hw = (f s.mem (s.hw.at g)).seal (max s.hw.grain g) := rfl

/-- A command of a link, on a die that runs and sheds no load. -/
theorem gives_link (hl : Live s) (hs : Unshed s) (hP : P (afterRun s g f)) : ∃ t, runLink g f s = .next t ∧ P t :=
  ⟨_, runLink_of_free f hl hs, hP⟩

/-- With no command to let go first, a command in its turn gives what its own operation gives. -/
theorem gives_inTurn {mine : Instr → Bool} {before : Instr → Option Nat} {act : State → Host.Outcome State Fault Refusal}
    (ha : Alone s g) (hP : ∃ t, act s = .next t ∧ P t) : ∃ t, inTurn g mine before act s = .next t ∧ P t := by
  rwa [inTurn_alone ha.1 (ahead_nil ha.2)]

/-- An operation that does nothing leaves registers, memory and every part of the module, and sends nothing. -/
theorem afterRun_idle {α : Type} (F : Hw → α) (hF : ∀ h : Hw, ∀ g k, F ((h.at g).seal k) = F h) (hs : Settled s)
    (hf : f s.mem (s.hw.at g) = s.hw.at g) :
    (afterRun s g f).hw.regs = s.hw.regs ∧ F (afterRun s g f).hw = F s.hw ∧ (afterRun s g f).mem = s.mem ∧
      (afterRun s g f).hw.out = [] := by
  have hmem : s.mem.after (s.hw.at g) = s.mem := after_of_no_write hs.2 hs.1
  simp only [afterRun, hf, hmem, hF]
  exact ⟨rfl, trivial, trivial, rfl⟩

end

end Sys2Proof

namespace Sys2Proof.Machine

/-- An event of a page keeps the bits of EVT that are set, and sets its own. -/
theorem Hw.bit_evt_or (h : Hw) (p : Nat) {b : Nat} (hb : b < 32) (i : Nat) :
    (h.evt p b).bit (ra p rEVT) i = (decide (i = b) || h.bit (ra p rEVT) i) := by
  simp only [Hw.bit, Hw.evt, h.reg_evtTs_same, bitOf_putFld _ (Nat.le_refl b) hb]
  by_cases hi : i = b
  · simp [hi]
  · rw [if_neg (by omega), decide_eq_false hi, Bool.false_or]

theorem Hw.when_true (h : Hw) (f : Hw → Hw) : h.when true f = f h := rfl
theorem Hw.when_false (h : Hw) (f : Hw → Hw) : h.when false f = h := rfl

/-! ### The transmit slots of a CAN channel -/

theorem txr_ne {n k j o o' : Nat} (ho : o < 0x60) (ho' : o' < 0x60) (h : k ≠ j ∨ o ≠ o') : txr n k o ≠ txr n j o' := by
  simp only [txr, cn, ra]
  omega

theorem txr_ne_cn {n k o c : Nat} (hc : c < 0x200) : txr n k o ≠ cn n c := by
  simp only [txr, cn, ra]
  omega

theorem cn_ne {n o o' : Nat} (h : o ≠ o') : cn n o ≠ cn n o' := by
  simp only [cn, ra]
  omega

@[simp] theorem Hw.reg_evt_txr (h : Hw) (n b k o : Nat) : (h.evt (pCAN n) b).reg (txr n k o) = h.reg (txr n k o) :=
  h.reg_evt_ne (txr_ne_cn (by decide)) (txr_ne_cn (by decide)) b

theorem Hw.reg_setTxState_ne (h : Hw) {n k a : Nat} (ha : a ≠ txr n k 0x14) (st : Nat) :
    (h.setTxState n k st).reg a = h.reg a := h.reg_setF_ne ha _ _ _

@[simp] theorem Hw.reg_setTxState_cn (h : Hw) {n k c : Nat} (hc : c < 0x200) (st : Nat) :
    (h.setTxState n k st).reg (cn n c) = h.reg (cn n c) := h.reg_setTxState_ne (txr_ne_cn hc).symm st

@[simp] theorem Hw.can_setTxState (h : Hw) (n k st : Nat) : (h.setTxState n k st).can = h.can := rfl

/-- A slot reads the state put into it. -/
theorem Hw.txState_setTxState_same (h : Hw) (n k : Nat) {st : Nat} (hst : st < 8) : (h.setTxState n k st).txState n k = st :=
  (h.f_setF_same _ (by decide) (by decide) st).trans (Nat.mod_eq_of_lt hst)

/-- The states of the other slots stay. -/
theorem Hw.txState_setTxState_ne (h : Hw) {n k j : Nat} (hj : j ≠ k) (st : Nat) :
    (h.setTxState n k st).txState n j = h.txState n j :=
  h.f_setF_ne (txr_ne (by decide) (by decide) (.inl hj)) _ _ _ _ _

/-- A slot's state rests on its status register alone. -/
theorem Hw.txState_of_reg {h h' : Hw} {n k : Nat} (e : h'.reg (txr n k 0x14) = h.reg (txr n k 0x14)) :
    h'.txState n k = h.txState n k := by
  simp only [Hw.txState, Hw.f, e]

@[simp] theorem Hw.txState_evt (h : Hw) (n b k : Nat) : (h.evt (pCAN n) b).txState n k = h.txState n k :=
  Hw.txState_of_reg (h.reg_evt_txr n b k 0x14)

@[simp] theorem Hw.txState_setCan (h : Hw) (n k m : Nat) (x : CanS) : (h.setCan m x).txState n k = h.txState n k := rfl
@[simp] theorem Hw.canS_setCan (h : Hw) (n : Nat) (x : CanS) : (h.setCan n x).canS n = x := tabGet_tabSet_same _ _ _ _
@[simp] theorem Hw.reg_setCan (h : Hw) (n : Nat) (x : CanS) (a : Nat) : (h.setCan n x).reg a = h.reg a := rfl
@[simp] theorem Hw.txState_seal (h : Hw) (g n k : Nat) : (h.seal g).txState n k = h.txState n k := rfl
@[simp] theorem Hw.txState_at (h : Hw) (g n k : Nat) : (h.at g).txState n k = h.txState n k := rfl
@[simp] theorem Hw.canS_seal (h : Hw) (g n : Nat) : (h.seal g).canS n = h.canS n := rfl
@[simp] theorem Hw.canS_at (h : Hw) (g n : Nat) : (h.at g).canS n = h.canS n := rfl
@[simp] theorem Hw.txActive_seal (h : Hw) (g n : Nat) : (h.seal g).txActive n = h.txActive n := rfl
@[simp] theorem Hw.txActive_at (h : Hw) (g n : Nat) : (h.at g).txActive n = h.txActive n := rfl
theorem Hw.canS_of_can {h h' : Hw} (e : h'.can = h.can) (n : Nat) : h'.canS n = h.canS n := by simp only [Hw.canS, e]
@[simp] theorem Hw.canS_setTxState (h : Hw) (n k st m : Nat) : (h.setTxState n k st).canS m = h.canS m := rfl

/-- A slot put into a set is in it, and one taken out is not. -/
theorem getLsbD_slotSet_same (m : BitVec 16) {k : Nat} (hk : k < 16) (on : Bool) : (slotSet m k on).getLsbD k = on := by
  have hbit : (BitVec.ofNat 16 (2 ^ k)).getLsbD k = true := by
    rw [BitVec.getLsbD_ofNat, Nat.testBit_two_pow_self, decide_eq_true hk]; rfl
  cases on
  · rw [slotSet, if_neg Bool.false_ne_true, BitVec.getLsbD_and, BitVec.getLsbD_not, hbit]
    simp
  · rw [slotSet, if_pos rfl, BitVec.getLsbD_or, hbit, Bool.or_true]

/-- The active slot is in state 3. -/
theorem Hw.txActive_some {h : Hw} {n k : Nat} (hk : h.txActive n = some k) : h.txState n k = 3 := by
  simpa using List.find?_some hk

/-- With no slot on the bus no slot is in state 3. -/
theorem Hw.txActive_none {h : Hw} {n : Nat} (hn : h.txActive n = none) {j : Nat} (hj : j < 16) : h.txState n j ≠ 3 := by
  simpa using List.find?_eq_none.1 hn j (List.mem_range.2 hj)

/-- A slot put on the bus while none was there is the slot on the bus. -/
theorem Hw.txActive_setTxState {h : Hw} {n k : Nat} (hk : k < 16) (hn : h.txActive n = none) :
    (h.setTxState n k 3).txActive n = some k := by
  refine List.find?_eq_some_iff_getElem.2 ⟨by simp [h.txState_setTxState_same n k (st := 3) (by decide)],
    k, by simpa using hk, by simp, fun j hj => ?_⟩
  have hne : j ≠ k := Nat.ne_of_lt hj
  simp [h.txState_setTxState_ne hne, Hw.txActive_none hn (hj.trans hk)]

end Sys2Proof.Machine

namespace Sys2Proof.Machine

/-! ### The commands of a slot -/

/-- A request of a slot that is not busy with legal words: the slot waits or is ready, with its result cleared. -/
theorem Hw.txRequest_accepted {h : Hw} {n k : Nat} (hbad : h.txBad n k = false) (timed : Bool) : h.txRequest n k timed =
    ((h.setCan n { h.canS n with timed := slotSet (h.canS n).timed k timed, late := slotSet (h.canS n).late k false,
                                 abort := slotSet (h.canS n).abort k false }).setTxState n k
      (if timed then 1 else 2)).setBit (txr n k 0x14) 11 false := by
  simp [Hw.txRequest, hbad]

theorem Hw.txRequest_refused {h : Hw} {n k : Nat} (hbad : h.txBad n k = true) (timed : Bool) :
    h.txRequest n k timed = h.evt (pCAN n) 9 := by
  simp [Hw.txRequest, hbad]

/-- A bit of the status above the state leaves every slot's state. -/
theorem Hw.txState_setBit_result (h : Hw) (n k j : Nat) (b : Bool) :
    (h.setBit (txr n k 0x14) 11 b).txState n j = h.txState n j := by
  by_cases hj : txr n j 0x14 = txr n k 0x14
  · simp only [Hw.txState, hj]
    exact h.f_setF_disj _ (by decide) (by decide) _ (.inl (by decide))
  · exact h.f_setF_ne hj _ _ _ _ _

/-- What is refused is read from the page of the channel. -/
theorem Hw.txBad_of_page {h h' : Hw} {n k : Nat} (hk : k < 16) (e : ∀ o, o < 0x1000 → h'.reg (cn n o) = h.reg (cn n o)) :
    h'.txBad n k = h.txBad n k := by
  have hst : h'.reg (txr n k 0x14) = h.reg (txr n k 0x14) := e _ (by omega)
  have hfl : h'.reg (txr n k 4) = h.reg (txr n k 4) := e _ (by omega)
  have hid : h'.reg (txr n k 0) = h.reg (txr n k 0) := e _ (by omega)
  have hcfg : h'.reg (cn n 0x040) = h.reg (cn n 0x040) := e _ (by omega)
  simp only [Hw.txBad, Hw.txBusy, Hw.txState, Hw.f, Hw.bit, hst, hfl, hid, hcfg]
  congr

/-- A slot's state is read from the page of the channel. -/
theorem Hw.txState_of_page {h h' : Hw} {n k : Nat} (hk : k < 16)
    (e : ∀ o, o < 0x1000 → h'.reg (cn n o) = h.reg (cn n o)) : h'.txState n k = h.txState n k :=
  Hw.txState_of_reg (e _ (by omega))

/-- A request that is taken: the state and the result of its slot, its mark as timed, and the states of the others. -/
theorem Hw.txRequest_shows {h : Hw} {n k : Nat} (hk : k < 16) (hbad : h.txBad n k = false) (timed : Bool) (j : Nat) :
    (h.txRequest n k timed).txState n k = (if timed then 1 else 2) ∧
      ((h.txRequest n k timed).canS n).timed.getLsbD k = timed ∧
      (h.txRequest n k timed).bit (txr n k 0x14) 11 = false ∧
      (j = k ∨ (h.txRequest n k timed).txState n j = h.txState n j) := by
  rw [Hw.txRequest_accepted hbad]
  refine ⟨?_, ?_, Hw.bit_setBit_same _ _ (by decide) _, ?_⟩
  · rw [Hw.txState_setBit_result, Hw.txState_setTxState_same _ _ _ (by split <;> decide)]
  · exact (congrArg (fun x : CanS => x.timed.getLsbD k) (Hw.canS_setCan h n _)).trans (getLsbD_slotSet_same _ hk timed)
  · exact or_iff_not_imp_left.2 fun hj => by
      rw [Hw.txState_setBit_result, Hw.txState_setTxState_ne _ hj, Hw.txState_setCan]

/-- What an ABORT does is settled by the slot's state. -/
theorem Hw.txAbort_waiting {h : Hw} {n k : Nat} (hst : h.txState n k = 1 ∨ h.txState n k = 2) :
    h.txAbort n k = h.setTxState n k 6 := if_pos hst

theorem Hw.txAbort_active {h : Hw} {n k : Nat} (hst : h.txState n k = 3) : h.txAbort n k =
    h.setCan n { h.canS n with abort := slotSet (h.canS n).abort k true } := by
  simp [Hw.txAbort, hst]

/-- A slot put in state 5 is LATE, with its event. -/
theorem Hw.late_shows (h : Hw) (n k : Nat) : ((h.setTxState n k 5).evt (pCAN n) 5).txState n k = 5 ∧
    ((h.setTxState n k 5).evt (pCAN n) 5).bit (cn n rEVT) 5 = true :=
  ⟨(Hw.txState_evt _ n 5 k).trans (h.txState_setTxState_same n k (by decide)), Hw.bit_evt _ (pCAN n) (by decide)⟩

/-- What the end of a window does to a slot not yet started. -/
theorem Hw.txLate_over {h : Hw} {n k : Nat} (hw : h.txWindowOver n k = true) (hst : h.txState n k = 1 ∨ h.txState n k = 2) :
    h.txLate n k = if h.bit (cn n 0x068) 31 then h.setTxState n k 2 else (h.setTxState n k 5).evt (pCAN n) 5 := by
  rcases hst with e | e <;> simp [Hw.txLate, hw, e]

/-- A failed attempt of the slot on the bus. -/
theorem Hw.txFail_active {h : Hw} {n k : Nat} (hk : h.txActive n = some k) : h.txFail n =
    if (h.canS n).abort.getLsbD k then h.setTxState n k 6
    else if h.txWindowOver n k && !h.bit (cn n 0x068) 31 then (h.setTxState n k 5).evt (pCAN n) 5
    else h.setTxState n k (if h.bit (cn n 0x040) 2 then 7 else 2) := by
  simp only [Hw.txFail, hk]

/-! ### Error counters -/

theorem cn_ne_evt {n o : Nat} (h1 : o ≠ rEVT) : cn n o ≠ ra (pCAN n) rEVT := cn_ne h1
theorem cn_ne_evtTs {n o : Nat} (h1 : o ≠ rEVT_TS) : cn n o ≠ ra (pCAN n) rEVT_TS := cn_ne h1

/-- An event of a channel leaves its other registers. -/
theorem Hw.reg_evt_cn (h : Hw) {n o : Nat} (h1 : o ≠ rEVT) (h2 : o ≠ rEVT_TS) (b : Nat) :
    (h.evt (pCAN n) b).reg (cn n o) = h.reg (cn n o) := h.reg_evt_ne (cn_ne h1) (cn_ne h2) b

/-- The error counters at new values, before the error state that follows from them. -/
def Hw.canCounters (h : Hw) (n tec rec : Nat) : Hw := (h.setF (cn n 0x064) 15 8 rec).setF (cn n 0x064) 7 0 tec

/-- The error counters at new values with the error state v, p. -/
def Hw.canCounted (h : Hw) (n tec rec v : Nat) (p : Bool) : Hw :=
  ((h.canCounters n tec rec).setF (cn n 0x064) 17 16 v).setBit (cn n rSTAT) 2 p

/-- A step of the error counters sets them; where the channel is not bus-off the error state follows, with an event on
entering the passive one. -/
theorem Hw.canCount_cases (h : Hw) (n tec rec : Nat) : h.canCount n tec rec = h.canCounters n tec rec ∨
    ∃ v p, h.canCount n tec rec = h.canCounted n tec rec v p ∨
      h.canCount n tec rec = (h.canCounted n tec rec v p).evt (pCAN n) 6 := by
  unfold Hw.canCount Hw.canCounted Hw.canCounters Hw.when
  dsimp only
  split
  · exact .inl rfl
  · split
    · exact .inr ⟨_, _, .inr rfl⟩
    · exact .inr ⟨_, _, .inl rfl⟩

/-- The registers a step of the error counters may change. -/
def canCountRegs (n : Nat) : List Nat := [cn n 0x064, cn n rSTAT, cn n rEVT, cn n rEVT_TS]

theorem Hw.reg_canCounters_ne (h : Hw) {n a : Nat} (ha : a ≠ cn n 0x064) (tec rec : Nat) :
    (h.canCounters n tec rec).reg a = h.reg a := by
  rw [Hw.canCounters, Hw.reg_setF_ne _ ha, Hw.reg_setF_ne _ ha]

theorem Hw.reg_canCounted_ne (h : Hw) {n a : Nat} (h1 : a ≠ cn n 0x064) (h2 : a ≠ cn n rSTAT) (tec rec v : Nat) (p : Bool) :
    (h.canCounted n tec rec v p).reg a = h.reg a := by
  rw [Hw.canCounted, Hw.reg_setBit_ne _ h2, Hw.reg_setF_ne _ h1, h.reg_canCounters_ne h1]

theorem Hw.reg_canCount_ne (h : Hw) {n a : Nat} (ha : a ∉ canCountRegs n) (tec rec : Nat) :
    (h.canCount n tec rec).reg a = h.reg a := by
  simp only [canCountRegs, List.mem_cons, List.not_mem_nil, or_false, not_or] at ha
  obtain ⟨h1, h2, h3, h4⟩ := ha
  obtain e | ⟨v, p, e | e⟩ := h.canCount_cases n tec rec
  · rw [e, h.reg_canCounters_ne h1]
  · rw [e, h.reg_canCounted_ne h1 h2]
  · rw [e, Hw.reg_evt_ne _ h3 h4, h.reg_canCounted_ne h1 h2]

theorem txr_not_mem_canCountRegs (n k o : Nat) : txr n k o ∉ canCountRegs n := by
  simp only [canCountRegs, List.mem_cons, List.not_mem_nil, or_false, not_or]
  exact ⟨txr_ne_cn (by decide), txr_ne_cn (by decide), txr_ne_cn (by decide), txr_ne_cn (by decide)⟩

theorem Hw.f_canCounted_tec (h : Hw) (n tec rec v : Nat) (p : Bool) :
    (h.canCounted n tec rec v p).f (cn n 0x064) 7 0 = tec % 256 := by
  rw [Hw.canCounted, Hw.f, Hw.reg_setBit_ne _ (cn_ne (by decide))]
  exact (Hw.f_setF_disj _ _ (by decide) (by decide) _ (.inl (by decide))).trans
    (Hw.f_setF_same _ _ (by decide) (by decide) tec)

/-- The transmit error counter takes its new value. -/
theorem Hw.f_canCount_tec (h : Hw) (n tec rec : Nat) : (h.canCount n tec rec).f (cn n 0x064) 7 0 = tec % 256 := by
  obtain e | ⟨v, p, e | e⟩ := h.canCount_cases n tec rec
  · rw [e]
    exact Hw.f_setF_same _ _ (by decide) (by decide) tec
  · rw [e, h.f_canCounted_tec]
  · rw [e, Hw.f, Hw.reg_evt_cn _ (by decide) (by decide)]
    exact h.f_canCounted_tec n tec rec v p

/-- No event bit of a channel but that of the passive state changes with the counters. -/
theorem Hw.bit_canCount_evt (h : Hw) (n tec rec : Nat) {i : Nat} (hi : i ≠ 6) :
    (h.canCount n tec rec).bit (cn n rEVT) i = h.bit (cn n rEVT) i := by
  have h1 : cn n rEVT ≠ cn n 0x064 := cn_ne (by decide)
  have h2 : cn n rEVT ≠ cn n rSTAT := cn_ne (by decide)
  obtain e | ⟨v, p, e | e⟩ := h.canCount_cases n tec rec
  · rw [e, Hw.bit, h.reg_canCounters_ne h1, Hw.bit]
  · rw [e, Hw.bit, h.reg_canCounted_ne h1 h2, Hw.bit]
  · rw [e]
    refine (Hw.bit_evt_or _ (pCAN n) (by decide) i).trans ?_
    rw [decide_eq_false hi, Bool.false_or]
    exact congrArg (bitOf · i) (h.reg_canCounted_ne h1 h2 tec rec v p)

@[simp] theorem Hw.can_canCount (h : Hw) (n tec rec : Nat) : (h.canCount n tec rec).can = h.can := by
  obtain e | ⟨v, p, e | e⟩ := h.canCount_cases n tec rec
  · rw [e]; rfl
  · rw [e]; rfl
  · rw [e, Hw.evt_can]; rfl

/-! ### The end of a frame sent -/

/-- Measuring the transceiver delay changes no register but TDC. -/
theorem Hw.reg_tdcMeasure_ne (h : Hw) {n a : Nat} (k : Nat) (ha : a ≠ cn n 0x04C) :
    (h.tdcMeasure n k).reg a = h.reg a := by
  unfold Hw.tdcMeasure
  split
  · exact Hw.reg_setF_ne _ ha _ _ _
  · rfl

@[simp] theorem Hw.can_tdcMeasure (h : Hw) (n k : Nat) : (h.tdcMeasure n k).can = h.can := by
  unfold Hw.tdcMeasure
  split <;> rfl

/-- A slot whose frame has been sent, before the mark of one that left late. -/
def Hw.txSent (h : Hw) (n k sof : Nat) : Hw :=
  let h := (((h.setTxState n k 4).setReg (txr n k 0x18) (sofStamp sof)).evt (pCAN n) 4).tdcMeasure n k
  h.canCount n (h.f (cn n 0x064) 7 0 - 1) (h.f (cn n 0x064) 15 8)

theorem Hw.txDone_active {h : Hw} {n k : Nat} (hk : h.txActive n = some k) (sof : Nat) : h.txDone n sof =
    if (h.canS n).late.getLsbD k then ((h.txSent n k sof).setBit (txr n k 0x14) 11 true).evt (pCAN n) 5
    else h.txSent n k sof := by
  have hlate : (h.txSent n k sof).canS n = h.canS n := Hw.canS_of_can (by
    rw [Hw.txSent, Hw.can_canCount, Hw.can_tdcMeasure, Hw.evt_can, Hw.setReg_can, Hw.can_setTxState]) n
  rw [← hlate]
  simp only [Hw.txDone, hk]
  rfl

section
variable (h : Hw) (n k sof : Nat)

theorem Hw.reg_txSent_slot (o : Nat) : (h.txSent n k sof).reg (txr n k o) =
    ((h.setTxState n k 4).setReg (txr n k 0x18) (sofStamp sof)).reg (txr n k o) := by
  rw [Hw.txSent, Hw.reg_canCount_ne _ (txr_not_mem_canCountRegs n k o), Hw.reg_tdcMeasure_ne _ _ (txr_ne_cn (by decide)),
    Hw.reg_evt_txr]

theorem Hw.txState_txSent : (h.txSent n k sof).txState n k = 4 := by
  rw [Hw.txState_of_reg ((h.reg_txSent_slot n k sof 0x14).trans
    (Hw.reg_setReg_ne _ (txr_ne (by decide) (by decide) (.inr (by decide))) _))]
  exact h.txState_setTxState_same n k (by decide)

theorem Hw.bit_txSent_late : (h.txSent n k sof).bit (txr n k 0x14) 11 = h.bit (txr n k 0x14) 11 := by
  rw [Hw.bit, h.reg_txSent_slot n k sof, Hw.reg_setReg_ne _ (txr_ne (by decide) (by decide) (.inr (by decide))),
    Hw.setTxState, Hw.reg_setF_same, bitOf_putFld_ne _ (by decide) (by decide) _ (.inr (by decide)), Hw.bit]

theorem Hw.bit_txSent_evt : (h.txSent n k sof).bit (cn n rEVT) 4 = true := by
  rw [Hw.txSent, Hw.bit_canCount_evt _ _ _ _ (by decide), Hw.bit, Hw.reg_tdcMeasure_ne _ _ (cn_ne (by decide))]
  exact Hw.bit_evt _ (pCAN n) (by decide)

theorem Hw.f_txSent_tec : (h.txSent n k sof).f (cn n 0x064) 7 0 = h.f (cn n 0x064) 7 0 - 1 := by
  have hlt : h.f (cn n 0x064) 7 0 < 256 := fld_lt _ 7 0
  have hkeep : ((((h.setTxState n k 4).setReg (txr n k 0x18) (sofStamp sof)).evt (pCAN n) 4).tdcMeasure n k).f
      (cn n 0x064) 7 0 = h.f (cn n 0x064) 7 0 := by
    rw [Hw.f, Hw.reg_tdcMeasure_ne _ _ (cn_ne (by decide)), Hw.reg_evt_cn _ (by decide) (by decide),
      Hw.reg_setReg_ne _ (txr_ne_cn (by decide)).symm, Hw.reg_setTxState_cn _ (by decide), Hw.f]
  rw [Hw.txSent, Hw.f_canCount_tec, hkeep, Nat.mod_eq_of_lt (by omega)]

/-- A frame sent: its slot, the time-stamp, the event, the mark of one that left late and the counter. -/
theorem Hw.txDone_shows {h : Hw} {n k : Nat} (hk : h.txActive n = some k) (sof : Nat) :
    (h.txDone n sof).txState n k = 4 ∧ (h.txDone n sof).reg (txr n k 0x18) = sofStamp sof ∧
      (h.txDone n sof).bit (cn n rEVT) 4 = true ∧
      (h.txDone n sof).bit (txr n k 0x14) 11 = (h.bit (txr n k 0x14) 11 || (h.canS n).late.getLsbD k) ∧
      (h.txDone n sof).f (cn n 0x064) 7 0 = h.f (cn n 0x064) 7 0 - 1 := by
  have hstamp : (h.txSent n k sof).reg (txr n k 0x18) = sofStamp sof :=
    (h.reg_txSent_slot n k sof 0x18).trans (Hw.reg_setReg_same _ _ _)
  rw [Hw.txDone_active hk]
  split
  · next hlate =>
    refine ⟨?_, ?_, ?_, ?_, ?_⟩
    · rw [Hw.txState_evt, Hw.txState_setBit_result, Hw.txState_txSent]
    · rw [Hw.reg_evt_txr, Hw.reg_setBit_ne _ (txr_ne (by decide) (by decide) (.inr (by decide))), hstamp]
    · refine (Hw.bit_evt_or _ (pCAN n) (by decide) 4).trans ?_
      change (_ || Hw.bit _ (cn n rEVT) 4) = true
      rw [Hw.bit_setBit_ne _ (txr_ne_cn (by decide)).symm, Hw.bit_txSent_evt, Bool.or_true]
    · rw [Hw.bit, Hw.reg_evt_txr, hlate, Bool.or_true]
      exact Hw.bit_setBit_same _ _ (by decide) true
    · rw [Hw.f, Hw.reg_evt_cn _ (by decide) (by decide), Hw.reg_setBit_ne _ (txr_ne_cn (by decide)).symm]
      exact h.f_txSent_tec n k sof
  · next hlate =>
    rw [Bool.eq_false_of_not_eq_true hlate, Bool.or_false]
    exact ⟨h.txState_txSent n k sof, hstamp, h.bit_txSent_evt n k sof, h.bit_txSent_late n k sof, h.f_txSent_tec n k sof⟩

end

/-! ### The start of a frame -/

/-- The frame of a slot as it leaves: its identifier, its flags and, where it is not remote, the octets its length names. -/
def Hw.txFrame (h : Hw) (n k : Nat) : Out :=
  { kind := .can, port := n, nums := [(h.reg (txr n k 0)).toNat, (h.reg (txr n k 4)).toNat % 0x8000],
    data := if h.bit (txr n k 0) 30 then []
      else ((List.range 16).flatMap fun w => wordBytes (h.reg (txr n k (0x20 + 4 * w)))).take (h.f (txr n k 4) 6 0) }

/-- A frame is read from the slot's registers but its status. -/
theorem Hw.txFrame_of_reg {h h' : Hw} {n k : Nat} (e : ∀ o, o < 0x60 → o ≠ 0x14 → h'.reg (txr n k o) = h.reg (txr n k o)) :
    h'.txFrame n k = h.txFrame n k := by
  have hdata : (List.range 16).flatMap (fun w => wordBytes (h'.reg (txr n k (0x20 + 4 * w))))
      = (List.range 16).flatMap fun w => wordBytes (h.reg (txr n k (0x20 + 4 * w))) := by
    refine List.flatMap_congr fun w hw => ?_
    rw [e _ (by have := List.mem_range.1 hw; omega) (by omega)]
  simp only [Hw.txFrame, Hw.bit, Hw.f, hdata, e 0 (by decide) (by decide), e 4 (by decide) (by decide)]
  congr

/-- A start that may not be: nothing changes. -/
theorem Hw.txStart_idle {h : Hw} {n : Nat} (hno : h.canLive n = false ∨ h.canListen n = true ∨ h.txPick n = none) :
    h.txStart n = h := by
  unfold Hw.txStart
  split
  · rfl
  · next hgo =>
    simp only [Bool.or_eq_true, Bool.not_eq_true', not_or, Bool.not_eq_false, Bool.not_eq_true] at hgo
    obtain ⟨⟨hlive, hlis⟩, -⟩ := hgo
    rcases hno with e | e | e
    · exact absurd e (by simp [hlive])
    · exact absurd e (by simp [hlis])
    · simp only [e]

/-- The slot that goes first starts: it is on the bus, and its frame leaves. -/
theorem Hw.txStart_picked {h : Hw} {n k : Nat} (hlive : h.canLive n = true) (hlis : h.canListen n = false)
    (hnone : h.txActive n = none) (hpick : h.txPick n = some k) : ∃ x : CanS,
    h.txStart n = ((h.setCan n x).setTxState n k 3).send (((h.setCan n x).setTxState n k 3).txFrame n k) := by
  have hfree : (List.range 16).any (fun j => h.txState n j == 3) = false := by
    rw [List.any_eq_false]
    intro j hj
    simpa using Hw.txActive_none hnone (List.mem_range.1 hj)
  simp only [Hw.txStart, hlive, hlis, hfree, hpick]
  exact ⟨_, rfl⟩

/-- The slot on the bus and the frame sent after a start. -/
theorem Hw.txStart_shows {h : Hw} {n k : Nat} (hk : k < 16) (hlive : h.canLive n = true) (hlis : h.canListen n = false)
    (hnone : h.txActive n = none) (hpick : h.txPick n = some k) : (h.txStart n).txState n k = 3 ∧
    (h.txStart n).txActive n = some k ∧ (h.txStart n).out = h.out ++ [h.txFrame n k] := by
  obtain ⟨x, e⟩ := Hw.txStart_picked hlive hlis hnone hpick
  rw [e]
  have hframe : ((h.setCan n x).setTxState n k 3).txFrame n k = h.txFrame n k :=
    Hw.txFrame_of_reg fun o ho hne => Hw.reg_setTxState_ne _ (txr_ne ho (by decide) (.inr hne)) 3
  refine ⟨Hw.txState_setTxState_same (h.setCan n x) n k (by decide), ?_, ?_⟩
  · exact Hw.txActive_setTxState (h := h.setCan n x) hk hnone
  · rw [hframe]
    rfl

end Sys2Proof.Machine

namespace Sys2Proof
open Machine

theorem three_le_pCAN (n : Nat) : pCAN n ≠ pFLT := by
  simp only [pCAN, pFLT]
  omega

/-- A software write to a CAN channel's page acts on a module whose page and record are those before it. -/
theorem gives_canWrite {s : State} {g off : Nat} {n : Fin 2} {f : Hw → Hw} {P : State → Prop} (hl : Live s)
    (hu : Unlocked s (pCAN n)) (hP : ∀ (k : Hw) (m : Mem), k.can = s.hw.can →
      (∀ off, off < 0x1000 → k.reg (cn n off) = s.hw.reg (cn n off)) →
      P { s with hw := (f k).seal (max s.hw.grain g), mem := m }) :
    ∃ t, run g (fun _ h => h.swWrite (pCAN n) off f) s = .next t ∧ P t :=
  gives_write hl (three_le_pCAN n) hu fun k hk =>
    hP k.atWrite _ hk.can fun _ ho => hk.reg (not_inLog_page (three_le_pCAN n) ho)

/-- Settles O51: each clause is what the operation on the slot gives, read on the page and the record of the channel. -/
theorem canTransmitSlots : Obligations.CanTransmitSlots := by
  intro s g n k hl hs
  have idle {f : Mem → Hw → Hw} (hf : f s.mem (s.hw.at g) = s.hw.at g) := afterRun_idle Hw.can (fun _ _ _ => rfl) hs hf
  refine ⟨fun j hu hbad => ?_, fun j hu hbad => ?_, fun hu hbad => ?_, fun ha hu hst => ?_, fun ha hu hst => ?_,
    fun hsh hst ht => ?_, fun hsh hst => ?_, fun hsh ha hw hst hsend => ?_, fun hsh ha hw hst hsend => ?_,
    fun hsh ha hw => ?_, fun hsh ha hlive hlis hnone hpick => ?_, fun hsh ha hno => ?_,
    fun sof hsh ha hact hoff => ?_, fun sof hsh ha hnone => ?_, fun arb hsh hact hab => ?_,
    fun arb hsh hact hab hw => ?_, fun arb hsh hact hab hw hsend => ?_⟩
  · refine gives_canWrite hl hu fun h m _ hreg => ?_
    obtain ⟨hst, htimed, hres, hother⟩ :=
      Hw.txRequest_shows k.isLt ((Hw.txBad_of_page k.isLt hreg).trans hbad) false j
    exact ⟨hst, htimed, hres, hother.imp Fin.ext fun e => e.trans (Hw.txState_of_page j.isLt hreg)⟩
  · refine gives_canWrite hl hu fun h m _ hreg => ?_
    obtain ⟨hst, htimed, -, hother⟩ :=
      Hw.txRequest_shows k.isLt ((Hw.txBad_of_page k.isLt hreg).trans hbad) true j
    exact ⟨hst, htimed, hother.imp Fin.ext fun e => e.trans (Hw.txState_of_page j.isLt hreg)⟩
  · refine gives_canWrite hl hu fun h m hcan hreg => ?_
    rw [Hw.txRequest_refused ((Hw.txBad_of_page k.isLt hreg).trans hbad)]
    exact ⟨(h.txState_evt n 9 k).trans (Hw.txState_of_page k.isLt hreg), (h.evt_can (pCAN n) 9).trans hcan,
      h.bit_evt (pCAN n) (by decide)⟩
  · refine gives_inTurn ha (gives_canWrite hl hu fun h m hcan hreg => ?_)
    have hst' := Hw.txState_of_page k.isLt hreg
    rw [Hw.txAbort_waiting (by rwa [hst'])]
    exact ⟨h.txState_setTxState_same n k (by decide), hcan⟩
  · refine gives_inTurn ha (gives_canWrite hl hu fun h m hcan hreg => ?_)
    have hst' := (Hw.txState_of_page k.isLt hreg).trans hst
    rw [Hw.txAbort_active hst']
    exact ⟨hst', (congrArg (fun x : CanS => x.abort.getLsbD k) (h.canS_setCan n _)).trans
      (getLsbD_slotSet_same _ k.isLt true)⟩
  · refine gives_link (f := fun _ h => h.txReached n k) hl hsh ?_
    rw [afterRun_hw, Hw.txReached, if_pos ⟨hst, ht⟩]
    exact ⟨Hw.txState_setTxState_same _ n k (by decide), rfl⟩
  · refine gives_link (f := fun _ h => h.txReached n k) hl hsh (idle (if_neg ?_))
    rintro ⟨h1, h2⟩
    exact hst.elim (· h1) h2.not_gt
  · refine gives_inTurn ha (gives_link (f := fun _ h => h.txLate n k) hl hsh ?_)
    rw [afterRun_hw, Hw.txLate_over (h := s.hw.at g) hw hst, Hw.at_bit, hsend, if_neg Bool.false_ne_true]
    exact (s.hw.at g).late_shows n k
  · refine gives_inTurn ha (gives_link (f := fun _ h => h.txLate n k) hl hsh ?_)
    rw [afterRun_hw, Hw.txLate_over (h := s.hw.at g) hw hst, Hw.at_bit, hsend, if_pos rfl]
    exact ⟨Hw.txState_setTxState_same _ n k (by decide), rfl⟩
  · exact gives_inTurn ha (gives_link (f := fun _ h => h.txLate n k) hl hsh (idle (if_neg (by simp [hw]))))
  · refine gives_inTurn ha (gives_link (f := fun _ h => h.txStart n) hl hsh ?_)
    exact Hw.txStart_shows (h := s.hw.at g) k.isLt hlive hlis hnone hpick
  · refine gives_inTurn ha (gives_link (f := fun _ h => h.txStart n) hl hsh (idle ?_))
    exact Hw.txStart_idle (h := s.hw.at g) hno
  · refine gives_inTurn ha (gives_link (f := fun _ h => h.txDone n sof) hl hsh ?_)
    obtain ⟨hst, hstamp, hevt, hlate, htec⟩ := Hw.txDone_shows (h := s.hw.at g) hact sof
    exact ⟨hst, hstamp, hevt, hlate, htec⟩
  · exact gives_inTurn ha (gives_link (f := fun _ h => h.txDone n sof) hl hsh (idle (by simp only [Hw.txDone, Hw.txActive_at, hnone])))
  · refine gives_link (f := fun _ h => h.txFail n) hl hsh ?_
    rw [afterRun_hw, Hw.txFail_active (h := s.hw.at g) hact, Hw.canS_at, hab, if_pos rfl]
    exact ⟨Hw.txState_setTxState_same _ n k (by decide), rfl⟩
  · refine gives_link (f := fun _ h => h.txFail n) hl hsh ?_
    rw [afterRun_hw, Hw.txFail_active (h := s.hw.at g) hact, Hw.canS_at, hab, hw]
    exact ⟨Hw.txState_setTxState_same _ n k (by split <;> decide), rfl⟩
  · refine gives_link (f := fun _ h => h.txFail n) hl hsh ?_
    rw [afterRun_hw, Hw.txFail_active (h := s.hw.at g) hact, Hw.canS_at, hab, hw, Hw.at_bit, hsend]
    exact (s.hw.at g).late_shows n k

end Sys2Proof

namespace Sys2Proof.Machine

/-! ### What events, counters and faults leave -/

/-- A part F of the module that neither the registers of Q, nor the notes of events, counters and windows, nor the fault log
belong to. -/
structure Aside {γ : Type} (Q : Nat → Prop) (F : Hw → γ) : Prop where
  reg : ∀ (h : Hw) {a : Nat}, Q a → ∀ v, F (h.setReg a v) = F h
  notes : ∀ (h : Hw) c n w, F { h with evtCyc := c, cntCyc := n, win := w } = F h
  logged : ∀ {h k : Hw}, Logged h k → F k = F h

namespace Aside

variable {γ : Type} {Q : Nat → Prop} {F : Hw → γ} (hF : Aside Q F)
include hF

theorem setF (h : Hw) {a : Nat} (ha : Q a) (hi lo v : Nat) : F (h.setF a hi lo v) = F h := hF.reg h ha _
theorem setBit (h : Hw) {a : Nat} (ha : Q a) (i : Nat) (v : Bool) : F (h.setBit a i v) = F h := hF.reg h ha _

theorem bumpN (h : Hw) {a : Nat} (ha : Q a) (hi lo n : Nat) : F (h.bumpN a hi lo n) = F h :=
  (hF.notes (h.setF a hi lo _) _ _ _).trans (hF.setF h ha _ _ _)

theorem bump (h : Hw) {a : Nat} (ha : Q a) (hi lo : Nat) : F (h.bump a hi lo) = F h := hF.bumpN h ha hi lo 1

theorem bumpWrap (h : Hw) {a : Nat} (ha : Q a) : F (h.bumpWrap a) = F h :=
  (hF.notes (h.setReg a _) _ _ _).trans (hF.reg h ha _)

theorem evt (h : Hw) {p : Nat} (hevt : Q (ra p rEVT)) (hts : Q (ra p rEVT_TS)) (b : Nat) : F (h.evt p b) = F h := by
  refine (hF.notes (Hw.setBit _ (ra p rEVT) b true) _ _ _).trans ((hF.setBit _ hevt b true).trans ?_)
  split
  · exact hF.reg h hts _
  · rfl

theorem fltEvent (h : Hw) {p : Nat} (hp : Q (ra p rFLT_CNT)) (rk cd i ts : Nat) : F (h.fltEvent p rk cd i ts).1 = F h := by
  have hset : ∀ (h : Hw) v, F (h.setF (ra p rFLT_CNT) 7 0 v) = F h := fun h v => hF.setF h hp _ _ _
  have hbump : ∀ h : Hw, F (h.bump (ra p rFLT_CNT) 7 0) = F h := fun h => hF.bump h hp 7 0
  have hwin : ∀ (h : Hw) w, F (h.setFwin p w) = F h := fun h w => hF.notes h _ _ _
  have hlogs : ∀ (h : Hw) rk cd i ts fl, F (h.log p rk cd i ts fl) = F h := fun h _ _ _ _ _ =>
    hF.logged (h.log_logged _ _ _ _ _ _)
  have hend : ∀ h : Hw, F (h.fltEnd p) = F h := fun h => (hF.logged (Hw.logFull_logged _ _)).trans ((hset _ _).trans (hwin _ _))
  unfold Hw.fltEvent
  dsimp only
  simp only [apply_ite Prod.fst, apply_ite F, hset, hbump, hwin, hlogs, hend, ite_self]

omit hF in
theorem when {f : Hw → Hw} (hf : ∀ h, F (f h) = F h) (c : Bool) (h : Hw) : F (h.when c f) = F h := by
  unfold Hw.when
  split
  · exact hf h
  · rfl

end Aside

/-- A register outside the log, with a part of the module that no register and no note belongs to. -/
theorem Aside.withReg {γ : Type} {G : Hw → γ} {b : Nat} 
    (hG : ∀ (h : Hw) r c n w, G { h with regs := r, evtCyc := c, cntCyc := n, win := w } = G h)
    (hlog : ∀ {h k : Hw}, Logged h k → G k = G h) (hb : ¬ inLog b) :
    Aside (b ≠ ·) fun h => (G h, h.reg b) where
  reg h a ha v := by rw [h.reg_setReg_ne ha]; exact congrArg (·, h.reg b) (hG h _ h.evtCyc h.cntCyc h.win)
  notes h c n w := congrArg (·, h.reg b) (hG h h.regs c n w)
  logged hk := by rw [hk.reg hb, hlog hk]

/-! ### The field groups -/

@[simp] theorem Hw.field_setField_same (h : Hw) (g : Nat) (x : FieldS) : (h.setField g x).field g = x :=
  tabGet_tabSet_same _ _ _ _

theorem Hw.field_setField_ne (h : Hw) {g j : Nat} (hj : j ≠ g) (x : FieldS) : (h.setField g x).field j = h.field j :=
  tabGet_tabSet_ne _ _ hj _ _

@[simp] theorem Hw.regs_setField (h : Hw) (g : Nat) (x : FieldS) : (h.setField g x).regs = h.regs := rfl
@[simp] theorem Hw.reg_setField (h : Hw) (g a : Nat) (x : FieldS) : (h.setField g x).reg a = h.reg a := rfl
@[simp] theorem Hw.field_at (h : Hw) (g k : Nat) : (h.at g).field k = h.field k := rfl
@[simp] theorem Hw.field_seal (h : Hw) (g k : Nat) : (h.seal g).field k = h.field k := rfl

/-- What a group's field die holds, the grain, and a register. -/
def Hw.fieldView (h : Hw) (b : Nat) : (Tab FieldS × Nat) × Word := ((h.fields, h.grain), h.reg b)

theorem Hw.reg_of_fieldView {h k : Hw} {b : Nat} (e : k.fieldView b = h.fieldView b) : k.reg b = h.reg b := congrArg (·.2) e
theorem Hw.fields_of_fieldView {h k : Hw} {b : Nat} (e : k.fieldView b = h.fieldView b) : k.fields = h.fields :=
  congrArg (·.1.1) e
theorem Hw.grain_of_fieldView {h k : Hw} {b : Nat} (e : k.fieldView b = h.fieldView b) : k.grain = h.grain :=
  congrArg (·.1.2) e
theorem Hw.field_of_fieldView {h k : Hw} {b : Nat} (e : k.fieldView b = h.fieldView b) (g : Nat) : k.field g = h.field g := by
  simp only [Hw.field, Hw.fields_of_fieldView e]

/-- An offset of a FIO page that events, the fault window and the counters of the channels leave. -/
def fieldOff (o : Nat) : Prop := o < 0xC0 ∧ o ≠ rEVT ∧ o ≠ rEVT_TS ∧ o ≠ rFLT_CNT

theorem fo_ne {g o o' : Nat} (h : o ≠ o') : fo g o ≠ fo g o' := by
  simp only [fo, ra]
  omega

theorem not_inLog_fo {g o : Nat} : ¬ inLog (fo g o) := by
  simp only [inLog, fo, ra, pFIO, pFLT, rEVT, rEVT_TS]
  omega

theorem fieldView_aside (g o : Nat) : Aside (fo g o ≠ ·) (Hw.fieldView · (fo g o)) :=
  Aside.withReg (G := fun h => (h.fields, h.grain)) (fun _ _ _ _ _ => rfl) (fun hk => by rw [hk.fields, hk.grain]) not_inLog_fo

section
variable {g o : Nat} (ho : fieldOff o)
include ho

theorem Hw.evt_fieldView (h : Hw) (b : Nat) : (h.evt (pFIO g) b).fieldView (fo g o) = h.fieldView (fo g o) :=
  (fieldView_aside g o).evt h (fo_ne ho.2.1) (fo_ne ho.2.2.1) b

theorem Hw.fltEvent_fieldView (h : Hw) (rk cd i ts : Nat) :
    ((h.fltEvent (pFIO g) rk cd i ts).1).fieldView (fo g o) = h.fieldView (fo g o) :=
  (fieldView_aside g o).fltEvent h (fo_ne ho.2.2.2) rk cd i ts

theorem Hw.bump_chCnt_fieldView (h : Hw) (i hi lo : Nat) :
    (h.bump (chCnt g i) hi lo).fieldView (fo g o) = h.fieldView (fo g o) :=
  (fieldView_aside g o).bump h (fo_ne (by have := ho.1; omega)) hi lo

end

/-- A value noted for the acquisition moves no field die and no register of a FIO page. -/
theorem Hw.acqNote_fieldView (h : Hw) (g o kind inst ts v : Nat) :
    (h.acqNote kind inst ts v).fieldView (fo g o) = h.fieldView (fo g o) := by
  have hF := fieldView_aside g o
  have haq : ∀ o', o' < 0x1000 → fo g o ≠ aq o' := fun o' ho' => by
    simp only [fo, aq, ra, pFIO, pACQ]
    omega
  have hlate : (h.acqLate kind inst ts).fieldView (fo g o) = h.fieldView (fo g o) := by
    unfold Hw.acqLate
    split
    · rfl
    · refine Hw.each_keeps (Hw.fieldView · (fo g o)) (fun h c => ?_) _ h
      rw [apply_ite (Hw.fieldView · (fo g o)), hF.evt _ (haq _ (by decide)) (haq _ (by decide)),
        hF.bump _ (haq _ (by decide)), ite_self]
  refine (Hw.each_keeps (Hw.fieldView · (fo g o)) (fun h c => ?_) _ _).trans hlate
  rfl

/-- Where every single action on a member of a list keeps a part of the module, the run of them keeps it. -/
theorem Hw.each_keeps_mem {α γ : Type} (F : Hw → γ) {f : Hw → α → Hw} {l : List α}
    (hf : ∀ x ∈ l, ∀ h, F (f h x) = F h) (h : Hw) : F (h.each l f) = F h := by
  unfold Hw.each
  induction l generalizing h with
  | nil => rfl
  | cons x l ih =>
    rw [List.foldl_cons, ih fun y hy => hf y (List.mem_cons_of_mem _ hy), hf x List.mem_cons_self]

/-! ### A valid upstream frame, step by step -/

/-- The frames the link missed are counted; a die that has restarted and a supply that has changed give their events, and
STAT shows the supply. -/
def Hw.upSupply (h : Hw) (g missed : Nat) : Hw :=
  let x := h.field g
  let h := h.bumpN (fo g 0x0AC) 15 0 missed
  let h := if x.fieldReset && !h.bit (fo g 0x0A4) 4 then h.evt (pFIO g) 8 else h
  let h := h.when (h.bit (fo g rSTAT) 1 != x.uv || h.bit (fo g rSTAT) 3 != x.ov) (·.evt (pFIO g) 6)
  (h.setBit (fo g rSTAT) 1 x.uv).setBit (fo g rSTAT) 3 x.ov

/-- Glitches shown by a frame are counted. -/
def Hw.upGlitches (h : Hw) (g : Nat) (x : FieldS) : Hw :=
  h.each ((List.range 16).filter fun i => x.glitch.getLsbD i) fun h i => h.bump (chCnt g i) 7 0

/-- Wire breaks new in a frame are counted events. -/
def Hw.upBreaks (h : Hw) (g : Nat) (x : FieldS) : Hw :=
  h.each ((List.range 16).filter fun i => x.wb.getLsbD i && !h.bit (fo g 0x094) i) fun h i =>
    (((h.evt (pFIO g) 3).bump (chCnt g i) 15 8).fltEvent (pFIO g) 10 3 (16 * g + i) h.grain).1

/-- Shutdowns new in a frame are overload events. -/
def Hw.upShutdowns (h : Hw) (g : Nat) (x : FieldS) (was : Word) : Hw :=
  h.each ((List.range 16).filter fun i => x.shut.getLsbD i && !bitOf was i) fun h i => h.fieldOvl g i

/-- Outputs that read high while they are not driven, new in a frame, are counted. -/
def Hw.upShorts (h : Hw) (g : Nat) (short : BitVec 16) : Hw :=
  h.each ((List.range 16).filter fun i => short.getLsbD i && !h.bit (fo g 0x09C) i) fun h i =>
    (h.evt (pFIO g) 5).bump (chCnt g i) 23 16

/-- The levels, readbacks and wire breaks of a frame come into the registers. -/
def Hw.upInputs (h : Hw) (g : Nat) (x : FieldS) (lv rb : BitVec 16) (sup : Word) : Hw :=
  let h := (h.setReg (fo g 0x0A4) sup).setReg (fo g 0x08C) (lv.setWidth 32)
  let h := h.acqNote 9 g h.grain (h.f (fo g 0x08C) 15 0)
  (((h.setReg (fo g 0x090) (rb.setWidth 32)).upGlitches g x).upBreaks g x).setReg (fo g 0x094) (x.wb.setWidth 32)

/-- The shutdowns and shorts of a frame come into the registers. -/
def Hw.upOutputs (h : Hw) (g : Nat) (x : FieldS) (rb : BitVec 16) : Hw :=
  let h := (h.setF (fo g 0x098) 15 0 x.shut.toNat).upShutdowns g x (h.reg (fo g 0x098))
  let short := chans fun i => x.isOut i && rb.getLsbD i && !x.drives i && !h.bit (chCfg g i) 6
  (h.upShorts g short).setReg (fo g 0x09C) (short.setWidth 32)

/-- The record of a group whose frame has arrived, with the levels it shows. -/
def FieldS.upTaken (x : FieldS) (lv : BitVec 16) (now : Nat) : FieldS :=
  { x with inp := chans fun i => if x.wb.getLsbD i then lv.getLsbD i else x.inp.getLsbD i,
           upLast := some x.upSeq, upAt := now, upDue := false, glitch := 0, fieldReset := false }

/-- The module as a valid frame has been taken into the record of its group. -/
def Hw.upTaken (h : Hw) (g missed : Nat) : Hw :=
  let k := h.upSupply g missed
  k.setField g ((h.field g).upTaken (k.fieldIn g) k.grain)

/-- A valid frame is taken; its content is shown unless the link is stale and the die not fit for use, and then such a die
makes the link stale, any other makes it good. -/
theorem Hw.fieldUp_eq (h : Hw) (g : Nat) (rb : BitVec 16) (volts : BitVec 8) (hot : Bool) : ∃ missed,
    h.fieldUp g rb volts hot =
      (let x := h.field g
       let bad := !(x.got == BitVec.allOnes 16) || x.uv
       let k := h.upTaken g missed
       let k := if x.stale && bad then k else (k.upInputs g x ((h.upSupply g missed).fieldIn g) rb
         (BitVec.ofNat 32 (volts.toNat * 0x10000 + x.supFlags hot))).upOutputs g x rb
       if bad then k.fieldStale g
       else (k.setField g { k.field g with stale := false }).setBit (fo g rREADY) 2 true) := ⟨_, rfl⟩

/-! What each step leaves. -/

theorem Hw.setReg_fieldView (h : Hw) {g o o' : Nat} (ho : o ≠ o') (v : Word) :
    (h.setReg (fo g o') v).fieldView (fo g o) = h.fieldView (fo g o) := (fieldView_aside g o).reg h (fo_ne ho) v

theorem Hw.setF_fieldView (h : Hw) {g o o' : Nat} (ho : o ≠ o') (hi lo v : Nat) :
    (h.setF (fo g o') hi lo v).fieldView (fo g o) = h.fieldView (fo g o) := h.setReg_fieldView ho _

theorem Hw.setBit_fieldView (h : Hw) {g o o' : Nat} (ho : o ≠ o') (i : Nat) (v : Bool) :
    (h.setBit (fo g o') i v).fieldView (fo g o) = h.fieldView (fo g o) := h.setReg_fieldView ho _

section
variable {g o : Nat} (ho : fieldOff o)
include ho

theorem Hw.upSupply_fieldView (h : Hw) (missed : Nat) (h1 : o ≠ 0x0AC) (h2 : o ≠ rSTAT) :
    (h.upSupply g missed).fieldView (fo g o) = h.fieldView (fo g o) := by
  unfold Hw.upSupply
  dsimp only
  rw [Hw.setBit_fieldView _ h2, Hw.setBit_fieldView _ h2, Aside.when (F := (Hw.fieldView · (fo g o))) (fun h => h.evt_fieldView ho 6),
    apply_ite (Hw.fieldView · (fo g o)), Hw.evt_fieldView ho, ite_self]
  exact (fieldView_aside g o).bumpN h (fo_ne h1) 15 0 missed

theorem Hw.upGlitches_fieldView (h : Hw) (x : FieldS) : (h.upGlitches g x).fieldView (fo g o) = h.fieldView (fo g o) :=
  Hw.each_keeps (Hw.fieldView · (fo g o)) (fun h i => h.bump_chCnt_fieldView ho i 7 0) _ _

theorem Hw.upBreaks_fieldView (h : Hw) (x : FieldS) : (h.upBreaks g x).fieldView (fo g o) = h.fieldView (fo g o) :=
  Hw.each_keeps (Hw.fieldView · (fo g o)) (fun h i => by
    rw [Hw.fltEvent_fieldView ho, Hw.bump_chCnt_fieldView ho, Hw.evt_fieldView ho]) _ _

theorem Hw.upShorts_fieldView (h : Hw) (short : BitVec 16) :
    (h.upShorts g short).fieldView (fo g o) = h.fieldView (fo g o) :=
  Hw.each_keeps (Hw.fieldView · (fo g o)) (fun h i => by rw [Hw.bump_chCnt_fieldView ho, Hw.evt_fieldView ho]) _ _

/-- An overload shutdown moves no register but those of its events and the latch. -/
theorem Hw.fieldOvl_fieldView (h : Hw) (i : Nat) (h1 : o ≠ 0x098) :
    (h.fieldOvl g i).fieldView (fo g o) = h.fieldView (fo g o) := by
  unfold Hw.fieldOvl
  dsimp only
  rw [apply_ite (Hw.fieldView · (fo g o)), Hw.evt_fieldView ho, Hw.setBit_fieldView _ h1, Hw.fltEvent_fieldView ho,
    Hw.bump_chCnt_fieldView ho, Hw.evt_fieldView ho, ite_self]

theorem Hw.upShutdowns_fieldView (h : Hw) (x : FieldS) (was : Word) (h1 : o ≠ 0x098) :
    (h.upShutdowns g x was).fieldView (fo g o) = h.fieldView (fo g o) :=
  Hw.each_keeps (Hw.fieldView · (fo g o)) (fun h i => h.fieldOvl_fieldView ho i h1) _ _

theorem Hw.upOutputs_fieldView (h : Hw) (x : FieldS) (rb : BitVec 16) (h1 : o ≠ 0x098) (h2 : o ≠ 0x09C) :
    (h.upOutputs g x rb).fieldView (fo g o) = h.fieldView (fo g o) := by
  unfold Hw.upOutputs
  dsimp only
  rw [Hw.setReg_fieldView _ h2, Hw.upShorts_fieldView ho, Hw.upShutdowns_fieldView ho _ _ _ h1, Hw.setF_fieldView _ h1]

theorem Hw.upInputs_fieldView (h : Hw) (x : FieldS) (lv rb : BitVec 16) (sup : Word) (h1 : o ≠ 0x0A4) (h2 : o ≠ 0x08C)
    (h3 : o ≠ 0x090) (h4 : o ≠ 0x094) : (h.upInputs g x lv rb sup).fieldView (fo g o) = h.fieldView (fo g o) := by
  unfold Hw.upInputs
  dsimp only
  rw [Hw.setReg_fieldView _ h4, Hw.upBreaks_fieldView ho, Hw.upGlitches_fieldView ho, Hw.setReg_fieldView _ h3,
    Hw.acqNote_fieldView, Hw.setReg_fieldView _ h2, Hw.setReg_fieldView _ h1]

end

/-- The lower half of SHUT, which a frame sets, stays through the overload events. -/
theorem Hw.f_shut_fieldOvl (h : Hw) (g : Nat) {i : Nat} (hi : i < 16) :
    (h.fieldOvl g i).f (fo g 0x098) 15 0 = h.f (fo g 0x098) 15 0 := by
  have ho : fieldOff 0x098 := by unfold fieldOff; decide
  have hev := ((h.evt (pFIO g) 4).bump (chCnt g i) 31 24).fltEvent_fieldView (g := g) ho 10 4 (16 * g + i)
    ((h.evt (pFIO g) 4).bump (chCnt g i) 31 24).grain
  rw [Hw.bump_chCnt_fieldView ho, Hw.evt_fieldView ho] at hev
  unfold Hw.fieldOvl
  dsimp only
  split
  · rw [Hw.f, Hw.reg_of_fieldView (Hw.evt_fieldView ho _ 7)]
    refine (Hw.f_setF_disj _ _ (Nat.le_refl _) (by omega) _ (.inl (by omega))).trans ?_
    rw [Hw.f, Hw.reg_of_fieldView hev, Hw.f]
  · rw [Hw.f, Hw.reg_of_fieldView hev, Hw.f]

theorem Hw.f_shut_upOutputs (h : Hw) (g : Nat) (x : FieldS) (rb : BitVec 16) :
    (h.upOutputs g x rb).f (fo g 0x098) 15 0 = x.shut.toNat := by
  have ho : fieldOff 0x098 := by unfold fieldOff; decide
  have hdown : ∀ (k : Hw) (was : Word), (k.upShutdowns g x was).f (fo g 0x098) 15 0 = k.f (fo g 0x098) 15 0 := fun k was =>
    Hw.each_keeps_mem (fun h : Hw => h.f (fo g 0x098) 15 0) (fun i hi h =>
      h.f_shut_fieldOvl g (List.mem_range.1 (List.mem_filter.1 hi).1)) k
  unfold Hw.upOutputs
  dsimp only
  rw [Hw.f, Hw.reg_of_fieldView (Hw.setReg_fieldView _ (by decide) _), Hw.reg_of_fieldView (Hw.upShorts_fieldView ho _ _)]
  refine (hdown _ _).trans ((Hw.f_setF_same _ _ (by decide) (by decide) _).trans (Nat.mod_eq_of_lt ?_))
  exact x.shut.isLt

/-- The registers the inputs of a frame come into. -/
theorem Hw.upInputs_shows (h : Hw) (g : Nat) (x : FieldS) (lv rb : BitVec 16) (sup : Word) :
    (h.upInputs g x lv rb sup).reg (fo g 0x08C) = lv.setWidth 32 ∧
      (h.upInputs g x lv rb sup).reg (fo g 0x090) = rb.setWidth 32 ∧
      (h.upInputs g x lv rb sup).reg (fo g 0x094) = x.wb.setWidth 32 ∧
      (h.upInputs g x lv rb sup).reg (fo g 0x0A4) = sup := by
  have tail {o : Nat} (ho : fieldOff o) (h4 : o ≠ 0x094) (k : Hw) :
      (((k.upGlitches g x).upBreaks g x).setReg (fo g 0x094) (x.wb.setWidth 32)).reg (fo g o) = k.reg (fo g o) :=
    Hw.reg_of_fieldView ((Hw.setReg_fieldView _ h4 _).trans
      ((Hw.upBreaks_fieldView ho _ x).trans (Hw.upGlitches_fieldView ho _ x)))
  have note {o : Nat} (h3 : o ≠ 0x090) (k : Hw) (kind ts v : Nat) :
      ((k.acqNote kind g ts v).setReg (fo g 0x090) (rb.setWidth 32)).reg (fo g o) = k.reg (fo g o) :=
    Hw.reg_of_fieldView ((Hw.setReg_fieldView _ h3 _).trans (Hw.acqNote_fieldView _ g o kind g ts v))
  refine ⟨?_, ?_, Hw.reg_setReg_same _ _ _, ?_⟩
  · exact (tail (by unfold fieldOff; decide) (by decide) _).trans ((note (by decide) _ _ _ _).trans (Hw.reg_setReg_same _ _ _))
  · exact (tail (by unfold fieldOff; decide) (by decide) _).trans (Hw.reg_setReg_same _ _ _)
  · exact (tail (by unfold fieldOff; decide) (by decide) _).trans ((note (by decide) _ _ _ _).trans
      ((Hw.reg_setReg_ne _ (fo_ne (by decide)) _).trans (Hw.reg_setReg_same _ _ _)))

/-! ### Downstream frames -/

/-- The record of a group after a downstream frame that the field die takes in. -/
def FieldS.downTaken (x : FieldS) (cfg : Word) (req : BitVec 16) (en : Bool) (now : Nat) : FieldS :=
  { x with dnSeq := (x.dnSeq + 1) % 16, idx := (x.idx + 1) % 16, cfg := tabIns x.idx cfg x.cfg, got := x.got ||| bit16 x.idx,
           req := req, outEn := en, dnSeen := (x.dnSeq + 1) % 16, dnAt := now, upDue := true,
           fieldReset := x.fieldReset && !x.upDue, upSeq := (x.upSeq + 1) % 16 }

/-- The downstream frame of a group as it leaves. -/
def Hw.downSent (h : Hw) (g : Nat) : Out :=
  { kind := .fieldDown, port := g, data := h.downFrame g (((h.field g).dnSeq + 1) % 16) (h.field g).idx }

/-- In its phase a downstream frame leaves; SEQ and CFG_IDX step on, and a die that takes it in gets its content. -/
theorem Hw.fieldDown_phase {h : Hw} {g : Nat} (hs : h.sup.shed = false) (hp : h.grain % 500 = if g = 0 then 0 else 250)
    (taken : Bool) : h.fieldDown g taken = (h.send (h.downSent g)).setField g (if taken then
      (h.field g).downTaken (h.cfgWord g (h.field g).idx) (chans (h.outReq g)) (h.outEnable g) h.grain
      else { h.field g with dnSeq := ((h.field g).dnSeq + 1) % 16, idx := ((h.field g).idx + 1) % 16 }) := by
  rw [Hw.fieldDown, if_neg (by simp [hs, hp])]
  cases taken <;> rfl

theorem Hw.fieldDown_idle {h : Hw} {g : Nat} (hno : h.sup.shed = true ∨ h.grain % 500 ≠ if g = 0 then 0 else 250)
    (taken : Bool) : h.fieldDown g taken = h := if_pos hno

/-! ### What a frame leaves the group with -/

theorem fieldOff_ready : fieldOff rREADY := by unfold fieldOff; decide
theorem fieldOff_in : fieldOff 0x08C := by unfold fieldOff; decide
theorem fieldOff_readback : fieldOff 0x090 := by unfold fieldOff; decide
theorem fieldOff_wire : fieldOff 0x094 := by unfold fieldOff; decide
theorem fieldOff_shut : fieldOff 0x098 := by unfold fieldOff; decide
theorem fieldOff_sup : fieldOff 0x0A4 := by unfold fieldOff; decide
theorem fieldOff_stat : fieldOff rSTAT := by unfold fieldOff; decide

/-- The levels reported rest on the group's record, the levels and the wire breaks shown. -/
theorem Hw.fieldIn_of {h k : Hw} {g : Nat} (hf : k.field g = h.field g) (hw : k.reg (fo g 0x094) = h.reg (fo g 0x094))
    (hi : k.reg (fo g 0x08C) = h.reg (fo g 0x08C)) : k.fieldIn g = h.fieldIn g := by
  unfold Hw.fieldIn Hw.bit
  rw [hf, hw, hi]

theorem Hw.fieldIn_upSupply (h : Hw) (g missed : Nat) : (h.upSupply g missed).fieldIn g = h.fieldIn g :=
  Hw.fieldIn_of (Hw.field_of_fieldView (h.upSupply_fieldView fieldOff_in missed (by decide) (by decide)) g)
    (Hw.reg_of_fieldView (h.upSupply_fieldView fieldOff_wire missed (by decide) (by decide)))
    (Hw.reg_of_fieldView (h.upSupply_fieldView fieldOff_in missed (by decide) (by decide)))

theorem Hw.field_upTaken (h : Hw) (g missed : Nat) :
    (h.upTaken g missed).field g = (h.field g).upTaken (h.fieldIn g) h.grain := by
  rw [Hw.upTaken, Hw.field_setField_same, Hw.fieldIn_upSupply,
    Hw.grain_of_fieldView (h.upSupply_fieldView (o := rREADY) fieldOff_ready missed (by decide) (by decide))]

theorem Hw.reg_upTaken (h : Hw) {g o : Nat} (missed : Nat) (ho : fieldOff o) (h1 : o ≠ 0x0AC) (h2 : o ≠ rSTAT) :
    (h.upTaken g missed).reg (fo g o) = h.reg (fo g o) :=
  (Hw.reg_setField _ _ _ _).trans (Hw.reg_of_fieldView (h.upSupply_fieldView ho missed h1 h2))

/-- STAT shows an undervoltage. -/
theorem Hw.bit_upTaken_uv (h : Hw) (g missed : Nat) : (h.upTaken g missed).bit (fo g rSTAT) 1 = (h.field g).uv := by
  unfold Hw.upTaken Hw.upSupply
  dsimp only
  rw [Hw.bit, Hw.reg_setField]
  exact (Hw.bit_setBit_other _ _ (by decide) (by decide) _).trans (Hw.bit_setBit_same _ _ (by decide) _)

/-- The flags of the supply octet take five bits. -/
theorem FieldS.supFlags_lt (x : FieldS) (hot : Bool) : x.supFlags hot < 32 := by
  have h : ∀ b : Bool, (if b then 1 else 0) ≤ 1 := fun b => by cases b <;> decide
  have h1 := h x.uv
  have h2 := h x.ov
  have h3 := h hot
  have h4 := h (x.got == BitVec.allOnes 16)
  have h5 := h x.fieldReset
  simp only [FieldS.supFlags]
  omega

theorem fld_supply {v n : Nat} (hv : v < 256) (hn : n < 0x10000) : fld (BitVec.ofNat 32 (v * 0x10000 + n)) 23 16 = v := by
  rw [fld, BitVec.toNat_ofNat, Nat.shiftRight_eq_div_pow]
  omega

/-- What a frame of a die fit for use shows: its levels, readbacks, wire breaks, shutdowns and supply, and a good link. -/
theorem Hw.fieldUp_good {h : Hw} {g : Nat} (rb : BitVec 16) (volts : BitVec 8) (hot : Bool)
    (hgot : (h.field g).got = 0xFFFF) (huv : (h.field g).uv = false) : ∃ t : Hw, h.fieldUp g rb volts hot = t ∧
      t.reg (fo g 0x08C) = (h.fieldIn g).setWidth 32 ∧ t.reg (fo g 0x090) = rb.setWidth 32 ∧
      t.reg (fo g 0x094) = (h.field g).wb.setWidth 32 ∧ t.f (fo g 0x098) 15 0 = (h.field g).shut.toNat ∧
      t.f (fo g 0x0A4) 23 16 = volts.toNat ∧
      t.field g = { (h.field g).upTaken (h.fieldIn g) h.grain with stale := false } ∧ t.bit (fo g rREADY) 2 = true := by
  obtain ⟨missed, e⟩ := h.fieldUp_eq g rb volts hot
  have hbad : (!((h.field g).got == BitVec.allOnes 16) || (h.field g).uv) = false := by
    rw [hgot, huv]
    decide
  dsimp only at e
  rw [hbad, Bool.and_false, if_neg Bool.false_ne_true, if_neg Bool.false_ne_true] at e
  refine ⟨_, e, ?_⟩
  generalize hsup : BitVec.ofNat 32 (volts.toNat * 0x10000 + (h.field g).supFlags hot) = sup
  rw [h.fieldIn_upSupply]
  obtain ⟨hin, hrb, hwb, hv⟩ := (h.upTaken g missed).upInputs_shows g (h.field g) (h.fieldIn g) rb sup
  generalize hk : (h.upTaken g missed).upInputs g (h.field g) (h.fieldIn g) rb sup = k at hin hrb hwb hv
  have hout {o : Nat} (ho : fieldOff o) (h1 : o ≠ 0x098) (h2 : o ≠ 0x09C) :
      (k.upOutputs g (h.field g) rb).reg (fo g o) = k.reg (fo g o) :=
    Hw.reg_of_fieldView (Hw.upOutputs_fieldView ho k _ _ h1 h2)
  have hready {o : Nat} (ho : o ≠ rREADY) (k : Hw) (x : FieldS) :
      ((k.setField g x).setBit (fo g rREADY) 2 true).reg (fo g o) = k.reg (fo g o) := Hw.reg_setBit_ne _ (fo_ne ho) _ _
  have hfield : (k.upOutputs g (h.field g) rb).field g = (h.field g).upTaken (h.fieldIn g) h.grain := by
    rw [Hw.field_of_fieldView (Hw.upOutputs_fieldView fieldOff_ready k _ _ (by decide) (by decide)), ← hk,
      Hw.field_of_fieldView (Hw.upInputs_fieldView fieldOff_ready _ _ _ _ _ (by decide) (by decide) (by decide) (by decide)),
      Hw.field_upTaken]
  refine ⟨?_, ?_, ?_, ?_, ?_, ?_, Hw.bit_setBit_same _ _ (by decide) _⟩
  · rw [hready (by decide), hout fieldOff_in (by decide) (by decide), hin]
  · rw [hready (by decide), hout fieldOff_readback (by decide) (by decide), hrb]
  · rw [hready (by decide), hout fieldOff_wire (by decide) (by decide), hwb]
  · rw [Hw.f, hready (by decide)]
    exact k.f_shut_upOutputs g (h.field g) rb
  · rw [Hw.f, hready (by decide), hout fieldOff_sup (by decide) (by decide), hv, ← hsup]
    exact fld_supply volts.isLt (((h.field g).supFlags_lt hot).trans (by decide))
  · refine (Hw.field_setField_same _ _ _).trans ?_
    rw [hfield]

/-- A frame of a die in undervoltage on a stale link shows nothing but the supply. -/
theorem Hw.fieldUp_held {h : Hw} {g : Nat} (rb : BitVec 16) (volts : BitVec 8) (hot : Bool)
    (hstale : (h.field g).stale = true) (huv : (h.field g).uv = true) : ∃ t : Hw, h.fieldUp g rb volts hot = t ∧
      t.reg (fo g 0x08C) = h.reg (fo g 0x08C) ∧ t.reg (fo g 0x090) = h.reg (fo g 0x090) ∧
      (t.field g).stale = true ∧ t.bit (fo g rSTAT) 1 = true := by
  obtain ⟨missed, e⟩ := h.fieldUp_eq g rb volts hot
  have htaken : ((h.upTaken g missed).field g).stale = true := by rw [Hw.field_upTaken]; exact hstale
  dsimp only at e
  rw [hstale, huv, Bool.or_true, Bool.and_true, if_pos rfl, if_pos rfl, Hw.fieldStale, if_pos htaken] at e
  exact ⟨_, e, h.reg_upTaken missed fieldOff_in (by decide) (by decide),
    h.reg_upTaken missed fieldOff_readback (by decide) (by decide), htaken, (h.bit_upTaken_uv g missed).trans huv⟩

/-- A group's link that becomes stale: its record, the event and READY. -/
theorem Hw.fieldStale_shows {h : Hw} {g : Nat} (hs : (h.field g).stale = false) :
    (h.fieldStale g).field g = { h.field g with stale := true } ∧ (h.fieldStale g).bit (fo g rEVT) 1 = true ∧
      (h.fieldStale g).bit (fo g rREADY) 2 = false := by
  unfold Hw.fieldStale
  dsimp only
  rw [if_neg (by simp [hs])]
  generalize hk : (h.setField g { h.field g with stale := true }).evt (pFIO g) 1 = k
  refine ⟨?_, ?_, Hw.bit_setBit_same _ _ (by decide) _⟩
  · rw [Hw.field_of_fieldView (Hw.setBit_fieldView (o := 0x08C) _ (by decide) _ _),
      Hw.field_of_fieldView (Hw.fltEvent_fieldView fieldOff_in k _ _ _ _), ← hk,
      Hw.field_of_fieldView (Hw.evt_fieldView fieldOff_in _ 1), Hw.field_setField_same]
  · rw [Hw.bit, Hw.reg_setBit_ne _ (fo_ne (by decide)),
      Hw.reg_of_fieldView ((fieldView_aside g rEVT).fltEvent k (fo_ne (by decide)) 10 1 g k.grain), ← hk]
    exact Hw.bit_evt _ (pFIO g) (by decide)

/-- A reply that is not valid counts, and the group waits for the next. -/
theorem Hw.fieldUpstream_invalid {h : Hw} {g : Nat} (hdue : (h.field g).upDue = true) (hs : h.sup.shed = false)
    (rb : BitVec 16) (volts : BitVec 8) (hot : Bool) : ∃ t : Hw, h.fieldUpstream g false rb volts hot = t ∧
      t.f (fo g 0x0AC) 31 16 = min (h.f (fo g 0x0AC) 31 16 + 1) 0xFFFF ∧ t.bit (fo g rEVT) 2 = true ∧
      t.field g = { h.field g with upDue := false, glitch := 0, fieldReset := false } ∧
      t.reg (fo g 0x08C) = h.reg (fo g 0x08C) := by
  refine ⟨_, by rw [Hw.fieldUpstream, if_neg (by simp [hdue, hs])], ?_⟩
  dsimp only
  rw [if_neg Bool.false_ne_true]
  generalize hk : Hw.bump _ (fo g 0x0AC) 31 16 = k
  have hAC : fieldOff 0x0AC := by unfold fieldOff; decide
  have hend {o : Nat} (ho : fieldOff o) (ts : Nat) := ((k.evt (pFIO g) 2).fltEvent_fieldView ho 10 2 g ts).trans
    (k.evt_fieldView ho 2)
  refine ⟨?_, ?_, ?_, ?_⟩
  · rw [Hw.f, Hw.reg_of_fieldView (hend hAC _), ← hk]
    exact Hw.f_bump_same _ _ (by decide) (by decide)
  · rw [Hw.bit, Hw.reg_of_fieldView ((fieldView_aside g rEVT).fltEvent _ (fo_ne (by decide)) 10 2 g _)]
    exact Hw.bit_evt k (pFIO g) (by decide)
  · rw [Hw.field_of_fieldView (hend fieldOff_in _), ← hk]
    exact Hw.field_setField_same _ _ _
  · rw [Hw.reg_of_fieldView (hend fieldOff_in _), ← hk, Hw.reg_bump_ne _ (fo_ne (by decide))]
    rfl

/-! ### What a field die does with its channels -/

theorem getLsbD_bit16 (i j : Nat) : (bit16 i).getLsbD j = (decide (j < 16) && decide (i = j)) := by
  rw [bit16, BitVec.getLsbD_ofNat, Nat.testBit_two_pow]

theorem getLsbD_setBit16_same (w : BitVec 16) {i : Nat} (hi : i < 16) (b : Bool) : (setBit16 w i b).getLsbD i = b := by
  cases b <;> simp [setBit16, BitVec.getLsbD_and, BitVec.getLsbD_or, getLsbD_bit16, hi, -BitVec.getLsbD_eq_getElem]

theorem getLsbD_setBit16_ne (w : BitVec 16) {i j : Nat} (hj : j ≠ i) (b : Bool) :
    (setBit16 w i b).getLsbD j = w.getLsbD j := by
  by_cases h16 : j < 16
  · cases b <;> simp [setBit16, BitVec.getLsbD_and, BitVec.getLsbD_or, getLsbD_bit16, hj.symm, h16, -BitVec.getLsbD_eq_getElem]
  · rw [BitVec.getLsbD_of_ge _ _ (by omega), BitVec.getLsbD_of_ge _ _ (by omega)]

section
variable {x : FieldS} {i first g : Nat}

theorem FieldS.accept_stood {l : Bool} (ho : x.isOut i = false) (hw : x.wb.getLsbD i = false)
    (hf : first + fieldFilt (fld (x.word i) 3 1) ≤ g) : x.accept i l first g = { x with inp := setBit16 x.inp i l } := by
  simp [FieldS.accept, FieldS.filtered, ho, hw, hf]

theorem FieldS.accept_held {l : Bool} (h : x.isOut i = true ∨ x.wb.getLsbD i = true ∨
    g < first + fieldFilt (fld (x.word i) 3 1)) : x.accept i l first g = x := by
  refine if_pos ?_
  rcases h with h | h | h
  · simp [h]
  · rw [h, Bool.or_true, Bool.true_or]
  · simp [FieldS.filtered, h]

theorem FieldS.glitched_short {len : Nat} (ho : x.isOut i = false) (hl : len < fieldFilt (fld (x.word i) 3 1)) :
    x.glitched i len = { x with glitch := x.glitch ||| bit16 i } := by
  simp [FieldS.glitched, FieldS.filtered, ho, hl, setBit16]

theorem FieldS.glitched_not {len : Nat} (h : x.isOut i = true ∨ fieldFilt (fld (x.word i) 3 1) ≤ len) :
    x.glitched i len = x := by
  refine if_pos ?_
  rcases h with h | h <;> simp [FieldS.filtered, h]

theorem FieldS.wireBreak_stood (hd : bitOf (x.word i) 4 = true) (ho : x.isOut i = false)
    (hf : first + fieldFilt (fld (x.word i) 3 1) ≤ g) : x.wireBreak i true first g = { x with wb := x.wb ||| bit16 i } := by
  simp [FieldS.wireBreak, FieldS.filtered, hd, ho, hf, setBit16]

theorem FieldS.wireBreak_not (h : bitOf (x.word i) 4 = false ∨ x.isOut i = true ∨
    g < first + fieldFilt (fld (x.word i) 3 1)) : x.wireBreak i true first g = x := by
  refine if_pos ?_
  rcases h with h | h | h <;> simp [FieldS.filtered, h]

theorem FieldS.wireBreak_ended (hf : first + fieldFilt (fld (x.word i) 3 1) ≤ g) :
    x.wireBreak i false first g = { x with wb := x.wb &&& ~~~(bit16 i) } := by
  simp [FieldS.wireBreak, FieldS.filtered, hf, setBit16]

theorem FieldS.wireBreak_unended (hf : g < first + fieldFilt (fld (x.word i) 3 1)) : x.wireBreak i false first g = x :=
  if_pos (by simp [FieldS.filtered, hf])

theorem FieldS.overload_driven (hd : x.drives i = true) : x.overload i = { x with shut := x.shut ||| bit16 i } := by
  rw [FieldS.overload, if_pos hd]
  rfl

theorem FieldS.supply_set {ovp : Bool} (h : first + 50000 ≤ g) : x.supply ovp true first g =
    if ovp then { x with ov := true } else { x with uv := true } := if_neg h.not_gt

theorem FieldS.supply_cleared {ovp : Bool} (h : first + 5000000 ≤ g) : x.supply ovp false first g =
    if ovp then { x with ov := false } else { x with uv := false } := if_neg h.not_gt

/-- A channel that is shut down is not driven. -/
theorem FieldS.drives_shut (hi : i < 16) : ({ x with shut := x.shut ||| bit16 i } : FieldS).drives i = false := by
  have h : (x.shut ||| bit16 i).getLsbD i = true := getLsbD_setBit16_same x.shut hi true
  simp only [FieldS.drives, h]
  simp

end

/-- What a change of a channel's field die leaves: the other groups and every register. -/
theorem Hw.fieldCh_shows (h : Hw) (ch k : Nat) (f : FieldS → Nat → FieldS) :
    (h.fieldCh ch f).field (ch / 16) = f (h.field (ch / 16)) (ch % 16) ∧
      (k = ch / 16 ∨ (h.fieldCh ch f).field k = h.field k) ∧ (h.fieldCh ch f).regs = h.regs :=
  ⟨h.field_setField_same _ _, or_iff_not_imp_left.2 fun hk => h.field_setField_ne hk _, rfl⟩

/-- A pulse whose time has come ends. -/
theorem Hw.pulses_pulseEnd {h : Hw} {ch : Nat}
    (hp : (tabGet (0, 0) (ch % 16) (h.field (ch / 16)).pulses).2 + 8 ≤ h.grain) :
    tabGet (0, 0) (ch % 16) ((h.pulseEnd ch).field (ch / 16)).pulses = (0, 0) := by
  rw [Hw.pulseEnd, (Hw.fieldCh_shows _ ch 0 _).1, if_pos hp]
  exact tabGet_tabSet_same (0, 0) (ch % 16) (0, 0) (h.field (ch / 16)).pulses

/-- The latches OVL_CLR clears, and those it leaves. -/
theorem Hw.bit_each_clearLatch (h : Hw) (a : Nat) {l : List Nat} (hl : ∀ i ∈ l, i < 16) (j : Nat) :
    (h.each l fun h i => h.setBit a (16 + i) false).bit a (16 + j) = (!decide (j ∈ l) && h.bit a (16 + j)) := by
  unfold Hw.each
  induction l generalizing h with
  | nil => simp
  | cons i l ih =>
    have hi : 16 + i < 32 := by have := hl i List.mem_cons_self; omega
    rw [List.foldl_cons, ih _ fun k hk => hl k (List.mem_cons_of_mem i hk)]
    by_cases hj : j = i
    · simp [hj, Hw.bit_setBit_same _ _ hi]
    · simp [hj, Hw.bit_setBit_other _ _ hi (by omega : 16 + j ≠ 16 + i)]

theorem Hw.bit_ovlClr (h : Hw) (g : Nat) (v : BitVec 16) {i : Nat} (hi : i < 16) :
    (h.ovlClr g v).bit (fo g 0x098) (16 + i) =
      (!(v.getLsbD i && !h.bit (fo g 0x098) i && !(h.field g).shut.getLsbD i) && h.bit (fo g 0x098) (16 + i)) := by
  refine (h.bit_each_clearLatch _ (fun j hj => List.mem_range.1 (List.mem_filter.1 hj).1) i).trans ?_
  simp [List.mem_filter, hi, -BitVec.getLsbD_eq_getElem]

theorem Hw.fields_ovlClr (h : Hw) (g : Nat) (v : BitVec 16) : (h.ovlClr g v).fields = h.fields := by
  refine Hw.each_keeps Hw.fields (fun h i => ?_) _ _
  rfl

/-- What is requested of a channel rests on the registers and on its pulse. -/
theorem Hw.outReq_of_noPulse {h k : Hw} {g i : Nat} (hr : k.regs = h.regs)
    (hp : ∀ x ∈ [h, k], (tabGet (0, 0) i (x.field g).pulses).2 + 8 ≤ x.grain ∨
      tabGet (0, 0) i (x.field g).pulses = (0, 0)) : h.outReq g i = k.outReq g i := by
  have off : ∀ x ∈ [h, k], (decide ((tabGet (0, 0) i (x.field g).pulses).1 + 8 ≤ x.grain) &&
      decide (x.grain < (tabGet (0, 0) i (x.field g).pulses).2 + 8)) = false := fun x hx => by
    rcases hp x hx with h1 | h1
    · simp [h1.not_gt]
    · simp only [h1, Bool.and_eq_false_iff, decide_eq_false_iff_not]
      omega
  have hreg : ∀ a, k.reg a = h.reg a := Hw.reg_of_regs hr
  unfold Hw.outReq
  dsimp only
  rw [off h (by simp), off k (by simp)]
  simp only [Hw.bit, Hw.mode, hreg]

end Sys2Proof.Machine

namespace Sys2Proof
open Machine

theorem pFIO_ne_pFLT (g : Nat) : pFIO g ≠ pFLT := by
  simp only [pFIO, pFLT]
  omega

/-- A software write to a FIO page acts on a module whose field dies and page are those before it. -/
theorem gives_fieldWrite {s : State} {g q off : Nat} {f : Hw → Hw} {P : State → Prop} (hl : Live s)
    (hu : Unlocked s (pFIO q)) (hP : ∀ (k : Hw) (m : Mem), k.fields = s.hw.fields →
      (∀ off, k.reg (fo q off) = s.hw.reg (fo q off)) → P { s with hw := (f k).seal (max s.hw.grain g), mem := m }) :
    ∃ t, run g (fun _ h => h.swWrite (pFIO q) off f) s = .next t ∧ P t :=
  gives_write hl (pFIO_ne_pFLT q) hu fun k hk => hP k.atWrite _ hk.fields fun _ => hk.reg not_inLog_fo

/-- A change of what a channel's field die holds. -/
theorem gives_fieldCh {s : State} {g : Nat} (ch : Fin 32) (k : Nat) {f : Hw → FieldS → Nat → FieldS} {y : FieldS}
    {P : State → Prop} (hl : Live s) (hy : f (s.hw.at g) (s.hw.field (ch.val / 16)) (ch.val % 16) = y)
    (hP : ∀ t : State, t.hw.field (ch.val / 16) = y → (k = ch.val / 16 ∨ t.hw.field k = s.hw.field k) →
      t.hw.regs = s.hw.regs → P t) : ∃ t, run g (fun _ h => h.fieldCh ch (f h)) s = .next t ∧ P t := by
  obtain ⟨hsame, hother, hregs⟩ := (s.hw.at g).fieldCh_shows ch k (f (s.hw.at g))
  exact gives_run hl (hP _ (hsame.trans hy) hother hregs)

/-- A change of what a group's field die holds. -/
theorem gives_fieldGroup {s : State} {g q : Nat} {f : Hw → FieldS} {P : State → Prop} (hl : Live s)
    (hP : ∀ t : State, t.hw.field q = f (s.hw.at g) → t.hw.regs = s.hw.regs → P t) :
    ∃ t, run g (fun _ h => h.setField q (f h)) s = .next t ∧ P t :=
  gives_run hl (hP _ ((s.hw.at g).field_setField_same q _) rfl)

/-- A command of a group that does nothing. -/
theorem gives_fieldIdle {s : State} {g : Nat} {f : Mem → Hw → Hw} (hl : Live s) (hf : f s.mem (s.hw.at g) = s.hw.at g) :
    ∃ t, run g f s = .next t ∧ t.hw.regs = s.hw.regs ∧ t.hw.fields = s.hw.fields ∧ t.hw.out = [] := by
  refine gives_run hl ?_
  rw [afterRun_hw, hf]
  exact ⟨rfl, rfl, rfl⟩

/-- The phase of a group in the period of its link. -/
theorem phase_grpN (p : Bool) : (if grpN p = 0 then 0 else 250) = if p then 250 else 0 := by
  cases p <;> rfl

/-- Settles O55: each clause is what the operation of the command gives, read on the group's record and its page. -/
theorem fieldChannels : Obligations.FieldChannels := by
  intro s g p ch hl
  have hch : ch.val % 16 < 16 := Nat.mod_lt _ (by decide)
  refine ⟨fun hsh hph hidx => ?_, fun hsh hph => ?_, fun taken hno => ?_, fun rb volts hot ha hdue hsh => ?_,
    fun rb volts hot ha hdue hsh hgot huv => ?_, fun rb volts hot ha hdue hsh hst huv => ?_,
    fun valid rb volts hot ha hno => ?_, fun lvl i first ho hw hf => ?_, fun lvl first hno => ?_, fun k len ho hlen => ?_,
    fun len hno => ?_, fun k first hd ho hf => ?_, fun first hno => ?_, fun k first hf => ?_, fun first hf => ?_,
    fun k hd => ?_, fun hd => ?_, fun k => ?_, fun v i ha hu hv hb hs hi => ?_, fun v i ha hu hno hi => ?_,
    fun v hu => ?_, fun v hu => ?_, fun hp => ?_, fun hp => ?_, fun i first hf => ?_, fun first hf => ?_,
    fun i first hf => ?_, fun first hf => ?_, fun ovp first hf => ?_, fun ovp first hf => ?_, fun hlate hst => ?_,
    fun hno => ?_, fun i hlate => ?_, fun hno => ?_⟩
  · refine gives_run (f := fun _ h => h.fieldDown (grpN p) true) hl ?_
    have e := Hw.fieldDown_phase (h := s.hw.at g) (g := grpN p) hsh (hph.trans (phase_grpN p).symm) true
    rw [if_pos rfl] at e
    rw [afterRun_hw, e, Hw.field_seal, Hw.field_setField_same]
    exact ⟨rfl, rfl, rfl, rfl, rfl, tabGet_tabIns_same _ _ _ _, rfl, rfl, rfl, rfl⟩
  · refine gives_run (f := fun _ h => h.fieldDown (grpN p) false) hl ?_
    have e := Hw.fieldDown_phase (h := s.hw.at g) (g := grpN p) hsh (hph.trans (phase_grpN p).symm) false
    rw [if_neg Bool.false_ne_true] at e
    rw [afterRun_hw, e, Hw.field_seal, Hw.field_setField_same]
    exact ⟨rfl, rfl⟩
  · exact gives_fieldIdle (f := fun _ h => h.fieldDown (grpN p) taken) hl
      (Hw.fieldDown_idle (h := s.hw.at g) (hno.imp_right fun h => (phase_grpN p).symm ▸ h) taken)
  · refine gives_inTurn ha (gives_run hl ?_)
    obtain ⟨t, e, hcnt, hevt, hfield, hin⟩ := Hw.fieldUpstream_invalid (h := s.hw.at g) hdue hsh rb volts hot
    rw [afterRun_hw, e]
    exact ⟨hcnt, hevt, hfield, hin⟩
  · refine gives_inTurn ha (gives_run hl ?_)
    obtain ⟨t, e, hin, hrb, hwb, hshut, hvolts, hfield, hready⟩ :=
      Hw.fieldUp_good (h := (s.hw.at g).send { kind := .fieldUp, port := grpN p, data := (s.hw.at g).upFrame (grpN p) rb volts hot })
        rb volts hot hgot huv
    have e' : (s.hw.at g).fieldUpstream (grpN p) true rb volts hot = t := (if_neg (by simp [hdue, hsh])).trans e
    rw [afterRun_hw, e', Hw.field_seal, hfield]
    exact ⟨hin, hrb, hwb, hshut, hvolts, rfl, rfl, rfl, rfl, rfl, hready⟩
  · refine gives_inTurn ha (gives_run hl ?_)
    obtain ⟨t, e, hin, hrb, hstale, hstat⟩ :=
      Hw.fieldUp_held (h := (s.hw.at g).send { kind := .fieldUp, port := grpN p, data := (s.hw.at g).upFrame (grpN p) rb volts hot })
        rb volts hot hst huv
    have e' : (s.hw.at g).fieldUpstream (grpN p) true rb volts hot = t := (if_neg (by simp [hdue, hsh])).trans e
    rw [afterRun_hw, e']
    exact ⟨hin, hrb, hstale, hstat⟩
  · exact gives_inTurn ha (gives_fieldIdle (f := fun _ h => h.fieldUpstream (grpN p) valid rb volts hot) hl
      (if_pos (by simpa using hno)))
  · refine gives_fieldCh ch 0 (f := fun h x i => x.accept i lvl first h.grain) hl (FieldS.accept_stood ho hw hf)
      fun t ht _ hr => ?_
    rw [ht]
    exact ⟨getLsbD_setBit16_same _ hch _, or_iff_not_imp_left.2 fun hi => getLsbD_setBit16_ne _ hi _, hr⟩
  · exact gives_fieldCh ch 0 (f := fun h x i => x.accept i lvl first h.grain) hl (FieldS.accept_held hno)
      fun t ht _ hr => ⟨ht, hr⟩
  · exact gives_fieldCh ch k (f := fun _ x i => x.glitched i len) hl (FieldS.glitched_short ho hlen)
      fun t ht hk hr => ⟨ht, hk, hr⟩
  · exact gives_fieldCh ch 0 (f := fun _ x i => x.glitched i len) hl (FieldS.glitched_not hno) fun t ht _ hr => ⟨ht, hr⟩
  · exact gives_fieldCh ch k (f := fun h x i => x.wireBreak i true first h.grain) hl (FieldS.wireBreak_stood hd ho hf)
      fun t ht hk hr => ⟨ht, hk, hr⟩
  · exact gives_fieldCh ch 0 (f := fun h x i => x.wireBreak i true first h.grain) hl (FieldS.wireBreak_not hno)
      fun t ht _ hr => ⟨ht, hr⟩
  · exact gives_fieldCh ch k (f := fun h x i => x.wireBreak i false first h.grain) hl (FieldS.wireBreak_ended hf)
      fun t ht hk hr => ⟨ht, hk, hr⟩
  · exact gives_fieldCh ch 0 (f := fun h x i => x.wireBreak i false first h.grain) hl (FieldS.wireBreak_unended hf)
      fun t ht _ hr => ⟨ht, hr⟩
  · refine gives_fieldCh ch k (f := fun _ => FieldS.overload) hl (FieldS.overload_driven hd) fun t ht hk hr => ?_
    exact ⟨ht, hk, hr, by rw [ht]; exact FieldS.drives_shut hch⟩
  · exact gives_fieldCh ch 0 (f := fun _ => FieldS.overload) hl (if_neg (by simp [hd])) fun t ht _ hr => ⟨ht, hr⟩
  · exact gives_fieldCh ch k (f := fun _ x i => { x with shut := setBit16 x.shut i false }) hl rfl
      fun t ht hk hr => ⟨ht, hk, hr⟩
  · refine gives_inTurn ha (gives_fieldWrite hl hu fun h m hfields hreg => ?_)
    have hfield : h.field (grpN p) = s.hw.field (grpN p) := by simp only [Hw.field, hfields]
    refine ⟨(h.bit_ovlClr _ v hi).trans ?_, by simp only [Hw.field, Hw.seal_fields, Hw.fields_ovlClr, hfields]⟩
    rw [Hw.bit, hreg, ← Hw.bit, hv, hb, hfield, hs]
    rfl
  · refine gives_inTurn ha (gives_fieldWrite hl hu fun h m hfields hreg => ?_)
    have hfield : h.field (grpN p) = s.hw.field (grpN p) := by simp only [Hw.field, hfields]
    refine ⟨(h.bit_ovlClr _ v hi).trans ?_, by simp only [Hw.field, Hw.seal_fields, Hw.fields_ovlClr, hfields]⟩
    have hbit : ∀ j, h.bit (fo (grpN p) 0x098) j = s.hw.bit (fo (grpN p) 0x098) j := fun j => congrArg (bitOf · j) (hreg _)
    rw [hbit, hbit, hfield]
    rcases hno with e | e <;> simp [e]
  · refine gives_fieldWrite hl hu fun h m hfields hreg => ⟨?_, hfields⟩
    rw [Hw.seal_reg, Hw.reg_setReg_same, hreg]
  · refine gives_fieldWrite hl hu fun h m hfields hreg => ⟨?_, hfields⟩
    rw [Hw.seal_reg, Hw.reg_setReg_same, hreg]
  · refine gives_run (f := fun _ h => h.pulseEnd ch) hl ?_
    have hpulses := Hw.pulses_pulseEnd (h := s.hw.at g) (ch := ch) hp
    refine ⟨hpulses, Hw.outReq_of_noPulse rfl fun x hx => ?_⟩
    simp only [List.mem_cons, List.not_mem_nil, or_false] at hx
    rcases hx with rfl | rfl
    · exact .inl hp
    · exact .inr hpulses
  · refine gives_run (f := fun _ h => h.pulseEnd ch) hl ?_
    obtain ⟨hsame, -, hregs⟩ := (s.hw.at g).fieldCh_shows ch 0 fun x i =>
      if (tabGet (0, 0) i x.pulses).2 + 8 ≤ (s.hw.at g).grain then { x with pulses := tabSet (0, 0) i (0, 0) x.pulses } else x
    exact ⟨hsame.trans (if_neg hp.not_ge), hregs⟩
  · refine gives_fieldGroup (f := fun h => (h.field (grpN p)).supply false true first h.grain) hl fun t ht hr => ?_
    rw [FieldS.supply_set (g := (s.hw.at g).grain) hf, if_neg Bool.false_ne_true] at ht
    exact ⟨ht, by rw [ht, FieldS.drives]; simp, hr⟩
  · refine gives_fieldGroup (f := fun h => (h.field (grpN p)).supply false true first h.grain) hl fun t ht hr => ?_
    exact ⟨ht.trans (if_pos hf), hr⟩
  · refine gives_fieldGroup (f := fun h => (h.field (grpN p)).supply true true first h.grain) hl fun t ht hr => ?_
    rw [FieldS.supply_set (g := (s.hw.at g).grain) hf, if_pos rfl] at ht
    exact ⟨ht, by rw [ht, FieldS.drives]; simp, hr⟩
  · refine gives_fieldGroup (f := fun h => (h.field (grpN p)).supply true true first h.grain) hl fun t ht hr => ?_
    exact ⟨ht.trans (if_pos hf), hr⟩
  · refine gives_fieldGroup (f := fun h => (h.field (grpN p)).supply ovp false first h.grain) hl fun t ht hr => ?_
    exact ⟨ht.trans (FieldS.supply_cleared hf), hr⟩
  · refine gives_fieldGroup (f := fun h => (h.field (grpN p)).supply ovp false first h.grain) hl fun t ht hr => ?_
    exact ⟨ht.trans (if_pos hf), hr⟩
  · refine gives_run (f := fun _ h => h.fieldTimeout (grpN p)) hl ?_
    obtain ⟨hfield, hevt, hready⟩ := Hw.fieldStale_shows (h := s.hw.at g) hst
    have e : (s.hw.at g).fieldTimeout (grpN p) = (s.hw.at g).fieldStale (grpN p) := if_pos hlate
    rw [afterRun_hw, e]
    refine ⟨hfield, hevt, hready, ?_⟩
    rw [Hw.outEnable, Hw.field_seal, hfield]
    exact Bool.and_false _
  · refine gives_fieldIdle (f := fun _ h => h.fieldTimeout (grpN p)) hl ?_
    by_cases hlate : (s.hw.field (grpN p)).upAt + 500 * max 1 (s.hw.f (fo (grpN p) 0x0A8) 7 0) ≤ max s.hw.grain g
    · exact (if_pos hlate).trans (if_pos (hno.resolve_right hlate.not_gt))
    · exact if_neg hlate
  · refine gives_run (f := fun _ h => h.fieldReset (grpN p)) hl ?_
    have e : (s.hw.at g).fieldReset (grpN p) = (s.hw.at g).setField (grpN p) { s.hw.field (grpN p) with
        cfg := [], got := 0, fieldReset := true, req := 0, outEn := false, wb := 0, shut := 0, upDue := false } := if_pos hlate
    rw [afterRun_hw, e, Hw.field_seal, Hw.field_setField_same]
    exact ⟨rfl, by simp [FieldS.drives], rfl⟩
  · exact gives_fieldIdle (f := fun _ h => h.fieldReset (grpN p)) hl (if_neg hno.not_ge)

end Sys2Proof

namespace Sys2Proof.Machine

/-! ### The domain counters: what each operation on them leaves -/

@[simp] theorem Hw.dom_setDom_same (h : Hw) (b : Bool) (d : DomS) : (h.setDom b d).dom b = d := by
  cases b <;> rfl

@[simp] theorem Hw.reg_setDom (h : Hw) (b : Bool) (d : DomS) (a : Nat) : (h.setDom b d).reg a = h.reg a := rfl
@[simp] theorem Hw.f_setDom (h : Hw) (b : Bool) (d : DomS) (a hi lo : Nat) : (h.setDom b d).f a hi lo = h.f a hi lo := rfl
@[simp] theorem Hw.bit_setDom (h : Hw) (b : Bool) (d : DomS) (a i : Nat) : (h.setDom b d).bit a i = h.bit a i := rfl
@[simp] theorem Hw.dom_seal (h : Hw) (g : Nat) (b : Bool) : (h.seal g).dom b = h.dom b := rfl
@[simp] theorem Hw.dom_at (h : Hw) (g : Nat) (b : Bool) : (h.at g).dom b = h.dom b := rfl
@[simp] theorem Hw.dom_setReg (h : Hw) (a : Nat) (v : Word) (b : Bool) : (h.setReg a v).dom b = h.dom b := rfl

theorem Hw.dom_of_ntm {h k : Hw} (e : k.ntm = h.ntm) (b : Bool) : k.dom b = h.dom b := by simp only [Hw.dom, e]

/-- Putting back what a domain holds changes nothing. -/
theorem Hw.setDom_dom (h : Hw) (b : Bool) : h.setDom b (h.dom b) = h := by
  cases b <;> rfl

theorem dmr_ne_nt {b : Bool} {o o' : Nat} (h : o' < 0x100) : dmr b o ≠ nt o' := by
  cases b <;> simp only [dmr, nt, ra, if_true, Bool.false_eq_true, if_false] <;> omega

theorem dmr_ne {b : Bool} {o o' : Nat} (h : o ≠ o') : dmr b o ≠ dmr b o' := by
  simp only [dmr, nt, ra]
  omega

theorem nt_ne {o o' : Nat} (h : o ≠ o') : nt o ≠ nt o' := by
  simp only [nt, ra]
  omega

@[simp] theorem Hw.reg_evt_dmr (h : Hw) (b : Bool) (i o : Nat) : (h.evt pNTM i).reg (dmr b o) = h.reg (dmr b o) :=
  h.reg_evt_ne (dmr_ne_nt (by decide)) (dmr_ne_nt (by decide)) i

/-- The module k has the registers of h but for READY, EVT and EVT_TS of the NTM page, and the events of h. -/
structure LockMoved (h k : Hw) : Prop where
  reg : ∀ {a}, a ≠ nt rREADY → a ≠ nt rEVT → a ≠ nt rEVT_TS → k.reg a = h.reg a
  evt : ∀ {i}, h.bit (nt rEVT) i = true → k.bit (nt rEVT) i = true

theorem LockMoved.rfl' {h k : Hw} (e : k.regs = h.regs) : LockMoved h k :=
  ⟨fun _ _ _ => Hw.reg_of_regs e _, fun {i} hi => (congrArg (bitOf · i) (Hw.reg_of_regs e _)).trans hi⟩

theorem LockMoved.setDom (h : Hw) (b : Bool) (d : DomS) : LockMoved h (h.setDom b d) := LockMoved.rfl' rfl

theorem LockMoved.trans {h k l : Hw} (h1 : LockMoved h k) (h2 : LockMoved k l) : LockMoved h l :=
  ⟨fun a1 a2 a3 => (h2.reg a1 a2 a3).trans (h1.reg a1 a2 a3), fun hi => h2.evt (h1.evt hi)⟩

theorem LockMoved.dmr {h k : Hw} (hk : LockMoved h k) (b : Bool) (o : Nat) : k.reg (dmr b o) = h.reg (dmr b o) :=
  hk.reg (dmr_ne_nt (by decide)) (dmr_ne_nt (by decide)) (dmr_ne_nt (by decide))

theorem dn_lt (b : Bool) : dn b < 2 := by cases b <;> decide

/-- A change of the lock: its bit and, where it changes, its event; a lock lost starts the count of good Syncs anew. -/
theorem Hw.domLock_shows (h : Hw) (b on : Bool) :
    (h.domLock b on).dom b = (if on then h.dom b else { h.dom b with ok := 0 }) ∧ (h.domLock b on).domLocked b = on ∧
      LockMoved h (h.domLock b on) ∧
      (h.domLocked b ≠ on → (h.domLock b on).bit (nt rEVT) (4 + dn b) = true) := by
  have hn : 2 + dn b < 32 := by have := dn_lt b; omega
  have he : 4 + dn b < 32 := by have := dn_lt b; omega
  generalize hk : (if on then h else h.setDom b { h.dom b with ok := 0 }) = k
  have hregs : k.regs = h.regs := by rw [← hk]; split <;> rfl
  have hlock : k.domLocked b = h.domLocked b := congrArg (bitOf · _) (Hw.reg_of_regs hregs _)
  have hdom : k.dom b = if on then h.dom b else { h.dom b with ok := 0 } := by
    rw [← hk]
    cases on
    · exact h.dom_setDom_same b _
    · rfl
  have e : h.domLock b on = if k.domLocked b = on then k else (k.setBit (nt rREADY) (2 + dn b) on).evt pNTM (4 + dn b) := by
    rw [← hk]; rfl
  by_cases hon : h.domLocked b = on
  · rw [e, if_pos (hlock.trans hon)]
    exact ⟨hdom, hlock.trans hon, LockMoved.rfl' hregs, fun hne => absurd hon hne⟩
  · rw [e, if_neg (by rwa [hlock])]
    refine ⟨?_, ?_, ⟨fun h1 h2 h3 => ?_, fun {i} hi => ?_⟩, fun _ => Hw.bit_evt _ pNTM he⟩
    · rw [Hw.dom_of_ntm (Hw.evt_ntm _ _ _)]
      exact hdom
    · rw [Hw.domLocked, Hw.bit, Hw.reg_evt_ne _ (nt_ne (by decide)) (nt_ne (by decide))]
      exact Hw.bit_setBit_same k (nt rREADY) hn on
    · rw [Hw.reg_evt_ne _ h2 h3, Hw.reg_setBit_ne _ h1, Hw.reg_of_regs hregs]
    · refine (Hw.bit_evt_or _ pNTM he i).trans ?_
      have hkeep : (k.setBit (nt rREADY) (2 + dn b) on).bit (nt rEVT) i = true := by
        rw [Hw.bit_setBit_ne _ (nt_ne (by decide)), Hw.bit, Hw.reg_of_regs hregs]
        exact hi
      exact (congrArg (_ || ·) hkeep).trans (Bool.or_true _)

/-- The lock rule counts good Syncs and moves the lock. -/
theorem Hw.lockRule_shows (h : Hw) (b : Bool) (o : Int) :
    (∃ n, (h.lockRule b o).dom b = { h.dom b with ok := n }) ∧ LockMoved h (h.lockRule b o) := by
  unfold Hw.lockRule
  dsimp only
  split
  · obtain ⟨hdom, -, hmoved, -⟩ := h.domLock_shows b false
    exact ⟨⟨0, hdom⟩, hmoved⟩
  · split
    · split
      · obtain ⟨hdom, -, hmoved, -⟩ := (h.setDom b { h.dom b with ok := (h.dom b).ok + 1 }).domLock_shows b true
        exact ⟨⟨_, hdom.trans (h.dom_setDom_same b _)⟩, (LockMoved.setDom h b _).trans hmoved⟩
      · exact ⟨⟨_, h.dom_setDom_same b _⟩, LockMoved.rfl' rfl⟩
    · exact ⟨⟨_, h.dom_setDom_same b _⟩, LockMoved.rfl' rfl⟩

/-! ### Messages sent -/

/-- The counter of the frames a port has sent. -/
def sentCnt (p : Nat) : Nat := ra pNSW (0x304 + 0x20 * p)

/-- The module k is h after messages left: only the counters of frames sent have moved, and what had been sent before
stands. -/
structure Sent (h k : Hw) : Prop where
  ntm : k.ntm = h.ntm
  grain : k.grain = h.grain
  reg : ∀ a, (∀ p, a ≠ sentCnt p) → k.reg a = h.reg a
  out : ∀ o ∈ h.out, o ∈ k.out

namespace Sent

theorem refl (h : Hw) : Sent h h := ⟨rfl, rfl, fun _ _ => rfl, fun _ ho => ho⟩

theorem trans {h k l : Hw} (h1 : Sent h k) (h2 : Sent k l) : Sent h l :=
  ⟨h2.ntm.trans h1.ntm, h2.grain.trans h1.grain, fun a ha => (h2.reg a ha).trans (h1.reg a ha),
    fun o ho => h2.out o (h1.out o ho)⟩

variable {h k : Hw} (hk : Sent h k)
include hk

theorem dom (b : Bool) : k.dom b = h.dom b := Hw.dom_of_ntm hk.ntm b

theorem nt (o : Nat) (ho : o < 0x1000) : k.reg (nt o) = h.reg (nt o) :=
  hk.reg _ fun p => by
    simp only [sentCnt, Machine.nt, ra, pNTM, pNSW]
    omega

theorem dmr (b : Bool) {o : Nat} (ho : o < 0x80) : k.reg (dmr b o) = h.reg (dmr b o) :=
  hk.nt _ (by cases b <;> simp <;> omega)

end Sent

/-- A message on one transport. -/
def Hw.ptpFrame (h : Hw) (b : Bool) (kind : OutKind) (p : Nat) (seq : BitVec 16) (fields : List Int) (v : PtpVia) : Out :=
  { kind, port := p, nums := [2, 1] ++ (if v = .udp4 then [1, 0] else [0]) ++
      [(h.f (dmr b 0) 7 0 : Int), (seq.toNat : Int)] ++ fields }

theorem Hw.ptpFrame_of {h k : Hw} {b : Bool} (e : k.reg (dmr b 0) = h.reg (dmr b 0)) (kind : OutKind) (p : Nat)
    (seq : BitVec 16) (fields : List Int) (v : PtpVia) : k.ptpFrame b kind p seq fields v = h.ptpFrame b kind p seq fields v := by
  simp only [Hw.ptpFrame, Hw.f, e]

/-- One message on one transport leaves. -/
def Hw.sendOne (h : Hw) (b : Bool) (kind : OutKind) (p : Nat) (seq : BitVec 16) (fields : List Int) (v : PtpVia) : Hw :=
  (h.bumpWrap (sentCnt p)).send (h.ptpFrame b kind p seq fields v)

theorem Hw.sendOne_sent (h : Hw) (b : Bool) (kind : OutKind) (p : Nat) (seq : BitVec 16) (fields : List Int) (v : PtpVia) :
    Sent h (h.sendOne b kind p seq fields v) :=
  ⟨rfl, rfl, fun _ ha => h.reg_setReg_ne (ha p) _, fun _ ho => List.mem_append_left _ ho⟩

section
variable (b : Bool) (kind : OutKind) (p : Nat) (seq : BitVec 16) (fields : List Int)

/-- A message on a list of transports: each leaves once, and each counts. -/
theorem Hw.each_sendOne (l : List PtpVia) (h : Hw) :
    Sent h (h.each l fun h v => h.sendOne b kind p seq fields v) ∧
      (∀ q, (h.each l fun h v => h.sendOne b kind p seq fields v).reg (sentCnt q) =
        h.reg (sentCnt q) + if q = p then BitVec.ofNat 32 l.length else 0) ∧
      ∀ v ∈ l, h.ptpFrame b kind p seq fields v ∈ (h.each l fun h v => h.sendOne b kind p seq fields v).out := by
  unfold Hw.each
  induction l generalizing h with
  | nil => exact ⟨Sent.refl h, fun q => by simp, fun v hv => absurd hv List.not_mem_nil⟩
  | cons v l ih =>
    obtain ⟨hsent, hcnt, hout⟩ := ih (h.sendOne b kind p seq fields v)
    have hone := h.sendOne_sent b kind p seq fields v
    rw [List.foldl_cons]
    refine ⟨hone.trans hsent, fun q => ?_, fun w hw => ?_⟩
    · rw [hcnt]
      by_cases hq : q = p
      · subst hq
        have hstep : (h.sendOne b kind q seq fields v).reg (sentCnt q) = h.reg (sentCnt q) + 1 := Hw.reg_setReg_same _ _ _
        rw [hstep, if_pos rfl, if_pos rfl, List.length_cons]
        bv_omega
      · have hne : sentCnt q ≠ sentCnt p := by
          simp only [sentCnt, ra]
          omega
        rw [if_neg hq, if_neg hq]
        exact congrArg (· + 0) (Hw.reg_setReg_ne h hne _)
    · rcases List.mem_cons.1 hw with rfl | hw
      · exact hsent.out _ (List.mem_append_right _ (List.mem_singleton.2 rfl))
      · rw [← Hw.ptpFrame_of (hone.dmr b (o := 0) (by decide))]
        exact hout w hw

/-- A port that is enabled and has link. -/
def Hw.ptpUp (h : Hw) (p : Nat) : Bool := h.bit (ra pNSW (0x060 + 4 * p)) 0 && h.bit (ra pNSW (0x070 + 4 * p)) 0

theorem Hw.ptpSend_eq (h : Hw) : h.ptpSend b kind p seq fields =
    if h.ptpUp p then h.each (h.domVias b) fun h v => h.sendOne b kind p seq fields v else h := by
  unfold Hw.ptpSend Hw.ptpUp
  split
  · refine congrArg (Hw.each h _) (funext fun h => funext fun v => ?_)
    cases v <;> rfl
  · rfl

/-- What sending leaves, whether or not the port is up. -/
theorem Hw.ptpSend_sent (h : Hw) : Sent h (h.ptpSend b kind p seq fields) := by
  rw [Hw.ptpSend_eq]
  split
  · exact (Hw.each_sendOne b kind p seq fields _ h).1
  · exact Sent.refl h

/-- Another port's counter does not move. -/
theorem Hw.reg_sentCnt_ptpSend_ne (h : Hw) {q : Nat} (hq : q ≠ p) :
    (h.ptpSend b kind p seq fields).reg (sentCnt q) = h.reg (sentCnt q) := by
  rw [Hw.ptpSend_eq]
  split
  · rw [(Hw.each_sendOne b kind p seq fields _ h).2.1, if_neg hq]
    exact BitVec.add_zero _
  · rfl

variable {b kind p seq fields}

/-- A port that is up counts a message for every transport, and it leaves on each. -/
theorem Hw.ptpSend_up {h : Hw} (hup : h.ptpUp p = true) :
    (h.ptpSend b kind p seq fields).reg (sentCnt p) = h.reg (sentCnt p) + BitVec.ofNat 32 (h.domVias b).length ∧
      ∀ v ∈ h.domVias b, h.ptpFrame b kind p seq fields v ∈ (h.ptpSend b kind p seq fields).out := by
  obtain ⟨-, hcnt, hout⟩ := Hw.each_sendOne b kind p seq fields (h.domVias b) h
  rw [Hw.ptpSend_eq, if_pos hup]
  exact ⟨(hcnt p).trans (by rw [if_pos rfl]), hout⟩

end

/-! ### The servo -/

section
variable {h k : Hw} {b : Bool}

/-- The mean path delay rests on the measurements, the master's port and two registers of the domain. -/
theorem Hw.domDelay_of (h8 : k.reg (dmr b 0x08) = h.reg (dmr b 0x08)) (h0 : k.reg (dmr b 0) = h.reg (dmr b 0))
    (hd : (k.dom b).delays = (h.dom b).delays) (h1 : (k.dom b).link1 = (h.dom b).link1)
    (h2 : (k.dom b).link2 = (h.dom b).link2) (hm : (k.dom b).master = (h.dom b).master) :
    k.domDelay b = h.domDelay b := by
  have hp2p : k.domP2p b = h.domP2p b := congrArg (bitOf · 11) h0
  have hmean : ∀ l, k.delayMean b l = h.delayMean b l := fun l => by
    unfold Hw.delayMean Hw.f
    rw [h8]
  unfold Hw.domDelay DomS.link DomS.port
  dsimp only
  rw [hp2p, hmean, hd, h1, h2, hm]

/-- The registers of the ports lie behind those of the domains. -/
theorem nt_port_ne_dmr {b : Bool} {p o : Nat} (ho : o < 0x80) : nt (0x208 + 0x10 * p) ≠ dmr b o := by
  cases b <;> simp only [dmr, nt, ra, if_true, Bool.false_eq_true, if_false] <;> omega

/-- The asymmetry of a port rests on its register. -/
theorem Hw.asym_of {p : Nat} (e : k.reg (nt (0x208 + 0x10 * p)) = h.reg (nt (0x208 + 0x10 * p))) : k.asym p = h.asym p := by
  simp only [Hw.asym, e]

/-- The increment the servo gives rests on its integrator, its clamp and a register of the domain. -/
theorem Hw.servoInc_inc_of (h8 : k.reg (dmr b 0x08) = h.reg (dmr b 0x08)) (hc : (k.dom b).clamp = (h.dom b).clamp)
    (hn : (k.dom b).iNum = (h.dom b).iNum) (hd : (k.dom b).iDen = (h.dom b).iDen) (o : Int) (s : Nat) :
    (k.servoInc b o s).inc = (h.servoInc b o s).inc := by
  simp only [Hw.servoInc, DomS.setInc, DomS.goOn, Hw.f, h8, hc, hn, hd]

theorem clampInc_bounds (v : Int) : incMin ≤ (clampInc v).1 ∧ (clampInc v).1 ≤ incMax := by
  have hle : incMin ≤ incMax := by decide
  unfold clampInc
  split
  · exact ⟨Nat.le_refl _, hle⟩
  · split
    · exact ⟨hle, Nat.le_refl _⟩
    · dsimp only
      omega

/-- The servo's increment is within 500 ppm, and the counter is continuous at this grain. -/
theorem Hw.servoInc_shows (h : Hw) (b : Bool) (o : Int) (s : Nat) : (h.servoInc b o s).base = (h.dom b).at h.grain ∧
    (h.servoInc b o s).baseGrain = h.grain ∧ incMin ≤ (h.servoInc b o s).inc ∧ (h.servoInc b o s).inc ≤ incMax ∧
    (h.servoInc b o s).twoStep = (h.dom b).twoStep :=
  ⟨rfl, rfl, (clampInc_bounds _).1, (clampInc_bounds _).2, rfl⟩

end

/-- The offset of a Sync with origin t1 and ingress t2. -/
def Hw.syncOffset (h : Hw) (b : Bool) (t1 t2 : Int) : Int :=
  t2 - t1 - h.domDelay b - h.asym (domPort b (h.dom b).port)

/-- The interval since the last Sync, or the announced one before the first. -/
def DomS.syncWait (d : DomS) (t1 log : Int) : Int := d.t1.elim (annInterval log) fun p => t1 - p

/-- The module as the servo has noted a Sync: its times, the delay and the offset shown. -/
def Hw.syncNoted (h : Hw) (b : Bool) (t1 t2 log : Int) (q : Nat) (o : Int) : Hw :=
  ((h.setDom b { h.dom b with lastSync := some (q / 4, log), sync := some (t1, t2) }).showDelay b).setReg (dmr b 0x14)
    (ns8 16 o)

theorem Hw.dom_syncNoted (h : Hw) (b : Bool) (t1 t2 log : Int) (q : Nat) (o : Int) : (h.syncNoted b t1 t2 log q o).dom b =
    { h.dom b with lastSync := some (q / 4, log), sync := some (t1, t2) } := h.dom_setDom_same b _

theorem Hw.reg_syncNoted (h : Hw) (b : Bool) (t1 t2 log : Int) (q : Nat) (o : Int) {a : Nat} (h1 : a ≠ dmr b 0x14)
    (h2 : a ≠ dmr b 0x18) : (h.syncNoted b t1 t2 log q o).reg a = h.reg a :=
  (Hw.reg_setReg_ne _ h1 _).trans (Hw.reg_setReg_ne _ h2 _)

/-- The counter after a Sync of offset o that comes s after the one before: it steps, or takes the servo's increment. -/
def Hw.servoMove (h : Hw) (b : Bool) (t1 t2 o : Int) (s : Nat) : Hw :=
  if ((h.f (dmr b 0x10) 15 0 : Nat) : Int) ≠ 0 ∧ ((h.f (dmr b 0x10) 15 0 : Nat) : Int) * 1000 * 65536 < (o.natAbs : Int) then
    ((h.setDom b ((h.dom b).stepTo h.grain (((h.dom b).at h.grain : Int) - o * 65536).toNat)).evt pNTM (7 + dn b)).bump
      (dmr b 0x2C) 31 24
  else h.setDom b { h.servoInc b o s with t1 := some t1, used := some t2 }

/-- What the servo does with a Sync it has noted. -/
theorem Hw.servo_noted (h : Hw) (b : Bool) (t1 t2 log : Int) (q : Nat) {k : Hw} (hk : k =
      (h.setDom b { h.dom b with lastSync := some (q / 4, log), sync := some (t1, t2) }).showDelay b) :
    h.servo b t1 t2 log q = if (k.dom b).syncWait t1 log ≤ 0 then k
      else ((k.setReg (dmr b 0x14) (ns8 16 (k.syncOffset b t1 t2))).servoMove b t1 t2 (k.syncOffset b t1 t2)
        ((k.dom b).syncWait t1 log).toNat).lockRule b (k.syncOffset b t1 t2) := by
  unfold Hw.servo DomS.syncWait
  rw [← hk]
  dsimp only
  cases (k.dom b).t1 <;> rfl

/-- A Sync the servo takes: its offset is noted, the counter moves, and the lock follows. -/
theorem Hw.servo_eq {h : Hw} {b : Bool} {t1 t2 log : Int} {q : Nat} (hpos : 0 < (h.dom b).syncWait t1 log) :
    h.servo b t1 t2 log q = ((h.syncNoted b t1 t2 log q (h.syncOffset b t1 t2)).servoMove b t1 t2 (h.syncOffset b t1 t2)
      ((h.dom b).syncWait t1 log).toNat).lockRule b (h.syncOffset b t1 t2) := by
  generalize hk : (h.setDom b { h.dom b with lastSync := some (q / 4, log), sync := some (t1, t2) }).showDelay b = k
  have hreg : ∀ {a}, a ≠ dmr b 0x18 → k.reg a = h.reg a := fun ha => by
    rw [← hk]
    exact Hw.reg_setReg_ne _ ha _
  have hdom : k.dom b = { h.dom b with lastSync := some (q / 4, log), sync := some (t1, t2) } := by
    rw [← hk]
    exact h.dom_setDom_same b _
  have hoff : k.syncOffset b t1 t2 = h.syncOffset b t1 t2 := by
    rw [Hw.syncOffset, Hw.domDelay_of (hreg (dmr_ne (by decide))) (hreg (dmr_ne (by decide))) (by rw [hdom]) (by rw [hdom])
      (by rw [hdom]) (by rw [hdom]), Hw.asym_of (hreg (nt_port_ne_dmr (by decide))), hdom]
    rfl
  have hwait : (k.dom b).syncWait t1 log = (h.dom b).syncWait t1 log := by rw [hdom]; rfl
  rw [h.servo_noted b t1 t2 log q hk.symm, hwait, if_neg hpos.not_ge, hoff, Hw.syncNoted, hk]

/-- A Sync with an offset not beyond the threshold: the counter goes on from this grain with the servo's increment. -/
theorem Hw.servo_steers {h : Hw} {b : Bool} {t1 t2 log : Int} {q : Nat} (hpos : 0 < (h.dom b).syncWait t1 log)
    (hthr : h.f (dmr b 0x10) 15 0 = 0 ∨
      ((h.syncOffset b t1 t2).natAbs : Int) ≤ (h.f (dmr b 0x10) 15 0 : Int) * 1000 * 65536) :
    ∃ k, h.servo b t1 t2 log q = k ∧ (k.dom b).t1 = some t1 ∧ (k.dom b).used = some t2 ∧
      (k.dom b).base = (h.dom b).at h.grain ∧ (k.dom b).baseGrain = h.grain ∧
      (k.dom b).inc = (h.servoInc b (h.syncOffset b t1 t2) ((h.dom b).syncWait t1 log).toNat).inc ∧
      (k.dom b).twoStep = (h.dom b).twoStep ∧ k.reg (dmr b 0x14) = ns8 16 (h.syncOffset b t1 t2) := by
  refine ⟨_, Hw.servo_eq hpos, ?_⟩
  generalize ho : h.syncOffset b t1 t2 = o at hthr
  have hn := h.dom_syncNoted b t1 t2 log q o
  have h14 : (h.syncNoted b t1 t2 log q o).reg (dmr b 0x14) = ns8 16 o := Hw.reg_setReg_same _ _ _
  have hreg : ∀ {o'}, o' ≠ 0x14 → o' ≠ 0x18 → (h.syncNoted b t1 t2 log q o).reg (dmr b o') = h.reg (dmr b o') :=
    fun h1 h2 => h.reg_syncNoted b t1 t2 log q o (dmr_ne h1) (dmr_ne h2)
  have hgrain : (h.syncNoted b t1 t2 log q o).grain = h.grain := rfl
  generalize h.syncNoted b t1 t2 log q o = k at hn h14 hreg hgrain
  have hmove : k.servoMove b t1 t2 o ((h.dom b).syncWait t1 log).toNat =
      k.setDom b { k.servoInc b o ((h.dom b).syncWait t1 log).toNat with t1 := some t1, used := some t2 } := by
    refine if_neg ?_
    rw [Hw.f, hreg (by decide) (by decide)]
    rintro ⟨h1, h2⟩
    rcases hthr with e | e
    · exact h1 (congrArg Nat.cast e)
    · exact absurd h2 (not_lt.2 e)
  rw [hmove]
  obtain ⟨⟨n, hdom⟩, hmoved⟩ := (k.setDom b { k.servoInc b o ((h.dom b).syncWait t1 log).toNat with
    t1 := some t1, used := some t2 }).lockRule_shows b o
  rw [hdom, Hw.dom_setDom_same]
  refine ⟨rfl, rfl, ?_, hgrain, ?_, ?_, (hmoved.dmr b 0x14).trans h14⟩
  · change (k.dom b).at k.grain = _
    rw [hgrain, hn]
    rfl
  · exact Hw.servoInc_inc_of (hreg (by decide) (by decide)) (by rw [hn]) (by rw [hn]) (by rw [hn]) o _
  · change (k.dom b).twoStep = _
    rw [hn]

/-- A Sync with an offset beyond the threshold: the counter steps by it. -/
theorem Hw.servo_steps {h : Hw} {b : Bool} {t1 t2 log : Int} {q : Nat} (hpos : 0 < (h.dom b).syncWait t1 log)
    (h0 : h.f (dmr b 0x10) 15 0 ≠ 0)
    (hthr : (h.f (dmr b 0x10) 15 0 : Int) * 1000 * 65536 < ((h.syncOffset b t1 t2).natAbs : Int)) :
    ∃ k, h.servo b t1 t2 log q = k ∧ (k.dom b).baseGrain = h.grain ∧
      (k.dom b).base = (((h.dom b).at h.grain : Int) - h.syncOffset b t1 t2 * 65536).toNat ∧
      (k.dom b).stepAt = some h.grain ∧ (k.dom b).inc = (h.dom b).inc ∧
      k.reg (dmr b 0x14) = ns8 16 (h.syncOffset b t1 t2) ∧ k.bit (nt rEVT) (7 + dn b) = true ∧
      k.f (dmr b 0x2C) 31 24 = min (h.f (dmr b 0x2C) 31 24 + 1) 255 := by
  refine ⟨_, Hw.servo_eq hpos, ?_⟩
  generalize ho : h.syncOffset b t1 t2 = o at hthr
  have hn := h.dom_syncNoted b t1 t2 log q o
  have h14 : (h.syncNoted b t1 t2 log q o).reg (dmr b 0x14) = ns8 16 o := Hw.reg_setReg_same _ _ _
  have hreg : ∀ {o'}, o' ≠ 0x14 → o' ≠ 0x18 → (h.syncNoted b t1 t2 log q o).reg (dmr b o') = h.reg (dmr b o') :=
    fun h1 h2 => h.reg_syncNoted b t1 t2 log q o (dmr_ne h1) (dmr_ne h2)
  have hgrain : (h.syncNoted b t1 t2 log q o).grain = h.grain := rfl
  generalize h.syncNoted b t1 t2 log q o = k at hn h14 hreg hgrain
  generalize hv : (((k.dom b).at k.grain : Int) - o * 65536).toNat = v
  have hv' : (((h.dom b).at h.grain : Int) - o * 65536).toNat = v := by
    rw [← hv, hgrain, hn]
    rfl
  have hmove : k.servoMove b t1 t2 o ((h.dom b).syncWait t1 log).toNat =
      ((k.setDom b ((k.dom b).stepTo k.grain v)).evt pNTM (7 + dn b)).bump (dmr b 0x2C) 31 24 := by
    rw [← hv]
    refine if_pos ?_
    rw [Hw.f, hreg (by decide) (by decide)]
    exact ⟨fun e => h0 (Int.ofNat.inj e), hthr⟩
  rw [hmove, hv']
  generalize hl : ((k.setDom b ((k.dom b).stepTo k.grain v)).evt pNTM (7 + dn b)).bump (dmr b 0x2C) 31 24 = l
  have hldom : l.dom b = (k.dom b).stepTo k.grain v := by
    rw [← hl, Hw.dom_of_ntm (Hw.bump_ntm _ _ _ _), Hw.dom_of_ntm (Hw.evt_ntm _ _ _), Hw.dom_setDom_same]
  have hevt : l.bit (nt rEVT) (7 + dn b) = true := by
    rw [← hl, Hw.bit, Hw.reg_bump_ne _ (dmr_ne_nt (by decide)).symm]
    exact Hw.bit_evt _ pNTM (by have := dn_lt b; omega)
  have hlreg : ∀ {o'}, o' ≠ 0x2C → l.reg (dmr b o') = k.reg (dmr b o') := fun h1 => by
    rw [← hl, Hw.reg_bump_ne _ (dmr_ne h1), Hw.reg_evt_dmr, Hw.reg_setDom]
  have hcnt : l.f (dmr b 0x2C) 31 24 = min (h.f (dmr b 0x2C) 31 24 + 1) 255 := by
    rw [← hl, Hw.f_bump_same _ _ (by decide) (by decide), Hw.f, Hw.reg_evt_dmr, Hw.reg_setDom,
      hreg (by decide) (by decide), Hw.f]
    rfl
  obtain ⟨⟨n, hdom⟩, hmoved⟩ := l.lockRule_shows b o
  rw [hdom, hldom, hgrain, hn]
  refine ⟨rfl, rfl, rfl, rfl, ?_, hmoved.evt hevt, ?_⟩
  · rw [hmoved.dmr, hlreg (by decide), h14]
  · rw [Hw.f, hmoved.dmr]
    exact hcnt

/-! ### Path delay -/

/-- MPD shows the mean delay, and nothing else moves. -/
theorem Hw.showDelay_shows (h : Hw) (b : Bool) :
    (h.showDelay b).dom b = h.dom b ∧ (h.showDelay b).reg (dmr b 0x18) = ns8 16 ((h.showDelay b).domDelay b) := by
  have hne : ∀ {o}, o ≠ 0x18 → (h.showDelay b).reg (dmr b o) = h.reg (dmr b o) := fun ho => Hw.reg_setReg_ne _ (dmr_ne ho) _
  refine ⟨rfl, ?_⟩
  rw [Hw.domDelay_of (h := h) (hne (by decide)) (hne (by decide)) rfl rfl rfl rfl]
  exact Hw.reg_setReg_same _ _ _

@[simp] theorem DomS.link_setLink_same (d : DomS) (x : Bool) (l : PtpLink) : (d.setLink x l).link x = l := by
  cases x <;> rfl

@[simp] theorem DomS.inc_setLink (d : DomS) (x : Bool) (l : PtpLink) : (d.setLink x l).inc = d.inc := by
  cases x <;> rfl

/-- A link's new record with the delay shown. -/
def Hw.putLink (h : Hw) (b second : Bool) (l : PtpLink) : Hw := (h.setDom b ((h.dom b).setLink second l)).showDelay b

theorem Hw.putLink_shows (h : Hw) (b second : Bool) (l : PtpLink) : ((h.putLink b second l).dom b).link second = l ∧
    (h.putLink b second l).reg (dmr b 0x18) = ns8 16 ((h.putLink b second l).domDelay b) ∧
    ((h.putLink b second l).dom b).inc = (h.dom b).inc := by
  obtain ⟨hdom, hmpd⟩ := (h.setDom b ((h.dom b).setLink second l)).showDelay_shows b
  refine ⟨?_, hmpd, ?_⟩
  · rw [Hw.putLink, hdom, Hw.dom_setDom_same, DomS.link_setLink_same]
  · rw [Hw.putLink, hdom, Hw.dom_setDom_same, DomS.inc_setLink]

section
variable {h : Hw} {b : Bool} {m : PtpRespMsg}

/-- An answer by the peer mechanism that is for the module, on a counter with a role. -/
theorem Hw.ptpDelay_peer (ha : h.ptpActs b m.hdr = true) (ho : m.ours = true) (hr : h.domRole b ≠ 0)
    (hp : h.domP2p b = true) (hk : m.kind ≠ .delay) : h.ptpDelay b m = h.pdelayResp b m := by
  rw [Hw.ptpDelay, ha, ho, hp, if_neg (show ¬(!true || !true) = true by decide), if_pos rfl, if_pos ⟨hr, hk⟩]

/-- A Pdelay_Resp to the last request: a one-step answer is a measurement, a two-step one waits for its follow-up. -/
theorem Hw.pdelayResp_answer {t1 : Int} (hk : m.kind = .pdelay)
    (hreq : ((h.dom b).link m.hdr.secondPort).req = some (m.hdr.seq, t1)) :
    h.pdelayResp b m = h.putLink b m.hdr.secondPort (if m.twoStep then
      { (h.dom b).link m.hdr.secondPort with
        req := none, resp := some (m.hdr.seq, h.ingress b (domPort b m.hdr.secondPort) m.stamp - t1 + m.time - m.hdr.correction, m.stamp) }
      else ((h.dom b).link m.hdr.secondPort).measured
        (h.ingress b (domPort b m.hdr.secondPort) m.stamp - t1 + m.time - m.hdr.correction) none) := by
  unfold Hw.pdelayResp
  dsimp only
  rw [if_pos hk, hreq]
  dsimp only
  rw [if_pos rfl]
  split <;> rfl

/-- The follow-up of a two-step answer completes its measurement. -/
theorem Hw.pdelayResp_followUp {part : Int} {q : Nat} (hk : m.kind = .pdelayFollowUp)
    (hresp : ((h.dom b).link m.hdr.secondPort).resp = some (m.hdr.seq, part, q)) :
    h.pdelayResp b m = h.putLink b m.hdr.secondPort (((h.dom b).link m.hdr.secondPort).measured
      (part - m.time - m.hdr.correction) (some ((m.time : Int) + m.hdr.correction, q))) := by
  unfold Hw.pdelayResp
  dsimp only
  rw [if_neg (by rw [hk]; decide), hresp]
  dsimp only
  rw [if_pos rfl]
  rfl

/-- A Delay_Resp of the master to the last request completes a measurement with the last Sync. -/
theorem Hw.ptpDelay_endToEnd {t1 t2 t3 : Int} (ha : h.ptpActs b m.hdr = true) (ho : m.ours = true) (hr : h.domRole b = 1)
    (hp : h.domP2p b = false) (hk : m.kind = .delay) (hreq : (h.dom b).req = some (m.hdr.seq, t3))
    (hs : (h.dom b).sync = some (t1, t2)) (hm : (h.dom b).master.any (fun x => x.hdr.src == m.hdr.src) = true) :
    h.ptpDelay b m = (h.setDom b { h.dom b with
      req := none, delays := (t2 - t3 + (m.time - m.hdr.correction - t1)) :: (h.dom b).delays.take 15 }).showDelay b := by
  rw [Hw.ptpDelay, ha, ho, hp, if_neg (show ¬(!true || !true) = true by decide), if_neg Bool.false_ne_true, if_pos ⟨hr, hk⟩]
  unfold Hw.delayResp
  dsimp only
  rw [hreq, hs]
  exact if_pos ⟨rfl, hm⟩

/-- An answer by the mechanism that is not chosen is ignored. -/
theorem Hw.ptpDelay_other (hp : h.domP2p b = decide (m.kind = .delay)) : h.ptpDelay b m = h := by
  unfold Hw.ptpDelay
  split
  · rfl
  · by_cases hk : m.kind = .delay
    · rw [hp, decide_eq_true hk, if_pos rfl, if_neg fun h => h.2 hk]
    · rw [hp, decide_eq_false hk, if_neg Bool.false_ne_true, if_neg fun h => hk h.2]

end

/-! ### The master -/

theorem annSame_refl (x : PtpAnnounceMsg) : annSame x x = true := by simp [annSame]

theorem annSame_comm (x y : PtpAnnounceMsg) : annSame x y = annSame y x := by
  simp only [annSame, Bool.beq_comm]

/-- The identity of a master, 0 for none. -/
def masterId (m : Option PtpAnnounceMsg) : Word64 := m.elim 0 fun x => x.hdr.src

/-- A change of master: what was measured with the old one is dropped, its identity is shown, and the lock is lost; the
counter goes on. -/
theorem Hw.domMaster_shows (h : Hw) (b : Bool) (m : Option PtpAnnounceMsg) :
    (h.domMaster b m).dom b = { h.dom b with
      master := m, t1 := none, used := none, sync := none, req := none, twoStep := none, ok := 0 } ∧
    (h.domMaster b m).reg64 (dmr b 0x20) = masterId m ∧ (h.domMaster b m).domLocked b = false := by
  have e : h.domMaster b m = ((h.setDom b { h.dom b with
      master := m, t1 := none, used := none, sync := none, req := none, twoStep := none }).setReg64 (dmr b 0x20)
        (masterId m)).domLock b false := by
    cases m <;> rfl
  rw [e]
  generalize hk : (h.setDom b _).setReg64 (dmr b 0x20) (masterId m) = k
  obtain ⟨hdom, hlock, hmoved, -⟩ := k.domLock_shows b false
  refine ⟨?_, ?_, hlock⟩
  · rw [hdom, ← hk]
    exact congrArg (fun d : DomS => { d with ok := 0 }) (h.dom_setDom_same b _)
  · have h20 : (k.domLock b false).reg (dmr b 0x20) = k.reg (dmr b 0x20) := hmoved.dmr b 0x20
    have h24 : (k.domLock b false).reg (dmr b 0x20 + 4) = k.reg (dmr b 0x20 + 4) := hmoved.dmr b 0x24
    rw [Hw.reg64, h20, h24, ← hk]
    exact Hw.reg64_setReg64 _ _ _

section
variable {h : Hw} {b : Bool}

/-- The first Announce heard gives the master. -/
theorem Hw.domChoose_first {x : PtpAnnounceMsg × Nat} (hh : (h.dom b).heard = [x]) (hm : (h.dom b).master = none) :
    h.domChoose b = h.domMaster b (some x.1) := by
  simp only [Hw.domChoose, hh, hm, List.foldl]

/-- With no Announce left the master goes. -/
theorem Hw.domChoose_none {x : PtpAnnounceMsg} (hh : (h.dom b).heard = []) (hm : (h.dom b).master = some x) :
    h.domChoose b = h.domMaster b none := by
  simp only [Hw.domChoose, hh, hm, List.foldl]

/-- Of two heard a better one of another sender takes the place of the master. -/
theorem Hw.domChoose_better {x m : PtpAnnounceMsg} {k n : Nat} (hh : (h.dom b).heard = [(x, k), (m, n)])
    (hm : (h.dom b).master = some x) (hs : annSame x m = false) (hb : annBetter m x = true) :
    h.domChoose b = h.domMaster b (some m) := by
  rw [annSame_comm] at hs
  simp only [Hw.domChoose, hh, hm, List.foldl, hb, if_true, hs, Bool.false_eq_true, if_false]

/-- Of two heard a worse one of another sender leaves the master. -/
theorem Hw.domChoose_worse {x m : PtpAnnounceMsg} {k n : Nat} (hh : (h.dom b).heard = [(x, k), (m, n)])
    (hm : (h.dom b).master = some x) (hb : annBetter m x = false) : h.domChoose b = h := by
  simp only [Hw.domChoose, hh, hm, List.foldl, hb, annSame_refl, if_true, Bool.false_eq_true, if_false]
  rw [← hm, ← hh]
  exact h.setDom_dom b

/-- The module h with the Announces l heard on domain b. -/
def Hw.hears (h : Hw) (b : Bool) (l : List (PtpAnnounceMsg × Nat)) : Hw := h.setDom b { h.dom b with heard := l }

theorem Hw.dom_hears (h : Hw) (b : Bool) (l : List (PtpAnnounceMsg × Nat)) :
    (h.hears b l).dom b = { h.dom b with heard := l } := h.dom_setDom_same b _

/-- A new master, or none: what was noted of the last one goes, and the domain's count goes on. -/
theorem Hw.newMaster_shows (h : Hw) (b : Bool) (l : List (PtpAnnounceMsg × Nat)) (m : Option PtpAnnounceMsg) (i : Nat) :
    (((h.hears b l).domMaster b m).dom b).master = m ∧ (((h.hears b l).domMaster b m).dom b).heard = l ∧
      (((h.hears b l).domMaster b m).dom b).t1 = none ∧
      (((h.hears b l).domMaster b m).dom b).at i = (h.dom b).at i ∧
      ((h.hears b l).domMaster b m).reg64 (dmr b 0x20) = masterId m ∧
      ((h.hears b l).domMaster b m).domLocked b = false := by
  obtain ⟨hdom, hid, hlock⟩ := (h.hears b l).domMaster_shows b m
  rw [h.dom_hears] at hdom
  refine ⟨?_, ?_, ?_, ?_, hid, hlock⟩
  · rw [hdom]
  · rw [hdom]
  · rw [hdom]
  · rw [hdom]
    rfl

/-- An Announce on a SLAVE domain joins those heard, and the best of them is chosen. -/
theorem Hw.ptpAnnounce_slave {m : PtpAnnounceMsg} (ha : h.ptpActs b m.hdr = true) (hr : h.domRole b = 1) :
    h.ptpAnnounce b m = (h.hears b ((h.dom b).heard.filter (fun x =>
      !annSame x.1 m && decide (h.grain < annUntil x)) ++ [(m, h.grain)])).domChoose b := by
  simp only [Hw.ptpAnnounce, ha, hr, Bool.not_true, Bool.false_eq_true, if_false, Hw.hears]

/-- The first Announce of a SLAVE domain. -/
theorem Hw.ptpAnnounce_first {m : PtpAnnounceMsg} (ha : h.ptpActs b m.hdr = true) (hr : h.domRole b = 1)
    (hm : (h.dom b).master = none) (hh : (h.dom b).heard = []) :
    h.ptpAnnounce b m = (h.hears b [(m, h.grain)]).domMaster b (some m) := by
  rw [Hw.ptpAnnounce_slave ha hr, hh, List.filter_nil, List.nil_append]
  exact Hw.domChoose_first (x := (m, h.grain)) (congrArg DomS.heard (h.dom_hears b _)) ((congrArg DomS.master (h.dom_hears b _)).trans hm)

section
variable {m x : PtpAnnounceMsg} {k : Nat} (ha : h.ptpActs b m.hdr = true) (hr : h.domRole b = 1)
  (hm : (h.dom b).master = some x) (hh : (h.dom b).heard = [(x, k)]) (hk : h.grain < annUntil (x, k))
  (hs : annSame x m = false)
include ha hr hh hk hs

/-- An Announce of another sender joins the one heard, which is still good. -/
theorem Hw.ptpAnnounce_second : h.ptpAnnounce b m = (h.hears b [(x, k), (m, h.grain)]).domChoose b := by
  rw [Hw.ptpAnnounce_slave ha hr, hh]
  simp [hs, hk]

include hm

theorem Hw.ptpAnnounce_better (hb : annBetter m x = true) :
    h.ptpAnnounce b m = (h.hears b [(x, k), (m, h.grain)]).domMaster b (some m) :=
  (Hw.ptpAnnounce_second ha hr hh hk hs).trans (Hw.domChoose_better (congrArg DomS.heard (h.dom_hears b _))
    ((congrArg DomS.master (h.dom_hears b _)).trans hm) hs hb)

theorem Hw.ptpAnnounce_worse (hb : annBetter m x = false) :
    h.ptpAnnounce b m = h.hears b [(x, k), (m, h.grain)] :=
  (Hw.ptpAnnounce_second ha hr hh hk hs).trans (Hw.domChoose_worse (congrArg DomS.heard (h.dom_hears b _))
    ((congrArg DomS.master (h.dom_hears b _)).trans hm) hb)

end

/-- The only master's Announce not heard for 3 intervals: it is forgotten. -/
theorem Hw.annTimeout_lost {x : PtpAnnounceMsg} {k : Nat} (hr : h.domRole b = 1) (hm : (h.dom b).master = some x)
    (hh : (h.dom b).heard = [(x, k)]) (hk : annUntil (x, k) ≤ h.grain) :
    h.annTimeout b = (h.hears b []).domMaster b none := by
  have e : h.annTimeout b = (h.hears b []).domChoose b := by
    simp [Hw.annTimeout, hr, hm, hh, hk, annSame_refl, Hw.hears]
  exact e.trans (Hw.domChoose_none (congrArg DomS.heard (h.dom_hears b _)) ((congrArg DomS.master (h.dom_hears b _)).trans hm))

theorem Hw.annTimeout_early {x : PtpAnnounceMsg} {k : Nat} (hm : (h.dom b).master = some x)
    (hh : (h.dom b).heard = [(x, k)]) (hk : h.grain < annUntil (x, k)) : h.annTimeout b = h := by
  simp [Hw.annTimeout, hm, hh, hk]

end

end Sys2Proof.Machine

namespace Sys2Proof.Machine

/-! ### Syncs and their follow-ups -/

/-- The module with no Sync waiting for its Follow_Up. -/
def Hw.stopWaiting (h : Hw) (b : Bool) : Hw := h.setDom b { h.dom b with twoStep := none }

theorem Hw.dom_stopWaiting (h : Hw) (b : Bool) : (h.stopWaiting b).dom b = { h.dom b with twoStep := none } :=
  h.dom_setDom_same b _

/-- Whether a Sync is taken, its offset and the servo's increment do not rest on one that waits. -/
theorem Hw.syncTaken_stopWaiting (h : Hw) (b : Bool) (y : PtpMsg) : (h.stopWaiting b).syncTaken b y = h.syncTaken b y := by
  cases b <;> rfl

theorem Hw.syncOffset_stopWaiting (h : Hw) (b : Bool) (t1 t2 : Int) :
    (h.stopWaiting b).syncOffset b t1 t2 = h.syncOffset b t1 t2 := by
  cases b <;> rfl

theorem Hw.servoInc_stopWaiting (h : Hw) (b : Bool) (o : Int) (n : Nat) :
    ((h.stopWaiting b).servoInc b o n).inc = (h.servoInc b o n).inc := by
  cases b <;> rfl

theorem Hw.asRelay_sent (h : Hw) (b : Bool) (m : PtpMsg) (t2 origin corr : Int) : Sent h (h.asRelay b m t2 origin corr) := by
  unfold Hw.asRelay
  dsimp only
  split
  · exact Hw.ptpSend_sent _ _ _ _ _ h
  · exact Sent.refl h

section
variable {h : Hw} {b : Bool} {m : PtpMsg}

/-- A one-step Sync that is taken goes to the servo, and may be relayed. -/
theorem Hw.ptpSync_taken (ht : h.syncTaken b m = true)
    (he : h.syncExtra b m (h.ingress b (domPort b m.hdr.secondPort) m.stamp) = false) (h2 : m.twoStep = false) :
    Sent (h.servo b (m.origin + m.hdr.correction) (h.ingress b (domPort b m.hdr.secondPort) m.stamp) m.logInterval m.stamp)
      (h.ptpSync b m) := by
  have e : h.ptpSync b m = (h.servo b (m.origin + m.hdr.correction) (h.ingress b (domPort b m.hdr.secondPort) m.stamp)
      m.logInterval m.stamp).asRelay b m (h.ingress b (domPort b m.hdr.secondPort) m.stamp) m.origin m.hdr.correction := by
    simp only [Hw.ptpSync, ht, he, h2, Bool.not_true, Bool.false_eq_true, if_false]
  rw [e]
  exact Hw.asRelay_sent _ b m _ _ _

theorem Hw.ptpSync_extra (ht : h.syncTaken b m = true)
    (he : h.syncExtra b m (h.ingress b (domPort b m.hdr.secondPort) m.stamp) = true) :
    h.ptpSync b m = h.bump (dmr b 0x2C) 15 8 := by
  simp only [Hw.ptpSync, ht, he, Bool.not_true, Bool.false_eq_true, if_false, if_true]

theorem Hw.ptpSync_twoStep (ht : h.syncTaken b m = true)
    (he : h.syncExtra b m (h.ingress b (domPort b m.hdr.secondPort) m.stamp) = false) (h2 : m.twoStep = true) :
    h.ptpSync b m = h.setDom b { h.dom b with twoStep := some (m, h.ingress b (domPort b m.hdr.secondPort) m.stamp) } := by
  simp only [Hw.ptpSync, ht, he, h2, Bool.not_true, Bool.false_eq_true, if_false, if_true]

theorem Hw.ptpSync_refused (ht : h.syncTaken b m = false) : h.ptpSync b m = h := by
  simp only [Hw.ptpSync, ht, Bool.not_false, if_true]

variable {y : PtpMsg} {q : Int}

/-- A Follow_Up of the Sync that waits ends its wait, and the Sync goes to the servo where it is taken. -/
theorem Hw.ptpFollow_match (hw : (h.dom b).twoStep = some (y, q)) (ha : h.ptpActs b m.hdr = true)
    (h1 : y.hdr.src = m.hdr.src) (h2 : y.hdr.seq = m.hdr.seq) (h3 : y.hdr.secondPort = m.hdr.secondPort) :
    h.ptpFollow b m = if (h.stopWaiting b).syncTaken b y then
      ((h.stopWaiting b).servo b (m.origin + (y.hdr.correction + m.hdr.correction)) q y.logInterval y.stamp).asRelay
        b { y with rate := m.rate } q m.origin (y.hdr.correction + m.hdr.correction) else h.stopWaiting b := by
  unfold Hw.ptpFollow
  rw [hw]
  exact if_pos ⟨ha, h1, h2, h3⟩

/-- Another Follow_Up changes nothing. -/
theorem Hw.ptpFollow_other (hw : (h.dom b).twoStep.all (fun y => y.1.hdr.seq != m.hdr.seq || y.1.hdr.src != m.hdr.src ||
      y.1.hdr.secondPort != m.hdr.secondPort || !h.ptpActs b m.hdr) = true) : h.ptpFollow b m = h := by
  unfold Hw.ptpFollow
  split
  · rfl
  · next y q e =>
    rw [e] at hw
    refine if_neg ?_
    rintro ⟨ha, h1, h2, h3⟩
    simp [h1, h2, h3, ha] at hw

/-- The record of a SLAVE domain that has lost its Syncs. -/
theorem Hw.syncLoss_due {k : Nat} {log : Int} (hr : h.domRole b = 1) (hs : (h.dom b).lastSync = some (k, log))
    (hd : k + max 1 (h.f (dmr b 0x0C) 31 24) * logGrains log ≤ h.grain) : h.syncLoss b = h.domLock b false := by
  simp [Hw.syncLoss, hr, hs, hd]

theorem Hw.syncLoss_early {k : Nat} {log : Int} (hs : (h.dom b).lastSync = some (k, log))
    (hd : h.grain < k + max 1 (h.f (dmr b 0x0C) 31 24) * logGrains log) : h.syncLoss b = h := by
  simp [Hw.syncLoss, hs, hd]

end

end Sys2Proof.Machine

namespace Sys2Proof
open Machine

section
variable {s : State} {g : Nat} {P : State → Prop}

/-- A message of a domain whose operation F turns the module to k. -/
theorem gives_domMessage (F : Hw → Hw) {k : Hw} (hl : Live s) (hs : Unshed s) (e : F (s.hw.at g) = k)
    (hP : ∀ t : State, t.hw = k.seal (max s.hw.grain g) → P t) : ∃ t, runLink g (fun _ h => F h) s = .next t ∧ P t :=
  gives_link hl hs (hP _ (by rw [afterRun_hw, e]))

/-- A message of a domain that changes nothing. -/
theorem gives_domIdle (F : Hw → Hw) (b : Bool) (hl : Live s) (hs : Unshed s) (e : F (s.hw.at g) = s.hw.at g) :
    ∃ t, runLink g (fun _ h => F h) s = .next t ∧ t.hw.dom b = s.hw.dom b ∧ t.hw.regs = s.hw.regs :=
  gives_domMessage F hl hs e fun t ht => by rw [ht]; exact ⟨rfl, rfl⟩

/-- A time-out of a domain whose operation F turns the module to k. -/
theorem gives_domTimeout (F : Hw → Hw) {k : Hw} (hl : Live s) (e : F (s.hw.at g) = k)
    (hP : ∀ t : State, t.hw = k.seal (max s.hw.grain g) → P t) : ∃ t, run g (fun _ h => F h) s = .next t ∧ P t :=
  gives_run hl (hP _ (by rw [afterRun_hw, e]))

end

/-- Settles O46: each clause is what the operation of its message gives; the messages that a relay sends on leave the domain
as it is. -/
theorem networkTimeServo : Obligations.NetworkTimeServo := by
  intro s g b hl
  refine ⟨fun m hsh ht he h2 hpos hthr => ?_, fun m hsh ht he h2 hpos h0 hthr => ?_, fun m hsh ht he => ?_,
    fun m hsh ht he h2 => ?_, fun m hsh ht => ?_, fun m y q hsh hw ha h1 h2 h3 ht hpos hthr => ?_,
    fun m y q hsh hw ha h1 h2 h3 ht => ?_, fun m hsh hw => ?_, fun m t1 t2 t3 hsh ha ho hr hp hk hreq hsy hm => ?_,
    fun m t1 hsh ha ho hr hp hk h2 hreq => ?_, fun m t1 hsh ha ho hr hp hk h2 hreq => ?_,
    fun m part q hsh ha ho hr hp hk hresp => ?_, fun m hsh hp => ?_, fun m i hsh ha hr hm hh => ?_,
    fun m x k i hsh ha hr hm hh hk hs hb => ?_, fun m x k hsh ha hr hm hh hk hs hb => ?_,
    fun x k i hr hm hh hk => ?_, fun x k hm hh hk => ?_, fun k log i hr hs hd => ?_, fun k log hs hd => ?_⟩
  · refine gives_domMessage (·.ptpSync b m) hl hsh rfl fun t e => ?_
    obtain ⟨k, hk, ht1, hused, hbase, hgrain, hinc, -, hoff⟩ := Hw.servo_steers (h := s.hw.at g) (q := m.stamp) hpos hthr
    have hsent : Sent k _ := hk ▸ Hw.ptpSync_taken (h := s.hw.at g) ht he h2
    obtain ⟨-, -, hmin, hmax, -⟩ := (s.hw.at g).servoInc_shows b ((s.hw.at g).syncOffset b (m.origin + m.hdr.correction)
      (s.hw.ingress b (domPort b m.hdr.secondPort) m.stamp))
      (((s.hw.at g).dom b).syncWait (m.origin + m.hdr.correction) m.logInterval).toNat
    rw [e, Hw.dom_seal, hsent.dom b, Hw.seal_reg, hsent.dmr b (by decide)]
    exact ⟨ht1, hused, hbase, hgrain, hinc, hinc ▸ hmin, hinc ▸ hmax, hoff⟩
  · refine gives_domMessage (·.ptpSync b m) hl hsh rfl fun t e => ?_
    obtain ⟨k, hk, hgrain, hbase, hstep, hinc, hoff, hevt, hcnt⟩ :=
      Hw.servo_steps (h := s.hw.at g) (q := m.stamp) hpos h0 hthr
    have hsent : Sent k _ := hk ▸ Hw.ptpSync_taken (h := s.hw.at g) ht he h2
    rw [e, Hw.dom_seal, hsent.dom b, Hw.seal_reg, hsent.dmr b (by decide), Hw.seal_bit, Hw.bit, hsent.nt _ (by decide),
      Hw.seal_f, Hw.f, hsent.dmr b (by decide)]
    exact ⟨hgrain, hbase, hstep, hinc, hoff, hevt, hcnt⟩
  · refine gives_domMessage (·.ptpSync b m) hl hsh (Hw.ptpSync_extra ht he) fun t e => ?_
    rw [e]
    exact ⟨rfl, Hw.f_bump_same _ _ (by decide) (by decide), rfl⟩
  · refine gives_domMessage (·.ptpSync b m) hl hsh (Hw.ptpSync_twoStep ht he h2) fun t e => ?_
    rw [e]
    exact ⟨Hw.dom_setDom_same _ _ _, rfl⟩
  · exact gives_domIdle (·.ptpSync b m) b hl hsh (Hw.ptpSync_refused ht)
  · refine gives_domMessage (·.ptpFollow b m) hl hsh (Hw.ptpFollow_match hw ha h1 h2 h3) fun t e => ?_
    rw [Hw.syncTaken_stopWaiting, if_pos (show (s.hw.at g).syncTaken b y = true from ht)] at e
    have hdom := (s.hw.at g).dom_stopWaiting b
    obtain ⟨k, hk, ht1, hused, hbase, hgrain, hinc, htwo, hoff⟩ :=
      Hw.servo_steers (h := (s.hw.at g).stopWaiting b) (t1 := m.origin + (y.hdr.correction + m.hdr.correction)) (t2 := q)
        (log := y.logInterval) (q := y.stamp) (by rw [hdom]; exact hpos) (by rw [Hw.syncOffset_stopWaiting]; exact hthr)
    rw [Hw.syncOffset_stopWaiting, Hw.servoInc_stopWaiting] at hinc
    rw [Hw.syncOffset_stopWaiting] at hoff
    rw [hdom] at hbase htwo hinc
    rw [hk] at e
    have hsent := k.asRelay_sent b { y with rate := m.rate } q m.origin (y.hdr.correction + m.hdr.correction)
    rw [e, Hw.dom_seal, hsent.dom b, Hw.seal_reg, hsent.dmr b (by decide)]
    exact ⟨htwo, ht1, hused, hbase, hgrain, hinc, hoff⟩
  · refine gives_domMessage (·.ptpFollow b m) hl hsh (Hw.ptpFollow_match hw ha h1 h2 h3) fun t e => ?_
    rw [Hw.syncTaken_stopWaiting, if_neg (show ¬(s.hw.at g).syncTaken b y = true from fun h => absurd (h.symm.trans ht) (by decide))] at e
    rw [e]
    exact ⟨(s.hw.at g).dom_stopWaiting b, rfl⟩
  · exact gives_domIdle (·.ptpFollow b m) b hl hsh (Hw.ptpFollow_other hw)
  · refine gives_domMessage (·.ptpDelay b m) hl hsh (Hw.ptpDelay_endToEnd ha ho hr hp hk hreq hsy hm) fun t e => ?_
    obtain ⟨hdom, hmpd⟩ := Hw.showDelay_shows ((s.hw.at g).setDom b _) b
    rw [e, Hw.dom_seal, hdom, Hw.dom_setDom_same]
    exact ⟨rfl, rfl, hmpd, rfl⟩
  · refine gives_domMessage (·.ptpDelay b m) hl hsh ((Hw.ptpDelay_peer (h := s.hw.at g) ha ho hr hp (by rw [hk]; decide)).trans
      (Hw.pdelayResp_answer (h := s.hw.at g) hk hreq)) fun t e => ?_
    rw [h2, if_neg Bool.false_ne_true] at e
    obtain ⟨hlink, hmpd, hinc⟩ := (s.hw.at g).putLink_shows b m.hdr.secondPort _
    rw [e, Hw.dom_seal, hlink]
    exact ⟨rfl, rfl, hmpd, hinc⟩
  · refine gives_domMessage (·.ptpDelay b m) hl hsh ((Hw.ptpDelay_peer (h := s.hw.at g) ha ho hr hp (by rw [hk]; decide)).trans
      (Hw.pdelayResp_answer (h := s.hw.at g) hk hreq)) fun t e => ?_
    rw [h2, if_pos rfl] at e
    rw [e]
    exact ((s.hw.at g).putLink_shows b m.hdr.secondPort _).1
  · refine gives_domMessage (·.ptpDelay b m) hl hsh ((Hw.ptpDelay_peer (h := s.hw.at g) ha ho hr hp (by rw [hk]; decide)).trans
      (Hw.pdelayResp_followUp (h := s.hw.at g) hk hresp)) fun t e => ?_
    obtain ⟨hlink, hmpd, hinc⟩ := (s.hw.at g).putLink_shows b m.hdr.secondPort _
    rw [e, Hw.dom_seal, hlink]
    exact ⟨rfl, rfl, hmpd, hinc⟩
  · exact gives_domIdle (·.ptpDelay b m) b hl hsh (Hw.ptpDelay_other hp)
  · refine gives_domMessage (·.ptpAnnounce b m) hl hsh (Hw.ptpAnnounce_first ha hr hm hh) fun t e => ?_
    obtain ⟨hmaster, hheard, ht1, hat, hid, hlock⟩ := (s.hw.at g).newMaster_shows b [(m, (s.hw.at g).grain)] (some m) i
    rw [e]
    exact ⟨hmaster, hid, hheard, ht1, hlock, hat⟩
  · refine gives_domMessage (·.ptpAnnounce b m) hl hsh (Hw.ptpAnnounce_better ha hr hm hh hk hs hb) fun t e => ?_
    obtain ⟨hmaster, hheard, -, hat, hid, hlock⟩ :=
      (s.hw.at g).newMaster_shows b [(x, k), (m, (s.hw.at g).grain)] (some m) i
    rw [e]
    exact ⟨hmaster, hid, hheard, hlock, hat⟩
  · refine gives_domMessage (·.ptpAnnounce b m) hl hsh (Hw.ptpAnnounce_worse ha hr hm hh hk hs hb) fun t e => ?_
    rw [e]
    exact ⟨(s.hw.at g).dom_hears b _, rfl⟩
  · refine gives_domTimeout (·.annTimeout b) hl (Hw.annTimeout_lost hr hm hh hk) fun t e => ?_
    obtain ⟨hmaster, hheard, -, hat, hid, hlock⟩ := (s.hw.at g).newMaster_shows b [] none i
    rw [e]
    exact ⟨hmaster, hheard, hid, hlock, hat⟩
  · refine gives_domTimeout (·.annTimeout b) hl (Hw.annTimeout_early hm hh hk) fun t e => ?_
    rw [e]
    exact ⟨rfl, rfl⟩
  · refine gives_domTimeout (·.syncLoss b) hl (Hw.syncLoss_due hr hs hd) fun t e => ?_
    obtain ⟨hdom, hlock, -, hevt⟩ := (s.hw.at g).domLock_shows b false
    rw [e, Hw.dom_seal, hdom]
    exact ⟨hlock, rfl, rfl, rfl, fun h => hevt (by rw [show (s.hw.at g).domLocked b = true from h]; decide)⟩
  · refine gives_domTimeout (·.syncLoss b) hl (Hw.syncLoss_early hs hd) fun t e => ?_
    rw [e]
    exact ⟨rfl, rfl⟩

end Sys2Proof

namespace Sys2Proof.Machine

/-! ### Messages of a domain on the ports of its LAN -/

/-- The module k is h after messages of domain b left: its counter runs on as before, and only counters of frames sent have
moved. -/
structure Posted (b : Bool) (h k : Hw) : Prop where
  at' : ∀ i, (k.dom b).at i = (h.dom b).at i
  grain : k.grain = h.grain
  reg : ∀ a, (∀ p, a ≠ sentCnt p) → k.reg a = h.reg a
  out : ∀ o ∈ h.out, o ∈ k.out

namespace Posted

variable {b : Bool} {h k l : Hw}

theorem of_sent (hk : Sent h k) : Posted b h k :=
  ⟨fun i => by rw [hk.dom b], hk.grain, hk.reg, hk.out⟩

theorem setDom {d : DomS} (hd : ∀ i, d.at i = (h.dom b).at i) : Posted b h (h.setDom b d) :=
  ⟨fun i => by rw [Hw.dom_setDom_same, hd], rfl, fun _ _ => rfl, fun _ ho => ho⟩

theorem trans (h1 : Posted b h k) (h2 : Posted b k l) : Posted b h l :=
  ⟨fun i => (h2.at' i).trans (h1.at' i), h2.grain.trans h1.grain, fun a ha => (h2.reg a ha).trans (h1.reg a ha),
    fun o ho => h2.out o (h1.out o ho)⟩

variable (hk : Posted b h k)
include hk

theorem nt (o : Nat) (ho : o < 0x1000) : k.reg (nt o) = h.reg (nt o) :=
  hk.reg _ fun p => by
    simp only [sentCnt, Machine.nt, ra, pNTM, pNSW]
    omega

theorem dmr {o : Nat} (ho : o < 0x80) : k.reg (dmr b o) = h.reg (dmr b o) :=
  hk.nt _ (by cases b <;> simp <;> omega)

theorem port {o : Nat} (ho : o < 0x300) : k.reg (ra pNSW o) = h.reg (ra pNSW o) :=
  hk.reg _ fun p => by
    simp only [sentCnt, ra]
    omega

theorem vias : k.domVias b = h.domVias b := by
  simp only [Hw.domVias, Hw.f, hk.dmr (o := 0) (by decide)]

theorem up {p : Nat} (hp : p < 4) : k.ptpUp p = h.ptpUp p := by
  simp only [Hw.ptpUp, Hw.bit, hk.port (o := 0x060 + 4 * p) (by omega), hk.port (o := 0x070 + 4 * p) (by omega)]

theorem txLat {p : Nat} (hp : p < 4) : k.txLat p = h.txLat p := by
  have hreg : k.latReg p = h.latReg p := by
    rw [Hw.latReg, Hw.f, hk.port (o := 0x070 + 4 * p) (by omega)]
    rfl
  have hval : k.reg (h.latReg p) = h.reg (h.latReg p) := hk.nt _ (by split <;> omega)
  rw [Hw.txLat, Hw.txLat, hreg, Hw.f, hval]
  rfl

theorem egressAt {p : Nat} (hp : p < 4) : k.egressAt b p = h.egressAt b p := by
  rw [Hw.egressAt, Hw.egressAt, hk.grain, hk.at', hk.txLat hp]

end Posted

/-- A step of a domain that keeps its count, and a message on port p. -/
def Hw.post (h : Hw) (b : Bool) (kind : OutKind) (seq : BitVec 16) (d : DomS) (p : Nat) (fields : List Int) : Hw :=
  (h.setDom b d).ptpSend b kind p seq fields

section
variable {b : Bool} {kind : OutKind} {seq : BitVec 16} {h k : Hw} {d : DomS} {p : Nat} {fields : List Int}

/-- What shows that the message given left the ports' counters and frames in k. -/
structure LeftOn (b : Bool) (kind : OutKind) (seq : BitVec 16) (p : Nat) (fields : List Int) (h k : Hw) : Prop where
  frame : ∀ v ∈ h.domVias b, h.ptpFrame b kind p seq fields v ∈ k.out
  count : k.reg (sentCnt p) = h.reg (sentCnt p) + BitVec.ofNat 32 (h.domVias b).length

theorem Hw.post_posted (hd : ∀ i, d.at i = (h.dom b).at i) : Posted b h (h.post b kind seq d p fields) :=
  (Posted.setDom hd).trans (Posted.of_sent ((h.setDom b d).ptpSend_sent b kind p seq fields))

theorem Hw.dom_post : (h.post b kind seq d p fields).dom b = d :=
  ((h.setDom b d).ptpSend_sent b kind p seq fields).dom b |>.trans (h.dom_setDom_same b d)

theorem Hw.post_left (hup : h.ptpUp p = true) : LeftOn b kind seq p fields h (h.post b kind seq d p fields) := by
  obtain ⟨hcnt, hout⟩ := Hw.ptpSend_up (b := b) (kind := kind) (seq := seq) (fields := fields) (h := h.setDom b d) hup
  exact ⟨hout, hcnt⟩

theorem Hw.reg_sentCnt_post_ne {q : Nat} (hq : q ≠ p) :
    (h.post b kind seq d p fields).reg (sentCnt q) = h.reg (sentCnt q) :=
  (h.setDom b d).reg_sentCnt_ptpSend_ne b kind p seq fields hq

/-- A message that left stays so through a message on another port. -/
theorem LeftOn.after {l : Hw} (hk : LeftOn b kind seq p fields h k) (hp : Posted b k l)
    (hc : l.reg (sentCnt p) = k.reg (sentCnt p)) : LeftOn b kind seq p fields h l :=
  ⟨fun v hv => hp.out _ (hk.frame v hv), hc.trans hk.count⟩

/-- A message that left after others on other ports. -/
theorem LeftOn.before {l : Hw} (hp : Posted b h k) (hc : k.reg (sentCnt p) = h.reg (sentCnt p))
    (hl : LeftOn b kind seq p fields k l) : LeftOn b kind seq p fields h l :=
  ⟨fun v hv => Hw.ptpFrame_of (hp.dmr (o := 0) (by decide)) kind p seq fields v ▸ hl.frame v (hp.vias.symm ▸ hv), by
    rw [hl.count, hc, hp.vias]⟩

end

/-- A message on two ports in turn: each port that is up has its message. -/
theorem Hw.each_post {α : Type} {b : Bool} {kind : OutKind} {seq : BitVec 16} {port : α → Nat} {D : Hw → α → DomS}
    {fields : Hw → α → List Int} {x0 x1 x : α} (h : Hw) (hport : port x0 ≠ port x1) (hx : x ∈ [x0, x1]) (h4 : port x < 4)
    (hD : ∀ k x i, (D k x).at i = (k.dom b).at i)
    (hF : ∀ {k l : Hw} (x : α), port x < 4 → Posted b k l → fields l x = fields k x) (hup : h.ptpUp (port x) = true) :
    LeftOn b kind seq (port x) (fields h x) h
      (h.each [x0, x1] fun k x => k.post b kind seq (D k x) (port x) (fields (k.setDom b (D k x)) x)) := by
  have hset : ∀ (k : Hw) (y : α), Posted b k (k.setDom b (D k y)) := fun k y => Posted.setDom (hD k y)
  unfold Hw.each
  rw [List.foldl_cons, List.foldl_cons, List.foldl_nil]
  generalize hk : h.post b kind seq (D h x0) (port x0) (fields (h.setDom b (D h x0)) x0) = k
  have hhk : Posted b h k := hk ▸ Hw.post_posted (hD h x0)
  rcases List.mem_cons.1 hx with rfl | hx
  · refine LeftOn.after ?_ (Hw.post_posted (hD k x1)) (Hw.reg_sentCnt_post_ne hport)
    rw [← hk, hF x h4 (hset h x)]
    exact Hw.post_left hup
  · obtain rfl := List.mem_singleton.1 hx
    refine LeftOn.before hhk (hk ▸ Hw.reg_sentCnt_post_ne hport.symm) ?_
    rw [hF x h4 (hset k x), hF x h4 hhk]
    exact Hw.post_left (hhk.up h4 ▸ hup)

theorem mem_domPorts_lt {b : Bool} {p : Nat} (hp : p ∈ domPorts b) : p < 4 := by
  cases b <;> simp [domPorts] at hp <;> omega

/-- A message with the same words from a domain on both ports of its LAN. -/
theorem Hw.each_domPorts {b : Bool} {kind : OutKind} {seq : BitVec 16} {fields : Hw → Nat → List Int} {p : Nat} (h : Hw)
    (hp : p ∈ domPorts b) (hF : ∀ {k l : Hw} (p : Nat), p < 4 → Posted b k l → fields l p = fields k p)
    (hup : h.ptpUp p = true) :
    LeftOn b kind seq p (fields h p) h (h.each (domPorts b) fun h p => h.ptpSend b kind p seq (fields h p)) := by
  have e : ∀ k : Hw, ∀ p, k.ptpSend b kind p seq (fields k p) =
      k.post b kind seq (k.dom b) p (fields (k.setDom b (k.dom b)) p) := fun k p => by
    rw [Hw.post, Hw.setDom_dom]
  simp only [e]
  cases b
  · exact Hw.each_post (port := id) (D := fun k _ => k.dom _) h (by decide) hp (mem_domPorts_lt hp) (fun _ _ _ => rfl) hF hup
  · exact Hw.each_post (port := id) (D := fun k _ => k.dom _) h (by decide) hp (mem_domPorts_lt hp) (fun _ _ _ => rfl) hF hup

/-- Messages on both ports leave the domain as it is. -/
theorem Hw.dom_each_domPorts {b : Bool} {kind : OutKind} {seq : BitVec 16} {fields : Hw → Nat → List Int} (h : Hw) :
    (h.each (domPorts b) fun h p => h.ptpSend b kind p seq (fields h p)).dom b = h.dom b :=
  Hw.each_keeps (·.dom b) (fun h p => (h.ptpSend_sent b kind p seq (fields h p)).dom b) _ _

/-! ### The messages a domain originates -/

section
variable {h : Hw} {b : Bool}

/-- Whether LOG_SYNC has passed since the last Sync. -/
def Hw.syncDue (h : Hw) (b : Bool) : Bool :=
  (h.dom b).sentAt.all fun k => decide (k + logGrains (signed 4 (h.f (dmr b 0) 31 28)) ≤ h.grain)

theorem Hw.gmSync_due (hr : h.domRole b = 2) (hd : h.syncDue b = true) : h.gmSync b =
    (h.setDom b { h.dom b with sentAt := some h.grain, syncSeq := (h.dom b).syncSeq + 1 }).each (domPorts b) fun k p =>
      k.ptpSend b .ptpSync p (h.dom b).syncSeq [signed 4 (h.f (dmr b 0) 31 28), (k.txStamp b p).1, (k.txStamp b p).2] := by
  unfold Hw.gmSync
  refine if_pos ⟨hr, ?_⟩
  unfold Hw.syncDue at hd
  split
  · next k e =>
    rw [e] at hd
    exact hd
  · rfl

theorem Hw.gmSync_idle (hno : h.domRole b ≠ 2 ∨ h.syncDue b = false) : h.gmSync b = h := by
  unfold Hw.gmSync
  refine if_neg ?_
  rintro ⟨hr, hd⟩
  rcases hno with hn | hn
  · exact hn hr
  · unfold Hw.syncDue at hn
    split at hd
    · next k e =>
      rw [e] at hn
      exact Bool.false_ne_true (hn.symm.trans hd)
    · next e =>
      rw [e] at hn
      exact Bool.false_ne_true hn.symm

theorem Posted.txStamp {k : Hw} {p : Nat} (hk : Posted b h k) (hp : p < 4) : k.txStamp b p = h.txStamp b p := by
  rw [Hw.txStamp, hk.egressAt hp]
  rfl

theorem Posted.egressT {k : Hw} {p : Nat} (hk : Posted b h k) (hp : p < 4) : k.egressT b p = h.egressT b p := by
  rw [Hw.egressT, hk.egressAt hp]
  rfl

/-- A Sync of a grandmaster: its message, its counter and what the domain notes. -/
theorem Hw.gmSync_shows {p : Nat} (hr : h.domRole b = 2) (hd : h.syncDue b = true) (hp : p ∈ domPorts b)
    (hup : h.ptpUp p = true) :
    LeftOn b .ptpSync (h.dom b).syncSeq p
        [signed 4 (h.f (dmr b 0) 31 28), (h.txStamp b p).1, (h.txStamp b p).2] h (h.gmSync b) ∧
      (h.gmSync b).dom b = { h.dom b with sentAt := some h.grain, syncSeq := (h.dom b).syncSeq + 1 } := by
  have hset : Posted b h (h.setDom b { h.dom b with sentAt := some h.grain, syncSeq := (h.dom b).syncSeq + 1 }) :=
    Posted.setDom fun _ => rfl
  rw [Hw.gmSync_due hr hd, Hw.dom_each_domPorts, Hw.dom_setDom_same]
  refine ⟨LeftOn.before hset rfl ?_, rfl⟩
  rw [← hset.txStamp (mem_domPorts_lt hp)]
  exact Hw.each_domPorts (fields := fun k p => [signed 4 (h.f (dmr b 0) 31 28), (k.txStamp b p).1, (k.txStamp b p).2]) _ hp (fun p h4 hk => by rw [hk.txStamp h4]) hup

/-- The words of DOMx_GM that an Announce carries. -/
def Hw.gmWords (h : Hw) (b : Bool) : List Int :=
  let w := dmr b 0x04
  [h.f w 31 24, h.f w 23 16, h.f w 15 8, h.f w 7 0]

theorem Posted.gmWords {k : Hw} (hk : Posted b h k) : k.gmWords b = h.gmWords b := by
  simp only [Hw.gmWords, Hw.f, hk.dmr (o := 0x04) (by decide)]

/-- The domain after an Announce was sent. -/
def DomS.announced (d : DomS) : DomS := { d with annSeq := d.annSeq + 1 }

/-- An Announce of a grandmaster. -/
theorem Hw.gmAnnounce_shows {p : Nat} (hr : h.domRole b = 2) (hp : p ∈ domPorts b) (hup : h.ptpUp p = true) :
    LeftOn b .ptpAnnounce (h.dom b).annSeq p (h.gmWords b) h (h.gmAnnounce b) ∧
      (h.gmAnnounce b).dom b = (h.dom b).announced := by
  have e : h.gmAnnounce b = (h.setDom b (h.dom b).announced).each (domPorts b) fun k p =>
      k.ptpSend b .ptpAnnounce p (h.dom b).annSeq (k.gmWords b) := if_pos hr
  have hset : Posted b h (h.setDom b (h.dom b).announced) := Posted.setDom fun _ => rfl
  rw [e, Hw.dom_each_domPorts, Hw.dom_setDom_same]
  refine ⟨LeftOn.before hset rfl ?_, rfl⟩
  rw [← hset.gmWords]
  exact Hw.each_domPorts (fields := fun k _ => k.gmWords b) _ hp (fun _ _ hk => hk.gmWords) hup

theorem Hw.gmAnnounce_idle (hr : h.domRole b ≠ 2) : h.gmAnnounce b = h := if_neg hr

/-- The words of the answer to a request. -/
def Hw.respWords (h : Hw) (b : Bool) (m : PtpReqMsg) : List Int :=
  let p := domPort b m.hdr.secondPort
  if m.pdelay then [1, 0, m.hdr.correction + (h.egressT b p - h.ingress b p m.stamp)]
  else [0, h.ingress b p m.stamp, m.hdr.correction]

/-- The answer of a grandmaster to a request. -/
theorem Hw.ptpDelayReq_shows {m : PtpReqMsg} (hr : h.domRole b = 2) (ha : h.ptpActs b m.hdr = true)
    (hup : h.ptpUp (domPort b m.hdr.secondPort) = true) :
    LeftOn b .ptpDelayResp m.hdr.seq (domPort b m.hdr.secondPort) (h.respWords b m) h (h.ptpDelayReq b m) ∧
      (h.ptpDelayReq b m).dom b = h.dom b := by
  have e : h.ptpDelayReq b m = h.post b .ptpDelayResp m.hdr.seq (h.dom b) (domPort b m.hdr.secondPort) (h.respWords b m) := by
    rw [Hw.post, Hw.setDom_dom]
    exact if_pos ⟨hr, ha⟩
  rw [e]
  exact ⟨Hw.post_left hup, Hw.dom_post⟩

theorem Hw.ptpDelayReq_idle {m : PtpReqMsg} (hno : h.domRole b ≠ 2 ∨ h.ptpActs b m.hdr = false) : h.ptpDelayReq b m = h := by
  refine if_neg ?_
  rintro ⟨hr, ha⟩
  rcases hno with hn | hn
  · exact hn hr
  · exact Bool.false_ne_true (hn.symm.trans ha)

theorem domPort_lt (b x : Bool) : domPort b x < 4 := by
  cases b <;> cases x <;> decide

/-- The domain of k with a peer request of number seq noted on a link. -/
def Hw.peerAsked (b : Bool) (seq : BitVec 16) (k : Hw) (x : Bool) : DomS :=
  (k.dom b).setLink x { (k.dom b).link x with req := some (seq, k.egressT b (domPort b x)), resp := none }

theorem DomS.at_setLink (d : DomS) (x : Bool) (l : PtpLink) (i : Nat) : (d.setLink x l).at i = d.at i := by
  cases x <;> rfl

theorem Hw.delayReqSend_peer (hr : h.domRole b ≠ 0) (hp : h.domP2p b = true) : h.delayReqSend b =
    (h.setDom b { h.dom b with reqSeq := (h.dom b).reqSeq + 1 }).each [false, true] fun k x =>
      k.post b .ptpDelayReq (h.dom b).reqSeq (Hw.peerAsked b (h.dom b).reqSeq k x) (domPort b x)
        [1, (k.setDom b (Hw.peerAsked b (h.dom b).reqSeq k x)).egressT b (domPort b x)] :=
  if_pos ⟨hp, hr⟩

/-- A Pdelay_Req on each port of the LAN. -/
theorem Hw.delayReqSend_peer_shows (x : Bool) (hr : h.domRole b ≠ 0) (hp : h.domP2p b = true)
    (hup : h.ptpUp (domPort b x) = true) :
    LeftOn b .ptpDelayReq (h.dom b).reqSeq (domPort b x) [1, h.egressT b (domPort b x)] h (h.delayReqSend b) ∧
      (((h.delayReqSend b).dom b).link x).req = some ((h.dom b).reqSeq, h.egressT b (domPort b x)) ∧
      ((h.delayReqSend b).dom b).reqSeq = (h.dom b).reqSeq + 1 := by
  have hset : Posted b h (h.setDom b { h.dom b with reqSeq := (h.dom b).reqSeq + 1 }) := Posted.setDom fun _ => rfl
  have hat : ∀ (k : Hw) (x : Bool) (i : Nat), (Hw.peerAsked b (h.dom b).reqSeq k x).at i = (k.dom b).at i :=
    fun k x i => DomS.at_setLink _ _ _ i
  rw [Hw.delayReqSend_peer hr hp]
  refine ⟨LeftOn.before hset rfl ?_, ?_⟩
  · rw [← hset.egressT (domPort_lt b x)]
    exact Hw.each_post (fields := fun k x => [1, k.egressT b (domPort b x)]) _ (by cases b <;> decide)
      (by cases x <;> simp) (domPort_lt b x) hat (fun x h4 hk => by rw [hk.egressT h4]) hup
  · unfold Hw.each
    rw [List.foldl_cons, List.foldl_cons, List.foldl_nil, Hw.dom_post]
    generalize hk : Hw.post _ b .ptpDelayReq (h.dom b).reqSeq _ (domPort b false) _ = k
    have hdom : k.dom b = _ := hk ▸ Hw.dom_post
    have hposted : Posted b _ k := hk ▸ Hw.post_posted (hat _ false)
    have hseq : (k.dom b).reqSeq = (h.dom b).reqSeq + 1 := by
      rw [hdom]
      exact congrArg DomS.reqSeq (h.dom_setDom_same b _)
    cases x
    · refine ⟨?_, hseq⟩
      have hlink : (Hw.peerAsked b (h.dom b).reqSeq k true).link false = (k.dom b).link false := rfl
      rw [hlink, hdom, Hw.peerAsked, DomS.link_setLink_same, hset.egressT (domPort_lt b false)]
    · refine ⟨?_, hseq⟩
      rw [Hw.peerAsked, DomS.link_setLink_same, hposted.egressT (domPort_lt b true), hset.egressT (domPort_lt b true)]

/-- The domain after a Delay_Req to its master. -/
def Hw.masterAsked (h : Hw) (b : Bool) : DomS :=
  { h.dom b with reqSeq := (h.dom b).reqSeq + 1, req := some ((h.dom b).reqSeq, h.egressT b (domPort b (h.dom b).port)) }

/-- The Delay_Req of a SLAVE domain leaves by the port on which its master is heard. -/
theorem Hw.delayReqSend_endToEnd_shows (hr : h.domRole b = 1) (hp : h.domP2p b = false)
    (hm : (h.dom b).master.isSome = true) (hup : h.ptpUp (domPort b (h.dom b).port) = true) :
    LeftOn b .ptpDelayReq (h.dom b).reqSeq (domPort b (h.dom b).port) [0, h.egressT b (domPort b (h.dom b).port)] h
        (h.delayReqSend b) ∧ (h.delayReqSend b).dom b = h.masterAsked b := by
  have e : h.delayReqSend b = h.post b .ptpDelayReq (h.dom b).reqSeq (h.masterAsked b) (domPort b (h.dom b).port)
      [0, (h.setDom b (h.masterAsked b)).egressT b (domPort b (h.dom b).port)] := by
    unfold Hw.delayReqSend
    dsimp only
    rw [hp, if_neg (fun h => Bool.false_ne_true h.1), if_pos ⟨hr, hm⟩]
    rfl
  rw [e, (Posted.setDom (d := h.masterAsked b) fun _ => rfl).egressT (domPort_lt b _)]
  exact ⟨Hw.post_left hup, Hw.dom_post⟩

theorem Hw.delayReqSend_idle (hno : h.domRole b = 0 ∨ (h.domP2p b = false ∧ (h.domRole b = 2 ∨ (h.dom b).master = none))) :
    h.delayReqSend b = h := by
  unfold Hw.delayReqSend
  dsimp only
  rcases hno with hr | ⟨hp, hr⟩
  · rw [hr, if_neg (fun h => h.2 rfl), if_neg (fun h => absurd h.1 (by decide))]
  · rw [hp, if_neg (fun h => Bool.false_ne_true h.1), if_neg]
    rintro ⟨h1, h2⟩
    rcases hr with hr | hr
    · exact absurd (h1.symm.trans hr) (by decide)
    · rw [hr] at h2
      exact Bool.false_ne_true h2

end

/-! ### Commands of the NTM page -/

theorem Hw.domLocked_seal (h : Hw) (g : Nat) (b : Bool) : (h.seal g).domLocked b = h.domLocked b := rfl
theorem Hw.reg64_seal (h : Hw) (g a : Nat) : (h.seal g).reg64 a = h.reg64 a := rfl

theorem DomS.stepTo_shows (d : DomS) (g v : Nat) : (d.stepTo g v).base = v ∧ (d.stepTo g v).baseGrain = g ∧
    (d.stepTo g v).stepAt = some g ∧ (d.stepTo g v).inc = d.inc := ⟨rfl, rfl, rfl, rfl⟩

theorem Hw.timeOf_of {h k : Hw} {a : Nat} (e : ∀ i < 16, k.reg (a + i) = h.reg (a + i)) : k.timeOf a = h.timeOf a := by
  rw [Hw.timeOf, Hw.f, e 4 (by decide), e 8 (by decide), e 12 (by decide), show k.reg a = h.reg a from e 0 (by decide)]
  rfl

theorem Hw.domSet_gm {h : Hw} {b : Bool} (hr : h.domRole b = 2) :
    (h.domSet b).dom b = (h.dom b).stepTo h.wgrain (h.timeOf (dmr b 0x40)) ∧ (h.domSet b).domLocked b = true := by
  obtain ⟨hdom, hlock, -, -⟩ :=
    (h.setDom b ((h.dom b).stepTo h.wgrain (h.timeOf (dmr b 0x40)))).domLock_shows b true
  rw [Hw.domSet, if_pos hr]
  exact ⟨hdom.trans (h.dom_setDom_same b _), hlock⟩

theorem Hw.domSet_refused {h : Hw} {b : Bool} (hr : h.domRole b ≠ 2) : h.domSet b = h.evt pNTM 1 := if_neg hr

theorem Hw.stepCmd_refused {h : Hw} {src : Bool} (hno : h.clk.stepped = true ∨ (src = false ∧ h.srcLocked = false)) :
    h.stepCmd src = h.evt pNTM 1 := by
  refine if_pos ?_
  rcases hno with e | ⟨e1, e2⟩
  · rw [e, Bool.true_or]
  · rw [e1, e2, Bool.not_false, Bool.and_true, Bool.or_true]

theorem Hw.stepCmd_waits {h : Hw} {src : Bool} (hs : h.clk.stepped = false) (hl : src = true ∨ h.srcLocked = true) :
    h.stepCmd src = { h with ntm := { h.ntm with want := some (src, h.cycle) } } := by
  refine if_neg ?_
  rcases hl with e | e <;> simp [hs, e]

/-- A time put into four registers shows in the first its part below a nanosecond; other registers stay. -/
theorem Hw.putTime_shows (h : Hw) (a v : Nat) : (h.putTime a v).reg a = BitVec.ofNat 32 v ∧
    ∀ c, c < a ∨ a + 16 ≤ c → (h.putTime a v).reg c = h.reg c := by
  have e : h.putTime a v = (((h.setReg a (BitVec.ofNat 32 v)).setReg (a + 4) (BitVec.ofNat 32 (v / 2 ^ 32 % 1000000000))).setReg
      (a + 8) (BitVec.ofNat 32 (v / 2 ^ 32 / 1000000000))).setReg (a + 12)
        (BitVec.ofNat 32 (v / 2 ^ 32 / 1000000000 / 2 ^ 32 % 65536)) := rfl
  rw [e]
  refine ⟨?_, fun c hc => ?_⟩
  · rw [Hw.reg_setReg_ne _ (by omega), Hw.reg_setReg_ne _ (by omega), Hw.reg_setReg_ne _ (by omega), Hw.reg_setReg_same]
  · rw [Hw.reg_setReg_ne _ (by omega), Hw.reg_setReg_ne _ (by omega), Hw.reg_setReg_ne _ (by omega),
      Hw.reg_setReg_ne _ (by omega)]

/-- CAPTURE shows one grain: its number, both domain counters and CT. -/
theorem Hw.ctCapture_shows (h : Hw) : h.ctCapture.reg64 (nt 0x0B0) = BitVec.ofNat 64 h.wgrain ∧
    h.ctCapture.reg (nt 0x0B8) = BitVec.ofNat 32 (h.ntm.a.at h.wgrain) ∧
    h.ctCapture.reg (nt 0x0C8) = BitVec.ofNat 32 (h.ntm.b.at h.wgrain) ∧
    h.ctCapture.reg (nt 0x0D8) = BitVec.ofNat 32 (h.ctAt h.wgrain) ∧ h.ctCapture.bit (nt rEVT) 10 = true := by
  generalize hk0 : h.setReg64 (nt 0x0B0) (BitVec.ofNat 64 h.wgrain) = k0
  obtain ⟨hA, keepA⟩ := k0.putTime_shows (nt 0x0B8) (h.ntm.a.at h.wgrain)
  generalize hk1 : k0.putTime (nt 0x0B8) (h.ntm.a.at h.wgrain) = k1 at hA keepA
  obtain ⟨hB, keepB⟩ := k1.putTime_shows (nt 0x0C8) (h.ntm.b.at h.wgrain)
  generalize hk2 : k1.putTime (nt 0x0C8) (h.ntm.b.at h.wgrain) = k2 at hB keepB
  obtain ⟨hC, keepC⟩ := k2.putTime_shows (nt 0x0D8) (h.ctAt h.wgrain)
  have e : h.ctCapture = (k2.putTime (nt 0x0D8) (h.ctAt h.wgrain)).evt pNTM 10 := by
    rw [← hk2, ← hk1, ← hk0]
    rfl
  have hevt : ∀ {o}, o ≠ rEVT → o ≠ rEVT_TS → h.ctCapture.reg (nt o) = (k2.putTime (nt 0x0D8) (h.ctAt h.wgrain)).reg (nt o) :=
    fun h1 h2 => e ▸ Hw.reg_evt_ne _ (nt_ne h1) (nt_ne h2) 10
  have hgrain : ∀ {o}, o < 0xB8 → o ≠ rEVT → o ≠ rEVT_TS → h.ctCapture.reg (nt o) = k0.reg (nt o) := fun ho h1 h2 => by
    have below : ∀ {o'}, 0xB8 ≤ o' → nt _ < nt o' := fun h' => Nat.add_lt_add_left (lt_of_lt_of_le ho h') _
    rw [hevt h1 h2, keepC _ (.inl (below (by decide))), keepB _ (.inl (below (by decide))), keepA _ (.inl (below (by decide)))]
  refine ⟨?_, ?_, ?_, ?_, ?_⟩
  · rw [Hw.reg64_congr (hgrain (by decide) (by decide) (by decide)) (hgrain (o := 0xB4) (by decide) (by decide) (by decide)),
      ← hk0, Hw.reg64_setReg64]
  · rw [hevt (by decide) (by decide), keepC _ (.inl (by decide)), keepB _ (.inl (by decide)), hA]
  · rw [hevt (by decide) (by decide), keepC _ (.inl (by decide)), hB]
  · rw [hevt (by decide) (by decide), hC]
  · rw [e]
    exact Hw.bit_evt _ pNTM (by decide)

end Sys2Proof.Machine

namespace Sys2Proof
open Machine

/-- A message that left, as the module's end of the command shows it. -/
theorem LeftOn.shown {s : State} {g p n : Nat} {b : Bool} {kind : OutKind} {seq : BitVec 16} {fields : List Int} {k : Hw}
    {v : PtpVia} (hk : LeftOn b kind seq p fields (s.hw.at g) k) (hv : v ∈ s.hw.domVias b) :
    (s.hw.at g).ptpFrame b kind p seq fields v ∈ (k.seal n).out ∧
      (k.seal n).reg (sentCnt p) = s.hw.reg (sentCnt p) + BitVec.ofNat 32 (s.hw.domVias b).length :=
  ⟨hk.frame v hv, hk.count⟩

/-- A domain's send that does nothing. -/
theorem gives_noMessage {s : State} {g : Nat} (F : Hw → Hw) (b : Bool) (hl : Live s) (hs : Unshed s)
    (e : F (s.hw.at g) = s.hw.at g) : ∃ t, runLink g (fun _ h => F h) s = .next t ∧
      t.hw.out = [] ∧ t.hw.regs = s.hw.regs ∧ t.hw.dom b = s.hw.dom b :=
  gives_domMessage F hl hs e fun t ht => by rw [ht]; exact ⟨rfl, rfl, rfl⟩

/-- Settles O47: the messages by what each sender leaves on the ports of the LAN, the commands of the NTM page by what the
module shows after the write. -/
theorem networkTimeMessages : Obligations.NetworkTimeMessages := by
  intro s g b hl
  have hup : ∀ {p : Nat}, s.hw.bit (ra pNSW (0x060 + 4 * p)) 0 = true → s.hw.bit (ra pNSW (0x070 + 4 * p)) 0 = true →
      (s.hw.at g).ptpUp p = true := fun h1 h2 => Bool.and_eq_true_iff.2 ⟨h1, h2⟩
  have hntm : ∀ {k : Hw}, Logged (s.hw.at g) k → ∀ {o}, o < 0x1000 → k.reg (nt o) = s.hw.reg (nt o) :=
    fun hk _ ho => hk.reg (not_inLog_page (by decide) ho)
  have hrole : ∀ {k : Hw}, Logged (s.hw.at g) k → k.atWrite.domRole b = s.hw.domRole b := fun hk =>
    congrArg (fld · 9 8) (hntm hk (by cases b <;> decide))
  have hdom : ∀ {k : Hw}, Logged (s.hw.at g) k → k.atWrite.dom b = s.hw.dom b := fun {k} hk =>
    Hw.dom_of_ntm (h := s.hw) (k := k.atWrite) hk.ntm b
  have hgrain : ∀ {k : Hw}, Logged (s.hw.at g) k → k.atWrite.wgrain = max s.hw.grain g / 5 * 5 + 4 := fun {k} hk => by
    rw [Hw.wgrain, show k.atWrite.grain / 5 = k.grain / 5 from k.atWrite_cycle, hk.grain, Nat.mul_comm]
    rfl
  have hclk : ∀ {k : Hw}, Logged (s.hw.at g) k → k.atWrite.clk.stepped = s.hw.clk.stepped := fun hk =>
    congrArg (·.stepped) hk.clk
  have hlocked : ∀ {k : Hw}, Logged (s.hw.at g) k → k.atWrite.srcLocked = s.hw.srcLocked := fun {k} hk => by
    have hsrc : k.atWrite.bit (nt rSTAT) 0 = s.hw.bit (nt rSTAT) 0 := congrArg (bitOf · 0) (hntm hk (by decide))
    rw [Hw.srcLocked, hsrc]
    exact congrArg (bitOf · _) (hntm hk (by decide))
  refine ⟨fun p v hsh hr hd hp hv h1 h2 => ?_, fun hsh hno => ?_, fun p v hsh hr hp hv h1 h2 => ?_, fun hsh hr => ?_,
    fun m p v hsh hr ha hm hp hv h1 h2 => ?_, fun m p v hsh hr ha hm hp hv h1 h2 => ?_, fun m hsh hno => ?_,
    fun p v x hsh hr hp2p hp hv h1 h2 => ?_, fun p v hsh hr hp2p hm hp hv h1 h2 => ?_, fun hsh hno => ?_,
    fun hu hr => ?_, fun hu hr => ?_, fun src hu hno => ?_, fun src hu hs hsrc => ?_, fun hu => ?_⟩
  · refine gives_domMessage (·.gmSync b) hl hsh rfl fun t e => ?_
    obtain ⟨hleft, hdom⟩ := Hw.gmSync_shows (h := s.hw.at g) hr hd hp (hup h1 h2)
    obtain ⟨hframe, hcnt⟩ := LeftOn.shown (n := max s.hw.grain g) hleft hv
    rw [e]
    exact ⟨by cases v <;> exact hframe, hcnt, hdom⟩
  · exact gives_noMessage (·.gmSync b) b hl hsh (Hw.gmSync_idle hno)
  · refine gives_domMessage (·.gmAnnounce b) hl hsh rfl fun t e => ?_
    obtain ⟨hleft, hdom⟩ := Hw.gmAnnounce_shows (h := s.hw.at g) hr hp (hup h1 h2)
    obtain ⟨hframe, hcnt⟩ := LeftOn.shown (n := max s.hw.grain g) hleft hv
    rw [e]
    exact ⟨by cases v <;> exact hframe, hcnt, hdom⟩
  · exact gives_noMessage (·.gmAnnounce b) b hl hsh (Hw.gmAnnounce_idle hr)
  · subst hp
    refine gives_domMessage (·.ptpDelayReq b m) hl hsh rfl fun t e => ?_
    obtain ⟨hleft, hdom⟩ := Hw.ptpDelayReq_shows (h := s.hw.at g) hr ha (hup h1 h2)
    obtain ⟨hframe, hcnt⟩ := LeftOn.shown (n := max s.hw.grain g) hleft hv
    rw [Hw.respWords, hm] at hframe
    rw [e]
    exact ⟨by cases v <;> exact hframe, hcnt, hdom⟩
  · subst hp
    refine gives_domMessage (·.ptpDelayReq b m) hl hsh rfl fun t e => ?_
    obtain ⟨hleft, hdom⟩ := Hw.ptpDelayReq_shows (h := s.hw.at g) hr ha (hup h1 h2)
    obtain ⟨hframe, hcnt⟩ := LeftOn.shown (n := max s.hw.grain g) hleft hv
    rw [Hw.respWords, hm] at hframe
    rw [e]
    exact ⟨by cases v <;> exact hframe, hcnt, hdom⟩
  · exact gives_noMessage (·.ptpDelayReq b m) b hl hsh (Hw.ptpDelayReq_idle hno)
  · subst hp
    refine gives_domMessage (·.delayReqSend b) hl hsh rfl fun t e => ?_
    obtain ⟨hleft, hlink, hseq⟩ := Hw.delayReqSend_peer_shows (h := s.hw.at g) x hr hp2p (hup h1 h2)
    obtain ⟨hframe, hcnt⟩ := LeftOn.shown (n := max s.hw.grain g) hleft hv
    rw [e]
    exact ⟨by cases v <;> exact hframe, hcnt, hlink, hseq⟩
  · subst hp
    refine gives_domMessage (·.delayReqSend b) hl hsh rfl fun t e => ?_
    obtain ⟨hleft, hdom⟩ := Hw.delayReqSend_endToEnd_shows (h := s.hw.at g) hr hp2p hm (hup h1 h2)
    obtain ⟨hframe, hcnt⟩ := LeftOn.shown (n := max s.hw.grain g) hleft hv
    rw [e]
    exact ⟨by cases v <;> exact hframe, hcnt, hdom⟩
  · exact gives_noMessage (·.delayReqSend b) b hl hsh (Hw.delayReqSend_idle hno)
  · refine gives_write (f := fun _ h => h.domSet b) hl (by decide) hu fun k hk => ?_
    obtain ⟨hset, hlock⟩ := Hw.domSet_gm ((hrole hk).trans hr)
    have htime : k.atWrite.timeOf (dmr b 0x40) = s.hw.timeOf (dmr b 0x40) :=
      Hw.timeOf_of fun i hi => by
        rw [show dmr b 0x40 + i = nt ((if b then 0x180 else 0x100) + 0x40 + i) from Nat.add_assoc _ _ _]
        exact hntm hk (by cases b <;> simp <;> omega)
    rw [hdom hk, htime, hgrain hk] at hset
    rw [Hw.dom_seal, hset, Hw.domLocked_seal]
    obtain ⟨hbase, hat, hstep, hinc⟩ := (s.hw.dom b).stepTo_shows (max s.hw.grain g / 5 * 5 + 4) (s.hw.timeOf (dmr b 0x40))
    exact ⟨hbase, hat, hstep, hlock, hinc⟩
  · refine gives_write (f := fun _ h => h.domSet b) hl (by decide) hu fun k hk => ?_
    rw [Hw.domSet_refused ((hrole hk).symm ▸ hr)]
    exact ⟨Hw.bit_evt _ pNTM (by decide), (Hw.dom_of_ntm (Hw.evt_ntm k.atWrite pNTM 1) b).trans (hdom hk)⟩
  · refine gives_write (f := fun _ h => h.stepCmd src) hl (by decide) hu fun k hk => ?_
    rw [Hw.stepCmd_refused (hno.imp (hclk hk).trans fun ⟨e1, e2⟩ => ⟨e1, (hlocked hk).trans e2⟩)]
    exact ⟨Hw.bit_evt _ pNTM (by decide), congrArg NtmS.want ((Hw.evt_ntm k.atWrite pNTM 1).trans hk.ntm),
      (Hw.evt_clk k.atWrite pNTM 1).trans hk.clk⟩
  · refine gives_write (f := fun _ h => h.stepCmd src) hl (by decide) hu fun k hk => ?_
    rw [Hw.stepCmd_waits ((hclk hk).trans hs) (hsrc.imp_right (hlocked hk).trans)]
    exact ⟨congrArg (fun n => some (src, n)) (k.atWrite_cycle.trans (congrArg (· / 5) hk.grain)), hk.clk⟩
  · refine gives_write (f := fun _ => Hw.ctCapture) hl (by decide) hu fun k hk => ?_
    obtain ⟨hG, hA, hB, hC, hE⟩ := k.atWrite.ctCapture_shows
    have hct : ∀ n, k.atWrite.ctAt n = s.hw.ctAt n := fun n => by
      rw [Hw.ctAt, show k.atWrite.clk = s.hw.clk from hk.clk]
      rfl
    have hn : k.atWrite.ntm = s.hw.ntm := hk.ntm
    rw [hgrain hk] at hG hA hB hC
    rw [hn] at hA hB
    rw [hct] at hC
    rw [Hw.reg64_seal, Hw.seal_reg, Hw.seal_reg, Hw.seal_reg, Hw.seal_bit]
    exact ⟨hG, hA, hB, hC, hE⟩

end Sys2Proof

namespace Sys2Proof.Machine

/-! ### The acquisition unit and its registers -/

theorem aq_ne {o o' : Nat} (h : o ≠ o') : aq o ≠ aq o' := by
  simp only [aq, ra]
  omega

theorem rcd_ne_aq {r o o' : Nat} (h : o' < 0x400) : rcd r o ≠ aq o' := by
  simp only [rcd, aq, ra]
  omega

theorem rcd_ne {r o o' : Nat} (h : o ≠ o') : rcd r o ≠ rcd r o' := by
  simp only [rcd, aq, ra]
  omega

theorem not_inLog_aq {o : Nat} (h : o < 0x1000) : ¬ inLog (aq o) := not_inLog_page (by decide) h

/-- What STAT shows of a phase. -/
def acqStat (phase : Nat) : Nat := if phase = 1 then 1 else if phase = 2 then 2 else if phase = 3 then 4 else 0

theorem acqStat_lt (phase : Nat) : acqStat phase < 2 ^ (2 + 1 - 0) := by
  unfold acqStat
  repeat' split
  all_goals decide

/-- The word of LEDGER. -/
def AcqS.ledger (x : AcqS) : Word := BitVec.ofNat 32 (x.closedN * 2 ^ 20 + x.openN * 2 ^ 10 + x.freeN)

theorem Hw.acqShow_eq (h : Hw) : h.acqShow = ((((h.setReg (aq 0x070) h.acq.ledger).setF (aq rSTAT) 2 0
    (acqStat h.acq.phase)).setBit (aq rSTAT) 3 h.acq.thr).setF (aq 0x084) 3 0 (h.acq.order.headD 0)) := by
  unfold Hw.acqShow acqStat AcqS.ledger
  rfl

@[simp] theorem Hw.acq_setF (h : Hw) (a hi lo v : Nat) : (h.setF a hi lo v).acq = h.acq := rfl
@[simp] theorem Hw.acq_setBit (h : Hw) (a i : Nat) (v : Bool) : (h.setBit a i v).acq = h.acq := rfl
@[simp] theorem Hw.acq_setAcq (h : Hw) (x : AcqS) : (h.setAcq x).acq = x := rfl
@[simp] theorem Hw.reg_setAcq (h : Hw) (x : AcqS) (a : Nat) : (h.setAcq x).reg a = h.reg a := rfl

@[simp] theorem Hw.acq_acqShow (h : Hw) : h.acqShow.acq = h.acq := by
  rw [Hw.acqShow_eq, Hw.acq_setF, Hw.acq_setBit, Hw.acq_setF, Hw.setReg_acq]

theorem Hw.reg_acqShow_ledger (h : Hw) : h.acqShow.reg (aq 0x070) = h.acq.ledger := by
  rw [Hw.acqShow_eq, Hw.reg_setF_ne _ (aq_ne (by decide)), Hw.reg_setBit_ne _ (aq_ne (by decide)),
    Hw.reg_setF_ne _ (aq_ne (by decide)), Hw.reg_setReg_same]

theorem Hw.f_acqShow_stat (h : Hw) : h.acqShow.f (aq rSTAT) 2 0 = acqStat h.acq.phase := by
  rw [Hw.acqShow_eq, Hw.f_setF_ne _ (aq_ne (by decide)), Hw.setBit, Hw.f_setF_disj _ _ (by decide) (by decide) _ (by decide),
    Hw.f_setF_same _ _ (by decide) (by decide), Nat.mod_eq_of_lt (acqStat_lt _)]

theorem Hw.reg_acqShow_ne (h : Hw) {a : Nat} (h1 : a ≠ aq 0x070) (h2 : a ≠ aq rSTAT) (h3 : a ≠ aq 0x084) :
    h.acqShow.reg a = h.reg a := by
  rw [Hw.acqShow_eq, Hw.reg_setF_ne _ h3, Hw.reg_setBit_ne _ h2, Hw.reg_setF_ne _ h2, Hw.reg_setReg_ne _ h1]

theorem Hw.reg_acqShow_rcd (h : Hw) (r o : Nat) : h.acqShow.reg (rcd r o) = h.reg (rcd r o) :=
  h.reg_acqShow_ne (rcd_ne_aq (by decide)) (rcd_ne_aq (by decide)) (rcd_ne_aq (by decide))

/-- A command refused: its reason, the event, and nothing else of the unit. -/
theorem Hw.acqRefuse_shows (h : Hw) {n : Nat} (hn : n < 2 ^ (2 + 1 - 0)) : (h.acqRefuse n).f (aq 0x05C) 2 0 = n ∧
    (h.acqRefuse n).bit (aq rEVT) 4 = true ∧ (h.acqRefuse n).acq = h.acq := by
  refine ⟨?_, Hw.bit_evt _ pACQ (by decide), Hw.evt_acq _ _ _⟩
  rw [Hw.acqRefuse, Hw.f, Hw.reg_evt_ne _ (aq_ne (by decide)) (aq_ne (by decide))]
  exact (Hw.f_setF_same h _ (by decide) (by decide) n).trans (Nat.mod_eq_of_lt hn)

/-! ### A record opens -/

/-- The module k has the acquisition unit of h and its registers. -/
structure AcqSame (h k : Hw) : Prop where
  acq : k.acq = h.acq
  reg : ∀ {o}, o < 0x1000 → k.reg (aq o) = h.reg (aq o)

namespace AcqSame

variable {h k : Hw} (hk : AcqSame h k)
include hk

theorem bit {o : Nat} (ho : o < 0x1000) (i : Nat) : k.bit (aq o) i = h.bit (aq o) i := congrArg (bitOf · i) (hk.reg ho)

theorem f {o : Nat} (ho : o < 0x1000) (hi lo : Nat) : k.f (aq o) hi lo = h.f (aq o) hi lo := congrArg (fld · hi lo) (hk.reg ho)

theorem acqS : k.acqS = h.acqS := by
  simp only [Hw.acqS, Hw.acqChans, hk.bit (o := 0x044) (by decide)]

theorem prePg : k.prePg = h.prePg := by
  simp only [Hw.prePg, hk.acqS, hk.f (o := 0x048) (by decide)]

theorem preHeld : k.preHeld = h.preHeld := by
  simp only [Hw.preHeld, hk.acq, hk.f (o := 0x048) (by decide)]

theorem nextRec : k.nextRec = h.nextRec := by
  have hfree : ∀ r, r < 16 → k.recFree r = h.recFree r := fun r hr => by
    have h31 : k.bit (rcd r 0) 31 = h.bit (rcd r 0) 31 := hk.bit (by omega) 31
    have h30 : k.bit (rcd r 0) 30 = h.bit (rcd r 0) 30 := hk.bit (by omega) 30
    rw [Hw.recFree, Hw.recFree, h31, h30]
  rw [Hw.nextRec, Hw.nextRec, hk.acq]
  refine List.find?_congr fun r hr => hfree r ?_
  obtain ⟨i, -, rfl⟩ := List.mem_map.1 hr
  exact Nat.mod_lt _ (by decide)

end AcqSame

/-- The unit as a record opens in descriptor r. -/
def Hw.opened (h : Hw) (r : Nat) : AcqS :=
  { h.acq with phase := 1, desc := r, num := (h.acq.num + 1) % 256, taken := 0, postN := 0, first := h.acq.next,
               pre := h.prePg, post := 0, preClosed := false, postClosed := 0, soft := none, remote := none, rearm := 0,
               next := (h.acq.next + h.prePg) % 512, order := h.acq.order ++ [r] }

/-- The first word of the descriptor of a record that opens. -/
def Hw.openWord (h : Hw) : Word :=
  BitVec.ofNat 32 (2 ^ 30 + (h.acq.num + 1) % 256 * 65536 + (if h.acq.thr then 16 else 0))

/-- The descriptor of a record that opens. -/
def Hw.openRec (h : Hw) (r : Nat) : Hw :=
  let k := h.each (List.range 15) fun h w => h.setReg (rcd r (4 * w)) 0
  let k := (k.setReg (rcd r 0) h.openWord).setReg (rcd r 4) (BitVec.ofNat 32 (h.prePg * 65536 + h.acq.next))
  (k.setReg (rcd r 0x30) (BitVec.ofNat 32 k.sper)).setReg (rcd r 0x38) (k.reg (aq 0x044))

theorem Hw.recStart_eq (h : Hw) (r : Nat) : h.recStart r = (h.openRec r).setAcq (h.opened r) := by
  unfold Hw.recStart Hw.openRec Hw.openWord Hw.opened
  rfl

theorem Hw.recStart_shows (h : Hw) (r : Nat) : (h.recStart r).acq = h.opened r ∧
    (h.recStart r).reg (rcd r 0) = h.openWord ∧ (h.recStart r).reg (rcd r 0x38) = h.reg (aq 0x044) := by
  rw [Hw.recStart_eq]
  refine ⟨Hw.acq_setAcq _ _, ?_, ?_⟩
  · rw [Hw.reg_setAcq, Hw.openRec, Hw.reg_setReg_ne _ (rcd_ne (by decide)), Hw.reg_setReg_ne _ (rcd_ne (by decide)),
      Hw.reg_setReg_ne _ (rcd_ne (by decide)), Hw.reg_setReg_same]
  · rw [Hw.reg_setAcq, Hw.openRec, Hw.reg_setReg_same, Hw.reg_setReg_ne _ (rcd_ne_aq (by decide)).symm,
      Hw.reg_setReg_ne _ (rcd_ne_aq (by decide)).symm]
    exact Hw.each_keeps (·.reg (aq 0x044)) (fun h w => Hw.reg_setReg_ne h (rcd_ne_aq (by decide)).symm _) _ _

theorem Hw.grain_recStart (h : Hw) (r : Nat) : (h.recStart r).grain = h.grain := by
  have hset : ∀ (k : Hw) (a : Nat) (v : Word), (k.setReg a v).grain = k.grain := fun _ _ _ => rfl
  have hacq : ∀ (k : Hw) (x : AcqS), (k.setAcq x).grain = k.grain := fun _ _ => rfl
  rw [Hw.recStart_eq, hacq, Hw.openRec, hset, hset, hset, hset]
  exact Hw.each_keeps (·.grain) (fun _ _ => hset _ _ _) _ _

theorem Hw.wgrain_recStart (h : Hw) (r : Nat) : (h.recStart r).wgrain = h.wgrain :=
  congrArg (fun g => 5 * (g / 5) + 4) (h.grain_recStart r)

/-- The first word of an open record: OPEN, not DONE, and the record's number. -/
theorem Hw.openWord_shows (h : Hw) : bitOf h.openWord 30 = true ∧ bitOf h.openWord 31 = false ∧
    fld h.openWord 23 16 = (h.acq.num + 1) % 256 := by
  have hw : h.openWord.toNat = 2 ^ 30 + (h.acq.num + 1) % 256 * 65536 + (if h.acq.thr then 16 else 0) := by
    rw [Hw.openWord, BitVec.toNat_ofNat]
    split <;> omega
  simp only [bitOf, fld, BitVec.getLsbD, Nat.testBit_eq_decide_div_mod_eq, Nat.shiftRight_eq_div_pow, hw, decide_eq_true_eq,
    decide_eq_false_iff_not]
  split <;> omega

/-- What an open record shows. -/
structure Opened (h : Hw) (r : Nat) (k : Hw) : Prop where
  isOpen : k.bit (rcd r 0) 30 = true
  notDone : k.bit (rcd r 0) 31 = false
  num : k.f (rcd r 0) 23 16 = (h.acq.num + 1) % 256
  chans : k.reg (rcd r 0x38) = h.reg (aq 0x044)

theorem Hw.setAcq_acq (h : Hw) : h.setAcq h.acq = h := rfl

theorem Hw.recStart_opened (h : Hw) (r : Nat) (x : AcqS) : Opened h r ((h.recStart r).setAcq x).acqShow := by
  obtain ⟨-, h0, h38⟩ := h.recStart_shows r
  obtain ⟨hopen, hdone, hnum⟩ := h.openWord_shows
  have hreg : ∀ o, ((h.recStart r).setAcq x).acqShow.reg (rcd r o) = (h.recStart r).reg (rcd r o) := fun o =>
    (Hw.reg_acqShow_rcd _ _ _).trans (Hw.reg_setAcq _ _ _)
  rw [← h0, ← hreg 0] at hopen hdone hnum
  exact ⟨hopen, hdone, hnum, (hreg 0x38).trans h38⟩

/-! ### ARM -/

/-- The unit as ARM opens a record. -/
def Hw.armed (h : Hw) (r : Nat) : AcqS := { h.opened r with armAt := h.wgrain, done := 0, stop := none }

section
variable {h : Hw}

theorem Hw.acqArm_busy (hno : h.acq.phase ≠ 0 ∨ h.bit (aq rCTRL) 0 = false ∨ h.bit (aq rREADY) 0 = false) :
    h.acqArm = h.acqRefuse 1 := by
  refine if_pos ?_
  rcases hno with e | e | e <;> simp [e]

section
variable (hen : h.bit (aq rCTRL) 0 = true) (hrd : h.bit (aq rREADY) 0 = true) (hph : h.acq.phase = 0)
include hen hrd hph

theorem Hw.acqArm_full (hn : h.nextRec = none) : h.acqArm = h.acqRefuse 3 := by
  simp [Hw.acqArm, hen, hrd, hph, hn]

theorem Hw.acqArm_pages {r : Nat} (hn : h.nextRec = some r) (hp : h.acq.freeN < h.prePg + 1) : h.acqArm = h.acqRefuse 2 := by
  simp [Hw.acqArm, hen, hrd, hph, hn, hp]

theorem Hw.acqArm_opens {r : Nat} (hn : h.nextRec = some r) (hp : h.prePg + 1 ≤ h.acq.freeN) :
    h.acqArm = ((h.recStart r).setAcq (h.armed r)).acqShow := by
  rw [Hw.armed, ← h.wgrain_recStart r, ← (h.recStart_shows r).1]
  simp [Hw.acqArm, hen, hrd, hph, hn, Nat.not_lt.2 hp]

end

/-! ### STOP, the software trigger and re-arming -/

theorem Hw.acqStop_rearming (hp : h.acq.phase = 3) : h.acqStop = (h.setAcq { h.acq with phase := 0 }).acqShow := if_pos hp

theorem Hw.acqStop_idle (hp : h.acq.phase = 0) : h.acqStop = h := by
  rw [Hw.acqStop, if_neg (by rw [hp]; decide), if_pos hp]

theorem Hw.acqStop_open (hp : h.acq.phase = 1 ∨ h.acq.phase = 2) : h.acqStop = h.setAcq { h.acq with stop := some h.wgrain } := by
  rw [Hw.acqStop, if_neg (by omega), if_neg (by omega)]

theorem Hw.acqRearmed_opens {r : Nat} (hp : h.acq.phase = 3) (hr : 4 ≤ h.acq.rearm) (hf : h.prePg + 1 ≤ h.acq.freeN)
    (hn : h.nextRec = some r) : h.acqRearmed = h.recStart r := by
  rw [Hw.acqRearmed, if_pos ⟨hp, hr, hf⟩, hn]

theorem Hw.acqRearmed_waits (hno : h.acq.phase ≠ 3 ∨ h.acq.rearm < 4 ∨ h.acq.freeN < h.prePg + 1 ∨ h.nextRec = none) :
    h.acqRearmed = h := by
  unfold Hw.acqRearmed
  split
  · next hc =>
    obtain ⟨h1, h2, h3⟩ := hc
    have hn : h.nextRec = none := by
      rcases hno with e | e | e | e
      · exact absurd h1 e
      · omega
      · omega
      · exact e
    rw [hn]
  · rfl

end

/-! ### The page ledger -/

/-- The pages of a list of closed runs. -/
def closedPages (l : List (Nat × Nat × Nat)) : Nat := l.foldl (fun t e => t + e.2.1) 0

theorem foldl_closedPages (l : List (Nat × Nat × Nat)) (n : Nat) : l.foldl (fun t e => t + e.2.1) n = n + closedPages l := by
  induction l generalizing n with
  | nil => rfl
  | cons e l ih =>
    rw [closedPages, List.foldl_cons, List.foldl_cons, ih, ih]
    omega

theorem closedPages_cons (e : Nat × Nat × Nat) (l : List (Nat × Nat × Nat)) :
    closedPages (e :: l) = e.2.1 + closedPages l := by
  rw [closedPages, List.foldl_cons, foldl_closedPages, Nat.zero_add]

theorem closedPages_append (l l' : List (Nat × Nat × Nat)) : closedPages (l ++ l') = closedPages l + closedPages l' := by
  rw [closedPages, List.foldl_append, foldl_closedPages]
  rfl

theorem closedPages_filter_le (p : Nat × Nat × Nat → Bool) (l : List (Nat × Nat × Nat)) :
    closedPages (l.filter p) ≤ closedPages l := by
  induction l with
  | nil => exact le_rfl
  | cons e l ih =>
    rw [List.filter_cons, closedPages_cons]
    split
    · rw [closedPages_cons]
      omega
    · omega

/-- One run gives up pages: what is still to be released, and the runs that stay. -/
def dropPages (a : Nat × List (Nat × Nat × Nat)) (e : Nat × Nat × Nat) : Nat × List (Nat × Nat × Nat) :=
  let k := min a.1 e.2.1
  (a.1 - k, if k = e.2.1 then a.2 else a.2 ++ [(e.1, e.2.1 - k, e.2.2)])

/-- Runs that give up pages, the oldest first: no page is lost. -/
theorem foldl_dropPages (l : List (Nat × Nat × Nat)) (n : Nat) (kept : List (Nat × Nat × Nat)) :
    closedPages (l.foldl dropPages (n, kept)).2 + n = closedPages kept + closedPages l + (n - closedPages l) := by
  induction l generalizing n kept with
  | nil => rfl
  | cons e l ih =>
    rw [List.foldl_cons, closedPages_cons]
    by_cases hk : e.2.1 ≤ n
    · have step : dropPages (n, kept) e = (n - e.2.1, kept) := by
        simp only [dropPages, Nat.min_eq_right hk, if_true]
      rw [step]
      have := ih (n - e.2.1) kept
      omega
    · have step : dropPages (n, kept) e = (0, kept ++ [(e.1, e.2.1 - n, e.2.2)]) := by
        have hmin : min n e.2.1 = n := Nat.min_eq_left (by omega)
        simp only [dropPages, hmin, Nat.sub_self]
        rw [if_neg (by omega)]
      rw [step]
      have := ih 0 (kept ++ [(e.1, e.2.1 - n, e.2.2)])
      rw [closedPages_append, closedPages_cons] at this
      simp only [closedPages, List.foldl_nil] at this ⊢
      omega

/-- The pages that RELEASE may free: those closed in an earlier cycle. -/
def Hw.releasable (h : Hw) : Nat := closedPages (h.acq.closed.filter fun e => e.2.2 != h.cycle)

theorem Hw.acqRelease_refused {h : Hw} {n : Nat} (hn : h.releasable < n) : h.acqRelease n = h.acqRefuse 5 := if_pos hn

/-- The closed records of which no page is left. -/
def Hw.goneRecs (h : Hw) (l : List (Nat × Nat × Nat)) : List Nat :=
  (List.range 16).filter fun r => h.bit (rcd r 0) 31 && !h.bit (rcd r 0) 30 && !l.any (fun e => e.1 == r)

/-- The module with the closed runs l left, and their records. -/
def Hw.leaveRuns (h : Hw) (l : List (Nat × Nat × Nat)) : Hw :=
  let k := h.setAcq { h.acq with closed := l }
  let k' := k.each (k.goneRecs l) fun h r => h.setBit (rcd r 0) 31 false
  k'.setAcq { k'.acq with order := k'.acq.order.filter fun r => !(k.goneRecs l).contains r }

theorem Hw.acqRelease_frees {h : Hw} {n : Nat} (hn : n ≤ h.releasable) :
    h.acqRelease n = (h.leaveRuns (h.acq.closed.foldl dropPages (n, [])).2).acqShow := if_neg (Nat.not_lt.2 hn)

theorem Hw.acq_leaveRuns (h : Hw) (l : List (Nat × Nat × Nat)) :
    ∃ order, (h.leaveRuns l).acq = { h.acq with closed := l, order } := by
  have hkeep : ∀ (k : Hw) (rs : List Nat), (k.each rs fun h r => h.setBit (rcd r 0) 31 false).acq = k.acq := fun k rs =>
    Hw.each_keeps (·.acq) (fun h r => h.acq_setBit _ _ _) rs k
  unfold Hw.leaveRuns
  dsimp only
  rw [Hw.acq_setAcq, hkeep]
  exact ⟨_, rfl⟩

/-- Pages released leave the closed ones; the phase and the open pages stay. -/
theorem Hw.acqRelease_shows {h : Hw} {n : Nat} (hn : n ≤ h.releasable) : (h.acqRelease n).acq.closedN + n = h.acq.closedN ∧
    (h.acqRelease n).acq.phase = h.acq.phase ∧ (h.acqRelease n).acq.openN = h.acq.openN := by
  have hle : n ≤ closedPages h.acq.closed := hn.trans (closedPages_filter_le _ _)
  have hdrop := foldl_dropPages h.acq.closed n []
  obtain ⟨order, e⟩ := h.acq_leaveRuns (h.acq.closed.foldl dropPages (n, [])).2
  rw [Hw.acqRelease_frees hn, Hw.acq_acqShow, e]
  refine ⟨?_, rfl, rfl⟩
  change closedPages (h.acq.closed.foldl dropPages (n, [])).2 + n = closedPages h.acq.closed
  rw [hdrop, Nat.sub_eq_zero_of_le hle]
  exact (Nat.add_zero _).trans (Nat.zero_add _)

/-! ### Post samples and the end of a record -/

theorem Hw.regs_closePages (h : Hw) (n : Nat) : (h.closePages n).regs = h.regs := by
  unfold Hw.closePages
  split <;> rfl

/-- Pages that close move nothing of the unit but the ledger's closed runs. -/
theorem Hw.acq_closePages (h : Hw) (n : Nat) : ∃ l, (h.closePages n).acq = { h.acq with closed := l } := by
  unfold Hw.closePages
  split
  · exact ⟨h.acq.closed, rfl⟩
  · exact ⟨_, rfl⟩

/-- The module k, in which a trigger has been accepted, has the record of h: its number, its samples counted and the words
of its descriptor that the trigger wrote. -/
structure PostKeeps (h k : Hw) : Prop where
  phase : k.acq.phase ≠ 1
  desc : k.acq.desc = h.acq.desc
  n : k.acq.n = h.acq.n
  soft : h.acq.soft = none → k.acq.soft = none
  reg : ∀ {o}, h.acq.desc < 16 → o < 0x40 → o ≠ 0 → o ≠ 8 → o ≠ 0x14 →
    k.reg (rcd h.acq.desc o) = h.reg (rcd h.acq.desc o)

theorem PostKeeps.refl {h : Hw} (hp : h.acq.phase ≠ 1) : PostKeeps h h := ⟨hp, rfl, rfl, id, fun _ _ _ _ _ => rfl⟩

theorem PostKeeps.trans {h k l : Hw} (h1 : PostKeeps h k) (h2 : PostKeeps k l) : PostKeeps h l where
  phase := h2.phase
  desc := h2.desc.trans h1.desc
  n := h2.n.trans h1.n
  soft := fun e => h2.soft (h1.soft e)
  reg := fun hd ho h0 h8 h14 => by
    rw [← h1.reg hd ho h0 h8 h14, ← h1.desc]
    exact h2.reg (h1.desc ▸ hd) ho h0 h8 h14

/-- A change of the unit that leaves the record's number. -/
theorem PostKeeps.setAcq {h k : Hw} {x : AcqS} (hk : PostKeeps h k) (hp : x.phase ≠ 1) (hd : x.desc = k.acq.desc)
    (hn : x.n = k.acq.n) (hs : k.acq.soft = none → x.soft = none) : PostKeeps h (k.setAcq x) :=
  ⟨hp, hd.trans hk.desc, hn.trans hk.n, fun e => hs (hk.soft e), hk.reg⟩

/-- A change beside the unit and the descriptor. -/
theorem PostKeeps.of {h k : Hw} (hp : h.acq.phase ≠ 1) (ha : k.acq = h.acq)
    (hr : ∀ {o}, h.acq.desc < 16 → o < 0x40 → o ≠ 0 → o ≠ 8 → o ≠ 0x14 →
      k.reg (rcd h.acq.desc o) = h.reg (rcd h.acq.desc o)) : PostKeeps h k :=
  ⟨ha ▸ hp, by rw [ha], by rw [ha], by rw [ha]; exact id, hr⟩

theorem Hw.closePages_keeps {h : Hw} (hp : h.acq.phase ≠ 1) (n : Nat) : PostKeeps h (h.closePages n) := by
  obtain ⟨l, e⟩ := h.acq_closePages n
  have hr : ∀ a, (h.closePages n).reg a = h.reg a := fun a => Hw.reg_of_regs (h.regs_closePages n) a
  exact ⟨by rw [e]; exact hp, by rw [e], by rw [e], fun hs => by rw [e]; exact hs, fun _ _ _ _ _ => hr _⟩

theorem Hw.acq_recWrite (h : Hw) (base o size : Nat) (d : List Byte) : (h.recWrite base o size d).acq = h.acq := by
  unfold Hw.recWrite
  exact Hw.each_keeps (·.acq) (fun h b => h.wr8_acq _ _) _ _

theorem Hw.reg_recWrite (h : Hw) (base o size : Nat) (d : List Byte) (a : Nat) :
    (h.recWrite base o size d).reg a = h.reg a := by
  unfold Hw.recWrite
  exact Hw.each_keeps (·.reg a) (fun h b => show (h.wr8 _ _).reg a = h.reg a from rfl) _ _

theorem Hw.recWrite_keeps {h : Hw} (hp : h.acq.phase ≠ 1) (base o size : Nat) (d : List Byte) :
    PostKeeps h (h.recWrite base o size d) :=
  PostKeeps.of hp (h.acq_recWrite base o size d) fun _ _ _ _ _ => h.reg_recWrite base o size d _

/-- The unit's own records of an event stand aside of its state. -/
theorem aside_acq : Aside (fun _ => True) (fun h : Hw => h.acq) :=
  ⟨fun _ _ _ _ => rfl, fun _ _ _ _ => rfl, fun hk => hk.acq⟩

theorem aside_reg {a : Nat} (ha : ¬ inLog a) : Aside (· ≠ a) (fun h : Hw => h.reg a) :=
  ⟨fun h _ hb v => h.reg_setReg_ne hb.symm v, fun _ _ _ _ => rfl, fun hk => hk.reg ha⟩

theorem rcd_not_inLog {r o : Nat} (hr : r < 16) (ho : o < 0x40) : ¬ inLog (rcd r o) := not_inLog_aq (by omega)

theorem Hw.acqEvt_keeps {h : Hw} (hp : h.acq.phase ≠ 1) (b : Nat) : PostKeeps h (h.evt pACQ b) :=
  PostKeeps.of hp (h.evt_acq _ _) fun _ _ _ _ _ => Hw.reg_evt_ne _ (rcd_ne_aq (by decide)) (rcd_ne_aq (by decide)) b

theorem Hw.acqFlt_keeps {h : Hw} (hp : h.acq.phase ≠ 1) (rk cd i ts : Nat) : PostKeeps h (h.fltEvent pACQ rk cd i ts).1 :=
  PostKeeps.of hp (aside_acq.fltEvent h trivial rk cd i ts) fun hd ho _ _ _ =>
    (aside_reg (rcd_not_inLog hd ho)).fltEvent h (rcd_ne_aq (by decide)).symm rk cd i ts

/-- The descriptor's words of a record that closes. -/
def Hw.closeWords (h : Hw) (d pages postN : Nat) (held : Bool) (flag : Nat) : Hw :=
  let k := (h.setReg (rcd d 8) (BitVec.ofNat 32 pages)).setReg (rcd d 0x14) (BitVec.ofNat 32 postN)
  ((k.setBit (rcd d 0) 30 false).setBit (rcd d 0) 31 held).setF (rcd d 0) 4 0 (k.f (rcd d 0) 4 0 ||| flag)

theorem Hw.closeWords_keeps {h : Hw} (hp : h.acq.phase ≠ 1) (pages postN : Nat) (held : Bool) (flag : Nat) :
    PostKeeps h (h.closeWords h.acq.desc pages postN held flag) :=
  PostKeeps.of hp (by rw [Hw.closeWords, Hw.acq_setF, Hw.acq_setBit, Hw.acq_setBit, Hw.setReg_acq, Hw.setReg_acq])
    fun _ _ h0 h8 h14 => by
      rw [Hw.closeWords, Hw.reg_setF_ne _ (rcd_ne h0), Hw.reg_setBit_ne _ (rcd_ne h0), Hw.reg_setBit_ne _ (rcd_ne h0),
        Hw.reg_setReg_ne _ (rcd_ne h14), Hw.reg_setReg_ne _ (rcd_ne h8)]

/-- The end of a record whose trigger was accepted. -/
theorem Hw.recClose_keeps {h : Hw} (hp : h.acq.phase ≠ 1) (flag : Nat) (now : Bool) : PostKeeps h (h.recClose flag now) := by
  have hcl := Hw.closePages_keeps hp h.acq.openN
  generalize hk : h.closePages h.acq.openN = k at hcl
  generalize hheld : (k.acq.closed.any fun e => e.1 == h.acq.desc) = held
  have hw := Hw.closeWords_keeps hcl.phase (h.acq.pre + h.acq.post) h.acq.postN held flag
  rw [hcl.desc] at hw
  unfold Hw.recClose
  dsimp only
  rw [if_neg hp, hk, Hw.setReg_acq, Hw.setReg_acq, hheld]
  change PostKeeps h (Hw.setAcq ((k.closeWords h.acq.desc (h.acq.pre + h.acq.post) h.acq.postN held flag).evt pACQ 1) _)
  refine ((hcl.trans hw).trans (Hw.acqEvt_keeps hw.phase 1)).setAcq ?_ rfl rfl fun _ => rfl
  dsimp only
  split <;> decide

/-- A post sample that finds its pages is written, and full pages of a stream close. -/
def Hw.postTaken (h : Hw) (d : List Byte) : Hw :=
  let x := h.acq
  let k := x.postN * d.length
  let need := (k + d.length + 4095) / 4096
  let h := h.setAcq { x with post := max x.post need, postN := x.postN + 1, next := (x.next + (need - x.post)) % 512 }
  let h := h.recWrite (x.pre * 4096) k (512 * 4096) d
  let full := if h.bit (aq 0x040) 8 then (k + d.length) / 4096 - x.postClosed else 0
  let h := h.closePages full
  h.setAcq { h.acq with postClosed := h.acq.postClosed + full }

theorem Hw.postSample_eq (h : Hw) (d : List Byte) : h.postSample d =
    if h.acq.freeN + h.acq.post < (h.acq.postN * d.length + d.length + 4095) / 4096 then
      (((h.recClose 2 true).evt pACQ 3).fltEvent pACQ 10 3 h.acq.desc ((h.recClose 2 true).evt pACQ 3).grain).1
    else if (h.postTaken d).acqPost ≤ (h.postTaken d).acq.postN then (h.postTaken d).recClose 0 false else h.postTaken d := by
  unfold Hw.postSample Hw.postTaken
  rfl

theorem Hw.postTaken_keeps {h : Hw} (hp : h.acq.phase ≠ 1) (d : List Byte) : PostKeeps h (h.postTaken d) := by
  have write : ∀ {k : Hw}, PostKeeps h k → ∀ base o size, PostKeeps h (k.recWrite base o size d) := fun hk base o size =>
    hk.trans (Hw.recWrite_keeps hk.phase base o size d)
  have close : ∀ {k : Hw}, PostKeeps h k → ∀ n, PostKeeps h (k.closePages n) := fun hk n =>
    hk.trans (Hw.closePages_keeps hk.phase n)
  have full := close (write ((PostKeeps.refl hp).setAcq (x := { h.acq with
      post := max h.acq.post ((h.acq.postN * d.length + d.length + 4095) / 4096), postN := h.acq.postN + 1,
      next := (h.acq.next + ((h.acq.postN * d.length + d.length + 4095) / 4096 - h.acq.post)) % 512 }) hp rfl rfl id)
    (h.acq.pre * 4096) (h.acq.postN * d.length) (512 * 4096))
  exact (full _).setAcq (full _).phase rfl rfl id

/-- A post sample of a record. -/
theorem Hw.postSample_keeps {h : Hw} (hp : h.acq.phase ≠ 1) (d : List Byte) : PostKeeps h (h.postSample d) := by
  have htaken := Hw.postTaken_keeps hp d
  rw [Hw.postSample_eq]
  split
  · have hcl := Hw.recClose_keeps hp 2 true
    have hev := hcl.trans (Hw.acqEvt_keeps hcl.phase 3)
    exact hev.trans (Hw.acqFlt_keeps hev.phase _ _ _ _)
  · split
    · exact htaken.trans (Hw.recClose_keeps htaken.phase 0 false)
    · exact htaken

/-- Post samples of a record, as long as it is open. -/
theorem Hw.each_postSample_keeps {h : Hw} (hp : h.acq.phase ≠ 1) (l : List (List Byte)) :
    PostKeeps h (h.each l fun h d => if h.acq.phase = 2 then h.postSample d else h) := by
  unfold Hw.each
  induction l generalizing h with
  | nil => exact PostKeeps.refl hp
  | cons d l ih =>
    have hd : PostKeeps h (if h.acq.phase = 2 then h.postSample d else h) := by
      split
      · exact Hw.postSample_keeps hp d
      · exact PostKeeps.refl hp
    exact hd.trans (ih hd.phase)

/-! ### The trigger of a record -/

/-- What the descriptor of record d shows of its trigger: the samples before it, its instant and its conditions. -/
structure Triggered (d n T word : Nat) (k : Hw) : Prop where
  held : k.reg (rcd d 0x10) = BitVec.ofNat 32 n
  instant : k.reg64 (rcd d 0x18) = BitVec.ofNat 64 T
  cause : k.reg (rcd d 0x24) = BitVec.ofNat 32 word

/-- The descriptor's words that a trigger writes. -/
def Hw.trigWords (h : Hw) (T mask back ts : Nat) : Hw :=
  let n := h.preHeld - back
  let r := h.acq.desc
  let k := (h.setReg (rcd r 0x10) (BitVec.ofNat 32 n)).setReg (rcd r 0x0C) (BitVec.ofNat 32 (h.startOfs h.preHeld))
  let k := k.setF (rcd r 0) 0 0 (if n < h.f (aq 0x048) 20 0 then 1 else 0)
  let k := (k.setReg64 (rcd r 0x18) (BitVec.ofNat 64 T)).setReg (rcd r 0x20) (BitVec.ofNat 32 ts)
  k.setReg (rcd r 0x24) (BitVec.ofNat 32 (((List.range 10).find? fun i => mask.testBit i).getD 0 * 65536 + mask))

theorem rcd_add (r o i : Nat) : rcd r o + i = rcd r (o + i) := by
  simp only [rcd, aq, ra]
  omega

theorem Hw.trigWords_shows (h : Hw) (T mask back ts : Nat) : Triggered h.acq.desc (h.preHeld - back) T
    (((List.range 10).find? fun i => mask.testBit i).getD 0 * 65536 + mask) (h.trigWords T mask back ts) := by
  unfold Hw.trigWords
  dsimp only
  refine ⟨?_, ?_, Hw.reg_setReg_same _ _ _⟩
  · rw [Hw.reg_setReg_ne _ (rcd_ne (by decide)), Hw.reg_setReg_ne _ (rcd_ne (by decide)),
      Hw.reg_setReg64_ne _ (rcd_ne (by decide)) (by rw [rcd_add]; exact rcd_ne (by decide)), Hw.reg_setF_ne _ (rcd_ne (by decide)),
      Hw.reg_setReg_ne _ (rcd_ne (by decide)), Hw.reg_setReg_same]
  · have hlast : ∀ (k : Hw) {o : Nat} (v : Word), 0x18 ≠ o → 0x18 + 4 ≠ o →
        (k.setReg (rcd h.acq.desc o) v).reg64 (rcd h.acq.desc 0x18) = k.reg64 (rcd h.acq.desc 0x18) := fun k _ v h1 h2 =>
      Hw.reg64_congr (k.reg_setReg_ne (rcd_ne h1) v) (k.reg_setReg_ne (rcd_add _ 0x18 4 ▸ rcd_ne h2) v)
    rw [hlast _ _ (by decide) (by decide), hlast _ _ (by decide) (by decide), Hw.reg64_setReg64]

/-- The module in which the trigger's words are written, before the samples already taken move behind it. -/
def Hw.trigMarked (h : Hw) (T mask back ts : Nat) : Hw :=
  let k := (h.trigWords T mask back ts).log pACQ 9 Config.trigCode.toNat h.acq.desc ts
  let stream := k.bit (aq 0x040) 8
  let k := k.when stream (·.closePages h.acq.pre)
  k.setAcq { k.acq with phase := 2, dead := some (h.acq.desc, h.acq.num, T), preClosed := stream, soft := none, remote := none }

/-- Samples already taken, the last `back` of them. -/
def Hw.lastSamples (h : Hw) (m : Mem) (back : Nat) : List (List Byte) :=
  (List.range back).map fun i => (List.range h.acqS).map fun b =>
    h.rd8 m (h.recAddr (((h.acq.taken - back + i) * h.acqS + b) % max 1 (h.acq.pre * 4096)))

theorem Hw.trigger_eq (h : Hw) (m : Mem) (T mask back ts : Nat) : h.trigger m T mask back ts =
    (h.trigMarked T mask back ts).each (h.lastSamples m back) fun h d =>
      if h.acq.phase = 2 then h.postSample d else h := by
  unfold Hw.trigger Hw.trigMarked Hw.trigWords Hw.lastSamples
  rfl

theorem Hw.acq_trigWords (h : Hw) (T mask back ts : Nat) : (h.trigWords T mask back ts).acq = h.acq := by
  unfold Hw.trigWords Hw.setReg64
  dsimp only
  rw [Hw.setReg_acq, Hw.setReg_acq, Hw.setReg_acq, Hw.setReg_acq, Hw.acq_setF, Hw.setReg_acq, Hw.setReg_acq]

theorem Triggered.of {d n T word : Nat} {h k : Hw} (hh : Triggered d n T word h)
    (e : ∀ {o}, o < 0x40 → o ≠ 0 → o ≠ 8 → o ≠ 0x14 → k.reg (rcd d o) = h.reg (rcd d o)) : Triggered d n T word k where
  held := (e (by decide) (by decide) (by decide) (by decide)).trans hh.held
  instant := (Hw.reg64_congr (e (by decide) (by decide) (by decide) (by decide))
    (rcd_add d 0x18 4 ▸ e (by decide) (by decide) (by decide) (by decide))).trans hh.instant
  cause := (e (by decide) (by decide) (by decide) (by decide)).trans hh.cause

theorem Hw.trigMarked_shows {h : Hw} (hd : h.acq.desc < 16) (T mask back ts : Nat) :
    Triggered h.acq.desc (h.preHeld - back) T
      (((List.range 10).find? fun i => mask.testBit i).getD 0 * 65536 + mask) (h.trigMarked T mask back ts) ∧
    (h.trigMarked T mask back ts).acq.phase = 2 ∧ (h.trigMarked T mask back ts).acq.desc = h.acq.desc ∧
    (h.trigMarked T mask back ts).acq.n = h.acq.n ∧ (h.trigMarked T mask back ts).acq.soft = none := by
  have hw := h.trigWords_shows T mask back ts
  have hlog := (h.trigWords T mask back ts).log_logged pACQ 9 Config.trigCode.toNat h.acq.desc ts 0
  have hacq := hlog.acq.trans (h.acq_trigWords T mask back ts)
  have hlogged := hw.of (k := (h.trigWords T mask back ts).log pACQ 9 Config.trigCode.toNat h.acq.desc ts)
    fun ho _ _ _ => hlog.reg (rcd_not_inLog hd ho)
  unfold Hw.trigMarked
  generalize (h.trigWords T mask back ts).log pACQ 9 Config.trigCode.toNat h.acq.desc ts = k at hlogged hacq
  dsimp only
  generalize k.bit (aq 0x040) 8 = stream
  have hclosed : ∃ l, (k.when stream (·.closePages h.acq.pre)).acq = { h.acq with closed := l } := by
    cases stream
    · exact ⟨_, hacq⟩
    · obtain ⟨l, e⟩ := k.acq_closePages h.acq.pre
      exact ⟨l, by rw [Hw.when_true, e, hacq]⟩
  have hregs : (k.when stream (·.closePages h.acq.pre)).regs = k.regs := by
    cases stream
    · rfl
    · exact k.regs_closePages _
  obtain ⟨l, e⟩ := hclosed
  rw [e]
  exact ⟨hlogged.of fun _ _ _ _ => (Hw.reg_setAcq _ _ _).trans (Hw.reg_of_regs hregs _), rfl, rfl, rfl, rfl⟩

/-- A trigger: the words of the descriptor stand, the record is no longer armed, and no software trigger waits. -/
theorem Hw.trigger_shows {h : Hw} (hd : h.acq.desc < 16) (m : Mem) (T mask back ts : Nat) :
    Triggered h.acq.desc (h.preHeld - back) T
      (((List.range 10).find? fun i => mask.testBit i).getD 0 * 65536 + mask) (h.trigger m T mask back ts) ∧
    (h.trigger m T mask back ts).acq.phase ≠ 1 ∧ (h.trigger m T mask back ts).acq.desc = h.acq.desc ∧
    (h.trigger m T mask back ts).acq.n = h.acq.n ∧ (h.trigger m T mask back ts).acq.soft = none := by
  obtain ⟨htrig, hphase, hdesc, hn, hsoft⟩ := Hw.trigMarked_shows hd T mask back ts
  have hkeep := Hw.each_postSample_keeps (h := h.trigMarked T mask back ts) (by rw [hphase]; decide) (h.lastSamples m back)
  rw [Hw.trigger_eq]
  refine ⟨htrig.of fun ho h0 h8 h14 => ?_, hkeep.phase, hkeep.desc.trans hdesc, hkeep.n.trans hn, hkeep.soft hsoft⟩
  rw [← hdesc]
  exact hkeep.reg (hdesc ▸ hd) ho h0 h8 h14

/-! ### The dead time -/

/-- The end of a dead time moves, of the unit, only the dead time itself, and of the registers below the descriptors only
those that show it. -/
theorem Hw.deadEnd_shows (h : Hw) (T : Nat) : (h.deadEnd T).acq = { h.acq with dead := none } ∧
    ∀ {o}, o < 0x400 → o ≠ 0x7C → o ≠ 0x80 → (h.deadEnd T).reg (aq o) = h.reg (aq o) := by
  unfold Hw.deadEnd
  split
  · next e => exact ⟨by rw [← e], fun _ _ _ => rfl⟩
  · next r num t0 e =>
    dsimp only
    generalize hk : h.setAcq { h.acq with dead := none } = k
    generalize hk' : (if k.f (rcd r 0) 23 16 = num then k.setReg (rcd r 0x34) (BitVec.ofNat 32 (T - t0)) else k) = k'
    have hacq : k'.acq = { h.acq with dead := none } := by
      rw [← hk', apply_ite Hw.acq, Hw.setReg_acq, ite_self, ← hk]
      rfl
    refine ⟨by rw [Hw.setReg_acq, Hw.setReg_acq, hacq], fun ho h1 h2 => ?_⟩
    rw [Hw.reg_setReg_ne _ (aq_ne h2), Hw.reg_setReg_ne _ (aq_ne h1), ← hk']
    split
    · rw [Hw.reg_setReg_ne _ (rcd_ne_aq ho).symm, ← hk, Hw.reg_setAcq]
    · rw [← hk, Hw.reg_setAcq]

theorem Hw.preHeld_deadEnd (h : Hw) (T : Nat) : (h.deadEnd T).preHeld = h.preHeld := by
  obtain ⟨hacq, hreg⟩ := h.deadEnd_shows T
  rw [Hw.preHeld, hacq, Hw.f, hreg (by decide) (by decide) (by decide)]
  rfl

/-! ### The remote trigger -/

section
variable {h : Hw} {m : Mem}

theorem Hw.acqRemote_unarmed (hp : h.acq.phase ≠ 1) : h.acqRemote m = h.acqRefuse 1 := if_pos (.inl hp)

section
variable {ti T : Nat} (hp : h.acq.phase = 1) (hb : h.bit (aq 0x040) 4 = false) (hl : h.acq.last = some (ti, T))
include hp hb hl

theorem Hw.acqRemote_later (hR : T < (h.reg64 (aq 0x060)).toNat) :
    h.acqRemote m = h.setAcq { h.acq with remote := some (h.reg64 (aq 0x060)).toNat } := by
  simp [Hw.acqRemote, hp, hb, hl, hR]

variable {back : Nat} (hR : (h.reg64 (aq 0x060)).toNat ≤ T)
  (hback : back = (T - ((h.reg64 (aq 0x060)).toNat + h.sper - 1) / h.sper * h.sper) / h.sper + 1)
include hR hback

theorem Hw.acqRemote_short (hh : h.preHeld < back) : h.acqRemote m = h.acqRefuse 4 := by
  subst hback
  simp [Hw.acqRemote, hp, hb, hl, Nat.not_lt.2 hR, hh]

theorem Hw.acqRemote_acts (hh : back ≤ h.preHeld) : h.acqRemote m =
    ((h.deadEnd (T - (back - 1) * h.sper)).trigger m (T - (back - 1) * h.sper) 256 back
      (h.grainOfCt (T - (back - 1) * h.sper))).acqShow := by
  subst hback
  simp [Hw.acqRemote, hp, hb, hl, Nat.not_lt.2 hR, Nat.not_lt.2 hh]

end

end

/-! ### A sample -/

/-- Whether a software trigger waits for this sample. -/
def Hw.softDue (h : Hw) : Bool := match h.acq.soft with | some w => decide (w < h.grain) | none => false

/-- Whether a remote trigger is due at the instant T. -/
def Hw.remoteDue (h : Hw) (T : Nat) : Bool := match h.acq.remote with | some R => decide (R ≤ T) | none => false

/-- A sample of an armed record without a trigger joins its pre area. -/
def Hw.preSample (h : Hw) (early trig : Bool) (T ts : Nat) (d : List Byte) : Hw :=
  let h := if early then (if trig then (h.bump (aq 0x074) 31 16).missed ts else h) else h.deadEnd T
  let h := if h.acq.pre = 0 then h else h.recWrite 0 (h.acq.taken * d.length) (h.acq.pre * 4096) d
  h.setAcq { h.acq with taken := h.acq.taken + 1 }

/-- What a sample does to its record. -/
def Hw.sampleActs (h : Hw) (m : Mem) (t T : Nat) (trig waits : Bool) (mask ts : Nat) (d : List Byte) : Hw :=
  if h.acq.phase = 1 ∧ h.acq.armAt < h.grain then
    let early := h.bit (aq 0x040) 4 && decide (h.acq.taken < h.f (aq 0x048) 20 0)
    if trig && !early then
      (((h.deadEnd T).trigger m T mask 0 ts).when waits fun h => h.missed t).postSample d
    else h.preSample early trig T ts d
  else
    let h := h.when trig fun h => h.missed ts
    if h.acq.phase = 2 then h.postSample d else h

/-- The sample is noted, and the events before it are forgotten. -/
def Hw.sampleNoted (h : Hw) (t T : Nat) : Hw :=
  h.setAcq { h.acq with n := h.acq.n + 1, last := some (t, T), evs := h.acq.evs.filter fun e => decide (t < e.2.2) }

/-- A software trigger that acts waits no longer. -/
def Hw.softTaken (h : Hw) : Hw := h.when h.softDue fun h => h.setAcq { h.acq with soft := none }

/-- The mask of what triggers: conditions, the remote and the software trigger. -/
def Hw.trigMask (h : Hw) (T mask : Nat) : Nat := mask + (if h.remoteDue T then 256 else 0) + (if h.softDue then 512 else 0)

/-- What a sample does once its conditions are known. -/
def Hw.sampleRuns (h : Hw) (m : Mem) (t T mask ts : Nat) (d : List Byte) : Hw :=
  h.softTaken.sampleActs m t T (h.combOk mask || h.remoteDue T || h.softDue)
    (h.softTaken.acq.remote.isSome && !h.remoteDue T) (h.trigMask T mask) ts d

/-- One condition for a sample: the module, and its bit of the mask. -/
def tcOne (t : Nat) (vals : List (Nat × Nat)) (a : Hw × Nat) (k : Nat) : Hw × Nat :=
  let h := a.1
  let ch := h.f (tcr k 0) 12 8
  if h.f (tcr k 0) 2 0 = 6 then (h, a.2 + (if (h.tcEvent k t).isSome then 2 ^ k else 0))
  else
    match vals.find? (·.1 == ch) with
    | none => a
    | some v =>
      let r := h.tcStep k h.acq.n (h.tcZone k v.2)
      (h.setAcq { h.acq with tcs := tabSet {} k r.1 h.acq.tcs }, a.2 + (if r.2 then 2 ^ k else 0))

theorem tcOne_shows (t : Nat) (vals : List (Nat × Nat)) (a : Hw × Nat) (k : Nat) :
    (∃ tcs, (tcOne t vals a k).1 = a.1.setAcq { a.1.acq with tcs }) ∧ (tcOne t vals a k).2 ≤ a.2 + 2 ^ k := by
  have hbit : ∀ c : Bool, a.2 + (if c then 2 ^ k else 0) ≤ a.2 + 2 ^ k := fun c => by
    split
    · exact le_rfl
    · exact Nat.le_add_right _ _
  unfold tcOne
  dsimp only
  split
  · exact ⟨⟨a.1.acq.tcs, rfl⟩, hbit _⟩
  · split
    · exact ⟨⟨a.1.acq.tcs, rfl⟩, Nat.le_add_right _ _⟩
    · exact ⟨⟨_, rfl⟩, hbit _⟩

/-- The conditions move, of the module, only their own tracks. -/
theorem Hw.tcAll_shows (h : Hw) (t : Nat) (vals : List (Nat × Nat)) :
    (∃ tcs, (h.tcAll t vals).1 = h.setAcq { h.acq with tcs }) ∧ (h.tcAll t vals).2 < 256 := by
  have hfold : ∀ n, (∃ tcs, ((List.range n).foldl (tcOne t vals) (h, 0)).1 = h.setAcq { h.acq with tcs }) ∧
      ((List.range n).foldl (tcOne t vals) (h, 0)).2 < 2 ^ n := fun n => by
    induction n with
    | zero => exact ⟨⟨h.acq.tcs, rfl⟩, Nat.zero_lt_one⟩
    | succ n ih =>
      obtain ⟨⟨tcs, e⟩, hlt⟩ := ih
      rw [List.range_succ, List.foldl_append, List.foldl_cons, List.foldl_nil]
      generalize (List.range n).foldl (tcOne t vals) (h, 0) = a at e hlt
      obtain ⟨⟨tcs', e'⟩, hle⟩ := tcOne_shows t vals a n
      exact ⟨⟨tcs', by rw [e', e]; rfl⟩, by rw [pow_succ]; omega⟩
  exact hfold 8

theorem Hw.acqSample_armed {h : Hw} {m : Mem} {t T : Nat} {lv : List (BitVec 24)} (hen : h.bit (aq rCTRL) 0 = true)
    (hrd : h.bit (aq rREADY) 0 = true) (hinst : h.acqInstant = some (t, T)) (hthr : h.throttled = h.acq.thr)
    (hp : h.acq.phase = 1) (hstop : h.stopDue = false) {P : Hw → Prop} (hP : ∀ vals ts d,
      P (((h.drew.tcAll t vals).1.sampleNoted t T).sampleRuns m t T (h.drew.tcAll t vals).2 ts d).acqShow) :
    P (h.acqSample m lv) := by
  unfold Hw.acqSample
  rw [if_neg (by simp [hen, hrd])]
  extract_lets +onlyGivenNames -underBinder rate src k
  have hk : k = h := by
    show h.setAcq { h.acq with thr := h.throttled } = h
    rw [hthr]
    rfl
  have hrate : rate = false := by
    show (h.throttled != h.acq.thr) = false
    rw [hthr, bne_self_eq_false]
  clear_value rate k
  subst hk
  rw [hinst]
  dsimp -zeta -zetaHave only
  extract_lets +onlyGivenNames -underBinder k1 vals k2 r k3 src1 kn src2 ke soft rem mask trig ks ev ts d waits kl
  have hk1 : k1 = k := Hw.acqRearmed_waits (.inl (by rw [hp]; decide))
  clear_value k1
  subst hk1
  have hr : k1.drew.tcAll t vals = r := rfl
  obtain ⟨⟨tcs, e⟩, -⟩ := k1.drew.tcAll_shows t vals
  replace hP := hP vals ts d
  rw [hr] at e hP
  clear_value ts d r
  have h3 : k3.acq.phase = 1 ∧ k3.stopDue = false := by
    rw [show k3 = k1.drew.setAcq { k1.drew.acq with tcs } from e]
    exact ⟨hp, hstop⟩
  have hke : ke = kn := by
    show (if kn.acq.phase = 1 ∨ kn.acq.phase = 2 then
        if kn.stopDue then kn.recClose 4 true else if rate then kn.recClose 8 true else kn else _) = kn
    rw [if_pos (.inl h3.1), show kn.stopDue = false from h3.2, hrate]
    rfl
  clear_value ke
  subst hke
  have hkn : r.1.sampleNoted t T = kn := rfl
  rw [hkn] at hP
  clear_value kn
  exact hP

/-- The unit and the registers as a sample finds them once its conditions are known. -/
theorem Hw.sampleNoted_shows (h : Hw) (t T : Nat) (vals : List (Nat × Nat)) :
    (∃ tcs evs, ((h.drew.tcAll t vals).1.sampleNoted t T).acq =
      { h.acq with tcs, evs, n := h.acq.n + 1, last := some (t, T) }) ∧
    ((h.drew.tcAll t vals).1.sampleNoted t T).regs = h.regs ∧
    ((h.drew.tcAll t vals).1.sampleNoted t T).grain = h.grain := by
  obtain ⟨⟨tcs, e⟩, -⟩ := h.drew.tcAll_shows t vals
  rw [e]
  exact ⟨⟨tcs, _, rfl⟩, rfl, rfl⟩

theorem Hw.softDue_none {h : Hw} (hs : h.acq.soft = none) : h.softDue = false := by
  rw [Hw.softDue, hs]

theorem Hw.remoteDue_none {h : Hw} (hr : h.acq.remote = none) (T : Nat) : h.remoteDue T = false := by
  rw [Hw.remoteDue, hr]

/-- With no condition chosen none triggers. -/
theorem Hw.combOk_off {h : Hw} (hc : h.f (aq 0x068) 8 0 = 0) (mask : Nat) : h.combOk mask = false := by
  have h0 : (h.reg (aq 0x068)).toNat % 512 = 0 := by simpa [Hw.f, fld] using hc
  have h7 : h.f (aq 0x068) 7 0 = 0 := by
    simp only [Hw.f, fld, Nat.shiftRight_zero]
    omega
  have h8 : h.bit (aq 0x068) 8 = false := by
    simp only [Hw.bit, bitOf, BitVec.getLsbD, Nat.testBit_eq_decide_div_mod_eq, decide_eq_false_iff_not]
    omega
  simp [Hw.combOk, h7, h8]

/-- A sample of an armed record before which no trigger came. -/
theorem Hw.sampleRuns_plain {h : Hw} {m : Mem} {t T mask ts : Nat} {d : List Byte} (hp : h.acq.phase = 1)
    (ha : h.acq.armAt < h.grain) (hs : h.acq.soft = none) (hr : h.acq.remote = none) (hc : h.f (aq 0x068) 8 0 = 0) :
    ∃ dead, (h.sampleRuns m t T mask ts d).acq = { h.acq with dead, taken := h.acq.taken + 1 } := by
  have hcomb : h.combOk mask = false := Hw.combOk_off hc mask
  have htaken : h.softTaken = h := by rw [Hw.softTaken, Hw.softDue_none hs, Hw.when_false]
  rw [Hw.sampleRuns, htaken, hcomb, Hw.softDue_none hs, Hw.remoteDue_none hr, Hw.sampleActs, if_pos ⟨hp, ha⟩]
  dsimp only
  rw [Bool.false_or, Bool.false_or, Bool.false_and, if_neg Bool.false_ne_true]
  generalize (h.bit (aq 0x040) 4 && decide (h.acq.taken < h.f (aq 0x048) 20 0)) = early
  generalize hk : (if early then (if false then (h.bump (aq 0x074) 31 16).missed ts else h) else h.deadEnd T) = k
  have hacq : ∃ dead, k.acq = { h.acq with dead } := by
    cases early
    · exact ⟨none, by rw [← hk]; exact (h.deadEnd_shows T).1⟩
    · exact ⟨h.acq.dead, by rw [← hk]; rfl⟩
  obtain ⟨dead, e⟩ := hacq
  have hw : (if k.acq.pre = 0 then k else k.recWrite 0 (k.acq.taken * d.length) (k.acq.pre * 4096) d).acq = k.acq := by
    split
    · rfl
    · exact k.acq_recWrite _ _ _ _
  refine ⟨dead, ?_⟩
  rw [Hw.preSample]
  dsimp only
  rw [hk, Hw.acq_setAcq, hw, e]

/-- A sample of an armed record for which a software trigger waits. -/
theorem Hw.sampleRuns_soft {h : Hw} {m : Mem} {t T mask ts w : Nat} {d : List Byte} (hp : h.acq.phase = 1)
    (hd : h.acq.desc < 16) (ha : h.acq.armAt < h.grain) (hs : h.acq.soft = some w) (hw : w < h.grain)
    (hr : h.acq.remote = none) (hb : h.bit (aq 0x040) 4 = false) (hm : mask < 256) :
    (h.sampleRuns m t T mask ts d).bit (rcd h.acq.desc 0x24) 9 = true ∧
      (h.sampleRuns m t T mask ts d).reg64 (rcd h.acq.desc 0x18) = BitVec.ofNat 64 T ∧
      (h.sampleRuns m t T mask ts d).acq.soft = none ∧ (h.sampleRuns m t T mask ts d).acq.n = h.acq.n ∧
      (h.sampleRuns m t T mask ts d).acq.phase ≠ 1 := by
  have hdue : h.softDue = true := by
    rw [Hw.softDue, hs]
    exact decide_eq_true hw
  have htaken : h.softTaken = h.setAcq { h.acq with soft := none } := by rw [Hw.softTaken, hdue, Hw.when_true]
  generalize hk : h.setAcq { h.acq with soft := none } = k at htaken
  have hkd : k.acq.desc = h.acq.desc := by rw [← hk]; rfl
  obtain ⟨hdacq, -⟩ := k.deadEnd_shows T
  have hdd : (k.deadEnd T).acq.desc = h.acq.desc := by rw [hdacq]; exact hkd
  obtain ⟨htrig, hph, hdesc, hn, hsoft⟩ := Hw.trigger_shows (h := k.deadEnd T) (hdd ▸ hd) m T (mask + 512) 0 ts
  have hpost := Hw.postSample_keeps hph d
  have e : h.sampleRuns m t T mask ts d = ((k.deadEnd T).trigger m T (mask + 512) 0 ts).postSample d := by
    have hearly : k.bit (aq 0x040) 4 = false := by rw [← hk]; exact hb
    have harm : k.acq.phase = 1 ∧ k.acq.armAt < k.grain := by rw [← hk]; exact ⟨hp, ha⟩
    have hwaits : k.acq.remote = none := by rw [← hk]; exact hr
    rw [Hw.sampleRuns, htaken, Hw.trigMask, hdue, Hw.remoteDue_none hr, Bool.or_true, hwaits, Hw.sampleActs, if_pos harm]
    dsimp only
    rw [hearly, Bool.false_and, Bool.not_false, Bool.and_true, if_pos rfl, Option.isSome_none, Bool.false_and,
      Hw.when_false]
    rfl
  have hfinal := htrig.of (k := ((k.deadEnd T).trigger m T (mask + 512) 0 ts).postSample d) fun ho h0 h8 h14 => by
    rw [← hdesc]
    exact hpost.reg (hdesc ▸ hdd ▸ hd) ho h0 h8 h14
  rw [hdd] at hfinal
  rw [e]
  refine ⟨?_, hfinal.instant, hpost.soft hsoft, ?_, hpost.phase⟩
  · rw [Hw.bit, hfinal.cause]
    generalize ((List.range 10).find? fun i => (mask + 512).testBit i).getD 0 = prim
    simp only [bitOf, BitVec.getLsbD, BitVec.toNat_ofNat, Nat.testBit_eq_decide_div_mod_eq, decide_eq_true_eq]
    omega
  · rw [hpost.n, hn, hdacq, ← hk]
    rfl

end Sys2Proof.Machine

namespace Sys2Proof
open Machine

section
variable {s : State} {g : Nat}

/-- A software write to the ACQ page: the unit and its registers are those before, and the write's grain is known. -/
theorem gives_acqWrite {off : Nat} {F : Mem → Hw → Hw} {P : State → Prop} (hl : Live s) (hu : Unlocked s pACQ)
    (hP : ∀ k : Hw, AcqSame s.hw k → k.wgrain = max s.hw.grain g / 5 * 5 + 4 → k.cycle = (s.hw.at g).cycle →
      k.batch = s.hw.batch →
      P { s with hw := (F s.mem k).seal (max s.hw.grain g), mem := s.mem.after (F s.mem k) }) :
    ∃ t, run g (fun m h => h.swWrite pACQ off (F m)) s = .next t ∧ P t := by
  refine gives_write hl (by decide) hu fun k hk => ?_
  have hcyc : k.atWrite.cycle = (s.hw.at g).cycle := k.atWrite_cycle.trans (congrArg (· / 5) hk.grain)
  refine hP k.atWrite ⟨hk.acq, fun ho => hk.reg (not_inLog_aq ho)⟩ ?_ hcyc (hk.f (not_inLog_page (by decide) (by decide)) 18 0)
  rw [Hw.wgrain, show k.atWrite.grain / 5 = max s.hw.grain g / 5 from hcyc, Nat.mul_comm]

/-- A command that the unit refuses. -/
theorem gives_acqRefused {off n : Nat} {F : Mem → Hw → Hw} (hl : Live s) (hu : Unlocked s pACQ) (hn : n < 2 ^ (2 + 1 - 0))
    (e : ∀ k : Hw, AcqSame s.hw k → k.cycle = (s.hw.at g).cycle → k.batch = s.hw.batch → F s.mem k = k.acqRefuse n) :
    ∃ t, run g (fun m h => h.swWrite pACQ off (F m)) s = .next t ∧
      t.hw.f (aq 0x05C) 2 0 = n ∧ t.hw.bit (aq rEVT) 4 = true ∧ t.hw.acq = s.hw.acq := by
  refine gives_acqWrite hl hu fun k hk _ hc hb => ?_
  obtain ⟨hreason, hevt, hacq⟩ := k.acqRefuse_shows hn
  rw [e k hk hc hb]
  exact ⟨hreason, hevt, hacq.trans hk.acq⟩

end

theorem Machine.AcqSame.sper {h k : Hw} (hk : AcqSame h k) (hb : k.batch = h.batch) : k.sper = h.sper := by
  simp only [Hw.sper, Hw.sper0, hk.acq, hb, hk.f (o := 0x040) (by decide), hk.bit (o := 0x040) (by decide)]

theorem Machine.AcqSame.reg64 {h k : Hw} (hk : AcqSame h k) {o : Nat} (ho : o + 4 < 0x1000) : k.reg64 (aq o) = h.reg64 (aq o) :=
  Hw.reg64_congr (hk.reg (by omega)) (hk.reg (o := o + 4) ho)

/-- Settles O52: the commands by what each leaves of the unit and its registers, a sample by its record's course. -/
theorem acquisitionRecords : Obligations.AcquisitionRecords := by
  intro s g hl hst
  refine ⟨fun r ha hu hen hrd hp hn hpg => ?_, fun ha hu hno => ?_, fun ha hu hen hrd hp hn => ?_,
    fun r ha hu hen hrd hp hn hpg => ?_, fun hu hp => ?_, fun hu hp => ?_, fun hu hp => ?_, fun hu => ?_, fun hu hp => ?_,
    fun ti T hu hp hb hlast hR => ?_, fun ti T back hu hp hb hlast hR hback hh => ?_,
    fun ti T back hu hp hb hlast hd hR hback hh => ?_,
    fun ti T lv hsh hen hrd hinst hthr hstop hp harm hs hr hc => ?_,
    fun ti T w lv hsh hen hrd hinst hthr hstop hp hd harm hs hw hr hb => ?_, fun lv hsh hno => ?_,
    fun r hsh hp hre hpg hn => ?_, fun k hsh hno => ?_, fun n ha hu hn => ?_, fun n ha hu hn => ?_, ?_⟩
  · refine gives_inTurn ha (gives_acqWrite (F := fun _ h => h.acqArm) hl hu fun k hk hw _ _ => ?_)
    rw [Hw.acqArm_opens ((hk.bit (by decide) 0).trans hen) ((hk.bit (by decide) 0).trans hrd) ((congrArg AcqS.phase hk.acq).trans hp) (hk.nextRec.trans hn)
      (by rw [hk.prePg, hk.acq]; exact hpg)]
    have hopen := k.recStart_opened r (k.armed r)
    rw [Hw.seal_acq, Hw.seal_bit, Hw.seal_bit, Hw.seal_f, Hw.seal_f, Hw.seal_reg, Hw.f_acqShow_stat, Hw.acq_acqShow,
      Hw.acq_setAcq, hopen.isOpen, hopen.notDone, hopen.num, hopen.chans, hk.reg (by decide), Hw.armed, Hw.opened, hk.acq,
      hk.prePg]
    exact ⟨rfl, rfl, rfl, rfl, rfl, rfl, rfl, rfl, rfl, rfl, rfl⟩
  · exact gives_inTurn ha (gives_acqRefused (F := fun _ h => h.acqArm) hl hu (by decide) fun k hk _ _ => Hw.acqArm_busy (by
      rw [hk.acq, hk.bit (by decide), hk.bit (by decide)]
      exact hno))
  · exact gives_inTurn ha (gives_acqRefused (F := fun _ h => h.acqArm) hl hu (by decide) fun k hk _ _ =>
      Hw.acqArm_full ((hk.bit (by decide) 0).trans hen) ((hk.bit (by decide) 0).trans hrd)
        ((congrArg AcqS.phase hk.acq).trans hp) (hk.nextRec.trans hn))
  · exact gives_inTurn ha (gives_acqRefused (F := fun _ h => h.acqArm) hl hu (by decide) fun k hk _ _ =>
      Hw.acqArm_pages ((hk.bit (by decide) 0).trans hen) ((hk.bit (by decide) 0).trans hrd)
        ((congrArg AcqS.phase hk.acq).trans hp) (hk.nextRec.trans hn) (by rw [hk.prePg, hk.acq]; exact hpg))
  · refine gives_acqWrite (F := fun _ h => h.acqStop) hl hu fun k hk _ _ _ => ?_
    rw [Hw.acqStop_rearming ((congrArg AcqS.phase hk.acq).trans hp), Hw.seal_acq, Hw.seal_f, Hw.acq_acqShow,
      Hw.f_acqShow_stat, Hw.acq_setAcq, hk.acq]
    exact ⟨rfl, rfl⟩
  · refine gives_acqWrite (F := fun _ h => h.acqStop) hl hu fun k hk hw _ _ => ?_
    rw [Hw.acqStop_open (by rw [hk.acq]; exact hp), Hw.seal_acq, Hw.acq_setAcq, hk.acq, hw]
  · refine gives_acqWrite (F := fun _ h => h.acqStop) hl hu fun k hk _ _ _ => ?_
    rw [Hw.acqStop_idle ((congrArg AcqS.phase hk.acq).trans hp)]
    exact hk.acq
  · refine gives_acqWrite (F := fun _ h => h.acqSoft) hl hu fun k hk hw _ _ => ?_
    rw [Hw.seal_acq, Hw.acqSoft, Hw.acq_setAcq, hk.acq, hw]
  · exact gives_acqRefused (F := fun m h => h.acqRemote m) hl hu (by decide) fun k hk _ _ =>
      Hw.acqRemote_unarmed (by rw [hk.acq]; exact hp)
  · refine gives_acqWrite (F := fun m h => h.acqRemote m) hl hu fun k hk _ _ _ => ?_
    have hR64 : k.reg64 (aq 0x060) = s.hw.reg64 (aq 0x060) := hk.reg64 (by decide)
    rw [Hw.acqRemote_later ((congrArg AcqS.phase hk.acq).trans hp) ((hk.bit (by decide) 4).trans hb)
      ((congrArg AcqS.last hk.acq).trans hlast) (by rwa [hR64]), Hw.seal_acq, Hw.acq_setAcq, hk.acq, hR64]
  · refine gives_acqRefused (F := fun m h => h.acqRemote m) hl hu (by decide) fun k hk _ hbatch => ?_
    have hR64 : k.reg64 (aq 0x060) = s.hw.reg64 (aq 0x060) := hk.reg64 (by decide)
    rw [← hR64, ← hk.sper hbatch] at hback
    exact Hw.acqRemote_short ((congrArg AcqS.phase hk.acq).trans hp) ((hk.bit (by decide) 4).trans hb)
      ((congrArg AcqS.last hk.acq).trans hlast) (by rwa [hR64]) hback
      (by rwa [hk.preHeld])
  · refine gives_acqWrite (F := fun m h => h.acqRemote m) hl hu fun k hk _ _ hbatch => ?_
    have hR64 : k.reg64 (aq 0x060) = s.hw.reg64 (aq 0x060) := hk.reg64 (by decide)
    rw [← hR64, ← hk.sper hbatch] at hback
    rw [Hw.acqRemote_acts ((congrArg AcqS.phase hk.acq).trans hp) ((hk.bit (by decide) 4).trans hb)
      ((congrArg AcqS.last hk.acq).trans hlast) (by rwa [hR64]) hback
      (by rwa [hk.preHeld]), hk.sper hbatch]
    obtain ⟨hdacq, -⟩ := k.deadEnd_shows (T - (back - 1) * s.hw.sper)
    have hdesc : (k.deadEnd (T - (back - 1) * s.hw.sper)).acq.desc = s.hw.acq.desc := by rw [hdacq, hk.acq]
    obtain ⟨htrig, hph, -, -, -⟩ := Hw.trigger_shows (h := k.deadEnd (T - (back - 1) * s.hw.sper)) (hdesc ▸ hd) s.mem
      (T - (back - 1) * s.hw.sper) 256 back (k.grainOfCt (T - (back - 1) * s.hw.sper))
    rw [hdesc, Hw.preHeld_deadEnd, hk.preHeld] at htrig
    have hshow := htrig.of (k := Hw.acqShow _) fun _ _ _ _ => Hw.reg_acqShow_rcd _ _ _
    rw [Hw.reg64_seal, Hw.seal_reg, Hw.seal_f, Hw.seal_acq, Hw.acq_acqShow, Hw.f, hshow.held]
    refine ⟨hshow.instant, hshow.cause, ?_, hph⟩
    rw [fld, BitVec.toNat_ofNat, Nat.shiftRight_zero]
    exact Nat.mod_mod _ _
  · refine gives_link (f := fun m h => h.acqSample m lv) hl hsh ?_
    rw [afterRun_hw, Hw.seal_acq]
    refine Hw.acqSample_armed (h := s.hw.at g) hen hrd hinst hthr hp hstop (P := fun k => k.acq.taken = s.hw.acq.taken + 1 ∧
      k.acq.last = some (ti, T) ∧ k.acq.n = s.hw.acq.n + 1 ∧ k.acq.phase = 1 ∧ k.acq.pre = s.hw.acq.pre ∧
      k.acq.closed = s.hw.acq.closed) fun vals ts d => ?_
    obtain ⟨⟨tcs, evs, hacq⟩, hregs, hgrain⟩ := (s.hw.at g).sampleNoted_shows ti T vals
    generalize (((s.hw.at g).drew.tcAll ti vals).1.sampleNoted ti T) = k at hacq hregs hgrain
    obtain ⟨dead, e⟩ := Hw.sampleRuns_plain (h := k) (m := s.mem) (t := ti) (T := T)
      (mask := ((s.hw.at g).drew.tcAll ti vals).2) (ts := ts) (d := d) (by rw [hacq]; exact hp) (by rw [hacq, hgrain]; exact harm)
      (by rw [hacq]; exact hs) (by rw [hacq]; exact hr) ((congrArg (fld · 8 0) (Hw.reg_of_regs hregs _)).trans hc)
    rw [Hw.acq_acqShow, e, hacq]
    exact ⟨rfl, rfl, rfl, hp, rfl, rfl⟩
  · refine gives_link (f := fun m h => h.acqSample m lv) hl hsh ?_
    rw [afterRun_hw, Hw.seal_acq, Hw.seal_bit, Hw.reg64_seal]
    refine Hw.acqSample_armed (h := s.hw.at g) hen hrd hinst hthr hp hstop (P := fun k => k.bit (rcd s.hw.acq.desc 0x24) 9 = true ∧
      k.reg64 (rcd s.hw.acq.desc 0x18) = BitVec.ofNat 64 T ∧ k.acq.soft = none ∧ k.acq.n = s.hw.acq.n + 1 ∧
      k.acq.phase ≠ 1) fun vals ts d => ?_
    obtain ⟨⟨tcs, evs, hacq⟩, hregs, hgrain⟩ := (s.hw.at g).sampleNoted_shows ti T vals
    have hmask := ((s.hw.at g).drew.tcAll_shows ti vals).2
    generalize (((s.hw.at g).drew.tcAll ti vals).1.sampleNoted ti T) = k at hacq hregs hgrain
    have hdesc : k.acq.desc = s.hw.acq.desc := by rw [hacq]; rfl
    have hruns := Hw.sampleRuns_soft (h := k) (m := s.mem) (t := ti) (T := T)
      (mask := ((s.hw.at g).drew.tcAll ti vals).2) (ts := ts) (w := w) (d := d) (by rw [hacq]; exact hp) (hdesc ▸ hd)
      (by rw [hacq, hgrain]; exact harm) (by rw [hacq]; exact hs) (hgrain ▸ hw) (by rw [hacq]; exact hr)
      ((congrArg (bitOf · 4) (Hw.reg_of_regs hregs _)).trans hb) hmask
    obtain ⟨hbit, hinst', hsoft, hn, hph⟩ := hruns
    rw [hdesc] at hbit hinst'
    have hn' : k.acq.n = s.hw.acq.n + 1 := by rw [hacq]; rfl
    have hrcd := fun o => Hw.reg_acqShow_rcd (k.sampleRuns s.mem ti T ((s.hw.at g).drew.tcAll ti vals).2 ts d) s.hw.acq.desc o
    refine ⟨(congrArg (bitOf · 9) (hrcd 0x24)).trans hbit,
      (Hw.reg64_congr (hrcd 0x18) (rcd_add s.hw.acq.desc 0x18 4 ▸ hrcd (0x18 + 4))).trans hinst', ?_, ?_, ?_⟩
    · rw [Hw.acq_acqShow, hsoft]
    · rw [Hw.acq_acqShow, hn, hn']
    · rw [Hw.acq_acqShow]
      exact hph
  · have hidle : (s.hw.at g).acqSample s.mem lv = s.hw.at g := if_pos (by
      rcases hno with e | e
      · simp [show (s.hw.at g).bit (aq rCTRL) 0 = false from e]
      · simp [show (s.hw.at g).bit (aq rREADY) 0 = false from e])
    refine gives_link (f := fun m h => h.acqSample m lv) hl hsh ?_
    obtain ⟨hregs, hacq, hmem, -⟩ := afterRun_idle (f := fun m h => h.acqSample m lv) (·.acq) (fun _ _ _ => rfl) hst hidle
    exact ⟨hacq, hregs, hmem⟩
  · refine gives_link (f := fun _ h => h.acqRearm) hl hsh ?_
    have hopen := (s.hw.at g).recStart_opened r ((s.hw.at g).recStart r).acq
    rw [Hw.setAcq_acq] at hopen
    rw [afterRun_hw, Hw.acqRearm, Hw.acqRearmed_opens (h := s.hw.at g) hp hre hpg hn, Hw.seal_acq, Hw.seal_bit, Hw.seal_f,
      Hw.acq_acqShow, ((s.hw.at g).recStart_shows r).1]
    exact ⟨rfl, rfl, rfl, hopen.isOpen, hopen.num⟩
  · refine gives_link (f := fun _ h => h.acqRearm) hl hsh ?_
    rw [afterRun_hw, Hw.acqRearm, Hw.acqRearmed_waits (h := s.hw.at g) hno, Hw.seal_acq, Hw.seal_bit, Hw.seal_reg,
      Hw.acq_acqShow, Hw.reg_acqShow_rcd, Hw.bit, Hw.reg_acqShow_ne _ (aq_ne (by decide)) (aq_ne (by decide)) (aq_ne (by decide))]
    exact ⟨rfl, rfl, rfl⟩
  · refine gives_inTurn ha (gives_acqWrite (F := fun _ h => h.acqRelease n.toNat) hl hu fun k hk _ hc _ => ?_)
    obtain ⟨hclosed, hphase, hopen⟩ := Hw.acqRelease_shows (h := k) (n := n.toNat) (by
      rw [Hw.releasable, hk.acq, hc]
      exact hn)
    rw [hk.acq] at hclosed hphase hopen
    rw [Hw.seal_acq]
    exact ⟨hclosed, hphase, hopen⟩
  · exact gives_inTurn ha (gives_acqRefused (F := fun _ h => h.acqRelease n.toNat) hl hu (by decide) fun k hk hc _ =>
      Hw.acqRelease_refused (by
        rw [Hw.releasable, hk.acq, hc]
        exact hn))
  · refine gives_run (f := fun _ h => h.acqShow) hl ?_
    rw [afterRun_hw, Hw.seal_reg, Hw.seal_acq, Hw.reg_acqShow_ledger, Hw.acq_acqShow]
    exact ⟨rfl, rfl⟩

end Sys2Proof

namespace Sys2Proof.Machine

/-! ## The axis units (R264 to R286)

A change of an axis shapes the record of its profile for the next boundary; that leaves the legs, the registers of the AX
and LEG pages, and of every axis record all but what the next record is made from. -/

/-! ### A flush of a profile leaves the axes -/

@[simp] theorem Hw.setF_ax (h : Hw) (a hi lo v : Nat) : (h.setF a hi lo v).ax = h.ax := rfl
@[simp] theorem Hw.setBit_ax (h : Hw) (a i : Nat) (v : Bool) : (h.setBit a i v).ax = h.ax := rfl
@[simp] theorem Hw.setReg64_ax (h : Hw) (a : Nat) (v : Word64) : (h.setReg64 a v).ax = h.ax := rfl
@[simp] theorem Hw.w1cSet_ax (h : Hw) (a i : Nat) : (h.w1cSet a i).ax = h.ax := rfl
@[simp] theorem Hw.setProf_ax (h : Hw) (p : Nat) (x : PrfS) : (h.setProf p x).ax = h.ax := rfl
@[simp] theorem Hw.setGear_ax (h : Hw) (u : Nat) (x : GearS) : (h.setGear u x).ax = h.ax := rfl
@[simp] theorem Hw.masterFlush_ax (h : Hw) (m : Nat) : (h.masterFlush m).ax = h.ax := rfl

@[simp] theorem Hw.leaveGroup_ax (h : Hw) (f : Nat) : (h.leaveGroup f).ax = h.ax := by
  simp only [Hw.leaveGroup, apply_ite Hw.ax, Hw.setProf_ax, ite_self]

@[simp] theorem Hw.setPfState_ax (h : Hw) (p st : Nat) : (h.setPfState p st).ax = h.ax := by
  simp only [Hw.setPfState, Hw.when, apply_ite Hw.ax, Hw.setReg64_ax, Hw.setF_ax, ite_self]

@[simp] theorem Hw.flushOne_ax (h : Hw) (p : Nat) : (h.flushOne p).ax = h.ax := by
  have hqueue : ∀ h : Hw, (h.flushQueue p).ax = h.ax := fun h => h.leaveGroup_ax p
  simp only [Hw.flushOne, apply_ite Hw.ax, Hw.masterFlush_ax, Hw.setPfState_ax, hqueue, ite_self]

@[simp] theorem Hw.groupEnd_ax (h : Hw) (p : Nat) : (h.groupEnd p).ax = h.ax :=
  Hw.each_keeps Hw.ax (fun h f => by simp only [Hw.evt_ax, Hw.w1cSet_ax, Hw.flushOne_ax, Hw.setProf_ax]) _ _

@[simp] theorem Hw.axisFlush_ax (h : Hw) (p : Nat) : (h.axisFlush p).ax = h.ax := by
  simp only [Hw.axisFlush, apply_ite Hw.ax, Hw.flushOne_ax, Hw.setProf_ax, Hw.groupEnd_ax, ite_self]

/-! ### What the shaping of the next record leaves (R264, R265, R271) -/

/-- An axis record apart from the record for the next boundary and the progress of its ramp. -/
def AxS.lasting (x : AxS) : AxS :=
  { x with own := {}, raw := {}, clamped := false, inForce := false,
           ramp := x.ramp.map fun r => { dec := r.dec, vt := r.vt } }

@[simp] theorem Hw.axis_setAxis_same (h : Hw) (a : Nat) (x : AxS) : (h.setAxis a x).axis a = x := tabGet_tabSet_same _ _ _ _

theorem Hw.axis_setAxis_ne (h : Hw) {a b : Nat} (hb : b ≠ a) (x : AxS) : (h.setAxis a x).axis b = h.axis b :=
  tabGet_tabSet_ne _ _ hb _ _

@[simp] theorem Hw.reg_setAxis (h : Hw) (a : Nat) (x : AxS) (b : Nat) : (h.setAxis a x).reg b = h.reg b := rfl

@[simp] theorem Hw.reg_setFbs (h : Hw) (x : Tab FbS) (b : Nat) : ({ h with fbs := x } : Hw).reg b = h.reg b := rfl

theorem Hw.axis_of_ax {h k : Hw} (e : k.ax = h.ax) (a : Nat) : k.axis a = h.axis a := congrArg (tabGet ({} : AxS) a) e

/-- The lasting part of every axis record is kept from h to k. -/
def AxesLast (h k : Hw) : Prop := ∀ b, (k.axis b).lasting = (h.axis b).lasting

namespace AxesLast

theorem refl (h : Hw) : AxesLast h h := fun _ => rfl

theorem trans {h k l : Hw} (h1 : AxesLast h k) (h2 : AxesLast k l) : AxesLast h l := fun b => (h2 b).trans (h1 b)

theorem of_ax {h k : Hw} (e : k.ax = h.ax) : AxesLast h k := fun b => congrArg AxS.lasting (Hw.axis_of_ax e b)

theorem ite {c : Prop} [Decidable c] {h k l : Hw} (h1 : AxesLast h k) (h2 : AxesLast h l) :
    AxesLast h (if c then k else l) := by
  split
  · exact h1
  · exact h2

theorem setAxis (h : Hw) {a : Nat} {x : AxS} (hx : x.lasting = (h.axis a).lasting) : AxesLast h (h.setAxis a x) := fun b => by
  by_cases e : b = a
  · subst e
    rwa [Hw.axis_setAxis_same]
  · rw [Hw.axis_setAxis_ne _ e]

theorem each {α : Type} {f : Hw → α → Hw} (hf : ∀ h x, AxesLast h (f h x)) (l : List α) (h : Hw) : AxesLast h (h.each l f) :=
  fun b => Hw.each_keeps (fun h => (h.axis b).lasting) (fun h x => hf h x b) l h

theorem setOwn (h : Hw) (a : Nat) (r : PRec) : AxesLast h (h.setAxis a { h.axis a with own := r }) := setAxis h rfl

theorem setRaw (h : Hw) (a : Nat) (raw : PRec) (clamped : Bool) :
    AxesLast h (h.setAxis a { h.axis a with raw, clamped }) := setAxis h rfl

theorem setInForce (h : Hw) (a : Nat) (inForce : Bool) : AxesLast h (h.setAxis a { h.axis a with inForce }) :=
  setAxis h rfl

/-- A ramp that goes on towards the same velocity at the same deceleration. -/
theorem setRamp (h : Hw) {a : Nat} {r q : Ramp} (hr : (h.axis a).ramp = some r) (hq : (q.dec, q.vt) = (r.dec, r.vt)) :
    AxesLast h (h.setAxis a { h.axis a with ramp := some q }) := by
  obtain ⟨hdec, hvt⟩ := Prod.mk.inj hq
  refine setAxis h ?_
  simp only [AxS.lasting, hr, Option.map_some, hdec, hvt]

theorem setNxt (h : Hw) (p : Nat) (r : PRec) : AxesLast h (h.setNxt p r) :=
  of_ax ((Hw.each_keeps Hw.ax (fun h u => h.setGear_ax u _) _ _).trans (h.setProf_ax p _))

theorem axPut (h : Hw) (a : Nat) (r : PRec) : AxesLast h (h.axPut a r) := by
  unfold Hw.axPut
  exact ite ((setRaw h a r _).trans (setNxt _ _ _)) (refl h)

theorem ownRec (h : Hw) (p : Nat) (r : PRec) : AxesLast h (h.ownRec p r) := by
  unfold Hw.ownRec
  split
  · exact ite (setOwn h _ r) ((setOwn h _ r).trans (axPut _ _ r))
  · exact setNxt h p r

theorem followAgain (h : Hw) (p : Nat) : AxesLast h (h.followAgain p) := each (fun h _ => ownRec h _ _) _ h

theorem axTakeOver (h : Hw) (a : Nat) : AxesLast h (h.axTakeOver a) := by
  unfold Hw.axTakeOver
  dsimp only
  exact (of_ax (h.axisFlush_ax _)).trans (setAxis _ rfl)

theorem axPick (h : Hw) (a T X : Nat) : AxesLast h (h.axPick a T X) := by
  unfold Hw.axPick
  dsimp only
  split
  · exact (setInForce h a false).trans (axPut _ _ _)
  · have htake : AxesLast h (if (h.axis a).inForce then h else h.axTakeOver a) := ite (refl h) (axTakeOver h a)
    revert htake
    generalize (if (h.axis a).inForce then h else h.axTakeOver a) = k
    intro htake
    split
    · next rp hrp => exact htake.trans ((setRamp k hrp (by split <;> rfl)).trans (axPut _ _ _))
    · exact htake.trans (axPut _ _ _)

theorem axShape (h : Hw) (a : Nat) : AxesLast h (h.axShape a) := by
  have hfol : ∀ (h : Hw) f r x, AxesLast h ((h.ownRec f r).setProf f x) := fun h f r x =>
    (ownRec h f r).trans (of_ax (Hw.setProf_ax _ _ _))
  unfold Hw.axShape
  dsimp only
  split
  · exact (axPick h a _ _).trans ((each (fun h f => hfol h f _ _) _ _).trans (followAgain _ _))
  · exact refl h

section
variable {h k : Hw} (hk : AxesLast h k) (b : Nat)
include hk

theorem ramp_none (e : (h.axis b).ramp = none) : (k.axis b).ramp = none := by
  have hr : (k.axis b).lasting.ramp = none := by rw [hk b, AxS.lasting, e]; rfl
  exact Option.map_eq_none_iff.mp hr

theorem ramp_aim : (k.axis b).ramp.map (fun r => (r.dec, r.vt)) = (h.axis b).ramp.map fun r => (r.dec, r.vt) := by
  have hr := congrArg (fun x => x.ramp.map fun r => (r.dec, r.vt)) (hk b)
  rwa [AxS.lasting, AxS.lasting, Option.map_map, Option.map_map] at hr

theorem thenDo : (k.axis b).thenDo = (h.axis b).thenDo := congrArg (·.thenDo) (hk b)
theorem load : (k.axis b).load = (h.axis b).load := congrArg (·.load) (hk b)
theorem wallP : (k.axis b).wallP = (h.axis b).wallP := congrArg (·.wallP) (hk b)
theorem wallN : (k.axis b).wallN = (h.axis b).wallN := congrArg (·.wallN) (hk b)

end

end AxesLast

/-- From h to k nothing but the records for the next boundary has been shaped: the legs, the registers of the AX and LEG
pages, and the lasting part of the axis records stand. -/
structure Shaped (h k : Hw) : Prop where
  legs : k.legs = h.legs
  reg : ∀ b, 0xB000 ≤ b → k.reg b = h.reg b
  last : AxesLast h k

theorem motionFree_legs : MotionFree Hw.legs where
  reg _ _ _ _ := rfl
  evtCyc _ _ := rfl
  prof _ _ _ := rfl
  gear _ _ _ := rfl
  axis _ _ _ := rfl
  fbs _ _ := rfl
  nsw _ _ := rfl

theorem Hw.axShape_shaped (h : Hw) (a : Nat) : Shaped h (h.axShape a) where
  legs := motionFree_legs.axShape h a
  reg _ hb := Hw.reg_of_calm (Hw.axShape_calm hb h a)
  last := .axShape h a

theorem Hw.axRewall_shaped (h : Hw) (a : Nat) : Shaped h (h.axRewall a) where
  legs := (motionFree_legs.followAgain _ _).trans (motionFree_legs.axPut h a _)
  reg _ _ := Hw.reg_of_calm ((Hw.followAgain_calm _ _).trans (Hw.axPut_calm h a _))
  last := (AxesLast.axPut h a _).trans (.followAgain _ _)

theorem axr_ge (a off : Nat) : 0xB000 ≤ axr a off := by unfold axr ra pAX; omega
theorem lg_ge (n off : Nat) : 0xB000 ≤ lg n off := by unfold lg ra pLEG; omega

namespace Shaped

variable {h k : Hw} (hk : Shaped h k)
include hk

theorem axr (a off : Nat) : k.reg (axr a off) = h.reg (axr a off) := hk.reg _ (axr_ge a off)
theorem bit (a off i : Nat) : k.bit (Machine.axr a off) i = h.bit (Machine.axr a off) i := congrArg (bitOf · i) (hk.axr a off)
theorem f (a off hi lo : Nat) : k.f (Machine.axr a off) hi lo = h.f (Machine.axr a off) hi lo :=
  congrArg (fld · hi lo) (hk.axr a off)
theorem axState (a : Nat) : k.axState a = h.axState a := hk.f a rSTAT 2 0
theorem leg (n : Nat) : k.leg n = h.leg n := congrArg (tabGet ({} : LegS) n) hk.legs
theorem legEnabled (n : Nat) : k.legEnabled n = h.legEnabled n := congrArg (bitOf · 0) (hk.reg _ (lg_ge n _))

end Shaped

/-! ### States, refusals and ramps -/

theorem axr_ne {a b off off' : Nat} (h1 : off < 0x1000) (h2 : off' < 0x1000) (h : off ≠ off') : axr a off ≠ axr b off' :=
  ra_ne_off h1 h2 h

theorem axr_ne_lg {a n off off' : Nat} (h1 : off < 0x1000) (h2 : off' < 0x1000) (h : off ≠ off') : axr a off ≠ lg n off' :=
  ra_ne_off h1 h2 h

theorem Hw.axState_setAxState (h : Hw) (a : Nat) {st : Nat} (hst : st < 8) : (h.setAxState a st).axState a = st :=
  (h.f_setF_same _ (by decide) (by decide) st).trans (Nat.mod_eq_of_lt hst)

theorem Hw.bit_setAxState (h : Hw) (a st : Nat) {i : Nat} (hi : 2 < i) :
    (h.setAxState a st).bit (axr a rSTAT) i = h.bit (axr a rSTAT) i := by
  rw [Hw.bit, Hw.setAxState, Hw.reg_setF_same, bitOf_putFld_ne _ (by decide) (by decide) _ (.inr hi)]
  rfl

theorem Hw.reg_setAxState (h : Hw) (a st : Nat) {b off : Nat} (ho : off < 0x1000) (hne : off ≠ rSTAT) :
    (h.setAxState a st).reg (axr b off) = h.reg (axr b off) := h.reg_setF_ne (axr_ne ho (by decide) hne) _ _ _

/-- The state stands beside the other bits of STAT. -/
theorem Hw.axState_setBit (h : Hw) (a : Nat) {i : Nat} (hi : 2 < i) (hi' : i < 32) (v : Bool) (b : Nat) :
    (h.setBit (axr a rSTAT) i v).axState b = h.axState b := by
  by_cases e : b = a
  · subst e
    exact h.f_setF_disj _ (Nat.le_refl i) hi' _ (.inl hi)
  · exact h.f_setReg_ne (fun hab => e (by unfold axr ra pAX at hab; omega)) _ _ _

/-- A refused command shows its reason and its event, and changes no axis and no leg (R266). -/
theorem Hw.axRefuse_shows (h : Hw) (a : Nat) {reason : Nat} (hr : reason < 16) (n : Nat) :
    (h.axRefuse a reason).f (axr a 0x048) 3 0 = reason ∧ (h.axRefuse a reason).bit (axr a rEVT) 1 = true ∧
    (h.axRefuse a reason).axState a = h.axState a ∧ (h.axRefuse a reason).axis a = h.axis a ∧
    (h.axRefuse a reason).leg n = h.leg n := by
  have hreg : ∀ off < 0x1000, off ≠ rEVT → off ≠ rEVT_TS → (h.axRefuse a reason).reg (axr a off) =
      (h.setF (axr a 0x048) 3 0 reason).reg (axr a off) := fun off ho h1 h2 =>
    Hw.reg_evt_ne _ (axr_ne ho (by decide) h1) (axr_ne ho (by decide) h2) 1
  refine ⟨?_, Hw.bit_evt _ _ (by decide), ?_, Hw.axis_of_ax (Hw.evt_ax _ _ _) a,
    congrArg (tabGet ({} : LegS) n) (Hw.evt_legs _ _ _)⟩
  · rw [Hw.f, hreg _ (by decide) (by decide) (by decide)]
    exact (h.f_setF_same _ (by decide) (by decide) _).trans (Nat.mod_eq_of_lt hr)
  · rw [Hw.axState, Hw.f, hreg _ (by decide) (by decide) (by decide),
      Hw.reg_setF_ne _ (axr_ne (by decide) (by decide) (by decide))]
    rfl

/-- A ramp begun: its deceleration, the velocity it ends at and what follows it stand in the axis record (R271). -/
theorem Hw.axRamp_shows (h : Hw) (a dec : Nat) (vt : Int) (e : RampEnd) :
    ((h.axRamp a dec vt e).axis a).ramp.map (fun r => (r.dec, r.vt)) = some (max 1 dec, vt) ∧
    ((h.axRamp a dec vt e).axis a).thenDo = e ∧ (h.axRamp a dec vt e).axState a = h.axState a ∧
    (h.axRamp a dec vt e).legs = h.legs := by
  have hs : Shaped _ (h.axRamp a dec vt e) := Hw.axShape_shaped _ a
  rw [hs.last.ramp_aim, hs.last.thenDo, Hw.axis_setAxis_same, hs.axState, hs.legs]
  exact ⟨rfl, rfl, rfl, rfl⟩

/-! ### The end of homing (R282, R285) -/

/-- The end of homing moves only LATCH1's settings of the axis's port. -/
theorem Hw.homeEnd_reg (h : Hw) (a : Nat) {p off : Nat} (ho : off < 0x1000) (h0 : off ≠ 0x0C0) (h8 : off ≠ 0x0C8) :
    (h.homeEnd a).reg (ra p off) = h.reg (ra p off) := by
  have hn0 : ∀ n, ra p off ≠ ra n 0x0C0 := fun n => ra_ne_off ho (by decide) h0
  have hn8 : ∀ n, ra p off ≠ ra n 0x0C8 := fun n => ra_ne_off ho (by decide) h8
  unfold Hw.homeEnd
  split
  · rfl
  · dsimp only
    rw [Hw.reg_setAxis]
    split
    · rw [Hw.reg_setBit_ne _ (hn8 _), Hw.reg_setFbs, Hw.reg_setF_ne _ (hn0 _), Hw.reg_setF_ne _ (hn0 _)]
    · rfl

/-- Homing aborted moves HOME_REF of the axis besides. -/
theorem Hw.homeDrop_reg (h : Hw) (a : Nat) {p off : Nat} (ho : off < 0x1000) (h0 : off ≠ 0x0C0) (h8 : off ≠ 0x0C8)
    (h4 : off ≠ 0x094) : (h.homeDrop a).reg (ra p off) = h.reg (ra p off) := by
  have hn : ra p off ≠ axr a 0x094 := ra_ne_off ho (by decide) h4
  unfold Hw.homeDrop
  dsimp only
  rw [Hw.reg_setAxis, Hw.homeEnd_reg _ a ho h0 h8]
  split
  · split
    · split
      · exact h.reg_setReg_ne hn _
      · rfl
    · rfl
  · rfl

/-! ### RUNNING, a stop and OFF (R265, R268, R271) -/

/-- A stop outside STOPPING ramps the axis to rest in STOPPING. -/
theorem Hw.axStop_shows {h : Hw} {a : Nat} (hst : h.axState a ≠ sSTOPPING) (dec : Nat) (e : RampEnd) :
    (h.axStop a dec e).axState a = sSTOPPING ∧
    ((h.axStop a dec e).axis a).ramp.map (fun r => (r.dec, r.vt)) = some (max 1 dec, 0) ∧
    ((h.axStop a dec e).axis a).thenDo = e ∧ ∀ n, (h.axStop a dec e).leg n = h.leg n := by
  have hlegs := motionFree_legs.axStop h a dec e
  have hstop : h.axStop a dec e = ((h.homeDrop a).setAxState a sSTOPPING).axRamp a dec 0 e := if_neg hst
  rw [hstop] at hlegs ⊢
  obtain ⟨hramp, hthen, hstate, -⟩ := Hw.axRamp_shows ((h.homeDrop a).setAxState a sSTOPPING) a dec 0 e
  exact ⟨hstate.trans (Hw.axState_setAxState _ a (by decide)), hramp, hthen, fun n => congrArg (tabGet ({} : LegS) n) hlegs⟩

theorem Hw.loadHeld_ax (h : Hw) (p : Nat) (x : Word64) : (h.loadHeld p x).ax = h.ax := by
  unfold Hw.loadHeld Hw.noteHeld Hw.notePath
  split <;> rfl

theorem Hw.loadHeld_legs (h : Hw) (p : Nat) (x : Word64) : (h.loadHeld p x).legs = h.legs := by
  unfold Hw.loadHeld Hw.noteHeld Hw.notePath
  split <;> rfl

/-- A change of state with PROT_WAIT cleared, and the record shaped after it. -/
theorem Hw.enter_shows (h : Hw) (a : Nat) {st : Nat} (hst : st < 8) :
    Shaped ((h.setBit (axr a rSTAT) 3 false).setAxState a st) (((h.setBit (axr a rSTAT) 3 false).setAxState a st).axShape a) ∧
    (((h.setBit (axr a rSTAT) 3 false).setAxState a st).axShape a).axState a = st ∧
    (((h.setBit (axr a rSTAT) 3 false).setAxState a st).axShape a).bit (axr a rSTAT) 3 = false := by
  have hs := Hw.axShape_shaped ((h.setBit (axr a rSTAT) 3 false).setAxState a st) a
  refine ⟨hs, (hs.axState a).trans (Hw.axState_setAxState _ a hst), ?_⟩
  rw [hs.bit, Hw.bit_setAxState _ a st (by decide)]
  exact Hw.bit_setBit_same _ _ (by decide) _

/-- Change to RUNNING: no ramp, no PROT_WAIT, and the legs as they were. -/
theorem Hw.axToRun_shows (h : Hw) (a : Nat) : (h.axToRun a).axState a = sRUNNING ∧
    (h.axToRun a).bit (axr a rSTAT) 3 = false ∧ ((h.axToRun a).axis a).ramp = none ∧ ∀ n, (h.axToRun a).leg n = h.leg n := by
  unfold Hw.axToRun
  extract_lets x k p k1 y k2
  have hax1 : k1.ax = k.ax := by
    simp only [k1, apply_ite Hw.ax, Hw.loadHeld_ax, ite_self]
  have hleg1 : k1.legs = k.legs := by
    simp only [k1, apply_ite Hw.legs, Hw.loadHeld_legs, ite_self]
  have hlast2 : AxesLast k1 k2 := .ite (.setOwn k1 a _) (.refl k1)
  have hleg2 : k2.legs = k1.legs := by
    simp only [k2, apply_ite Hw.legs, motionFree_legs.axis, ite_self]
  obtain ⟨hs, hstate, hwait⟩ := k2.enter_shows a (st := sRUNNING) (by decide)
  refine ⟨hstate, hwait, ?_, fun n => congrArg (tabGet ({} : LegS) n) (hs.legs.trans (hleg2.trans hleg1))⟩
  refine hs.last.ramp_none a (hlast2.ramp_none a ?_)
  rw [Hw.axis_of_ax hax1, Hw.axis_setAxis_same]

/-- DISABLE of a list of legs: each is off and safe. -/
theorem Hw.each_legOff_shows (l : List Nat) (h : Hw) (n : Nat) :
    (n ∈ l ∨ (h.legEnabled n = false ∧ (h.leg n).running = false)) →
    (h.each l Hw.legOff).legEnabled n = false ∧ ((h.each l Hw.legOff).leg n).running = false := by
  induction l generalizing h with
  | nil => exact fun hn => hn.resolve_left List.not_mem_nil
  | cons m l ih =>
    obtain ⟨hoff, hsafe, -, -, hother⟩ := h.legOff_shows m
    refine fun hn => ih (h.legOff m) ?_
    by_cases e : n = m
    · subst e
      exact .inr ⟨hoff, hsafe⟩
    · obtain ⟨hen, hleg⟩ := hother n e
      rw [hen, hleg]
      exact hn.imp_left (List.mem_of_ne_of_mem e)

theorem Hw.legOff_reg (h : Hw) (n : Nat) {p off : Nat} (ho : off < 0x1000) (hne : off ≠ rCTRL) :
    (h.legOff n).reg (ra p off) = h.reg (ra p off) := h.reg_setBit_ne (a := lg n rCTRL) (ra_ne_off ho (by decide) hne) 0 false

theorem Hw.each_legOff_reg (l : List Nat) (h : Hw) {p off : Nat} (ho : off < 0x1000) (hne : off ≠ rCTRL) :
    (h.each l Hw.legOff).reg (ra p off) = h.reg (ra p off) :=
  Hw.each_keeps (Hw.reg · (ra p off)) (fun h n => h.legOff_reg n ho hne) l h

/-- OFF: every leg of the axis is off and safe, PROT_WAIT is clear, and the state is FAULT while a code stands (R268). -/
theorem Hw.axOff_shows (h : Hw) (a : Nat) :
    (h.axOff a).axState a = (if h.f (axr a 0x0A4) 7 0 = 0 then sOFF else sFAULT) ∧
    (h.axOff a).bit (axr a rSTAT) 3 = false ∧
    (∀ n ∈ h.axisLegs a, (h.axOff a).legEnabled n = false ∧ ((h.axOff a).leg n).running = false) ∧
    ∀ off < 0x1000, off ∉ [rCTRL, rSTAT, 0x094, 0x0C0, 0x0C8] → (h.axOff a).reg (axr a off) = h.reg (axr a off) := by
  unfold Hw.axOff
  extract_lets k x k1 k2
  have hk : ∀ {p off : Nat}, off < 0x1000 → off ∉ [0x094, 0x0C0, 0x0C8] →
      k1.reg (ra p off) = (h.axisLegsOff a).reg (ra p off) :=
    fun ho hn => by
      simp only [List.mem_cons, List.not_mem_nil, or_false, not_or] at hn
      obtain ⟨h4, h0, h8⟩ := hn
      calc
        k1.reg _ = k.reg _ := Hw.reg_setAxis k a _ _
        _ = ((h.axisLegsOff a).homeDrop a).reg _ := Hw.reg_setAxis _ a _ _
        _ = _ := Hw.homeDrop_reg _ a ho h0 h8 h4
  have hcode : k2.f (axr a 0x0A4) 7 0 = h.f (axr a 0x0A4) 7 0 := by
    rw [Hw.f, Hw.reg_setBit_ne _ (axr_ne (by decide) (by decide) (by decide)), axr, hk (by decide) (by decide)]
    exact congrArg (fld · 7 0) (Hw.each_legOff_reg _ h (by decide) (by decide))
  rw [hcode]
  obtain ⟨hs, hstate, hwait⟩ := k1.enter_shows a (st := if h.f (axr a 0x0A4) 7 0 = 0 then sOFF else sFAULT)
    (by split <;> decide)
  refine ⟨hstate, hwait, fun n hn => ?_, fun off ho hn => ?_⟩
  · have hoff := Hw.each_legOff_shows (h.axisLegs a) h n (.inl hn)
    have hlegs : k1.legs = (h.axisLegsOff a).legs :=
      (motionFree_legs.axis k a _).trans ((motionFree_legs.wallAt _ a _).trans (motionFree_legs.homeDrop _ a))
    rw [hs.legEnabled, hs.leg]
    refine ⟨?_, ?_⟩
    · refine Eq.trans ?_ hoff.1
      refine (congrArg (bitOf · 0) ?_ : Hw.bit _ _ _ = Hw.bit _ _ _)
      rw [Hw.setAxState, Hw.reg_setF_ne _ (axr_ne_lg (by decide) (by decide) (by decide)).symm,
        Hw.reg_setBit_ne _ (axr_ne_lg (by decide) (by decide) (by decide)).symm]
      exact hk (by decide) (by decide)
    · rw [Hw.leg, motionFree_legs.setAxState, motionFree_legs.setBit _ (motion_axr a _), hlegs]
      exact hoff.2
  · simp only [List.mem_cons, List.not_mem_nil, or_false, not_or] at hn
    obtain ⟨hctrl, hstat, hrest⟩ := hn
    rw [hs.axr, Hw.reg_setAxState _ _ _ ho hstat, Hw.reg_setBit_ne _ (axr_ne ho (by decide) hstat), axr,
      hk ho (by simpa using hrest)]
    exact Hw.each_legOff_reg _ h ho hctrl

/-! ### ENABLE of all legs of an axis (R267) -/

/-- ENABLE set of one leg is no condition of another's. -/
theorem Hw.legMayEnable_setEnable (h : Hw) (n : Nat) {m : Nat} (hm : m < 96) :
    (h.setBit (lg n rCTRL) 0 true).legMayEnable m = h.legMayEnable m := by
  have hreg : ∀ {p off : Nat}, off < 0x1000 → off ≠ rCTRL →
      (h.setBit (lg n rCTRL) 0 true).reg (ra p off) = h.reg (ra p off) :=
    fun ho hne => h.reg_setBit_ne (a := lg n rCTRL) (ra_ne_off ho (by decide) hne) 0 true
  have hbit : ∀ {p off : Nat}, off < 0x1000 → off ≠ rCTRL → ∀ i, (h.setBit (lg n rCTRL) 0 true).bit (ra p off) i =
      h.bit (ra p off) i := fun ho hne i => congrArg (bitOf · i) (hreg ho hne)
  have hmode : (h.setBit (lg n rCTRL) 0 true).mode = h.mode := Hw.mode_of_reg (hreg (by decide) (by decide))
  have haxis : (h.setBit (lg n rCTRL) 0 true).legAxis m = h.legAxis m := by
    simp only [Hw.legAxis, Hw.bridgeAxis, cr, hbit (show 0x044 < 0x1000 by decide) (by decide)]
  have hval : ∀ c, (h.setBit (lg n rCTRL) 0 true).carValid c = h.carValid c := fun c => by
    simp only [Hw.carValid, Hw.period, Hw.f, cr, hreg (show 0x04C < 0x1000 by decide) (by decide)]
    rfl
  have hgst : (h.setBit (lg n rCTRL) 0 true).gstCode m = h.gstCode m :=
    congrArg (fld · 2 0) (hreg (by omega) (by unfold rCTRL; omega))
  have hctrl : (h.setBit (lg n rCTRL) 0 true).bit (ra (pLEG m) rCTRL) 2 = h.bit (ra (pLEG m) rCTRL) 2 := by
    by_cases e : m = n
    · subst e
      exact h.bit_setBit_other (lg m rCTRL) (by decide) (by decide) true
    · exact h.bit_setBit_ne (a := lg n rCTRL) (mt lg_ctrl_inj.mp e) 0 true 2
  have hforced : (h.setBit (lg n rCTRL) 0 true).forced m = h.forced m := by
    simp only [Hw.forced, Hw.protForce, Hw.statusForce, Hw.tripForce, Hw.modeForce, Hw.haltSafe, hgst, hctrl, hmode,
      hbit (show 0x058 < 0x1000 by decide) (by decide)]
    rfl
  simp only [Hw.legMayEnable, hmode, haxis, hval, hforced]

/-- An accepted set of ENABLE is one bit, beside the note of the grain. -/
theorem Hw.legEnable_eq {h : Hw} {n : Nat} (hm : h.legMayEnable n = true) :
    ∃ x, h.legEnable n = ({ h with enAt := x } : Hw).setBit (lg n rCTRL) 0 true := by
  unfold Hw.legEnable
  rw [if_pos hm]
  split
  · split
    · exact ⟨h.enAt, rfl⟩
    · exact ⟨_, rfl⟩
  · exact ⟨h.enAt, rfl⟩

/-- ENABLE of a list of legs, each of which may be enabled: each is on. -/
theorem Hw.each_legEnable_on (l : List Nat) (h : Hw) (hl : ∀ n ∈ l, n < 96) (hm : ∀ n ∈ l, h.legMayEnable n = true)
    {n : Nat} :
    n ∈ l ∨ h.legEnabled n = true → (h.each l Hw.legEnable).legEnabled n = true := by
  induction l generalizing h with
  | nil => exact fun hn => hn.resolve_left List.not_mem_nil
  | cons m l ih =>
    obtain ⟨hon, hother, -⟩ := Hw.legEnable_accepted (hm m List.mem_cons_self)
    obtain ⟨x, e⟩ := Hw.legEnable_eq (hm m List.mem_cons_self)
    refine fun hn => ih (h.legEnable m) (fun j hj => hl j (List.mem_cons_of_mem _ hj)) (fun j hj => ?_) ?_
    · rw [e, Hw.legMayEnable_setEnable _ m (hl j (List.mem_cons_of_mem _ hj))]
      exact hm j (List.mem_cons_of_mem _ hj)
    · by_cases en : n = m
      · subst en
        exact .inr hon
      · rw [(hother n).resolve_left en]
        exact hn.imp_left (List.mem_of_ne_of_mem en)

theorem Hw.axisLegs_lt (h : Hw) (a : Nat) : ∀ n ∈ h.axisLegs a, n < 96 := fun _ =>
  lt_of_mem_legsOf fun _ => lt_of_mem_bridgesOf

theorem Hw.axUsedLegs_lt (h : Hw) (a : Nat) : ∀ n ∈ h.axUsedLegs a, n < 96 := fun n hn => by
  obtain ⟨x, hx, rfl⟩ := List.mem_map.mp hn
  exact h.axisLegs_lt a _ (List.fst_mem_of_mem_zipIdx (List.mem_filter.mp hx).1)

/-- ENABLE accepted: STARTING with the held position of the profile in HOLD_POS, and every used leg enabled. -/
theorem Hw.axEnable_shows {h : Hw} {a : Nat} (hr : h.axEnableReason a = 0)
    (hm : (h.axUsedLegs a).all h.legMayEnable = true) (n : Nat) :
    (h.axEnable a).axState a = sSTARTING ∧ (h.axEnable a).reg64 (axr a 0x098) = h.pfHeld (h.axProf a) ∧
    (n ∈ h.axUsedLegs a → (h.axEnable a).legEnabled n = true) := by
  have hen := fun hn => h.each_legEnable_on (h.axUsedLegs a) (h.axUsedLegs_lt a) (List.all_eq_true.mp hm) (n := n) (.inl hn)
  have henable : h.axEnable a = (((h.each (h.axUsedLegs a) Hw.legEnable).setReg64 (axr a 0x098)
      (h.pfHeld (h.axProf a))).setAxState a sSTARTING).axShape a := (if_neg (not_not.mpr hr)).trans (if_pos hm)
  rw [henable]
  generalize h.each (h.axUsedLegs a) Hw.legEnable = k at hen ⊢
  have hs := Hw.axShape_shaped ((k.setReg64 (axr a 0x098) (h.pfHeld (h.axProf a))).setAxState a sSTARTING) a
  refine ⟨(hs.axState a).trans (Hw.axState_setAxState _ a (by decide)), ?_, fun hn => ?_⟩
  · refine Eq.trans ?_ (k.reg64_setReg64 (axr a 0x098) (h.pfHeld (h.axProf a)))
    exact Hw.reg64_congr ((hs.axr a 0x098).trans (Hw.reg_setAxState _ _ _ (by decide) (by decide)))
      ((hs.axr a 0x09C).trans (Hw.reg_setAxState _ _ _ (by decide) (by decide)))
  · rw [hs.legEnabled, ← hen hn, Hw.legEnabled, Hw.bit, Hw.setAxState,
      Hw.reg_setF_ne _ (axr_ne_lg (by decide) (by decide) (by decide)).symm,
      Hw.reg_setReg64_ne _ (axr_ne_lg (off := 0x098) (by decide) (by decide) (by decide)).symm
        (axr_ne_lg (off := 0x09C) (by decide) (by decide) (by decide)).symm]
    rfl

/-! ### Faults declared by an engine (R273) -/

/-- A code and the reaction OFF noted in FAULT, with the event. -/
def Hw.axCode (h : Hw) (a c : Nat) : Hw := ((h.setF (axr a 0x0A4) 7 0 c).setF (axr a 0x0A4) 9 8 3).evt (pAX a) 2

theorem Hw.axCode_reg (h : Hw) (a c : Nat) {p off : Nat} (ho : off < 0x1000) (hn : off ∉ [0x0A4, rEVT, rEVT_TS]) :
    (h.axCode a c).reg (ra p off) = h.reg (ra p off) := by
  simp only [List.mem_cons, List.not_mem_nil, or_false, not_or] at hn
  obtain ⟨h1, h2, h3⟩ := hn
  rw [Hw.axCode, Hw.reg_evt_ne _ (ra_ne_off ho (by decide) h2) (ra_ne_off ho (by decide) h3), axr,
    Hw.reg_setF_ne _ (ra_ne_off ho (by decide) h1), Hw.reg_setF_ne _ (ra_ne_off ho (by decide) h1)]

theorem Hw.axCode_shows (h : Hw) (a : Nat) {c : Nat} (hc : c < 256) : (h.axCode a c).f (axr a 0x0A4) 7 0 = c ∧
    (h.axCode a c).f (axr a 0x0A4) 9 8 = 3 ∧ (h.axCode a c).bit (axr a rEVT) 2 = true := by
  have hreg : (h.axCode a c).reg (axr a 0x0A4) = ((h.setF (axr a 0x0A4) 7 0 c).setF (axr a 0x0A4) 9 8 3).reg (axr a 0x0A4) :=
    Hw.reg_evt_ne _ (axr_ne (by decide) (by decide) (by decide)) (axr_ne (by decide) (by decide) (by decide)) 2
  refine ⟨(congrArg (fld · 7 0) hreg).trans ?_, (congrArg (fld · 9 8) hreg).trans ?_, Hw.bit_evt _ _ (by decide)⟩
  · exact (Hw.f_setF_disj _ _ (by decide) (by decide) _ (.inl (by decide))).trans
      ((h.f_setF_same _ (by decide) (by decide) c).trans (Nat.mod_eq_of_lt hc))
  · exact Hw.f_setF_same _ _ (by decide) (by decide) 3

/-- A first fault of a software write with reaction OFF. -/
theorem Hw.axFault_first {h : Hw} {a : Nat} (hnone : h.f (axr a 0x0A4) 7 0 = 0) (c : Nat) :
    h.axFault a c 3 10 = ((h.log (pAX a) 10 2 a h.grain).axCode a c).axOff a := by
  have hlog := h.log_logged (pAX a) 10 2 a h.grain 0
  have hhad : (h.log (pAX a) 10 2 a h.grain).f (axr a 0x0A4) 7 0 = 0 :=
    (congrArg (fld · 7 0) (hlog.reg (not_inLog_of_ge (by unfold axr ra pAX; omega)))).trans hnone
  unfold Hw.axFault Hw.axCode
  simp only [hhad, OfNat.ofNat_ne_zero, if_false, if_true, Nat.lt_irrefl, true_or]

/-- A code of an engine written where no code stands: the axis is in FAULT with that code and its legs off. -/
theorem Hw.engFault_shows {h : Hw} {a : Nat} {v : Word} (hlo : 0x10 ≤ fld v 7 0) (hhi : fld v 7 0 ≤ 0x7F)
    (hnone : h.f (axr a 0x0A4) 7 0 = 0) : (h.engFault a v).axState a = sFAULT ∧
    (h.engFault a v).f (axr a 0x0A4) 7 0 = fld v 7 0 ∧ (h.engFault a v).f (axr a 0x0A4) 9 8 = 3 ∧
    (h.engFault a v).f (axr a 0x0A0) 7 0 = fld v 7 0 ∧ (h.engFault a v).bit (axr a rEVT) 2 = true ∧
    ∀ n ∈ h.axisLegs a, (h.engFault a v).legEnabled n = false := by
  have heng : h.engFault a v = (h.setF (axr a 0x0A0) 7 0 (fld v 7 0)).axFault a (fld v 7 0) 3 10 := if_pos ⟨hlo, hhi⟩
  have hnone' : (h.setF (axr a 0x0A0) 7 0 (fld v 7 0)).f (axr a 0x0A4) 7 0 = 0 :=
    (h.f_setF_ne (axr_ne (by decide) (by decide) (by decide)) _ _ _ _ _).trans hnone
  rw [heng, Hw.axFault_first hnone']
  have hcode0 : (h.setF (axr a 0x0A0) 7 0 (fld v 7 0)).f (axr a 0x0A0) 7 0 = fld v 7 0 :=
    (h.f_setF_same _ (by decide) (by decide) _).trans (Nat.mod_eq_of_lt (fld_lt v 7 0))
  have hlegs0 : (h.setF (axr a 0x0A0) 7 0 (fld v 7 0)).axisLegs a = h.axisLegs a :=
    congrArg (fun w => legsOf (bridgesOf w))
      (h.reg_setF_ne (a := axr a 0x0A0) (ra_ne_off (by decide) (by decide) (by decide)) _ _ _)
  rw [← hlegs0]
  generalize h.setF (axr a 0x0A0) 7 0 (fld v 7 0) = k at *
  have hlog := k.log_logged (pAX a) 10 2 a k.grain 0
  generalize k.log (pAX a) 10 2 a k.grain = l at *
  have hlegs : (l.axCode a (fld v 7 0)).axisLegs a = k.axisLegs a :=
    (congrArg (fun w => legsOf (bridgesOf w)) (l.axCode_reg a _ (p := pCAR a) (by decide) (by decide))).trans
      (Hw.axisLegs_congr (fun _ => hlog.reg) a)
  have hA0 : (l.axCode a (fld v 7 0)).f (axr a 0x0A0) 7 0 = fld v 7 0 :=
    (congrArg (fld · 7 0) ((l.axCode_reg a _ (p := pAX a) (by decide) (by decide)).trans
      (hlog.reg (not_inLog_of_ge (by unfold ra pAX; omega))))).trans hcode0
  obtain ⟨hcode, hreact, hevt⟩ := l.axCode_shows a (fld_lt v 7 0)
  generalize l.axCode a (fld v 7 0) = n at *
  obtain ⟨hstate, -, hoff, hreg⟩ := n.axOff_shows a
  rw [hcode, if_neg (by omega)] at hstate
  have hA4 := hreg 0x0A4 (by decide) (by decide)
  exact ⟨hstate, (congrArg (fld · 7 0) hA4).trans hcode, (congrArg (fld · 9 8) hA4).trans hreact,
    (congrArg (fld · 7 0) (hreg 0x0A0 (by decide) (by decide))).trans hA0,
    (congrArg (bitOf · 2) (hreg rEVT (by decide) (by decide))).trans hevt, fun j hj => (hoff j (hlegs ▸ hj)).1⟩

/-! ### The other commands -/

/-- A stop command in RUNNING ramps to rest at its deceleration. -/
theorem Hw.axStopCmd_running {h : Hw} {a : Nat} (hst : h.axState a = sRUNNING) (dec : Nat) (q : Bool) :
    h.axStopCmd a dec q = h.axStop a dec .hold := by
  unfold Hw.axStopCmd
  simp [hst, sRUNNING, sSTARTING, sHOMING, Hw.when]

/-- A stop command in STARTING holds at once. -/
theorem Hw.axStopCmd_starting {h : Hw} {a : Nat} (hst : h.axState a = sSTARTING) (dec : Nat) (q : Bool) :
    (h.axStopCmd a dec q).axState a = sHOLDING ∧ ∀ n, (h.axStopCmd a dec q).leg n = h.leg n := by
  have hcmd : h.axStopCmd a dec q = (h.setAxState a sHOLDING).axShape a := if_pos hst
  have hs := (h.setAxState a sHOLDING).axShape_shaped a
  rw [hcmd]
  exact ⟨(hs.axState a).trans (h.axState_setAxState a (by decide)), hs.leg⟩

theorem Hw.axStopCmd_off {h : Hw} {a : Nat} (hst : h.axState a = sOFF) (dec : Nat) (q : Bool) :
    h.axStopCmd a dec q = h.axRefuse a 1 := by
  unfold Hw.axStopCmd
  simp [hst, sOFF, sRUNNING, sSTARTING, sHOMING, sSTOPPING]

/-- RESET accepted clears the code and the reaction, and no leg. -/
theorem Hw.axReset_shows {h : Hw} {a : Nat} (hst : h.axState a = sFAULT) (hl : h.anyLatched a = false)
    (he : h.axEngineHalted a = false) : (h.axReset a).axState a = sOFF ∧ (h.axReset a).f (axr a 0x0A4) 9 0 = 0 ∧
    ∀ n, (h.axReset a).leg n = h.leg n := by
  have hreset : h.axReset a = (h.setF (axr a 0x0A4) 9 0 0).setAxState a sOFF := by
    unfold Hw.axReset
    rw [if_neg (not_not.mpr hst), hl, he]
    rfl
  rw [hreset]
  refine ⟨Hw.axState_setAxState _ a (by decide), ?_, fun _ => rfl⟩
  exact (congrArg (fld · 9 0) (Hw.reg_setAxState _ a _ (by decide) (by decide))).trans
    (h.f_setF_same _ (by decide) (by decide) 0)

/-! ### What the conditions of the commands look at -/

/-- The module k stands for the axis commands as h does: it reads as h outside the log, and holds the same working state of
the axes, the profiles, the legs and what forces them. -/
structure AxesAs (k h : Hw) : Prop where
  reads : ReadsAs k h
  ax : k.ax = h.ax
  prf : k.prf = h.prf
  legs : k.legs = h.legs
  cars : k.cars = h.cars
  gdp : k.gdp = h.gdp
  sys : k.sys = h.sys

namespace AxesAs

variable {k h : Hw} (hk : AxesAs k h)
include hk

theorem axr (a off : Nat) : k.reg (axr a off) = h.reg (axr a off) := hk.reads.page (three_le_pAX a)
theorem f (a off hi lo : Nat) : k.f (Machine.axr a off) hi lo = h.f (Machine.axr a off) hi lo :=
  congrArg (fld · hi lo) (hk.axr a off)
theorem axState (a : Nat) : k.axState a = h.axState a := hk.f a rSTAT 2 0
theorem axProf (a : Nat) : k.axProf a = h.axProf a := hk.f a 0x040 15 8
theorem axFb (a : Nat) : k.axFb a = h.axFb a := hk.f a 0x040 5 0
theorem axis (a : Nat) : k.axis a = h.axis a := Hw.axis_of_ax hk.ax a
theorem leg (n : Nat) : k.leg n = h.leg n := congrArg (tabGet ({} : LegS) n) hk.legs
theorem prof (p : Nat) : k.prof p = h.prof p := Hw.prof_of_prf hk.prf p
theorem mode : k.mode = h.mode := Hw.mode_congr hk.reads.reg
theorem axisLegs (a : Nat) : k.axisLegs a = h.axisLegs a := Hw.axisLegs_congr hk.reads.reg a
theorem pfSrc (p : Nat) : k.pfSrc p = h.pfSrc p := congrArg (fld · 2 1) (hk.reads.pfCfg p)

theorem gearDrives (p : Nat) : k.gearDrives p = h.gearDrives p := by
  simp only [Hw.gearDrives, hk.reads.bit three_le_pLSH, hk.reads.f three_le_pLSH]

theorem axIdle (a : Nat) : k.axIdle a = h.axIdle a := by
  simp only [Hw.axIdle, hk.axProf, hk.pfSrc, hk.gearDrives, hk.reads.pfState]

theorem pfHeld (a : Nat) : k.pfHeld (k.axProf a) = h.pfHeld (h.axProf a) := by
  simp only [Hw.pfHeld, hk.axProf, hk.pfSrc, hk.prof]

theorem fbPos (n off : Nat) : k.reg64 (ra (pFB n) off) = h.reg64 (ra (pFB n) off) :=
  Hw.reg64_congr (hk.reads.page (three_le_pFB n)) (by rw [ra, Nat.add_assoc]; exact hk.reads.page (three_le_pFB n))

theorem axRaw (a : Nat) : k.axRaw a = h.axRaw a := by
  simp only [Hw.axRaw, Hw.axRel, Hw.fbRaw, hk.axFb, hk.axProf, hk.prof, hk.fbPos]

theorem axUsedLegs (a : Nat) : k.axUsedLegs a = h.axUsedLegs a := by
  simp only [Hw.axUsedLegs, hk.axisLegs, hk.axr]

theorem axEnableReason (a : Nat) : k.axEnableReason a = h.axEnableReason a := by
  simp only [Hw.axEnableReason, hk.axState, hk.mode, hk.f, hk.axIdle, hk.axFb, hk.axr, hk.pfHeld, Hw.fbBPos, hk.fbPos]
  rfl

theorem usedMayEnable (a : Nat) : (k.axUsedLegs a).all k.legMayEnable = (h.axUsedLegs a).all h.legMayEnable := by
  rw [hk.axUsedLegs, show k.legMayEnable = h.legMayEnable from
    funext (Hw.legMayEnable_congr hk.reads.reg hk.gdp hk.legs hk.cars hk.sys)]

theorem anyLatched (a : Nat) : k.anyLatched a = h.anyLatched a :=
  congrArg (fld · 26 24 != 0) (hk.reads.reg _ (not_inLog_of_ge (by unfold axProt gp ra pGDP; omega)))

theorem axEngineHalted (a : Nat) : k.axEngineHalted a = h.axEngineHalted a := by
  have hp : ∀ e, 3 ≤ pHYT e := fun e => by unfold pHYT; omega
  simp only [Hw.axEngineHalted, Hw.axEngine, hk.reads.bit (hp _)]

end AxesAs

theorem AxesAs.of_logged {g : Nat} {k h : Hw} (hk : Logged (h.at g) k) (x : Nat) : AxesAs { k with grain := x } h :=
  ⟨⟨fun _ ha => hk.reg ha, hk.shd, fun a => congrArg (tabGet (regReset a) a) hk.pend, congrArg (·.phase) hk.acq⟩,
    hk.ax, hk.prf, hk.legs, hk.cars, hk.gdp, hk.sys⟩

theorem AxesAs.later {k h : Hw} (hk : AxesAs k h) (x : Nat) : AxesAs { k with grain := x } h :=
  ⟨⟨hk.reads.reg, hk.reads.shd, hk.reads.pnd, hk.reads.phase⟩, hk.ax, hk.prf, hk.legs, hk.cars, hk.gdp, hk.sys⟩

end Sys2Proof.Machine

namespace Sys2Proof
open Machine

/-- A claim about the registers, the axes and the legs: neither the grain nor the memory moves it. -/
structure Timeless (s : State) (P : State → Prop) : Prop where
  grain : ∀ (h : Hw) (x : Nat), P { s with hw := h } → P { s with hw := { h with grain := x } }
  sealed : ∀ (h : Hw) (y : Nat) (m : Mem), P { s with hw := h } → P { s with hw := h.seal y, mem := m }

section
variable {s : State} {g : Nat} {a : Fin 32} {off : Nat} {v : Word} {f : Hw → Hw} {P : State → Prop} (hl : Live s)
include hl

/-- An event of an axis. -/
theorem gives_axisEvent (ht : Timeless s P) (hP : P { s with hw := f (s.hw.at g) }) :
    ∃ t, run g (fun _ h => f h) s = .next t ∧ P t :=
  gives_run (f := fun _ h => f h) hl (ht.sealed _ _ _ hP)

variable (hu : Unlocked s (pAX a)) (ht : Timeless s P) (hP : ∀ k, AxesAs k s.hw → P { s with hw := f k })
include hu ht hP

/-- A software write to an AX page that is not locked: its effect finds the axes as they were. -/
theorem gives_axisWrite : ∃ t, run g (fun _ h => h.swWrite (pAX a) off f) s = .next t ∧ P t :=
  gives_write (f := fun _ h => f h) hl (by unfold pAX pFLT; omega) hu fun k hk => ht.sealed _ _ _ (hP _ (.of_logged hk _))

variable (hm : s.hw.mirrorOn = false)
include hm

/-- A command of an AX page with mirroring off. -/
theorem gives_axisCommand : ∃ t, run g (fun _ h => h.swMirror (pAX a) off v f) s = .next t ∧ P t := by
  refine gives_axisWrite (f := fun h => if h.mirrorOn && h.mode == 4 then h.evt pPAIR 10
    else if h.mirrorOn && h.bit (pr rSTAT) 0 then h.mirrorPut (0x40000000 + ra (pAX a) off) [v]
    else f h) hl hu ht fun k hk => ?_
  have hoff : k.mirrorOn = false := by
    rw [Hw.mirrorOn, pr, pr, hk.reads.bit three_le_pPAIR, hk.reads.bit three_le_pPAIR]
    exact hm
  simp only [hoff, Bool.false_and, Bool.false_eq_true, if_false]
  exact hP k hk

/-- A command that a higher-ranked event of its grain puts off by one grain shows the same (R30). -/
theorem gives_axisLater : ∃ t, run g (fun _ h => h.swMirror (pAX a) off v fun h => h.axLater a f) s = .next t ∧ P t := by
  refine gives_axisCommand (f := fun h => h.axLater a f) hl hu ht (fun k hk => ?_) hm
  unfold Hw.axLater
  split
  · exact ht.grain _ _ (hP _ (hk.later _))
  · exact hP k hk

end

/-- Settles O44: a refusal is one field and one event; each accepted command shows its state and its ramp, and the shaping
of the next record takes neither away. -/
theorem axisCommands : Obligations.AxisCommands := by
  intro s g a n hl
  have refused : ∀ {k : Hw} {reason : Nat}, AxesAs k s.hw → reason < 16 →
      (k.axRefuse a reason).f (axr a 0x048) 3 0 = reason ∧ (k.axRefuse a reason).bit (axr a rEVT) 1 = true ∧
      (k.axRefuse a reason).axState a = s.hw.axState a ∧ (k.axRefuse a reason).axis a = s.hw.axis a ∧
      (k.axRefuse a reason).leg n = s.hw.leg n := fun {k reason} hk hr => by
    rw [← hk.axState, ← hk.axis, ← hk.leg]
    exact k.axRefuse_shows a hr n
  refine ⟨fun hu hm hr hmay => ?_, fun hu hm hst => ?_, fun hst hrun hlast => ?_, fun hu hm hst => ?_, fun hu hm hst => ?_,
    fun hu hm hst => ?_, fun hu hm hst => ?_, fun hu hm hst hcode hsrc => ?_, fun hu hm hst => ?_, fun hu hm hst => ?_,
    fun hu hm hst hlat heng => ?_, fun hu hm hst hlat => ?_, fun v hu hlo hhi hcode => ?_, fun v hu hout => ?_,
    fun v hu hst => ?_, fun v hu hoff hfault => ?_⟩
  · refine gives_axisLater (f := fun h => h.axEnable a) hl hu ⟨fun _ _ hp => hp, fun _ _ _ hp => hp⟩ (fun k hk => ?_) hm
    rw [← hk.pfHeld, ← hk.axUsedLegs]
    exact Hw.axEnable_shows ((hk.axEnableReason a).trans hr) ((hk.usedMayEnable a).trans hmay) n
  · refine gives_axisLater (f := fun h => h.axEnable a) hl hu ⟨fun _ _ hp => hp, fun _ _ _ hp => hp⟩ (fun k hk => ?_) hm
    have hreason : k.axEnableReason a = 1 := if_pos (by rwa [hk.axState])
    have e : k.axEnable a = k.axRefuse a 1 := by
      unfold Hw.axEnable
      simp [hreason]
    simp only [e]
    exact refused hk (by decide)
  · refine gives_axisEvent (f := fun h => h.axStarted a) hl ⟨fun _ _ hp => hp, fun _ _ _ hp => hp⟩ ?_
    have e : (s.hw.at g).axStarted a = (s.hw.at g).axToRun a := if_pos ⟨hst, hrun, hlast⟩
    obtain ⟨hstate, hwait, hramp, hleg⟩ := (s.hw.at g).axToRun_shows a
    simp only [e]
    exact ⟨hstate, hwait, hramp, hleg n⟩
  · refine gives_axisCommand (f := fun h => h.axStopCmd a (h.axStopDec a) false) hl hu ⟨fun _ _ hp => hp, fun _ _ _ hp => hp⟩
      (fun k hk => ?_) hm
    have hrun := (hk.axState a).trans hst
    obtain ⟨hstate, hramp, hthen, hleg⟩ := Hw.axStop_shows (h := k) (a := a) (by rw [hrun]; decide) (k.axStopDec a) .hold
    simp only [Hw.axStopCmd_running hrun]
    exact ⟨hstate, hk.axr a 0x050 ▸ hramp, hthen, (hleg n).trans (hk.leg n)⟩
  · refine gives_axisCommand (f := fun h => h.axStopCmd a (h.axQstopDec a) true) hl hu ⟨fun _ _ hp => hp, fun _ _ _ hp => hp⟩
      (fun k hk => ?_) hm
    have hrun := (hk.axState a).trans hst
    obtain ⟨hstate, hramp, hthen, hleg⟩ := Hw.axStop_shows (h := k) (a := a) (by rw [hrun]; decide) (k.axQstopDec a) .hold
    simp only [Hw.axStopCmd_running hrun]
    exact ⟨hstate, hk.axr a 0x054 ▸ hramp, hthen, (hleg n).trans (hk.leg n)⟩
  · refine gives_axisCommand (f := fun h => h.axStopCmd a (h.axStopDec a) false) hl hu ⟨fun _ _ hp => hp, fun _ _ _ hp => hp⟩
      (fun k hk => ?_) hm
    obtain ⟨hstate, hleg⟩ := Hw.axStopCmd_starting ((hk.axState a).trans hst) (k.axStopDec a) false
    exact ⟨hstate, (hleg n).trans (hk.leg n)⟩
  · refine gives_axisCommand (f := fun h => h.axStopCmd a (h.axStopDec a) false) hl hu ⟨fun _ _ hp => hp, fun _ _ _ hp => hp⟩
      (fun k hk => ?_) hm
    simp only [Hw.axStopCmd_off ((hk.axState a).trans hst)]
    exact refused hk (by decide)
  · refine gives_axisLater (f := fun h => h.axResume a) hl hu ⟨fun _ _ hp => hp, fun _ _ _ hp => hp⟩ (fun k hk => ?_) hm
    have e : k.axResume a = k.axToRun a := by
      unfold Hw.axResume
      rw [hk.axState, hk.f, hk.pfSrc, hk.axProf, if_neg (not_not.mpr hst), if_neg (not_not.mpr hcode),
        if_neg fun hg => hsrc hg.1]
    obtain ⟨hstate, hwait, hramp, hleg⟩ := k.axToRun_shows a
    simp only [e]
    exact ⟨hstate, hramp, hwait, (hleg n).trans (hk.leg n)⟩
  · refine gives_axisLater (f := fun h => h.axResume a) hl hu ⟨fun _ _ hp => hp, fun _ _ _ hp => hp⟩ (fun k hk => ?_) hm
    have e : k.axResume a = k.axRefuse a 1 := if_pos (by rwa [hk.axState])
    simp only [e]
    exact refused hk (by decide)
  · refine gives_axisCommand (f := fun h => h.axDisable a) hl hu ⟨fun _ _ hp => hp, fun _ _ _ hp => hp⟩ (fun k hk => ?_) hm
    have e : k.axDisable a = k.axOff a := if_neg (by rwa [hk.axState])
    obtain ⟨hstate, hwait, hoff, -⟩ := k.axOff_shows a
    simp only [e]
    exact ⟨hk.f a _ _ _ ▸ hstate, fun hn => hoff n (by rwa [hk.axisLegs]), hwait⟩
  · refine gives_axisLater (f := fun h => h.axReset a) hl hu ⟨fun _ _ hp => hp, fun _ _ _ hp => hp⟩ (fun k hk => ?_) hm
    obtain ⟨hstate, hcode, hleg⟩ := Hw.axReset_shows ((hk.axState a).trans hst) ((hk.anyLatched a).trans hlat)
      ((hk.axEngineHalted a).trans heng)
    exact ⟨hstate, hcode, (hleg n).trans (hk.leg n)⟩
  · refine gives_axisLater (f := fun h => h.axReset a) hl hu ⟨fun _ _ hp => hp, fun _ _ _ hp => hp⟩ (fun k hk => ?_) hm
    have e : k.axReset a = k.axRefuse a 7 := by
      unfold Hw.axReset
      rw [hk.axState, hk.anyLatched, hlat, if_neg (not_not.mpr hst)]
      rfl
    simp only [e]
    exact refused hk (by decide)
  · refine gives_axisWrite (f := fun h => h.engFault a v) hl hu ⟨fun _ _ hp => hp, fun _ _ _ hp => hp⟩ fun k hk => ?_
    obtain ⟨hstate, hfault, hreact, hcopy, hevt, hoff⟩ := Hw.engFault_shows hlo hhi ((hk.f a _ _ _).trans hcode)
    exact ⟨hstate, hfault, hreact, hcopy, hevt, fun hn => hoff n (by rwa [hk.axisLegs])⟩
  · refine gives_axisWrite (f := fun h => h.engFault a v) hl hu ⟨fun _ _ hp => hp, fun _ _ _ hp => hp⟩ fun k hk => ?_
    have e : k.engFault a v = k := if_neg (by omega)
    simp only [e]
    exact ⟨hk.axState a, hk.axr a _, hk.leg n⟩
  · refine gives_axisWrite (f := fun h => h.legSkip a v) hl hu ⟨fun _ _ hp => hp, fun _ _ _ hp => hp⟩ fun k hk => ?_
    have e : k.legSkip a v = k.setF (axr a 0x0AC) 11 0 (fld v 11 0) := if_pos (by rwa [hk.axState])
    simp only [e]
    exact ⟨(k.f_setF_same _ (by decide) (by decide) _).trans (Nat.mod_eq_of_lt (fld_lt v 11 0)),
      (k.f_setF_ne (axr_ne (by decide) (by decide) (by decide)) _ _ _ _ _).trans (hk.axState a)⟩
  · refine gives_axisWrite (f := fun h => h.legSkip a v) hl hu ⟨fun _ _ hp => hp, fun _ _ _ hp => hp⟩ fun k hk => ?_
    have e : k.legSkip a v = k.evt (pAX a) 0 := if_neg (by rw [hk.axState]; exact not_or.mpr ⟨hoff, hfault⟩)
    simp only [e]
    exact ⟨(Hw.reg_evt_ne _ (axr_ne (by decide) (by decide) (by decide)) (axr_ne (by decide) (by decide) (by decide)) 0).trans
      (hk.axr a _), Hw.bit_evt _ _ (by decide)⟩

end Sys2Proof

namespace Sys2Proof.Machine

/-! ## Limits and the home switch of an axis (R278 to R286) -/

/-! ### A limit latches (R280, R281) -/

/-- The wall of a limit in an axis record, and its accepted level. -/
def AxS.wall (x : AxS) (neg : Bool) : Option Word64 := if neg then x.wallN else x.wallP
def AxS.acc (x : AxS) (neg : Bool) : Bool := if neg then x.accN else x.accP

/-- The bit of STAT and the position register of a limit. -/
def limBit (neg : Bool) : Nat := if neg then 5 else 4
def limPos (neg : Bool) : Nat := if neg then 0x074 else 0x070

theorem limBit_lt (neg : Bool) : 2 < limBit neg ∧ limBit neg < 7 := by cases neg <;> decide

theorem limPos_apart (neg : Bool) : limPos neg < 0x1000 ∧ limPos neg ∉ [rSTAT, rEVT, rEVT_TS, 0x078] := by
  cases neg <;> decide

theorem AxesLast.wall {h k : Hw} (hk : AxesLast h k) (a : Nat) (neg : Bool) : (k.axis a).wall neg = (h.axis a).wall neg := by
  unfold AxS.wall
  rw [hk.wallN, hk.wallP]

/-- What a limit that latches shows at once: its position, its bit, its count and its event. -/
def Hw.limNoted (h : Hw) (a : Nat) (neg : Bool) (ts : Nat) : Hw :=
  (((h.setReg (axr a (limPos neg)) (BitVec.ofInt 32 (h.axRawAt a ts))).setBit (axr a rSTAT) (limBit neg) true).bump
    (axr a 0x078) 15 0).evtTs (pAX a) 4 ts

theorem Hw.limNoted_reg (h : Hw) (a : Nat) (neg : Bool) (ts : Nat) {off : Nat} (ho : off < 0x1000) (h1 : off ≠ rEVT)
    (h2 : off ≠ rEVT_TS) (h3 : off ≠ 0x078) : (h.limNoted a neg ts).reg (axr a off) =
    ((h.setReg (axr a (limPos neg)) (BitVec.ofInt 32 (h.axRawAt a ts))).setBit (axr a rSTAT) (limBit neg) true).reg
      (axr a off) := by
  rw [Hw.limNoted, Hw.reg_evtTs_ne _ (axr_ne ho (by decide) h1) (axr_ne ho (by decide) h2),
    Hw.reg_bump_ne _ (axr_ne ho (by decide) h3)]

theorem Hw.limNoted_shows (h : Hw) (a : Nat) (neg : Bool) (ts : Nat) :
    (h.limNoted a neg ts).bit (axr a rSTAT) (limBit neg) = true ∧
    (h.limNoted a neg ts).reg (axr a (limPos neg)) = BitVec.ofInt 32 (h.axRawAt a ts) ∧
    (h.limNoted a neg ts).f (axr a 0x078) 15 0 = min (h.f (axr a 0x078) 15 0 + 1) 0xFFFF ∧
    (h.limNoted a neg ts).bit (axr a rEVT) 4 = true ∧ (h.limNoted a neg ts).axState a = h.axState a := by
  obtain ⟨hlo, hhi⟩ := limBit_lt neg
  obtain ⟨hp, hn⟩ := limPos_apart neg
  simp only [List.mem_cons, List.not_mem_nil, or_false, not_or] at hn
  obtain ⟨n1, n2, n3, n4⟩ := hn
  have hstat := h.limNoted_reg a neg ts (off := rSTAT) (by decide) (by decide) (by decide) (by decide)
  refine ⟨?_, ?_, ?_, Hw.bit_evtTs _ _ (by decide) _, ?_⟩
  · exact (congrArg (bitOf · _) hstat).trans (Hw.bit_setBit_same _ _ (by omega) _)
  · rw [h.limNoted_reg a neg ts hp n2 n3 n4, Hw.reg_setBit_ne _ (axr_ne hp (by decide) n1), Hw.reg_setReg_same]
  · have h78 : (h.limNoted a neg ts).f (axr a 0x078) 15 0 = (((h.setReg (axr a (limPos neg))
        (BitVec.ofInt 32 (h.axRawAt a ts))).setBit (axr a rSTAT) (limBit neg) true).bump
        (axr a 0x078) 15 0).f (axr a 0x078) 15 0 :=
      congrArg (fld · 15 0) (Hw.reg_evtTs_ne _ (axr_ne (by decide) (by decide) (by decide))
        (axr_ne (by decide) (by decide) (by decide)) 4 ts)
    rw [h78, Hw.f_bump_same _ _ (by decide) (by decide), Hw.f,
      Hw.reg_setBit_ne _ (axr_ne (by decide) (by decide) (by decide)),
      Hw.reg_setReg_ne _ (axr_ne (by decide) hp (Ne.symm n4))]
    rfl
  · refine (congrArg (fld · 2 0) hstat).trans ((Hw.axState_setBit _ a hlo (by omega) true a).trans ?_)
    exact congrArg (fld · 2 0) (h.reg_setReg_ne (axr_ne (by decide) hp (Ne.symm n1)) _)

/-- In HOLDING the wall of a limit that latches stands at the last released position. -/
theorem Hw.limLatch_holding {h : Hw} {a : Nat} {neg : Bool} {ts : Nat} {P : Hw → Prop} (hst : h.axState a = sHOLDING)
    (hP : ∀ x : AxS, x.wall neg = some (h.axRel a).pos → P ((((h.limNoted a neg ts).axHigh a).setAxis a x).axRewall a)) :
    P (h.limLatch a neg ts) := by
  unfold Hw.limLatch
  extract_lets sgn last st k l x y travels
  have htravels : travels = false := by
    simp only [travels]
    split
    · simp [st, hst, sHOLDING, sHOMING]
    · rfl
  have hrest : ¬ ((st = sRUNNING ∨ st = sSTOPPING) ∧ 0 < sgn * last.vel) := by
    simp [st, hst, sHOLDING, sRUNNING, sSTOPPING]
  rw [htravels, if_neg (by decide), if_neg hrest]
  refine hP (y.setWall neg last.pos false) ?_
  unfold AxS.wall AxS.setWall
  split <;> rfl

/-- A limit whose active level is accepted in HOLDING latches. -/
theorem Hw.limLatch_shows {h : Hw} {a : Nat} (hst : h.axState a = sHOLDING) (neg : Bool) (ts : Nat) :
    (h.limLatch a neg ts).bit (axr a rSTAT) (limBit neg) = true ∧
    (h.limLatch a neg ts).reg (axr a (limPos neg)) = BitVec.ofInt 32 (h.axRawAt a ts) ∧
    (h.limLatch a neg ts).f (axr a 0x078) 15 0 = min (h.f (axr a 0x078) 15 0 + 1) 0xFFFF ∧
    (h.limLatch a neg ts).bit (axr a rEVT) 4 = true ∧
    ((h.limLatch a neg ts).axis a).wall neg = some (h.axRel a).pos ∧ (h.limLatch a neg ts).axState a = sHOLDING := by
  obtain ⟨x, hx, e⟩ : ∃ x : AxS, x.wall neg = some (h.axRel a).pos ∧
      h.limLatch a neg ts = (((h.limNoted a neg ts).axHigh a).setAxis a x).axRewall a :=
    Hw.limLatch_holding (P := fun k => ∃ x : AxS, x.wall neg = some (h.axRel a).pos ∧
      k = (((h.limNoted a neg ts).axHigh a).setAxis a x).axRewall a) hst fun x hx => ⟨x, hx, rfl⟩
  rw [e]
  obtain ⟨hbit, hpos, hcnt, hevt, hstate⟩ := h.limNoted_shows a neg ts
  have hs := (((h.limNoted a neg ts).axHigh a).setAxis a x).axRewall_shaped a
  have hreg : ∀ off, ((((h.limNoted a neg ts).axHigh a).setAxis a x).axRewall a).reg (axr a off) =
      (h.limNoted a neg ts).reg (axr a off) := fun off => by rw [hs.axr, Hw.reg_setAxis, Hw.axHigh, Hw.reg_setAxis]
  refine ⟨(congrArg (bitOf · _) (hreg _)).trans hbit, (hreg _).trans hpos, (congrArg (fld · 15 0) (hreg _)).trans hcnt,
    (congrArg (bitOf · 4) (hreg _)).trans hevt, ?_, (congrArg (fld · 2 0) (hreg _)).trans (hstate.trans hst)⟩
  rw [hs.last.wall, Hw.axis_setAxis_same, hx]

/-! ### A limit's level is accepted (R279, R281) -/

/-- The accepted level of a limit noted, with its record in the log. -/
def Hw.limLevel (h : Hw) (a : Nat) (neg active : Bool) (ts : Nat) : Hw :=
  let k := h.log (pAX a) 6 4 a ts
  k.setAxis a (if neg then { k.axis a with accN := active } else { k.axis a with accP := active })

theorem Hw.limLevel_acc (h : Hw) (a : Nat) (neg active : Bool) (ts : Nat) :
    ((h.limLevel a neg active ts).axis a).acc neg = active := by
  rw [Hw.limLevel, Hw.axis_setAxis_same]
  unfold AxS.acc
  split <;> rfl

/-- Outside the log the note moves no register. -/
theorem Hw.limLevel_reg (h : Hw) (a : Nat) (neg active : Bool) (ts : Nat) {b : Nat} (hb : ¬ inLog b) :
    (h.limLevel a neg active ts).reg b = h.reg b := (h.log_logged _ _ _ _ _ 0).reg hb

theorem Hw.limLevel_prf (h : Hw) (a : Nat) (neg active : Bool) (ts : Nat) : (h.limLevel a neg active ts).prf = h.prf :=
  (h.log_logged (pAX a) 6 4 a ts 0).prf

theorem Hw.limLevel_fbs (h : Hw) (a : Nat) (neg active : Bool) (ts : Nat) : (h.limLevel a neg active ts).fbs = h.fbs :=
  (h.log_logged (pAX a) 6 4 a ts 0).fbs

theorem Hw.limLevel_legs (h : Hw) (a : Nat) (neg active : Bool) (ts : Nat) : (h.limLevel a neg active ts).legs = h.legs :=
  (h.log_logged (pAX a) 6 4 a ts 0).legs

section
variable {h : Hw} {a : Nat} {neg : Bool} (hl : h.bit (axr a rSTAT) (limBit neg) = false)
include hl

theorem Hw.limLevel_unlatched (active : Bool) (ts : Nat) :
    (h.limLevel a neg active ts).bit (axr a rSTAT) (limBit neg) = false :=
  (congrArg (bitOf · _) (h.limLevel_reg a neg active ts (not_inLog_of_ge (by unfold axr ra pAX; omega)))).trans hl

/-- An active level accepted of a limit that is not latched latches it. -/
theorem Hw.limAccepted_active (ts : Nat) : h.limAccepted a neg true ts = (h.limLevel a neg true ts).limLatch a neg ts := by
  have hlat := Hw.limLevel_unlatched hl true ts
  unfold Hw.limAccepted
  extract_lets k x l latched y
  rw [if_pos rfl, if_neg (by rw [show latched = false from hlat]; decide)]
  rfl

/-- An inactive level accepted of a limit that is not latched is noted alone, outside homing. -/
theorem Hw.limAccepted_inactive (ts : Nat) (hst : h.axState a ≠ sHOMING) :
    h.limAccepted a neg false ts = h.limLevel a neg false ts := by
  have hlat := Hw.limLevel_unlatched hl false ts
  have hstate : (h.limLevel a neg false ts).axState a ≠ sHOMING := ne_of_eq_of_ne
    (congrArg (fld · 2 0) (h.limLevel_reg a neg false ts (not_inLog_of_ge (by unfold axr ra pAX; omega)))) hst
  unfold Hw.limAccepted
  extract_lets k x l latched y seen z w l'
  have hl' : l' = l := by
    simp only [l']
    split
    · exact if_neg fun hc => hstate hc.1
    · rfl
  rw [if_neg (by decide), if_neg (by rw [show latched = false from hlat]; decide), hl']
  rfl

end

section
variable {h : Hw} {a : Nat} {neg level : Bool} (hsh : h.limShows a (if neg then 1 else 0) level = true)
  (hne : h.limActive a (if neg then 1 else 0) level ≠ (h.axis a).acc neg)
include hsh hne

/-- A run that changes the accepted level is accepted once it has stood, and too short before. -/
theorem Hw.limRun_change (first : Nat) : h.limRun a neg level first = if h.limStood a first then
      h.limAccepted a neg (h.limActive a (if neg then 1 else 0) level) (h.limStamp a (if neg then 1 else 0) first)
    else h.limShort a neg (h.limStamp a (if neg then 1 else 0) first) := by
  refine if_neg ?_
  rw [hsh, Bool.not_true, Bool.false_or]
  exact mt beq_iff_eq.mp hne

theorem Hw.limRun_stood {first : Nat} (hst : h.limStood a first = true) : h.limRun a neg level first =
    h.limAccepted a neg (h.limActive a (if neg then 1 else 0) level) (h.limStamp a (if neg then 1 else 0) first) :=
  (Hw.limRun_change hsh hne first).trans (if_pos hst)

theorem Hw.limRun_short {first : Nat} (hst : h.limStood a first = false) :
    h.limRun a neg level first = h.limShort a neg (h.limStamp a (if neg then 1 else 0) first) :=
  (Hw.limRun_change hsh hne first).trans (if_neg (by rw [hst]; decide))

end

/-- A run of the accepted level, or of a source that cannot show it, changes nothing. -/
theorem Hw.limRun_idle {h : Hw} {a : Nat} {neg level : Bool} (hno : h.limShows a (if neg then 1 else 0) level = false ∨
    h.limActive a (if neg then 1 else 0) level = (h.axis a).acc neg) (first : Nat) : h.limRun a neg level first = h := by
  refine if_pos ?_
  rcases hno with hsh | hact
  · simp only [hsh, Bool.not_false, Bool.true_or]
  · rw [Bool.or_eq_true]
    exact .inr (beq_iff_eq.mpr hact)

section
variable {h k : Hw} (hr : ∀ b, ¬ inLog b → k.reg b = h.reg b) (hp : k.prf = h.prf)
include hr hp

theorem Hw.axRel_congr (a : Nat) : k.axRel a = h.axRel a := by
  have hprof : k.axProf a = h.axProf a := congrArg (fld · 15 8) (hr _ (not_inLog_of_ge (by unfold axr ra pAX; omega)))
  rw [Hw.axRel, Hw.axRel, hprof, Hw.prof_of_prf hp]

/-- The position of an axis at a time-stamp hangs on its port, and without one on the last released record. -/
theorem Hw.axRawAt_congr (hf : k.fbs = h.fbs) (a ts : Nat) : k.axRawAt a ts = h.axRawAt a ts := by
  have hfb : k.axFb a = h.axFb a := congrArg (fld · 5 0) (hr _ (not_inLog_of_ge (by unfold axr ra pAX; omega)))
  have hraw : ∀ n, k.fbRaw n = h.fbRaw n := fun n => Hw.reg64_congr (hr _ (not_inLog_of_ge (by unfold ra pFB; omega)))
    (hr _ (not_inLog_of_ge (by unfold ra pFB; omega)))
  simp only [Hw.axRawAt, Hw.axRaw, Hw.fbInt, hfb, hraw, Hw.axRel_congr hr hp, Hw.fb_of_fbs hf]

end

/-- What an active level accepted in HOLDING shows of a limit that was not latched. -/
theorem Hw.limAccepted_latches {h : Hw} {a : Nat} {neg : Bool} (hl : h.bit (axr a rSTAT) (limBit neg) = false)
    (hst : h.axState a = sHOLDING) (ts : Nat) :
    (h.limAccepted a neg true ts).bit (axr a rSTAT) (limBit neg) = true ∧
    (h.limAccepted a neg true ts).reg (axr a (limPos neg)) = BitVec.ofInt 32 (h.axRawAt a ts) ∧
    (h.limAccepted a neg true ts).f (axr a 0x078) 15 0 = min (h.f (axr a 0x078) 15 0 + 1) 0xFFFF ∧
    (h.limAccepted a neg true ts).bit (axr a rEVT) 4 = true ∧
    ((h.limAccepted a neg true ts).axis a).wall neg = some (h.axRel a).pos ∧
    (h.limAccepted a neg true ts).axState a = sHOLDING := by
  have hreg := fun b => h.limLevel_reg a neg true ts (b := b)
  have hprf := h.limLevel_prf a neg true ts
  have hax : ∀ off hi lo, (h.limLevel a neg true ts).f (axr a off) hi lo = h.f (axr a off) hi lo := fun off hi lo =>
    congrArg (fld · hi lo) (hreg _ (not_inLog_of_ge (by unfold axr ra pAX; omega)))
  rw [Hw.limAccepted_active hl, ← hax 0x078, ← Hw.axRawAt_congr hreg hprf (h.limLevel_fbs a neg true ts),
    ← Hw.axRel_congr hreg hprf]
  exact Hw.limLatch_shows ((hax rSTAT 2 0).trans hst) neg ts

/-! ### Chatter and release (R279, R281) -/

theorem aside_ax : Aside (fun _ => True) Hw.ax := ⟨fun _ _ _ _ => rfl, fun _ _ _ _ => rfl, fun hk => hk.ax⟩

/-- A chatter event counts, and leaves every axis and the latched limits. -/
theorem Hw.limChatter_shows (h : Hw) (a ts : Nat) :
    (h.limChatter a ts).f (axr a 0x078) 31 16 = min (h.f (axr a 0x078) 31 16 + 1) 0xFFFF ∧
    (∀ neg, (h.limChatter a ts).bit (axr a rSTAT) (limBit neg) = h.bit (axr a rSTAT) (limBit neg)) ∧
    (h.limChatter a ts).ax = h.ax := by
  have hout : ∀ off, ¬ inLog (axr a off) := fun off => not_inLog_of_ge (by unfold axr ra pAX; omega)
  have h78 : (h.limChatter a ts).reg (axr a 0x078) = (h.bump (axr a 0x078) 31 16).reg (axr a 0x078) := by
    have hF := aside_reg (hout 0x078)
    have hne : ∀ off < 0x1000, off ≠ 0x078 → axr a off ≠ axr a 0x078 := fun off ho => axr_ne ho (by decide)
    have hflt := hF.fltEvent (h.bump (axr a 0x078) 31 16) (p := pAX a) (hne rFLT_CNT (by decide) (by decide)) 6 5 a ts
    have hevt : ∀ (h : Hw) i, (h.evt (pAX a) i).reg (axr a 0x078) = h.reg (axr a 0x078) := fun h i =>
      hF.evt h (hne _ (by decide) (by decide)) (hne _ (by decide) (by decide)) i
    unfold Hw.limChatter
    dsimp only
    rw [apply_ite (Hw.reg · (axr a 0x078)), hevt, hevt, hF.setBit _ (hne _ (by decide) (by decide)), ite_self, hflt]
  have hstat : ∀ neg, (h.limChatter a ts).bit (axr a rSTAT) (limBit neg) = h.bit (axr a rSTAT) (limBit neg) := fun neg => by
    have hF := aside_reg (hout rSTAT)
    have hne : ∀ off < 0x1000, off ≠ rSTAT → axr a off ≠ axr a rSTAT := fun off ho => axr_ne ho (by decide)
    have hflt : ((h.bump (axr a 0x078) 31 16).fltEvent (pAX a) 6 5 a ts).1.bit (axr a rSTAT) (limBit neg) =
        h.bit (axr a rSTAT) (limBit neg) := congrArg (bitOf · _)
      ((hF.fltEvent _ (hne rFLT_CNT (by decide) (by decide)) 6 5 a ts).trans
        (hF.bump h (hne _ (by decide) (by decide)) 31 16))
    have hevt : ∀ (h : Hw) i, (h.evt (pAX a) i).bit (axr a rSTAT) (limBit neg) =
        h.bit (axr a rSTAT) (limBit neg) := fun h i =>
      congrArg (bitOf · _) (hF.evt h (hne _ (by decide) (by decide)) (hne _ (by decide) (by decide)) i)
    unfold Hw.limChatter
    dsimp only
    rw [apply_ite (Hw.bit · (axr a rSTAT) (limBit neg)), hevt, hevt,
      Hw.bit_setBit_other _ _ (by decide) (by have := limBit_lt neg; omega), ite_self, hflt]
  refine ⟨(congrArg (fld · 31 16) h78).trans (h.f_bump_same _ (by decide) (by decide)), hstat, ?_⟩
  unfold Hw.limChatter
  dsimp only
  rw [apply_ite Hw.ax, Hw.evt_ax, Hw.evt_ax, Hw.setBit_ax, ite_self, aside_ax.fltEvent _ trivial, Hw.bump_ax]

/-- A limit that releases: its bit and its wall are gone, and the state and the legs stand. -/
theorem Hw.limRelease_shows {h : Hw} {a : Nat} {neg : Bool} (hrel : h.limReleases a neg = true) :
    (h.limRelease a neg).bit (axr a rSTAT) (limBit neg) = false ∧ ((h.limRelease a neg).axis a).wall neg = none ∧
    (h.limRelease a neg).axState a = h.axState a ∧ ∀ n, (h.limRelease a neg).leg n = h.leg n := by
  obtain ⟨hlo, hhi⟩ := limBit_lt neg
  have e : h.limRelease a neg = (((h.setBit (axr a rSTAT) (limBit neg) false).setBit (axr a rSTAT) 7 false).setAxis a
      (if neg then { h.axis a with wallN := none, wallPendN := false, seenN := false }
        else { h.axis a with wallP := none, wallPendP := false, seenP := false })).axRewall a := if_pos hrel
  rw [e]
  have hs := (((h.setBit (axr a rSTAT) (limBit neg) false).setBit (axr a rSTAT) 7 false).setAxis a
      (if neg then { h.axis a with wallN := none, wallPendN := false, seenN := false }
        else { h.axis a with wallP := none, wallPendP := false, seenP := false })).axRewall_shaped a
  refine ⟨?_, ?_, ?_, hs.leg⟩
  · refine (congrArg (bitOf · _) ((hs.axr a rSTAT).trans (Hw.reg_setAxis _ _ _ _))).trans ?_
    exact (Hw.bit_setBit_other _ _ (by decide) (by omega) false).trans (h.bit_setBit_same _ (by omega) false)
  · rw [hs.last.wall, Hw.axis_setAxis_same]
    unfold AxS.wall
    split <;> rfl
  · refine (congrArg (fld · 2 0) ((hs.axr a rSTAT).trans (Hw.reg_setAxis _ _ _ _))).trans ?_
    exact (Hw.axState_setBit _ a (by decide) (by decide) false a).trans (h.axState_setBit a hlo (by omega) false a)

/-! ### The home switch (R283) -/

/-- A home level accepted outside homing is noted and shown. -/
theorem Hw.homeLevel_shows {h : Hw} {a : Nat} (hst : h.axState a ≠ sHOMING) (active : Bool) (ts : Nat) :
    (h.homeLevel a active ts).bit (axr a rSTAT) 8 = active ∧ ((h.homeLevel a active ts).axis a).accH = active ∧
    (h.homeLevel a active ts).axState a = h.axState a ∧ ∀ n, (h.homeLevel a active ts).leg n = h.leg n := by
  have hlog := h.log_logged (pAX a) 6 4 a ts 0
  have e : h.homeLevel a active ts = ((h.log (pAX a) 6 4 a ts).setAxis a { (h.log (pAX a) 6 4 a ts).axis a with
      accH := active }).setBit (axr a rSTAT) 8 active := by
    have hstate : (((h.log (pAX a) 6 4 a ts).setAxis a { (h.log (pAX a) 6 4 a ts).axis a with
        accH := active }).setBit (axr a rSTAT) 8 active).axState a ≠ sHOMING := by
      rw [Hw.axState_setBit _ a (by decide) (by decide)]
      exact ne_of_eq_of_ne (congrArg (fld · 2 0) (hlog.reg (not_inLog_of_ge (by unfold axr ra pAX; omega)))) hst
    unfold Hw.homeLevel
    dsimp only
    split
    · rfl
    · exact if_pos (.inl hstate)
  rw [e]
  generalize h.log (pAX a) 6 4 a ts = k at *
  have hstate : k.axState a = h.axState a := congrArg (fld · 2 0) (hlog.reg (not_inLog_of_ge (by unfold axr ra pAX; omega)))
  refine ⟨Hw.bit_setBit_same _ _ (by decide) _, ?_, (Hw.axState_setBit _ a (by decide) (by decide) _ a).trans hstate,
    fun n => congrArg (tabGet ({} : LegS) n) hlog.legs⟩
  rw [Hw.axis_of_ax (Hw.setBit_ax _ _ _ _), Hw.axis_setAxis_same]

/-- A run of a home level that has stood is accepted where it changes the accepted level. -/
theorem Hw.homeRun_stood {h : Hw} {a : Nat} {level : Bool} {first : Nat} (hsh : h.limShows a 2 level = true)
    (hne : h.limActive a 2 level ≠ (h.axis a).accH) (hst : h.limStood a first = true) :
    h.homeRun a level first = h.homeLevel a (h.limActive a 2 level) (h.limStamp a 2 first) :=
  if_pos (by rw [hsh, bne_iff_ne.mpr hne, hst]; rfl)

theorem Hw.homeRun_idle {h : Hw} {a : Nat} {level : Bool} {first : Nat} (hno : h.limShows a 2 level = false ∨
    h.limStood a first = false ∨ h.limActive a 2 level = (h.axis a).accH) : h.homeRun a level first = h := by
  refine if_neg fun hc => ?_
  rw [Bool.and_eq_true, Bool.and_eq_true] at hc
  obtain ⟨⟨hsh, hne⟩, hst⟩ := hc
  rcases hno with h1 | h1 | h1
  · exact absurd (h1.symm.trans hsh) (by decide)
  · exact absurd (h1.symm.trans hst) (by decide)
  · exact bne_iff_ne.mp hne h1

theorem AxesAs.homeCfgOk {k h : Hw} (hk : AxesAs k h) (a : Nat) : k.homeCfgOk a = h.homeCfgOk a := by
  rw [Hw.homeCfgOk, Hw.homeCfgOk, hk.reads.limSrcOk, hk.f]

/-! ### HOME by method 0 (R282, R283) -/

/-- HOME by method 0 from HOLDING takes the present count as reference, and the load is due. -/
theorem Hw.axHome_holding {h : Hw} {a : Nat} (hst : h.axState a = sHOLDING) (hcode : h.f (axr a 0x0A4) 7 0 = 0)
    (hidle : h.axIdle a = true) (hm : h.f (axr a 0x07C) 2 0 = 0) (hcfg : h.homeCfgOk a = true) :
    (h.axHome a).axState a = sHOMING ∧ ((h.axHome a).axis a).load = true ∧
    (h.axHome a).reg (axr a 0x094) = BitVec.ofInt 32 (h.axRaw a) ∧
    (h.axHome a).reg64 (axr a 0x098) = h.reg64 (axr a 0x098) ∧ ∀ n, (h.axHome a).leg n = h.leg n := by
  have hres : h.homeResources a = true := by
    simp [Hw.homeResources, hcfg, hm]
  obtain ⟨x, y, hload, e⟩ : ∃ x y : AxS, y.load = true ∧ h.axHome a = ((((h.setAxState a sHOMING).setAxis a x).setReg
      (axr a 0x094) (BitVec.ofInt 32 (((h.setAxState a sHOMING).setAxis a x).axRaw a))).setAxis a y).axShape a := by
    unfold Hw.axHome
    simp only [hst, hcode, hidle, hres, hm, sHOLDING, sOFF]
    exact ⟨_, _, rfl, rfl⟩
  have hne : ∀ {p off : Nat}, off < 0x1000 → off ≠ rSTAT → ((h.setAxState a sHOMING).setAxis a x).reg (ra p off) =
      h.reg (ra p off) := fun ho hn => h.reg_setF_ne (a := axr a rSTAT) (ra_ne_off ho (by decide) hn) 2 0 sHOMING
  have hraw : ((h.setAxState a sHOMING).setAxis a x).axRaw a = h.axRaw a := by
    have hfb : ((h.setAxState a sHOMING).setAxis a x).axFb a = h.axFb a :=
      congrArg (fld · 5 0) (hne (p := pAX a) (by decide) (by decide))
    have hprof : ((h.setAxState a sHOMING).setAxis a x).axProf a = h.axProf a :=
      congrArg (fld · 15 8) (hne (p := pAX a) (by decide) (by decide))
    have hport : ∀ n, ((h.setAxState a sHOMING).setAxis a x).fbRaw n = h.fbRaw n := fun n => Hw.reg64_congr
      (hne (by decide) (by decide)) (hne (p := pFB n) (off := 0x064) (by decide) (by decide))
    rw [Hw.axRaw, Hw.axRaw, Hw.axRel, Hw.axRel, hfb, hprof, hport]
    rfl
  rw [e, hraw]
  have hs := ((((h.setAxState a sHOMING).setAxis a x).setReg (axr a 0x094)
    (BitVec.ofInt 32 (h.axRaw a))).setAxis a y).axShape_shaped a
  refine ⟨?_, (hs.last.load a).trans ?_, ?_, Hw.reg64_congr ?_ ?_, hs.leg⟩
  · rw [hs.axState, Hw.axState, Hw.f, Hw.reg_setAxis, Hw.reg_setReg_ne _ (axr_ne (by decide) (by decide) (by decide)),
      Hw.reg_setAxis]
    exact h.axState_setAxState a (by decide)
  · rw [Hw.axis_setAxis_same, hload]
  · rw [hs.axr, Hw.reg_setAxis, Hw.reg_setReg_same]
  · rw [hs.axr, Hw.reg_setAxis, Hw.reg_setReg_ne _ (axr_ne (by decide) (by decide) (by decide))]
    exact hne (by decide) (by decide)
  · refine (hs.axr a 0x09C).trans ?_
    rw [Hw.reg_setAxis, Hw.reg_setReg_ne _ (axr_ne (by decide) (by decide) (by decide))]
    exact hne (by decide) (by decide)

end Sys2Proof.Machine

namespace Sys2Proof
open Machine

/-- Settles O45: the run of a level leads to one of three operations, each of which shows its registers, and the shaping of
the next record takes none away. -/
theorem limitsAndHoming : Obligations.LimitsAndHoming := by
  intro s g a n hl
  refine ⟨fun neg level first hsh hstood hact hacc hbit hst => ?_, fun neg level first hsh hstood hact hacc hbit hst => ?_,
    fun neg level first hsh hshort hne hbit => ?_, fun neg level first hsh hshort hbit => ?_, fun neg level first hno => ?_,
    fun neg hrel => ?_, fun neg hrel => ?_, fun level first hsh hstood hne hst => ?_, fun level first hno => ?_,
    fun hu hm hst hcode hidle hmethod hcfg => ?_, fun hu hm hst hst' => ?_⟩
  · refine gives_axisEvent (f := fun h => h.limRun a neg level first) hl ⟨fun _ _ hp => hp, fun _ _ _ hp => hp⟩ ?_
    have hne : (s.hw.at g).limActive a (if neg then 1 else 0) level ≠ ((s.hw.at g).axis a).acc neg :=
      ne_of_eq_of_ne hact (Ne.symm (ne_of_eq_of_ne hacc (by decide)))
    have e := Hw.limRun_stood (h := s.hw.at g) (a := a) (first := first) hsh hne (decide_eq_true hstood)
    rw [show (s.hw.at g).limActive a (if neg then 1 else 0) level = true from hact] at e
    simp only [e]
    exact Hw.limAccepted_latches (h := s.hw.at g) hbit hst _
  · refine gives_axisEvent (f := fun h => h.limRun a neg level first) hl ⟨fun _ _ hp => hp, fun _ _ _ hp => hp⟩ ?_
    have hne : (s.hw.at g).limActive a (if neg then 1 else 0) level ≠ ((s.hw.at g).axis a).acc neg :=
      ne_of_eq_of_ne hact (Ne.symm (ne_of_eq_of_ne hacc (by decide)))
    have e := Hw.limRun_stood (h := s.hw.at g) (a := a) (first := first) hsh hne (decide_eq_true hstood)
    rw [show (s.hw.at g).limActive a (if neg then 1 else 0) level = false from hact,
      Hw.limAccepted_inactive (h := s.hw.at g) hbit _ hst] at e
    simp only [e]
    exact ⟨Hw.limLevel_reg _ _ _ _ _ (not_inLog_of_ge (by unfold axr ra pAX; omega)), Hw.limLevel_acc _ _ _ _ _,
      congrArg (tabGet ({} : LegS) n) (Hw.limLevel_legs _ _ _ _ _)⟩
  · refine gives_axisEvent (f := fun h => h.limRun a neg level first) hl ⟨fun _ _ hp => hp, fun _ _ _ hp => hp⟩ ?_
    have e : (s.hw.at g).limRun a neg level first = _ :=
      (Hw.limRun_short (h := s.hw.at g) hsh hne (decide_eq_false (Nat.not_le.mpr hshort))).trans (if_pos hbit)
    obtain ⟨hcnt, hstat, hax⟩ := (s.hw.at g).limChatter_shows a ((s.hw.at g).limStamp a (if neg then 1 else 0) first)
    simp only [e]
    exact ⟨hcnt, (hstat neg).trans hbit, Hw.axis_of_ax hax a⟩
  · refine gives_axisEvent (f := fun h => h.limRun a neg level first) hl ⟨fun _ _ hp => hp, fun _ _ _ hp => hp⟩ ?_
    have e : (s.hw.at g).limRun a neg level first = s.hw.at g := by
      by_cases hne : s.hw.limActive a (if neg then 1 else 0) level = (s.hw.axis a).acc neg
      · exact Hw.limRun_idle (h := s.hw.at g) (.inr hne) first
      · refine (Hw.limRun_short (h := s.hw.at g) hsh hne (decide_eq_false (Nat.not_le.mpr hshort))).trans (if_neg ?_)
        rw [show (s.hw.at g).bit (axr a rSTAT) (if neg then 5 else 4) = false from hbit]
        decide
    simp only [e]
    exact ⟨rfl, rfl⟩
  · refine gives_axisEvent (f := fun h => h.limRun a neg level first) hl ⟨fun _ _ hp => hp, fun _ _ _ hp => hp⟩ ?_
    simp only [Hw.limRun_idle (h := s.hw.at g) hno first]
    exact ⟨rfl, rfl⟩
  · refine gives_axisEvent (f := fun h => h.limRelease a neg) hl ⟨fun _ _ hp => hp, fun _ _ _ hp => hp⟩ ?_
    obtain ⟨hbit, hwall, hstate, hleg⟩ := Hw.limRelease_shows (h := s.hw.at g) hrel
    exact ⟨hbit, hwall, hstate, hleg n⟩
  · refine gives_axisEvent (f := fun h => h.limRelease a neg) hl ⟨fun _ _ hp => hp, fun _ _ _ hp => hp⟩ ?_
    have e : (s.hw.at g).limRelease a neg = s.hw.at g :=
      if_neg (by rw [show (s.hw.at g).limReleases a neg = false from hrel]; decide)
    simp only [e]
    exact ⟨rfl, rfl⟩
  · refine gives_axisEvent (f := fun h => h.homeRun a level first) hl ⟨fun _ _ hp => hp, fun _ _ _ hp => hp⟩ ?_
    have e := Hw.homeRun_stood (h := s.hw.at g) (a := a) hsh hne (decide_eq_true hstood)
    obtain ⟨hbit, hacc, hstate, hleg⟩ := Hw.homeLevel_shows (h := s.hw.at g) (a := a) hst ((s.hw.at g).limActive a 2 level)
      ((s.hw.at g).limStamp a 2 first)
    simp only [e]
    exact ⟨hbit, hacc, hstate, hleg n⟩
  · refine gives_axisEvent (f := fun h => h.homeRun a level first) hl ⟨fun _ _ hp => hp, fun _ _ _ hp => hp⟩ ?_
    have hidle : (s.hw.at g).limShows a 2 level = false ∨ (s.hw.at g).limStood a first = false ∨
        (s.hw.at g).limActive a 2 level = ((s.hw.at g).axis a).accH :=
      hno.imp_right (.imp_left fun hshort => decide_eq_false (Nat.not_le.mpr hshort))
    simp only [Hw.homeRun_idle hidle]
    exact ⟨rfl, rfl⟩
  · refine gives_axisLater (f := fun h => h.axHome a) hl hu ⟨fun _ _ hp => hp, fun _ _ _ hp => hp⟩ (fun k hk => ?_) hm
    obtain ⟨hstate, hload, href, hhold, hleg⟩ := Hw.axHome_holding ((hk.axState a).trans hst) ((hk.f a _ _ _).trans hcode)
      ((hk.axIdle a).trans hidle) ((hk.f a _ _ _).trans hmethod) ((hk.homeCfgOk a).trans hcfg)
    exact ⟨hstate, hload, href.trans (congrArg _ (hk.axRaw a)),
      hhold.trans (Hw.reg64_congr (hk.axr a 0x098) (hk.axr a 0x09C)), (hleg n).trans (hk.leg n)⟩
  · refine gives_axisLater (f := fun h => h.axHome a) hl hu ⟨fun _ _ hp => hp, fun _ _ _ hp => hp⟩ (fun k hk => ?_) hm
    have e : k.axHome a = k.axRefuse a 1 := if_pos (by simp [hk.axState, hst, hst'])
    simp only [e]
    rw [← hk.axState, ← hk.axis, ← hk.leg]
    exact k.axRefuse_shows a (by decide) n

end Sys2Proof
